-- ==== Sys2Proof/Word.lean ====
section
/-! DEFINITION.
The words of the machine: what the manual treats as bits. -/

namespace Sys2Proof

/-- One byte of a packet, of memory or of flash. -/
abbrev Byte := BitVec 8

/-- A 32-bit register word (R4, 00). -/
abbrev Word := BitVec 32

/-- A tally counter: 64 bits, wrapping modulo 2^64 (R464, 21). -/
abbrev Tally := BitVec 64

/-- Two's-complement value of the low `w` bits of `n`, as the signed formats of R6 (00) read them. -/
def signed (w n : Nat) : Int :=
  if n % 2 ^ w < 2 ^ (w - 1) then (n % 2 ^ w : Nat) else (n % 2 ^ w : Nat) - (2 ^ w : Nat)

/-- The `w`-bit two's-complement code of `i` (R6, 00). -/
def unsigned (w : Nat) (i : Int) : Nat := (i % (2 ^ w : Nat)).toNat

end Sys2Proof
end

