-- ==== Sys2Proof/Syntax.lean ====
section
/-! DEFINITION.
The commands: one constructor for each row of spec/opcode_table.json, and the packets and frames they carry. -/

namespace Sys2Proof

/-- The source of a Ruhity packet (R78, 04): the Host Port, or one IPv4 address and UDP port pair. -/
inductive Source
  | hostPort
  | udp (addr : BitVec 32) (port : BitVec 16)
deriving DecidableEq, Repr

/-- A Ruhity request whose header has passed steps 1 to 6 of Table 4.5 (R68, R77, 04).
The opcode is the command's own; `params` is the parameter area as sent. -/
structure Request where
  /-- Where it came from (R78). -/
  src : Source := .hostPort
  /-- Flags byte, Table 4.2 (R69). -/
  flags : BitVec 8 := 0
  /-- Sequence (R78). -/
  seq : BitVec 32 := 0
  /-- Target (Table 4.1). -/
  target : BitVec 16 := 0xFFFF
  /-- Host cookie (Table 4.1). -/
  tag : BitVec 16 := 0
  /-- Time-of-effect, TBASE0 ns; 0 means immediately (R9, R81). -/
  toe : BitVec 64 := 0
  /-- Parameter area (R71). -/
  params : List Byte := []
  /-- Arrival instant, TBASE0 ns (R81). -/
  arrival : Nat := 0
  /-- It carried a tag that verified (R86). -/
  authed : Bool := false
  /-- Number of the sequence window it was marked in: a RESYNC opens a new one (R79). -/
  epoch : Nat := 0
deriving DecidableEq, Repr

/-- A frame of the Backbone Switch (R308 to R316, 14), without preamble and FCS. -/
structure NetFrame where
  /-- Destination MAC address. -/
  dst : BitVec 48 := 0
  /-- Source MAC address. -/
  src : BitVec 48 := 0
  /-- VLAN tag: priority code point and VLAN ID, when tagged. -/
  vlan : Option (Nat × Nat) := none
  /-- EtherType. -/
  etherType : Nat := 0
  /-- What follows the EtherType. -/
  payload : List Byte := []
  /-- Length on the wire in bytes, FCS included. -/
  length : Nat := 64
  /-- Traffic class the switch gave it. -/
  cls : Nat := 0
  /-- Port on which it came in: 0 to 3, or 4 for the device itself. -/
  port : Nat := 4
  /-- Ingress timestamp, ns on the device's own count (R323). -/
  ingress : Nat := 0
deriving DecidableEq, Repr

/-- A CAN frame (R382, 17). -/
structure CanFrame where
  /-- Identifier, 11 or 29 bits. -/
  ident : Nat := 0
  /-- Extended identifier. -/
  ext : Bool := false
  /-- FD frame. -/
  fd : Bool := false
  /-- Bit-rate switch. -/
  brs : Bool := false
  /-- Remote frame. -/
  rtr : Bool := false
  /-- Data length code. -/
  dlc : Nat := 0
  /-- Data bytes. -/
  data : List Byte := []
deriving DecidableEq, Repr

/-- What a planner boundary belongs to: an axis, or a group (R142, R155, 07). -/
inductive PlanUnit
  | axis (i : Fin 64)
  | group (g : Fin 16)
deriving DecidableEq, Repr

/-- How a Host Port frame ended (Table 18.4, 18). -/
inductive FrameEnd
  /-- Complete, select released at once. -/
  | whole
  /-- Select released early; of a READ frame, after so many words had been fetched. -/
  | short (fetched : Nat)
  /-- Complete, with further clock edges before release. -/
  | extra (edges : Nat)
deriving DecidableEq, Repr

/-- The commands of the part, one constructor for each row of spec/opcode_table.json, in its order. -/
inductive Instr
  /-- RUHITY_DATAGRAM (R77): A UDP datagram addressed to the Ruhity port arrives and is checked in the order of Table 4.5, then executed or refused -/
  | ruhityDatagram (src : Source) (broadcast : Bool) (fragment : Bool) (checksumOk : Bool) (bytes : List Byte)
  /-- INBOX_TAKE (R75): The device takes the oldest packet from the Host Port inbox, once the outbox has room, and checks and executes it -/
  | inboxTake
  /-- BROADCAST_REPLY (R75): The unicast reply to a broadcast PING or GET_INFO is sent after its random delay of 0 to 10 ms -/
  | broadcastReply
  /-- AUTH_LOCKOUT_END (R86): The 1 s drop period after 16 AUTH_FAIL refusals from one source expires -/
  | authLockoutEnd (src : Source)
  /-- PENDING_COMMIT (R82): At t_e minus 20 µs an accepted command repeats its step-13 checks and is handed to its block, or fails with a deferred reply -/
  | pendingCommit (handle : Nat)
  /-- DEFERRED_EFFECT (R83): A committed command takes effect at its block's boundary or time and the deferred reply is sent -/
  | deferredEffect (handle : Nat)
  /-- RESET_ENTRY (R97): One ms after the reply to RESET, IMAGE_ACTIVATE or IMAGE_ROLLBACK is handed over, the device enters Reset -/
  | resetEntry
  /-- IMAGE_SESSION_TIMEOUT (R62): An image session without IMAGE_DATA for 10 s is abandoned, leaving its slot trailer erased -/
  | imageSessionTimeout
  /-- PING (R96): Echoes the ECHO TLV and returns TBASE0 time -/
  | ping (rq : Request)
  /-- GET_INFO (R96): Returns part, steppings, state, versions, challenge and UDP port -/
  | getInfo (rq : Request)
  /-- CANCEL (R85): Withdraws one pending command by handle or all pending commands of the source -/
  | cancel (rq : Request)
  /-- SET_LATENCY_TOLERANCE (R28): Sets the three service-class tolerances, the operating-point limit and the options, and reselects the operating point -/
  | setLatencyTolerance (rq : Request)
  /-- GET_OPERATING_POINT (R27): Returns the operating-point summary and per-loop slack, margin and late counts, restarting the margins read -/
  | getOperatingPoint (rq : Request)
  /-- SET_WAKE_TIMER (R96): Arms or disarms the AON wake timer -/
  | setWakeTimer (rq : Request)
  /-- IDENTITY_READ (R66): Returns the signed identity record with the echoed nonce -/
  | identityRead (rq : Request)
  /-- IMAGE_BEGIN (R62): Opens an image session for a kind and erases its target slot -/
  | imageBegin (rq : Request)
  /-- IMAGE_DATA (R97): Writes up to 1,024 bytes of an image at an offset -/
  | imageData (rq : Request)
  /-- IMAGE_COMMIT (R62): Verifies the written image and writes its trailer as pending, or reports the rejection cause -/
  | imageCommit (rq : Request)
  /-- IMAGE_ACTIVATE (R62): Enters Reset to run a pending image as a trial, or hands a Lodge image to Lodge -/
  | imageActivate (rq : Request)
  /-- IMAGE_CONFIRM (R62): Marks the running trial image confirmed and raises the security level to its SEC_VERSION -/
  | imageConfirm (rq : Request)
  /-- IMAGE_ROLLBACK (R62): Marks the running slot rejected and enters Reset so the other confirmed slot boots -/
  | imageRollback (rq : Request)
  /-- SET_STATE (R64): Requests a device-state transition under Table 3.7 -/
  | setState (rq : Request)
  /-- RESET (R62): Records HOST_RESET and enters Reset after the reply -/
  | reset (rq : Request)
  /-- CONFIG_SAVE (R97): Writes the current configuration and autostart flag to the older configuration-store copy -/
  | configSave (rq : Request)
  /-- AUTH_KEY_SET (R86): Loads or empties a packet-authentication key slot over the Host Port -/
  | authKeySet (rq : Request)
  /-- AUTH_POLICY_SET (R87): Sets which opcode classes require a valid tag and whether the policy applies on the Host Port -/
  | authPolicySet (rq : Request)
  /-- CYCLIC_MAP_DEFINE (R89): Defines a cyclic map's stream, timing and entries -/
  | cyclicMapDefine (rq : Request)
  /-- CYCLIC_MAP_ENABLE (R93): Enables or disables a cyclic map from a later cycle start -/
  | cyclicMapEnable (rq : Request)
  /-- CYCLIC_MAP_STATUS (R96): Returns a map's received, applied, dropped and sent counts -/
  | cyclicMapStatus (rq : Request)
  /-- AXIS_BIND (R138): Binds, rebinds or unbinds an axis slot to local resources or a brick channel -/
  | axisBind (rq : Request)
  /-- AXIS_SET_MODE (R138): Sets a slot's drive kind, feedback, depth, source, standstill, reaction and timing after the combination checks and admission proof -/
  | axisSetMode (rq : Request)
  /-- AXIS_ENABLE (R140): Starts the enabling steps of a slot and answers when it is Enabled or has faulted -/
  | axisEnable (rq : Request)
  /-- AXIS_DISABLE (R141): Stops an Enabled slot, replaces a reaction, or clears a Faulted slot whose cause is gone -/
  | axisDisable (rq : Request)
  /-- AXIS_STATUS (R137): Returns the axis status word, position, velocity and binding -/
  | axisStatus (rq : Request)
  /-- MOVE_ABS (R151): Plans a position move of an axis to an absolute target -/
  | moveAbs (rq : Request)
  /-- MOVE_REL (R152): Plans a position move of an axis by a distance from its base -/
  | moveRel (rq : Request)
  /-- JOG (R150): Changes an axis to a target speed and holds it -/
  | jog (rq : Request)
  /-- STOP (R165): Stops an axis, its group or all axes in the chosen stop mode -/
  | stop (rq : Request)
  /-- SEGMENT_APPEND (R164): Appends path segments to a group queue in the segment store -/
  | segmentAppend (rq : Request)
  /-- PLAN_AXIS_CONFIG (R145): Sets an axis's motion and quick-stop limits, soft limits, window, divider and profile -/
  | planAxisConfig (rq : Request)
  /-- GROUP_DEFINE (R155): Defines or releases a planner axis group and its queue -/
  | groupDefine (rq : Request)
  /-- GROUP_START (R155): Starts a defined group on its queued path -/
  | groupStart (rq : Request)
  /-- GROUP_RESUME (R166): Resumes a paused group from its stop point -/
  | groupResume (rq : Request)
  /-- GROUP_CLEAR (R166): Discards a group's queue -/
  | groupClear (rq : Request)
  /-- GROUP_STATUS (R168): Returns a group's status, queue, segment identifier and path distance -/
  | groupStatus (rq : Request)
  /-- STORE_STATUS (R163): Returns the free blocks and longest run of the segment store -/
  | storeStatus (rq : Request)
  /-- OVERRIDE_SET (R167): Writes override factors for axes and groups and strobes US1 -/
  | overrideSet (rq : Request)
  /-- GEAR_LINK (R185): Defines, engages or releases a slot's gear or cam link -/
  | gearLink (rq : Request)
  /-- GEAR_RATIO_AT (R177): Appends a ratio or table change at a master position to a link's pending list -/
  | gearRatioAt (rq : Request)
  /-- GEAR_CLEAR_PENDING (R180): Discards every pending change of a link that has not fired -/
  | gearClearPending (rq : Request)
  /-- CAM_DEFINE (R181): Allocates or releases a cam table in the segment store -/
  | camDefine (rq : Request)
  /-- CAM_DATA (R181): Writes entries of a cam table -/
  | camData (rq : Request)
  /-- CAM_COMMIT (R182): Checks a cam table and makes it usable -/
  | camCommit (rq : Request)
  /-- VMASTER_SET (R188): Sets a virtual master's time base, velocity or position -/
  | vmasterSet (rq : Request)
  /-- GEAR_STATUS_READ (R187): Returns a link's status, ratio, master and slave positions -/
  | gearStatusRead (rq : Request)
  /-- LOOP_LOAD_CASCADE (R217): Loads a region's header and section coefficients, committing at a later sample instant -/
  | loopLoadCascade (rq : Request)
  /-- LOOP_SCHEDULE (R217): Sets a loop's section count, integrator, scheduling variable, bounds and hysteresis -/
  | loopSchedule (rq : Request)
  /-- LOOP_SCALES (R216): Sets a slot's full scales and input calibration -/
  | loopScales (rq : Request)
  /-- LOOP_MOTOR (R216): Sets electrical counts, motor parameters and decoupling options -/
  | loopMotor (rq : Request)
  /-- LOOP_MODULATION (R199): Sets the modulation kind, DC-link source and dead-time compensation -/
  | loopModulation (rq : Request)
  /-- LOOP_FOLLOW (R208): Sets analogue-follow offset, deadband, gain and limits -/
  | loopFollow (rq : Request)
  /-- LOOP_LIMITS (R201): Sets following-error limits and feedforward gains -/
  | loopLimits (rq : Request)
  /-- LOOP_OBSERVER (R212): Sets the observer minimum speed, bandwidth and start parameters -/
  | loopObserver (rq : Request)
  /-- LOOP_READ (R216): Returns a region record and the schedule in force -/
  | loopRead (rq : Request)
  /-- LOOP_STATUS_READ (R216): Returns loop status, slack, currents, voltages, following error and observer state -/
  | loopStatusRead (rq : Request)
  /-- PP_CONFIG (R250): Sets a Position Port's mode, filter, options, modulus, delay and SSI or sin/cos layout -/
  | ppConfig (rq : Request)
  /-- PP_SET_POSITION (R230): Presets a port's position, releasing overrun and dropping a held correction -/
  | ppSetPosition (rq : Request)
  /-- PP_INDEX_CONFIG (R232): Sets a port's index policy, gate, reference option, expected count, tolerance and spread -/
  | ppIndexConfig (rq : Request)
  /-- PP_SPEED_CONFIG (R236): Sets a port's speed-estimation parameters -/
  | ppSpeedConfig (rq : Request)
  /-- PP_LOSS_CONFIG (R238): Enables loss causes and sets their limits for a port -/
  | ppLossConfig (rq : Request)
  /-- PP_STATUS_READ (R249): Returns a port's status, position, counts, speed and index values -/
  | ppStatusRead (rq : Request)
  /-- COMPARE_DEFINE (R241): Allocates or releases a compare unit's list and sets its port and mode -/
  | compareDefine (rq : Request)
  /-- COMPARE_DATA (R250): Writes entries of a compare list -/
  | compareData (rq : Request)
  /-- COMPARE_ARM (R250): Checks a compare list and arms or disarms the unit by strobing US4 -/
  | compareArm (rq : Request)
  /-- COMPARE_FORCE (R244): Forces a compare output low or high, or releases it -/
  | compareForce (rq : Request)
  /-- LATCH_CONFIG (R245): Sets a latch unit's port, source, offset and time schedule -/
  | latchConfig (rq : Request)
  /-- LATCH_READ (R250): Returns and removes a latch unit's oldest captures -/
  | latchRead (rq : Request)
  /-- SNAPSHOT_CONFIG (R248): Sets the snapshot unit's source, offset and schedule -/
  | snapshotConfig (rq : Request)
  /-- SNAPSHOT_READ (R250): Returns and removes the oldest snapshot -/
  | snapshotRead (rq : Request)
  /-- SNAPSHOT_TRIGGER (R248): Takes a snapshot at its time-of-effect or arrival instant -/
  | snapshotTrigger (rq : Request)
  /-- BTA_GROUP_CONFIG (R252): Sets a leg group's period, phase, sample point, update mode and run state -/
  | btaGroupConfig (rq : Request)
  /-- BTA_LEG_CONFIG (R257): Sets a leg's dead times, trip state and compatibility mode -/
  | btaLegConfig (rq : Request)
  /-- BTA_TRIP_CONFIG (R269): Sets a group's trip sources, overcurrent inputs and blanking -/
  | btaTripConfig (rq : Request)
  /-- BTA_TRIP_CLEAR (R271): Clears latched trips or STO on a group or all groups -/
  | btaTripClear (rq : Request)
  /-- BTA_BLANK_CONFIG (R270): Sets a blanking timer's watched group and window -/
  | btaBlankConfig (rq : Request)
  /-- BTA_TRIP_INPUT_CONFIG (R268): Sets a trip input's polarity and filter -/
  | btaTripInputConfig (rq : Request)
  /-- BTA_SDC_CONFIG (R273): Sets a modulator clock's divider, capture delay and enable -/
  | btaSdcConfig (rq : Request)
  /-- BTA_SDI_CONFIG (R274): Sets a current input's decimator, overcurrent comparator and enable -/
  | btaSdiConfig (rq : Request)
  /-- BTA_DUTY_SET (R279): Writes the three duty codes of a free group and optionally seals them -/
  | btaDutySet (rq : Request)
  /-- BTA_BANK_LEVEL (R276): Changes a bridge bank to 3.3 V or 5.0 V -/
  | btaBankLevel (rq : Request)
  /-- BTA_STATUS_READ (R278): Returns a group's control, status, trip, leg and cycle-trip registers -/
  | btaStatusRead (rq : Request)
  /-- STEPPER_CONFIG (R283): Sets a stepper's operation, switch threshold, currents, standstill timing and hold memory -/
  | stepperConfig (rq : Request)
  /-- STEPPER_STATUS_READ (R291): Returns a stepper's status and microstep position -/
  | stepperStatusRead (rq : Request)
  /-- STEPPER_SET_POSITION (R290): Sets the microstep position keeping the phase, booked as a preset -/
  | stepperSetPosition (rq : Request)
  /-- BRICK_REGISTER (R293): Registers or unregisters a brick with its link, timing and channel capabilities -/
  | brickRegister (rq : Request)
  /-- FRAME_GROUP_CONFIG (R297): Sets a frame group's stream and phase -/
  | frameGroupConfig (rq : Request)
  /-- BRICK_STATUS (R305): Returns a brick's latest inbound header and counts -/
  | brickStatus (rq : Request)
  /-- NET_ADDR_CONFIG (R311): Sets the IPv4 address, gateway, Ruhity port and management VLAN -/
  | netAddrConfig (rq : Request)
  /-- PORT_CONFIG (R307): Sets a port's link, bridge, PTP, preemption and ageing settings -/
  | portConfig (rq : Request)
  /-- VLAN_CONFIG (R313): Adds, changes or removes a VLAN table entry -/
  | vlanConfig (rq : Request)
  /-- FDB_STATIC (R312): Adds or removes a static forwarding entry -/
  | fdbStatic (rq : Request)
  /-- GATE_LIST_SET (R318): Sets or removes a port's gate control list -/
  | gateListSet (rq : Request)
  /-- CBS_CONFIG (R320): Sets or removes a credit-based shaper on a class -/
  | cbsConfig (rq : Request)
  /-- PORT_STATUS_READ (R340): Returns a port's status, link delay and frame counts -/
  | portStatusRead (rq : Request)
  /-- PTP_CONFIG (R324): Sets a gPTP instance's domain, ports, intervals and grandmaster settings -/
  | ptpConfig (rq : Request)
  /-- PTP_STATUS (R340): Returns a gPTP instance's grandmaster and path -/
  | ptpStatus (rq : Request)
  /-- TIMEBASE_CONFIG (R328): Sets a time base's mode, domains, offset, servo and validation parameters -/
  | timebaseConfig (rq : Request)
  /-- TIMEBASE_SET (R330): Sets the time and rate of a free-running time base, a step -/
  | timebaseSet (rq : Request)
  /-- TIMEBASE_STATUS (R340): Returns a time base's status, time, offsets and rate -/
  | timebaseStatus (rq : Request)
  /-- DOMAIN_TRUST (R334): Trusts a distrusted domain of a time base again -/
  | domainTrust (rq : Request)
  /-- TSO_CONFIG (R336): Sets or enables a time-scheduled output's schedule -/
  | tsoConfig (rq : Request)
  /-- TSO_STATUS_READ (R340): Returns a time-scheduled output's status and counts -/
  | tsoStatusRead (rq : Request)
  /-- LODGE_READ (R364): Returns Lodge mirrors, parameter sets, interpreted fields, last fault and version -/
  | lodgeRead (rq : Request)
  /-- LODGE_PARAM_STAGE (R360): Checks and stages a signed Lodge parameter set and echoes its CRC -/
  | lodgeParamStage (rq : Request)
  /-- LODGE_PARAM_CONFIRM (R361): Confirms the staged set by CRC and moves Lodge through Switching to Run -/
  | lodgeParamConfirm (rq : Request)
  /-- LODGE_KEY_ENROL (R360): Blows the one-time Lodge fuse with a public-key hash -/
  | lodgeKeyEnrol (rq : Request)
  /-- LODGE_FAULT_CLEAR (R362): Clears Lodge pair and output faults whose cause is absent and reports the rest -/
  | lodgeFaultClear (rq : Request)
  /-- FIO_GROUP_CONFIG (R379): Sets a field group's automatic re-enable and restore time -/
  | fioGroupConfig (rq : Request)
  /-- FIO_INPUT_CONFIG (R370): Sets a field input's type, filter, open-wire and wake options -/
  | fioInputConfig (rq : Request)
  /-- FIO_OUTPUT_CONFIG (R374): Sets a field output's fail state, overload policy and open-load check -/
  | fioOutputConfig (rq : Request)
  /-- FIO_OUTPUT_SET (R376): Writes commanded states of field outputs -/
  | fioOutputSet (rq : Request)
  /-- FIO_READ (R380): Returns a group's registers and last input edge times -/
  | fioRead (rq : Request)
  /-- FIO_CLEAR (R381): Releases latched outputs and re-enables supply-lost groups where possible -/
  | fioClear (rq : Request)
  /-- CAN_CONFIG (R396): Sets a CAN controller's mode, bit timing and options -/
  | canConfig (rq : Request)
  /-- CAN_FILTER_SET (R392): Writes filter entries and the count in force -/
  | canFilterSet (rq : Request)
  /-- CAN_TT_CONFIG (R385): Sets the schedule matrix and its time source -/
  | canTtConfig (rq : Request)
  /-- CAN_TT_BUFFER_SET (R388): Writes a time-triggered buffer -/
  | canTtBufferSet (rq : Request)
  /-- CAN_TX (R389): Queues an event frame for transmission -/
  | canTx (rq : Request)
  /-- CAN_RX_READ (R394): Returns and removes the oldest frames of a receive FIFO -/
  | canRxRead (rq : Request)
  /-- CAN_STATUS_READ (R396): Returns controller registers, transmit counts and collision records -/
  | canStatusRead (rq : Request)
  /-- CAN_BITRATE_DETECT (R395): Starts listen-only bit-rate detection over a candidate table -/
  | canBitrateDetect (rq : Request)
  /-- CAN_BUS_RECOVER (R384): Starts recovery of a bus-off controller -/
  | canBusRecover (rq : Request)
  /-- SPM_PROFILE_SET (R400): Sets or releases a Memory Port device profile on select 1–3 -/
  | spmProfileSet (rq : Request)
  /-- SPM_DISCOVER (R413): Reads SFDP on a select and returns the fastest declared profile -/
  | spmDiscover (rq : Request)
  /-- SPM_ERASE (R413): Erases sectors of a flash device and replies when it is no longer busy -/
  | spmErase (rq : Request)
  /-- SPM_FLUSH (R402): Flushes a profile's page buffer and reports any verify mismatch -/
  | spmFlush (rq : Request)
  /-- SPM_STATUS_READ (R412): Returns a profile's status and program and erase counts -/
  | spmStatusRead (rq : Request)
  /-- SPH_STATUS_READ (R412): Returns the Host Port status and frame counts -/
  | sphStatusRead (rq : Request)
  /-- ACQ_CHANNEL_CONFIG (R414): Sets or turns off an internal acquisition channel -/
  | acqChannelConfig (rq : Request)
  /-- ACQ_PIN_CONFIG (R417): Sets the acquisition pins, stored pins, divider and deskew -/
  | acqPinConfig (rq : Request)
  /-- ACQ_TRIGGER_CONFIG (R426): Sets a trigger unit's kind and condition -/
  | acqTriggerConfig (rq : Request)
  /-- ACQ_ENVELOPE_SET (R428): Writes points and options of a mask envelope -/
  | acqEnvelopeSet (rq : Request)
  /-- ACQ_CAPTURE_CONFIG (R422): Sets segments, mode, options, trigger mask, PRE, POST and hold-off -/
  | acqCaptureConfig (rq : Request)
  /-- ACQ_ARM (R434): Arms a capture on a free segment -/
  | acqArm (rq : Request)
  /-- ACQ_STOP (R434): Ends the running capture with a STOPPED mark -/
  | acqStop (rq : Request)
  /-- ACQ_FORCE (R426): Makes a forced trigger occurrence -/
  | acqForce (rq : Request)
  /-- ACQ_READ (R434): Returns a segment's header and records and optionally releases it -/
  | acqRead (rq : Request)
  /-- ACQ_STATUS_READ (R433): Returns the acquisition status registers -/
  | acqStatusRead (rq : Request)
  /-- ACQ_CALIBRATE (R417): Calibrates the pin delay lines and returns the residual skew -/
  | acqCalibrate (rq : Request)
  /-- PLUGIN_LOAD (R461): Verifies and loads a plug-in store entry onto a lane, or unloads it -/
  | pluginLoad (rq : Request)
  /-- THREAD_DEFINE (R437): Defines or releases a plug-in thread slot -/
  | threadDefine (rq : Request)
  /-- THREAD_ENABLE (R463): Enables or disables a plug-in thread -/
  | threadEnable (rq : Request)
  /-- THREAD_SIGNAL (R437): Sends host-signal tokens to a thread -/
  | threadSignal (rq : Request)
  /-- THREAD_TIMER_CONFIG (R446): Sets a dispatcher timer's kind, period and phase -/
  | threadTimerConfig (rq : Request)
  /-- PLUGIN_PORT_CONFIG (R449): Sets a slot's set-point stall limit -/
  | pluginPortConfig (rq : Request)
  /-- THREAD_STATUS_READ (R462): Returns a thread's registers and token tally -/
  | threadStatusRead (rq : Request)
  /-- LANE_STATUS_READ (R462): Returns a lane's status and program counter -/
  | laneStatusRead (rq : Request)
  /-- LANE_KEY_ENROL (R463): Fuses the integrator plug-in key once -/
  | laneKeyEnrol (rq : Request)
  /-- TALLY_READ (R466): Returns one tally instance's values from one tick with its audit -/
  | tallyRead (rq : Request)
  /-- FAULT_READ (R481): Returns fault entries from the AON ring or flash log -/
  | faultRead (rq : Request)
  /-- FAULT_ACK (R474): Acknowledges every fault entry up to a sequence -/
  | faultAck (rq : Request)
  /-- EVENT_READ (R475): Returns and removes the oldest events and the lost count -/
  | eventRead (rq : Request)
  /-- SPH_WRITE_FRAME (R407): A Host Port WRITE frame ends and its words are checked and written at select release -/
  | sphWriteFrame (addr : Nat) (words : List Word) (fin : FrameEnd)
  /-- SPH_READ_FRAME (R408): A Host Port READ frame fetches words and applies its side effects at release if it ends OK -/
  | sphReadFrame (addr : Nat) (len : Nat) (fin : FrameEnd)
  /-- SPH_PACKET_IN (R409): A PACKET_IN frame places its packet in the inbox at release -/
  | sphPacketIn (bytes : List Byte) (fin : FrameEnd)
  /-- SPH_PACKET_OUT (R409): A PACKET_OUT frame delivers the oldest reply and removes it if wholly read -/
  | sphPacketOut (len : Nat) (fin : FrameEnd)
  /-- SPH_STATUS_FRAME (R404): A STATUS frame returns SPH_STATUS -/
  | sphStatusFrame (fin : FrameEnd)
  /-- IND_DATA_READ (R104): A read of IND_DATA reads the register at IND_ADDR or the snapshot and advances IND_ADDR -/
  | indDataRead (ctx : Fin 6)
  /-- IND_DATA_WRITE (R104): A write of IND_DATA writes the register at IND_ADDR, discards the snapshot and advances IND_ADDR -/
  | indDataWrite (ctx : Fin 6) (value : Word)
  /-- IND_ADDR_WRITE (R107): A write of IND_ADDR sets the indirect address and discards the snapshot -/
  | indAddrWrite (ctx : Fin 6) (value : Word)
  /-- IND_CTRL_WRITE (R107): A write of IND_CTRL sets step and snapshot control and discards the snapshot -/
  | indCtrlWrite (ctx : Fin 6) (value : Word)
  /-- IND_ACCESS_TIMEOUT (R106): An indirect access not completed after 100 µs is abandoned with TIMEOUT -/
  | indAccessTimeout (ctx : Fin 6)
  /-- UPD_STROBE_WRITE (R111): A write of UPD_STROBE arms the permitted update groups at the next 16 ns grid instant -/
  | updStrobeWrite (ctx : Fin 6) (value : Word)
  /-- UPDATE_TAKEOVER (R111): An armed update group transfers into its active values at its take-over point -/
  | updateTakeover (group : Fin 16)
  /-- WIDE_LOW_READ (R108): A read of a wide register's low word latches its high word for the context -/
  | wideLowRead (ctx : Fin 6) (addr : Nat)
  /-- WIDE_HIGH_READ (R108): A read of a wide register's high word returns and empties the latch, or the live word -/
  | wideHighRead (ctx : Fin 6) (addr : Nat)
  /-- WIDE_LOW_WRITE (R108): A write of a wide register's low word is held in the context's write latch -/
  | wideLowWrite (ctx : Fin 6) (addr : Nat) (value : Word)
  /-- WIDE_HIGH_WRITE (R108): A write of a wide register's high word commits the 64-bit value or is dropped as WIDE_ORDER -/
  | wideHighWrite (ctx : Fin 6) (addr : Nat) (value : Word)
  /-- RC_REGISTER_READ (R118): A read of an rc field returns it and clears the bits returned -/
  | rcRegisterRead (ctx : Fin 6) (addr : Nat) (bytes : Nat)
  /-- REGISTER_WRITE (R109): A write to a register without a row of its own, to its active value or shadow, after the access checks -/
  | registerWrite (ctx : Fin 6) (addr : Nat) (bytes : Nat) (value : Word)
  /-- GRP_SEAL_WRITE (R263): A write of GRP_SEAL seals a group's shadow set for the next boundary -/
  | grpSealWrite (ctx : Fin 6) (group : Fin 32) (value : Word)
  /-- LEG_CMPB_SEAL_WRITE (R263): A write of CMPB of a group's last leg writes the shadow and seals the group -/
  | legCmpbSealWrite (ctx : Fin 6) (group : Fin 32) (value : Word)
  /-- LEG_DUTY_WRITE (R259): A write of LEG_DUTY computes the leg's compare shadows and seals on the last leg -/
  | legDutyWrite (ctx : Fin 6) (leg : Fin 96) (value : Word)
  /-- GRP_TRIP_CLEAR (R271): A write of GRP_TRIP.CLEAR clears a latched trip or STO, or is refused -/
  | grpTripClear (ctx : Fin 6) (group : Fin 32)
  /-- FIO_DO_WRITE (R376): A write of FIO_DO.CMD sets commanded output states unless a map writes the group -/
  | fioDoWrite (ctx : Fin 6) (group : Fin 4) (cmd : BitVec 4)
  /-- XIP_READ (R401): A read in the execute-in-place window returns from a line buffer or fetches its line -/
  | xipRead (ctx : Fin 6) (addr : Nat)
  /-- XIP_WRITE (R402): A write in the execute-in-place window enters the profile's page buffer, flushing another page first -/
  | xipWrite (ctx : Fin 6) (addr : Nat) (value : Word)
  /-- SPM_BUFFER_TIMEOUT (R402): A page buffer idle for 100 µs is flushed with write enable and program -/
  | spmBufferTimeout (sel : Fin 4)
  /-- SPM_STATUS_POLL (R402): A status poll of a busy flash device completes, ending the program or erase when not busy -/
  | spmStatusPoll (sel : Fin 4) (busy : Bool)
  /-- SPM_OP_TIMEOUT (R402): A poll exceeds PROG_TIMEOUT or ERASE_TIMEOUT and the buffered data is dropped -/
  | spmOpTimeout (sel : Fin 4)
  /-- RESET_RELEASE (R44): Reset is released after rails qualify and RESETN is high, and the boot ROM starts Startup -/
  | resetRelease
  /-- KEEPER_START (R56): The boot ROM has chosen, copied and hashed the Keeper slot, and Keeper starts or the ROM halts -/
  | keeperStart
  /-- GARDENER_START (R56): Keeper has chosen, copied and hashed the Gardener slot, and Gardener starts or Keeper halts -/
  | gardenerStart
  /-- GARDENER_READY (R57): Gardener reports ready and the device enters Commissioning -/
  | gardenerReady
  /-- AUTOSTART (R57): With autostart set, the device applies SET_STATE Operational after Commissioning is reached -/
  | autostart
  /-- GARDENER_WATCHDOG (R61): The 100 ms Gardener watchdog expires, axes take torque off and Gardener restarts -/
  | gardenerWatchdog
  /-- KEEPER_WATCHDOG (R61): The 10 ms Keeper hardware watchdog expires and the device enters Reset -/
  | keeperWatchdog
  /-- VLOG_LOW (R45): VLOG stays below 18.0 V for 50 µs, legs go low and the device enters Reset -/
  | vlogLow
  /-- RESET_PIN (R45): RESETN held low for 10 µs enters Reset -/
  | resetPin
  /-- REFERENCE_LOSS (R477): The MEMS reference fails, legs are clamped low and AON changes to its RC -/
  | referenceLoss
  /-- PLL_LOCK (R478): The PLL locks after a reference loss, letting a waiting Startup proceed -/
  | pllLock
  /-- VSAF_LOSS (R45): VSAF falls below 18.0 V, Lodge is unpowered, safe outputs open and STO holds -/
  | vsafLoss
  /-- VSAF_RETURN (R345): VSAF rises above 19.0 V and Lodge enters Start -/
  | vsafReturn
  /-- TEMP_SAMPLE (R31): AON samples the junction sensors every 50 µs and the band may rise with a proof -/
  | tempSample (hottest : Int)
  /-- BAND_FALL (R31): The reading has stayed 5 °C below the lower band's ceiling for 1 s and the band falls -/
  | bandFall
  /-- VOLTAGE_RAMP_END (R30): The core voltage ramp reaches its target operating point -/
  | voltageRampEnd
  /-- POWER_STATE_EVAL (R33): Every 10 ms the device re-evaluates and selects the deepest permitted power state -/
  | powerStateEval
  /-- WAKE_EVENT (R34): A wake event in Nap or Rest starts the wake -/
  | wakeEvent
  /-- WAKE_TIMER_EXPIRY (R34): The AON wake timer expires and wakes the device -/
  | wakeTimerExpiry
  /-- WAKE_COMPLETE (R34): The wake ends, held frames are committed and time bases re-acquire -/
  | wakeComplete
  /-- KEEPER_HEARTBEAT (R344): Keeper writes its heartbeat word to the Lodge mailbox every 5 ms -/
  | keeperHeartbeat (word : Word)
  /-- TALLY_AUDIT (R467): Keeper audits every tally instance once per second -/
  | tallyAudit
  /-- VOTE_SCRUB (R115): The scrub votes and corrects every sv field at least once per ms -/
  | voteScrub (addr : Nat) (width : Nat) (resetVal : Word) (c0 : Word) (c1 : Word) (c2 : Word)
  /-- MEMORY_SCRUB (R471): The background scrub reads a protected block and writes back a corrected error -/
  | memoryScrub (addr : Nat) (symbols : Nat)
  /-- LOOP_SAMPLE (R22): At a loop's sample instant the sample latch takes its inputs and the loop is dealt to a pipeline -/
  | loopSample (slot : Fin 64) (loop : Fin 3)
  /-- LOOP_RESULT_READY (R24): A loop's result reaches the ready register, or is discarded if late -/
  | loopResultReady (slot : Fin 64) (loop : Fin 3)
  /-- LOOP_RELEASE (R23): At sample plus L the phase latch releases the loop output or repeats the previous one -/
  | loopRelease (slot : Fin 64) (loop : Fin 3)
  /-- AIN_CONVERSION (R208): An AIN conversion completes and is held for analogue-follow slots -/
  | ainConversion (channel : Fin 8) (code : BitVec 16)
  /-- PLANNER_BOUNDARY (R143): At a planner boundary the planner hands position, velocity and acceleration to its axes and groups -/
  | plannerBoundary (unit : PlanUnit)
  /-- STANDSTILL_ENTRY (R132): A slot's set-point is unchanged for its idle time and its standstill policy takes force -/
  | standstillEntry (slot : Fin 64)
  /-- ALIGNMENT_COMPLETE (R134): The 250 ms alignment ends, recording the offset or failing with ENABLE_FAILED -/
  | alignmentComplete (slot : Fin 64)
  /-- REACTION_COMPLETE (R134): Observer ramp-down ends on low speed or timeout and the slot takes torque off -/
  | reactionComplete (slot : Fin 64)
  /-- OBSERVER_START_TIMEOUT (R213): The observer is not valid within 2 × START_MS and the axis faults -/
  | observerStartTimeout (slot : Fin 64)
  /-- PERIOD_BOUNDARY (R263): At a leg group's boundary a sealed set becomes active and dither, sync and overrides advance -/
  | periodBoundary (group : Fin 32)
  /-- TRIP_INPUT_ACCEPTED (R268): A filtered trip input level is accepted and latched or cycle trips take effect -/
  | tripInputAccepted (input : Fin 16) (level : Bool)
  /-- OVERCURRENT_DETECT (R275): An input's overcurrent comparator becomes active and trips its groups -/
  | overcurrentDetect (input : Fin 96)
  /-- BLANK_WINDOW_END (R270): A blanking window ends and blanked active sources take effect -/
  | blankWindowEnd (timer : Fin 8)
  /-- DELAY_LINE_CALIBRATION (R261): Every 1 ms the BTA calibrates the delay lines of LEG0–LEG11 -/
  | delayLineCalibration (leg : Fin 12) (nCal : Nat)
  /-- CAL_FALLBACK (R261): After 10 ms of bad calibration a leg falls back to dithered placement -/
  | calFallback (leg : Fin 12)
  /-- BANK_LEVEL_SETTLED (R276): A bank level change settles and BTA_BANK_LEVEL is answered -/
  | bankLevelSettled (bank : Fin 8)
  /-- HOLD_RAMP_END (R284): A stepper's reduction to I_HOLD ends -/
  | holdRampEnd (slot : Fin 64)
  /-- FREEWHEEL_START (R284): After FREEWHEEL_DELAY the stepper legs go off or short -/
  | freewheelStart (slot : Fin 64)
  /-- FREEWHEEL_LIMIT_EXCEEDED (R286): Freewheel time exceeds its limit and HOLD_VALID clears -/
  | freewheelLimitExceeded (slot : Fin 64)
  /-- WAKE_RAMP_END (R288): A stepper's wake ramp ends and a waiting set-point change is applied -/
  | wakeRampEnd (slot : Fin 64)
  /-- PP_EDGE_ACCEPTED (R221): A filtered line change is accepted, counted, and drives index, compare and speed -/
  | ppEdgeAccepted (port : Fin 32) (lines : BitVec 4)
  /-- SSI_FRAME_START (R225): The port starts an SSI frame on its schedule -/
  | ssiFrameStart (port : Fin 32)
  /-- SSI_FRAME_END (R224): An SSI frame completes and is judged good or bad -/
  | ssiFrameEnd (port : Fin 32) (data : BitVec 64) (timeout : Bool)
  /-- SINCOS_SAMPLE (R227): A sin/cos sample pair is converted and judged -/
  | sincosSample (port : Fin 8) (sineCode : BitVec 14) (cosineCode : BitVec 14)
  /-- SPEED_EVALUATION (R236): Every 100 µs without a loop sample the port evaluates its speed -/
  | speedEvaluation (port : Fin 32)
  /-- SPEED_STANDSTILL_TIMEOUT (R237): No count for TIMEOUT puts the port at standstill -/
  | speedStandstillTimeout (port : Fin 32)
  /-- LINE_FAULT (R238): A receiver reports a line fault for more than 2 µs -/
  | lineFault (port : Fin 32)
  /-- HALL_ILLEGAL (R238): An illegal Hall code is held for 2 µs -/
  | hallIllegal (port : Fin 32)
  /-- FREEZE_DETECT (R238): The position stays still for FREEZE_MS while the observer moves -/
  | freezeDetect (port : Fin 32)
  /-- ENCODER_SUPPLY_LIMIT (R238): An encoder supply stays in current limit for 1 ms -/
  | encoderSupplyLimit (supply : Fin 8)
  /-- LOSS_CLEAR (R239): Every enabled cause has been absent for 10 ms and LOSS_ACTIVE clears -/
  | lossClear (port : Fin 32)
  /-- COMPARE_PULSE_END (R243): A compare pulse's width expires and the output falls -/
  | comparePulseEnd (unit : Fin 16)
  /-- LATCH_EVENT (R245): A latch source event occurs and a capture instant is set -/
  | latchEvent (pin : Option (Fin 16)) (rise : Bool)
  /-- LATCH_CAPTURE (R246): Once its data exists the capture is formed and stored -/
  | latchCapture (unit : Fin 16)
  /-- SNAPSHOT_CAPTURE (R248): Once every bound slot's data exists the snapshot is completed -/
  | snapshotCapture
  /-- DRAYMAN_INBOUND (R301): An inbound Drayman frame is received and its records used or discarded -/
  | draymanInbound (port : Fin 4) (mac : BitVec 48) (payload : List Byte)
  /-- BRICK_RECORD_DEADLINE (R301): A brick's record deadline passes without a record and the cycle is a miss -/
  | brickRecordDeadline (brick : Fin 64)
  /-- DRAYMAN_LAUNCH (R297): The NET phase latch launches a frame group's outbound frame -/
  | draymanLaunch (group : Fin 16)
  /-- STO_FRAME (R303): The Ethernet die sends an STO frame on every frame-group port every 100 µs while STO holds -/
  | stoFrame
  /-- CYCLIC_FRAME_RX (R91): An inbound cyclic frame is held or discarded -/
  | cyclicFrameRx (port : Fin 4) (frame : NetFrame)
  /-- CYCLIC_APPLY (R91): At the apply instant the held frame's values are written, or the cycle is a miss -/
  | cyclicApply (map : Fin 16)
  /-- CYCLIC_SAMPLE (R92): An outbound map samples its entries -/
  | cyclicSample (map : Fin 16)
  /-- CYCLIC_LAUNCH (R92): An outbound frame is handed to its port or counted unsent -/
  | cyclicLaunch (map : Fin 16)
  /-- CYCLIC_ENABLE_EFFECT (R93): A map enable or disable takes effect at a cycle start at least 1 ms after the reply -/
  | cyclicEnableEffect (map : Fin 32)
  /-- LINK_UP (R307): A port gains link after negotiation -/
  | linkUp (port : Fin 4) (gigabit : Bool) (fast : Bool) (crossed : Bool) (phyOk : Bool)
  /-- LINK_DOWN (R316): A port loses link and its queued frames are dropped -/
  | linkDown (port : Fin 4)
  /-- FRAME_INGRESS (R308): A frame is received, checked, timestamped and forwarded -/
  | frameIngress (port : Fin 4) (frame : NetFrame) (fcsOk : Bool)
  /-- FRAME_EGRESS (R316): A queued frame is selected and transmitted, with transparent-clock correction -/
  | frameEgress (port : Fin 4)
  /-- ARP_REQUEST (R311): An ARP request for the device's address is answered -/
  | arpRequest (port : Fin 4) (senderMac : BitVec 48) (senderIp : BitVec 32) (targetIp : BitVec 32)
  /-- ICMP_ECHO (R311): An ICMP echo request is answered -/
  | icmpEcho (port : Fin 4) (senderMac : BitVec 48) (senderIp : BitVec 32) (targetIp : BitVec 32) (message : List Byte)
  /-- FDB_AGE_OUT (R312): A dynamic forwarding entry ages out after AGE seconds -/
  | fdbAgeOut (mac : BitVec 48) (vid : Nat)
  /-- GATE_ENTRY_CHANGE (R318): A gate control list entry interval ends and the next entry takes over -/
  | gateEntryChange (port : Fin 4)
  /-- GATE_LIST_TAKEOVER (R318): A new gate list takes over at its base time -/
  | gateListTakeover (port : Fin 4)
  /-- PREEMPT_VERIFY (R322): The MAC merge verify exchange succeeds or fails -/
  | preemptVerify (port : Fin 4) (ok : Bool)
  /-- SYNC_RECEIVED (R329): A Sync of a domain arrives and the time-base servo and validation run -/
  | syncReceived (inst : Fin 2) (port : Fin 4) (gm : BitVec 64) (steps : Nat) (time : Nat)
  /-- PDELAY_EXCHANGE (R324): A port measures its link delay every 2^logPdelayInterval s -/
  | pdelayExchange (port : Fin 4) (delay : Nat) (answered : Bool)
  /-- SYNC_RECEIPT_TIMEOUT (R331): A domain's Syncs stop and the base changes over or enters holdover -/
  | syncReceiptTimeout (inst : Fin 2)
  /-- HOLDOVER_EXPIRY (R329): HOLD_SYNC passes in holdover and the base is no longer synchronised -/
  | holdoverExpiry (base : Fin 4)
  /-- GM_SYNC_SEND (R325): As grandmaster, an instance sends Sync from its source base -/
  | gmSyncSend (inst : Fin 2)
  /-- TSO_INSTANT (R336): A time-scheduled output fires its leading edge, or skips the instant -/
  | tsoInstant (out : Fin 8)
  /-- TSO_PULSE_END (R336): The trailing edge of a TSO pulse follows W after its instant -/
  | tsoPulseEnd (out : Fin 8)
  /-- SI_LEVEL_ACCEPTED (R347): An SI input's new level is accepted after its filter count -/
  | siLevelAccepted (input : Fin 16) (level : Bool)
  /-- TEST_PULSE (R348): A TP output's 100 µs pulse runs and the inputs fed by it are checked -/
  | testPulse (tp : Fin 4) (missing : BitVec 16) (foreign : BitVec 16)
  /-- DISCREPANCY_TIMEOUT (R349): A pair's inputs disagree beyond DISCREPANCY and the pair faults -/
  | discrepancyTimeout (pair : Fin 8)
  /-- LODGE_SNAPSHOT (R356): Every 250 µs Lodge snapshots the accepted input states -/
  | lodgeSnapshot
  /-- LODGE_COMMAND_INSTANT (R356): Both channels apply their output and STO decisions -/
  | lodgeCommandInstant (disagree : Bool) (internal : Option (Fin 3))
  /-- SS1_QUICK_STOP (R356): Keeper answers SS1_REQUEST by issuing STOP QUICK to all axes -/
  | ss1QuickStop
  /-- SS1_DELAY_EXPIRY (R356): The SS1 delay ends and STO or the safe output is asserted off -/
  | ss1DelayExpiry (out : Option (Fin 4))
  /-- STOIN_DEMAND (R357): A low STOIN ball asserts STO at once -/
  | stoinDemand (a : Bool) (b : Bool)
  /-- STOIN_RELEASE (R357): Both STOIN balls are high and STOIN releases STO -/
  | stoinRelease
  /-- STOIN_DISCREPANCY (R357): The STOIN balls differ for over 100 ms and STO holds -/
  | stoinDiscrepancy
  /-- REFERENCE_TIMEOUT (R344): Lodge sees no reference edge for 50 µs or a bad frequency and asserts STO -/
  | referenceTimeout
  /-- HEARTBEAT_TIMEOUT (R344): Lodge sees no new heartbeat for 20 ms and asserts STO -/
  | heartbeatTimeout
  /-- SUPERVISION_RELEASE (R344): A supervision cause has been absent for 100 ms and STO is released -/
  | supervisionRelease (reference : Bool)
  /-- LODGE_OVERTEMP (R355): Lodge's sensor reaches 150 °C, opening outputs and holding STO until below 130 °C -/
  | lodgeOvertemp (temp : Int)
  /-- LODGE_SELF_TEST_END (R345): Lodge's start self-test completes and it enters Run, Config or Safe-Fault -/
  | lodgeSelfTestEnd (passed : Bool)
  /-- LODGE_SWITCHING_END (R345): Lodge writes the new set and enters Run -/
  | lodgeSwitchingEnd
  /-- SAFE_OUTPUT_TEST (R354): An on safe output is off-pulsed and read back -/
  | safeOutputTest (out : Fin 4) (pStuck : Bool) (mStuck : Bool) (cross : Option (Fin 4))
  /-- SAFE_OUTPUT_OVERLOAD (R354): A safe output carries over 2.6 A for 100 µs and is switched off -/
  | safeOutputOverload (out : Fin 4)
  /-- SAFE_OUTPUT_OPEN_LOAD (R354): A safe output carries under 10 mA for 100 ms -/
  | safeOutputOpenLoad (out : Fin 4)
  /-- TEST_OVERDUE (R354): A no-pulse output is not off within 24 h -/
  | testOverdue (out : Fin 4)
  /-- DI_EDGE_ACCEPTED (R370): A field input holds a new level for FILTER and the edge is accepted and timestamped -/
  | diEdgeAccepted (input : Fin 32) (level : Bool)
  /-- OPEN_WIRE (R371): A Type 3 input draws under 0.2 mA for 100 ms and reads open -/
  | openWire (input : Fin 32)
  /-- OVERLOAD (R373): A field output stays in current limit for 500 µs and turns off -/
  | overload (output : Fin 16)
  /-- FIO_OVERTEMP (R373): A field output's switch reaches 170 °C and turns off -/
  | fioOvertemp (output : Fin 16)
  /-- OPEN_LOAD (R373): A field output carries under 2 mA for 100 ms -/
  | openLoad (output : Fin 16)
  /-- BACKFEED (R373): An off field output sees 10 V or more for 1 ms -/
  | backfeed (output : Fin 16)
  /-- OUTPUT_RETRY (R374): A retry-policy output tries to turn on again every 100 ms -/
  | outputRetry (output : Fin 16) (ok : Bool)
  /-- FIO_LINK_REFRESH (R367): The compute die refreshes a group's command link every 1 ms -/
  | fioLinkRefresh (group : Fin 4)
  /-- FIO_REFRESH_TIMEOUT (R367): A group without refresh for 10 ms applies its fail states -/
  | fioRefreshTimeout (group : Fin 4)
  /-- FIELD_GROUP_LOST (R473): A powered field die stops acknowledging its refresh for 10 ms -/
  | fieldGroupLost (group : Fin 4)
  /-- SUPPLY_SAG (R378): A field supply stays below 18.0 V for 1 ms -/
  | supplySag (group : Fin 4) (vf : Nat)
  /-- SUPPLY_LOST (R378): A field supply stays below 15.0 V for 50 µs and the outputs latch off -/
  | supplyLost (group : Fin 4) (vf : Nat)
  /-- DIE_UNPOWERED (R378): A field supply falls below 12.0 V and the die loses its configuration -/
  | dieUnpowered (group : Fin 4) (vf : Nat)
  /-- DIE_POWER_RETURN (R378): A field supply returns above 12.0 V and Keeper reloads the group's configuration -/
  | diePowerReturn (group : Fin 4) (vf : Nat)
  /-- FIO_AUTO_REENABLE (R379): A supply held at 18.0 V for RESTORE_MS re-enables the group -/
  | fioAutoReenable (group : Fin 4)
  /-- CAN_FRAME_RECEIVED (R392): A received CAN frame is timestamped and filtered into a FIFO or rejected -/
  | canFrameReceived (ctl : Fin 4) (frame : CanFrame) (esi : Bool) (age : Nat)
  /-- CAN_TX_COMPLETE (R389): A transmitted CAN frame completes -/
  | canTxComplete (ctl : Fin 4) (delay : BitVec 8)
  /-- CAN_BUS_ERROR (R382): A bus error is detected, signalled and counted -/
  | canBusError (ctl : Fin 4) (counted : Bool) (severe : Bool) (hit : Option (Fin 3 × BitVec 16 × BitVec 8 × List Byte))
  /-- CAN_BUS_OFF_RECOVERY (R384): After 128 × 11 recessive bits the controller recovers from bus-off -/
  | canBusOffRecovery (ctl : Fin 4)
  /-- CAN_CYCLE_START (R386): A basic cycle starts on its time base or reference message -/
  | canCycleStart (ctl : Fin 4) (idle : Bool)
  /-- CAN_BUFFER_FREEZE (R388): A buffer's content is frozen 2 µs before its window -/
  | canBufferFreeze (ctl : Fin 4)
  /-- CAN_WINDOW_START (R387): A window starts and an exclusive buffer is sent or missed -/
  | canWindowStart (ctl : Fin 4) (idle : Bool)
  /-- REF_LOST (R386): No reference message within 1.5 cycles and the slave is unsynchronised -/
  | refLost (ctl : Fin 4)
  /-- CAN_DETECT_DWELL_END (R395): A candidate's dwell ends without a lock and detection moves on -/
  | canDetectDwellEnd (ctl : Fin 4)
  /-- ACQ_CHANNEL_SAMPLE (R416): An internal channel samples its variable, tests envelopes and stores change records -/
  | acqChannelSample (chan : Fin 64)
  /-- ACQ_PIN_CHANGE (R420): A stored acquisition pin changes level and a pin record is produced -/
  | acqPinChange (levels : BitVec 8)
  /-- ACQ_TRIGGER_OCCURRENCE (R426): A trigger unit's condition becomes true and may trigger the capture -/
  | acqTriggerOccurrence (units : BitVec 8)
  /-- ACQ_REARM (R429): In repeat mode the engine re-arms on the next free segment -/
  | acqRearm
  /-- ACQ_HOLDOFF_END (R431): A hold-off ends and re-arming proceeds -/
  | acqHoldoffEnd
  /-- THREAD_START (R443): A READY thread starts on its idle lane or core -/
  | threadStart (lane : Fin 8)
  /-- THREAD_PREEMPT (R442): A higher-level preemptive thread interrupts the running thread at a free boundary -/
  | threadPreempt (lane : Fin 8)
  /-- THREAD_RESUME (R443): A PREEMPTED thread resumes when its lane is free -/
  | threadResume (lane : Fin 8)
  /-- DISPATCH_TIMER_INSTANT (R446): A dispatcher timer instant delivers tokens or is skipped -/
  | dispatchTimerInstant (timer : Fin 16)
  /-- NOP (R451): Lane instruction that does nothing -/
  | laneNop (lane : Fin 8)
  /-- ADD (R451): Lane instruction adding two registers modulo 2^32 -/
  | laneAdd (lane : Fin 8)
  /-- SUB (R451): Lane instruction subtracting two registers modulo 2^32 -/
  | laneSub (lane : Fin 8)
  /-- ADDS (R451): Lane instruction adding with saturation -/
  | laneAdds (lane : Fin 8)
  /-- SUBS (R451): Lane instruction subtracting with saturation -/
  | laneSubs (lane : Fin 8)
  /-- MUL (R451): Lane instruction giving the low 32 bits of a product -/
  | laneMul (lane : Fin 8)
  /-- MULH (R451): Lane instruction giving the high 32 bits of a signed product -/
  | laneMulh (lane : Fin 8)
  /-- AND (R451): Lane bitwise AND -/
  | laneAnd (lane : Fin 8)
  /-- OR (R451): Lane bitwise OR -/
  | laneOr (lane : Fin 8)
  /-- XOR (R451): Lane bitwise XOR -/
  | laneXor (lane : Fin 8)
  /-- SHL (R451): Lane logical left shift by a register -/
  | laneShl (lane : Fin 8)
  /-- SHR (R451): Lane logical right shift by a register -/
  | laneShr (lane : Fin 8)
  /-- SAR (R451): Lane arithmetic right shift by a register -/
  | laneSar (lane : Fin 8)
  /-- MIN (R451): Lane signed minimum -/
  | laneMin (lane : Fin 8)
  /-- MAX (R451): Lane signed maximum -/
  | laneMax (lane : Fin 8)
  /-- ABS (R451): Lane absolute value with saturation -/
  | laneAbs (lane : Fin 8)
  /-- ADDI (R451): Lane add of a sign-extended immediate -/
  | laneAddi (lane : Fin 8)
  /-- LUI (R451): Lane load of an immediate into the upper half -/
  | laneLui (lane : Fin 8)
  /-- ORI (R451): Lane OR with a zero-extended immediate -/
  | laneOri (lane : Fin 8)
  /-- SHLI (R451): Lane left shift by an immediate -/
  | laneShli (lane : Fin 8)
  /-- SARI (R451): Lane arithmetic right shift by an immediate -/
  | laneSari (lane : Fin 8)
  /-- SHRI (R451): Lane logical right shift by an immediate -/
  | laneShri (lane : Fin 8)
  /-- LD (R453): Lane load of a word at the effective address with pointer update -/
  | laneLd (lane : Fin 8)
  /-- ST (R453): Lane store of a word at the effective address, committing set-point ports on the high word -/
  | laneSt (lane : Fin 8)
  /-- SETX (R454): Lane write of an address register, modifier, base or length -/
  | laneSetx (lane : Fin 8)
  /-- GETX (R451): Lane read of an address register, modifier, base or length -/
  | laneGetx (lane : Fin 8)
  /-- CLR (R451): Lane clear of an accumulator -/
  | laneClr (lane : Fin 8)
  /-- MPY (R451): Lane signed multiply into an accumulator -/
  | laneMpy (lane : Fin 8)
  /-- MAC (R452): Lane multiply-accumulate -/
  | laneMac (lane : Fin 8)
  /-- MSU (R452): Lane multiply-subtract -/
  | laneMsu (lane : Fin 8)
  /-- MACX (R454): Lane multiply-accumulate from two pointers with post-update -/
  | laneMacx (lane : Fin 8)
  /-- ADDA (R452): Lane add of two accumulators -/
  | laneAdda (lane : Fin 8)
  /-- SHA (R452): Lane arithmetic shift of an accumulator -/
  | laneSha (lane : Fin 8)
  /-- EXP (R452): Lane exponent of an accumulator -/
  | laneExp (lane : Fin 8)
  /-- NORM (R452): Lane shift of an accumulator by a register -/
  | laneNorm (lane : Fin 8)
  /-- MOVAH (R451): Lane rounded saturated extraction from an accumulator -/
  | laneMovah (lane : Fin 8)
  /-- LDA (R451): Lane load of an accumulator from two registers -/
  | laneLda (lane : Fin 8)
  /-- BEQ (R455): Lane branch if equal, with two delay slots -/
  | laneBeq (lane : Fin 8)
  /-- BNE (R455): Lane branch if not equal -/
  | laneBne (lane : Fin 8)
  /-- BLT (R455): Lane branch if signed less -/
  | laneBlt (lane : Fin 8)
  /-- BGE (R455): Lane branch if signed greater or equal -/
  | laneBge (lane : Fin 8)
  /-- BRA (R455): Lane branch always -/
  | laneBra (lane : Fin 8)
  /-- CALL (R451): Lane call saving the return address in D31 -/
  | laneCall (lane : Fin 8)
  /-- RET (R451): Lane return to D31 -/
  | laneRet (lane : Fin 8)
  /-- REP (R456): Lane repeat of the next instruction n times without interruption -/
  | laneRep (lane : Fin 8)
  /-- END (R445): Lane instruction ending the thread, delivering its end token and reloading its counter -/
  | laneEnd (lane : Fin 8)
  /-- MODE (R451): Lane setting of SAT mode and clearing of sticky flags -/
  | laneMode (lane : Fin 8)
  /-- GETF (R451): Lane read of the flags word -/
  | laneGetf (lane : Fin 8)
  /-- COMMAND_SIGNAL_EDGE (R256): When a leg group's counter reaches CMPA or CMPB the command signal rises or falls and the leg outputs follow through dead time -/
  | commandSignalEdge (leg : Fin 96) (rise : Bool)
  /-- OVERCURRENT_INACTIVE (R275): An input's overcurrent comparator returns inside its band and becomes inactive -/
  | overcurrentInactive (input : Fin 96)
  /-- ARBITRATION_LOST (R389): A CAN frame being sent loses arbitration and is retried, abandoned or counted as TT_MISSED -/
  | arbitrationLost (ctl : Fin 4)
  /-- SPH_BAD_CMD_FRAME (R406): A Host Port frame with an undefined CMD, reserved byte, LEN or ADDR ends BAD_CMD and is discarded and counted -/
  | sphBadCmdFrame
  /-- XIP_READ_TIMEOUT (R401): A window read waiting on a busy flash device for 100 µs returns 0 and records a TIMEOUT access error -/
  | xipReadTimeout (ctx : Fin 6)
  /-- SPH_WORD_TIMEOUT (R405): A Host Port read word not ready within 100 µs of its request is delivered as 0 and recorded as a TIMEOUT access error -/
  | sphWordTimeout (addr : Nat)
  /-- LODGE_IMAGE_INSTALLED (R62): Lodge finishes verifying and installing, or rejecting, a handed-over image, and IMAGE_ACTIVATE is answered -/
  | lodgeImageInstalled (acceptsFormat : Bool)
  /-- ANNOUNCE_RECEIPT_TIMEOUT (R324): No Announce message reaches a gPTP instance on a port within announceReceiptTimeout, and the best master clock algorithm re-evaluates -/
  | announceReceiptTimeout (inst : Fin 2) (port : Fin 4) (other : Option (Fin 4))
  /-- FIELD_SUPPLY_RETURN (R378): A field supply rises through 18.0 V, starting the restore timer, or through 18.5 V, ending a sag -/
  | fieldSupplyReturn (group : Fin 4) (vf : Nat)
  /-- OPEN_WIRE_CLEAR (R371): An open input's current stays at 0.3 mA or more for 100 ms and its open state clears -/
  | openWireClear (input : Fin 32)
  /-- OPEN_LOAD_CLEAR (R373): A field output's load current stays at 5 mA or more for 100 ms and its OPEN_LOAD live bit clears -/
  | openLoadClear (output : Fin 16)
  /-- BACKFEED_CLEAR (R373): An off field output stays below 5 V for 1 ms and its BACKFEED live bit clears -/
  | backfeedClear (output : Fin 16)
  /-- FIO_OVERTEMP_CLEAR (R373): A field output's switch junction cools below 150 °C and its OVERTEMP condition ends, permitting a retry or clear -/
  | fioOvertempClear (output : Fin 16)
deriving DecidableEq, Repr

end Sys2Proof
end

