-- ==== Sys2Proof/Decode.lean ====
section
/-! DEFINITION.
The rows of the table give no bits: a command is spelled by no word. The packets of chapter 04 are read by
Sys2Proof.Machine.Packets, which takes their bytes as operands. -/

namespace Sys2Proof

/-- The command a word spells by the table's bits: no row gives bits, so none. -/
def decodeTableWord (_nbits _w : Nat) : Option Instr := none

end Sys2Proof
end

