-- ==== Sys2Proof/Config.lean ====
section
/-! DEFINITION.
What one implementation fixes and the manual leaves open: constants without a body, so nothing can be
proved of their values (log entry 6). Each is a free value; the state's counter `Sys.free` numbers fresh ones. -/

namespace Sys2Proof.Config

/-- The n-th free natural number: a random draw, an unstated measure, an unspecified choice. -/
opaque freeNat : Nat → Nat

/-- The n-th free integer. -/
opaque freeInt : Nat → Int

/-- The n-th free bit. -/
opaque freeBool : Nat → Bool

/-- The n-th free byte string of the given length's worth of bytes is `freeByte n i` for i below it. -/
opaque freeByte : Nat → Nat → Byte

/-- The device's signature over a byte string (R59, R66, 03): the private key never leaves the die. -/
opaque deviceSign : List Byte → Nat → Byte

/-- The offset, type or reason (0, 1, 2) a DETAIL TLV carries where no rule states it (R74, 04), by status code. -/
opaque openDetail : Nat → Nat → Nat

/-- The result of a fixed stage of the Loop Engine or of the observer (R198 to R201, R211, 09), whose
roundings the manual does not state: stage number and arguments. -/
opaque fixedStage : Nat → List Int → Int

/-- The error of the sine of `n` / 2^32 revolutions, in 2^-31 (R198, 09, bounds it). -/
opaque sineError : Nat → Int

/-- A point along a path at a distance (R157 to R159, 07): segment data, distance, member. -/
opaque pathPoint : List Int → Int → Nat → Int

/-- The entries of Gardener's permission table, whose contents come from the Keeper image (R60, 03): first and last address, rights
(bit 0 read, bit 1 write), device states (bit n: the state of code n), update strobes. -/
opaque gardenerTable : List (Nat × Nat × Nat × Nat × Nat)

/-- The register accesses Gardener makes to execute a command, by opcode and target: address, and whether it writes. Which they are
is stated nowhere (R60, 03). -/
opaque commandAccesses : Nat → Nat → List (Word × Bool)

/-- Whether a value that lies between two values of its format, numerator and denominator given, goes to the upper one,
where no rule states the rounding (R144, 07, and others). -/
opaque roundUp : Int → Nat → Bool

/-- What the CONDITION of a level, edge or mask trigger states: an internal channel or, `onPin`, a pin; the side of THRESHOLD or the level
(`below`), the direction of an edge (0 rising, 1 falling, else either), MASK and PATTERN (Table 19.4). -/
structure TrigCond where
  /-- on a pin -/
  onPin : Bool
  /-- the channel, or the pin -/
  source : Nat
  /-- below THRESHOLD, or at the low level -/
  below : Bool
  /-- direction of an edge -/
  edge : Nat
  /-- THRESHOLD -/
  threshold : Int
  /-- MASK -/
  mask : BitVec 32
  /-- PATTERN -/
  pattern : BitVec 32
  deriving DecidableEq, Repr, Inhabited

/-- The CONDITION of a level, edge or mask trigger in the layout of its 48 bytes that the manual does not give (R426, Table 19.8, 19). -/
opaque triggerCond : List Nat → TrigCond

/-- What a binary64 infinity or NaN in a parameter (R216, 09) stands for. -/
opaque notFinite : BitVec 64 → Int

end Sys2Proof.Config
end

