-- ==== Sys2Proof/Machine/State/Acq.lean ====
section
/-! DEFINITION.
State of the block: Acquisition Engine (Belvedere).
Each field names the rule of spec/ that gives it.
A default is the value at reset; where the spec states none, log entry 3 names the value. -/

namespace Sys2Proof.Machine

/-- One channel (R414 to R416, 19). -/
structure AcqChan where
  /-- R414 (19). variable code, 0 off [8]; DESIGN CHOICE (log 3): the spec states no reset value -/
  code : Nat := 0
  /-- R414 (19). its index [8]; DESIGN CHOICE (log 3): the spec states no reset value -/
  index : Nat := 0
  /-- R415 (19). SHIFT [8]; DESIGN CHOICE (log 3): the spec states no reset value -/
  shift : Nat := 0
  /-- R420 (19). CHANGE [1]; DESIGN CHOICE (log 3): the spec states no reset value -/
  change : Bool := false
  /-- R414 (19). register address of code 15 [32]; DESIGN CHOICE (log 3): the spec states no reset value -/
  addr : Nat := 0
  /-- R416 (19). clocked by a period [8]; DESIGN CHOICE (log 3): the spec states no reset value -/
  clkPeriod : Bool := false
  /-- R416 (19). slot of the clocking loop [8]; DESIGN CHOICE (log 3): the spec states no reset value -/
  slot : Nat := 0
  /-- R416 (19). that loop [8]; DESIGN CHOICE (log 3): the spec states no reset value -/
  loop : Nat := 0
  /-- R416 (19). period, ticks [32]; DESIGN CHOICE (log 3): the spec states no reset value -/
  period : Nat := 5000
  /-- R420 (19). DEADBAND [31]; DESIGN CHOICE (log 3): the spec states no reset value -/
  deadband : Nat := 0
  /-- R420 (19). last stored value [32]; DESIGN CHOICE (log 3): the spec states no reset value -/
  last : Option Int := none
  /-- R426 (19). previous sample [32]; DESIGN CHOICE (log 3): the spec states no reset value -/
  prev : Option Int := none
  /-- R420 (19). its next sample is the first after arming or after the trigger [1]; DESIGN CHOICE (log 3): the spec states no reset value -/
  firstDue : Bool := true
  /-- R421 (19). CHANNEL_LOST was written [1]; DESIGN CHOICE (log 3): the spec states no reset value -/
  lost : Bool := false
  /-- R416 (19). tick of the sample instant it took last; the model's own field -/
  sampledAt : Option Nat := none
deriving DecidableEq, Repr

/-- A record on its way to the store (R418, 19). -/
structure AcqRec where
  /-- R418 (19). the record [64]; DESIGN CHOICE (log 3): the spec states no reset value -/
  word : BitVec 64 := 0
  /-- R432 (19). it is a sample's (not a time record or mark) [1]; the model's own field -/
  sample : Bool := false
  /-- R418 (19). its tag, ns since arming [64]; the model's own field -/
  tag : Nat := 0
  /-- R422 (19). produced before the trigger [1]; the model's own field -/
  pre : Bool := false
deriving DecidableEq, Repr

/-- One trigger unit (R426, 19). -/
structure AcqTrig where
  /-- Table 19.4 (19). kind, 7 off [8]; DESIGN CHOICE (log 3): the spec states no reset value -/
  kind : Nat := 7
  /-- Table 19.8 (19). condition fields [48 bytes]; DESIGN CHOICE (log 3): the spec states no reset value -/
  cond : List Byte := []
deriving DecidableEq, Repr

/-- One envelope (R428, 19). -/
structure AcqEnv where
  /-- R428 (19). channel [8]; DESIGN CHOICE (log 3): the spec states no reset value -/
  chan : Nat := 0
  /-- Table 19.8 (19). enabled [1]; DESIGN CHOICE (log 3): the spec states no reset value -/
  enabled : Bool := false
  /-- R428 (19). STOP [1]; DESIGN CHOICE (log 3): the spec states no reset value -/
  stop : Bool := false
  /-- R428 (19). points: t ns, lower, upper [1024]; DESIGN CHOICE (log 3): the spec states no reset value -/
  points : List (Nat × Int × Int) := []
deriving DecidableEq, Repr

/-- One segment of the store (R422, R429, 19). -/
structure AcqSeg where
  /-- ACQ_SEG.USE (19). 0 free, 1 being written, 2 complete [2] -/
  use : Nat := 0
  /-- ACQ_SEG.SEQ (19). capture sequence number [12] -/
  seq : Nat := 0
  /-- R418 (19). its records, oldest first [records of 8 bytes]; DESIGN CHOICE (log 3): the spec states no reset value -/
  records : List (BitVec 64) := []
  /-- Table 19.9 (19). its capture header [64 bytes]; DESIGN CHOICE (log 3): the spec states no reset value -/
  header : List Byte := []
  /-- R432 (19). records in it that are samples; DESIGN CHOICE (log 3): the spec states no reset value -/
  kept : Nat := 0
deriving DecidableEq, Repr

/-- Belvedere. -/
structure AcqBlk where
  /-- R414 (19). channels; DESIGN CHOICE (log 3): the spec states no reset value -/
  chan : Vector AcqChan 64 := Vector.replicate 64 {}
  /-- ACQ_PIN_CONFIG (19). enabled pins [8]; DESIGN CHOICE (log 3): the spec states no reset value -/
  pinEn : BitVec 8 := 0
  /-- ACQ_PIN_CONFIG (19). stored pins [8]; DESIGN CHOICE (log 3): the spec states no reset value -/
  pinStore : BitVec 8 := 0
  /-- R417 (19). PIN_DIV [16]; DESIGN CHOICE (log 3): the spec states no reset value -/
  pinDiv : Nat := 1
  /-- R417 (19). DESKEW, 250 ps [8x8]; DESIGN CHOICE (log 3): the spec states no reset value -/
  deskew : List Int := [0,0,0,0,0,0,0,0]
  /-- R417 (19). levels of ACQ7 to ACQ0 [8]; DESIGN CHOICE (log 3): the spec states no reset value -/
  pins : BitVec 8 := 0
  /-- R420 (19). levels at the last pin sample [8]; DESIGN CHOICE (log 3): the spec states no reset value -/
  pinSeen : BitVec 8 := 0
  /-- R432 (19). TB tick of the last pin sample; the model's own field -/
  pinAt : Option Nat := none
  /-- R426 (19). the pins have been sampled since arming [1]; DESIGN CHOICE (log 3): the spec states no reset value -/
  pinKnown : Bool := false
  /-- R420 (19). the next pin sample is a first sample [1]; DESIGN CHOICE (log 3): the spec states no reset value -/
  pinFirst : Bool := true
  /-- ACQ_STATUS.CAL_OK (19). the last pin calibration succeeded [1] -/
  calOk : Bool := false
  /-- R417 (19). delay-line setting of each pin path, ps; DESIGN CHOICE (log 3): the spec states no reset value -/
  delay : List Int := [0,0,0,0,0,0,0,0]
  /-- R426 (19). trigger units; DESIGN CHOICE (log 3): the spec states no reset value -/
  trig : Vector AcqTrig 8 := Vector.replicate 8 {}
  /-- R428 (19). envelopes; DESIGN CHOICE (log 3): the spec states no reset value -/
  env : Vector AcqEnv 4 := Vector.replicate 4 {}
  /-- R422 (19). SEGMENTS [8]; DESIGN CHOICE (log 3): the spec states no reset value -/
  segments : Nat := 1
  /-- R429 (19). repeat mode [8]; DESIGN CHOICE (log 3): the spec states no reset value -/
  repeatMode : Bool := false
  /-- R429 (19). OVERWRITE [1]; DESIGN CHOICE (log 3): the spec states no reset value -/
  overwrite : Bool := false
  /-- R422 (19). PREFILL [1]; DESIGN CHOICE (log 3): the spec states no reset value -/
  prefill : Bool := false
  /-- R431 (19). ARM_AT_START [1]; DESIGN CHOICE (log 3): the spec states no reset value -/
  armAtStart : Bool := false
  /-- R427 (19). TRIGGER mask [16]; DESIGN CHOICE (log 3): the spec states no reset value -/
  mask : BitVec 16 := 0
  /-- R431 (19). hold-off kind [8]; DESIGN CHOICE (log 3): the spec states no reset value -/
  holdKind : Nat := 0
  /-- R422 (19). PRE [32]; DESIGN CHOICE (log 3): the spec states no reset value -/
  pre : Nat := 0
  /-- R422 (19). POST [32]; DESIGN CHOICE (log 3): the spec states no reset value -/
  post32 : Nat := 1
  /-- R431 (19). HOLDOFF [64]; DESIGN CHOICE (log 3): the spec states no reset value -/
  holdoff : Nat := 1000
  /-- ACQ_STATUS.STATE (19). state [3] -/
  st : Nat := 0
  /-- ACQ_STATUS.SEGMENT (19). segment in use [6] -/
  segment : Nat := 0
  /-- ACQ_STATUS.OVERFLOW (19). a capture overflowed [1] -/
  fOverflow : Bool := false
  /-- ACQ_STATUS.TRUNCATED (19). a capture was truncated [1] -/
  fTruncated : Bool := false
  /-- ACQ_STATUS.MASK_FAIL (19). MASK_FAIL was raised [1] -/
  fMaskFail : Bool := false
  /-- ACQ_STATUS.DONE (19). CAPTURE_DONE was raised [1] -/
  fDone : Bool := false
  /-- ACQ_STATUS.FIFO (19). records in the FIFO, oldest first [512] -/
  fifo : List AcqRec := []
  /-- ACQ_TRIG.BITMASK (19). occurrences at the last trigger [9] -/
  bitmask : BitVec 9 := 0
  /-- ACQ_TRIG.PRIMARY (19). primary occurrence [4] -/
  primary : Nat := 0
  /-- ACQ_DEAD_LAST (19). last dead time, ns [32]; DESIGN CHOICE (log 3): the spec states no reset value -/
  deadLast : Nat := 0
  /-- ACQ_DEAD_MIN (19). smallest dead time [32] -/
  deadMin : Nat := 0xFFFFFFFF
  /-- ACQ_DEAD_MAX (19). largest dead time [32]; DESIGN CHOICE (log 3): the spec states no reset value -/
  deadMax : Nat := 0
  /-- ACQ_MISSED (19). missed occurrences, wrapping [32]; DESIGN CHOICE (log 3): the spec states no reset value -/
  missed : BitVec 32 := 0
  /-- Table 19.9 (19). dead time before the capture, ns [32]; DESIGN CHOICE (log 3): the spec states no reset value -/
  deadCap : Nat := 0
  /-- Table 19.9 (19). missed occurrences during the capture [32]; DESIGN CHOICE (log 3): the spec states no reset value -/
  missedCap : Nat := 0
  /-- ACQ_SEG (19). segments [8 MiB] -/
  seg : Vector AcqSeg 64 := Vector.replicate 64 {}
  /-- Table 19.9 (19). sequence number of the capture [16]; DESIGN CHOICE (log 3): the spec states no reset value -/
  seq : Nat := 0
  /-- R418 (19). TB tick of the arming instant; DESIGN CHOICE (log 3): the spec states no reset value -/
  armTick : Nat := 0
  /-- Table 19.9 (19). TBASE0 at arming, ns [64]; DESIGN CHOICE (log 3): the spec states no reset value -/
  armTb : Nat := 0
  /-- Table 19.9 (19). trigger tag, ns since arming [64]; DESIGN CHOICE (log 3): the spec states no reset value -/
  trigTag : Nat := 0
  /-- Table 19.9 (19). TBASE0 at the trigger instant [64]; DESIGN CHOICE (log 3): the spec states no reset value -/
  trigTb : Nat := 0
  /-- R418 (19). BASE in force: the arming instant, then that of the last time record written [62]; DESIGN CHOICE (log 3): the spec states no reset value -/
  base : Nat := 0
  /-- R419 (19). the trigger sample's time record is still to be written [1]; DESIGN CHOICE (log 3): the spec states no reset value -/
  timeDue : Bool := false
  /-- R427 (19). ACQ period of the trigger; the model's own field -/
  trigPeriod : Nat := 0
  /-- R429 (19). tick at which the re-arming ends, once a segment is available; the model's own field -/
  rearmAt : Option Nat := none
  /-- R422 (19). pre-trigger ring [PRE records]; DESIGN CHOICE (log 3): the spec states no reset value -/
  ring : List AcqRec := []
  /-- R422 (19). post-trigger records of the segment being written [the segment]; DESIGN CHOICE (log 3): the spec states no reset value -/
  post : List AcqRec := []
  /-- R422 (19). records produced at or after the trigger [32]; DESIGN CHOICE (log 3): the spec states no reset value -/
  produced : Nat := 0
  /-- R424 (19). post-trigger records stored; DESIGN CHOICE (log 3): the spec states no reset value -/
  stored : Nat := 0
  /-- Table 19.9 (19). unstored samples of the capture [64]; DESIGN CHOICE (log 3): the spec states no reset value -/
  unstoredCap : Nat := 0
  /-- R425 (19). this capture overflowed [1]; DESIGN CHOICE (log 3): the spec states no reset value -/
  overflowed : Bool := false
  /-- R424 (19). this capture filled its segment [1]; DESIGN CHOICE (log 3): the spec states no reset value -/
  truncated : Bool := false
  /-- Table 19.9 (19). a channel saturated in this capture [1]; DESIGN CHOICE (log 3): the spec states no reset value -/
  satCap : Bool := false
  /-- Table 19.9 (19). a mask failed in this capture [1]; DESIGN CHOICE (log 3): the spec states no reset value -/
  maskCap : Bool := false
  /-- R428 (19). MASK_FAILS [32]; DESIGN CHOICE (log 3): the spec states no reset value -/
  maskFails : Nat := 0
  /-- R430 (19). TB tick of the end of the previous capture; DESIGN CHOICE (log 3): the spec states no reset value -/
  endTick : Option Nat := none
  /-- R431 (19). named occurrences still to come in an event hold-off; DESIGN CHOICE (log 3): the spec states no reset value -/
  holdLeft : Nat := 0
  /-- Table 19.5, R464 (19, 21). SAMPLES [64] -/
  samples : Tally := 0
  /-- Table 19.5, R464 (19, 21). SUPPRESSED [64] -/
  suppressed : Tally := 0
  /-- Table 19.5, R464 (19, 21). UNSTORED [64] -/
  unstored : Tally := 0
  /-- Table 19.5, R464 (19, 21). OVERWRITTEN [64] -/
  overwritten : Tally := 0
  /-- Table 19.5, R464 (19, 21). RELEASED [64] -/
  released : Tally := 0
deriving DecidableEq, Repr

end Sys2Proof.Machine
end

