-- ==== Sys2Proof/Machine/State/Axis.lean ====
section
/-! DEFINITION.
State of the block: axis slots: binding, mode, state and status.
Each field names the rule of spec/ that gives it.
A default is the value at reset; where the spec states none, log entry 3 names the value. -/

namespace Sys2Proof.Machine

/-- The axis states of Table 6.9 (R134, 06). -/
inductive AxisState
  | unbound | disabled | enabling | enabled | reacting | faulted
deriving DecidableEq, Repr

/-- A slot's mode: the attributes of Table 6.3 and its timing (R126, 06). -/
structure AxisMode where
  /-- Table 6.3 (06). drive kind [3]; DESIGN CHOICE (log 3): the spec states no reset value -/
  drive : Nat := 0
  /-- Table 6.3 (06). feedback kind [3]; DESIGN CHOICE (log 3): the spec states no reset value -/
  feedback : Nat := 0
  /-- Table 6.3 (06). loop depth [2]; DESIGN CHOICE (log 3): the spec states no reset value -/
  depth : Nat := 0
  /-- Table 6.3 (06). command source [3]; DESIGN CHOICE (log 3): the spec states no reset value -/
  source : Nat := 0
  /-- AXIS_SET_MODE SOURCE (06). AIN channel or pulse port, else 0xFF [8]; DESIGN CHOICE (log 3): the spec states no reset value -/
  srcIndex : Nat := 255
  /-- AXIS_SET_MODE SOURCE (06). microsteps or counts per pulse [16]; DESIGN CHOICE (log 3): the spec states no reset value -/
  srcScale : Nat := 0
  /-- Table 6.3 (06). standstill policy [3]; DESIGN CHOICE (log 3): the spec states no reset value -/
  standstill : Nat := 0
  /-- R132 (06). idle time, ms [16]; DESIGN CHOICE (log 3): the spec states no reset value -/
  idleMs : Nat := 1
  /-- Table 6.3 (06). fault reaction [2]; DESIGN CHOICE (log 3): the spec states no reset value -/
  reaction : Nat := 0
  /-- AXIS_SET_MODE REACTION (06). reaction timeout, ms [16]; DESIGN CHOICE (log 3): the spec states no reset value -/
  reactMs : Nat := 0
  /-- AXIS_SET_MODE REACTION (06). reaction deceleration, Q39.24 units [63]; DESIGN CHOICE (log 3): the spec states no reset value -/
  reactDecel : Int := 0
  /-- R133 (06). inner loop period, ticks [20]; DESIGN CHOICE (log 3): the spec states no reset value -/
  period : Nat := 0
  /-- R133 (06). velocity divider [5]; DESIGN CHOICE (log 3): the spec states no reset value -/
  velDiv : Nat := 0
  /-- R133 (06). position divider [5]; DESIGN CHOICE (log 3): the spec states no reset value -/
  posDiv : Nat := 0
  /-- R22, R133 (01, 06). L of the current loop, ticks [16]; DESIGN CHOICE (log 3): the spec states no reset value -/
  lCur : Nat := 0
  /-- R22, R133 (01, 06). L of the velocity loop [16]; DESIGN CHOICE (log 3): the spec states no reset value -/
  lVel : Nat := 0
  /-- R22, R133 (01, 06). L of the position loop [16]; DESIGN CHOICE (log 3): the spec states no reset value -/
  lPos : Nat := 0
deriving DecidableEq, Repr

/-- A slot's binding (R121 to R124, 06). -/
structure Binding where
  /-- AXIS_BIND LOCATION (06). 0 none, 1 local, 2 remote [2]; DESIGN CHOICE (log 3): the spec states no reset value -/
  location : Nat := 0
  /-- R121 (06). leg-set code [16]; DESIGN CHOICE (log 3): the spec states no reset value -/
  legSet : Nat := 0
  /-- R123 (06). SDI numbers [3x8]; DESIGN CHOICE (log 3): the spec states no reset value -/
  inputs : List Nat := []
  /-- R123 (06). primary Position Port [8]; DESIGN CHOICE (log 3): the spec states no reset value -/
  portA : Option Nat := none
  /-- R123 (06). secondary Position Port [8]; DESIGN CHOICE (log 3): the spec states no reset value -/
  portB : Option Nat := none
  /-- R124 (06). brick number [6]; DESIGN CHOICE (log 3): the spec states no reset value -/
  brick : Nat := 0
  /-- R124 (06). channel of the brick [2]; DESIGN CHOICE (log 3): the spec states no reset value -/
  channel : Nat := 0xFF
deriving DecidableEq, Repr

/-- One axis slot. -/
structure Axis where
  /-- R121 (06). the binding; DESIGN CHOICE (log 3): the spec states no reset value -/
  bind : Binding := {}
  /-- R126, R138 (06). the mode, when one has been set; DESIGN CHOICE (log 3): the spec states no reset value -/
  mode : Option AxisMode := none
  /-- Table 6.9, Table 6.13 STATE (06). axis state [3] -/
  st : AxisState := .unbound
  /-- Table 6.13 (06). idle time reached [1] -/
  standstill : Bool := false
  /-- Table 6.13, R154 (06, 07). target reached [1] -/
  targetReached : Bool := false
  /-- Table 6.13 (06). following error above its warning level [1] -/
  feWarning : Bool := false
  /-- Table 6.13 (06). limit reached in the last cycle [1] -/
  saturated : Bool := false
  /-- Table 6.13 (06). stepper position realigned [1] -/
  microstepLost : Bool := false
  /-- Table 6.13 (06). the last apply instant was a miss [1] -/
  cyclicMiss : Bool := false
  /-- Table 6.13 (06). the last inbound record was missing [1] -/
  brickMiss : Bool := false
  /-- Table 6.13 CAUSE (06). cause in force [8] -/
  cause : Nat := 0
  /-- R134, R198 (06, 09). commutation offset, a position in Q47.16; known when present (ALIGNED) [63]; DESIGN CHOICE (log 3): the spec states no reset value -/
  offset : Option Int := none
  /-- R134 (06). measured position at the start of the alignment [63]; DESIGN CHOICE (log 3): the spec states no reset value -/
  alignStart : Int := 0
  /-- R134 (06). motion of at least 1/16 electrical revolution has been measured in it [1]; DESIGN CHOICE (log 3): the spec states no reset value -/
  alignMoved : Bool := false
  /-- R134 (06). tick at which the alignment vector was applied; DESIGN CHOICE (log 3): the spec states no reset value -/
  alignSince : Nat := 0
  /-- AXIS_DISABLE STOP 2, R141 (06). a short-brake stop of AXIS_DISABLE is under way [1]; DESIGN CHOICE (log 3): the spec states no reset value -/
  stopShort : Bool := false
  /-- R134 (06). the alignment vector is applied [1]; DESIGN CHOICE (log 3): the spec states no reset value -/
  aligning : Bool := false
  /-- AXIS_ENABLE OPTIONS (06). alignment forced for this enabling [1]; DESIGN CHOICE (log 3): the spec states no reset value -/
  forceAlign : Bool := false
  /-- R134 step 1 (06). the zero vector has been sealed in the slot's leg groups [1]; DESIGN CHOICE (log 3): the spec states no reset value -/
  zeroVector : Bool := false
  /-- R134 step 3 (06). the brick reports the channel enabled [1]; DESIGN CHOICE (log 3): the spec states no reset value -/
  brickEnabled : Bool := false
  /-- R134 step 3 (06). inner cycles since a remote enabling began; DESIGN CHOICE (log 3): the spec states no reset value -/
  enableCycles : Nat := 0
  /-- R136 (06). reaction in force (0 torque off, 1 short brake, 2 ramp-down) [2]; DESIGN CHOICE (log 3): the spec states no reset value -/
  reaction : Option Nat := none
  /-- R134 (06). tick at which the reaction began; DESIGN CHOICE (log 3): the spec states no reset value -/
  reactStart : Nat := 0
  /-- R134 (06). tick since which the speed estimate has stayed below 0.5 %; DESIGN CHOICE (log 3): the spec states no reset value -/
  slowSince : Option Nat := none
  /-- Table 6.9 (06). legs or brick output off [1]; DESIGN CHOICE (log 3): the spec states no reset value -/
  legsOff : Bool := true
  /-- Table 6.9 (06). low sides on (short brake or standstill policy 2) [1]; DESIGN CHOICE (log 3): the spec states no reset value -/
  legsShort : Bool := false
  /-- R132 (06). re-engagement after policy 1 or 2 is under way [1]; DESIGN CHOICE (log 3): the spec states no reset value -/
  reengage : Bool := false
  /-- R132, R285, R288 (06, 12). a set-point change that waits for the slot to leave standstill: position, velocity, velocity feedforward, current [4x63]; DESIGN CHOICE (log 3): the spec states no reset value -/
  waitSp : Option (Int × Int × Int × Int) := none
  /-- R132, R285 (06, 12). inner samples it still waits [1]; DESIGN CHOICE (log 3): the spec states no reset value -/
  waitN : Nat := 0
  /-- R139 (06). a source that takes over at the next outer-loop sample; DESIGN CHOICE (log 3): the spec states no reset value -/
  nextSource : Option (Nat × Nat × Nat) := none
  /-- R130, Table 4.8A (06, 04). position set-point, Q47.16 units [63]; DESIGN CHOICE (log 3): the spec states no reset value -/
  posSp : Int := 0
  /-- R171, R174 (08). position set-point at the last outer-loop sample in service, Q47.16 [63]; DESIGN CHOICE (log 3): the spec states no reset value -/
  cmdPos : Int := 0
  /-- R174 (08). jumps of that set-point that were no travel, summed, Q47.16 [64]; DESIGN CHOICE (log 3): the spec states no reset value -/
  cmdJump : Int := 0
  /-- R172, R173 (08). tick of the last outer-loop sample at which the set-point source was evaluated; DESIGN CHOICE (log 3): the spec states no reset value -/
  sourceAt : Option Nat := none
  /-- R130 (06). velocity set-point, Q39.24 units [63]; DESIGN CHOICE (log 3): the spec states no reset value -/
  velSp : Int := 0
  /-- R130 (06). current set-point, Q1.31 units [32]; DESIGN CHOICE (log 3): the spec states no reset value -/
  curSp : Int := 0
  /-- R130, Table 4.8A (06, 04). velocity feedforward [63]; DESIGN CHOICE (log 3): the spec states no reset value -/
  velFf : Int := 0
  /-- R200, Table 4.8A (09, 04). cyclic velocity feedforward (quantity 0x04), once written since Enabling [63]; DESIGN CHOICE (log 3): the spec states no reset value -/
  cycVel : Option Int := none
  /-- R144, R200 (07, 09). acceleration feedforward of the set-point source, Q39.24 [63]; DESIGN CHOICE (log 3): the spec states no reset value -/
  accFf : Int := 0
  /-- R130, Table 4.8A (06, 04). current feedforward [32]; DESIGN CHOICE (log 3): the spec states no reset value -/
  curFf : Int := 0
  /-- R130, Table 4.8A (06, 04). a cyclic position set-point that is stored but not used [63]; DESIGN CHOICE (log 3): the spec states no reset value -/
  stoPos : Int := 0
  /-- R130, Table 4.8A (06, 04). the same of a velocity set-point [63]; DESIGN CHOICE (log 3): the spec states no reset value -/
  stoVel : Int := 0
  /-- R130, Table 4.8A (06, 04). the same of a current set-point [32]; DESIGN CHOICE (log 3): the spec states no reset value -/
  stoCur : Int := 0
  /-- R132 (06). tick of the last set-point change; DESIGN CHOICE (log 3): the spec states no reset value -/
  spChange : Nat := 0
  /-- Table 4.8A, AXIS_STATUS (04, 06). actual position, Q47.16 units [63]; DESIGN CHOICE (log 3): the spec states no reset value -/
  posAct : Int := 0
  /-- Table 4.8A, AXIS_STATUS (04, 06). actual velocity, Q39.24 units [63]; DESIGN CHOICE (log 3): the spec states no reset value -/
  velAct : Int := 0
  /-- Table 4.8A (04). actual q current, Q1.31 units [32]; DESIGN CHOICE (log 3): the spec states no reset value -/
  curAct : Int := 0
  /-- R248 (10). reported positions at outer-loop samples, with their ns, newest first (1 ms); DESIGN CHOICE (log 3): the spec states no reset value -/
  posHist : List (Nat × Int) := []
deriving DecidableEq, Repr

end Sys2Proof.Machine
end

