-- ==== Sys2Proof/Machine/State/Sys.lean ====
section
/-! DEFINITION.
State of the block: device state, clock, operating point, power state, supplies, register contexts, update groups, voted fields.
Each field names the rule of spec/ that gives it.
A default is the value at reset; where the spec states none, log entry 3 names the value. -/

namespace Sys2Proof.Machine

/-- The device states of Table 0.6 (R13, 00). -/
inductive DevState
  | reset | startup | commissioning | operational | test | recovery
deriving DecidableEq, Repr

/-- The power states of Table 1.6 (R33, 01). -/
inductive PowerState
  | run | trim | doze | nap | rest
deriving DecidableEq, Repr

/-- A buffered register: active value, shadow and armed set (R109, R111, 05). -/
structure Buf where
  /-- R109 (05). value the block uses (each register's own table gives its reset, see the fields of type Buf) [32] -/
  active : Word := 0
  /-- R109 (05). value that receives writes [32]; DESIGN CHOICE (log 3): the spec states no reset value -/
  shadow : Word := 0
  /-- R111 (05). value copied at arming, transferred at the take-over point [32]; DESIGN CHOICE (log 3): the spec states no reset value -/
  armed : Word := 0
  /-- R111 (05). armed and not yet transferred [1]; DESIGN CHOICE (log 3): the spec states no reset value -/
  due : Bool := false
  /-- R143 (07). tick at which it was armed; DESIGN CHOICE (log 3): the spec states no reset value -/
  since : Nat := 0
deriving DecidableEq, Repr

/-- A window access that waits for a flash device (R401, R402, 18). -/
structure WindowWait where
  /-- R401 (18). its address [32]; DESIGN CHOICE (log 3): the spec states no reset value -/
  addr : Nat := 0
  /-- R402 (18). the value of a write; none for a read [32]; DESIGN CHOICE (log 3): the spec states no reset value -/
  value : Option Word := none
  /-- R106 (05). made through the indirect pair [1]; DESIGN CHOICE (log 3): the spec states no reset value -/
  ind : Bool := false
  /-- R401 (18). tick at which it was made; DESIGN CHOICE (log 3): the spec states no reset value -/
  since : Nat := 0
  /-- R107 (05). words of the snapshot it takes; 0 for a plain access [5]; DESIGN CHOICE (log 3): the spec states no reset value -/
  snap : Nat := 0
deriving DecidableEq, Repr

/-- What one of the six register contexts holds of its own (R102, R108, R120, 05). -/
structure Ctx where
  /-- Table 5.6 IND_ADDR (05). word address of the next indirect access; bits 1:0 read 0 [32] -/
  indAddr : Word := 0
  /-- IND_CTRL.STEP (05). advance after each access [2] -/
  step : BitVec 2 := 1
  /-- IND_CTRL.SNAP (05). reads use snapshots [1] -/
  snap : Bool := false
  /-- IND_CTRL.SNAP_LEN (05). window length minus one [4] -/
  snapLen : BitVec 4 := 0
  /-- IND_CTRL.BUSY (05). an indirect access is in progress [1] -/
  busy : Bool := false
  /-- R106 (05). tick at which that access began; DESIGN CHOICE (log 3): the spec states no reset value -/
  busyAt : Nat := 0
  /-- R106 (05). address that access goes to [32]; DESIGN CHOICE (log 3): the spec states no reset value -/
  busyAddr : Nat := 0
  /-- R106 (05). the indirect access in progress is a write [1]; DESIGN CHOICE (log 3): the spec states no reset value -/
  indWrite : Bool := false
  /-- R104 (05). accesses of IND_DATA that wait for it, in order: an address written to IND_ADDR first, if any, and a write's value, none for a read; DESIGN CHOICE (log 3): the spec states no reset value -/
  indQueue : List (Option Word × Option Word) := []
  /-- IND_CTRL.TIMEOUT (05). set by an abandoned access [1] -/
  indTimeout : Bool := false
  /-- IND_CTRL.ERR (05). set by a refused access or snapshot [1] -/
  err : Bool := false
  /-- R107 (05). captured snapshot window: start address and words [32 + 16x32]; DESIGN CHOICE (log 3): the spec states no reset value -/
  snapshot : Option (Nat × List Word) := none
  /-- R108 (05). high word captured by a low-word read, with the register's address [32+32]; DESIGN CHOICE (log 3): the spec states no reset value -/
  readLatch : Option (Nat × Word) := none
  /-- R108 (05). low word waiting for its high-word write [32+32]; DESIGN CHOICE (log 3): the spec states no reset value -/
  writeLatch : Option (Nat × Word) := none
  /-- SYS_ACC_ERR_ADDR (05). address of the most recent access error [32] -/
  errAddr : Word := 0
  /-- SYS_ACC_ERR_INFO.CAUSE (05). its cause [3] -/
  errCause : BitVec 3 := 0
  /-- SYS_ACC_ERR_INFO.WRITE (05). the failing access was a write [1] -/
  errWrite : Bool := false
  /-- SYS_ACC_ERR_INFO.COUNT (05). errors since last read, saturating, rc [16] -/
  errCount : BitVec 16 := 0
  /-- R401, R402 (18). window accesses that wait for a flash device, oldest first; DESIGN CHOICE (log 3): the spec states no reset value -/
  windowWait : List WindowWait := []
  /-- R104, R108 (05). the word the context's last read returned [32]; the model's own field -/
  readData : Word := 0
deriving DecidableEq, Repr

/-- A field of access sv: three copies (R114 to R117, 05). -/
structure Voted where
  /-- R115 (05). the field's register address [32]; the model's own field -/
  addr : Nat := 0
  /-- R116 (05). width in bits; the model's own field -/
  width : Nat := 1
  /-- R116 (05). the value it takes when all copies differ [32]; the model's own field -/
  resetVal : Word := 0
  /-- R114 (05). first copy [32]; DESIGN CHOICE (log 3): the spec states no reset value -/
  c0 : Word := 0
  /-- R114 (05). second copy [32]; DESIGN CHOICE (log 3): the spec states no reset value -/
  c1 : Word := 0
  /-- R114 (05). third copy [32]; DESIGN CHOICE (log 3): the spec states no reset value -/
  c2 : Word := 0
deriving DecidableEq, Repr

/-- Device state, tick counter, update groups, contexts and voted fields. -/
structure Sys where
  /-- R13 (00), SYS_STATE.STATE (03). device state; just after Reset is released: Startup [3] -/
  dev : DevState := .startup
  /-- SYS_STATE.PHASE, R492 (03). start-up phase [4] -/
  phase : BitVec 4 := 0
  /-- R64 (03). a device-state transition in progress and where it goes; DESIGN CHOICE (log 3): the spec states no reset value -/
  transition : Option DevState := none
  /-- SYS_TICK (05). TB ticks since Reset was released [64] -/
  tick : BitVec 64 := 0
  /-- SYS_TICK (05), Table 1.6, R477 (01, 21). ticks of that time in which the TB domain stood still: in Rest and without the MEMS reference; DESIGN CHOICE (log 3): the spec states no reset value -/
  stopped : Nat := 0
  /-- UPD_DIRTY (05). a shadow of the group has been written since it was armed [16] -/
  updDirty : BitVec 16 := 0
  /-- R111 (05). strobes written and waiting for the capturing 16 ns grid instant [16]; DESIGN CHOICE (log 3): the spec states no reset value -/
  updCaptured : BitVec 16 := 0
  /-- UPD_PENDING (05). armed and not yet at its take-over point [16] -/
  updPending : BitVec 16 := 0
  /-- UPD_SUPERSEDED (05). an armed set was replaced [16] -/
  updSuperseded : BitVec 16 := 0
  /-- R102 (05). Keeper, application cores 0 to 3, host -/
  ctx : Vector Ctx 6 := Vector.replicate 6 {}
  /-- R114 (05). the fields of access sv; no register table of the spec marks one; the model's own field -/
  voted : List Voted := []
  /-- SYS_VOTE_LAST (05). address of the most recent voted field corrected [32] -/
  voteLast : Word := 0
  /-- R45, Table 2.5 (02). RSTOUTN is low (during Reset only) [1] -/
  rstoutLow : Bool := false
  /-- R477, Table 2.5 (21, 02). the power-management die's clamp drives every leg output low [1]; DESIGN CHOICE (log 3): the spec states no reset value -/
  legClamp : Bool := false
  /-- R97 (04). an opcode that enters Reset was answered: the tick at which Reset is entered; DESIGN CHOICE (log 3): the spec states no reset value -/
  resetDue : Option Nat := none
  /-- R97, Table 3.6 (04, 03). what that opcode was (0x30 class number of Table 3.6); the model's own field -/
  resetCause : Option Nat := none
  /-- R97, R75 (04). replies that enter the outbox up to the one whose hand-over starts the 1 ms; DESIGN CHOICE (log 3): the spec states no reset value -/
  resetBehind : Option Nat := none
  /-- Table 21.3 (21). the Keeper core has halted (its watchdog will enter Reset) [1]; DESIGN CHOICE (log 3): the spec states no reset value -/
  keeperHalted : Bool := false
  /-- Table 3.3 (03). the configuration store has autostart set and Commissioning was reached [1]; DESIGN CHOICE (log 3): the spec states no reset value -/
  autostartDue : Bool := false
  /-- The model's own. counter that names the next free value (the MODEL's own field, not the spec's); the model's own field -/
  free : Nat := 0
deriving DecidableEq, Repr

/-- Operating point, bands, tolerances, power state, supplies and temperatures. -/
structure Power where
  /-- OP_STATUS.OP_NOW (05). operating point whose voltage has been reached [3] -/
  opNow : Nat := 0
  /-- OP_STATUS.OP_TARGET (05). operating point selected under R29 [3] -/
  opTarget : Nat := 0
  /-- OP_STATUS.RAMP (05). the core voltage is ramping [1] -/
  ramp : Bool := false
  /-- R30 (01). core voltage when the ramp last changed course: 0.55 V plus this many steps of 50 µV, 1,000 for each operating point; the model's own field -/
  volt : Nat := 7000
  /-- R30 (01). tick of that change; the model's own field -/
  rampAt : Nat := 0
  /-- OP_STATUS.BAND (05). band used by the proofs [2] -/
  band : Nat := 3
  /-- R32 (01). a risen band that comes into force when the ramp ends [2]; DESIGN CHOICE (log 3): the spec states no reset value -/
  bandNext : Option Nat := none
  /-- OP_STATUS.POWER (05). power state [3] -/
  power : PowerState := .run
  /-- OP_STATUS.LIMIT (05). limiting constraint [3] -/
  limit : Nat := 0
  /-- OP_STATUS.BANDED, R31 (05, 01). banded proof is on [1] -/
  banded : Bool := false
  /-- OP_STATUS.OP_LIMIT, R29 (05, 01). operating-point limit [3] -/
  opLimit : Nat := 7
  /-- OP_STATUS.WAKE (05). power state from which the device last woke [3] -/
  wakeFrom : Nat := 0
  /-- R29 (01). motion tolerance, ns [32] -/
  tolMotion : Nat := 4000
  /-- R29 (01). network tolerance, ns [32] -/
  tolNetwork : Nat := 2000
  /-- R29 (01). host-command tolerance, ns [32] -/
  tolHost : Nat := 40000
  /-- R33, Table 4.10 (01, 04). Rest permitted [1]; DESIGN CHOICE (log 3): the spec states no reset value -/
  restPermitted : Bool := false
  /-- SET_WAKE_TIMER, R34 (04, 01). AON microsecond at which the wake timer expires [32]; DESIGN CHOICE (log 3): the spec states no reset value -/
  wakeTimer : Option Nat := none
  /-- R34, R411 (01, 18). a wake is in progress [1]; DESIGN CHOICE (log 3): the spec states no reset value -/
  waking : Bool := false
  /-- R31, R50 (01, 02). hottest compute-die reading at the last sample, degrees Celsius; DESIGN CHOICE (log 3): the spec states no reset value -/
  hottest : Int := 0
  /-- R31 (01). tick since which the reading allows a lower band; DESIGN CHOICE (log 3): the spec states no reset value -/
  bandFallSince : Option Nat := none
  /-- R50 (02). the OVERTEMP cause is present [1]; DESIGN CHOICE (log 3): the spec states no reset value -/
  overtemp : Bool := false
  /-- R45 (02). VLOG has been low for 50 us [1]; DESIGN CHOICE (log 3): the spec states no reset value -/
  sagged : Bool := false
  /-- R44 (02). VLOG and rails good (Reset is released only then) [1]; DESIGN CHOICE (log 3): the spec states no reset value -/
  vlogGood : Bool := true
  /-- R44, R45 (02). RESETN is held low [1]; DESIGN CHOICE (log 3): the spec states no reset value -/
  resetnLow : Bool := false
  /-- R45 (02). VSAF is present and Lodge is powered [1]; DESIGN CHOICE (log 3): the spec states no reset value -/
  vsaf : Bool := false
  /-- R18, R477 (01, 21). the MEMS reference is absent [1]; DESIGN CHOICE (log 3): the spec states no reset value -/
  refLost : Bool := false
  /-- Table 2.5, R478 (02, 21). the reference PLL is locked [1]; DESIGN CHOICE (log 3): the spec states no reset value -/
  pllLocked : Bool := true
  /-- FAULT_STATUS.REF_RC, R18 (21, 01). AON runs on its RC [1] -/
  aonRc : Bool := false
  /-- R35, R478 (01, 21). AON coarse count, microseconds, continued from the TBASE0 value at entry; DESIGN CHOICE (log 3): the spec states no reset value -/
  coarse : Nat := 0
  /-- Table 1.1 AON, R19 (01). AON microsecond count; DESIGN CHOICE (log 3): the spec states no reset value -/
  aonUs : Nat := 0
  /-- Table 1.1 AON (01). ticks of the present AON microsecond [9]; DESIGN CHOICE (log 3): the spec states no reset value -/
  aonSub : Nat := 0
  /-- R478 (21). DI_EDGE entries logged since REFERENCE_LOSS [6]; DESIGN CHOICE (log 3): the spec states no reset value -/
  diEdges : Nat := 0
deriving DecidableEq, Repr

end Sys2Proof.Machine
end

