-- ==== Sys2Proof/Machine/State/Boot.lean ====
section
/-! DEFINITION.
State of the block: images, fuses, identity, the image session and the configuration store's flags.
Each field names the rule of spec/ that gives it.
A default is the value at reset; where the spec states none, log entry 3 names the value. -/

namespace Sys2Proof.Machine

/-- The one open image session (R62, R97). -/
structure ImageSession where
  /-- IMAGE_BEGIN SESSION (04). session number [16]; DESIGN CHOICE (log 3): the spec states no reset value -/
  id : Nat := 0
  /-- R62 (03). 1 Keeper, 2 Gardener, 3 Lodge, 4 plug-in [8]; DESIGN CHOICE (log 3): the spec states no reset value -/
  kind : Nat := 0
  /-- Table 3.1 (03). flash offset of the target [32]; DESIGN CHOICE (log 3): the spec states no reset value -/
  base : Nat := 0
  /-- IMAGE_BEGIN SLOT (04). 0 A, 1 B, 2 Lodge staging, 3 plug-in store [8]; DESIGN CHOICE (log 3): the spec states no reset value -/
  slot : Nat := 0
  /-- IMAGE_BEGIN ENTRY (04). plug-in store entry [8]; DESIGN CHOICE (log 3): the spec states no reset value -/
  entry : Nat := 0
  /-- IMAGE_BEGIN TOTAL_LEN (04). header plus payload [32]; DESIGN CHOICE (log 3): the spec states no reset value -/
  total : Nat := 0
  /-- R97 (04). ranges (offset, length) already written; DESIGN CHOICE (log 3): the spec states no reset value -/
  written : List (Nat × Nat) := []
  /-- R62 (03). tick of IMAGE_BEGIN or of the last IMAGE_DATA; DESIGN CHOICE (log 3): the spec states no reset value -/
  last : Nat := 0
deriving DecidableEq, Repr

/-- An entry of Gardener's permission table (R60, 03). -/
structure Permission where
  /-- R60 (03). first address of the range [32]; DESIGN CHOICE (log 3): the spec states no reset value -/
  lo : Nat := 0
  /-- R60 (03). last address of the range [32]; DESIGN CHOICE (log 3): the spec states no reset value -/
  hi : Nat := 0
  /-- R60 (03). grants reads [1]; DESIGN CHOICE (log 3): the spec states no reset value -/
  read : Bool := false
  /-- R60 (03). grants writes [1]; DESIGN CHOICE (log 3): the spec states no reset value -/
  write : Bool := false
  /-- R60 (03). device states in which the rights hold; DESIGN CHOICE (log 3): the spec states no reset value -/
  states : List DevState := []
  /-- R60 (03). update strobes that may be written [16]; DESIGN CHOICE (log 3): the spec states no reset value -/
  strobes : BitVec 16 := 0
deriving DecidableEq, Repr

/-- One die entry of the identity record (R66). -/
structure DieEntry where
  /-- Table 3.8 (03). stepping letter [8]; DESIGN CHOICE (log 3): the spec states no reset value -/
  stepping : Byte := 0x41
  /-- Table 3.8 (03). lot identifier, 8 ASCII characters [64]; DESIGN CHOICE (log 3): the spec states no reset value -/
  lot : List Byte := []
  /-- Table 3.8 (03). wafer number [8]; DESIGN CHOICE (log 3): the spec states no reset value -/
  wafer : Nat := 0
  /-- Table 3.8 (03). die x position [16]; DESIGN CHOICE (log 3): the spec states no reset value -/
  x : Nat := 0
  /-- Table 3.8 (03). die y position [16]; DESIGN CHOICE (log 3): the spec states no reset value -/
  y : Nat := 0
deriving DecidableEq, Repr

/-- What the ROM and Keeper keep: slots, trials, causes, fuses, identity. -/
structure Boot where
  /-- SYS_STATE.KEEPER_SLOT (03). slot booted: 0 A, 1 B [1] -/
  keeperSlot : Nat := 0
  /-- SYS_STATE.GARDENER_SLOT (03). slot booted [1] -/
  gardenerSlot : Nat := 0
  /-- SYS_STATE.KEEPER_TRIAL (03). Keeper runs as a trial [1] -/
  keeperTrial : Bool := false
  /-- SYS_STATE.GARDENER_TRIAL (03). Gardener runs as a trial [1] -/
  gardenerTrial : Bool := false
  /-- SYS_STATE.HALT_CAUSE (03). why Startup halted [3] -/
  haltCause : Nat := 0
  /-- SYS_STATE.REJECT_CAUSE (03). cause for the last slot rejected [3] -/
  rejectCause : Nat := 0
  /-- SYS_STATE.SEC_LEVEL, R54 (03). security level S, blown bits of the 64-bit counter [7] -/
  secLevel : Nat := 0
  /-- R54 (03). fused SHA-256 hashes of the Zellajo public keys [4x256]; DESIGN CHOICE (log 3): the spec states no reset value -/
  keyHash : Vector (Option (List Byte)) 4 := Vector.replicate 4 none
  /-- R54 (03). the public keys whose hashes are fused, where the ROM finds them; the spec does not say where they lie [4x512]; the model's own field -/
  keyPub : Vector (Option (List Byte)) 4 := Vector.replicate 4 none
  /-- R54 (03). revocation fuses [4x1]; DESIGN CHOICE (log 3): the spec states no reset value -/
  keyRevoked : Vector Bool 4 := Vector.replicate 4 false
  /-- R54, LANE_KEY_ENROL (03, 20). fused hash of the integrator public key [256]; DESIGN CHOICE (log 3): the spec states no reset value -/
  integratorHash : Option (List Byte) := none
  /-- R54, LANE_KEY_ENROL (03, 20). the integrator public key itself, as LANE_KEY_ENROL carried it [512]; the model's own field -/
  integratorPub : Option (List Byte) := none
  /-- R1, Table 3.8 (00, 03). 'I' or 'X' [8]; DESIGN CHOICE (log 3): the spec states no reset value -/
  grade : Byte := 0x49
  /-- R3, Table 3.8 (00, 03). module stepping letter [8]; DESIGN CHOICE (log 3): the spec states no reset value -/
  stepping : Byte := 0x41
  /-- Table 3.8 (03). module serial number, 12 ASCII characters [96]; DESIGN CHOICE (log 3): the spec states no reset value -/
  serial : List Byte := []
  /-- Table 3.8 (03). year and week, BCD [16]; DESIGN CHOICE (log 3): the spec states no reset value -/
  dateCode : Nat := 0
  /-- Table 3.8, Table 3.9 (03). the ten die entries; DESIGN CHOICE (log 3): the spec states no reset value -/
  dies : Vector DieEntry 10 := Vector.replicate 10 {}
  /-- Table 3.8 (03). device public key, X then Y [512]; DESIGN CHOICE (log 3): the spec states no reset value -/
  devicePub : List Byte := []
  /-- Table 3.8 (03). Zellajo endorsement r, s [512]; DESIGN CHOICE (log 3): the spec states no reset value -/
  endorsement : List Byte := []
  /-- R62 (03). the open image session; DESIGN CHOICE (log 3): the spec states no reset value -/
  session : Option ImageSession := none
  /-- IMAGE_BEGIN SESSION (04). the next session number [16]; the model's own field -/
  nextSession : Nat := 1
  /-- Table 3.3 (03). Lodge has reported its image version, parameter CRC and state [1]; DESIGN CHOICE (log 3): the spec states no reset value -/
  lodgeReports : Bool := false
  /-- IMAGE_ACTIVATE (03, 04). a Lodge image has been handed to Lodge and its answer is awaited [1]; DESIGN CHOICE (log 3): the spec states no reset value -/
  activating : Bool := false
  /-- Table 3.3, R61 (03). Gardener runs (the application cores are out of reset) [1]; DESIGN CHOICE (log 3): the spec states no reset value -/
  gardenerRuns : Bool := false
  /-- R61 (03). Keeper is restarting Gardener [1]; DESIGN CHOICE (log 3): the spec states no reset value -/
  gardenerRestart : Bool := false
  /-- R472 (21). that restart loads its image anew from the booted slot [1]; DESIGN CHOICE (log 3): the spec states no reset value -/
  gardenerReload : Bool := false
  /-- R61 (03). Recovery follows Gardener's restart [1]; DESIGN CHOICE (log 3): the spec states no reset value -/
  recoverDue : Bool := false
  /-- R56, R492 (03). slot chosen and being copied in Startup, and whether it boots as a trial; DESIGN CHOICE (log 3): the spec states no reset value -/
  chosen : Option (Nat × Bool) := none
  /-- R60 (03). Gardener's permission table, built by Keeper at its start; DESIGN CHOICE (log 3): the spec states no reset value -/
  perms : List Permission := []
deriving DecidableEq, Repr

end Sys2Proof.Machine
end

