-- ==== Sys2Proof/Machine/State/Bricks.lean ====
section
/-! DEFINITION.
State of the block: Remote bricks and Drayman frames.
Each field names the rule of spec/ that gives it.
A default is the value at reset; where the spec states none, log entry 3 names the value. -/

namespace Sys2Proof.Machine

/-- A brick channel as registered (Table 13.8) and driven (Table 13.3, 13). -/
structure Channel where
  /-- BRICK_REGISTER CHANNEL (13). it has a CHANNEL record [1]; DESIGN CHOICE (log 3): the spec states no reset value -/
  declared : Bool := false
  /-- BRICK_REGISTER CHANNEL (13). phase currents [8]; DESIGN CHOICE (log 3): the spec states no reset value -/
  currents : Nat := 1
  /-- BRICK_REGISTER CHANNEL (13). feedback mask [8]; DESIGN CHOICE (log 3): the spec states no reset value -/
  feedback : BitVec 8 := 0
  /-- BRICK_REGISTER CHANNEL (13). can short its windings [1]; DESIGN CHOICE (log 3): the spec states no reset value -/
  canShort : Bool := false
  /-- BRICK_REGISTER CHANNEL (13). reports the DC link [1]; DESIGN CHOICE (log 3): the spec states no reset value -/
  dcLink : Bool := false
  /-- Table 13.3 (13). enable bit sent [1]; DESIGN CHOICE (log 3): the spec states no reset value -/
  enable : Bool := false
  /-- Table 13.3 (13). repeated bit of the next record [1]; DESIGN CHOICE (log 3): the spec states no reset value -/
  repeated : Bool := false
  /-- Table 13.3 (13). short bit sent [1]; DESIGN CHOICE (log 3): the spec states no reset value -/
  short : Bool := false
  /-- Table 13.3 (13). leg-off mask [4]; DESIGN CHOICE (log 3): the spec states no reset value -/
  legOff : BitVec 4 := 0
  /-- Table 13.3 (13). duty codes of the next record [4x16]; DESIGN CHOICE (log 3): the spec states no reset value -/
  codes : List Nat := [0,0,0,0]
  /-- Table 13.5 (13). phase currents last reported, Q1.31 [3x32]; DESIGN CHOICE (log 3): the spec states no reset value -/
  inCur : List Int := [0,0,0]
  /-- Table 13.5 (13). position last reported, Q47.16 [64]; DESIGN CHOICE (log 3): the spec states no reset value -/
  inPos : Int := 0
  /-- Table 13.5 (13). that position was valid [1]; DESIGN CHOICE (log 3): the spec states no reset value -/
  inPosOk : Bool := false
  /-- R248 (10). positions reported, with t_s, newest first (1 ms); DESIGN CHOICE (log 3): the spec states no reset value -/
  posHist : List (Nat × Int) := []
  /-- Table 13.4 (13). the brick reports the channel enabled [1]; DESIGN CHOICE (log 3): the spec states no reset value -/
  enabledSeen : Bool := false
deriving DecidableEq, Repr

/-- One brick. -/
structure Brick where
  /-- R293 (13). registered [1]; DESIGN CHOICE (log 3): the spec states no reset value -/
  registered : Bool := false
  /-- BRICK_REGISTER LINK (13). port of its line [2]; DESIGN CHOICE (log 3): the spec states no reset value -/
  port : Nat := 0
  /-- BRICK_REGISTER LINK (13). hop [4]; DESIGN CHOICE (log 3): the spec states no reset value -/
  hop : Nat := 1
  /-- BRICK_REGISTER LINK (13). frame group [4]; DESIGN CHOICE (log 3): the spec states no reset value -/
  group : Nat := 0
  /-- BRICK_REGISTER LINK (13). channel count [3]; DESIGN CHOICE (log 3): the spec states no reset value -/
  channels : Nat := 0
  /-- BRICK_REGISTER LINK (13). MAC address [48]; DESIGN CHOICE (log 3): the spec states no reset value -/
  mac : BitVec 48 := 0
  /-- BRICK_REGISTER TIMING (13). TX_OFFSET, ns [32]; DESIGN CHOICE (log 3): the spec states no reset value -/
  txOffset : Nat := 0
  /-- BRICK_REGISTER TIMING (13). SETUP, ns [16]; DESIGN CHOICE (log 3): the spec states no reset value -/
  setup : Nat := 0
  /-- BRICK_REGISTER TIMING (13). RESIDENCE, ns [16]; DESIGN CHOICE (log 3): the spec states no reset value -/
  residence : Nat := 0
  /-- BRICK_REGISTER CHANNEL (13). channels; DESIGN CHOICE (log 3): the spec states no reset value -/
  chan : Vector Channel 4 := Vector.replicate 4 {}
  /-- R301 (13). t_s of the cycle whose record was last used [64]; DESIGN CHOICE (log 3): the spec states no reset value -/
  usedTs : Option Nat := none
  /-- R301 (13). t_s of the cycle whose deadline last passed without a record [64]; DESIGN CHOICE (log 3): the spec states no reset value -/
  missTs : Option Nat := none
  /-- R301 (13). consecutive cycles without a record; DESIGN CHOICE (log 3): the spec states no reset value -/
  missRun : Nat := 0
  /-- R301 (13). consecutive cycles in which it reported itself unsynchronised; DESIGN CHOICE (log 3): the spec states no reset value -/
  unsyncRun : Nat := 0
  /-- BRICK_STATUS LAST (13). the latest inbound header [24x8]; DESIGN CHOICE (log 3): the spec states no reset value -/
  header : List Byte := []
  /-- Table 13.4 (13). DC-link voltage, Q1.31 [32]; DESIGN CHOICE (log 3): the spec states no reset value -/
  dcVolt : Int := 0
  /-- R301, R464 (13, 21). frames received [64] -/
  received : Tally := 0
  /-- R301, R464 (13, 21). used [64] -/
  used : Tally := 0
  /-- R301, R464 (13, 21). late [64] -/
  late : Tally := 0
  /-- R301, R464 (13, 21). out of window [64] -/
  outOfWindow : Tally := 0
  /-- R301, R464 (13, 21). duplicate [64] -/
  duplicate : Tally := 0
  /-- R301, R464 (13, 21). unknown source [64] -/
  unknown : Tally := 0
  /-- BRICK_STATUS COUNTS (13). missed [64] -/
  missed : Tally := 0
  /-- BRICK_STATUS COUNTS (13). reported outbound misses [64]; DESIGN CHOICE (log 3): the spec states no reset value -/
  reported : Nat := 0
deriving DecidableEq, Repr

/-- One frame group (R294, R296, R299, 13). -/
structure FrameGroup where
  /-- FRAME_GROUP_CONFIG (13). destination MAC [48]; DESIGN CHOICE (log 3): the spec states no reset value -/
  mac : BitVec 48 := 0
  /-- FRAME_GROUP_CONFIG (13). VLAN ID [12]; DESIGN CHOICE (log 3): the spec states no reset value -/
  vlan : Nat := 0
  /-- R299 (13). EtherType, 0x88B6 after reset [16] -/
  etherType : Nat := 0x88B6
  /-- FRAME_GROUP_CONFIG (13). PHASE, ns [32]; DESIGN CHOICE (log 3): the spec states no reset value -/
  phase : Nat := 0
  /-- R295 (13). configured [1]; DESIGN CHOICE (log 3): the spec states no reset value -/
  configured : Bool := false
  /-- Table 13.2 (13). t_s of the present cycle, TBASE0 ns [64]; DESIGN CHOICE (log 3): the spec states no reset value -/
  ts : Nat := 0
  /-- R297 (13). t_s of the cycle whose frame was launched last [64]; the model's own field -/
  launched : Option Nat := none
  /-- Table 13.2 (13). cycle counter [16]; DESIGN CHOICE (log 3): the spec states no reset value -/
  counter : BitVec 16 := 0
deriving DecidableEq, Repr

/-- Remote axes. -/
structure BricksBlk where
  /-- R293 (13). bricks; DESIGN CHOICE (log 3): the spec states no reset value -/
  brick : Vector Brick 64 := Vector.replicate 64 {}
  /-- R294 (13). FG0 to FG15 -/
  fg : Vector FrameGroup 16 := Vector.replicate 16 {}
  /-- R303 (13). ns at which the last frame with the STO flag and record count 0 was launched while STO is held; the model's own field -/
  stoSent : Option Nat := none
deriving DecidableEq, Repr

end Sys2Proof.Machine
end

