-- ==== Sys2Proof/Machine/State/Bta.lean ====
section
/-! DEFINITION.
State of the block: Bridge Timer Array.
Each field names the rule of spec/ that gives it.
A default is the value at reset; where the spec states none, log entry 3 names the value. -/

namespace Sys2Proof.Machine

/-- A trip accepted and not yet at the legs (R268, R270, 11). -/
structure TripDue where
  /-- R268 (11). tick at which it takes effect; the model's own field -/
  atTime : Nat := 0
  /-- R268 (11). external inputs [16]; the model's own field -/
  pins : BitVec 16 := 0
  /-- R270 (11). overcurrent inputs of the group, by place; the model's own field -/
  oc : List Nat := []
deriving DecidableEq, Repr

/-- One leg group (R252 to R272, 11). -/
structure BtaGroup where
  /-- GRP_CTRL.RUN (11). the counter runs [1] -/
  run : Bool := false
  /-- GRP_CTRL.GANG (11). gang mode [1] -/
  gang : Bool := false
  /-- GRP_CTRL.STROBE (11). gang strobe, US8 + STROBE [3] -/
  strobe : Nat := 0
  /-- GRP_CTRL.SYNC (11). boundaries follow TBASE0 [1] -/
  sync : Bool := false
  /-- GRP_CTRL.OCCUPIED (11). a bound slot occupies the group [1] -/
  occupied : Bool := false
  /-- GRP_CTRL.UNSEAL_LIMIT (11). UNSEAL_LIMIT [8] -/
  unsealLimit : Nat := 0
  /-- R264 (11). boundaries passed while dirty and unsealed [8]; DESIGN CHOICE (log 3): the spec states no reset value -/
  unsealCount : Nat := 0
  /-- R264 (11). SEAL_OVERDUE was raised for this count [1]; DESIGN CHOICE (log 3): the spec states no reset value -/
  overdueRaised : Bool := false
  /-- GRP_CTRL.BLK, BLK_ON (11). blanking timer named [4] -/
  blk : Option Nat := none
  /-- BTA_TRIP_CONFIG BLANK (11). blanked sources: external, overcurrent [2]; DESIGN CHOICE (log 3): the spec states no reset value -/
  blkMask : BitVec 2 := 0
  /-- R252 (11). PHASE [20]; DESIGN CHOICE (log 3): the spec states no reset value -/
  phase : Nat := 0
  /-- R252 (11). PHASE of the present run: a new one waits for the next start [20]; DESIGN CHOICE (log 3): the spec states no reset value -/
  phaseRun : Nat := 0
  /-- R254 (11). SMP [32]; DESIGN CHOICE (log 3): the spec states no reset value -/
  smp : Nat := 0xFFFFFFFF
  /-- GRP_PERIOD (11). PERIOD [20] -/
  period : Buf := { active := 0x1388, shadow := 0x1388, armed := 0x1388 }
  /-- R259 (11). the shadow PERIOD was written since the last transfer [1]; DESIGN CHOICE (log 3): the spec states no reset value -/
  periodWritten : Bool := false
  /-- GRP_COUNT (11). counter c [20]; DESIGN CHOICE (log 3): the spec states no reset value -/
  count : Nat := 0
  /-- R253 (11). one-tick change of the present period (SYNC correction) [2]; DESIGN CHOICE (log 3): the spec states no reset value -/
  lengthen : Int := 0
  /-- R252 (11). tick of the first boundary of a group that has been started; DESIGN CHOICE (log 3): the spec states no reset value -/
  startDue : Option Nat := none
  /-- R252 (11). tick of the last boundary; DESIGN CHOICE (log 3): the spec states no reset value -/
  boundaryAt : Option Nat := none
  /-- GRP_STATUS.DIRTY (11). a shadow was written since the last seal or strobe [1] -/
  dirty : Bool := false
  /-- GRP_STATUS.SEALED (11). an armed set waits for the boundary [1] -/
  sealed : Bool := false
  /-- GRP_STATUS.SUPERSEDED (11). an armed set was replaced [1] -/
  fSuper : Bool := false
  /-- GRP_STATUS.OVERDUE (11). SEAL_OVERDUE was raised [1] -/
  fOverdue : Bool := false
  /-- GRP_STATUS.CLAMPED (11). SET_CLAMPED was raised [1] -/
  fClamped : Bool := false
  /-- GRP_STATUS.OWNED (11). OWNED_WRITE was raised [1] -/
  fOwned : Bool := false
  /-- GRP_STATUS.OVERRIDE (11). 0 none, 1 off, 2 low [2] -/
  override : Nat := 0
  /-- R267 (11). release of the override was requested, for the next boundary [1]; DESIGN CHOICE (log 3): the spec states no reset value -/
  release : Bool := false
  /-- GRP_STATUS.DITHER_K (11). period index k [4] -/
  ditherK : BitVec 4 := 0
  /-- GRP_TRIP.HELD (11). a latched trip or STO holds the group [1] -/
  held : Bool := false
  /-- GRP_TRIP.BY_STO (11). STO is latched [1] -/
  bySto : Bool := false
  /-- GRP_TRIP.BY_PIN (11). an external input latched it [1] -/
  byPin : Bool := false
  /-- GRP_TRIP.BY_OC (11). an overcurrent comparator latched it [1] -/
  byOc : Bool := false
  /-- GRP_TRIP.CYCLE (11). a cycle trip is in force this period [1] -/
  cycle : Bool := false
  /-- GRP_TRIP.PIN (11). lowest-numbered TRIP input that latched [4] -/
  pin : Nat := 0
  /-- R271 (11). external inputs that latched the group [16]; DESIGN CHOICE (log 3): the spec states no reset value -/
  latchPins : BitVec 16 := 0
  /-- GRP_TRIP.OC_IN (11). which SDI input latched [2] -/
  ocIn : Nat := 0
  /-- GRP_TRIP.REFUSED (11). a clear was refused [1] -/
  fRefused : Bool := false
  /-- R271 (11). an accepted clear: the legs keep their trip state until the boundary [1]; DESIGN CHOICE (log 3): the spec states no reset value -/
  clearing : Bool := false
  /-- R271, R272 (11). the state kept until the boundary is that of STO [1]; DESIGN CHOICE (log 3): the spec states no reset value -/
  stoClear : Bool := false
  /-- GRP_CYCLE_TRIPS (11). periods with a cycle trip, wrapping [32]; DESIGN CHOICE (log 3): the spec states no reset value -/
  cycleTrips : BitVec 32 := 0
  /-- R268 (11). external mask, 0 after Reset [16] -/
  extMask : BitVec 16 := 0
  /-- R268 (11). cycle mask, 0 after Reset [16] -/
  cycMask : BitVec 16 := 0
  /-- R268 (11). overcurrent kind, none after Reset [2] -/
  ocKind : Nat := 2
  /-- BTA_TRIP_CONFIG OC_INPUTS (11). SDI numbers of a free group [3x8]; DESIGN CHOICE (log 3): the spec states no reset value -/
  ocInputs : List Nat := []
  /-- R268 (11). trips on their way to the legs; DESIGN CHOICE (log 3): the spec states no reset value -/
  tripDue : List TripDue := []
  /-- R251 (11). the group has transferred a set: its legs are in service [1]; DESIGN CHOICE (log 3): the spec states no reset value -/
  inService : Bool := false
deriving DecidableEq, Repr

/-- One bridge leg (R251 to R261, 11). -/
structure Leg where
  /-- LEG_CMPA (11). CMPA [26] -/
  cmpa : Buf := {}
  /-- LEG_CMPB (11). CMPB [26] -/
  cmpb : Buf := {}
  /-- LEG_STATUS.DT_R (11). rising dead time, ticks [10] -/
  dtR : Nat := 0
  /-- LEG_STATUS.DT_F (11). falling dead time, ticks [10] -/
  dtF : Nat := 0
  /-- LEG_STATUS.COMPAT (11). compatibility mode [1] -/
  compat : Bool := false
  /-- LEG_STATUS.TRIP_STATE (11). 0 off, 1 low side on, 2 high side on [2] -/
  tripState : Nat := 0
  /-- LEG_STATUS.H (11). level of LEGn_H before Lodge's gate [1] -/
  h : Bool := false
  /-- LEG_STATUS.L (11). level of LEGn_L before Lodge's gate [1] -/
  l : Bool := false
  /-- R256 (11). command signal s [1]; DESIGN CHOICE (log 3): the spec states no reset value -/
  s : Bool := false
  /-- R256 (11). the rise of this period has been issued [1]; DESIGN CHOICE (log 3): the spec states no reset value -/
  rose : Bool := false
  /-- R256 (11). the fall of this period has been issued [1]; DESIGN CHOICE (log 3): the spec states no reset value -/
  fell : Bool := false
  /-- R257 (11). tick at which the high side last turned off; DESIGN CHOICE (log 3): the spec states no reset value -/
  hOff : Nat := 0
  /-- R257 (11). tick at which the low side last turned off; DESIGN CHOICE (log 3): the spec states no reset value -/
  lOff : Nat := 0
  /-- R257 (11). tick at which a pending high-side turn-on falls; DESIGN CHOICE (log 3): the spec states no reset value -/
  hDue : Option Nat := none
  /-- R257 (11). tick at which a pending low-side turn-on falls; DESIGN CHOICE (log 3): the spec states no reset value -/
  lDue : Option Nat := none
  /-- R121, R199 (06, 09). both switches held off by its slot (third leg of a group, six-step) [1]; DESIGN CHOICE (log 3): the spec states no reset value -/
  legOff : Bool := false
  /-- CAL_STATUS.N_CAL (11). taps at the last good calibration [7] -/
  nCal : Nat := 0
  /-- R261 (11). a new calibration, for the leg's next boundary [7]; DESIGN CHOICE (log 3): the spec states no reset value -/
  nCalNext : Option Nat := none
  /-- R261 (11). calibration in force [7]; DESIGN CHOICE (log 3): the spec states no reset value -/
  nUse : Nat := 0
  /-- R261 (11). delay-line tap of the last edge [7]; the model's own field -/
  tap : Nat := 0
  /-- CAL_STATUS.FALLBACK (11). fractions placed by dithering [1] -/
  fallback : Bool := false
  /-- CAL_STATUS.FAIL (11). CAL_FAIL was raised [1] -/
  fCalFail : Bool := false
  /-- R261 (11). tick of the first bad calibration since the last good one; DESIGN CHOICE (log 3): the spec states no reset value -/
  calBad : Option Nat := none
  /-- R261 (11). tick of the last calibration; DESIGN CHOICE (log 3): the spec states no reset value -/
  calAt : Option Nat := none
deriving DecidableEq, Repr

/-- One trip input (R268, 11). -/
structure TripIn where
  /-- R268 (11). polarity, active low after Reset [1] -/
  activeHigh : Bool := false
  /-- R268 (11). FILTER [6] -/
  filter : Nat := 0
  /-- TRIP_PINS.ACTIVE (11). accepted at its active level [1] -/
  active : Bool := false
deriving DecidableEq, Repr

/-- One blanking timer (R270, 11). -/
structure Blank where
  /-- R270 (11). watched group [5]; DESIGN CHOICE (log 3): the spec states no reset value -/
  group : Option Nat := none
  /-- R270 (11). START [20]; DESIGN CHOICE (log 3): the spec states no reset value -/
  start : Nat := 0
  /-- R270 (11). END [20]; DESIGN CHOICE (log 3): the spec states no reset value -/
  stop : Nat := 0
deriving DecidableEq, Repr

/-- One modulator clock (R273, 11). -/
structure Sdc where
  /-- R273 (11). DIV [8] -/
  div : Nat := 25
  /-- R273 (11). CAPTURE_DELAY [5]; DESIGN CHOICE (log 3): the spec states no reset value -/
  capture : Nat := 0
  /-- R273 (11). ENABLE, auto [2] -/
  enable : Nat := 2
deriving DecidableEq, Repr

/-- One sigma-delta input (R273 to R275, 11). -/
structure Sdi where
  /-- R274 (11). OSR [9]; DESIGN CHOICE (log 3): the spec states no reset value -/
  osr : Nat := 32
  /-- R275 (11). OSR_OC [6]; DESIGN CHOICE (log 3): the spec states no reset value -/
  osrOc : Nat := 8
  /-- R275 (11). OC_COUNT [5]; DESIGN CHOICE (log 3): the spec states no reset value -/
  ocCount : Nat := 1
  /-- R275 (11). OC_LO, Q1.31 [32]; DESIGN CHOICE (log 3): the spec states no reset value -/
  ocLo : Int := -2147483648
  /-- R275 (11). OC_HI, Q1.31 [32]; DESIGN CHOICE (log 3): the spec states no reset value -/
  ocHi : Int := 2147483647
  /-- BTA_SDI_CONFIG ENABLE (11). enabled by command [1]; DESIGN CHOICE (log 3): the spec states no reset value -/
  enabled : Bool := false
  /-- SDI_VALUE (11). latest decimated value d [32] -/
  value : Word := 0
  /-- R275 (11). overcurrent comparator active [1]; DESIGN CHOICE (log 3): the spec states no reset value -/
  ocActive : Bool := false
deriving DecidableEq, Repr

/-- One bridge bank (R46, R47, 02). -/
structure Bank where
  /-- BANK_STATUS, R47 (11, 02). 5.0 V; 3.3 V after Reset [1] -/
  high : Bool := false
  /-- BANK_STATUS (11). a change of level is under way, and to what [1]; DESIGN CHOICE (log 3): the spec states no reset value -/
  changing : Option Bool := none
  /-- R276 (11). tick at which the change began; DESIGN CHOICE (log 3): the spec states no reset value -/
  since : Nat := 0
deriving DecidableEq, Repr

/-- The Bridge Timer Array. -/
structure BtaBlk where
  /-- R252 (11). leg groups -/
  grp : Vector BtaGroup 32 := Vector.replicate 32 {}
  /-- R251 (11). legs -/
  leg : Vector Leg 96 := Vector.replicate 96 {}
  /-- R268 (11). TRIP0 to TRIP15 -/
  trip : Vector TripIn 16 := Vector.replicate 16 {}
  /-- R270 (11). BLK0 to BLK7; DESIGN CHOICE (log 3): the spec states no reset value -/
  blank : Vector Blank 8 := Vector.replicate 8 {}
  /-- R273 (11). SDC0 to SDC11 -/
  sdc : Vector Sdc 12 := Vector.replicate 12 {}
  /-- R273 (11). SDI0 to SDI95 -/
  sdi : Vector Sdi 96 := Vector.replicate 96 {}
  /-- R46 (02). BB0 to BB7 -/
  bank : Vector Bank 8 := Vector.replicate 8 {}
deriving DecidableEq, Repr

end Sys2Proof.Machine
end

