-- ==== Sys2Proof/Machine/State/Can.lean ====
section
/-! DEFINITION.
State of the block: CAN FD controllers.
Each field names the rule of spec/ that gives it.
A default is the value at reset; where the spec states none, log entry 3 names the value. -/

namespace Sys2Proof.Machine

/-- Bit timing of one phase (Table 17.1, 17). -/
structure CanTiming where
  /-- Table 17.1 (17). BRP [6]; DESIGN CHOICE (log 3): the spec states no reset value -/
  brp : Nat := 1
  /-- Table 17.1 (17). TSEG1 [9]; DESIGN CHOICE (log 3): the spec states no reset value -/
  tseg1 : Nat := 2
  /-- Table 17.1 (17). TSEG2 [8]; DESIGN CHOICE (log 3): the spec states no reset value -/
  tseg2 : Nat := 1
  /-- Table 17.1 (17). SJW [8]; DESIGN CHOICE (log 3): the spec states no reset value -/
  sjw : Nat := 1
  /-- Table 17.1 (17). SSP_OFFSET [7]; DESIGN CHOICE (log 3): the spec states no reset value -/
  ssp : Nat := 0
deriving DecidableEq, Repr

/-- A filter entry (Table 17.2, 17). -/
structure CanFilter where
  /-- Table 17.2 (17). kind [8]; DESIGN CHOICE (log 3): the spec states no reset value -/
  kind : Nat := 3
  /-- Table 17.2 (17). flags [8]; DESIGN CHOICE (log 3): the spec states no reset value -/
  flags : BitVec 8 := 0
  /-- Table 17.2 (17). V1 [29]; DESIGN CHOICE (log 3): the spec states no reset value -/
  v1 : Nat := 0
  /-- Table 17.2 (17). V2 [29]; DESIGN CHOICE (log 3): the spec states no reset value -/
  v2 : Nat := 0
deriving DecidableEq, Repr

/-- A frame in the event queue (R389, 17). -/
structure CanTx where
  /-- R389 (17). the frame [576]; DESIGN CHOICE (log 3): the spec states no reset value -/
  frame : CanFrame := {}
  /-- R389 (17). retries made [8]; DESIGN CHOICE (log 3): the spec states no reset value -/
  tries : Nat := 0
deriving DecidableEq, Repr

/-- A received frame (R392, Table 17.4, 17). -/
structure CanRx where
  /-- R392 (17). TBASE0 timestamp of its SOF [64]; DESIGN CHOICE (log 3): the spec states no reset value -/
  stamp : Nat := 0
  /-- R392 (17). the frame [576]; DESIGN CHOICE (log 3): the spec states no reset value -/
  frame : CanFrame := {}
  /-- Table 17.4 (17). filter index [16]; DESIGN CHOICE (log 3): the spec states no reset value -/
  filter : Nat := 0xFFFF
  /-- Table 17.4 (17). ESI [1]; DESIGN CHOICE (log 3): the spec states no reset value -/
  esi : Bool := false
deriving DecidableEq, Repr

/-- A record of CAN_COLLISION (R391, Table 17.4, 17). -/
structure Collision where
  /-- R391 (17). own identifier, DLC and data [576]; DESIGN CHOICE (log 3): the spec states no reset value -/
  frame : CanFrame := {}
  /-- Table 17.4 (17). 0 control, 1 data, 2 CRC [8]; DESIGN CHOICE (log 3): the spec states no reset value -/
  field : Nat := 0
  /-- Table 17.4 (17). bit position within the field [16]; DESIGN CHOICE (log 3): the spec states no reset value -/
  bitPos : Nat := 0
  /-- Table 17.4 (17). bus DLC [8]; DESIGN CHOICE (log 3): the spec states no reset value -/
  busDlc : Nat := 0
  /-- Table 17.4 (17). bus data [512]; DESIGN CHOICE (log 3): the spec states no reset value -/
  busData : List Byte := []
deriving DecidableEq, Repr

/-- A schedule matrix (R385, R386, 17). -/
structure CanTt where
  /-- CAN_TT.SOURCE (17). TT_SOURCE, 3 no matrix [2] -/
  source : Nat := 0
  /-- R386 (17). time base [2]; DESIGN CHOICE (log 3): the spec states no reset value -/
  base : Nat := 0
  /-- R385 (17). CYCLES [7]; DESIGN CHOICE (log 3): the spec states no reset value -/
  cycles : Nat := 1
  /-- R385 (17). windows [6]; DESIGN CHOICE (log 3): the spec states no reset value -/
  windows : Nat := 0
  /-- R385 (17). CYCLE_NS [32]; DESIGN CHOICE (log 3): the spec states no reset value -/
  cycleNs : Nat := 0
  /-- R386 (17). REF_ID [32]; DESIGN CHOICE (log 3): the spec states no reset value -/
  refId : Nat := 0
  /-- R385 (17). window starts, ns [32x32]; DESIGN CHOICE (log 3): the spec states no reset value -/
  starts : List Nat := []
  /-- R385 (17). kind and buffer of each cell, cycle-major [64x32x16]; DESIGN CHOICE (log 3): the spec states no reset value -/
  cells : List (Nat × Nat) := []
deriving DecidableEq, Repr

/-- A controller's configuration (CAN_CONFIG, 17). -/
structure CanCfg where
  /-- CAN_STATUS.MODE (17). mode: 0 off, 1 normal, 2 listen-only, 3 detecting [2] -/
  mode : Nat := 0
  /-- CAN_CONFIG (17). nominal timing; DESIGN CHOICE (log 3): the spec states no reset value -/
  nominal : CanTiming := {}
  /-- CAN_CONFIG (17). data timing; none disables switching; DESIGN CHOICE (log 3): the spec states no reset value -/
  data : Option CanTiming := none
  /-- CAN_CONFIG OPTIONS (17). FD [1]; DESIGN CHOICE (log 3): the spec states no reset value -/
  fd : Bool := false
  /-- CAN_CONFIG OPTIONS (17). AUTO_RECOVER [1]; DESIGN CHOICE (log 3): the spec states no reset value -/
  autoRecover : Bool := false
  /-- CAN_CONFIG OPTIONS (17). BLOCK FIFO 0 [1]; DESIGN CHOICE (log 3): the spec states no reset value -/
  block0 : Bool := false
  /-- CAN_CONFIG OPTIONS (17). BLOCK FIFO 1 [1]; DESIGN CHOICE (log 3): the spec states no reset value -/
  block1 : Bool := false
  /-- CAN_CONFIG OPTIONS (17). RETRY [8]; DESIGN CHOICE (log 3): the spec states no reset value -/
  retry : Nat := 0
  /-- CAN_CONFIG OPTIONS (17). DEFAULT [8]; DESIGN CHOICE (log 3): the spec states no reset value -/
  defaultReject : Bool := false
deriving DecidableEq, Repr

/-- A receive FIFO with its counts (R394, 17). -/
structure CanFifo where
  /-- CAN_FIFO.FILL0, FILL1 (17). frames held, oldest first [64] -/
  frames : List CanRx := []
  /-- CAN_FIFO.OVF0, OVF1 (17). the FIFO dropped or overwrote a frame [1] -/
  overflow : Bool := false
  /-- R394, R464 (17, 21). written [64] -/
  written : Tally := 0
  /-- R394, R464 (17, 21). read [64] -/
  readOut : Tally := 0
  /-- R394, R464 (17, 21). overwritten [64] -/
  overs : Tally := 0
deriving DecidableEq, Repr

/-- One controller. -/
structure CanCtl where
  /-- CAN_CONFIG (17). its configuration in force; DESIGN CHOICE (log 3): the spec states no reset value -/
  cfg : CanCfg := {}
  /-- R396 (17). a configuration that waits for the end of the frame in progress; DESIGN CHOICE (log 3): the spec states no reset value -/
  cfgNext : Option CanCfg := none
  /-- CAN_STATUS.BUS (17). error active, passive, bus-off [2] -/
  bus : Nat := 0
  /-- CAN_STATUS.LOCKED (17). detection has locked [1] -/
  locked : Bool := false
  /-- CAN_STATUS.CANDIDATE (17). candidate in use [3] -/
  candidate : Nat := 0
  /-- CAN_STATUS.BUS_OFF (17). BUS_OFF was raised [1] -/
  fBusOff : Bool := false
  /-- CAN_STATUS.COLLISION (17). IDENTITY_COLLISION was raised [1] -/
  fCollision : Bool := false
  /-- CAN_STATUS.ABANDONED (17). TX_ABANDONED was raised [1] -/
  fAbandoned : Bool := false
  /-- CAN_ERRCNT.TEC (17). transmit error counter [9] -/
  tec : Nat := 0
  /-- CAN_ERRCNT.REC (17). receive error counter [8] -/
  rxErr : Nat := 0
  /-- CAN_ERRCNT.TDC (17). last measured transmitter delay [8] -/
  tdc : Nat := 0
  /-- CAN_TT.CYCLE (17). present basic cycle [6] -/
  ttCycle : Nat := 0
  /-- CAN_TT.WINDOW (17). present window [5] -/
  ttWindow : Nat := 0
  /-- CAN_TT.SYNC (17). cycles are synchronised [1] -/
  ttSync : Bool := false
  /-- CAN_TT.MISSED (17). TT_MISSED was raised [1] -/
  fMissed : Bool := false
  /-- CAN_TT.REF_LOST (17). REF_LOST was raised [1] -/
  fRefLost : Bool := false
  /-- R392 (17). filter entries written, by index [2048x12 bytes]; DESIGN CHOICE (log 3): the spec states no reset value -/
  filters : List (Nat × CanFilter) := []
  /-- CAN_FIFO.FILTERS (17). entries in force [12] -/
  filterCount : Nat := 0
  /-- R392 (17). changes of the list not older than 1 s: device ns, the list and the count before, newest first; DESIGN CHOICE (log 3): the spec states no reset value -/
  filterLog : List (Nat × List (Nat × CanFilter) × Nat) := []
  /-- R385 (17). schedule matrix; DESIGN CHOICE (log 3): the spec states no reset value -/
  tt : CanTt := {}
  /-- R385 (17). time-triggered buffers [128x72 bytes]; DESIGN CHOICE (log 3): the spec states no reset value -/
  ttBuf : List (Nat × CanFrame) := []
  /-- R388 (17). buffer content frozen for the next window; DESIGN CHOICE (log 3): the spec states no reset value -/
  ttFrozen : Option (Nat × CanFrame) := none
  /-- R385 (17). start of the present basic cycle, ns on its base (device ns for a slave) [64]; DESIGN CHOICE (log 3): the spec states no reset value -/
  cycleStart : Nat := 0
  /-- R386 (17). device ns of the last reference message; DESIGN CHOICE (log 3): the spec states no reset value -/
  lastRef : Option Nat := none
  /-- R389 (17). event queue, in arrival order [32x72 bytes]; DESIGN CHOICE (log 3): the spec states no reset value -/
  queue : List CanTx := []
  /-- R387, R389 (17). frame on the bus, and what it is: 0 event frame, 1 + window, 33 reference message; DESIGN CHOICE (log 3): the spec states no reset value -/
  sending : Option (Nat × CanFrame) := none
  /-- R394 (17). the two receive FIFOs -/
  fifo : Vector CanFifo 2 := Vector.replicate 2 {}
  /-- R391 (17). collision records, newest first [8]; DESIGN CHOICE (log 3): the spec states no reset value -/
  coll : List Collision := []
  /-- R391 (17). COLL_OVERWRITTEN [32]; DESIGN CHOICE (log 3): the spec states no reset value -/
  collOver : BitVec 32 := 0
  /-- R394, R464 (17, 21). rx_ok [64] -/
  rxOk : Tally := 0
  /-- R394, R464 (17, 21). rejected [64] -/
  rejected : Tally := 0
  /-- R394, R464 (17, 21). dropped [64] -/
  dropped : Tally := 0
  /-- R390, R464 (17, 21). SUBMITTED [64] -/
  submitted : Tally := 0
  /-- R390, R464 (17, 21). SENT [64] -/
  sent : Tally := 0
  /-- R390, R464 (17, 21). ABANDONED [64] -/
  abandoned : Tally := 0
  /-- R395 (17). detection candidates [8x16 bytes]; DESIGN CHOICE (log 3): the spec states no reset value -/
  cands : List (CanTiming × Option CanTiming) := []
  /-- R395 (17). DWELL, ms [16]; DESIGN CHOICE (log 3): the spec states no reset value -/
  dwell : Nat := 10
  /-- R395 (17). tick at which the present candidate's dwell began; DESIGN CHOICE (log 3): the spec states no reset value -/
  dwellAt : Nat := 0
  /-- R395 (17). ROUNDS [8]; DESIGN CHOICE (log 3): the spec states no reset value -/
  rounds : Nat := 1
  /-- R395 (17). passes completed [8]; DESIGN CHOICE (log 3): the spec states no reset value -/
  roundsDone : Nat := 0
  /-- R395 (17). consecutive error-free frames on the candidate [3]; DESIGN CHOICE (log 3): the spec states no reset value -/
  goodFrames : Nat := 0
  /-- R384 (17). CAN_BUS_RECOVER was given while bus-off [1]; DESIGN CHOICE (log 3): the spec states no reset value -/
  recover : Bool := false
  /-- R384 (17). occurrences of 11 recessive bits seen while bus-off [8]; DESIGN CHOICE (log 3): the spec states no reset value -/
  recessive : Nat := 0
  /-- R384 (17). device ns of the entry into bus-off; DESIGN CHOICE (log 3): the spec states no reset value -/
  busOffAt : Nat := 0
  /-- R396 (17). device ns before which it has not rejoined the bus after CAN_CONFIG; DESIGN CHOICE (log 3): the spec states no reset value -/
  joinAt : Option Nat := none
deriving DecidableEq, Repr

/-- CAN controllers. -/
structure CanBlk where
  /-- R382 (17). CAN0 to CAN3 -/
  ctl : Vector CanCtl 4 := Vector.replicate 4 {}
deriving DecidableEq, Repr

end Sys2Proof.Machine
end

