-- ==== Sys2Proof/Machine/State/Fio.lean ====
section
/-! DEFINITION.
State of the block: Field I/O.
Each field names the rule of spec/ that gives it.
A default is the value at reset; where the spec states none, log entry 3 names the value. -/

namespace Sys2Proof.Machine

/-- One field input (R369 to R371, 16). -/
structure FioIn where
  /-- R381 (16). Type 3; Type 1 by default [8] -/
  type3 : Bool := false
  /-- R370, R381 (16). FILTER, 50 us; 3 ms by default [8] -/
  filter : Nat := 60
  /-- R381 (16). open-wire detection [1] -/
  openWire : Bool := false
  /-- R381 (16). wake on a rising edge [1] -/
  wakeRise : Bool := false
  /-- R381 (16). wake on a falling edge [1] -/
  wakeFall : Bool := false
  /-- FIO_DI.LEVEL (16). accepted level [1] -/
  level : Bool := false
  /-- FIO_DI.OPEN (16). open [1] -/
  opened : Bool := false
  /-- FIO_DI.OPEN_EVT (16). OPEN_WIRE was raised [1] -/
  fOpen : Bool := false
  /-- FIO_READ EDGES (16). TBASE0 ns of the last accepted edge [64]; DESIGN CHOICE (log 3): the spec states no reset value -/
  edgeAt : Nat := 0
  /-- R370 (16). AON microsecond at which its level was last accepted; DESIGN CHOICE (log 3): the spec states no reset value -/
  acceptAt : Option Nat := none
  /-- R371 (16). AON microsecond at which it became open; DESIGN CHOICE (log 3): the spec states no reset value -/
  openedAt : Nat := 0
deriving DecidableEq, Repr

/-- One field output (R372 to R377, 16). -/
structure FioOut where
  /-- R381 (16). fail state hold; off by default [8] -/
  failHold : Bool := false
  /-- R381 (16). overload policy retry; latch by default [8] -/
  retry : Bool := false
  /-- R381 (16). open-load check [1] -/
  openCheck : Bool := false
  /-- FIO_DO.CMD (16). commanded state [1] -/
  cmd : Bool := false
  /-- FIO_DO.LATCHED (16). latched off by a diagnostic [1] -/
  latched : Bool := false
  /-- FIO_DIAG.OVERLOAD (16). live [1] -/
  overload : Bool := false
  /-- FIO_DIAG.OVERTEMP (16). live [1] -/
  overtemp : Bool := false
  /-- FIO_DIAG.OPEN_LOAD (16). live [1] -/
  openLoad : Bool := false
  /-- FIO_DIAG.BACKFEED (16). live [1] -/
  backfeed : Bool := false
  /-- FIO_DIAG.EVENTS (16). OVERLOAD was raised [1] -/
  fOverload : Bool := false
  /-- FIO_DIAG.EVENTS (16). OVERTEMP was raised [1] -/
  fOvertemp : Bool := false
  /-- FIO_DIAG.EVENTS (16). OPEN_LOAD was raised [1] -/
  fOpenLoad : Bool := false
  /-- FIO_DIAG.EVENTS (16). BACKFEED was raised [1] -/
  fBackfeed : Bool := false
  /-- R377 (16). fail state in force, and the level it gives [1]; DESIGN CHOICE (log 3): the spec states no reset value -/
  fail : Option Bool := none
  /-- FIO_DO.STATE (16). switch state at present [1] -/
  state : Bool := false
  /-- Table 16.2 (16). the switch junction has not cooled below 150 degrees since OVERTEMP [1]; DESIGN CHOICE (log 3): the spec states no reset value -/
  hot : Bool := false
  /-- R377 (16). a command was given while the link had failed and reaches it with the next refresh [1]; DESIGN CHOICE (log 3): the spec states no reset value -/
  waits : Bool := false
  /-- Table 16.2 (16). the switch state that began at the next instant [1]; DESIGN CHOICE (log 3): the spec states no reset value -/
  was : Bool := false
  /-- Table 16.2 (16). AON microsecond at which it began; DESIGN CHOICE (log 3): the spec states no reset value -/
  since : Nat := 0
  /-- R374 (16). AON microsecond of its latching off or last retry; DESIGN CHOICE (log 3): the spec states no reset value -/
  tryAt : Nat := 0
  /-- Table 16.2 (16). AON microsecond of its OPEN_LOAD; DESIGN CHOICE (log 3): the spec states no reset value -/
  openLoadAt : Nat := 0
  /-- Table 16.2 (16). AON microsecond of its BACKFEED; DESIGN CHOICE (log 3): the spec states no reset value -/
  backfeedAt : Nat := 0
deriving DecidableEq, Repr

/-- One isolation group (R366, 16). -/
structure FioGroup where
  /-- Table 16.4 (16). the die is powered (VFx at 12.0 V or more) [1]; DESIGN CHOICE (log 3): the spec states no reset value -/
  powered : Bool := false
  /-- FIO_STATUS.VALID (16). powered and configured [1] -/
  valid : Bool := false
  /-- FIO_STATUS.SAG (16). sag in force [1] -/
  sag : Bool := false
  /-- FIO_STATUS.LOST (16). supply lost, awaiting re-enable [1] -/
  lost : Bool := false
  /-- FIO_STATUS.SAG_EVT (16). SUPPLY_SAG was raised [1] -/
  fSag : Bool := false
  /-- FIO_STATUS.LOST_EVT (16). SUPPLY_LOST was raised [1] -/
  fLost : Bool := false
  /-- FIO_STATUS.AUTO, R381 (16). automatic re-enable [1] -/
  auto : Bool := false
  /-- R381 (16). RESTORE_MS [16] -/
  restoreMs : Nat := 100
  /-- FIO_STATUS.VF (16). field supply, 10 mV [16] -/
  vf : Nat := 0
  /-- R379 (16). the supply has stayed at 18.0 V or more since it was lost [1]; DESIGN CHOICE (log 3): the spec states no reset value -/
  restoring : Bool := false
  /-- R379 (16). AON microsecond at which that began; DESIGN CHOICE (log 3): the spec states no reset value -/
  restoreAt : Nat := 0
  /-- R377 (16). no refresh for 10 ms [1]; DESIGN CHOICE (log 3): the spec states no reset value -/
  linkFailed : Bool := false
  /-- R367 (16). AON microsecond of the last refresh; DESIGN CHOICE (log 3): the spec states no reset value -/
  refreshAt : Option Nat := none
  /-- R367 (16). AON microsecond at which its 10 ms began: the last refresh or the power-up; DESIGN CHOICE (log 3): the spec states no reset value -/
  watchAt : Nat := 0
  /-- R366 (16). inputs -/
  input : Vector FioIn 8 := Vector.replicate 8 {}
  /-- R366 (16). outputs -/
  output : Vector FioOut 4 := Vector.replicate 4 {}
deriving DecidableEq, Repr

/-- Field I/O. -/
structure FioBlk where
  /-- R366 (16). groups A to D -/
  grp : Vector FioGroup 4 := Vector.replicate 4 {}
  /-- Table 16.4 (16). running configuration of the inputs, reloaded when a die is powered again; DESIGN CHOICE (log 3): the spec states no reset value -/
  cfgIn : Vector FioIn 32 := Vector.replicate 32 {}
  /-- Table 16.4 (16). running configuration of the outputs; DESIGN CHOICE (log 3): the spec states no reset value -/
  cfgOut : Vector FioOut 16 := Vector.replicate 16 {}
  /-- Table 16.4 (16). running configuration of AUTO [4x1]; DESIGN CHOICE (log 3): the spec states no reset value -/
  cfgAuto : Vector Bool 4 := Vector.replicate 4 false
  /-- Table 16.4 (16). running configuration of RESTORE_MS [4x16]; DESIGN CHOICE (log 3): the spec states no reset value -/
  cfgRestore : Vector Nat 4 := Vector.replicate 4 100
deriving DecidableEq, Repr

end Sys2Proof.Machine
end

