-- ==== Sys2Proof/Machine/State/Gear.lean ====
section
/-! DEFINITION.
State of the block: Gear Unit: links, virtual masters and cam tables.
Each field names the rule of spec/ that gives it.
A default is the value at reset; where the spec states none, log entry 3 names the value. -/

namespace Sys2Proof.Machine

/-- A pending change of a link (R177, 08). -/
structure GearChange where
  /-- R177 (08). master position P, Q47.16 [63]; DESIGN CHOICE (log 3): the spec states no reset value -/
  p : Int := 0
  /-- R177 (08). 0 either, 1 forward, 2 reverse [2]; DESIGN CHOICE (log 3): the spec states no reset value -/
  dir : Nat := 0
  /-- R177 (08). new numerator [32]; DESIGN CHOICE (log 3): the spec states no reset value -/
  num : Int := 0
  /-- R177 (08). new denominator [32]; DESIGN CHOICE (log 3): the spec states no reset value -/
  den : Nat := 1
  /-- R177 (08). new table for a cam link [5]; DESIGN CHOICE (log 3): the spec states no reset value -/
  table : Option Nat := none
  /-- R177 (08). ramp distance D [63]; DESIGN CHOICE (log 3): the spec states no reset value -/
  ramp : Int := 0
deriving DecidableEq, Repr

/-- A ramped change in progress (R179, R184, 08). -/
structure GearRamp where
  /-- R179 (08). P [63]; DESIGN CHOICE (log 3): the spec states no reset value -/
  p : Int := 0
  /-- R179 (08). reached in reverse direction (s = -1) [1]; DESIGN CHOICE (log 3): the spec states no reset value -/
  dirNeg : Bool := false
  /-- R179 (08). n1 [32]; DESIGN CHOICE (log 3): the spec states no reset value -/
  num1 : Int := 0
  /-- R179 (08). d1 [32]; DESIGN CHOICE (log 3): the spec states no reset value -/
  den1 : Nat := 1
  /-- R179 (08). D [63]; DESIGN CHOICE (log 3): the spec states no reset value -/
  dist : Int := 1
  /-- R179 (08). slave set-point at P [63]; DESIGN CHOICE (log 3): the spec states no reset value -/
  slave0 : Int := 0
  /-- R179 (08). remainder at P [32]; DESIGN CHOICE (log 3): the spec states no reset value -/
  rem0 : Nat := 0
  /-- R184 (08). new table of a cam blend [5]; DESIGN CHOICE (log 3): the spec states no reset value -/
  table1 : Nat := 0
  /-- R184 (08). slave offset of the new table [63]; DESIGN CHOICE (log 3): the spec states no reset value -/
  off1 : Int := 0
deriving DecidableEq, Repr

/-- One link (R170, 08). -/
structure GearLink where
  /-- GEAR_STATUS.MODE (08). 0 none, 1 gear, 2 cam [2] -/
  mode : Nat := 0
  /-- GEAR_STATUS.ENGAGE (08). 0 released, 1 waiting, 2 engaged, 3 declutched [2] -/
  engage : Nat := 0
  /-- GEAR_STATUS.MASTER_KIND (08). master kind [3] -/
  mKind : Nat := 0
  /-- GEAR_STATUS.MASTER_INDEX (08). master index [6] -/
  mIndex : Nat := 0
  /-- R174 (08). follow index corrections [1]; DESIGN CHOICE (log 3): the spec states no reset value -/
  followIndex : Bool := false
  /-- R185 (08). ENGAGE position [63]; DESIGN CHOICE (log 3): the spec states no reset value -/
  engagePos : Option Int := none
  /-- GEAR_NUM (08). active numerator [32]; DESIGN CHOICE (log 3): the spec states no reset value -/
  num : Int := 0
  /-- GEAR_DEN (08). active denominator [32]; DESIGN CHOICE (log 3): the spec states no reset value -/
  den : Nat := 1
  /-- GEAR_REM (08). remainder [32]; DESIGN CHOICE (log 3): the spec states no reset value -/
  rem : Nat := 0
  /-- GEAR_MASTER, R175 (08). master position at the last evaluation [64]; DESIGN CHOICE (log 3): the spec states no reset value -/
  mLast : Int := 0
  /-- R174 (08). index corrections kept from the link [64]; DESIGN CHOICE (log 3): the spec states no reset value -/
  mOffset : Int := 0
  /-- GEAR_SLAVE, R175 (08). geared set-point [64]; DESIGN CHOICE (log 3): the spec states no reset value -/
  slave : Int := 0
  /-- GEAR_HELD (08). units evaluated that wait for the next sample [32]; DESIGN CHOICE (log 3): the spec states no reset value -/
  held : Int := 0
  /-- R172, R176 (08). velocity handed to the loop [63]; DESIGN CHOICE (log 3): the spec states no reset value -/
  velFf : Int := 0
  /-- R177 (08). pending changes, head first [64]; DESIGN CHOICE (log 3): the spec states no reset value -/
  changes : List GearChange := []
  /-- GEAR_STATUS.RAMPING, R179 (08). a ramped change in progress; DESIGN CHOICE (log 3): the spec states no reset value -/
  ramp : Option GearRamp := none
  /-- GEAR_STATUS.TABLE (08). cam table in use [5] -/
  table : Nat := 0
  /-- R184 (08). absolute cam [1]; DESIGN CHOICE (log 3): the spec states no reset value -/
  camAbs : Bool := false
  /-- R183 (08). scale, Q16.16 [32]; DESIGN CHOICE (log 3): the spec states no reset value -/
  camScale : Int := 65536
  /-- R183 (08). master offset [63]; DESIGN CHOICE (log 3): the spec states no reset value -/
  camMaster : Int := 0
  /-- R183 (08). slave offset [63]; DESIGN CHOICE (log 3): the spec states no reset value -/
  camSlave : Int := 0
  /-- R183 (08). outside the table's range (CAM_END was raised for this exit) [1]; DESIGN CHOICE (log 3): the spec states no reset value -/
  camOut : Bool := false
  /-- R188 (08). number of changes appended when a timed GEAR_CLEAR_PENDING committed, while it takes effect; DESIGN CHOICE (log 3): the spec states no reset value -/
  clearTo : Option Nat := none
  /-- R188 (08). changes appended so far; DESIGN CHOICE (log 3): the spec states no reset value -/
  appended : Nat := 0
  /-- GEAR_STATUS.CAM_END (08). CAM_END was raised [1] -/
  fEnd : Bool := false
  /-- GEAR_STATUS.MASTER_LOST (08). MASTER_LOST was raised [1] -/
  fLost : Bool := false
  /-- GEAR_STATUS.RESIDUE (08). GEAR_RESIDUE was raised [1] -/
  fResidue : Bool := false
  /-- GEAR_STATUS.LIMIT (08). GEAR_LIMIT was raised [1] -/
  fLimit : Bool := false
  /-- Table 8.4, R464 (08, 21). positive q [64] -/
  dueFwd : Tally := 0
  /-- Table 8.4, R464 (08, 21). negative q [64] -/
  dueRev : Tally := 0
  /-- Table 8.4, R464 (08, 21). units applied, positive [64] -/
  appFwd : Tally := 0
  /-- Table 8.4, R464 (08, 21). units applied, negative [64] -/
  appRev : Tally := 0
  /-- Table 8.4, R464 (08, 21). units skipped, positive [64] -/
  skipFwd : Tally := 0
  /-- Table 8.4, R464 (08, 21). units skipped, negative [64] -/
  skipRev : Tally := 0
  /-- Table 8.4, R464 (08, 21). residues in 2^-32 unit [64] -/
  residue : Tally := 0
deriving DecidableEq, Repr

/-- One virtual master (Table 8.1, 08). -/
structure VMaster where
  /-- VMASTER_SET (08). its time base [2]; DESIGN CHOICE (log 3): the spec states no reset value -/
  base : Nat := 0
  /-- Table 8.1 (08). position at t0, Q47.16 [63]; DESIGN CHOICE (log 3): the spec states no reset value -/
  p0 : Int := 0
  /-- VM_VEL (08). velocity, Q39.24 [63]; DESIGN CHOICE (log 3): the spec states no reset value -/
  vel : Int := 0
  /-- Table 8.1 (08). t0 on its time base, ns; DESIGN CHOICE (log 3): the spec states no reset value -/
  t0 : Int := 0
deriving DecidableEq, Repr

/-- A point entry of a cam table (Table 8.3, 08). -/
structure CamPoint where
  /-- Table 8.3 (08). kind byte as written (0xFF: never written) [8]; DESIGN CHOICE (log 3): the spec states no reset value -/
  kind : Nat := 0xFF
  /-- Table 8.3 (08). master position [64]; DESIGN CHOICE (log 3): the spec states no reset value -/
  x : Int := 0
  /-- Table 8.3 (08). slave position [64]; DESIGN CHOICE (log 3): the spec states no reset value -/
  y : Int := 0
  /-- Table 8.3 (08). slope, Q31.32 [64]; DESIGN CHOICE (log 3): the spec states no reset value -/
  k : Int := 0
deriving DecidableEq, Repr

/-- One cam table (R181, 08). -/
structure CamTable where
  /-- R181 (08). defined [1]; DESIGN CHOICE (log 3): the spec states no reset value -/
  defined : Bool := false
  /-- R181 (08). committed and usable [1]; DESIGN CHOICE (log 3): the spec states no reset value -/
  committed : Bool := false
  /-- Table 8.2 (08). header kind as written [8]; DESIGN CHOICE (log 3): the spec states no reset value -/
  hkind : Nat := 0x41
  /-- Table 8.2 (08). periodic [1]; DESIGN CHOICE (log 3): the spec states no reset value -/
  periodic : Bool := false
  /-- Table 8.2 (08). point count [12]; DESIGN CHOICE (log 3): the spec states no reset value -/
  count : Nat := 2
  /-- Table 8.2 (08). master period [64]; DESIGN CHOICE (log 3): the spec states no reset value -/
  period : Int := 0
  /-- Table 8.2 (08). lift per period [64]; DESIGN CHOICE (log 3): the spec states no reset value -/
  lift : Int := 0
  /-- Table 8.3 (08). points written, by index [4095]; DESIGN CHOICE (log 3): the spec states no reset value -/
  points : List (Nat × CamPoint) := []
deriving DecidableEq, Repr

/-- The Gear Unit. -/
structure GearUnit where
  /-- R170 (08). links -/
  link : Vector GearLink 64 := Vector.replicate 64 {}
  /-- Table 8.1 (08). virtual masters; DESIGN CHOICE (log 3): the spec states no reset value -/
  vm : Vector VMaster 8 := Vector.replicate 8 {}
  /-- R181 (08). cam tables; DESIGN CHOICE (log 3): the spec states no reset value -/
  cam : Vector CamTable 32 := Vector.replicate 32 {}
deriving DecidableEq, Repr

end Sys2Proof.Machine
end

