-- ==== Sys2Proof/Machine/State/Lanes.lean ====
section
/-! DEFINITION.
State of the block: Thread Dispatcher and Cooper lanes.
Each field names the rule of spec/ that gives it.
A default is the value at reset; where the spec states none, log entry 3 names the value. -/

namespace Sys2Proof.Machine

/-- The thread states of Table 20.1 (R436, 20). -/
inductive ThreadState
  | disabled | waiting | ready | running | preempted | faulted
deriving DecidableEq, Repr

/-- A source of a thread (R437, Table 20.2, 20). -/
structure TokSource where
  /-- Table 20.2 (20). source code [8]; DESIGN CHOICE (log 3): the spec states no reset value -/
  code : Nat := 0
  /-- Table 20.2 (20). index [8]; DESIGN CHOICE (log 3): the spec states no reset value -/
  index : Nat := 0
  /-- Table 20.2 (20). sub [8]; DESIGN CHOICE (log 3): the spec states no reset value -/
  sub : Nat := 0
deriving DecidableEq, Repr

/-- A lane's register state (R443, R447, 20). -/
structure LaneRegs where
  /-- R447 (20). D0 to D31 [32x32]; DESIGN CHOICE (log 3): the spec states no reset value -/
  d : Vector Word 32 := Vector.replicate 32 0
  /-- R447 (20). A0 to A3 [4x72]; DESIGN CHOICE (log 3): the spec states no reset value -/
  acc : Vector (BitVec 72) 4 := Vector.replicate 4 0
  /-- R447 (20). X0 to X7 [8x32]; DESIGN CHOICE (log 3): the spec states no reset value -/
  x : Vector Word 8 := Vector.replicate 8 0
  /-- R447 (20). modifiers M [8x32]; DESIGN CHOICE (log 3): the spec states no reset value -/
  mods : Vector Word 8 := Vector.replicate 8 0
  /-- R447 (20). bases B [8x32]; DESIGN CHOICE (log 3): the spec states no reset value -/
  base : Vector Word 8 := Vector.replicate 8 0
  /-- R447 (20). lengths L [8x32]; DESIGN CHOICE (log 3): the spec states no reset value -/
  len : Vector Word 8 := Vector.replicate 8 0
  /-- R447, LANE_STATUS.GO (20). GO0 to GO3 [4] -/
  go : Vector Bool 4 := Vector.replicate 4 false
  /-- LANE_STATUS.SX (20). extraction saturated [1] -/
  sx : Bool := false
  /-- LANE_STATUS.QS (20). 32-bit saturation [1] -/
  qs : Bool := false
  /-- LANE_STATUS.SAT (20). SAT mode [1] -/
  sat : Bool := false
  /-- LANE_PC (20). word address of the next instruction [13]; DESIGN CHOICE (log 3): the spec states no reset value -/
  pc : BitVec 13 := 0
  /-- R455 (20). branch in flight: delay slots left and the word execution then continues at; DESIGN CHOICE (log 3): the spec states no reset value -/
  delay : Option (Nat × Nat) := none
  /-- R455 (20). load whose delay slot is next: register and value; DESIGN CHOICE (log 3): the spec states no reset value -/
  load : Option (Nat × Word) := none
  /-- R456 (20). iterations of the next instruction set by REP [11]; DESIGN CHOICE (log 3): the spec states no reset value -/
  rep : Option Nat := none
  /-- R445 (20). instructions issued since the thread started [24]; DESIGN CHOICE (log 3): the spec states no reset value -/
  issued : Nat := 0
  /-- R448 (20). latched high word: address and value; DESIGN CHOICE (log 3): the spec states no reset value -/
  tapLatch : Option (Nat × Word) := none
  /-- R449 (20). staged low words of set-point ports: slot and value; DESIGN CHOICE (log 3): the spec states no reset value -/
  staged : List (Nat × Word) := []
deriving DecidableEq, Repr

/-- One thread slot (R435 to R441, 20). -/
structure Thread where
  /-- R435 (20). defined [1]; DESIGN CHOICE (log 3): the spec states no reset value -/
  defined : Bool := false
  /-- R436 (20). enabled [1]; DESIGN CHOICE (log 3): the spec states no reset value -/
  enabled : Bool := false
  /-- R463 (20). THREAD_ENABLE 0 takes effect when it ends [1]; DESIGN CHOICE (log 3): the spec states no reset value -/
  disableAtEnd : Bool := false
  /-- THR_STATUS.STATE (20). state [3] -/
  st : ThreadState := .disabled
  /-- THR_STATUS.LANE (20). bound lane [3] -/
  lane : Nat := 0
  /-- THR_STATUS.LEVEL (20). priority level [5] -/
  level : Nat := 0
  /-- THR_STATUS.PREEMPTIVE (20). preemptive [1] -/
  preemptive : Bool := false
  /-- THREAD_DEFINE FLAGS (20). SAT at start [1]; DESIGN CHOICE (log 3): the spec states no reset value -/
  satStart : Bool := false
  /-- THREAD_DEFINE ENTRY (20). entry word [13]; DESIGN CHOICE (log 3): the spec states no reset value -/
  entry : Nat := 0
  /-- R437 (20). RELOAD [16]; DESIGN CHOICE (log 3): the spec states no reset value -/
  reload : Nat := 1
  /-- THR_COUNT.CNT (20). CNT [16] -/
  cnt : Nat := 0
  /-- THR_COUNT.EARLY (20). EARLY [16] -/
  early : Nat := 0
  /-- R437 (20). sources [4x24]; DESIGN CHOICE (log 3): the spec states no reset value -/
  sources : List TokSource := []
  /-- THREAD_DEFINE BUDGET (20). BUDGET [25]; DESIGN CHOICE (log 3): the spec states no reset value -/
  budget : Nat := 1
  /-- THR_STATUS.FAULT (20). THREAD_FAULT was raised [1] -/
  fFault : Bool := false
  /-- THR_STATUS.CAUSE (20). last abort cause [3] -/
  cause : Nat := 0
  /-- THR_STATUS.OVERRUN (20). TOKEN_OVERRUN was raised [1] -/
  fOverrun : Bool := false
  /-- THR_RUNS (20). runs started, wrapping [32]; DESIGN CHOICE (log 3): the spec states no reset value -/
  runs : BitVec 32 := 0
  /-- THR_LAT.LAST (20). latency of the last dispatch, ticks [16] -/
  latLast : BitVec 16 := 0
  /-- THR_LAT.MAX (20). largest [16] -/
  latMax : BitVec 16 := 0
  /-- R444, R447 ORIGIN (20). SYS_TICK at which it became READY, that of the token [64]; DESIGN CHOICE (log 3): the spec states no reset value -/
  readyAt : Nat := 0
  /-- R443 (20). lane state of a PREEMPTED thread; DESIGN CHOICE (log 3): the spec states no reset value -/
  saved : Option LaneRegs := none
  /-- R440, R464 (20, 21). TOK_IN [64] -/
  tokIn : Tally := 0
  /-- R440, R464 (20, 21). TOK_USED [64] -/
  tokUsed : Tally := 0
  /-- R440, R464 (20, 21). TOK_DROPPED [64] -/
  tokDropped : Tally := 0
deriving DecidableEq, Repr

/-- One timer (R446, 20). -/
structure Timer where
  /-- TMR_STATUS.KIND (20). kind [2] -/
  kind : Nat := 0
  /-- TMR_STATUS.RUNNING (20). instants are being produced [1] -/
  running : Bool := false
  /-- TMR_STATUS.SKIPPED (20). an instant was skipped [1] -/
  fSkipped : Bool := false
  /-- R446 (20). PERIOD [64]; DESIGN CHOICE (log 3): the spec states no reset value -/
  period : Nat := 0
  /-- R446 (20). PHASE [64]; DESIGN CHOICE (log 3): the spec states no reset value -/
  phase : Nat := 0
  /-- R446 (20). its next instant: SYS_TICK of kind 1, TBASE0 ns of kind 2; DESIGN CHOICE (log 3): the spec states no reset value -/
  nextAt : Nat := 0
  /-- TMR_SKIP (20). skipped instants, wrapping [32]; DESIGN CHOICE (log 3): the spec states no reset value -/
  skips : BitVec 32 := 0
deriving DecidableEq, Repr

/-- One Cooper lane (R447, 20). -/
structure Lane where
  /-- LANE_STATUS.LOADED, ENTRY (20). store entry loaded [4] -/
  entry : Option Nat := none
  /-- R447 (20). program [8192x32]; DESIGN CHOICE (log 3): the spec states no reset value -/
  prog : List Word := []
  /-- R447 (20). data memory, canonical list of cells; an unlisted address reads 0 [96 KiB x 8]; DESIGN CHOICE (log 3): the spec states no reset value -/
  data : List Host.Cell := []
  /-- R448 (20). taps: variable code and index [64x16]; DESIGN CHOICE (log 3): the spec states no reset value -/
  taps : List (Nat × Nat) := []
  /-- LANE_STATUS.RUNNING (20). running thread [9] -/
  thread : Option Nat := none
  /-- LANE_STATUS.THREAD (20). running or last thread [9] -/
  lastThread : Nat := 0
  /-- R447 (20). registers; DESIGN CHOICE (log 3): the spec states no reset value -/
  regs : LaneRegs := {}
  /-- R441 (20). READY and PREEMPTED threads, in queue order (level, then place); DESIGN CHOICE (log 3): the spec states no reset value -/
  queue : List Nat := []
  /-- R449 (20). general ports granted [64]; DESIGN CHOICE (log 3): the spec states no reset value -/
  grantP : BitVec 64 := 0
  /-- R449 (20). set-point ports granted [64]; DESIGN CHOICE (log 3): the spec states no reset value -/
  grantS : BitVec 64 := 0
  /-- R444, R451 (20). instant of its next step, in 10^-4 ns of TB ticks; the model's own field -/
  stepAt : Nat := 0
deriving DecidableEq, Repr

/-- One set-point port (R449, 20). -/
structure SpPort where
  /-- SPT (20). committed set-point [64]; DESIGN CHOICE (log 3): the spec states no reset value -/
  value : BitVec 64 := 0
  /-- SPT_STATUS.FRESH (20). the last outermost sample was fresh [1] -/
  fresh : Bool := false
  /-- R449 (20). a commit has occurred since the previous outermost sample [1]; DESIGN CHOICE (log 3): the spec states no reset value -/
  committed : Bool := false
  /-- R449 (20). TB tick of the last commit; the model's own field -/
  commitAt : Option Nat := none
  /-- R118, R449 (20). what it held before that tick [64]; the model's own field -/
  before : BitVec 64 := 0
  /-- R449 (20). a commit had occurred before that tick, since the previous outermost sample [1]; the model's own field -/
  wasCommitted : Bool := false
  /-- SPT_STATUS.STALE (20). consecutive stale samples [8] -/
  stale : Nat := 0
  /-- SPT_STATUS.STALL_LIMIT (20). STALL_LIMIT [8] -/
  stallLimit : Nat := 3
  /-- SPT_STATUS.STALL (20). the slot faulted with PLUGIN_STALL [1] -/
  fStall : Bool := false
deriving DecidableEq, Repr

/-- Thread Dispatcher and lanes. -/
structure LanesBlk where
  /-- R435 (20). threads -/
  thr : Vector Thread 512 := Vector.replicate 512 {}
  /-- R446 (20). timers -/
  tmr : Vector Timer 16 := Vector.replicate 16 {}
  /-- R447 (20). lanes -/
  lane : Vector Lane 8 := Vector.replicate 8 {}
  /-- R442 (20). kernel threads running on the application cores [4x9]; DESIGN CHOICE (log 3): the spec states no reset value -/
  kernelRun : List Nat := []
  /-- R441 (20). kernel threads READY or PREEMPTED; DESIGN CHOICE (log 3): the spec states no reset value -/
  kernelQueue : List Nat := []
  /-- PORT_VALUE (20). general ports [64x32]; DESIGN CHOICE (log 3): the spec states no reset value -/
  port : Vector Word 64 := Vector.replicate 64 0
  /-- R449 (20). TB tick of the last write of each general port; the model's own field -/
  portAt : Vector (Option Nat) 64 := Vector.replicate 64 none
  /-- R118, R449 (20). what each held before that tick [64x32]; the model's own field -/
  portBefore : Vector Word 64 := Vector.replicate 64 0
  /-- R449 (20). set-point ports -/
  spt : Vector SpPort 64 := Vector.replicate 64 {}
deriving DecidableEq, Repr

end Sys2Proof.Machine
end

