-- ==== Sys2Proof/Machine/State/Loop.lean ====
section
/-! DEFINITION.
State of the block: Loop Engine: cascades, regions, schedules, scales, observer, AIN.
Each field names the rule of spec/ that gives it.
A default is the value at reset; where the spec states none, log entry 3 names the value. -/

namespace Sys2Proof.Machine

/-- A block-floating-point value M x 2^(E-31) (R193, 09). -/
structure Bf where
  /-- R193 (09). mantissa [32]; DESIGN CHOICE (log 3): the spec states no reset value -/
  m : Int := 0
  /-- R193 (09). exponent [8]; DESIGN CHOICE (log 3): the spec states no reset value -/
  e : Int := 0
deriving DecidableEq, Repr

/-- State of one section: s1, s2 and y share one exponent (R193, R195, 09). -/
structure SecState where
  /-- R193 (09). first state, mantissa [32]; DESIGN CHOICE (log 3): the spec states no reset value -/
  s1 : Int := 0
  /-- R193 (09). second state, mantissa [32]; DESIGN CHOICE (log 3): the spec states no reset value -/
  s2 : Int := 0
  /-- R193 (09). output, mantissa [32]; DESIGN CHOICE (log 3): the spec states no reset value -/
  y : Int := 0
  /-- R193 (09). section exponent [8]; DESIGN CHOICE (log 3): the spec states no reset value -/
  e : Int := 0
deriving DecidableEq, Repr

/-- A section record (Table 9.8, 09). -/
structure SecCoef where
  /-- Table 9.8 (09). B0 [32]; DESIGN CHOICE (log 3): the spec states no reset value -/
  b0 : Int := 0
  /-- Table 9.8 (09). B1 [32]; DESIGN CHOICE (log 3): the spec states no reset value -/
  b1 : Int := 0
  /-- Table 9.8 (09). B2 [32]; DESIGN CHOICE (log 3): the spec states no reset value -/
  b2 : Int := 0
  /-- Table 9.8 (09). A1 [32]; DESIGN CHOICE (log 3): the spec states no reset value -/
  a1 : Int := 0
  /-- Table 9.8 (09). A2 [32]; DESIGN CHOICE (log 3): the spec states no reset value -/
  a2 : Int := 0
  /-- Table 9.8 (09). gain exponent [8]; DESIGN CHOICE (log 3): the spec states no reset value -/
  g : Int := 0
deriving DecidableEq, Repr

/-- A region record of the coefficient memory (Table 9.7, 09). -/
structure Region where
  /-- R217, Table 9.7 (09). LOADED [8]; DESIGN CHOICE (log 3): the spec states no reset value -/
  loaded : Bool := false
  /-- Table 9.7 (09). SECTIONS [8]; DESIGN CHOICE (log 3): the spec states no reset value -/
  sections : Nat := 8
  /-- Table 9.7 (09). INTEG [8]; DESIGN CHOICE (log 3): the spec states no reset value -/
  integ : Bool := false
  /-- Table 9.7 (09). U_MIN, Q1.31 [32]; DESIGN CHOICE (log 3): the spec states no reset value -/
  uMin : Int := 0
  /-- Table 9.7 (09). U_MAX, Q1.31 [32]; DESIGN CHOICE (log 3): the spec states no reset value -/
  uMax : Int := 0
  /-- Table 9.7 (09). I_MIN, Q1.31 [32]; DESIGN CHOICE (log 3): the spec states no reset value -/
  iMin : Int := 0
  /-- Table 9.7 (09). I_MAX, Q1.31 [32]; DESIGN CHOICE (log 3): the spec states no reset value -/
  iMax : Int := 0
  /-- Table 9.7 (09). K_AW, Q2.30 [32]; DESIGN CHOICE (log 3): the spec states no reset value -/
  kAw : Int := 0
  /-- Table 9.7 (09). cascade A [8x256 bits]; DESIGN CHOICE (log 3): the spec states no reset value -/
  casA : List SecCoef := []
  /-- Table 9.7 (09). cascade B [8x256 bits]; DESIGN CHOICE (log 3): the spec states no reset value -/
  casB : List SecCoef := []
deriving DecidableEq, Repr

/-- A load waiting for its commit at a sample instant (R206, R217, 09). -/
structure LoopLoad where
  /-- R217 (09). region [3]; DESIGN CHOICE (log 3): the spec states no reset value -/
  region : Nat := 0
  /-- R217 (09). the record; DESIGN CHOICE (log 3): the spec states no reset value -/
  recv : Region := {}
  /-- R217 (09). earliest tick: 10 us after the command took effect; DESIGN CHOICE (log 3): the spec states no reset value -/
  notBefore : Nat := 0
deriving DecidableEq, Repr

/-- One loop of a slot: schedule, regions, states (R189 to R207, 09). -/
structure LoopSt where
  /-- R217 (09). section count (8 after AXIS_BIND) [4]; DESIGN CHOICE (log 3): the spec states no reset value -/
  n : Nat := 8
  /-- R202, R217 (09). INTEG [1]; DESIGN CHOICE (log 3): the spec states no reset value -/
  integ : Bool := false
  /-- R203, R217 (09). regions [4]; DESIGN CHOICE (log 3): the spec states no reset value -/
  nRegions : Nat := 1
  /-- Table 9.4 (09). scheduling variable [3]; DESIGN CHOICE (log 3): the spec states no reset value -/
  schedVar : Nat := 0
  /-- Table 9.10 (09). plug-in port of variable 5 [6]; DESIGN CHOICE (log 3): the spec states no reset value -/
  varPort : Nat := 0
  /-- R203 (09). absolute option [1]; DESIGN CHOICE (log 3): the spec states no reset value -/
  absolute : Bool := false
  /-- R204 (09). bounds 1 to N-1 [7x64]; DESIGN CHOICE (log 3): the spec states no reset value -/
  bounds : List Int := []
  /-- R204 (09). hysteresis [64]; DESIGN CHOICE (log 3): the spec states no reset value -/
  hyst : Int := 0
  /-- R215 (09). region records [8 KiB]; DESIGN CHOICE (log 3): the spec states no reset value -/
  region : Vector Region 8 := Vector.replicate 8 {}
  /-- LOOP_STATUS.REGION_C/_V/_P (09). region in force [3] -/
  inForce : Nat := 0
  /-- R204 (09). a sample has run since Enabling [1]; DESIGN CHOICE (log 3): the spec states no reset value -/
  started : Bool := false
  /-- R22, R254 (01, 11). tick of its last sample instant; DESIGN CHOICE (log 3): the spec states no reset value -/
  sampledAt : Option Nat := none
  /-- R193 (09). states of cascade A [8x104]; DESIGN CHOICE (log 3): the spec states no reset value -/
  stA : List SecState := []
  /-- R193 (09). states of cascade B [8x104]; DESIGN CHOICE (log 3): the spec states no reset value -/
  stB : List SecState := []
  /-- R206 (09). a load waiting for its commit; DESIGN CHOICE (log 3): the spec states no reset value -/
  load : Option LoopLoad := none
  /-- R205, R111 (09, 05). a lock armed for it has not been taken over [1]; DESIGN CHOICE (log 3): the spec states no reset value -/
  lockDue : Bool := false
  /-- R22 (01). tick of its last sample instant [64]; DESIGN CHOICE (log 3): the spec states no reset value -/
  sampleAt : Nat := 0
  /-- R21, R23 (01). result in the ready register, waiting for its release; DESIGN CHOICE (log 3): the spec states no reset value -/
  ready : Option (List Int) := none
  /-- R23, R189 (01, 09). result being computed; DESIGN CHOICE (log 3): the spec states no reset value -/
  computing : Option (List Int) := none
  /-- R23 (01). the release tick of that result has passed [1]; DESIGN CHOICE (log 3): the spec states no reset value -/
  computingLate : Bool := false
  /-- R21, R191 (01, 09). last released output, Q1.31 (duties for a current loop in 2^-32); DESIGN CHOICE (log 3): the spec states no reset value -/
  released : List Int := []
  /-- LOOP_LATE (09). late results, saturating [16] -/
  late : BitVec 16 := 0
  /-- R23 (01). cycles since the last late result; DESIGN CHOICE (log 3): the spec states no reset value -/
  sinceLate : Option Nat := none
  /-- LOOP_SLACK PREDICTED (09). predicted slack, signed ticks [16] -/
  slack : BitVec 16 := 0
  /-- LOOP_SLACK MARGIN (09). observed margin, ticks [16] -/
  margin : BitVec 16 := 0xFFFF
  /-- LOOP_STATUS.SAT (09). reached a limit at its last sample [1] -/
  sat : Bool := false
  /-- LOOP_STATUS.INT_CLAMPED (09). an integrator was clamped at its last sample [1] -/
  clamped : Bool := false
  /-- R32 (01). no operating point passes: faults at its next sample [1]; DESIGN CHOICE (log 3): the spec states no reset value -/
  slackFault : Bool := false
deriving DecidableEq, Repr

/-- The Loop Engine's state of one slot. -/
structure LoopSlot where
  /-- LOOP_SCALES (09). CURRENT_FS, mA [32]; DESIGN CHOICE (log 3): the spec states no reset value -/
  currentFs : Nat := 0
  /-- LOOP_SCALES (09). VOLTAGE_FS, mV [32]; DESIGN CHOICE (log 3): the spec states no reset value -/
  voltageFs : Nat := 0
  /-- LOOP_SCALES (09). VELOCITY_FS, Q39.24 [64]; DESIGN CHOICE (log 3): the spec states no reset value -/
  velFs : Int := 0
  /-- LOOP_SCALES (09). POSITION_FS, Q47.16 [64]; DESIGN CHOICE (log 3): the spec states no reset value -/
  posFs : Int := 0
  /-- LOOP_SCALES INPUT_CAL (09). offset Q1.31 and gain binary64 per bound input [3x96]; DESIGN CHOICE (log 3): the spec states no reset value -/
  inputCal : List (Int × BitVec 64) := []
  /-- LOOP_MOTOR (09). ELEC_COUNTS, Q47.16 [64]; DESIGN CHOICE (log 3): the spec states no reset value -/
  elecCounts : Int := 0
  /-- LOOP_MOTOR PARAMS (09). R, binary64 [64]; DESIGN CHOICE (log 3): the spec states no reset value -/
  motorR : BitVec 64 := 0
  /-- LOOP_MOTOR PARAMS (09). L_d [64]; DESIGN CHOICE (log 3): the spec states no reset value -/
  motorLd : BitVec 64 := 0
  /-- LOOP_MOTOR PARAMS (09). L_q [64]; DESIGN CHOICE (log 3): the spec states no reset value -/
  motorLq : BitVec 64 := 0
  /-- LOOP_MOTOR PARAMS (09). flux linkage [64]; DESIGN CHOICE (log 3): the spec states no reset value -/
  motorPsi : BitVec 64 := 0
  /-- R217 (09). PARAMS have been loaded [1]; DESIGN CHOICE (log 3): the spec states no reset value -/
  motorSet : Bool := false
  /-- LOOP_MOTOR OPTIONS (09). decoupling, back-EMF feedforward, angle advance [3]; DESIGN CHOICE (log 3): the spec states no reset value -/
  motorOpts : BitVec 3 := 0
  /-- LOOP_MODULATION, Table 9.3 (09). modulation kind [2]; DESIGN CHOICE (log 3): the spec states no reset value -/
  modKind : Nat := 0
  /-- R199 (09). LOOP_MODULATION has set the kind [1]; DESIGN CHOICE (log 3): the spec states no reset value -/
  modSet : Bool := false
  /-- LOOP_MODULATION DCLINK (09). DC-link source [2]; DESIGN CHOICE (log 3): the spec states no reset value -/
  dcSource : Nat := 0
  /-- LOOP_MODULATION DCLINK (09). its index [8]; DESIGN CHOICE (log 3): the spec states no reset value -/
  dcIndex : Nat := 0
  /-- LOOP_MODULATION DCLINK (09). fixed value or full scale, mV [32]; DESIGN CHOICE (log 3): the spec states no reset value -/
  dcMv : Nat := 0
  /-- LOOP_MODULATION DTC (09). dead-time compensation, 1/16 tick [32]; DESIGN CHOICE (log 3): the spec states no reset value -/
  dtc : Nat := 0
  /-- LOOP_FOLLOW (09). OFFSET [16]; DESIGN CHOICE (log 3): the spec states no reset value -/
  folOffset : Int := 0
  /-- LOOP_FOLLOW (09). DEADBAND [16]; DESIGN CHOICE (log 3): the spec states no reset value -/
  folDead : Nat := 0
  /-- LOOP_FOLLOW (09). GAIN [64]; DESIGN CHOICE (log 3): the spec states no reset value -/
  folGain : Int := 0
  /-- LOOP_FOLLOW (09). minimum [64]; DESIGN CHOICE (log 3): the spec states no reset value -/
  folMin : Int := 0
  /-- LOOP_FOLLOW (09). maximum [64]; DESIGN CHOICE (log 3): the spec states no reset value -/
  folMax : Int := 0
  /-- LOOP_LIMITS, R201 (09). FE_WARN [64]; DESIGN CHOICE (log 3): the spec states no reset value -/
  feWarn : Int := 0
  /-- LOOP_LIMITS, R201 (09). FE_LIMIT [64]; DESIGN CHOICE (log 3): the spec states no reset value -/
  feLimit : Int := 0
  /-- LOOP_LIMITS (09). FE_COUNT [8]; DESIGN CHOICE (log 3): the spec states no reset value -/
  feCount : Nat := 1
  /-- R201 (09). consecutive samples above FE_LIMIT [8]; DESIGN CHOICE (log 3): the spec states no reset value -/
  feSeen : Nat := 0
  /-- R217 (09). K_VFF, 1.0 after AXIS_BIND [64]; DESIGN CHOICE (log 3): the spec states no reset value -/
  kVff : BitVec 64 := 0x3FF0000000000000
  /-- R217 (09). K_AFF, 0 after AXIS_BIND [64]; DESIGN CHOICE (log 3): the spec states no reset value -/
  kAff : BitVec 64 := 0
  /-- R217 (09). OBS_MIN; none: 5 % of VELOCITY_FS [64]; DESIGN CHOICE (log 3): the spec states no reset value -/
  obsMin : Option Int := none
  /-- R217 (09). OBS_BW, Hz [32]; DESIGN CHOICE (log 3): the spec states no reset value -/
  obsBw : Nat := 200
  /-- R217 (09). START_I, Q1.31 (0.25) [32]; DESIGN CHOICE (log 3): the spec states no reset value -/
  startI : Int := 0x20000000
  /-- R217 (09). START_MS [16]; DESIGN CHOICE (log 3): the spec states no reset value -/
  startMs : Nat := 500
  /-- R217 (09). START_SPEED; none: 10 % of VELOCITY_FS [64]; DESIGN CHOICE (log 3): the spec states no reset value -/
  startSpeed : Option Int := none
  /-- R190 (09). current, velocity and position loop; DESIGN CHOICE (log 3): the spec states no reset value -/
  lp : Vector LoopSt 3 := Vector.replicate 3 {}
  /-- LOOP_REGION_LOCK (09). region lock, buffered in US3 [12] -/
  lock : Buf := {}
  /-- R205 (09). locks in force, taken over loop by loop [12]; DESIGN CHOICE (log 3): the spec states no reset value -/
  locked : Word := 0
  /-- LOOP_STATUS.SWAP (09). LOOP_SWAP was raised [1] -/
  fSwap : Bool := false
  /-- LOOP_STATUS.SWAP_CLAMPED (09). SWAP_CLAMPED was raised [1] -/
  fSwapClamped : Bool := false
  /-- LOOP_STATUS.NUMERIC (09). NUMERIC_LIMIT was raised [1] -/
  fNumeric : Bool := false
  /-- LOOP_STATUS.AIN_RANGE (09). AIN_RANGE was raised [1] -/
  fAinRange : Bool := false
  /-- LOOP_STATUS.OBS_VALID (09). the observer is valid [1] -/
  obsValid : Bool := false
  /-- LOOP_STATUS.OBS_START (09). the forced frame is in use [1] -/
  obsStart : Bool := false
  /-- R212 (09). consecutive samples with phase error below 20 degrees [6]; DESIGN CHOICE (log 3): the spec states no reset value -/
  obsGood : Nat := 0
  /-- R212 (09). consecutive samples with phase error at 45 degrees or more [4]; DESIGN CHOICE (log 3): the spec states no reset value -/
  obsBad : Nat := 0
  /-- LOOP_OBS_ANGLE (09). observer angle [32]; DESIGN CHOICE (log 3): the spec states no reset value -/
  obsAngle : Word := 0
  /-- LOOP_OBS_SPEED (09). observer speed, Q39.24 [64]; DESIGN CHOICE (log 3): the spec states no reset value -/
  obsSpeed : Int := 0
  /-- R211 (09). integrated observer position, Q47.16 [64]; DESIGN CHOICE (log 3): the spec states no reset value -/
  obsPos : Int := 0
  /-- R211 (09). fraction of that integration not yet in Q47.16 (units of 2^-24 x 2 ns); DESIGN CHOICE (log 3): the spec states no reset value -/
  obsRem : Int := 0
  /-- R213 (09). tick at which the forced frame began; DESIGN CHOICE (log 3): the spec states no reset value -/
  frameStart : Nat := 0
  /-- R213, R214 (09). angle of the forced frame, 2^32 per revolution [32]; DESIGN CHOICE (log 3): the spec states no reset value -/
  frameAngle : Word := 0
  /-- R213 (09). fraction of its integration below 2^-32 revolution; DESIGN CHOICE (log 3): the spec states no reset value -/
  frameRem : Int := 0
  /-- R213 (09). the observer has been valid since Enabling [1]; DESIGN CHOICE (log 3): the spec states no reset value -/
  obsServed : Bool := false
  /-- R214 (09). q current held under the ramp-down while the observer is invalid [32]; DESIGN CHOICE (log 3): the spec states no reset value -/
  heldQ : Option Int := none
  /-- Table 6.5 (06). the commutation offset has been refined at a Hall edge since Enabling [1]; DESIGN CHOICE (log 3): the spec states no reset value -/
  hallRefined : Bool := false
  /-- R211 (09). voltage applied since the last sample, first axis of the stationary frame (phase A), Q1.31 [32]; DESIGN CHOICE (log 3): the spec states no reset value -/
  vAlpha : Int := 0
  /-- R211 (09). second axis (phase B) [32]; DESIGN CHOICE (log 3): the spec states no reset value -/
  vBeta : Int := 0
  /-- R211 (09). current at the last sample, first axis, Q1.31 [32]; DESIGN CHOICE (log 3): the spec states no reset value -/
  iAlpha : Int := 0
  /-- R211 (09). second axis [32]; DESIGN CHOICE (log 3): the spec states no reset value -/
  iBeta : Int := 0
  /-- LOOP_I_D (09). measured d current, Q1.31 [32]; DESIGN CHOICE (log 3): the spec states no reset value -/
  iD : Int := 0
  /-- LOOP_I_Q (09). measured q current [32]; DESIGN CHOICE (log 3): the spec states no reset value -/
  iQ : Int := 0
  /-- LOOP_V_D (09). limited d voltage [32]; DESIGN CHOICE (log 3): the spec states no reset value -/
  vD : Int := 0
  /-- LOOP_V_Q (09). limited q voltage [32]; DESIGN CHOICE (log 3): the spec states no reset value -/
  vQ : Int := 0
  /-- Table 19.1 (19). d voltage of the result released last [32]; DESIGN CHOICE (log 3): the spec states no reset value -/
  relD : Int := 0
  /-- Table 19.1 (19). q voltage of the result released last [32]; DESIGN CHOICE (log 3): the spec states no reset value -/
  relQ : Int := 0
  /-- LOOP_FE (09). following error, Q47.16 [64]; DESIGN CHOICE (log 3): the spec states no reset value -/
  fe : Int := 0
  /-- R208 (09). sum of AIN conversions since the previous sample; DESIGN CHOICE (log 3): the spec states no reset value -/
  ainSum : Int := 0
  /-- R208 (09). their number; DESIGN CHOICE (log 3): the spec states no reset value -/
  ainN : Nat := 0
  /-- R209 (09). following is held because the channel is out of range [1]; DESIGN CHOICE (log 3): the spec states no reset value -/
  ainHold : Bool := false
  /-- R209 (09). set-points before the last conversions out of range; DESIGN CHOICE (log 3): the spec states no reset value -/
  ainBefore : List Int := []
  /-- R210 (09). raw edge count at the previous sample [64]; DESIGN CHOICE (log 3): the spec states no reset value -/
  pulseLast : Option Int := none
  /-- R133 (06). current-loop samples since Enabling (velocity and position loops run at its divisions); DESIGN CHOICE (log 3): the spec states no reset value -/
  samples : Nat := 0
deriving DecidableEq, Repr

/-- One AIN channel (R208, R209, 09). -/
structure Ain where
  /-- R208 (09). last conversion [16]; DESIGN CHOICE (log 3): the spec states no reset value -/
  code : Int := 0
  /-- R209 (09). consecutive conversions at -32768 or 32767; DESIGN CHOICE (log 3): the spec states no reset value -/
  clips : Nat := 0
deriving DecidableEq, Repr

/-- The Loop Engine. -/
structure LoopEngine where
  /-- R189 (09). slots; DESIGN CHOICE (log 3): the spec states no reset value -/
  slot : Vector LoopSlot 64 := Vector.replicate 64 {}
  /-- R208 (09). AIN0 to AIN7; DESIGN CHOICE (log 3): the spec states no reset value -/
  ain : Vector Ain 8 := Vector.replicate 8 {}
deriving DecidableEq, Repr

end Sys2Proof.Machine
end

