-- ==== Sys2Proof/Machine/State/Net.lean ====
section
/-! DEFINITION.
State of the block: Backbone Switch, PTP, time bases, time-scheduled outputs, cyclic maps.
Each field names the rule of spec/ that gives it.
A default is the value at reset; where the spec states none, log entry 3 names the value. -/

namespace Sys2Proof.Machine

/-- A frame on the wire (R316, R318, R322, 14). -/
structure NetTx where
  /-- R316 (14). its traffic class [3]; DESIGN CHOICE (log 3): the spec states no reset value -/
  cls : Nat := 0
  /-- R322 (14). it is sent preemptable [1]; DESIGN CHOICE (log 3): the spec states no reset value -/
  pre : Bool := false
  /-- R297, R316 (13, 14). ns of wire time it still takes, preamble and inter-frame gap included; DESIGN CHOICE (log 3): the spec states no reset value -/
  left : Nat := 0
  /-- R322 (14). ns of wire time since it began or resumed; DESIGN CHOICE (log 3): the spec states no reset value -/
  gone : Nat := 0
deriving DecidableEq, Repr

/-- One switch port; index 4 is the internal port (R307 to R322, 14). -/
structure NetPort where
  /-- PORT_STATUS.SPEED (14). 0 no link, 1 100BASE-TX, 2 1000BASE-T [2] -/
  speed : Nat := 0
  /-- PORT_STATUS.LINK (14). link up [1] -/
  link : Bool := false
  /-- PORT_STATUS.NEG_FAIL (14). negotiation found no common mode [1] -/
  fNegFail : Bool := false
  /-- PORT_STATUS.STATE, R339 (14). FORWARDING [2] -/
  state : Nat := 0
  /-- PORT_STATUS.AS_CAPABLE (14). asCapable [1] -/
  asCapable : Bool := false
  /-- PORT_STATUS.PREEMPT (14). preemption verified and active [1] -/
  preempt : Bool := false
  /-- PORT_STATUS.PREEMPT_FAIL (14). PREEMPT_FAIL was raised [1] -/
  fPreemptFail : Bool := false
  /-- PORT_STATUS.MDIX (14). MDI-X in use [1] -/
  mdix : Bool := false
  /-- R307 (14). advertise mask: 1000BASE-T and 100BASE-TX [2] -/
  advertise : BitVec 2 := 3
  /-- R307 (14). forced to 100BASE-TX [1] -/
  forced : Bool := false
  /-- PORT_CONFIG LINK (14). MDI selection, auto [2] -/
  mdi : Nat := 0
  /-- R339 (14). PVID [12] -/
  pvid : Nat := 1
  /-- R339 (14). default PCP [3] -/
  pcp : Nat := 0
  /-- R313 (14). accepts tagged frames only [1]; DESIGN CHOICE (log 3): the spec states no reset value -/
  taggedOnly : Bool := false
  /-- R339 (14). transparent clock E2E [2] -/
  tcMode : Nat := 1
  /-- R339 (14). one-step [1] -/
  twoStep : Bool := false
  /-- R326 (14). time base whose rate ratio scales residence [2]; DESIGN CHOICE (log 3): the spec states no reset value -/
  rateBase : Option Nat := none
  /-- R335 (14). delayAsymmetry, 2^-16 ns [32]; DESIGN CHOICE (log 3): the spec states no reset value -/
  asym : Int := 0
  /-- R322, R339 (14). preemptable classes [8] -/
  preMask : BitVec 8 := 0
  /-- R339 (14). preemption enabled [1] -/
  preEnable : Bool := false
  /-- R322 (14). verify attempts made [2]; DESIGN CHOICE (log 3): the spec states no reset value -/
  verifyTries : Nat := 0
  /-- R322 (14). verification failed [1]; DESIGN CHOICE (log 3): the spec states no reset value -/
  verifyFailed : Bool := false
  /-- PORT_LINK_DELAY (14). meanLinkDelay, 1/16 ns [32]; DESIGN CHOICE (log 3): the spec states no reset value -/
  linkDelay : Nat := 0
  /-- R333 (14). filtered meanLinkDelay, 1/16 ns [32]; DESIGN CHOICE (log 3): the spec states no reset value -/
  filtDelay : Nat := 0
  /-- R317, R464 (14, 21). frames received [64] -/
  received : Tally := 0
  /-- R317, R464 (14, 21). accepted [64] -/
  accepted : Tally := 0
  /-- R308 (14). RUNT [64] -/
  runt : Tally := 0
  /-- R308 (14). OVERSIZE [64] -/
  oversize : Tally := 0
  /-- R308 (14). FCS [64] -/
  fcs : Tally := 0
  /-- R313 (14). VLAN_FILTER [64] -/
  vlanFilter : Tally := 0
  /-- R316 (14). QUEUE_FULL [64] -/
  queueFull : Tally := 0
  /-- R316 (14). LINK_DOWN [64] -/
  linkDown : Tally := 0
  /-- R315 (14). CUT_BAD [64] -/
  cutBad : Tally := 0
  /-- R311 (14). NOT_SERVED [64] -/
  notServed : Tally := 0
  /-- R338 (14). REST [64] -/
  restDrop : Tally := 0
  /-- R307 (14). PAUSE [64] -/
  pause : Tally := 0
  /-- R317 (14). enqueued [64] -/
  enqueued : Tally := 0
  /-- R317 (14). transmitted [64] -/
  transmitted : Tally := 0
  /-- R316 (14). frames queued for egress, oldest first [8 queues of 64]; DESIGN CHOICE (log 3): the spec states no reset value -/
  queue : List NetFrame := []
  /-- R309 (14). tick until which ETHn_LED0 is low for a burst of activity (with link it is high otherwise); DESIGN CHOICE (log 3): the spec states no reset value -/
  ledLow : Nat := 0
  /-- R316 (14). the frame being transmitted; DESIGN CHOICE (log 3): the spec states no reset value -/
  tx : Option NetTx := none
  /-- R318, R322 (14). the preempted frame that waits to resume; DESIGN CHOICE (log 3): the spec states no reset value -/
  cut : Option NetTx := none
  /-- R324 (14). tick of its last peer-delay exchange; DESIGN CHOICE (log 3): the spec states no reset value -/
  pdelayAt : Option Nat := none
  /-- R322 (14). tick at which the present verify attempt began; DESIGN CHOICE (log 3): the spec states no reset value -/
  verifyAt : Nat := 0
deriving DecidableEq, Repr

/-- One shaped class of a port (R320, R321, 14). -/
structure Cbs where
  /-- R320, R339 (14). the class; none shaped after reset [3] -/
  cls : Option Nat := none
  /-- R320 (14). idleSlope, bits/s [32]; DESIGN CHOICE (log 3): the spec states no reset value -/
  idleSlope : Nat := 0
  /-- R320 (14). credit, nanobits [64] -/
  credit : Int := 0
  /-- R321, R464 (14, 21). EARNED [64] -/
  earned : Tally := 0
  /-- R321, R464 (14, 21). SPENT [64] -/
  spent : Tally := 0
  /-- R321, R464 (14, 21). DISCARDED [64] -/
  discarded : Tally := 0
  /-- R321, R464 (14, 21). FORGIVEN [64] -/
  forgiven : Tally := 0
deriving DecidableEq, Repr

/-- A gate control list (R318, 14). -/
structure GateList where
  /-- GATE_LIST_SET BASE (14). time base [2]; DESIGN CHOICE (log 3): the spec states no reset value -/
  base : Nat := 0
  /-- GATE_LIST_SET BASE (14). base time, ns [64]; DESIGN CHOICE (log 3): the spec states no reset value -/
  t0 : Nat := 0
  /-- R318 (14). gate mask and interval [256]; DESIGN CHOICE (log 3): the spec states no reset value -/
  entries : List (BitVec 8 × Nat) := []
  /-- R318 (14). entry in force [8]; DESIGN CHOICE (log 3): the spec states no reset value -/
  idx : Nat := 0
deriving DecidableEq, Repr

/-- The gate control of one port. -/
structure Gates where
  /-- R339 (14). list in force -/
  active : Option GateList := none
  /-- R318 (14). list waiting, and its take-over time; DESIGN CHOICE (log 3): the spec states no reset value -/
  next : Option (GateList × Nat) := none
deriving DecidableEq, Repr

/-- One gPTP instance (R324, R325, 14). -/
structure PtpInst where
  /-- R324 (14). domainNumber, 0 and 20 after reset [7] -/
  domain : Nat := 0
  /-- R339 (14). enabled on all ports [4] -/
  ports : BitVec 4 := 0xF
  /-- R324 (14). logSyncInterval [8] -/
  logSync : Int := -3
  /-- R324 (14). logPdelayInterval [8] -/
  logPdelay : Int := 0
  /-- R339 (14). grandmaster-capable [1] -/
  gmCapable : Bool := false
  /-- R325 (14). priority1 [8] -/
  prio1 : Nat := 255
  /-- R325 (14). priority2 [8]; DESIGN CHOICE (log 3): the spec states no reset value -/
  prio2 : Nat := 248
  /-- R325 (14). source time base [2]; DESIGN CHOICE (log 3): the spec states no reset value -/
  gmBase : Nat := 0
  /-- PTP_STATUS GM (14). grandmaster identity [64]; DESIGN CHOICE (log 3): the spec states no reset value -/
  gmId : BitVec 64 := 0
  /-- PTP_STATUS PATH (14). stepsRemoved [16]; DESIGN CHOICE (log 3): the spec states no reset value -/
  steps : Nat := 0
  /-- PTP_STATUS PATH (14). slave port [8]; DESIGN CHOICE (log 3): the spec states no reset value -/
  slavePort : Option Nat := none
  /-- R325 (14). the device is grandmaster [1]; DESIGN CHOICE (log 3): the spec states no reset value -/
  isGm : Bool := false
  /-- R331 (14). its Syncs arrive and its grandmaster is unchanged [1]; DESIGN CHOICE (log 3): the spec states no reset value -/
  valid : Bool := false
  /-- R331 (14). tick of its last Sync; DESIGN CHOICE (log 3): the spec states no reset value -/
  lastSync : Nat := 0
  /-- R325 (14). tick of the last Sync it sent as grandmaster; DESIGN CHOICE (log 3): the spec states no reset value -/
  sentSync : Option Nat := none
deriving DecidableEq, Repr

/-- One time base (R327 to R334, 14). -/
structure TimeBase where
  /-- R327 (14). value in 2^-39 ns since the epoch [96 + carried remainder] -/
  val : Nat := 0
  /-- TB_RATE, R328 (14). RATE [32] -/
  rate : Int := 0
  /-- TB_STATUS.MODE, R328 (14). free-run [2] -/
  mode : Nat := 0
  /-- TB_STATUS.STATE (14). Table 14.1 state [3] -/
  st : Nat := 0
  /-- TB_STATUS.SYNC (14). synchronised [1] -/
  sync : Bool := true
  /-- TB_STATUS.SOURCE (14). domain in force: secondary [1] -/
  source : Bool := false
  /-- TB_STATUS.DISTRUST_P (14). primary distrusted [1] -/
  distP : Bool := false
  /-- TB_STATUS.DISTRUST_S (14). secondary distrusted [1] -/
  distS : Bool := false
  /-- TB_STATUS.STEP (14). TIME_STEP was raised [1] -/
  fStep : Bool := false
  /-- TB_STATUS.SWITCH (14). PRIMARY_SWITCH was raised [1] -/
  fSwitch : Bool := false
  /-- TB_STATUS.ASYM (14). an asymmetry event was raised [1] -/
  fAsym : Bool := false
  /-- TB_STATUS.FOLLOWS (14). source base in mode 2 [2] -/
  follows : Nat := 0
  /-- R328 (14). OFFSET, ns [64]; DESIGN CHOICE (log 3): the spec states no reset value -/
  followOff : Int := 0
  /-- TIMEBASE_CONFIG DOMAINS (14). primary instance [1]; DESIGN CHOICE (log 3): the spec states no reset value -/
  prim : Nat := 0
  /-- TIMEBASE_CONFIG DOMAINS (14). secondary instance [1]; DESIGN CHOICE (log 3): the spec states no reset value -/
  sec : Option Nat := none
  /-- R329 (14). LOCK_NS [32] -/
  lockNs : Nat := 100
  /-- R329 (14). STEP_NS, 10 us [32] -/
  stepNs : Nat := 10000
  /-- R329 (14). BW, mHz [16] -/
  bw : Nat := 250
  /-- R329 (14). HOLD_SYNC, s [16] -/
  holdSync : Nat := 1
  /-- R332 (14). REVERT [1] -/
  revert : Bool := true
  /-- TIMEBASE_CONFIG SERVO (14). DRAIN [1]; DESIGN CHOICE (log 3): the spec states no reset value -/
  drain : Bool := false
  /-- R333 (14). PD_THRESH [32] -/
  pdThresh : Nat := 100
  /-- R333 (14). OFFSET_THRESH [32] -/
  offThresh : Nat := 100
  /-- R334 (14). WINDOW, ms [32] -/
  window : Nat := 2000
  /-- R331 (14). last offsets to the primary, 2^-16 ns, newest first [8]; DESIGN CHOICE (log 3): the spec states no reset value -/
  oP : List Int := []
  /-- R331 (14). last offsets to the secondary [8]; DESIGN CHOICE (log 3): the spec states no reset value -/
  oS : List Int := []
  /-- TB_OFFSET_P (14). o_p, 2^-16 ns [32]; DESIGN CHOICE (log 3): the spec states no reset value -/
  meanP : Int := 0
  /-- TB_OFFSET_S (14). o_s [32]; DESIGN CHOICE (log 3): the spec states no reset value -/
  meanS : Int := 0
  /-- TB_DELTA (14). inter-domain offset, at the last instant both were valid [32]; DESIGN CHOICE (log 3): the spec states no reset value -/
  delta : Int := 0
  /-- R332 (14). carried offset of the domain in force; DESIGN CHOICE (log 3): the spec states no reset value -/
  carried : Int := 0
  /-- R332 (14). the carried offset is being removed [1]; DESIGN CHOICE (log 3): the spec states no reset value -/
  draining : Bool := false
  /-- R329 (14). consecutive Syncs within LOCK_NS; DESIGN CHOICE (log 3): the spec states no reset value -/
  goodRun : Nat := 0
  /-- R329 (14). consecutive Syncs beyond STEP_NS; DESIGN CHOICE (log 3): the spec states no reset value -/
  bigRun : Nat := 0
  /-- R329 (14). the first valid offset has been applied as a step [1]; DESIGN CHOICE (log 3): the spec states no reset value -/
  acquired : Bool := false
  /-- R329 (14). tick of entry into HOLDOVER; DESIGN CHOICE (log 3): the spec states no reset value -/
  holdSince : Nat := 0
  /-- R334 (14). tick at which validation began; DESIGN CHOICE (log 3): the spec states no reset value -/
  valSince : Nat := 0
  /-- R333 (14). reference offset of the primary; DESIGN CHOICE (log 3): the spec states no reset value -/
  refP : Int := 0
  /-- R333 (14). reference offset of the secondary; DESIGN CHOICE (log 3): the spec states no reset value -/
  refS : Int := 0
  /-- R334 (14). shift of the primary; DESIGN CHOICE (log 3): the spec states no reset value -/
  shiftP : Option Int := none
  /-- R334 (14). shift of the secondary; DESIGN CHOICE (log 3): the spec states no reset value -/
  shiftS : Option Int := none
  /-- R334 (14). tick since which the distrusted primary's shift has stayed within T; DESIGN CHOICE (log 3): the spec states no reset value -/
  cleanP : Option Nat := none
  /-- R334 (14). the same for the secondary; DESIGN CHOICE (log 3): the spec states no reset value -/
  cleanS : Option Nat := none
  /-- R332 (14). tick since which the primary has been valid and trusted again; DESIGN CHOICE (log 3): the spec states no reset value -/
  backSince : Option Nat := none
  /-- R333 (14). port on which the primary arrives; DESIGN CHOICE (log 3): the spec states no reset value -/
  portP : Option Nat := none
  /-- R333 (14). port on which the secondary arrives; DESIGN CHOICE (log 3): the spec states no reset value -/
  portS : Option Nat := none
deriving DecidableEq, Repr

/-- One time-scheduled output (R336, R337, 14). -/
structure Tso where
  /-- TSO_STATUS.ARMED (14). instants remain [1] -/
  armed : Bool := false
  /-- TSO_STATUS.LEVEL (14). level at the ball [1] -/
  level : Bool := false
  /-- TSO_STATUS.BASE (14). time base [2] -/
  base : Nat := 0
  /-- TSO_STATUS.FIRED (14). fired [1] -/
  fFired : Bool := false
  /-- TSO_STATUS.SKIPPED (14). TSO_SKIPPED was raised [1] -/
  fSkipped : Bool := false
  /-- TSO_CONFIG SCHEDULE (14). polarity [1]; DESIGN CHOICE (log 3): the spec states no reset value -/
  activeLow : Bool := false
  /-- TSO_CONFIG SCHEDULE (14). INHIBIT [1]; DESIGN CHOICE (log 3): the spec states no reset value -/
  inhibit : Bool := false
  /-- R336 (14). count, 0 unlimited [32]; DESIGN CHOICE (log 3): the spec states no reset value -/
  count : Nat := 0
  /-- R336 (14). first instant, ns [64]; DESIGN CHOICE (log 3): the spec states no reset value -/
  t1 : Nat := 0
  /-- R336 (14). period, ns [63]; DESIGN CHOICE (log 3): the spec states no reset value -/
  period : Nat := 0
  /-- R336 (14). width, ns [30]; DESIGN CHOICE (log 3): the spec states no reset value -/
  width : Nat := 0
  /-- R336 (14). next instant's index [32]; DESIGN CHOICE (log 3): the spec states no reset value -/
  j : Nat := 0
  /-- R336 (14). a schedule accepted while armed: base, polarity, options, count, t_1, P, W; DESIGN CHOICE (log 3): the spec states no reset value -/
  next : Option (List Nat) := none
  /-- R336 (14). the trailing edge that is due: base and instant on it, ns; DESIGN CHOICE (log 3): the spec states no reset value -/
  pulseEnd : Option (Nat × Nat) := none
  /-- TSO_FIRED (14). firings, wrapping [32]; DESIGN CHOICE (log 3): the spec states no reset value -/
  fired : BitVec 32 := 0
  /-- TSO_SKIP (14). skipped, wrapping [32]; DESIGN CHOICE (log 3): the spec states no reset value -/
  skip : BitVec 32 := 0
deriving DecidableEq, Repr

/-- An entry of a cyclic map (Table 4.10, 04). -/
structure CycEntry where
  /-- CYCLIC_MAP_DEFINE ENTRY (04). payload offset [16]; DESIGN CHOICE (log 3): the spec states no reset value -/
  off : Nat := 0
  /-- CYCLIC_MAP_DEFINE ENTRY (04). quantity [8]; DESIGN CHOICE (log 3): the spec states no reset value -/
  qty : Nat := 0
  /-- CYCLIC_MAP_DEFINE ENTRY (04). slot or group [16]; DESIGN CHOICE (log 3): the spec states no reset value -/
  tgt : Nat := 0
  /-- R93 (04). byte offset of the entry in its definition [16]; DESIGN CHOICE (log 3): the spec states no reset value -/
  at0 : Nat := 0
deriving DecidableEq, Repr

/-- One cyclic map (R89 to R93, 04). -/
structure CycMap where
  /-- R89 (04). defined [1]; DESIGN CHOICE (log 3): the spec states no reset value -/
  defined : Bool := false
  /-- R89 (04). enabled [1]; DESIGN CHOICE (log 3): the spec states no reset value -/
  enabled : Bool := false
  /-- R93 (04). an enable or disable waiting for its cycle start (TBASE0 ns); DESIGN CHOICE (log 3): the spec states no reset value -/
  enableDue : Option (Bool × Nat) := none
  /-- CYCLIC_MAP_DEFINE STREAM (04). destination MAC [48]; DESIGN CHOICE (log 3): the spec states no reset value -/
  mac : BitVec 48 := 0
  /-- CYCLIC_MAP_DEFINE STREAM (04). VLAN ID [16]; DESIGN CHOICE (log 3): the spec states no reset value -/
  vlan : Nat := 0
  /-- CYCLIC_MAP_DEFINE STREAM (04). PCP [8]; DESIGN CHOICE (log 3): the spec states no reset value -/
  pcp : Nat := 0
  /-- CYCLIC_MAP_DEFINE STREAM (04). port mask [8]; DESIGN CHOICE (log 3): the spec states no reset value -/
  ports : BitVec 4 := 0
  /-- CYCLIC_MAP_DEFINE STREAM (04). EtherType [16]; DESIGN CHOICE (log 3): the spec states no reset value -/
  etherType : Nat := 0
  /-- CYCLIC_MAP_DEFINE TIMING (04). period, ns [32]; DESIGN CHOICE (log 3): the spec states no reset value -/
  period : Nat := 0
  /-- CYCLIC_MAP_DEFINE TIMING (04). apply or sample offset, ns [32]; DESIGN CHOICE (log 3): the spec states no reset value -/
  off : Nat := 0
  /-- CYCLIC_MAP_DEFINE TIMING (04). launch offset, ns [32]; DESIGN CHOICE (log 3): the spec states no reset value -/
  launch : Nat := 0
  /-- CYCLIC_MAP_DEFINE TIMING (04). miss limit [4]; DESIGN CHOICE (log 3): the spec states no reset value -/
  missLimit : Nat := 0
  /-- R89 (04). entries [128]; DESIGN CHOICE (log 3): the spec states no reset value -/
  entries : List CycEntry := []
  /-- R91 (04). frames held: cycle time and payload [2 frames]; DESIGN CHOICE (log 3): the spec states no reset value -/
  held : List (Nat × List Byte) := []
  /-- R91, R330 (04, 14). cycle time last applied [64]; DESIGN CHOICE (log 3): the spec states no reset value -/
  lastApplied : Option Nat := none
  /-- R91 (04). consecutive misses [4]; DESIGN CHOICE (log 3): the spec states no reset value -/
  missRun : Nat := 0
  /-- Table 4.7 (04). cycle counter of the next frame [16]; DESIGN CHOICE (log 3): the spec states no reset value -/
  counter : BitVec 16 := 0
  /-- R92 (04). assembled frame waiting for its launch; DESIGN CHOICE (log 3): the spec states no reset value -/
  sample : Option (Nat × List Byte) := none
  /-- R91, R464 (04, 21). received, or sampled [64] -/
  received : Tally := 0
  /-- R91, R464 (04, 21). applied, or sent [64] -/
  applied : Tally := 0
  /-- R91, R464 (04, 21). duplicate, or unsent [64] -/
  duplicate : Tally := 0
  /-- R91, R464 (04, 21). out of window [64] -/
  outOfWindow : Tally := 0
  /-- R91, R464 (04, 21). late [64] -/
  late : Tally := 0
  /-- R91, R464 (04, 21). missed [64] -/
  missed : Tally := 0
deriving DecidableEq, Repr

/-- A filtering-database entry (R312, 14). -/
structure Fdb where
  /-- R312 (14). MAC address [48]; DESIGN CHOICE (log 3): the spec states no reset value -/
  mac : BitVec 48 := 0
  /-- R312 (14). VLAN ID [12]; DESIGN CHOICE (log 3): the spec states no reset value -/
  vid : Nat := 1
  /-- R312 (14). ports [5]; DESIGN CHOICE (log 3): the spec states no reset value -/
  ports : BitVec 5 := 0
  /-- R312 (14). tick at which a dynamic entry was last refreshed; DESIGN CHOICE (log 3): the spec states no reset value -/
  seen : Nat := 0
deriving DecidableEq, Repr

/-- A VLAN table entry (R313, 14). -/
structure Vlan where
  /-- R313 (14). VLAN ID [12] -/
  vid : Nat := 1
  /-- R339 (14). members [5] -/
  members : BitVec 5 := 0x1F
  /-- R339 (14). untagged egress [5] -/
  untagged : BitVec 5 := 0x1F
deriving DecidableEq, Repr

/-- The Backbone Switch, PTP, TBU and cyclic maps. -/
structure Net where
  /-- R312 (14). ETH0 to ETH3 and the internal port -/
  port : Vector NetPort 5 := Vector.replicate 5 {}
  /-- R320 (14). two shaped classes for each external port: 2p and 2p + 1 -/
  cbs : Vector Cbs 8 := Vector.replicate 8 {}
  /-- R318 (14). gate control of each external port -/
  gates : Vector Gates 4 := Vector.replicate 4 {}
  /-- R313, R339 (14). VLAN 1 only, all five ports untagged members [64] -/
  vlans : List Vlan := [{}]
  /-- R312 (14). static entries [256]; DESIGN CHOICE (log 3): the spec states no reset value -/
  fdbStatic : List Fdb := []
  /-- R312 (14). dynamic entries [2048]; DESIGN CHOICE (log 3): the spec states no reset value -/
  fdbDyn : List Fdb := []
  /-- R312 (14). AGE, s [20] -/
  age : Nat := 300
  /-- R310 (14). base MAC address [48]; DESIGN CHOICE (log 3): the spec states no reset value -/
  mac : BitVec 48 := 0
  /-- R311 (14). IPv4 address (0: none saved, the link-local address applies) [32]; DESIGN CHOICE (log 3): the spec states no reset value -/
  ip : BitVec 32 := 0
  /-- R311 (14). prefix length [6]; DESIGN CHOICE (log 3): the spec states no reset value -/
  prefixLen : Nat := 16
  /-- R311 (14). gateway [32]; DESIGN CHOICE (log 3): the spec states no reset value -/
  gateway : BitVec 32 := 0
  /-- R75 (04). Ruhity port [16] -/
  udpPort : Nat := 0x5A7A
  /-- R311 (14). management VLAN [12]; DESIGN CHOICE (log 3): the spec states no reset value -/
  mgmtVid : Nat := 0
  /-- R324 (14). PI0 and PI1 -/
  ptp : Vector PtpInst 2 := #v[{}, { domain := 20 }]
  /-- R327 (14). TBASE0 to TBASE3 -/
  tb : Vector TimeBase 4 := Vector.replicate 4 {}
  /-- R336 (14). TSO0 to TSO7 -/
  tso : Vector Tso 8 := Vector.replicate 8 {}
  /-- R89 (04). cyclic maps; DESIGN CHOICE (log 3): the spec states no reset value -/
  map : Vector CycMap 32 := Vector.replicate 32 {}
  /-- R326 (14). residences of two-step messages by port, type and identity, for their Follow_Up or Delay_Resp; DESIGN CHOICE (log 3): the spec states no reset value -/
  tcHeld : List (List Byte × Int) := []
  /-- R316, R317 (14). frames transmitted on ETH0 to ETH3, oldest first; the model's own field -/
  sent : List (Nat × NetFrame) := []
deriving DecidableEq, Repr

end Sys2Proof.Machine
end

