-- ==== Sys2Proof/Machine/State/Planner.lean ====
section
/-! DEFINITION.
State of the block: Motion Planner: axes, groups and the segment store.
Each field names the rule of spec/ that gives it.
A default is the value at reset; where the spec states none, log entry 3 names the value. -/

namespace Sys2Proof.Machine

/-- A 40-byte limits TLV (R145, R168, 07): units of the formats of Table 0.4. -/
structure Limits where
  /-- R145 (07). velocity limit, Q39.24 [63]; DESIGN CHOICE (log 3): the spec states no reset value -/
  v : Int := 0
  /-- R145 (07). acceleration limit, Q39.24 [63]; DESIGN CHOICE (log 3): the spec states no reset value -/
  a : Int := 0
  /-- R145 (07). deceleration limit, Q39.24 [63]; DESIGN CHOICE (log 3): the spec states no reset value -/
  d : Int := 0
  /-- R145 (07). jerk limit, Q47.16 [63]; DESIGN CHOICE (log 3): the spec states no reset value -/
  j : Int := 0
  /-- R145 (07). snap limit, Q47.16 [63]; DESIGN CHOICE (log 3): the spec states no reset value -/
  s : Int := 0
deriving DecidableEq, Repr

/-- A 24-byte quick-stop TLV (R145, R168, 07). -/
structure Quick where
  /-- R145 (07). quick-stop deceleration, Q39.24 [63]; DESIGN CHOICE (log 3): the spec states no reset value -/
  d : Int := 0
  /-- R145 (07). quick-stop jerk, Q47.16 [63]; DESIGN CHOICE (log 3): the spec states no reset value -/
  j : Int := 0
  /-- R145 (07). quick-stop snap, Q47.16 [63]; DESIGN CHOICE (log 3): the spec states no reset value -/
  s : Int := 0
deriving DecidableEq, Repr

/-- What PLAN_AXIS_CONFIG sets (R168, R169, 07). -/
structure PlanCfg where
  /-- R145 (07). motion limits; DESIGN CHOICE (log 3): the spec states no reset value -/
  limits : Limits := {}
  /-- R145 (07). quick-stop limits; DESIGN CHOICE (log 3): the spec states no reset value -/
  quick : Quick := {}
  /-- R153 (07). soft limits [2x63]; DESIGN CHOICE (log 3): the spec states no reset value -/
  soft : Option (Int × Int) := none
  /-- R154 (07). in-position window, Q47.16 [63]; DESIGN CHOICE (log 3): the spec states no reset value -/
  window : Int := 0
  /-- R142 (07). planner divider [7]; DESIGN CHOICE (log 3): the spec states no reset value -/
  divider : Nat := 1
  /-- Table 7.7 (07). default profile, S-curve when not given [2]; DESIGN CHOICE (log 3): the spec states no reset value -/
  profile : Nat := 1
deriving DecidableEq, Repr

/-- One segment of a profile (R146, 07): the constant derivatives at its start, counts and seconds. -/
structure ProfSeg where
  /-- Table 7.1 (07). segment number [4]; DESIGN CHOICE (log 3): the spec states no reset value -/
  no : Nat := 0
  /-- R148 (07). duration, planner periods [32]; DESIGN CHOICE (log 3): the spec states no reset value -/
  n : Nat := 0
  /-- R147, R148 (07). duration, seconds [>= 96]; DESIGN CHOICE (log 3): the spec states no reset value -/
  len : Rat := 0
  /-- R149 (07). it belongs to the entry phase [1]; DESIGN CHOICE (log 3): the spec states no reset value -/
  entry : Bool := false
  /-- R146, R144 (07). position at the start [>= 96]; DESIGN CHOICE (log 3): the spec states no reset value -/
  p0 : Rat := 0
  /-- R146 (07). velocity at the start [>= 96]; DESIGN CHOICE (log 3): the spec states no reset value -/
  v0 : Rat := 0
  /-- R146 (07). acceleration at the start [>= 96]; DESIGN CHOICE (log 3): the spec states no reset value -/
  a0 : Rat := 0
  /-- R146 (07). jerk at the start [>= 96]; DESIGN CHOICE (log 3): the spec states no reset value -/
  j0 : Rat := 0
  /-- R146 (07). snap [>= 96]; DESIGN CHOICE (log 3): the spec states no reset value -/
  s0 : Rat := 0
deriving DecidableEq, Repr

/-- The command a running profile carries out, kept for re-planning (R149, R167, 07). -/
structure MoveCmd where
  /-- R151 (07). 0 none, 1 position move, 2 jog, 3 stop [3]; DESIGN CHOICE (log 3): the spec states no reset value -/
  kind : Nat := 0
  /-- R148 (07). target position, Q47.16 [63]; DESIGN CHOICE (log 3): the spec states no reset value -/
  target : Int := 0
  /-- R150 (07). jog speed, Q39.24 [63]; DESIGN CHOICE (log 3): the spec states no reset value -/
  speed : Int := 0
  /-- R146 (07). profile kind [2]; DESIGN CHOICE (log 3): the spec states no reset value -/
  profile : Nat := 1
  /-- R145 (07). limits of the move; DESIGN CHOICE (log 3): the spec states no reset value -/
  limits : Limits := {}
  /-- Table 7.5 (07). stop mode [2]; DESIGN CHOICE (log 3): the spec states no reset value -/
  stopMode : Nat := 0
  /-- R143 (07). tick at which it was handed to the planner; DESIGN CHOICE (log 3): the spec states no reset value -/
  handed : Nat := 0
deriving DecidableEq, Repr

/-- The planner's state of one axis. -/
structure PlanAxis where
  /-- R169 (07). configuration, when one was given; DESIGN CHOICE (log 3): the spec states no reset value -/
  cfg : Option PlanCfg := none
  /-- PLAN_OVERRIDE (07). override factor, buffered in US1 [12] -/
  override : Buf := { active := 0x400, shadow := 0x400, armed := 0x400 }
  /-- PLAN_AX_STATUS.ACTIVITY (07). activity [3] -/
  activity : Nat := 0
  /-- PLAN_AX_STATUS.PROFILE (07). profile in force [2] -/
  profile : Nat := 0
  /-- PLAN_AX_STATUS.ENTRY (07). in the entry phase [1] -/
  entry : Bool := false
  /-- PLAN_AX_STATUS.SEGMENT (07). profile segment [4] -/
  segment : Nat := 0
  /-- PLAN_AX_STATUS.SOFT_LIMIT (07). the last jog ended at a soft limit [1] -/
  softLimit : Bool := false
  /-- PLAN_AX_STATUS.REVERSAL (07). the running move includes a reversal [1] -/
  reversal : Bool := false
  /-- PLAN_AX_STATUS.DONE (07). the last profile has ended [1] -/
  done : Bool := false
  /-- PLAN_AX_POS (07). position set-point, Q47.16 [63]; DESIGN CHOICE (log 3): the spec states no reset value -/
  pos : Int := 0
  /-- PLAN_AX_VEL (07). velocity set-point, Q39.24 [63]; DESIGN CHOICE (log 3): the spec states no reset value -/
  vel : Int := 0
  /-- PLAN_AX_ACC (07). acceleration set-point, Q39.24 [63]; DESIGN CHOICE (log 3): the spec states no reset value -/
  acc : Int := 0
  /-- PLAN_AX_TARGET (07). target of the running move, Q47.16 [63]; DESIGN CHOICE (log 3): the spec states no reset value -/
  target : Int := 0
  /-- R149 (07). the command being carried out; DESIGN CHOICE (log 3): the spec states no reset value -/
  cmd : MoveCmd := {}
  /-- R143, R152 (07). a command handed to the planner, for the next boundary; DESIGN CHOICE (log 3): the spec states no reset value -/
  next : Option MoveCmd := none
  /-- R146 (07). profile segments still to run, the running one first; DESIGN CHOICE (log 3): the spec states no reset value -/
  segs : List ProfSeg := []
  /-- R146 (07). planner periods into the running segment [32]; DESIGN CHOICE (log 3): the spec states no reset value -/
  tau : Nat := 0
  /-- R154 (07). tick since which the following error has been inside the window, after the profile's end; DESIGN CHOICE (log 3): the spec states no reset value -/
  windowSince : Option Nat := none
  /-- R144 (07). tick of its last planner boundary; DESIGN CHOICE (log 3): the spec states no reset value -/
  boundary : Nat := 0
  /-- R153 (07). the running jog is planned with a soft limit as its target [1]; DESIGN CHOICE (log 3): the spec states no reset value -/
  jogLimit : Bool := false
  /-- R142, R155 (07). outer-loop sample, modulo the divider, at which its planner boundaries fall; DESIGN CHOICE (log 3): the spec states no reset value -/
  phase : Nat := 0
deriving DecidableEq, Repr

/-- A planner segment in a group queue: head and values (Tables 7.3 and 7.4, 07). -/
structure SegEntry where
  /-- Table 7.3 (07). 1 line, 2 arc, 3 spline point, 4 PVT point, 5 dwell [8]; DESIGN CHOICE (log 3): the spec states no reset value -/
  kind : Nat := 0
  /-- Table 7.3 (07). entries used, head included [8]; DESIGN CHOICE (log 3): the spec states no reset value -/
  used : Nat := 1
  /-- Table 7.3 (07). flags [8]; DESIGN CHOICE (log 3): the spec states no reset value -/
  flags : BitVec 8 := 0
  /-- Table 7.3 (07). profile [8]; DESIGN CHOICE (log 3): the spec states no reset value -/
  profile : Nat := 0xFF
  /-- Table 7.3 (07). segment identifier [32]; DESIGN CHOICE (log 3): the spec states no reset value -/
  ident : Nat := 0
  /-- Table 7.3 (07). path velocity limit, Q39.24 [64]; DESIGN CHOICE (log 3): the spec states no reset value -/
  vlimit : Int := 0
  /-- Table 7.3 (07). blend tolerance, Q47.16 [64]; DESIGN CHOICE (log 3): the spec states no reset value -/
  blend : Int := 0
  /-- Table 7.3 (07). arc turns [8]; DESIGN CHOICE (log 3): the spec states no reset value -/
  turns : Nat := 0
  /-- Table 7.3 (07). PVT and dwell: duration, planner periods [32]; DESIGN CHOICE (log 3): the spec states no reset value -/
  dur : Nat := 0
  /-- R169 (07). start position of each member, Q47.16; DESIGN CHOICE (log 3): the spec states no reset value -/
  start : List Int := []
  /-- Table 7.4 (07). end position of each member (absolute); DESIGN CHOICE (log 3): the spec states no reset value -/
  ends : List Int := []
  /-- Table 7.4 (07). arc: centre of members 0 and 1; DESIGN CHOICE (log 3): the spec states no reset value -/
  centre : List Int := []
  /-- Table 7.4 (07). PVT: velocity of each member, Q39.24; DESIGN CHOICE (log 3): the spec states no reset value -/
  vels : List Int := []
  /-- R159 (07). spline or PVT: the cumulative chord table of its curve [32 or 96]; DESIGN CHOICE (log 3): the spec states no reset value -/
  chords : List Rat := []
  /-- R157, R158, R159 (07). path length; DESIGN CHOICE (log 3): the spec states no reset value -/
  len : Rat := 0
  /-- R159 (07). spline: the three control points before it, oldest first; DESIGN CHOICE (log 3): the spec states no reset value -/
  ctrl : List (List Int) := []
  /-- R160 (07). PVT: velocity of each member at the start of its interval, Q39.24; DESIGN CHOICE (log 3): the spec states no reset value -/
  vel0 : List Int := []
deriving DecidableEq, Repr

/-- One axis group (R155, 07). -/
structure PlanGroup where
  /-- PLAN_GRP_STATUS.DEFINED (07). defined [1] -/
  defined : Bool := false
  /-- R155 (07). member slots [8x6]; DESIGN CHOICE (log 3): the spec states no reset value -/
  members : List Nat := []
  /-- R155 (07). path members, 2 or 3 [2]; DESIGN CHOICE (log 3): the spec states no reset value -/
  pathCount : Nat := 2
  /-- R155 (07). weights, Q16.16 [8x32]; DESIGN CHOICE (log 3): the spec states no reset value -/
  weights : List Nat := []
  /-- R155 (07). path limits; DESIGN CHOICE (log 3): the spec states no reset value -/
  limits : Limits := {}
  /-- R155 (07). quick-stop limits; DESIGN CHOICE (log 3): the spec states no reset value -/
  quick : Quick := {}
  /-- R155 (07). profile kind [2]; DESIGN CHOICE (log 3): the spec states no reset value -/
  profile : Nat := 1
  /-- R158, Table 7.7 (07). arc tolerance, Q47.16 [63]; DESIGN CHOICE (log 3): the spec states no reset value -/
  arcTol : Int := 65536
  /-- PLAN_GRP_QUEUE.CAPACITY (07). queue length in entries [13] -/
  capacity : Nat := 0
  /-- R163 (07). first block of its run in the segment store [10]; DESIGN CHOICE (log 3): the spec states no reset value -/
  storeAt : Nat := 0
  /-- PLAN_OVERRIDE (07). override factor, buffered in US1 [12] -/
  override : Buf := { active := 0x400, shadow := 0x400, armed := 0x400 }
  /-- PLAN_GRP_STATUS.ACTIVITY (07). activity [3] -/
  activity : Nat := 0
  /-- PLAN_GRP_STATUS.BLENDING (07). inside a corner blend [1] -/
  blending : Bool := false
  /-- PLAN_GRP_STATUS.STARVED (07). QUEUE_STARVED was raised [1] -/
  starved : Bool := false
  /-- PLAN_GRP_STATUS.FAULT_STOP (07). GROUP_FAULT_STOP was raised [1] -/
  faultStop : Bool := false
  /-- R161 (07). queued segments, the running one first; DESIGN CHOICE (log 3): the spec states no reset value -/
  queue : List SegEntry := []
  /-- R161 (07). the head of the queue is running [1]; DESIGN CHOICE (log 3): the spec states no reset value -/
  running : Bool := false
  /-- GROUP_STATUS PATH (07). distance into the running segment; DESIGN CHOICE (log 3): the spec states no reset value -/
  path : Rat := 0
  /-- R156 (07). path velocity at its last boundary; DESIGN CHOICE (log 3): the spec states no reset value -/
  pathVel : Rat := 0
  /-- R156 (07). path acceleration at its last boundary; DESIGN CHOICE (log 3): the spec states no reset value -/
  pathAcc : Rat := 0
  /-- R160 (07). planner periods into a PVT interval or a dwell [32]; DESIGN CHOICE (log 3): the spec states no reset value -/
  tau : Nat := 0
  /-- PLAN_GRP_SEG_ID (07). identifier of the running segment [32]; DESIGN CHOICE (log 3): the spec states no reset value -/
  segId : Nat := 0
  /-- R165 (07). stop in progress [2]; DESIGN CHOICE (log 3): the spec states no reset value -/
  stopMode : Option Nat := none
  /-- R143, R165 (07). stop handed to the planner: mode, and tick at which it was; DESIGN CHOICE (log 3): the spec states no reset value -/
  stopDue : Option (Nat × Nat) := none
  /-- R143, R166 (07). tick at which GROUP_RESUME was handed to the planner, until it takes effect; DESIGN CHOICE (log 3): the spec states no reset value -/
  resumeDue : Option Nat := none
  /-- R146, R161 (07). profile of the path still to run, by distance from its plan's origin; DESIGN CHOICE (log 3): the spec states no reset value -/
  segs : List ProfSeg := []
  /-- R146 (07). seconds into the first of them; DESIGN CHOICE (log 3): the spec states no reset value -/
  clock : Rat := 0
  /-- R161 (07). place of the plan's origin, as a distance into the running segment; DESIGN CHOICE (log 3): the spec states no reset value -/
  base : Rat := 0
  /-- R149, R161, R167 (07). the path is to be planned again at the next boundary [1]; DESIGN CHOICE (log 3): the spec states no reset value -/
  stale : Bool := false
  /-- R165 (07). a PVT interval is followed along its curve, after a stop in it [1]; DESIGN CHOICE (log 3): the spec states no reset value -/
  along : Bool := false
  /-- R166 (07). a member has left service and the group stops for it [1]; DESIGN CHOICE (log 3): the spec states no reset value -/
  lost : Bool := false
  /-- R157 (07). length of the running segment; DESIGN CHOICE (log 3): the spec states no reset value -/
  pathLen : Rat := 0
  /-- R144 (07). tick of its last planner boundary; DESIGN CHOICE (log 3): the spec states no reset value -/
  boundary : Nat := 0
  /-- R155 (07). GROUP_START has taken effect and the first boundary is awaited [1]; DESIGN CHOICE (log 3): the spec states no reset value -/
  startPend : Bool := false
deriving DecidableEq, Repr

/-- An allocated run of the segment store (R163, 07). -/
structure StoreRun where
  /-- R163 (07). first block of 16 entries [10]; DESIGN CHOICE (log 3): the spec states no reset value -/
  atTime : Nat := 0
  /-- R163 (07). length in blocks [10]; DESIGN CHOICE (log 3): the spec states no reset value -/
  blocks : Nat := 0
  /-- R163 (07). 0 + g planner group, 32 + t cam table, 64 + u compare unit; the model's own field -/
  owner : Nat := 0
deriving DecidableEq, Repr

/-- The Motion Planner and the segment store. -/
structure Planner where
  /-- R142 (07). axes; DESIGN CHOICE (log 3): the spec states no reset value -/
  ax : Vector PlanAxis 64 := Vector.replicate 64 {}
  /-- R155 (07). groups G0 to G15; DESIGN CHOICE (log 3): the spec states no reset value -/
  grp : Vector PlanGroup 16 := Vector.replicate 16 {}
  /-- R163 (07). allocated runs of the segment store, 1024 blocks in all; DESIGN CHOICE (log 3): the spec states no reset value -/
  store : List StoreRun := []
deriving DecidableEq, Repr

end Sys2Proof.Machine
end

