-- ==== Sys2Proof/Machine/State/Ports.lean ====
section
/-! DEFINITION.
State of the block: Position Ports, compare units, latches and the snapshot unit.
Each field names the rule of spec/ that gives it.
A default is the value at reset; where the spec states none, log entry 3 names the value. -/

namespace Sys2Proof.Machine

/-- SSI layout of a port (R224, Table 10.10, 10). -/
structure SsiCfg where
  /-- R224 (10). LEAD [8]; DESIGN CHOICE (log 3): the spec states no reset value -/
  lead : Nat := 0
  /-- R224 (10). MT [8]; DESIGN CHOICE (log 3): the spec states no reset value -/
  mt : Nat := 0
  /-- R224 (10). ST [8]; DESIGN CHOICE (log 3): the spec states no reset value -/
  st : Nat := 1
  /-- R224 (10). STAT [8]; DESIGN CHOICE (log 3): the spec states no reset value -/
  stat : Nat := 0
  /-- Table 10.10 (10). error-polarity mask [8]; DESIGN CHOICE (log 3): the spec states no reset value -/
  errPol : BitVec 8 := 0
  /-- R224 (10). CRC_LEN [8]; DESIGN CHOICE (log 3): the spec states no reset value -/
  crcLen : Nat := 0
  /-- R224 (10). CRC_POLY [8]; DESIGN CHOICE (log 3): the spec states no reset value -/
  crcPoly : Nat := 0
  /-- Table 10.10 (10). clock, kHz [16]; DESIGN CHOICE (log 3): the spec states no reset value -/
  clock : Nat := 100
  /-- R224 (10). LINE_DELAY, ns [16]; DESIGN CHOICE (log 3): the spec states no reset value -/
  delay : Nat := 0
  /-- R224 (10). TM, us [8]; DESIGN CHOICE (log 3): the spec states no reset value -/
  tm : Nat := 1
  /-- Table 10.5 (10). SSI_ERR_LIMIT [4]; DESIGN CHOICE (log 3): the spec states no reset value -/
  errLimit : Nat := 3
  /-- R225 (10). POLL, us [16]; DESIGN CHOICE (log 3): the spec states no reset value -/
  poll : Nat := 10
deriving DecidableEq, Repr

/-- Sin/cos settings of a port (R227, Table 10.10, 10). -/
structure SinCfg where
  /-- R227 (10). AMP_MIN, mV [16]; DESIGN CHOICE (log 3): the spec states no reset value -/
  ampMin : Nat := 0
  /-- R227 (10). AMP_MAX, mV [16]; DESIGN CHOICE (log 3): the spec states no reset value -/
  ampMax : Nat := 0xFFFF
  /-- Table 10.10 (10). sine offset, mV [16]; DESIGN CHOICE (log 3): the spec states no reset value -/
  offS : Int := 0
  /-- Table 10.10 (10). cosine offset, mV [16]; DESIGN CHOICE (log 3): the spec states no reset value -/
  offC : Int := 0
  /-- Table 10.10 (10). sine gain, Q2.14 [16]; DESIGN CHOICE (log 3): the spec states no reset value -/
  gainS : Int := 16384
  /-- Table 10.10 (10). cosine gain, Q2.14 [16]; DESIGN CHOICE (log 3): the spec states no reset value -/
  gainC : Int := 16384
deriving DecidableEq, Repr

/-- What the PP_ configuration opcodes set (Table 10.10, 10). -/
structure PortCfg where
  /-- R220 (10). FILTER [6]; DESIGN CHOICE (log 3): the spec states no reset value -/
  filter : Nat := 0
  /-- Table 10.10 OPTIONS (10). options [7]; DESIGN CHOICE (log 3): the spec states no reset value -/
  opts : BitVec 8 := 0
  /-- R228 (10). modulus M, 2^32 - 1 after reset [32] -/
  modulus : Nat := 4294967295
  /-- R246 (10). sensor delay, ns [32]; DESIGN CHOICE (log 3): the spec states no reset value -/
  delay : Nat := 0
  /-- R224 (10). SSI layout; DESIGN CHOICE (log 3): the spec states no reset value -/
  ssi : SsiCfg := {}
  /-- R227 (10). sin/cos settings; DESIGN CHOICE (log 3): the spec states no reset value -/
  sincos : SinCfg := {}
  /-- PP_INDEX_CONFIG (10). index policy [8]; DESIGN CHOICE (log 3): the spec states no reset value -/
  idxPolicy : Nat := 0
  /-- R232 (10). GATE [8]; DESIGN CHOICE (log 3): the spec states no reset value -/
  gate : Nat := 0
  /-- R234 (10). reference option [1]; DESIGN CHOICE (log 3): the spec states no reset value -/
  reference : Bool := false
  /-- R233 (10). INDEX_POS [32]; DESIGN CHOICE (log 3): the spec states no reset value -/
  idxPos : Nat := 0
  /-- R233 (10). TOL [32]; DESIGN CHOICE (log 3): the spec states no reset value -/
  tol : Nat := 0
  /-- R233 (10). SPREAD [32]; DESIGN CHOICE (log 3): the spec states no reset value -/
  spread : Nat := 0
  /-- R236 (10). TIMEOUT 10 ms [16] -/
  timeoutMs : Nat := 10
  /-- R236 (10). PERIOD_EDGES 4 [4] -/
  periodEdges : Nat := 4
  /-- R236 (10). T_W 1 ms, in us [16] -/
  tw : Nat := 1000
  /-- R236 (10). V_LO 20,000 counts/s, Q39.24 [64] -/
  vLo : Int := 335544320000
  /-- R236 (10). V_HI 80,000 counts/s, Q39.24 [64] -/
  vHi : Int := 1342177280000
  /-- R238 (10). enabled causes: every cause but 6 [8] -/
  lossMask : BitVec 8 := 0xDF
  /-- R238 (10). UNRES_LIMIT [8] -/
  unresLimit : Nat := 1
  /-- Table 10.5 (10). FREEZE_MS [8]; DESIGN CHOICE (log 3): the spec states no reset value -/
  freezeMs : Nat := 1
  /-- Table 10.5 (10). FREEZE_SPEED, Q39.24 [64]; DESIGN CHOICE (log 3): the spec states no reset value -/
  freezeSpeed : Int := 0
deriving DecidableEq, Repr

/-- One Position Port. -/
structure Port where
  /-- PP_STATUS.MODE (10). mode [3] -/
  mode : Nat := 0
  /-- R236, R238 (10). configuration -/
  cfg : PortCfg := {}
  /-- PP_CIR, R228 (10). count-in-revolution c [32] -/
  cir : Nat := 0
  /-- PP_REV, R228 (10). revolution counter r [32] -/
  rev : Int := 0
  /-- PP_STATUS.REFERENCED (10). position referenced [1] -/
  referenced : Bool := false
  /-- R234 (10). the next index is a reference index [1]; DESIGN CHOICE (log 3): the spec states no reset value -/
  refPending : Bool := false
  /-- PP_STATUS.LOSS_ACTIVE (10). a loss cause is present [1] -/
  lossActive : Bool := false
  /-- PP_STATUS.CAUSE (10). last loss cause [4] -/
  cause : Nat := 0
  /-- PP_STATUS.LOSS (10). FEEDBACK_LOSS was raised [1] -/
  fLoss : Bool := false
  /-- PP_STATUS.SAT_EVENT (10). REV_SATURATED was raised [1] -/
  fSat : Bool := false
  /-- PP_STATUS.INDEX (10). INDEX_SEEN was raised [1] -/
  fIndex : Bool := false
  /-- PP_STATUS.STANDSTILL (10). standstill rule in force [1] -/
  standstill : Bool := false
  /-- PP_STATUS.REVERSAL (10). reversal rule in force [1] -/
  reversal : Bool := false
  /-- PP_STATUS.DIR (10). direction of the last resolved count [1] -/
  dirRev : Bool := false
  /-- PP_STATUS.HALL_SKIP (10). HALL_SKIP was raised [1] -/
  fHallSkip : Bool := false
  /-- PP_INDEX_DISC (10). last discrepancy d [32]; DESIGN CHOICE (log 3): the spec states no reset value -/
  disc : Int := 0
  /-- PP_IDX_HELD (10). held correction H [32]; DESIGN CHOICE (log 3): the spec states no reset value -/
  held : Int := 0
  /-- R233 (10). stride s [32]; DESIGN CHOICE (log 3): the spec states no reset value -/
  stride : Nat := 1
  /-- R233 (10). counts of travel since the last applied correction [32]; DESIGN CHOICE (log 3): the spec states no reset value -/
  travel : Nat := 0
  /-- PP_SINCOS (10). last sine code [16]; DESIGN CHOICE (log 3): the spec states no reset value -/
  sinRaw : Int := 0
  /-- PP_SINCOS (10). last cosine code [16]; DESIGN CHOICE (log 3): the spec states no reset value -/
  cosRaw : Int := 0
  /-- R227 (10). phase of the last good sample [12]; DESIGN CHOICE (log 3): the spec states no reset value -/
  phase : Option Int := none
  /-- Table 10.5 cause 5 (10). consecutive samples with amplitude out of band; DESIGN CHOICE (log 3): the spec states no reset value -/
  sinBad : Nat := 0
  /-- PP_SSI (10). last raw frame [64]; DESIGN CHOICE (log 3): the spec states no reset value -/
  ssiRaw : BitVec 64 := 0
  /-- R226 (10). absolute value of the last good frame (none: the next is initial) [45]; DESIGN CHOICE (log 3): the spec states no reset value -/
  ssiLast : Option Int := none
  /-- R226 (10). absolute offset O [64]; DESIGN CHOICE (log 3): the spec states no reset value -/
  ssiOff : Int := 0
  /-- Table 10.5 (10). consecutive bad frames [4]; DESIGN CHOICE (log 3): the spec states no reset value -/
  ssiBad : Nat := 0
  /-- R224 (10). ns of the first falling clock edge of the frame under way; DESIGN CHOICE (log 3): the spec states no reset value -/
  ssiStart : Option Nat := none
  /-- R224 (10). ns of the end of the last frame; DESIGN CHOICE (log 3): the spec states no reset value -/
  ssiEnd : Nat := 0
  /-- R225 (10). ns of the start of the last frame; DESIGN CHOICE (log 3): the spec states no reset value -/
  ssiPoll : Nat := 0
  /-- R226, R230 (10). absolute value of the last good frame, kept through a loss [45]; DESIGN CHOICE (log 3): the spec states no reset value -/
  ssiAbs : Option Int := none
  /-- Table 10.5 cause 4 (10). ns since which the Hall code has been illegal; DESIGN CHOICE (log 3): the spec states no reset value -/
  illegalSince : Option Nat := none
  /-- R236 (10). ns of the last speed evaluation; DESIGN CHOICE (log 3): the spec states no reset value -/
  evalAt : Nat := 0
  /-- R220 (10). accepted level of A [1]; DESIGN CHOICE (log 3): the spec states no reset value -/
  lineA : Bool := false
  /-- R220 (10). accepted level of B [1]; DESIGN CHOICE (log 3): the spec states no reset value -/
  lineB : Bool := false
  /-- R220 (10). accepted level of Z [1]; DESIGN CHOICE (log 3): the spec states no reset value -/
  lineZ : Bool := false
  /-- R220 (10). accepted level of C [1]; DESIGN CHOICE (log 3): the spec states no reset value -/
  lineC : Bool := false
  /-- R222 (10). direction-line changes with their timestamps, newest first; DESIGN CHOICE (log 3): the spec states no reset value -/
  dirLevels : List (Nat × Bool) := []
  /-- R232 (10). the qualified index is active [1]; DESIGN CHOICE (log 3): the spec states no reset value -/
  idxActive : Bool := false
  /-- R223 (10). last legal Hall state [3]; DESIGN CHOICE (log 3): the spec states no reset value -/
  hallRef : Option (BitVec 3) := none
  /-- Table 10.2, R464 (10, 21). EDGE_FWD [64] -/
  edgeFwd : Tally := 0
  /-- Table 10.2, R464 (10, 21). EDGE_REV [64] -/
  edgeRev : Tally := 0
  /-- Table 10.2, R464 (10, 21). UNRESOLVED [64] -/
  unresolved : Tally := 0
  /-- Table 10.2, R464 (10, 21). OVR_FWD [64] -/
  ovrFwd : Tally := 0
  /-- Table 10.2, R464 (10, 21). OVR_REV [64] -/
  ovrRev : Tally := 0
  /-- Table 10.2, R464 (10, 21). IDX_DUE_POS [64] -/
  idxDuePos : Tally := 0
  /-- Table 10.2, R464 (10, 21). IDX_DUE_NEG [64] -/
  idxDueNeg : Tally := 0
  /-- Table 10.2, R464 (10, 21). IDX_APP_POS [64] -/
  idxAppPos : Tally := 0
  /-- Table 10.2, R464 (10, 21). IDX_APP_NEG [64] -/
  idxAppNeg : Tally := 0
  /-- Table 10.2, R464 (10, 21). IDX_DROP_POS [64] -/
  idxDropPos : Tally := 0
  /-- Table 10.2, R464 (10, 21). IDX_DROP_NEG [64] -/
  idxDropNeg : Tally := 0
  /-- Table 10.2, R464 (10, 21). IDX_IGNORED [64] -/
  idxIgnored : Tally := 0
  /-- Table 10.2, R464 (10, 21). PRESET_POS [64] -/
  presetPos : Tally := 0
  /-- Table 10.2, R464 (10, 21). PRESET_NEG [64] -/
  presetNeg : Tally := 0
  /-- R236 (10). timestamps (ns) of resolved counts of the last 10 s with the counts, signed, newest first; DESIGN CHOICE (log 3): the spec states no reset value -/
  stamps : List (Nat × Int) := []
  /-- R236, R237 (10). resolved counts since standstill or reversal; DESIGN CHOICE (log 3): the spec states no reset value -/
  sinceStop : Nat := 0
  /-- PP_SPEED (10). speed, Q39.24 counts/s [63]; DESIGN CHOICE (log 3): the spec states no reset value -/
  speed : Int := 0
  /-- Table 10.5 cause 8 (10). bookings to UNRESOLVED within 10 ms: ns and counts; DESIGN CHOICE (log 3): the spec states no reset value -/
  unresAt : List (Nat × Nat) := []
  /-- R239 (10). loss causes present now [8]; DESIGN CHOICE (log 3): the spec states no reset value -/
  causesNow : BitVec 8 := 0
  /-- Table 10.5 cause 6 (10). ns of the last change of position; DESIGN CHOICE (log 3): the spec states no reset value -/
  lastMove : Nat := 0
  /-- R246 (10). 1 ms of history: timestamp (ns), position in counts, and whether the frame or sample was good, newest first; DESIGN CHOICE (log 3): the spec states no reset value -/
  hist : List (Nat × Int × Bool) := []
  /-- R239 (10). ns at which each loss cause was last present; DESIGN CHOICE (log 3): the spec states no reset value -/
  absentAt : Vector Nat 8 := Vector.replicate 8 0
  /-- Table 10.5 cause 8 (10). ns up to which UNRESOLVED has grown by its limit within 10 ms; DESIGN CHOICE (log 3): the spec states no reset value -/
  unresUntil : Nat := 0
deriving DecidableEq, Repr

/-- A compare entry (Table 10.6, 10). -/
structure CmpEntry where
  /-- Table 10.6 (10). kind byte as written (0xFF: never written) [8]; DESIGN CHOICE (log 3): the spec states no reset value -/
  kind : Nat := 0xFF
  /-- Table 10.6 (10). flags [8]; DESIGN CHOICE (log 3): the spec states no reset value -/
  flags : BitVec 8 := 0
  /-- Table 10.6 (10). pulse width W, FB periods [16]; DESIGN CHOICE (log 3): the spec states no reset value -/
  width : Nat := 0
  /-- Table 10.6 (10). repeat count n [32]; DESIGN CHOICE (log 3): the spec states no reset value -/
  reps : Nat := 0
  /-- Table 10.6 (10). position P, Q47.16 [64]; DESIGN CHOICE (log 3): the spec states no reset value -/
  p : Int := 0
  /-- Table 10.6 (10). interval I, Q47.16 [64]; DESIGN CHOICE (log 3): the spec states no reset value -/
  interval : Int := 0
deriving DecidableEq, Repr

/-- An action on its way to the output of a compare unit (R243, 10). -/
structure CmpEdge where
  /-- R243 (10). ns of its output edge; DESIGN CHOICE (log 3): the spec states no reset value -/
  atTime : Nat := 0
  /-- Table 10.6 (10). action [2]; DESIGN CHOICE (log 3): the spec states no reset value -/
  action : Nat := 0
  /-- Table 10.6 (10). pulse width, FB periods [16]; DESIGN CHOICE (log 3): the spec states no reset value -/
  width : Nat := 0
deriving DecidableEq, Repr

/-- One compare unit (R241, 10). -/
structure Compare where
  /-- PCU_STATUS.PORT (10). watched port [5] -/
  port : Nat := 0
  /-- R241 (10). a list is allocated [1]; DESIGN CHOICE (log 3): the spec states no reset value -/
  defined : Bool := false
  /-- R241 (10). list length [11]; DESIGN CHOICE (log 3): the spec states no reset value -/
  length : Nat := 0
  /-- R241 (10). entries written, by index [1024]; DESIGN CHOICE (log 3): the spec states no reset value -/
  entries : List (Nat × CmpEntry) := []
  /-- PCU_STATUS.HEAD (10). head entry [11] -/
  head : Nat := 0
  /-- R242 (10). repetitions of the head already fired or skipped [32]; DESIGN CHOICE (log 3): the spec states no reset value -/
  rep : Nat := 0
  /-- PCU_STATUS.DONE (10). a one-shot list has ended [1] -/
  done : Bool := false
  /-- PCU_STATUS.HIT (10). fired [1] -/
  fHit : Bool := false
  /-- PCU_STATUS.SKIPPED (10). an entry was skipped [1] -/
  fSkipped : Bool := false
  /-- PCU_STATUS.MERGED (10). pulses merged [1] -/
  fMerged : Bool := false
  /-- PCU_STATUS.OUTPUT (10). level at the pin before INVERT [1] -/
  output : Bool := false
  /-- R243 (10). ns at which the running pulse ends; DESIGN CHOICE (log 3): the spec states no reset value -/
  pulseEnd : Option Nat := none
  /-- R243 (10). actions whose output edge is still to come, in order; DESIGN CHOICE (log 3): the spec states no reset value -/
  edges : List CmpEdge := []
  /-- PCU_STATUS.MODULO (10). modulo mode [1] -/
  modulo : Bool := false
  /-- PCU_STATUS.CYCLIC (10). cyclic list [1] -/
  cyclic : Bool := false
  /-- PCU_HITS (10). firings, wrapping [32]; DESIGN CHOICE (log 3): the spec states no reset value -/
  hits : BitVec 32 := 0
  /-- PCU_MERGED (10). merges, wrapping [32]; DESIGN CHOICE (log 3): the spec states no reset value -/
  merged : BitVec 32 := 0
  /-- PCU_CTRL (10). ENABLE, FORCE, LEVEL, INVERT, buffered in US4 [4] -/
  ctrl : Buf := {}
deriving DecidableEq, Repr

/-- A capture source (Table 10.7, 10). -/
structure Source107 where
  /-- Table 10.7 (10). source code [3]; DESIGN CHOICE (log 3): the spec states no reset value -/
  code : Nat := 0
  /-- Table 10.7 (10). selection [8]; DESIGN CHOICE (log 3): the spec states no reset value -/
  sel : Nat := 0
  /-- Table 10.10 (10). edges [2]; DESIGN CHOICE (log 3): the spec states no reset value -/
  edges : Nat := 1
  /-- Table 10.10 TIME (10). first instant, TBASE0 ns [64]; DESIGN CHOICE (log 3): the spec states no reset value -/
  first : Nat := 0
  /-- Table 10.10 TIME (10). period, ns [64]; DESIGN CHOICE (log 3): the spec states no reset value -/
  period : Nat := 0
  /-- R245 (10). OFFSET, ns [32]; DESIGN CHOICE (log 3): the spec states no reset value -/
  offset : Int := 0
  /-- Table 10.7 code 3 (10). next instant of a network-time source, TBASE0 ns [64]; DESIGN CHOICE (log 3): the spec states no reset value -/
  nextAt : Option Nat := none
deriving DecidableEq, Repr

/-- One capture (R246, Table 10.10 LATCH_READ, 10). -/
structure Capture where
  /-- R246 (10). position [64]; DESIGN CHOICE (log 3): the spec states no reset value -/
  pos : Int := 0
  /-- LATCH_READ (10). event instant, TBASE0 ns [64]; DESIGN CHOICE (log 3): the spec states no reset value -/
  atTime : Nat := 0
  /-- LATCH_READ (10). sequence [16]; DESIGN CHOICE (log 3): the spec states no reset value -/
  seq : Nat := 0
  /-- LATCH_READ (10). source [8]; DESIGN CHOICE (log 3): the spec states no reset value -/
  source : Nat := 0
  /-- LATCH_READ (10). valid [1]; DESIGN CHOICE (log 3): the spec states no reset value -/
  valid : Bool := false
  /-- R247 (10). capture instant, device ns [64]; DESIGN CHOICE (log 3): the spec states no reset value -/
  t : Int := 0
deriving DecidableEq, Repr

/-- An event whose capture is not formed yet (R245, R246, 10). -/
structure LatchDue where
  /-- R245 (10). event instant, TBASE0 ns [64]; DESIGN CHOICE (log 3): the spec states no reset value -/
  atTime : Nat := 0
  /-- R245 (10). capture instant, device ns [64]; DESIGN CHOICE (log 3): the spec states no reset value -/
  t : Int := 0
  /-- Table 10.7 (10). source code [8]; DESIGN CHOICE (log 3): the spec states no reset value -/
  source : Nat := 0
  /-- R245 (10). capture instant, TBASE0 ns [64]; DESIGN CHOICE (log 3): the spec states no reset value -/
  inst : Int := 0
deriving DecidableEq, Repr

/-- One latch unit (R245 to R247, 10). -/
structure Latch where
  /-- LU_STATUS.ENABLED (10). accepts events [1] -/
  enabled : Bool := false
  /-- LU_STATUS.PORT (10). captured port [5] -/
  port : Nat := 0
  /-- LU_STATUS.SOURCE (10). source -/
  src : Source107 := {}
  /-- LU_STATUS.LOST (10). a capture was discarded [1] -/
  fLost : Bool := false
  /-- R246 (10). events waiting for their capture; DESIGN CHOICE (log 3): the spec states no reset value -/
  due : List LatchDue := []
  /-- LU_STATUS.HELD, R247 (10). captures held, oldest first [16] -/
  caps : List Capture := []
  /-- LATCH_READ (10). next sequence [16]; DESIGN CHOICE (log 3): the spec states no reset value -/
  seq : BitVec 16 := 0
  /-- LATCH_READ LOST (10). lost since the previous read [32]; DESIGN CHOICE (log 3): the spec states no reset value -/
  lost : Nat := 0
  /-- R247 (10). capture instant and position of its latest valid capture of the present port [64 + 64]; DESIGN CHOICE (log 3): the spec states no reset value -/
  lastValid : Option (Int × Int) := none
deriving DecidableEq, Repr

/-- An entry of a snapshot record (Table 10.10, 10). -/
structure SnapEntry where
  /-- SNAPSHOT_READ (10). slot [8]; DESIGN CHOICE (log 3): the spec states no reset value -/
  slot : Nat := 0
  /-- SNAPSHOT_READ (10). valid [1]; DESIGN CHOICE (log 3): the spec states no reset value -/
  valid : Bool := false
  /-- SNAPSHOT_READ (10). estimated [1]; DESIGN CHOICE (log 3): the spec states no reset value -/
  est : Bool := false
  /-- SNAPSHOT_READ (10). position [64]; DESIGN CHOICE (log 3): the spec states no reset value -/
  pos : Int := 0
deriving DecidableEq, Repr

/-- The snapshot unit (R248, 10). -/
structure Snap where
  /-- SNAP_STATUS.ENABLED (10). accepts events [1] -/
  enabled : Bool := false
  /-- SNAP_STATUS.SOURCE (10). source -/
  src : Source107 := {}
  /-- SNAP_STATUS.LOST (10). a snapshot was discarded [1] -/
  fLost : Bool := false
  /-- R248 (10). events waiting for their record; DESIGN CHOICE (log 3): the spec states no reset value -/
  due : List LatchDue := []
  /-- SNAP_STATUS.HELD (10). snapshots: capture instant and entries [4] -/
  held : List (Int × List SnapEntry) := []
  /-- SNAPSHOT_READ LOST (10). lost since the previous read [32]; DESIGN CHOICE (log 3): the spec states no reset value -/
  lost : Nat := 0
  /-- R250 (10). number of the next snapshot, for SNAPSHOT_DONE [16]; DESIGN CHOICE (log 3): the spec states no reset value -/
  number : BitVec 16 := 0
deriving DecidableEq, Repr

/-- Position Ports, compare, latch, snapshot. -/
structure PortsBlk where
  /-- R218 (10). PP0 to PP31 -/
  port : Vector Port 32 := Vector.replicate 32 {}
  /-- R241 (10). PCU0 to PCU15 -/
  cmp : Vector Compare 16 := Vector.replicate 16 {}
  /-- R245 (10). LU0 to LU15 -/
  latch : Vector Latch 16 := Vector.replicate 16 {}
  /-- R248 (10). snapshot unit -/
  snap : Snap := {}
deriving DecidableEq, Repr

end Sys2Proof.Machine
end

