-- ==== Sys2Proof/Machine/State/Serial.lean ====
section
/-! DEFINITION.
State of the block: Memory Port and Host Port.
Each field names the rule of spec/ that gives it.
A default is the value at reset; where the spec states none, log entry 3 names the value. -/

namespace Sys2Proof.Machine

/-- A device profile (Table 18.1, 18). -/
structure Profile where
  /-- Table 18.1 (18). SIZE_LOG2 (32 MiB, the least a boot flash holds) [8]; DESIGN CHOICE (log 3): the spec states no reset value -/
  sizeLog2 : Nat := 25
  /-- Table 18.1, R400 (18). WINDOW, MiB [8] -/
  window : Nat := 0
  /-- Table 18.1, Table 3.3 (18, 03). DIV (25 MHz) [8]; DESIGN CHOICE (log 3): the spec states no reset value -/
  div : Nat := 16
  /-- Table 18.1 (18). ADDR_BYTES [8]; DESIGN CHOICE (log 3): the spec states no reset value -/
  addrBytes : Nat := 3
  /-- Table 18.1 (18). CMD_BYTES [8]; DESIGN CHOICE (log 3): the spec states no reset value -/
  cmdBytes : Nat := 1
  /-- Table 18.1 (18). DUMMY [8]; DESIGN CHOICE (log 3): the spec states no reset value -/
  dummy : Nat := 0
  /-- Table 18.1 (18). STATUS_DUMMY [8]; DESIGN CHOICE (log 3): the spec states no reset value -/
  statusDummy : Nat := 0
  /-- Table 18.1 (18). OPTIONS [8]; DESIGN CHOICE (log 3): the spec states no reset value -/
  options : BitVec 8 := 0
  /-- Table 18.1 (18). READ_FMT [8]; DESIGN CHOICE (log 3): the spec states no reset value -/
  readFmt : BitVec 8 := 0
  /-- Table 18.1 (18). WRITE_FMT [8]; DESIGN CHOICE (log 3): the spec states no reset value -/
  writeFmt : BitVec 8 := 0
  /-- Table 18.1 (18). CTRL_FMT [8]; DESIGN CHOICE (log 3): the spec states no reset value -/
  ctrlFmt : BitVec 8 := 0
  /-- Table 18.1 (18). BUSY [8]; DESIGN CHOICE (log 3): the spec states no reset value -/
  busy : BitVec 8 := 0
  /-- Table 18.1, Table 3.3 (18, 03). READ_OP (0x03 without SFDP) [16]; DESIGN CHOICE (log 3): the spec states no reset value -/
  readOp : Nat := 3
  /-- Table 18.1 (18). PROG_OP [16]; DESIGN CHOICE (log 3): the spec states no reset value -/
  progOp : Nat := 0
  /-- Table 18.1 (18). WREN_OP [16]; DESIGN CHOICE (log 3): the spec states no reset value -/
  wrenOp : Nat := 0
  /-- Table 18.1 (18). STATUS_OP [16]; DESIGN CHOICE (log 3): the spec states no reset value -/
  statusOp : Nat := 0
  /-- Table 18.1 (18). ERASE_OP [16]; DESIGN CHOICE (log 3): the spec states no reset value -/
  eraseOp : Nat := 0
  /-- Table 18.1 (18). PAGE_LOG2 [8]; DESIGN CHOICE (log 3): the spec states no reset value -/
  pageLog2 : Nat := 8
  /-- Table 18.1 (18). SECTOR_LOG2 [8]; DESIGN CHOICE (log 3): the spec states no reset value -/
  sectorLog2 : Nat := 12
  /-- Table 18.1 (18). CS_SETUP [8]; DESIGN CHOICE (log 3): the spec states no reset value -/
  csSetup : Nat := 1
  /-- Table 18.1 (18). CS_HOLD [8]; DESIGN CHOICE (log 3): the spec states no reset value -/
  csHold : Nat := 1
  /-- Table 18.1 (18). CS_GAP [8]; DESIGN CHOICE (log 3): the spec states no reset value -/
  csGap : Nat := 2
  /-- Table 18.1 (18). POLL_US [16]; DESIGN CHOICE (log 3): the spec states no reset value -/
  pollUs : Nat := 1
  /-- Table 18.1 (18). PROG_TIMEOUT, ms [16]; DESIGN CHOICE (log 3): the spec states no reset value -/
  progTimeout : Nat := 1
  /-- Table 18.1 (18). ERASE_TIMEOUT, ms [16]; DESIGN CHOICE (log 3): the spec states no reset value -/
  eraseTimeout : Nat := 1
deriving DecidableEq, Repr

/-- One select of the Memory Port. -/
structure SpmSel where
  /-- SPM_STATUS.VALID (18). the profile, when set [40 bytes] -/
  profile : Option Profile := none
  /-- SPM_STATUS.BUSY (18). a program or erase is in progress [1] -/
  opBusy : Bool := false
  /-- SPM_STATUS.FAIL (18). SPM_FAIL was raised [1] -/
  fFail : Bool := false
  /-- SPM_STATUS.VERIFY (18). SPM_VERIFY was raised [1] -/
  fVerify : Bool := false
  /-- R402, SPM_STATUS.PENDING (18). page number of the page buffer's writes, when it holds any -/
  page : Option Nat := none
  /-- R402 (18). words written in the page buffer: device offset and value, one entry a word [page of words]; DESIGN CHOICE (log 3): the spec states no reset value -/
  words : List (Nat × Word) := []
  /-- R402 (18). a flush waits for the device [1]; DESIGN CHOICE (log 3): the spec states no reset value -/
  flushDue : Bool := false
  /-- R402 (18). tick of the last write to the buffer; DESIGN CHOICE (log 3): the spec states no reset value -/
  lastWrite : Nat := 0
  /-- R402 (18). the operation under way is an erase [1]; the model's own field -/
  opErase : Bool := false
  /-- R402 (18). tick at which it began; DESIGN CHOICE (log 3): the spec states no reset value -/
  opStart : Nat := 0
  /-- R402 (18). tick of its last status poll, or of its start; DESIGN CHOICE (log 3): the spec states no reset value -/
  opPoll : Nat := 0
  /-- R402, R412 (18). device offset and length it touches; DESIGN CHOICE (log 3): the spec states no reset value -/
  opRange : Nat × Nat := (0, 0)
  /-- R402 (18). words being programmed; DESIGN CHOICE (log 3): the spec states no reset value -/
  opWords : List (Nat × Word) := []
  /-- SPM_FLUSH VERIFY (18). a mismatch was found since the last SPM_FLUSH began [1]; DESIGN CHOICE (log 3): the spec states no reset value -/
  verifyHit : Bool := false
  /-- R413 (18). a device answers on this select [1]; DESIGN CHOICE (log 3): the spec states no reset value -/
  present : Bool := false
  /-- R413 (18). its SFDP tables (empty: none) [up to 1024 bytes]; DESIGN CHOICE (log 3): the spec states no reset value -/
  sfdp : List Byte := []
  /-- R412, R413 (18). the fastest profile its SFDP declares [40 bytes]; DESIGN CHOICE (log 3): the spec states no reset value -/
  fastest : Option Profile := none
  /-- R52, R401 (03, 18). flash contents, canonical list of cells; an unlisted offset reads 0xFF [2^28 x 8 at most]; DESIGN CHOICE (log 3): the spec states no reset value -/
  flash : List Host.Cell := []
  /-- SPM_PROG (18). pages programmed [64]; DESIGN CHOICE (log 3): the spec states no reset value -/
  pages : Tally := 0
  /-- SPM_ERASE (18). sectors erased [64]; DESIGN CHOICE (log 3): the spec states no reset value -/
  sectors : Tally := 0
deriving DecidableEq, Repr

/-- A line buffer of the execute-in-place window (R401, 18). -/
structure Line where
  /-- R401 (18). select [2]; DESIGN CHOICE (log 3): the spec states no reset value -/
  sel : Nat := 0
  /-- R401 (18). device offset of the line, a multiple of 64 [28]; DESIGN CHOICE (log 3): the spec states no reset value -/
  off : Nat := 0
  /-- R401 (18). its bytes [512]; DESIGN CHOICE (log 3): the spec states no reset value -/
  bytes : List Byte := []
deriving DecidableEq, Repr

/-- A Host Port frame held during a wake (R411, 18). -/
structure HeldFrame where
  /-- R411 (18). PACKET_IN; else WRITE [1]; DESIGN CHOICE (log 3): the spec states no reset value -/
  packet : Bool := false
  /-- R411 (18). ADDR of a WRITE [32]; DESIGN CHOICE (log 3): the spec states no reset value -/
  addr : Nat := 0
  /-- R411 (18). words of a WRITE [1 KiB in all]; DESIGN CHOICE (log 3): the spec states no reset value -/
  words : List Word := []
  /-- R411 (18). packet; DESIGN CHOICE (log 3): the spec states no reset value -/
  bytes : List Byte := []
  /-- R406 (18). its clock edges after completion; DESIGN CHOICE (log 3): the spec states no reset value -/
  edges : Nat := 0
  /-- R81 (04). arrival instant, TBASE0 ns; DESIGN CHOICE (log 3): the spec states no reset value -/
  arrived : Nat := 0
deriving DecidableEq, Repr

/-- Memory Port and Host Port. -/
structure SerialBlk where
  /-- R398 (18). selects -/
  sel : Vector SpmSel 4 := Vector.replicate 4 {}
  /-- R401 (18). line buffers, most recently fetched first [8x64 bytes]; DESIGN CHOICE (log 3): the spec states no reset value -/
  lines : List Line := []
  /-- SPH_STATUS.LAST (18). result of the last frame [3] -/
  last : Nat := 0
  /-- SPH_COUNT (18). frame counts OK, SHORT, EXTRA, EXTRA_EDGES, BAD_CMD, DENIED, INBOX_FULL, WAKING [8x64]; DESIGN CHOICE (log 3): the spec states no reset value -/
  cnt : Vector Tally 8 := Vector.replicate 8 0
  /-- R411 (18). frames held during a wake, in order [8 packets, 1 KiB]; DESIGN CHOICE (log 3): the spec states no reset value -/
  held : List HeldFrame := []
  /-- R404, R405 (18). words the last READ or STATUS frame delivered; the model's own field -/
  sphOut : List Word := []
  /-- R409 (18). bytes the last PACKET_OUT frame delivered; the model's own field -/
  sphPacket : List Byte := []
deriving DecidableEq, Repr

end Sys2Proof.Machine
end

