-- ==== Sys2Proof/Machine/State/Stepper.lean ====
section
/-! DEFINITION.
State of the block: Stepper Drive.
Each field names the rule of spec/ that gives it.
A default is the value at reset; where the spec states none, log entry 3 names the value. -/

namespace Sys2Proof.Machine

/-- The stepper state of one slot. -/
structure Stepper where
  /-- STEP_POS, R280 (12). microstep position m [64]; DESIGN CHOICE (log 3): the spec states no reset value -/
  m : Int := 0
  /-- R280 (12). phase offset m_off [64]; DESIGN CHOICE (log 3): the spec states no reset value -/
  mOff : Int := 0
  /-- STEP_STATUS.CONFIG, R292 (12). selected operation [2] -/
  opMode : Nat := 0
  /-- R292 (12). V_SW, Q39.24 [64]; DESIGN CHOICE (log 3): the spec states no reset value -/
  vSw : Int := 0
  /-- R292 (12). H, Q39.24 [64]; DESIGN CHOICE (log 3): the spec states no reset value -/
  hyst : Int := 0
  /-- R292 (12). I_RUN 0.5, Q1.31 [32]; DESIGN CHOICE (log 3): the spec states no reset value -/
  iRun : Int := 0x40000000
  /-- R292 (12). I_HOLD 0.25, Q1.31 [32]; DESIGN CHOICE (log 3): the spec states no reset value -/
  iHold : Int := 0x20000000
  /-- R292 (12). HOLD_RAMP, ms [16]; DESIGN CHOICE (log 3): the spec states no reset value -/
  holdRamp : Nat := 100
  /-- R292 (12). FREEWHEEL_DELAY, ms [16]; DESIGN CHOICE (log 3): the spec states no reset value -/
  freewheelDelay : Nat := 0
  /-- R292 (12). WAKE_RAMP, ms [8]; DESIGN CHOICE (log 3): the spec states no reset value -/
  wakeRamp : Nat := 10
  /-- R292 (12). FREEWHEEL_LIMIT, ms [16]; DESIGN CHOICE (log 3): the spec states no reset value -/
  freewheelLimit : Nat := 0
  /-- R292 (12). HOLD_MEMORY [1]; DESIGN CHOICE (log 3): the spec states no reset value -/
  holdMemory : Bool := true
  /-- STEP_STATUS.MODE (12). strong operation [1] -/
  strong : Bool := false
  /-- STEP_STATUS.PENDING (12). a change is due and waits for a phase-A zero [1] -/
  changeDue : Bool := false
  /-- STEP_STATUS.PHASE (12). 0 running, 1 reducing, 2 holding, 3 freewheel, 4 shorted, 5 waking [3] -/
  phase : Nat := 0
  /-- STEP_STATUS.HOLD_VALID (12). the position will be kept at re-engagement [1] -/
  holdValid : Bool := true
  /-- STEP_STATUS.LOST (12). MICROSTEP_LOST was raised [1] -/
  fLost : Bool := false
  /-- STEP_STATUS.SWITCHED (12). STEP_MODE_CHANGED was raised [1] -/
  fSwitched : Bool := false
  /-- R284 (12). current amplitude I in force, Q1.31 [32]; DESIGN CHOICE (log 3): the spec states no reset value -/
  amp : Int := 0
  /-- R284 (12). tick at which the present standstill phase or wake ramp began; DESIGN CHOICE (log 3): the spec states no reset value -/
  phaseStart : Nat := 0
  /-- R286 (12). tick at which the present bridge power-down began; DESIGN CHOICE (log 3): the spec states no reset value -/
  downSince : Option Nat := none
  /-- R286 (12). tick since which the legs have been off in it; DESIGN CHOICE (log 3): the spec states no reset value -/
  offSince : Option Nat := none
  /-- R286 (12). ticks already spent with legs off in it; DESIGN CHOICE (log 3): the spec states no reset value -/
  offTime : Nat := 0
  /-- R286 (12). measured position at its start, Q47.16 [64]; DESIGN CHOICE (log 3): the spec states no reset value -/
  downPos : Int := 0
  /-- R283 (12). m at the previous inner sample [64]; DESIGN CHOICE (log 3): the spec states no reset value -/
  mPrev : Int := 0
  /-- R282 (12). position set-point at the previous inner sample, Q47.16 [64]; DESIGN CHOICE (log 3): the spec states no reset value -/
  spPrev : Int := 0
  /-- R129, R214 (06, 09). fraction of a microstep of the velocity integrated into m (units of 2^-24 x 2 ns); DESIGN CHOICE (log 3): the spec states no reset value -/
  mRem : Int := 0
  /-- R282, R283 (12). microstep rate v at the last inner sample, Q39.24 [64]; DESIGN CHOICE (log 3): the spec states no reset value -/
  rate : Int := 0
  /-- Table 12.3, R464 (12, 21). ISSUED_FWD [64] -/
  issuedFwd : Tally := 0
  /-- Table 12.3, R464 (12, 21). ISSUED_REV [64] -/
  issuedRev : Tally := 0
  /-- Table 12.3, R464 (12, 21). REALIGN_FWD [64] -/
  realignFwd : Tally := 0
  /-- Table 12.3, R464 (12, 21). REALIGN_REV [64] -/
  realignRev : Tally := 0
  /-- Table 12.3, R464 (12, 21). PRESET_POS [64] -/
  presetPos : Tally := 0
  /-- Table 12.3, R464 (12, 21). PRESET_NEG [64] -/
  presetNeg : Tally := 0
deriving DecidableEq, Repr

/-- The Stepper Drive. -/
structure StepperBlk where
  /-- R280 (12). slots -/
  slot : Vector Stepper 64 := Vector.replicate 64 {}
deriving DecidableEq, Repr

end Sys2Proof.Machine
end

