-- ==== Sys2Proof/Machine/State/Config.lean ====
section
/-! DEFINITION.
State of the block: what CONFIG_SAVE keeps in the configuration store.
Each field names the rule of spec/ that gives it.
A default is the value at reset; where the spec states none, log entry 3 names the value. -/

namespace Sys2Proof.Machine

/-- One copy of the configuration store (R97, Table 3.3, 04, 03). -/
structure Saved where
  /-- R57 (03). age of the copy: the newer valid copy is loaded; DESIGN CHOICE (log 3): the spec states no reset value -/
  seq : Nat := 0
  /-- R52 (03). names the bytes the copy takes in the flash; the model's own field -/
  mark : Nat := 0
  /-- CONFIG_SAVE AUTOSTART (04). autostart flag [1]; DESIGN CHOICE (log 3): the spec states no reset value -/
  autostart : Bool := false
  /-- R97 (04). motion tolerance [32]; DESIGN CHOICE (log 3): the spec states no reset value -/
  tolMotion : Nat := 4000
  /-- R97 (04). network tolerance [32]; DESIGN CHOICE (log 3): the spec states no reset value -/
  tolNetwork : Nat := 2000
  /-- R97 (04). host-command tolerance [32]; DESIGN CHOICE (log 3): the spec states no reset value -/
  tolHost : Nat := 40000
  /-- R97 (04). operating-point limit [3]; DESIGN CHOICE (log 3): the spec states no reset value -/
  opLimit : Nat := 7
  /-- R97 (04). banded proof [1]; DESIGN CHOICE (log 3): the spec states no reset value -/
  banded : Bool := false
  /-- R97 (04). Rest permitted [1]; DESIGN CHOICE (log 3): the spec states no reset value -/
  restPermitted : Bool := false
  /-- R97 (04). authentication policy [16]; DESIGN CHOICE (log 3): the spec states no reset value -/
  policy : BitVec 16 := 0
  /-- R97 (04). policy on the Host Port [1]; DESIGN CHOICE (log 3): the spec states no reset value -/
  policyHost : Bool := false
  /-- R97 (04). bindings and modes; DESIGN CHOICE (log 3): the spec states no reset value -/
  axis : Vector Axis 64 := Vector.replicate 64 {}
  /-- R97 (04). planner configuration, groups and allocations; DESIGN CHOICE (log 3): the spec states no reset value -/
  plan : Planner := {}
  /-- R97 (04). links and cam tables; DESIGN CHOICE (log 3): the spec states no reset value -/
  gear : GearUnit := {}
  /-- R97 (04). loop configuration; DESIGN CHOICE (log 3): the spec states no reset value -/
  loop : LoopEngine := {}
  /-- R97 (04). port, compare, latch and snapshot configuration; DESIGN CHOICE (log 3): the spec states no reset value -/
  ports : PortsBlk := {}
  /-- R97 (04). BTA configuration; DESIGN CHOICE (log 3): the spec states no reset value -/
  bta : BtaBlk := {}
  /-- R97 (04). stepper configuration; DESIGN CHOICE (log 3): the spec states no reset value -/
  stepper : StepperBlk := {}
  /-- R97 (04). brick and frame-group registrations; DESIGN CHOICE (log 3): the spec states no reset value -/
  bricks : BricksBlk := {}
  /-- R97, R311 (04, 14). network, time-base and cyclic-map configuration; DESIGN CHOICE (log 3): the spec states no reset value -/
  net : Net := {}
  /-- R97 (04). Field I/O configuration; DESIGN CHOICE (log 3): the spec states no reset value -/
  fio : FioBlk := {}
  /-- R97 (04). CAN configuration; DESIGN CHOICE (log 3): the spec states no reset value -/
  can : CanBlk := {}
  /-- R97 (04). SPM profiles; DESIGN CHOICE (log 3): the spec states no reset value -/
  serial : List (Option Profile) := [none, none, none, none]
  /-- R97, R431 (04, 19). acquisition configuration; DESIGN CHOICE (log 3): the spec states no reset value -/
  acq : AcqBlk := {}
  /-- R97, R461 (04, 20). lane entries, thread definitions and enables, timers; DESIGN CHOICE (log 3): the spec states no reset value -/
  lanes : LanesBlk := {}
deriving DecidableEq, Repr

/-- The two copies of the configuration store. -/
structure Store where
  /-- Table 3.1 (03). first copy [512 KiB]; DESIGN CHOICE (log 3): the spec states no reset value -/
  copyA : Option Saved := none
  /-- Table 3.1 (03). second copy [512 KiB]; DESIGN CHOICE (log 3): the spec states no reset value -/
  copyB : Option Saved := none
deriving DecidableEq, Repr

end Sys2Proof.Machine
end

