-- ==== Sys2Proof/Machine/State/Integrity.lean ====
section
/-! DEFINITION.
State of the block: memory, scrub, fault record, events.
Each field names the rule of spec/ that gives it.
A default is the value at reset; where the spec states none, log entry 3 names the value. -/

namespace Sys2Proof.Machine

/-- An entry of the fault record (Table 21.4). -/
structure FaultEntry where
  /-- Table 21.4 (21). sequence [32]; DESIGN CHOICE (log 3): the spec states no reset value -/
  seq : Nat := 0
  /-- Table 21.4 (21). fault code [16]; DESIGN CHOICE (log 3): the spec states no reset value -/
  code : Nat := 0
  /-- Table 21.4 (21). class [8]; DESIGN CHOICE (log 3): the spec states no reset value -/
  cls : Nat := 0
  /-- Table 21.4 (21). acknowledged [1]; DESIGN CHOICE (log 3): the spec states no reset value -/
  acked : Bool := false
  /-- Table 21.4 (21). cause still present [1]; DESIGN CHOICE (log 3): the spec states no reset value -/
  present : Bool := false
  /-- Table 21.4 (21). time from the AON coarse count [1]; DESIGN CHOICE (log 3): the spec states no reset value -/
  coarse : Bool := false
  /-- Table 21.4 (21). TBASE0 ns or 0 [64]; DESIGN CHOICE (log 3): the spec states no reset value -/
  time : Nat := 0
  /-- Table 21.4 (21). SYS_TICK [64]; DESIGN CHOICE (log 3): the spec states no reset value -/
  tick : Nat := 0
  /-- Table 21.4 (21). slot, port, bank, group or input [16]; DESIGN CHOICE (log 3): the spec states no reset value -/
  index : Nat := 0xFFFF
  /-- Table 21.4 (21). device state [8]; DESIGN CHOICE (log 3): the spec states no reset value -/
  dev : Nat := 0
  /-- Table 21.4 (21). operating point and band [8]; DESIGN CHOICE (log 3): the spec states no reset value -/
  opBand : Nat := 0
  /-- Table 21.4 (21). detail [32]; DESIGN CHOICE (log 3): the spec states no reset value -/
  detail : Nat := 0
  /-- R473 (21). already copied to the fault log [1]; DESIGN CHOICE (log 3): the spec states no reset value -/
  copied : Bool := false
deriving DecidableEq, Repr

/-- An entry of the event queue (R475, R476). -/
structure Event where
  /-- R475 (21). event code [16]; DESIGN CHOICE (log 3): the spec states no reset value -/
  code : Nat := 0
  /-- R476 (21). index [16]; DESIGN CHOICE (log 3): the spec states no reset value -/
  index : Nat := 0xFFFF
  /-- R476 (21). detail bytes (missing ones are zero) [96]; DESIGN CHOICE (log 3): the spec states no reset value -/
  detail : List Byte := []
  /-- R475 (21). TBASE0 ns [64]; DESIGN CHOICE (log 3): the spec states no reset value -/
  time : Nat := 0
deriving DecidableEq, Repr

/-- Family 12 of Table 21.1. -/
structure IntegrityTally where
  /-- Table 21.1, R464 (21). symbols corrected [64] -/
  symbols : Tally := 0
  /-- Table 21.1, R464 (21). blocks corrected [64] -/
  blocks : Tally := 0
  /-- Table 21.1, R464 (21). uncorrectable reads [64] -/
  uncorrectable : Tally := 0
  /-- Table 21.1, R464 (21). vote corrections [64] -/
  votes : Tally := 0
  /-- Table 21.6 MEM_CORRECTED_BURST (21). ticks of the corrections of the last second; DESIGN CHOICE (log 3): the spec states no reset value -/
  recent : List Nat := []
deriving DecidableEq, Repr

/-- Memory integrity, fault record and event queue. -/
structure Integrity where
  /-- R98, Table 5.1 (05). SRAM contents, canonical list of cells; an unlisted address reads 0 [24 MiB x 8]; DESIGN CHOICE (log 3): the spec states no reset value -/
  sram : List Host.Cell := []
  /-- R470 (21). blocks in which an uncorrectable error was found: device address divided by 32; DESIGN CHOICE (log 3): the spec states no reset value -/
  poison : List Nat := []
  /-- INT_STATUS.BANK_BAD (21). bank n has held an uncorrectable block since Reset [6] -/
  bankBad : BitVec 6 := 0
  /-- INT_STATUS.LANE_BAD (21). a lane or coefficient memory has [1] -/
  laneBad : Bool := false
  /-- INT_STATUS.SCRUBBING (21). a scrub pass is in progress [1] -/
  scrubbing : Bool := false
  /-- INT_STATUS.PASS_MS (21). tick at which the pass began; DESIGN CHOICE (log 3): the spec states no reset value -/
  scrubStart : Nat := 0
  /-- INT_STATUS.PASS_MS (21). duration of the last complete pass, ms [16] -/
  passMs : BitVec 16 := 0
  /-- INT_ERR_ADDR (21). address of the last uncorrectable block [32]; DESIGN CHOICE (log 3): the spec states no reset value -/
  errAddr : Word := 0
  /-- Table 21.1 family 12 (21). banks 0 to 5, lane and coefficient memories, voted fields -/
  tally : Vector IntegrityTally 8 := Vector.replicate 8 {}
  /-- R473 (21). the fault record, oldest first [64 x 32 bytes]; DESIGN CHOICE (log 3): the spec states no reset value -/
  ring : List FaultEntry := []
  /-- R473 (21). the fault log in the configuration store [512 x 32 bytes]; DESIGN CHOICE (log 3): the spec states no reset value -/
  log : List FaultEntry := []
  /-- R473 (21). sequence of the next fault entry [32] -/
  nextSeq : Nat := 1
  /-- R473 (21). the ring has been lost: AON writes sequence 0 until Keeper renumbers [1]; DESIGN CHOICE (log 3): the spec states no reset value -/
  ringLost : Bool := false
  /-- FAULT_STATUS.LOST (21). unacknowledged entries overwritten, saturating, rc [8] -/
  lost : BitVec 8 := 0
  /-- R475 (21). the event queue, oldest first [1024 x 24 bytes] -/
  events : List Event := []
  /-- EVT_STATUS.LOST (21). events dropped, saturating, rc [16] -/
  evtLost : BitVec 16 := 0
  /-- R474 (21). device, Lodge and axis causes present: fault code and index; DESIGN CHOICE (log 3): the spec states no reset value -/
  causes : List (Nat × Nat) := []
  /-- R467 (21). tick from which the next audit may begin; DESIGN CHOICE (log 3): the spec states no reset value -/
  auditAt : Nat := 0
deriving DecidableEq, Repr

end Sys2Proof.Machine
end

