-- ==== Sys2Proof/Machine/State/Lodge.lean ====
section
/-! DEFINITION.
State of the block: safety island: inputs, pairs, outputs, STO, parameters.
Each field names the rule of spec/ that gives it.
A default is the value at reset; where the spec states none, log entry 3 names the value. -/

namespace Sys2Proof.Machine

/-- The Lodge states of Table 15.2 (R345, 15). -/
inductive LodgeState
  | start | config | run | switching | safeFault | absent
deriving DecidableEq, Repr

/-- A pair's parameters (Table 15.7, 15). -/
structure LodgePairCfg where
  /-- Table 15.7 (15). kind, Table 15.3 [8]; DESIGN CHOICE (log 3): the spec states no reset value -/
  kind : Nat := 0
  /-- Table 15.7 (15). antivalent coding [8]; DESIGN CHOICE (log 3): the spec states no reset value -/
  anti : Bool := false
  /-- Table 15.7 (15). TP in use [1]; DESIGN CHOICE (log 3): the spec states no reset value -/
  tpInUse : Bool := false
  /-- Table 15.7 (15). source of SI2k [2]; DESIGN CHOICE (log 3): the spec states no reset value -/
  tpA : Nat := 0
  /-- Table 15.7 (15). source of SI2k+1 [2]; DESIGN CHOICE (log 3): the spec states no reset value -/
  tpB : Nat := 0
  /-- Table 15.7 (15). FILTER, 0.25 ms [8]; DESIGN CHOICE (log 3): the spec states no reset value -/
  filter : Nat := 1
  /-- Table 15.7 (15). DISCREPANCY, ms [16]; DESIGN CHOICE (log 3): the spec states no reset value -/
  discrepancy : Nat := 10
  /-- Table 15.7 (15). manual restart [1]; DESIGN CHOICE (log 3): the spec states no reset value -/
  manual : Bool := false
  /-- Table 15.7 (15). reset pair [3]; DESIGN CHOICE (log 3): the spec states no reset value -/
  resetPair : Nat := 0
deriving DecidableEq, Repr

/-- A pair's evaluation (R347 to R352, 15). -/
structure LodgePair where
  /-- R347 (15). accepted level of SI2k [1]; DESIGN CHOICE (log 3): the spec states no reset value -/
  siA : Bool := false
  /-- R347 (15). accepted level of SI2k+1 [1]; DESIGN CHOICE (log 3): the spec states no reset value -/
  siB : Bool := false
  /-- R349 (15). Lodge time (ns) since which the inputs disagree; DESIGN CHOICE (log 3): the spec states no reset value -/
  differ : Option Nat := none
  /-- Table 15.8 (15). pair fault in force: 1 DISCREPANCY, 2 TEST_PULSE, 3 CROSS_SHORT, 0 none [8]; DESIGN CHOICE (log 3): the spec states no reset value -/
  fault : Nat := 0
  /-- R362 (15). the fault's cause is still present [1]; DESIGN CHOICE (log 3): the spec states no reset value -/
  faultPresent : Bool := false
  /-- R349 (15). both inputs have shown the demand level since the fault [1]; DESIGN CHOICE (log 3): the spec states no reset value -/
  sawDemand : Bool := false
  /-- R352, R361 (15). manual restart: in demand until a reset [1]; DESIGN CHOICE (log 3): the spec states no reset value -/
  awaitReset : Bool := true
  /-- R352 (15). reset pair: Lodge time (ns) at which it became actuated; DESIGN CHOICE (log 3): the spec states no reset value -/
  pressed : Option Nat := none
  /-- LODGE_PAIRS.DEMAND (15). in demand [1] -/
  demand : Bool := true
  /-- R351 (15). two-hand: Lodge time (ns) at which the hand became actuated; DESIGN CHOICE (log 3): the spec states no reset value -/
  handAt : Option Nat := none
  /-- R351 (15). two-hand (even pair): both hands were released together since the last permission [1]; DESIGN CHOICE (log 3): the spec states no reset value -/
  armed : Bool := false
  /-- R351 (15). two-hand (even pair): permission is given [1]; DESIGN CHOICE (log 3): the spec states no reset value -/
  permitted : Bool := false
deriving DecidableEq, Repr

/-- A safe output's parameters (Table 15.7, 15). -/
structure LodgeOutCfg where
  /-- Table 15.7 (15). pair mask [8]; DESIGN CHOICE (log 3): the spec states no reset value -/
  mask : BitVec 8 := 0
  /-- Table 15.7 (15). stop kind 1 [8]; DESIGN CHOICE (log 3): the spec states no reset value -/
  delayed : Bool := false
  /-- Table 15.7 (15). SS1_DELAY, ms [16]; DESIGN CHOICE (log 3): the spec states no reset value -/
  delayMs : Nat := 0
  /-- Table 15.7 (15). TEST_INTERVAL, 10 ms [16]; DESIGN CHOICE (log 3): the spec states no reset value -/
  testMs10 : Nat := 10
  /-- Table 15.7 (15). no-pulse option [1]; DESIGN CHOICE (log 3): the spec states no reset value -/
  noPulse : Bool := false
  /-- Table 15.7 (15). open-load check [1]; DESIGN CHOICE (log 3): the spec states no reset value -/
  openLoad : Bool := false
deriving DecidableEq, Repr

/-- A safe output's state (R353, R354, 15). -/
structure LodgeOut where
  /-- LODGE_OUTPUTS.ON (15). on [1] -/
  on : Bool := false
  /-- Table 15.4 (15). output fault in force: 1 P_STUCK, 2 M_STUCK, 3 CROSS, 4 OVERLOAD, 5 OPEN_LOAD, 6 TEST_OVERDUE, 0 none [8]; DESIGN CHOICE (log 3): the spec states no reset value -/
  fault : Nat := 0
  /-- R362 (15). the fault's cause is still present [1]; DESIGN CHOICE (log 3): the spec states no reset value -/
  faultPresent : Bool := false
  /-- LODGE_OUTPUTS.P (15). SOn_P read back closed [1] -/
  p : Bool := false
  /-- LODGE_OUTPUTS.M (15). SOn_M read back closed [1] -/
  m : Bool := false
  /-- LODGE_OUTPUTS.DELAY (15). Lodge time (ns) at which its SS1_DELAY ends -/
  delay : Option Nat := none
  /-- R354 (15). Lodge time (ns) at which it was last off; DESIGN CHOICE (log 3): the spec states no reset value -/
  offAt : Nat := 0
  /-- Table 15.4 (15). Lodge time (ns) at which it was last switched on; DESIGN CHOICE (log 3): the spec states no reset value -/
  onAt : Nat := 0
  /-- R354 (15). Lodge time (ns) of its last off-pulse, or of its switching on; DESIGN CHOICE (log 3): the spec states no reset value -/
  testAt : Nat := 0
  /-- R354 (15). the next off-pulse is that of SOn_M [1]; DESIGN CHOICE (log 3): the spec states no reset value -/
  pulseM : Bool := false
deriving DecidableEq, Repr

/-- A parameter set (Table 15.7, 15). -/
structure LodgeParams where
  /-- Table 15.7 (15). SET_ID [32]; DESIGN CHOICE (log 3): the spec states no reset value -/
  setId : Nat := 0
  /-- Table 15.7 (15). pairs; DESIGN CHOICE (log 3): the spec states no reset value -/
  pair : Vector LodgePairCfg 8 := Vector.replicate 8 {}
  /-- Table 15.7 (15). safe outputs; DESIGN CHOICE (log 3): the spec states no reset value -/
  out : Vector LodgeOutCfg 4 := Vector.replicate 4 {}
  /-- Table 15.7 (15). STO pair mask [8]; DESIGN CHOICE (log 3): the spec states no reset value -/
  stoMask : BitVec 8 := 0
  /-- Table 15.7 (15). STO stop kind SS1 [8]; DESIGN CHOICE (log 3): the spec states no reset value -/
  stoSs1 : Bool := false
  /-- Table 15.7 (15). SS1_DELAY, ms [16]; DESIGN CHOICE (log 3): the spec states no reset value -/
  stoDelayMs : Nat := 0
  /-- Table 15.7 (15). STOIN enabled [8]; DESIGN CHOICE (log 3): the spec states no reset value -/
  stoin : Bool := false
  /-- Table 15.7 (15). the set as received [256x8]; DESIGN CHOICE (log 3): the spec states no reset value -/
  bytes : List Byte := []
deriving DecidableEq, Repr

/-- Lodge. -/
structure LodgeBlk where
  /-- LODGE_STATUS.STATE (15). state; Absent while VSAF is absent [4] -/
  st : LodgeState := .absent
  /-- R348 (15). Lodge time count, ns; DESIGN CHOICE (log 3): the spec states no reset value -/
  time : Nat := 0
  /-- R348 (15). 8 ms frames whose pulse of TPn has been checked; DESIGN CHOICE (log 3): the spec states no reset value -/
  tpDone : Vector Nat 4 := Vector.replicate 4 0
  /-- R346 (15). the confirmed set (two copies in Lodge's non-volatile memory) [256 bytes]; DESIGN CHOICE (log 3): the spec states no reset value -/
  params : Option LodgeParams := none
  /-- R360 (15). the staged set [256 bytes]; DESIGN CHOICE (log 3): the spec states no reset value -/
  staged : Option LodgeParams := none
  /-- R361 (15). Lodge time (ns) at which it was staged; DESIGN CHOICE (log 3): the spec states no reset value -/
  stagedAt : Nat := 0
  /-- R361 (15). the set being switched to [256 bytes]; DESIGN CHOICE (log 3): the spec states no reset value -/
  switching : Option LodgeParams := none
  /-- R360 (15). fused hash of the integrator safety key [256]; DESIGN CHOICE (log 3): the spec states no reset value -/
  keyHash : Option (List Byte) := none
  /-- R62 (03). Lodge's own copy of the hashes of the Zellajo keys [4x256]; DESIGN CHOICE (log 3): the spec states no reset value -/
  zellajo : Vector (Option (List Byte)) 4 := Vector.replicate 4 none
  /-- R347 (15). pairs -/
  pair : Vector LodgePair 8 := Vector.replicate 8 {}
  /-- R356 (15). number of the last 250 us cycle whose snapshot was taken; DESIGN CHOICE (log 3): the spec states no reset value -/
  cycle : Nat := 0
  /-- R356 (15). Lodge time (ns) of the snapshot whose command instant is due; DESIGN CHOICE (log 3): the spec states no reset value -/
  snapAt : Option Nat := none
  /-- R356 (15). demands as the last snapshot took them [8]; DESIGN CHOICE (log 3): the spec states no reset value -/
  snapDemand : BitVec 8 := 0xFF
  /-- R353 (15). SO0 to SO3 -/
  out : Vector LodgeOut 4 := Vector.replicate 4 {}
  /-- LODGE_STATUS.STO (15). STO asserted [1] -/
  sto : Bool := true
  /-- LODGE_STATUS.SS1_ACTIVE (15). Lodge time (ns) at which the running SS1 delay ends -/
  ss1End : Option Nat := none
  /-- R356 (15). the SS1 delay has ended and its STO has not been released [1]; DESIGN CHOICE (log 3): the spec states no reset value -/
  ss1Done : Bool := false
  /-- LODGE_STATUS.STOIN_A (15). accepted level of STOIN_A [1] -/
  stoinA : Bool := false
  /-- LODGE_STATUS.STOIN_B (15). accepted level of STOIN_B [1] -/
  stoinB : Bool := false
  /-- R357 (15). STOIN demands STO [1]; DESIGN CHOICE (log 3): the spec states no reset value -/
  stoinDemand : Bool := false
  /-- R357 (15). Lodge time (ns) since which the STOIN balls differ; DESIGN CHOICE (log 3): the spec states no reset value -/
  stoinDiffer : Option Nat := none
  /-- R357 (15). STOIN_DISCREPANCY in force [1]; DESIGN CHOICE (log 3): the spec states no reset value -/
  stoinFault : Bool := false
  /-- R357 (15). both balls have been low together since the discrepancy [1]; DESIGN CHOICE (log 3): the spec states no reset value -/
  stoinLow : Bool := false
  /-- R344 (15). supervision cause REFERENCE in force [1]; DESIGN CHOICE (log 3): the spec states no reset value -/
  refFault : Bool := false
  /-- R344 (15). Lodge time (ns) since which that cause may be absent; DESIGN CHOICE (log 3): the spec states no reset value -/
  refGone : Option Nat := none
  /-- R344 (15). supervision cause HEARTBEAT in force [1]; DESIGN CHOICE (log 3): the spec states no reset value -/
  hbFault : Bool := false
  /-- R344 (15). Lodge time (ns) since which the heartbeat is back; DESIGN CHOICE (log 3): the spec states no reset value -/
  hbGone : Option Nat := none
  /-- R344 (15). heartbeat word [32]; DESIGN CHOICE (log 3): the spec states no reset value -/
  heartbeat : Word := 0
  /-- R344 (15). Lodge time (ns) of its last new value; DESIGN CHOICE (log 3): the spec states no reset value -/
  hbAt : Nat := 0
  /-- LODGE_STATUS.TEMP (15). Lodge temperature [16] -/
  temp : Int := 0
  /-- R355, R50 (15, 02). 150 degrees reached and not yet below 130 [1]; DESIGN CHOICE (log 3): the spec states no reset value -/
  overtemp : Bool := false
  /-- R343 (15). the channels disagreed in the last cycle [1]; DESIGN CHOICE (log 3): the spec states no reset value -/
  disagreed : Bool := false
  /-- Table 15.8 (15). internal fault code (0 none) [8]; DESIGN CHOICE (log 3): the spec states no reset value -/
  internalFault : Nat := 0
  /-- LODGE_READ LAST_FAULT (15). class, code, pair or output, Lodge time ms [64]; DESIGN CHOICE (log 3): the spec states no reset value -/
  lastFault : List Nat := [0,0,0,0]
  /-- R356 (15). SS1_REQUEST posted and not yet served by Keeper [1]; DESIGN CHOICE (log 3): the spec states no reset value -/
  ss1Request : Bool := false
  /-- mailbox registers (15). LODGE_STATUS, LODGE_PAIRS, LODGE_OUTPUTS, LODGE_CRC as last refreshed [4x32] -/
  mirror : List Word := [0x1F, 0xFF, 0, 0]
  /-- LODGE_READ VERSION (15). Lodge IMAGE_VERSION [32]; DESIGN CHOICE (log 3): the spec states no reset value -/
  version : Nat := 0
deriving DecidableEq, Repr

end Sys2Proof.Machine
end

