-- ==== Sys2Proof/Machine/State/Packets.lean ====
section
/-! DEFINITION.
State of the block: Ruhity transports, sequence windows, pending and executing commands, authentication.
Each field names the rule of spec/ that gives it.
A default is the value at reset; where the spec states none, log entry 3 names the value. -/

namespace Sys2Proof.Machine

/-- A UDP datagram the device has sent, or a broadcast reply waiting for its delay (R75). -/
structure UdpReply where
  /-- R75 (04). address and port it goes to; the model's own field -/
  dst : Source := .hostPort
  /-- R73 (04). the reply packet; the model's own field -/
  bytes : List Byte := []
  /-- R75 (04). tick at which a broadcast reply's delay is over; DESIGN CHOICE (log 3): the spec states no reset value -/
  due : Nat := 0
deriving DecidableEq, Repr

/-- A sequence of a window that has been seen (R78). -/
structure Seen where
  /-- R78 (04). sequence [32]; DESIGN CHOICE (log 3): the spec states no reset value -/
  seq : BitVec 32 := 0
  /-- R78 (04). opcode of the original [16]; DESIGN CHOICE (log 3): the spec states no reset value -/
  opcode : Nat := 0
  /-- R78 (04). tag of the original [16]; DESIGN CHOICE (log 3): the spec states no reset value -/
  tag : BitVec 16 := 0
  /-- R78, R79 (04). the window it was marked in; the model's own field -/
  epoch : Nat := 0
  /-- R78 (04). last reply sent; none while the original is still executing; DESIGN CHOICE (log 3): the spec states no reset value -/
  reply : Option (List Byte) := none
deriving DecidableEq, Repr

/-- The sequence window of one source (R78, R79). -/
structure Window where
  /-- R78 (04). the source; DESIGN CHOICE (log 3): the spec states no reset value -/
  src : Source := .hostPort
  /-- R79 (04). tick of the source's last packet; DESIGN CHOICE (log 3): the spec states no reset value -/
  last : Nat := 0
  /-- R78 (04). highest sequence seen [32]; DESIGN CHOICE (log 3): the spec states no reset value -/
  h : BitVec 32 := 0
  /-- R78 (04). sequences of the window seen, with opcode, tag and last reply; DESIGN CHOICE (log 3): the spec states no reset value -/
  seen : List Seen := []
deriving DecidableEq, Repr

/-- A duplicate held until its original has been answered (R78). -/
structure HeldDuplicate where
  /-- R78 (04). its source; DESIGN CHOICE (log 3): the spec states no reset value -/
  src : Source := .hostPort
  /-- R78 (04). its sequence [32]; DESIGN CHOICE (log 3): the spec states no reset value -/
  seq : BitVec 32 := 0
  /-- R78 (04). the window it was held in; the model's own field -/
  epoch : Nat := 0
  /-- R78 (04). its own NOREPLY [1]; DESIGN CHOICE (log 3): the spec states no reset value -/
  quiet : Bool := false
deriving DecidableEq, Repr

/-- An accepted command that waits for its time-of-effect (R81, R82). -/
structure Pending where
  /-- R82 (04). its handle [32]; DESIGN CHOICE (log 3): the spec states no reset value -/
  handle : Nat := 0
  /-- R82 (04). its opcode [16]; DESIGN CHOICE (log 3): the spec states no reset value -/
  opcode : Nat := 0
  /-- R82 (04). the request; DESIGN CHOICE (log 3): the spec states no reset value -/
  rq : Request := {}
  /-- R82 (04). committed, not yet in effect [1]; DESIGN CHOICE (log 3): the spec states no reset value -/
  committed : Bool := false
  /-- R188 (08). changes appended to its link when it committed (GEAR_CLEAR_PENDING); DESIGN CHOICE (log 3): the spec states no reset value -/
  mark : Nat := 0
deriving DecidableEq, Repr

/-- A command whose reply is sent when it has completed. -/
structure Exec where
  /-- R78 (04). its opcode [16]; DESIGN CHOICE (log 3): the spec states no reset value -/
  opcode : Nat := 0
  /-- R78 (04). the request; DESIGN CHOICE (log 3): the spec states no reset value -/
  rq : Request := {}
  /-- R78 (04). what its completion waits for (a slot, link, bank, thread or profile number); the model's own field -/
  key : Nat := 0
  /-- R83 (04). values fixed when it began; the model's own field -/
  ctx : List Nat := []
  /-- R83 (04). it came from a pending command, so its reply is deferred [1]; the model's own field -/
  deferred : Bool := false
deriving DecidableEq, Repr

/-- A UDP datagram held until the device has woken, or Gardener runs again (R34, 01; R61, 03). -/
structure HeldDatagram where
  /-- R34 (01). where it came from; DESIGN CHOICE (log 3): the spec states no reset value -/
  src : Source := .hostPort
  /-- R75 (04). sent to the broadcast address [1]; DESIGN CHOICE (log 3): the spec states no reset value -/
  broadcast : Bool := false
  /-- R70 (04). a fragment [1]; DESIGN CHOICE (log 3): the spec states no reset value -/
  fragment : Bool := false
  /-- R75 (04). its checksum is zero or verifies [1]; DESIGN CHOICE (log 3): the spec states no reset value -/
  checksumOk : Bool := true
  /-- R68 (04). its bytes; DESIGN CHOICE (log 3): the spec states no reset value -/
  bytes : List Byte := []
  /-- R81 (04). arrival instant, TBASE0 ns; DESIGN CHOICE (log 3): the spec states no reset value -/
  arrived : Nat := 0
deriving DecidableEq, Repr

/-- Ruhity transports and command bookkeeping. -/
structure Packets where
  /-- R78, R79 (04). at most 16 UDP sources and the Host Port; DESIGN CHOICE (log 3): the spec states no reset value -/
  windows : List Window := []
  /-- R75, R81 (04). Host Port packet inbox with the arrival instants, oldest first [8 packets]; DESIGN CHOICE (log 3): the spec states no reset value -/
  inbox : List (Nat × List Byte) := []
  /-- R75 (04). Host Port outbox, oldest first [16 packets]; DESIGN CHOICE (log 3): the spec states no reset value -/
  outbox : List (List Byte) := []
  /-- R75 (04). replies produced while the outbox is full; DESIGN CHOICE (log 3): the spec states no reset value -/
  waiting : List (List Byte) := []
  /-- R75 (04). UDP replies sent, oldest first; the model's own field -/
  udpOut : List UdpReply := []
  /-- R79 (04). number of the window opened last; the model's own field -/
  epoch : Nat := 0
  /-- R34 (01). datagrams held during a wake or a restart of Gardener, oldest first; DESIGN CHOICE (log 3): the spec states no reset value -/
  heldUdp : List HeldDatagram := []
  /-- R75 (04). broadcast replies waiting for their drawn delay; DESIGN CHOICE (log 3): the spec states no reset value -/
  bcast : List UdpReply := []
  /-- R82 (04). accepted commands, in arrival order [256]; DESIGN CHOICE (log 3): the spec states no reset value -/
  pending : List Pending := []
  /-- R82 (04). the next handle [32]; the model's own field -/
  nextHandle : Nat := 1
  /-- R85 (04). handles that ended without effect: cancelled, late or failed at commit; the model's own field -/
  gone : List Nat := []
  /-- R78 (04). commands under way whose reply comes at completion; DESIGN CHOICE (log 3): the spec states no reset value -/
  executing : List Exec := []
  /-- R80 (04). commands whose target is busy with another: opcode and request, in arrival order; DESIGN CHOICE (log 3): the spec states no reset value -/
  blocked : List (Nat × Request) := []
  /-- R78 (04). duplicates held until the original's reply is sent; DESIGN CHOICE (log 3): the spec states no reset value -/
  held : List HeldDuplicate := []
  /-- R76, R464 (04, 21). packets too short [64] -/
  dropShort : Tally := 0
  /-- R76, R464 (04, 21). wrong magic [64] -/
  dropMagic : Tally := 0
  /-- R76, R464 (04, 21). REPLY set [64] -/
  dropReply : Tally := 0
  /-- R76, R464 (04, 21). fragments [64] -/
  dropFragment : Tally := 0
  /-- R76, R464 (04, 21). bad checksum [64] -/
  dropChecksum : Tally := 0
  /-- R76, R464 (04, 21). broadcast of another opcode [64] -/
  dropBroadcast : Tally := 0
  /-- R76, R464 (04, 21). authentication lock-out [64] -/
  dropLockout : Tally := 0
  /-- R86 (04). packet-authentication key slots [4x256]; DESIGN CHOICE (log 3): the spec states no reset value -/
  keys : Vector (Option (List Byte)) 4 := Vector.replicate 4 none
  /-- R86 (04). AUTH_FAIL refusals with their tick, newest first; DESIGN CHOICE (log 3): the spec states no reset value -/
  authFails : List (Source × Nat) := []
  /-- R86 (04). sources whose packets are dropped, with the tick from which; DESIGN CHOICE (log 3): the spec states no reset value -/
  lockouts : List (Source × Nat) := []
  /-- R87 (04). opcode classes that require a tag; none after reset [16] -/
  policy : BitVec 16 := 0
  /-- R87 (04). the policy applies on the Host Port [1] -/
  policyHost : Bool := false
  /-- R88 (04). current challenge [64]; DESIGN CHOICE (log 3): the spec states no reset value -/
  challenge : BitVec 64 := 0
deriving DecidableEq, Repr

end Sys2Proof.Machine
end

