-- ==== Sys2Proof/Machine/State.lean ====
section
/-! DEFINITION.
The state of the part, block by block, with the queue of waiting commands; how a step can stop; and the
state after Reset.
Each block is declared in its file under Machine/State/. -/

namespace Sys2Proof.Machine

/-- What the part holds. -/
structure State where
  /-- Block: system region, device state, contexts, update groups (00, 03, 05). -/
  sys : Sys := {}
  /-- Block: operating point, power state, supplies, temperatures (01, 02). -/
  power : Power := {}
  /-- Block: images, fuses, identity (03). -/
  boot : Boot := {}
  /-- Block: Ruhity transports and commands under way (04). -/
  pkts : Packets := {}
  /-- Block: memory, fault record, events (21). -/
  integ : Integrity := {}
  /-- Block: axis slots AX0 to AX63 (06). -/
  axis : Vector Axis 64 := Vector.replicate 64 {}
  /-- Block: Motion Planner and segment store (07). -/
  plan : Planner := {}
  /-- Block: Gear Unit (08). -/
  gear : GearUnit := {}
  /-- Block: Loop Engine (09). -/
  loop : LoopEngine := {}
  /-- Block: Position Ports, compare, latch, snapshot (10). -/
  ports : PortsBlk := {}
  /-- Block: Bridge Timer Array (11). -/
  bta : BtaBlk := {}
  /-- Block: Stepper Drive (12). -/
  stepper : StepperBlk := {}
  /-- Block: remote bricks and frame groups (13). -/
  bricks : BricksBlk := {}
  /-- Block: Backbone Switch, PTP, time bases, time outputs, cyclic maps (14, 04). -/
  net : Net := {}
  /-- Block: safety island (15). -/
  lodge : LodgeBlk := {}
  /-- Block: Field I/O (16). -/
  fio : FioBlk := {}
  /-- Block: CAN controllers (17). -/
  can : CanBlk := {}
  /-- Block: Memory Port and Host Port (18). -/
  serial : SerialBlk := {}
  /-- Block: Acquisition Engine (19). -/
  acq : AcqBlk := {}
  /-- Block: Thread Dispatcher and Cooper lanes (20). -/
  lanes : LanesBlk := {}
  /-- Block: configuration store (03, 04). -/
  store : Store := {}
  /-- Commands waiting, first in, first out: the model's own field. -/
  pending : List Instr := []
deriving DecidableEq, Repr

/-- How a command can stop with a fault.
No command of this part faults: the manual gives every one an effect, a refusal reply, or no effect. -/
inductive Fault
  /-- The named register file has no such entry: raised by no command, kept so that the type is inhabited; safe. -/
  | absent (what : String)
deriving DecidableEq, Repr

/-- Why a command has no meaning here. -/
inductive Refusal
  /-- The command of this mnemonic is not modelled yet; safe, since nothing can be shown of a run that stops. -/
  | notModelled (mnemonic : String)
deriving DecidableEq, Repr

/-- The part right after Reset is released (R44, R492, R339): Startup, phase 0x0, every table at its reset value,
Lodge unpowered until VSAF_RETURN; what the manual states no value for holds the value log entry 3 names. -/
def State.reset : State := {}

/-- Change the block: system region, device state, contexts, update groups. -/
def State.onSys (f : Sys → Sys) (s : State) : State := { s with sys := f s.sys }

/-- Change the block: operating point, power state, supplies, temperatures. -/
def State.onPower (f : Power → Power) (s : State) : State := { s with power := f s.power }

/-- Change the block: images, fuses, identity. -/
def State.onBoot (f : Boot → Boot) (s : State) : State := { s with boot := f s.boot }

/-- Change the block: Ruhity transports and commands under way. -/
def State.onPkts (f : Packets → Packets) (s : State) : State := { s with pkts := f s.pkts }

/-- Change the block: memory, fault record, events. -/
def State.onInteg (f : Integrity → Integrity) (s : State) : State := { s with integ := f s.integ }

/-- Change the block: axis slots AX0 to AX63. -/
def State.onAxis (f : Vector Axis 64 → Vector Axis 64) (s : State) : State := { s with axis := f s.axis }

/-- Change the block: Motion Planner and segment store. -/
def State.onPlan (f : Planner → Planner) (s : State) : State := { s with plan := f s.plan }

/-- Change the block: Gear Unit. -/
def State.onGear (f : GearUnit → GearUnit) (s : State) : State := { s with gear := f s.gear }

/-- Change the block: Loop Engine. -/
def State.onLoop (f : LoopEngine → LoopEngine) (s : State) : State := { s with loop := f s.loop }

/-- Change the block: Position Ports, compare, latch, snapshot. -/
def State.onPorts (f : PortsBlk → PortsBlk) (s : State) : State := { s with ports := f s.ports }

/-- Change the block: Bridge Timer Array. -/
def State.onBta (f : BtaBlk → BtaBlk) (s : State) : State := { s with bta := f s.bta }

/-- Change the block: Stepper Drive. -/
def State.onStepper (f : StepperBlk → StepperBlk) (s : State) : State := { s with stepper := f s.stepper }

/-- Change the block: remote bricks and frame groups. -/
def State.onBricks (f : BricksBlk → BricksBlk) (s : State) : State := { s with bricks := f s.bricks }

/-- Change the block: Backbone Switch, PTP, time bases, time outputs, cyclic maps. -/
def State.onNet (f : Net → Net) (s : State) : State := { s with net := f s.net }

/-- Change the block: safety island. -/
def State.onLodge (f : LodgeBlk → LodgeBlk) (s : State) : State := { s with lodge := f s.lodge }

/-- Change the block: Field I/O. -/
def State.onFio (f : FioBlk → FioBlk) (s : State) : State := { s with fio := f s.fio }

/-- Change the block: CAN controllers. -/
def State.onCan (f : CanBlk → CanBlk) (s : State) : State := { s with can := f s.can }

/-- Change the block: Memory Port and Host Port. -/
def State.onSerial (f : SerialBlk → SerialBlk) (s : State) : State := { s with serial := f s.serial }

/-- Change the block: Acquisition Engine. -/
def State.onAcq (f : AcqBlk → AcqBlk) (s : State) : State := { s with acq := f s.acq }

/-- Change the block: Thread Dispatcher and Cooper lanes. -/
def State.onLanes (f : LanesBlk → LanesBlk) (s : State) : State := { s with lanes := f s.lanes }

/-- Change the block: configuration store. -/
def State.onStore (f : Store → Store) (s : State) : State := { s with store := f s.store }

end Sys2Proof.Machine
end

