-- ==== Sys2Proof/Machine/Ops.lean ====
section
/-! DEFINITION.
Operations every block uses: bytes, indexed update, time, free values, events and the fault record. -/

namespace Sys2Proof.Machine

/-! Bytes: multi-byte fields of packets and Drayman frames are big-endian (R5, 00); image headers little-endian (R53, 03). -/

/-- Value of big-endian bytes. -/
def beNat (bs : List Byte) : Nat := bs.foldl (fun n b => n * 256 + b.toNat) 0

/-- Value of little-endian bytes. -/
def leNat (bs : List Byte) : Nat := beNat bs.reverse

/-- The low `8 * n` bits of `v` as `n` big-endian bytes. -/
def be : Nat → Nat → List Byte
  | 0, _ => []
  | n + 1, v => BitVec.ofNat 8 (v / 256 ^ n) :: be n v

/-- The low `8 * n` bits of `v` as `n` little-endian bytes. -/
def le (n v : Nat) : List Byte := (be n v).reverse

/-- Signed value of big-endian bytes (R6, 00). -/
def beInt (bs : List Byte) : Int := signed (8 * bs.length) (beNat bs)

/-- A signed value as `n` big-endian bytes. -/
def beI (n : Nat) (i : Int) : List Byte := be n (unsigned (8 * n) i)

/-- `len` bytes from offset `off`. -/
def slice {α : Type} (off len : Nat) (bs : List α) : List α := (bs.drop off).take len

/-- ASCII text as bytes. -/
def ascii (t : String) : List Byte := t.toList.map (fun c => BitVec.ofNat 8 c.toNat)

/-- 0 or 1. -/
def bit (b : Bool) : Nat := if b then 1 else 0

/-- Bit `i` of a number. -/
def hasBit (n i : Nat) : Bool := n / 2 ^ i % 2 == 1

/-- A field of a register: `width` bits from bit `lo`. -/
def field (w : Word) (lo width : Nat) : Nat := w.toNat / 2 ^ lo % 2 ^ width

/-- A register value from its fields: (lowest bit, width, value). -/
def pack (fs : List (Nat × Nat × Nat)) : Word :=
  BitVec.ofNat 32 (fs.foldl (fun n f => n + f.2.2 % 2 ^ f.2.1 * 2 ^ f.1) 0)

/-- Clamp to a range. -/
def clampInt (lo hi x : Int) : Int := if x < lo then lo else if hi < x then hi else x

/-! Rounding. Where a rule states half to even, `halfEven`; where no rule states how a value that its format cannot hold
is rounded, one of the two neighbours, which one being a free value (log entry 6). -/

/-- Quotient rounded half to even; the divisor is positive. -/
def halfEven (n d : Int) : Int :=
  let q := n.fdiv d
  let r := 2 * (n - q * d)
  if r < d then q else if d < r then q + 1 else if q % 2 = 0 then q else q + 1

/-- A rational rounded half to even. -/
def halfEvenR (x : Rat) : Int := halfEven x.num x.den

/-- Quotient rounded towards zero. -/
def towardsZero (n d : Int) : Int := n.tdiv d

/-- A rational rounded to one of its two neighbours. -/
def roundOpen (x : Rat) : Int := x.floor + (if x.den = 1 then 0 else bit (Config.roundUp x.num x.den))

/-- Clamp a rational. -/
def clampR (lo hi x : Rat) : Rat := if x < lo then lo else if hi < x then hi else x

/-- Square root of a rational: that of the square of a rational, else to 2^-64 below (log entry 10). -/
def sqrtR (x : Rat) : Rat :=
  let p := Nat.sqrt x.num.toNat
  let q := Nat.sqrt x.den
  if x ≤ 0 then 0
  else if p * p = x.num.toNat ∧ q * q = x.den then (p : Rat) / q
  else (Nat.sqrt (x.num.toNat * 2 ^ 128 / x.den) : Rat) / 2 ^ 64

/-- A rational from a binary64 code (R216); what an infinity or a NaN stands for is a free value (log entry 6). -/
def binary64 (b : BitVec 64) : Rat :=
  let e : Nat := b.toNat / 2 ^ 52 % 2 ^ 11
  let f : Nat := b.toNat % 2 ^ 52
  let whole : Nat := (2 ^ 52 + f) * 2 ^ (e - 1075)
  let top : Nat := 2 ^ 52 + f
  let m : Rat :=
    if e = 0x7FF then (Config.notFinite b : Rat)
    else if e = 0 then (f : Rat) / 2 ^ 1074
    else if 1075 ≤ e then (whole : Rat)
    else (top : Rat) / 2 ^ (1075 - e)
  if b.getLsbD 63 then -m else m

/-- A count in Q47.16 units, a rate in Q39.24 units, a fraction in Q1.31 units. -/
def ofQ16 (x : Int) : Rat := (x : Rat) / 65536
/-- The same for Q39.24. -/
def ofQ24 (x : Int) : Rat := (x : Rat) / 16777216
/-- The same for Q1.31. -/
def ofQ31 (x : Int) : Rat := (x : Rat) / 2147483648

/-- Seconds in a number of ticks of 2 ns (R10). -/
def secs (t : Nat) : Rat := (t : Rat) / 500000000

/-- Absolute value. -/
def absR (x : Rat) : Rat := if x < 0 then -x else x

/-- Add to a tally counter: 64 bits, wrapping (R464). -/
def bump (t : Tally) (n : Nat) : Tally := t + BitVec.ofNat 64 n

/-- Add to a counter pair by the sign of a change. -/
def bumpFwd (t : Tally) (n : Int) : Tally := if 0 < n then bump t n.toNat else t
/-- The counter of negative changes. -/
def bumpRev (t : Tally) (n : Int) : Tally := if n < 0 then bump t (-n).toNat else t

/-! Indexed collections. -/

/-- Change one entry of a numbered collection. -/
def upd {α : Type} {n : Nat} (v : Vector α n) (i : Fin n) (f : α → α) : Vector α n := v.set i (f v[i])

@[simp] theorem upd_same {α : Type} {n : Nat} (v : Vector α n) (i : Fin n) (f : α → α) :
    (upd v i f)[i] = f v[i] := by simp [upd]

theorem upd_other {α : Type} {n : Nat} (v : Vector α n) (i j : Fin n) (f : α → α) (h : i ≠ j) :
    (upd v i f)[j] = v[j] := by
  have h' : (i : Nat) ≠ j := fun e => h (Fin.ext e)
  simp [upd, h']

/-- Change every entry of a numbered collection, knowing its number. -/
def updAll {α : Type} {n : Nat} (v : Vector α n) (f : Fin n → α → α) : Vector α n :=
  Vector.ofFn (fun i => f i v[i])

theorem updAll_get {α : Type} {n : Nat} (v : Vector α n) (f : Fin n → α → α) (i : Fin n) : (updAll v f)[i] = f i v[i] := by
  simp [updAll]

/-- The entry a number names, when there is one. -/
def entry? {α : Type} {n : Nat} (v : Vector α n) (i : Nat) : Option α := if h : i < n then some v[i] else none

/-- Change the entry a number names, when there is one. -/
def updN {α : Type} {n : Nat} (v : Vector α n) (i : Nat) (f : α → α) : Vector α n :=
  if h : i < n then upd v ⟨i, h⟩ f else v

/-- Set the entry of a list kept by key. -/
def putKey {α : Type} (k : Nat) (x : α) (l : List (Nat × α)) : List (Nat × α) :=
  (k, x) :: l.filter (fun e => e.1 != k)

/-- The entry of a list kept by key. -/
def getKey {α : Type} (k : Nat) (l : List (Nat × α)) : Option α := (l.find? (fun e => e.1 == k)).map (·.2)

/-- Change the n-th element of a list. -/
def modifyNth {α : Type} (f : α → α) : Nat → List α → List α
  | _, [] => []
  | 0, x :: l => f x :: l
  | n + 1, x :: l => x :: modifyNth f n l

/-! Byte memory in canonical form: addresses strictly rising, no entry equal to what an unlisted address reads as. -/

/-- The byte at an address; `dflt` is what an unlisted address reads as. -/
def cellRead (dflt : Byte) (a : Nat) : List Host.Cell → Byte
  | [] => dflt
  | c :: m => if c.1 = a then c.2 else if a < c.1 then dflt else cellRead dflt a m

/-- Write one byte, keeping the canonical form. -/
def cellWrite (dflt : Byte) (a : Nat) (b : Byte) : List Host.Cell → List Host.Cell
  | [] => if b = dflt then [] else [(a, b)]
  | c :: m =>
    if c.1 = a then (if b = dflt then m else (a, b) :: m)
    else if a < c.1 then (if b = dflt then c :: m else (a, b) :: c :: m)
    else c :: cellWrite dflt a b m

/-- The canonical form, above a bound: every address at or above it, strictly rising, no default byte listed. -/
def cellsFrom (dflt : Byte) : Nat → List Host.Cell → Bool
  | _, [] => true
  | lo, c :: m => decide (lo ≤ c.1) && decide (c.2 ≠ dflt) && cellsFrom dflt (c.1 + 1) m

/-- A memory is well formed when it is in canonical form. -/
def Memory.wf (dflt : Byte) (m : List Host.Cell) : Bool := cellsFrom dflt 0 m

/-- `n` bytes from an address. -/
def cellsRead (dflt : Byte) (a : Nat) (m : List Host.Cell) : Nat → List Byte
  | 0 => []
  | n + 1 => cellRead dflt a m :: cellsRead dflt (a + 1) m n

/-- Write bytes from an address on. -/
def cellsWrite (dflt : Byte) (a : Nat) : List Byte → List Host.Cell → List Host.Cell
  | [], m => m
  | b :: bs, m => cellsWrite dflt (a + 1) bs (cellWrite dflt a b m)

/-- Registers and memories are little-endian (R4, 00). -/
def wordAt (dflt : Byte) (a : Nat) (m : List Host.Cell) : Word := BitVec.ofNat 32 (leNat (cellsRead dflt a m 4))

/-- Write a little-endian word. -/
def wordPut (dflt : Byte) (a : Nat) (w : Word) (m : List Host.Cell) : List Host.Cell :=
  cellsWrite dflt a (le 4 w.toNat) m

/-! Time (R10, R327). -/

/-- Ticks of 2 ns since Reset was released. -/
def State.now (s : State) : Nat := s.sys.tick.toNat

/-- SYS_TICK: the TB ticks among them; Rest and a loss of the reference stop TB (R33, R477). -/
def State.sysTick (s : State) : Nat := s.now - s.sys.stopped

/-- TB, NET and SP run: not in Reset or Rest, nor without the MEMS reference (Table 1.6, R477). -/
def tbRuns (s : State) : Bool := s.sys.dev != .reset && s.power.power != .rest && !s.power.refLost

/-- The domains that Nap gates as well run: the loops, FB, ACQ, CAN (Table 1.6). -/
def domainsRun (s : State) : Bool := tbRuns s && s.power.power != .nap

/-- Device time in ns: one tick is 2 ns (R10, 00). -/
def State.nowNs (s : State) : Nat := 2 * s.now

/-- The value of a time base in ns since its epoch (R327, 14). -/
def State.tbNs (b : Fin 4) (s : State) : Nat := s.net.tb[b].val / 2 ^ 39

/-- TBASE0 in ns. -/
def State.tb0 (s : State) : Nat := s.tbNs 0

/-- A general port as a consumer reads it: a write at the same instant is seen by the next read (R118, R449). -/
def portRead (p : Fin 64) (s : State) : Word :=
  if s.lanes.portAt[p] = some s.sysTick then s.lanes.portBefore[p] else s.lanes.port[p]

/-- TBASE0 as it stands while the device may be asleep: in Rest AON's coarse count goes on in its place (R35, 01). -/
def State.wall (s : State) : Nat := if s.power.power = .rest then s.power.coarse * 1000 else s.tb0

/-- TBASE0 is synchronised; a free-running base counts as synchronised to itself (R81, 04). -/
def State.tb0Sync (s : State) : Bool := s.net.tb[0].sync

/-- The TBASE0 instant a reply or an entry states: 0 while TBASE0 is not synchronised (R73, R473). -/
def State.stamp (s : State) : Nat := if s.tb0Sync then s.tb0 else 0

/-- TBASE0 instant of a device time in ns, by the present offset. -/
def State.toTb0 (ns : Nat) (s : State) : Int := (s.tb0 : Int) - s.nowNs + ns

/-- Device time in ns of a TBASE0 instant, by the present offset. -/
def State.ofTb0 (t : Nat) (s : State) : Int := (s.nowNs : Int) - s.tb0 + t

/-! Free values: fresh ones are numbered by a counter of the state (log entry 6). -/

/-- The next free value's number, and the state with the counter advanced. -/
def fresh (s : State) : Nat × State := (s.sys.free, s.onSys fun y => { y with free := y.free + 1 })

/-- A free natural number. -/
def freshNat (s : State) : Nat × State := (Config.freeNat s.sys.free, (fresh s).2)

/-- A free integer. -/
def freshInt (s : State) : Int × State := (Config.freeInt s.sys.free, (fresh s).2)

/-- A free bit. -/
def freshBool (s : State) : Bool × State := (Config.freeBool s.sys.free, (fresh s).2)

/-! Events (R475, R476, 21). -/

/-- Put an event in the queue of 1,024; a full queue drops it and counts it. -/
def event (code index : Nat) (detail : List Byte) (s : State) : State :=
  s.onInteg fun g =>
    if g.events.length < 1024 then
      { g with events := g.events ++ [{ code := code, index := index, detail := detail, time := s.tb0 }] }
    else { g with evtLost := if g.evtLost = 0xFFFF then g.evtLost else g.evtLost + 1 }

/-- The same event several times over. -/
def events (n code index : Nat) (detail : List Byte) (s : State) : State :=
  s.onInteg fun g =>
    let k := min n (1024 - g.events.length)
    { g with
      events := g.events ++ List.replicate k { code := code, index := index, detail := detail, time := s.tb0 }
      evtLost := BitVec.ofNat 16 (min 0xFFFF (g.evtLost.toNat + (n - k))) }

/-- An entry's 24 bytes: code, index, detail (12), TBASE0 ns (R475). -/
def Event.bytes (e : Event) : List Byte :=
  be 2 e.code ++ be 2 e.index ++ (e.detail ++ List.replicate 12 0).take 12 ++ be 8 e.time

/-! The fault record (R473, R474, 21). -/

/-- Code of a device state in SYS_STATE.STATE (Table 3.5, 03); Reset itself is never observable. -/
def DevState.code : DevState → Nat
  | .reset => 0
  | .startup => 1
  | .commissioning => 2
  | .operational => 3
  | .test => 4
  | .recovery => 5

/-- Write an entry: the oldest of 64 is overwritten, counted in LOST when it was unacknowledged. -/
def pushFault (e : FaultEntry) (g : Integrity) : Integrity :=
  if g.ring.length < 64 then { g with ring := g.ring ++ [e] }
  else
    { g with
      ring := g.ring.drop 1 ++ [e]
      lost := if (g.ring.head?.map (·.acked)).getD true || g.lost = 0xFF then g.lost else g.lost + 1 }

/-- Record a fault: its sequence is the next number, or 0 while the ring has been lost (R473). -/
def recordFault (code cls index detail : Nat) (present : Bool) (s : State) : State :=
  s.onInteg fun g =>
    let slow := s.power.power = .rest || s.power.refLost
    let e : FaultEntry :=
      { seq := if g.ringLost then 0 else g.nextSeq, code := code, cls := cls, present := present,
        coarse := slow, time := if slow then s.power.coarse * 1000 else s.stamp, tick := s.sysTick, index := index,
        dev := s.sys.dev.code, opBand := s.power.opNow + 16 * s.power.band, detail := detail }
    { pushFault e g with nextSeq := if g.ringLost then g.nextSeq else g.nextSeq + 1 }

/-- Note that a cause is present, or gone (R474). -/
def setCause (code index : Nat) (present : Bool) (s : State) : State :=
  s.onInteg fun g =>
    { g with
      causes := if present then (if g.causes.contains (code, index) then g.causes else g.causes ++ [(code, index)])
                else g.causes.filter (· != (code, index))
      ring := g.ring.map fun e => if e.code = code ∧ e.index = index then { e with present := present } else e }

/-- Unacknowledged entries of the ring. -/
def unacked (s : State) : List FaultEntry := s.integ.ring.filter (fun e => !e.acked)

/-- FAULTN is low while an entry is unacknowledged, or the ROM has halted, or waits for the PLL (R45, R58, R478); a halt of Keeper
does not drive it by itself. -/
def faultnLow (s : State) : Bool :=
  !(unacked s).isEmpty || (s.sys.phase == 0xF && s.boot.haltCause != 3) || (s.sys.dev == .startup && !s.power.pllLocked)

/-- The code a FAULT TLV names: the oldest unacknowledged entry, else the lowest device-class cause present (R474). -/
def blockingFault (s : State) : Option Nat :=
  match unacked s with
  | e :: _ => some e.code
  | [] => ((s.integ.causes.filter (fun c => c.1 < 0x20)).map (·.1)).min?

/-- After Startup: every state but Reset and Startup. -/
def afterStartup (s : State) : Bool := s.sys.dev != .startup && s.sys.dev != .reset

/-! Permissions (R60, R65, 03). -/

/-- The rights of an entry hold in the present state; what Operational grants, Test grants too (R65). -/
def Permission.holds (s : State) (e : Permission) : Bool :=
  e.states.contains s.sys.dev || (s.sys.dev == .test && e.states.contains .operational)

/-- An entry lets an access through. -/
def Permission.grants (write : Bool) (a : Nat) (s : State) (e : Permission) : Bool :=
  e.holds s && decide (e.lo ≤ a) && decide (a ≤ e.hi) && (if write then e.write else e.read)

/-- Gardener's table has an entry that permits an access. -/
def granted (write : Bool) (a : Nat) (s : State) : Bool := s.boot.perms.any (Permission.grants write a s)

/-- The PERMISSION event (R60, Table 21.6A): address, context, write, ignored strobes. -/
def permissionEvent (c : Fin 6) (a : Nat) (write : Bool) (ignored : Nat) (s : State) : State :=
  event 0x0002 0xFFFF (be 4 a ++ be 1 c.val ++ be 1 (bit write) ++ be 2 ignored) s

/-! Update groups that wait for their take-over point (R111, 05). -/

/-- The transfer of an armed value at its take-over point (R111). -/
def Buf.take (b : Buf) : Buf := { b with active := b.armed, due := false }

/-- The transfer where one is due (R111). -/
def Buf.takeDue (b : Buf) : Buf := if b.due then b.take else b

/-- Leg groups in gang mode that belong to an update group (R265). -/
def gangOf (n : Nat) (s : State) : List (Fin 32) :=
  (List.finRange 32).filter fun (g : Fin 32) => s.bta.grp[g].gang && s.bta.grp[g].strobe + 8 == n

/-- Something of an update group has been armed and has not transferred: overrides in US1, region locks in US3, armed sets of gang
groups. -/
def updateWaits (n : Nat) (s : State) : Bool :=
  if n = 1 then s.plan.ax.any (fun a => a.override.due) || s.plan.grp.any (fun g => g.override.due)
  else if n = 3 then s.loop.slot.any fun x => x.lp.any (·.lockDue)
  else (gangOf n s).any fun g => s.bta.grp[g].sealed

/-- UPD_PENDING clears once everything of the group has transferred (R111). -/
def settleUpdate (n : Nat) (s : State) : State :=
  if s.sys.updPending.getLsbD n && !updateWaits n s then
    s.onSys fun y => { y with updPending := y.updPending &&& ~~~BitVec.ofNat 16 (2 ^ n) }
  else s

end Sys2Proof.Machine
end

