-- ==== Sys2Proof/Machine/Crypto.lean ====
section
/-! DEFINITION.
SHA-256, HMAC-SHA-256, CRC-32 and ECDSA P-256 verification, which the manual names and the standards define
(PRESUMED, log entry 12: FIPS 180-4, RFC 2104, IEEE 802.3, FIPS 186-4). -/

namespace Sys2Proof.Machine

/-- The largest x with x ^ k at most n, below 2 ^ bits. -/
def rootBelow (k n : Nat) : Nat → Nat
  | 0 => 0
  | bits + 1 =>
    let hi := rootBelow k (n / 2 ^ k) bits * 2
    if (hi + 1) ^ k ≤ n then hi + 1 else hi

/-- The first 32 bits of the fraction of the k-th root of p. -/
def rootFraction (k p : Nat) : Word := BitVec.ofNat 32 (rootBelow k (p * 2 ^ (32 * k)) 38)

/-- The primes below `n`, in order. -/
def primesBelow (n : Nat) : List Nat :=
  (List.range n).filter fun p => decide (2 ≤ p) && (List.range p).all fun d => decide (d < 2) || p % d != 0

/-- Round constants of SHA-256: the fractions of the cube roots of the first 64 primes. -/
def shaK : List Word := (primesBelow 312).map (rootFraction 3)

/-- Initial hash value of SHA-256: the fractions of the square roots of the first eight primes. -/
def shaH0 : List Word := (primesBelow 20).map (rootFraction 2)

/-- A word turned right by each of the amounts, added bit by bit. -/
def turned (amounts : List Nat) (x : Word) : Word := amounts.foldl (fun r n => r ^^^ x.rotateRight n) 0

/-- Extend a message schedule, newest word first. -/
def shaExtend : Nat → List Word → List Word
  | 0, w => w
  | n + 1, w =>
    let back := fun k => w.getD (k - 1) 0
    let early := turned [7, 18] (back 15) ^^^ (back 15 >>> 3)
    let late := turned [17, 19] (back 2) ^^^ (back 2 >>> 10)
    shaExtend n ((late + back 7 + early + back 16) :: w)

/-- One round on the eight working words, a to h: they move on by one place. -/
def shaRound (v : List Word) (kw : Word × Word) : List Word :=
  let x := fun k => v.getD k 0
  let choice := ((x 5 ^^^ x 6) &&& x 4) ^^^ x 6
  let majority := (x 0 &&& (x 1 ||| x 2)) ||| (x 1 &&& x 2)
  let t := turned [6, 11, 25] (x 4) + choice + x 7 + (kw.1 + kw.2)
  [t + turned [2, 13, 22] (x 0) + majority] ++ v.take 3 ++ [x 3 + t] ++ (v.drop 4).take 3

/-- Words of a block. -/
def shaWords : Nat → List Byte → List Word
  | 0, _ => []
  | n + 1, bs => BitVec.ofNat 32 (beNat (bs.take 4)) :: shaWords n (bs.drop 4)

/-- Compress `n` blocks. -/
def shaBlocks : Nat → List Byte → List Word → List Word
  | 0, _, h => h
  | n + 1, bs, h =>
    let w := (shaExtend 48 (shaWords 16 (bs.take 64)).reverse).reverse
    let v := (shaK.zip w).foldl shaRound h
    shaBlocks n (bs.drop 64) (List.zipWith (· + ·) h v)

/-- SHA-256 of a byte string. -/
def sha256 (bs : List Byte) : List Byte :=
  let z := (119 - bs.length % 64) % 64
  let m := bs ++ [0x80] ++ List.replicate z 0 ++ be 8 (8 * bs.length)
  (shaBlocks (m.length / 64) m shaH0).flatMap (fun w => be 4 w.toNat)

/-- HMAC-SHA-256 under a key of at most 64 bytes. -/
def hmac (key msg : List Byte) : List Byte :=
  let k := (key ++ List.replicate 64 0).take 64
  sha256 (k.map (· ^^^ 0x5c) ++ sha256 (k.map (· ^^^ 0x36) ++ msg))

/-- Eight bits of a reflected CRC-32. -/
def crcBits : Nat → Word → Word
  | 0, c => c
  | n + 1, c => crcBits n (if c.getLsbD 0 then (c >>> 1) ^^^ 0xEDB88320 else c >>> 1)

/-- CRC-32 with the IEEE 802.3 polynomial (R360, 15). -/
def crc32 (bs : List Byte) : Word :=
  ~~~ (bs.foldl (fun c b => crcBits 8 (c ^^^ b.setWidth 32)) 0xFFFFFFFF)

/-- P-256 field prime. -/
def p256 : Nat := 0xFFFFFFFF00000001000000000000000000000000FFFFFFFFFFFFFFFFFFFFFFFF
/-- P-256 group order. -/
def n256 : Nat := 0xFFFFFFFF00000000FFFFFFFFFFFFFFFFBCE6FAADA7179E84F3B9CAC2FC632551
/-- P-256 curve coefficient b. -/
def b256 : Nat := 0x5AC635D8AA3A93E7B3EBBD55769886BC651D06B0CC53B0F63BCE3C3E27D2604B
/-- P-256 base point. -/
def g256 : Nat × Nat :=
  (0x6B17D1F2E12C4247F8BCE6E563A440F277037D812DEB33A0F4A13945D898C296,
   0x4FE342E2FE1A7F9B8EE7EB4A7C0F9E162BCE33576B315ECECBB6406837BF51F5)

/-- b ^ e modulo m, e below 2^n. -/
def powMod (m b e : Nat) : Nat → Nat
  | 0 => 1 % m
  | n + 1 =>
    let h := powMod m b (e / 2) n
    if e % 2 = 1 then h * h % m * b % m else h * h % m

/-- Inverse modulo a prime. -/
def invMod (m a : Nat) : Nat := powMod m (a % m) (m - 2) 256

/-- Point addition on P-256; none is the point at infinity. -/
def ecAdd : Option (Nat × Nat) → Option (Nat × Nat) → Option (Nat × Nat)
  | none, q => q
  | p, none => p
  | some (x1, y1), some (x2, y2) =>
    if x1 = x2 ∧ (y1 + y2) % p256 = 0 then none
    else
      let l := if x1 = x2 then (3 * x1 * x1 + (p256 - 3)) * invMod p256 (2 * y1) % p256
               else (y2 + p256 - y1) * invMod p256 (x2 + p256 - x1) % p256
      let x3 := (l * l + 2 * p256 - x1 - x2) % p256
      some (x3, (l * (x1 + p256 - x3) + p256 - y1) % p256)

/-- k times a point, k below 2^n. -/
def ecMul (k : Nat) (p : Option (Nat × Nat)) : Nat → Option (Nat × Nat)
  | 0 => none
  | n + 1 =>
    let h := ecMul (k / 2) p n
    let d := ecAdd h h
    if k % 2 = 1 then ecAdd d p else d

/-- ECDSA P-256 with SHA-256: does the 64-byte signature (r, s) of `msg` verify under the 64-byte public key (X, Y)? -/
def ecdsaOk (pub msg sig : List Byte) : Bool :=
  let x := beNat (pub.take 32)
  let y := beNat (slice 32 32 pub)
  let r := beNat (sig.take 32)
  let t := beNat (slice 32 32 sig)
  let e := beNat (sha256 msg)
  let w := invMod n256 t
  pub.length == 64 && sig.length == 64 && decide (x < p256) && decide (y < p256) &&
  decide (y * y % p256 = (x * x * x + (p256 - 3) * x + b256) % p256) &&
  decide (0 < r) && decide (r < n256) && decide (0 < t) && decide (t < n256) &&
  (match ecAdd (ecMul (e * w % n256) (some g256) 256) (ecMul (r * w % n256) (some (x, y)) 256) with
   | none => false
   | some (x3, _) => x3 % n256 == r)

end Sys2Proof.Machine
end

