-- ==== Sys2Proof/Machine/Operands.lean ====
section
/-! DEFINITION.
The operands of a Ruhity command: its TLVs (R71, 04), their checks, and the refusals (R74, R94). -/

namespace Sys2Proof.Machine

/-- Status codes (Table 4.8, 04). -/
inductive Status
  | done | accepted | badOpcode | badLength | badParam | badTarget | stateConflict | busy | denied | authFail
  | late | resource | faultActive | slack
deriving DecidableEq, Repr

/-- The code of a status (Table 4.8). -/
def Status.code : Status → Nat
  | .done => 0x0000
  | .accepted => 0x0001
  | .badOpcode => 0x0100
  | .badLength => 0x0101
  | .badParam => 0x0102
  | .badTarget => 0x0103
  | .stateConflict => 0x0200
  | .busy => 0x0201
  | .denied => 0x0300
  | .authFail => 0x0301
  | .late => 0x0400
  | .resource => 0x0500
  | .faultActive => 0x0600
  | .slack => 0x0700

/-- A result TLV: type and value. -/
abbrev Res := Nat × List Byte

/-- A refusal: its status and the TLVs it carries. -/
structure Deny where
  /-- Status. -/
  status : Status
  /-- TLVs, DETAIL first. -/
  tlvs : List Res := []
deriving DecidableEq, Repr

/-- A TLV of a request: its type, the byte offset of its head in the request, and its value. -/
structure Tlv where
  /-- Type. -/
  type : Nat
  /-- Offset of the head in the request. -/
  off : Nat
  /-- Value, without padding. -/
  value : List Byte
deriving DecidableEq, Repr

/-- The DETAIL TLV (Table 4.3). -/
def detail (off type reason : Nat) : Res := (0x0001, be 2 off ++ be 2 type ++ be 2 reason ++ be 2 0)

/-- A refusal whose DETAIL is stated. -/
def denyAt (st : Status) (off type reason : Nat) : Deny := ⟨st, [detail off type reason]⟩

/-- A refusal whose DETAIL no rule states: its fields are free values (log entry 6). -/
def deny (st : Status) (more : List Res := []) : Deny :=
  ⟨st, detail (Config.openDetail st.code 0) (Config.openDetail st.code 1) (Config.openDetail st.code 2) :: more⟩

/-- STATE_CONFLICT. -/
def conflict : Deny := deny .stateConflict

/-- AUTH_FAIL carries no DETAIL (Table 4.8). -/
def authFail : Deny := ⟨.authFail, []⟩

/-- FAULT_ACTIVE carries FAULT (Table 4.8). -/
def faultActive (code : Nat) : Deny := deny .faultActive [(0x0007, be 2 code)]

/-- The TLVs of a parameter area, as far as they are whole (R71). -/
def tlvsFrom : Nat → Nat → List Byte → List Tlv
  | 0, _, _ => []
  | n + 1, off, bs =>
    if bs.length < 4 then []
    else
      let len := beNat (slice 2 2 bs)
      let step := 4 + (len + 3) / 4 * 4
      ⟨beNat (bs.take 2), off, slice 4 len bs⟩ :: tlvsFrom n (off + step) (bs.drop step)

/-- The TLVs of a request. -/
def tlvs (rq : Request) : List Tlv := tlvsFrom rq.params.length 24 rq.params

/-- The TLV of a type, if the request carries one. -/
def tlv? (rq : Request) (t : Nat) : Option Tlv := (tlvs rq).find? (·.type == t)

/-- Does the request carry this type? -/
def has (rq : Request) (t : Nat) : Bool := (tlv? rq t).isSome

/-- The value of a type; empty when absent. -/
def value (rq : Request) (t : Nat) : List Byte := ((tlv? rq t).map (·.value)).getD []

/-- Every TLV of a repeated type, in order. -/
def every (rq : Request) (t : Nat) : List Tlv := (tlvs rq).filter (·.type == t)

/-- `n` bytes at `off` of a TLV's value as an unsigned number. -/
def num (rq : Request) (t off n : Nat) : Nat := beNat (slice off n (value rq t))

/-- `n` bytes at `off` of a TLV's value as a signed number. -/
def int (rq : Request) (t off n : Nat) : Int := beInt (slice off n (value rq t))

/-- The same, or a default when the TLV is absent. -/
def numD (rq : Request) (t off n d : Nat) : Nat := if has rq t then num rq t off n else d

/-- The same, signed. -/
def intD (rq : Request) (t off n : Nat) (d : Int) : Int := if has rq t then int rq t off n else d

/-- The target as an index below n; step 10 has checked it. -/
def tgt (n : Nat) [NeZero n] (rq : Request) : Fin n := Fin.ofNat n rq.target.toNat

/-- Offset of a TLV a DETAIL names; free when the request does not carry it (log entry 6). -/
def tlvOff (rq : Request) (t : Nat) : Nat := ((tlv? rq t).map (·.off)).getD (Config.openDetail 0x0102 0)

/-- Value out of range: BAD_PARAM, reason 3, naming the TLV (R74). -/
def badValue (rq : Request) (t : Nat) : Deny := denyAt .badParam (tlvOff rq t) t 3

/-- A STATE_CONFLICT whose DETAIL names a TLV; its reason is free. -/
def conflictAt (rq : Request) (t : Nat) : Deny := denyAt .stateConflict (tlvOff rq t) t (Config.openDetail 0x0200 2)

/-- A mandatory TLV is missing: BAD_PARAM, reason 4. -/
def missing (t : Nat) : Deny := denyAt .badParam (Config.openDetail 0x0102 0) t 4

/-- A capability the binding lacks: BAD_PARAM, DETAIL reason 3 and CAPABILITY (R125, 06). -/
def lacks (rq : Request) (t cap : Nat) : Deny :=
  ⟨.badParam, [detail (tlvOff rq t) t 3, (0x0006, be 2 cap)]⟩

/-- A resource another slot holds: RESOURCE with the same two TLVs (R125, 06). -/
def taken (rq : Request) (t cap : Nat) : Deny :=
  ⟨.resource, [detail (tlvOff rq t) t 3, (0x0006, be 2 cap)]⟩

/-- Bits 63 and 62 of an 8-byte parameter differ (R7, 00). -/
def bad63 (bs : List Byte) : Bool := bs.length == 8 && (hasBit (beNat bs) 63 != hasBit (beNat bs) 62)

/-- A TLV has a 63-bit field at `off` whose top bits differ. -/
def bad63At (rq : Request) (t off : Nat) : Bool := bad63 (slice off 8 (value rq t))

/-- The first refusal whose condition holds. -/
def firstDeny (l : List (Bool × Deny)) : Option Deny := (l.find? (·.1)).map (·.2)

/-- What an opcode's table says of one TLV type: the lengths `lo`, `lo + step`, … up to `hi`; mandatory or not;
how often it may appear (R71). -/
structure TlvSpec where
  /-- Type. -/
  type : Nat
  /-- Least length. -/
  lo : Nat
  /-- Greatest length. -/
  hi : Nat
  /-- Distance between admitted lengths. -/
  step : Nat := 1
  /-- Mandatory. -/
  req : Bool := true
  /-- How often it may appear. -/
  many : Nat := 1
deriving DecidableEq, Repr

/-- A TLV of one fixed length, mandatory. -/
def fixed (type len : Nat) : TlvSpec := { type := type, lo := len, hi := len }

/-- A TLV of one fixed length, optional. -/
def optional (type len : Nat) : TlvSpec := { type := type, lo := len, hi := len, req := false }

/-- Does the schema admit this length? -/
def TlvSpec.admits (p : TlvSpec) (len : Nat) : Bool :=
  decide (p.lo ≤ len) && decide (len ≤ p.hi) && (len - p.lo) % (max p.step 1) == 0

/-- The structure checks of R71 on a parameter area, TLV by TLV. -/
def tlvCheck (schema : List TlvSpec) : Nat → Nat → List Byte → List Nat → Option Deny
  | 0, _, _, seen => ((schema.filter (fun p => p.req && !seen.contains p.type)).head?).map (fun p => missing p.type)
  | n + 1, off, bs, seen =>
    if bs = [] then ((schema.filter (fun p => p.req && !seen.contains p.type)).head?).map (fun p => missing p.type)
    else
      let t := beNat (bs.take 2)
      let len := beNat (slice 2 2 bs)
      let step := 4 + (len + 3) / 4 * 4
      if bs.length < 4 then some (denyAt .badLength off 0 11)
      else if bs.length < step then some (denyAt .badLength off t 11)
      else
        match (slice (4 + len) (step - 4 - len) bs).findIdx? (· != 0) with
        | some k => some (denyAt .badParam (off + 4 + len + k) t 3)
        | none =>
          match schema.find? (·.type == t) with
          | none =>
            if hasBit t 15 then tlvCheck schema n (off + step) (bs.drop step) seen
            else some (denyAt .badParam off t 6)
          | some p =>
            if p.many ≤ seen.count t then some (denyAt .badParam off t 5)
            else if !p.admits len then some (denyAt .badParam off t 11)
            else tlvCheck schema n (off + step) (bs.drop step) (t :: seen)

end Sys2Proof.Machine
end

