-- ==== Sys2Proof/Machine/Reply.lean ====
section
/-! DEFINITION.
Replies: their bytes (R73, 04), their transport (R75), the reply cache (R78) and commands answered at completion. -/

namespace Sys2Proof.Machine

/-- A result TLV on the wire, padded to 4 bytes (R71). -/
def Res.bytes (r : Res) : List Byte :=
  be 2 r.1 ++ be 2 r.2.length ++ r.2 ++ List.replicate ((4 - r.2.length % 4) % 4) 0

/-- The flags of a reply (Table 4.2): AUTH when the request's tag verified, NOREPLY, RESYNC and KEY echoed. -/
def replyFlags (rq : Request) (deferred : Bool) : Nat :=
  bit rq.authed + 2 + (rq.flags.toNat &&& 0xCC) + 16 * bit deferred

/-- The time-of-effect field of a reply (R73). -/
def replyTime (rq : Request) (st : Status) (s : State) : Nat :=
  match st with
  | .done => s.stamp
  | .accepted => rq.toe.toNat
  | _ => rq.arrival

/-- A reply without its tag (R73). -/
def replyBytes (opcode : Nat) (rq : Request) (st : Status) (results : List Res) (deferred : Bool) (s : State) :
    List Byte :=
  let area := be 2 st.code ++ be 2 0 ++ results.flatMap Res.bytes
  be 2 0x4B5A ++ be 1 1 ++ be 1 (replyFlags rq deferred) ++ be 4 rq.seq.toNat ++ be 2 opcode ++
    be 2 rq.target.toNat ++ be 2 area.length ++ be 2 rq.tag.toNat ++ be 8 (replyTime rq st s) ++ area

/-- The flags byte of a packet. -/
def packetFlags (p : List Byte) : Nat := (p.getD 3 0).toNat

/-- Append the tag of a packet whose AUTH flag is set, under the key slot its KEY bits name (R86). -/
def sealed (p : List Byte) (s : State) : List Byte :=
  if hasBit (packetFlags p) 0 then
    match s.pkts.keys[Fin.ofNat 4 (packetFlags p / 64)] with
    | some k => p ++ (hmac k p).take 16
    | none => p
  else p

/-- The same reply with REPEATED set (R78). -/
def repeated (p : List Byte) : List Byte := p.take 3 ++ [p.getD 3 0 ||| 0x20] ++ p.drop 4

/-- Hand a reply to its transport: the outbox of 16 entries or the waiting replies behind it, or UDP (R75). -/
def emit (src : Source) (p : List Byte) (s : State) : State :=
  let q := sealed p s
  s.onPkts fun k =>
    match src with
    | .hostPort =>
      if k.outbox.length < 16 ∧ k.waiting = [] then { k with outbox := k.outbox ++ [q] }
      else { k with waiting := k.waiting ++ [q] }
    | .udp _ _ => { k with udpOut := k.udpOut ++ [{ dst := src, bytes := q }] }

/-- Keep a reply as the latest one sent for its sequence, in the window it was marked in (R78, R79). -/
def cacheReply (rq : Request) (p : List Byte) (s : State) : State :=
  s.onPkts fun k =>
    { k with windows := k.windows.map fun w =>
        if w.src = rq.src then
          { w with seen := w.seen.map fun e => if e.seq = rq.seq ∧ e.epoch = rq.epoch then { e with reply := some p } else e }
        else w }

/-- NOREPLY suppresses a DONE or ACCEPTED (Table 4.2, R83). -/
def suppressed (rq : Request) (st : Status) : Bool :=
  rq.flags.getLsbD 2 && (st == .done || st == .accepted)

/-- AUTH_FAIL refusals are counted by source; 16 within 1 s lock the source out (R86). -/
def countAuthFail (src : Source) (st : Status) (s : State) : State :=
  if st = .authFail then
    s.onPkts fun k =>
      let l := (src, s.now) :: k.authFails.filter fun e => decide (s.now < e.2 + 500000000)
      { k with
        authFails := l
        lockouts := if 16 ≤ (l.filter fun e => e.1 == src).length then (src, s.now) :: k.lockouts.filter fun e => e.1 != src else k.lockouts }
  else s

/-- A refusal that belongs to no window: neither cached nor suppressed; the version byte is the request's (R73, R78). -/
def refusePlain (opcode version : Nat) (rq : Request) (d : Deny) (s : State) : State :=
  let p := replyBytes opcode rq d.status d.tlvs false s
  emit rq.src (p.take 2 ++ be 1 version ++ p.drop 3) (countAuthFail rq.src d.status s)

/-- The packets of a source are dropped: less than 1 s ago its refusals reached 16 (R86). -/
def lockedOut (src : Source) (s : State) : Bool := s.pkts.lockouts.any fun e => e.1 == src && decide (s.now < e.2 + 500000000)

/-- Answer the duplicates held for a request; one whose own NOREPLY is set gets no DONE and no ACCEPTED (R78). -/
def answerHeld (rq : Request) (st : Status) (p : List Byte) (s : State) : State :=
  let mine := fun (d : HeldDuplicate) => d.src == rq.src && d.seq == rq.seq && d.epoch == rq.epoch
  let dup := s.pkts.held.filter fun d => mine d && !(d.quiet && (st == .done || st == .accepted))
  let s1 := s.onPkts fun k => { k with held := k.held.filter fun d => !mine d }
  dup.foldl (fun s _ => emit rq.src (repeated p) s) s1

/-- Send the reply of a request: cache it, hand it over unless suppressed, and answer held duplicates (R78). -/
def sendReply (opcode : Nat) (rq : Request) (st : Status) (results : List Res) (deferred : Bool) (s : State) : State :=
  let p := replyBytes opcode rq st results deferred s
  let s1 := cacheReply rq p (countAuthFail rq.src st s)
  answerHeld rq st p (if suppressed rq st then s1 else emit rq.src p s1)

/-- Answer every command under way that `p` names (R78, R83) and strike it. -/
def finish (p : Exec → Bool) (st : Status) (results : List Res) (s : State) : State :=
  let l := s.pkts.executing.filter p
  let s1 := s.onPkts fun k => { k with executing := k.executing.filter (fun e => !p e) }
  l.foldl (fun s e => sendReply e.opcode e.rq st results e.deferred s) s1

/-- The same with a refusal. -/
def finishDeny (p : Exec → Bool) (d : Deny) (s : State) : State := finish p d.status d.tlvs s

end Sys2Proof.Machine
end

