-- ==== Sys2Proof/Machine/BtaCore.lean ====
section
/-! DEFINITION.
Legs and their outputs: dead time, precedence of conditions, overrides, trip and STO latches (R251 to R272, 11). -/

namespace Sys2Proof.Machine

/-- The legs of a group: LEG3g, LEG3g+1, LEG3g+2 (11). -/
def groupLegs (g : Fin 32) : List (Fin 96) :=
  [⟨3 * g, by omega⟩, ⟨3 * g + 1, by omega⟩, ⟨3 * g + 2, by omega⟩]

/-- The group of a leg. -/
def legGroup (n : Fin 96) : Fin 32 := ⟨n / 3, by omega⟩

/-- The legs a leg-set code names (Table 6.1, 06). -/
def legSetLegs (code : Nat) : List (Fin 96) :=
  let i := code % 0x1000
  match code / 0x1000 with
  | 1 => if i < 32 then [3 * i, 3 * i + 1, 3 * i + 2].map (Fin.ofNat 96) else []
  | 2 => if i < 16 then [6 * i, 6 * i + 1, 6 * i + 2, 6 * i + 3].map (Fin.ofNat 96) else []
  | 3 => if i < 32 then [3 * i, 3 * i + 1].map (Fin.ofNat 96) else []
  | 4 => if i < 16 then [6 * i + 4, 6 * i + 5].map (Fin.ofNat 96) else []
  | _ => []

/-- The groups a binding occupies, lowest first (R121, R122, 06). -/
def slotGroups (b : Binding) : List (Fin 32) :=
  if b.location = 1 then ((legSetLegs b.legSet).map legGroup).eraseDups else []

/-- The slots whose binding occupies a group. -/
def groupSlots (g : Fin 32) (s : State) : List (Fin 64) :=
  (List.finRange 64).filter fun i => (slotGroups s.axis[i].bind).contains g

/-- A slot is Enabling, Enabled or Reacting. -/
def live (a : Axis) : Bool := a.st == .enabling || a.st == .enabled || a.st == .reacting

/-- Turn the high side off, noting when. -/
def Leg.hOffAt (now : Nat) (l : Leg) : Leg := { l with h := false, hDue := none, hOff := if l.h then now else l.hOff }

/-- Turn the low side off, noting when. -/
def Leg.lOffAt (now : Nat) (l : Leg) : Leg := { l with l := false, lDue := none, lOff := if l.l then now else l.lOff }

/-- Both outputs low (R251). -/
def Leg.allOff (now : Nat) (l : Leg) : Leg := (l.hOffAt now).lOffAt now

/-- Low side on: at once when DT_F since the high side last went low has passed, else then (R257, R267). -/
def Leg.toLow (now : Nat) (l : Leg) : Leg :=
  let k := l.hOffAt now
  if k.l then k
  else if k.hOff + k.dtF ≤ now then { k with l := true, lDue := none }
  else { k with lDue := some (k.hOff + k.dtF) }

/-- High side on: at once when DT_R since the low side last went low has passed, else then (R257). -/
def Leg.toHigh (now : Nat) (l : Leg) : Leg :=
  let k := l.lOffAt now
  if k.h then k
  else if k.lOff + k.dtR ≤ now then { k with h := true, hDue := none }
  else { k with hDue := some (k.lOff + k.dtR) }

/-- A rise of s: LEGn_L low at once, LEGn_H high DT_R later (R257). -/
def Leg.rise (now : Nat) (l : Leg) : Leg :=
  let k := l.lOffAt now
  if k.dtR = 0 then { k with h := true, hDue := none } else { k with hDue := if k.h then none else some (now + k.dtR) }

/-- A fall of s: LEGn_H low at once, LEGn_L high DT_F later (R257). -/
def Leg.fall (now : Nat) (l : Leg) : Leg :=
  let k := l.hOffAt now
  if k.dtF = 0 then { k with l := true, lDue := none } else { k with lDue := if k.l then none else some (now + k.dtF) }

/-- Turn-ons that have fallen due. -/
def Leg.settle (now : Nat) (l : Leg) : Leg :=
  let k := match l.hDue with
    | some t => if t ≤ now then { l with h := true, hDue := none } else l
    | none => l
  match k.lDue with
  | some t => if t ≤ now then { k with l := true, lDue := none } else k
  | none => k

/-- s held low (a cycle trip, Table 11.4): a fall where s was high. -/
def Leg.holdLow (now : Nat) (l : Leg) : Leg :=
  if l.h || l.hDue.isSome then l.fall now else if l.l || l.lDue.isSome then l else l.toLow now

/-- The outputs follow s again after a condition of Table 11.4; one that follows it already is left alone. -/
def Leg.follow (now : Nat) (up : Bool) (l : Leg) : Leg :=
  if up then if l.h || l.hDue.isSome then l else l.toHigh now
  else if l.l || l.lDue.isSome then l else l.toLow now

/-- What a condition asks of a leg: both switches off, one on, s held low, or s followed. -/
inductive LegWant | off | low | high | hold | pwm (up : Bool)
deriving DecidableEq, Repr

/-- TRIP_STATE as a demand (R269). -/
def tripWant (n : Nat) : LegWant := if n = 1 then .low else if n = 2 then .high else .off

/-- Conditions under which every leg is off whatever its group's state: Reset and Startup (R251, R57), the clamp of
R477, Nap and Rest (R277), a bank that is changing its level (R276), a leg not yet in service or held off by its slot. -/
def legForcedOff (s : State) (n : Fin 96) : Bool :=
  s.sys.dev == .reset || s.sys.dev == .startup || s.sys.legClamp || s.power.power == .nap || s.power.power == .rest ||
  (s.bta.bank[(⟨n / 12, by omega⟩ : Fin 8)]).changing.isSome || !s.bta.grp[legGroup n].inService || s.bta.leg[n].legOff

/-- The state a leg takes from the highest-ranked condition in force (R266, Table 11.4). -/
def legWant (s : State) (n : Fin 96) : LegWant :=
  let g := s.bta.grp[legGroup n]
  let l := s.bta.leg[n]
  if legForcedOff s n then .off
  else if g.bySto || g.stoClear then .off
  else if g.held || g.clearing then tripWant l.tripState
  else if g.override = 1 then .off
  else if g.override = 2 then .low
  else if g.cycle then .hold
  else if !g.run && !g.occupied then .off
  else .pwm l.s

/-- Bring a leg to the state asked for. -/
def Leg.apply (now : Nat) (w : LegWant) (l : Leg) : Leg :=
  match w with
  | .off => l.allOff now
  | .low => l.toLow now
  | .high => l.toHigh now
  | .hold => l.holdLow now
  | .pwm up => l.follow now up

/-- Bring a leg to the state of Table 11.4. -/
def refreshLeg (n : Fin 96) (s : State) : State :=
  s.onBta fun b => { b with leg := upd b.leg n (Leg.apply s.now (legWant s n)) }

/-- Bring the legs of a group to the states of Table 11.4. -/
def refreshGroup (g : Fin 32) (s : State) : State := (groupLegs g).foldl (fun s n => refreshLeg n s) s

/-- The same for every group. -/
def refreshAll (s : State) : State := (List.finRange 32).foldl (fun s g => refreshGroup g s) s

/-- Change a group. -/
def onGrp (g : Fin 32) (f : BtaGroup → BtaGroup) (s : State) : State :=
  s.onBta fun b => { b with grp := upd b.grp g f }

/-- Change a leg. -/
def onLeg (n : Fin 96) (f : Leg → Leg) (s : State) : State := s.onBta fun b => { b with leg := upd b.leg n f }

/-- Take an override of a group: 1 off, 2 low (R267). -/
def overrideGroup (kind : Nat) (g : Fin 32) (s : State) : State :=
  refreshGroup g (onGrp g (fun x => { x with override := kind, release := false }) s)

/-- Ask for the override of a group to be released at its next boundary (R267). -/
def releaseGroup (g : Fin 32) (s : State) : State := onGrp g (fun x => { x with release := true }) s

/-- Latch STO on every group as rank 1 (R272). -/
def stoLatchAll (s : State) : State :=
  refreshAll (s.onBta fun b =>
    { b with grp := updAll b.grp fun _ g => { g with bySto := true, held := true, stoClear := false } })

end Sys2Proof.Machine
end

