-- ==== Sys2Proof/Machine/Admission.lean ====
section
/-! DEFINITION.
The admission proof and the choice of operating point (R20 to R35, R491, 01; R133, 06; R192, 09).
Times are in ns, and in units of 10^-4 ns where step times enter. -/

namespace Sys2Proof.Machine

/-- Worst-case step time t_wc of an operating point in 10^-2 ns (Table 1.2, 01). -/
def stepWc (op : Nat) : Nat := [178, 188, 199, 211, 225, 242, 266, 300].getD op 300

/-- Step factor of a band in 10^-2 (Table 1.5). -/
def bandFactor (band : Nat) : Nat := [86, 90, 95, 100].getD band 100

/-- Ceiling of a band, degrees Celsius (Table 1.5). -/
def bandCeiling (band : Nat) : Int := [65, 85, 105, 125].getD band 125

/-- t_step of R24 in 10^-4 ns: t_wc times the factor of the band when banded proof is on (R31). -/
def stepTime (op band : Nat) (banded : Bool) : Nat := stepWc op * (if banded then bandFactor band else 100)

/-- Service latencies of Table 1.4 in ns: motion, network, host command. -/
def serviceLatency (op : Nat) : Nat × Nat × Nat :=
  [(4000, 2000, 40000), (4220, 2110, 42200), (4470, 2240, 44700), (4740, 2370, 47400),
   (5060, 2530, 50600), (5440, 2720, 54400), (5980, 2990, 59800), (6740, 3370, 67400)].getD op (6740, 3370, 67400)

/-- The loops a slot of this depth has: 0 current, 1 velocity, 2 position (R133, 06). -/
def loopsOfDepth (depth : Nat) (currents : Bool) : List (Fin 3) :=
  match depth with
  | 0 => if currents then [0] else []
  | 1 => [0]
  | 2 => [0, 1]
  | _ => [0, 1, 2]

/-- The brick channel a remote slot names (R124, 06). -/
def brickChannel (b : Binding) (s : State) : Channel :=
  s.bricks.brick[Fin.ofNat 64 b.brick].chan[Fin.ofNat 4 b.channel]

/-- The slot has measured current: bound inputs, or the currents its brick reports. -/
def hasCurrents (b : Binding) (s : State) : Bool :=
  if b.location = 1 then !b.inputs.isEmpty else b.location == 2 && decide (0 < (brickChannel b s).currents)

/-- The loops a slot has with this binding and mode. -/
def slotLoops (b : Binding) (m : AxisMode) (s : State) : List (Fin 3) := loopsOfDepth m.depth (hasCurrents b s)

/-- P and Q of a loop kind at n sections (R192, 09): kind 0 is the current loop of the drive kind. -/
def loopSteps (drive : Nat) (k : Fin 3) (n : Nat) : Nat × Nat :=
  if k = 0 then
    if drive = 2 then (332 + 36 * n, 8 + 2 * n)
    else if drive = 3 ∨ drive = 4 then (228 + 36 * n, 6 + n)
    else (372 + 36 * n, 8 + 2 * n)
  else (112 + 36 * n, 2 + n)

/-- A loop as the proof sees it. -/
structure ProofLoop where
  /-- Axis slot. -/
  slot : Fin 64
  /-- 0 current, 1 velocity, 2 position. -/
  kind : Fin 3
  /-- Path length, steps. -/
  p : Nat
  /-- Issue occupancy, steps. -/
  q : Nat
  /-- L, ticks. -/
  l : Nat
  /-- Period of its sample grid, ns. -/
  grid : Nat
  /-- Period the conditions of R25 take, ns (one tick shorter for each inner period of a SYNC group, R253). -/
  period : Nat
  /-- Offset of its grid, ns. -/
  phase : Nat
  /-- Its grid follows TBASE0 (SYNC group or remote), not SYS_TICK. -/
  onTb : Bool
  /-- Network time of a remote current loop's frames, ns (R297); 0 otherwise. -/
  wire : Nat
deriving DecidableEq, Repr

/-- The sample point of a group (R254, 11): SMP, or the centre of the period. -/
def samplePoint (g : BtaGroup) (period : Nat) : Nat := if g.smp = 0xFFFFFFFF then period / 2 else g.smp

/-- L of a loop in a mode. -/
def modeL (m : AxisMode) (k : Fin 3) : Nat := if k = 0 then m.lCur else if k = 1 then m.lVel else m.lPos

/-- How many inner samples apart a loop runs (R133). -/
def loopDiv (m : AxisMode) (k : Fin 3) : Nat :=
  if k = 0 then 1 else if k = 1 then max m.velDiv 1 else max m.velDiv 1 * max m.posDiv 1

/-! Drayman frames in time (R297, R298, 13). -/

/-- Wire time of a payload of x bytes, ns. -/
def wireTime (x : Nat) : Nat := (x + 42) * 8

/-- The registered bricks. -/
def bricksOf (s : State) : List (Fin 64) := (List.finRange 64).filter fun (b : Fin 64) => s.bricks.brick[b].registered

/-- The registered bricks of a frame group. -/
def groupBricks (f : Nat) (s : State) : List (Fin 64) := (bricksOf s).filter fun b => s.bricks.brick[b].group == f

/-- Wire time of a brick's inbound frame. -/
def inWire (b : Fin 64) (s : State) : Nat := wireTime (24 + 24 * s.bricks.brick[b].channels)

/-- Wire time of a group's outbound frame. -/
def outWire (f : Nat) (s : State) : Nat := wireTime (24 + 40 * (groupBricks f s).length)

/-- The frame groups with bricks on a port. -/
def portGroups (port : Nat) (s : State) : List Nat :=
  (((bricksOf s).filter fun b => s.bricks.brick[b].port == port).map fun b => s.bricks.brick[b].group).eraseDups

/-- a_in of a brick: its frame is in the fabric (R297); res is the residence of each registered brick nearer the port. -/
def arriveIn (b : Fin 64) (s : State) : Nat :=
  let x := s.bricks.brick[b]
  let line := (bricksOf s).filter fun c => s.bricks.brick[c].port == x.port
  let queue := ((line.filter (· != b)).map fun c => inWire c s).sum
  let res := ((line.filter fun c => decide (s.bricks.brick[c].hop < x.hop)).map fun c => s.bricks.brick[c].residence).sum
  x.txOffset + inWire b s + queue + res + x.hop * 1040 + 200

/-- a_out of a group (R297). -/
def arriveOut (f : Nat) (s : State) : Nat :=
  let l := (groupBricks f s).map fun b => s.bricks.brick[b]
  let port := (l.head?.map (·.port)).getD 0
  let others := (((portGroups port s).filter (· != f)).map fun h => outWire h s).sum
  let top := fun (g : Brick → Nat) => (l.map g).foldl max 0
  outWire f s + others + (top (·.hop) - 1) * top (·.residence) + top (·.hop) * 1040 + 200 + top (·.setup)

/-- Rounding up to a multiple of 16 ns. -/
def ceil16 (x : Nat) : Nat := (x + 15) / 16 * 16

/-- The launch of a group frame after its sample instant, for an L (R297): the group's loops share L (R294). -/
def launchAt (f l : Nat) (s : State) : Int := (2 * l : Nat) - (ceil16 (arriveOut f s) : Nat)

/-- The proof's view of one loop. -/
def proofLoop (i : Fin 64) (b : Binding) (m : AxisMode) (s : State) (k : Fin 3) : ProofLoop :=
  let steps := loopSteps m.drive k s.loop.slot[i].lp[k].n
  let g := s.bta.grp[((slotGroups b).head?).getD 0]
  let fg := s.bricks.fg[Fin.ofNat 16 s.bricks.brick[Fin.ofNat 64 b.brick].group]
  let d := loopDiv m k
  let tb := b.location == 2 || g.sync
  { slot := i, kind := k, p := steps.1, q := steps.2, l := modeL m k, grid := 2 * m.period * d,
    period := 2 * d * (if b.location = 1 ∧ g.sync then m.period - 1 else m.period),
    phase := if b.location = 2 then fg.phase else 2 * (g.phase + samplePoint g m.period), onTb := tb,
    wire := if b.location = 2 ∧ k = 0 then
        arriveIn (Fin.ofNat 64 b.brick) s + ceil16 (arriveOut s.bricks.brick[Fin.ofNat 64 b.brick].group s) else 0 }

/-- Every loop of every slot that has a mode, in the order of the dealing: slot, then current, velocity, position. -/
def proofLoops (s : State) : List ProofLoop :=
  (List.finRange 64).flatMap fun i =>
    match s.axis[i].mode with
    | some m => if s.axis[i].bind.location = 0 then [] else (slotLoops s.axis[i].bind m s).map (proofLoop i s.axis[i].bind m s)
    | none => []

/-- Does a loop sample at ns t, when the TBASE0 grid lies `d` ns after the SYS_TICK grid? -/
def samplesAt (d t : Nat) (j : ProofLoop) : Bool :=
  (t + j.grid * (j.phase + d + 1) - j.phase - (if j.onTb then d else 0)) % max j.grid 1 == 0

/-- The sample group at an instant with the pipeline of each loop: round-robin from pipeline 0 (R24, R491). -/
def dealt (ls : List ProofLoop) (d t : Nat) : List (ProofLoop × Nat) :=
  ((ls.filter (samplesAt d t)).zipIdx).map fun e => (e.1, e.2 % 4)

/-- Q of the loops ahead of one on its pipeline at an instant: those of its own group dealt before it, and those of
earlier instants whose release lies after this one (R491); the release of a remote current loop is taken at its L too
(DESIGN CHOICE, log 49). -/
def aheadAt (ls : List ProofLoop) (d t : Nat) (i : ProofLoop) : Nat :=
  match (dealt ls d t).find? (fun e => e.1 == i) with
  | none => 0
  | some (_, pipe) =>
    let own := ((dealt ls d t).takeWhile (fun e => e.1 != i)).filter (fun e => e.2 == pipe)
    let reach := (ls.map fun j => 2 * j.l).foldl max 0
    let earlier := (List.range (min reach t)).flatMap fun b =>
      (dealt ls d (t - 1 - b)).filter fun e => e.2 == pipe && decide (t < t - 1 - b + 2 * e.1.l)
    ((own ++ earlier).map (·.1.q)).sum

/-- Instants that show every relation of the grids: two turns of their common period after the longest L. -/
def proofSpan (ls : List ProofLoop) : Nat := 2 * (ls.map (·.grid)).foldl Nat.lcm 1 + (ls.map fun j => 2 * j.l).foldl max 0

/-- Relative offsets of the two kinds of grid to be taken as possible (R491): one when all loops are of one kind. -/
def proofOffsets (ls : List ProofLoop) : List Nat :=
  if ls.any (·.onTb) && ls.any (fun j => !j.onTb) then List.range ((ls.map (·.grid)).foldl Nat.lcm 1) else [0]

/-- q_ahead of a loop: the largest value over all its sample instants (R491). -/
def qAhead (ls : List ProofLoop) (i : ProofLoop) : Nat :=
  ((proofOffsets ls).map fun d =>
    (((List.range (proofSpan ls)).filter fun t => samplesAt d t i).map fun t => aheadAt ls d t i).foldl max 0).foldl max 0

/-- Slack of a loop in 10^-4 ns (R24, R25): 2 ns for each tick of L, less 20 ns and the steps, and for a remote current
loop less the time its frames take (R297). -/
def slack4 (step : Nat) (ls : List ProofLoop) (i : ProofLoop) : Int :=
  (20000 * i.l : Nat) - (200000 + 10000 * i.wire + (i.p + qAhead ls i) * step : Nat)

/-- Predicted slack in ticks, rounded towards minus infinity (R27). -/
def slackTicks (step : Nat) (ls : List ProofLoop) (i : ProofLoop) : Int := (slack4 step ls i).fdiv 20000

/-- The occupancy condition of R25 for one loop at one instant on its pipeline. -/
def occupancyOk (step : Nat) (ls : List ProofLoop) (d t : Nat) (j : ProofLoop) : Bool :=
  match (dealt ls d t).find? (fun e => e.1 == j) with
  | none => true
  | some (_, pipe) =>
    let q := ((List.range j.period).map fun u =>
      (((dealt ls d (t + u)).filter fun e => e.2 == pipe).map (·.1.q)).sum).sum
    decide (q * step ≤ j.period * 10000)

/-- The admission proof of R25 at a step time. -/
def admitted (step : Nat) (ls : List ProofLoop) : Bool :=
  ls.all fun i =>
    decide (0 ≤ slack4 step ls i) && decide (2 * (i.l + 8) ≤ i.period) &&
    (proofOffsets ls).all fun d => (List.range (proofSpan ls)).all fun t => occupancyOk step ls d t i

/-- The operating point proofs of configuration commands run at: the slower of OP_NOW and OP_TARGET (R26). -/
def proofOp (s : State) : Nat := max s.power.opNow s.power.opTarget

/-- Is the configuration admitted at this operating point in this band? -/
def admittedAt (op band : Nat) (s : State) : Bool := admitted (stepTime op band s.power.banded) (proofLoops s)

/-- The lowest operating point at which the configuration would pass, or 0xFF (R26): `lowest` counts down. -/
def lowestPassing (band : Nat) (s : State) : Nat → Option Nat
  | 0 => if admittedAt 0 band s then some 0 else none
  | n + 1 => if admittedAt (n + 1) band s then some (n + 1) else lowestPassing band s n

/-- The inner period of a frame group, ns: that of the slots on its bricks (R294). -/
def groupPeriod (f : Nat) (s : State) : Option Nat :=
  ((List.finRange 64).findSome? fun (i : Fin 64) =>
    let b := s.axis[i].bind
    if b.location = 2 ∧ s.bricks.brick[Fin.ofNat 64 b.brick].group = f then s.axis[i].mode.map (fun m => 2 * m.period)
    else none)

/-- t_s of the present cycle of a frame group, TBASE0 ns: the last instant a whole number of inner periods plus PHASE after
a whole second (R296). -/
def cycleTs (f : Fin 16) (s : State) : Option Nat :=
  (groupPeriod f.val s).map fun q =>
    let p := max q 1
    s.tb0 - (s.tb0 + p - s.bricks.fg[f].phase % p) % p

/-- The frame group of a remote slot. -/
def slotFrameGroup (b : Binding) (s : State) : Fin 16 := Fin.ofNat 16 s.bricks.brick[Fin.ofNat 64 b.brick].group

/-- A remote slot's record of the present cycle has been used; without it its loops are not evaluated (R301). -/
def recordHere (b : Binding) (s : State) : Bool :=
  b.location != 2 || (match cycleTs (slotFrameGroup b s) s with
    | some t => s.bricks.brick[Fin.ofNat 64 b.brick].usedTs == some t
    | none => false)

/-- Wire occupancy of a port (R298): all inbound frames of a cycle, and all outbound ones, within half the inner period
of each of its groups. -/
def wireOk (port : Nat) (s : State) : Bool :=
  let inb := (((bricksOf s).filter fun b => s.bricks.brick[b].port == port).map fun b => inWire b s).sum
  let outb := ((portGroups port s).map fun f => outWire f s).sum
  (portGroups port s).all fun f =>
    match groupPeriod f s with
    | none => true
    | some p => decide (2 * inb ≤ p) && decide (2 * outb ≤ p)

/-- RESOURCE when a port would carry too much (R298). -/
def wireDeny (s : State) : Option Deny :=
  if (List.range 4).all (fun p => wireOk p s) then none else some (deny .resource)

/-- SLACK with OP_NEEDED, when a configuration is not admitted at the present operating point (R26). -/
def admission (s : State) : Option Deny :=
  if admittedAt (proofOp s) s.power.band s then none
  else some (deny .slack [(0x0003, be 1 ((lowestPassing s.power.band s 7).getD 0xFF))])

/-- Change every loop of every slot. -/
def mapLoops (f : Fin 64 → Fin 3 → LoopSt → LoopSt) (s : State) : State :=
  s.onLoop fun e => { e with slot := updAll e.slot fun i x => { x with lp := updAll x.lp (f i) } }

/-- Predicted slack is recomputed at every proof (R27). A slack outside the 16 bits of the report is reported modulo 2^16
(DESIGN CHOICE, log 49), and a loop that runs no longer reports 0. -/
def reportSlack (s : State) : State :=
  let ls := proofLoops s
  let step := stepTime (proofOp s) s.power.band s.power.banded
  mapLoops (fun i k y =>
    match ls.find? (fun j => j.slot == i && j.kind == k) with
    | some j => { y with slack := BitVec.ofInt 16 (slackTicks step ls j) }
    | none => { y with slack := 0 }) s

/-- The tolerances allow an operating point with this wake time counted against the classes (R29). -/
def tolerated (op : Nat) (wake : Nat × Nat × Nat) (p : Power) : Bool :=
  let l := serviceLatency op
  decide (l.1 + wake.1 ≤ p.tolMotion) && decide (l.2.1 + wake.2.1 ≤ p.tolNetwork) &&
  decide (l.2.2 + wake.2.2 ≤ p.tolHost)

/-- The band a choice of the operating point has to hold in: the risen band that waits for the ramp, else the band in force
(R32). -/
def bandToHold (p : Power) : Nat := p.bandNext.getD p.band

/-- May the device run at this operating point (R29)? -/
def opAllowed (op : Nat) (s : State) : Bool :=
  decide (op ≤ s.power.opLimit) && tolerated op (0, 0, 0) s.power && admittedAt op (bandToHold s.power) s

/-- The lowest operating point allowed, counting down from n; OP0 when none is. -/
def selectOp (s : State) : Nat → Nat
  | 0 => 0
  | n + 1 => if opAllowed (n + 1) s then n + 1 else selectOp s n

/-- The constraint that keeps the device from the next lower operating point (R30, Table 4.10). -/
def limiting (op : Nat) (s : State) : Nat :=
  let l := serviceLatency (op + 1)
  if op = 7 then 0
  else if !admittedAt (op + 1) (bandToHold s.power) s then 1
  else if s.power.tolMotion < l.1 then 2
  else if s.power.tolNetwork < l.2.1 then 3
  else if s.power.tolHost < l.2.2 then 4
  else 5

/-- A capture is armed in Belvedere. -/
def captureArmed (s : State) : Bool := s.acq.st != 0 && s.acq.st != 6

/-- Conditions of Nap (Table 1.6). -/
def napEntry (s : State) : Bool := (List.finRange 64).all (fun i => !live s.axis[i]) && !captureArmed s

/-- CAN has nothing configured. -/
def canIdle (s : State) : Bool := (List.finRange 4).all fun c => s.can.ctl[c].cfg.mode == 0

/-- SP has nothing pending. -/
def spIdle (s : State) : Bool :=
  (List.finRange 4).all (fun k => !s.serial.sel[k].opBusy && s.serial.sel[k].page.isNone) && s.serial.held.isEmpty

/-- ACQ has nothing configured. -/
def acqUnused (s : State) : Bool := (List.finRange 64).all (fun c => s.acq.chan[c].code == 0) && s.acq.pinEn == 0

/-- An idle domain of Table 1.6's Doze row: CAN, SP or ACQ with nothing configured or pending. -/
def idleDomain (s : State) : Bool := canIdle s || spIdle s || acqUnused s

/-- A port no bound slot names, and a leg group no bound slot has and that does not run: what Doze gates of them (Table 1.6). -/
def portGated (p : Nat) (s : State) : Bool :=
  (List.finRange 64).all fun i => s.axis[i].bind.portA != some p && s.axis[i].bind.portB != some p

/-- The same of a leg group. -/
def groupGated (g : Fin 32) (s : State) : Bool :=
  !s.bta.grp[g].run && (List.finRange 64).all fun i => !(slotGroups s.axis[i].bind).contains g

/-- The deepest power state whose entry conditions hold and whose wake time the tolerances allow (R33, Table 1.6). -/
def selectPower (op : Nat) (s : State) : PowerState :=
  if !afterStartup s then (if op = 0 then .run else .trim)
  else if napEntry s && decide (5000000 ≤ s.power.tolNetwork) && s.power.restPermitted &&
      tolerated op (5000000, 5000000, 5000000) s.power then .rest
  else if napEntry s && tolerated op (200000, 0, 200000) s.power then .nap
  else if ((List.finRange 64).any (fun i => s.axis[i].st == .unbound) || idleDomain s) &&
      tolerated op (0, 0, 20000) s.power then .doze
  else if op = 0 then .run else .trim

/-- Entering Nap or Rest stops every group counter and turns every leg off (R277); entering Rest starts the coarse
count from TBASE0 (R35). -/
def enterPower (p : PowerState) (s : State) : State :=
  if p = s.power.power then s
  else
    let deep := p = .nap ∨ p = .rest
    let s1 := s.onPower fun w => { w with power := p, coarse := if p = .rest then s.tb0 / 1000 else w.coarse }
    if deep then refreshAll s1 else s1

/-- Core voltage of an operating point in steps of 50 µV above 0.55 V (Table 1.2). -/
def opVolt (op : Nat) : Nat := (7 - op) * 1000

/-- The core voltage now: since the ramp last changed course it moves 50 mV in 2 µs towards its target (R30). -/
def coreVolt (s : State) : Nat :=
  let d := s.now - s.power.rampAt
  let goal := opVolt s.power.opTarget
  if s.power.volt ≤ goal then min goal (s.power.volt + d) else max goal (s.power.volt - d)

/-- Aim the core voltage at an operating point (R30). -/
def aimOp (op : Nat) (s : State) : State :=
  s.onPower fun p => { p with opTarget := op, ramp := decide (op ≠ p.opNow ∨ coreVolt s ≠ opVolt op), volt := coreVolt s, rampAt := s.now }

/-- The lowest operating point that meets the network tolerance, not below the limit: the fabric's in Nap (Table 1.6). -/
def napOp (p : Power) : Nat → Nat
  | 0 => 0
  | n + 1 => if n + 1 ≤ p.opLimit ∧ (serviceLatency (n + 1)).2.1 ≤ p.tolNetwork then n + 1 else napOp p n

/-- Re-evaluate the operating point and the power state (R29, R33). -/
def reselect (s : State) : State :=
  let op := selectOp s 7
  let s1 := s.onPower fun p => { p with limit := limiting op s }
  let w := selectPower op s1
  enterPower w (reportSlack (aimOp (if w = .nap then napOp s.power 7 else op) s1))

/-- OP_SUMMARY (Table 4.10): operating point selected, band, limiting constraint, power state. -/
def PowerState.code : PowerState → Nat
  | .run => 0
  | .trim => 1
  | .doze => 2
  | .nap => 3
  | .rest => 4

/-- The four bytes of OP_SUMMARY. -/
def opSummary (s : State) : List Byte :=
  be 1 s.power.opTarget ++ be 1 s.power.band ++ be 1 s.power.limit ++ be 1 s.power.power.code

end Sys2Proof.Machine
end

