-- ==== Sys2Proof/Machine/AxisCore.lean ====
section
/-! DEFINITION.
Axis faults and their reactions, device-class faults and Recovery, STO (R134 to R136, 06; R65, 03; R474, 21; R272, 11). -/

namespace Sys2Proof.Machine

/-- Change an axis slot. -/
def onAx (i : Fin 64) (f : Axis → Axis) (s : State) : State := s.onAxis fun v => upd v i f

/-! Measurement. -/

/-- Position in counts: r × M + c (R228). -/
def Port.counts (p : Port) : Int := p.rev * p.cfg.modulus + p.cir

/-- Drive kind of a slot. -/
def driveOf (i : Fin 64) (s : State) : Nat := (s.axis[i].mode.map (·.drive)).getD 0

/-- The slot has sensor feedback (Table 6.3 codes 1 to 5). -/
def sensored (a : Axis) : Bool :=
  match a.mode with
  | some m => decide (1 ≤ m.feedback) && decide (m.feedback ≤ 5)
  | none => false

/-- The slot's actual position, Q47.16: port, brick, microstep command or observer (Tables 6.5, 6.6). -/
def measuredPos (i : Fin 64) (s : State) : Int :=
  let a := s.axis[i]
  if sensored a then
    match a.bind.portA with
    | some p => (s.ports.port[Fin.ofNat 32 p]).counts * 65536
    | none => (brickChannel a.bind s).inPos
  else if driveOf i s = 2 ∧ (a.mode.map (·.feedback)).getD 0 = 0 then s.stepper.slot[i].m * 65536
  else s.loop.slot[i].obsPos

/-- Speed from the last two positions a brick reported, Q39.24 (log entry 19). -/
def brickSpeed (c : Channel) : Int :=
  match c.posHist with
  | a :: b :: _ => if b.1 < a.1 then roundOpen (ofQ16 (a.2 - b.2) * 1000000000 / ((a.1 - b.1 : Nat) : Rat) * 16777216) else 0
  | _ => 0

/-- The slot's actual velocity, Q39.24: measured; the rate of a stepper's commanded microsteps; at velocity depth without a
sensor, and without one on the other drive kinds, the observer's speed (Tables 6.5 and 6.6). -/
def measuredVel (i : Fin 64) (s : State) : Int :=
  let a := s.axis[i]
  if sensored a then
    match a.bind.portA with
    | some p => (s.ports.port[Fin.ofNat 32 p]).speed
    | none => brickSpeed (brickChannel a.bind s)
  else if driveOf i s = 2 ∧ (a.mode.map (·.feedback)).getD 0 = 0 ∧ (a.mode.map (·.depth)).getD 0 ≠ 2 then s.stepper.slot[i].rate
  else s.loop.slot[i].obsSpeed

/-- The present speed, which a ramp-down starts from and closes on: the observer's while it is valid (R134, R214). -/
def rampSpeed (i : Fin 64) (s : State) : Int := if s.loop.slot[i].obsValid then s.loop.slot[i].obsSpeed else measuredVel i s

/-! Bridge power-down of a stepper (R286, 12). -/

/-- Change a stepper's state. -/
def onStep (i : Fin 64) (f : Stepper → Stepper) (s : State) : State := s.onStepper fun e => { e with slot := upd e.slot i f }

/-- A stepper's bridge is powered down: from its start the time with legs off and the position are kept; a wake ramp is
abandoned and a pending change of operation cancelled (R283, R286, R288). -/
def bridgeDown (i : Fin 64) (off : Bool) (s : State) : State :=
  if driveOf i s ≠ 2 then s
  else
    let p := measuredPos i s
    onStep i (fun y =>
      match y.downSince with
      | none =>
        { y with downSince := some s.now, downPos := p, offTime := 0, offSince := if off then some s.now else none, changeDue := false,
                 phase := 0, holdValid := y.holdMemory }
      | some _ =>
        match y.offSince with
        | some t => if off then y else { y with offSince := none, offTime := y.offTime + (s.now - t) }
        | none => if off then { y with offSince := some s.now } else y) s

/-- Change the brick channel of a remote slot; a local slot has none. -/
def onChannel (i : Fin 64) (f : Channel → Channel) (s : State) : State :=
  let b := s.axis[i].bind
  if b.location = 2 then
    s.onBricks fun k =>
      { k with brick := upd k.brick (Fin.ofNat 64 b.brick) fun x => { x with chan := upd x.chan (Fin.ofNat 4 b.channel) f } }
  else s

/-- The opcode of AXIS_ENABLE or AXIS_DISABLE under way on a slot (R140, R141). -/
def axisCommand (i : Fin 64) (op : Nat) (e : Exec) : Bool := e.opcode == op && e.key == i.val

/-- Opcodes answered when a move or jog starts on an axis. -/
def isMove (i : Fin 64) (e : Exec) : Bool := [0x0200, 0x0201, 0x0202].contains e.opcode && e.key == i.val

/-- A STOP of one axis; one of all axes is answered when all are at rest. -/
def isStop (i : Fin 64) (e : Exec) : Bool := e.opcode == 0x0203 && e.key == i.val

/-- Nothing a STOP of all axes addressed still moves. -/
def allAtRest (s : State) : Bool :=
  (List.finRange 64).all (fun (i : Fin 64) => s.plan.ax[i].activity != 3 && (s.plan.ax[i].next.map (·.kind)) != some 3) &&
  (List.finRange 16).all (fun (g : Fin 16) => s.plan.grp[g].stopMode.isNone && s.plan.grp[g].stopDue.isNone)

/-- Answer the STOPs that wait for an axis, and a STOP of all axes (R165). -/
def answerStops (i : Fin 64) (s : State) : State :=
  let s1 := finish (isStop i) .done [] s
  if allAtRest s1 then finish (fun e => e.opcode == 0x0203 && e.key == 0xFFFF) .done [] s1 else s1

/-- A link is declutched: units that wait for the next sample are booked as skipped (R185, R186). -/
def GearLink.declutched (l : GearLink) : GearLink :=
  if l.engage = 2 then
    { l with engage := 3, held := 0, skipFwd := bumpFwd l.skipFwd l.held, skipRev := bumpRev l.skipRev l.held }
  else l

/-- Declutch a slot's link. -/
def declutch (i : Fin 64) (s : State) : State := s.onGear fun u => { u with link := upd u.link i GearLink.declutched }

/-- Stop what the planner is doing for an axis: its link declutched, its set-points end where they are, a move not yet started cannot start, and
a STOP finds the axis at rest. -/
def planEnd (i : Fin 64) (s : State) : State :=
  let s1 := s.onPlan fun p =>
    { p with ax := upd p.ax i fun a => { a with activity := 0, segs := [], next := none, cmd := {}, tau := 0, segment := 0, entry := false } }
  answerStops i (finishDeny (isMove i) conflict (declutch i s1))

/-- Drop results on their way to the phase latch: the loops of a slot stop. -/
def loopsStop (i : Fin 64) (s : State) : State :=
  s.onLoop fun e => { e with slot := upd e.slot i fun x =>
    { x with lp := updAll x.lp fun _ y => { y with ready := none, computing := none, computingLate := false } } }

/-- The reaction Table 6.11 fixes for a cause; none where the slot's own applies. -/
def fixedReaction (cause : Nat) : Option Nat := if [5, 6, 9, 12, 13].contains cause then none else some 0

/-- Severity of a reaction: torque off, then short brake, then observer ramp-down (R136). -/
def severity (r : Nat) : Nat := 3 - r

/-- The reaction a fault calls for: torque off while Enabling, else the table's, else the slot's (R135, R136). -/
def reactionFor (a : Axis) (cause : Nat) : Nat :=
  if a.st = .enabling then 0 else (fixedReaction cause).getD ((a.mode.map (·.reaction)).getD 0)

/-- Bring legs or brick output to a reaction: 0 off, 1 shorted; 2 leaves the loops in control (R134, R267). -/
def outputFor (i : Fin 64) (r : Nat) (s : State) : State :=
  if r = 2 then s
  else
    let s1 := (slotGroups s.axis[i].bind).foldl (fun s g => overrideGroup (r + 1) g s) (bridgeDown i (r == 0) s)
    onChannel i (fun c => { c with enable := c.enable && r == 1, short := r == 1 }) s1

/-- A reaction takes hold: torque off is immediate and leaves the slot Faulted; the others leave it Reacting, a ramp-down from
the present speed (R134). A source that waited to take over does not (R139). -/
def takeReaction (i : Fin 64) (r cause : Nat) (s : State) : State :=
  let v := rampSpeed i s
  let s0 := s.onLoop fun e => { e with slot := upd e.slot i fun x => { x with heldQ := none } }
  let s1 := onAx i (fun a =>
    { a with
      st := if r = 0 then .faulted else .reacting, reaction := some r, cause := cause, reactStart := s.now,
      slowSince := none, standstill := false, aligning := false, reengage := false, zeroVector := false,
      legsOff := r == 0, legsShort := r == 1, nextSource := none, velSp := if r = 2 then v else a.velSp }) s0
  let s2 := outputFor i r s1
  let s3 := planEnd i (if r = 2 then s2 else loopsStop i s2)
  finishDeny (fun e => axisCommand i 0x0102 e || axisCommand i 0x0103 e) (faultActive (0x0100 + cause)) s3

/-- An axis fault (R135, R136): recorded always; a reaction in force gives way only to a more severe one, and of two
faults at one instant the lower cause is kept. -/
def axisFault (i : Fin 64) (cause det : Nat) (s : State) : State :=
  let a := s.axis[i]
  let r := reactionFor a cause
  if a.st = .unbound ∨ a.st = .disabled then s
  else
    let s1 := recordFault (0x0100 + cause) 2 i det true s
    if a.st = .enabling ∨ a.st = .enabled then takeReaction i r cause s1
    else
      let same := a.reactStart = s.now
      if severity (a.reaction.getD 0) < severity r then
        takeReaction i r (if same then min a.cause cause else cause) s1
      else if same then onAx i (fun a => { a with cause := min a.cause cause }) s1
      else s1

/-- The same on a list of slots. -/
def axisFaults (l : List (Fin 64)) (cause det : Nat) (s : State) : State :=
  l.foldl (fun s i => axisFault i cause det s) s

/-- The live slots. -/
def liveSlots (s : State) : List (Fin 64) := (List.finRange 64).filter fun i => live s.axis[i]

/-- Entering Recovery: every slot not already faulted takes its configured reaction (R65, Table 6.11 cause 12). -/
def enterRecovery (s : State) : State :=
  let s1 := s.onSys fun y => { y with dev := .recovery }
  axisFaults (liveSlots s1) 12 0 s1

/-- A device-class fault: recorded, its cause noted while it stays, and Recovery from Operational or Test (R65, R474). -/
def deviceFault (code index det : Nat) (stays : Bool) (s : State) : State :=
  let s1 := recordFault code 1 index det stays s
  let s2 := if stays then setCause code index true s1 else s1
  if s.sys.dev = .operational ∨ s.sys.dev = .test then enterRecovery s2 else s2

/-- STO is in force: Lodge asserts it, or Lodge is unpowered (R45, R272). -/
def stoInForce (s : State) : Bool := s.lodge.sto || s.lodge.st == .absent

/-- STO asserted: latched in the BTA, and every live slot faults with cause STO (R136, R272); its first frame is due (R303). -/
def stoAssert (s : State) : State :=
  let s1 := stoLatchAll (s.onBricks fun k => { k with stoSent := none })
  axisFaults (liveSlots s1) 7 0 s1

/-- What outlives a Reset in the boot block: fuses and identity (R54, R66, 03). -/
def Boot.kept (b : Boot) : Boot :=
  { secLevel := b.secLevel, keyHash := b.keyHash, keyPub := b.keyPub, keyRevoked := b.keyRevoked, integratorHash := b.integratorHash,
    integratorPub := b.integratorPub,
    grade := b.grade, stepping := b.stepping, serial := b.serial, dateCode := b.dateCode, dies := b.dies,
    devicePub := b.devicePub, endorsement := b.endorsement, lodgeReports := b.lodgeReports }

/-- Program bytes of a NOR device: a program only clears bits. -/
def programBytes (at0 : Nat) (bs : List Byte) (m : List Host.Cell) : List Host.Cell :=
  cellsWrite 0xFF at0 (List.zipWith (· &&& ·) bs (cellsRead 0xFF at0 m bs.length)) m

/-- Contents after an operation that did not end: the bits it could change are free values, numbered by `k`. -/
def spoiled (k : Nat) (x : SpmSel) : List Host.Cell :=
  let open8 := fun (a : Nat) => Config.freeByte k a
  if x.opErase then
    (x.flash.filter fun c => decide (x.opRange.1 ≤ c.1) && decide (c.1 < x.opRange.1 + x.opRange.2)).foldl
      (fun m c => cellWrite 0xFF c.1 (c.2 ||| open8 c.1) m) x.flash
  else
    x.opWords.foldl (fun m e =>
      programBytes e.1 ((List.range 4).map fun i => BitVec.ofNat 8 (e.2.toNat / 256 ^ i) ||| open8 (e.1 + i)) m) x.flash

/-- What outlives it in the serial block: the devices on the Memory Port and their contents (R52), those of an operation under way with
the bits it could change free. -/
def SpmSel.kept (k : Nat) (x : SpmSel) : SpmSel :=
  { present := x.present, sfdp := x.sfdp, fastest := x.fastest, flash := if x.opBusy then spoiled k x else x.flash }

/-- The device enters Reset (Table 3.7): no block runs. What survives: the fault record and log (R473), the packet keys
(R86), fuses and identity, flash and the configuration store, Lodge (R345) and the field dies (R366), which have supplies
of their own, the supplies, temperatures and the reference, and memory contents. Everything else takes its reset value. -/
def enterReset (s : State) : State :=
  { State.reset with
    pending := s.pending
    sys := { dev := .reset, rstoutLow := true, free := s.sys.free + 1, legClamp := s.sys.legClamp }
    power := { vlogGood := s.power.vlogGood, resetnLow := s.power.resetnLow, vsaf := s.power.vsaf, refLost := s.power.refLost,
               pllLocked := s.power.pllLocked, aonRc := s.power.aonRc, coarse := s.power.coarse, aonUs := s.power.aonUs, aonSub := s.power.aonSub,
               hottest := s.power.hottest, overtemp := s.power.overtemp, diEdges := s.power.diEdges }
    boot := s.boot.kept
    pkts := { keys := s.pkts.keys, nextHandle := s.pkts.nextHandle }
    integ := { sram := s.integ.sram, poison := s.integ.poison, ring := s.integ.ring, log := s.integ.log,
               nextSeq := s.integ.nextSeq, ringLost := s.integ.ringLost,
               causes := s.integ.causes.filter fun c => c.1 == 0x0010 || c.1 / 0x100 == 3 }
    lodge := s.lodge
    fio := s.fio
    serial := { sel := updAll s.serial.sel fun _ x => x.kept s.sys.free }
    net := { mac := s.net.mac }
    store := s.store }

end Sys2Proof.Machine
end

