-- ==== Sys2Proof/Machine/BtaOps.lean ====
section
/-! DEFINITION.
Groups: starting and stopping, sealed sets, duties, occupation, trips (R252 to R272, 11). -/

namespace Sys2Proof.Machine

/-- Step of a leg's compare resolution in 1/64 tick (R255). -/
def legStep (n : Fin 96) : Nat := if n.val < 12 then 1 else 4

/-- Bits a leg's compare register holds: the lowest two are ignored on LEG12 to LEG95 (R255). -/
def cmpBits (n : Fin 96) (w : Word) : Word :=
  BitVec.ofNat 32 (w.toNat % 2 ^ 26 / legStep n * legStep n)

/-- Compares of a centred pulse whose duty is `num` / `den` of a period, in 1/64 tick (R259). -/
def centred (n : Fin 96) (period : Nat) (num den : Nat) : Word × Word :=
  let q : Nat := 2 * legStep n
  let on := min (64 * period) ((halfEven (num * period * 64) (den * q)).toNat * q)
  let a := (64 * period - on) / 2
  (BitVec.ofNat 32 a, BitVec.ofNat 32 (a + on))

/-- The period a duty is computed with: the shadow PERIOD (R259). -/
def dutyPeriod (g : BtaGroup) : Nat :=
  if g.periodWritten then g.period.shadow.toNat % 2 ^ 20 else g.period.active.toNat

/-- Write a leg's compare shadows for a duty; the group is dirty (R259, R263). -/
def writeDuty (n : Fin 96) (num den : Nat) (s : State) : State :=
  let c := centred n (dutyPeriod s.bta.grp[legGroup n]) num den
  let s1 := onLeg n (fun l => { l with
    cmpa := { l.cmpa with shadow := c.1 }, cmpb := { l.cmpb with shadow := c.2 } }) s
  onGrp (legGroup n) (fun g => { g with dirty := true }) s1

/-- Arm a copy of every shadow of a group: a seal (R263) or a strobe (R265). -/
def armGroup (g : Fin 32) (s : State) : State :=
  let s1 := onGrp g (fun x => { x with
    period := { x.period with armed := if x.periodWritten then x.period.shadow else x.period.active },
    fSuper := x.fSuper || x.sealed, sealed := true, dirty := false, unsealCount := 0, overdueRaised := false }) s
  (groupLegs g).foldl (fun s n => onLeg n (fun l => { l with
    cmpa := { l.cmpa with armed := l.cmpa.shadow }, cmpb := { l.cmpb with armed := l.cmpb.shadow } }) s) s1

/-- First instant at or after `t` of a grid of `period` through `phase`. -/
def gridAtOrAfter (period phase t : Nat) : Nat :=
  let p := max period 1
  t + (phase + p - t % p) % p

/-- Tick of the first boundary of a group started now: 1,000 ticks at least, on PHASE of SYS_TICK (R252), or with SYNC on
the TBASE0 schedule while TBASE0 is synchronised (R253). -/
def firstBoundary (g : BtaGroup) (period : Nat) (s : State) : Nat :=
  if g.sync && s.tb0Sync then
    let b := s.net.tb[(0 : Fin 4)]
    let unit := 2 ^ 39
    let tick := (2 ^ 40 + b.rate).toNat
    let inst := gridAtOrAfter (2 * period * unit) (2 * g.phase * unit) (b.val + 1000 * tick)
    s.now + (2 * (inst - b.val) + tick) / (2 * tick)
  else s.sys.stopped + gridAtOrAfter period g.phase (s.sysTick + 1000)

/-- Start a group's counter with its PHASE (R252); k is 0 at its first boundary (R260), and s is low until then (log 49). -/
def startGroup (g : Fin 32) (s : State) : State :=
  let s1 := onGrp g (fun x => { x with
    run := true, count := 0, ditherK := 15, lengthen := 0, phaseRun := x.phase, boundaryAt := none,
    startDue := some (firstBoundary x x.period.active.toNat s) }) s
  (groupLegs g).foldl (fun s n => onLeg n (fun l => { l with s := false, rose := false, fell := false }) s) s1

/-- Stop a group's counter: every leg off at once; the active and armed sets are kept (R279). -/
def stopGroup (g : Fin 32) (s : State) : State :=
  let s1 := onGrp g (fun x => { x with run := false, startDue := none, boundaryAt := none }) s
  (groupLegs g).foldl (fun s n => onLeg n (fun l => { l.allOff s.now with s := false, rose := false, fell := false }) s) s1

/-- Transfer of an armed set: values out of range are corrected, the shadows keep what was written (R255, Table 11.6). -/
def transferGroup (g : Fin 32) (s : State) : State :=
  let x := s.bta.grp[g]
  let p := x.period.armed.toNat % 2 ^ 20
  let p1 := max 250 p
  let low := decide (p < 250)
  let bad := (groupLegs g).any fun n =>
    decide (64 * p1 < s.bta.leg[n].cmpb.armed.toNat) || decide (s.bta.leg[n].cmpb.armed.toNat < s.bta.leg[n].cmpa.armed.toNat)
  let s1 := (groupLegs g).foldl (fun s n => onLeg n (fun l =>
    let b := min l.cmpb.armed.toNat (64 * p1)
    let a := min l.cmpa.armed.toNat b
    { l with cmpa := { l.cmpa with active := BitVec.ofNat 32 a }, cmpb := { l.cmpb with active := BitVec.ofNat 32 b } }) s) s
  let s2 := onGrp g (fun y => { y with
    period := { y.period with active := BitVec.ofNat 32 p1 }, periodWritten := false,
    sealed := false, inService := true, fClamped := y.fClamped || low || bad }) s1
  if low || bad then event 0x0501 g.val [] s2 else s2

/-! Edges of the command signal (R256 to R261). -/

/-- The 4 bits of k reversed (R260). -/
def rev4 (k : BitVec 4) : Nat := 8 * bit (k.getLsbD 0) + 4 * bit (k.getLsbD 1) + 2 * bit (k.getLsbD 2) + bit (k.getLsbD 3)

/-- Is a leg's fraction placed by dithering: LEG12 to LEG95, and a leg in fallback (R260, R261)? -/
def dithers (n : Fin 96) (l : Leg) : Bool := decide (12 ≤ n.val) || l.fallback

/-- The tick of the period at which an edge falls: by dithering (R260), else its integer part, the fraction being placed by the
delay line (R261). -/
def edgeTick (n : Fin 96) (k : BitVec 4) (l : Leg) (w : Word) : Nat :=
  let tick := w.toNat / 64
  if dithers n l then tick + bit (decide (rev4 k < w.toNat / 4 % 16)) else tick

/-- The tap of an edge's fraction: f n_cal / 64 rounded, a half to a free side (R261, log 49). -/
def tapOf (l : Leg) (w : Word) : Nat :=
  let x : Rat := ((w.toNat % 64 * l.nUse : Nat) : Rat) / 64
  (if x - x.floor = 1 / 2 then roundOpen x else (x + 1 / 2).floor).toNat

/-- No condition of Table 11.4 above PWM is in force on a leg. -/
def legPwm (s : State) (n : Fin 96) : Bool :=
  let g := s.bta.grp[legGroup n]
  !legForcedOff s n && !g.bySto && !g.stoClear && !g.held && !g.clearing && g.override == 0 && !g.cycle && (g.run || g.occupied)

/-- An edge of s: the outputs follow through dead time while PWM is in force (R257). -/
def signalEdge (n : Fin 96) (up : Bool) (s : State) : State :=
  let s1 := onLeg n (fun l => { l with s := up }) s
  if legPwm s n then onLeg n (fun l => if up then l.rise s.now else l.fall s.now) s1 else s1

/-- Has the leg an edge of this direction now? In compatibility mode s is a level (R258). -/
def hasEdge (l : Leg) (up : Bool) : Bool :=
  !l.compat || (l.cmpa.active != l.cmpb.active && l.s != up)

/-- Issue the edge a compare describes, once in a period (R256). -/
def issueEdge (n : Fin 96) (up : Bool) (s : State) : State :=
  let l := s.bta.leg[n]
  let s1 := onLeg n (fun l => { l with
    rose := l.rose || up, fell := l.fell || !up
    tap := if dithers n l then l.tap else tapOf l (if up then l.cmpa.active else l.cmpb.active) }) s
  if hasEdge l up then signalEdge n up s1 else s1

/-- In compatibility mode s falls at the boundary where the new period does not start high (R258). -/
def compatFall (n : Fin 96) (s : State) : State :=
  let l := s.bta.leg[n]
  if l.compat && l.s && !(l.cmpa.active == 0 && l.cmpb.active != 0) then signalEdge n false s else s

/-- A boundary of the group has been carried out at this very tick. -/
def boundaryNow (g : Fin 32) (s : State) : Bool := s.bta.grp[g].run && s.bta.grp[g].boundaryAt == some s.now

/-- A set armed at the tick of a boundary becomes active at that boundary (R263, R265). -/
def takeAtBoundary (g : Fin 32) (s : State) : State :=
  if boundaryNow g s then (groupLegs g).foldl (fun s n => compatFall n s) (refreshGroup g (transferGroup g s)) else s

/-- A seal: ignored in gang mode (R263, R265). -/
def sealGroup (g : Fin 32) (s : State) : State := if s.bta.grp[g].gang then s else takeAtBoundary g (armGroup g s)

/-- Legs of a group a bound slot drives: a DC brush or voice coil on a group code leaves the third off (Table 6.1). -/
def drivenLegs (a : Axis) : List (Fin 96) :=
  let l := legSetLegs a.bind.legSet
  match a.mode with
  | none => []
  | some m => if a.bind.legSet / 0x1000 = 1 ∧ 3 ≤ m.drive then l.take 2 else l

/-- Bring a group's occupation and its unused legs up to date with the bindings: a leg of an occupied group that no slot
drives is not in service (R251, R262); a group no slot occupies any longer is stopped and free (log entry 18). -/
def refreshOccupancy (g : Fin 32) (s : State) : State :=
  let here := groupSlots g s
  let was := s.bta.grp[g].occupied
  let now := !here.isEmpty
  let used := here.flatMap fun i => drivenLegs s.axis[i]
  let s1 := onGrp g (fun x => { x with
    occupied := now, override := if now then (if was then x.override else 1) else 0, release := false }) s
  let s2 := (groupLegs g).foldl (fun s n => onLeg n (fun l => { l with legOff := now && !used.contains n }) s) s1
  let s3 := if was && !now then stopGroup g s2 else s2
  refreshGroup g s3

/-- AXIS_SET_MODE writes PERIOD and starts the group (R252); a running group takes a new PERIOD with a sealed set. -/
def occupyGroup (g : Fin 32) (period phase : Nat) (s : State) : State :=
  let x := s.bta.grp[g]
  let w : Word := BitVec.ofNat 32 period
  if x.run && x.period.active == w then s
  else if x.run then sealGroup g (onGrp g (fun x => { x with period := { x.period with shadow := w }, periodWritten := true }) s)
  else startGroup g (onGrp g (fun x => { x with phase := phase, period := { active := w, shadow := w, armed := w } }) s)

/-- The zero voltage vector: every leg of the slot at half the period, as a sealed set of each group (R134 step 1). -/
def sealZeroVector (i : Fin 64) (s : State) : State :=
  let s1 := (drivenLegs s.axis[i]).foldl (fun s n => writeDuty n 1 2 s) s
  (slotGroups s.axis[i].bind).foldl (fun s g => sealGroup g s) s1

/-! Trips (R268 to R271). -/

/-- SDI inputs whose overcurrent comparators are a group's sources: those of the occupying slots, else its own (R269). -/
def groupInputs (g : Fin 32) (s : State) : List Nat :=
  match groupSlots g s with
  | [] => s.bta.grp[g].ocInputs.filter (· != 0xFF)
  | l => l.flatMap fun i => s.axis[i].bind.inputs

/-- Is a blanking timer inside its window (R270)? -/
def blankActive (b : Blank) (s : State) : Bool :=
  match b.group with
  | none => false
  | some g =>
    let x := s.bta.grp[Fin.ofNat 32 g]
    x.run && (if b.start ≤ b.stop then decide (b.start ≤ x.count) && decide (x.count < b.stop)
              else decide (b.start ≤ x.count) || decide (x.count < b.stop))

/-- A source kind of a group is blanked now: bit 0 external, bit 1 overcurrent. -/
def blanked (g : Fin 32) (kind : Nat) (s : State) : Bool :=
  match s.bta.grp[g].blk with
  | none => false
  | some m => s.bta.grp[g].blkMask.getLsbD kind && blankActive (s.bta.blank[Fin.ofNat 8 m]) s

/-- External inputs in a mask that are at their active level. -/
def activePins (mask : BitVec 16) (s : State) : BitVec 16 :=
  BitVec.ofNat 16 (((List.finRange 16).filter fun (t : Fin 16) => mask.getLsbD t && s.bta.trip[t].active).foldl (fun (n : Nat) (t : Fin 16) => n + 2 ^ t.val) 0)

/-- The overcurrent comparators of a group that are active, by place. -/
def activeOc (g : Fin 32) (s : State) : List Nat :=
  ((groupInputs g s).zipIdx.filter fun e => (s.bta.sdi[Fin.ofNat 96 e.1]).ocActive).map (·.2)

/-- Sources as BTA_TRIP_CLEAR's ACTIVE codes them. -/
def sourceWord (pins : BitVec 16) (oc sto : Bool) : Nat := pins.toNat + 65536 * bit oc + 131072 * bit sto

/-- Sources that latched a group and are still active, blanked or not (R271). -/
def stillActive (g : Fin 32) (s : State) : Nat :=
  let x := s.bta.grp[g]
  sourceWord (activePins x.latchPins s) (x.byOc && !(activeOc g s).isEmpty) (x.bySto && stoInForce s)

/-- The slots on a group fault with cause TRIP: their legs stay in the trip state (R269). -/
def tripSlots (g : Fin 32) (s : State) : State := axisFaults ((groupSlots g s).filter fun i => live s.axis[i]) 8 g.val s

/-- Inputs of a group's external mask that are active and not blanked (R269, R270). -/
def openPins (g : Fin 32) (s : State) : BitVec 16 := if blanked g 0 s then 0 else activePins s.bta.grp[g].extMask s

/-- Overcurrent comparators of a group that are active and not blanked, by place (R269, R270). -/
def openOc (g : Fin 32) (s : State) : List Nat := if blanked g 1 s || s.bta.grp[g].ocKind == 2 then [] else activeOc g s

/-- Sources of a group reach its legs: latched ones hold it, cycle ones keep s low until the next boundary (R269). PIN is the lowest
input that latched it, and TRIP is raised with every source that latches, carrying all that have (DEDUCED, log 49). -/
def actTrips (g : Fin 32) (pins : BitVec 16) (ocs : List Nat) (s : State) : State :=
  let x := s.bta.grp[g]
  let latchPins := pins &&& ~~~x.cycMask
  let cyc := pins &&& x.cycMask != 0 || (x.ocKind == 1 && !ocs.isEmpty)
  let ocLatch := x.ocKind == 0 && !ocs.isEmpty
  let all := x.latchPins ||| latchPins
  let newPins := latchPins &&& ~~~x.latchPins
  let latches := newPins != 0 || (ocLatch && !x.byOc)
  let s1 := if cyc && !x.cycle then
      refreshGroup g (onGrp g (fun y => { y with cycle := true, cycleTrips := y.cycleTrips + 1 }) s) else s
  if !latches then s1
  else
    let s2 := onGrp g (fun y => { y with
      held := true, clearing := false, byPin := y.byPin || latchPins != 0, byOc := y.byOc || ocLatch,
      latchPins := all, pin := ((List.range 16).find? fun t => all.getLsbD t).getD y.pin,
      ocIn := if y.byOc then y.ocIn else ocs.head?.getD y.ocIn }) s1
    let s3 := refreshGroup g s2
    tripSlots g (event 0x0505 g.val (be 4 (sourceWord all (x.byOc || ocLatch) false)) s3)

/-- Sources accepted now take effect on the legs 3 ticks later (R268, R270). -/
def tripSoon (g : Fin 32) (pins : BitVec 16) (ocs : List Nat) (s : State) : State :=
  if pins == 0 && ocs.isEmpty then s
  else onGrp g (fun x => { x with tripDue := x.tripDue ++ [{ atTime := s.now + 3, pins := pins, oc := ocs }] }) s

/-- What is active and not blanked counts as accepted now. -/
def tripOpen (g : Fin 32) (s : State) : State := tripSoon g (openPins g s) (openOc g s) s

/-- Trips whose tick has come. -/
def tickTrips (s : State) : State :=
  ((List.finRange 32).filter fun g => (s.bta.grp[g].tripDue).any fun e => decide (e.atTime ≤ s.now)).foldl (fun s g =>
    let ripe := (s.bta.grp[g].tripDue).filter fun e => decide (e.atTime ≤ s.now)
    let s1 := onGrp g (fun x => { x with tripDue := x.tripDue.filter fun e => decide (s.now < e.atTime) }) s
    ripe.foldl (fun s e => actTrips g e.pins e.oc s) s1) s

/-- An accepted clear: the legs keep their trip state until the next boundary (R271). -/
def clearGroup (g : Fin 32) (s : State) : State :=
  onGrp g (fun x => { x with
    held := false, bySto := false, byPin := false, byOc := false, latchPins := 0,
    clearing := x.held || x.clearing, stoClear := x.bySto || x.stoClear }) s

end Sys2Proof.Machine
end

