-- ==== Sys2Proof/Machine/PlanMath.lean ====
section
/-! DEFINITION.
Profiles: shapes of velocity changes, rounding to planner periods, scaling, moves, jogs and stops (R146 to R150, 07).
Rational numbers; a root is taken to 2^-64 (log entry 10). -/

namespace Sys2Proof.Machine

/-- A duration before rounding: √sq + plus, seconds. -/
structure Dur where
  /-- Radicand. -/
  sq : Rat := 0
  /-- Rational part. -/
  plus : Rat := 0
deriving DecidableEq, Repr

/-- Its value. -/
def Dur.val (d : Dur) : Rat := sqrtR d.sq + d.plus

/-- The smaller of two rationals. -/
def minR (a b : Rat) : Rat := if a ≤ b then a else b

/-- The larger of two rationals. -/
def maxR (a b : Rat) : Rat := if a ≤ b then b else a

/-- A rational to 2^-64. -/
def gridR (x : Rat) : Rat := ((x * 18446744073709551616).floor : Rat) / 18446744073709551616

/-- Rounded up to a whole number of periods of T seconds (R148 step 2): the first n with n T - plus at least the root. -/
def Dur.periods (T : Rat) (d : Dur) : Nat :=
  let n0 := ((d.val / T).floor - 1).toNat
  let fits := fun n : Nat =>
    let r := (n : Rat) * T - d.plus
    decide (0 ≤ r) && decide (d.sq ≤ r * r)
  ((List.range 5).map (n0 + ·)).find? fits |>.getD (n0 + 5)

/-- A duration in seconds: rounded up to periods of T, or as it is where T is 0. -/
def Dur.rounded (T : Rat) (d : Dur) : Rat := if T = 0 then d.val else (d.periods T : Rat) * T

/-- Limits in counts and seconds. -/
structure Lim where
  /-- Velocity. -/
  v : Rat := 0
  /-- Acceleration. -/
  a : Rat := 0
  /-- Deceleration. -/
  d : Rat := 0
  /-- Jerk. -/
  j : Rat := 0
  /-- Snap. -/
  s : Rat := 0
deriving DecidableEq, Repr

/-- Limits from their formats (R168). -/
def Limits.lim (l : Limits) : Lim := { v := ofQ24 l.v, a := ofQ24 l.a, d := ofQ24 l.d, j := ofQ16 l.j, s := ofQ16 l.s }

/-- The shape of a velocity change (R147): snap segment, jerk plateau (the jerk ramp of an S-curve), acceleration plateau. -/
structure Shape where
  /-- T_s. -/
  ts : Dur := {}
  /-- Jerk plateau; T_j of an S-curve. -/
  tj : Dur := {}
  /-- T_a. -/
  ta : Dur := {}
deriving DecidableEq, Repr

/-- A velocity change by dv ≥ 0 with acceleration limit a (R147); profile 0 trapezoidal, 1 S-curve, 2 snap-limited. -/
def shape (profile : Nat) (dv a j s : Rat) : Shape :=
  if dv = 0 then {}
  else if profile = 0 then { ta := { plus := dv / a } }
  else
    let long := decide (a * a / j ≤ dv)
    let tj : Dur := if long then { plus := a / j } else { sq := dv / j }
    let ta : Dur := if long then { plus := dv / a - a / j } else {}
    if profile = 1 then { tj := tj, ta := ta }
    else
      let peak := if long then a else sqrtR (dv * j)
      if j * j / s ≤ peak then
        { ts := { plus := j / s }, ta := ta,
          tj := if long then { plus := a / j - j / s } else { sq := dv / j, plus := -(j / s) } }
      else { ts := { sq := peak / s }, ta := ta }

/-- Rounded shape: seconds of each part. -/
structure Rounded where
  /-- Snap segment. -/
  ns : Rat := 0
  /-- Jerk part. -/
  nj : Rat := 0
  /-- Acceleration plateau. -/
  na : Rat := 0
deriving DecidableEq, Repr

/-- Round every part up (R148 step 2). -/
def Shape.round (T : Rat) (h : Shape) : Rounded := { ns := h.ts.rounded T, nj := h.tj.rounded T, na := h.ta.rounded T }

/-- Unrounded length of a phase, seconds. -/
def Shape.length (profile : Nat) (h : Shape) : Rat :=
  if profile = 0 then h.ta.val else if profile = 1 then 2 * h.tj.val + h.ta.val else 4 * h.ts.val + 2 * h.tj.val + h.ta.val

/-- Rounded length of a phase, seconds. -/
def Rounded.length (profile : Nat) (r : Rounded) : Rat :=
  if profile = 0 then r.na else if profile = 1 then 2 * r.nj + r.na else 4 * r.ns + 2 * r.nj + r.na

/-- A segment to be placed: number, duration, and what it sets of velocity, acceleration, jerk and snap; what it does not set goes on. -/
structure SegSpec where
  /-- Number (Table 7.1). -/
  no : Nat
  /-- Seconds. -/
  len : Rat
  /-- Velocity it sets. -/
  v : Option Rat := none
  /-- Acceleration it sets. -/
  a : Option Rat := none
  /-- Jerk it sets. -/
  j : Option Rat := none
  /-- Snap. -/
  s : Rat := 0
  /-- It belongs to the entry phase. -/
  entry : Bool := false
deriving DecidableEq, Repr

/-- The segments of a velocity change by dv, rounded, numbered from `no` (R146, R148 step 3). -/
def phaseSegs (profile no : Nat) (dv : Rat) (r : Rounded) : List SegSpec :=
  if dv = 0 then []
  else if profile = 0 then [{ no := no, len := r.na, a := some (dv / r.na), j := some 0 }]
  else if profile = 1 then
    let apk := dv / (r.nj + r.na)
    let j := apk / r.nj
    [{ no := no, len := r.nj, a := some 0, j := some j }, { no := no + 1, len := r.na, a := some apk, j := some 0 },
     { no := no + 2, len := r.nj, a := some apk, j := some (-j) }]
  else
    let tj := 2 * r.ns + r.nj
    let apk := dv / (tj + r.na)
    let jpk := apk / (r.ns + r.nj)
    let s := jpk / r.ns
    [{ no := no, len := r.ns, a := some 0, j := some 0, s := s }, { no := no + 1, len := r.nj, j := some jpk },
     { no := no + 2, len := r.ns, j := some jpk, s := -s }, { no := no + 3, len := r.na, a := some apk, j := some 0 },
     { no := no + 4, len := r.ns, a := some apk, j := some 0, s := -s }, { no := no + 5, len := r.nj, j := some (-jpk) },
     { no := no + 6, len := r.ns, j := some (-jpk), s := s }]

/-- The first of some segments starts at speed v. -/
def startingAt (v : Rat) : List SegSpec → List SegSpec
  | [] => []
  | g :: r => { g with v := some v } :: r

/-- A point of a profile: position, velocity, acceleration, jerk. -/
structure Pt where
  /-- Position, counts. -/
  p : Rat := 0
  /-- Velocity. -/
  v : Rat := 0
  /-- Acceleration. -/
  a : Rat := 0
  /-- Jerk. -/
  j : Rat := 0
deriving DecidableEq, Repr

/-- The profile polynomial of R146 and its derivatives, `t` seconds into a segment. -/
def ProfSeg.point (g : ProfSeg) (t : Rat) : Pt :=
  { p := g.p0 + g.v0 * t + g.a0 * t ^ 2 / 2 + g.j0 * t ^ 3 / 6 + g.s0 * t ^ 4 / 24
    v := g.v0 + g.a0 * t + g.j0 * t ^ 2 / 2 + g.s0 * t ^ 3 / 6
    a := g.a0 + g.j0 * t + g.s0 * t ^ 2 / 2
    j := g.j0 + g.s0 * t }

/-- Place segments one after another from a point, in planner periods of T seconds where T is not 0; those of zero duration are
skipped (R147). Answers the segments and the point reached. -/
def chain (T : Rat) : Pt → List SegSpec → List ProfSeg × Pt
  | x, [] => ([], x)
  | x, g :: r =>
    if g.len = 0 then chain T x r
    else
      let q : ProfSeg := { no := g.no, n := if T = 0 then 0 else (g.len / T).floor.toNat, len := g.len, entry := g.entry, p0 := x.p,
                           v0 := g.v.getD x.v, a0 := g.a.getD x.a, j0 := g.j.getD x.j, s0 := g.s }
      let c := chain T (q.point g.len) r
      (q :: c.1, c.2)

/-- Entry phase: bring jerk, then acceleration, to zero (R149); none on a trapezoidal profile. -/
def entrySegs (profile : Nat) (l : Lim) (T : Rat) (x : Pt) : List ProfSeg × Pt :=
  if profile = 0 ∨ x.a = 0 ∧ x.j = 0 then ([], { x with a := 0, j := 0 })
  else if profile = 1 then
    let t := Dur.rounded T { plus := absR x.a / l.j }
    let r := chain T { x with j := 0 } [{ no := 1, len := t, j := some (-(x.a / t)), entry := true }]
    (r.1, { r.2 with a := 0, j := 0 })
  else
    let t := Dur.rounded T { plus := absR x.j / l.s }
    let c := chain T x [{ no := 1, len := t, s := -(x.j / t), entry := true }]
    let y := { c.2 with j := 0 }
    if y.a = 0 then (c.1, y)
    else
      let sh : Shape := if l.j * l.j / l.s ≤ absR y.a then { ts := { plus := l.j / l.s }, tj := { plus := absR y.a / l.j - l.j / l.s } }
                        else { ts := { sq := absR y.a / l.s } }
      let r := sh.round T
      let jpk := -y.a / (r.ns + r.nj)
      let s := jpk / r.ns
      let d := chain T y [{ no := 1, len := r.ns, j := some 0, s := s, entry := true },
                          { no := 2, len := r.nj, j := some jpk, entry := true },
                          { no := 3, len := r.ns, j := some jpk, s := -s, entry := true }]
      (c.1 ++ d.1, { d.2 with a := 0, j := 0 })

/-- Length of the acceleration phase in segments, so that cruise and deceleration are numbered (Table 7.1). -/
def accSegs (profile : Nat) : Nat := if profile = 0 then 1 else if profile = 1 then 3 else 7

/-- A stop from a point: entry phase, then the velocity to zero; rounded with the end speed fixed (R148, R149). -/
def planStop (profile : Nat) (l : Lim) (T : Rat) (x : Pt) : List ProfSeg × Pt :=
  let e := entrySegs profile l T x
  let r := (shape profile (absR e.2.v) l.d l.j l.s).round T
  let c := chain T e.2 (phaseSegs profile (accSegs profile + 2) (-e.2.v) r)
  (e.1 ++ c.1, { c.2 with v := 0, a := 0, j := 0 })

/-- Distance of a stop from speed v under d_max, unrounded. -/
def stopDistance (profile : Nat) (l : Lim) (v : Rat) : Rat := v / 2 * (shape profile v l.d l.j l.s).length profile

/-- Distance of a velocity change from u to v, unrounded: shaped with a_max where the speed rises, with d_max where it falls (R147). -/
def phaseDist (profile : Nat) (l : Lim) (u v : Rat) : Rat :=
  (u + v) / 2 * (shape profile (absR (v - u)) (if u ≤ v then l.a else l.d) l.j l.s).length profile

/-- Phase distance for a cruise speed: from v1 to vc and from vc to rest. -/
def cruiseNeed (profile : Nat) (l : Lim) (v1 vc : Rat) : Rat := phaseDist profile l v1 vc + phaseDist profile l vc 0

/-- The highest value between lo and hi for which `ok` holds, by halving; `ok` holds at lo. -/
def halving (ok : Rat → Bool) : Nat → Rat → Rat → Rat
  | 0, lo, _ => lo
  | n + 1, lo, hi =>
    let m := (lo + hi) / 2
    if ok m then halving ok n m hi else halving ok n lo m

/-- The same, hi itself being tried first. -/
def highest (ok : Rat → Bool) (lo hi : Rat) : Rat := if hi ≤ lo then lo else if ok hi then hi else halving ok 96 lo hi

/-- A position move forward by `dist` from speed v1 ≥ 0 without acceleration (R148): segments in the direction `sg`. Below v_max the
cruise lasts 0. From above v_max every cruise speed down to 0 is tried. The scaled cruise speed stands even where the phase before it
has no duration (log entry 10). -/
def planForward (profile : Nat) (l : Lim) (T : Rat) (x : Pt) (sg dist : Rat) : List ProfSeg :=
  let v1 := x.v * sg
  let full := decide (cruiseNeed profile l v1 l.v ≤ dist)
  let vc := highest (fun c => decide (cruiseNeed profile l v1 c ≤ dist)) (if v1 ≤ l.v then v1 else 0) l.v
  let ra := (shape profile (absR (vc - v1)) (if v1 ≤ vc then l.a else l.d) l.j l.s).round T
  let rd := (shape profile vc l.d l.j l.s).round T
  let tv := if full ∧ vc ≠ 0 then (dist - cruiseNeed profile l v1 vc) / vc else 0
  let cruise := Dur.rounded T { plus := if tv < 0 then 0 else tv }
  let ta := ra.length profile
  let td := rd.length profile
  let w := (dist - v1 * ta / 2) / (ta / 2 + cruise + td / 2)
  let k := accSegs profile
  let segs := (if ta = 0 then [] else phaseSegs profile 1 ((w - v1) * sg) ra) ++
    [{ no := k + 1, len := cruise, v := some (w * sg), a := some 0, j := some 0 }] ++
    startingAt (w * sg) (phaseSegs profile (k + 2) (-(w * sg)) rd)
  (chain T x segs).1

/-- A position move from a point (R148, R149): the segments, and whether it includes a reversal. -/
def planMove (profile : Nat) (l : Lim) (T : Rat) (x : Pt) (target : Rat) : List ProfSeg × Bool :=
  let e := entrySegs profile l T x
  let y := e.2
  let dist := absR (target - y.p)
  let sg : Rat := if target < y.p then -1 else 1
  if dist = 0 ∧ y.v = 0 then (e.1, false)
  else if y.v * sg < 0 ∨ dist < stopDistance profile l (y.v * sg) then
    let st := planStop profile l T y
    let sg2 : Rat := if target < st.2.p then -1 else 1
    let d2 := absR (target - st.2.p)
    (e.1 ++ st.1 ++ (if d2 = 0 then [] else planForward profile l T st.2 sg2 d2), true)
  else (e.1 ++ planForward profile l T y sg dist, false)

/-- A jog to a speed (R150): the change, then an endless segment at that speed (0 periods). -/
def planJog (profile : Nat) (l : Lim) (T : Rat) (x : Pt) (speed : Rat) : List ProfSeg :=
  let e := entrySegs profile l T x
  let y := e.2
  let up := decide (0 ≤ y.v * speed) && decide (absR y.v ≤ absR speed)
  let r := (shape profile (absR (speed - y.v)) (if up then l.a else l.d) l.j l.s).round T
  let c := chain T y (phaseSegs profile 1 (speed - y.v) r)
  e.1 ++ c.1 ++
    (if speed = 0 then []
     else [{ no := accSegs profile + 1, n := 0, p0 := c.2.p, v0 := speed }])

/-- Periods a profile takes. -/
def profilePeriods (l : List ProfSeg) : Nat := (l.map (·.n)).sum

/-- Largest speed of a profile: at the ends of its segments. -/
def profilePeak (l : List ProfSeg) : Rat :=
  l.foldl (fun m g =>
    let a := absR g.v0
    let b := absR (g.point g.len).v
    let x := if a < b then b else a
    if m < x then x else m) 0

/-- One period on: the segment and place in it, and the point there, at a junction the start of the segment that begins (R144); none when
the profile has ended. -/
def profileStep (T : Rat) (l : List ProfSeg) (tau : Nat) : List ProfSeg × Nat × Option Pt :=
  match l with
  | [] => ([], 0, none)
  | g :: r =>
    if g.n = 0 ∨ tau + 1 < g.n then (l, tau + 1, some (g.point ((tau + 1 : Nat) * T)))
    else (r, 0, r.head?.map fun h => h.point 0)

/-- Seconds on, along a profile by its durations: the segments left and the place in the first. -/
def profileRun : Rat → List ProfSeg → Rat → List ProfSeg × Rat
  | _, [], _ => ([], 0)
  | t, g :: r, c => if c + t < g.len then (g :: r, c + t) else profileRun (t - (g.len - c)) r 0

end Sys2Proof.Machine
end

