-- ==== Sys2Proof/Machine/PortCore.lean ====
section
/-! DEFINITION.
Positions of the Position Ports: counting, overrun, presets, index corrections, compare crossings, history, events for
latches and the snapshot (R228 to R248, 10). -/

namespace Sys2Proof.Machine

/-- Change a port. -/
def onPort (p : Fin 32) (f : Port → Port) (s : State) : State := s.onPorts fun b => { b with port := upd b.port p f }

/-- Change a compare unit. -/
def onCmp (u : Fin 16) (f : Compare → Compare) (s : State) : State := s.onPorts fun b => { b with cmp := upd b.cmp u f }

/-- rev_max of a modulus (R228). -/
def revMax (m : Nat) : Int := min (2 ^ 31 - 1) (((2 ^ 46 / m : Nat) : Int) - 1)

/-- Largest position in counts. -/
def posMax (m : Nat) : Int := revMax m * m + m - 1

/-- Smallest position in counts. -/
def posMin (m : Nat) : Int := (-(revMax m) - 1) * m

/-- Set the position: c and r from counts. -/
def Port.put (p : Port) (x : Int) : Port := { p with cir := (x % (max p.cfg.modulus 1)).toNat, rev := x.fdiv (max p.cfg.modulus 1) }

/-- The held overrun: OVR_FWD − OVR_REV, signed (R229). -/
def Port.overrun (p : Port) : Int := (p.ovrFwd - p.ovrRev).toInt

/-- Move by counts: up to a limit the position, beyond it the overrun; a held overrun is reduced first (R229). -/
def Port.move (p : Port) (d : Int) : Port :=
  let v := p.counts + p.overrun + d
  let x := clampInt (posMin p.cfg.modulus) (posMax p.cfg.modulus) v
  let o := v - x - p.overrun
  { p.put x with ovrFwd := bumpFwd p.ovrFwd o, ovrRev := bumpRev p.ovrRev o }

/-- Change the held index correction: dropped ones go to the IDX_DROP counters (R230, R239). -/
def Port.dropHeld (p : Port) : Port :=
  { p with held := 0, travel := 0, stride := 1, idxDropPos := bumpFwd p.idxDropPos p.held, idxDropNeg := bumpRev p.idxDropNeg p.held }

/-- A preset to `x`: the overrun released, a held correction dropped, the difference booked (R230). -/
def Port.preset (p : Port) (x : Int) : Port :=
  let o := -p.overrun
  let v := p.counts + p.overrun
  let q := { p with ovrFwd := bumpFwd p.ovrFwd o, ovrRev := bumpRev p.ovrRev o }
  let q1 := q.dropHeld
  let y := clampInt (posMin p.cfg.modulus) (posMax p.cfg.modulus) x
  let excess := x - y
  { q1.put y with presetPos := bumpFwd q1.presetPos (x - v), presetNeg := bumpRev q1.presetNeg (x - v),
                  ovrFwd := bumpFwd q1.ovrFwd excess, ovrRev := bumpRev q1.ovrRev excess }

/-- REV_SATURATED when the held overrun leaves 0 (R229). -/
def satEvent (p : Fin 32) (before : Int) (s : State) : State :=
  if before = 0 ∧ s.ports.port[p].overrun ≠ 0 then
    event 0x0402 p.val [] (onPort p (fun x => { x with fSat := true }) s)
  else s

/-! Events for latches and the snapshot (R245 to R248). -/

/-- An event instant, in TBASE0 ns, and OFFSET give the capture instant (R245). -/
def dueCapture (code at0 : Nat) (off : Int) (s : State) : LatchDue :=
  { atTime := at0, inst := at0 + off, t := s.ofTb0 at0 + off, source := code }

/-- Does a unit's source name an event? The acquisition trigger is one source: it has no selection (Table 10.7). -/
def Source107.names (c : Source107) (code sel : Nat) : Bool := c.code == code && (code == 2 || c.sel == sel)

/-- An event of a latch source at a TBASE0 instant: every enabled unit that names it notes a capture to form. -/
def latchEvents (code sel : Nat) (at0 : Nat) (s : State) : State :=
  s.onPorts fun b => { b with
    latch := updAll b.latch fun _ l =>
      if l.enabled && l.src.names code sel then
        { l with due := l.due ++ [dueCapture code at0 l.src.offset s] }
      else l
    snap := if b.snap.enabled && b.snap.src.names code sel then
        { b.snap with due := b.snap.due ++ [dueCapture code at0 b.snap.src.offset s] }
      else b.snap }

/-! Compare outputs (R241 to R244). -/

/-- The position an entry's present repetition waits for, in counts: P + rep · I. -/
def CmpEntry.target (e : CmpEntry) (rep : Nat) : Int := (e.p + (if e.kind = 0x61 then rep * e.interval else 0)) / 65536

/-- How often an entry fires. -/
def CmpEntry.times (e : CmpEntry) : Nat := if e.kind = 0x61 then max e.reps 1 else 1

/-- The head entry of a list, when there is one left. -/
def Compare.entry (c : Compare) : Option CmpEntry := if c.done then none else getKey c.head c.entries

/-- Is x crossed in the entry's direction by a move from a to b (R242)? -/
def crosses (dir : Nat) (a b x : Int) : Bool :=
  (dir != 2 && decide (a < x) && decide (x ≤ b)) || (dir != 1 && decide (b ≤ x) && decide (x < a))

/-- One repetition is over: the head advances after the last (R242). -/
def Compare.advance (c : Compare) (e : CmpEntry) : Compare :=
  if c.rep + 1 < e.times then { c with rep := c.rep + 1 }
  else if c.head + 1 < c.length then { c with head := c.head + 1, rep := 0 }
  else if c.cyclic then { c with head := 0, rep := 0 }
  else { c with rep := 0, done := true }

/-- A firing: its output edge is due at `edge`; under FORCE the action does not reach the output (R243, R244). -/
def Compare.act (c : Compare) (e : CmpEntry) (edge : Nat) : Compare :=
  let k := { c with hits := c.hits + 1, fHit := true }
  if c.ctrl.active.getLsbD 1 then k
  else { k with edges := k.edges ++ [{ atTime := edge, action := e.flags.toNat / 4 % 4, width := e.width }] }

/-- An action at its output edge: a pulse ends W FB periods of 5 ns later; one that starts while the output is high from an earlier
pulse extends it and counts as a merge (R243). -/
def Compare.edge (c : Compare) (d : CmpEdge) : Compare :=
  match d.action with
  | 0 =>
    let stop := d.atTime + 5 * d.width
    match c.pulseEnd with
    | some t =>
      if d.atTime < t then { c with pulseEnd := some (max t stop), merged := c.merged + 1, fMerged := true }
      else { c with output := true, pulseEnd := some stop }
    | none => { c with output := true, pulseEnd := some stop }
  | 1 => { c with output := true, pulseEnd := none }
  | 2 => { c with output := false, pulseEnd := none }
  | _ => { c with output := !c.output, pulseEnd := none }

/-- The actions whose output edge has come, in order. -/
def Compare.settle (c : Compare) (ns : Nat) : Compare :=
  let due := c.edges.filter fun d => decide (d.atTime ≤ ns)
  due.foldl Compare.edge { c with edges := c.edges.filter fun d => decide (ns < d.atTime) }

/-- The level at a compare unit's pin before INVERT: LEVEL while FORCE is set (R244). -/
def Compare.level (c : Compare) : Bool := if c.ctrl.active.getLsbD 1 then c.ctrl.active.getLsbD 2 else c.output

/-- Crossings of a move, one repetition after another, each on the rest of the move (R242); `fire` tells a motion from a
correction or preset, which only skips (R244); `edge` is when its output edges come. Answers the unit and the entries that fired. -/
def Compare.run (fire : Bool) (edge : Nat) : Nat → Int → Int → Compare → List CmpEntry → Compare × List CmpEntry
  | 0, _, _, c, l => (c, l)
  | n + 1, a, b, c, l =>
    match c.entry with
    | none => (c, l)
    | some e =>
      let x := e.target c.rep
      if crosses (e.flags.toNat % 4) a b x then
        if fire then Compare.run fire edge n x b ((c.act e edge).advance e) (l ++ [e])
        else Compare.run fire edge n x b ({ c with fSkipped := true }.advance e) l
      else (c, l)

/-- The moves of the watched value: the position, or the count-in-revolution, a wrap being tested as two parts (R242). -/
def watched (modulo : Bool) (m : Nat) (a b : Int) : List (Int × Int) :=
  if !modulo then [(a, b)]
  else
    let k : Int := max m 1
    let x := a % k
    let y := b % k
    if a / k = b / k then [(x, y)]
    else if a < b then [(x, k - 1), (-1, y)]
    else [(x, 0), (k, y)]

/-- ns from a count's timestamp to its output edge: 15 ns after the sample that accepted it, which for an edge mode comes FILTER samples
after the timestamp (R220, R243; DEDUCED, log 50). -/
def Port.edgeDelay (x : Port) : Nat := if 5 ≤ x.mode then 15 else 15 + 5 * x.cfg.filter

/-- A move of a port's position at a timestamp acts on the compare units that watch it (R242 to R244). -/
def compareMove (fire : Bool) (p : Fin 32) (ns : Nat) (a b : Int) (s : State) : State :=
  if a = b then s
  else
    let edge := ns + s.ports.port[p].edgeDelay
    (List.finRange 16).foldl (fun s u =>
      let c := s.ports.cmp[u]
      if c.port == p.val && c.defined && c.ctrl.active.getLsbD 0 then
        let m := s.ports.port[p].cfg.modulus
        let r := (watched c.modulo m a b).foldl (fun (st : Compare × List CmpEntry) w =>
          Compare.run fire edge ((w.2 - w.1).natAbs + 1) w.1 w.2 st.1 st.2) (c, [])
        let s1 := onCmp u (fun _ => r.1) s
        r.2.foldl (fun s e =>
          let s2 := if e.flags.getLsbD 4 then event 0x0405 u.val [] s else s
          latchEvents 4 u.val (s2.toTb0 edge).toNat s2) s1
      else s) s

/-- Resolved counts at a timestamp: position, tally, speed data, history, crossings; an index correction in progress
moves one count for every stride of travel (R228, R229, R233, R235). -/
def Port.correct (p : Port) (n : Nat) : Port × Int :=
  if p.held = 0 then (p, 0)
  else
    let t := p.travel + n
    let steps := min (t / max p.stride 1) p.held.natAbs
    let d : Int := if 0 < p.held then steps else -(steps : Int)
    let q := p.move d
    ({ q with held := p.held - d, travel := t % max p.stride 1,
              idxAppPos := bumpFwd q.idxAppPos d, idxAppNeg := bumpRev q.idxAppNeg d }, d)

/-- Speed data of resolved counts (R236, R237): timestamps and directions; a reversal restarts the count of them. -/
def Port.stampCounts (p : Port) (ns : Nat) (d : Int) : Port :=
  let rev := decide (d < 0)
  let turned := !p.stamps.isEmpty && p.dirRev != rev
  let same := (p.stamps.head?.map (·.1)) == some ns
  { p with
    stamps := (ns, d) :: p.stamps.filter (fun e => decide (ns < e.1 + 10000000000))
    dirRev := rev
    reversal := turned && !(p.standstill && (p.sinceStop == 0 || same))
    sinceStop := if turned then 1 else p.sinceStop + d.natAbs
    standstill := p.standstill && (p.sinceStop == 0 || same) }

/-- Note a change of position from what it was (Table 10.5 cause 6). -/
def Port.noteMove (p : Port) (before : Int) (ns : Nat) : Port := if p.counts = before then p else { p with lastMove := ns }

/-- Keep 1 ms of positions; `good` is false for a bad frame or sample (R246). -/
def Port.remember (p : Port) (ns : Nat) (good : Bool) : Port :=
  let keep := fun (e : Nat × Int × Bool) => decide (ns < e.1 + 1000000)
  { p with hist := (ns, p.counts, good) :: (p.hist.takeWhile keep ++ (p.hist.dropWhile keep).take 1) }

/-- Resolved counts of a port at a timestamp, in its edge modes or as an SSI or sin/cos step. -/
def countPort (p : Fin 32) (d : Int) (ns : Nat) (s : State) : State :=
  if d = 0 then onPort p (fun x => x.remember ns true) s
  else
    let x := s.ports.port[p]
    let y := { (x.move d).stampCounts ns d with edgeFwd := bumpFwd x.edgeFwd d, edgeRev := bumpRev x.edgeRev d }
    let z := y.correct d.natAbs
    let s1 := compareMove true p ns x.counts y.counts (onPort p (fun _ => (z.1.noteMove x.counts ns).remember ns true) s)
    satEvent p x.overrun (compareMove false p ns y.counts z.1.counts s1)

/-- A change of position that is no count: an edge mode's history shows it; between frames or samples it is none (R246). -/
def Port.rememberSet (p : Port) (ns : Nat) : Port := if 5 ≤ p.mode then p else p.remember ns true

/-- A preset of a port with what it does to compares (R230, R244). -/
def presetPort (p : Fin 32) (x : Int) (ns : Nat) (s : State) : State :=
  let q := s.ports.port[p]
  let s1 := onPort p (fun y => ((y.preset x).noteMove q.counts ns).rememberSet ns) s
  satEvent p q.overrun (compareMove false p ns q.counts s1.ports.port[p].counts s1)

/-- Hall state code 4U + 2V + W of the accepted levels (R223). -/
def Port.hallCode (p : Port) : Nat := 4 * bit p.lineA + 2 * bit p.lineB + bit p.lineZ

/-- The forward sequence of Hall states (R223). -/
def hallOrder : List Nat := [1, 3, 2, 6, 4, 5]

/-- The reference state a port in Hall mode starts from: the present code when it is legal (R223). -/
def Port.hallStart (p : Port) : Option (BitVec 3) :=
  if hallOrder.contains p.hallCode then some (BitVec.ofNat 3 p.hallCode) else none

/-- The angle in sixths of a revolution as 2^-32 of one, in the direction INVERT gives (R221). -/
def Port.sixths (p : Port) (x : Rat) : Int :=
  let y := if p.cfg.opts.getLsbD 0 then -x else x
  halfEvenR (y / 6 * 4294967296) % 4294967296

/-- Commutation angle of a Hall port: the centre of the sector its state code names, interpolated by speed within the sector
above one sector per 10 ms (R223, Table 6.5). Code 0b001 is the sector that starts at angle 0 (DEDUCED, log 49); without a legal
code yet the angle is a free value. -/
def hallAngle (n : Fin 32) (s : State) : Int :=
  let p := s.ports.port[n]
  match p.hallRef with
  | none => Config.fixedStage 15 [n.val] % 4294967296
  | some r =>
    let k : Rat := (hallOrder.idxOf r.toNat : Nat)
    let v : Rat := ofQ24 (if p.cfg.opts.getLsbD 0 then -p.speed else p.speed)
    let edge := (p.stamps.head?.map (·.1)).getD s.nowNs
    let t : Rat := ((s.nowNs - edge : Nat) : Rat) / 1000000000
    if absR v ≤ 100 then p.sixths (k + 1 / 2)
    else p.sixths (clampR k (k + 1) ((if 0 < v then k else k + 1) + v * t))

/-- The modes a loss cause applies to (Table 10.5). -/
def causeModes (c : Nat) : List Nat :=
  match c with
  | 1 => [1, 2, 3, 4, 5, 6]
  | 2 => [5]
  | 3 => [5]
  | 4 => [4]
  | 5 => [6]
  | 6 => [1, 2, 3, 4, 5, 6]
  | 7 => [1, 2, 3, 4, 5, 6]
  | 8 => [1, 4]
  | _ => []

/-- Causes that can be present in a mode, bit c - 1 for cause c. -/
def modeCauses (mode : Nat) : BitVec 8 := BitVec.ofNat 8 ((List.range 8).map fun k => if (causeModes (k + 1)).contains mode then 2 ^ k else 0).sum

/-- The causes of another mode are present no longer. -/
def Port.forget (x : Port) (mode ns : Nat) : Port :=
  { x with causesNow := x.causesNow &&& modeCauses mode,
           absentAt := updAll x.absentAt fun k t => if x.causesNow.getLsbD k.val && !(modeCauses mode).getLsbD k.val then ns else t }

/-- The mode and modulus of a port are set (R218, R223, R226, R228, R250): a change presets the counter to 0. -/
def setPort (p : Fin 32) (mode modulus : Nat) (s : State) : State :=
  let q := s.ports.port[p]
  if q.mode = mode ∧ q.cfg.modulus = modulus then s
  else
    let s1 := presetPort p 0 s.nowNs s
    onPort p (fun x => { x.forget mode s.nowNs with
      mode := mode, cfg := { x.cfg with modulus := modulus }, hallRef := x.hallStart, ssiLast := none, ssiAbs := none, ssiBad := 0,
      ssiStart := none, sinBad := 0, phase := none, referenced := false, speed := if mode = 0 then 0 else x.speed, stamps := [],
      sinceStop := 0, standstill := decide (1 ≤ mode) && decide (mode ≤ 4), reversal := false,
      illegalSince := if mode = 4 ∧ x.hallStart.isNone then some s.nowNs else none }) s1

/-- AXIS_SET_MODE sets a port's mode and keeps its modulus (R228, R250). -/
def setPortMode (p : Fin 32) (mode : Nat) (s : State) : State := setPort p mode s.ports.port[p].cfg.modulus s

/-! Speed (R236, R237). -/

/-- Frame or sample period of a port in its SSI or sin/cos mode, ns (R225, R227). -/
def samplePeriod (p : Fin 32) (s : State) : Nat :=
  let x := s.ports.port[p]
  if x.mode = 6 then 1000
  else if x.mode = 5 then
    match (List.finRange 64).findSome? fun (i : Fin 64) =>
      if s.axis[i].bind.portA = some p.val ∨ s.axis[i].bind.portB = some p.val then s.axis[i].mode.map (fun m => 2 * m.period) else none with
    | some t => t
    | none => 1000 * x.cfg.ssi.poll
  else 0

/-- Counts within a window that ends now, over its length: v_c in counts/s. -/
def Port.countSpeed (x : Port) (ns tw : Nat) : Rat :=
  let n := ((x.stamps.filter fun e => decide (ns < e.1 + tw)).map (·.2)).sum
  (n : Rat) * 1000000000 / (max tw 1 : Nat)

/-- Timestamps of single counts, newest first. -/
def Port.countStamps (x : Port) : List Nat := x.stamps.flatMap fun e => List.replicate e.2.natAbs e.1

/-- v_p of R236: the period over the last k counts, or the gap since the last one where it is longer; k grows past counts
that share a timestamp (R237). -/
def Port.periodSpeed (x : Port) (ns : Nat) : Rat :=
  let l := x.countStamps
  let last := l.head?.getD ns
  let k := min x.cfg.periodEdges (x.sinceStop - 1)
  let sgn : Rat := if x.dirRev then -1 else 1
  match ((l.zipIdx.drop k).find? fun e => decide (e.1 < last)) with
  | none => 0
  | some (t, j) =>
    let a : Rat := (j : Rat) * 1000000000 / ((last - t : Nat) : Rat)
    if ns ≤ last then sgn * a
    else
      let b : Rat := 1000000000 / ((ns - last : Nat) : Rat)
      sgn * (if a ≤ b then a else b)

/-- The speed of a port in an edge mode (R236, R237). -/
def Port.edgeSpeed (x : Port) (ns : Nat) : Rat :=
  if x.standstill then 0
  else if x.reversal then (if x.dirRev then -1000 else 1000) / ((max x.cfg.timeoutMs 1 : Nat) : Rat)
  else
    let vc := x.countSpeed ns (1000 * x.cfg.tw)
    let lo := ofQ24 x.cfg.vLo
    let hi := ofQ24 x.cfg.vHi
    let w : Rat := if hi = lo then (if absR vc < lo then 0 else 1) else clampR 0 1 ((absR vc - lo) / (hi - lo))
    (1 - w) * x.periodSpeed ns + w * vc

/-- Evaluate a port's speed now, rounded half to even to Q39.24 (R236). -/
def evalSpeed (p : Fin 32) (s : State) : State :=
  let x := s.ports.port[p]
  if x.mode = 0 then s
  else
    let v := if x.mode ≤ 4 then x.edgeSpeed s.nowNs else x.countSpeed s.nowNs (max (1000 * x.cfg.tw) (samplePeriod p s))
    onPort p (fun y => { y with speed := halfEvenR (v * 16777216), evalAt := s.nowNs }) s

/-- The ports a slot names: primary, secondary, and the pulse port of a pulse-follow source, also of one that waits to take over (R123,
R139, R240). -/
def slotPorts (a : Axis) : List Nat :=
  a.bind.portA.toList ++ a.bind.portB.toList ++
  (match a.mode with
   | some m => if m.source = 4 then [m.srcIndex] else []
   | none => []) ++
  (match a.nextSource with
   | some (src, ix, _) => if src = 4 then [ix] else []
   | none => [])

/-- The frame time of an SSI port, ns, a part counting whole (R224). -/
def ssiFrame (c : SsiCfg) : Nat := ((c.lead + c.mt + c.st + c.stat + c.crcLen) * 1000000 + max c.clock 1 - 1) / max c.clock 1

/-- The same plus TM (R225). -/
def ssiTime (c : SsiCfg) : Nat := ssiFrame c + 1000 * c.tm

/-- Does a port's bound feedback report loss? -/
def portLost (p : Option Nat) (s : State) : Bool :=
  match p with
  | some n => (s.ports.port[Fin.ofNat 32 n]).lossActive
  | none => false

end Sys2Proof.Machine
end

