-- ==== Sys2Proof/Machine/PlanCore.lean ====
section
/-! DEFINITION.
What the planner does to one axis: set-points, starting, re-planning, stopping, a boundary (R142 to R154, R165 to R167, 07);
the segment store (R163). -/

namespace Sys2Proof.Machine

/-- Change the planner's state of an axis. -/
def onPax (i : Fin 64) (f : PlanAxis → PlanAxis) (s : State) : State := s.onPlan fun p => { p with ax := upd p.ax i f }

/-- Change a planner group. -/
def onPgrp (g : Fin 16) (f : PlanGroup → PlanGroup) (s : State) : State := s.onPlan fun p => { p with grp := upd p.grp g f }

/-- The outermost loop of a depth (R130, R142). -/
def outerLoop (depth : Nat) : Fin 3 := if depth = 3 then 2 else if depth = 2 then 1 else 0

/-- Period of a slot's outermost loop, ticks (R133, R142). -/
def outerTicks (a : Axis) : Nat :=
  match a.mode with
  | some m => m.period * loopDiv m (outerLoop m.depth)
  | none => 0

/-- Planner period of an axis, ticks (R142). -/
def planTicks (i : Fin 64) (s : State) : Nat := outerTicks s.axis[i] * ((s.plan.ax[i].cfg.map (·.divider)).getD 1)

/-- Planner period, seconds. -/
def planPeriod (i : Fin 64) (s : State) : Rat := secs (max (planTicks i s) 1)

/-- Depth of a slot. -/
def depthOf (i : Fin 64) (s : State) : Nat := (s.axis[i].mode.map (·.depth)).getD 0

/-- Command source of a slot. -/
def sourceOf (i : Fin 64) (s : State) : Nat := (s.axis[i].mode.map (·.source)).getD 0

/-- The group a slot is a member of (R155). -/
def memberOf (i : Fin 64) (s : State) : Option (Fin 16) :=
  (List.finRange 16).find? fun (g : Fin 16) => s.plan.grp[g].defined && s.plan.grp[g].members.contains i.val

/-- A slot's legs are off or shorted by its standstill policy, so that a command first re-engages it (R132, R286). -/
def parked (a : Axis) : Bool := a.st == .enabled && a.standstill && (a.legsOff || a.legsShort)

/-- A set-point change ends standstill: legs that are off re-engage at the next period boundary (R132, R285). -/
def wakeSlot (i : Fin 64) (s : State) : State :=
  if parked s.axis[i] then
    (slotGroups s.axis[i].bind).foldl (fun s g => releaseGroup g s)
      (onChannel i (fun c => { c with enable := true, short := false }) (onAx i (fun a => { a with reengage := true }) s))
  else onAx i (fun a => { a with standstill := false, spChange := s.now }) s

/-- A set-point change of this slot waits: legs to be re-engaged, a wake ramp, or a stepper's amplitude to return first
(R132, R285, R288). -/
def spWaits (i : Fin 64) (s : State) : Bool :=
  let a := s.axis[i]
  parked a || a.reengage || a.waitSp.isSome ||
  (a.st == .enabled && driveOf i s == 2 && (a.standstill || s.stepper.slot[i].phase == 5))

/-- New set-points of a slot: position, velocity, velocity feedforward, current. A change restarts its idle time (R132);
where it must wait it is kept and wakes the slot. -/
def setPoints (i : Fin 64) (pos vel velFf cur : Int) (s : State) : State :=
  let a := s.axis[i]
  let same := decide (pos = a.posSp ∧ vel = a.velSp ∧ cur = a.curSp)
  if !same && spWaits i s then
    let s1 := onAx i (fun a => { a with waitSp := some (pos, vel, velFf, cur), waitN := if a.waitSp.isSome then a.waitN else 1 }) s
    if parked a && !a.reengage then wakeSlot i s1 else s1
  else
    onAx i (fun a =>
      { a with posSp := pos, velSp := vel, velFf := velFf, curSp := cur, spChange := if same then a.spChange else s.now,
               standstill := a.standstill && same }) s

/-- The position a set-point goes on from: the one that waits, when one does (R132, R285, R288). -/
def spBase (a : Axis) : Int := match a.waitSp with
  | some w => w.1
  | none => a.posSp

/-- The same without a change of the current set-point. -/
def setPoint (i : Fin 64) (pos vel velFf : Int) (s : State) : State := setPoints i pos vel velFf s.axis[i].curSp s

/-- The point a profile starts from: the running one's present point, else the set-points at rest or in motion (R149). -/
def presentPt (i : Fin 64) (s : State) : Pt :=
  let x := s.plan.ax[i]
  match x.segs with
  | g :: _ => g.point (x.tau * planPeriod i s)
  | [] =>
    let a := s.axis[i]
    { p := ofQ16 a.posSp, v := ofQ24 (if depthOf i s = 2 then a.velSp else a.velFf), a := ofQ24 (if sourceOf i s = 0 then x.acc else a.accFf) }

/-- Limits of a move, its velocity limit lowered by the override (R145, R167). -/
def moveLim (i : Fin 64) (c : MoveCmd) (s : State) : Lim :=
  let x := s.plan.ax[i]
  let l := c.limits.lim
  let vmax := (x.cfg.map fun c => ofQ24 c.limits.v).getD l.v
  let v := l.v * (x.override.active.toNat : Rat) / 1024
  { l with v := if v < vmax then v else vmax }

/-- Quick-stop limits of an axis as profile limits (R145). -/
def quickLim (i : Fin 64) (s : State) : Lim :=
  match s.plan.ax[i].cfg with
  | some c => { v := ofQ24 c.limits.v, a := ofQ24 c.quick.d, d := ofQ24 c.quick.d, j := ofQ16 c.quick.j, s := ofQ16 c.quick.s }
  | none => {}

/-- The soft limit a jog runs towards (R153). -/
def jogTarget (i : Fin 64) (speed : Int) (s : State) : Option Int :=
  match s.plan.ax[i].cfg.bind (·.soft) with
  | some (lo, hi) => if 0 < speed then some hi else if speed < 0 then some lo else none
  | none => none

/-- The segments a command makes from a point, and whether they include a reversal. -/
def planSegs (i : Fin 64) (c : MoveCmd) (x : Pt) (s : State) : List ProfSeg × Bool :=
  let T := planPeriod i s
  let l := moveLim i c s
  match c.kind with
  | 1 => if l.v = 0 then ((planStop c.profile l T x).1, false) else planMove c.profile l T x (ofQ16 c.target)
  | 2 =>
    let w := ofQ24 c.speed * (s.plan.ax[i].override.active.toNat : Rat) / 1024
    if l.v = 0 then ((planStop c.profile l T x).1, false)
    else
      match jogTarget i c.speed s with
      | some t => planMove c.profile { l with v := if absR w < l.v then absR w else l.v } T x (ofQ16 t)
      | none => (planJog c.profile l T x (clampR (-l.v) l.v w), false)
  | 3 =>
    if c.stopMode = 3 ∨ s.plan.ax[i].cfg = none then ([], false)
    else if c.stopMode = 1 then
      ((planStop c.profile (quickLim i s) T x).1, false)
    else ((planStop c.profile c.limits.lim T x).1, false)
  | _ => ([], false)

/-- ACTIVITY of a command (PLAN_AX_STATUS). -/
def MoveCmd.activity (c : MoveCmd) : Nat := if c.kind = 1 then 1 else if c.kind = 2 then 2 else if c.kind = 3 then 3 else 0

/-- Results of a move or jog at the boundary where it starts (R152). -/
def moveResults (c : MoveCmd) (l : List ProfSeg) : List Res :=
  if c.kind = 1 then [(0x0100, be 4 (profilePeriods l)), (0x0101, beI 8 (roundOpen (profilePeak l * 16777216)))] else []

/-- A profile has ended (R152 to R154, R165): the last values stand. -/
def profileEnd (i : Fin 64) (s : State) : State :=
  let x := s.plan.ax[i]
  let s1 := onPax i (fun y => { y with
    segs := [], tau := 0, segment := 0, entry := false, done := true, windowSince := some s.now,
    activity := if x.cmd.kind = 3 ∧ x.cmd.stopMode = 2 then 4 else 0, reversal := false,
    softLimit := y.softLimit || x.jogLimit, jogLimit := false }) s
  let s2 := if x.jogLimit then event 0x0204 i.val [] s1 else s1
  if x.cmd.kind = 3 then answerStops i s2 else s2

/-- Hand the point of a boundary to the axis (R144). At velocity depth the planner's position goes on from its own set-points (R153;
DEDUCED, log entry 10). -/
def handOver (i : Fin 64) (x : Pt) (s : State) : State :=
  let p := roundOpen (x.p * 65536)
  let v := roundOpen (x.v * 16777216)
  let s1 := onPax i (fun y => { y with pos := p, vel := v, acc := roundOpen (x.a * 16777216) }) s
  setPoint i p (if depthOf i s = 2 then v else s.axis[i].velSp) v s1

/-- The profile of a move or jog is held at rest by an override of 0 (R167). -/
def overrideHolds (x : PlanAxis) (kind : Nat) : Bool := decide (x.override.active = 0) && kind != 3

/-- Start a command from a point at this boundary (R149, R152, R165). -/
def planBegin (i : Fin 64) (c : MoveCmd) (x : Pt) (s : State) : State :=
  let r := planSegs i c x s
  let jl := c.kind == 2 && (jogTarget i c.speed s).isSome
  let s1 := onPax i (fun y => { y with
    cmd := if c.kind = 3 ∧ c.stopMode = 2 then { c with target := y.cmd.target } else c, next := none, segs := r.1, tau := 0,
    activity := c.activity, profile := c.profile, reversal := r.2, jogLimit := jl,
    target := if c.kind = 1 then c.target else y.target,
    done := false, softLimit := if c.kind = 3 then y.softLimit else false,
    entry := (r.1.head?.map (·.entry)).getD false, segment := (r.1.head?.map (·.no)).getD 0, windowSince := none }) s
  let s2 := if c.kind = 3 then declutch i s1 else onAx i (fun a => { a with targetReached := false }) s1
  let s3 := finish (isMove i) .done (moveResults c r.1) s2
  match r.1 with
  | g :: _ => handOver i (g.point 0) s3
  | [] =>
    if overrideHolds s.plan.ax[i] c.kind then s3
    else profileEnd i (if c.kind = 3 then handOver i { x with v := 0, a := 0, j := 0 } s3 else s3)

/-- Plan the running command again from the present point, when a limit has changed; a reversal already made stays part of the move (R149,
R167). -/
def replan (i : Fin 64) (s : State) : State :=
  let x := s.plan.ax[i]
  if x.activity = 1 ∨ x.activity = 2 then
    let r := planSegs i x.cmd (presentPt i s) s
    onPax i (fun y => { y with segs := r.1, tau := 0, reversal := y.reversal || r.2, entry := (r.1.head?.map (·.entry)).getD false,
                               segment := (r.1.head?.map (·.no)).getD 0 }) s
  else s

/-- The point at which a profile ends: exactly the target of a move or the limit of a jog (R144, R153). -/
def endPoint (i : Fin 64) (x : PlanAxis) (s : State) : Pt :=
  match x.segs with
  | g :: _ =>
    let p := g.point g.len
    let exact := if x.cmd.kind = 1 then some (ofQ16 x.cmd.target) else if x.jogLimit then (jogTarget i x.cmd.speed s).map ofQ16 else none
    { p := if overrideHolds x x.cmd.kind then p.p else exact.getD p.p }
  | [] => presentPt i s

/-- The profile of an axis moves one period on. -/
def profileAdvance (i : Fin 64) (s : State) : State :=
  let x := s.plan.ax[i]
  if x.segs = [] then s
  else
    let r := profileStep (planPeriod i s) x.segs x.tau
    match r.2.2 with
    | some p =>
      handOver i p (onPax i (fun y => { y with
        segs := r.1, tau := r.2.1, segment := (r.1.head?.map (·.no)).getD 0, entry := (r.1.head?.map (·.entry)).getD false }) s)
    | none =>
      let s1 := handOver i (endPoint i x s) s
      if overrideHolds x x.cmd.kind then onPax i (fun y => { y with segs := [], tau := 0, segment := 0, entry := false }) s1
      else profileEnd i s1

/-- A factor has been armed for 10 µs at a boundary's instant (R143, R167). -/
def Buf.ripe (t : Nat) (b : Buf) : Bool := b.due && decide (b.since + 5000 ≤ t)

/-- A planner boundary of a single axis at tick `t` (R143, R144, R167). -/
def axisBoundary (i : Fin 64) (t : Nat) (s : State) : State :=
  let s1 := onPax i (fun y => { y with boundary := t }) (profileAdvance i s)
  let x := s1.plan.ax[i]
  let s2 := if x.override.ripe t then settleUpdate 1 (replan i (onPax i (fun y => { y with override := y.override.take }) s1)) else s1
  match s2.plan.ax[i].next with
  | some c =>
    if t < c.handed + 5000 ∨ s2.axis[i].reengage ∨ parked s2.axis[i] ∨ s2.stepper.slot[i].phase = 5 then s2
    else planBegin i c (presentPt i s2) s2
  | none => s2

/-- Severity of a stop mode (Table 7.5). -/
def stopSeverity (m : Nat) : Nat := [2, 3, 1, 4].getD m 0

/-- Ask for a stop of an axis at its next boundary; a running stop of at least its severity stands (R165, R166). FREEZE on
an open-loop stepper acts as QUICK. -/
def requestStop (i : Fin 64) (mode : Nat) (s : State) : State :=
  let x := s.plan.ax[i]
  let m := if mode = 3 ∧ depthOf i s = 0 then 1 else mode
  let now0 := if x.activity = 3 then stopSeverity x.cmd.stopMode else 0
  let due := match x.next with
    | some c => if c.kind = 3 then stopSeverity c.stopMode else 0
    | none => 0
  if stopSeverity m ≤ max now0 due then s
  else
    let base := (x.cfg.map (·.limits)).getD {}
    let c : MoveCmd :=
      { kind := 3, stopMode := m, profile := if x.activity = 0 then (x.cfg.map (·.profile)).getD 1 else x.profile,
        limits := if x.activity = 1 ∨ x.activity = 2 then x.cmd.limits else base, target := x.target, handed := s.now }
    onPax i (fun y => { y with next := some c }) s

/-- Is an axis in motion by the planner, or about to be? -/
def planBusy (i : Fin 64) (s : State) : Bool :=
  s.plan.ax[i].activity == 1 || s.plan.ax[i].activity == 2 || s.plan.ax[i].activity == 3 || s.plan.ax[i].next.isSome

/-! Segment store (R163): 1,024 blocks of 16 entries. -/

/-- Owners of runs: planner groups, cam tables, compare units. -/
def storeGroup (g : Nat) : Nat := g
/-- Cam table t. -/
def storeCam (t : Nat) : Nat := 32 + t
/-- Compare unit u. -/
def storeCompare (u : Nat) : Nat := 64 + u

/-- Is a block free? -/
def blockFree (l : List StoreRun) (b : Nat) : Bool := l.all fun r => decide (b < r.atTime) || decide (r.atTime + r.blocks ≤ b)

/-- Free blocks. -/
def storeFree (s : State) : Nat := 1024 - (s.plan.store.map (·.blocks)).sum

/-- Lowest start of a free run of `n` blocks: 0, or right after some run. -/
def storeFit (n : Nat) (l : List StoreRun) : Option Nat :=
  let starts := 0 :: l.map fun r => r.atTime + r.blocks
  ((starts.filter fun a => decide (a + n ≤ 1024) && l.all fun r => decide (a + n ≤ r.atTime) || decide (r.atTime + r.blocks ≤ a))).min?

/-- Longest free run: from the start or the end of some run to the next. -/
def storeLongest (s : State) : Nat :=
  let l := s.plan.store
  let starts := 0 :: l.map fun r => r.atTime + r.blocks
  ((starts.filter fun a => decide (a < 1024) && blockFree l a).map fun a =>
    (((l.filter fun r => decide (a < r.atTime)).map (·.atTime)).min?.getD 1024) - a).foldl max 0

/-- Release an owner's run. -/
def storeRelease (owner : Nat) (s : State) : State :=
  s.onPlan fun p => { p with store := p.store.filter (·.owner != owner) }

/-- Allocate a run of entries for an owner, in place of the one it had; none when nothing fits. -/
def storeAllocate (owner entries : Nat) (s : State) : Option State :=
  let s1 := storeRelease owner s
  let n := (entries + 15) / 16
  (storeFit n s1.plan.store).map fun a => s1.onPlan fun p => { p with store := p.store ++ [{ atTime := a, blocks := n, owner := owner }] }

/-- Store entries free. -/
def storeEntries (s : State) : Nat := 16 * storeFree s

end Sys2Proof.Machine
end

