-- ==== Sys2Proof/Machine/Request.lean ====
section
/-! DEFINITION.
How a Ruhity command runs: steps 7 to 13 of Table 4.5, acceptance for a later instant, and its reply (R77 to R83, 04). -/

namespace Sys2Proof.Machine

/-- What an opcode's effect gives: a refusal at its step-13 checks, results at once, an answer after a partial course, or
a command under way, answered when it completes (key and context name what it waits for). -/
inductive Answer
  | deny (d : Deny)
  | done (s : State) (results : List Res)
  | fail (s : State) (d : Deny)
  | wait (s : State) (key : Nat) (ctx : List Nat)

/-- An opcode as its chapter's table gives it. -/
structure Op where
  /-- Opcode number. -/
  opcode : Nat
  /-- Which targets are valid (step 10). -/
  target : Nat → Bool
  /-- What a target must be in the present state (step 10). -/
  targetState : Request → State → Bool := fun _ _ => true
  /-- A time-of-effect is permitted (step 12). -/
  toe : Bool
  /-- Device states that serve it (step 7); Test is granted wherever Operational is (R65). -/
  states : List DevState
  /-- The loader of R58 serves it. -/
  loader : Bool := false
  /-- Host Port only (R96). -/
  hostOnly : Bool := false
  /-- Its TLVs (step 11). -/
  schema : List TlvSpec
  /-- Its values (step 11). -/
  values : Request → State → Option Deny := fun _ _ => none
  /-- Its further conditions and its effect (step 13). -/
  effect : Request → State → Answer

/-- Every state after Reset. -/
def allStates : List DevState := [.startup, .commissioning, .operational, .test, .recovery]
/-- Every state after Startup. -/
def afterStart : List DevState := [.commissioning, .operational, .test, .recovery]

/-- Targets of the device itself. -/
def device (n : Nat) : Bool := n == 0xFFFF
/-- Targets 0 to n - 1 (R95). -/
def below (n t : Nat) : Bool := decide (t < n)

/-- Startup has halted and a loader is served (R58). -/
def halted (s : State) : Bool := s.sys.dev == .startup && s.sys.phase == 0xF

/-- Step 7: is the opcode served in the present state or by the loader? -/
def served (o : Op) (s : State) : Bool :=
  if s.sys.dev = .startup ∨ s.sys.dev = .reset then halted s && o.loader
  else o.states.contains s.sys.dev || (s.sys.dev == .test && o.states.contains .operational)

/-- The opcode's class (R87). -/
def classOf (opcode : Nat) : Nat := opcode / 0x100

/-- Step 8: the policy requires a valid tag for this opcode class on this transport (R87). -/
def tagRequired (opcode : Nat) (src : Source) (s : State) : Bool :=
  s.pkts.policy.getLsbD (classOf opcode) && (src != .hostPort || s.pkts.policyHost)

/-- An authenticated RESYNC carries CHALLENGE (R71, R88). -/
def challengeTlv (rq : Request) : List TlvSpec := if rq.authed && rq.flags.getLsbD 3 then [optional 0x0010 8] else []

/-- t_lead: the host-command tolerance in force plus 20 µs (R81). -/
def tLead (s : State) : Nat := s.power.tolHost + 20000

/-- Step 12 (R81). -/
def timeCheck (o : Op) (rq : Request) (s : State) : Option Deny :=
  let t := rq.toe.toNat
  if t = 0 then none
  else firstDeny
    [(!o.toe, denyAt .badParam 16 0 13),
     (!s.tb0Sync, denyAt .stateConflict 16 0 8),
     (decide (rq.arrival + 1000000000000 < t), denyAt .badParam 16 0 3),
     (decide (t < rq.arrival + tLead s), deny .late)]

/-- Steps 7 to 12: the first refusal, if any. -/
def refusal (o : Op) (rq : Request) (s : State) : Option Deny :=
  if o.hostOnly && rq.src != .hostPort then some (denyAt .denied 8 0 9)
  else if !served o s then some conflict
  else if tagRequired o.opcode rq.src s && !rq.authed then some authFail
  else if rq.flags.getLsbD 4 || rq.flags.getLsbD 5 then some (denyAt .badParam 3 0 10)
  else if !(o.target rq.target.toNat && o.targetState rq s) then some (deny .badTarget)
  else
    match tlvCheck (o.schema ++ challengeTlv rq) rq.params.length 24 rq.params [] with
    | some d => some d
    | none =>
      match o.values rq s with
      | some d => some d
      | none => timeCheck o rq s

/-- The first access that executing the command needs and Gardener's table refuses (R60, R77). While Gardener does not run, the
loader's commands are Keeper's or the ROM's own (R59). -/
def forbidden (o : Op) (rq : Request) (s : State) : Option (Word × Bool) :=
  if s.boot.gardenerRuns then (Config.commandAccesses o.opcode rq.target.toNat).find? fun a => !granted a.2 a.1.toNat s else none

/-- An access of a command is refused: the PERMISSION event names the address and a context of Gardener's, which one being free. -/
def noteForbidden (a : Word × Bool) (s : State) : State :=
  let r := freshNat s
  permissionEvent (Fin.ofNat 6 (1 + r.1 % 4)) a.1.toNat a.2 0 r.2

/-- What running the command gives: DENIED without effect where an access it needs is refused (R60), else its own answer. -/
def Op.outcome (o : Op) (rq : Request) (s : State) : Answer :=
  match forbidden o rq s with
  | some a => .fail (noteForbidden a s) (deny .denied)
  | none => o.effect rq s

/-- An answer makes the step-13 checks pass. -/
def Answer.passes : Answer → Bool
  | .deny _ => false
  | _ => true

/-- Is the command's block gated in Doze (Table 1.6), so that serving it spends wake time (R33)? -/
def needsWake (opcode : Nat) (rq : Request) (s : State) : Bool :=
  s.power.power == .doze &&
  (match classOf opcode with
   | 0x03 => s.axis[tgt 64 rq].st == .unbound
   | 0x04 =>
     if opcode < 0x0410 then portGated rq.target.toNat s
     else if opcode < 0x0420 then s.ports.cmp[tgt 16 rq].defined && portGated s.ports.cmp[tgt 16 rq].port s
     else false
   | 0x05 =>
     if [0x0500, 0x0502, 0x0508, 0x050A].contains opcode ∨ opcode = 0x0503 ∧ rq.target ≠ 0xFFFF then groupGated (tgt 32 rq) s
     else opcode == 0x0501 && groupGated (legGroup (tgt 96 rq)) s
   | 0x0B => canIdle s
   | 0x0C => spIdle s
   | 0x0D => acqUnused s
   | _ => false)

/-- A command under way. -/
def begin (opcode : Nat) (rq : Request) (key : Nat) (ctx : List Nat) (deferred : Bool) (s : State) : State :=
  s.onPkts fun k => { k with executing := k.executing ++
    [{ opcode := opcode, rq := rq, key := key, ctx := ctx, deferred := deferred }] }

/-- Carry an answer out and reply (R73, R83). -/
def conclude (o : Op) (rq : Request) (deferred : Bool) (a : Answer) (s : State) : State :=
  match a with
  | .deny d => sendReply o.opcode rq d.status d.tlvs deferred s
  | .done t r =>
    -- WAKE_TIME: the time spent waking a gated domain, at most 20 µs in Doze, is a free value below that bound (R33).
    if needsWake o.opcode rq s then
      sendReply o.opcode rq .done (r ++ [(0x0005, be 4 ((freshNat t).1 % 20001))]) deferred (freshNat t).2
    else sendReply o.opcode rq .done r deferred t
  | .fail t d => sendReply o.opcode rq d.status d.tlvs deferred t
  | .wait t key ctx => begin o.opcode rq key ctx deferred t

/-- Accept a command for its time-of-effect (R81, R82). -/
def acceptLater (o : Op) (rq : Request) (s : State) : State :=
  if 256 ≤ s.pkts.pending.length then sendReply o.opcode rq .resource (deny .resource).tlvs false s
  else
    let h := s.pkts.nextHandle
    let s1 := s.onPkts fun k => { k with
      nextHandle := (h + 1) % 2 ^ 32, pending := k.pending ++ [{ handle := h, opcode := o.opcode, rq := rq }] }
    sendReply o.opcode rq .accepted [(0x0002, be 4 h)] false s1

/-- What a target number names: an axis slot for the axis, planner-axis, gear, loop and stepper opcodes, a planner group
for the group opcodes of class 0x02, else a unit of the opcode's own class (R95, Table 7.8). -/
def unitKind (opcode : Nat) : Nat :=
  if [0x0204, 0x0210, 0x0211, 0x0212, 0x0213, 0x0214].contains opcode then 0x102
  else if [0x0283, 0x0284, 0x0285].contains opcode then 0x103
  else if opcode = 0x0286 then 0x104
  else if [0x01, 0x02, 0x03, 0x06].contains (classOf opcode) then 0x101
  else classOf opcode

/-- Two packets touch the same target: the device, or the same numbered unit (R80, R95). -/
def sameTarget (opcode : Nat) (rq : Request) (opcode2 : Nat) (rq2 : Request) : Bool :=
  rq.target == rq2.target && (rq.target == 0xFFFF || unitKind opcode == unitKind opcode2)

/-- Another command is under way on the same target (R80); a STOP frees its target once the planner has it, so that a more severe
one can replace it (R166). -/
def targetBusy (opcode : Nat) (rq : Request) (s : State) : Bool :=
  s.pkts.executing.any fun e => e.opcode != 0x0203 && sameTarget opcode rq e.opcode e.rq

/-- An earlier command that waits for its target: later ones from its source or on its target wait behind it (R80). -/
def waitsBehind (opcode : Nat) (rq : Request) (e : Nat × Request) : Bool :=
  e.2.src == rq.src || sameTarget opcode rq e.1 e.2

/-- Steps 7 to 13 of Table 4.5 and the effect (R77). -/
def runNow (o : Op) (rq : Request) (s : State) : State :=
  match refusal o rq s with
  | some d => sendReply o.opcode rq d.status d.tlvs false s
  | none =>
    if rq.toe = 0 then conclude o rq false (o.outcome rq s) s
    else
      match forbidden o rq s with
      | some _ => conclude o rq false (o.outcome rq s) s
      | none =>
        match o.effect rq s with
        | .deny d => sendReply o.opcode rq d.status d.tlvs false s
        | _ => acceptLater o rq s

/-- The same, or a wait for the target (R80). -/
def runOp (o : Op) (rq : Request) (s : State) : State :=
  if targetBusy o.opcode rq s || s.pkts.blocked.any (waitsBehind o.opcode rq) then
    s.onPkts fun k => { k with blocked := k.blocked ++ [(o.opcode, rq)] }
  else runNow o rq s

/-- The same as a command of the model. -/
def runCommand (o : Op) (rq : Request) (s : State) : Host.Outcome State Fault Refusal := .next (runOp o rq s)

end Sys2Proof.Machine
end

