-- ==== Sys2Proof/Machine/AxisOps.lean ====
section
/-! DEFINITION.
Slots: measured position and speed, the checks of a mode (Tables 6.4 to 6.8), enabling, disabling, causes
(R121 to R141, 06). -/

namespace Sys2Proof.Machine

/-- Does the slot's commutation or a loop use the observer (Tables 6.5, 6.6)? -/
def usesObserver (a : Axis) : Bool :=
  match a.mode with
  | some m => m.feedback == 6 && decide (1 ≤ m.depth) || m.feedback == 0 && m.depth == 2
  | none => false

/-- Does the commutation use the observer: a slot that needs an angle and has no sensor (R128, R213)? -/
def observerAngle (a : Axis) : Bool :=
  match a.mode with
  | some m => usesObserver a && (m.drive == 0 || m.drive == 1)
  | none => false

/-! Checks of a mode, in TLV order (R127 to R133, R138, R494). -/

/-- Has the slot measured current (R129)? -/
def senses (b : Binding) (s : State) : Bool := hasCurrents b s

/-- Slots other than one that are bound. -/
def otherSlots (i : Fin 64) (s : State) : List (Fin 64) :=
  (List.finRange 64).filter fun (j : Fin 64) => j != i && s.axis[j].bind.location != 0

/-- Table 6.4 and R494. -/
def checkDrive (rq : Request) (b : Binding) (m : AxisMode) (s : State) : Option Deny :=
  let kind := b.legSet / 0x1000
  let n := b.inputs.length
  let cur := (brickChannel b s).currents
  firstDeny
    [(decide (4 < m.drive), badValue rq 0x0100),
     (b.location == 1 && !(if m.drive ≤ 1 then kind == 1 else if m.drive = 2 then kind == 2 else kind != 2), lacks rq 0x0100 0x0002),
     (b.location == 1 && !(match m.drive with
        | 0 => n == 2 || n == 3
        | 1 => decide (1 ≤ n)
        | 2 => n == 0 || n == 2
        | _ => n == 1), lacks rq 0x0100 0x0003),
     (b.location == 2 && decide (cur < (if m.drive = 0 ∨ m.drive = 2 then 2 else 1)), lacks rq 0x0100 0x0006)]

/-- Table 6.5. -/
def checkFeedback (rq : Request) (b : Binding) (m : AxisMode) (s : State) : Option Deny :=
  let sensor := decide (1 ≤ m.feedback) && decide (m.feedback ≤ 5)
  let ports := b.location == 1 || b.portA.isSome || b.portB.isSome
  firstDeny
    [(decide (6 < m.feedback), badValue rq 0x0101),
     (sensor && ports && (b.portA.isNone || (m.feedback == 3 && b.portB.isNone)), lacks rq 0x0101 0x0004),
     (m.feedback == 5 && ports && decide (7 < b.portA.getD 0), lacks rq 0x0101 0x0005),
     (sensor && !ports && !(brickChannel b s).feedback.getLsbD m.feedback, lacks rq 0x0101 0x0007),
     (m.feedback == 6 && !senses b s, lacks rq 0x0101 0x000A)]

/-- Table 6.6. -/
def checkDepth (rq : Request) (b : Binding) (m : AxisMode) (s : State) : Option Deny :=
  let single := m.drive == 3 || m.drive == 4
  firstDeny
    [(decide (3 < m.depth), badValue rq 0x0102),
     (decide (1 ≤ m.depth) && !senses b s, lacks rq 0x0102 0x000A),
     (m.depth == 0 && single, lacks rq 0x0102 0x0009),
     (m.depth == 1 && m.feedback == 0 && !single, lacks rq 0x0102 0x0009),
     (m.depth == 3 && m.feedback == 0 && m.drive != 2, lacks rq 0x0102 0x000B)]

/-- The mode a port would have with this slot's mode in force (R250). -/
def portModeWith (b : Binding) (m : AxisMode) (p : Nat) (s : State) : Nat :=
  let first := match m.feedback with
    | 1 => some 1 | 2 => some 4 | 3 => some 1 | 4 => some 5 | 5 => some 6 | _ => none
  if some p = b.portA ∧ first.isSome then first.getD 0
  else if some p = b.portB ∧ m.feedback = 3 then 4
  else (s.ports.port[Fin.ofNat 32 p]).mode

/-- Table 6.7, AIN channel and pulse port (R123, R130, R250). -/
def checkSource (rq : Request) (i : Fin 64) (b : Binding) (m : AxisMode) (s : State) : Option Deny :=
  let pm := portModeWith b m m.srcIndex s
  firstDeny
    [(decide (6 < m.source) || (m.depth == 1 && [0, 1, 2, 4].contains m.source) || (m.depth == 2 && m.source == 2), badValue rq 0x0103),
     (m.source == 3 && decide (7 < m.srcIndex), badValue rq 0x0103),
     (m.source == 4 && m.srcIndex == 0xFF, lacks rq 0x0103 0x000C),
     (m.source == 4 && decide (31 < m.srcIndex), badValue rq 0x0103),
     (m.source == 4 && (otherSlots i s).any (fun j => (slotPorts s.axis[j]).contains m.srcIndex), taken rq 0x0103 0x000C),
     (m.source == 4 && !(pm == 1 || pm == 2 || pm == 3), lacks rq 0x0103 0x000C),
     (m.source != 3 && m.source != 4 && m.srcIndex != 0xFF, badValue rq 0x0103)]

/-- Table 6.8 and R132: the standstill policy. -/
def checkStandstill (rq : Request) (b : Binding) (m : AxisMode) (s : State) : Option Deny :=
  firstDeny
    [(!(if m.drive = 2 then [0, 3, 4, 5] else [0, 1, 2]).contains m.standstill || m.idleMs == 0, badValue rq 0x0104),
     (b.location == 2 && (m.standstill == 2 || m.standstill == 5) && !(brickChannel b s).canShort, lacks rq 0x0104 0x0008)]

/-- Table 6.8: the fault reaction (R131). -/
def checkReaction (rq : Request) (b : Binding) (m : AxisMode) (s : State) : Option Deny :=
  firstDeny
    [(decide (2 < m.reaction) || (m.reaction == 2 && m.drive == 4) || bad63At rq 0x0105 8, badValue rq 0x0105),
     (m.reaction == 2 && !senses b s, lacks rq 0x0105 0x000A),
     (b.location == 2 && m.reaction == 1 && !(brickChannel b s).canShort, lacks rq 0x0105 0x0008)]

/-- Periods, dividers and latencies (R22, R122, R133, R137, R142, R225, R253, R279,
R294, R296). -/
def checkTiming (rq : Request) (i : Fin 64) (b : Binding) (m : AxisMode) (s : State) : Option Deny :=
  let loops := slotLoops b m s
  let groups := slotGroups b
  let inLimits := if b.location = 1 then decide (5000 ≤ m.period) && decide (m.period ≤ 1048575)
    else decide (15625 ≤ m.period) && decide (m.period ≤ 500000000) && 1000000000 % (2 * m.period) == 0
  let ssiSlow := match b.portA with
    | some p => m.feedback == 4 && decide (2 * m.period < ssiTime (s.ports.port[Fin.ofNat 32 p]).cfg.ssi)
    | none => false
  let divBad := fun (k : Fin 3) (d : Nat) => if loops.contains k then decide (d < 1 ∨ 16 < d) else d != 0
  let lBad := fun (k : Fin 3) (l : Nat) => if loops.contains k then l % 8 != 0 else l != 0
  let slow := groups.any fun g =>
    (groupLegs g).any (fun n => decide (m.period < 4 * (s.bta.leg[n].dtR + s.bta.leg[n].dtF))) ||
    (s.bta.grp[g].sync && 1000000000 % (2 * m.period) != 0) ||
    (s.bta.grp[g].smp != 0xFFFFFFFF && decide (m.period ≤ s.bta.grp[g].smp)) || decide (m.period ≤ s.bta.grp[g].phase)
  let shared := (otherSlots i s).any fun j =>
    match s.axis[j].mode with
    | some o => o.period != m.period && (slotGroups s.axis[j].bind).any (groups.contains ·)
    | none => false
  let sameGroup := fun (j : Fin 64) => s.axis[j].bind.location == 2 &&
    s.bricks.brick[Fin.ofNat 64 s.axis[j].bind.brick].group == s.bricks.brick[Fin.ofNat 64 b.brick].group
  let outer : Nat := if m.depth = 3 then 2 else if m.depth = 2 then 1 else 0
  let planShort := m.source == 0 && match s.plan.ax[i].cfg with
    | some c => decide (m.period * loopDiv m (Fin.ofNat 3 outer) * c.divider < 31250)
    | none => false
  let frames := b.location == 2 && (otherSlots i s).any fun j =>
    match s.axis[j].mode with
    | some o => sameGroup j && (o.period != m.period || o.lCur != m.lCur)
    | none => false
  firstDeny
    [(!inLimits || ssiSlow, lacks rq 0x0106 0x000D),
     (divBad 1 m.velDiv || divBad 2 m.posDiv || lBad 0 m.lCur || lBad 1 m.lVel || lBad 2 m.lPos || planShort,
      badValue rq 0x0106),
     (b.location == 1 && slow, badValue rq 0x0106),
     (shared || frames, conflictAt rq 0x0106)]

/-- All of them in order, without the admission proof. -/
def checkMode (rq : Request) (i : Fin 64) (b : Binding) (m : AxisMode) (s : State) : Option Deny :=
  [checkDrive rq b m s, checkFeedback rq b m s, checkDepth rq b m s, checkSource rq i b m s, checkStandstill rq b m s,
   checkReaction rq b m s, checkTiming rq i b m s].findSome? id

/-- Modes of the ports a slot names follow its feedback (R250). -/
def setSlotPorts (i : Fin 64) (s : State) : State :=
  let b := s.axis[i].bind
  match s.axis[i].mode with
  | none => s
  | some m =>
    let first := match m.feedback with
      | 1 => some 1 | 2 => some 4 | 3 => some 1 | 4 => some 5 | 5 => some 6 | _ => none
    let s1 := match b.portA, first with
      | some p, some k => setPortMode (Fin.ofNat 32 p) k s
      | _, _ => s
    match b.portB with
    | some p => if m.feedback = 3 then setPortMode (Fin.ofNat 32 p) 4 s1 else s1
    | none => s1

/-- Put a binding and mode in force: groups, ports (R122, R250, R252). -/
def installSlot (i : Fin 64) (old : List (Fin 32)) (s : State) : State :=
  let b := s.axis[i].bind
  let groups := slotGroups b
  let s1 := (old ++ groups).eraseDups.foldl (fun s g => refreshOccupancy g s) s
  let s2 := match s.axis[i].mode with
    | some m =>
      let phase := match groups with
        | g :: _ => s1.bta.grp[g].phase
        | [] => 0
      groups.foldl (fun s g => occupyGroup g m.period phase s) s1
    | none => s1
  setSlotPorts i s2

/-! Enabling (R134, R140, R306). -/

/-- Enabling begins: zero vector sealed, overrides released at the next boundary, the brick channel enabled; the power state is
evaluated again (R33). -/
def enableBegin (i : Fin 64) (force : Bool) (s : State) : State :=
  let s1 := onAx i (fun a => { a with
    st := .enabling, forceAlign := force, zeroVector := false, aligning := false, brickEnabled := false, enableCycles := 0,
    reaction := none, cause := 0, standstill := false, targetReached := false, legsOff := false, legsShort := false,
    reengage := false, nextSource := none }) s
  let s2 := sealZeroVector i s1
  let s3 := (slotGroups s.axis[i].bind).foldl (fun s g => releaseGroup g s) s2
  reselect (onChannel i (fun c => { c with enable := true, short := false, repeated := false }) s3)

/-- Must the slot be aligned (R134 step 2)? -/
def needsAlign (a : Axis) : Bool :=
  match a.mode with
  | some m => m.drive == 0 && m.feedback == 1 && (a.offset.isNone || a.forceAlign)
  | none => false

/-- The legs of an enabling slot carry the zero vector: alignment starts when it is needed (R134 steps 1, 2). -/
def zeroVectorSet (i : Fin 64) (s : State) : State :=
  let a := s.axis[i]
  if a.st = .enabling ∧ !a.zeroVector ∧ (slotGroups a.bind).all (fun g => s.bta.grp[g].override == 0) then
    onAx i (fun a => { a with zeroVector := true, aligning := needsAlign a, alignMoved := false, alignSince := s.now,
                              alignStart := measuredPos i s }) s
  else s

/-- Clear a loop's states: integrators and cascades start from zero (R134 step 4). -/
def LoopSt.cleared (l : LoopSt) : LoopSt :=
  { l with stA := List.replicate 8 {}, stB := List.replicate 8 {}, started := false, released := [], ready := none,
           computing := none, computingLate := false, sat := false, clamped := false }

/-- Does a stepper's angle come from its commanded microstep (R129, R281)? -/
def stepAngle (i : Fin 64) (s : State) : Bool := driveOf i s == 2 && (!sensored s.axis[i] || depthOf i s < 2)

/-- The position set-point a slot starts from: the actual position (R132, R134); the microstep position where that commands a stepper's
angle, and at its re-engagement the set-point it had or was realigned to (R286, R287). -/
def startPos (i : Fin 64) (s : State) : Int :=
  if !stepAngle i s then measuredPos i s
  else if s.axis[i].st = .enabling then s.stepper.slot[i].m * 65536 else s.axis[i].posSp

/-- The loops of a slot start from the actual state (R132, R134 step 4, R213). -/
def loopsStart (i : Fin 64) (s : State) : State :=
  let p := startPos i s
  let s1 := s.onLoop fun e => { e with slot := upd e.slot i fun x =>
    { x with lp := updAll x.lp fun _ y => y.cleared, samples := if s.axis[i].st = .enabling then 0 else x.samples, feSeen := 0, ainSum := 0, ainN := 0, ainHold := false,
             pulseLast := none, frameStart := s.now, frameRem := 0, obsServed := false, obsStart := false, heldQ := none } }
  let s2 := onAx i (fun a => { a with
    posSp := p, velSp := 0, curSp := 0, velFf := 0, accFf := 0, curFf := 0, cycVel := none, posAct := measuredPos i s, spChange := s.now,
    waitSp := if a.st = .enabling then none else a.waitSp }) s1
  let s3 := onStep i (fun y => { y with spPrev := p, mRem := 0 }) s2
  onPax i (fun y => { y with pos := p, vel := 0, acc := 0, segs := [], tau := 0, activity := if y.next.isSome then y.activity else 0 }) s3

/-! Re-engagement of a stepper (R281, R286 to R288, 12). -/

/-- Ticks spent with legs off in the present power-down. -/
def Stepper.offTotal (y : Stepper) (now : Nat) : Nat :=
  y.offTime + (match y.offSince with
    | some t => now - t
    | none => 0)

/-- Has the measured position moved by more than half a full step since the power-down began (Table 12.2)? -/
def stepperMoved (i : Fin 64) (s : State) : Bool :=
  sensored s.axis[i] &&
  decide (s.loop.slot[i].elecCounts < 8 * ((measuredPos i s - s.stepper.slot[i].downPos).natAbs : Int))

/-- Has the time with legs off exceeded FREEWHEEL_LIMIT on a slot without sensor feedback (Table 12.2)? -/
def stepperSpent (i : Fin 64) (s : State) : Bool :=
  let y := s.stepper.slot[i]
  !sensored s.axis[i] && decide (500000 * y.freewheelLimit < y.offTotal s.now)

/-- Is the microstep position lost (Table 12.2)? A condition that held once has cleared HOLD_VALID. -/
def stepperLost (i : Fin 64) (s : State) : Bool :=
  let y := s.stepper.slot[i]
  !y.holdMemory || !y.holdValid || stepperMoved i s || stepperSpent i s

/-- The signed distance to the nearest full step (R287). -/
def Stepper.delta (y : Stepper) : Int :=
  let phi := (y.m - y.mOff) % 1024
  256 * halfEven phi 256 - phi

/-- A lost position is realigned to the nearest full step (R287). -/
def realign (i : Fin 64) (s : State) : State :=
  let d := s.stepper.slot[i].delta
  let s1 := onStep i (fun y => { y with
    m := y.m + d, spPrev := y.spPrev + 65536 * d, fLost := true, realignFwd := bumpFwd y.realignFwd d, realignRev := bumpRev y.realignRev d }) s
  let s2 := onAx i (fun a => { a with microstepLost := true, posSp := s1.stepper.slot[i].m * 65536 }) s1
  event 0x0601 i.val (beI 2 d) s2

/-- The decision of R286 at re-engagement, and the wake ramp of R288; operation begins quiet, or strong where only that
is selected (R283). -/
def stepperDecide (i : Fin 64) (s : State) : State :=
  if driveOf i s ≠ 2 then s
  else
    let s1 := if stepAngle i s && s.stepper.slot[i].downSince.isSome && stepperLost i s then realign i s else s
    onStep i (fun y => { y with
      downSince := none, offSince := none, offTime := 0, holdValid := true, phase := 5, phaseStart := s.now, changeDue := false,
      strong := y.opMode == 1 || decide (1 ≤ depthOf i s), mPrev := y.m }) s1

/-- Re-engagement after standstill policy 1 or 2, or a stepper's freewheel or short, at the release of the override
(R132, R286). -/
def slotReengage (i : Fin 64) (s : State) : State :=
  if s.axis[i].reengage then
    loopsStart i (stepperDecide i (onAx i (fun a => { a with reengage := false, legsOff := false, legsShort := false, standstill := false }) s))
  else s

/-- What the release of every override of a slot lets happen: its zero vector is in force, or it re-engages. -/
def overrideReleased (i : Fin 64) (s : State) : State :=
  if (slotGroups s.axis[i].bind).all (fun g => s.bta.grp[g].override == 0) then slotReengage i (zeroVectorSet i s) else s

/-- Hall + quadrature: the commutation offset comes from the Hall sector at enable, until a Hall edge refines it (Table 6.5). -/
def hallOffset (i : Fin 64) (s : State) : State :=
  let a := s.axis[i]
  match a.mode, a.bind.portB with
  | some m, some p =>
    if m.feedback = 3 ∧ m.drive ≤ 1 ∧ a.offset.isNone then
      let d := halfEven (hallAngle (Fin.ofNat 32 p) s * s.loop.slot[i].elecCounts) 4294967296
      let s1 := s.onLoop fun e => { e with slot := upd e.slot i fun x => { x with hallRefined := false } }
      onAx i (fun a => { a with offset := some (measuredPos i s - d) }) s1
    else s
  | _, _ => s

/-- The command position a slave follows does not move where enabling takes the set-point from the actual position (R174). -/
def cmdRestart (i : Fin 64) (s : State) : State :=
  onAx i (fun a => { a with cmdJump := a.cmdJump + (a.posSp - a.cmdPos), cmdPos := a.posSp }) s

/-- The last enabling step completes (Table 6.10, R140). -/
def slotEnabled (i : Fin 64) (s : State) : State :=
  let s0 := stepperDecide i (hallOffset i (onAx i (fun a => { a with forceAlign := false }) s))
  let s1 := onAx i (fun a => { a with st := .enabled }) (cmdRestart i (loopsStart i s0))
  let s2 := onPax i (fun y => { y with activity := 0, next := none, phase := 0 }) s1
  finish (fun e => axisCommand i 0x0102 e) .done [] s2

/-! Disabling and causes (R141). -/

/-- A slot becomes Disabled: legs off, brick channel off, planner and loops stopped; the power state is evaluated again (R33). -/
def slotDisabled (i : Fin 64) (s : State) : State :=
  let c := s.axis[i].cause
  let s1 := onAx i (fun a => { a with
    st := .disabled, cause := 0, reaction := none, slowSince := none, standstill := false, targetReached := false,
    microstepLost := false, legsOff := true, legsShort := false, reengage := false, aligning := false, stopShort := false,
    feWarning := false, saturated := false, nextSource := none, waitSp := none }) s
  let s2 := outputFor i 0 s1
  let s3 := planEnd i (loopsStop i s2)
  let s4 := if c = 0 then s3 else setCause (0x0100 + c) i.val false s3
  reselect (finish (fun e => axisCommand i 0x0103 e) .done [] s4)

/-- Cyclic quantity of a depth's set-point (Table 6.7). -/
def depthQuantity (depth : Nat) : Nat := if depth = 1 then 0x03 else if depth = 2 then 0x02 else 0x01

/-- Enabled inbound maps with an entry for a slot. -/
def feedingMaps (i : Fin 64) (qty : Nat → Bool) (s : State) : List (Fin 32) :=
  (List.finRange 32).filter fun (k : Fin 32) => decide (k.val < 16) && s.net.map[k].enabled &&
    s.net.map[k].entries.any fun e => e.tgt == i.val && qty e.qty

/-- Is the cause of a slot's fault still present (R141)? -/
def causePresent (i : Fin 64) (s : State) : Bool :=
  let a := s.axis[i]
  match a.cause with
  | 2 => (List.finRange 3).any fun (k : Fin 3) => (s.loop.slot[i].lp[k]).slackFault
  | 3 => s.power.overtemp
  | 4 => !s.boot.gardenerRuns
  | 5 => (feedingMaps i (fun q => decide (q < 6)) s).any fun k => decide (0 < s.net.map[k].missLimit) && decide (s.net.map[k].missLimit ≤ s.net.map[k].missRun)
  | 6 => (slotPorts a).any fun p => portLost (some p) s
  | 7 => stoInForce s
  | 10 =>
    let b := s.bricks.brick[Fin.ofNat 64 a.bind.brick]
    decide (4 ≤ b.missRun) || decide (4 ≤ b.unsyncRun) || decide (4 ≤ (b.header.getD 5 0).toNat) || hasBit (b.header.getD 2 0).toNat 0 ||
      hasBit (b.header.getD 2 0).toNat 1
  | _ => false

/-- Sources that keep a group of the slot latched (R271). -/
def groupsHeld (i : Fin 64) (s : State) : Bool :=
  (slotGroups s.axis[i].bind).any fun g => s.bta.grp[g].held && stillActive g s != 0

/-- The source of a slot is ready (R140 check 5). -/
def sourceReady (i : Fin 64) (m : AxisMode) (s : State) : Bool :=
  match m.source with
  | 1 => s.gear.link[i].mode == 1
  | 2 => s.gear.link[i].mode == 2
  | 5 => !(feedingMaps i (· == depthQuantity m.depth) s).isEmpty
  | 6 => (List.finRange 8).any fun (l : Fin 8) => s.lanes.lane[l].entry.isSome && s.lanes.lane[l].grantS.getLsbD i.val &&
      (List.finRange 512).any fun (t : Fin 512) => s.lanes.thr[t].defined && s.lanes.thr[t].enabled && s.lanes.thr[t].lane == l.val
  | _ => true

/-- Loops and motor data are loaded as Enabling needs them (R217, R292). -/
def loopsLoaded (i : Fin 64) (m : AxisMode) (s : State) : Bool :=
  let x := s.loop.slot[i]
  let st := s.stepper.slot[i]
  let loops := slotLoops s.axis[i].bind m s
  loops.all (fun k => (List.range x.lp[k].nRegions).all fun r => (x.lp[k].region[Fin.ofNat 8 r]).loaded) &&
  (!(observerAngle s.axis[i] || m.reaction == 2) || x.motorSet) &&
  (!(m.drive == 2 && m.depth == 0 && st.opMode != 1) || x.motorSet) &&
  (!(m.drive == 2 && m.depth == 0 && st.opMode != 0) || (x.lp[(0 : Fin 3)]).integ)

/-- Unacknowledged axis entries of a slot in the fault record. -/
def slotUnacked (i : Fin 64) (s : State) : Option Nat :=
  ((unacked s).find? fun e => e.cls == 2 && e.index == i.val).map (·.code)

end Sys2Proof.Machine
end

