-- ==== Sys2Proof/Machine/Flags.lean ====
section
/-! DEFINITION.
Status words: what each status register and STATUS result reads, from the fields of the state
(Tables 6.13, 7.6, 8.6, 9.9, 10.9, 11.6, 12.5). -/

namespace Sys2Proof.Machine

/-- Code of an axis state (Table 6.9). -/
def AxisState.code : AxisState → Nat
  | .unbound => 0
  | .disabled => 1
  | .enabling => 2
  | .enabled => 3
  | .reacting => 4
  | .faulted => 5

/-- Does the feedback bound to a slot report loss (Table 6.13 bit 17)? -/
def feedbackLost (i : Fin 64) (s : State) : Bool :=
  let a := s.axis[i]
  portLost a.bind.portA s || portLost a.bind.portB s ||
  (a.bind.location == 2 && sensored a && a.bind.portA.isNone && !(brickChannel a.bind s).inPosOk)

/-- The axis status word (Table 6.13). -/
def axisStatus (i : Fin 64) (s : State) : Word :=
  let a := s.axis[i]
  let m := a.mode.getD {}
  let on := a.st == .enabled || a.st == .reacting
  pack [(0, 3, a.st.code), (3, 1, bit (a.bind.location == 2)), (4, 3, m.drive), (7, 2, m.depth), (9, 3, m.source),
    (12, 1, bit a.standstill), (13, 1, bit (on && decide (s.now ≤ a.spChange + outerTicks a))), (14, 1, bit a.targetReached),
    (15, 1, bit (a.bind.location != 0 && stoInForce s)), (16, 1, bit a.feWarning), (17, 1, bit (feedbackLost i s)),
    (18, 1, bit (on && usesObserver a)), (19, 1, bit a.saturated), (20, 1, bit a.microstepLost),
    (21, 1, bit a.cyclicMiss), (22, 1, bit a.brickMiss), (23, 1, bit a.offset.isSome), (24, 8, a.cause)]

/-- PLAN_AX_STATUS. -/
def planAxStatus (i : Fin 64) (s : State) : Word :=
  let x := s.plan.ax[i]
  let g := memberOf i s
  let running := match g with
    | some h => s.plan.grp[h].running
    | none => false
  pack [(0, 3, if running then 5 else x.activity), (3, 2, x.profile), (5, 1, bit x.entry), (6, 4, x.segment),
    (10, 1, bit x.softLimit), (11, 1, bit x.reversal), (12, 4, (g.map (·.val)).getD 0), (16, 1, bit g.isSome), (17, 1, bit x.done)]

/-- PLAN_GRP_STATUS. -/
def planGrpStatus (g : Fin 16) (s : State) : Word :=
  let x := s.plan.grp[g]
  let kind := if x.running then (x.queue.head?.map (·.kind)).getD 0 else 0
  pack [(0, 3, if x.defined then x.activity else 0), (3, 1, bit x.defined), (4, 3, kind), (7, 1, bit x.blending),
    (8, 1, bit x.starved), (9, 1, bit x.faultStop)]

/-- Entries a group's queue uses (R163, R164). -/
def queueUsed (x : PlanGroup) : Nat := (x.queue.map (·.used)).sum

/-- PLAN_GRP_QUEUE. -/
def planGrpQueue (g : Fin 16) (s : State) : Word :=
  let x := s.plan.grp[g]
  pack [(0, 13, queueUsed x), (16, 13, x.capacity)]

/-- GEAR_STATUS. -/
def gearStatus (i : Fin 64) (s : State) : Word :=
  let x := s.gear.link[i]
  pack [(0, 2, x.mode), (2, 2, x.engage), (4, 1, bit x.ramp.isSome), (5, 7, x.changes.length), (12, 3, x.mKind), (15, 6, x.mIndex),
    (21, 5, x.table), (26, 1, bit x.fEnd), (27, 1, bit x.fLost), (28, 1, bit x.fResidue), (29, 1, bit x.fLimit)]

/-- LOOP_STATUS. -/
def loopStatus (i : Fin 64) (s : State) : Word :=
  let x := s.loop.slot[i]
  let c := x.lp[(0 : Fin 3)]
  let v := x.lp[(1 : Fin 3)]
  let p := x.lp[(2 : Fin 3)]
  pack [(0, 3, c.inForce), (3, 3, v.inForce), (6, 3, p.inForce), (9, 1, bit c.sat), (10, 1, bit v.sat), (11, 1, bit p.sat),
    (12, 1, bit (c.clamped || v.clamped || p.clamped)), (13, 1, bit x.fSwap), (14, 1, bit x.fSwapClamped), (15, 1, bit x.obsValid),
    (16, 1, bit x.obsStart), (17, 1, bit x.fNumeric), (18, 1, bit x.fAinRange),
    (19, 1, bit (x.locked.getLsbD 0 || x.locked.getLsbD 4 || x.locked.getLsbD 8))]

/-- LOOP_SLACK of a loop: predicted and observed margin; 0 predicted while the loop does not exist (R27). -/
def loopSlack (i : Fin 64) (k : Fin 3) (s : State) : Word :=
  let x := s.loop.slot[i].lp[k]
  let predicted : Nat :=
    match s.axis[i].mode with
    | some m => if k ∈ slotLoops s.axis[i].bind m s then x.slack.toNat else 0
    | none => 0
  pack [(0, 16, predicted), (16, 16, x.margin.toNat)]

/-- PP_STATUS. -/
def ppStatus (p : Fin 32) (s : State) : Word :=
  let x := s.ports.port[p]
  pack [(0, 3, x.mode), (3, 1, bit x.referenced), (4, 1, bit x.lossActive), (5, 4, x.cause), (9, 1, bit x.fLoss),
    (10, 1, bit (x.overrun != 0)), (11, 1, bit x.fSat), (12, 1, bit x.fIndex), (13, 1, bit (x.held != 0)), (14, 1, bit x.standstill),
    (15, 1, bit x.reversal), (16, 1, bit x.dirRev), (17, 1, bit x.fHallSkip)]

/-- PCU_STATUS. -/
def pcuStatus (u : Fin 16) (s : State) : Word :=
  let x := s.ports.cmp[u]
  pack [(0, 11, x.head), (11, 1, bit x.done), (12, 1, bit x.fHit), (13, 1, bit x.fSkipped), (14, 1, bit x.fMerged),
    (15, 1, bit x.level), (16, 5, x.port), (21, 1, bit x.modulo), (22, 1, bit x.cyclic)]

/-- LU_STATUS. -/
def luStatus (l : Fin 16) (s : State) : Word :=
  let x := s.ports.latch[l]
  pack [(0, 5, x.caps.length), (5, 1, bit x.enabled), (6, 1, bit x.fLost), (7, 3, x.src.code), (10, 5, x.port)]

/-- SNAP_STATUS. -/
def snapStatus (s : State) : Word :=
  let x := s.ports.snap
  pack [(0, 3, x.held.length), (3, 1, bit x.enabled), (4, 1, bit x.fLost), (5, 3, x.src.code)]

/-- GRP_CTRL. -/
def grpCtrl (g : Fin 32) (s : State) : Word :=
  let x := s.bta.grp[g]
  pack [(0, 1, bit x.run), (1, 1, bit x.gang), (2, 3, x.strobe), (5, 1, bit x.sync), (6, 1, bit x.occupied), (7, 8, x.unsealLimit),
    (15, 3, x.blk.getD 0), (18, 1, bit x.blk.isSome)]

/-- GRP_STATUS. -/
def grpStatus (g : Fin 32) (s : State) : Word :=
  let x := s.bta.grp[g]
  pack [(0, 1, bit x.dirty), (1, 1, bit x.sealed), (2, 1, bit x.fSuper), (3, 1, bit x.fOverdue), (4, 1, bit x.fClamped),
    (5, 1, bit x.fOwned), (6, 1, bit (x.sync && !s.tb0Sync)), (7, 2, x.override), (9, 4, x.ditherK.toNat)]

/-- GRP_TRIP. -/
def grpTrip (g : Fin 32) (s : State) : Word :=
  let x := s.bta.grp[g]
  pack [(0, 1, bit (x.held || x.bySto)), (1, 1, bit x.bySto), (2, 1, bit x.byPin), (3, 1, bit x.byOc), (4, 1, bit x.cycle),
    (5, 4, x.pin), (9, 2, x.ocIn), (11, 1, bit (stillActive g s != 0)), (13, 1, bit x.fRefused)]

/-- LEG_STATUS. -/
def legStatus (n : Fin 96) (s : State) : Word :=
  let x := s.bta.leg[n]
  pack [(0, 1, bit x.h), (1, 1, bit x.l), (2, 1, bit x.compat), (3, 2, x.tripState), (5, 10, x.dtR), (15, 10, x.dtF)]

/-- Phase index of a stepper (R280). -/
def stepPhase (x : Stepper) : Int := (x.m - x.mOff) % 1024

/-- STEP_STATUS: HOLD_VALID falls as soon as a condition of Table 12.2 holds (R286). -/
def stepStatus (i : Fin 64) (s : State) : Word :=
  let x := s.stepper.slot[i]
  let spent := x.downSince.isSome && stepAngle i s && stepperLost i s
  pack [(0, 1, bit x.strong), (1, 1, bit x.changeDue), (2, 3, x.phase), (5, 1, bit (x.holdValid && !spent)), (6, 1, bit x.fLost),
    (7, 1, bit x.fSwitched), (8, 10, (stepPhase x).toNat), (18, 2, x.opMode)]

end Sys2Proof.Machine
end

