-- ==== Sys2Proof/Machine/Trig.lean ====
section
/-! DEFINITION.
Sines, cosines and angles in fixed point, with 96 fractional bits: what the Loop Engine's transforms (R198, 09), the sin/cos
ports (R227, 10) and circular paths (R158, R162, 07) are computed from. An angle is a fraction of a revolution in 2^-96. -/

namespace Sys2Proof.Machine

/-- One, in the fixed point of this file. -/
def fixOne : Int := 2 ^ 96

/-- One revolution. -/
def fixTurn : Int := 2 ^ 96

/-- π, rounded down to 2^-96. -/
def fixPi : Int := 248902613312231085230521944622

/-- π as a rational (log entry 11). -/
def ratPi : Rat := (fixPi : Rat) / (fixOne : Rat)

/-- Sine series, innermost factor first: 1 - y/(2k(2k+1)) (1 - …). -/
def sineSeries (y : Int) : Nat → Int → Int
  | 0, acc => acc
  | k + 1, acc => sineSeries y k (fixOne - y * acc / (fixOne * (2 * (k + 1) * (2 * (k + 1) + 1) : Nat)))

/-- Sine of an angle in the first quadrant. -/
def sineQuarter (r : Int) : Int :=
  let x := 2 * fixPi * r / fixTurn
  x * sineSeries (x * x / fixOne) 18 fixOne / fixOne

/-- Sine of an angle. -/
def fixSine (t : Int) : Int :=
  let quarter := fixTurn / 4
  let r := t % quarter
  match (t / quarter % 4).toNat with
  | 0 => sineQuarter r
  | 1 => sineQuarter (quarter - r)
  | 2 => -sineQuarter r
  | _ => -sineQuarter (quarter - r)

/-- Cosine of an angle. -/
def fixCosine (t : Int) : Int := fixSine (t + fixTurn / 4)

/-- The largest angle of at most an eighth of a revolution whose tangent does not exceed s / c, built bit by bit. -/
def octantAngle (s c : Int) : Nat → Int → Int
  | 0, r => r
  | k + 1, r =>
    let x := r + 2 ^ k
    octantAngle s c k (if x ≤ fixTurn / 8 ∧ fixSine x * c ≤ fixCosine x * s then x else r)

/-- The angle of a point with sine part s and cosine part c, at least 0 and below a revolution; 0 at the origin. -/
def angleOf (s c : Int) : Int :=
  let a : Int := s.natAbs
  let b : Int := c.natAbs
  let q := if a ≤ b then octantAngle a b 94 0 else fixTurn / 4 - octantAngle b a 94 0
  if s = 0 ∧ c = 0 then 0
  else if 0 ≤ s then (if 0 ≤ c then q else fixTurn / 2 - q)
  else if c ≤ 0 then fixTurn / 2 + q else (fixTurn - q) % fixTurn

/-- The sine of `n` / 2^32 revolutions in 2^-31, as the engine evaluates it: off by at most 2^-30 (R198), by how much is a
free value (log entry 11). -/
def sine (n : Nat) : Int :=
  clampInt (-2147483648) 2147483647
    (halfEven (fixSine ((n : Int) * 2 ^ 64)) (2 ^ 65) + clampInt (-2) 2 (Config.sineError n))

/-- The cosine. -/
def cosine (n : Nat) : Int := sine ((n + 2 ^ 30) % 2 ^ 32)

end Sys2Proof.Machine
end

