-- ==== Sys2Proof/Machine/PathGeom.lean ====
section
/-! DEFINITION.
The geometry of group paths: lengths, places, derivatives and tangents of lines, arcs, splines and PVT curves, corner blends
(R157 to R160, R162, 07). Rational numbers; sines and cosines come from Trig, roots from `sqrtR` (log entry 10). -/

namespace Sys2Proof.Machine

/-- A member slot by its number. -/
def memberSlot (n : Nat) : Fin 64 := Fin.ofNat 64 n

/-- Weight of a member. -/
def weightOf (x : PlanGroup) (m : Nat) : Rat := ofQ16 ((x.weights.getD m 0 : Nat) : Int)

/-- Numbers of the path members and of all members. -/
def pathMembers (x : PlanGroup) : List Nat := List.range (min x.pathCount x.members.length)

/-- A member's place on a path: position in counts, and its first and second derivatives by path distance. -/
structure Place where
  /-- Position. -/
  p : Rat := 0
  /-- First derivative. -/
  d : Rat := 0
  /-- Second derivative. -/
  dd : Rat := 0
deriving DecidableEq, Repr

/-- Euclidean length in path space of a difference of the members' positions (R157). -/
def pathNorm (x : PlanGroup) (delta : Nat → Rat) : Rat :=
  gridR (sqrtR ((pathMembers x).foldl (fun t m => t + weightOf x m * delta m * (weightOf x m * delta m)) 0))

/-- Distance of two points in path space. -/
def chordLength (x : PlanGroup) (a b : List Int) : Rat := pathNorm x fun m => ofQ16 (b.getD m 0 - a.getD m 0)

/-- A member's way in proportion to the path distance d of len (R155, R157). -/
def straight (a b : Int) (d len : Rat) : Place :=
  if len ≤ 0 then { p := ofQ16 b }
  else { p := if len ≤ d then ofQ16 b else ofQ16 a + ofQ16 (b - a) * (d / len), d := ofQ16 (b - a) / len }

/-! Arcs (R158). -/

/-- An arc: radii at its ends in counts, the angle at its start, and the angle swept, anticlockwise positive, in 2^-96 of a turn. -/
structure ArcShape where
  /-- Start radius. -/
  r0 : Rat
  /-- End radius. -/
  r1 : Rat
  /-- Start angle. -/
  start : Int
  /-- Sweep. -/
  sweep : Int
deriving DecidableEq, Repr

/-- Distance of a point from an arc's centre, in counts. -/
def arcRadius (c p : List Int) : Rat :=
  let dx := ofQ16 (p.getD 0 0 - c.getD 0 0)
  let dy := ofQ16 (p.getD 1 0 - c.getD 1 0)
  sqrtR (dx * dx + dy * dy)

/-- The arc of an entry: direction by flag bit 2, whole turns added, a full circle where the end is the start with 0 turns. -/
def arcShape (e : SegEntry) : ArcShape :=
  let off := fun (p : List Int) (k : Nat) => p.getD k 0 - e.centre.getD k 0
  let t0 := angleOf (off e.start 1) (off e.start 0)
  let t1 := angleOf (off e.ends 1) (off e.ends 0)
  let anti := e.flags.getLsbD 2
  let same := e.start.take 2 == e.ends.take 2
  let part := if same then 0 else if anti then (t1 - t0) % fixTurn else (t0 - t1) % fixTurn
  let whole : Int := if same ∧ e.turns = 0 then 1 else e.turns
  let mag := part + whole * fixTurn
  { r0 := arcRadius e.centre e.start, r1 := arcRadius e.centre e.ends, start := t0, sweep := if anti then mag else -mag }

/-- An angle of 2^-96 turns in radians. -/
def radians (t : Int) : Rat := (t : Rat) / (fixTurn : Rat) * (2 * ratPi)

/-- Path length of an arc: the mean radius over the angle swept, and the way of a third path member along it (R158; log entry 10). -/
def arcLength (x : PlanGroup) (e : SegEntry) : Rat :=
  let c := arcShape e
  let plane := weightOf x 0 * ((c.r0 + c.r1) / 2) * absR (radians c.sweep)
  let rise := ((pathMembers x).drop 2).foldl (fun t m =>
    let z := weightOf x m * ofQ16 (e.ends.getD m 0 - e.start.getD m 0)
    t + z * z) 0
  gridR (sqrtR (plane * plane + rise))

/-- Cosine and sine of an angle. -/
def cosSin (t : Int) : Rat × Rat := ((fixCosine t : Rat) / (fixOne : Rat), (fixSine t : Rat) / (fixOne : Rat))

/-- A member's place on an arc: the radius changes linearly with the angle, and the angle with the path distance. -/
def arcPlace (e : SegEntry) (len d : Rat) (m : Nat) : Place :=
  if len ≤ 0 ∨ 2 ≤ m then straight (e.start.getD m 0) (e.ends.getD m 0) d len
  else
    let c := arcShape e
    let f := minR 1 (d / len)
    let r := c.r0 + (c.r1 - c.r0) * f
    let u := cosSin (c.start + ((c.sweep : Rat) * f).floor)
    let k := radians c.sweep / len
    let q := (c.r1 - c.r0) / len
    let ctr := ofQ16 (e.centre.getD m 0)
    let exact := fun (p : Rat) => if len ≤ d then ofQ16 (e.ends.getD m 0) else p
    if m = 0 then { p := exact (ctr + r * u.1), d := q * u.1 - r * k * u.2, dd := -(2 * q * k * u.2) - r * k * k * u.1 }
    else { p := exact (ctr + r * u.2), d := q * u.2 + r * k * u.1, dd := 2 * q * k * u.1 - r * k * k * u.2 }

/-! Curves by parameter: splines (R159) and PVT intervals (R160). -/

/-- The spans of a spline entry, four control points each: one, or three where the entry ends its spline and is taken three times. -/
def splineSpans (e : SegEntry) : List (List (List Int)) :=
  let c := e.ctrl ++ [e.ends]
  if e.flags.getLsbD 3 then [c, (c ++ [e.ends]).drop 1, (c ++ [e.ends, e.ends]).drop 2] else [c]

/-- A span of the uniform cubic B-spline at parameter u: value and its two derivatives by u. -/
def splineAt (c : List (List Int)) (u : Rat) (m : Nat) : Place :=
  let g := fun (j : Nat) => ofQ16 ((c.getD j []).getD m 0)
  let v := 1 - u
  { p := (v * v * v * g 0 + (3 * u * u * u - 6 * u * u + 4) * g 1 + (3 * v * v * v - 6 * v * v + 4) * g 2 + u * u * u * g 3) / 6
    d := (-(3 * v * v) * g 0 + (9 * u * u - 12 * u) * g 1 + (-(9 * u * u) + 6 * u + 3) * g 2 + 3 * u * u * g 3) / 6
    dd := v * g 0 + (3 * u - 2) * g 1 + (1 - 3 * u) * g 2 + u * g 3 }

/-- Position, velocity and acceleration of the cubic Hermite curve at u of its interval of h seconds (R160). -/
def hermite (p0 p1 v0 v1 h u : Rat) : Rat × Rat × Rat :=
  let d := p1 - p0
  (p0 + (3 * u * u - 2 * u * u * u) * d + (u * u * u - 2 * u * u + u) * h * v0 + (u * u * u - u * u) * h * v1,
   (6 * u - 6 * u * u) * d / h + (3 * u * u - 4 * u + 1) * v0 + (3 * u * u - 2 * u) * v1,
   (6 - 12 * u) * d / (h * h) + ((6 * u - 4) * v0 + (6 * u - 2) * v1) / h)

/-- A member of a PVT interval of h seconds at u of it: position, velocity, acceleration. -/
def pvtAt (e : SegEntry) (h u : Rat) (m : Nat) : Rat × Rat × Rat :=
  hermite (ofQ16 (e.start.getD m 0)) (ofQ16 (e.ends.getD m 0)) (ofQ24 (e.vel0.getD m 0)) (ofQ24 (e.vels.getD m 0)) h u

/-- How many parameter units a curve has. -/
def curveSpans (e : SegEntry) : Nat := if e.kind = 3 ∧ e.flags.getLsbD 3 then 3 else 1

/-- A curve at parameter n + u: value and derivatives by the parameter. A PVT interval's parameter runs over its h seconds. -/
def curveAt (e : SegEntry) (h : Rat) (n : Nat) (u : Rat) (m : Nat) : Place :=
  if e.kind = 3 then splineAt ((splineSpans e).getD n []) u m
  else let r := pvtAt e h u m; { p := r.1, d := r.2.1 * h, dd := r.2.2 * h * h }

/-- The cumulative chord table of a curve, 32 chords a span, measured at append (R159). -/
def curveChords (x : PlanGroup) (e : SegEntry) (h : Rat) : List Rat :=
  let node := fun (k : Nat) (m : Nat) =>
    if k = 32 * curveSpans e then (curveAt e h (curveSpans e - 1) 1 m).p else (curveAt e h (k / 32) (((k % 32 : Nat) : Rat) / 32) m).p
  (List.range (32 * curveSpans e)).foldl (fun t k => t ++ [t.getLastD 0 + pathNorm x fun m => node (k + 1) m - node k m]) []

/-- The chord a path distance falls in: its number, the distance into it and its length (R159). -/
def chordOf (t : List Rat) (d : Rat) : Nat × Rat × Rat :=
  let k := ((List.range t.length).find? fun k => decide (d ≤ t.getD k 0)).getD (t.length - 1)
  let lo := if k = 0 then 0 else t.getD (k - 1) 0
  (k, minR (d - lo) (t.getD k 0 - lo), t.getD k 0 - lo)

/-- A member's place on a curve: the parameter by linear interpolation in the chord table (R159). -/
def curvePlace (e : SegEntry) (h d : Rat) (m : Nat) : Place :=
  let c := chordOf e.chords d
  let f := if c.2.2 = 0 then 1 else c.2.1 / c.2.2
  let q := curveAt e h (c.1 / 32) ((((c.1 % 32 : Nat) : Rat) + f) / 32) m
  let k := if c.2.2 = 0 then 0 else 1 / (32 * c.2.2)
  { p := q.p, d := q.d * k, dd := q.dd * k * k }

/-- Path distance of a parameter of a PVT curve, by the same table. -/
def curveDistance (e : SegEntry) (u : Rat) : Rat :=
  let k := (u * 32).floor.toNat
  let lo := if k = 0 then 0 else e.chords.getD (k - 1) 0
  if 32 ≤ k then e.chords.getLastD 0 else lo + (e.chords.getD k 0 - lo) * (u * 32 - (k : Rat))

/-! Segments. -/

/-- Path length of an entry: a line's chord, an arc, a curve's chords, nothing for a dwell (R157 to R159). -/
def segLength (x : PlanGroup) (e : SegEntry) : Rat :=
  match e.kind with
  | 1 => chordLength x e.start e.ends
  | 2 => arcLength x e
  | 3 => e.chords.getLastD 0
  | 4 => e.chords.getLastD 0
  | _ => 0

/-- An entry measured as it is appended: its chords and its length; h is the duration of a PVT interval. -/
def measured (x : PlanGroup) (h : Rat) (e : SegEntry) : SegEntry :=
  let e1 := { e with chords := if e.kind = 3 ∨ e.kind = 4 then curveChords x e h else [] }
  { e1 with len := segLength x e1 }

/-- A member's place at distance d of a segment: auxiliary members move in proportion to it, but on a PVT curve along their own
(R155, R157 to R160). -/
def segPlace (x : PlanGroup) (e : SegEntry) (h d : Rat) (m : Nat) : Place :=
  match e.kind with
  | 2 => arcPlace e e.len d m
  | 3 => if m < x.pathCount then curvePlace e h d m else straight (e.start.getD m 0) (e.ends.getD m 0) d e.len
  | 4 => curvePlace e h d m
  | _ => straight (e.start.getD m 0) (e.ends.getD m 0) d e.len

/-- Unit tangent in path space at distance d of a segment. -/
def tangent (x : PlanGroup) (e : SegEntry) (d : Rat) : List Rat :=
  let t := (pathMembers x).map fun m => weightOf x m * (segPlace x e 0 d m).d
  let n := sqrtR (t.foldl (fun a b => a + b * b) 0)
  if n = 0 then t else t.map fun a => a / n

/-! Corner blends (R162). -/

/-- A blend: tangent length, radius, turning angle, and the tangents it joins, in path space. -/
structure Blend where
  /-- Tangent length. -/
  l : Rat := 0
  /-- Radius. -/
  r : Rat := 0
  /-- Turning angle, 2^-96 of a turn. -/
  phi : Int := 0
  /-- Cosine of it. -/
  c : Rat := 0
  /-- End tangent of the first segment. -/
  t1 : List Rat := []
  /-- Start tangent of the second. -/
  t2 : List Rat := []
deriving DecidableEq, Repr

/-- How two segments join: an exact stop, smoothly, or by a blend. -/
inductive Join where
  /-- The path rests at the junction. -/
  | stop
  /-- No corner limit. -/
  | smooth
  /-- The corner is replaced by an arc. -/
  | blend (b : Blend)
deriving DecidableEq, Repr

/-- Length of the blend's arc. -/
def Blend.len (b : Blend) : Rat := b.r * radians b.phi

/-- A path kind: line or arc. -/
def SegEntry.plain (e : SegEntry) : Bool := e.kind == 1 || e.kind == 2

/-- cos 0.1° and cos 170°. -/
def cosTenth : Rat := (cosSin (fixTurn / 3600)).1
/-- cos 170°. -/
def cosSharp : Rat := (cosSin (fixTurn * 17 / 36)).1

/-- The junction of a segment and the next (R159, R162): a spline goes on into its next point; lines and arcs blend where the first asks for
it; everything else is an exact stop. -/
def joinOf (x : PlanGroup) (e f : SegEntry) : Join :=
  if e.kind = 3 then (if f.kind = 3 ∧ !e.flags.getLsbD 3 then .smooth else .stop)
  else if !(e.plain && f.plain && e.flags.getLsbD 1) || e.len ≤ 0 || f.len ≤ 0 then .stop
  else
    let t1 := tangent x e e.len
    let t2 := tangent x f 0
    let c := clampR (-1) 1 ((t1.zip t2).foldl (fun a p => a + p.1 * p.2) 0)
    if cosTenth ≤ c then .smooth
    else if c ≤ cosSharp then .stop
    else
      let half := sqrtR ((1 + c) / 2)
      let tn := sqrtR ((1 - c) / (1 + c))
      let r0 := ofQ16 e.blend * half / (1 - half)
      let most := minR e.len f.len / 2
      let r := if most < r0 * tn then most / tn else r0
      if r ≤ 0 then .stop
      else
        .blend { l := r * tn, r := r, c := c, t1 := t1, t2 := t2
                 phi := angleOf (sqrtR (1 - c * c) * (fixOne : Rat)).floor (c * (fixOne : Rat)).floor }

/-- A member's place d into a blend between e and f: path members on the arc, auxiliary members linear with path distance. Where one of
the two is an arc the rule's circle does not touch it exactly, and the positions are free values (log entry 10). -/
def blendPlace (x : PlanGroup) (e f : SegEntry) (b : Blend) (d : Rat) (m : Nat) : Place :=
  let p0 := (segPlace x e 0 (e.len - b.l) m).p
  if x.pathCount ≤ m then
    let p1 := (segPlace x f 0 b.l m).p
    { p := p0 + (p1 - p0) * (d / b.len), d := (p1 - p0) / b.len }
  else
    let u := cosSin ((d / b.r / (2 * ratPi)) * (fixTurn : Rat)).floor
    let sp := sqrtR (1 - b.c * b.c)
    let t := b.t1.getD m 0
    let n := (b.t2.getD m 0 - b.c * t) / sp
    let w := weightOf x m
    { p := if e.kind = 1 ∧ f.kind = 1 then p0 + b.r * (u.2 * t + (1 - u.1) * n) / w
           else (Config.pathPoint (e.start ++ e.ends ++ f.ends) (d * 65536).floor m : Rat) / 65536
      d := (u.1 * t + u.2 * n) / w, dd := (u.1 * n - u.2 * t) / (b.r * w) }

end Sys2Proof.Machine
end

