-- ==== Sys2Proof/Machine/PathPlan.lean ====
section
/-! DEFINITION.
Speeds along a group path: the limits of each piece, the look-ahead to the end of the last plannable segment, the profile of a
stretch (R147, R149, R156, R159, R161, R162, 07). -/

namespace Sys2Proof.Machine

/-- A piece of the path run under one set of limits. -/
structure Piece where
  /-- Length. -/
  len : Rat
  /-- Profile kind. -/
  profile : Nat
  /-- Limits. -/
  lim : Lim
deriving DecidableEq, Repr

/-- Planner period of a group's members, seconds (R155). -/
def grpPeriod (x : PlanGroup) (s : State) : Rat := planPeriod (memberSlot (x.members.getD 0 0)) s

/-- Duration of a PVT interval, seconds. -/
def pvtTime (x : PlanGroup) (e : SegEntry) (s : State) : Rat := grpPeriod x s * (e.dur : Rat)

/-- Is the head segment plannable? A spline span waits for the control point after it, unless it ends its spline
(R159). -/
def plannable (q : List SegEntry) : Bool :=
  match q with
  | [] => false
  | e :: r => e.kind != 3 || e.flags.getLsbD 3 || (match r with
      | f :: _ => f.kind == 3
      | [] => false)

/-! Limits (R156, R167). -/

/-- The path limits with the segment's own velocity limit and the override; never above the group's v_max. -/
def pathLim (x : PlanGroup) (e : SegEntry) : Lim :=
  let l := x.limits.lim
  let v := if e.vlimit = 0 then l.v else minR (ofQ24 e.vlimit) l.v
  { l with v := minR (v * (x.override.active.toNat : Rat) / 1024) l.v }

/-- Limits lowered so that a member whose derivatives by path distance are at most d and dd stays within its own v_max and a_max. Where the
path bends, half of a_max is kept for the path acceleration and half for the bend (DESIGN CHOICE, log entry 10). -/
def lowered (d dd v a : Rat) (l : Lim) : Lim :=
  let share := if dd = 0 then a else a / 2
  let l1 := if d = 0 then l else { l with v := minR l.v (v / d), a := minR l.a (share / d), d := minR l.d (share / d) }
  if dd = 0 then l1 else { l1 with v := minR l1.v (gridR (sqrtR (a / 2 / dd))) }

/-- Largest derivatives of a member over a segment: at the ends of a curve's chords; an arc's radius changes linearly. -/
def steepest (x : PlanGroup) (e : SegEntry) (h : Rat) (m : Nat) : Rat × Rat :=
  let along := fun (ds : List Rat) => ds.foldl (fun (b : Rat × Rat) d =>
    let q := segPlace x e h d m
    (maxR b.1 (absR q.d), maxR b.2 (absR q.dd))) (0, 0)
  if e.kind = 3 ∧ m < x.pathCount ∨ e.kind = 4 then along (0 :: e.chords)
  else if e.kind = 2 ∧ m < 2 ∧ 0 < e.len then
    let c := arcShape e
    let k := absR (radians c.sweep) / e.len
    let q := absR (c.r1 - c.r0) / e.len
    let r := maxR c.r0 c.r1
    (q + r * k, 2 * q * k + r * k * k)
  else along [0]

/-- Every member within its own limits; one without a configuration has none. -/
def memberLim (x : PlanGroup) (steep : Nat → Rat × Rat) (l : Lim) (s : State) : Lim :=
  (List.range x.members.length).foldl (fun l m =>
    match s.plan.ax[memberSlot (x.members.getD m 0)].cfg with
    | some c => lowered (steep m).1 (steep m).2 (ofQ24 c.limits.v) (ofQ24 c.limits.a) l
    | none => l) l

/-- Limits of a segment: members', and on an arc of radius r the speed √(a r) (R156). -/
def segLim (x : PlanGroup) (e : SegEntry) (s : State) : Lim :=
  let l := memberLim x (steepest x e (pvtTime x e s)) (pathLim x e) s
  if e.kind = 2 then
    let c := arcShape e
    { l with v := minR l.v (gridR (sqrtR (x.limits.lim.a * weightOf x 0 * minR c.r0 c.r1))) }
  else l

/-- Limits inside a blend: the smaller of both segments' velocity limits and √(a R) (R162), and the members'. -/
def blendLim (x : PlanGroup) (e f : SegEntry) (b : Blend) (s : State) : Lim :=
  let l := pathLim x e
  let v := minR (minR l.v (pathLim x f).v) (gridR (sqrtR (x.limits.lim.a * b.r)))
  memberLim x (fun m =>
    if m < x.pathCount then (1 / weightOf x m, 1 / (b.r * weightOf x m))
    else let q := blendPlace x e f b 0 m; (absR q.d, 0)) { l with v := v } s

/-- Profile kind of a segment (Table 7.3). -/
def segProfile (x : PlanGroup) (e : SegEntry) : Nat := if e.profile = 0xFF then x.profile else e.profile

/-! The stretch ahead (R161). -/

/-- The blend in force at the end of the head segment: decided before the path reaches it. -/
def headJoin (x : PlanGroup) : Join :=
  match x.queue with
  | e :: f :: r =>
    if !plannable (f :: r) then .stop
    else
      match joinOf x e f with
      | .blend b => if x.blending || decide (x.path ≤ e.len - b.l) then .blend b else .stop
      | j => j
  | _ => .stop

/-- The pieces from a place in the head of a queue to the next exact stop, or to the end of the last plannable of 64 segments. -/
def stretch (x : PlanGroup) (s : State) : Nat → List SegEntry → Rat → Bool → List Piece
  | 0, _, _, _ => []
  | _, [], _, _ => []
  | n + 1, e :: r, at0, inside =>
    let body := fun (stop : Rat) => Piece.mk (stop - at0) (segProfile x e) (segLim x e s)
    match r with
    | [] => [body e.len]
    | f :: _ =>
      if n = 0 || !plannable r then [body e.len]
      else
        match joinOf x e f with
        | .stop => [body e.len]
        | .smooth => body e.len :: stretch x s n r 0 false
        | .blend b =>
          if inside then Piece.mk (e.len - b.l + b.len - at0) (segProfile x e) (blendLim x e f b s) :: stretch x s n r b.l false
          else if e.len - b.l < at0 then [body e.len]
          else body (e.len - b.l) :: Piece.mk b.len (segProfile x e) (blendLim x e f b s) :: stretch x s n r b.l false

/-- Backwards over the pieces: the highest speed at the start, and the speed at each piece's end, from which the rest can still be run to
the end speed. -/
def endSpeeds (last : Rat) : List Piece → Rat × List (Piece × Rat)
  | [] => (last, [])
  | p :: r =>
    let q := endSpeeds last r
    let e := minR q.1 p.lim.v
    (gridR (highest (fun u => decide (phaseDist p.profile p.lim u e ≤ p.len)) e p.lim.v), (p, e) :: q.2)

/-- The profile of one piece from speed u at distance `at0`, towards end speed e: as fast as its limits let it (R147). Answers the speed
reached at its end as well. -/
def pieceSegs (p : Piece) (at0 u e : Rat) : List ProfSeg × Rat :=
  let dist := phaseDist p.profile p.lim
  let e1 :=
    if u ≤ e then gridR (highest (fun v => decide (dist u v ≤ p.len)) u e)
    else u - highest (fun d => decide (dist u (u - d) ≤ p.len)) 0 (u - e)
  let need := fun (c : Rat) => dist u c + dist c e1
  let c := gridR (highest (fun c => decide (need c ≤ p.len)) (if u ≤ p.lim.v then maxR u e1 else e1) p.lim.v)
  let part := fun (no : Nat) (a b : Rat) =>
    phaseSegs p.profile no (b - a) ((shape p.profile (absR (b - a)) (if a ≤ b then p.lim.a else p.lim.d) p.lim.j p.lim.s).round 0)
  let k := accSegs p.profile
  let cruise := if c = 0 then 0 else maxR 0 ((p.len - need c) / c)
  ((chain 0 { p := at0, v := u } (part 1 u c ++ [{ no := k + 1, len := cruise, v := some c, a := some 0, j := some 0 }] ++
    startingAt c (part (k + 2) c e1))).1, e1)

/-- The pieces one after another. -/
def runSegs : Rat → Rat → List (Piece × Rat) → List ProfSeg
  | _, _, [] => []
  | at0, u, (p, e) :: r =>
    if p.len ≤ 0 then runSegs at0 u r
    else let q := pieceSegs p at0 u e; q.1 ++ runSegs (at0 + p.len) q.2 r

/-- Take a distance off the front of some pieces. -/
def trimPieces (d : Rat) : List Piece → List Piece
  | [] => []
  | p :: r => if p.len ≤ d then trimPieces (d - p.len) r else { p with len := p.len - d } :: r

/-- The profile of a stretch from path speed and acceleration: the entry phase of R149, then the pieces. -/
def planStretch (x : Pt) (last : Rat) (ps : List Piece) : List ProfSeg :=
  match ps with
  | [] => []
  | p :: _ =>
    let e := entrySegs p.profile p.lim 0 x
    let q := endSpeeds last (trimPieces e.2.p ps)
    e.1 ++ runSegs e.2.p e.2.v q.2

/-- A stop along the path with given limits (R148, R165), rounded to periods of T: none where it would not end before the stretch does. -/
def stopWithin (profile : Nat) (l : Lim) (T : Rat) (x : Pt) (room : Rat) : Option (List ProfSeg) :=
  let r := planStop profile l T x
  if r.2.p ≤ room then some r.1 else none

/-- Length of some pieces. -/
def piecesLength (ps : List Piece) : Rat := (ps.map (·.len)).foldl (· + ·) 0

end Sys2Proof.Machine
end

