-- ==== Sys2Proof/Machine/PlanGroups.lean ====
section
/-! DEFINITION.
Axis groups: segments and their checks, group stops, the group boundary (R155 to R169, 07). -/

namespace Sys2Proof.Machine

/-- Present positions of a group's members: their set-points (R169). -/
def memberPos (x : PlanGroup) (s : State) : List Int := x.members.map fun n => s.axis[memberSlot n].posSp

/-- Where the next appended segment starts: the end of the last queued one, else the present position (R169). -/
def appendStart (x : PlanGroup) (q : List SegEntry) (s : State) : List Int :=
  match q.getLast? with
  | some e => e.ends
  | none => memberPos x s

/-! Entries of a SEGMENT_APPEND (R164, Tables 7.3 and 7.4). -/

/-- How many values a kind has with n members. -/
def segValues (kind n : Nat) : Nat :=
  if kind = 1 ∨ kind = 3 then n else if kind = 2 then n + 2 else if kind = 4 then 2 * n else 0

/-- The j-th 8-byte value after a segment's head. -/
def segValue (bs : List Byte) (j : Nat) : Int := beInt (slice (32 + 8 * j) 8 bs)

/-- Read one segment from its entries: none where Table 7.3 or 7.4 is not met. -/
def parseSeg (n : Nat) (start : List Int) (bs : List Byte) : Option SegEntry :=
  let at8 := fun (k : Nat) => (bs.getD k 0).toNat
  let kind := at8 0
  let used := at8 1
  let fl := bs.getD 2 0
  let prof := at8 3
  let vals := segValues kind n
  let need := 1 + (vals + 3) / 4
  let body := slice 0 (32 * used) bs
  let vs := (List.range (4 * (used - 1))).map (segValue body)
  let rel := fl.getLsbD 0
  let raw := vs.take n
  let ends := if kind = 5 then start else if rel then (raw.zip start).map (fun p => p.1 + p.2) else raw
  let dur := beNat (slice 24 4 bs)
  let tail7 := (slice 25 7 bs).all (· == 0)
  let tail4 := (slice 28 4 bs).all (· == 0)
  let tail8 := (slice 24 8 bs).all (· == 0)
  let bad := !(decide (1 ≤ kind) && decide (kind ≤ 5)) || used != need || decide (bs.length < 32 * used) ||
    decide (32 ≤ fl.toNat) || !(decide (prof ≤ 2) || prof == 0xFF) ||
    bad63 (slice 8 8 bs) || bad63 (slice 16 8 bs) || decide (beInt (slice 8 8 bs) < 0) || decide (beInt (slice 16 8 bs) < 0) ||
    (List.range vals).any (fun j => bad63 (slice (32 + 8 * j) 8 body)) || (vs.drop vals).any (· != 0) ||
    (if kind = 2 then !tail7 else if kind = 4 then !tail4 || !(decide (1 ≤ dur) && decide (dur ≤ 65535))
     else if kind = 5 then !tail4 else !tail8)
  if bad then none
  else some
    { kind := kind, used := used, flags := fl, profile := prof, ident := beNat (slice 4 4 bs), vlimit := beInt (slice 8 8 bs),
      blend := beInt (slice 16 8 bs), turns := if kind = 2 then at8 24 else 0, dur := if kind = 4 ∨ kind = 5 then dur else 0,
      start := start, ends := ends, centre := if kind = 2 then (vs.drop n).take 2 else [],
      vels := if kind = 4 then (vs.drop n).take n else [] }

/-- Does a member stay within its own limits over a PVT interval (R160)? A member without limits has none to exceed. -/
def pvtWithin (i : Fin 64) (p0 p1 v0 v1 h : Rat) (s : State) : Bool :=
  match s.plan.ax[i].cfg with
  | none => true
  | some c =>
    let a0 := (hermite p0 p1 v0 v1 h 0).2.2
    let a1 := (hermite p0 p1 v0 v1 h 1).2.2
    let u := if a0 = a1 then 0 else a0 / (a0 - a1)
    let vm := if 0 < u ∧ u < 1 then (hermite p0 p1 v0 v1 h u).2.1 else 0
    let v := ofQ24 c.limits.v
    let a := ofQ24 c.limits.a
    decide (absR v0 ≤ v) && decide (absR v1 ≤ v) && decide (absR vm ≤ v) && decide (absR a0 ≤ a) && decide (absR a1 ≤ a)

/-- Velocities at which a PVT point's interval starts: those of the point before it, else rest (R160). -/
def pvtBefore (q : List SegEntry) (n : Nat) : List Int :=
  match q.getLast? with
  | some e => if e.kind = 4 then e.vels else List.replicate n 0
  | none => List.replicate n 0

/-- The three control points before a spline point: those of the spline it goes on, else its start point thrice (R159). -/
def splineBefore (q : List SegEntry) (e : SegEntry) : List (List Int) :=
  match q.getLast? with
  | some p => if p.kind = 3 ∧ !p.flags.getLsbD 3 then p.ctrl.drop 1 ++ [p.ends] else List.replicate 3 e.start
  | none => List.replicate 3 e.start

/-- The checks of an entry beyond its layout (R158 to R160, R162, R164). -/
def segAllowed (x : PlanGroup) (q : List SegEntry) (e : SegEntry) (s : State) : Bool :=
  let moving := match q.getLast? with
    | some p => p.kind == 4 && p.vels.any (· != 0)
    | none => false
  match e.kind with
  | 1 => !moving
  | 2 => !moving && x.weights.getD 0 0 == x.weights.getD 1 0 &&
      decide (absR (arcRadius e.centre e.start - arcRadius e.centre e.ends) ≤ ofQ16 x.arcTol)
  | 3 => !moving && (x.members.zip e.ends).all fun m =>
      match s.plan.ax[memberSlot m.1].cfg.bind (·.soft) with
      | some (lo, hi) => decide (lo ≤ m.2) && decide (m.2 ≤ hi)
      | none => true
  | 4 =>
    let h := pvtTime x e s
    (List.range x.members.length).all fun k =>
      pvtWithin (memberSlot (x.members.getD k 0)) (ofQ16 (e.start.getD k 0)) (ofQ16 (e.ends.getD k 0))
        (ofQ24 (e.vel0.getD k 0)) (ofQ24 (e.vels.getD k 0)) h s
  | _ => true

/-- Read all segments of an append: the queue extended, or the number of the first failing entry. -/
def parseSegs (x : PlanGroup) (s : State) : Nat → Nat → List Byte → List SegEntry → Except Nat (List SegEntry)
  | 0, _, _, q => .ok q
  | n + 1, k, bs, q =>
    if bs = [] then .ok q
    else
      match parseSeg x.members.length (appendStart x q s) bs with
      | none => .error k
      | some e =>
        let e1 := measured x (pvtTime x e s) { e with ctrl := splineBefore q e, vel0 := pvtBefore q x.members.length }
        if segAllowed x q e1 s then parseSegs x s n (k + e.used) (bs.drop (32 * e.used)) (q ++ [e1]) else .error k

/-! Samples and boundaries of members. -/

/-- Ticks from now to a slot's next inner sample instant (R254, R296). -/
def ticksToSample (i : Fin 64) (s : State) : Nat :=
  let a := s.axis[i]
  match slotGroups a.bind with
  | g :: _ =>
    let x := s.bta.grp[g]
    let p := max x.period.active.toNat 1
    let m := if x.smp = 0xFFFFFFFF then p / 2 else x.smp
    match x.startDue with
    | some t => (t - s.now) + m
    | none => (m + p - x.count % p) % p
  | [] =>
    let p := 2 * max ((a.mode.map (·.period)).getD 1) 1
    (p - (s.tb0 % 1000000000) % p) % p / 2

/-- Tick of a slot's next outermost-loop sample (R133, R142). -/
def nextOuter (i : Fin 64) (s : State) : Nat :=
  let p := (s.axis[i].mode.map (·.period)).getD 1
  let d := max (outerTicks s.axis[i] / max p 1) 1
  s.now + ticksToSample i s + p * ((d - s.loop.slot[i].samples % d) % d)

/-- Two slots' outer samples fall at the same instants (R155). -/
def sameSamples (i j : Fin 64) (s : State) : Bool :=
  let t := outerTicks s.axis[i]
  t == outerTicks s.axis[j] && nextOuter i s % max t 1 == nextOuter j s % max t 1

/-- A member fit for its group's start (R155). -/
def memberReady (first i : Fin 64) (s : State) : Bool :=
  let a := s.axis[i]
  let d := depthOf i s
  a.st == .enabled && sourceOf i s == 0 && (d == 3 || (d == 0 && driveOf i s == 2)) &&
  planTicks i s == planTicks first s && sameSamples first i s

/-! Stopping a group (R165, R166). -/

/-- The group mode a STOP asks for: FREEZE acts as QUICK where a member runs open-loop stepping. -/
def groupStopMode (x : PlanGroup) (m : Nat) (s : State) : Nat :=
  if m = 3 ∧ x.members.any (fun n => depthOf (memberSlot n) s == 0) then 1 else m

/-- Severity of the stop in progress or due, 0 without one. -/
def groupSeverity (x : PlanGroup) : Nat :=
  max ((x.stopMode.map stopSeverity).getD 0) ((x.stopDue.map fun d => stopSeverity d.1).getD 0)

/-- A stop is in progress or due (R166). -/
def groupStopping (x : PlanGroup) : Bool := x.stopMode.isSome || x.stopDue.isSome

/-- Hand the planner a stop of a group, for its next boundary; a stop of at least its severity stands (R143, R166). -/
def requestGroupStop (g : Fin 16) (mode : Nat) (s : State) : State :=
  let x := s.plan.grp[g]
  let m := groupStopMode x mode s
  if stopSeverity m ≤ groupSeverity x then s
  else onPgrp g (fun y => { y with stopDue := some (m, s.now), activity := 3 }) s

/-- Key of a STOP that waits for a group. -/
def groupKey (g : Fin 16) : Nat := 0x100 + g.val

/-- A group has come to rest under a stop: a pause keeps its queue, the others discard it (Table 7.5). -/
def groupAtRest (g : Fin 16) (s : State) : State :=
  let m := s.plan.grp[g].stopMode.getD 0
  let s1 := onPgrp g (fun y => { y with
    stopMode := none, stopDue := none, resumeDue := none, pathVel := 0, pathAcc := 0, running := decide (m = 2), segs := [], clock := 0, lost := false,
    activity := if m = 2 then 4 else 1, queue := if m = 2 then y.queue else [], blending := y.blending && m == 2,
    along := y.along && m == 2, path := if m = 2 then y.path else 0, pathLen := if m = 2 then y.pathLen else 0,
    tau := if m = 2 then y.tau else 0, segId := if m = 2 then y.segId else 0, startPend := false }) s
  let s2 := finish (fun e => e.opcode == 0x0203 && e.key == groupKey g) .done [] s1
  if allAtRest s2 then finish (fun e => e.opcode == 0x0203 && e.key == 0xFFFF) .done [] s2 else s2

/-! Members (R144, R166). -/

/-- Is a member in service: Enabled, and no AXIS_DISABLE under way on it (R166)? -/
def inService (i : Fin 64) (s : State) : Bool :=
  s.axis[i].st == .enabled && !s.pkts.executing.any (axisCommand i 0x0103)

/-- Hand a member its position, velocity and acceleration at a boundary; one out of service goes its own way (R144, R166). -/
def memberSet (t : Nat) (i : Fin 64) (p v a : Rat) (s : State) : State :=
  if !inService i s then s
  else
    let pos := roundOpen (p * 65536)
    let vel := roundOpen (v * 16777216)
    onPax i (fun y => { y with pos := pos, vel := vel, acc := roundOpen (a * 16777216), boundary := t }) (setPoint i pos s.axis[i].velSp vel s)

/-- Every member at a place of the path, which runs at speed v with acceleration a. -/
def membersAt (t : Nat) (x : PlanGroup) (place : Nat → Place) (v a : Rat) (s : State) : State :=
  (List.range x.members.length).foldl (fun s k =>
    let q := place k
    memberSet t (memberSlot (x.members.getD k 0)) q.p (q.d * v) (q.d * a + q.dd * v * v) s) s

/-- Every member stands still where its set-point is. -/
def membersRest (t : Nat) (x : PlanGroup) (s : State) : State :=
  x.members.foldl (fun s n => memberSet t (memberSlot n) (ofQ16 s.axis[memberSlot n].posSp) 0 0 s) s

/-- Every member `tau` periods into a PVT interval (R160); past its end it is at the point itself. -/
def membersPvt (t : Nat) (x : PlanGroup) (e : SegEntry) (tau : Nat) (s : State) : State :=
  (List.range x.members.length).foldl (fun s k =>
    let r := pvtAt e (pvtTime x e s) ((min tau e.dur : Nat) / (e.dur : Rat)) k
    memberSet t (memberSlot (x.members.getD k 0)) r.1 r.2.1 r.2.2 s) s

/-- A member's place at the group's present path distance. -/
def presentPlace (x : PlanGroup) (s : State) (m : Nat) : Place :=
  match x.queue, headJoin x with
  | e :: f :: _, .blend b => if x.blending then blendPlace x e f b (x.path - (e.len - b.l)) m else segPlace x e (pvtTime x e s) x.path m
  | e :: _, _ => segPlace x e (pvtTime x e s) x.path m
  | [], _ => { p := ofQ16 s.axis[memberSlot (x.members.getD m 0)].posSp }

/-- Does the head run by time alone: a dwell, or a PVT interval that no stop has touched? -/
def timed (x : PlanGroup) : Bool :=
  match x.queue with
  | e :: _ => e.kind == 5 || e.kind == 4 && !x.along
  | [] => false

/-- Path speed and acceleration of a PVT interval at u of it: the members' motion along the path (R160, R165). -/
def pvtSpeed (x : PlanGroup) (e : SegEntry) (h u : Rat) : Rat × Rat :=
  let v := pathNorm x fun m => (pvtAt e h u m).2.1
  let dot := (pathMembers x).foldl (fun t m =>
    let q := pvtAt e h u m
    t + weightOf x m * weightOf x m * q.2.1 * q.2.2) 0
  (v, if v = 0 then 0 else gridR (dot / v))

/-- The path's state at this boundary: speed, acceleration, jerk, from distance 0. -/
def pathPt (x : PlanGroup) (s : State) : Pt :=
  if timed x then
    match x.queue with
    | e :: _ => if e.kind = 4 then let q := pvtSpeed x e (pvtTime x e s) ((x.tau : Rat) / (e.dur : Rat)); { v := q.1, a := q.2 } else {}
    | [] => {}
  else
    match x.segs with
    | g :: _ => { g.point x.clock with p := 0 }
    | [] => {}

/-- Hand the members the state of this boundary. -/
def handGroup (g : Fin 16) (s : State) : State :=
  let x := s.plan.grp[g]
  let t := x.boundary
  match x.queue with
  | [] => membersRest t x s
  | e :: _ =>
    if x.activity = 5 ∨ e.kind = 5 then membersRest t x s
    else if timed x then membersPvt t x e x.tau s
    else membersAt t x (fun m => presentPlace x s m) x.pathVel x.pathAcc s

/-! Segments (R159 to R164). -/

/-- The queue has run dry: QUEUE_STARVED, and the group rests (R161). -/
def starve (g : Fin 16) (s : State) : State :=
  if s.plan.grp[g].activity = 5 then s
  else event 0x0201 g [] (onPgrp g (fun y => { y with activity := 5, starved := true, segs := [], clock := 0, pathVel := 0, pathAcc := 0 }) s)

/-- The head segment starts `at0` into it: its identifier, its length, SEGMENT_REACHED when asked for (Table 7.3). One that starts at
rest is planned now. -/
def segmentStart (g : Fin 16) (at0 : Rat) (rest : Bool) (s : State) : State :=
  let x := s.plan.grp[g]
  match x.queue with
  | [] => s
  | e :: _ =>
    let s1 := onPgrp g (fun y => { y with
      segId := e.ident, path := at0, tau := 0, pathLen := e.len, blending := false, along := false, stale := y.stale || rest,
      activity := if y.activity = 3 then 3 else 2 }) s
    if e.flags.getLsbD 4 then event 0x0202 g (be 4 e.ident) s1 else s1

/-- A PVT point with speed left ends a dry queue: a quick stop from that state, straight on along the path (R161; log entry 10). The line
it runs on takes no entry of the queue. -/
def coast (g : Fin 16) (e : SegEntry) (s : State) : State :=
  let x := s.plan.grp[g]
  let q := pvtSpeed x e (pvtTime x e s) 1
  let l : Lim := { v := x.limits.lim.v, a := ofQ24 x.quick.d, d := ofQ24 x.quick.d, j := ofQ16 x.quick.j, s := ofQ16 x.quick.s }
  let r := planStop (segProfile x e) l (grpPeriod x s) { v := q.1, a := q.2 }
  let ends := (List.range x.members.length).map fun m =>
    e.ends.getD m 0 + (if q.1 = 0 then 0 else roundOpen (ofQ24 (e.vels.getD m 0) / q.1 * r.2.p * 65536))
  let line : SegEntry := { kind := 1, used := 0, ident := e.ident, start := e.ends, ends := ends, len := r.2.p }
  event 0x0201 g [] (onPgrp g (fun y => { y with
    queue := [line], path := 0, pathLen := r.2.p, tau := 0, along := false, blending := false, segs := r.1, clock := 0, base := 0, stale := false,
    starved := true, stopMode := some 1, activity := 3 }) s)

/-- The head segment ends in an exact stop, or a PVT point or dwell is over: its entries are freed (R164) and the next one starts, or the
queue has run dry. -/
def segmentEnd (g : Fin 16) (s : State) : State :=
  match s.plan.grp[g].queue with
  | [] => s
  | e :: r =>
    let x := s.plan.grp[g]
    let s0 := if e.kind = 5 then s else membersAt x.boundary x (fun m => segPlace x e (pvtTime x e s) e.len m) 0 0 s
    let s1 := onPgrp g (fun y => { y with
      queue := r, segId := 0, path := 0, pathLen := 0, tau := 0, blending := false, along := false, segs := [], clock := 0, pathVel := 0, pathAcc := 0 }) s0
    if plannable r then segmentStart g 0 true s1
    else if e.kind = 4 ∧ e.vels.any (· != 0) then coast g e s1
    else starve g s1

/-- The path has passed out of the head segment into the next without resting: `cut` of its distance is behind, and the next begins `at0`
into it. -/
def segmentPass (g : Fin 16) (cut at0 : Rat) (s : State) : State :=
  let x := s.plan.grp[g]
  let place := x.path - cut + at0
  let s1 := segmentStart g at0 false (onPgrp g (fun y => { y with queue := y.queue.drop 1 }) s)
  onPgrp g (fun y => { y with path := place, base := x.base - cut + at0 }) s1

/-- The join at the end of the head as it stands at the head's start, `at0` into it. -/
def joinAhead (g : Fin 16) (at0 : Rat) (s : State) : Join := headJoin { s.plan.grp[g] with path := at0, blending := false }

/-- Bring the head of the queue, which ends in the join `j`, up to the present path distance: through smooth junctions and blends, but no
further than an exact stop. -/
def crossHeads (g : Fin 16) : Nat → Join → State → State
  | 0, _, s => s
  | n + 1, j, s =>
    let x := s.plan.grp[g]
    match x.queue, j with
    | e :: _, .smooth =>
      if e.len ≤ x.path then
        let s1 := segmentPass g e.len 0 s
        crossHeads g n (joinAhead g 0 s1) s1
      else s
    | e :: _, .blend b =>
      if e.len - b.l + b.len ≤ x.path then
        let s1 := segmentPass g (e.len - b.l + b.len) b.l s
        crossHeads g n (joinAhead g b.l s1) s1
      else onPgrp g (fun y => { y with blending := decide (e.len - b.l < y.path) }) s
    | e :: _, .stop => if e.len < x.path then onPgrp g (fun y => { y with path := e.len }) s else s
    | [], _ => s

/-- The stretch has been run to its end: the segments in it pass, and the last one ends in its exact stop. -/
def finishStretch (g : Fin 16) : Nat → State → State
  | 0, s => segmentEnd g s
  | n + 1, s =>
    let x := s.plan.grp[g]
    match x.queue, headJoin x with
    | e :: _, .smooth => finishStretch g n (segmentPass g e.len 0 s)
    | e :: _, .blend b => finishStretch g n (segmentPass g (e.len - b.l + b.len) b.l s)
    | _, _ => segmentEnd g s

/-- The path one planner period on. -/
def pathAdvance (g : Fin 16) (s : State) : State :=
  let x := s.plan.grp[g]
  if x.segs = [] then s
  else
    let r := profileRun (grpPeriod x s) x.segs x.clock
    match r.1 with
    | q :: _ =>
      let p := q.point r.2
      crossHeads g x.queue.length (headJoin x) (onPgrp g (fun y => { y with
        segs := r.1, clock := r.2, path := x.base + p.p, pathVel := p.v, pathAcc := p.a }) s)
    | [] =>
      let stop := ((x.segs.getLast?.map fun q => (q.point q.len).p).getD 0) + x.base
      crossHeads g x.queue.length (headJoin x) (onPgrp g (fun y => { y with segs := [], clock := 0, path := stop, pathVel := 0, pathAcc := 0 }) s)

/-- The group one planner period on: by time on a dwell or a PVT interval, else along the path. -/
def segmentAdvance (g : Fin 16) (s : State) : State :=
  let x := s.plan.grp[g]
  match x.queue with
  | [] => starve g s
  | e :: _ =>
    if x.activity = 5 then (if plannable x.queue then segmentStart g 0 true (onPgrp g (fun y => { y with activity := 2 }) s) else s)
    else if timed x then
      if x.override.active = 0 then s
      else
        let s1 := onPgrp g (fun y => { y with tau := y.tau + 1 }) s
        if e.dur ≤ x.tau + 1 then segmentEnd g s1 else s1
    else
      let s1 := pathAdvance g s
      let y := s1.plan.grp[g]
      if x.segs ≠ [] ∧ y.segs = [] ∧ y.stopMode.isNone ∧ y.override.active ≠ 0 then
        finishStretch g y.queue.length s1
      else s1

/-! Planning (R149, R161, R165, R167). -/

/-- The pieces ahead, and the speed at their end: a PVT curve left by a stop is run to the speed of the interval's end where another
interval follows (log entry 10). -/
def piecesAhead (x : PlanGroup) (s : State) : List Piece × Rat :=
  match x.queue with
  | [] => ([], 0)
  | e :: r =>
    if e.kind = 4 then
      let follows := match r with
        | f :: _ => f.kind == 4
        | [] => false
      ([{ len := e.len - x.path, profile := segProfile x e, lim := segLim x e s }],
       if follows then (pvtSpeed x e (pvtTime x e s) 1).1 else 0)
    else if e.kind = 5 then ([], 0)
    else (stretch x s 64 x.queue x.path x.blending, 0)

/-- A PVT interval about to be stopped, or left by a stop, is followed along its curve (R165). -/
def ontoCurve (g : Fin 16) (s : State) : State :=
  let x := s.plan.grp[g]
  match x.queue with
  | e :: _ =>
    if e.kind = 4 ∧ !x.along then
      onPgrp g (fun y => { y with along := true, path := curveDistance e ((x.tau : Rat) / (e.dur : Rat)) }) s
    else s
  | [] => s

/-- Put a profile of the path in force from here. -/
def pathPlanned (g : Fin 16) (l : List ProfSeg) (s : State) : State :=
  onPgrp g (fun y => { y with
    segs := l, clock := 0, base := y.path, stale := false, pathVel := (l.head?.map (·.v0)).getD 0, pathAcc := (l.head?.map (·.a0)).getD 0 }) s

/-- A stop along the path from here, with the quick-stop limits or the profile's (R165, R167). One that the path's end leaves no room for
goes on as planned, which rests there. -/
def stopAlong (g : Fin 16) (quick : Bool) (s0 : State) : State :=
  let x0 := s0.plan.grp[g]
  let pt := pathPt x0 s0
  let s := if x0.tau = 0 ∧ pt.v = 0 then s0 else ontoCurve g s0
  let x := s.plan.grp[g]
  match x.queue with
  | [] => pathPlanned g [] s
  | e :: _ =>
    let l := pathLim x e
    let q : Lim := { l with d := ofQ24 x.quick.d, j := ofQ16 x.quick.j, s := ofQ16 x.quick.s }
    let ps := piecesAhead x s
    let room := piecesLength ps.1
    let T := grpPeriod x s
    let prof := segProfile x e
    if pt.v = 0 ∧ pt.a = 0 then pathPlanned g [] s
    else
      match if quick then stopWithin prof q T pt room else none with
      | some r => pathPlanned g r s
      | none =>
        match stopWithin prof x.limits.lim T pt room with
        | some r => pathPlanned g r s
        | none => pathPlanned g (planStretch pt 0 ps.1) s

/-- Plan the path again from here (R149, R161, R167): to the end of the stretch, or to rest under an override of 0. -/
def groupReplan (g : Fin 16) (s : State) : State :=
  let x := s.plan.grp[g]
  if x.override.active = 0 then
    if (x.queue.headD {}).kind = 5 then onPgrp g (fun y => { y with stale := false }) s else stopAlong g false s
  else if timed x ∨ x.activity = 5 then onPgrp g (fun y => { y with stale := false }) s
  else
    let ps := piecesAhead x s
    let l := planStretch (pathPt x s) ps.2 ps.1
    let s1 := pathPlanned g l s
    if l = [] then finishStretch g x.queue.length s1 else s1

/-- A stop takes effect at this boundary (R165): FREEZE holds the set-points now, the others decelerate along the path. A group already at
rest is at rest. -/
def stopBegin (g : Fin 16) (m : Nat) (s : State) : State :=
  let s1 := onPgrp g (fun y => { y with stopMode := some m, stopDue := none, activity := 3, stale := false }) s
  let x := s1.plan.grp[g]
  if m = 3 ∨ (x.queue.headD {}).kind = 5 ∨ s.plan.grp[g].activity = 5 then
    onPgrp g (fun y => { y with segs := [], pathVel := 0, pathAcc := 0 }) (ontoCurve g s1)
  else stopAlong g (decide (m = 1)) s1

/-- Members of a running group that have left service: the others take a QUICK stop along the path, the queue is discarded,
GROUP_FAULT_STOP is raised (R166). -/
def memberLost (g : Fin 16) (s : State) : State :=
  let x := s.plan.grp[g]
  if x.lost ∨ x.members.all (fun n => inService (memberSlot n) s) then s
  else
    let s1 := onPgrp g (fun y => { y with lost := true, faultStop := true }) s
    let s2 := event 0x0203 g [] s1
    if stopSeverity 1 ≤ (x.stopMode.map stopSeverity).getD 0 then s2 else stopBegin g 1 s2

/-- Commands whose time has come at this boundary: an override, a resumption, a stop (R143). -/
def groupCommands (g : Fin 16) (t : Nat) (s : State) : State :=
  let x := s.plan.grp[g]
  let s1 :=
    if x.override.ripe t then settleUpdate 1 (onPgrp g (fun y => { y with override := y.override.take, stale := y.stopMode.isNone }) s)
    else s
  let s2 :=
    if x.resumeDue.any (fun h => decide (h + 5000 ≤ t)) then onPgrp g (fun y => { y with resumeDue := none, stale := true }) s1 else s1
  match x.stopDue with
  | some (m, h) => if h + 5000 ≤ t then stopBegin g m s2 else s2
  | none => s2

/-- A planner boundary of a group at tick `t` (R143, R155, R161, R165 to R167): the state of this boundary, then the commands that take
effect at it, then the values the members are handed. -/
def groupBoundary (g : Fin 16) (t : Nat) (s : State) : State :=
  let x := s.plan.grp[g]
  let s1 := onPgrp g (fun y => { y with boundary := t, startPend := false }) s
  let s2 :=
    if x.startPend then (if plannable x.queue then segmentStart g 0 true s1 else starve g s1)
    else if x.resumeDue.isSome then s1
    else segmentAdvance g s1
  let s3 := memberLost g (groupCommands g t s2)
  let y := s3.plan.grp[g]
  if y.stopMode.isSome then
    let s4 := handGroup g s3
    if y.segs = [] then groupAtRest g s4 else s4
  else handGroup g (if y.stale ∧ y.resumeDue.isNone then groupReplan g s3 else s3)

end Sys2Proof.Machine
end

