-- ==== Sys2Proof/Machine/Updates.lean ====
section
/-! DEFINITION.
Update groups: shadows, strobes, arming, take-over (R109 to R112, 05; R265, 11). -/

namespace Sys2Proof.Machine

/-- A write to a shadow. -/
def Buf.write (w : Word) (b : Buf) : Buf := { b with shadow := w }

/-- Arming: the shadow, or the active value where no shadow was written since the last arming (R111, R112); a register with no later
boundary transfers at once, and one armed again keeps its take-over point (R112). -/
def Buf.arm (fromShadow later : Bool) (now : Nat) (b : Buf) : Buf :=
  let c := { b with armed := if fromShadow then b.shadow else b.active, due := true, since := if b.due then b.since else now }
  if later then c else c.take

/-- A shadow of update group n has been written. -/
def markDirty (n : Nat) (s : State) : State := s.onSys fun y => { y with updDirty := y.updDirty ||| BitVec.ofNat 16 (2 ^ n) }

/-- The planner of an axis has boundaries: Enabled, and planned for (R142). -/
def axisBoundaries (i : Fin 64) (s : State) : Bool :=
  s.axis[i].st == .enabled && (sourceOf i s == 0 || planBusy i s)

/-- A planner group has boundaries: started, and not at rest under a freeze (R142, R155). -/
def groupBoundaries (g : Fin 16) (s : State) : Bool := s.plan.grp[g].running

/-- A loop has samples: its slot is bound and its cascade has the loop (R190). -/
def loopSamples (i : Fin 64) (k : Fin 3) (s : State) : Bool :=
  s.axis[i].bind.location != 0 && s.axis[i].mode.any fun m => (slotLoops s.axis[i].bind m s).contains k

/-- The bits of a lock word that belong to loops chosen by `f` (R205). -/
def lockMask (f : Fin 3 → Bool) : Word := (List.finRange 3).foldl (fun m k => if f k then m ||| BitVec.ofNat 32 (15 * 2 ^ (4 * k.val)) else m) 0

/-- Arming a slot's region locks: a loop that samples takes its lock at its next sample, the others at once (R205). -/
def armLock (fromShadow : Bool) (later : Fin 3 → Bool) (x : LoopSlot) : LoopSlot :=
  let w := if fromShadow then x.lock.shadow else x.lock.active
  let m := lockMask fun k => !later k
  let v := (x.locked &&& ~~~m) ||| (w &&& m)
  { x with
    locked := v, lock := { x.lock with armed := w, active := v },
    lp := updAll x.lp fun k l => { l with lockDue := later k } }

/-- Arming what has not been written since the last arming: the armed set is the active one (R112). -/
def armActive (g : Fin 32) (s : State) : State :=
  let s1 := onGrp g (fun x => { x with period := { x.period with armed := x.period.active }, sealed := true }) s
  (groupLegs g).foldl (fun s n => onLeg n (fun l => { l with
    cmpa := { l.cmpa with armed := l.cmpa.active }, cmpb := { l.cmpb with armed := l.cmpb.active } }) s) s1

/-- Arming the registers of an update group: planner overrides US1 (R167), region locks US3 (R205), compare unit control US4 (R241), leg
groups in gang mode (R265). DESIGN CHOICE (log 49): where the planner, the loop or the group has no boundaries, the value transfers
at the arming instant. -/
def armRegisters (n : Nat) (fromShadow : Bool) (s : State) : State :=
  let s1 :=
    if n = 1 then s.onPlan fun p => { p with
      ax := updAll p.ax fun i a => { a with override := a.override.arm fromShadow (axisBoundaries i s) s.now },
      grp := updAll p.grp fun g x => { x with override := x.override.arm fromShadow (groupBoundaries g s) s.now } }
    else if n = 3 then s.onLoop fun e => { e with slot := updAll e.slot fun i x => armLock fromShadow (fun k => loopSamples i k s) x }
    else if n = 4 then s.onPorts fun b => { b with cmp := updAll b.cmp fun _ c => { c with ctrl := c.ctrl.arm fromShadow false s.now } }
    else s
  (gangOf n s1).foldl (fun s g => takeAtBoundary g (if fromShadow then armGroup g s else armActive g s)) s1

/-- Arming an update group (R111, R112). -/
def armUpdate (s : State) (n : Nat) : State :=
  let dirty := s.sys.updDirty.getLsbD n
  let again := s.sys.updPending.getLsbD n
  let m := BitVec.ofNat 16 (2 ^ n)
  settleUpdate n ((armRegisters n (dirty || again) s).onSys fun y => { y with
    updDirty := y.updDirty &&& ~~~m, updPending := y.updPending ||| m, updCaptured := y.updCaptured &&& ~~~m,
    updSuperseded := if again then y.updSuperseded ||| m else y.updSuperseded })

/-- What waits in an update group and has no boundary left (its axis, planner group or loop has stopped) transfers (R111; log 49). -/
def takeStranded (n : Nat) (s : State) : State :=
  if n = 1 then s.onPlan fun p => { p with
    ax := updAll p.ax fun i a => if axisBoundaries i s then a else { a with override := a.override.takeDue },
    grp := updAll p.grp fun g x => if groupBoundaries g s then x else { x with override := x.override.takeDue } }
  else if n = 3 then s.onLoop fun e => { e with slot := updAll e.slot fun i x =>
    let m := lockMask fun k => x.lp[k].lockDue && !loopSamples i k s
    let v := (x.locked &&& ~~~m) ||| (x.lock.armed &&& m)
    { x with locked := v, lock := { x.lock with active := v },
             lp := updAll x.lp fun k l => { l with lockDue := l.lockDue && loopSamples i k s } } }
  else s

/-- The capture of strobes at a 16 ns grid instant (R111). -/
def captureStrobes (s : State) : State :=
  if tbRuns s ∧ s.sysTick % 8 = 0 then ((List.range 16).filter fun n => s.sys.updCaptured.getLsbD n).foldl armUpdate s else s

/-- A strobe: captured now on a grid instant, else at the next one (R111). -/
def strobe (bits : BitVec 16) (s : State) : State :=
  captureStrobes (s.onSys fun y => { y with updCaptured := y.updCaptured ||| bits })

end Sys2Proof.Machine
end

