-- ==== Sys2Proof/Machine/Bta.lean ====
section
/-! DEFINITION.
The BTA class and the BTA's own events (R252 to R279, Table 11.7, 11). -/

namespace Sys2Proof.Machine

/-- "Configuring" (R278): no live slot occupies the group. -/
def groupQuiet (g : Fin 32) (s : State) : Bool := (groupSlots g s).all fun i => !live s.axis[i]

/-- States of a configuring opcode. -/
def configStates : List DevState := [.commissioning, .operational, .test]

/-- A shadow of a group was written: DIRTY, and in gang mode its strobe's UPD_DIRTY (R263, R265). -/
def touchGroup (g : Fin 32) (s : State) : State :=
  let s1 := onGrp g (fun x => { x with dirty := true }) s
  if s.bta.grp[g].gang then markDirty (8 + s.bta.grp[g].strobe) s1 else s1

/-! BTA_GROUP_CONFIG. -/

/-- The period a BTA_GROUP_CONFIG leaves. -/
def configPeriod (rq : Request) (g : BtaGroup) : Nat := if num rq 0x0100 0 4 = 0 then dutyPeriod g else num rq 0x0100 0 4

/-- Values of BTA_GROUP_CONFIG (R252 to R254, R265, R279). -/
def groupConfigValues (rq : Request) (s : State) : Option Deny :=
  let g := tgt 32 rq
  let p := configPeriod rq s.bta.grp[g]
  let w := num rq 0x0100 0 4
  let smp := num rq 0x0100 8 4
  let short := w != 0 && (groupLegs g).any fun n => decide (w < 4 * (s.bta.leg[n].dtR + s.bta.leg[n].dtF))
  firstDeny
    [((w != 0 && (decide (w < 250) || decide (1048575 < w))) || decide (p ≤ num rq 0x0100 4 4) || (smp != 0xFFFFFFFF && decide (p ≤ smp)) || short,
      badValue rq 0x0100),
     (decide (1 < num rq 0x0101 0 1) || decide (num rq 0x0101 1 1 < 8) || decide (15 < num rq 0x0101 1 1) || decide (1 < num rq 0x0101 3 1) ||
        (num rq 0x0101 3 1 == 1 && 1000000000 % (2 * p) != 0), badValue rq 0x0101),
     (has rq 0x0102 && decide (1 < num rq 0x0102 0 1), badValue rq 0x0102)]

/-- Write PERIOD: a running group its shadow, another both (R252). -/
def writePeriod (g : Fin 32) (w : Nat) (s : State) : State :=
  let v : Word := BitVec.ofNat 32 w
  if s.bta.grp[g].run then
    touchGroup g (onGrp g (fun x => { x with period := { x.period with shadow := v }, periodWritten := true }) s)
  else onGrp g (fun x => { x with period := { active := v, shadow := v, armed := v }, periodWritten := false }) s

/-- BTA_GROUP_CONFIG. -/
def opBtaGroupConfig : Op :=
  { opcode := 0x0500, target := below 32, toe := false, states := configStates
    schema := [fixed 0x0100 12, fixed 0x0101 4, optional 0x0102 1]
    values := groupConfigValues
    effect := fun rq s =>
      let g := tgt 32 rq
      let w := num rq 0x0100 0 4
      let gang := num rq 0x0101 0 1 == 1
      if !groupQuiet g s then .deny conflict
      else if s.bta.grp[g].occupied ∧ (w ≠ 0 ∨ gang ∨ has rq 0x0102) then .deny conflict
      else
        let s1 := onGrp g (fun x => { x with
          phase := num rq 0x0100 4 4, smp := num rq 0x0100 8 4, gang := gang, strobe := num rq 0x0101 1 1 - 8,
          unsealLimit := num rq 0x0101 2 1, sync := num rq 0x0101 3 1 == 1 }) s
        let s2 := if w = 0 then s1 else writePeriod g w s1
        if !has rq 0x0102 then .done s2 []
        else if num rq 0x0102 0 1 = 0 then .done (stopGroup g s2) []
        else .done (if s.bta.grp[g].run then s2 else refreshGroup g (startGroup g s2)) [] }

/-- Executes BTA_GROUP_CONFIG. -/
def execBtaGroupConfig (rq : Request) (s : State) : Host.Outcome State Fault Refusal := runCommand opBtaGroupConfig rq s

/-! BTA_LEG_CONFIG, BTA_TRIP_CONFIG, BTA_TRIP_CLEAR. -/

/-- BTA_LEG_CONFIG. -/
def opBtaLegConfig : Op :=
  { opcode := 0x0501, target := below 96, toe := false, states := configStates
    schema := [fixed 0x0100 4, fixed 0x0101 1, fixed 0x0102 1]
    values := fun rq s =>
      let r := num rq 0x0100 0 2
      let f := num rq 0x0100 2 2
      let p := dutyPeriod s.bta.grp[legGroup (tgt 96 rq)]
      firstDeny
        [(decide (1023 < r) || decide (1023 < f) || decide (p < 4 * (r + f)), badValue rq 0x0100),
         (decide (2 < num rq 0x0101 0 1), badValue rq 0x0101), (decide (1 < num rq 0x0102 0 1), badValue rq 0x0102)]
    effect := fun rq s =>
      let n := tgt 96 rq
      if !groupQuiet (legGroup n) s then .deny conflict
      else
        let s1 := onLeg n (fun l => { l with
          dtR := num rq 0x0100 0 2, dtF := num rq 0x0100 2 2, tripState := num rq 0x0101 0 1, compat := num rq 0x0102 0 1 == 1 }) s
        .done (if s.bta.leg[n].tripState = num rq 0x0101 0 1 then s1 else refreshLeg n s1) [] }

/-- Executes BTA_LEG_CONFIG. -/
def execBtaLegConfig (rq : Request) (s : State) : Host.Outcome State Fault Refusal := runCommand opBtaLegConfig rq s

/-- OC_INPUTS of a request. -/
def ocInputsOf (rq : Request) : List Nat := (List.range 3).map fun k => num rq 0x0101 k 1

/-- BTA_TRIP_CONFIG: a source active already counts as accepted now (log 49). -/
def opBtaTripConfig : Op :=
  { opcode := 0x0502, target := below 32, toe := false, states := configStates
    schema := [fixed 0x0100 8, optional 0x0101 3, optional 0x0102 2]
    values := fun rq _ => firstDeny
      [(decide (2 < num rq 0x0100 4 1) || num rq 0x0100 5 3 != 0, badValue rq 0x0100),
       (has rq 0x0101 && (ocInputsOf rq).any (fun n => n != 0xFF && decide (96 ≤ n)), badValue rq 0x0101),
       (has rq 0x0102 && ((num rq 0x0102 0 1 != 0xFF && decide (7 < num rq 0x0102 0 1)) || decide (3 < num rq 0x0102 1 1)), badValue rq 0x0102)]
    effect := fun rq s =>
      let g := tgt 32 rq
      let bound := (List.finRange 64).any fun (i : Fin 64) => (ocInputsOf rq).any fun n => s.axis[i].bind.inputs.contains n
      if !groupQuiet g s then .deny conflict
      else if has rq 0x0101 ∧ s.bta.grp[g].occupied then .deny conflict
      else if has rq 0x0101 ∧ bound then .deny (deny .resource)
      else
        .done (tripOpen g (onGrp g (fun x => { x with
          extMask := BitVec.ofNat 16 (num rq 0x0100 0 2), cycMask := BitVec.ofNat 16 (num rq 0x0100 2 2), ocKind := num rq 0x0100 4 1,
          ocInputs := if has rq 0x0101 then ocInputsOf rq else x.ocInputs,
          blk := if !has rq 0x0102 then x.blk else if num rq 0x0102 0 1 = 0xFF then none else some (num rq 0x0102 0 1),
          blkMask := if has rq 0x0102 then BitVec.ofNat 2 (num rq 0x0102 1 1) else x.blkMask }) s)) [] }

/-- Executes BTA_TRIP_CONFIG. -/
def execBtaTripConfig (rq : Request) (s : State) : Host.Outcome State Fault Refusal := runCommand opBtaTripConfig rq s

/-- A group is held by a latched trip or STO. -/
def groupHeld (g : Fin 32) (s : State) : Bool := s.bta.grp[g].held || s.bta.grp[g].bySto

/-- BTA_TRIP_CLEAR (R271): all the held groups it names, or none. -/
def opBtaTripClear : Op :=
  { opcode := 0x0503, target := fun n => below 32 n || device n, toe := true, states := afterStart, schema := []
    effect := fun rq s =>
      let all := (List.finRange 32).filter fun (g : Fin 32) => (rq.target == 0xFFFF || g.val == rq.target.toNat) && groupHeld g s
      match all.find? fun g => stillActive g s != 0 with
      | some g =>
        let d := faultActive 0x0108
        .deny ⟨d.status, d.tlvs ++ [(0x0100, be 4 (stillActive g s))]⟩
      | none => .done (all.foldl (fun s g => clearGroup g s) s) [] }

/-- Executes BTA_TRIP_CLEAR. -/
def execBtaTripClear (rq : Request) (s : State) : Host.Outcome State Fault Refusal := runCommand opBtaTripClear rq s

/-! Blanking, trip inputs, current inputs. -/

/-- For every group, what is active and not blanked counts as accepted now. -/
def tripAll (s : State) : State := (List.finRange 32).foldl (fun s (g : Fin 32) => tripOpen g s) s

/-- BTA_BLANK_CONFIG. -/
def opBtaBlankConfig : Op :=
  { opcode := 0x0504, target := below 8, toe := false, states := configStates, schema := [fixed 0x0100 12]
    values := fun rq s =>
      let p := dutyPeriod s.bta.grp[Fin.ofNat 32 (num rq 0x0100 0 1)]
      firstDeny
        [(decide (31 < num rq 0x0100 0 1) || num rq 0x0100 1 3 != 0 || decide (p ≤ num rq 0x0100 4 4) || decide (p ≤ num rq 0x0100 8 4),
          badValue rq 0x0100)]
    effect := fun rq s =>
      let b : Blank := { group := some (num rq 0x0100 0 1), start := num rq 0x0100 4 4, stop := num rq 0x0100 8 4 }
      .done (tripAll (s.onBta fun x => { x with blank := upd x.blank (tgt 8 rq) fun _ => b })) [] }

/-- Executes BTA_BLANK_CONFIG. -/
def execBtaBlankConfig (rq : Request) (s : State) : Host.Outcome State Fault Refusal := runCommand opBtaBlankConfig rq s

/-- BTA_TRIP_INPUT_CONFIG: the accepted level stands, so a new polarity turns its activity round. -/
def opBtaTripInputConfig : Op :=
  { opcode := 0x0505, target := below 16, toe := false, states := [.commissioning], schema := [fixed 0x0100 2]
    values := fun rq _ => firstDeny [(decide (1 < num rq 0x0100 0 1) || decide (63 < num rq 0x0100 1 1), badValue rq 0x0100)]
    effect := fun rq s =>
      let high := num rq 0x0100 0 1 == 1
      .done (tripAll (s.onBta fun b => { b with trip := upd b.trip (tgt 16 rq) fun t =>
        { activeHigh := high, filter := num rq 0x0100 1 1, active := t.active != (t.activeHigh != high) } })) [] }

/-- Executes BTA_TRIP_INPUT_CONFIG. -/
def execBtaTripInputConfig (rq : Request) (s : State) : Host.Outcome State Fault Refusal := runCommand opBtaTripInputConfig rq s

/-- BTA_SDC_CONFIG. -/
def opBtaSdcConfig : Op :=
  { opcode := 0x0506, target := below 12, toe := false, states := [.commissioning], schema := [fixed 0x0100 4]
    values := fun rq _ => firstDeny
      [(decide (num rq 0x0100 0 2 < 20) || decide (250 < num rq 0x0100 0 2) || decide (31 < num rq 0x0100 2 1) || decide (2 < num rq 0x0100 3 1),
        badValue rq 0x0100)]
    effect := fun rq s =>
      let c : Sdc := { div := num rq 0x0100 0 2, capture := num rq 0x0100 2 1, enable := num rq 0x0100 3 1 }
      .done (s.onBta fun b => { b with sdc := upd b.sdc (tgt 12 rq) fun _ => c }) [] }

/-- Executes BTA_SDC_CONFIG. -/
def execBtaSdcConfig (rq : Request) (s : State) : Host.Outcome State Fault Refusal := runCommand opBtaSdcConfig rq s

/-- BTA_SDI_CONFIG. -/
def opBtaSdiConfig : Op :=
  { opcode := 0x0507, target := below 96, toe := false, states := [.commissioning, .operational]
    schema := [fixed 0x0100 4, fixed 0x0101 8, optional 0x0102 1]
    values := fun rq _ => firstDeny
      [(!([16, 32, 64, 128, 256].contains (num rq 0x0100 0 2)) || !([4, 8, 16, 32].contains (num rq 0x0100 2 1)) ||
          num rq 0x0100 3 1 == 0 || decide (16 < num rq 0x0100 3 1), badValue rq 0x0100),
       (decide (int rq 0x0101 4 4 ≤ int rq 0x0101 0 4), badValue rq 0x0101), (decide (1 < num rq 0x0102 0 1), badValue rq 0x0102)]
    effect := fun rq s =>
      let n := tgt 96 rq
      let used := (List.finRange 64).any fun (i : Fin 64) => s.axis[i].bind.inputs.contains n.val && s.axis[i].st == .enabled
      if s.sys.dev ≠ .commissioning ∧ used then .deny conflict
      else
        .done (s.onBta fun b => { b with sdi := upd b.sdi n fun x => { x with
          osr := num rq 0x0100 0 2, osrOc := num rq 0x0100 2 1, ocCount := num rq 0x0100 3 1, ocLo := int rq 0x0101 0 4,
          ocHi := int rq 0x0101 4 4, enabled := if has rq 0x0102 then num rq 0x0102 0 1 == 1 else x.enabled } }) [] }

/-- Executes BTA_SDI_CONFIG. -/
def execBtaSdiConfig (rq : Request) (s : State) : Host.Outcome State Fault Refusal := runCommand opBtaSdiConfig rq s

/-! BTA_DUTY_SET, BTA_BANK_LEVEL, BTA_STATUS_READ. -/

/-- BTA_DUTY_SET. -/
def opBtaDutySet : Op :=
  { opcode := 0x0508, target := below 32, toe := true, states := [.operational, .test], schema := [fixed 0x0100 6, optional 0x0101 1]
    values := fun rq _ => firstDeny [(decide (1 < num rq 0x0101 0 1), badValue rq 0x0101)]
    effect := fun rq s =>
      let g := tgt 32 rq
      if s.bta.grp[g].occupied then .deny conflict
      else
        let s1 := ((groupLegs g).zipIdx).foldl (fun s (e : Fin 96 × Nat) => writeDuty e.1 (num rq 0x0100 (2 * e.2) 2) 65535 s) s
        let s2 := touchGroup g s1
        .done (if numD rq 0x0101 0 1 1 = 1 then sealGroup g s2 else s2) [] }

/-- Executes BTA_DUTY_SET. -/
def execBtaDutySet (rq : Request) (s : State) : Host.Outcome State Fault Refusal := runCommand opBtaDutySet rq s

/-- The groups of a bank: BBk drives LEG12k to LEG12k + 11. -/
def bankGroups (k : Fin 8) : List (Fin 32) := (List.finRange 32).filter fun (g : Fin 32) => g.val / 4 == k.val

/-- BTA_BANK_LEVEL: every leg of the bank is off until the level has settled (R276). -/
def opBtaBankLevel : Op :=
  { opcode := 0x0509, target := below 8, toe := false, states := configStates, schema := [fixed 0x0100 1]
    values := fun rq _ => firstDeny [(decide (1 < num rq 0x0100 0 1), badValue rq 0x0100)]
    effect := fun rq s =>
      let k := tgt 8 rq
      if (bankGroups k).any fun g => !groupQuiet g s || (s.bta.grp[g].run && !s.bta.grp[g].occupied) then .deny conflict
      else
        let s1 := s.onBta fun b => { b with bank := upd b.bank k fun x => { x with changing := some (num rq 0x0100 0 1 == 1), since := s.now } }
        .wait ((bankGroups k).foldl (fun s g => refreshGroup g s) s1) k.val [] }

/-- Executes BTA_BANK_LEVEL. -/
def execBtaBankLevel (rq : Request) (s : State) : Host.Outcome State Fault Refusal := runCommand opBtaBankLevel rq s

/-- BTA_STATUS_READ. -/
def opBtaStatusRead : Op :=
  { opcode := 0x050A, target := below 32, toe := false, states := afterStart, schema := []
    effect := fun rq s =>
      let g := tgt 32 rq
      .done s
        [(0x0100, be 4 (grpCtrl g s).toNat), (0x0101, be 4 (grpStatus g s).toNat), (0x0102, be 4 (grpTrip g s).toNat),
         (0x0103, (groupLegs g).flatMap fun n => be 4 (legStatus n s).toNat), (0x0104, be 4 s.bta.grp[g].cycleTrips.toNat)] }

/-- Executes BTA_STATUS_READ. -/
def execBtaStatusRead (rq : Request) (s : State) : Host.Outcome State Fault Refusal := runCommand opBtaStatusRead rq s

/-! Edges of the command signal (R256 to R261). -/

/-- The edge of this direction falls at this tick and has not been issued. -/
def edgeDue (n : Fin 96) (up : Bool) (s : State) : Bool :=
  let g := s.bta.grp[legGroup n]
  let l := s.bta.leg[n]
  g.run && g.boundaryAt.any (fun t => t + g.count == s.now) && !(if up then l.rose else l.fell) &&
    g.count == edgeTick n g.ditherK l (if up then l.cmpa.active else l.cmpb.active)

/-- COMMAND_SIGNAL_EDGE: the counter stands at CMPA (rise) or CMPB (fall); within a period a rise comes before a fall (R256). -/
def execCommandSignalEdge (leg : Fin 96) (rise : Bool) (s : State) : Host.Outcome State Fault Refusal :=
  if !domainsRun s then .next s else
  .next (
    if !edgeDue leg rise s then s
    else if rise then issueEdge leg true s
    else issueEdge leg false (if edgeDue leg true s then issueEdge leg true s else s))

/-! Boundaries (R252 to R267). -/

/-- Edges of the ending period that fall on the boundary: a rise, then a fall (R256); in compatibility mode CMPB = PERIOD is no fall,
the level going on until the new period is known (R258). -/
def boundaryEdges (length : Nat) (n : Fin 96) (s : State) : State :=
  let g := s.bta.grp[legGroup n]
  let l := s.bta.leg[n]
  let late := fun (w : Word) => decide (length ≤ edgeTick n g.ditherK l w) &&
    !(l.compat && decide (64 * g.period.active.toNat ≤ w.toNat))
  let s1 := if late l.cmpa.active && !l.rose then issueEdge n true s else s
  if late l.cmpb.active && !l.fell then issueEdge n false s1 else s1

/-- The one-tick change of the next period of a SYNC group: the deviation from the schedule of whole periods plus PHASE
after each whole second (R253). -/
def syncCorrection (g : BtaGroup) (s : State) : Int :=
  if !(g.sync && s.tb0Sync) then 0
  else
    let ns : Int := 2 ^ 39
    let p : Int := 2 * (g.period.active.toNat : Int) * ns
    let x := ((s.net.tb[(0 : Fin 4)]).val - 2 * (g.phaseRun : Int) * ns) % (max p 1)
    let d := if 2 * x < p then x else x - p
    if 2 * ns < d then -1 else if d < -2 * ns then 1 else 0

/-- New calibrations of a group's legs take effect (R261). -/
def takeCalibration (l : Leg) : Leg :=
  match l.nCalNext with
  | some n => { l with nUse := n, nCalNext := none, fallback := false }
  | none => l

/-- A boundary of a group at this tick; a first one that comes late leaves the counter on its grid. A cycle trip whose source is still
active takes effect again at once (R269). -/
def boundary (g : Fin 32) (s : State) : State :=
  let x := s.bta.grp[g]
  let first := x.startDue.isSome
  let legs := groupLegs g
  let length := ((x.period.active.toNat : Int) + x.lengthen).toNat
  let s1 := if first then s else legs.foldl (fun s n => boundaryEdges length n s) s
  let s2 := if x.sealed then settleUpdate (8 + x.strobe) (transferGroup g s1) else s1
  let late := (s.now - x.startDue.getD s.now) % max 1 (s2.bta.grp[g]).period.active.toNat
  let s3 := onGrp g (fun y => { y with
    count := late, boundaryAt := some (s.now - late), startDue := none, ditherK := y.ditherK + 1, cycle := false, clearing := false, stoClear := false,
    override := if y.release then 0 else y.override, release := false, lengthen := syncCorrection y s }) s2
  let s4 := legs.foldl (fun s n =>
    compatFall n (onLeg n (fun l => { takeCalibration l with rose := false, fell := false }) s)) s3
  let s5 := if first || !x.inService || x.cycle || x.clearing || x.stoClear || x.release then refreshGroup g s4 else s4
  let excess := x.dirty && x.unsealLimit != 0 && !x.overdueRaised && decide (x.unsealLimit < x.unsealCount + 1)
  let s6 := onGrp g (fun y => { y with
    unsealCount := if x.dirty then x.unsealCount + 1 else y.unsealCount, overdueRaised := y.overdueRaised || excess,
    fOverdue := y.fOverdue || excess }) s5
  let s7 := if excess then event 0x0503 g.val [] s6 else s6
  let s8 := if x.release then (groupSlots g s7).foldl (fun s i => overrideReleased i s) s7 else s7
  if x.cycle then actTrips g (openPins g s8 &&& x.cycMask) (if x.ocKind = 1 then openOc g s8 else []) s8 else s8

/-- PERIOD_BOUNDARY: the counter of a running group has returned to 0, or its first boundary has come (R252), once a boundary. -/
def execPeriodBoundary (group : Fin 32) (s : State) : Host.Outcome State Fault Refusal :=
  if !domainsRun s then .next s else
  let g := s.bta.grp[group]
  let due := match g.startDue with
    | some t => decide (t ≤ s.now)
    | none => g.count == 0 && g.boundaryAt != some s.now
  .next (if g.run && due then boundary group s else s)

/-- UPDATE_TAKEOVER: an armed update group's take-over point has passed for what has no boundary left (R111; log 49). Overrides, locks
and gang sets whose planner, loop or leg group runs transfer at its own boundary; a stopped leg group's set waits (R265). -/
def execUpdateTakeover (group : Fin 16) (s : State) : Host.Outcome State Fault Refusal :=
  .next (if s.sys.updPending.getLsbD group then settleUpdate group.val (takeStranded group.val s) else s)

/-! Trips, blanking, calibration, banks. -/

/-- TRIP_INPUT_ACCEPTED: a level of a trip input is accepted; an active one trips the groups it is a source of 3 ticks later (R268). -/
def execTripInputAccepted (input : Fin 16) (level : Bool) (s : State) : Host.Outcome State Fault Refusal :=
  if !tbRuns s then .next s else
  let was := s.bta.trip[input].active
  let s1 := s.onBta fun b => { b with trip := upd b.trip input fun t => { t with active := level == t.activeHigh } }
  .next (if was || !s1.bta.trip[input].active then s1
    else (List.finRange 32).foldl (fun s g => tripSoon g (openPins g s &&& BitVec.ofNat 16 (2 ^ input.val)) [] s) s1)

/-- The overcurrent comparator of an input. -/
def setOc (input : Fin 96) (on : Bool) (s : State) : State :=
  s.onBta fun b => { b with sdi := upd b.sdi input fun x => { x with ocActive := on } }

/-- OVERCURRENT_DETECT: the comparator becomes active and its groups act (R269, R275). -/
def execOvercurrentDetect (input : Fin 96) (s : State) : Host.Outcome State Fault Refusal :=
  if !domainsRun s then .next s else
  .next ((List.finRange 32).foldl (fun s g => actTrips g 0 (openOc g s) s) (setOc input true s))

/-- OVERCURRENT_INACTIVE. -/
def execOvercurrentInactive (input : Fin 96) (s : State) : Host.Outcome State Fault Refusal :=
  if !domainsRun s then .next s else .next (setOc input false s)

/-- A blanking window ends now: the counter stands at END, or the watched group does not run (R270). -/
def windowEnds (b : Blank) (s : State) : Bool :=
  b.group.any fun g => let x := s.bta.grp[Fin.ofNat 32 g]; !blankActive b s && (!x.run || x.count == b.stop)

/-- BLANK_WINDOW_END: sources still active count as accepted at the end tick (R270). -/
def execBlankWindowEnd (timer : Fin 8) (s : State) : Host.Outcome State Fault Refusal :=
  if !domainsRun s then .next s else
  .next (if !windowEnds s.bta.blank[timer] s then s
    else ((List.finRange 32).filter fun (g : Fin 32) => s.bta.grp[g].blk == some timer.val).foldl (fun s g => tripOpen g s) s)

/-- A millisecond has passed since a leg's last calibration, and TB runs (R261). -/
def calibrationDue (n : Fin 96) (s : State) : Bool :=
  domainsRun s && (s.bta.leg[n]).calAt.all fun t => decide (t + 500000 ≤ s.now)

/-- DELAY_LINE_CALIBRATION: a good one takes effect at the leg's next boundary, at once while its group does not run; a bad
one starts the 10 ms for which the last good one is kept (R261). -/
def execDelayLineCalibration (leg : Fin 12) (nCal : Nat) (s : State) : Host.Outcome State Fault Refusal :=
  let n : Fin 96 := Fin.ofNat 96 leg.val
  .next (
    if !calibrationDue n s then s
    else if 64 ≤ nCal ∧ nCal ≤ 96 then
      let s1 := onLeg n (fun l => { l with nCal := nCal, nCalNext := some nCal, calBad := none, calAt := some s.now }) s
      if s.bta.grp[legGroup n].run then s1 else onLeg n takeCalibration s1
    else onLeg n (fun l => { l with calBad := some (l.calBad.getD s.now), calAt := some s.now }) s)

/-- CAL_FALLBACK: 10 ms without a good calibration. -/
def execCalFallback (leg : Fin 12) (s : State) : Host.Outcome State Fault Refusal :=
  let n : Fin 96 := Fin.ofNat 96 leg.val
  .next (match s.bta.leg[n].calBad with
    | some t =>
      if t + 5000000 ≤ s.now ∧ !s.bta.leg[n].fallback then
        event 0x0504 n.val [] (onLeg n (fun l => { l with fallback := true, fCalFail := true }) s)
      else s
    | none => s)

/-- A bank's level has settled: its legs are free and BTA_BANK_LEVEL is answered (R276). -/
def settleBank (bank : Fin 8) (s : State) : State :=
  match s.bta.bank[bank].changing with
  | some h =>
    let s1 := s.onBta fun b => { b with bank := upd b.bank bank fun _ => { high := h } }
    finish (fun e => e.opcode == 0x0509 && e.key == bank.val) .done [] ((bankGroups bank).foldl (fun s g => refreshGroup g s) s1)
  | none => s

/-- BANK_LEVEL_SETTLED. -/
def execBankLevelSettled (bank : Fin 8) (s : State) : Host.Outcome State Fault Refusal := .next (settleBank bank s)

/-- A level settles within 200 µs (R276). -/
def tickBanks (s : State) : State :=
  ((List.finRange 8).filter fun k => (s.bta.bank[k]).changing.isSome && decide ((s.bta.bank[k]).since + 100000 ≤ s.now)).foldl
    (fun s k => settleBank k s) s

/-! Register writes (R262 to R265, R271). -/

/-- A write of Gardener or the host to a group a bound slot occupies is ignored (R262). -/
def ownedWrite (g : Fin 32) (s : State) : State := event 0x0502 g.val [] (onGrp g (fun x => { x with fOwned := true }) s)

/-- GRP_PERIOD. -/
def writeGrpPeriod (c : Fin 6) (g : Fin 32) (w : Word) (s : State) : State :=
  if c ≠ 0 ∧ s.bta.grp[g].occupied then ownedWrite g s
  else touchGroup g (onGrp g (fun x => { x with period := x.period.write (BitVec.ofNat 32 (w.toNat % 2 ^ 20)), periodWritten := true }) s)

/-- GRP_SEAL. -/
def writeGrpSeal (c : Fin 6) (g : Fin 32) (w : Word) (s : State) : State :=
  if c ≠ 0 ∧ s.bta.grp[g].occupied then ownedWrite g s else if w.getLsbD 0 then sealGroup g s else s

/-- The last leg of its group. -/
def lastLeg (n : Fin 96) : Bool := n.val % 3 == 2

/-- LEG_CMPA, or LEG_CMPB, which on a group's last leg seals. -/
def writeLegCmp (c : Fin 6) (n : Fin 96) (b : Bool) (w : Word) (s : State) : State :=
  let g := legGroup n
  if c ≠ 0 ∧ s.bta.grp[g].occupied then ownedWrite g s
  else
    let v := cmpBits n w
    let s1 := touchGroup g (onLeg n (fun l => if b then { l with cmpb := l.cmpb.write v } else { l with cmpa := l.cmpa.write v }) s)
    if b && lastLeg n then sealGroup g s1 else s1

/-- LEG_DUTY (R259). -/
def writeLegDuty (c : Fin 6) (n : Fin 96) (w : Word) (s : State) : State :=
  let g := legGroup n
  if c ≠ 0 ∧ s.bta.grp[g].occupied then ownedWrite g s
  else
    let s1 := touchGroup g (writeDuty n (w.toNat % 65536) 65535 s)
    if lastLeg n then sealGroup g s1 else s1

/-- GRP_TRIP: REFUSED is cleared by 1, CLEAR asks for a clear (R271). -/
def writeGrpTrip (g : Fin 32) (w : Word) (s : State) : State :=
  let s1 := if w.getLsbD 13 then onGrp g (fun x => { x with fRefused := false }) s else s
  if !w.getLsbD 12 || !groupHeld g s then s1
  else if stillActive g s = 0 then clearGroup g s1
  else event 0x0506 g.val [] (onGrp g (fun x => { x with fRefused := true }) s1)

end Sys2Proof.Machine
end

