-- ==== Sys2Proof/Machine/IntegCore.lean ====
section
/-! DEFINITION.
Protected memories: poisoned blocks and their counts (R469 to R472, 21). Blocks are numbered by device address divided by 32. -/

namespace Sys2Proof.Machine

/-- Device address of a byte of a lane's data memory (20). -/
def laneDataAddr (l : Fin 8) (o : Nat) : Nat := 0x4A100000 + l.val * 0x40000 + o / 0x8000 * 0x10000 + o % 0x8000

/-- Device address of a word of a lane's program (20). -/
def laneProgAddr (l : Fin 8) (w : Nat) : Nat := 0x4A100000 + l.val * 0x40000 + 0x30000 + 4 * w

/-- The block of an address is poisoned (R470). -/
def poisonedAt (addr : Nat) (s : State) : Bool := s.integ.poison.contains (addr / 32)

/-- Blocks all of whose bytes have been written in one burst are no longer poisoned (R470). -/
def clearPoison (base len : Nat) (s : State) : State :=
  s.onInteg fun g => { g with poison := g.poison.filter fun b => decide (b * 32 < base) || decide (base + len ≤ b * 32) }

/-- Device address of a region record (R215, 09). -/
def regionAddr (slot loop region : Nat) : Nat := 0x42100000 + slot * 0x10000 + loop * 0x2000 + region * 0x400

/-- Which instance of family 12 counts an address: banks 0 to 5, else lane and coefficient memories. -/
def memoryOf (addr : Nat) : Fin 8 := if addr < 0x1800000 then Fin.ofNat 8 (addr / 0x400000) else 6

/-- Change an instance of family 12. -/
def onMemTally (m : Fin 8) (f : IntegrityTally → IntegrityTally) (s : State) : State :=
  s.onInteg fun g => { g with tally := upd g.tally m f }

/-- An uncorrectable read is counted, and INT_STATUS and INT_ERR_ADDR show it. -/
def countPoison (addr : Nat) (s : State) : State :=
  let m := memoryOf addr
  let s1 := onMemTally m (fun t => { t with uncorrectable := bump t.uncorrectable 1 }) s
  s1.onInteg fun g => { g with
    bankBad := if m.val < 6 then g.bankBad ||| BitVec.ofNat 6 (2 ^ m.val) else g.bankBad
    laneBad := g.laneBad || m.val == 6, errAddr := BitVec.ofNat 32 (addr / 32 * 32) }

/-- A record-only POISON_READ (Table 21.5). -/
def recordPoison (index : Nat) (addr : Nat) (s : State) : State :=
  recordFault 0x0022 4 index (addr / 32 * 32) false (countPoison addr s)

end Sys2Proof.Machine
end

