-- ==== Sys2Proof/Machine/LaneCore.lean ====
section
/-! DEFINITION.
The Thread Dispatcher: tokens, dependence counters and queues (R435 to R445, 20). -/

namespace Sys2Proof.Machine

/-- Change a thread. -/
def onThr (t : Fin 512) (f : Thread → Thread) (s : State) : State := s.onLanes fun n => { n with thr := upd n.thr t f }

/-- Change a lane. -/
def onLane (l : Fin 8) (f : Lane → Lane) (s : State) : State := s.onLanes fun n => { n with lane := upd n.lane l f }

/-- Code of a thread state (Table 20.1). -/
def ThreadState.code : ThreadState → Nat
  | .disabled => 0
  | .waiting => 1
  | .ready => 2
  | .running => 3
  | .preempted => 4
  | .faulted => 5

/-- Tokens a thread holds (R440). -/
def Thread.held (t : Thread) : Nat := t.early + (if t.st = .waiting then t.reload - t.cnt else 0)

/-- One token (R438): true when it was dropped for want of room. -/
def Thread.token (now : Nat) (t : Thread) : Thread × Bool :=
  let u := { t with tokIn := bump t.tokIn 1 }
  match t.st with
  | .waiting =>
    if t.cnt ≤ 1 then ({ u with cnt := 0, st := .ready, readyAt := now, tokUsed := bump t.tokUsed t.reload }, false)
    else ({ u with cnt := t.cnt - 1 }, false)
  | .disabled => ({ u with tokDropped := bump t.tokDropped 1 }, false)
  | .faulted => ({ u with tokDropped := bump t.tokDropped 1 }, false)
  | _ =>
    if t.early < 65535 then ({ u with early := t.early + 1 }, false)
    else ({ u with tokDropped := bump t.tokDropped 1, fOverrun := true }, true)

/-- Several tokens: the thread, and how many were dropped for want of room. -/
def Thread.tokens (now : Nat) : Nat → Thread → Thread × Nat
  | 0, t => (t, 0)
  | n + 1, t =>
    let a := t.token now
    let b := a.1.tokens now n
    (b.1, b.2 + bit a.2)

/-- Join a queue at the tail of a level, before those of that level with `later` (R441). -/
def joinTail (level : Nat → Nat) (later : Nat → Bool) (t : Nat) (q : List Nat) : List Nat :=
  let ahead := fun (u : Nat) => decide (level t < level u) || (level u == level t && !later u)
  q.takeWhile ahead ++ t :: q.dropWhile ahead

/-- Join a queue at the head of a level (R441). -/
def joinHead (level : Nat → Nat) (t : Nat) (q : List Nat) : List Nat :=
  (q.takeWhile fun u => decide (level t < level u)) ++ t :: q.dropWhile fun u => decide (level t < level u)

/-- Priority level of a thread. -/
def levelOf (s : State) (t : Nat) : Nat := s.lanes.thr[Fin.ofNat 512 t].level

/-- A READY thread joins its executor's queue; those that become READY at one instant stand in slot order (R439). -/
def enqueueThread (t : Fin 512) (s : State) : State :=
  let later := fun (u : Nat) =>
    let x := s.lanes.thr[Fin.ofNat 512 u]
    x.st == .ready && x.readyAt == s.sysTick && decide (t.val < u)
  if t.val < 256 then s.onLanes fun n => { n with kernelQueue := joinTail (levelOf s) later t.val n.kernelQueue }
  else onLane (Fin.ofNat 8 s.lanes.thr[t].lane) (fun l => { l with queue := joinTail (levelOf s) later t.val l.queue }) s

/-- A thread gets n tokens: events for those dropped, and the queue when it becomes READY. -/
def deliver (t : Fin 512) (n : Nat) (s : State) : State :=
  let old := s.lanes.thr[t]
  let r := old.tokens s.sysTick n
  let s1 := onThr t (fun _ => r.1) s
  let s2 := (List.range r.2).foldl (fun s _ => event 0x0E02 t.val [] s) s1
  if old.st = .waiting ∧ r.1.st = .ready then enqueueThread t s2 else s2

/-- How often a thread lists a source. -/
def Thread.lists (t : Thread) (code index sub : Nat) : Nat :=
  (t.sources.filter fun x => x.code == code && x.index == index && x.sub == sub).length

/-- An occurrence of a source delivers one token for each time a defined thread lists it, in slot order (R437, R439). -/
def occurs (code index sub : Nat) (s : State) : State :=
  (List.finRange 512).foldl (fun s (t : Fin 512) =>
    let n := s.lanes.thr[t].lists code index sub
    if n = 0 then s else deliver t n s) s

/-- What a thread holds is dropped when its waiting ends without a run (R440). -/
def Thread.dropHeld (t : Thread) : Thread :=
  { t with tokDropped := bump t.tokDropped t.held, early := 0, cnt := t.reload }

/-- Take a thread off every queue and executor. -/
def removeThread (t : Fin 512) (s : State) : State :=
  s.onLanes fun n => { n with
    kernelRun := n.kernelRun.filter (· != t.val), kernelQueue := n.kernelQueue.filter (· != t.val)
    lane := updAll n.lane fun _ l => { l with
      queue := l.queue.filter (· != t.val), thread := if l.thread = some t.val then none else l.thread } }

/-- A thread's wait ends without a run: disabled or faulted (R440). -/
def stopThread (t : Fin 512) (st : ThreadState) (s : State) : State :=
  onThr t (fun x => { x.dropHeld with st := st, enabled := false, disableAtEnd := false, saved := none }) (removeThread t s)

/-- Answer a THREAD_ENABLE 0 that waits for a thread to end (R463). -/
def answerDisable (t : Fin 512) (s : State) : State := finish (fun e => e.opcode == 0x0E02 && e.key == t.val) .done [] s

/-- A thread aborts: FAULTED, THREAD_FAULT with its cause, no end token (R445). -/
def abortThread (t : Fin 512) (cause : Nat) (s : State) : State :=
  let s1 := stopThread t .faulted s
  let s2 := onThr t (fun x => { x with cause := cause, fFault := true }) s1
  answerDisable t (event 0x0E01 t.val (be 1 cause) s2)

/-- The reload a thread's end runs (R438). -/
def Thread.reloaded (now : Nat) (t : Thread) : Thread :=
  let n := min t.early t.reload
  let u := { t with early := t.early - n, cnt := t.reload - n, saved := none }
  if n = t.reload then { u with st := .ready, readyAt := now, tokUsed := bump t.tokUsed t.reload } else { u with st := .waiting }

/-- A thread ends: its own reload first, then its end token for every listener; a disable that waited takes effect (R438, R439,
R445, R463). -/
def endThread (t : Fin 512) (s : State) : State :=
  let s1 := onThr t (Thread.reloaded s.sysTick) (removeThread t s)
  let s2 := if s1.lanes.thr[t].st = .ready then enqueueThread t s1 else s1
  let s3 := occurs 1 t.val 0 s2
  if s3.lanes.thr[t].disableAtEnd then answerDisable t (stopThread t .disabled s3) else s3

end Sys2Proof.Machine
end

