-- ==== Sys2Proof/Machine/FioCore.lean ====
section
/-! DEFINITION.
Field outputs: commands, fail states and precedence (R376, R377, Table 16.3, 16). -/

namespace Sys2Proof.Machine

/-- Change a group. -/
def onFioGroup (g : Fin 4) (f : FioGroup → FioGroup) (s : State) : State := s.onFio fun b => { b with grp := upd b.grp g f }

/-- The state an output takes: the highest-ranked condition of Table 16.3. -/
def FioOut.level (powered lost : Bool) (o : FioOut) : Bool :=
  if !powered || lost then false
  else
    match o.fail with
    | some v => v
    | none => if o.latched || o.hot then false else o.cmd

/-- Every output of a group takes its state. -/
def FioGroup.settle (g : FioGroup) : FioGroup :=
  { g with output := updAll g.output fun _ o => { o with state := o.level g.powered g.lost } }

/-- Put a group's outputs into their fail states: off, or the state they have (R377). -/
def FioGroup.failStates (g : FioGroup) : FioGroup :=
  ({ g with output := updAll g.output fun _ o => { o with fail := some (o.failHold && o.state) } }).settle

/-- A new command for the outputs of a mask; it ends their fail states when it reaches them, over a failed link with the next
refresh (R376, R377). -/
def FioGroup.command (mask values : Nat) (g : FioGroup) : FioGroup :=
  ({ g with output := updAll g.output fun j o =>
    if hasBit mask j.val then { o with cmd := hasBit values j.val, fail := if g.linkFailed then o.fail else none, waits := g.linkFailed }
    else o }).settle

/-- The shortest time, in µs, in which a local timer counts a duration (R19). -/
def localLeast (us : Nat) : Nat := us * 95 / 100 - 1

/-- A duration stated for a field die may have run since an AON microsecond (R19, R367). -/
def localDue (since us : Nat) (s : State) : Bool := decide (since + localLeast us ≤ s.power.aonUs)

/-- A switch state that has just changed began now. -/
def FioOut.mark (us : Nat) (o : FioOut) : FioOut := if o.was = o.state then o else { o with was := o.state, since := us }

/-- Changes of the switch states are timed. -/
def tickFio (s : State) : State :=
  if s.fio.grp.toList.all fun g => g.output.toList.all fun o => o.was == o.state then s
  else s.onFio fun b => { b with grp := updAll b.grp fun _ g => { g with output := updAll g.output fun _ o => o.mark s.power.aonUs } }

/-- An enabled map writes the group (FIO_STATUS.MAPPED). -/
def fioMapped (g : Fin 4) (s : State) : Bool :=
  (List.finRange 32).any fun (k : Fin 32) => decide (k.val < 16) && s.net.map[k].enabled &&
    s.net.map[k].entries.any fun e => e.qty == 0x06 && e.tgt == g.val

/-- The field input word of a group (quantity 0x87): bits 7:0. -/
def fioInputs (g : Fin 4) (s : State) : Nat :=
  let x := s.fio.grp[g]
  if !x.powered then 0
  else ((List.finRange 8).map fun (j : Fin 8) => bit (x.input[j].level && !x.input[j].opened) * 2 ^ j.val).sum

end Sys2Proof.Machine
end

