-- ==== Sys2Proof/Machine/Variables.lean ====
section
/-! DEFINITION.
The variables of Table 19.1 (19), which acquisition channels and lane taps read (R414, R448, 19 and 20). -/

namespace Sys2Proof.Machine

/-- Number of indices of a variable code; none for codes that are no variable. -/
def variableCount (code : Nat) : Nat :=
  if [1, 2, 3, 4, 5, 6, 7, 8, 12, 13].contains code then 64
  else if code = 9 then 96
  else if code = 10 then 8
  else if code = 11 then 32
  else if code = 14 then 4
  else 0

/-- The variables of 64 bits. -/
def wideVariable (code : Nat) : Bool := [1, 2, 3, 4, 11, 12].contains code

/-- A variable as it stands; the voltages are those released last (R416). -/
def variableOf (code index : Nat) (s : State) : Int :=
  let i : Fin 64 := Fin.ofNat 64 index
  match code with
  | 1 => s.axis[i].posSp
  | 2 => s.axis[i].posAct
  | 3 => s.axis[i].velAct
  | 4 => s.loop.slot[i].fe
  | 5 => s.loop.slot[i].iD
  | 6 => s.loop.slot[i].iQ
  | 7 => s.loop.slot[i].relD
  | 8 => s.loop.slot[i].relQ
  | 9 => s.bta.sdi[Fin.ofNat 96 index].value.toInt
  | 10 => s.loop.ain[Fin.ofNat 8 index].code
  | 11 => s.ports.port[Fin.ofNat 32 index].counts * 65536
  | 12 => s.gear.link[i].slave
  | 13 => (portRead i s).toInt
  | 14 => (fioInputs (Fin.ofNat 4 index) s : Nat)
  | _ => 0

end Sys2Proof.Machine
end

