-- ==== Sys2Proof/Machine/LaneCpu.lean ====
section
/-! DEFINITION.
A Cooper lane: its instruction words, its memory, accumulators and pointers, and what issuing one instruction does
(R443 to R456, 20). An instruction aborts its thread by naming a cause and, for cause 5, the address concerned. -/

namespace Sys2Proof.Machine

/-! Fields of an instruction word (Table 20.4). -/

/-- Bits of an instruction word. -/
def wordBits (w : Word) (lo width : Nat) : Nat := w.toNat / 2 ^ lo % 2 ^ width

/-- OP. -/
def opOf (w : Word) : Nat := wordBits w 26 6

/-- Register number in bits 25:21. -/
def rd (w : Word) : Fin 32 := Fin.ofNat 32 (wordBits w 21 5)

/-- Register number in bits 20:16. -/
def ra (w : Word) : Fin 32 := Fin.ofNat 32 (wordBits w 16 5)

/-- Register number in bits 15:11. -/
def rb (w : Word) : Fin 32 := Fin.ofNat 32 (wordBits w 11 5)

/-- imm16, unsigned. -/
def immU (w : Word) : Nat := wordBits w 0 16

/-- imm16, signed. -/
def immS (w : Word) : Int := signed 16 (immU w)

/-- Accumulator in bits 25:24. -/
def accOf (w : Word) : Fin 4 := Fin.ofNat 4 (wordBits w 24 2)

/-- Accumulator in bits 23:22. -/
def acc2Of (w : Word) : Fin 4 := Fin.ofNat 4 (wordBits w 22 2)

/-- sh, signed. -/
def shOf (w : Word) : Int := signed 8 (wordBits w 0 8)

/-- The data register an instruction writes at once; a load's is written after its delay slot. -/
def destOf (w : Word) : Option (Fin 32) :=
  let o := opOf w
  if decide (1 ≤ o) && decide (o ≤ 0x15) || o == 0x3A then some (rd w)
  else if [0x1B, 0x27, 0x29].contains o then some (ra w)
  else if o = 0x35 then some 31
  else none

/-! Registers. -/

/-- Write a data register. -/
def LaneRegs.put (r : LaneRegs) (i : Fin 32) (v : Word) : LaneRegs := { r with d := upd r.d i fun _ => v }

/-- Signed value of a data register. -/
def LaneRegs.sgn (r : LaneRegs) (i : Fin 32) : Int := (r.d[i]).toInt

/-- A 32-bit result with saturation: QS (Table 20.5). -/
def LaneRegs.putSat (r : LaneRegs) (i : Fin 32) (v : Int) : LaneRegs :=
  let c := clampInt (-2147483648) 2147483647 v
  let q := r.put i (BitVec.ofInt 32 c)
  { q with qs := r.qs || c != v }

/-- An exact accumulator result (R452): kept modulo 2^72, or clamped in SAT mode; GO is set outside the range. -/
def LaneRegs.putAcc (r : LaneRegs) (a : Fin 4) (v : Int) : LaneRegs :=
  let c := clampInt (-2361183241434822606848) 2361183241434822606847 v
  { r with acc := upd r.acc a fun _ => BitVec.ofInt 72 (if r.sat then c else v), go := upd r.go a fun g => g || c != v }

/-- Arithmetic shift; positive shifts left. -/
def shiftInt (v sh : Int) : Int := if 0 ≤ sh then v * 2 ^ sh.toNat else v.fdiv (2 ^ (-sh).toNat)

/-- Leading bits equal to bit 71, bit 71 included: `n` bits remain to be looked at. -/
def leadingSame (a : BitVec 72) : Nat → Nat
  | 0 => 0
  | n + 1 => if a.getLsbD n == a.getLsbD 71 then leadingSame a n + 1 else 0

/-- A pointer's post-update (R454). -/
def LaneRegs.step (r : LaneRegs) (i : Fin 8) (by0 : Int) : LaneRegs :=
  let x : Int := (r.x[i].toNat : Int) + by0
  let b : Int := r.base[i].toNat
  let l : Int := r.len[i].toNat
  { r with x := upd r.x i fun _ => BitVec.ofInt 32 (if l = 0 then x else b + (x - b) % l) }

/-! Memory (Table 20.3, R447 to R449). -/

/-- A value of 64 bits as its low and high words. -/
def lowWord (v : Int) : Word := BitVec.ofInt 32 v
/-- The high word. -/
def highWord (v : Int) : Word := BitVec.ofInt 32 (v.fdiv 4294967296)

/-- Change a lane's registers. -/
def onLaneRegs (l : Fin 8) (f : LaneRegs → LaneRegs) (s : State) : State := onLane l (fun x => { x with regs := f x.regs }) s

/-- A read of a value of two words: its low word latches the high word, which a later read returns (R448, R108). -/
def readTwo (l : Fin 8) (addr : Nat) (v : Int) (s : State) : Word × State :=
  if addr % 8 = 0 then (lowWord v, onLaneRegs l (fun r => { r with tapLatch := some (addr + 4, highWord v) }) s)
  else
    match s.lanes.lane[l].regs.tapLatch with
    | some (a, h) => if a = addr then (h, onLaneRegs l (fun r => { r with tapLatch := none }) s) else (highWord v, s)
    | none => (highWord v, s)

/-- A lane's read of a word; a port that was not granted is a memory fault (R447). -/
def laneRead (l : Fin 8) (t : Nat) (addr : Nat) (s : State) : Except (Nat × Nat) (Word × State) :=
  let x := s.lanes.lane[l]
  if addr % 4 ≠ 0 then .error (2, 0)
  else if addr < 0x18000 then
    if poisonedAt (laneDataAddr l addr) s then .error (5, laneDataAddr l addr) else .ok (wordAt 0 addr x.data, s)
  else if 0x20000 ≤ addr ∧ addr < 0x20200 then
    match x.taps[(addr - 0x20000) / 8]? with
    | some (c, i) => .ok (readTwo l addr (variableOf c i s) s)
    | none => .error (2, 0)
  else if 0x20400 ≤ addr ∧ addr < 0x20500 then
    let p : Fin 64 := Fin.ofNat 64 ((addr - 0x20400) / 4)
    if x.grantP.getLsbD p.val then .ok (s.lanes.port[p], s) else .error (2, 0)
  else if 0x20800 ≤ addr ∧ addr < 0x20A00 then
    let i : Fin 64 := Fin.ofNat 64 ((addr - 0x20800) / 8)
    if x.grantS.getLsbD i.val then .ok (readTwo l addr (s.lanes.spt[i]).value.toInt s) else .error (2, 0)
  else if addr = 0x20C00 then .ok (BitVec.ofNat 32 l.val, s)
  else if addr = 0x20C04 then .ok (BitVec.ofNat 32 t, s)
  else if addr = 0x20C08 ∨ addr = 0x20C0C then .ok (readTwo l addr s.sysTick s)
  else if addr = 0x20C10 ∨ addr = 0x20C14 then .ok (readTwo l addr (s.lanes.thr[Fin.ofNat 512 t].readyAt : Nat) s)
  else .error (2, 0)

/-- A commit at a tick: a consumer's read at that same tick still sees what stood before it (R118, R449). -/
def SpPort.commit (now : Nat) (v : BitVec 64) (p : SpPort) : SpPort :=
  if p.commitAt = some now then { p with value := v, committed := true }
  else { p with value := v, committed := true, commitAt := some now, before := p.value, wasCommitted := p.committed }

/-- A write of a general port. -/
def putPort (p : Fin 64) (w : Word) (s : State) : State :=
  s.onLanes fun n => { n with
    port := upd n.port p fun _ => w, portAt := upd n.portAt p fun _ => some s.sysTick
    portBefore := if n.portAt[p] = some s.sysTick then n.portBefore else upd n.portBefore p fun _ => n.port[p] }

/-- A write of a set-point port (R449): the low word is staged, the high word commits both. A committed value whose bits 63 and 62
differ is kept as it is written, and SPT_HI shows it so (DESIGN CHOICE, log entry 49: R7 and R449 state no outcome). -/
def writeSetPoint (l : Fin 8) (i : Fin 64) (high : Bool) (w : Word) (s : State) : Except (Nat × Nat) State :=
  let r := s.lanes.lane[l].regs
  if !high then .ok (onLaneRegs l (fun r => { r with staged := putKey i.val w r.staged }) s)
  else
    match getKey i.val r.staged with
    | none => .error (4, 0)
    | some low =>
      let s1 := onLaneRegs l (fun r => { r with staged := r.staged.filter fun e => e.1 != i.val }) s
      .ok (s1.onLanes fun n => { n with spt := upd n.spt i (SpPort.commit s.sysTick (w ++ low)) })

/-- A lane's write of a word. A write to a poisoned block is dropped and counted (R470). -/
def laneWrite (l : Fin 8) (addr : Nat) (w : Word) (s : State) : Except (Nat × Nat) State :=
  let x := s.lanes.lane[l]
  if addr % 4 ≠ 0 then .error (2, 0)
  else if addr < 0x18000 then
    if poisonedAt (laneDataAddr l addr) s then .ok (countPoison (laneDataAddr l addr) s)
    else .ok (onLane l (fun y => { y with data := wordPut 0 addr w y.data }) s)
  else if 0x20400 ≤ addr ∧ addr < 0x20500 then
    let p : Fin 64 := Fin.ofNat 64 ((addr - 0x20400) / 4)
    if x.grantP.getLsbD p.val then .ok (putPort p w s) else .error (2, 0)
  else if 0x20800 ≤ addr ∧ addr < 0x20A00 then
    let i : Fin 64 := Fin.ofNat 64 ((addr - 0x20800) / 8)
    if x.grantS.getLsbD i.val then writeSetPoint l i (addr % 8 == 4) w s else .error (2, 0)
  else .error (2, 0)

/-! LD and ST addressing (R453). -/

/-- The address register of format M. -/
def xOf (w : Word) : Fin 8 := Fin.ofNat 8 (wordBits w 18 3)

/-- The mode. -/
def addrMode (w : Word) : Nat := wordBits w 16 2

/-- The effective address. -/
def effAddr (w : Word) (r : LaneRegs) : Nat :=
  match addrMode w with
  | 0 => (BitVec.ofInt 32 ((r.x[xOf w].toNat : Int) + immS w)).toNat
  | 3 => immU w * 4
  | _ => (r.x[xOf w]).toNat

/-- The update afterwards. -/
def postUpdate (w : Word) (r : LaneRegs) : LaneRegs :=
  match addrMode w with
  | 1 => r.step (xOf w) (r.mods[xOf w]).toInt
  | 2 => r.step (xOf w) (immS w)
  | _ => r

/-! Issue. -/

/-- The lanes stand still in Nap and Rest (R446), without their clock, in Reset and in Startup. -/
def lanesGated (s : State) : Bool := !domainsRun s || s.sys.dev == .startup

/-- One step of a lane, in 10^-4 ns: t_wc of the operating point in force, derated by its band (R31, R444). -/
def laneStep (s : State) : Nat := stepTime s.power.opNow s.power.band s.power.banded

/-- A lane may issue within this tick: its last instruction's step has passed (R451). -/
def stepDue (l : Fin 8) (s : State) : Bool := decide ((s.lanes.lane[l]).stepAt < 20000 * (s.sysTick + 1))

/-- A lane's step passes. -/
def passStep (l : Fin 8) (s : State) : State := onLane l (fun x => { x with stepAt := max x.stepAt (20000 * s.sysTick) + laneStep s }) s

/-- What the lane would issue next: its thread and the word at its program counter. -/
def nextWord (l : Fin 8) (s : State) : Option (Fin 512 × Word) :=
  if lanesGated s || !stepDue l s then none
  else
    let x := s.lanes.lane[l]
    match x.thread, x.prog[x.regs.pc.toNat]? with
    | some t, some w => some (Fin.ofNat 512 t, w)
    | _, _ => none

/-- Where a program counter points after one more word. -/
def nextPc (r : LaneRegs) : Nat := r.pc.toNat + 1

/-- After an instruction: the load before it reaches its register unless the instruction wrote it, a repeat goes on or ends,
a delay slot passes, the program counter advances (R455, R456). `o` is the state of the registers before. Also: where
execution goes on. -/
def LaneRegs.advance (w : Word) (o r : LaneRegs) : LaneRegs × Nat :=
  let r1 := match o.load with
    | some (d, v) => if destOf w = some (Fin.ofNat 32 d) then r else r.put (Fin.ofNat 32 d) v
    | none => r
  let r2 := { r1 with issued := o.issued + 1 }
  match o.rep with
  | some (k + 2) => ({ r2 with rep := some (k + 1), pc := o.pc }, o.pc.toNat)
  | _ =>
    match o.delay with
    | some (2, t) => ({ r2 with delay := some (1, t), pc := BitVec.ofNat 13 (nextPc r2) }, nextPc r2)
    | some (_, t) => ({ r2 with delay := none, pc := BitVec.ofNat 13 t }, t)
    | none => ({ r2 with pc := BitVec.ofNat 13 (nextPc r2) }, nextPc r2)

/-- What an instruction does beside the pipeline: from the lane, its thread and the word. -/
abbrev LaneEffect := Fin 8 → Fin 512 → Word → State → Except (Nat × Nat) State

/-- A thread aborts, with the record an uncorrectable error leaves (R445, R472). -/
def laneAbort (l : Fin 8) (t : Fin 512) (cause addr : Nat) (s : State) : State :=
  abortThread t cause (if cause = 5 then recordPoison l.val addr s else s)

/-- Issue one instruction of OP `code` on a lane: nothing happens unless it is the one the lane issues next. -/
def issue (code : Nat) (eff : LaneEffect) (l : Fin 8) (s0 : State) : State :=
  match nextWord l s0 with
  | none => s0
  | some (t, w) =>
    if opOf w ≠ code then s0
    else
      let s := passStep l s0
      let o := s.lanes.lane[l].regs
      let fetch := laneProgAddr l o.pc.toNat
      if poisonedAt fetch s then laneAbort l t 5 fetch s
      else
        match eff l t w (onLaneRegs l (fun r => { r with load := none, rep := none }) s) with
        | .error e => laneAbort l t e.1 e.2 s
        | .ok s1 =>
          let a := LaneRegs.advance w o s1.lanes.lane[l].regs
          let s2 := onLaneRegs l (fun _ => a.1) s1
          if s2.lanes.lane[l].thread ≠ some t.val then s2
          else if (s2.lanes.thr[t]).budget ≤ a.1.issued then laneAbort l t 3 0 s2
          else if (s2.lanes.lane[l]).prog.length ≤ a.2 then laneAbort l t 1 0 s2
          else s2

/-- An instruction that only works on registers. -/
def regsOnly (f : Word → LaneRegs → LaneRegs) : LaneEffect := fun l _ w s => .ok (onLaneRegs l (f w) s)

/-- A lane instruction as a command of the model. -/
def laneCommand (code : Nat) (eff : LaneEffect) (l : Fin 8) (s : State) : Host.Outcome State Fault Refusal :=
  .next (issue code eff l s)

end Sys2Proof.Machine
end

