-- ==== Sys2Proof/Machine/MemFaults.lean ====
section
/-! DEFINITION.
Uncorrectable errors of the protected memories and what each location does about them (R470 to R472, Table 21.3, 21). -/

namespace Sys2Proof.Machine

/-- Keeper takes Gardener down to load it again from its booted slot (Table 21.3). -/
def restartGardener (s : State) : State :=
  (s.onBoot fun b => { b with gardenerRuns := false, gardenerRestart := true, gardenerReload := true }).onSys fun y => { y with phase := 2 }

/-- An address of a protected memory: SRAM, coefficient memory, lane memories (R469). -/
def protectedAddr (a : Nat) : Bool :=
  decide (a < 0x1800000) || (decide (0x42100000 ≤ a) && decide (a < 0x42500000)) || (decide (0x4A100000 ≤ a) && decide (a < 0x4A300000))

/-- An uncorrectable error has been found: Table 21.3. The slots of banks 1 and 2 fault with cause GARDENER_RESTART (log entry 33). -/
def uncorrectable (a : Nat) (s : State) : State :=
  let bank := a / 0x400000
  let block := a / 32 * 32
  let s1 := countPoison a s
  if a < 0x400000 then s1.onSys fun y => { y with keeperHalted := true }
  else if a < 0xC00000 then deviceFault 0x0012 bank block false (restartGardener (axisFaults (liveSlots s1) 4 0 s1))
  else if a < 0x1000000 then deviceFault 0x0012 bank block false s1
  else if a < 0x1800000 then recordFault 0x0022 4 bank block false s1
  else if a < 0x4A000000 then deviceFault 0x0012 ((a - 0x42100000) / 0x10000) block false s1
  else
    let l : Fin 8 := Fin.ofNat 8 ((a - 0x4A100000) / 0x40000)
    match s.lanes.lane[l].thread with
    | some t => laneAbort l (Fin.ofNat 512 t) 5 a s
    | none => recordPoison l.val a s

/-- The block of an address becomes poisoned. -/
def poison (a : Nat) (s : State) : State :=
  uncorrectable a (s.onInteg fun g => { g with poison := if g.poison.contains (a / 32) then g.poison else g.poison ++ [a / 32] })

/-- A correction of `n` symbols in a block, counted; sixteen in one bank within 1 s raise MEM_CORRECTED_BURST (R471, R475). -/
def countCorrection (a n : Nat) (s : State) : State :=
  let m := memoryOf a
  let recent := s.now :: (s.integ.tally[m]).recent.filter fun t => decide (s.now < t + 500000000)
  let burst := decide (m.val < 6) && decide (16 ≤ recent.length)
  let s1 := onMemTally m (fun t => { t with
    symbols := bump t.symbols n, blocks := bump t.blocks 1, recent := if burst then [] else recent }) s
  if burst then event 0x0003 m.val (be 2 recent.length) s1 else s1

end Sys2Proof.Machine
end

