-- ==== Sys2Proof/Machine/Planner.lean ====
section
/-! DEFINITION.
The planner class and the planner boundary (R142 to R169, 07). -/

namespace Sys2Proof.Machine

/-! Moves, jogs and stops of single axes (R151 to R153, R165). -/

/-- The five fields of a LIMITS TLV (R168). -/
def limitsOf (rq : Request) (t : Nat) : Limits :=
  { v := int rq t 0 8, a := int rq t 8 8, d := int rq t 16 8, j := int rq t 24 8, s := int rq t 32 8 }

/-- The three fields of a QUICK TLV. -/
def quickOf (rq : Request) (t : Nat) : Quick := { d := int rq t 0 8, j := int rq t 8 8, s := int rq t 16 8 }

/-- Fields of a limits or quick TLV whose top bits differ (R7). -/
def bad63s (rq : Request) (t n : Nat) : Bool := has rq t && (List.range n).any fun k => bad63At rq t (8 * k)

/-- A field of a move's limits: 0 takes the axis limit (R145). -/
def limitOr (own axis : Int) : Int := if own = 0 then axis else own

/-- Limits of a move (R145). -/
def moveLimits (rq : Request) (c : PlanCfg) : Limits :=
  if !has rq 0x0102 then c.limits
  else
    let l := limitsOf rq 0x0102
    { v := limitOr l.v c.limits.v, a := limitOr l.a c.limits.a, d := limitOr l.d c.limits.d, j := limitOr l.j c.limits.j,
      s := limitOr l.s c.limits.s }

/-- A move's limits are within the axis's (R145). -/
def limitsWithin (l m : Limits) : Bool :=
  decide (0 ≤ l.v) && decide (l.v ≤ m.v) && decide (0 ≤ l.a) && decide (l.a ≤ m.a) && decide (0 ≤ l.d) && decide (l.d ≤ m.d) &&
  decide (0 ≤ l.j) && decide (l.j ≤ m.j) && decide (0 ≤ l.s) && decide (l.s ≤ m.s)

/-- A stop is in progress on an axis, or due (R151, R166). -/
def stopping (i : Fin 64) (s : State) : Bool :=
  s.plan.ax[i].activity == 3 || (s.plan.ax[i].next.map (·.kind)) == some 3

/-- TLVs of MOVE_ABS, MOVE_REL and JOG. -/
def moveSchema : List TlvSpec := [fixed 0x0100 8, optional 0x0101 1, optional 0x0102 40]

/-- Their values (R7, Table 7.7). -/
def moveValues (rq : Request) (_ : State) : Option Deny := firstDeny
  [(bad63At rq 0x0100 0, badValue rq 0x0100), (decide (2 < num rq 0x0101 0 1), badValue rq 0x0101),
   (bad63s rq 0x0102 5, badValue rq 0x0102)]

/-- A soft limit of the axis is broken by a move to `p`, or by a jog at `v` from `p` (R153). -/
def softBroken (c : PlanCfg) (jog : Bool) (p v : Int) : Bool :=
  match c.soft with
  | none => false
  | some (lo, hi) => if jog then (decide (0 < v) && decide (hi < p)) || (decide (v < 0) && decide (p < lo))
                     else decide (p < lo) || decide (hi < p)

/-- The conditions of R151 in order, for a position move or a jog; `p` is the target, or the present set-point of a jog. -/
def moveDeny (rq : Request) (i : Fin 64) (jog : Bool) (p v : Int) (s : State) : Option Deny :=
  match s.plan.ax[i].cfg with
  | none => some conflict
  | some c => firstDeny
    [(s.axis[i].st != .enabled || sourceOf i s != 0 || (memberOf i s).isSome || (!jog && depthOf i s == 2), conflict),
     (stopping i s, deny .busy),
     (has rq 0x0102 && !limitsWithin (limitsOf rq 0x0102) c.limits, badValue rq 0x0102),
     (jog && decide ((moveLimits rq c).v < v.natAbs), badValue rq 0x0100),
     (softBroken c jog p v, badValue rq 0x0100)]

/-- Hand a command to the planner of an axis (R143, R152); it is answered where it starts. -/
def handMove (rq : Request) (i : Fin 64) (c : MoveCmd) (s : State) : Answer :=
  let cfg := (s.plan.ax[i].cfg).getD {}
  let d := { c with profile := numD rq 0x0101 0 1 cfg.profile, limits := moveLimits rq cfg, handed := s.now }
  .wait (wakeSlot i (onPax i (fun y => { y with next := some d }) s)) i []

/-- A position move. -/
def movePosition (rq : Request) (i : Fin 64) (p : Int) (s : State) : Answer :=
  match moveDeny rq i false p 0 s with
  | some d => .deny d
  | none => handMove rq i { kind := 1, target := p } s

/-- MOVE_ABS. -/
def opMoveAbs : Op :=
  { opcode := 0x0200, target := below 64, toe := true, states := [.operational], schema := moveSchema, values := moveValues
    effect := fun rq s => movePosition rq (tgt 64 rq) (int rq 0x0100 0 8) s }

/-- Executes MOVE_ABS. -/
def execMoveAbs (rq : Request) (s : State) : Host.Outcome State Fault Refusal := runCommand opMoveAbs rq s

/-- What a MOVE_REL counts from: a running move's target, else the present set-point (R152). -/
def relBase (i : Fin 64) (s : State) : Int :=
  if s.plan.ax[i].activity = 1 then s.plan.ax[i].cmd.target else s.axis[i].posSp

/-- MOVE_REL. A target beyond ±2^46 counts is kept as it is, and the registers show its low 64 bits, as they do the set-points of an endless
jog or of STEPPER_SET_POSITION (DESIGN CHOICE, log entry 49: R8 states no outcome). -/
def opMoveRel : Op :=
  { opcode := 0x0201, target := below 64, toe := true, states := [.operational], schema := moveSchema, values := moveValues
    effect := fun rq s => movePosition rq (tgt 64 rq) (relBase (tgt 64 rq) s + int rq 0x0100 0 8) s }

/-- Executes MOVE_REL. -/
def execMoveRel (rq : Request) (s : State) : Host.Outcome State Fault Refusal := runCommand opMoveRel rq s

/-- JOG. -/
def opJog : Op :=
  { opcode := 0x0202, target := below 64, toe := true, states := [.operational], schema := moveSchema, values := moveValues
    effect := fun rq s =>
      let i := tgt 64 rq
      let v := int rq 0x0100 0 8
      match moveDeny rq i true s.axis[i].posSp v s with
      | some d => .deny d
      | none => handMove rq i { kind := 2, speed := v } s }

/-- Executes JOG. -/
def execJog (rq : Request) (s : State) : Host.Outcome State Fault Refusal := runCommand opJog rq s

/-- The running group an axis is a member of. -/
def runningGroup (i : Fin 64) (s : State) : Option (Fin 16) :=
  (memberOf i s).bind fun g => if s.plan.grp[g].running && s.plan.grp[g].activity != 4 then some g else none

/-- Does a STOP find something to stop on an axis: the planner moving it, or an engaged link (R165, R185)? -/
def stoppable (i : Fin 64) (s : State) : Bool :=
  planBusy i s || (s.gear.link[i].engage == 2 && s.axis[i].st == .enabled)

/-- STOP: one axis, its running group, or all axes; with nothing moving, answered at once (R165, Table 7.7). -/
def opStop : Op :=
  { opcode := 0x0203, target := fun t => below 64 t || device t, toe := true, states := afterStart, schema := [fixed 0x0100 1]
    values := fun rq _ => firstDeny [(decide (3 < num rq 0x0100 0 1), badValue rq 0x0100)]
    effect := fun rq s =>
      let m := num rq 0x0100 0 1
      if rq.target = 0xFFFF then
        let s1 := (List.finRange 64).foldl (fun s i => if stoppable i s then requestStop i m s else s) s
        let s2 := (List.finRange 16).foldl (fun s g =>
          if s.plan.grp[g].running && s.plan.grp[g].activity != 4 then requestGroupStop g m s else s) s1
        if allAtRest s2 then .done s2 [] else .wait s2 0xFFFF []
      else
        let i := tgt 64 rq
        match runningGroup i s with
        | some g => .wait (requestGroupStop g m s) (groupKey g) []
        | none => if stoppable i s then .wait (requestStop i m s) i [] else .done s [] }

/-- Executes STOP. -/
def execStop (rq : Request) (s : State) : Host.Outcome State Fault Refusal := runCommand opStop rq s

/-! PLAN_AXIS_CONFIG (R145, R142, R169). -/

/-- Values of PLAN_AXIS_CONFIG. -/
def planCfgValues (rq : Request) (s : State) : Option Deny :=
  let i := tgt 64 rq
  let l := limitsOf rq 0x0100
  let q := quickOf rq 0x0101
  let nonPos := fun (x : Int) => decide (x ≤ 0)
  let d := num rq 0x0104 0 1
  firstDeny
    [(has rq 0x0100 && (bad63s rq 0x0100 5 || [l.v, l.a, l.d, l.j, l.s].any nonPos), badValue rq 0x0100),
     (has rq 0x0101 && (bad63s rq 0x0101 3 || [q.d, q.j, q.s].any nonPos), badValue rq 0x0101),
     (bad63s rq 0x0102 2, badValue rq 0x0102),
     (bad63s rq 0x0103 1, badValue rq 0x0103),
     (has rq 0x0104 && (decide (d < 1) || decide (64 < d) ||
        (s.axis[i].mode.isSome && decide (outerTicks s.axis[i] * d < 31250))), badValue rq 0x0104),
     (decide (2 < num rq 0x0105 0 1), badValue rq 0x0105)]

/-- The configuration a command leaves: an omitted TLV leaves its value (R169). -/
def planCfgOf (rq : Request) (c : PlanCfg) : PlanCfg :=
  { limits := if has rq 0x0100 then limitsOf rq 0x0100 else c.limits
    quick := if has rq 0x0101 then quickOf rq 0x0101 else c.quick
    soft := if has rq 0x0102 then some (int rq 0x0102 0 8, int rq 0x0102 8 8) else c.soft
    window := intD rq 0x0103 0 8 c.window
    divider := numD rq 0x0104 0 1 c.divider
    profile := numD rq 0x0105 0 1 c.profile }

/-- PLAN_AXIS_CONFIG. -/
def opPlanAxisConfig : Op :=
  { opcode := 0x0205, target := below 64, toe := false, states := [.commissioning, .operational]
    schema := [optional 0x0100 40, optional 0x0101 24, optional 0x0102 16, optional 0x0103 8, optional 0x0104 1, optional 0x0105 1]
    values := planCfgValues
    effect := fun rq s =>
      let i := tgt 64 rq
      let a := s.axis[i]
      let may := s.sys.dev == .commissioning || a.st == .disabled ||
        (a.st == .enabled && s.plan.ax[i].activity == 0 && !has rq 0x0104)
      if a.st = .unbound ∨ !may then .deny conflict
      else
        match s.plan.ax[i].cfg, [0x0100, 0x0101, 0x0104].find? (fun t => !has rq t) with
        | none, some t => .deny (missing t)
        | c, _ => .done (onPax i (fun y => { y with cfg := some (planCfgOf rq (c.getD {})) }) s) [] }

/-- Executes PLAN_AXIS_CONFIG. -/
def execPlanAxisConfig (rq : Request) (s : State) : Host.Outcome State Fault Refusal := runCommand opPlanAxisConfig rq s

/-! Groups (R155, R163, R164, R166, R169). -/

/-- Free entries of a group's queue. -/
def queueFree (x : PlanGroup) : Nat := x.capacity - queueUsed x

/-- SEGMENT_APPEND: every entry checked, taken as a whole (R164, R169). -/
def opSegmentAppend : Op :=
  { opcode := 0x0204, target := below 16, toe := false, states := [.commissioning, .operational]
    schema := [{ type := 0x0100, lo := 32, hi := 1280, step := 32 }]
    effect := fun rq s =>
      let g := tgt 16 rq
      let x := s.plan.grp[g]
      let bs := value rq 0x0100
      if !x.defined then .deny conflict
      else
        match parseSegs x s (bs.length / 32) 0 bs x.queue with
        | .error k => .deny (denyAt .badParam (tlvOff rq 0x0100 + 4 + 32 * k) 0x0100 3)
        | .ok q =>
          let y := { x with queue := q, stale := true }
          if y.capacity < queueUsed y then .deny (deny .resource)
          else .done (onPgrp g (fun _ => y) s) [(0x0100, be 2 (queueFree y))] }

/-- Executes SEGMENT_APPEND. -/
def execSegmentAppend (rq : Request) (s : State) : Host.Outcome State Fault Refusal := runCommand opSegmentAppend rq s

/-- Members a GROUP_DEFINE names. -/
def membersOf (rq : Request) : List Nat := (value rq 0x0100).map (·.toNat)

/-- Weights in order. -/
def weightsOf (rq : Request) : List Nat :=
  (List.range ((value rq 0x0102).length / 4)).map fun k => num rq 0x0102 (4 * k) 4

/-- Values of GROUP_DEFINE with MEMBERS (R155). -/
def groupValues (rq : Request) (_ : State) : Option Deny :=
  let m := membersOf rq
  let l := limitsOf rq 0x0103
  let q := quickOf rq 0x0104
  let nonPos := fun (x : Int) => decide (x ≤ 0)
  let qn := num rq 0x0105 0 2
  let stray := (tlvs rq).find? fun t => !hasBit t.type 15 && t.type != 0x0010
  if !has rq 0x0100 then stray.map fun t => denyAt .badParam t.off t.type 3
  else
    match ([0x0101, 0x0102, 0x0103, 0x0104, 0x0105, 0x0106].find? fun t => !has rq t).map missing with
    | some d => some d
    | none => firstDeny
      [(decide (m.length < 2) || m.any (fun n => decide (63 < n)) || m.eraseDups.length != m.length, badValue rq 0x0100),
       (!(num rq 0x0101 0 1 == 2 || num rq 0x0101 0 1 == 3) || decide (m.length < num rq 0x0101 0 1), badValue rq 0x0101),
       ((value rq 0x0102).length != 4 * m.length || (weightsOf rq).any (fun w => w == 0 || decide (2 ^ 31 ≤ w)), badValue rq 0x0102),
       (bad63s rq 0x0103 5 || [l.v, l.a, l.d, l.j, l.s].any nonPos, badValue rq 0x0103),
       (bad63s rq 0x0104 3 || [q.d, q.j, q.s].any nonPos, badValue rq 0x0104),
       (decide (qn < 16) || decide (4096 < qn) || qn % 16 != 0, badValue rq 0x0105),
       (decide (2 < num rq 0x0106 0 1), badValue rq 0x0106),
       (bad63s rq 0x0107 1 || decide (intD rq 0x0107 0 8 0 < 0), badValue rq 0x0107)]

/-- GROUP_DEFINE: define, or release without MEMBERS (R155, R169). -/
def opGroupDefine : Op :=
  { opcode := 0x0210, target := below 16, toe := false, states := [.commissioning]
    schema := [{ type := 0x0100, lo := 2, hi := 8, req := false }, optional 0x0101 1,
               { type := 0x0102, lo := 8, hi := 32, step := 4, req := false }, optional 0x0103 40, optional 0x0104 24,
               optional 0x0105 2, optional 0x0106 1, optional 0x0107 8]
    values := groupValues
    effect := fun rq s =>
      let g := tgt 16 rq
      let x := s.plan.grp[g]
      let m := membersOf rq
      let elsewhere := fun (n : Nat) => (List.finRange 16).any fun (h : Fin 16) =>
        h != g && s.plan.grp[h].defined && s.plan.grp[h].members.contains n
      if x.defined ∧ x.activity ≠ 1 then .deny conflict
      else if !has rq 0x0100 then
        .done (storeRelease (storeGroup g) (onPgrp g (fun y => { override := y.override }) s)) []
      else if m.any (fun n => elsewhere n || s.axis[memberSlot n].bind.location == 0) then .deny (badValue rq 0x0100)
      else
        match storeAllocate (storeGroup g) (num rq 0x0105 0 2) s with
        | none => .deny (deny .resource)
        | some s1 =>
          let at0 := ((s1.plan.store.find? (·.owner == storeGroup g)).map (·.atTime)).getD 0
          .done (onPgrp g (fun y => {
            defined := true, members := m, pathCount := num rq 0x0101 0 1, weights := weightsOf rq, limits := limitsOf rq 0x0103,
            quick := quickOf rq 0x0104, profile := num rq 0x0106 0 1, arcTol := intD rq 0x0107 0 8 65536,
            capacity := num rq 0x0105 0 2, storeAt := at0, override := y.override, activity := 1 }) s1) [] }

/-- Executes GROUP_DEFINE. -/
def execGroupDefine (rq : Request) (s : State) : Host.Outcome State Fault Refusal := runCommand opGroupDefine rq s

/-- GROUP_START (R155, R166, R169). -/
def opGroupStart : Op :=
  { opcode := 0x0211, target := below 16, toe := true, states := [.operational], schema := []
    effect := fun rq s =>
      let g := tgt 16 rq
      let x := s.plan.grp[g]
      let first := memberSlot (x.members.getD 0 0)
      if !x.defined then .deny conflict
      else if groupStopping x then .deny (deny .busy)
      else if x.activity = 4 then .deny conflict
      else if x.running then .done s []
      else if !x.members.all (fun n => memberReady first (memberSlot n) s) then .deny conflict
      else .done (onPgrp g (fun y => { y with running := true, startPend := true, activity := 2, boundary := s.now }) s) [] }

/-- Executes GROUP_START. -/
def execGroupStart (rq : Request) (s : State) : Host.Outcome State Fault Refusal := runCommand opGroupStart rq s

/-- GROUP_RESUME: from the stop point of a pause (R166). -/
def opGroupResume : Op :=
  { opcode := 0x0212, target := below 16, toe := true, states := [.operational], schema := []
    effect := fun rq s =>
      let g := tgt 16 rq
      let x := s.plan.grp[g]
      if groupStopping x then .deny (deny .busy)
      else if !x.defined ∨ x.activity ≠ 4 then .deny conflict
      else .done (onPgrp g (fun y => { y with running := true, activity := 2, resumeDue := some s.now }) s) [] }

/-- Executes GROUP_RESUME. -/
def execGroupResume (rq : Request) (s : State) : Host.Outcome State Fault Refusal := runCommand opGroupResume rq s

/-- GROUP_CLEAR: the queue is discarded; a running group's segment is not cut off in motion, so it is refused while the
group runs or stops. -/
def opGroupClear : Op :=
  { opcode := 0x0213, target := below 16, toe := false, states := [.commissioning, .operational], schema := []
    effect := fun rq s =>
      let g := tgt 16 rq
      let x := s.plan.grp[g]
      if !x.defined ∨ groupStopping x ∨ x.activity = 2 ∨ x.activity = 3 then .deny conflict
      else
        let s1 := onPgrp g (fun y => { y with
          queue := [], path := 0, pathLen := 0, pathVel := 0, pathAcc := 0, tau := 0, segId := 0, segs := [], clock := 0, along := false,
          blending := false,
          running := y.running && y.activity == 5, activity := if y.activity = 5 then 5 else 1 }) s
        .done s1 [(0x0100, be 2 (queueFree (s1.plan.grp[g])))] }

/-- Executes GROUP_CLEAR. -/
def execGroupClear (rq : Request) (s : State) : Host.Outcome State Fault Refusal := runCommand opGroupClear rq s

/-- GROUP_STATUS. -/
def opGroupStatus : Op :=
  { opcode := 0x0214, target := below 16, toe := false, states := afterStart, schema := []
    effect := fun rq s =>
      let g := tgt 16 rq
      .done s [(0x0100, be 4 (planGrpStatus g s).toNat), (0x0101, be 4 (planGrpQueue g s).toNat),
               (0x0102, be 4 (s.plan.grp[g]).segId), (0x0103, beI 8 (roundOpen ((s.plan.grp[g]).path * 65536)))] }

/-- Executes GROUP_STATUS. -/
def execGroupStatus (rq : Request) (s : State) : Host.Outcome State Fault Refusal := runCommand opGroupStatus rq s

/-- STORE_STATUS (R163). -/
def opStoreStatus : Op :=
  { opcode := 0x0220, target := device, toe := false, states := afterStart, schema := []
    effect := fun _ s => .done s [(0x0100, be 2 (storeFree s)), (0x0101, be 2 (storeLongest s))] }

/-- Executes STORE_STATUS. -/
def execStoreStatus (rq : Request) (s : State) : Host.Outcome State Fault Refusal := runCommand opStoreStatus rq s

/-! OVERRIDE_SET (R167, R169). -/

/-- Kind, index and factor of an ITEM. -/
def overrideItem (t : Tlv) : Nat × Nat × Nat := (beNat (slice 0 1 t.value), beNat (slice 1 1 t.value), beNat (slice 2 2 t.value))

/-- Write one factor's shadow. -/
def setOverride (e : Nat × Nat × Nat) (s : State) : State :=
  let w : Word := BitVec.ofNat 32 (min 2048 e.2.2)
  if e.1 = 0 then onPax (Fin.ofNat 64 e.2.1) (fun y => { y with override := y.override.write w }) s
  else onPgrp (Fin.ofNat 16 e.2.1) (fun y => { y with override := y.override.write w }) s

/-- OVERRIDE_SET: the shadows of US1, strobed. -/
def opOverrideSet : Op :=
  { opcode := 0x0221, target := device, toe := true, states := [.operational], schema := [{ type := 0x0100, lo := 4, hi := 4, many := 80 }]
    values := fun rq s =>
      ((every rq 0x0100).find? fun t =>
        let e := overrideItem t
        decide (1 < e.1) ||
        (e.1 == 0 && (decide (63 < e.2.1) || s.axis[Fin.ofNat 64 e.2.1].bind.location == 0)) ||
        (e.1 == 1 && (decide (15 < e.2.1) || !(s.plan.grp[Fin.ofNat 16 e.2.1]).defined))).map
        fun t => denyAt .badParam t.off 0x0100 3
    effect := fun rq s =>
      .done (strobe 2 (markDirty 1 ((every rq 0x0100).foldl (fun s t => setOverride (overrideItem t) s) s))) [] }

/-- Executes OVERRIDE_SET. -/
def execOverrideSet (rq : Request) (s : State) : Host.Outcome State Fault Refusal := runCommand opOverrideSet rq s

/-! What a planner boundary does beside the planner. -/

/-- TARGET_REACHED: after the profile's end the following error has stayed in the window for a planner period (R154). -/
def targetCheck (i : Fin 64) (s : State) : State :=
  let x := s.plan.ax[i]
  let inside := decide ((s.loop.slot[i].fe.natAbs : Int) ≤ ((x.cfg.map (·.window)).getD 0))
  match x.windowSince with
  | none => s
  | some t =>
    if !x.done then s
    else if !inside then onPax i (fun y => { y with windowSince := some s.now }) s
    else if t + planTicks i s ≤ s.now then onAx i (fun a => { a with targetReached := true }) s
    else s

/-- AXIS_DISABLE STOP 0 waits for the planner's quick stop (R141). -/
def disableWaiting (i : Fin 64) (s : State) : State :=
  if s.axis[i].st = .enabled ∧ s.pkts.executing.any (axisCommand i 0x0103) ∧ !s.axis[i].stopShort ∧
      s.plan.ax[i].activity ≠ 3 ∧ s.plan.ax[i].next = none then slotDisabled i s
  else s

end Sys2Proof.Machine
end

