-- ==== Sys2Proof/Machine/Gear.lean ====
section
/-! DEFINITION.
Gear links: masters, ratio arithmetic, changes, cams, engagement (R170 to R186, 08). -/

namespace Sys2Proof.Machine

/-- Change a link. -/
def onLink (i : Fin 64) (f : GearLink → GearLink) (s : State) : State := s.onGear fun u => { u with link := upd u.link i f }

/-! Masters (R171, R174). -/

/-- Index corrections a port has applied so far, in counts. -/
def corrections (p : Port) : Int := (p.idxAppPos - p.idxAppNeg).toInt

/-- A virtual master's position at an instant of its base, in ns: p0 + v (t - t0) (Table 8.1). -/
def VMaster.posAt (v : VMaster) (t : Int) : Int := roundOpen ((v.p0 : Rat) + ofQ24 v.vel * ((t - v.t0 : Int) : Rat) * 65536 / 1000000000)

/-- Position of a virtual master now. -/
def vmPos (k : Fin 8) (s : State) : Int :=
  let v := s.gear.vm[k]
  v.posAt (s.tbNs (Fin.ofNat 4 v.base) : Nat)

/-- The master's position as a link sees it, Q47.16: of another slot the set-point at its last outer-loop sample, without the jumps
that were no travel (Table 8.1, R174). -/
def masterPos (l : GearLink) (s : State) : Int :=
  match l.mKind with
  | 0 =>
    let p := s.ports.port[Fin.ofNat 32 l.mIndex]
    (p.counts - (if l.followIndex then 0 else corrections p - l.mOffset)) * 65536
  | 1 =>
    let a := s.axis[Fin.ofNat 64 l.mIndex]
    a.cmdPos - (a.cmdJump - l.mOffset)
  | 2 => measuredPos (Fin.ofNat 64 l.mIndex) s
  | 3 =>
    let p := s.ports.port[Fin.ofNat 32 l.mIndex]
    (p.edgeFwd - p.edgeRev).toInt * 65536
  | _ => vmPos (Fin.ofNat 8 l.mIndex) s

/-- The master's speed, Q39.24 (R172). -/
def masterVel (l : GearLink) (s : State) : Int :=
  match l.mKind with
  | 0 => (s.ports.port[Fin.ofNat 32 l.mIndex]).speed
  | 1 => if s.axis[Fin.ofNat 64 l.mIndex].st = .enabled then s.axis[Fin.ofNat 64 l.mIndex].velFf else 0
  | 2 => measuredVel (Fin.ofNat 64 l.mIndex) s
  | 3 => (s.ports.port[Fin.ofNat 32 l.mIndex]).speed
  | _ => s.gear.vm[Fin.ofNat 8 l.mIndex].vel

/-- Has a master of kind 0, 2 or 3 lost its feedback (R174)? -/
def masterLost (l : GearLink) (s : State) : Bool :=
  match l.mKind with
  | 0 => portLost (some l.mIndex) s
  | 2 => feedbackLost (Fin.ofNat 64 l.mIndex) s
  | 3 => portLost (some l.mIndex) s
  | _ => false

/-! Cams (R181 to R184). -/

/-- Slope of Q31.32. -/
def ofQ32 (x : Int) : Rat := (x : Rat) / 4294967296

/-- Points 0 to count - 1 of a table as far as they are written, in order. -/
def CamTable.list (t : CamTable) : List CamPoint := (List.range t.count).filterMap fun k => getKey (k + 1) t.points

/-- Value and slope of the Hermite curve between two points at x (R183). -/
def camBetween (a b : CamPoint) (x : Rat) : Rat × Rat :=
  let h : Rat := ((b.x - a.x : Int) : Rat)
  if h = 0 then ((a.y : Rat), ofQ32 a.k)
  else
    let u := (x - (a.x : Rat)) / h
    let y0 : Rat := (a.y : Rat)
    let y1 : Rat := (b.y : Rat)
    let k0 := ofQ32 a.k
    let k1 := ofQ32 b.k
    ((2 * u * u * u - 3 * u * u + 1) * y0 + (u * u * u - 2 * u * u + u) * h * k0 + (3 * u * u - 2 * u * u * u) * y1 +
       (u * u * u - u * u) * h * k1,
     (6 * u * u - 6 * u) * (y0 - y1) / h + (3 * u * u - 4 * u + 1) * k0 + (3 * u * u - 2 * u) * k1)

/-- The interval of a point list that holds x: the last point at or below it and the one after. -/
def camInterval (x : Int) : List CamPoint → Option (CamPoint × CamPoint)
  | a :: b :: l => if x < b.x ∨ l = [] then some (a, b) else camInterval x (b :: l)
  | _ => none

/-- Value and slope of a table at x = m - master offset (R183). -/
def CamTable.value (t : CamTable) (x : Int) : Rat × Rat :=
  let l := t.list
  let first := l.headD {}
  let last := l.getLastD {}
  if t.periodic then
    let p := max t.period 1
    let n := x.fdiv p
    let x1 := x - n * p
    let closed := l ++ [{ first with x := t.period, y := first.y + t.lift }]
    match camInterval x1 closed with
    | some (a, b) =>
      let r := camBetween a b (x1 : Rat)
      (r.1 + (n * t.lift : Int), r.2)
    | none => ((first.y : Rat), 0)
  else if x < first.x then ((first.y : Rat), 0)
  else if last.x < x then ((last.y : Rat), 0)
  else
    match camInterval x l with
    | some (a, b) => camBetween a b (x : Rat)
    | none => ((first.y : Rat), 0)

/-- Is x outside the range of a non-periodic table? -/
def CamTable.outside (t : CamTable) (x : Int) : Bool :=
  !t.periodic && (decide (x < (t.list.headD {}).x) || decide ((t.list.getLastD {}).x < x))

/-- floor(scale × y) of a link's table at a master position, and the slope times the scale (R183). -/
def camOut (l : GearLink) (t : CamTable) (m : Int) : Int × Rat :=
  let r := t.value (m - l.camMaster)
  ((ofQ16 l.camScale * r.1).floor, ofQ16 l.camScale * r.2)

/-! One evaluation of a link (R175, R177 to R179, R183). -/

/-- What an evaluation yields: the link, its steps, and the events it raises (code, detail). -/
structure GearOut where
  /-- The link. -/
  link : GearLink
  /-- Steps of the geared set-point, in units. -/
  steps : List Int := []
  /-- Events: code and detail. -/
  events : List (Nat × List Byte) := []
deriving DecidableEq, Repr

/-- The exact arithmetic of R175 up to a master position. -/
def GearLink.linear (l : GearLink) (m : Int) : GearLink × Int :=
  let t := (m - l.mLast) * l.num + l.rem
  let q := t.fdiv l.den
  ({ l with mLast := m, rem := (t - q * l.den).toNat, slave := l.slave + q }, q)

/-- Convert a fraction n / old of a unit to a new denominator, the residue booked (R178). -/
def GearOut.convert (o : GearOut) (n old den : Nat) : GearOut :=
  let r := n * den / old
  let rho := n * den - r * old
  let l := { o.link with
    rem := r, residue := bump o.link.residue (rho * 2 ^ 32 / (old * den)), fResidue := o.link.fResidue || rho != 0 }
  { o with link := l, events := if rho = 0 then o.events else o.events ++ [(0x0281, be 4 rho ++ be 4 old ++ be 4 den)] }

/-- Does a move of the master from a to b cross P in a change's direction (R177)? -/
def gearCrosses (dir : Nat) (a b p : Int) : Bool :=
  (dir != 2 && decide (a < p) && decide (p ≤ b)) || (dir != 1 && decide (p < a) && decide (b ≤ p))

/-- Sign of a ramp's direction. -/
def GearRamp.sign (r : GearRamp) : Int := if r.dirNeg then -1 else 1

/-- The displacement of a ramp x units into it, in slave units: r0 x + (r1 - r0) x² / (2 D) in the ramp's direction, plus
the remainder; behind P, r0 applies (R179). The rule writes it for the forward direction (log entry 24). -/
def rampDisp (l : GearLink) (r : GearRamp) (x : Int) : Rat :=
  let r0 : Rat := (l.num : Rat) / (l.den : Rat)
  let r1 : Rat := (r.num1 : Rat) / (r.den1 : Rat)
  let quad : Rat := if x < 0 then 0 else (r1 - r0) * (x : Rat) * (x : Rat) / (2 * (r.dist : Rat))
  (r.sign : Rat) * ((x : Rat) * r0 + quad) + (r.rem0 : Rat) / (l.den : Rat)

/-- The ratio in force x units into a ramp. -/
def rampRatio (l : GearLink) (r : GearRamp) (x : Int) : Rat :=
  let r0 : Rat := (l.num : Rat) / (l.den : Rat)
  let r1 : Rat := (r.num1 : Rat) / (r.den1 : Rat)
  if x < 0 then r0 else r0 + (r1 - r0) * (x : Rat) / (r.dist : Rat)

/-- A head change fires at P in a gear link (R178, R179). -/
def GearOut.fire (o : GearOut) (c : GearChange) (back : Bool) : GearOut :=
  let l := { o.link with changes := o.link.changes.tail }
  let ev := o.events ++ [(0x0282, beI 4 c.num ++ be 4 c.den)]
  if c.ramp = 0 then
    let p := { o with link := l, events := ev }
    let d := if c.den = l.den then p else p.convert l.rem l.den c.den
    { d with link := { d.link with num := c.num, den := c.den } }
  else
    { o with events := ev, link := { l with
        ramp := some { p := c.p, dirNeg := back, num1 := c.num, den1 := c.den, dist := c.ramp, slave0 := l.slave, rem0 := l.rem } } }

/-- Evaluate a gear link up to master position m, split at every change it crosses (R178, R179). -/
def gearEval (m : Int) : Nat → GearOut → GearOut
  | 0, o => o
  | n + 1, o =>
    let l := o.link
    match l.ramp with
    | some r =>
      let x := r.sign * (m - r.p)
      if x < r.dist then
        let y := r.slave0 + (rampDisp l r x).floor
        { o with link := { l with slave := y, mLast := m }, steps := o.steps ++ [y - l.slave] }
      else
        let d := rampDisp l r r.dist
        let y := r.slave0 + d.floor
        let f := d - (d.floor : Rat)
        let old := 2 * r.dist.toNat * l.den * r.den1
        let num := (f * (old : Rat)).floor.toNat
        let p := { o with link := { l with slave := y, mLast := r.p + r.sign * r.dist, ramp := none }, steps := o.steps ++ [y - l.slave] }
        let c := p.convert num old r.den1
        gearEval m n { c with link := { c.link with num := r.num1, den := r.den1 } }
    | none =>
      match l.changes with
      | c :: _ =>
        if gearCrosses c.dir l.mLast m c.p then
          let r := l.linear c.p
          gearEval m n (GearOut.fire { o with link := r.1, steps := o.steps ++ [r.2] } c (decide (m < l.mLast)))
        else
          let r := l.linear m
          { o with link := r.1, steps := o.steps ++ [r.2] }
      | [] =>
        let r := l.linear m
        { o with link := r.1, steps := o.steps ++ [r.2] }

/-- A table in force has left its range at a master position: CAM_END once on each exit (R183). -/
def GearOut.rangeCheck (o : GearOut) (ts : List CamTable) (m : Int) : GearOut :=
  let out := ts.any fun t => t.outside (m - o.link.camMaster)
  let l := { o.link with camOut := out, fEnd := o.link.fEnd || (out && !o.link.camOut) }
  { o with link := l, events := if out && !o.link.camOut then o.events ++ [(0x0283, [])] else o.events }

/-- A cam link moves to a slave set-point, the tables in force given. -/
def GearOut.to (o : GearOut) (ts : List CamTable) (m y : Int) : GearOut :=
  ({ o with link := { o.link with slave := y, mLast := m }, steps := o.steps ++ [y - o.link.slave] }).rangeCheck ts m

/-- Tables that come into force outside their range have not left it. -/
def GearLink.entering (l : GearLink) (ts : List CamTable) (m : Int) : GearLink :=
  { l with camOut := ts.any fun t => t.outside (m - l.camMaster) }

/-- The slave offset of a table taken over at P: the given one, or the one that keeps the slave continuous (R184). -/
def camOffset (l : GearLink) (t : CamTable) (p : Int) : Int := if l.camAbs then l.camSlave else l.slave - (camOut l t p).1

/-- Evaluate a cam link up to master position m (R183, R184). -/
def camEval (tab : Nat → CamTable) (m : Int) : Nat → GearOut → GearOut
  | 0, o => o
  | n + 1, o =>
    let l := o.link
    match l.ramp with
    | some r =>
      let x := r.sign * (m - r.p)
      let old := l.camSlave + (camOut l (tab l.table) m).1
      let new := r.off1 + (camOut l (tab r.table1) m).1
      if x < r.dist then
        let w : Rat := if x < 0 then 0 else (x : Rat) / (r.dist : Rat)
        o.to [tab l.table, tab r.table1] m ((old : Rat) + ((new - old : Int) : Rat) * w).floor
      else
        let e := r.p + r.sign * r.dist
        let p := o.to [tab l.table, tab r.table1] e (r.off1 + (camOut l (tab r.table1) e).1)
        let k := { p.link with ramp := none, table := r.table1, camSlave := r.off1 }
        camEval tab m n { p with link := k.entering [tab r.table1] e }
    | none =>
      match l.changes with
      | c :: _ =>
        if gearCrosses c.dir l.mLast m c.p then
          let a := o.to [tab l.table] c.p (l.camSlave + (camOut l (tab l.table) c.p).1)
          let t := c.table.getD 0
          let off := camOffset a.link (tab t) c.p
          let k := { a.link with changes := a.link.changes.tail }
          let ev := a.events ++ [(0x0282, be 1 t)]
          if c.ramp = 0 then
            camEval tab m n { a with link := { k with table := t, camSlave := off }.entering [tab t] c.p, events := ev }
          else
            let b := { k with
              ramp := some { p := c.p, dirNeg := decide (m < l.mLast), dist := c.ramp, slave0 := a.link.slave, table1 := t, off1 := off } }
            camEval tab m n { a with events := ev, link := b.entering [tab l.table, tab t] c.p }
        else o.to [tab l.table] m (l.camSlave + (camOut l (tab l.table) m).1)
      | [] => o.to [tab l.table] m (l.camSlave + (camOut l (tab l.table) m).1)

/-- Evaluate a link up to a master position: steps booked as due (R186). -/
def evalLink (tab : Nat → CamTable) (m : Int) (l : GearLink) : GearOut :=
  let fuel := 2 * l.changes.length + 3
  let o := if l.mode = 2 then camEval tab m fuel { link := l } else gearEval m fuel { link := l }
  let k := o.steps.foldl (fun (k : GearLink) q => { k with dueFwd := bumpFwd k.dueFwd q, dueRev := bumpRev k.dueRev q }) o.link
  { o with link := k }

/-- Slope of a cam link's output at its master position: in a blend that of the blended output (R172, R184). -/
def camSlope (tab : Nat → CamTable) (l : GearLink) : Rat :=
  let old := camOut l (tab l.table) l.mLast
  match l.ramp with
  | none => old.2
  | some r =>
    let x := r.sign * (l.mLast - r.p)
    let new := camOut l (tab r.table1) l.mLast
    if x < 0 then old.2
    else
      let w : Rat := (x : Rat) / (r.dist : Rat)
      old.2 * (1 - w) + new.2 * w +
        (r.sign : Rat) * ((r.off1 + new.1 - (l.camSlave + old.1) : Int) : Rat) / (r.dist : Rat)

/-- Velocity a link hands to its slave: master speed times the ratio in force, or the cam slope (R172); at velocity depth
rounded towards zero (R176). -/
def linkVel (tab : Nat → CamTable) (l : GearLink) (v : Int) (toZero : Bool) : Int :=
  let k : Rat := if l.mode = 2 then camSlope tab l
    else match l.ramp with
      | some r => rampRatio l r (r.sign * (l.mLast - r.p))
      | none => (l.num : Rat) / (l.den : Rat)
  let x := (v : Rat) * k
  if toZero then towardsZero x.num x.den else roundOpen x

/-! Engagement and the outer-loop sample (R172, R185). -/

/-- Cam tables by number. -/
def camTab (s : State) (n : Nat) : CamTable := s.gear.cam[Fin.ofNat 32 n]

/-- Would q units more pass one of the slave's soft limits (R185)? -/
def gearLimited (i : Fin 64) (q : Int) (s : State) : Bool :=
  let p := spBase s.axis[i] + q
  match s.plan.ax[i].cfg.bind (·.soft) with
  | some (lo, hi) => (decide (q < 0) && decide (p < lo)) || (decide (0 < q) && decide (hi < p))
  | none => false

/-- Raise a link's events. -/
def linkEvents (i : Fin 64) (l : List (Nat × List Byte)) (s : State) : State := l.foldl (fun s e => event e.1 i.val e.2 s) s

/-- A link is lost: declutched, the slave stops quickly, the flag and event of the cause (R174, R185). -/
def gearStop (i : Fin 64) (code : Nat) (s : State) : State :=
  let s1 := onLink i (fun l => { l.declutched with fLost := l.fLost || code == 0x0284, fLimit := l.fLimit || code == 0x0285 }) s
  event code i.val [] (requestStop i 1 s1)

/-- Hand units to the slave's set-point, or stop at a soft limit (R185, R186). -/
def gearApply (i : Fin 64) (q : Int) (s : State) : State :=
  let a := s.axis[i]
  if gearLimited i q s then gearStop i 0x0285 s
  else
    let l := s.gear.link[i]
    let s1 := onLink i (fun l => { l with
      held := l.held - q, appFwd := bumpFwd l.appFwd q, appRev := bumpRev l.appRev q }) s
    setPoint i (spBase a + q) a.velSp l.velFf s1

/-- The slave's set-point lies outside its in-position window of an absolute cam's value at a master position (R184). -/
def camFar (i : Fin 64) (l : GearLink) (m : Int) (s : State) : Bool :=
  l.mode == 2 && l.camAbs &&
  decide ((s.plan.ax[i].cfg.map (·.window)).getD 0 <
    ((l.camSlave + (camOut l (camTab s l.table) m).1 - spBase s.axis[i]).natAbs : Int))

/-- Engage a link at a sample: m_last is the master position, rem 0, the slave goes on from its set-point (R184, R185); the
velocity it hands over is the master's from this instant on (R172). -/
def gearEngage (i : Fin 64) (m : Int) (s : State) : State :=
  let p := spBase s.axis[i]
  let l := s.gear.link[i]
  let k := ({ l with engage := 2, mLast := m, rem := 0, slave := p, held := 0 }).entering [camTab s l.table] m
  let n := { k with camSlave := if l.mode = 2 ∧ !l.camAbs then p - (camOut k (camTab s l.table) m).1 else k.camSlave }
  let v := linkVel (camTab s) n (masterVel n s) (depthOf i s == 2)
  let s1 := onLink i (fun _ => { n with velFf := v }) s
  if depthOf i s = 2 ∧ l.mKind = 4 then setPoint i s.axis[i].posSp v v s1 else s1

/-- The evaluation of a slot's link at an outer-loop sample (R172): the units held since the last sample are applied, the
link is evaluated, and its units are held until the next one; a virtual master's are applied at once; a declutched link's
are skipped. A waiting link engages when its slave is Enabled; an absolute cam whose value lies outside the slave's window then
goes on waiting (R184, R185; DESIGN CHOICE, log 49). -/
def gearSample (i : Fin 64) (s : State) : State :=
  let l := s.gear.link[i]
  let depth := depthOf i s
  let m := masterPos l s
  if l.mode = 0 ∨ l.engage = 0 then s
  else if l.engage = 1 then
    let reached : Bool := match l.engagePos with
      | none => true
      | some p => gearCrosses 0 l.mLast m p
    if sourceOf i s == l.mode && s.axis[i].st == .enabled && reached && !camFar i l m s then gearEngage i m s
    else onLink i (fun l => { l with mLast := m }) s
  else if l.engage = 2 ∧ masterLost l s then gearStop i 0x0284 s
  else
    let s1 := if l.engage = 2 then gearApply i l.held s else s
    let k := s1.gear.link[i]
    if depth = 2 then
      -- velocity depth: no remainder, no tally (R176); changes still fire at their positions
      let o := evalLink (camTab s) m k
      let n := { o.link with dueFwd := k.dueFwd, dueRev := k.dueRev, residue := k.residue, fResidue := k.fResidue, rem := 0,
                             velFf := linkVel (camTab s) o.link (masterVel k s1) true }
      let s2 := linkEvents i (o.events.filter (·.1 != 0x0281)) (onLink i (fun _ => n) s1)
      let v := if k.mKind = 4 then n.velFf else k.velFf
      if k.engage = 2 then setPoint i s2.axis[i].posSp v v s2 else s2
    else
      let o := evalLink (camTab s) m k
      let q := o.link.slave - k.slave
      if k.engage = 2 then
        let n := { o.link with held := o.link.held + q, velFf := linkVel (camTab s) o.link (masterVel k s1) false }
        let s2 := linkEvents i o.events (onLink i (fun _ => n) s1)
        if k.mKind = 4 then gearApply i n.held s2 else s2
      else
        let n := { o.link with
          skipFwd := bumpFwd o.link.skipFwd q, skipRev := bumpRev o.link.skipRev q, velFf := linkVel (camTab s) o.link (masterVel k s1) false }
        linkEvents i o.events (onLink i (fun _ => n) s1)

/-- A time base has stepped: t0 of its virtual masters is shifted, their positions stay continuous (R174). -/
def vmStep (b : Nat) (ns : Int) (s : State) : State :=
  (List.finRange 8).foldl (fun s k =>
    if s.gear.vm[k].base = b then
      event 0x0286 k.val [] (s.onGear fun u => { u with vm := upd u.vm k fun v => { v with t0 := v.t0 + ns } })
    else s) s

end Sys2Proof.Machine
end

