-- ==== Sys2Proof/Machine/GearOps.lean ====
section
/-! DEFINITION.
The gear-and-cam class (R170 to R188, 08). -/

namespace Sys2Proof.Machine

/-! GEAR_LINK (R170, R171, R173, R180, R184, R185, R188). -/

/-- Does a link follow another slot (R173)? -/
def slotMaster (l : GearLink) : Option (Fin 64) :=
  if l.mode ≠ 0 ∧ (l.mKind = 1 ∨ l.mKind = 2) then some (Fin.ofNat 64 l.mIndex) else none

/-- Links of a chain from a slot towards its master; more than 64 means a cycle (R173). -/
def chainUp (link : Vector GearLink 64) : Nat → Fin 64 → Nat
  | 0, _ => 65
  | n + 1, i =>
    match slotMaster link[i] with
    | some m => 1 + chainUp link n m
    | none => 0

/-- A set of links without cycles and no chain deeper than 8. -/
def chainsOk (link : Vector GearLink 64) : Bool := (List.finRange 64).all fun i => decide (chainUp link 65 i ≤ 8)

/-- The link a GEAR_LINK makes, its tallies kept (R185, R186). -/
def linkOf (rq : Request) (old : GearLink) : GearLink :=
  let mode := num rq 0x0100 0 1
  { mode := mode, engage := 1, mKind := num rq 0x0101 0 1, mIndex := num rq 0x0101 1 1,
    followIndex := hasBit (num rq 0x0101 2 1) 0, engagePos := if has rq 0x0104 then some (int rq 0x0104 0 8) else none,
    num := if mode = 1 then int rq 0x0102 0 4 else 0, den := if mode = 1 then num rq 0x0102 4 4 else 1,
    table := if mode = 2 then num rq 0x0103 0 1 else 0, camAbs := mode == 2 && hasBit (num rq 0x0103 1 1) 0,
    camScale := if mode = 2 then int rq 0x0103 4 4 else 65536, camMaster := if mode = 2 then int rq 0x0103 8 8 else 0,
    camSlave := if mode = 2 then int rq 0x0103 16 8 else 0,
    fEnd := old.fEnd, fLost := old.fLost, fResidue := old.fResidue, fLimit := old.fLimit,
    dueFwd := old.dueFwd, dueRev := old.dueRev, appFwd := old.appFwd, appRev := old.appRev,
    skipFwd := bumpFwd old.skipFwd old.held, skipRev := bumpRev old.skipRev old.held, residue := old.residue,
    appended := old.appended }

/-- A released link: its tallies and flags stay, its pending list is discarded (R188). -/
def linkReleased (old : GearLink) : GearLink :=
  { fEnd := old.fEnd, fLost := old.fLost, fResidue := old.fResidue, fLimit := old.fLimit,
    dueFwd := old.dueFwd, dueRev := old.dueRev, appFwd := old.appFwd, appRev := old.appRev,
    skipFwd := bumpFwd old.skipFwd old.held, skipRev := bumpRev old.skipRev old.held, residue := old.residue,
    appended := old.appended }

/-- Index range of a master kind (Table 8.1). -/
def masterCount (kind : Nat) : Nat := if kind = 0 ∨ kind = 3 then 32 else if kind = 4 then 8 else 64

/-- Values of GEAR_LINK. -/
def linkValues (rq : Request) (_ : State) : Option Deny :=
  let mode := num rq 0x0100 0 1
  let kind := num rq 0x0101 0 1
  let need := if mode = 0 then [] else if mode = 1 then [0x0101, 0x0102] else [0x0101, 0x0103]
  if 2 < mode then some (badValue rq 0x0100)
  else
    match (need.find? fun t => !has rq t).map missing with
    | some d => some d
    | none =>
      if mode = 0 then none
      else firstDeny
        [(decide (4 < kind) || decide (masterCount kind ≤ num rq 0x0101 1 1) || decide (1 < num rq 0x0101 2 1) || num rq 0x0101 3 1 != 0,
          badValue rq 0x0101),
         (mode == 1 && num rq 0x0102 4 4 == 0, badValue rq 0x0102),
         (mode == 2 && (decide (31 < num rq 0x0103 0 1) || decide (1 < num rq 0x0103 1 1) || num rq 0x0103 2 2 != 0 ||
            bad63At rq 0x0103 8 || bad63At rq 0x0103 16), badValue rq 0x0103),
         (has rq 0x0104 && bad63At rq 0x0104 0, badValue rq 0x0104)]

/-- The corrections or jumps of a master that a new link starts from (R174). -/
def masterOffset (l : GearLink) (s : State) : Int :=
  if l.mKind = 1 then s.axis[Fin.ofNat 64 l.mIndex].cmdJump else corrections s.ports.port[Fin.ofNat 32 l.mIndex]

/-- GEAR_LINK. A link that engages at the slave's next sample is refused where an absolute cam lies outside the window (R184). -/
def opGearLink : Op :=
  { opcode := 0x0280, target := below 64, toe := true, states := [.commissioning, .operational]
    schema := [fixed 0x0100 1, optional 0x0101 4, optional 0x0102 8, optional 0x0103 24, optional 0x0104 8]
    values := linkValues
    effect := fun rq s =>
      let i := tgt 64 rq
      let old := s.gear.link[i]
      let mode := num rq 0x0100 0 1
      let src := sourceOf i s
      if mode = 0 then
        if s.axis[i].st = .enabled ∧ (src = 1 ∨ src = 2) then .deny conflict
        else .done (onLink i linkReleased s) []
      else
        let l0 := linkOf rq old
        let p := s.ports.port[Fin.ofNat 32 l0.mIndex]
        let l1 := { l0 with mOffset := masterOffset l0 s }
        let l := { l1 with mLast := masterPos l1 s }
        match firstDeny
          [(old.engage == 2 || (src == 1 && mode == 2) || (src == 2 && mode == 1), conflict),
           (!chainsOk (upd s.gear.link i fun _ => l), conflictAt rq 0x0101),
           (l.mKind == 3 && !(p.mode == 1 || p.mode == 2 || p.mode == 3), conflictAt rq 0x0101),
           (mode == 2 && !(camTab s l.table).committed, conflictAt rq 0x0103),
           (l.engagePos.isNone && s.axis[i].st == .enabled && camFar i l l.mLast s, conflictAt rq 0x0103)] with
        | some d => .deny d
        | none => .done (onLink i (fun _ => l) s) [] }

/-- Executes GEAR_LINK. -/
def execGearLink (rq : Request) (s : State) : Host.Outcome State Fault Refusal := runCommand opGearLink rq s

/-! GEAR_RATIO_AT and GEAR_CLEAR_PENDING (R177, R180, R188). -/

/-- Values of GEAR_RATIO_AT. -/
def ratioValues (rq : Request) (_ : State) : Option Deny := firstDeny
  [(bad63At rq 0x0100 0, badValue rq 0x0100), (decide (2 < num rq 0x0101 0 1), badValue rq 0x0101),
   (has rq 0x0102 && has rq 0x0103, badValue rq 0x0103), (!has rq 0x0102 && !has rq 0x0103, missing 0x0102),
   (has rq 0x0102 && num rq 0x0102 4 4 == 0, badValue rq 0x0102), (decide (31 < num rq 0x0103 0 1), badValue rq 0x0103),
   (has rq 0x0104 && (bad63At rq 0x0104 0 || decide (int rq 0x0104 0 8 < 0)), badValue rq 0x0104)]

/-- GEAR_RATIO_AT. -/
def opGearRatioAt : Op :=
  { opcode := 0x0281, target := below 64, toe := true, states := [.operational]
    schema := [fixed 0x0100 8, fixed 0x0101 1, optional 0x0102 8, optional 0x0103 1, optional 0x0104 8]
    values := ratioValues
    effect := fun rq s =>
      let i := tgt 64 rq
      let l := s.gear.link[i]
      let which := if has rq 0x0102 then 0x0102 else 0x0103
      let c : GearChange :=
        { p := int rq 0x0100 0 8, dir := num rq 0x0101 0 1, num := if has rq 0x0102 then int rq 0x0102 0 4 else 0,
          den := if has rq 0x0102 then num rq 0x0102 4 4 else 1,
          table := if has rq 0x0103 then some (num rq 0x0103 0 1) else none, ramp := intD rq 0x0104 0 8 0 }
      match firstDeny
        [(l.mode == 0 || (l.mode == 2 && has rq 0x0102) || (l.mode == 1 && has rq 0x0103), badValue rq which),
         (has rq 0x0103 && !(camTab s (num rq 0x0103 0 1)).committed, conflictAt rq 0x0103),
         (decide (64 ≤ l.changes.length), deny .resource)] with
      | some d => .deny d
      | none =>
        let s1 := onLink i (fun l => { l with changes := l.changes ++ [c], appended := l.appended + 1 }) s
        .done s1 [(0x0100, be 1 (s1.gear.link[i]).changes.length)] }

/-- Executes GEAR_RATIO_AT. -/
def execGearRatioAt (rq : Request) (s : State) : Host.Outcome State Fault Refusal := runCommand opGearRatioAt rq s

/-- The changes a GEAR_CLEAR_PENDING leaves: those appended since it committed (R188). -/
def GearLink.kept (l : GearLink) : List GearChange := match l.clearTo with
  | some n => l.changes.drop (l.changes.length - (l.appended - n))
  | none => []

/-- GEAR_CLEAR_PENDING: a ramp in progress goes on (R180). -/
def opGearClearPending : Op :=
  { opcode := 0x0282, target := below 64, toe := true, states := [.operational], schema := []
    effect := fun rq s =>
      let i := tgt 64 rq
      let l := s.gear.link[i]
      .done (onLink i (fun l => { l with changes := l.kept, clearTo := none }) s) [(0x0100, be 1 (l.changes.length - l.kept.length))] }

/-- Executes GEAR_CLEAR_PENDING. -/
def execGearClearPending (rq : Request) (s : State) : Host.Outcome State Fault Refusal := runCommand opGearClearPending rq s

/-! Cam tables (R181, R182). -/

/-- Change a cam table. -/
def onCam (t : Fin 32) (f : CamTable → CamTable) (s : State) : State := s.onGear fun u => { u with cam := upd u.cam t f }

/-- A link uses the table, or a change or ramp names it (R181). -/
def camInUse (t : Fin 32) (s : State) : Bool :=
  (List.finRange 64).any fun (i : Fin 64) =>
    let l := s.gear.link[i]
    l.mode == 2 && (l.table == t.val || (l.ramp.map (·.table1)) == some t.val || l.changes.any fun c => c.table == some t.val)

/-- Is a 32-byte header well laid out (Table 8.2)? -/
def camHeaderOk (bs : List Byte) : Bool :=
  let periodic := (bs.getD 1 0).getLsbD 0
  let n := beNat (slice 2 2 bs)
  decide ((bs.getD 1 0).toNat < 2) && decide (2 ≤ n) && decide (n ≤ 4095) && beNat (slice 4 4 bs) == 0 && beNat (slice 24 8 bs) == 0 &&
  !bad63 (slice 8 8 bs) && !bad63 (slice 16 8 bs) && (periodic || (beNat (slice 8 16 bs) == 0))

/-- A table with this header written. -/
def CamTable.header (t : CamTable) (bs : List Byte) : CamTable :=
  { t with hkind := (bs.getD 0 0).toNat, periodic := (bs.getD 1 0).getLsbD 0, count := beNat (slice 2 2 bs),
           period := beInt (slice 8 8 bs), lift := beInt (slice 16 8 bs), committed := false }

/-- CAM_DEFINE: allocate, or release without HEADER. -/
def opCamDefine : Op :=
  { opcode := 0x0283, target := below 32, toe := false, states := [.commissioning, .operational], schema := [optional 0x0100 32]
    values := fun rq _ =>
      let bs := value rq 0x0100
      firstDeny [(has rq 0x0100 && !(camHeaderOk bs && bs.getD 0 0 == 0x41), badValue rq 0x0100)]
    effect := fun rq s =>
      let t := tgt 32 rq
      if camInUse t s then .deny conflict
      else if !has rq 0x0100 then
        let s1 := storeRelease (storeCam t) (onCam t (fun _ => {}) s)
        .done s1 [(0x0100, be 2 (storeEntries s1))]
      else
        match storeAllocate (storeCam t) (num rq 0x0100 2 2 + 1) s with
        | none => .deny (deny .resource)
        | some s1 =>
          let new : CamTable := { defined := true }
          let s2 := onCam t (fun _ => new.header (value rq 0x0100)) s1
          .done s2 [(0x0100, be 2 (storeEntries s2))] }

/-- Executes CAM_DEFINE. -/
def execCamDefine (rq : Request) (s : State) : Host.Outcome State Fault Refusal := runCommand opCamDefine rq s

/-- Write one 32-byte entry of a table; entry 0 is the header (Table 8.3). -/
def CamTable.entry (t : CamTable) (k : Nat) (bs : List Byte) : CamTable :=
  if k = 0 then t.header bs
  else
    let e : CamPoint :=
      { kind := (bs.getD 0 0).toNat, x := beInt (slice 8 8 bs), y := beInt (slice 16 8 bs), k := beInt (slice 24 8 bs) }
    { t with committed := false, points := putKey k e t.points }

/-- Entries a table's run in the segment store holds. -/
def camRoom (t : Fin 32) (s : State) : Nat := 16 * ((s.plan.store.find? (·.owner == storeCam t)).map (·.blocks)).getD 0

/-- CAM_DATA. -/
def opCamData : Op :=
  { opcode := 0x0284, target := below 32, toe := false, states := [.commissioning, .operational]
    schema := [fixed 0x0100 2, { type := 0x0101, lo := 32, hi := 1280, step := 32 }]
    effect := fun rq s =>
      let t := tgt 32 rq
      let bs := value rq 0x0101
      let at0 := num rq 0x0100 0 2
      let n := bs.length / 32
      let c := s.gear.cam[t]
      let badPoint := (List.range n).any fun k =>
        let e := slice (32 * k) 32 bs
        if at0 + k = 0 then !camHeaderOk e || decide (camRoom t s < beNat (slice 2 2 e) + 1)
        else bad63 (slice 8 8 e) || bad63 (slice 16 8 e) || (slice 1 7 e).any (· != 0)
      if !c.defined ∨ camInUse t s then .deny conflict
      else if c.count + 1 < at0 + n then .deny (badValue rq 0x0100)
      else if badPoint then .deny (badValue rq 0x0101)
      else .done (onCam t (fun c => (List.range n).foldl (fun c k => c.entry (at0 + k) (slice (32 * k) 32 bs)) c) s) [] }

/-- Executes CAM_DATA. -/
def execCamData (rq : Request) (s : State) : Host.Outcome State Fault Refusal := runCommand opCamData rq s

/-- The first failing entry of a table (R182). -/
def camBad (t : CamTable) : Option Nat :=
  if t.hkind ≠ 0x41 then some 0
  else
    let bad := (List.range t.count).find? fun k =>
      match getKey (k + 1) t.points with
      | none => true
      | some p => p.kind != 0x40 || (k == 0 && p.x != 0) ||
          (match getKey k t.points with
           | some q => k != 0 && decide (p.x ≤ q.x)
           | none => false)
    match bad with
    | some k => some (k + 1)
    | none => if t.periodic ∧ t.period ≤ (t.list.getLastD {}).x then some 0 else none

/-- CAM_COMMIT. -/
def opCamCommit : Op :=
  { opcode := 0x0285, target := below 32, toe := false, states := [.commissioning, .operational], schema := []
    effect := fun rq s =>
      let t := tgt 32 rq
      if !s.gear.cam[t].defined then .deny conflict
      else
        match camBad s.gear.cam[t] with
        | some k => .deny ⟨.badParam, [detail (Config.openDetail 0x0102 0) (Config.openDetail 0x0102 1) 3, (0x0100, be 2 k)]⟩
        | none => .done (onCam t (fun c => { c with committed := true }) s) [] }

/-- Executes CAM_COMMIT. -/
def execCamCommit (rq : Request) (s : State) : Host.Outcome State Fault Refusal := runCommand opCamCommit rq s

/-! VMASTER_SET and GEAR_STATUS_READ. -/

/-- The instant of a VMASTER_SET on a base: t_e, else now, in ns of that base (R188). -/
def effectInstant (rq : Request) (b : Fin 4) (s : State) : Int :=
  if rq.toe = 0 then (s.tbNs b : Nat) else (s.tbNs b : Nat) + ((rq.toe.toNat : Int) - s.tb0)

/-- VMASTER_SET: position continuous unless it is set. -/
def opVmasterSet : Op :=
  { opcode := 0x0286, target := below 8, toe := true, states := [.commissioning, .operational]
    schema := [optional 0x0100 1, optional 0x0101 8, optional 0x0102 8]
    values := fun rq _ => firstDeny
      [(decide (3 < num rq 0x0100 0 1), badValue rq 0x0100), (bad63s rq 0x0101 1, badValue rq 0x0101),
       (bad63s rq 0x0102 1, badValue rq 0x0102)]
    effect := fun rq s =>
      let k := tgt 8 rq
      let used := (List.finRange 64).any fun (i : Fin 64) =>
        let l := s.gear.link[i]
        l.mode != 0 && l.engage == 2 && l.mKind == 4 && l.mIndex == k.val
      if has rq 0x0102 ∧ used then .deny conflict
      else
        let v := s.gear.vm[k]
        let t := effectInstant rq (Fin.ofNat 4 v.base) s
        let b := numD rq 0x0100 0 1 v.base
        let w : VMaster :=
          { base := b, p0 := intD rq 0x0102 0 8 (v.posAt t), vel := intD rq 0x0101 0 8 v.vel, t0 := effectInstant rq (Fin.ofNat 4 b) s }
        .done (s.onGear fun u => { u with vm := upd u.vm k fun _ => w }) [] }

/-- Executes VMASTER_SET. -/
def execVmasterSet (rq : Request) (s : State) : Host.Outcome State Fault Refusal := runCommand opVmasterSet rq s

/-- GEAR_STATUS_READ. -/
def opGearStatusRead : Op :=
  { opcode := 0x0287, target := below 64, toe := false, states := afterStart, schema := []
    effect := fun rq s =>
      let i := tgt 64 rq
      let l := s.gear.link[i]
      .done s [(0x0100, be 4 (gearStatus i s).toNat), (0x0101, beI 4 l.num ++ be 4 l.den), (0x0102, beI 8 l.mLast),
               (0x0103, beI 8 l.slave)] }

/-- Executes GEAR_STATUS_READ. -/
def execGearStatusRead (rq : Request) (s : State) : Host.Outcome State Fault Refusal := runCommand opGearStatusRead rq s

end Sys2Proof.Machine
end

