-- ==== Sys2Proof/Machine/PortOps.lean ====
section
/-! DEFINITION.
The Position Port class: ports, compare units, latches, snapshot (R218 to R250, Table 10.10, 10). -/

namespace Sys2Proof.Machine

/-! Loss of feedback (R238 to R240). -/

/-- What a port does at a loss (R239). -/
def Port.lose (x : Port) (c : Nat) : Port :=
  { x.dropHeld with lossActive := true, fLoss := true, cause := c, referenced := false, ssiLast := none }

/-- The slots a port feeds: primary, secondary or pulse-follow port (R240). -/
def portSlots (p : Fin 32) (s : State) : List (Fin 64) :=
  (List.finRange 64).filter fun (i : Fin 64) => (slotPorts s.axis[i]).contains p.val

/-- FEEDBACK_LOSS: the port, then every slot it feeds: commutation offset discarded, live slots fault (R239, R240). -/
def portLoss (p : Fin 32) (c : Nat) (s : State) : State :=
  let s1 := event 0x0404 p.val (be 1 c) (onPort p (fun x => x.lose c) s)
  let l := portSlots p s1
  let s2 := l.foldl (fun s i => onAx i (fun a => { a with offset := none }) s) s1
  axisFaults (l.filter fun i => live s.axis[i]) 6 c s2

/-- A cause is present; newly present and enabled it is detected (R238, R239). -/
def lossPresent (p : Fin 32) (c : Nat) (s : State) : State :=
  let x := s.ports.port[p]
  if !(causeModes c).contains x.mode then s
  else
    let s1 := onPort p (fun x => { x with
      causesNow := x.causesNow ||| BitVec.ofNat 8 (2 ^ (c - 1)), absentAt := upd x.absentAt (Fin.ofNat 8 (c - 1)) fun _ => s.nowNs }) s
    if x.cfg.lossMask.getLsbD (c - 1) && !x.causesNow.getLsbD (c - 1) then portLoss p c s1 else s1

/-- A cause has gone: its wait of 10 ms starts (R239). -/
def lossGone (p : Fin 32) (c : Nat) (s : State) : State :=
  onPort p (fun x =>
    if x.causesNow.getLsbD (c - 1) then
      { x with causesNow := x.causesNow &&& ~~~BitVec.ofNat 8 (2 ^ (c - 1)), absentAt := upd x.absentAt (Fin.ofNat 8 (c - 1)) fun _ => s.nowNs }
    else x) s

/-- LOSS_ACTIVE clears; the next index is a reference index where the option is set (R234, R239). -/
def clearLoss (p : Fin 32) (s : State) : State :=
  onPort p (fun x => { x with lossActive := false, refPending := x.refPending || x.cfg.reference }) s

/-- Has every enabled cause been absent for 10 ms? FREEZE needs no wait (R239). -/
def lossOver (p : Fin 32) (s : State) : Bool :=
  let x := s.ports.port[p]
  x.lossActive && (x.causesNow &&& x.cfg.lossMask) == 0 &&
  ((List.finRange 8).all fun k => k == 5 || !x.cfg.lossMask.getLsbD k.val || decide (x.absentAt[k] + 10000000 ≤ s.nowNs)) &&
  (!x.cfg.lossMask.getLsbD 7 || decide (x.unresUntil + 10000000 ≤ s.nowNs))

/-- Motion of more than half a full step during a power-down clears HOLD_VALID of the steppers a port feeds (R286). -/
def steppersMoved (p : Fin 32) (s : State) : State :=
  ((portSlots p s).filter fun i => s.stepper.slot[i].downSince.isSome && stepAngle i s && stepperMoved i s).foldl
    (fun s i => onStep i (fun y => { y with holdValid := false }) s) s

/-- A change of position from what it was is seen by steppers; it ends FREEZE, and with it LOSS_ACTIVE when nothing else is present
(R239). -/
def moved (p : Fin 32) (before : Int) (s0 : State) : State :=
  let s := steppersMoved p s0
  if s.ports.port[p].counts ≠ before ∧ s.ports.port[p].causesNow.getLsbD 5 then
    let s1 := lossGone p 6 s
    if lossOver p s1 then clearLoss p s1 else s1
  else s

/-- Counts booked to UNRESOLVED; in modes 1 and 4 they are a loss when they reach UNRES_LIMIT within 10 ms (Table 10.5). -/
def unresolved (p : Fin 32) (n ns : Nat) (s : State) : State :=
  let x := s.ports.port[p]
  let l := (ns, n) :: x.unresAt.filter fun e => decide (ns < e.1 + 10000000)
  let sums := (List.range l.length).map fun (k : Nat) => (((l.take (k + 1)).map (·.2)).sum, (l.getD k (0, 0)).1)
  let s1 := onPort p (fun x => { x with unresolved := bump x.unresolved n, unresAt := l }) s
  match (if x.mode = 1 ∨ x.mode = 4 then sums.find? fun e => decide (x.cfg.unresLimit ≤ e.1) else none) with
  | none => s1
  | some e =>
    let s2 := if x.unresUntil ≤ ns then lossGone p 8 s1 else s1
    let s3 := lossPresent p 8 s2
    onPort p (fun x => { x with unresUntil := e.2 + 10000000 }) s3

/-! PP_CONFIG to PP_STATUS_READ. -/

/-- "Free port" (R249): in Commissioning, or named by no live slot, master of no engaged link, watched by no enabled
compare unit. -/
def freePort (p : Fin 32) (s : State) : Bool :=
  s.sys.dev == .commissioning ||
  ((portSlots p s).all (fun i => !live s.axis[i]) &&
   (List.finRange 64).all (fun (i : Fin 64) =>
     let l := s.gear.link[i]
     !(l.engage == 2 && (l.mKind == 0 || l.mKind == 3) && l.mIndex == p.val)) &&
   (List.finRange 16).all (fun (u : Fin 16) => !(s.ports.cmp[u].ctrl.active.getLsbD 0 && s.ports.cmp[u].port == p.val)))

/-- The mode the feedback of a bound slot fixes for a port (R250). -/
def fixedMode (p : Fin 32) (s : State) : Option Nat :=
  (List.finRange 64).findSome? fun (i : Fin 64) =>
    let a : Axis := s.axis[i]
    let f : Nat := (a.mode.map (·.feedback)).getD 0
    if a.bind.portA = some p.val then
      (match f with
       | 1 => some 1 | 2 => some 4 | 3 => some 1 | 4 => some 5 | 5 => some 6 | _ => none)
    else if a.bind.portB = some p.val ∧ f = 3 then some 4
    else none

/-- The SSI layout of a PP_CONFIG (Table 10.10). -/
def ssiOf (rq : Request) : SsiCfg :=
  let b := fun (k : Nat) => num rq 0x0105 k 1
  { lead := b 0, mt := b 1, st := b 2, stat := b 3, errPol := BitVec.ofNat 8 (b 4), crcLen := b 5, crcPoly := b 6,
    clock := num rq 0x0105 8 2, delay := num rq 0x0105 10 2, tm := b 12, errLimit := b 13, poll := num rq 0x0105 14 2 }

/-- The layout is within R224, Table 10.1 and Table 10.5. -/
def SsiCfg.ok (c : SsiCfg) : Bool :=
  let n := c.lead + c.mt + c.st + c.stat + c.crcLen
  decide (8 ≤ n) && decide (n ≤ 64) && decide (1 ≤ c.st) && decide (c.mt + c.st ≤ 45) && decide (100 ≤ c.clock) &&
  decide (c.clock ≤ 10000) && decide (c.delay ≤ 2000) && c.delay % 5 == 0 && decide (1 ≤ c.tm) && decide (1 ≤ c.errLimit) &&
  decide (c.errLimit ≤ 15) && decide (10 ≤ c.poll) && decide (c.poll ≤ 10000)

/-- The sin/cos settings of a PP_CONFIG. -/
def sinOf (rq : Request) : SinCfg :=
  { ampMin := num rq 0x0106 0 2, ampMax := num rq 0x0106 2 2, offS := int rq 0x0106 4 2, offC := int rq 0x0106 6 2,
    gainS := int rq 0x0106 8 2, gainC := int rq 0x0106 10 2 }

/-- The inner period of the bound slot that names a port, ns. -/
def portInner (p : Fin 32) (s : State) : Option Nat :=
  (List.finRange 64).findSome? fun (i : Fin 64) =>
    if s.axis[i].bind.portA = some p.val ∨ s.axis[i].bind.portB = some p.val then s.axis[i].mode.map (fun m => 2 * m.period) else none

/-- Values of PP_CONFIG (R225, R249, R250). -/
def ppConfigValues (rq : Request) (s : State) : Option Deny :=
  let p := tgt 32 rq
  let mode := num rq 0x0100 0 1
  let poll := 1000 * (ssiOf rq).poll
  let room := min poll ((portInner p s).getD poll)
  if mode = 5 ∧ !has rq 0x0105 then some (missing 0x0105)
  else if mode = 6 ∧ !has rq 0x0106 then some (missing 0x0106)
  else firstDeny
    [(decide (6 < mode) || (mode == 6 && decide (8 ≤ p.val)), badValue rq 0x0100),
     (decide (63 < num rq 0x0101 0 1), badValue rq 0x0101),
     (decide (127 < num rq 0x0102 0 1), badValue rq 0x0102),
     (decide (num rq 0x0103 0 4 < 2), badValue rq 0x0103),
     (decide (1000000 < numD rq 0x0104 0 4 0), badValue rq 0x0104),
     (has rq 0x0105 && (mode != 5 || !(ssiOf rq).ok || num rq 0x0105 7 1 != 0 || decide (room < ssiTime (ssiOf rq))), badValue rq 0x0105),
     (has rq 0x0106 && (mode != 6 || decide ((sinOf rq).ampMax ≤ (sinOf rq).ampMin) || num rq 0x0106 12 4 != 0), badValue rq 0x0106)]

/-- The configuration a PP_CONFIG leaves; it keeps index, speed and freeze settings. -/
def ppConfigured (rq : Request) (c : PortCfg) : PortCfg :=
  { c with filter := num rq 0x0101 0 1, opts := BitVec.ofNat 8 (num rq 0x0102 0 1), delay := numD rq 0x0104 0 4 0,
           ssi := if has rq 0x0105 then ssiOf rq else c.ssi, sincos := if has rq 0x0106 then sinOf rq else c.sincos }

/-- Causes enabled by a new mask that are present now are detected (R238). -/
def enableCauses (p : Fin 32) (mask : BitVec 8) (s : State) : State :=
  let x := s.ports.port[p]
  let new := mask &&& ~~~x.cfg.lossMask &&& x.causesNow
  ((List.range 8).filter fun k => new.getLsbD k).foldl (fun s k => portLoss p (k + 1) s)
    (onPort p (fun x => { x with cfg := { x.cfg with lossMask := mask } }) s)

/-- PP_CONFIG: every loss cause but 6 is enabled (R238). -/
def opPpConfig : Op :=
  { opcode := 0x0400, target := below 32, toe := false, states := [.commissioning, .operational]
    schema := [fixed 0x0100 1, fixed 0x0101 1, fixed 0x0102 1, fixed 0x0103 4, optional 0x0104 4, optional 0x0105 16, optional 0x0106 16]
    values := ppConfigValues
    effect := fun rq s =>
      let p := tgt 32 rq
      let mode := num rq 0x0100 0 1
      if !freePort p s then .deny conflict
      else if (fixedMode p s).any (· != mode) then .deny (conflictAt rq 0x0100)
      else
        let s1 := setPort p mode (num rq 0x0103 0 4) s
        .done (enableCauses p 0xDF (onPort p (fun x => { x with
          cfg := ppConfigured rq x.cfg, ssiLast := none, ssiAbs := none, ssiOff := 0, ssiBad := 0, ssiStart := none,
          hallRef := x.hallStart, refPending := x.cfg.reference }) s1)) [] }

/-- Executes PP_CONFIG. -/
def execPpConfig (rq : Request) (s : State) : Host.Outcome State Fault Refusal := runCommand opPpConfig rq s

/-- PP_SET_POSITION (R230, R234). On an SSI port O changes by the last absolute value read, also during a loss; before any frame it stays
(DESIGN CHOICE, log 50). -/
def opPpSetPosition : Op :=
  { opcode := 0x0401, target := below 32, toe := true, states := [.commissioning, .operational], schema := [fixed 0x0100 8]
    values := fun rq s =>
      let m := s.ports.port[tgt 32 rq].cfg.modulus
      let v := int rq 0x0100 0 8
      firstDeny [(bad63At rq 0x0100 0 || v % 65536 != 0 || decide (v / 65536 < posMin m) || decide (posMax m < v / 65536), badValue rq 0x0100)]
    effect := fun rq s =>
      let p := tgt 32 rq
      let v := int rq 0x0100 0 8 / 65536
      if !freePort p s then .deny conflict
      else
        .done (moved p s.ports.port[p].counts (onPort p (fun x => { x with
          ssiOff := match x.ssiAbs with
            | some a => if x.mode = 5 then v - a else x.ssiOff
            | none => x.ssiOff
          referenced := x.referenced || (x.mode != 0 && x.mode != 5) }) (presetPort p v s.nowNs s))) [] }

/-- Executes PP_SET_POSITION. -/
def execPpSetPosition (rq : Request) (s : State) : Host.Outcome State Fault Refusal := runCommand opPpSetPosition rq s

/-- Is the index qualified now (R232)? GATE 1 to 4: Z high in the state 0b00, 0b01, 0b11, 0b10 of 2B + A. -/
def Port.indexHigh (x : Port) (gate : Nat) : Bool :=
  x.lineZ && (gate == 0 || [0, 1, 3, 2].getD (gate - 1) 0 == 2 * bit x.lineB + bit x.lineA)

/-- PP_INDEX_CONFIG. -/
def opPpIndexConfig : Op :=
  { opcode := 0x0402, target := below 32, toe := false, states := [.commissioning, .operational], schema := [fixed 0x0100 16]
    values := fun rq _ => firstDeny
      [(decide (2 < num rq 0x0100 0 1) || decide (4 < num rq 0x0100 1 1) || decide (1 < num rq 0x0100 2 1) || num rq 0x0100 3 1 != 0,
        badValue rq 0x0100)]
    effect := fun rq s =>
      let p := tgt 32 rq
      let ref := num rq 0x0100 2 1 == 1
      if !freePort p s then .deny conflict
      else
        .done (onPort p (fun x => { x with
          refPending := ref, idxActive := x.indexHigh (num rq 0x0100 1 1)
          cfg := { x.cfg with idxPolicy := num rq 0x0100 0 1, gate := num rq 0x0100 1 1, reference := ref,
                              idxPos := num rq 0x0100 4 4, tol := num rq 0x0100 8 4, spread := num rq 0x0100 12 4 } }) s) [] }

/-- Executes PP_INDEX_CONFIG. -/
def execPpIndexConfig (rq : Request) (s : State) : Host.Outcome State Fault Refusal := runCommand opPpIndexConfig rq s

/-- PP_SPEED_CONFIG (R236). -/
def opPpSpeedConfig : Op :=
  { opcode := 0x0403, target := below 32, toe := false, states := [.commissioning, .operational], schema := [fixed 0x0100 24]
    values := fun rq s =>
      let p := tgt 32 rq
      let n := fun (o l : Nat) => num rq 0x0100 o l
      firstDeny
        [(decide (n 0 2 < 1) || decide (1000 < n 0 2) || decide (n 2 1 < 1) || decide (8 < n 2 1) || n 3 1 != 0 || decide (n 4 4 < 10) ||
          decide (10000 < n 4 4) || decide (1000 * n 4 4 < samplePeriod p s) || bad63At rq 0x0100 8 || bad63At rq 0x0100 16 ||
          decide (int rq 0x0100 16 8 < int rq 0x0100 8 8), badValue rq 0x0100)]
    effect := fun rq s =>
      let p := tgt 32 rq
      if !freePort p s then .deny conflict
      else
        .done (onPort p (fun x => { x with
          cfg := { x.cfg with timeoutMs := num rq 0x0100 0 2, periodEdges := num rq 0x0100 2 1, tw := num rq 0x0100 4 4,
                              vLo := int rq 0x0100 8 8, vHi := int rq 0x0100 16 8 } }) s) [] }

/-- Executes PP_SPEED_CONFIG. -/
def execPpSpeedConfig (rq : Request) (s : State) : Host.Outcome State Fault Refusal := runCommand opPpSpeedConfig rq s

/-- PP_LOSS_CONFIG (R238): a cause enabled while it is present is detected. -/
def opPpLossConfig : Op :=
  { opcode := 0x0404, target := below 32, toe := false, states := [.commissioning, .operational, .test], schema := [fixed 0x0100 16]
    values := fun rq _ => firstDeny
      [(num rq 0x0100 1 1 == 0 || num rq 0x0100 2 1 == 0 || num rq 0x0100 3 5 != 0 || bad63At rq 0x0100 8, badValue rq 0x0100)]
    effect := fun rq s =>
      let p := tgt 32 rq
      let s1 := onPort p (fun x => { x with
        cfg := { x.cfg with unresLimit := num rq 0x0100 1 1, freezeMs := num rq 0x0100 2 1, freezeSpeed := int rq 0x0100 8 8 } }) s
      .done (enableCauses p (BitVec.ofNat 8 (num rq 0x0100 0 1)) s1) [] }

/-- Executes PP_LOSS_CONFIG. -/
def execPpLossConfig (rq : Request) (s : State) : Host.Outcome State Fault Refusal := runCommand opPpLossConfig rq s

/-- PP_STATUS_READ. -/
def opPpStatusRead : Op :=
  { opcode := 0x0405, target := below 32, toe := false, states := afterStart, schema := []
    effect := fun rq s =>
      let p := tgt 32 rq
      let x := s.ports.port[p]
      .done s
        [(0x0100, be 4 (ppStatus p s).toNat), (0x0101, beI 8 (x.counts * 65536)), (0x0102, be 4 x.cir), (0x0103, beI 4 x.rev),
         (0x0104, beI 8 x.speed), (0x0105, be 8 (x.edgeFwd - x.edgeRev).toNat), (0x0106, beI 4 x.disc), (0x0107, beI 4 x.held)] }

/-- Executes PP_STATUS_READ. -/
def execPpStatusRead (rq : Request) (s : State) : Host.Outcome State Fault Refusal := runCommand opPpStatusRead rq s

/-! Compare units (R241 to R244, R250). -/

/-- A compare unit is enabled: armed by PCU_CTRL. -/
def Compare.enabled (c : Compare) : Bool := c.ctrl.active.getLsbD 0

/-- COMPARE_DEFINE. -/
def opCompareDefine : Op :=
  { opcode := 0x0410, target := below 16, toe := false, states := [.commissioning, .operational, .test]
    schema := [fixed 0x0100 1, optional 0x0101 2, fixed 0x0102 1]
    values := fun rq _ => firstDeny
      [(decide (31 < num rq 0x0100 0 1), badValue rq 0x0100),
       (has rq 0x0101 && (num rq 0x0101 0 2 == 0 || decide (1024 < num rq 0x0101 0 2)), badValue rq 0x0101),
       (decide (3 < num rq 0x0102 0 1), badValue rq 0x0102)]
    effect := fun rq s =>
      let u := tgt 16 rq
      let n := num rq 0x0101 0 2
      let fresh0 := onCmp u (fun c => { c with
        port := num rq 0x0100 0 1, modulo := hasBit (num rq 0x0102 0 1) 0, cyclic := hasBit (num rq 0x0102 0 1) 1,
        defined := has rq 0x0101, length := n, entries := [], head := 0, rep := 0, done := false })
      if s.ports.cmp[u].enabled then .deny conflict
      else if !has rq 0x0101 then
        let s1 := fresh0 (storeRelease (storeCompare u) s)
        .done s1 [(0x0100, be 2 (storeEntries s1))]
      else
        match storeAllocate (storeCompare u) n s with
        | none => .deny (deny .resource)
        | some s1 => .done (fresh0 s1) [(0x0100, be 2 (storeEntries s1))] }

/-- Executes COMPARE_DEFINE. -/
def execCompareDefine (rq : Request) (s : State) : Host.Outcome State Fault Refusal := runCommand opCompareDefine rq s

/-- A compare entry from its 32 bytes (Table 10.6). -/
def compareEntry (bs : List Byte) : CmpEntry :=
  { kind := beNat (slice 0 1 bs), flags := bs.getD 1 0, width := beNat (slice 2 2 bs), reps := beNat (slice 4 4 bs),
    p := beInt (slice 8 8 bs), interval := beInt (slice 16 8 bs) }

/-- COMPARE_DATA. -/
def opCompareData : Op :=
  { opcode := 0x0411, target := below 16, toe := false, states := [.commissioning, .operational, .test]
    schema := [fixed 0x0100 2, { type := 0x0101, lo := 32, hi := 1280, step := 32 }]
    effect := fun rq s =>
      let u := tgt 16 rq
      let bs := value rq 0x0101
      let n := bs.length / 32
      let at0 := num rq 0x0100 0 2
      let c := s.ports.cmp[u]
      if c.enabled ∨ !c.defined then .deny conflict
      else if c.length < at0 + n then .deny (badValue rq 0x0100)
      else if (List.range n).any fun k => bad63 (slice (32 * k + 8) 8 bs) || bad63 (slice (32 * k + 16) 8 bs) then .deny (badValue rq 0x0101)
      else
        let put := fun (l : List (Nat × CmpEntry)) => (List.range n).foldl (fun l (k : Nat) => putKey (at0 + k) (compareEntry (slice (32 * k) 32 bs)) l) l
        .done (onCmp u (fun c => { c with entries := put c.entries }) s) [] }

/-- Executes COMPARE_DATA. -/
def execCompareData (rq : Request) (s : State) : Host.Outcome State Fault Refusal := runCommand opCompareData rq s

/-- An entry that COMPARE_ARM accepts (R250). -/
def compareEntryOk (modulo : Bool) (m : Nat) (e : CmpEntry) : Bool :=
  (e.kind == 0x60 || e.kind == 0x61) && e.flags.toNat % 4 != 3 && !(e.flags.toNat / 4 % 4 == 0 && e.width == 0) &&
  !(e.kind == 0x61 && (e.reps == 0 || e.interval == 0)) &&
  (!modulo || (decide (0 ≤ e.p) && decide (e.p ≤ ((m : Int) - 1) * 65536)))

/-- The first entry COMPARE_ARM refuses. -/
def compareBad (u : Fin 16) (s : State) : Option Nat :=
  let c := s.ports.cmp[u]
  let m := s.ports.port[Fin.ofNat 32 c.port].cfg.modulus
  (List.range c.length).find? fun k =>
    match getKey k c.entries with
    | none => true
    | some e => !compareEntryOk c.modulo m e

/-- Write bits of PCU_CTRL's shadow and strobe US4 (R250). -/
def writePcuCtrl (u : Fin 16) (mask bits : Nat) (s : State) : State :=
  strobe (BitVec.ofNat 16 16) (markDirty 4
    (onCmp u (fun c => { c with ctrl := c.ctrl.write ((c.ctrl.shadow &&& ~~~BitVec.ofNat 32 mask) ||| BitVec.ofNat 32 bits) }) s))

/-- COMPARE_ARM. -/
def opCompareArm : Op :=
  { opcode := 0x0412, target := below 16, toe := true, states := [.commissioning, .operational, .test]
    schema := [fixed 0x0100 1, optional 0x0101 2]
    values := fun rq _ => firstDeny [(decide (1 < num rq 0x0100 0 1), badValue rq 0x0100)]
    effect := fun rq s =>
      let u := tgt 16 rq
      let c := s.ports.cmp[u]
      let start := numD rq 0x0101 0 2 0
      if num rq 0x0100 0 1 = 0 then .done (writePcuCtrl u 1 0 s) []
      else if !c.defined then .deny conflict
      else if c.length ≤ start then .deny (badValue rq 0x0101)
      else
        match compareBad u s with
        | some k =>
          let d := badValue rq 0x0100
          .deny ⟨d.status, d.tlvs ++ [(0x0100, be 2 k)]⟩
        | none => .done (writePcuCtrl u 1 1 (onCmp u (fun c => { c with head := start, rep := 0, done := false }) s)) [] }

/-- Executes COMPARE_ARM. -/
def execCompareArm (rq : Request) (s : State) : Host.Outcome State Fault Refusal := runCommand opCompareArm rq s

/-- COMPARE_FORCE: FORCE and LEVEL of PCU_CTRL, with a strobe of US4. -/
def opCompareForce : Op :=
  { opcode := 0x0413, target := below 16, toe := true, states := [.commissioning, .operational, .test], schema := [fixed 0x0100 1]
    values := fun rq _ => firstDeny [(decide (2 < num rq 0x0100 0 1), badValue rq 0x0100)]
    effect := fun rq s =>
      let f := num rq 0x0100 0 1
      .done (writePcuCtrl (tgt 16 rq) 6 (if f = 0 then 0 else if f = 1 then 2 else 6) s) [] }

/-- Executes COMPARE_FORCE. -/
def execCompareForce (rq : Request) (s : State) : Host.Outcome State Fault Refusal := runCommand opCompareForce rq s

/-! Latches and the snapshot (R245 to R250). -/

/-- A source selection is in range (Table 10.7). -/
def selectionOk (code sel : Nat) : Bool :=
  match code with
  | 0 => decide (sel < 16)
  | 1 => decide (sel < 8)
  | 2 => true
  | 3 => true
  | 4 => decide (sel < 16)
  | 5 => decide (sel < 32)
  | _ => false

/-- Values of SOURCE, OFFSET and TIME (R245, R250). -/
def sourceDeny (rq : Request) (tSrc tOff tTime : Nat) : Option Deny :=
  let code := num rq tSrc 0 1
  let edges := num rq tSrc 2 1
  let off := intD rq tOff 0 4 0
  firstDeny
    [(!selectionOk code (num rq tSrc 1 1) || (code == 0 && (edges == 0 || decide (3 < edges))) || num rq tSrc 3 1 != 0 ||
        (code == 3 && !has rq tTime), badValue rq tSrc),
     (decide (off < -100000) || decide (1000000 < off), badValue rq tOff),
     (has rq tTime && code != 3, badValue rq tTime)]

/-- First instant of a schedule at or after now (Table 10.7 code 3). -/
def firstInstant (first period : Nat) (s : State) : Option Nat :=
  if s.tb0 ≤ first then some first
  else if period = 0 then none
  else some (first + (s.tb0 - first + period - 1) / period * period)

/-- The source a request configures. -/
def captureSource (rq : Request) (tSrc tOff tTime : Nat) (s : State) : Source107 :=
  let code := num rq tSrc 0 1
  let first := numD rq tTime 0 8 0
  let period := numD rq tTime 8 8 0
  { code := code, sel := num rq tSrc 1 1, edges := num rq tSrc 2 1, first := first, period := period, offset := intD rq tOff 0 4 0,
    nextAt := if code = 3 then firstInstant first period s else none }

/-- Change a latch unit. -/
def onLatch (l : Fin 16) (f : Latch → Latch) (s : State) : State := s.onPorts fun b => { b with latch := upd b.latch l f }

/-- Change the snapshot unit. -/
def onSnap (f : Snap → Snap) (s : State) : State := s.onPorts fun b => { b with snap := f b.snap }

/-- LATCH_CONFIG. -/
def opLatchConfig : Op :=
  { opcode := 0x0420, target := below 16, toe := false, states := [.commissioning, .operational, .test]
    schema := [fixed 0x0100 1, fixed 0x0101 1, fixed 0x0102 4, optional 0x0103 4, optional 0x0104 16]
    values := fun rq _ =>
      match firstDeny [(decide (1 < num rq 0x0100 0 1), badValue rq 0x0100), (decide (31 < num rq 0x0101 0 1), badValue rq 0x0101)] with
      | some d => some d
      | none => sourceDeny rq 0x0102 0x0103 0x0104
    effect := fun rq s =>
      .done (onLatch (tgt 16 rq) (fun l => { l with
        enabled := num rq 0x0100 0 1 == 1, port := num rq 0x0101 0 1, src := captureSource rq 0x0102 0x0103 0x0104 s,
        lastValid := if num rq 0x0101 0 1 = l.port then l.lastValid else none }) s) [] }

/-- Executes LATCH_CONFIG. -/
def execLatchConfig (rq : Request) (s : State) : Host.Outcome State Fault Refusal := runCommand opLatchConfig rq s

/-- A capture's 24 bytes. -/
def Capture.bytes (c : Capture) : List Byte :=
  beI 8 c.pos ++ be 8 c.atTime ++ be 2 c.seq ++ be 1 c.source ++ be 1 (bit c.valid) ++ be 4 0

/-- LATCH_READ: the oldest captures, which it removes. -/
def opLatchRead : Op :=
  { opcode := 0x0421, target := below 16, toe := false, states := afterStart, schema := [fixed 0x0100 1]
    values := fun rq _ => firstDeny [(num rq 0x0100 0 1 == 0 || decide (16 < num rq 0x0100 0 1), badValue rq 0x0100)]
    effect := fun rq s =>
      let l := tgt 16 rq
      let n := num rq 0x0100 0 1
      let x := s.ports.latch[l]
      .done (onLatch l (fun x => { x with caps := x.caps.drop n, lost := 0 }) s)
        [(0x0100, (x.caps.take n).flatMap Capture.bytes), (0x0101, be 4 x.lost)] }

/-- Executes LATCH_READ. -/
def execLatchRead (rq : Request) (s : State) : Host.Outcome State Fault Refusal := runCommand opLatchRead rq s

/-- SNAPSHOT_CONFIG. -/
def opSnapshotConfig : Op :=
  { opcode := 0x0430, target := device, toe := false, states := [.commissioning, .operational, .test]
    schema := [fixed 0x0100 1, fixed 0x0101 4, optional 0x0102 4, optional 0x0103 16]
    values := fun rq _ =>
      match firstDeny [(decide (1 < num rq 0x0100 0 1), badValue rq 0x0100)] with
      | some d => some d
      | none => sourceDeny rq 0x0101 0x0102 0x0103
    effect := fun rq s =>
      .done (onSnap (fun x => { x with enabled := num rq 0x0100 0 1 == 1, src := captureSource rq 0x0101 0x0102 0x0103 s }) s) [] }

/-- Executes SNAPSHOT_CONFIG. -/
def execSnapshotConfig (rq : Request) (s : State) : Host.Outcome State Fault Refusal := runCommand opSnapshotConfig rq s

/-- An entry's 16 bytes. -/
def SnapEntry.bytes (e : SnapEntry) : List Byte := be 1 e.slot ++ be 1 (bit e.valid + 2 * bit e.est) ++ be 6 0 ++ beI 8 e.pos

/-- SNAPSHOT_READ: the oldest snapshot, which it removes; without one there is no RECORD (log entry 22). -/
def opSnapshotRead : Op :=
  { opcode := 0x0431, target := device, toe := false, states := afterStart, schema := []
    effect := fun _ s =>
      let x := s.ports.snap
      let recs := match x.held with
        | (t, es) :: _ => [(0x0100, beI 8 t ++ be 1 es.length ++ be 3 0 ++ es.flatMap SnapEntry.bytes)]
        | [] => []
      .done (onSnap (fun x => { x with held := x.held.drop 1, lost := 0 }) s) (recs ++ [(0x0101, be 4 x.lost)]) }

/-- Executes SNAPSHOT_READ. -/
def execSnapshotRead (rq : Request) (s : State) : Host.Outcome State Fault Refusal := runCommand opSnapshotRead rq s

/-- SNAPSHOT_TRIGGER: the capture instant is its time-of-effect, or its arrival (R248). -/
def opSnapshotTrigger : Op :=
  { opcode := 0x0432, target := device, toe := true, states := [.operational, .test], schema := []
    effect := fun rq s =>
      let t := if rq.toe = 0 then rq.arrival else rq.toe.toNat
      .done (onSnap (fun x => { x with due := x.due ++ [dueCapture x.src.code t 0 s] }) s) [] }

/-- Executes SNAPSHOT_TRIGGER. -/
def execSnapshotTrigger (rq : Request) (s : State) : Host.Outcome State Fault Refusal := runCommand opSnapshotTrigger rq s

end Sys2Proof.Machine
end

