-- ==== Sys2Proof/Machine/CanCore.lean ====
section
/-! DEFINITION.
CAN controllers: frames and their times, error states, the event queue, windows (R382 to R391, 17). Error counting follows
ISO 11898-1 (R382; log entry 31). -/

namespace Sys2Proof.Machine

/-- Change a controller. -/
def onCtl (c : Fin 4) (f : CanCtl → CanCtl) (s : State) : State := s.onCan fun b => { b with ctl := upd b.ctl c f }

/-- The CAN domain runs: not gated in Nap or Rest, not stopped by the loss of the reference (R33, R394). -/
def canRuns (s : State) : Bool :=
  afterStartup s && domainsRun s

/-! Frames (R382, R387). -/

/-- Data bytes of a data length code. -/
def dlcBytes (fd : Bool) (dlc : Nat) : Nat :=
  if fd then [0, 1, 2, 3, 4, 5, 6, 7, 8, 12, 16, 20, 24, 32, 48, 64].getD dlc 64 else min dlc 8

/-- Data bytes a frame carries; a remote frame carries none. -/
def frameBytes (f : CanFrame) : Nat := if f.rtr then 0 else dlcBytes f.fd f.dlc

/-- A bit of a phase in half nanoseconds: BRP × 12.5 ns × (1 + TSEG1 + TSEG2) (R383). -/
def CanTiming.bitTime (t : CanTiming) : Nat := 25 * t.brp * (1 + t.tseg1 + t.tseg2)

/-- t_frame of R387 in half nanoseconds. -/
def frameTime (g : CanCfg) (f : CanFrame) : Nat :=
  let n : Nat := frameBytes f
  let tn : Nat := g.nominal.bitTime
  let td : Nat := if f.brs then (g.data.map CanTiming.bitTime).getD tn else tn
  if f.fd then
    (if f.ext then 57 else 34) * tn + (5 + 8 * n + (5 + 8 * n) / 4 + (if n ≤ 16 then 27 else 32)) * td
  else if f.ext then (8 * n + 64 + (8 * n + 53) / 4) * tn
  else (8 * n + 44 + (8 * n + 33) / 4) * tn

/-- The 72 bytes of a frame in a TLV (Table 17.4). Bit 28 of the identifier field is the remote bit (log entry 31). -/
def frameTlv (f : CanFrame) : List Byte :=
  be 4 ((f.ident ||| (if f.rtr then 2 ^ 28 else 0)) + 2 ^ 31 * bit f.ext + 2 ^ 30 * bit f.fd + 2 ^ 29 * bit f.brs) ++ be 1 f.dlc ++ be 3 0 ++
    (f.data ++ List.replicate 64 0).take 64

/-- A frame from its 72 bytes. -/
def frameOf (bs : List Byte) : CanFrame :=
  let w : Nat := beNat (bs.take 4)
  let f : CanFrame :=
    { ident := w % 2 ^ 28, ext := hasBit w 31, fd := hasBit w 30, brs := hasBit w 29, rtr := hasBit w 28, dlc := beNat (slice 4 1 bs) }
  { f with data := slice 8 (frameBytes f) bs }

/-- A frame's bytes break Table 17.4 or R397. -/
def frameBad (bs : List Byte) : Bool :=
  let f := frameOf bs
  (!f.ext && decide (2 ^ 11 ≤ f.ident)) || (!f.fd && decide (8 < f.dlc)) || decide (15 < f.dlc) || (f.fd && f.rtr) ||
    beNat (slice 5 3 bs) != 0

/-! Error states (ISO 11898-1, R384). -/

/-- BUS after a change of the counters. -/
def CanCtl.busOf (x : CanCtl) : Nat := if x.bus = 2 ∨ 256 ≤ x.tec then 2 else if 128 ≤ x.tec ∨ 128 ≤ x.rxErr then 1 else 0

/-- Take the error state the counters ask for; ERROR_PASSIVE and BUS_OFF are raised on entry. -/
def busState (c : Fin 4) (s : State) : State :=
  let x := s.can.ctl[c]
  let n := x.busOf
  if n = x.bus then s
  else if n = 2 then
    event 0x0B02 c.val [] (onCtl c (fun x => { x with
      bus := 2, fBusOff := true, sending := none, recover := false, recessive := 0, busOffAt := s.nowNs }) s)
  else
    let s1 := onCtl c (fun x => { x with bus := n }) s
    if n = 1 then event 0x0B03 c.val [] s1 else s1

/-! The schedule matrix (R385 to R387). -/

/-- The time a controller's cycles run on: its base, or the device's own count for a slave. -/
def canTime (x : CanCtl) (s : State) : Nat := if x.tt.source = 2 then s.nowNs else s.tbNs (Fin.ofNat 4 x.tt.base)

/-- No matrix: TT_SOURCE 3, or none configured since Reset, when TT_SOURCE reads 0 (CAN_TT). -/
def CanTt.absent (t : CanTt) : Bool := t.source == 3 || t.windows == 0

/-- Start and end of a window in its cycle, ns. -/
def CanTt.span (t : CanTt) (w : Nat) : Nat × Nat :=
  (t.starts.getD w 0, if w + 1 < t.windows then t.starts.getD (w + 1) 0 else t.cycleNs)

/-- The cell of a cycle and a window: kind 0 exclusive, 1 arbitrating, 2 reserved, and its buffer. -/
def CanTt.cell (t : CanTt) (cycle w : Nat) : Nat × Nat := if cycle < t.cycles then t.cells.getD (cycle * t.windows + w) (2, 0) else (2, 0)

/-- TT_MISSED. -/
def ttMissed (c : Fin 4) (s : State) : State := event 0x0B05 c.val [] (onCtl c (fun x => { x with fMissed := true }) s)

/-- May an event frame of this length start now: without a matrix always, else in an arbitrating window it fits (R389). -/
def mayStart (x : CanCtl) (f : CanFrame) (s : State) : Bool :=
  if x.tt.absent then true
  else
    let pos : Int := (canTime x s : Int) - x.cycleStart
    x.ttSync && (x.tt.cell x.ttCycle x.ttWindow).1 == 1 && decide ((x.tt.span x.ttWindow).1 ≤ pos) &&
      decide (2 * pos + frameTime x.cfg f ≤ 2 * (x.tt.span x.ttWindow).2)

/-- The highest-priority frame: the lowest identifier, the first to arrive among equals (R389). -/
def topFrame (q : List CanTx) : Option CanTx :=
  q.foldl (fun b t => match b with
    | none => some t
    | some u => if t.frame.ident < u.frame.ident then some t else b) none

/-- The queue sends its highest-priority frame if it may (R389). -/
def trySend (c : Fin 4) (s : State) : State :=
  let x := s.can.ctl[c]
  match topFrame x.queue with
  | none => s
  | some t =>
    if canRuns s && x.cfg.mode == 1 && x.bus != 2 && x.joinAt.isNone && x.sending.isNone && mayStart x t.frame s then
      onCtl c (fun x => { x with sending := some (0, t.frame) }) s
    else s

/-- Strike the first queued frame for which `p` holds. -/
def dropFirst (p : CanTx → Bool) : List CanTx → List CanTx
  | [] => []
  | t :: l => if p t then l else t :: dropFirst p l

/-- Change the first queued frame for which `p` holds. -/
def mapFirst (p : CanTx → Bool) (f : CanTx → CanTx) : List CanTx → List CanTx
  | [] => []
  | t :: l => if p t then f t :: l else t :: mapFirst p f l

/-- The queued frame on the bus has lost arbitration or met an error: retried later, or abandoned at the limit (R389). -/
def retryEvent (c : Fin 4) (f : CanFrame) (s : State) : State :=
  let x := s.can.ctl[c]
  let mine := fun (t : CanTx) => t.frame == f
  let tries := ((x.queue.find? mine).map (·.tries)).getD 0 + 1
  if x.cfg.retry ≠ 255 ∧ x.cfg.retry < tries then
    event 0x0B04 c.val [] (onCtl c (fun x => { x with
      queue := dropFirst mine x.queue, abandoned := bump x.abandoned 1, fAbandoned := true }) s)
  else onCtl c (fun x => { x with queue := mapFirst mine (fun t => { t with tries := t.tries + 1 }) x.queue }) s

/-- Put a configuration in force; a change of timing or mode abandons every queued frame, and the controller rejoins the bus after
11 recessive bits (R390, R396). -/
def putConfig (c : Fin 4) (g : CanCfg) (s : State) : State :=
  onCtl c (fun x =>
    let drop := g.nominal != x.cfg.nominal || g.data != x.cfg.data || g.mode != x.cfg.mode
    { x with
      cfg := g, cfgNext := none, sending := none, locked := false, candidate := 0, cands := [], goodFrames := 0
      joinAt := if g.mode = 0 then none else some (s.nowNs + (11 * g.nominal.bitTime + 1) / 2)
      ttSync := x.ttSync && g.mode != 0
      queue := if drop then [] else x.queue, abandoned := if drop then bump x.abandoned x.queue.length else x.abandoned }) s

/-- The frame on the bus has ended: a configuration that waited for it comes into force (R396), else the queue may send. -/
def busFree (c : Fin 4) (s : State) : State :=
  let s1 := onCtl c (fun x => { x with sending := none }) s
  match (s1.can.ctl[c]).cfgNext with
  | some g => finish (fun e => e.opcode == 0x0B00 && e.key == c.val) .done [] (putConfig c g s1)
  | none => trySend c s1

/-- A frame on the bus fails: an exclusive window is missed, an event frame retried (R387, R389). -/
def sendFailed (c : Fin 4) (s : State) : State :=
  match (s.can.ctl[c]).sending with
  | none => s
  | some (n, f) =>
    let s1 := if n = 0 then retryEvent c f s else if n = 33 then s else ttMissed c s
    busFree c s1

/-- The window after the present one. -/
def CanCtl.nextWindow (x : CanCtl) : Option Nat := if x.ttWindow + 1 < x.tt.windows then some (x.ttWindow + 1) else none

/-- Position in the present cycle. -/
def CanCtl.pos (x : CanCtl) (s : State) : Int := (canTime x s : Int) - x.cycleStart

/-- From 2 µs before the next exclusive window on its buffer is frozen (R388). -/
def freezeBuffer (c : Fin 4) (s : State) : State :=
  let x := s.can.ctl[c]
  let next : Nat × Nat × Int := match x.nextWindow with
    | some w => (x.ttCycle, w, (x.tt.span w).1)
    | none => ((x.ttCycle + 1) % max x.tt.cycles 1, 0, x.tt.cycleNs)
  let cell := x.tt.cell next.1 next.2.1
  if !canRuns s || x.cfg.mode == 0 || !x.ttSync || decide (x.pos s + 2000 < next.2.2) || cell.1 != 0 || x.ttFrozen.isSome then s
  else
    match getKey cell.2 x.ttBuf with
    | some f => onCtl c (fun x => { x with ttFrozen := some (cell.2, f) }) s
    | none => s

/-- A window of the present cycle starts; one that is over already passes (R387 to R389). `idle`: nothing of another node is on the
bus. -/
def startWindow (c : Fin 4) (w : Nat) (idle : Bool) (s : State) : State :=
  let s0 := onCtl c (fun x => { x with ttWindow := w }) s
  let x := s0.can.ctl[c]
  let cell := x.tt.cell x.ttCycle w
  let s1 := onCtl c (fun x => { x with ttFrozen := none }) s0
  if cell.1 = 0 then
    let frame := match x.ttFrozen with
      | some (b, f) => if b = cell.2 then some f else getKey cell.2 x.ttBuf
      | none => getKey cell.2 x.ttBuf
    match frame with
    | some f =>
      if idle && x.cfg.mode == 1 && x.bus != 2 && x.joinAt.isNone && x.ttSync && x.sending.isNone && decide (x.pos s < (x.tt.span w).2) then
        onCtl c (fun x => { x with sending := some (1 + w, f) }) s1
      else ttMissed c s1
    | none => ttMissed c s1
  else if cell.1 = 1 ∧ idle then trySend c s1
  else s1

/-- Exclusive windows of a cycle from a window on that have not started. -/
def exclusivesFrom (t : CanTt) (cycle w : Nat) : Nat :=
  ((List.range t.windows).filter fun k => decide (w ≤ k) && (t.cell cycle k).1 == 0).length

/-- A controller has rejoined the bus: its queue may send (R396). -/
def tickCan (s : State) : State :=
  let due := fun (c : Fin 4) => ((s.can.ctl[c]).joinAt).any fun t => decide (t ≤ s.nowNs)
  ((List.finRange 4).filter due).foldl (fun s c => trySend c (onCtl c (fun x => { x with joinAt := none }) s)) s

/-- Exclusive windows of a cycle. -/
def exclusives (t : CanTt) (cycle : Nat) : Nat := ((List.range t.windows).filter fun w => (t.cell cycle w).1 == 0).length

end Sys2Proof.Machine
end

