-- ==== Sys2Proof/Machine/Can.lean ====
section
/-! DEFINITION.
What happens on the CAN buses: frames received and sent, errors, cycles and windows, detection (R384 to R395, 17). -/

namespace Sys2Proof.Machine

/-! Reception (R392 to R394). -/

/-- The filter list that judges a frame whose SOF lay at a device time: the one in force then (R392). -/
def filtersAt (sof : Nat) (x : CanCtl) : List (Nat × CanFilter) × Nat :=
  match (x.filterLog.filter fun e => decide (sof < e.1)).getLast? with
  | some e => e.2
  | none => (x.filters, x.filterCount)

/-- An entry matches a frame (Table 17.2, R393). -/
def CanFilter.matches (e : CanFilter) (f : CanFrame) : Bool :=
  let fmt := e.flags.getLsbD 0 == f.ext && (!e.flags.getLsbD 3 || f.fd) && (!e.flags.getLsbD 4 || !f.fd)
  fmt && (match e.kind with
    | 0 => decide (e.v1 ≤ f.ident) && decide (f.ident ≤ e.v2)
    | 1 => f.ident == e.v1 || f.ident == e.v2
    | 2 => f.ident &&& e.v2 == e.v1 &&& e.v2
    | _ => false)

/-- The first entry in force that matches: its index, and its action. -/
def judgeFrame (l : List (Nat × CanFilter)) (count : Nat) (f : CanFrame) : Option (Nat × Nat) :=
  (List.range count).findSome? fun i =>
    match getKey i l with
    | some e => if e.matches f then some (i, e.flags.toNat / 2 % 4) else none
    | none => none

/-- A frame goes to a FIFO: dropped or overwriting when it is full; a token when it is written (R394, R437). -/
def fifoPut (c : Fin 4) (k : Fin 2) (r : CanRx) (s : State) : State :=
  let x := s.can.ctl[c]
  let q := x.fifo[k]
  let full := decide (64 ≤ q.frames.length)
  let block := if k = 0 then x.cfg.block0 else x.cfg.block1
  let s1 := if full then event 0x0B07 c.val [] s else s
  if full && block then
    onCtl c (fun x => { x with dropped := bump x.dropped 1, fifo := upd x.fifo k fun q => { q with overflow := true } }) s1
  else
    occurs 6 c.val k.val (onCtl c (fun x => { x with fifo := upd x.fifo k fun q =>
      { q with frames := (if full then q.frames.drop 1 else q.frames) ++ [r], written := bump q.written 1, overflow := q.overflow || full,
               overs := if full then bump q.overs 1 else q.overs } }) s1)

/-- A received frame takes the action of its filter entry, or DEFAULT. The filter index of a frame that matches none is free. -/
def fileFrame (c : Fin 4) (sof : Nat) (f : CanFrame) (esi : Bool) (s : State) : State :=
  let x := s.can.ctl[c]
  let l := filtersAt sof x
  let j := judgeFrame l.1 l.2 f
  let r : CanRx := { stamp := s.tb0 - (s.nowNs - sof), frame := f, esi := esi, filter := (j.map (·.1)).getD (Config.openDetail 0x0B05 0 % 65536) }
  match j.map (·.2) with
  | some 0 => fifoPut c 0 r s
  | some 1 => fifoPut c 1 r s
  | some 3 => fifoPut c 0 r (event 0x0B08 c.val [] s)
  | some _ => onCtl c (fun x => { x with rejected := bump x.rejected 1 }) s
  | none => if x.cfg.defaultReject then onCtl c (fun x => { x with rejected := bump x.rejected 1 }) s else fifoPut c 0 r s

/-- A good frame during detection: the fourth in a row locks the candidate (R395). -/
def detectGood (c : Fin 4) (s : State) : State :=
  let x := s.can.ctl[c]
  if x.cfg.mode ≠ 3 then s
  else if x.goodFrames < 3 then onCtl c (fun x => { x with goodFrames := x.goodFrames + 1 }) s
  else event 0x0B09 c.val (be 1 x.candidate) (onCtl c (fun x => { x with locked := true, goodFrames := 0, cfg := { x.cfg with mode := 2 } }) s)

/-- A received reference message starts a slave's basic cycle at its SOF (R386). -/
def slaveCycle (c : Fin 4) (sof : Nat) (f : CanFrame) (s : State) : State :=
  let x := s.can.ctl[c]
  if x.tt.source = 2 ∧ f.ident + (if f.ext then 2 ^ 31 else 0) = x.tt.refId then
    let n : Nat := (f.data.head?.map (·.toNat)).getD 0 % 64
    onCtl c (fun x => { x with
      cycleStart := sof, lastRef := some sof, ttSync := true, ttCycle := n, ttWindow := 0, ttFrozen := none }) s
  else s

/-- CAN_FRAME_RECEIVED: an error-free frame of another node has ended; its SOF lay `age` ns ago. A receive error counter above 127
falls to a value from 119 to 127 which ISO 11898-1 leaves open. -/
def execCanFrameReceived (ctl : Fin 4) (frame : CanFrame) (esi : Bool) (age : Nat) (s : State) : Host.Outcome State Fault Refusal :=
  let x := s.can.ctl[ctl]
  if !canRuns s || x.cfg.mode == 0 || x.bus == 2 || x.joinAt.isSome || decide (s.nowNs < age) then .next s
  else
    let sof : Nat := s.nowNs - age
    let s1 := onCtl ctl (fun x => { x with rxOk := bump x.rxOk 1 }) s
    let s2 := slaveCycle ctl sof frame (fileFrame ctl sof frame esi s1)
    let s3 := detectGood ctl s2
    if x.cfg.mode ≠ 1 then .next s3
    else
      let r := freshNat s3
      let rec0 : Nat := if 127 < x.rxErr then 119 + r.1 % 9 else x.rxErr - 1
      let s4 := busState ctl (onCtl ctl (fun x => { x with rxErr := rec0 }) r.2)
      -- A frame of its own that was waiting for the bus is judged anew against its window.
      let s5 := match (s4.can.ctl[ctl]).sending with
        | some (0, _) => onCtl ctl (fun x => { x with sending := none }) s4
        | _ => s4
      .next (trySend ctl s5)

/-! Sending (R387, R389, R390). -/

/-- CAN_TX_COMPLETE: the frame on the bus was sent; with switching its transmitter delay was measured (R383). -/
def execCanTxComplete (ctl : Fin 4) (delay : BitVec 8) (s : State) : Host.Outcome State Fault Refusal :=
  match (if canRuns s then (s.can.ctl[ctl]).sending else none) with
  | none => .next s
  | some (n, f) =>
    let s1 := onCtl ctl (fun x => { x with tec := x.tec - 1, tdc := if f.brs then delay.toNat else x.tdc }) s
    let s2 := if n = 0 then
        onCtl ctl (fun x => { x with queue := dropFirst (fun t => t.frame == f) x.queue, sent := bump x.sent 1 }) s1
      else s1
    .next (busFree ctl (busState ctl s2))

/-- ARBITRATION_LOST: retried, abandoned, or a missed window. -/
def execArbitrationLost (ctl : Fin 4) (s : State) : Host.Outcome State Fault Refusal :=
  .next (if canRuns s then sendFailed ctl s else s)

/-- Record an identity collision: eight at most, the oldest overwritten (R391). -/
def collide (c : Fin 4) (r : Collision) (s : State) : State :=
  event 0x0B01 c.val [] (onCtl c (fun x => { x with
    fCollision := true, coll := (r :: x.coll).take 8, collOver := if 8 ≤ x.coll.length then x.collOver + 1 else x.collOver }) s)

/-- CAN_BUS_ERROR: an error is signalled and counted under ISO 11898-1: `counted` is false where the standard leaves the
transmit counter alone, `severe` where a receiver counts 8. `hit` is the recessive bit sent after arbitration and read
dominant: its field, its position, and the DLC and data read from the bus (R391). -/
def execCanBusError (ctl : Fin 4) (counted severe : Bool) (hit : Option (Fin 3 × BitVec 16 × BitVec 8 × List Byte)) (s : State) :
    Host.Outcome State Fault Refusal :=
  let x := s.can.ctl[ctl]
  if !canRuns s || x.cfg.mode == 0 || x.bus == 2 then .next s
  else if x.cfg.mode ≠ 1 then .next (onCtl ctl (fun x => { x with goodFrames := 0 }) s)
  else
    match x.sending with
    | none => .next (busState ctl (onCtl ctl (fun x => { x with rxErr := min 255 (x.rxErr + (if severe then 8 else 1)) }) s))
    | some (_, f) =>
      let s1 := onCtl ctl (fun x => { x with tec := if counted then min 256 (x.tec + 8) else x.tec }) s
      let s2 := match hit with
        | some (k, b, d, bs) => collide ctl { frame := f, field := k.val, bitPos := b.toNat, busDlc := d.toNat, busData := bs.take 64 } s1
        | none => s1
      .next (busState ctl (sendFailed ctl s2))

/-- A recovered controller. -/
def CanCtl.recovered (x : CanCtl) : CanCtl := { x with bus := 0, tec := 0, rxErr := 0, recover := false, recessive := 0, joinAt := none }

/-- CAN_BUS_OFF_RECOVERY: 128 × 11 recessive bits have been seen; recovery follows if it is automatic or was asked for (R384). -/
def execCanBusOffRecovery (ctl : Fin 4) (s : State) : Host.Outcome State Fault Refusal :=
  let x := s.can.ctl[ctl]
  if x.bus ≠ 2 || !canRuns s || decide (2 * s.nowNs < 2 * x.busOffAt + 1408 * x.cfg.nominal.bitTime) then .next s
  else if x.cfg.autoRecover || x.recover then .next (trySend ctl (onCtl ctl CanCtl.recovered s))
  else .next (onCtl ctl (fun x => { x with recessive := 128 }) s)

/-! Cycles and windows (R386 to R388). -/

/-- Windows of a cycle that was passed over are missed, one TT_MISSED each. -/
def missMany (c : Fin 4) (n : Nat) (s : State) : State := (List.range n).foldl (fun s _ => ttMissed c s) s

/-- CAN_CYCLE_START: a basic cycle of sources 0 and 1 starts at its instant; a time master sends its reference message (R386).
Windows and cycles passed over have missed their exclusive windows. The length of a reference message is free of rules: one byte (log
entry 31). -/
def execCanCycleStart (ctl : Fin 4) (idle : Bool) (s : State) : Host.Outcome State Fault Refusal :=
  let x := s.can.ctl[ctl]
  let p : Nat := max x.tt.cycleNs 1
  let t : Nat := canTime x s
  let start : Nat := t / p * p
  if !canRuns s || x.cfg.mode == 0 || decide (2 ≤ x.tt.source) || x.tt.absent || (x.ttSync && decide (start ≤ x.cycleStart)) then .next s
  else
    let number := fun (u : Nat) => u % 1000000000 / p % max x.tt.cycles 1
    let passed : Nat := if x.ttSync then (start - x.cycleStart) / p - 1 else 0
    let rest : Nat := if x.ttSync then exclusivesFrom x.tt x.ttCycle (x.ttWindow + 1) else 0
    let lost := rest + ((List.range passed).map fun k => exclusives x.tt (number (x.cycleStart + (k + 1) * p))).sum
    let s1 := onCtl ctl (fun x => { x with cycleStart := start, ttSync := true, ttCycle := number start }) (missMany ctl lost s)
    let s2 := startWindow ctl 0 idle s1
    let y := s2.can.ctl[ctl]
    if x.tt.source = 1 ∧ idle ∧ y.cfg.mode = 1 ∧ y.bus ≠ 2 ∧ y.sending.isNone then
      let f : CanFrame :=
        { ident := x.tt.refId % 2 ^ 29, ext := hasBit x.tt.refId 31, dlc := 1, data := [BitVec.ofNat 8 (number start)] }
      .next (onCtl ctl (fun x => { x with sending := some (33, f) }) s2)
    else .next s2

/-- CAN_BUFFER_FREEZE: 2 us before an exclusive window its buffer is frozen (R388). -/
def execCanBufferFreeze (ctl : Fin 4) (s : State) : Host.Outcome State Fault Refusal :=
  .next (freezeBuffer ctl s)

/-- CAN_WINDOW_START: the next window of the cycle starts. -/
def execCanWindowStart (ctl : Fin 4) (idle : Bool) (s : State) : Host.Outcome State Fault Refusal :=
  let x := s.can.ctl[ctl]
  match x.nextWindow with
  | none => .next s
  | some w =>
    if !canRuns s || x.cfg.mode == 0 || x.tt.absent || decide (x.pos s < (x.tt.span w).1) then .next s
    else .next (startWindow ctl w idle s)

/-- REF_LOST: no reference message within 1.5 cycles of the previous one (R386). -/
def execRefLost (ctl : Fin 4) (s : State) : Host.Outcome State Fault Refusal :=
  let x := s.can.ctl[ctl]
  match x.lastRef with
  | some t =>
    if canRuns s ∧ x.tt.source = 2 ∧ x.ttSync ∧ 2 * t + 3 * x.tt.cycleNs ≤ 2 * s.nowNs then
      .next (event 0x0B06 ctl.val [] (onCtl ctl (fun x => { x with ttSync := false, fRefLost := true }) s))
    else .next s
  | none => .next s

/-! Detection (R395). -/

/-- The timing of a candidate. -/
def CanCtl.tryCandidate (k : Nat) (now : Nat) (x : CanCtl) : CanCtl :=
  let t := x.cands.getD k ({}, none)
  { x with candidate := k, goodFrames := 0, dwellAt := now, cfg := { x.cfg with nominal := t.1, data := t.2 } }

/-- CAN_DETECT_DWELL_END: the next candidate; after the last round BITRATE_FAILED, listen-only at candidate 0. -/
def execCanDetectDwellEnd (ctl : Fin 4) (s : State) : Host.Outcome State Fault Refusal :=
  let x := s.can.ctl[ctl]
  if x.cfg.mode ≠ 3 ∨ !canRuns s ∨ s.now < x.dwellAt + x.dwell * 500000 then .next s
  else if x.candidate + 1 < x.cands.length then .next (onCtl ctl (CanCtl.tryCandidate (x.candidate + 1) s.now) s)
  else if x.roundsDone + 1 < x.rounds then
    .next (onCtl ctl (fun x => { CanCtl.tryCandidate 0 s.now x with roundsDone := x.roundsDone + 1 }) s)
  else
    .next (event 0x0B0A ctl.val [] (onCtl ctl (fun x =>
      let y := CanCtl.tryCandidate 0 s.now x
      { y with roundsDone := x.roundsDone + 1, cfg := { y.cfg with mode := 2 } }) s))

end Sys2Proof.Machine
end

