-- ==== Sys2Proof/Machine/CanOps.lean ====
section
/-! DEFINITION.
The CAN class of opcodes (Table 17.4, R396, R397, 17). -/

namespace Sys2Proof.Machine

/-- The device states of Table 17.4. -/
def canStates : List DevState := [.commissioning, .operational, .test]

/-- NOMINAL of a TLV value at an offset. -/
def nominalOf (bs : List Byte) : CanTiming :=
  { brp := beNat (slice 0 1 bs), tseg1 := beNat (slice 2 2 bs), tseg2 := beNat (slice 4 1 bs), sjw := beNat (slice 5 1 bs) }

/-- DATA. -/
def dataOf (bs : List Byte) : CanTiming :=
  { brp := beNat (slice 0 1 bs), tseg1 := beNat (slice 1 1 bs), tseg2 := beNat (slice 2 1 bs), sjw := beNat (slice 3 1 bs),
    ssp := beNat (slice 4 1 bs) }

/-- A timing lies inside Table 17.1, up to the given TSEG1 and TSEG2. -/
def CanTiming.inRange (lo1 hi1 hi2 : Nat) (t : CanTiming) : Bool :=
  decide (1 ≤ t.brp) && decide (t.brp ≤ 32) && decide (lo1 ≤ t.tseg1) && decide (t.tseg1 ≤ hi1) && decide (1 ≤ t.tseg2) &&
    decide (t.tseg2 ≤ hi2) && decide (1 ≤ t.sjw) && decide (t.sjw ≤ t.tseg2) && decide (t.ssp ≤ 127)

/-- NOMINAL keeps Table 17.1, its zero bytes and 1 Mb/s. -/
def nominalOk (bs : List Byte) : Bool :=
  (nominalOf bs).inRange 2 256 128 && beNat (slice 1 1 bs) == 0 && beNat (slice 6 2 bs) == 0 && decide (2000 ≤ (nominalOf bs).bitTime)

/-- DATA keeps Table 17.1, its zero bytes, 8 Mb/s, and is not slower than the arbitration phase. -/
def dataOk (nom bs : List Byte) : Bool :=
  (dataOf bs).inRange 1 32 16 && beNat (slice 5 3 bs) == 0 && decide (250 ≤ (dataOf bs).bitTime) &&
    decide ((dataOf bs).bitTime ≤ (nominalOf nom).bitTime)

/-- CAN_CONFIG: at the end of any frame in progress (R396). -/
def opCanConfig : Op :=
  { opcode := 0x0B00, target := below 4, toe := false, states := canStates
    schema := [fixed 0x0100 1, fixed 0x0101 8, optional 0x0102 8, fixed 0x0103 4]
    values := fun rq _ => firstDeny
      [(decide (2 < num rq 0x0100 0 1), badValue rq 0x0100), (!nominalOk (value rq 0x0101), badValue rq 0x0101),
       (has rq 0x0102 && (!dataOk (value rq 0x0101) (value rq 0x0102) || !hasBit (num rq 0x0103 0 1) 0), badValue rq 0x0102),
       (decide (15 < num rq 0x0103 0 1) || decide (1 < num rq 0x0103 2 1) || num rq 0x0103 3 1 != 0 ||
         (decide (127 < num rq 0x0103 1 1) && num rq 0x0103 1 1 != 255), badValue rq 0x0103)]
    effect := fun rq s =>
      let c := tgt 4 rq
      let o := num rq 0x0103 0 1
      let g : CanCfg :=
        { mode := num rq 0x0100 0 1, nominal := nominalOf (value rq 0x0101)
          data := if has rq 0x0102 then some (dataOf (value rq 0x0102)) else none
          fd := hasBit o 0, autoRecover := hasBit o 1, block0 := hasBit o 2, block1 := hasBit o 3
          retry := num rq 0x0103 1 1, defaultReject := num rq 0x0103 2 1 == 1 }
      if (s.can.ctl[c]).sending.isSome then .wait (onCtl c (fun x => { x with cfgNext := some g }) s) c.val []
      else .done (putConfig c g s) [] }

/-- Executes CAN_CONFIG. -/
def execCanConfig (rq : Request) (s : State) : Host.Outcome State Fault Refusal := runCommand opCanConfig rq s

/-- A filter entry from its 12 bytes. -/
def filterOf (bs : List Byte) : CanFilter :=
  { kind := beNat (bs.take 1), flags := BitVec.ofNat 8 (beNat (slice 1 1 bs)), v1 := beNat (slice 4 4 bs), v2 := beNat (slice 8 4 bs) }

/-- An entry that R393 refuses. -/
def filterBad (bs : List Byte) : Bool :=
  let e := filterOf bs
  let top : Nat := if e.flags.getLsbD 0 then 2 ^ 29 else 2 ^ 11
  decide (3 < e.kind) || decide (32 ≤ e.flags.toNat) || (e.flags.getLsbD 3 && e.flags.getLsbD 4) || beNat (slice 2 2 bs) != 0 ||
    decide (top ≤ e.v1) || decide (top ≤ e.v2) || (e.kind == 0 && decide (e.v2 < e.v1))

/-- CAN_FILTER_SET: entries from INDEX on and the count in force; the next SOF is judged by the new list (R392). -/
def opCanFilterSet : Op :=
  { opcode := 0x0B01, target := below 4, toe := false, states := canStates
    schema := [fixed 0x0100 2, fixed 0x0101 2, { type := 0x0102, lo := 0, hi := 1404, step := 12 }]
    values := fun rq _ =>
      let n := (value rq 0x0102).length / 12
      let bad := (List.range n).find? fun i => filterBad (slice (12 * i) 12 (value rq 0x0102))
      firstDeny
        [(decide (2048 < num rq 0x0100 0 2), badValue rq 0x0100), (decide (2048 < num rq 0x0101 0 2 + n), badValue rq 0x0101),
         (bad.isSome, denyAt .badParam (tlvOff rq 0x0102 + 4 + 12 * bad.getD 0) 0x0102 3)]
    effect := fun rq s =>
      let c := tgt 4 rq
      let i0 := num rq 0x0101 0 2
      let new := (List.range ((value rq 0x0102).length / 12)).map fun i => (i0 + i, filterOf (slice (12 * i) 12 (value rq 0x0102)))
      .done (onCtl c (fun x => { x with
        filterLog := ((s.nowNs, x.filters, x.filterCount) :: x.filterLog).filter fun e => decide (s.nowNs ≤ e.1 + 1000000000)
        filters := new.foldl (fun l e => putKey e.1 e.2 l) x.filters, filterCount := num rq 0x0100 0 2 }) s) [] }

/-- Executes CAN_FILTER_SET. -/
def execCanFilterSet (rq : Request) (s : State) : Host.Outcome State Fault Refusal := runCommand opCanFilterSet rq s

/-- A matrix from a CAN_TT_CONFIG. -/
def matrixOf (rq : Request) : CanTt :=
  let cells := value rq 0x0102
  { source := num rq 0x0100 0 1, base := num rq 0x0100 1 1, cycles := num rq 0x0100 2 1, windows := num rq 0x0100 3 1
    cycleNs := num rq 0x0100 4 4, refId := num rq 0x0100 8 4
    starts := (List.range ((value rq 0x0101).length / 4)).map fun i => num rq 0x0101 (4 * i) 4
    cells := (List.range (cells.length / 2)).map fun i => (beNat (slice (2 * i) 1 cells), beNat (slice (2 * i + 1) 1 cells)) }

/-- Every window rises strictly and the last ends with the cycle (R385). -/
def startsOk (t : CanTt) : Bool :=
  t.starts.length == t.windows && t.starts.getD 0 1 == 0 && (List.range t.windows).all fun w => decide ((t.span w).1 < (t.span w).2)

/-- An exclusive window long enough for a frame (R387). -/
def fits (g : CanCfg) (t : CanTt) (w : Nat) (f : CanFrame) : Bool := decide (frameTime g f ≤ 2 * ((t.span w).2 - (t.span w).1))

/-- The cells keep R385 to R387 with the buffers as they stand. -/
def cellsOk (x : CanCtl) (t : CanTt) : Bool :=
  t.cells.length == t.cycles * t.windows &&
  t.cells.zipIdx.all fun e =>
    let w := e.2 % max t.windows 1
    decide (e.1.1 ≤ 2) && decide (e.1.2 ≤ 127) && (t.source == 0 || w != 0 || e.1.1 == 2) &&
      (e.1.1 != 0 || (match getKey e.1.2 x.ttBuf with
        | some f => fits x.cfg t w f
        | none => true))

/-- CAN_TT_CONFIG: source 3 removes the matrix. -/
def opCanTtConfig : Op :=
  { opcode := 0x0B02, target := below 4, toe := false, states := [.commissioning]
    schema := [fixed 0x0100 16, { type := 0x0101, lo := 0, hi := 128, step := 4 }, { type := 0x0102, lo := 0, hi := 4096, step := 2 }]
    values := fun rq s =>
      let t := matrixOf rq
      if t.source = 3 then none
      else firstDeny
        [(decide (3 < t.source) || decide (3 < t.base) || !([1, 2, 4, 8, 16, 32, 64].contains t.cycles) || decide (t.windows < 1) ||
          decide (32 < t.windows) || num rq 0x0100 12 4 != 0 || hasBit t.refId 30 || hasBit t.refId 29 ||
          (!hasBit t.refId 31 && decide (2048 ≤ t.refId)) ||
          (t.source != 2 && (1000000000 % max t.cycleNs 1 != 0 || decide (t.cycleNs < 100000) || decide (1000000000 < t.cycleNs))),
          badValue rq 0x0100),
         (!startsOk t, badValue rq 0x0101), (!cellsOk s.can.ctl[tgt 4 rq] t, badValue rq 0x0102)]
    effect := fun rq s =>
      let c := tgt 4 rq
      if (s.can.ctl[c]).cfg.mode ≠ 0 then .deny conflict
      else
        let t := matrixOf rq
        .done (onCtl c (fun x => { x with
          tt := if t.source = 3 then { source := 3 } else t, ttSync := false, lastRef := none, ttFrozen := none, ttCycle := 0, ttWindow := 0,
          cycleStart := 0 }) s) [] }

/-- Executes CAN_TT_CONFIG. -/
def execCanTtConfig (rq : Request) (s : State) : Host.Outcome State Fault Refusal := runCommand opCanTtConfig rq s

/-- The windows a buffer is sent in. -/
def windowsOf (t : CanTt) (b : Nat) : List Nat :=
  (t.cells.zipIdx.filter fun e => e.1.1 == 0 && e.1.2 == b).map fun e => e.2 % max t.windows 1

/-- CAN_TT_BUFFER_SET: acts from the buffer's next use that is not yet frozen (R388). -/
def opCanTtBufferSet : Op :=
  { opcode := 0x0B03, target := below 4, toe := true, states := canStates, schema := [fixed 0x0100 1, fixed 0x0101 72]
    values := fun rq s =>
      let x := s.can.ctl[tgt 4 rq]
      let f := frameOf (value rq 0x0101)
      firstDeny
        [(decide (127 < num rq 0x0100 0 1), badValue rq 0x0100), (frameBad (value rq 0x0101), badValue rq 0x0101),
         (!(windowsOf x.tt (num rq 0x0100 0 1)).all (fun w => fits x.cfg x.tt w f), badValue rq 0x0101)]
    effect := fun rq s =>
      .done (onCtl (tgt 4 rq) (fun x => { x with ttBuf := putKey (num rq 0x0100 0 1) (frameOf (value rq 0x0101)) x.ttBuf }) (freezeBuffer (tgt 4 rq) s)) [] }

/-- Executes CAN_TT_BUFFER_SET. -/
def execCanTtBufferSet (rq : Request) (s : State) : Host.Outcome State Fault Refusal := runCommand opCanTtBufferSet rq s

/-- CAN_TX: one more frame in the event queue. -/
def opCanTx : Op :=
  { opcode := 0x0B04, target := below 4, toe := true, states := [.operational, .test], schema := [fixed 0x0100 72]
    values := fun rq _ => firstDeny [(frameBad (value rq 0x0100), badValue rq 0x0100)]
    effect := fun rq s =>
      let c := tgt 4 rq
      let x := s.can.ctl[c]
      if x.cfg.mode ≠ 1 then .deny conflict
      else if 32 ≤ x.queue.length then .deny (deny .resource)
      else
        let s1 := onCtl c (fun x => { x with queue := x.queue ++ [{ frame := frameOf (value rq 0x0100) }], submitted := bump x.submitted 1 }) s
        .done (trySend c s1) [(0x0100, be 1 (x.queue.length + 1))] }

/-- Executes CAN_TX. -/
def execCanTx (rq : Request) (s : State) : Host.Outcome State Fault Refusal := runCommand opCanTx rq s

/-- The 84 bytes of a received frame. -/
def CanRx.bytes (r : CanRx) : List Byte := be 8 r.stamp ++ frameTlv r.frame ++ be 2 r.filter ++ be 1 (bit r.esi) ++ be 1 0

/-- CAN_RX_READ: the oldest frames of a FIFO, returned and removed. -/
def opCanRxRead : Op :=
  { opcode := 0x0B05, target := below 4, toe := false, states := afterStart, schema := [fixed 0x0100 1, fixed 0x0101 1]
    values := fun rq _ => firstDeny
      [(decide (1 < num rq 0x0100 0 1), badValue rq 0x0100),
       (decide (num rq 0x0101 0 1 < 1) || decide (16 < num rq 0x0101 0 1), badValue rq 0x0101)]
    effect := fun rq s =>
      let c := tgt 4 rq
      let k : Fin 2 := Fin.ofNat 2 (num rq 0x0100 0 1)
      let l := ((s.can.ctl[c]).fifo[k]).frames.take (num rq 0x0101 0 1)
      .done (onCtl c (fun x => { x with fifo := upd x.fifo k fun q =>
          { q with frames := q.frames.drop l.length, readOut := bump q.readOut l.length } }) s)
        [(0x0100, l.flatMap CanRx.bytes)] }

/-- Executes CAN_RX_READ. -/
def execCanRxRead (rq : Request) (s : State) : Host.Outcome State Fault Refusal := runCommand opCanRxRead rq s

/-! Status. -/

/-- CAN_STATUS. -/
def canStatus (c : Fin 4) (s : State) : Word :=
  let x := s.can.ctl[c]
  pack [(0, 2, x.cfg.mode), (2, 2, x.bus), (4, 1, bit x.locked), (5, 3, x.candidate), (8, 1, bit x.fBusOff), (9, 1, bit x.fCollision),
    (10, 1, bit x.fAbandoned), (16, 6, x.queue.length)]

/-- CAN_ERRCNT. -/
def canErrcnt (c : Fin 4) (s : State) : Word :=
  let x := s.can.ctl[c]
  pack [(0, 9, x.tec), (16, 8, x.rxErr), (24, 8, x.tdc)]

/-- CAN_FIFO. -/
def canFifo (c : Fin 4) (s : State) : Word :=
  let x := s.can.ctl[c]
  let a := x.fifo[(0 : Fin 2)]
  let b := x.fifo[(1 : Fin 2)]
  pack [(0, 7, a.frames.length), (7, 1, bit a.overflow), (8, 7, b.frames.length), (15, 1, bit b.overflow), (16, 12, x.filterCount)]

/-- CAN_TT. -/
def canTt (c : Fin 4) (s : State) : Word :=
  let x := s.can.ctl[c]
  pack [(0, 6, x.ttCycle), (6, 5, x.ttWindow), (11, 1, bit x.ttSync), (12, 1, bit x.fMissed), (13, 1, bit x.fRefLost), (14, 2, x.tt.source)]

/-- The 140 bytes of a collision record. -/
def Collision.bytes (r : Collision) : List Byte :=
  let pad := fun (b : List Byte) => (b ++ List.replicate 64 0).take 64
  be 4 (r.frame.ident + 2 ^ 31 * bit r.frame.ext + 2 ^ 30 * bit r.frame.fd) ++ be 1 r.field ++ be 1 0 ++ be 2 r.bitPos ++ be 1 r.frame.dlc ++
    be 1 r.busDlc ++ be 2 0 ++ pad r.frame.data ++ pad r.busData

/-- CAN_STATUS_READ. -/
def opCanStatusRead : Op :=
  { opcode := 0x0B06, target := below 4, toe := false, states := afterStart, schema := []
    effect := fun rq s =>
      let c := tgt 4 rq
      let x := s.can.ctl[c]
      .done s
        [(0x0100, [canStatus c s, canErrcnt c s, canFifo c s, canTt c s].flatMap fun w => be 4 w.toNat),
         (0x0101, be 8 x.submitted.toNat ++ be 8 x.sent.toNat ++ be 8 x.abandoned.toNat ++ be 8 x.queue.length),
         (0x0102, x.coll.flatMap Collision.bytes)] }

/-- Executes CAN_STATUS_READ. -/
def execCanStatusRead (rq : Request) (s : State) : Host.Outcome State Fault Refusal := runCommand opCanStatusRead rq s

/-- CAN_BITRATE_DETECT: listen-only detection from candidate 0 (R395). -/
def opCanBitrateDetect : Op :=
  { opcode := 0x0B07, target := below 4, toe := false, states := canStates
    schema := [{ type := 0x0100, lo := 16, hi := 16, many := 8 }, fixed 0x0101 2, fixed 0x0102 1]
    values := fun rq _ =>
      let bad := (every rq 0x0100).find? fun t => !nominalOk (t.value.take 8) || !dataOk (t.value.take 8) (t.value.drop 8)
      match bad with
      | some t => some (denyAt .badParam t.off 0x0100 3)
      | none => firstDeny
        [(decide (num rq 0x0101 0 2 < 10) || decide (10000 < num rq 0x0101 0 2), badValue rq 0x0101), (num rq 0x0102 0 1 == 0, badValue rq 0x0102)]
    effect := fun rq s =>
      let l := (every rq 0x0100).map fun t => (nominalOf (t.value.take 8), some (dataOf (t.value.drop 8)))
      .done (onCtl (tgt 4 rq) (fun x =>
        CanCtl.tryCandidate 0 s.now { x with
          cands := l, dwell := num rq 0x0101 0 2, rounds := num rq 0x0102 0 1, roundsDone := 0, locked := false, sending := none
          cfg := { x.cfg with mode := 3 } }) s) [] }

/-- Executes CAN_BITRATE_DETECT. -/
def execCanBitrateDetect (rq : Request) (s : State) : Host.Outcome State Fault Refusal := runCommand opCanBitrateDetect rq s

/-- CAN_BUS_RECOVER: without effect unless bus-off; at once when the recessive bits have been seen already (R384, R397). -/
def opCanBusRecover : Op :=
  { opcode := 0x0B08, target := below 4, toe := false, states := afterStart, schema := []
    effect := fun rq s =>
      let c := tgt 4 rq
      let x := s.can.ctl[c]
      if x.bus ≠ 2 then .done s []
      else if 128 ≤ x.recessive then .done (trySend c (onCtl c CanCtl.recovered s)) []
      else .done (onCtl c (fun x => { x with recover := true }) s) [] }

/-- Executes CAN_BUS_RECOVER. -/
def execCanBusRecover (rq : Request) (s : State) : Host.Outcome State Fault Refusal := runCommand opCanBusRecover rq s

end Sys2Proof.Machine
end

