-- ==== Sys2Proof/Machine/Fio.lean ====
section
/-! DEFINITION.
Field I/O: inputs, outputs, field supplies and the Field I/O class (R366 to R381, 16). Durations are measured by the field dies'
own timers (R19), so each event is the end of its duration; it does nothing before the shortest time in which such a timer counts
it has passed. -/

namespace Sys2Proof.Machine

/-- Group and place of an input. -/
def inputPlace (n : Fin 32) : Fin 4 × Fin 8 := (⟨n.val / 8, by omega⟩, ⟨n.val % 8, by omega⟩)

/-- Group and place of an output. -/
def outputPlace (n : Fin 16) : Fin 4 × Fin 4 := (⟨n.val / 4, by omega⟩, ⟨n.val % 4, by omega⟩)

/-- Change an input. -/
def onInput (n : Fin 32) (f : FioIn → FioIn) (s : State) : State :=
  onFioGroup (inputPlace n).1 (fun g => { g with input := upd g.input (inputPlace n).2 f }) s

/-- Change an output; it then takes its state. -/
def onOutput (n : Fin 16) (f : FioOut → FioOut) (s : State) : State :=
  onFioGroup (outputPlace n).1 (fun g => ({ g with output := upd g.output (outputPlace n).2 f }).settle) s

/-- An input. -/
def inputOf (n : Fin 32) (s : State) : FioIn := s.fio.grp[(inputPlace n).1].input[(inputPlace n).2]

/-- An output. -/
def outputOf (n : Fin 16) (s : State) : FioOut := s.fio.grp[(outputPlace n).1].output[(outputPlace n).2]

/-- The time an edge is stamped with: TBASE0, or the AON coarse count in Rest and without the reference (R367, R368). -/
def fieldTime (s : State) : Nat := if s.power.power = .rest ∨ s.power.refLost then s.power.coarse * 1000 else s.tb0

/-- A field event names its group and channel (R381, R476). -/
def fioEvent (code : Nat) (g : Fin 4) (channel : Nat) (s : State) : State := event code g.val (be 1 channel) s

/-! Inputs. -/

/-- How long ago, in ns, a level accepted now was first seen: FILTER by the die's timer, which leaves a free value (R19, R370,
log entry 6). -/
def filterAgo (filter : Nat) (s : State) : Nat × State :=
  let us := 50 * filter
  let lo := 1000 * localLeast us
  let x := freshNat s
  (lo + x.1 % (1050 * us + 1000 - lo + 1), x.2)

/-- DI_EDGE_ACCEPTED: the level has been held for FILTER; the edge carries the instant at which it was first seen. It may wake the
device, and without the reference AON logs it, up to 32 times (R367, R368, R370, R478). -/
def execDiEdgeAccepted (input : Fin 32) (level : Bool) (s : State) : Host.Outcome State Fault Refusal :=
  let x := inputOf input s
  if !s.fio.grp[(inputPlace input).1].powered ∨ x.opened ∨ x.level = level ∨
      (x.acceptAt.any fun t => !localDue t (50 * x.filter) s) then .next s
  else
    let ago := filterAgo x.filter s
    let s1 := onInput input (fun y => { y with
      level := level, edgeAt := fieldTime s - ago.1, acceptAt := some s.power.aonUs }) ago.2
    let wakes := (s.power.power = .nap || s.power.power = .rest) && (if level then x.wakeRise else x.wakeFall)
    let s2 := if wakes then s1.onPower fun p => { p with waking := true } else s1
    if s.power.refLost ∧ s.power.diEdges < 32 then
      .next (recordFault 0x0020 4 input.val (bit level) false (s2.onPower fun p => { p with diEdges := p.diEdges + 1 }))
    else .next s2

/-- OPEN_WIRE: the input is open and reads 0 (R371). -/
def execOpenWire (input : Fin 32) (s : State) : Host.Outcome State Fault Refusal :=
  let x := inputOf input s
  if !s.fio.grp[(inputPlace input).1].powered ∨ !x.type3 ∨ !x.openWire ∨ x.opened then .next s
  else .next (fioEvent 0x0A01 (inputPlace input).1 (inputPlace input).2.val
    (onInput input (fun y => { y with opened := true, fOpen := true, level := false, openedAt := s.power.aonUs }) s))

/-- OPEN_WIRE_CLEAR: 0.3 mA or more for 100 ms. -/
def execOpenWireClear (input : Fin 32) (s : State) : Host.Outcome State Fault Refusal :=
  .next (if localDue (inputOf input s).openedAt 100000 s then onInput input (fun y => { y with opened := false }) s else s)

/-! Outputs (Tables 16.2 and 16.3). -/

/-- An output has been in its switch state for a duration (R19, Table 16.2). -/
def heldFor (us : Nat) (o : FioOut) (s : State) : Bool := o.was == o.state && localDue o.since us s

/-- OVERLOAD: an output that is on, in current limit for 500 µs, goes off under its policy. -/
def execOverload (output : Fin 16) (s : State) : Host.Outcome State Fault Refusal :=
  if !(outputOf output s).state ∨ !heldFor 500 (outputOf output s) s then .next s
  else .next (fioEvent 0x0A02 (outputPlace output).1 (outputPlace output).2.val
    (onOutput output (fun o => { o with latched := true, overload := true, fOverload := true, tryAt := s.power.aonUs }) s))

/-- FIO_OVERTEMP: off at once, under its policy. -/
def execFioOvertemp (output : Fin 16) (s : State) : Host.Outcome State Fault Refusal :=
  if !s.fio.grp[(outputPlace output).1].powered ∨ (outputOf output s).hot then .next s
  else .next (fioEvent 0x0A03 (outputPlace output).1 (outputPlace output).2.val
    (onOutput output (fun o => { o with hot := true, latched := true, overtemp := true, fOvertemp := true, tryAt := s.power.aonUs }) s))

/-- FIO_OVERTEMP_CLEAR: the junction is below 150 °C; the latch stays for FIO_CLEAR or a retry. -/
def execFioOvertempClear (output : Fin 16) (s : State) : Host.Outcome State Fault Refusal :=
  .next (onOutput output (fun o => { o with hot := false }) s)

/-- OPEN_LOAD: with the check on, an output that is on and carries under 2 mA; it stays on. -/
def execOpenLoad (output : Fin 16) (s : State) : Host.Outcome State Fault Refusal :=
  let o := outputOf output s
  if !o.state ∨ !o.openCheck ∨ o.openLoad ∨ !heldFor 100000 o s then .next s
  else .next (fioEvent 0x0A04 (outputPlace output).1 (outputPlace output).2.val
    (onOutput output (fun o => { o with openLoad := true, fOpenLoad := true, openLoadAt := s.power.aonUs }) s))

/-- OPEN_LOAD_CLEAR: 5 mA or more for 100 ms. -/
def execOpenLoadClear (output : Fin 16) (s : State) : Host.Outcome State Fault Refusal :=
  .next (if localDue (outputOf output s).openLoadAt 100000 s then onOutput output (fun o => { o with openLoad := false }) s else s)

/-- BACKFEED: an output that is off sees 10 V or more (R375). -/
def execBackfeed (output : Fin 16) (s : State) : Host.Outcome State Fault Refusal :=
  let o := outputOf output s
  if !s.fio.grp[(outputPlace output).1].powered ∨ o.state ∨ o.backfeed ∨ !heldFor 1000 o s then .next s
  else .next (fioEvent 0x0A05 (outputPlace output).1 (outputPlace output).2.val
    (onOutput output (fun o => { o with backfeed := true, fBackfeed := true, backfeedAt := s.power.aonUs }) s))

/-- BACKFEED_CLEAR: below 5 V for 1 ms. -/
def execBackfeedClear (output : Fin 16) (s : State) : Host.Outcome State Fault Refusal :=
  .next (if localDue (outputOf output s).backfeedAt 1000 s then onOutput output (fun o => { o with backfeed := false }) s else s)

/-- OUTPUT_RETRY: every 100 ms a retry-policy output tries to turn on while it is commanded on, not during OVERTEMP (R374); a
successful one clears OVERLOAD and OVERTEMP. -/
def execOutputRetry (output : Fin 16) (ok : Bool) (s : State) : Host.Outcome State Fault Refusal :=
  let o := outputOf output s
  .next (if !(o.retry && o.latched && o.cmd && !o.hot && localDue o.tryAt 100000 s) then s
    else if ok then onOutput output (fun o => { o with latched := false, overload := false, overtemp := false, tryAt := s.power.aonUs }) s
    else onOutput output (fun o => { o with tryAt := s.power.aonUs }) s)

/-! The command link (R367, R377). -/

/-- A refresh reaches the die: a fail state stays until a new command, one given over the failed link included (R377). -/
def FioGroup.refreshed (us : Nat) (g : FioGroup) : FioGroup :=
  ({ g with
    linkFailed := false, refreshAt := some us, watchAt := us
    output := updAll g.output fun _ o => { o with fail := if o.waits then none else o.fail, waits := false } }).settle

/-- FIO_LINK_REFRESH: every 1 ms (R367). -/
def execFioLinkRefresh (group : Fin 4) (s : State) : Host.Outcome State Fault Refusal :=
  .next (if s.sys.dev = .reset ∨ s.power.refLost ∨ !s.fio.grp[group].powered ∨
      (s.fio.grp[group].refreshAt.any fun t => decide (s.power.aonUs < t + 1000)) then s
    else setCause 0x0023 group.val false (onFioGroup group (FioGroup.refreshed s.power.aonUs) s))

/-- FIO_REFRESH_TIMEOUT: 10 ms without a refresh put a powered group into its fail states. -/
def execFioRefreshTimeout (group : Fin 4) (s : State) : Host.Outcome State Fault Refusal :=
  let g := s.fio.grp[group]
  .next (if !g.powered ∨ g.linkFailed ∨ !localDue g.watchAt 10000 s then s else onFioGroup group (fun g => { g.failStates with linkFailed := true }) s)

/-- FIELD_GROUP_LOST: a powered die stops acknowledging its refresh for 10 ms (Table 21.5, 21). -/
def execFieldGroupLost (group : Fin 4) (s : State) : Host.Outcome State Fault Refusal :=
  .next (if !s.fio.grp[group].powered ∨ s.sys.dev = .reset ∨ s.power.aonUs < s.fio.grp[group].watchAt + 10000 then s
    else setCause 0x0023 group.val true (recordFault 0x0023 4 group.val 0 true s))

/-! Field supplies (Table 16.4, R379); voltages in 10 mV. -/

/-- SUPPLY_SAG: below 18.0 V for 1 ms. -/
def execSupplySag (group : Fin 4) (vf : Nat) (s : State) : Host.Outcome State Fault Refusal :=
  let g := s.fio.grp[group]
  if !g.powered ∨ 1800 ≤ vf then .next s
  else
    let s1 := onFioGroup group (fun g => { g with vf := vf, restoring := false, sag := true, fSag := true }) s
    .next (if g.sag then s1 else event 0x0A06 group.val [] s1)

/-- SUPPLY_LOST: below 15.0 V for 50 µs; all four outputs go off until the group is re-enabled. -/
def execSupplyLost (group : Fin 4) (vf : Nat) (s : State) : Host.Outcome State Fault Refusal :=
  let g := s.fio.grp[group]
  if !g.powered ∨ 1500 ≤ vf then .next s
  else
    let s1 := onFioGroup group (fun g => ({ g with vf := vf, restoring := false, lost := true, fLost := true }).settle) s
    .next (if g.lost then s1 else event 0x0A07 group.val [] s1)

/-- An input as a die without configuration has it (R381). -/
def FioIn.bare (x : FioIn) : FioIn := { edgeAt := x.edgeAt }

/-- An output as a die without configuration has it; the commanded state is the compute die's. -/
def FioOut.bare (o : FioOut) : FioOut := { cmd := o.cmd, fail := o.fail, was := o.was, since := o.since }

/-- DIE_UNPOWERED: below 12.0 V the inputs are invalid and the die's configuration is lost. -/
def execDieUnpowered (group : Fin 4) (vf : Nat) (s : State) : Host.Outcome State Fault Refusal :=
  if 1200 ≤ vf then .next s
  else
    let bare := fun (g : FioGroup) => ({
      lost := g.lost, vf := vf, refreshAt := g.refreshAt, input := updAll g.input (fun _ x => x.bare), output := updAll g.output (fun _ o => o.bare) } : FioGroup)
    .next (onFioGroup group bare s)

/-- The running configuration of an input put into its die. -/
def FioIn.configure (c x : FioIn) : FioIn :=
  { x with type3 := c.type3, filter := c.filter, openWire := c.openWire, wakeRise := c.wakeRise, wakeFall := c.wakeFall,
           opened := x.opened && c.openWire }

/-- The running configuration of an output put into its die. -/
def FioOut.configure (c o : FioOut) : FioOut :=
  { o with failHold := c.failHold, retry := c.retry, openCheck := c.openCheck, openLoad := o.openLoad && c.openCheck }

/-- Keeper loads a group's running configuration into its die. -/
def loadFio (g : Fin 4) (s : State) : State :=
  let f := s.fio
  onFioGroup g (fun x => ({ x with
    valid := x.powered, auto := f.cfgAuto[g], restoreMs := f.cfgRestore[g]
    input := updAll x.input fun j y => (f.cfgIn[(⟨8 * g.val + j.val, by omega⟩ : Fin 32)]).configure y
    output := updAll x.output fun j y => (f.cfgOut[(⟨4 * g.val + j.val, by omega⟩ : Fin 16)]).configure y }).settle) s

/-- DIE_POWER_RETURN: the die is powered again and Keeper reloads its configuration, in Reset at the next start. -/
def execDiePowerReturn (group : Fin 4) (vf : Nat) (s : State) : Host.Outcome State Fault Refusal :=
  .next (if vf < 1200 ∨ s.fio.grp[group].powered then s
    else
      let s1 := onFioGroup group (fun g => { g with powered := true, vf := vf, watchAt := s.power.aonUs }) s
      if s.sys.dev = .reset then s1 else loadFio group s1)

/-- FIELD_SUPPLY_RETURN: at 18.0 V the restore timer starts, at 18.5 V a sag ends. -/
def execFieldSupplyReturn (group : Fin 4) (vf : Nat) (s : State) : Host.Outcome State Fault Refusal :=
  .next (if vf < 1800 ∨ !s.fio.grp[group].powered then s
    else onFioGroup group (fun g => { g with
      vf := vf, restoring := true, restoreAt := if g.restoring then g.restoreAt else s.power.aonUs, sag := g.sag && decide (vf < 1850) }) s)

/-- FIO_AUTO_REENABLE: the supply has stayed at 18.0 V or more for RESTORE_MS (R379). -/
def execFioAutoReenable (group : Fin 4) (s : State) : Host.Outcome State Fault Refusal :=
  let g := s.fio.grp[group]
  .next (if g.lost ∧ g.auto ∧ g.restoring ∧ 1800 ≤ g.vf ∧ localDue g.restoreAt (1000 * g.restoreMs) s then
    onFioGroup group (fun g => ({ g with lost := false, restoring := false }).settle) s else s)

/-! Registers (Table 16.6). -/

/-- Bits of four outputs. -/
def outBits (g : FioGroup) (f : FioOut → Bool) : Nat := ((List.finRange 4).map fun (j : Fin 4) => bit (f g.output[j]) * 2 ^ j.val).sum

/-- Bits of eight inputs. -/
def inBits (g : FioGroup) (f : FioIn → Bool) : Nat := ((List.finRange 8).map fun (j : Fin 8) => bit (f g.input[j]) * 2 ^ j.val).sum

/-- FIO_STATUS. -/
def fioStatus (g : Fin 4) (s : State) : Word :=
  let x := s.fio.grp[g]
  pack [(0, 1, bit x.valid), (1, 1, bit x.sag), (2, 1, bit x.lost), (3, 1, bit x.fSag), (4, 1, bit x.fLost),
    (5, 1, bit ((List.finRange 4).any fun (j : Fin 4) => x.output[j].fail.isSome)), (6, 1, bit (fioMapped g s)), (7, 1, bit x.auto),
    (16, 16, x.vf)]

/-- FIO_DI. -/
def fioDi (g : Fin 4) (s : State) : Word :=
  let x := s.fio.grp[g]
  pack [(0, 8, fioInputs g s), (8, 8, inBits x (·.opened)), (16, 8, inBits x (·.fOpen))]

/-- FIO_DO. -/
def fioDo (g : Fin 4) (s : State) : Word :=
  let x := s.fio.grp[g]
  pack [(0, 4, outBits x (·.cmd)), (4, 4, outBits x (·.state)), (8, 4, outBits x (·.latched))]

/-- FIO_DIAG. -/
def fioDiag (g : Fin 4) (s : State) : Word :=
  let x := s.fio.grp[g]
  pack [(0, 4, outBits x (·.overload)), (4, 4, outBits x (·.overtemp)), (8, 4, outBits x (·.openLoad)), (12, 4, outBits x (·.backfeed)),
    (16, 4, outBits x (·.fOverload)), (20, 4, outBits x (·.fOvertemp)), (24, 4, outBits x (·.fOpenLoad)), (28, 4, outBits x (·.fBackfeed))]

/-! Opcodes (Table 16.7, R381). -/

/-- States of the configuration opcodes. -/
def fioStates : List DevState := [.commissioning, .operational, .test]

/-- FIO_GROUP_CONFIG. -/
def opFioGroupConfig : Op :=
  { opcode := 0x0A00, target := below 4, toe := false, states := fioStates, schema := [fixed 0x0100 4]
    values := fun rq _ => firstDeny
      [(decide (1 < num rq 0x0100 0 1) || num rq 0x0100 1 1 != 0 || decide (num rq 0x0100 2 2 < 10) || decide (10000 < num rq 0x0100 2 2),
        badValue rq 0x0100)]
    effect := fun rq s =>
      let g := tgt 4 rq
      if !s.fio.grp[g].powered then .deny conflict
      else .done (loadFio g (s.onFio fun f => { f with
        cfgAuto := upd f.cfgAuto g fun _ => num rq 0x0100 0 1 == 1, cfgRestore := upd f.cfgRestore g fun _ => num rq 0x0100 2 2 })) [] }

/-- Executes FIO_GROUP_CONFIG. -/
def execFioGroupConfig (rq : Request) (s : State) : Host.Outcome State Fault Refusal := runCommand opFioGroupConfig rq s

/-- FIO_INPUT_CONFIG. -/
def opFioInputConfig : Op :=
  { opcode := 0x0A01, target := below 32, toe := false, states := fioStates, schema := [fixed 0x0100 4]
    values := fun rq _ =>
      let t := num rq 0x0100 0 1
      let o := num rq 0x0100 2 1
      firstDeny [((t != 1 && t != 3) || decide (7 < o) || num rq 0x0100 3 1 != 0 || (t == 1 && hasBit o 0), badValue rq 0x0100)]
    effect := fun rq s =>
      let n := tgt 32 rq
      let g := (inputPlace n).1
      let o := num rq 0x0100 2 1
      let c := fun (x : FioIn) => { x with
        type3 := num rq 0x0100 0 1 == 3, filter := num rq 0x0100 1 1, openWire := hasBit o 0, wakeRise := hasBit o 1, wakeFall := hasBit o 2 }
      if !s.fio.grp[g].powered then .deny conflict
      else .done (loadFio g (s.onFio fun f => { f with cfgIn := upd f.cfgIn n c })) [] }

/-- Executes FIO_INPUT_CONFIG. -/
def execFioInputConfig (rq : Request) (s : State) : Host.Outcome State Fault Refusal := runCommand opFioInputConfig rq s

/-- FIO_OUTPUT_CONFIG. -/
def opFioOutputConfig : Op :=
  { opcode := 0x0A02, target := below 16, toe := false, states := fioStates, schema := [fixed 0x0100 4]
    values := fun rq _ => firstDeny
      [(decide (1 < num rq 0x0100 0 1) || decide (1 < num rq 0x0100 1 1) || decide (1 < num rq 0x0100 2 1) || num rq 0x0100 3 1 != 0,
        badValue rq 0x0100)]
    effect := fun rq s =>
      let n := tgt 16 rq
      let g := (outputPlace n).1
      let c := fun (o : FioOut) => { o with
        failHold := num rq 0x0100 0 1 == 1, retry := num rq 0x0100 1 1 == 1, openCheck := num rq 0x0100 2 1 == 1 }
      if !s.fio.grp[g].powered then .deny conflict
      else .done (loadFio g (s.onFio fun f => { f with cfgOut := upd f.cfgOut n c })) [] }

/-- Executes FIO_OUTPUT_CONFIG. -/
def execFioOutputConfig (rq : Request) (s : State) : Host.Outcome State Fault Refusal := runCommand opFioOutputConfig rq s

/-- The groups a target names: one, or all (Table 16.7). -/
def fioGroups (rq : Request) : List (Fin 4) := if rq.target = 0xFFFF then List.finRange 4 else [tgt 4 rq]

/-- Group or 0xFFFF. -/
def fioTarget (n : Nat) : Bool := decide (n < 4) || n == 0xFFFF

/-- Mask or values of a group from FIO_OUTPUT_SET. -/
def fioPart (rq : Request) (off : Nat) (g : Fin 4) : Nat :=
  if rq.target = 0xFFFF then num rq 0x0100 off 2 / 2 ^ (4 * g.val) % 16 else num rq 0x0100 off 2 % 16

/-- FIO_OUTPUT_SET; a group an enabled map writes refuses it (R93, R376). -/
def opFioOutputSet : Op :=
  { opcode := 0x0A03, target := fioTarget, toe := true, states := afterStart, schema := [fixed 0x0100 4]
    values := fun rq _ => firstDeny [(rq.target != 0xFFFF && decide (15 < num rq 0x0100 0 2), badValue rq 0x0100)]
    effect := fun rq s =>
      let gs := (fioGroups rq).filter fun g => rq.target != 0xFFFF || fioPart rq 0 g != 0
      if gs.any (fun g => !s.fio.grp[g].powered || fioMapped g s) then .deny conflict
      else .done (gs.foldl (fun s g => onFioGroup g (FioGroup.command (fioPart rq 0 g) (fioPart rq 2 g)) s) s) [] }

/-- Executes FIO_OUTPUT_SET. -/
def execFioOutputSet (rq : Request) (s : State) : Host.Outcome State Fault Refusal := runCommand opFioOutputSet rq s

/-- FIO_READ. -/
def opFioRead : Op :=
  { opcode := 0x0A04, target := below 4, toe := false, states := afterStart, schema := []
    effect := fun rq s =>
      let g := tgt 4 rq
      let regs := [fioStatus g s, fioDi g s, fioDo g s, fioDiag g s]
      .done s [(0x0100, regs.flatMap fun w => be 4 w.toNat),
        (0x0101, (List.finRange 8).flatMap fun (j : Fin 8) => be 8 (s.fio.grp[g].input[j]).edgeAt)] }

/-- Executes FIO_READ. -/
def execFioRead (rq : Request) (s : State) : Host.Outcome State Fault Refusal := runCommand opFioRead rq s

/-- Release the latches whose cause has gone, and re-enable a lost group at 18.0 V or more (R379, R381). -/
def FioGroup.release (g : FioGroup) : FioGroup :=
  ({ g with
    lost := g.lost && decide (g.vf < 1800)
    output := updAll g.output fun _ o => if o.hot then o else { o with latched := false, overload := false, overtemp := false } }).settle

/-- FIO_CLEAR. -/
def opFioClear : Op :=
  { opcode := 0x0A05, target := fioTarget, toe := false, states := afterStart, schema := []
    effect := fun rq s =>
      let gs := fioGroups rq
      let t := gs.foldl (fun s g => onFioGroup g FioGroup.release s) s
      let left := (gs.map fun g => outBits t.fio.grp[g] (·.latched) * 16 ^ g.val + bit t.fio.grp[g].lost * 2 ^ (16 + g.val)).sum
      .done t [(0x0100, be 4 left)] }

/-- Executes FIO_CLEAR. -/
def execFioClear (rq : Request) (s : State) : Host.Outcome State Fault Refusal := runCommand opFioClear rq s

end Sys2Proof.Machine
end

