-- ==== Sys2Proof/Machine/Images.lean ====
section
/-! DEFINITION.
Images in the boot flash: slots, headers, trailers, the checks of R54 and the choice of R56 (R52 to R56, R58, 03). -/

namespace Sys2Proof.Machine

/-- Flash offset and size of the place of an image: kinds 1 and 2 in slot 0 (A) or 1 (B), kind 3 in the Lodge staging
region, kind 4 in a plug-in store entry (Table 3.1, 03; R459, 20). -/
def imagePlace (kind slot : Nat) : Nat × Nat :=
  match kind with
  | 1 => (if slot = 0 then 0x00010000 else 0x00090000, 0x80000)
  | 2 => (if slot = 0 then 0x00110000 else 0x00910000, 0x800000)
  | 3 => (0x01110000, 0x40000)
  | _ => (0x01150000 + slot * 0x40000, 0x40000)

/-- Contents of the boot flash. -/
def bootFlash (s : State) : List Host.Cell := s.serial.sel[0].flash

/-- Change the boot flash; lines of the execute-in-place window that hold parts of it are invalidated (R401). -/
def onFlash (f : List Host.Cell → List Host.Cell) (s : State) : State :=
  s.onSerial fun x => { x with sel := upd x.sel 0 fun d => { d with flash := f d.flash }, lines := x.lines.filter fun l => l.sel != 0 }

/-- Erase a range: an erased byte reads 0xFF. -/
def eraseRange (at0 len : Nat) (m : List Host.Cell) : List Host.Cell :=
  m.filter fun c => decide (c.1 < at0) || decide (at0 + len ≤ c.1)

/-- A header field: little-endian (R53). -/
def headerField (base off n : Nat) (m : List Host.Cell) : Nat := leNat (cellsRead 0xFF (base + off) m n)

/-- IMAGE_VERSION of the image at a place. -/
def imageVersion (base : Nat) (m : List Host.Cell) : Nat := headerField base 0x08 4 m

/-- Offset of a place's trailer: its last 4 KiB (R54). -/
def trailerAt (p : Nat × Nat) : Nat := p.1 + p.2 - 0x1000

/-- Sequence number, state byte and trial byte of a trailer (R54, R55). -/
def trailer (p : Nat × Nat) (m : List Host.Cell) : Nat × Nat × Nat :=
  (headerField (trailerAt p) 0 4 m, headerField (trailerAt p) 4 1 m, headerField (trailerAt p) 5 1 m)

/-- The public key a KEY_INDEX names, when it is enrolled and not revoked; the integrator key for plug-ins only (R54). -/
def enrolledKey (kind index : Nat) (b : Boot) : Option (List Byte) :=
  if index = 0x100 then (if kind = 4 then b.integratorHash.map fun _ => b.integratorPub.getD [] else none)
  else if h : index < 4 then
    if b.keyRevoked[index] then none else b.keyHash[index].map fun _ => b.keyPub[index].getD []
  else none

/-- The hash fused for a KEY_INDEX. -/
def fusedHash (index : Nat) (b : Boot) : Option (List Byte) :=
  if index = 0x100 then b.integratorHash else if h : index < 4 then b.keyHash[index] else none

/-- The checks of R54 in order, against the fuses `b`: 0 when all pass, else the rejection cause of Table 3.5. -/
def imageCheckBy (b : Boot) (kind : Nat) (p : Nat × Nat) (s : State) : Nat :=
  let m := bootFlash s
  let base := p.1
  let len := headerField base 0x10 4 m
  let key := enrolledKey kind (headerField base 0x40 4 m) b
  if headerField base 0 4 m ≠ 0x4B5A494D ∨ headerField base 4 2 m ≠ 1 ∨ headerField base 6 2 m ≠ kind ∨
      headerField base 0xC0 64 m ≠ 0 then 1
  else if len % 16 ≠ 0 ∨ p.2 - 0x1000 - 256 < len then 2
  else match key with
    | none => 3
    | some k =>
      if some (sha256 k) ≠ fusedHash (headerField base 0x40 4 m) b ∨
          !ecdsaOk k (cellsRead 0xFF base m 0x80) (cellsRead 0xFF (base + 0x80) m 64) then 4
      else if sha256 (cellsRead 0xFF (base + 0x100) m len) ≠ cellsRead 0xFF (base + 0x20) m 32 then 5
      else if headerField base 0x0C 4 m < b.secLevel then 6
      else if b.dies[0].stepping.toNat < headerField base 0x1C 1 m then 7
      else 0

/-- The checks of R54 with the compute die's own fuses. -/
def imageCheck (kind : Nat) (p : Nat × Nat) (s : State) : Nat := imageCheckBy s.boot kind p s

/-- The payload of a verified image is copied to its LOAD_ADDR (R53, R57): bytes that fall outside the kind's banks of SRAM, bank 0 for
Keeper and banks 1 and 2 for Gardener, are not copied (log entry 8). -/
def copyPayload (kind : Nat) (p : Nat × Nat) (s : State) : State :=
  let m := bootFlash s
  let dest := headerField p.1 0x14 4 m
  let bs := cellsRead 0xFF (p.1 + 0x100) m (headerField p.1 0x10 4 m)
  let first := if kind = 1 then 0 else 0x400000
  let stop := if kind = 1 then 0x400000 else 0xC00000
  let kept := (bs.drop (first - dest)).take (stop - max dest first)
  s.onInteg fun g => { g with sram := cellsWrite 0 (max dest first) kept g.sram }

/-- What the procedure of R56 decides for a kind. -/
structure Choice where
  /-- Slot to boot: 0 A, 1 B; none: halt. -/
  slot : Option Nat
  /-- It is booted as a trial. -/
  trial : Bool
  /-- Cause for the last slot rejected. -/
  reject : Nat
  /-- Flash with the trailer changes made. -/
  flash : List Host.Cell

/-- The next trial byte: 0xFF, 0xFE, 0xFC, 0xF8 (R55). -/
def nextTrial (t : Nat) : Nat := if t = 0xFF then 0xFE else if t = 0xFE then 0xFC else 0xF8

/-- The procedure of R56. -/
def chooseSlot (kind : Nat) (s : State) : Choice :=
  let place := fun n => imagePlace kind n
  let m := bootFlash s
  let checks := [0, 1].map fun n => (n, imageCheck kind (place n) s)
  let valid := (checks.filter (·.2 == 0)).map (·.1)
  let reject := ((checks.filter (·.2 != 0)).getLast?.map (·.2)).getD 0
  let spent := valid.filter fun n => (trailer (place n) m).2 == (0x3C, 0xF8)
  let m1 := spent.foldl (fun m n => programBytes (trailerAt (place n) + 4) [0] m) m
  let left := valid.filter fun n => !spent.contains n
  let best := fun (l : List Nat) => l.foldl (fun (b : Option Nat) n =>
    match b with
    | none => some n
    | some c => if (trailer (place c) m).1 < (trailer (place n) m).1 then some n else some c) none
  let p := best (left.filter fun n => (trailer (place n) m).2.1 == 0x3C)
  let c := best (left.filter fun n => (trailer (place n) m).2.1 == 0x18)
  let boots := match p, c with
    | some x, none => some x
    | some x, some y => if (trailer (place y) m).1 < (trailer (place x) m).1 then some x else none
    | none, _ => none
  match boots with
  | some x =>
    { slot := some x, trial := true, reject := reject,
      flash := programBytes (trailerAt (place x) + 5) [BitVec.ofNat 8 (nextTrial (trailer (place x) m).2.2)] m1 }
  | none => { slot := c, trial := false, reject := reject, flash := m1 }

/-- Highest sequence number in either slot of a kind; an empty trailer holds none (R55). A plug-in or Lodge image has no pair of slots:
there the first two places of its kind are taken (DESIGN CHOICE, log entry 49). -/
def highestSequence (kind : Nat) (m : List Host.Cell) : Nat :=
  ([0, 1].map fun n => if (trailer (imagePlace kind n) m).2.1 = 0xFF then 0 else (trailer (imagePlace kind n) m).1).foldl max 0

/-- The slot booted for a kind. -/
def bootedSlot (kind : Nat) (b : Boot) : Nat := if kind = 1 then b.keeperSlot else b.gardenerSlot

/-- The running image of a kind is a trial. -/
def onTrial (kind : Nat) (b : Boot) : Bool := if kind = 1 then b.keeperTrial else kind == 2 && b.gardenerTrial

/-- The slot IMAGE_BEGIN takes: the one not booted, or in a halted Startup for the missing kind the one of R58. -/
def targetSlot (kind : Nat) (s : State) : Nat :=
  let m := bootFlash s
  let a := trailer (imagePlace kind 0) m
  let b := trailer (imagePlace kind 1) m
  let missing := halted s && (kind == 1 && s.boot.haltCause != 3 || kind == 2 && s.boot.haltCause == 3)
  if kind = 3 ∨ kind = 4 then 0
  else if missing then
    (if a.2.1 = 0xFF ∧ b.2.1 = 0xFF then 0 else if a.2.1 = 0xFF then 1 else if b.2.1 = 0xFF then 0
     else if b.1 < a.1 then 1 else 0)
  else 1 - bootedSlot kind s.boot

end Sys2Proof.Machine
end

