-- ==== Sys2Proof/Machine/System.lean ====
section
/-! DEFINITION.
The system class but for cyclic maps and the configuration store: discovery, operating point, identity, images, device
states, authentication (R28 to R35, 01; R62 to R67, 03; R85 to R88, R96, R97, 04). -/

namespace Sys2Proof.Machine

/-! PING and GET_INFO (Table 4.10). -/

/-- PING: the ECHO as sent, and TBASE0. -/
def opPing : Op :=
  { opcode := 0x0001, target := device, toe := false, states := allStates, loader := true
    schema := [{ type := 0x0100, lo := 0, hi := 1024, req := false }]
    effect := fun rq s =>
      .done s ((if has rq 0x0100 then [(0x0100, value rq 0x0100)] else []) ++ [(0x0101, be 8 s.tb0)]) }

/-- Executes PING. -/
def execPing (rq : Request) (s : State) : Host.Outcome State Fault Refusal := runCommand opPing rq s

/-- GET_INFO: part, steppings, state, versions, challenge, port. -/
def opGetInfo : Op :=
  { opcode := 0x0002, target := device, toe := false, states := allStates, loader := true, schema := []
    effect := fun _ s =>
      let m := bootFlash s
      .done s
        [(0x0100, ascii "KZ-6496-" ++ [s.boot.grade]),
         (0x0101, s.boot.stepping :: (s.boot.dies.map (·.stepping)).toList),
         (0x0102, be 1 s.sys.dev.code ++ be 1 s.sys.phase.toNat),
         (0x0103, be 4 (imageVersion (imagePlace 1 s.boot.keeperSlot).1 m) ++
                  be 4 (imageVersion (imagePlace 2 s.boot.gardenerSlot).1 m) ++ be 4 s.lodge.version),
         (0x0104, be 8 s.pkts.challenge.toNat),
         (0x0105, be 2 s.net.udpPort)] }

/-- Executes GET_INFO. -/
def execGetInfo (rq : Request) (s : State) : Host.Outcome State Fault Refusal := runCommand opGetInfo rq s

/-! CANCEL (R85). -/

/-- Does this CANCEL withdraw this pending command? -/
def cancels (rq : Request) (s : State) (p : Pending) : Bool :=
  !p.committed &&
  (if has rq 0x0100 then p.handle == num rq 0x0100 0 4
   else p.rq.src == rq.src && (rq.authed || !tagRequired p.opcode p.rq.src s))

/-- CANCEL: one handle, or the pending commands of its own source. -/
def opCancel : Op :=
  { opcode := 0x0003, target := device, toe := false, states := allStates
    schema := [optional 0x0100 4, optional 0x0101 0]
    values := fun rq _ =>
      firstDeny
        [(has rq 0x0100 && has rq 0x0101,
          denyAt .badParam (((tlvs rq).filter (fun t => t.type == 0x0100 || t.type == 0x0101)).getLast?.map (·.off) |>.getD 0)
            (((tlvs rq).filter (fun t => t.type == 0x0100 || t.type == 0x0101)).getLast?.map (·.type) |>.getD 0) 3),
         (!has rq 0x0100 && !has rq 0x0101, missing 0x0100)]
    effect := fun rq s =>
      let h := num rq 0x0100 0 4
      let named := s.pkts.pending.find? (fun p => p.handle == h)
      let off := ((tlv? rq 0x0100).map (·.off)).getD 0
      let bad := if !has rq 0x0100 then none else
        match named with
        | none =>
          if decide (0 < h) && decide (h < s.pkts.nextHandle) && !s.pkts.gone.contains h then
            some (denyAt .stateConflict off 0x0100 7)
          else some (denyAt .badParam off 0x0100 14)
        | some p =>
          if tagRequired p.opcode rq.src s && !rq.authed then some authFail
          else if p.committed then some (denyAt .stateConflict off 0x0100 7)
          else none
      match bad with
      | some d => .deny d
      | none =>
        let l := s.pkts.pending.filter (cancels rq s)
        .done (s.onPkts fun k => { k with
            pending := k.pending.filter (fun p => !cancels rq s p), gone := l.map (·.handle) ++ k.gone })
          [(0x0100, be 2 l.length)] }

/-- Executes CANCEL. -/
def execCancel (rq : Request) (s : State) : Host.Outcome State Fault Refusal := runCommand opCancel rq s

/-! Latency tolerances and the operating point (R28 to R33). -/

/-- The lowest band whose ceiling is at least the hottest reading plus 10 °C, else B3 (R31). -/
def bandFor (hottest : Int) : Nat := ([0, 1, 2].find? fun b => decide (hottest + 10 ≤ bandCeiling b)).getD 3

/-- A raise that a risen band asks for: the band comes into force when the ramp ends, at once where there is none (R32). -/
def raiseFor (b op : Nat) (s : State) : State :=
  let s1 := aimOp op (s.onPower fun p => { p with bandNext := some b })
  let s2 := s1.onPower fun p => { p with limit := limiting op s1 }
  if s2.power.ramp then s2 else s2.onPower fun p => { p with band := b, bandNext := none }

/-- A change of band (R32): a fall, or a rise the present operating point passes, is in force at once; otherwise the
operating point rises first and the band follows when the ramp ends; when none passes, loops will fault. -/
def changeBand (b : Nat) (s : State) : State :=
  if b ≤ s.power.band ∨ admittedAt (proofOp s) b s then
    reselect (s.onPower fun p => { p with band := b, bandNext := none, bandFallSince := none })
  else
    match lowestPassing b s (proofOp s) with
    | some op => raiseFor b op s
    | none =>
      let step := stepTime 0 b true
      let ls := proofLoops s
      mapLoops (fun i k y =>
        match ls.find? fun j => j.slot == i && j.kind == k && decide (slack4 step ls j < 0) with
        | some j => { y with slackFault := true, slack := BitVec.ofInt 16 (slackTicks step ls j) }
        | none => y) (raiseFor b 0 s)

/-- Banded proof switched on or off (R31): off puts B3 in force at once, on the band of the last reading (DESIGN CHOICE, log 49). -/
def setBanded (on : Bool) (s : State) : State :=
  if on = s.power.banded then s
  else if on then changeBand (bandFor s.power.hottest) (s.onPower fun p => { p with banded := true })
  else s.onPower fun p => { p with banded := false, band := 3, bandNext := none, bandFallSince := none }

/-- SET_LATENCY_TOLERANCE: its TLVs are checked together and applied together (R28, R97). -/
def opSetLatencyTolerance : Op :=
  { opcode := 0x0010, target := device, toe := true, states := afterStart
    schema := [optional 0x0100 12, optional 0x0101 1, optional 0x0102 1]
    values := fun rq _ => firstDeny
      [(decide (7 < num rq 0x0101 0 1), badValue rq 0x0101), (decide (3 < num rq 0x0102 0 1), badValue rq 0x0102)]
    effect := fun rq s =>
      let t := fun k d => numD rq 0x0100 (4 * k) 4 d
      let m := t 0 s.power.tolMotion
      let n := t 1 s.power.tolNetwork
      let ho := t 2 s.power.tolHost
      if decide (m < 4000) || decide (n < 2000) || decide (ho < 40000) then .deny (deny .slack)
      else
        let s1 := s.onPower fun p => { p with
          tolMotion := m, tolNetwork := n, tolHost := ho, opLimit := numD rq 0x0101 0 1 p.opLimit,
          restPermitted := if has rq 0x0102 then hasBit (num rq 0x0102 0 1) 1 else p.restPermitted }
        let s2 := if has rq 0x0102 then setBanded (hasBit (num rq 0x0102 0 1) 0) s1 else s1
        let s3 := reselect s2
        .done s3 [(0x0100, opSummary s3)] }

/-- Executes SET_LATENCY_TOLERANCE. -/
def execSetLatencyTolerance (rq : Request) (s : State) : Host.Outcome State Fault Refusal :=
  runCommand opSetLatencyTolerance rq s

/-- One loop's 8 bytes in GET_OPERATING_POINT (Table 4.10, R27). -/
def loopReport (s : State) (j : ProofLoop) : List Byte :=
  let y := s.loop.slot[j.slot].lp[j.kind]
  be 1 j.slot ++ be 1 j.kind ++ be 2 y.slack.toNat ++ be 2 y.margin.toNat ++ be 2 y.late.toNat

/-- Whole slots from `first` on, at most 128 loops. -/
def takeSlots (ls : List ProofLoop) : List (Fin 64) → List ProofLoop → List ProofLoop
  | [], acc => acc
  | i :: r, acc =>
    let own := ls.filter (·.slot == i)
    if 128 < acc.length + own.length then acc else takeSlots ls r (acc ++ own)

/-- GET_OPERATING_POINT; the margins it returns restart (R27, R97). -/
def opGetOperatingPoint : Op :=
  { opcode := 0x0011, target := device, toe := false, states := afterStart
    schema := [optional 0x0100 1]
    values := fun rq _ => firstDeny [(decide (63 < num rq 0x0100 0 1), badValue rq 0x0100)]
    effect := fun rq s =>
      let first := num rq 0x0100 0 1
      let ls := (proofLoops s).filter fun j => decide (first ≤ j.slot.val)
      let sent := takeSlots ls ((List.finRange 64).filter fun i => decide (first ≤ i.val)) []
      let next := ((ls.drop sent.length).head?.map (·.slot.val)).getD 0xFF
      let s1 := mapLoops (fun i k y => if sent.any (fun j => j.slot == i && j.kind == k) then { y with margin := 0xFFFF } else y) s
      .done s1 [(0x0100, opSummary s), (0x0101, sent.flatMap (loopReport s)), (0x0102, be 1 next)] }

/-- Executes GET_OPERATING_POINT. -/
def execGetOperatingPoint (rq : Request) (s : State) : Host.Outcome State Fault Refusal :=
  runCommand opGetOperatingPoint rq s

/-- SET_WAKE_TIMER: microseconds from now on AON; 0 disarms. -/
def opSetWakeTimer : Op :=
  { opcode := 0x0012, target := device, toe := false, states := afterStart, schema := [fixed 0x0100 4]
    effect := fun rq s =>
      let d := num rq 0x0100 0 4
      .done (s.onPower fun p => { p with wakeTimer := if d = 0 then none else some (p.aonUs + d) }) [] }

/-- Executes SET_WAKE_TIMER. -/
def execSetWakeTimer (rq : Request) (s : State) : Host.Outcome State Fault Refusal := runCommand opSetWakeTimer rq s

/-! Identity (R66, R67). -/

/-- A string in a field of `n` bytes. -/
def fitBytes (n : Nat) (bs : List Byte) : List Byte := (bs ++ List.replicate n 0).take n

/-- A die entry of the record (Tables 3.8, 3.9). -/
def dieBytes (kind : Nat) (d : DieEntry) : List Byte :=
  be 1 kind ++ [d.stepping] ++ fitBytes 8 d.lot ++ be 1 d.wafer ++ be 2 d.x ++ be 2 d.y ++ be 1 0

/-- Bytes 0x000 to 0x137 of the record: identical in every read (R67). -/
def identityHead (b : Boot) : List Byte :=
  be 2 1 ++ be 2 0x190 ++ fitBytes 12 b.serial ++ [b.grade, b.stepping] ++ be 2 b.dateCode ++ be 1 10 ++ be 3 0 ++
    (b.dies.toList.zipIdx.flatMap fun e => dieBytes (e.2 + 1) e.1) ++ fitBytes 64 b.devicePub ++ fitBytes 64 b.endorsement

/-- The record of Table 3.8; the device signature over it is a free value, its private key never leaving the die (R59). -/
def identityRecord (nonce : List Byte) (s : State) : List Byte :=
  let body := identityHead s.boot ++ fitBytes 16 nonce ++ be 8 s.stamp
  body ++ (List.range 64).map (Config.deviceSign body)

/-- IDENTITY_READ: a missing nonce is zero. -/
def opIdentityRead : Op :=
  { opcode := 0x0020, target := device, toe := false, states := allStates, loader := true, schema := [optional 0x0100 16]
    effect := fun rq s => .done s [(0x0100, identityRecord (value rq 0x0100) s)] }

/-- Executes IDENTITY_READ. -/
def execIdentityRead (rq : Request) (s : State) : Host.Outcome State Fault Refusal := runCommand opIdentityRead rq s

/-! Image sessions (R62, R63, R97). -/

/-- IMAGE_BEGIN opens a session and erases its target. -/
def opImageBegin : Op :=
  { opcode := 0x0030, target := device, toe := false, states := [.commissioning, .operational, .test], loader := true
    schema := [fixed 0x0100 1, fixed 0x0101 4, optional 0x0102 1]
    values := fun rq _ =>
      let k := num rq 0x0100 0 1
      let p := imagePlace k 0
      firstDeny
        [(decide (k < 1 ∨ 4 < k), badValue rq 0x0100),
         (decide (p.2 - 0x1000 < num rq 0x0101 0 4), badValue rq 0x0101),
         (k == 4 && !has rq 0x0102, missing 0x0102),
         (k != 4 && has rq 0x0102, badValue rq 0x0102),
         (decide (15 < num rq 0x0102 0 1), badValue rq 0x0102)]
    effect := fun rq s =>
      let k := num rq 0x0100 0 1
      let refused := (s.sys.dev == .startup && !(k == 1 || k == 2 && s.boot.haltCause == 3)) ||
        (k == 3 && s.sys.dev != .commissioning)
      if refused then .deny conflict
      else if s.boot.session.isSome then .deny (deny .busy)
      else
        let slot := if k = 4 then num rq 0x0102 0 1 else targetSlot k s
        let p := imagePlace k slot
        let code := if k = 3 then 2 else if k = 4 then 3 else slot
        let n := s.boot.nextSession
        let s1 := onFlash (eraseRange p.1 p.2) s
        .done (s1.onBoot fun b => { b with
            nextSession := (n + 1) % 0x10000
            session := some { id := n, kind := k, base := p.1, slot := code, entry := num rq 0x0102 0 1,
                              total := num rq 0x0101 0 4, last := s.now } })
          [(0x0100, be 2 n), (0x0101, be 1 code)] }

/-- Executes IMAGE_BEGIN. -/
def execImageBegin (rq : Request) (s : State) : Host.Outcome State Fault Refusal := runCommand opImageBegin rq s

/-- The open session, when the request names it: without one STATE_CONFLICT, with another number BAD_PARAM. -/
def sessionOf (rq : Request) (s : State) : Except Deny ImageSession :=
  match s.boot.session with
  | none => .error conflict
  | some x => if x.id = num rq 0x0100 0 2 then .ok x else .error (badValue rq 0x0100)

/-- Place and size of a session's target. -/
def sessionPlace (x : ImageSession) : Nat × Nat := (x.base, (imagePlace x.kind 0).2)

/-- IMAGE_DATA: bytes at an offset; a repeat of identical bytes is DONE without writing (R97). -/
def opImageData : Op :=
  { opcode := 0x0031, target := device, toe := false, states := afterStart, loader := true
    schema := [fixed 0x0100 2, fixed 0x0101 4, { type := 0x0102, lo := 1, hi := 1024 }]
    effect := fun rq s =>
      match sessionOf rq s with
      | .error d => .deny d
      | .ok x =>
        let off := num rq 0x0101 0 4
        let d := value rq 0x0102
        let s1 := s.onBoot fun b => { b with session := some { x with last := s.now } }
        if x.total < off + d.length then .deny (badValue rq 0x0101)
        else if x.written.any (fun w => decide (w.1 < off + d.length ∧ off < w.1 + w.2)) then
          if cellsRead 0xFF (x.base + off) (bootFlash s) d.length = d then .done s1 [] else .deny (badValue rq 0x0102)
        else
          .done (onFlash (programBytes (x.base + off) d)
            (s.onBoot fun b => { b with session := some { x with last := s.now, written := (off, d.length) :: x.written } })) [] }

/-- Executes IMAGE_DATA. -/
def execImageData (rq : Request) (s : State) : Host.Outcome State Fault Refusal := runCommand opImageData rq s

/-- The trailer IMAGE_COMMIT writes: the next sequence, pending, no trial used (R55). -/
def pendingTrailer (x : ImageSession) (s : State) : List Byte :=
  le 4 (highestSequence x.kind (bootFlash s) + 1) ++ [0x3C, 0xFF]

/-- IMAGE_COMMIT: verify under R54, then write the trailer as pending and close the session. A failure is answered with its cause;
SYS_STATE.REJECT_CAUSE, the cause of a slot rejected at the start, stays as it is (DESIGN CHOICE, log entry 49: R54 and R97 name the
reply alone). -/
def opImageCommit : Op :=
  { opcode := 0x0032, target := device, toe := false, states := afterStart, loader := true, schema := [fixed 0x0100 2]
    effect := fun rq s =>
      match sessionOf rq s with
      | .error d => .deny d
      | .ok x =>
        let c := imageCheck x.kind (sessionPlace x) s
        if c ≠ 0 then .deny (deny .badParam [(0x0004, be 1 c)])
        else
          let s1 := onFlash (programBytes (trailerAt (sessionPlace x)) (pendingTrailer x s)) s
          .done (s1.onBoot fun b => { b with session := none }) [] }

/-- Executes IMAGE_COMMIT. -/
def execImageCommit (rq : Request) (s : State) : Host.Outcome State Fault Refusal := runCommand opImageCommit rq s

/-- The reply is sent first; Reset follows 1 ms after it is handed over, which behind a full outbox is when it enters it (R97). A request whose
NOREPLY suppresses the reply counts from its execution (DESIGN CHOICE, log entry 49). The transition is under way from now on (R64). -/
def resetSoon (rq : Request) (cause : Nat) (s : State) : State :=
  let waits := rq.src == .hostPort && !suppressed rq .done && (decide (16 ≤ s.pkts.outbox.length) || !s.pkts.waiting.isEmpty)
  s.onSys fun y => { y with
    transition := some .reset, resetCause := some cause, resetDue := if waits then none else some (s.now + 500000)
    resetBehind := if waits then some (s.pkts.waiting.length + 1) else none }

/-- A slot of the kind is pending and above the confirmed one, so that R56 would boot it as a trial. -/
def hasTrial (kind : Nat) (s : State) : Bool := (chooseSlot kind s).trial

/-- IMAGE_ACTIVATE: Reset for kinds 1 and 2; a Lodge image is handed to Lodge and answered when Lodge has decided. -/
def opImageActivate : Op :=
  { opcode := 0x0033, target := device, toe := false, states := [.commissioning], schema := [fixed 0x0100 1]
    values := fun rq _ => firstDeny [(decide (num rq 0x0100 0 1 < 1 ∨ 3 < num rq 0x0100 0 1), badValue rq 0x0100)]
    effect := fun rq s =>
      let k := num rq 0x0100 0 1
      if k = 3 then
        if (trailer (imagePlace 3 0) (bootFlash s)).2.1 ≠ 0x3C then .deny conflict
        else if s.boot.activating then .deny (deny .busy)
        else .wait (s.onBoot fun b => { b with activating := true }) 3 []
      else if !hasTrial k s then .deny conflict
      else .done (resetSoon rq 0 s) [] }

/-- Executes IMAGE_ACTIVATE. -/
def execImageActivate (rq : Request) (s : State) : Host.Outcome State Fault Refusal := runCommand opImageActivate rq s

/-- IMAGE_CONFIRM: the trial becomes confirmed, and S rises to its SEC_VERSION (Table 3.6). -/
def opImageConfirm : Op :=
  { opcode := 0x0034, target := device, toe := false, states := afterStart, schema := [fixed 0x0100 1]
    values := fun rq _ => firstDeny [(decide (num rq 0x0100 0 1 < 1 ∨ 4 < num rq 0x0100 0 1), badValue rq 0x0100)]
    effect := fun rq s =>
      let k := num rq 0x0100 0 1
      if !onTrial k s.boot then .deny conflict
      else
        let p := imagePlace k (bootedSlot k s.boot)
        let sec := max s.boot.secLevel (headerField p.1 0x0C 4 (bootFlash s))
        let s1 := onFlash (programBytes (trailerAt p + 4) [0x18]) s
        .done (s1.onBoot fun b => { b with
            secLevel := sec, keeperTrial := b.keeperTrial && k != 1, gardenerTrial := b.gardenerTrial && k != 2 })
          [(0x0100, be 1 sec)] }

/-- Executes IMAGE_CONFIRM. -/
def execImageConfirm (rq : Request) (s : State) : Host.Outcome State Fault Refusal := runCommand opImageConfirm rq s

/-- IMAGE_ROLLBACK: only when the other slot is confirmed and still valid (Table 3.6). -/
def opImageRollback : Op :=
  { opcode := 0x0035, target := device, toe := false, states := [.commissioning], schema := [fixed 0x0100 1]
    values := fun rq _ => firstDeny [(decide (num rq 0x0100 0 1 < 1 ∨ 3 < num rq 0x0100 0 1), badValue rq 0x0100)]
    effect := fun rq s =>
      let k := num rq 0x0100 0 1
      let own := bootedSlot k s.boot
      let other := imagePlace k (1 - own)
      if k = 3 ∨ (trailer other (bootFlash s)).2.1 ≠ 0x18 ∨ imageCheck k other s ≠ 0 then .deny conflict
      else .done (resetSoon rq 0 (onFlash (programBytes (trailerAt (imagePlace k own) + 4) [0x00]) s)) [] }

/-- Executes IMAGE_ROLLBACK. -/
def execImageRollback (rq : Request) (s : State) : Host.Outcome State Fault Refusal := runCommand opImageRollback rq s

/-- The session has received no IMAGE_DATA for 10 s (R62). -/
def sessionStale (s : State) : Bool := s.boot.session.any fun x => decide (x.last + 5000000000 ≤ s.now)

/-- IMAGE_SESSION_TIMEOUT: the session is abandoned; its slot keeps its erased trailer (R62). -/
def execImageSessionTimeout (s : State) : Host.Outcome State Fault Refusal :=
  .next (if sessionStale s then s.onBoot fun b => { b with session := none } else s)

/-! Device states (R64, R65, Table 3.7). -/

/-- A device state from its code. -/
def stateOf (n : Nat) : DevState :=
  match n with
  | 2 => .commissioning
  | 3 => .operational
  | 4 => .test
  | _ => .recovery

/-- Lodge reports confirmed parameters and its Run state (Table 3.7). -/
def lodgeRuns (s : State) : Bool := s.lodge.st == .run && s.lodge.params.isSome

/-- Why a transition is refused, if it is (Table 3.7). -/
def transitionDeny (to0 : DevState) (s : State) : Option Deny :=
  match s.sys.dev, to0 with
  | .commissioning, .operational =>
    match (unacked s).head? with
    | some e => some (faultActive e.code)
    | none => if lodgeRuns s && admittedAt (proofOp s) s.power.band s then none else some conflict
  | .operational, .commissioning => if liveSlots s = [] then none else some conflict
  | .operational, .test => none
  | .test, .operational => none
  | .operational, .recovery => none
  | .recovery, .operational => (blockingFault s).map faultActive
  | _, _ => some conflict

/-- Make a transition. Operational without Lodge in Run is LODGE_NOT_RUN at once (R345). -/
def setDevice (to0 : DevState) (s : State) : State :=
  if to0 = .recovery then enterRecovery s
  else
    let s1 := s.onSys fun y => { y with dev := to0 }
    if to0 = .operational ∧ s.lodge.st ≠ .run then deviceFault 0x0014 0xFFFF 0 true s1 else s1

/-- SET_STATE. -/
def opSetState : Op :=
  { opcode := 0x0040, target := device, toe := true, states := afterStart, schema := [fixed 0x0100 1]
    values := fun rq _ => firstDeny [(decide (num rq 0x0100 0 1 < 2 ∨ 5 < num rq 0x0100 0 1), badValue rq 0x0100)]
    effect := fun rq s =>
      let n := num rq 0x0100 0 1
      if s.sys.transition.isSome then .deny (deny .busy)
      else if s.sys.dev.code = n then .done s [(0x0100, be 1 n)]
      else
        match transitionDeny (stateOf n) s with
        | some d => .deny d
        | none => .done (setDevice (stateOf n) s) [(0x0100, be 1 n)] }

/-- Executes SET_STATE. -/
def execSetState (rq : Request) (s : State) : Host.Outcome State Fault Refusal := runCommand opSetState rq s

/-- RESET: the reply first, then Reset with HOST_RESET recorded. -/
def opReset : Op :=
  { opcode := 0x0041, target := device, toe := true, states := [.commissioning, .recovery], loader := true, schema := []
    effect := fun rq s => .done (resetSoon rq 4 s) [] }

/-- Executes RESET. -/
def execReset (rq : Request) (s : State) : Host.Outcome State Fault Refusal := runCommand opReset rq s

/-- RESET_ENTRY: one ms after the reply was handed over; HOST_RESET is recorded for RESET (R97, R473). -/
def execResetEntry (s : State) : Host.Outcome State Fault Refusal :=
  .next (if s.sys.resetDue.any fun t => decide (t ≤ s.now) then
      enterReset (if s.sys.resetCause = some 4 then recordFault 0x0004 0 0xFFFF 0 false s else s)
    else s)

/-! Authentication (R86, R87). -/

/-- AUTH_KEY_SET: load or empty a key slot. -/
def opAuthKeySet : Op :=
  { opcode := 0x0050, target := device, toe := false, states := [.commissioning], hostOnly := true
    schema := [fixed 0x0100 1, optional 0x0101 32]
    values := fun rq _ => firstDeny [(decide (3 < num rq 0x0100 0 1), badValue rq 0x0100)]
    effect := fun rq s =>
      .done (s.onPkts fun k => { k with
        keys := upd k.keys (Fin.ofNat 4 (num rq 0x0100 0 1)) fun _ => if has rq 0x0101 then some (value rq 0x0101) else none }) [] }

/-- Executes AUTH_KEY_SET. -/
def execAuthKeySet (rq : Request) (s : State) : Host.Outcome State Fault Refusal := runCommand opAuthKeySet rq s

/-- AUTH_POLICY_SET: the classes that require a tag, and whether the Host Port is included. -/
def opAuthPolicySet : Op :=
  { opcode := 0x0051, target := device, toe := false, states := [.commissioning]
    schema := [fixed 0x0100 2, fixed 0x0101 1]
    values := fun rq _ => firstDeny [(decide (1 < num rq 0x0101 0 1), badValue rq 0x0101)]
    effect := fun rq s =>
      .done (s.onPkts fun k => { k with
        policy := BitVec.ofNat 16 (num rq 0x0100 0 2), policyHost := num rq 0x0101 0 1 == 1 }) [] }

/-- Executes AUTH_POLICY_SET. -/
def execAuthPolicySet (rq : Request) (s : State) : Host.Outcome State Fault Refusal := runCommand opAuthPolicySet rq s

/-- A source's lock-out has lasted its second (R86). -/
def lockoutOver (src : Source) (s : State) : Bool := s.pkts.lockouts.any fun e => e.1 == src && decide (e.2 + 500000000 ≤ s.now)

/-- AUTH_LOCKOUT_END: packets of the source are taken again, its refusals counted from none (R86). -/
def execAuthLockoutEnd (src : Source) (s : State) : Host.Outcome State Fault Refusal :=
  .next (if lockoutOver src s then s.onPkts fun k => { k with
      lockouts := k.lockouts.filter fun e => e.1 != src, authFails := k.authFails.filter fun e => e.1 != src }
    else s)

/-! Supplies, temperature and power events (01, 02). -/

/-- TEMP_SAMPLE: AON takes the hottest of eight sensors (R31, R50). -/
def execTempSample (hottest : Int) (s : State) : Host.Outcome State Fault Refusal :=
  let s1 := s.onPower fun p => { p with hottest := hottest }
  let s2 :=
    if 135 ≤ hottest then
      let s2 := axisFaults (liveSlots s1) 3 0 (s1.onPower fun p => { p with overtemp := true })
      if s.power.overtemp then s2 else deviceFault 0x0010 0xFFFF 0 true s2
    else if hottest < 115 ∧ s.power.overtemp then
      setCause 0x0010 0xFFFF false (s1.onPower fun p => { p with overtemp := false })
    else s1
  let b := bandFor hottest
  .next (
    if !s2.power.banded then s2
    else if s2.power.band < b then changeBand b s2
    else if 0 < s2.power.band ∧ hottest + 10 ≤ bandCeiling (s2.power.band - 1) - 5 then
      s2.onPower fun p => { p with bandFallSince := some (p.bandFallSince.getD s2.now) }
    else s2.onPower fun p => { p with bandFallSince := none })

/-- BAND_FALL: the reading has stayed low for 1 s (R31). -/
def execBandFall (s : State) : Host.Outcome State Fault Refusal :=
  .next (match s.power.bandFallSince with
    | some t => if t + 500000000 ≤ s.now ∧ 0 < s.power.band then changeBand (s.power.band - 1) s else s
    | none => s)

/-- VOLTAGE_RAMP_END: the voltage has reached its target, and a band waiting for it comes into force (R30, R32). -/
def execVoltageRampEnd (s : State) : Host.Outcome State Fault Refusal :=
  .next (if s.power.ramp ∧ coreVolt s = opVolt s.power.opTarget then
    reportSlack (s.onPower fun p => { p with
      opNow := p.opTarget, ramp := false, volt := opVolt p.opTarget, rampAt := s.now, band := p.bandNext.getD p.band, bandNext := none })
  else s)

/-- POWER_STATE_EVAL: every 10 ms (R33). -/
def execPowerStateEval (s : State) : Host.Outcome State Fault Refusal :=
  .next (if afterStartup s ∧ !s.power.waking then reselect s else s)

/-- WAKE_EVENT: in Nap or Rest a wake starts (R34). -/
def execWakeEvent (s : State) : Host.Outcome State Fault Refusal :=
  .next (if s.power.power = .nap ∨ s.power.power = .rest then s.onPower fun p => { p with waking := true } else s)

/-- WAKE_TIMER_EXPIRY: the AON wake timer, its time come, wakes the device (R34). -/
def execWakeTimerExpiry (s : State) : Host.Outcome State Fault Refusal :=
  match s.power.wakeTimer with
  | none => .next s
  | some t => if s.power.aonUs < t then .next s else execWakeEvent (s.onPower fun p => { p with wakeTimer := none })

/-- VLOG_LOW: AON records it and the device enters Reset (R45). -/
def execVlogLow (s : State) : Host.Outcome State Fault Refusal :=
  .next (enterReset ((recordFault 0x0001 0 0xFFFF 0 false s).onPower fun p => { p with vlogGood := false, sagged := true }))

/-- RESET_PIN: RESETN low for 10 µs enters Reset the same way (R45). -/
def execResetPin (s : State) : Host.Outcome State Fault Refusal :=
  .next (enterReset ((recordFault 0x0002 0 0xFFFF 0 false s).onPower fun p => { p with resetnLow := true }))

/-- KEEPER_WATCHDOG: AON records it and the device enters Reset (R61). -/
def execKeeperWatchdog (s : State) : Host.Outcome State Fault Refusal :=
  .next (if s.sys.dev = .reset then s else enterReset (recordFault 0x0003 0 0xFFFF 0 false s))

/-- GARDENER_WATCHDOG: axes take torque off and Keeper begins to restart Gardener; Recovery from Operational follows the restart, at
GARDENER_START (R61, R492). -/
def execGardenerWatchdog (s : State) : Host.Outcome State Fault Refusal :=
  if !s.boot.gardenerRuns then .next s
  else
    let s1 := recordFault 0x0011 1 0xFFFF 0 false (axisFaults (liveSlots s) 4 0 s)
    .next ((s1.onBoot fun b => { b with gardenerRuns := false, gardenerRestart := true, recoverDue := true }).onSys
      fun y => { y with phase := 2 })

/-- REFERENCE_LOSS: the clamp drives every leg low, AON goes to its RC and records it (R18, R477). -/
def execReferenceLoss (s : State) : Host.Outcome State Fault Refusal :=
  if s.power.refLost then .next s else
  let s1 := s.onPower fun p => { p with
    refLost := true, pllLocked := false, aonRc := true, coarse := s.wall / 1000, diEdges := 0 }
  let s2 := refreshAll (s1.onSys fun y => { y with legClamp := true })
  .next (deviceFault 0x0005 0xFFFF 0 true s2)

/-- PLL_LOCK: the reference is back (R478). -/
def execPllLock (s : State) : Host.Outcome State Fault Refusal :=
  let s1 := (s.onPower fun p => { p with refLost := false, pllLocked := true, aonRc := false }).onLodge
    fun b => { b with refGone := if b.refFault then some b.time else none }
  .next (setCause 0x0005 0xFFFF false (refreshAll (s1.onSys fun y => { y with legClamp := false })))

/-- RESET_RELEASE: rails qualified and RESETN high; the boot ROM starts Startup (R44, R57). -/
def execResetRelease (s : State) : Host.Outcome State Fault Refusal :=
  if s.sys.dev ≠ .reset then .next s
  else
    let s1 := s.onSys fun y => { y with dev := .startup, phase := 0, tick := 0, stopped := 0, rstoutLow := false }
    let s2 := s1.onPower fun p => { p with vlogGood := true, resetnLow := false, sagged := false }
    .next (if stoInForce s2 then stoLatchAll s2 else s2)

end Sys2Proof.Machine
end

