-- ==== Sys2Proof/Machine/LanePlug.lean ====
section
/-! DEFINITION.
Plug-ins: the manifest (Table 20.7), the placement rules (Table 20.6) and loading (R457 to R461, 20). -/

namespace Sys2Proof.Machine

/-- A plug-in payload as read from the store. -/
structure Plug where
  /-- Taps: variable code and index. -/
  taps : List (Nat × Nat)
  /-- General ports granted. -/
  ports : List Nat
  /-- Set-point ports granted. -/
  slots : List Nat
  /-- Program. -/
  prog : List Word
  /-- Initial data. -/
  data : List Byte
deriving DecidableEq, Repr

/-- Little-endian words of a byte string. -/
def wordsOf : Nat → List Byte → List Word
  | 0, _ => []
  | n + 1, bs => BitVec.ofNat 32 (leNat (bs.take 4)) :: wordsOf n (bs.drop 4)

/-- A field of the manifest; image payloads are little-endian (R53, 03). -/
def manField (bs : List Byte) (off n : Nat) : Nat := leNat (slice off n bs)

/-- A grant table: `n` numbers below 64, then 0xFF. -/
def grantsOk (bs : List Byte) (off n : Nat) : Bool :=
  (List.range 64).all fun i => if i < n then decide (manField bs (off + i) 1 < 64) else manField bs (off + i) 1 == 0xFF

/-- The manifest keeps Table 20.7. -/
def manifestOk (bs : List Byte) : Bool :=
  let words := manField bs 6 2
  let data := manField bs 8 4
  let taps := manField bs 0xC 1
  manField bs 0 4 == 0x434F5052 && manField bs 4 2 == 1 && decide (1 ≤ words) && decide (words ≤ 8192) &&
  decide (data ≤ 98304) && data % 4 == 0 && decide (taps ≤ 64) && decide (manField bs 0xD 1 ≤ 64) && decide (manField bs 0xE 1 ≤ 64) &&
  manField bs 0xF 1 == 0 &&
  ((List.range taps).all fun t => decide (manField bs (0x10 + 2 * t + 1) 1 < variableCount (manField bs (0x10 + 2 * t) 1))) &&
  grantsOk bs 0x90 (manField bs 0xD 1) && grantsOk bs 0xD0 (manField bs 0xE 1) && manField bs 0x110 240 == 0 &&
  decide (512 + 4 * words + data ≤ bs.length)

/-- A payload taken apart. -/
def plugOf (bs : List Byte) : Plug :=
  let words := manField bs 6 2
  { taps := (List.range (manField bs 0xC 1)).map fun t => (manField bs (0x10 + 2 * t) 1, manField bs (0x10 + 2 * t + 1) 1)
    ports := (List.range (manField bs 0xD 1)).map fun i => manField bs (0x90 + i) 1
    slots := (List.range (manField bs 0xE 1)).map fun i => manField bs (0xD0 + i) 1
    prog := wordsOf words (slice 512 (4 * words) bs)
    data := slice (512 + 4 * words) (manField bs 8 4) bs }

/-! The program (Table 20.6). -/

/-- The opcodes of Table 20.5. -/
def legalOp (o : Nat) : Bool :=
  decide (o ≤ 0x15) || (decide (0x18 ≤ o) && decide (o ≤ 0x1B)) || (decide (0x20 ≤ o) && decide (o ≤ 0x2A)) ||
    (decide (0x30 ≤ o) && decide (o ≤ 0x3A))

/-- A branch, CALL or RET. -/
def isBranch (o : Nat) : Bool := decide (0x30 ≤ o) && decide (o ≤ 0x36)

/-- A branch, CALL, RET, REP or END. -/
def isControl (o : Nat) : Bool := decide (0x30 ≤ o) && decide (o ≤ 0x38)

/-- The fields Table 20.4 and Table 20.5 call zero are zero. -/
def zeroFields (w : Word) : Bool :=
  let o := opOf w
  let z := fun lo n => wordBits w lo n == 0
  if o = 0x00 ∨ o = 0x38 then z 0 26
  else if o = 0x39 then z 2 24
  else if o = 0x3A then z 0 21
  else if o ≤ 0x0F then z 0 11
  else if o = 0x11 then z 16 5
  else if o = 0x1A ∨ o = 0x1B then z 0 16
  else if o = 0x24 then z 0 18
  else if decide (0x20 ≤ o) && decide (o ≤ 0x2A) then z 21 1 && z 8 3
  else if o = 0x34 then z 16 10
  else if o = 0x37 then z 21 4 && z 10 6
  else true

/-- Where a branch or CALL at a word goes. -/
def targetOf (i : Nat) (w : Word) : Int := if opOf w = 0x35 then (immU w : Int) else (i : Int) + immS w

/-- A word breaks a rule of its own. -/
def badWord (n i : Nat) (w : Word) : Bool :=
  let o := opOf w
  !legalOp o || !zeroFields w ||
  (isBranch o && o != 0x36 && (decide (targetOf i w < 0) || decide ((n : Int) ≤ targetOf i w))) ||
  (o == 0x26 && (decide (shOf w < -72) || decide (71 < shOf w))) ||
  (o == 0x29 && (decide (shOf w < 0) || decide (40 < shOf w)))

/-- Targets of the branches whose second delay slot is a load. -/
def loadTargets (p : List Word) : List Nat :=
  ((p.zipIdx).filter fun e => isBranch (opOf e.1) && opOf e.1 != 0x36 && (p[e.2 + 2]?.map opOf) == some 0x18).map
    fun e => (targetOf e.2 e.1).toNat

/-- A word stands where its kind must not. `before` and `before2` are the opcodes of the two words before it. -/
def badPlace (targets : List Nat) (i o : Nat) (before before2 : Option Nat) : Bool :=
  let is := fun (p : Nat → Bool) (x : Option Nat) => (x.map p).getD false
  (isControl o && (is isBranch before || is isBranch before2 || before == some 0x37)) ||
  ((isControl o || o == 0x18) && (before == some 0x18 || targets.contains i)) ||
  (o == 0x18 && before2 == some 0x36)

/-- The first word that breaks a rule: scanned in order with the two opcodes before it. -/
def firstBad (n : Nat) (targets : List Nat) : Nat → Option Nat → Option Nat → List Word → Option Nat
  | _, _, _, [] => none
  | i, b, b2, w :: r =>
    if badWord n i w || badPlace targets i (opOf w) b b2 then some i
    else firstBad n targets (i + 1) (some (opOf w)) b r

/-- The word at which a program breaks Table 20.6. -/
def programFault (p : List Word) : Option Nat := firstBad p.length (loadTargets p) 0 none none p

/-! Loading (R461). -/

/-- Grants as bits. -/
def grantBits (l : List Nat) : BitVec 64 := l.foldl (fun b p => b ||| BitVec.ofNat 64 (2 ^ p)) 0

/-- A lane has an enabled thread. -/
def laneBusy (l : Fin 8) (s : State) : Bool :=
  (List.finRange 512).any fun (t : Fin 512) =>
    s.lanes.thr[t].defined && s.lanes.thr[t].enabled && s.lanes.thr[t].lane == l.val

/-- A port of these is granted to another lane. -/
def grantTaken (l : Fin 8) (p q : BitVec 64) (s : State) : Bool :=
  (List.finRange 8).any fun (k : Fin 8) =>
    k != l && (s.lanes.lane[k].grantP &&& p != 0 || s.lanes.lane[k].grantS &&& q != 0)

/-- The lane would lose the grant of a set-point port that feeds an Enabled slot. -/
def feedsLost (l : Fin 8) (q : BitVec 64) (s : State) : Bool :=
  (List.finRange 64).any fun (i : Fin 64) =>
    s.lanes.lane[l].grantS.getLsbD i.val && !q.getLsbD i.val && s.axis[i].st == .enabled &&
      (s.axis[i].mode.map (·.source)) == some 6

/-- A lane with a plug-in loaded. PLUGIN_LOAD rewrites the lane, poisoned blocks included (Table 21.3). -/
def installPlug (l : Fin 8) (entry : Nat) (p : Plug) (s : State) : State :=
  let s1 := clearPoison (0x4A100000 + l.val * 0x40000) 0x40000 s
  onLane l (fun x => { lastThread := x.lastThread, entry := some entry, prog := p.prog, data := cellsWrite 0 0 p.data [],
                       taps := p.taps, grantP := grantBits p.ports, grantS := grantBits p.slots }) s1

/-- PLUGIN_LOAD's checks and effect, in the order of R461; `rq` names the ENTRY TLV in a refusal. -/
def loadPlug (rq : Request) (l : Fin 8) (entry : Nat) (s : State) : Except Deny State :=
  if laneBusy l s then .error conflict
  else if entry = 0xFF then
    if feedsLost l 0 s then .error conflict else .ok (onLane l (fun x => { lastThread := x.lastThread }) s)
  else
    let place := imagePlace 4 entry
    let c := imageCheck 4 place s
    if c ≠ 0 then .error (deny .badParam [(0x0004, be 1 c)])
    else
      let bs := cellsRead 0xFF (place.1 + 0x100) (bootFlash s) (headerField place.1 0x10 4 (bootFlash s))
      let p := plugOf bs
      let bad := if manifestOk bs then programFault p.prog else some 0xFFFF
      match bad with
      | some i => .error ⟨.badParam, [detail (tlvOff rq 0x0100) 0x0100 3, (0x0100, be 2 i)]⟩
      | none =>
        if grantTaken l (grantBits p.ports) (grantBits p.slots) s then .error (deny .resource)
        else if feedsLost l (grantBits p.slots) s then .error conflict
        else .ok (installPlug l entry p s)

end Sys2Proof.Machine
end

