-- ==== Sys2Proof/Machine/LaneOps.lean ====
section
/-! DEFINITION.
The dispatcher-and-lanes class of opcodes (Table 20.10, R461 to R463, 20). -/

namespace Sys2Proof.Machine

/-- The device states of Table 20.10 without Recovery. -/
def laneStates : List DevState := [.commissioning, .operational, .test]

/-- A plug-in thread slot. -/
def plugThread (t : Nat) : Bool := decide (256 ≤ t) && decide (t < 512)

/-- PLUGIN_LOAD. -/
def opPluginLoad : Op :=
  { opcode := 0x0E00, target := below 8, toe := false, states := laneStates, schema := [fixed 0x0100 1]
    values := fun rq _ =>
      firstDeny [(decide (15 < num rq 0x0100 0 1) && num rq 0x0100 0 1 != 0xFF, badValue rq 0x0100)]
    effect := fun rq s =>
      match loadPlug rq (tgt 8 rq) (num rq 0x0100 0 1) s with
      | .error d => .deny d
      | .ok t => .done t [] }

/-- Executes PLUGIN_LOAD. -/
def execPluginLoad (rq : Request) (s : State) : Host.Outcome State Fault Refusal := runCommand opPluginLoad rq s

/-- A source lies inside Table 20.2. -/
def TokSource.ok (x : TokSource) : Bool :=
  let r := fun (n m : Nat) => decide (x.index < n) && decide (x.sub < m)
  match x.code with
  | 0 => r 1 1
  | 1 => decide (256 ≤ x.index) && decide (x.index < 512) && x.sub == 0
  | 2 => r 64 3
  | 3 => r 64 3
  | 4 => r 16 1
  | 5 => r 16 1
  | 6 => r 4 2
  | 7 => r 1 1
  | 8 => r 16 1
  | 9 => r 16 1
  | 10 => r 1 1
  | _ => false

/-- A thread's sources; the one byte of an index names slot 256 + index for a thread end (log entry 30). -/
def sourcesOf (rq : Request) : List TokSource :=
  (List.range 4).map fun k =>
    let c := num rq 0x0105 (4 * k) 1
    { code := c, index := num rq 0x0105 (4 * k + 1) 1 + (if c = 1 then 256 else 0), sub := num rq 0x0105 (4 * k + 2) 1 }

/-- Values of THREAD_DEFINE. -/
def defineValues (rq : Request) (s : State) : Option Deny :=
  let l : Fin 8 := Fin.ofNat 8 (num rq 0x0100 0 1)
  if !has rq 0x0100 then none
  else
    match [0x0101, 0x0102, 0x0103, 0x0104, 0x0105, 0x0106].find? fun t => !has rq t with
    | some t => some (missing t)
    | none => firstDeny
      [(decide (7 < num rq 0x0100 0 1), badValue rq 0x0100), (decide (31 < num rq 0x0101 0 1), badValue rq 0x0101),
       (decide (3 < num rq 0x0102 0 1), badValue rq 0x0102),
       (decide ((s.lanes.lane[l]).prog.length ≤ num rq 0x0103 0 2), badValue rq 0x0103),
       (num rq 0x0104 0 2 == 0, badValue rq 0x0104),
       (!(sourcesOf rq).all TokSource.ok || (List.range 4).any (fun k => num rq 0x0105 (4 * k + 3) 1 != 0), badValue rq 0x0105),
       (decide (num rq 0x0106 0 4 < 1) || decide (16777216 < num rq 0x0106 0 4), badValue rq 0x0106)]

/-- A thread slot undefined; its counts of tokens and runs stay. -/
def Thread.released (t : Thread) : Thread :=
  { tokIn := t.tokIn, tokUsed := t.tokUsed, tokDropped := t.tokDropped, runs := t.runs, latLast := t.latLast, latMax := t.latMax,
    fFault := t.fFault, cause := t.cause, fOverrun := t.fOverrun }

/-- A thread slot as THREAD_DEFINE leaves it. -/
def Thread.define (rq : Request) (t : Thread) : Thread :=
  { t.released with
    defined := true, lane := num rq 0x0100 0 1, level := num rq 0x0101 0 1, preemptive := hasBit (num rq 0x0102 0 1) 0
    satStart := hasBit (num rq 0x0102 0 1) 1, entry := num rq 0x0103 0 2, reload := num rq 0x0104 0 2, cnt := num rq 0x0104 0 2
    sources := (sourcesOf rq).filter fun x => x.code != 0, budget := num rq 0x0106 0 4 }

/-- THREAD_DEFINE: without LANE the slot is released. -/
def opThreadDefine : Op :=
  { opcode := 0x0E01, target := plugThread, toe := false, states := laneStates
    schema := [optional 0x0100 1, optional 0x0101 1, optional 0x0102 1, optional 0x0103 2, optional 0x0104 2, optional 0x0105 16,
               optional 0x0106 4]
    values := defineValues
    effect := fun rq s =>
      let t := tgt 512 rq
      if (s.lanes.thr[t]).enabled then .deny conflict
      else .done (onThr t (fun x => if has rq 0x0100 then x.define rq else x.released) s) [] }

/-- Executes THREAD_DEFINE. -/
def execThreadDefine (rq : Request) (s : State) : Host.Outcome State Fault Refusal := runCommand opThreadDefine rq s

/-- A thread begins to wait with its counter full. -/
def startWaiting (t : Fin 512) (s : State) : State :=
  onThr t (fun x => { x with st := .waiting, enabled := true, disableAtEnd := false, cnt := x.reload, early := 0 }) s

/-- THREAD_ENABLE: 1 starts a DISABLED or FAULTED thread WAITING; 0 on a RUNNING or PREEMPTED one waits for its end (R463). -/
def opThreadEnable : Op :=
  { opcode := 0x0E02, target := plugThread, toe := true, states := afterStart, schema := [fixed 0x0100 1]
    values := fun rq _ => firstDeny [(decide (1 < num rq 0x0100 0 1), badValue rq 0x0100)]
    effect := fun rq s =>
      let t := tgt 512 rq
      let x := s.lanes.thr[t]
      if !x.defined then .deny conflict
      else if num rq 0x0100 0 1 = 1 then
        if (s.lanes.lane[Fin.ofNat 8 x.lane]).entry.isNone then .deny conflict
        else if x.st = .disabled ∨ x.st = .faulted then .done (startWaiting t s) []
        else .done s []
      else if x.st = .running ∨ x.st = .preempted then
        .wait (onThr t (fun x => { x with disableAtEnd := true }) s) t.val []
      else .done (stopThread t .disabled s) [] }

/-- Executes THREAD_ENABLE. -/
def execThreadEnable (rq : Request) (s : State) : Host.Outcome State Fault Refusal := runCommand opThreadEnable rq s

/-- THREAD_SIGNAL: COUNT occurrences of source 10 for this thread. -/
def opThreadSignal : Op :=
  { opcode := 0x0E03, target := plugThread, toe := true, states := afterStart, schema := [fixed 0x0100 2]
    values := fun rq s => firstDeny
      [(num rq 0x0100 0 2 == 0 || (s.lanes.thr[tgt 512 rq]).lists 10 0 0 == 0, badValue rq 0x0100)]
    effect := fun rq s =>
      let t := tgt 512 rq
      .done (deliver t (num rq 0x0100 0 2 * (s.lanes.thr[t]).lists 10 0 0) s) [] }

/-- Executes THREAD_SIGNAL. -/
def execThreadSignal (rq : Request) (s : State) : Host.Outcome State Fault Refusal := runCommand opThreadSignal rq s

/-- A timer as it is set: the first instant of kind 1 is 2 µs on, that of kind 2 the next one of its grid on TBASE0. -/
def timerSet (kind period phase : Nat) (s : State) (t : Timer) : Timer :=
  let p := max period 1
  { t with
    kind := kind, running := kind != 0, period := period, phase := if kind = 2 then phase else 0
    nextAt := if kind = 2 then s.tb0 + period - (s.tb0 + period - phase % p) % p else s.sysTick + 1000 }

/-- THREAD_TIMER_CONFIG (R446). -/
def opThreadTimerConfig : Op :=
  { opcode := 0x0E04, target := below 16, toe := false, states := laneStates, schema := [fixed 0x0100 20]
    values := fun rq _ =>
      let k := num rq 0x0100 0 1
      let p := num rq 0x0100 4 8
      firstDeny
        [(decide (2 < k) || num rq 0x0100 1 3 != 0 || (k == 1 && (decide (p < 5000) || decide (4294967295 < p))) ||
          (k == 2 && (decide (p < 10000) || 1000000000 % max p 1 != 0)), badValue rq 0x0100)]
    effect := fun rq s =>
      let k := num rq 0x0100 0 1
      let p := num rq 0x0100 4 8
      let ph := num rq 0x0100 12 8
      .done (s.onLanes fun n => { n with tmr := upd n.tmr (tgt 16 rq) fun x => timerSet k p ph s x }) [] }

/-- Executes THREAD_TIMER_CONFIG. -/
def execThreadTimerConfig (rq : Request) (s : State) : Host.Outcome State Fault Refusal := runCommand opThreadTimerConfig rq s

/-- PLUGIN_PORT_CONFIG: a slot's STALL_LIMIT; in Operational for a Disabled slot. -/
def opPluginPortConfig : Op :=
  { opcode := 0x0E05, target := below 64, toe := false, states := [.commissioning, .operational], schema := [fixed 0x0100 1]
    values := fun rq _ => firstDeny [(num rq 0x0100 0 1 == 0, badValue rq 0x0100)]
    effect := fun rq s =>
      let i := tgt 64 rq
      if s.sys.dev ≠ .commissioning ∧ s.axis[i].st ≠ .disabled then .deny conflict
      else .done (s.onLanes fun n => { n with spt := upd n.spt i fun p => { p with stallLimit := num rq 0x0100 0 1 } }) [] }

/-- Executes PLUGIN_PORT_CONFIG. -/
def execPluginPortConfig (rq : Request) (s : State) : Host.Outcome State Fault Refusal := runCommand opPluginPortConfig rq s

/-! Status words. -/

/-- THR_STATUS. -/
def thrStatus (t : Fin 512) (s : State) : Word :=
  let x := s.lanes.thr[t]
  pack [(0, 3, x.st.code), (3, 5, x.level), (8, 1, bit x.preemptive), (9, 1, bit (decide (256 ≤ t.val))), (10, 3, x.lane),
    (13, 1, bit x.fFault), (14, 3, x.cause), (17, 1, bit x.fOverrun)]

/-- THR_COUNT. -/
def thrCount (t : Fin 512) (s : State) : Word := pack [(0, 16, (s.lanes.thr[t]).cnt), (16, 16, (s.lanes.thr[t]).early)]

/-- THR_LAT. -/
def thrLat (t : Fin 512) (s : State) : Word :=
  pack [(0, 16, (s.lanes.thr[t]).latLast.toNat), (16, 16, (s.lanes.thr[t]).latMax.toNat)]

/-- LANE_STATUS.HOLDOFF: the next boundary takes no interrupt (R458). -/
def heldOff (r : LaneRegs) : Bool := r.rep.isSome || r.delay.isSome || r.load.isSome

/-- LANE_STATUS. -/
def laneStatus (l : Fin 8) (s : State) : Word :=
  let x := s.lanes.lane[l]
  let r := x.regs
  let on := x.thread.isSome
  pack [(0, 1, bit x.entry.isSome), (1, 1, bit on), (2, 1, bit (on && heldOff r)), (3, 9, x.lastThread), (12, 4, x.entry.getD 0),
    (16, 7, if on then bit r.sat + 2 * (flagsGo r) + 32 * bit r.sx + 64 * bit r.qs else 0)]
where
  /-- GO0 to GO3. -/
  flagsGo (r : LaneRegs) : Nat := ((List.finRange 4).map fun (k : Fin 4) => bit r.go[k] * 2 ^ k.val).sum

/-- LANE_PC. -/
def lanePc (l : Fin 8) (s : State) : Word := BitVec.ofNat 32 (s.lanes.lane[l].regs.pc).toNat

/-- THREAD_STATUS_READ: the four thread registers and the token tally; the largest latency restarts with the read. What Gardener's
own threads do is internal (R435): of T0 to T255 the answer is a free value, with its tally's identity kept by none (log entry
30). -/
def opThreadStatusRead : Op :=
  { opcode := 0x0E06, target := below 512, toe := false, states := afterStart, schema := []
    effect := fun rq s =>
      let t := tgt 512 rq
      let x := s.lanes.thr[t]
      if t.val < 256 then
        let r := fresh s
        .done r.2 [(0x0100, (List.range 16).map (Config.freeByte r.1)), (0x0101, (List.range 24).map fun i => Config.freeByte r.1 (16 + i))]
      else
        .done (onThr t (fun x => { x with latMax := 0 }) s)
          [(0x0100, be 4 (thrStatus t s).toNat ++ be 4 (thrCount t s).toNat ++ be 4 x.runs.toNat ++ be 4 (thrLat t s).toNat),
           (0x0101, be 8 x.tokIn.toNat ++ be 8 x.tokUsed.toNat ++ be 8 x.tokDropped.toNat)] }

/-- Executes THREAD_STATUS_READ. -/
def execThreadStatusRead (rq : Request) (s : State) : Host.Outcome State Fault Refusal := runCommand opThreadStatusRead rq s

/-- LANE_STATUS_READ. -/
def opLaneStatusRead : Op :=
  { opcode := 0x0E07, target := below 8, toe := false, states := afterStart, schema := []
    effect := fun rq s =>
      .done s [(0x0100, be 4 (laneStatus (tgt 8 rq) s).toNat ++ be 4 (lanePc (tgt 8 rq) s).toNat)] }

/-- Executes LANE_STATUS_READ. -/
def execLaneStatusRead (rq : Request) (s : State) : Host.Outcome State Fault Refusal := runCommand opLaneStatusRead rq s

/-- LANE_KEY_ENROL: the integrator plug-in key is fused once. -/
def opLaneKeyEnrol : Op :=
  { opcode := 0x0E08, target := device, toe := false, states := [.commissioning], hostOnly := true, schema := [fixed 0x0100 64]
    effect := fun rq s =>
      if s.boot.integratorHash.isSome then .deny conflict
      else .done (s.onBoot fun b => { b with integratorHash := some (sha256 (value rq 0x0100)), integratorPub := some (value rq 0x0100) }) [] }

/-- Executes LANE_KEY_ENROL. -/
def execLaneKeyEnrol (rq : Request) (s : State) : Host.Outcome State Fault Refusal := runCommand opLaneKeyEnrol rq s

end Sys2Proof.Machine
end

