-- ==== Sys2Proof/Machine/LodgeCore.lean ====
section
/-! DEFINITION.
Lodge: what its two channels decide from inputs, faults and parameters (R342 to R362, 15). The channels are one decision
(log entry 29). Times are Lodge time in ns. -/

namespace Sys2Proof.Machine

/-- Code of a Lodge state (Table 15.2). -/
def LodgeState.code : LodgeState → Nat
  | .start => 0
  | .config => 1
  | .run => 2
  | .switching => 3
  | .safeFault => 4
  | .absent => 0xF

/-- Lodge has its supply (R45, R345). -/
def lodgePowered (s : State) : Bool := s.lodge.st != .absent

/-- Change a pair. -/
def onPair (k : Fin 8) (f : LodgePair → LodgePair) (s : State) : State := s.onLodge fun b => { b with pair := upd b.pair k f }

/-- Change a safe output. -/
def onSafeOut (n : Fin 4) (f : LodgeOut → LodgeOut) (s : State) : State := s.onLodge fun b => { b with out := upd b.out n f }

/-! Pairs (R347 to R352). -/

/-- A pair's parameters; without a set it is unused. -/
def LodgeBlk.cfg (k : Fin 8) (b : LodgeBlk) : LodgePairCfg := (b.params.map fun p => p.pair[k]).getD {}

/-- The two inputs' accepted demand levels (R347): the opposite of the released level of the coding. -/
def demandLevels (c : LodgePairCfg) (x : LodgePair) : Bool × Bool := (!x.siA, if c.anti then x.siB else !x.siB)

/-- Either input shows its demand level. -/
def rawDemand (c : LodgePairCfg) (x : LodgePair) : Bool := (demandLevels c x).1 || (demandLevels c x).2

/-- The kinds whose inputs must agree within DISCREPANCY (R349). -/
def agreeing (c : LodgePairCfg) : Bool := [1, 2, 3, 5].contains c.kind

/-- The pair has manual restart (R352). -/
def restartsByHand (c : LodgePairCfg) : Bool := c.manual && [1, 2, 4].contains c.kind

/-- A pair of kind 3 or 5 is actuated: released in the coding of R347, and without a fault (R351, R352). -/
def actuated (c : LodgePairCfg) (x : LodgePair) : Bool := !rawDemand c x && x.fault == 0

/-- A pair from its inputs: disagreement, the clearing sequence of R349, the need of a reset (R352). -/
def LodgePair.judge (now : Nat) (c : LodgePairCfg) (x : LodgePair) : LodgePair :=
  let d := demandLevels c x
  let both := d.1 && d.2
  let clear := if c.kind = 3 then both else x.sawDemand && !d.1 && !d.2
  { x with
    differ := if agreeing c && d.1 != d.2 then some (x.differ.getD now) else none
    sawDemand := x.fault != 0 && (x.sawDemand || both)
    faultPresent := x.faultPresent && !clear
    awaitReset := restartsByHand c && (x.awaitReset || rawDemand c x || x.fault != 0)
    handAt := if c.kind = 3 ∧ actuated c x then some (x.handAt.getD now) else none }

/-- The two-hand function on pairs p and q (R351): its even pair afterwards, and whether an attempt came outside 500 ms. -/
def twoHand (c d : LodgePairCfg) (x y : LodgePair) : LodgePair × Bool :=
  if c.kind ≠ 3 then ({ x with armed := false, permitted := false }, false)
  else
    match x.handAt, y.handAt with
    | none, none => ({ x with armed := true, permitted := false }, false)
    | some t, some u =>
      if !x.armed then (x, false)
      else if t ≤ u + 500000000 ∧ u ≤ t + 500000000 then ({ x with armed := false, permitted := true }, false)
      else ({ x with armed := false, permitted := false }, true)
    | _, _ => ({ x with permitted := false, armed := x.armed && x.fault == 0 && y.fault == 0 && d.kind == 3 }, false)

/-- A reset pair notes when it becomes actuated. -/
def LodgePair.press (now : Nat) (c : LodgePairCfg) (x : LodgePair) : LodgePair :=
  { x with pressed := if c.kind = 5 ∧ actuated c x then some (x.pressed.getD now) else none }

/-- The press that ends now lasted 50 ms to 3 s (R352). -/
def resetGiven (now : Nat) (c : LodgePairCfg) (x : LodgePair) : Bool :=
  c.kind == 5 && x.fault == 0 && !actuated c x &&
  (match x.pressed with
   | some t => decide (t + 50000000 ≤ now) && decide (now ≤ t + 3000000000)
   | none => false)

/-- A pair is in demand (R347, R349, R351, R352); `hand` says that its two-hand function has permission. -/
def LodgePair.inDemand (c : LodgePairCfg) (hand : Bool) (x : LodgePair) : Bool :=
  c.kind == 0 || x.fault != 0 || rawDemand c x || (restartsByHand c && x.awaitReset) || (c.kind == 3 && !hand)

/-- The even pair of a two-hand function. -/
def evenPair (k : Fin 8) : Fin 8 := ⟨k.val / 2 * 2, by omega⟩

/-- The odd pair. -/
def oddPair (k : Fin 8) : Fin 8 := ⟨k.val / 2 * 2 + 1, by omega⟩

/-- Every pair judged anew; and the two-hand functions whose attempt came outside 500 ms. -/
def LodgeBlk.judged (b : LodgeBlk) : LodgeBlk × List (Fin 8) :=
  let now := b.time
  let p1 := updAll b.pair fun k x => x.judge now (b.cfg k)
  let pressed := fun (r : Nat) => (List.finRange 8).any fun (k : Fin 8) => k.val == r && resetGiven now (b.cfg k) p1[k]
  let p2 := updAll p1 fun k x =>
    let c := b.cfg k
    if restartsByHand c && pressed c.resetPair && !rawDemand c x && x.fault == 0 then { x with awaitReset := false } else x
  let p3 := updAll p2 fun k x => x.press now (b.cfg k)
  let hand := fun (k : Fin 8) => twoHand (b.cfg (evenPair k)) (b.cfg (oddPair k)) p3[evenPair k] p3[oddPair k]
  let p4 := updAll p3 fun k x => if k = evenPair k then (hand k).1 else x
  let p5 := updAll p4 fun k x => { x with demand := b.st != .run || x.inDemand (b.cfg k) p4[evenPair k].permitted }
  ({ b with pair := p5 }, (List.finRange 8).filter fun k => k == evenPair k && (hand k).2)

/-! Faults (R362). -/

/-- Post a fault: the mailbox, LODGE_FAULT, and Keeper's copy in the fault record while Keeper runs. The number of a class in
LAST_FAULT is nowhere stated, nor the third byte of a fault of no pair or output: free values (log entry 6). -/
def postFault (cls code : Nat) (index : Option Nat) (present : Bool) (s : State) : State :=
  let c := Config.openDetail 0x0904 cls % 256
  let i := index.getD (Config.openDetail 0x0904 3 % 256)
  let s1 := s.onLodge fun b => { b with lastFault := [c, code, i, b.time / 1000000 % 2 ^ 32] }
  if s.sys.dev = .reset then s1
  else
    let ix := index.getD 0xFFFF
    let s2 := setCause (0x0300 + code) ix present (recordFault (0x0300 + code) 3 ix 0 present s1)
    event 0x0901 ix (be 1 c ++ be 1 code ++ be 1 i) s2

/-- The pairs judged anew: SYNC_MISSED for each late two-hand attempt, and the causes that have gone. -/
def judgePairs (s : State) : State :=
  let r := s.lodge.judged
  let gone := (List.finRange 8).filter fun (k : Fin 8) => s.lodge.pair[k].faultPresent && !r.1.pair[k].faultPresent
  let s1 := s.onLodge fun _ => r.1
  let s2 := gone.foldl (fun s (k : Fin 8) => setCause (0x0300 + s.lodge.pair[k].fault) k.val false s) s1
  r.2.foldl (fun s (k : Fin 8) => event 0x0902 k.val [] s) s2

/-- A pair fault: 1 DISCREPANCY, 2 TEST_PULSE, 3 CROSS_SHORT. One in force keeps its code; its clearing sequence starts anew. -/
def pairFault (k : Fin 8) (code : Nat) (s : State) : State :=
  let first := s.lodge.pair[k].fault == 0
  let s1 := onPair k (fun x => { x with
    fault := if first then code else x.fault, faultPresent := true, sawDemand := false, pressed := none }) s
  judgePairs (if first then postFault 0 code (some k.val) true s1 else s1)

/-! STO (R355, R356). -/

/-- Assert STO: at once on every leg, axis and outbound frame (R272, R303, R136). -/
def assertSto (s : State) : State :=
  if s.lodge.sto then s else stoAssert (s.onLodge fun b => { b with sto := true })

/-- A pair of the STO mask is in demand, as the last snapshot took it. -/
def stoPairs (b : LodgeBlk) : Bool :=
  match b.params with
  | some p => p.stoMask &&& b.snapDemand != 0
  | none => false

/-- STO has stop kind SS1. -/
def stoBySs1 (b : LodgeBlk) : Bool := (b.params.map (·.stoSs1)).getD false

/-- The causes of STO present, as LODGE_STATUS.STO_CAUSE numbers them; an SS1 demand counts as one once its delay has ended. -/
def stoCauses (b : LodgeBlk) : List Nat :=
  [(1, b.st != .run), (2, stoPairs b && (!stoBySs1 b || b.ss1Done)), (3, b.stoinDemand || b.stoinFault), (4, b.refFault),
   (5, b.hbFault), (6, b.overtemp)].filterMap fun e => if e.2 then some e.1 else none

/-- The STO decision of a command instant: an SS1 demand posts SS1_REQUEST and starts its delay, or, STO being asserted
already, is held at once; STO is asserted while a cause is present and released after the last has gone. -/
def decideSto (s : State) : State :=
  let s1 := s.onLodge fun b =>
    if b.st = .run ∧ stoBySs1 b then
      if !stoPairs b then { b with ss1Done := b.ss1Done && b.ss1End.isSome }
      else if b.ss1End.isSome || b.ss1Done then b
      else if b.sto then { b with ss1Done := true }
      else { b with ss1Request := true, ss1End := some (b.time + ((b.params.map (·.stoDelayMs)).getD 0) * 1000000) }
    else b
  let s2 := if s1.lodge.ss1Request && !s.lodge.ss1Request then event 0x0903 0xFFFF [] s1 else s1
  if stoCauses s2.lodge ≠ [] then assertSto s2 else s2.onLodge fun b => { b with sto := false }

/-! Safe outputs (R353). -/

/-- The condition of an output (R353). -/
def outWanted (b : LodgeBlk) (n : Fin 4) : Bool :=
  match b.params with
  | some p =>
    b.st == .run && p.out[n].mask != 0 && p.out[n].mask &&& b.snapDemand == 0 && b.out[n].fault == 0 && decide (b.temp < 150)
  | none => false

/-- An output switched off, keeping what a stuck switch reads. -/
def LodgeOut.open (now : Nat) (x : LodgeOut) : LodgeOut :=
  { x with on := false, delay := none, offAt := if x.on then now else x.offAt, p := x.fault == 1 && x.faultPresent,
           m := x.fault == 2 && x.faultPresent }

/-- An output at a command instant. -/
def LodgeBlk.decideOut (b : LodgeBlk) (n : Fin 4) : LodgeOut :=
  let x := b.out[n]
  let c := (b.params.map fun p => p.out[n]).getD {}
  if outWanted b n then
    if x.delay.isSome || x.on then x
    else { x with on := true, p := true, m := true, offAt := b.time, onAt := b.time, testAt := b.time }
  else if !x.on then x.open b.time
  else if c.delayed then { x with delay := some (x.delay.getD (b.time + c.delayMs * 1000000)) }
  else x.open b.time

/-- Every output at a command instant. -/
def decideOuts (s : State) : State :=
  s.onLodge fun b => { b with out := Vector.ofFn fun n => b.decideOut n }

/-! Mirror registers. -/

/-- The CRC of the confirmed set; 0 in Config (LODGE_CRC). -/
def setCrc (bytes : List Byte) : Word := crc32 (bytes.take 0xC0)

/-- A Lodge fault is in force. -/
def lodgeFaulty (b : LodgeBlk) : Bool :=
  b.pair.toList.any (·.fault != 0) || b.out.toList.any (·.fault != 0) || b.stoinFault || b.internalFault != 0

/-- Bits of eight or four entries. -/
def bitsOf {n : Nat} (f : Fin n → Bool) : Nat := ((List.finRange n).map fun k => bit (f k) * 2 ^ k.val).sum

/-- The four mirror registers. -/
def LodgeBlk.mirrors (b : LodgeBlk) : List Word :=
  let cause := if b.sto then (stoCauses b).head?.getD (if b.ss1End.isSome then 7 else 0) else if b.ss1End.isSome then 7 else 0
  [pack [(0, 4, b.st.code), (4, 1, bit b.sto), (5, 3, cause), (8, 1, bit b.ss1End.isSome), (9, 1, bit b.staged.isSome),
     (10, 1, bit b.stoinA), (11, 1, bit b.stoinB), (12, 1, bit (lodgeFaulty b)), (16, 16, unsigned 16 b.temp)],
   pack [(0, 8, bitsOf fun (k : Fin 8) => b.pair[k].demand), (8, 8, bitsOf fun (k : Fin 8) => b.pair[k].fault != 0),
     (16, 8, bitsOf fun (k : Fin 8) => b.st == .run && restartsByHand (b.cfg k) && b.pair[k].awaitReset && !rawDemand (b.cfg k) b.pair[k] &&
        b.pair[k].fault == 0)],
   pack [(0, 4, bitsOf fun (n : Fin 4) => b.out[n].on), (4, 4, bitsOf fun (n : Fin 4) => b.out[n].fault != 0), (8, 4, bitsOf fun (n : Fin 4) => b.out[n].p),
     (12, 4, bitsOf fun (n : Fin 4) => b.out[n].m), (16, 4, bitsOf fun (n : Fin 4) => b.out[n].delay.isSome)],
   match b.params with
   | some p => if b.st = .config then 0 else setCrc p.bytes
   | none => 0]

/-- The mirrors are refreshed. -/
def refreshMirrors (s : State) : State := s.onLodge fun b => { b with mirror := b.mirrors }

/-! States (R345). -/

/-- Any Lodge state change wakes the device (R34). -/
def wakes (s : State) : State :=
  if s.power.power = .nap ∨ s.power.power = .rest then s.onPower fun p => { p with waking := true } else s

/-- A Lodge state other than Run: every safe output open, STO held, pairs in demand; LODGE_NOT_RUN while Operational. -/
def leaveRun (st : LodgeState) (s : State) : State :=
  let was := s.lodge.st
  let s1 := s.onLodge fun b => { b with
    st := st, sto := true, ss1End := none, ss1Done := false, ss1Request := false, out := updAll b.out fun _ x => x.open b.time
    pair := updAll b.pair fun _ x => { x with demand := true } }
  let s2 := if s.lodge.sto then s1 else stoAssert s1
  let s3 := if was = .run ∧ (s.sys.dev = .operational ∨ s.sys.dev = .test) then deviceFault 0x0014 0xFFFF 0 true s2 else s2
  refreshMirrors (wakes s3)

/-- Run is entered with a set: every manual-restart pair in demand, every function from its inputs as read (R361); faults stay, as
only their own sequence and LODGE_FAULT_CLEAR end them (R362). -/
def enterRun (p : LodgeParams) (s : State) : State :=
  let s1 := s.onLodge fun b => { b with
    st := .run, params := some p, switching := none, snapDemand := 0xFF
    pair := updAll b.pair fun k x =>
      { siA := x.siA, siB := x.siB, awaitReset := p.pair[k].manual, fault := x.fault, faultPresent := x.faultPresent, sawDemand := x.sawDemand }
    out := updAll b.out fun _ x => { (x.open b.time) with offAt := b.time }
    stoinDemand := p.stoin && !(b.stoinA && b.stoinB), stoinFault := b.stoinFault && p.stoin, stoinLow := b.stoinLow && p.stoin
    stoinDiffer := if b.stoinA != b.stoinB then some b.time else none }
  refreshMirrors (wakes (judgePairs (setCause 0x0014 0xFFFF false s1)))

/-- An internal fault: Safe-Fault until VSAF has fallen and returned (Table 15.8). -/
def internalFault (code : Nat) (s : State) : State :=
  leaveRun .safeFault (postFault 2 code none true (s.onLodge fun b => { b with internalFault := code }))

end Sys2Proof.Machine
end

