-- ==== Sys2Proof/Machine/AcqCore.lean ====
section
/-! DEFINITION.
Belvedere's records: how a sample becomes a record, how records reach a segment, how a capture ends and begins (R418 to R432, 19). -/

namespace Sys2Proof.Machine

/-- Records of a segment (R422). -/
def AcqBlk.size (b : AcqBlk) : Nat := 1048576 / max b.segments 1

/-- Places for post-trigger records: the ring of PRE and the kept last place left out (R422, R424). -/
def AcqBlk.room (b : AcqBlk) : Nat := b.size - b.pre - 1

/-- A capture is armed, triggered or counting. -/
def AcqBlk.active (b : AcqBlk) : Bool := b.st == 1 || b.st == 2 || b.st == 3

/-- The ACQ domain runs (R33). -/
def acqRuns (s : State) : Bool := domainsRun s

/-- Tag of this instant: ns since arming, on TB ticks (R418). -/
def acqTag (s : State) : Nat := 2 * (s.sysTick - s.acq.armTick)

/-- A record's word (Table 19.2). -/
def acqWord (kind ch off low : Nat) : BitVec 64 :=
  BitVec.ofNat 64 (kind % 4 * 2 ^ 62 + ch % 64 * 2 ^ 56 + off % 2 ^ 24 * 2 ^ 32 + low % 2 ^ 32)

/-- A time record's word. -/
def timeWord (tag : Nat) : BitVec 64 := BitVec.ofNat 64 (tag % 2 ^ 62)

/-- Hand a record to the FIFO. A full segment begins counting mode (R424); a full FIFO is an overflow (R425). -/
def AcqBlk.put (r : AcqRec) (b : AcqBlk) : Bool × AcqBlk :=
  if b.overflowed || b.truncated then (false, b)
  else if 512 ≤ b.fifo.length then (false, { b with overflowed := true, fOverflow := true, st := if b.st = 2 then 3 else b.st })
  else if !r.pre && decide (b.room ≤ b.stored) then (false, { b with truncated := true, fTruncated := true, st := 3 })
  else (true, { b with fifo := b.fifo ++ [r], stored := if r.pre then b.stored else b.stored + 1 })

/-- A record's OFFSET would exceed its 24 bits (R419). -/
def AcqBlk.needsTime (tag : Nat) (b : AcqBlk) : Bool := decide (2 ^ 24 ≤ tag - b.base)

/-- Write a record, with its time record where one is needed, which the trigger sample always has (R419); is it stored? -/
def AcqBlk.write (kind ch low tag : Nat) (sample : Bool) (b : AcqBlk) : Bool × AcqBlk :=
  let pre := b.st == 1
  if b.needsTime tag || (sample && b.timeDue) then
    let t := b.put { word := timeWord tag, tag := tag, pre := pre }
    if t.1 then ({ t.2 with base := tag, timeDue := t.2.timeDue && !sample }).put { word := acqWord kind ch 0 low, sample := sample, tag := tag, pre := pre }
    else t
  else b.put { word := acqWord kind ch (tag - b.base) low, sample := sample, tag := tag, pre := pre }

/-- The record of a sample: booked as unstored where it is not stored; counted towards POST once triggered (R422, R424, R432). -/
def AcqBlk.writeSample (kind ch low tag : Nat) (b : AcqBlk) : AcqBlk :=
  let r := b.write kind ch low tag true
  let c := r.2
  { c with
    unstored := if r.1 then c.unstored else bump c.unstored 1, unstoredCap := if r.1 then c.unstoredCap else c.unstoredCap + 1
    produced := if b.st = 1 then c.produced else c.produced + 1 }

/-- The store takes one record from the FIFO: before the trigger into the ring, whose oldest record gives way (R422, R425). -/
def AcqBlk.drainOne (b : AcqBlk) : AcqBlk :=
  match b.fifo with
  | [] => b
  | r :: l =>
    if r.pre then
      let ring := b.ring ++ [r]
      if ring.length ≤ b.pre then { b with fifo := l, ring := ring }
      else { b with fifo := l, ring := ring.drop 1, overwritten := bump b.overwritten (bit ((ring.head?.map (·.sample)).getD false)) }
    else { b with fifo := l, post := b.post ++ [r] }

/-- The FIFO drains. -/
def AcqBlk.drain : Nat → AcqBlk → AcqBlk
  | 0, b => b
  | n + 1, b => AcqBlk.drain n b.drainOne

/-! The end of a capture (R422 to R425, Table 19.9). -/

/-- Closing marks: OVERFLOW or TRUNCATED with the unstored count, and STOPPED. Their offsets follow the base in force; where that
needs a time record for which no place is left, the offset is a free value (log entry 23). -/
def closing (code : Nat) (tag used open24 : Nat) (b : AcqBlk) : List (BitVec 64) :=
  let n := min b.unstoredCap 0xFFFFFFFF
  let marks : List (Nat × Nat) :=
    (if b.overflowed then [(1, n)] else if b.truncated then [(2, n)] else []) ++ (if code = 2 then [(5, 0)] else [])
  if marks = [] then []
  else if !b.needsTime tag then (marks.map fun m => acqWord 3 m.1 (tag - b.base) m.2).take (b.size - used)
  else if used + 1 + marks.length ≤ b.size then timeWord tag :: marks.map fun m => acqWord 3 m.1 0 m.2
  else (marks.map fun m => acqWord 3 m.1 open24 m.2).take (b.size - used)

/-- The capture header (Table 19.9). -/
def acqHeader (code count firstTag dev : Nat) (b : AcqBlk) : List Byte :=
  let hit := b.st != 1
  be 2 b.seq ++ be 1 code ++ be 1 (bit b.overflowed + 2 * bit b.truncated + 4 * bit b.maskCap + 8 * bit b.satCap) ++
  be 2 (if hit then b.bitmask.toNat else 0) ++ be 1 (if hit then b.primary else 0) ++ be 1 dev ++ be 8 b.armTb ++ be 8 b.trigTb ++
  be 8 b.trigTag ++ be 8 firstTag ++ be 4 count ++ be 4 b.deadCap ++ be 8 b.unstoredCap ++ be 4 b.missedCap ++ be 4 0

/-- What follows a capture: Done, re-arming, or a hold-off (R428, R429, R431, R434). -/
def afterCapture (code : Nat) (s : State) : Nat :=
  if !s.acq.repeatMode ∨ code = 1 ∨ code = 2 then 6
  else if s.sys.dev = .startup ∨ s.sys.dev = .test ∨ s.sys.dev = .recovery then 5
  else 4

/-- The segment a capture takes: the first free one from `start` on, with wrap-around, or with OVERWRITE the oldest complete one. -/
def freeSegment (start : Nat) (b : AcqBlk) : Option (Fin 64) :=
  let order := (List.range b.segments).map fun k => (Fin.ofNat 64 ((start + k) % max b.segments 1) : Fin 64)
  match order.find? fun (g : Fin 64) => b.seg[g].use == 0 with
  | some g => some g
  | none =>
    if !b.overwrite then none
    else
      (order.filter fun (g : Fin 64) => b.seg[g].use == 2).foldl (fun best g =>
        match best with
        | none => some g
        | some h => if (b.seq + 65536 - b.seg[h].seq) % 65536 < (b.seq + 65536 - b.seg[g].seq) % 65536 then some g else some h) none

/-- A re-arming engine with a segment available is armed 2 µs later (R429). -/
def awaitSegment (s : State) : State :=
  if s.acq.st = 4 ∧ s.acq.rearmAt = none ∧ (freeSegment (s.acq.segment + 1) s.acq).isSome then
    s.onAcq fun b => { b with rearmAt := some (s.sysTick + 1000) }
  else s

/-- The capture ends, and the power state is evaluated again (R33): code 0 POST met, 1 mask STOP, 2 ACQ_STOP, 3 channels lost. -/
def endCapture (code : Nat) (s : State) : State :=
  let b := s.acq.drain s.acq.fifo.length
  let all := b.ring ++ b.post
  let marks := closing code (acqTag s) all.length (Config.freeNat s.sys.free) b
  let g : Fin 64 := Fin.ofNat 64 b.segment
  let first := (all.head?.map (·.tag)).getD 0
  let head := acqHeader code (all.length + marks.length) first s.sys.dev.code b
  let s1 := (s.onAcq fun _ => { b with
    st := afterCapture code s, ring := [], post := [], endTick := some s.sysTick, holdLeft := b.holdoff, fDone := true
    seg := upd b.seg g fun x => { x with
      use := 2, records := all.map (·.word) ++ marks, header := head, kept := (all.filter fun e => e.sample).length } })
  reselect (awaitSegment (occurs 7 0 0 (event 0x0D01 g.val [] (s1.onSys fun y => { y with free := y.free + 1 }))))

/-- POST records have been produced. -/
def endIfMet (s : State) : State :=
  if (s.acq.st = 2 ∨ s.acq.st = 3) ∧ s.acq.post32 ≤ s.acq.produced then endCapture 0 s else s

/-! Channels that vanish (R421). -/

/-- A loop of a slot exists. -/
def slotHasLoop (i : Fin 64) (k : Nat) (s : State) : Bool :=
  let a := s.axis[i]
  a.st != .unbound && (match a.mode with
    | some m => (slotLoops a.bind m s).any fun j => j.val == k
    | none => false)

/-- The variable of a channel exists, and the loop that clocks it (R416, R421). -/
def chanExists (c : AcqChan) (s : State) : Bool :=
  (decide (8 < c.code) || s.axis[Fin.ofNat 64 c.index].st != .unbound) && (c.clkPeriod || slotHasLoop (Fin.ofNat 64 c.slot) c.loop s)

/-- A channel is on and has not been lost. -/
def AcqChan.sampling (c : AcqChan) : Bool := c.code != 0 && !c.lost

/-- A channel samples a slot: its variable is the slot's, or one of its loops is the clock. -/
def AcqChan.ofSlot (c : AcqChan) (i : Fin 64) : Bool := (decide (c.code ≤ 8) && c.index == i.val) || (!c.clkPeriod && c.slot == i.val)

/-- An unbound slot that every enabled channel samples (R422). -/
def slotLost (s : State) : Bool :=
  s.acq.pinEn == 0 && (List.finRange 64).any fun (i : Fin 64) =>
    s.axis[i].st == .unbound && (List.finRange 64).all fun (c : Fin 64) => s.acq.chan[c].code == 0 || s.acq.chan[c].ofSlot i

/-- Channels whose variable has vanished write their mark; the unbinding of a slot that every one of them samples ends the capture
(R421, R422). -/
def acqPrune (s : State) : State :=
  let gone := (List.finRange 64).filter fun (c : Fin 64) => s.acq.chan[c].sampling && !chanExists s.acq.chan[c] s
  if !s.acq.active ∨ gone = [] then s
  else
    let tag := acqTag s
    let s1 := s.onAcq fun b => gone.foldl (fun b c =>
      let w := (b.write 3 4 c.val tag false).2
      { w with chan := upd w.chan c fun x => { x with lost := true } }) b
    if slotLost s1 then endCapture 3 s1 else s1

/-! Arming (R427, R429, R430). -/

/-- Arm on a segment; its former records are booked as overwritten; the dead time is measured. -/
def arm (g : Fin 64) (s : State) : State :=
  let b := s.acq
  let n := (b.seq + 1) % 65536
  let dead := match b.endTick with
    | some t => some (min 0xFFFFFFFF (2 * (s.sysTick - t)))
    | none => none
  s.onAcq fun b => { b with
    st := 1, segment := g.val, seq := n, overwritten := bump b.overwritten b.seg[g].kept
    seg := upd b.seg g fun _ => { use := 1, seq := n }
    armTick := s.sysTick, armTb := s.stamp, trigTag := 0, trigTb := 0, base := 0, timeDue := false, rearmAt := none, ring := [], post := [], fifo := []
    produced := 0, stored := 0, unstoredCap := 0, overflowed := false, truncated := false, satCap := false, maskCap := false, missedCap := 0
    deadCap := dead.getD 0, deadLast := dead.getD b.deadLast
    deadMin := min b.deadMin (dead.getD b.deadMin), deadMax := max b.deadMax (dead.getD b.deadMax)
    chan := updAll b.chan fun _ c => { c with last := none, prev := none, firstDue := true, lost := false, sampledAt := none }
    pinFirst := true, pinKnown := false }

/-! Triggers (R426, R427, R431). -/

/-- Bits set. -/
def onesOf {w : Nat} (v : BitVec w) : Nat := ((List.range w).filter fun k => v.getLsbD k).length

/-- Lowest bit set. -/
def lowestOne {w : Nat} (v : BitVec w) : Nat := ((List.range w).find? fun k => v.getLsbD k).getD 0

/-- Occurrences that trigger nothing. -/
def missOccurrences (n : Nat) (s : State) : State :=
  awaitSegment (s.onAcq fun b => { b with
    missed := b.missed + BitVec.ofNat 32 n
    missedCap := if b.active then (b.missedCap + n) % 2 ^ 32 else b.missedCap
    st := if b.st = 5 ∧ b.holdKind = 2 ∧ b.holdLeft ≤ n then 4 else b.st
    holdLeft := if b.st = 5 ∧ b.holdKind = 2 then b.holdLeft - n else b.holdLeft })

/-- ACQ period, of 4 ns, of the instant `ago` ticks before now (R426). -/
def acqPeriod (ago : Nat) (s : State) : Nat := (s.sysTick - ago) / 2

/-- The trigger, `ago` ticks before now (R427). -/
def trigger (named : BitVec 9) (ago : Nat) (s : State) : State :=
  s.onAcq fun b => { b with
    bitmask := named, primary := lowestOne named, trigTag := acqTag s - 2 * ago, trigTb := s.stamp - 2 * ago, trigPeriod := acqPeriod ago s
    st := if b.overflowed then 3 else 2, timeDue := true
    produced := 0, stored := 0, pinFirst := true, chan := updAll b.chan fun _ c => { c with firstDue := true } }

/-- Occurrences `ago` ticks before now: the first trigger, those of the trigger's own ACQ period join its bitmask, all others are missed
(R422, R427). -/
def occurrences (units : BitVec 9) (ago : Nat) (s : State) : State :=
  let named := units &&& s.acq.mask.setWidth 9
  if named = 0 ∨ s.acq.st = 0 ∨ s.acq.st = 6 then s
  else if s.acq.st = 1 ∧ (!s.acq.prefill ∨ s.acq.pre ≤ s.acq.ring.length) then trigger named ago s
  else if s.acq.st ≠ 1 ∧ s.acq.active ∧ s.acq.trigPeriod = acqPeriod ago s then
    s.onAcq fun b => { b with bitmask := b.bitmask ||| named, primary := lowestOne (b.bitmask ||| named) }
  else missOccurrences (onesOf named) s

/-- The same; the trigger instant is the event instant of latch source 2 (R427, Table 10.7). -/
def occurNow (units : BitVec 9) (ago : Nat) (s : State) : State :=
  let t := occurrences units ago s
  if s.acq.st = 1 ∧ t.acq.st ≠ 1 then latchEvents 2 0 (s.tb0 - 2 * ago) t else t

/-! Level, edge and mask conditions (Table 19.4). -/

/-- A pin as a value its conditions judge against a threshold of 1. -/
def pinValue (up : Bool) : Int := if up then 2 else 0

/-- A level or mask condition holds of a value. -/
def condHolds (kind : Nat) (c : Config.TrigCond) (v : Int) : Bool :=
  if kind = 2 then BitVec.ofInt 32 v &&& c.mask == c.pattern
  else
    let t := if c.onPin then 1 else c.threshold
    if c.below then decide (v < t) else decide (t < v)

/-- A condition occurs: a level or mask first met after a sample that did not meet it, or a crossing of THRESHOLD. -/
def condOccurs (kind : Nat) (c : Config.TrigCond) (prev v : Int) : Bool :=
  if kind = 1 then
    let t := if c.onPin then 1 else c.threshold
    (c.edge != 1 && decide (prev < t) && decide (t ≤ v)) || (c.edge != 0 && decide (t ≤ prev) && decide (v < t))
  else condHolds kind c v && !condHolds kind c prev

/-- The units whose conditions a sample meets; `f` gives the value before and after to a condition it concerns. -/
def unitsHit (f : Nat → Config.TrigCond → Option (Int × Int)) (s : State) : BitVec 9 :=
  BitVec.ofNat 9 ((List.finRange 8).map fun (u : Fin 8) =>
    let t := s.acq.trig[u]
    let c := Config.triggerCond (t.cond.map (·.toNat))
    match f t.kind c with
    | some e => bit (decide (t.kind ≤ 2) && condOccurs t.kind c e.1 e.2) * 2 ^ u.val
    | none => 0).sum

/-! Pin samples (R417, R420). -/

/-- This tick is a sample instant of the pin group. -/
def pinInstant (s : State) : Bool := s.sysTick % (2 * max s.acq.pinDiv 1) == 0

/-- The conditions a sample of the pin group meets. -/
def pinHits (s : State) : BitVec 9 :=
  let b := s.acq
  unitsHit (fun kind c =>
    if !c.onPin || !b.pinKnown then none
    else if kind = 2 then some (b.pinSeen.toNat, b.pins.toNat)
    else some (pinValue (b.pinSeen.getLsbD c.source), pinValue (b.pins.getLsbD c.source))) s

/-- A sample of the pin group: first the triggers it meets, then a record where a stored pin changed or a first sample is due, else it is
suppressed. -/
def pinSample (s0 : State) : State :=
  let s := (occurNow (pinHits s0) 0 s0).onAcq fun b => { b with pinAt := some s0.sysTick, pinKnown := true }
  let b := s.acq
  let stored := b.pinEn &&& b.pinStore
  let changed := (b.pins ^^^ b.pinSeen) &&& stored
  if changed = 0 ∧ !b.pinFirst then s.onAcq fun b => { b with pinSeen := b.pins, samples := bump b.samples 1, suppressed := bump b.suppressed 1 }
  else
    let low := b.pins.toNat + (if b.pinFirst then 0 else 256 * changed.toNat)
    endIfMet (s.onAcq fun b => ({ b with
      samples := bump b.samples 1, pinSeen := b.pins, pinFirst := false }).writeSample 1 0 low (acqTag s))

/-- The pin group samples at this instant. -/
def pinsSampled (s : State) : Bool := acqRuns s && s.acq.active && s.acq.pinEn != 0 && pinInstant s && s.acq.pinAt != some s.sysTick

/-- What passes with a tick: a pin sample no command took, and one record every 8 ns from the FIFO to the store (R425). -/
def tickAcq (s : State) : State :=
  let s1 := if pinsSampled s then pinSample s else s
  if acqRuns s1 ∧ s1.sysTick % 4 = 0 then s1.onAcq AcqBlk.drainOne else s1

/-! Calibration (R417). -/

/-- The outcome, the delay lines that bring the paths together and the residual skew are the hardware's: free values. Each pin's DESKEW is
added to its setting. -/
def calibrate (s : State) : Nat × State :=
  let r := freshBool s
  let k := freshNat r.2
  let d := fun (p : Nat) => Config.freeInt (s.sys.free + p) + 250 * s.acq.deskew.getD p 0
  if r.1 then
    (k.1 % 201, (k.2.onAcq fun b => { b with calOk := true, delay := (List.range 8).map d }).onSys fun y => { y with free := y.free + 8 })
  else (201 + k.1 % 65335, event 0x0D03 0xFFFF [] (k.2.onAcq fun b => { b with calOk := false }))

end Sys2Proof.Machine
end

