-- ==== Sys2Proof/Machine/AxisSlots.lean ====
section
/-! DEFINITION.
The axis class and the slots' own events (R132 to R141, 06). -/

namespace Sys2Proof.Machine

/-- A target that is an axis slot and bound (R137). -/
def boundSlot (rq : Request) (s : State) : Bool := decide (rq.target.toNat < 64) && s.axis[tgt 64 rq].bind.location != 0

/-! AXIS_BIND (R121 to R124, R138). -/

/-- A port byte: 0xFF names none. -/
def portByte (n : Nat) : Option Nat := if n = 0xFF then none else some n

/-- The binding an AXIS_BIND names. -/
def bindingOf (rq : Request) : Binding :=
  let a := if has rq 0x0103 then portByte (num rq 0x0103 0 1) else none
  let b := if has rq 0x0103 then portByte (num rq 0x0103 1 1) else none
  match num rq 0x0100 0 1 with
  | 1 => { location := 1, legSet := num rq 0x0101 0 2, inputs := (value rq 0x0102).map (·.toNat), portA := a, portB := b }
  | 2 => { location := 2, brick := num rq 0x0104 0 2, channel := num rq 0x0105 0 1, portA := a, portB := b }
  | _ => {}

/-- Values of AXIS_BIND; a TLV of the other location is out of range (log entry 20). -/
def bindValues (rq : Request) (s : State) : Option Deny :=
  let loc := num rq 0x0100 0 1
  let allowed := match loc with
    | 0 => [0x0100]
    | 1 => [0x0100, 0x0101, 0x0102, 0x0103]
    | _ => [0x0100, 0x0103, 0x0104, 0x0105]
  let b := bindingOf rq
  let stray := (tlvs rq).find? fun t => !hasBit t.type 15 && t.type != 0x0010 && !allowed.contains t.type
  let br := s.bricks.brick[Fin.ofNat 64 b.brick]
  let badPort := fun (p : Option Nat) => decide (31 < p.getD 0)
  firstDeny
    [(decide (2 < loc), badValue rq 0x0100),
     (stray.isSome, denyAt .badParam ((stray.map (·.off)).getD 0) ((stray.map (·.type)).getD 0) 3),
     (loc == 1 && !has rq 0x0101, missing 0x0101), (loc == 1 && !has rq 0x0102, missing 0x0102),
     (loc == 1 && !has rq 0x0103, missing 0x0103), (loc == 2 && !has rq 0x0104, missing 0x0104),
     (loc == 2 && !has rq 0x0105, missing 0x0105),
     (loc == 1 && (legSetLegs b.legSet).isEmpty, badValue rq 0x0101),
     (b.inputs.any (fun n => decide (95 < n)) || b.inputs.eraseDups.length != b.inputs.length, badValue rq 0x0102),
     (badPort b.portA || badPort b.portB || (b.portA.isSome && b.portA == b.portB), badValue rq 0x0103),
     (loc == 2 && (decide (63 < b.brick) || !br.registered), badValue rq 0x0104),
     (loc == 2 && decide (br.channels ≤ b.channel), badValue rq 0x0105)]

/-- Is a slot a gear or cam master, a member of a planner group, or a target of an enabled map (R138)? -/
def unbindConflict (i : Fin 64) (s : State) : Bool :=
  (List.finRange 64).any (fun (j : Fin 64) => s.gear.link[j].mode != 0 && (s.gear.link[j].mKind == 1 || s.gear.link[j].mKind == 2) &&
    s.gear.link[j].mIndex == i.val) ||
  (memberOf i s).isSome ||
  (List.finRange 32).any fun (k : Fin 32) => s.net.map[k].enabled &&
    s.net.map[k].entries.any fun e => e.tgt == i.val && e.qty != 0x06 && e.qty != 0x87

/-- Resources another slot holds (R121, R123, R125). -/
def bindTaken (rq : Request) (i : Fin 64) (b : Binding) (s : State) : Option Deny :=
  let others := otherSlots i s
  let legs := others.flatMap fun j => legSetLegs s.axis[j].bind.legSet
  let ins := others.flatMap fun j => s.axis[j].bind.inputs
  let ports := others.flatMap fun j => slotPorts s.axis[j]
  let chan := others.any fun j => s.axis[j].bind.location == 2 && s.axis[j].bind.brick == b.brick && s.axis[j].bind.channel == b.channel
  firstDeny
    [(b.location == 1 && decide (32 ≤ (others.filter fun j => s.axis[j].bind.location == 1).length), taken rq 0x0100 0x0001),
     (b.location == 1 && (legSetLegs b.legSet).any (legs.contains ·), taken rq 0x0101 0x0002),
     (b.location == 1 && (slotGroups b).any (fun g => s.bta.grp[g].gang), conflictAt rq 0x0101),
     (b.inputs.any (ins.contains ·), taken rq 0x0102 0x0003),
     (b.portA.any (ports.contains ·) || b.portB.any (ports.contains ·), taken rq 0x0103 0x0004),
     (b.location == 2 && chan, taken rq 0x0105 (Config.openDetail 0x0500 3))]

/-- A slot as a binding leaves it: what belongs to the old binding is discarded (R134, R138, R169, R217, R280, R292). -/
def bindSlot (i : Fin 64) (b : Binding) (s : State) : State :=
  let keep := if b.location = 0 then none else s.axis[i].mode
  let m := s.stepper.slot[i].m
  let s1 := onAx i (fun _ => { bind := b, mode := keep, st := if b.location = 0 then .unbound else .disabled }) s
  let s2 := s1.onLoop fun e => { e with slot := upd e.slot i fun x => { lock := x.lock } }
  let s3 := s2.onStepper fun e => { e with slot := upd e.slot i fun x =>
    { issuedFwd := x.issuedFwd, issuedRev := x.issuedRev, realignFwd := x.realignFwd, realignRev := x.realignRev,
      presetPos := bumpFwd x.presetPos (-m), presetNeg := bumpRev x.presetNeg (-m), downSince := some s.now, offSince := some s.now,
      downPos := match b.portA with
        | some p => (s.ports.port[Fin.ofNat 32 p]).counts * 65536
        | none => (brickChannel b s).inPos } }
  onPax i (fun x => { override := x.override }) s3

/-- AXIS_BIND. -/
def opAxisBind : Op :=
  { opcode := 0x0100, target := below 64, toe := false, states := [.commissioning]
    schema := [fixed 0x0100 1, optional 0x0101 2, { type := 0x0102, lo := 0, hi := 3, req := false }, optional 0x0103 2,
               optional 0x0104 2, optional 0x0105 1]
    values := bindValues
    effect := fun rq s =>
      let i := tgt 64 rq
      let a := s.axis[i]
      let b := bindingOf rq
      let old := slotGroups a.bind
      if a.st ≠ .unbound ∧ a.st ≠ .disabled then .deny conflict
      else if b.location = 0 then
        if unbindConflict i s then .deny conflict
        else
          let t := bindSlot i b s
          match wireDeny t with
          | some d => .deny d
          | none => match admission t with
            | some d => .deny d
            | none => .done (acqPrune (reselect (installSlot i old t))) []
      else
        match bindTaken rq i b s with
        | some d => .deny d
        | none =>
          let t := bindSlot i b s
          let bad := match a.mode with
            | some m => match checkMode rq i b m t with
              | some d => some d
              | none => match wireDeny t with
                | some d => some d
                | none => admission t
            | none => none
          match bad with
          | some d => .deny d
          | none => .done (acqPrune (reselect (installSlot i old t))) [] }

/-- Executes AXIS_BIND. -/
def execAxisBind (rq : Request) (s : State) : Host.Outcome State Fault Refusal := runCommand opAxisBind rq s

/-! AXIS_SET_MODE (R126 to R133, R138, R139). -/

/-- The mode a command leaves: an omitted TLV leaves its attribute (R138). -/
def modeOf (rq : Request) (m : AxisMode) : AxisMode :=
  { drive := numD rq 0x0100 0 1 m.drive
    feedback := numD rq 0x0101 0 1 m.feedback
    depth := numD rq 0x0102 0 1 m.depth
    source := numD rq 0x0103 0 1 m.source
    srcIndex := numD rq 0x0103 1 1 m.srcIndex
    srcScale := numD rq 0x0103 2 2 m.srcScale
    standstill := numD rq 0x0104 0 1 m.standstill
    idleMs := numD rq 0x0104 2 2 m.idleMs
    reaction := numD rq 0x0105 0 1 m.reaction
    reactMs := numD rq 0x0105 2 2 m.reactMs
    reactDecel := intD rq 0x0105 8 8 m.reactDecel
    period := numD rq 0x0106 0 4 m.period
    velDiv := numD rq 0x0106 4 1 m.velDiv
    posDiv := numD rq 0x0106 5 1 m.posDiv
    lCur := numD rq 0x0106 6 2 m.lCur
    lVel := numD rq 0x0106 8 2 m.lVel
    lPos := numD rq 0x0106 10 2 m.lPos }

/-- The seven TLVs of a mode. -/
def modeTlvs : List Nat := [0x0100, 0x0101, 0x0102, 0x0103, 0x0104, 0x0105, 0x0106]

/-- AXIS_SET_MODE; on an Enabled slot in standstill only SOURCE may change, at the next outermost sample (R139). -/
def opAxisSetMode : Op :=
  { opcode := 0x0101, target := below 64, toe := false, states := [.commissioning, .operational]
    schema := [optional 0x0100 1, optional 0x0101 1, optional 0x0102 1, optional 0x0103 4, optional 0x0104 4,
               optional 0x0105 16, optional 0x0106 12]
    targetState := boundSlot
    effect := fun rq s =>
      let i := tgt 64 rq
      let a := s.axis[i]
      if a.st = .enabled then
        let only := (tlvs rq).all fun t => hasBit t.type 15 || t.type == 0x0010 || t.type == 0x0103
        match a.mode with
        | some m =>
          let n := modeOf rq m
          if a.standstill ∧ only ∧ has rq 0x0103 ∧ checkSource rq i a.bind n s = none then
            .done (onAx i (fun a => { a with nextSource := some (n.source, n.srcIndex, n.srcScale) }) s) []
          else .deny conflict
        | none => .deny conflict
      else if live a || (s.sys.dev != .commissioning && a.st != .disabled) then .deny conflict
      else
        let lack := if a.mode.isSome then none else (modeTlvs.find? fun t => !has rq t).map missing
        let m := modeOf rq (a.mode.getD {})
        let t := onAx i (fun a => { a with mode := some m, nextSource := none }) s
        let bad := match lack with
          | some d => some d
          | none => match checkMode rq i a.bind m s with
            | some d => some d
            | none => match wireDeny t with
              | some d => some d
              | none => admission t
        match bad with
        | some d => .deny d
        | none => .done (acqPrune (reselect (installSlot i [] t))) [] }

/-- Executes AXIS_SET_MODE. -/
def execAxisSetMode (rq : Request) (s : State) : Host.Outcome State Fault Refusal := runCommand opAxisSetMode rq s

/-! AXIS_ENABLE and AXIS_DISABLE (R140, R141). -/

/-- Its port has a 1000BASE-T link (R295, R306). -/
def brickLinked (b : Binding) (s : State) : Bool :=
  let p := s.net.port[Fin.ofNat 5 s.bricks.brick[Fin.ofNat 64 b.brick].port]
  p.link && p.speed == 2

/-- The step-13 conditions of AXIS_ENABLE, in order (R140). -/
def enableDeny (rq : Request) (i : Fin 64) (s : State) : Option Deny :=
  let a := s.axis[i]
  if s.sys.dev = .recovery then some (faultActive ((blockingFault s).getD (Config.openDetail 0x0600 3)))
  else if s.sys.dev ≠ .operational ∧ s.sys.dev ≠ .test then some conflict
  else if stoInForce s then some (faultActive 0x0107)
  else if s.power.overtemp then some (faultActive 0x0010)
  else if a.st = .faulted ∨ a.st = .reacting then some (faultActive (0x0100 + a.cause))
  else
    match slotUnacked i s with
    | some c => some (faultActive c)
    | none =>
      match a.mode with
      | none => some conflict
      | some m =>
        if !loopsLoaded i m s then some conflict
        else if !sourceReady i m s then some (conflictAt rq 0x0103)
        else none

/-- AXIS_ENABLE: answered when the slot is Enabled or has faulted. -/
def opAxisEnable : Op :=
  { opcode := 0x0102, target := below 64, toe := true, states := afterStart, schema := [optional 0x0104 1]
    targetState := boundSlot
    effect := fun rq s =>
      let i := tgt 64 rq
      match enableDeny rq i s with
      | some d => .deny d
      | none =>
        if s.axis[i].st = .enabled then .done s []
        else
          let s1 := enableBegin i (hasBit (num rq 0x0104 0 1) 0) s
          if s.axis[i].bind.location = 2 ∧ !brickLinked s.axis[i].bind s then
            .fail (axisFault i 11 0 s1) (faultActive 0x010B)
          else .wait s1 i [] }

/-- Executes AXIS_ENABLE. -/
def execAxisEnable (rq : Request) (s : State) : Host.Outcome State Fault Refusal := runCommand opAxisEnable rq s

/-- AXIS_DISABLE. -/
def opAxisDisable : Op :=
  { opcode := 0x0103, target := below 64, toe := true, states := afterStart, schema := [optional 0x0100 1]
    targetState := boundSlot
    values := fun rq s => firstDeny [(decide (2 < num rq 0x0100 0 1), badValue rq 0x0100)]
    effect := fun rq s =>
      let i := tgt 64 rq
      let a := s.axis[i]
      let stop := num rq 0x0100 0 1
      match a.st with
      | .unbound => .deny (deny .badTarget)
      | .disabled => .done s []
      | .enabling => .done (slotDisabled i s) []
      | .reacting => if stop = 1 then .done (takeReaction i 0 a.cause s) [] else .deny (deny .busy)
      | .faulted =>
        if groupsHeld i s then .deny (faultActive 0x0108)
        else if causePresent i s then .deny (faultActive (0x0100 + a.cause))
        else
          let s1 := (slotGroups a.bind).foldl (fun s g =>
            if s.bta.grp[g].held || s.bta.grp[g].bySto then clearGroup g s else s) s
          .done (slotDisabled i s1) []
      | .enabled =>
        if stop = 1 ∨ stop = 0 ∧ depthOf i s = 1 then .done (slotDisabled i s) []
        else if stop = 2 then
          .wait (loopsStop i (planEnd i (outputFor i 1 (onAx i (fun a => { a with stopShort := true, legsShort := true, reactStart := s.now }) s)))) i []
        else .wait (requestStop i 1 s) i [] }

/-- Executes AXIS_DISABLE. -/
def execAxisDisable (rq : Request) (s : State) : Host.Outcome State Fault Refusal := runCommand opAxisDisable rq s

/-- BINDING of AXIS_STATUS (Table 6.12). -/
def bindingBytes (b : Binding) : List Byte :=
  be 1 b.location ++ be 1 (if b.location = 2 then b.channel else 0xFF) ++ be 2 (if b.location = 2 then b.brick else b.legSet) ++
    be 1 (b.portA.getD 0xFF) ++ be 1 (b.portB.getD 0xFF) ++
    ((b.inputs ++ [0xFF, 0xFF, 0xFF]).take 3).flatMap (be 1) ++ be 3 0

/-- AXIS_STATUS. -/
def opAxisStatus : Op :=
  { opcode := 0x0104, target := below 64, toe := false, states := afterStart, schema := []
    effect := fun rq s =>
      let i := tgt 64 rq
      .done s
        [(0x0100, be 4 (axisStatus i s).toNat), (0x0101, beI 8 (measuredPos i s)), (0x0102, beI 8 (measuredVel i s)),
         (0x0103, bindingBytes s.axis[i].bind)] }

/-- Executes AXIS_STATUS. -/
def execAxisStatus (rq : Request) (s : State) : Host.Outcome State Fault Refusal := runCommand opAxisStatus rq s

/-! Events. -/

/-- STANDSTILL_ENTRY: the set-point has stood for the idle time, and the policy takes force (R132, R284). -/
def execStandstillEntry (slot : Fin 64) (s : State) : Host.Outcome State Fault Refusal :=
  let a := s.axis[slot]
  match a.mode with
  | none => .next s
  | some m =>
    if a.st ≠ .enabled ∨ a.standstill ∨ s.now < a.spChange + 500000 * m.idleMs then .next s
    else
      let s1 := onAx slot (fun a => { a with standstill := true, legsOff := m.standstill == 1, legsShort := m.standstill == 2 }) s
      .next (
        if m.standstill = 1 then loopsStop slot (outputFor slot 0 s1)
        else if m.standstill = 2 then loopsStop slot (outputFor slot 1 s1)
        else if 3 ≤ m.standstill then
          s1.onStepper fun e => { e with slot := upd e.slot slot fun x => { x with phase := 1, phaseStart := s.now, changeDue := false } }
        else s1.onStepper fun e => { e with slot := upd e.slot slot fun x => { x with changeDue := false } })

/-- ALIGNMENT_COMPLETE: after 250 ms the offset is recorded, or the enabling fails (R134 step 2). -/
def execAlignmentComplete (slot : Fin 64) (s : State) : Host.Outcome State Fault Refusal :=
  let a := s.axis[slot]
  if !a.aligning ∨ s.now < a.alignSince + 125000000 then .next s
  else
    let p := measuredPos slot s
    let moved := a.alignMoved || decide (s.loop.slot[slot].elecCounts ≤ 16 * ((p - a.alignStart).natAbs : Int))
    .next (if moved then onAx slot (fun a => { a with aligning := false, offset := some p, forceAlign := false }) s
           else axisFault slot 11 0 s)

/-- A ramp-down is over: the estimate has been below 0.5 % for 10 ms, or the reaction's timeout has expired (R134). -/
def rampOver (i : Fin 64) (s : State) : Bool :=
  let a := s.axis[i]
  a.slowSince.any (fun t => decide (t + 5000000 ≤ s.now)) ||
    decide (a.reactStart + 500000 * (a.mode.map (·.reactMs)).getD 0 ≤ s.now)

/-- REACTION_COMPLETE: a ramp-down ends in torque off, a short brake leaves the low sides on, and the slot is Faulted
(R134); a short-brake stop of AXIS_DISABLE ends in Disabled (R141, log entry 21). -/
def execReactionComplete (slot : Fin 64) (s : State) : Host.Outcome State Fault Refusal :=
  let a := s.axis[slot]
  if a.stopShort ∧ a.st = .enabled then .next (slotDisabled slot s)
  else if a.st ≠ .reacting then .next s
  else if a.reaction = some 2 ∧ !rampOver slot s then .next s
  else if a.reaction = some 1 then .next (onAx slot (fun a => { a with st := .faulted }) s)
  else
    let s1 := onAx slot (fun a => { a with st := .faulted, legsOff := true, legsShort := false, slowSince := none }) s
    .next (planEnd slot (loopsStop slot (outputFor slot 0 s1)))

end Sys2Proof.Machine
end

