-- ==== Sys2Proof/Machine/LoopMath.lean ====
section
/-! DEFINITION.
Block floating point: values, sections, renormalisation (R193 to R197, R202, R207, 09). -/

namespace Sys2Proof.Machine

/-- A power of two. -/
def pow2 (e : Int) : Rat := if 0 ≤ e then ((2 ^ e.toNat : Nat) : Rat) else 1 / ((2 ^ (-e).toNat : Nat) : Rat)

/-- The value of a block-floating-point number: M × 2^(E-31). -/
def Bf.val (b : Bf) : Rat := (b.m : Rat) * pow2 (b.e - 31)

/-- Round half to even to a multiple of 2^p. -/
def onGrid (p : Int) (x : Rat) : Rat := (halfEvenR (x / pow2 p) : Rat) * pow2 p

/-- Does a value's mantissa at exponent e fit in 32 bits? -/
def fitsAt (e : Int) (x : Rat) : Bool :=
  let m := halfEvenR (x / pow2 (e - 31))
  decide (-2147483648 ≤ m) && decide (m ≤ 2147483647)

/-- A lower bound of the exponent a value needs. -/
def needExp (x : Rat) : Int :=
  if x = 0 then -128 else (Nat.log2 x.num.natAbs : Int) - (Nat.log2 x.den : Int) - 1

/-- Renormalisation: the smallest exponent of at least -128 at which all values fit, the mantissas, and whether they had to
be saturated at 127 (R196). -/
def renormalise (vs : List Rat) : Int × List Int × Bool :=
  let e0 := vs.foldl (fun e x => max e (needExp x)) (-128)
  let all := fun (e : Int) => vs.all (fitsAt e)
  match (List.range 5).find? fun (k : Nat) => decide (e0 + (k : Int) ≤ 127) && all (e0 + (k : Int)) with
  | some k =>
    let e := e0 + (k : Int)
    (e, vs.map fun x => halfEvenR (x / pow2 (e - 31)), false)
  | none => (127, vs.map fun x => clampInt (-2147483648) 2147483647 (halfEvenR (x / pow2 96)), true)

/-- A value at the engine's interface: a 32-bit mantissa rounded half to even, at exponent 0 where it fits (R197). -/
def toBf (x : Rat) : Bf :=
  match (List.range 128).find? fun (e : Nat) => fitsAt (e : Int) x with
  | some e => { m := halfEvenR (x / pow2 ((e : Int) - 31)), e := (e : Int) }
  | none => { m := clampInt (-2147483648) 2147483647 (halfEvenR (x / pow2 96)), e := 127 }

/-- A value as the fixed stages hold one: a 32-bit mantissa rounded half to even at the smallest exponent that holds it (R193,
R196; log entry 11). -/
def mant (x : Rat) : Rat :=
  let r := renormalise [x]
  (r.2.1.headD 0 : Rat) * pow2 (r.1 - 31)

/-- A Q1.31 result: rounded half to even, saturated, and whether it was (R197). -/
def toQ31 (x : Rat) : Int × Bool :=
  let m := halfEvenR (x * 2147483648)
  (clampInt (-2147483648) 2147483647 m, decide (m < -2147483648) || decide (2147483647 < m))

/-- A numerator coefficient's value (R194). -/
def SecCoef.num (c : SecCoef) (b : Int) : Rat := (b : Rat) * pow2 (c.g - 30)

/-- A Q2.30 value. -/
def ofQ30 (x : Int) : Rat := (x : Rat) / 1073741824

/-- One section: outputs with the old coefficients, states with the new ones, which are the same but at a swap
(R195, R207). -/
def sectionStep (old new : SecCoef) (x : Rat) (ex : Int) (st : SecState) : Rat × Rat × Rat :=
  let p := max (max (ex + old.g) (ex + new.g)) st.e + 1 - 62
  let s1 := (st.s1 : Rat) * pow2 (st.e - 31)
  let s2 := (st.s2 : Rat) * pow2 (st.e - 31)
  let y := onGrid p (old.num old.b0 * x) + onGrid p s1
  (y, onGrid p (new.num new.b1 * x) - onGrid p (ofQ30 new.a1 * y) + onGrid p s2,
   onGrid p (new.num new.b2 * x) - onGrid p (ofQ30 new.a2 * y))

/-- What a cascade yields: its output, its states, the raw values of a deferred integrator section, and whether a section
saturated. -/
structure CasOut where
  /-- Output, exact. -/
  y : Rat
  /-- States of the sections evaluated. -/
  st : List SecState := []
  /-- y, s1 and s2 of the integrator section before the anti-windup (R202). -/
  raw : Option (Rat × Rat × Rat) := none
  /-- A section could not be renormalised within the exponents (R196). -/
  numeric : Bool := false
deriving DecidableEq, Repr

/-- Store three values of a section (R196). -/
def storeSection (y s1 s2 : Rat) : SecState × Bool :=
  let r := renormalise [y, s1, s2]
  ({ s1 := r.2.1.getD 1 0, s2 := r.2.1.getD 2 0, y := r.2.1.getD 0 0, e := r.1 }, r.2.2)

/-- Evaluate the sections of a cascade in order; the last one of an integrating loop is deferred (R195, R202, R207). -/
def cascade (integ : Bool) : List (SecCoef × SecCoef × SecState) → Rat → Int → CasOut
  | [], x, _ => { y := x }
  | (o, n, st) :: rest, x, ex =>
    let r := sectionStep o n x ex st
    if integ && rest.isEmpty then { y := r.1, raw := some r, st := [st] }
    else
      let k := storeSection r.1 r.2.1 r.2.2
      let c := cascade integ rest ((k.1.y : Rat) * pow2 (k.1.e - 31)) k.1.e
      { c with st := k.1 :: c.st, numeric := c.numeric || k.2 }

/-- The anti-windup of an integrator section: back-calculation, clamp, and whether it clamped (R202). -/
def antiWindup (r : Region) (raw : Rat × Rat × Rat) (u uSat : Rat) : SecState × Bool × Bool :=
  let s1 := raw.2.1 + ofQ30 r.kAw * (uSat - u)
  let hi := ofQ31 r.iMax
  let lo := ofQ31 r.iMin
  let t := if hi < s1 then hi else if s1 < lo then lo else s1
  let k := storeSection raw.1 t raw.2.2
  (k.1, decide (hi < s1) || decide (s1 < lo), k.2)

end Sys2Proof.Machine
end

