-- ==== Sys2Proof/Machine/LoopRun.lean ====
section
/-! DEFINITION.
One evaluation of a loop: load commits, locks, schedules, swaps, limits, anti-windup (R200 to R207, 09). -/

namespace Sys2Proof.Machine

/-- Change a loop of a slot. -/
def onLoopSt (i : Fin 64) (k : Fin 3) (f : LoopSt → LoopSt) (s : State) : State :=
  s.onLoop fun e => { e with slot := upd e.slot i fun x => { x with lp := upd x.lp k f } }

/-- Change a slot of the Loop Engine. -/
def onLSlot (i : Fin 64) (f : LoopSlot → LoopSlot) (s : State) : State := s.onLoop fun e => { e with slot := upd e.slot i f }

/-- The velocity loop's integrator value, per unit of CURRENT_FS in Q1.31 (Table 9.4). -/
def integratorValue (l : LoopSt) : Int :=
  match l.stA.drop (l.n - 1) with
  | st :: _ => halfEvenR ((st.s1 : Rat) * pow2 st.e)
  | [] => 0

/-- DC-link voltage per unit of VOLTAGE_FS, from the DCLINK source (R199, Table 9.10). -/
def dcLink (i : Fin 64) (s : State) : Rat :=
  let x := s.loop.slot[i]
  let full : Rat := if x.voltageFs = 0 then 0 else (x.dcMv : Rat) / (x.voltageFs : Rat)
  match x.dcSource with
  | 0 => full
  | 1 => ((s.loop.ain[Fin.ofNat 8 x.dcIndex]).code : Rat) / 32768 * full
  | 2 => ofQ31 (s.bta.sdi[Fin.ofNat 96 x.dcIndex]).value.toInt * full
  | _ => ofQ31 (s.bricks.brick[Fin.ofNat 64 x.dcIndex]).dcVolt * full

/-- A scheduling variable (Table 9.4). -/
def schedValue (i : Fin 64) (l : LoopSt) (s : State) : Int :=
  let v := match l.schedVar with
    | 1 => measuredVel i s
    | 2 => measuredPos i s
    | 3 => roundOpen (dcLink i s * 2147483648)
    | 4 => integratorValue (s.loop.slot[i].lp[(1 : Fin 3)])
    | 5 => (portRead (Fin.ofNat 64 l.varPort) s).toInt
    | _ => 0
  if l.absolute then (v.natAbs : Int) else v

/-- The highest region whose bound the variable reaches, at the first sample (R204). -/
def firstRegion (v : Int) (bounds : List Int) : Nat := (bounds.filter fun b => decide (b ≤ v)).length

/-- Up while the next bound plus the hysteresis is reached (R204). -/
def regionUp (v h : Int) (b : List Int) : Nat → Nat → Nat
  | 0, k => k
  | n + 1, k => match b[k]? with
    | some x => if x + h ≤ v then regionUp v h b n (k + 1) else k
    | none => k

/-- Down while the variable lies below its region's bound by more than the hysteresis (R204). -/
def regionDown (v h : Int) (b : List Int) : Nat → Nat
  | 0 => 0
  | k + 1 => match b[k]? with
    | some x => if v < x - h then regionDown v h b k else k + 1
    | none => k + 1

/-- The region a loop's schedule asks for. -/
def scheduled (i : Fin 64) (l : LoopSt) (s : State) : Nat :=
  if l.nRegions ≤ 1 ∨ l.schedVar = 0 then 0
  else
    let v := schedValue i l s
    if !l.started then firstRegion v l.bounds
    else regionDown v l.hyst l.bounds (regionUp v l.hyst l.bounds 8 l.inForce)

/-- Lock of a loop in a lock word: locked, region (R205). -/
def lockOf (w : Word) (k : Fin 3) : Bool × Nat := (w.getLsbD (4 * k), field w (4 * k + 1) 3)

/-- Take a loop's armed lock over at its sample (R111, R205). -/
def takeLock (i : Fin 64) (k : Fin 3) (s : State) : State :=
  if s.loop.slot[i].lp[k].lockDue then
    settleUpdate 3 (onLoopSt i k (fun l => { l with lockDue := false }) (onLSlot i (fun x =>
      let m : Word := BitVec.ofNat 32 (15 * 2 ^ (4 * k.val))
      let w := (x.locked &&& ~~~m) ||| (x.lock.armed &&& m)
      { x with locked := w, lock := { x.lock with active := w } }) s))
  else s

/-- Key under which a LOOP_LOAD_CASCADE waits. -/
def loadKey (i : Fin 64) (k : Fin 3) : Nat := 3 * i.val + k.val

/-- A load that is due commits (R206, R217): the state, and the region committed with the record it replaced, whose outputs a swap
still uses (R207). -/
def commitLoad (i : Fin 64) (k : Fin 3) (s : State) : State × Option (Nat × Region) :=
  match s.loop.slot[i].lp[k].load with
  | none => (s, none)
  | some l =>
    if s.now < l.notBefore then (s, none)
    else
      let s0 := clearPoison (regionAddr i.val k.val l.region) 0x400 s
      let s1 := onLoopSt i k (fun y => { y with load := none, region := upd y.region (Fin.ofNat 8 l.region) fun _ => { l.recv with loaded := true } }) s0
      (finish (fun e => e.opcode == 0x0300 && e.key == loadKey i k) .done [] s1, some (l.region, (s.loop.slot[i].lp[k]).region[Fin.ofNat 8 l.region]))

/-- What a loop run needs: errors and feedforward per cascade, the voltage limit, and whether the second axis is held inside
the circle. -/
structure LoopIn where
  /-- Cascade inputs. -/
  errors : List Bf
  /-- Feedforward and decoupling, added after the cascade. -/
  ff : List Rat
  /-- V_lim, for a current loop. -/
  vLim : Option Rat := none
  /-- The circle limit of a three-phase loop (R198). -/
  circle : Bool := false

/-- Limits of an output: the region's, V_lim, and the circle for the second axis (R198, R200). -/
def limited (r : Region) (q : LoopIn) (us : List Rat) : List Rat :=
  let a := us.map (clampR (ofQ31 r.uMin) (ofQ31 r.uMax))
  match q.vLim with
  | none => a
  | some v =>
    let b := a.map (clampR (-v) v)
    if !q.circle then b
    else
      match b with
      | d :: w :: _ =>
        let lim := mant (sqrtR (v * v - d * d))
        [d, clampR (-lim) lim w]
      | _ => b

/-- One evaluation of a loop at its sample (R195 to R207): the outputs after every limit, and the state. -/
def runLoop (i : Fin 64) (k : Fin 3) (q : LoopIn) (committed : Option (Nat × Region)) (s1 : State) : List Rat × State :=
  let l := s1.loop.slot[i].lp[k]
  let lock := lockOf s1.loop.slot[i].locked k
  let target := if lock.1 then min lock.2 (l.nRegions - 1) else scheduled i l s1
  let before := committed.filter fun c => c.1 == l.inForce
  let swap := l.started && (target != l.inForce || before.isSome)
  let new := l.region[Fin.ofNat 8 target]
  let old := if l.started then (before.map (·.2)).getD l.region[Fin.ofNat 8 l.inForce] else new
  let coef := fun (r : Region) (b : Bool) (j : Nat) => ((if b then r.casB else r.casA)).getD j {}
  let states := fun (b : Bool) (j : Nat) => (if b then l.stB else l.stA).getD j {}
  let secs := fun (b : Bool) => (List.range l.n).map fun j => (coef old b j, coef new b j, states b j)
  let outs := (q.errors.zipIdx).map fun (e : Bf × Nat) => cascade l.integ (secs (e.2 == 1)) e.1.val e.1.e
  let us := (outs.zip q.ff).map fun p => mant (p.1.y + p.2)
  let sats := limited new q us
  let wasIn := (us.zip sats).all fun p => decide (p.1 = p.2)
  let oldOut := us.map (clampR (ofQ31 old.uMin) (ofQ31 old.uMax))
  let swapClamped := swap && oldOut.any fun x => decide (x < ofQ31 new.uMin) || decide (ofQ31 new.uMax < x)
  let aw := (outs.zip (us.zip sats)).map fun p =>
    match p.1.raw with
    | some raw =>
      let r := antiWindup new raw p.2.1 p.2.2
      (p.1.st.dropLast ++ [r.1], r.2.1, p.1.numeric || r.2.2)
    | none => (p.1.st, false, p.1.numeric)
  let clamped := aw.any (·.2.1)
  let numeric := aw.any (·.2.2)
  let s2 := onLoopSt i k (fun y => { y with
    stA := (aw.getD 0 (y.stA, false, false)).1, stB := (aw.getD 1 (y.stB, false, false)).1, inForce := target, started := true,
    sat := !wasIn, clamped := clamped }) s1
  let s3 := onLSlot i (fun x => { x with
    fSwap := x.fSwap || swap, fSwapClamped := x.fSwapClamped || swapClamped, fNumeric := x.fNumeric || numeric }) s2
  let cause := if target = l.inForce then 2 else if lock.1 then 1 else 0
  let kb := be 1 k.val
  let s4 := if swap then event 0x0301 i.val (kb ++ be 1 l.inForce ++ be 1 target ++ be 1 cause) s3 else s3
  let s5 := if swapClamped then event 0x0302 i.val kb s4 else s4
  let s6 := if clamped && !l.clamped then event 0x0303 i.val kb s5 else s5
  (sats, if numeric then event 0x0304 i.val kb s6 else s6)

end Sys2Proof.Machine
end

