-- ==== Sys2Proof/Machine/LoopStages.lean ====
section
/-! DEFINITION.
The stages around the cascades (R197 to R201, 09; R280 to R284, 12). Values between the stages are 32-bit mantissas rounded half
to even (R193; log entry 11). What the manual gives no value for is a free value, `Config.fixedStage`, by stage number and
arguments (log entry 11): 13 and 14 the legs of a six-step sector; 15 an electrical angle without ELEC_COUNTS or Hall code; 21
the set magnitude of open-loop stepping; 22 to 25 the observer's phase-locked loop, its inductance where L_d and L_q differ, and
its speed without a flux linkage; 26 an electrical rate without ELEC_COUNTS; 27 the observer's angle without a back-EMF; 30 a
division by a full scale never loaded. -/

namespace Sys2Proof.Machine

/-- A quotient by a full scale; free where the full scale has never been loaded (R197, log entry 6). -/
def perUnit (x fs : Int) : Rat := if fs = 0 then ofQ31 (Config.fixedStage 30 [x]) else (x : Rat) / (fs : Rat)

/-- The same rounded half to even to a 32-bit mantissa at the engine's interface (R197). -/
def perUnitIn (x fs : Int) : Rat := (toBf (perUnit x fs)).val

/-- The INPUT_CAL entry of a bound input: entries stand in SDI order (Table 9.10). -/
def inputCalOf (i : Fin 64) (n : Nat) (s : State) : Int × BitVec 64 :=
  let place := ((s.axis[i].bind.inputs).filter fun m => decide (m < n)).length
  (s.loop.slot[i].inputCal)[place]?.getD (0, 0x3FF0000000000000)

/-- Measured phase currents per unit, in the binding's order: decimated values less their offset times their gain, or a brick's
record (R198). -/
def phaseCurrents (i : Fin 64) (s : State) : List Rat :=
  let b := s.axis[i].bind
  if b.location = 2 then
    let c := brickChannel b s
    (c.inCur.take (if driveOf i s = 0 then max 2 (min c.currents 3) else max 1 (min c.currents 3))).map ofQ31
  else
    b.inputs.map fun (n : Nat) =>
      let cal := inputCalOf i n s
      mant (ofQ31 ((s.bta.sdi[Fin.ofNat 96 n]).value.toInt - cal.1) * binary64 cal.2)

/-- √3. -/
def root3 : Rat := sqrtR 3

/-- Electrical revolutions per second of a speed: speed / ELEC_COUNTS (R198). -/
def elecRate (i : Fin 64) (v : Int) (s : State) : Rat :=
  let e := s.loop.slot[i].elecCounts
  if e = 0 then ofQ31 (Config.fixedStage 26 [v]) else ofQ24 v / ofQ16 e

/-- The phase index φ of a stepper (R280). -/
def stepPhi (i : Fin 64) (s : State) : Nat := ((s.stepper.slot[i].m - s.stepper.slot[i].mOff) % 1024).toNat

/-- The electrical angle from a position: 2^32 × frac((p − offset) / ELEC_COUNTS) (R198). -/
def positionAngle (i : Fin 64) (s : State) : Nat :=
  let e := s.loop.slot[i].elecCounts
  let p := measuredPos i s - s.axis[i].offset.getD 0
  if e = 0 then (Config.fixedStage 15 [p]).toNat % 2 ^ 32
  else ((p % e) * 4294967296 / e).toNat % 2 ^ 32

/-- Is a slot at open-loop stepping turned by its commanded angle, as the three-phase and BLDC kinds are (Table 6.4)? -/
def vectorStepping (i : Fin 64) (s : State) : Bool := decide (driveOf i s ≤ 1) && depthOf i s == 0

/-- Is a slot ramping down on the observer (R134, R214)? -/
def rampingDown (a : Axis) : Bool := a.st == .reacting && a.reaction == some 2

/-- The electrical angle θ of the d axis, 2^32 per revolution (Tables 6.4 to 6.6, R198, R213, R214, R280). The current lies on the q
axis, as the d set-point is 0 (R190): a vector commanded to an angle, as in alignment and open-loop stepping, has its d axis a
quarter behind it. -/
def elecAngle (i : Fin 64) (s : State) : Nat :=
  let a := s.axis[i]
  let x := s.loop.slot[i]
  let fb := (a.mode.map (·.feedback)).getD 0
  let quarter := 2 ^ 30
  if a.aligning then 2 ^ 32 - quarter
  else if stepAngle i s then stepPhi i s * 2 ^ 22
  else if rampingDown a then (if x.heldQ.isNone then x.obsAngle.toNat else x.frameAngle.toNat)
  else if vectorStepping i s then ((a.posSp / 65536 * 4194304 - (quarter : Nat)) % 4294967296).toNat
  else if x.obsStart then x.frameAngle.toNat
  else if fb = 2 ∧ a.bind.portA.isSome then (hallAngle (Fin.ofNat 32 (a.bind.portA.getD 0)) s).toNat
  else if sensored a then positionAngle i s
  else x.obsAngle.toNat

/-- Phase set-points of a stepper: I cos θ and I sin θ (R198, R280). -/
def stepperPair (amp : Int) (t : Nat) : Rat × Rat :=
  (mant (ofQ31 amp * ofQ31 (cosine t)), mant (ofQ31 amp * ofQ31 (sine t)))

/-- Modulation kind of a slot: as set, else by drive kind (R199). -/
def modulation (i : Fin 64) (s : State) : Nat :=
  if s.loop.slot[i].modSet then s.loop.slot[i].modKind
  else match driveOf i s with
    | 0 => 0
    | 1 => 2
    | _ => 3

/-- V_dc floored at 1/16 (R199). -/
def vDc (i : Fin 64) (s : State) : Rat := let v := dcLink i s; if v < 1 / 16 then 1 / 16 else v

/-- V_lim of a modulation kind (Table 9.3); the floor of V_dc is for the divisions only. -/
def vLimit (i : Fin 64) (s : State) : Rat :=
  match modulation i s with
  | 0 => mant (dcLink i s / root3)
  | 1 => mant (dcLink i s / 2)
  | _ => dcLink i s

/-- A duty clamped to 0 to 1, in 2^-32 of a period. -/
def dutyOf (d : Rat) : Int := clampInt 0 4294967296 (halfEvenR (d * 4294967296))

/-- Marks a leg whose both switches stay off (six-step, R199). -/
def legOpen : Int := -1

/-- A d-q vector at an angle in the stationary frame (inverse Park, R198). -/
def inversePark (vd vq : Int) (t : Nat) : Rat × Rat :=
  let c := ofQ31 (cosine t)
  let n := ofQ31 (sine t)
  (mant (ofQ31 vd * c - ofQ31 vq * n), mant (ofQ31 vd * n + ofQ31 vq * c))

/-- Phase voltages of a stationary vector. -/
def phaseVolts (v : Rat × Rat) : List Rat :=
  [v.1, mant ((root3 * v.2 - v.1) / 2), mant (-(root3 * v.2 + v.1) / 2)]

/-- The 60° sector of a BLDC slot, 0 to 5: that of its Hall code (R223), else of its angle (R190). -/
def sectorOf (i : Fin 64) (t : Nat) (s : State) : Nat :=
  let a := s.axis[i]
  let hall : Option Nat := if (a.mode.map (·.feedback)).getD 0 = 2 ∧ !vectorStepping i s ∧ !rampingDown a then
      (a.bind.portA.bind fun n => (s.ports.port[Fin.ofNat 32 n]).hallRef).map fun r => hallOrder.idxOf r.toNat
    else none
  hall.getD (t * 6 / 2 ^ 32)

/-- The positive and the negative leg of a sector; which they are, the manual does not say. -/
def sectorLegs (k : Nat) : Nat × Nat :=
  let p := (Config.fixedStage 13 [k]).toNat % 3
  (p, (p + 1 + (Config.fixedStage 14 [k]).toNat % 2) % 3)

/-- Three phase currents: the third reconstructed from two (R198); of a single DC-link input, the conducting pair's. -/
def threeCurrents (i : Fin 64) (t : Nat) (s : State) : List Rat :=
  match phaseCurrents i s with
  | [a] =>
    let l := sectorLegs (sectorOf i t s)
    (List.range 3).map fun k => if k = l.1 then a else if k = l.2 then -a else 0
  | [a, b] => [a, b, -a - b]
  | l => l

/-- The current vector in the stationary frame: by the formula for two inputs, or for three (R198). -/
def clarke (n : Nat) (l : List Rat) : Rat × Rat :=
  let a := l.headD 0
  let b := l.getD 1 0
  let c := l.getD 2 0
  if n = 3 then (mant ((2 * a - b - c) / 3), mant ((b - c) / root3)) else (a, mant ((a + 2 * b) / root3))

/-- Measured d and q currents (Park, R198); the q current of a BLDC slot is that of the conducting pair (R190). -/
def dqCurrents (i : Fin 64) (t : Nat) (s : State) : Rat × Rat :=
  let l := threeCurrents i t s
  let v := clarke (phaseCurrents i s).length l
  let c := ofQ31 (cosine t)
  let n := ofQ31 (sine t)
  (mant (v.1 * c + v.2 * n),
   if driveOf i s = 1 then l.getD (sectorLegs (sectorOf i t s)).1 0 else mant (v.2 * c - v.1 * n))

/-- Duties of a three-phase slot from its stationary voltage (Table 9.3, kinds 0 and 1). -/
def threeDuties (kind : Nat) (w : Rat × Rat) (vdc : Rat) : List Int :=
  let v := phaseVolts w
  let hi := v.foldl (fun (a : Rat) x => if a < x then x else a) (v.headD 0)
  let lo := v.foldl (fun (a : Rat) x => if x < a then x else a) (v.headD 0)
  let mid : Rat := if kind = 0 then (hi + lo) / 2 else 0
  v.map fun x => dutyOf (1 / 2 + (x - mid) / vdc)

/-- Duties of a BLDC slot (Table 9.3, kind 2). -/
def sixStepDuties (sector : Nat) (v : Int) (vdc : Rat) : List Int :=
  let l := sectorLegs sector
  (List.range 3).map fun k => if k = l.1 then dutyOf (ofQ31 v / vdc) else if k = l.2 then 0 else legOpen

/-- Duties of an H-bridge (Table 9.3, kind 3). -/
def bridgeDuties (v : Int) (vdc : Rat) : List Int :=
  [dutyOf (1 / 2 + ofQ31 v / (2 * vdc)), dutyOf (1 / 2 - ofQ31 v / (2 * vdc))]

/-- Signs of the phase currents, for the dead-time compensation. -/
def signs (l : List Rat) : List Int := l.map fun x => x.num.sign

/-- What a current loop hands to its legs: a duty per leg (`legOpen` for an open one) and the sign of each leg's current. -/
def legResult (d sg : List Int) : List Int := d ++ (sg ++ List.replicate d.length 0).take d.length

/-! The sample of each loop. -/

/-- Store what the current loop measured and produced (LOOP_I_D to LOOP_V_Q), and the voltage now applied in the stationary
frame, which the observer uses (R211). -/
def storeCurrents (i : Fin 64) (id iq : Rat) (vd vq : Int) (w : Rat × Rat) (s : State) : State :=
  let q := clampInt (-2147483648) 2147483647
  onLSlot i (fun x => { x with
    iD := (toQ31 id).1, iQ := (toQ31 iq).1, vD := q vd, vQ := q vq, vAlpha := (toQ31 w.1).1, vBeta := (toQ31 w.2).1 }) s

/-- Current set-point of a slot's current loop, Q1.31 (R190, R213, R214, Table 6.4): START_I in the forced frame, the current held
under a ramp-down, the set magnitude at open-loop stepping, the velocity loop's released output, or the axis's own. -/
def currentSp (i : Fin 64) (s : State) : Int :=
  let x := s.loop.slot[i]
  if s.axis[i].aligning then 536870912
  else if rampingDown s.axis[i] ∧ x.heldQ.isSome then x.heldQ.getD 0
  else if vectorStepping i s then clampInt 0 2147483647 (Config.fixedStage 21 [i.val])
  else if x.obsStart then x.startI
  else if 2 ≤ depthOf i s then (x.lp[(1 : Fin 3)]).released.headD 0
  else s.axis[i].curSp

/-- Full scales in amperes and volts. -/
def ampsFs (x : LoopSlot) : Rat := (x.currentFs : Rat) / 1000
/-- The same for volts. -/
def voltsFs (x : LoopSlot) : Rat := (x.voltageFs : Rat) / 1000

/-- Volts per unit of VOLTAGE_FS; free where it has never been loaded. -/
def perVolts (v : Rat) (x : LoopSlot) : Rat := if x.voltageFs = 0 then ofQ31 (Config.fixedStage 30 [v.num, v.den]) else v / voltsFs x

/-- Decoupling of v_d and back-EMF feedforward of v_q, per unit (R198). -/
def omegaTerms (i : Fin 64) (id iq : Rat) (s : State) : List Rat :=
  let x := s.loop.slot[i]
  let w := 2 * ratPi * elecRate i (measuredVel i s) s
  [if x.motorOpts.getLsbD 0 then mant (perVolts (-(w * binary64 x.motorLq * (iq * ampsFs x))) x) else 0,
   if x.motorOpts.getLsbD 1 then mant (perVolts (w * (binary64 x.motorLd * (id * ampsFs x) + binary64 x.motorPsi)) x) else 0]

/-- t_adv of R198, s: from the sample instant to the middle of the PWM period in which the vector is applied. `due` is L: for a local
slot the period after the first boundary of its group at or after sample + L, for a remote one after the application instant. -/
def advanceTime (i : Fin 64) (due : Nat) (s : State) : Rat :=
  let m := (s.axis[i].mode.map (·.period)).getD 0
  match slotGroups s.axis[i].bind with
  | g :: _ =>
    let x := s.bta.grp[g]
    let p := max x.period.active.toNat 1
    let first := p - min x.count p
    let b := if due ≤ first then first else first + (due - first + p - 1) / p * p
    ((2 * b + p : Nat) : Rat) / 1000000000
  | [] => ((2 * due + m : Nat) : Rat) / 1000000000

/-- The angle inverse Park uses: θ, or θ + ω t_adv with angle advance on (R198). -/
def vectorAngle (i : Fin 64) (t : Nat) (s : State) : Nat :=
  let x := s.loop.slot[i]
  let l := (s.axis[i].mode.map (·.lCur)).getD 0
  if x.motorOpts.getLsbD 2 && !s.axis[i].aligning then
    ((t + halfEvenR (elecRate i (measuredVel i s) s * advanceTime i l s * 4294967296)) % 4294967296).toNat
  else t

/-- A three-phase or BLDC current loop (R190, R198, R199). -/
def sampleThree (i : Fin 64) (committed : Option (Nat × Region)) (s : State) : State × List Int :=
  let t := elecAngle i s
  let c := dqCurrents i t s
  let bldc := driveOf i s == 1
  let q : LoopIn :=
    { errors := [if bldc then {} else toBf (-c.1), toBf (ofQ31 (currentSp i s) - c.2)], ff := omegaTerms i c.1 c.2 s,
      vLim := some (vLimit i s), circle := true }
  let r := runLoop i 0 q committed s
  let o := r.1.map toQ31
  let vd := if bldc then 0 else (o.getD 0 (0, false)).1
  let vq := (o.getD 1 (0, false)).1
  let w := inversePark vd vq (vectorAngle i t s)
  let s1 := storeCurrents i c.1 c.2 vd vq w r.2
  let s2 := onLoopSt i 0 (fun y => { y with sat := y.sat || o.any (·.2) }) s1
  let d := if modulation i s = 2 then sixStepDuties (sectorOf i t s) vq (vDc i s) else threeDuties (modulation i s) w (vDc i s)
  (s2, legResult d (signs (threeCurrents i t s)))

/-- A single-phase current loop (R190, R199). -/
def sampleSingle (i : Fin 64) (committed : Option (Nat × Region)) (s : State) : State × List Int :=
  let c := (phaseCurrents i s).headD 0
  let q : LoopIn := { errors := [toBf (ofQ31 (currentSp i s) - c)], ff := [0], vLim := some (vLimit i s) }
  let r := runLoop i 0 q committed s
  let o := toQ31 (r.1.headD 0)
  let s1 := storeCurrents i c 0 o.1 0 (ofQ31 o.1, 0) r.2
  let s2 := onLoopSt i 0 (fun y => { y with sat := y.sat || o.2 }) s1
  (s2, legResult (bridgeDuties o.1 (vDc i s)) (signs [c, -c]))

/-- Amplitude of a stepper's current: the amplitude in force at open-loop stepping, else the outer loop's output clamped to
it (R284). -/
def stepperAmp (i : Fin 64) (s : State) : Int :=
  let a := s.stepper.slot[i].amp
  if depthOf i s = 0 then a
  else if depthOf i s = 1 then s.axis[i].curSp
  else clampInt (-a) a (currentSp i s)

/-- The quiet phase voltages, Q1.31 of VOLTAGE_FS, limited to V_lim, and whether a limit was reached (R282). -/
def quietVolts (i : Fin 64) (s : State) : Int × Int × Bool :=
  let x := s.loop.slot[i]
  let y := s.stepper.slot[i]
  let t := elecAngle i s
  let c := ofQ31 (cosine t)
  let n := ofQ31 (sine t)
  let w := 2 * ratPi * ofQ24 y.rate / 1024
  let cur := ofQ31 y.amp * ampsFs x
  let r := binary64 x.motorR
  let l := binary64 x.motorLd
  let psi := binary64 x.motorPsi
  let lim := vLimit i s
  let a := mant (perVolts (cur * (r * c - w * l * n) - psi * w * n) x)
  let b := mant (perVolts (cur * (r * n + w * l * c) + psi * w * c) x)
  let va := toQ31 (clampR (-lim) lim a)
  let vb := toQ31 (clampR (-lim) lim b)
  (va.1, vb.1, va.2 || vb.2 || decide (lim < absR a) || decide (lim < absR b))

/-- Errors of a stepper's phases: set-points less measured currents (R190, R198). -/
def phaseErrors (i : Fin 64) (s : State) : List Bf :=
  let cur := phaseCurrents i s
  let sp := stepperPair (stepperAmp i s) (elecAngle i s)
  [toBf (sp.1 - cur.headD 0), toBf (sp.2 - cur.getD 1 0)]

/-- A stepper's phases, strong: cascades A and B on the measured currents (R198, R282). -/
def sampleStrong (i : Fin 64) (committed : Option (Nat × Region)) (s : State) : State × List Int :=
  let cur := phaseCurrents i s
  let ia := cur.headD 0
  let ib := cur.getD 1 0
  let r := runLoop i 0 { errors := phaseErrors i s, ff := [0, 0], vLim := some (vLimit i s) } committed s
  let o := r.1.map toQ31
  let va := (o.getD 0 (0, false)).1
  let vb := (o.getD 1 (0, false)).1
  let s1 := storeCurrents i ia ib va vb (ofQ31 va, ofQ31 vb) r.2
  let s2 := onLoopSt i 0 (fun y => { y with sat := y.sat || o.any (·.2) }) s1
  (s2, legResult (bridgeDuties va (vDc i s) ++ bridgeDuties vb (vDc i s)) (signs [ia, -ia, ib, -ib]))

/-- A stepper's phases, quiet: no regulation (R282). -/
def sampleQuiet (i : Fin 64) (s : State) : State × List Int :=
  let v := quietVolts i s
  let cur := if hasCurrents s.axis[i].bind s then phaseCurrents i s else []
  let s1 := onLoopSt i 0 (fun y => { y with sat := v.2.2 }) (storeCurrents i (cur.headD 0) (cur.getD 1 0) v.1 v.2.1 (ofQ31 v.1, ofQ31 v.2.1) s)
  (s1, legResult (bridgeDuties v.1 (vDc i s) ++ bridgeDuties v.2.1 (vDc i s)) [0, 0, 0, 0])

/-- The states of a cascade whose next output on input `x` is `v`: the integrator section makes up what the other terms lack
(R283). -/
def presetCascade (l : LoopSt) (coef : List SecCoef) (st : List SecState) (x : Bf) (v : Int) : List SecState :=
  let full := (List.range l.n).map fun k => st.getD k ({} : SecState)
  let rest := full.dropLast ++ [({} : SecState)]
  let secs := (List.range l.n).map fun k => (coef.getD k {}, coef.getD k {}, rest.getD k ({} : SecState))
  let r := renormalise [ofQ31 v - (cascade l.integ secs x.val x.e).y]
  full.dropLast ++ [{ s1 := r.2.1.headD 0, e := r.1 }]

/-- Preset each cascade's integrator so that the first strong output continues the quiet one (R283). -/
def presetStrong (i : Fin 64) (s : State) : State :=
  let v := quietVolts i s
  let e := phaseErrors i s
  onLoopSt i 0 (fun y =>
    let r := y.region[Fin.ofNat 8 y.inForce]
    { y with stA := presetCascade y r.casA y.stA (e.headD {}) v.1, stB := presetCascade y r.casB y.stB (e.getD 1 {}) v.2.1 }) s

/-- Velocity set-point of a slot's velocity loop per unit of VELOCITY_FS: the position loop's released output, or its own (R190);
under a ramp-down that of the ramp (R214). -/
def velocitySp (i : Fin 64) (s : State) : Rat :=
  let x := s.loop.slot[i]
  let a := s.axis[i]
  if depthOf i s = 3 ∧ a.st ≠ .reacting then ofQ31 ((x.lp[(2 : Fin 3)]).released.headD 0) else perUnitIn a.velSp x.velFs

/-- The acceleration feedforward of a velocity loop, K_AFF times its source's (R200): per unit of CURRENT_FS with the acceleration
in counts/s² (DESIGN CHOICE, log 49: the manual gives K_AFF no unit). -/
def accelTerm (i : Fin 64) (s : State) : Rat := mant (binary64 s.loop.slot[i].kAff * ofQ24 s.axis[i].accFf)

/-- A velocity loop's sample (R190, R200, R214): its output in Q1.31. -/
def sampleVel (i : Fin 64) (committed : Option (Nat × Region)) (s : State) : State × List Int :=
  let x := s.loop.slot[i]
  let a := s.axis[i]
  let v := if rampingDown a then rampSpeed i s else measuredVel i s
  let cyc := if (feedingMaps i (· == 0x05) s).isEmpty then 0 else ofQ31 a.curFf
  let ff : Rat := (if x.kAff = 0 ∨ a.accFf = 0 then 0 else accelTerm i s) + cyc
  let r := runLoop i 1 { errors := [toBf (velocitySp i s - perUnitIn v x.velFs)], ff := [ff] } committed s
  let o := toQ31 (r.1.headD 0)
  (onLoopSt i 1 (fun y => { y with sat := y.sat || o.2 }) r.2, [o.1])

/-- The following error at a position sample, with its warning and its limit (R201); outside the in-position window it
restarts the wait for TARGET_REACHED (R154). -/
def followingError (i : Fin 64) (s : State) : State :=
  let x := s.loop.slot[i]
  let fe := s.axis[i].posSp - measuredPos i s
  let n : Int := fe.natAbs
  let excess := x.feLimit ≠ 0 ∧ x.feLimit < n
  let seen := if excess then x.feSeen + 1 else 0
  let s1 := onLSlot i (fun x => { x with fe := fe, feSeen := seen }) s
  let s2 := onAx i (fun a => { a with feWarning := decide (x.feWarn ≠ 0 ∧ x.feWarn < n) }) s1
  let w := (s.plan.ax[i].cfg.map (·.window)).getD 0
  let s3 := if w < n ∧ s.plan.ax[i].windowSince.isSome then onPax i (fun y => { y with windowSince := some s.now }) s2 else s2
  if excess ∧ seen = x.feCount then axisFault i 9 0 s3 else s3

/-- Velocity feedforward of a position loop: the cyclic one where an enabled map writes it, else the source's (R200). -/
def velFeed (i : Fin 64) (s : State) : Int :=
  let a := s.axis[i]
  if (feedingMaps i (· == 0x04) s).isEmpty then a.velFf else a.cycVel.getD a.velFf

/-- A position loop's sample (R190, R197, R200). -/
def samplePos (i : Fin 64) (committed : Option (Nat × Region)) (s : State) : State × List Int :=
  let x := s.loop.slot[i]
  let e := toBf (perUnit x.fe x.posFs)
  let v := velFeed i s
  let ff : Rat := if v = 0 then 0 else mant (binary64 x.kVff * perUnitIn v x.velFs)
  let r := runLoop i 2 { errors := [e], ff := [ff] } committed s
  let o := toQ31 (r.1.headD 0)
  (onLoopSt i 2 (fun y => { y with sat := y.sat || o.2 }) r.2, [o.1])

end Sys2Proof.Machine
end

