-- ==== Sys2Proof/Machine/LoopSample.lean ====
section
/-! DEFINITION.
What a slot does at a sample instant: its set-point source, its stepper state, its loops, its outputs
(R130 to R134, R139, R144, R189 to R191, R198 to R214, R280 to R288, R449). -/

namespace Sys2Proof.Machine

/-! Set-point sources at the outermost loop's sample (Table 6.7). -/

/-- The acceleration feedforward of the set-point source (R144, R200). -/
def setAcc (i : Fin 64) (a : Int) (s : State) : State := onAx i (fun x => { x with accFf := a }) s

/-- The tick of a loop's sample instant: now, or t_s of a remote slot's cycle (R254, R296). -/
def sampleTick (i : Fin 64) (s : State) : Nat :=
  let b := s.axis[i].bind
  match (if b.location = 2 then cycleTs (slotFrameGroup b s) s else none) with
  | some t => (s.ofTb0 t / 2).toNat
  | none => s.now

/-- The inner sample of a slot has been taken at this instant. -/
def innerTaken (i : Fin 64) (s : State) : Bool := (s.loop.slot[i].lp[(0 : Fin 3)]).sampledAt == some (sampleTick i s)

/-- The planner's extrapolation between its boundaries (R144). -/
def plannerSample (i : Fin 64) (s : State) : State :=
  let x := s.plan.ax[i]
  let t := secs (sampleTick i s - x.boundary)
  let inGroup := ((memberOf i s).map fun g => s.plan.grp[g].running).getD false
  let moving := !x.segs.isEmpty || inGroup
  let s1 := setAcc i (if moving then x.acc else 0) s
  if t = 0 ∨ !moving then s1
  else
    let v := ofQ24 x.vel
    let a := ofQ24 x.acc
    let vel := roundOpen ((v + a * t) * 16777216)
    setPoint i (roundOpen ((ofQ16 x.pos + v * t + a * t * t / 2) * 65536)) (if depthOf i s = 2 then vel else s.axis[i].velSp) vel s1

/-- A value in a set-point's own format, at the slot's depth (Table 6.7): position, velocity, current, or at open-loop
stepping a step rate. -/
def feedValue (i : Fin 64) (v : Int) (rate : Bool) (s : State) : State :=
  let a := s.axis[i]
  match depthOf i s with
  | 3 => setPoint i v a.velSp a.velFf s
  | 2 => setPoint i a.posSp v v s
  | 1 => setPoints i a.posSp a.velSp a.velFf v s
  | _ =>
    if rate then setPoint i (spBase a + roundOpen (ofQ24 v * secs (outerTicks a) * 65536)) a.velSp v s
    else setPoint i v a.velSp a.velFf s

/-- Analogue follow (R208, R209): while the source is held, an open-loop slot keeps stepping at the held rate. -/
def analogueSample (i : Fin 64) (s : State) : State :=
  let x := s.loop.slot[i]
  let s1 := onLSlot i (fun x => { x with ainSum := 0, ainN := 0 }) s
  if x.ainHold ∨ x.ainN = 0 then (if depthOf i s = 0 then feedValue i s.axis[i].velFf true s1 else s1)
  else
    let c0 := halfEven x.ainSum x.ainN - x.folOffset
    let c := if (c0.natAbs : Int) ≤ x.folDead then 0 else c0 - c0.sign * x.folDead
    feedValue i (clampInt x.folMin x.folMax (c * x.folGain)) true s1

/-- Pulse follow (R210): position and open-loop stepping advance exactly, velocity is rounded towards zero. -/
def pulseSample (i : Fin 64) (s : State) : State :=
  let a := s.axis[i]
  match a.mode with
  | none => s
  | some m =>
    let p := s.ports.port[Fin.ofNat 32 m.srcIndex]
    let raw := (p.edgeFwd - p.edgeRev).toInt
    let d := raw - (s.loop.slot[i].pulseLast.getD raw)
    let c := signed 16 m.srcScale
    let s1 := onLSlot i (fun x => { x with pulseLast := some raw }) s
    if depthOf i s = 2 then
      let v : Rat := (d * c * 16777216 : Int) / secs (max (outerTicks a) 1)
      let z := towardsZero v.num v.den
      setPoint i a.posSp z z s1
    else setPoint i (spBase a + d * c * 65536) a.velSp a.velFf s1

/-- Plug-in (R449): a fresh commit is taken; staleness is counted and may fault the slot. A commit at this very instant is left for the
next sample. -/
def pluginSample (i : Fin 64) (s : State) : State :=
  let p := s.lanes.spt[i]
  let now := p.commitAt == some s.sysTick
  let x := if now then p.before else p.value
  if (if now then p.wasCommitted else p.committed) then
    let s1 := s.onLanes fun l => { l with spt := upd l.spt i fun p => { p with
      committed := now, wasCommitted := false, fresh := true, stale := 0 } }
    let v := if depthOf i s = 1 then (x.truncate 32).toInt else x.toInt
    feedValue i v false s1
  else
    let n := p.stale + 1
    let stall := decide (p.stallLimit ≤ n)
    let s1 := s.onLanes fun l => { l with spt := upd l.spt i fun p => { p with fresh := false, stale := n, fStall := p.fStall || stall } }
    if stall then axisFault i 13 0 s1 else s1

/-- A source chosen in standstill takes over, starting from the actual position (R139). -/
def takeSource (i : Fin 64) (s : State) : State :=
  let a := s.axis[i]
  match a.nextSource with
  | none => s
  | some (src, ix, sc) =>
    let p := measuredPos i s
    let s1 := onAx i (fun a => { a with
      nextSource := none, mode := a.mode.map fun m => { m with source := src, srcIndex := ix, srcScale := sc },
      posSp := p, velSp := 0, velFf := 0, accFf := 0 }) s
    onLSlot i (fun x => { x with ainSum := 0, ainN := 0, pulseLast := none }) (onPax i (fun y => { y with pos := p, vel := 0, acc := 0 }) s1)

/-- A link that does not feed its slave: a declutched one keeps evaluating, a waiting one watches its master (R185). -/
def gearSkip (i : Fin 64) (s : State) : State := if s.gear.link[i].engage = 2 then s else gearSample i s

/-- The source of an Enabled slot at its outermost sample. Only the planner gives an acceleration feedforward. It is held while the forced frame is in use (R213), and the planner's
while it stops the slot (R165). -/
def sourceSample (i : Fin 64) (s : State) : State :=
  let s1 := setAcc i 0 (takeSource i s)
  if s1.loop.slot[i].obsStart then s1
  else if planBusy i s1 then plannerSample i (gearSkip i s1)
  else
    match sourceOf i s1 with
    | 0 => plannerSample i (gearSkip i s1)
    | 1 => gearSample i s1
    | 2 => gearSample i s1
    | 3 => analogueSample i (gearSkip i s1)
    | 4 => pulseSample i (gearSkip i s1)
    | 6 => pluginSample i (gearSkip i s1)
    | _ => gearSkip i s1

/-! The stepper at an inner sample (R280, R283 to R288, 12). -/

/-- A linear ramp from `a` to `b` over `total` ticks since a tick. -/
def rampAmp (a b : Int) (total since now : Nat) : Int :=
  if total ≤ now - since then b else roundOpen ((a : Rat) + ((b - a : Int) : Rat) * (((now - since : Nat) : Rat) / (total : Rat)))

/-- Does the standstill policy reduce the current (Table 12.1)? -/
def reduces (a : Axis) : Bool := match a.mode with
  | some m => decide (3 ≤ m.standstill)
  | none => false

/-- Is a set-point change, or a planner command, waiting for the wake ramp (R288)? -/
def wakeWaits (i : Fin 64) (s : State) : Bool := s.axis[i].waitSp.isSome || planBusy i s

/-- Length of the wake ramp: WAKE_RAMP, or one inner period for 0 (R288). -/
def wakeTicks (i : Fin 64) (s : State) : Nat :=
  let y := s.stepper.slot[i]
  if y.wakeRamp = 0 then (s.axis[i].mode.map (·.period)).getD 0 else 500000 * y.wakeRamp

/-- The amplitude in force (R284, R288). -/
def stepperAmplitude (i : Fin 64) (s : State) : Int :=
  let y := s.stepper.slot[i]
  let a := s.axis[i]
  if y.phase = 1 ∧ reduces a then rampAmp y.iRun y.iHold (500000 * y.holdRamp) y.phaseStart s.now
  else if y.phase = 2 ∧ reduces a then y.iHold
  else if y.phase = 5 then
    rampAmp 0 (if wakeWaits i s || !reduces a then y.iRun else y.iHold) (wakeTicks i s) y.phaseStart s.now
  else y.iRun

/-- Period of the inner loop, ticks. -/
def innerTicks (a : Axis) : Nat := (a.mode.map (·.period)).getD 0

/-- Units of 2^-24 count × 2 ns that make one count. -/
def speedUnit : Int := 16777216 * 500000000

/-- The microstep command follows the position set-point, or integrates the velocity set-point where no position commands it: at
velocity depth and in a ramp-down (R129, R214; DEDUCED, log 49). Every change is booked as issued (R144, R280, R289). -/
def microsteps (i : Fin 64) (s : State) : State :=
  let y := s.stepper.slot[i]
  let a := s.axis[i]
  let moves := depthOf i s == 2 || rampingDown a
  let sum := y.mRem + a.velSp * (innerTicks a : Int)
  let m := if moves then y.m + sum.fdiv speedUnit else if depthOf i s = 0 ∨ depthOf i s = 3 then a.posSp / 65536 else y.m
  onStep i (fun y => { y with
    mPrev := y.m, m := m, mRem := if moves then sum - speedUnit * sum.fdiv speedUnit else 0,
    issuedFwd := bumpFwd y.issuedFwd (m - y.m), issuedRev := bumpRev y.issuedRev (m - y.m) }) s

/-- The microstep rate v (R282, R283): the velocity set-point where it moves the command, the rate of a source that gives one, else
the change of the set-point since the last inner sample; 0 at standstill (R284). -/
def microRate (i : Fin 64) (s : State) : Int :=
  let a := s.axis[i]
  if a.standstill then 0
  else if depthOf i s = 2 ∨ rampingDown a then a.velSp
  else if planBusy i s ∨ sourceOf i s ≤ 3 then a.velFf
  else roundOpen (ofQ16 (a.posSp - s.stepper.slot[i].spPrev) / secs (max (innerTicks a) 1) * 16777216)

/-- Does the interval from one microstep position (excluded) to another (included) hold a phase-A zero, φ = 256 or 768
(R283)? -/
def crossesZero (y : Stepper) : Bool :=
  let lo := min y.mPrev y.m
  let hi := max y.mPrev y.m
  if hi = lo then false
  else
    -- the half-open interval, seen from its lower end
    let a := if y.mPrev < y.m then lo + 1 else lo
    let b := if y.mPrev < y.m then hi else hi - 1
    -- the next value of the form 256 + 512 k at or above a
    let r := (256 - (a - y.mOff)) % 512
    decide (a + r ≤ b)

/-- Quiet or strong at open-loop stepping in automatic operation (R283), no change being due at standstill (DEDUCED, log 49); above it
always strong (R282). -/
def stepperMode (i : Fin 64) (s : State) : State :=
  let y := s.stepper.slot[i]
  if 1 ≤ depthOf i s ∨ y.opMode = 1 then onStep i (fun y => { y with strong := true, changeDue := false }) s
  else if y.opMode = 0 then onStep i (fun y => { y with strong := false, changeDue := false }) s
  else if s.axis[i].standstill then onStep i (fun y => { y with changeDue := false }) s
  else
    let v : Int := y.rate.natAbs
    let due := if y.strong then decide (v < y.vSw - y.hyst) else decide (y.vSw + y.hyst ≤ v)
    if !due then onStep i (fun y => { y with changeDue := false }) s
    else if crossesZero y then
      let s1 := if y.strong then s else presetStrong i s
      event 0x0602 i.val [] (onStep i (fun y => { y with strong := !y.strong, changeDue := false, fSwitched := true }) s1)
    else onStep i (fun y => { y with changeDue := true }) s

/-- A stepper slot's inner sample, in order: microstep, amplitude, operation. -/
def stepperSample (i : Fin 64) (s : State) : State :=
  let s1 := if stepAngle i s then microsteps i s else s
  let s2 := onStep i (fun y => { y with amp := stepperAmplitude i s1, rate := microRate i s1, spPrev := s1.axis[i].posSp }) s1
  stepperMode i s2

/-! Waiting set-points (R132, R285, R288). -/

/-- A set-point change that waits: one inner sample after re-engagement, or with a stepper's amplitude back, it is applied. -/
def waitingSample (i : Fin 64) (s : State) : State :=
  let a := s.axis[i]
  match a.waitSp with
  | none => s
  | some (p, v, f, c) =>
    if parked a ∨ a.reengage ∨ s.stepper.slot[i].phase = 5 then s
    else if 0 < a.waitN then
      onStep i (fun y => if 1 ≤ y.phase ∧ y.phase ≤ 2 then { y with phase := 0 } else y)
        (onAx i (fun a => { a with waitN := a.waitN - 1, standstill := false, spChange := s.now }) s)
    else
      setPoints i p v f c (onAx i (fun a => { a with waitSp := none, waitN := 0 }) s)

/-! The observer (R211 to R213, 09). -/

/-- Least speed of validity: as set, else 5 % of VELOCITY_FS (R217). -/
def obsMinimum (x : LoopSlot) : Rat := match x.obsMin with
  | some v => (v : Rat)
  | none => (x.velFs : Rat) / 20

/-- Speed the forced frame ramps to: as set, else 10 % of VELOCITY_FS (R217). -/
def startTop (x : LoopSlot) : Rat := match x.startSpeed with
  | some v => (v : Rat)
  | none => (x.velFs : Rat) / 10

/-- The observer becomes valid in service of the commutation: the angle goes over, the velocity loop's integrator takes the q current
now measured, and the set-point source starts from the actual state (R213): the measured position, at velocity depth the
speed (DEDUCED, log 49). -/
def observerTakes (i : Fin 64) (s : State) : State :=
  if !s.loop.slot[i].obsStart then s
  else
    let s1 := onLSlot i (fun x => { x with obsStart := false, obsServed := true }) s
    let q := (toQ31 (dqCurrents i (elecAngle i s1) s1).2).1
    let s2 := onLoopSt i 1 (fun l => if l.integ then
      { l with stA := (l.stA ++ List.replicate (8 - l.stA.length) ({} : SecState)).zipIdx.map fun (e : SecState × Nat) =>
          if e.2 + 1 = l.n then { s1 := q, s2 := 0, y := e.1.y, e := 0 } else e.1 } else l) s1
    let p := measuredPos i s2
    let v := if depthOf i s2 = 2 then measuredVel i s2 else 0
    onPax i (fun y => { y with pos := p, vel := v, acc := 0 }) (onAx i (fun a => { a with posSp := p, velSp := v, velFf := v, accFf := 0 }) s2)

/-- Currents at a sample in the frame the observer works in (R211): stationary for three-phase and BLDC slots, per phase for steppers,
direct for single-phase ones. -/
def observerCurrents (i : Fin 64) (s : State) : Rat × Rat :=
  let l := phaseCurrents i s
  if driveOf i s ≤ 1 then clarke l.length (threeCurrents i (elecAngle i s) s) else (l.headD 0, l.getD 1 0)

/-- One component of the back-EMF, in volts: v - R i - L di/dt with the voltage applied since the last sample and the currents, per
unit, of this and of the last one (R211). -/
def backEmf (i : Fin 64) (v last : Int) (cur : Rat) (s : State) : Rat :=
  let x := s.loop.slot[i]
  let amps := cur * ampsFs x
  let l := binary64 x.motorLd
  let ind := if driveOf i s ≤ 1 ∧ x.motorLq ≠ x.motorLd then ofQ31 (Config.fixedStage 24 [x.obsAngle.toNat, x.motorLd.toNat, x.motorLq.toNat]) else l
  ofQ31 v * voltsFs x - binary64 x.motorR * amps - ind * ((amps - ofQ31 last * ampsFs x) / secs (max (innerTicks s.axis[i]) 1))

/-- A signed angle difference, 2^32 per revolution. -/
def angleError (a b : Int) : Int := (a - b + 2147483648) % 4294967296 - 2147483648

/-- Angle of a back-EMF, 2^32 per revolution, a quarter behind it, the sense of rotation given: that of the d axis. Without a
back-EMF it is a free value. -/
def emfAngle (e : Rat × Rat) (back : Bool) (last : Word) : Int :=
  if e.1 = 0 ∧ e.2 = 0 then Config.fixedStage 27 [last.toNat] % 4294967296
  else
    let sg : Int := if back then -1 else 1
    halfEven (angleOf (-sg * (e.1.num * (e.2.den : Int))) (sg * (e.2.num * (e.1.den : Int))) * 4294967296) fixTurn % 4294967296

/-- The observer's new speed, angle and phase error. A single-phase slot's speed is the back-EMF over ψ; of the others a phase-locked
loop of bandwidth OBS_BW tracks the back-EMF, whose law the manual leaves to the device: a free value of the phase error, its
state, the bandwidth and the period (log entry 11). -/
def observerTracks (i : Fin 64) (e : Rat × Rat) (s : State) : (Int × Word × Int) × State :=
  let x := s.loop.slot[i]
  let t := innerTicks s.axis[i]
  let lim := clampInt (-(2 ^ 62)) (2 ^ 62 - 1)
  if 3 ≤ driveOf i s then
    let psi := binary64 x.motorPsi
    let v := if psi = 0 then Config.fixedStage 25 [e.1.num, e.1.den]
      else roundOpen (e.1 / psi * ofQ16 x.elecCounts / (2 * ratPi) * 16777216)
    ((lim v, x.obsAngle, 0), s)
  else
    let err := angleError (emfAngle e (decide (x.obsSpeed < 0)) x.obsAngle) x.obsAngle.toNat
    let (n, s1) := freshNat s
    let args := [err, x.obsSpeed, x.obsAngle.toNat, x.obsBw, t, x.elecCounts, n]
    ((lim (Config.fixedStage 22 args), BitVec.ofInt 32 (Config.fixedStage 23 args), err), s1)

/-- The observer at a current sample (R211): it tracks the back-EMF, its speed is integrated exactly into a position over one inner
period, and its validity follows R212, 20° and 45° being parts of 2^32. -/
def observerSample (i : Fin 64) (s : State) : State :=
  let x0 := s.loop.slot[i]
  if !senses s.axis[i].bind s || !x0.motorSet then s
  else
    let c := observerCurrents i s
    let r := observerTracks i (backEmf i x0.vAlpha x0.iAlpha c.1 s, if 3 ≤ driveOf i s then 0 else backEmf i x0.vBeta x0.iBeta c.2 s) s
    let v := r.1.1
    let err : Int := r.1.2.2.natAbs
    let sum := x0.obsRem + v * (innerTicks s.axis[i] : Int)
    let unit : Int := 256 * 500000000
    let good := if 360 * err < 20 * 4294967296 then min (x0.obsGood + 1) 32 else 0
    let bad := if 45 * 4294967296 ≤ 360 * err then min (x0.obsBad + 1) 8 else 0
    let n : Rat := (v.natAbs : Rat)
    let valid := if x0.obsValid then !(decide (n < obsMinimum x0 * 8 / 10) || bad == 8)
      else decide (obsMinimum x0 ≤ n) && good == 32
    let s1 := onLSlot i (fun x => { x with
      obsSpeed := v, obsAngle := r.1.2.1, obsPos := x.obsPos + sum.fdiv unit, obsRem := sum - unit * sum.fdiv unit,
      iAlpha := (toQ31 c.1).1, iBeta := (toQ31 c.2).1, obsGood := good, obsBad := bad, obsValid := valid }) r.2
    if valid = x0.obsValid then s1
    else if valid then observerTakes i (event 0x0306 i.val [0] s1)
    else event 0x0307 i.val [0] s1

/-- Speed of the forced frame: the start ramp until the observer has first been valid, then the velocity set-point (R213). -/
def frameSpeedOf (i : Fin 64) (s : State) : Rat :=
  let x := s.loop.slot[i]
  if x.obsServed then velocitySp i s * (x.velFs : Rat)
  else
    let total := 500000 * x.startMs
    let t := s.now - x.frameStart
    if total ≤ t then startTop x else startTop x * ((t : Rat) / ((max total 1 : Nat) : Rat))

/-- The frame's angle moves on by one inner period at a speed, its fraction carried (R213, R214). -/
def frameTurn (i : Fin 64) (v : Int) (s : State) : State :=
  let x := s.loop.slot[i]
  let a := elecRate i v s * secs (innerTicks s.axis[i]) * 4294967296 + (x.frameRem : Rat) / 4294967296
  onLSlot i (fun x => { x with
    frameAngle := x.frameAngle + BitVec.ofInt 32 a.floor,
    frameRem := ((a - (a.floor : Rat)) * 4294967296).floor }) s

/-- The angle the first forced frame after Enabling begins at is stated nowhere, so it is free (log entry 49).
The forced frame of a slot whose commutation uses the observer, in use while the observer is invalid (R213), and the angle under
a ramp-down once it is (R214). Outside them the frame stays at the angle in use, where it takes over. -/
def frameSample (i : Fin 64) (s : State) : State :=
  let x := s.loop.slot[i]
  let a := s.axis[i]
  if rampingDown a then (if x.heldQ.isSome then frameTurn i a.velSp s else onLSlot i (fun x => { x with frameAngle := x.obsAngle, frameRem := 0 }) s)
  else if observerAngle a && !x.obsValid then
    let s1 := if x.obsStart ∨ x.obsServed then s
      else
        let r := freshNat s
        onLSlot i (fun x => { x with frameAngle := BitVec.ofNat 32 r.1, frameRem := 0 }) r.2
    frameTurn i (roundOpen (frameSpeedOf i s)) (onLSlot i (fun x => { x with obsStart := true }) s1)
  else if driveOf i s ≤ 1 then onLSlot i (fun x => { x with frameAngle := BitVec.ofNat 32 (elecAngle i s), frameRem := 0 }) s
  else s

/-! The inner sample. -/

/-- Enabling at an inner sample: alignment is watched, a brick has eight cycles to report, and the last step completes
(R134, R306). -/
def enablingSample (i : Fin 64) (s : State) : State :=
  let a := s.axis[i]
  if a.aligning then
    let moved := decide (s.loop.slot[i].elecCounts ≤ 16 * ((measuredPos i s - a.alignStart).natAbs : Int))
    onAx i (fun a => { a with alignMoved := a.alignMoved || moved }) s
  else if a.bind.location = 2 then
    if a.brickEnabled then slotEnabled i s
    else if 8 ≤ a.enableCycles + 1 then axisFault i 11 0 s
    else onAx i (fun a => { a with enableCycles := a.enableCycles + 1 }) s
  else if a.zeroVector then slotEnabled i s
  else s

/-- A remote slot has no leg groups whose boundary could carry its zero vector or its re-engagement: they happen at its
inner sample. -/
def remoteZero (i : Fin 64) (s : State) : State :=
  if s.axis[i].bind.location = 2 then overrideReleased i s else s

/-- What the slot measures at its inner sample, for cyclic maps and status. -/
def measureSample (i : Fin 64) (s : State) : State :=
  let p := measuredPos i s
  let v := measuredVel i s
  onAx i (fun a => { a with posAct := p, velAct := v, curAct := s.loop.slot[i].iQ }) s

/-- The ramp-down at an inner sample: once the observer is invalid the q current is held at its last value (R214); how long the speed
has stayed below 0.5 % of VELOCITY_FS (R134). -/
def rampWatch (i : Fin 64) (s : State) : State :=
  let x := s.loop.slot[i]
  let held := if x.heldQ.isNone ∧ !x.obsValid then some x.iQ else x.heldQ
  let v := if held.isNone then x.obsSpeed else s.axis[i].velSp
  let slow := decide (200 * (v.natAbs : Int) < x.velFs)
  onAx i (fun a => { a with slowSince := if slow then some (a.slowSince.getD s.now) else none })
    (onLSlot i (fun x => { x with heldQ := held }) s)

/-- The set-point of the ramp-down moves on by one velocity period, or by an inner one where no velocity loop runs (R214). -/
def rampDown (i : Fin 64) (s : State) : State :=
  match s.axis[i].mode with
  | none => s
  | some m =>
    let t := if 2 ≤ m.depth then m.period * max m.velDiv 1 else m.period
    let d := roundOpen (ofQ24 m.reactDecel * secs t * 16777216)
    let v := s.axis[i].velSp
    onAx i (fun a => { a with velSp := if (v.natAbs : Int) ≤ d then 0 else v - v.sign * d }) s

/-- What a slot under the ramp-down does at its inner sample besides its loops (R134, R214). -/
def rampSample (i : Fin 64) (s : State) : State :=
  if !rampingDown s.axis[i] then s else rampWatch i (if depthOf i s < 2 then rampDown i s else s)

/-- The inner sample instant of a slot: every slot measures and observes (R211); the rest is that of its state. -/
def innerSample (i : Fin 64) (s : State) : State :=
  let a := s.axis[i]
  let s1 := observerSample i (measureSample i (remoteZero i (onLSlot i (fun x => { x with samples := x.samples + 1 }) s)))
  if a.st = .enabling then enablingSample i s1
  else if a.st = .enabled ∨ a.st = .reacting then
    let s2 := frameSample i (rampSample i s1)
    let s3 := waitingSample i s2
    if driveOf i s = 2 then stepperSample i s3 else s3
  else s1

/-! Loops. -/

/-- Does the slot's current loop, or another loop, run now? -/
def loopActive (i : Fin 64) (k : Fin 3) (s : State) : Bool :=
  let a := s.axis[i]
  match a.st with
  | .enabled => !parked a && !a.reengage && !a.stopShort && !a.legsOff
  | .reacting => a.reaction == some 2 && k != 2
  | .enabling => a.aligning && k == 0
  | _ => false

/-- Run a loop's stages and put its result on its way (R189, R190). -/
def runSample (i : Fin 64) (k : Fin 3) (committed : Option (Nat × Region)) (s : State) : State :=
  let r := match k with
    | 0 => match driveOf i s with
      | 0 => sampleThree i committed s
      | 1 => sampleThree i committed s
      | 2 => if s.stepper.slot[i].strong then sampleStrong i committed s else sampleQuiet i s
      | _ => sampleSingle i committed s
    | 1 => sampleVel i committed (if s.axis[i].st == AxisState.reacting then rampDown i s else s)
    | _ => samplePos i committed s
  onLoopSt i k (fun y => { y with
    computing := some r.2, computingLate := false, sampleAt := sampleTick i s, sinceLate := y.sinceLate.map (· + 1) }) r.1

/-- SATURATED of the axis status word: some loop reached a limit in its last cycle (R202, Table 6.13). -/
def saturation (i : Fin 64) (s : State) : State :=
  onAx i (fun a => { a with saturated := (List.finRange 3).any fun (k : Fin 3) => (s.loop.slot[i].lp[k]).sat }) s

/-- What a loop sample evaluates first: the speed of each port the slot names (R236); and at an outer-loop sample the
reported position is kept for 1 ms (R248). -/
def portsSample (i : Fin 64) (k : Fin 3) (m : AxisMode) (s : State) : State :=
  let s1 := (slotPorts s.axis[i]).foldl (fun s (p : Nat) => evalSpeed (Fin.ofNat 32 p) s) s
  if k = outerLoop m.depth then
    onAx i (fun a => { a with posHist := (2 * sampleTick i s, measuredPos i s) :: (a.posHist.takeWhile fun e => decide (s.nowNs < e.1 + 1000000)) ++
      ((a.posHist.dropWhile fun e => decide (s.nowNs < e.1 + 1000000)).take 1) }) s1
  else s1

/-! Sample instants (R22, R133, R254). -/

/-- Does the counter of a local slot's lowest-numbered group stand at its sample point (R254)? -/
def atSamplePoint (a : Axis) (s : State) : Bool :=
  match slotGroups a.bind with
  | g :: _ =>
    let y := s.bta.grp[g]
    y.run && y.startDue.isNone && y.count == samplePoint y y.period.active.toNat
  | [] => false

/-- Is this a sample instant of a loop that is still to be taken? The inner loop samples where the group's counter equals SMP, or at a
cycle's record of a remote slot; the others at every divider-th inner sample, the first after Enabling being one (R133, R142, R254,
R296). A slot's loops sample in the order of the dealing (R24). -/
def sampleDue (i : Fin 64) (k : Fin 3) (m : AxisMode) (s : State) : Bool :=
  let a := s.axis[i]
  if k = 0 then !innerTaken i s && (a.bind.location == 2 || atSamplePoint a s)
  else innerTaken i s && (s.loop.slot[i].lp[k]).sampledAt != some (sampleTick i s) && (s.loop.slot[i].samples - 1) % loopDiv m k == 0

/-- Does a slot's outermost loop sample at this instant, whether or not it has done so yet? -/
def outerNow (i : Fin 64) (s : State) : Bool :=
  let a := s.axis[i]
  match a.mode with
  | none => false
  | some m =>
    let d := loopDiv m (outerLoop m.depth)
    let n := s.loop.slot[i].samples
    if innerTaken i s then (n - 1) % d == 0 else a.bind.location == 1 && atSamplePoint a s && n % d == 0

/-- The source of a slot at its outermost sample, once per instant; a slot that is not Enabled keeps its command position, and its link
goes on (R171, R174, R185). -/
def sourceOnce (i : Fin 64) (s : State) : State :=
  if s.axis[i].sourceAt = some s.now then s
  else
    let s1 := onAx i (fun a => { a with sourceAt := some s.now }) s
    if s1.axis[i].st = .enabled then onAx i (fun a => { a with cmdPos := a.posSp }) (sourceSample i s1) else gearSkip i s1

/-- The same, masters first along a chain of command positions (R173). -/
def sourceChain : Nat → Fin 64 → State → State
  | 0, i, s => sourceOnce i s
  | n + 1, i, s =>
    let l := s.gear.link[i]
    let j : Fin 64 := Fin.ofNat 64 l.mIndex
    sourceOnce i (if l.mode ≠ 0 ∧ l.mKind = 1 ∧ outerNow j s then sourceChain n j s else s)

/-- A loop that does not run applies no voltage (R211). -/
def loopIdle (i : Fin 64) (k : Fin 3) (s : State) : State :=
  if k = 0 then onLSlot i (fun x => { x with vAlpha := 0, vBeta := 0 }) s else s

/-- A loop of a slot samples now and has not yet (R22, R254). -/
def samplesNow (i : Fin 64) (k : Fin 3) (m : AxisMode) (s : State) : Bool :=
  let a := s.axis[i]
  ((slotLoops a.bind m s).contains k || k == 0) && recordHere a.bind s && sampleDue i k m s

/-- A loop's sample instant (R22, R189, R254), a token source (R437). Loads commit and locks are taken over at it in every state (R111, R205, R206). A loop that no operating point
admits faults here, the entry's detail holding the loop in its first byte and the predicted slack in its last two (R32; DESIGN
CHOICE, log 49); a position sample forms the following error (R201). -/
def loopSample (i : Fin 64) (k : Fin 3) (s : State) : State :=
  let a := s.axis[i]
  match a.mode with
  | none => s
  | some m =>
    let exist := (slotLoops a.bind m s).contains k
    if !samplesNow i k m s then s
    else
      let s0 := onLoopSt i k (fun y => { y with sampledAt := some (sampleTick i s) }) (if exist then occurs 3 i.val k.val s else s)
      let (s1, committed) := commitLoad i k (portsSample i k m (takeLock i k s0))
      if live a && s1.loop.slot[i].lp[k].slackFault then
        let y := s1.loop.slot[i].lp[k]
        axisFault i 2 (k.val * 0x1000000 + y.slack.toNat) (onLoopSt i k (fun y => { y with slackFault := false }) s1)
      else
        let s2 := if k = 0 then innerSample i s1 else s1
        let s3 := if k = outerLoop m.depth then sourceChain 8 i s2 else s2
        let s4 := if k = 2 ∧ loopActive i k s3 then followingError i s3 else s3
        let quiet := m.drive == 2 && m.depth == 0
        if loopActive i k s4 && (exist || quiet) then saturation i (runSample i k committed s4) else loopIdle i k s4

/-! Results (R21 to R23, R191, R199). -/

/-- L of a loop, ticks. -/
def loopL (i : Fin 64) (k : Fin 3) (s : State) : Nat := (s.axis[i].mode.map fun m => modeL m k).getD 0

/-- A leg's compares for a duty in 2^-32: a centred pulse, its on-time corrected by DTC with the sign of the current, each edge half of
it outward, rounded half to even to twice the leg's step (R199, R259). -/
def writeLoopDuty (n : Fin 96) (d sg : Int) (dtc : Nat) (s : State) : State :=
  let period := dutyPeriod s.bta.grp[legGroup n]
  let full : Int := 64 * period
  let step : Int := 2 * legStep n
  let on : Rat := (d : Rat) * (full : Rat) / 4294967296 + ((sg * (4 * dtc) : Int) : Rat)
  let w := clampInt 0 full (halfEvenR (on / (step : Rat)) * step)
  let a := (full - w) / 2
  let s1 := onLeg n (fun l => { l with
    cmpa := { l.cmpa with shadow := BitVec.ofInt 32 a }, cmpb := { l.cmpb with shadow := BitVec.ofInt 32 (a + w) }, legOff := false }) s
  onGrp (legGroup n) (fun g => { g with dirty := true }) s1

/-- Hand a current loop's result to its legs, and seal their groups (R21, R199, R263). -/
def releaseLegs (i : Fin 64) (r : List Int) (s : State) : State :=
  let legs := drivenLegs s.axis[i]
  let half := r.length / 2
  let s1 := (legs.zipIdx).foldl (fun s (e : Fin 96 × Nat) =>
    let d := r.getD e.2 0
    if d = legOpen then onLeg e.1 (fun l => { l with legOff := true }) s
    else writeLoopDuty e.1 d (r.getD (half + e.2) 0) s.loop.slot[i].dtc s) s
  let s2 := (legs.filter fun n => s1.bta.leg[n].legOff != s.bta.leg[n].legOff).foldl (fun s n => refreshLeg n s) s1
  (slotGroups s.axis[i].bind).foldl (fun s g => sealGroup g s) s2

/-- Hand a remote slot's duty vector to its outbound record (R199, Table 13.3). -/
def releaseBrick (i : Fin 64) (r : List Int) (s : State) : State :=
  let half := r.length / 2
  let d := r.take half
  onChannel i (fun c => { c with
    repeated := false
    codes := ((d.map fun x => if x = legOpen then 0 else (roundOpen ((x : Rat) * 65535 / 4294967296)).toNat) ++ [0, 0, 0, 0]).take 4
    legOff := BitVec.ofNat 4 ((List.range 4).foldl (fun n j => n + (if d.getD j legOpen = legOpen then 2 ^ j else 0)) 0) }) s

/-- The current loop of a remote slot: the launch of its group's frame releases it (Table 1.1A). -/
def byFrame (i : Fin 64) (k : Fin 3) (s : State) : Bool := k == 0 && s.axis[i].bind.location == 2

/-- A loop's release tick: sample + L, for a remote current loop t_s + launch (Table 1.1A, R297). -/
def releaseTick (i : Fin 64) (k : Fin 3) (s : State) : Nat :=
  let t := s.loop.slot[i].lp[k].sampleAt
  if byFrame i k s then
    ((t : Int) + launchAt (slotFrameGroup s.axis[i].bind s).val (loopL i k s) s / 2).toNat
  else t + loopL i k s

/-- The late path (R23): the previous output stays, the late counter, the event; a second late result within 1,000 cycles of
the loop faults the axis (one exactly 1,000 cycles later does not: DESIGN CHOICE, log 49). -/
def latePath (i : Fin 64) (k : Fin 3) (s : State) : State :=
  let l := s.loop.slot[i].lp[k]
  let s1 := onLoopSt i k (fun y => { y with
    computingLate := true, late := if y.late = 0xFFFF then y.late else y.late + 1, sinceLate := some 0, margin := 0 }) s
  let s2 := event 0x0001 i.val (be 1 k.val) s1
  let s3 := if k = 0 then onChannel i (fun c => { c with repeated := true }) s2 else s2
  match l.sinceLate with
  | some n => if n < 1000 then axisFault i 1 k.val s3 else s3
  | none => s3

/-- A loop's release tick, a token source whether or not the result is late (R437): the result in the ready register, or the late path for
one that is still computed (R21, R23). -/
def releaseLoop (i : Fin 64) (k : Fin 3) (s0 : State) : State :=
  let l := s0.loop.slot[i].lp[k]
  let s := if l.ready.isSome || (l.computing.isSome && !l.computingLate) then occurs 2 i.val k.val s0 else s0
  match l.ready with
  | some r =>
    let s1 := onLoopSt i k (fun y => { y with ready := none, released := r }) s
    let s1 := if k = 0 then onLSlot i (fun x => { x with relD := x.vD, relQ := x.vQ }) s1 else s1
    if k ≠ 0 then s1 else if s.axis[i].bind.location = 2 then releaseBrick i r s1 else releaseLegs i r s1
  | none => if l.computing.isNone ∨ l.computingLate then s else latePath i k s

/-- The phase latch of a loop at its release tick, never earlier (R21, R22, R191); a remote current loop is released by its
group's frame. -/
def loopRelease (i : Fin 64) (k : Fin 3) (s : State) : State :=
  if byFrame i k s || decide (s.now < releaseTick i k s) then s else releaseLoop i k s

/-- A loop's result reaches the ready register; after its release tick it is late and discarded (R23, R24). The margin to the
release tick is kept, 0 for a late result (R27). -/
def resultReady (i : Fin 64) (k : Fin 3) (s : State) : State :=
  let l := s.loop.slot[i].lp[k]
  match l.computing with
  | none => s
  | some r =>
    if l.computingLate ∨ releaseTick i k s < s.now then
      onLoopSt i k (fun y => { y with computing := none, computingLate := false }) (if l.computingLate then s else latePath i k s)
    else
      let due := releaseTick i k s
      let m := min (due - s.now) 0xFFFF
      onLoopSt i k (fun y => { y with
        computing := none, ready := some r, margin := BitVec.ofNat 16 (min y.margin.toNat m) }) s

end Sys2Proof.Machine
end

