-- ==== Sys2Proof/Machine/LoopOps.lean ====
section
/-! DEFINITION.
The Loop Engine class and the loop events (R21 to R24, 01; R208, R213 to R217, 09). -/

namespace Sys2Proof.Machine

/-- "Configuring states" (R216): Commissioning, or a Disabled slot. -/
def configuring (i : Fin 64) (s : State) : Bool := s.sys.dev == .commissioning || s.axis[i].st == .disabled

/-- The loop an opcode names: there, or the refusal of R217. -/
def loopDeny (rq : Request) (i : Fin 64) (s : State) : Option Deny :=
  match s.axis[i].mode with
  | none => some conflict
  | some m => if (slotLoops s.axis[i].bind m s).any (fun k => k.val == num rq 0x0100 0 1) then none else some (badValue rq 0x0100)

/-- The loop number of a request. -/
def loopNo (rq : Request) : Fin 3 := Fin.ofNat 3 (num rq 0x0100 0 1)

/-! LOOP_LOAD_CASCADE (R202, R206, R217). -/

/-- A section record in packet order (Table 9.8). -/
def sectionOf (bs : List Byte) : SecCoef :=
  { b0 := beInt (slice 0 4 bs), b1 := beInt (slice 4 4 bs), b2 := beInt (slice 8 4 bs), a1 := beInt (slice 12 4 bs),
    a2 := beInt (slice 16 4 bs), g := beInt (slice 20 1 bs) }

/-- The section records of a TLV. -/
def sectionsOf (bs : List Byte) : List SecCoef := (List.range (bs.length / 32)).map fun k => sectionOf (slice (32 * k) 32 bs)

/-- Does a section keep R202: an integrator exact, the others strictly stable? -/
def sectionOk (integ last : Bool) (c : SecCoef) : Bool :=
  if integ && last then c.a1 == -1073741824 && c.a2 == 0
  else decide ((c.a2.natAbs : Int) < 1073741824) && decide ((c.a1.natAbs : Int) < 1073741824 + c.a2)

/-- The first section of a TLV that breaks R202 or has non-zero reserved bytes. -/
def badSection (rq : Request) (t : Nat) (integ : Bool) : Option Deny :=
  let bs := value rq t
  let n := bs.length / 32
  ((List.range n).find? fun k =>
    let r := slice (32 * k) 32 bs
    !sectionOk integ (k + 1 == n) (sectionOf r) || (r.drop 21).any (· != 0)).map fun k => denyAt .badParam (tlvOff rq t + 4 + 32 * k) t 3

/-- The region record a load carries. -/
def regionOf (rq : Request) (l : LoopSt) : Region :=
  { loaded := true, sections := l.n, integ := l.integ, uMin := int rq 0x0102 0 4, uMax := int rq 0x0102 4 4, iMin := int rq 0x0102 8 4,
    iMax := int rq 0x0102 12 4, kAw := int rq 0x0102 16 4, casA := sectionsOf (value rq 0x0103), casB := sectionsOf (value rq 0x0104) }

/-- The refusals of a load, after the loop has been found (R217). -/
def loadDeny (rq : Request) (i : Fin 64) (s : State) : Option Deny :=
  let l := s.loop.slot[i].lp[loopNo rq]
  let two := loopNo rq == 0 && decide (driveOf i s ≤ 2)
  let r := regionOf rq l
  match firstDeny
    [(decide (l.nRegions ≤ num rq 0x0101 0 1) || decide (7 < num rq 0x0101 0 1), badValue rq 0x0101),
     (decide (r.uMax ≤ r.uMin) || decide (r.iMax < r.iMin) || decide (r.kAw < 0) || decide (1073741824 < r.kAw) ||
        num rq 0x0102 20 4 != 0, badValue rq 0x0102),
     ((value rq 0x0103).length != 32 * l.n, badValue rq 0x0103),
     (two != has rq 0x0104 || (two && (value rq 0x0104).length != 32 * l.n), badValue rq 0x0104)] with
  | some d => some d
  | none => match badSection rq 0x0103 l.integ with
    | some d => some d
    | none => if two then badSection rq 0x0104 l.integ else none

/-- LOOP_LOAD_CASCADE: commits at the first sample at least 10 µs on, and is answered there. -/
def opLoopLoadCascade : Op :=
  { opcode := 0x0300, target := below 64, toe := true, states := [.commissioning, .operational]
    schema := [fixed 0x0100 1, fixed 0x0101 1, fixed 0x0102 24, { type := 0x0103, lo := 0, hi := 65535 },
               { type := 0x0104, lo := 0, hi := 65535, req := false }]
    targetState := boundSlot
    effect := fun rq s =>
      let i := tgt 64 rq
      let k := loopNo rq
      match loopDeny rq i s with
      | some d => .deny d
      | none =>
        match loadDeny rq i s with
        | some d => .deny d
        | none =>
          let ld : LoopLoad := { region := num rq 0x0101 0 1, recv := regionOf rq s.loop.slot[i].lp[k], notBefore := s.now + 5000 }
          .wait (onLoopSt i k (fun y => { y with load := some ld }) s) (loadKey i k) [] }

/-- Executes LOOP_LOAD_CASCADE. -/
def execLoopLoadCascade (rq : Request) (s : State) : Host.Outcome State Fault Refusal := runCommand opLoopLoadCascade rq s

/-! LOOP_SCHEDULE (R203, R204, R217). -/

/-- Bounds of a request, in order. -/
def boundsOf (rq : Request) : List Int := (List.range ((value rq 0x0104).length / 8)).map fun k => int rq 0x0104 (8 * k) 8

/-- Gaps between adjacent bounds. -/
def gaps (b : List Int) : List Int := (b.zip (b.drop 1)).map fun p => p.2 - p.1

/-- Bounds rise strictly and the hysteresis fits (R204). -/
def boundsDeny (rq : Request) : Option Deny :=
  let b := boundsOf rq
  let h := intD rq 0x0105 0 8 0
  firstDeny
    [(decide (7 < b.length) || (gaps b).any (fun g => decide (g ≤ 0)), badValue rq 0x0104),
     (decide (h < 0) || (gaps b).any (fun g => decide (g ≤ 2 * h)), badValue rq 0x0105)]

/-- Bounds and hysteresis of variables 1 and 2 are position or velocity words: bits 63 and 62 equal (R7, Table 9.4). -/
def boundWordsDeny (code : Nat) (rq : Request) : Option Deny :=
  let speedOrPos := code == 1 || code == 2
  firstDeny
    [(speedOrPos && (List.range ((value rq 0x0104).length / 8)).any (fun k => bad63At rq 0x0104 (8 * k)), badValue rq 0x0104),
     (speedOrPos && has rq 0x0105 && bad63At rq 0x0105 0, badValue rq 0x0105)]

/-- The refusals of bounds and hysteresis together. -/
def edgesDeny (code : Nat) (rq : Request) : Option Deny :=
  match boundWordsDeny code rq with
  | some d => some d
  | none => boundsDeny rq

/-- Values of LOOP_SCHEDULE's settings (R203). -/
def scheduleDeny (rq : Request) (i : Fin 64) (s : State) : Option Deny :=
  let code := num rq 0x0103 0 1
  let velInteg := if num rq 0x0100 0 1 = 1 then num rq 0x0102 0 1 == 1 else (s.loop.slot[i].lp[(1 : Fin 3)]).integ
  let velLoop := decide (2 ≤ depthOf i s)
  firstDeny
    [(decide (num rq 0x0101 0 1 < 1) || decide (8 < num rq 0x0101 0 1), badValue rq 0x0101),
     (decide (1 < num rq 0x0102 0 1), badValue rq 0x0102),
     (decide (5 < code) || decide (63 < num rq 0x0103 1 1) || decide (1 < num rq 0x0103 2 1) || num rq 0x0103 3 1 != 0 ||
        (code == 4 && !(velLoop && velInteg)), badValue rq 0x0103),
     (code == 0 && !(boundsOf rq).isEmpty, badValue rq 0x0104)]

/-- LOOP_SCHEDULE. -/
def opLoopSchedule : Op :=
  { opcode := 0x0301, target := below 64, toe := false, states := [.commissioning, .operational]
    schema := [fixed 0x0100 1, optional 0x0101 1, optional 0x0102 1, optional 0x0103 4,
               { type := 0x0104, lo := 8, hi := 56, step := 8, req := false }, optional 0x0105 8]
    targetState := boundSlot
    effect := fun rq s =>
      let i := tgt 64 rq
      let k := loopNo rq
      let l := s.loop.slot[i].lp[k]
      let b := boundsOf rq
      let only := !has rq 0x0101 && !has rq 0x0102 && !has rq 0x0103
      match loopDeny rq i s with
      | some d => .deny d
      | none =>
        if s.axis[i].st = .enabled then
          if !only ∨ b.length + 1 ≠ l.nRegions then .deny conflict
          else
            match edgesDeny l.schedVar rq with
            | some d => .deny d
            | none => .done (onLoopSt i k (fun y => { y with bounds := b, hyst := intD rq 0x0105 0 8 0 }) s) []
        else if !configuring i s then .deny conflict
        else
          let first := match [0x0101, 0x0102, 0x0103].find? (fun t => !has rq t) with
            | some t => some (missing t)
            | none => match scheduleDeny rq i s with
              | some d => some d
              | none => edgesDeny (num rq 0x0103 0 1) rq
          match first with
          | some d => .deny d
          | none =>
            let n := num rq 0x0101 0 1
            let g := num rq 0x0102 0 1 == 1
            let code := num rq 0x0103 0 1
            let same := n == l.n && g == l.integ && code == l.schedVar && num rq 0x0103 1 1 == l.varPort &&
              hasBit (num rq 0x0103 2 1) 0 == l.absolute && b.length + 1 == l.nRegions
            let t := onLoopSt i k (fun y => { y with
              n := n, integ := g, nRegions := b.length + 1, schedVar := code, varPort := num rq 0x0103 1 1,
              absolute := hasBit (num rq 0x0103 2 1) 0, bounds := b, hyst := intD rq 0x0105 0 8 0,
              region := if same then y.region else updAll y.region fun _ r => { r with loaded := false } }) s
            if n = l.n then .done t []
            else
              match admission t with
              | some d => .deny d
              | none => .done (reselect t) [] }

/-- Executes LOOP_SCHEDULE. -/
def execLoopSchedule (rq : Request) (s : State) : Host.Outcome State Fault Refusal := runCommand opLoopSchedule rq s

/-! LOOP_SCALES, LOOP_MOTOR, LOOP_MODULATION, LOOP_FOLLOW, LOOP_LIMITS, LOOP_OBSERVER. -/

/-- A slot setting that configuring states serve. -/
def slotSetting (rq : Request) (s : State) (f : LoopSlot → LoopSlot) : Answer :=
  let i := tgt 64 rq
  if configuring i s then .done (onLSlot i f s) [] else .deny conflict

/-- A raw 64-bit parameter. -/
def raw64 (rq : Request) (t off : Nat) : BitVec 64 := BitVec.ofNat 64 (num rq t off 8)

/-- LOOP_SCALES. -/
def opLoopScales : Op :=
  { opcode := 0x0302, target := below 64, toe := false, states := [.commissioning, .operational]
    schema := [fixed 0x0100 4, fixed 0x0101 4, fixed 0x0102 8, fixed 0x0103 8, { type := 0x0104, lo := 12, hi := 36, step := 12, req := false }]
    targetState := boundSlot
    values := fun rq s => firstDeny
        [(bad63At rq 0x0102 0, badValue rq 0x0102), (bad63At rq 0x0103 0, badValue rq 0x0103),
         (has rq 0x0104 && (value rq 0x0104).length != 12 * s.axis[tgt 64 rq].bind.inputs.length, badValue rq 0x0104)]
    effect := fun rq s => slotSetting rq s fun x =>
      { x with currentFs := num rq 0x0100 0 4, voltageFs := num rq 0x0101 0 4, velFs := int rq 0x0102 0 8, posFs := int rq 0x0103 0 8,
               inputCal := if has rq 0x0104 then (List.range ((value rq 0x0104).length / 12)).map fun k =>
                 (int rq 0x0104 (12 * k) 4, raw64 rq 0x0104 (12 * k + 4)) else x.inputCal } }

/-- Executes LOOP_SCALES. -/
def execLoopScales (rq : Request) (s : State) : Host.Outcome State Fault Refusal := runCommand opLoopScales rq s

/-- LOOP_MOTOR. -/
def opLoopMotor : Op :=
  { opcode := 0x0303, target := below 64, toe := false, states := [.commissioning, .operational]
    schema := [fixed 0x0100 8, fixed 0x0101 32, fixed 0x0102 1]
    targetState := boundSlot
    values := fun rq _ => firstDeny [(bad63At rq 0x0100 0, badValue rq 0x0100), (decide (7 < num rq 0x0102 0 1), badValue rq 0x0102)]
    effect := fun rq s => slotSetting rq s fun x =>
      { x with elecCounts := int rq 0x0100 0 8, motorR := raw64 rq 0x0101 0, motorLd := raw64 rq 0x0101 8, motorLq := raw64 rq 0x0101 16,
               motorPsi := raw64 rq 0x0101 24, motorSet := true, motorOpts := BitVec.ofNat 3 (num rq 0x0102 0 1) } }

/-- Executes LOOP_MOTOR. -/
def execLoopMotor (rq : Request) (s : State) : Host.Outcome State Fault Refusal := runCommand opLoopMotor rq s

/-- Does a drive kind allow a modulation kind (Table 9.3)? -/
def modulationAllowed (drive kind : Nat) : Bool :=
  if drive = 0 then kind == 0 || kind == 1 else if drive = 1 then kind == 2 else kind == 3

/-- LOOP_MODULATION. -/
def opLoopModulation : Op :=
  { opcode := 0x0304, target := below 64, toe := false, states := [.commissioning, .operational]
    schema := [fixed 0x0100 1, fixed 0x0101 8, optional 0x0102 4]
    targetState := boundSlot
    values := fun rq _ =>
      let src := num rq 0x0101 0 1
      let ix := num rq 0x0101 1 1
      firstDeny
        [(decide (3 < num rq 0x0100 0 1), badValue rq 0x0100),
         (decide (3 < src) || num rq 0x0101 2 2 != 0 || (src == 1 && decide (7 < ix)) || (src == 2 && decide (95 < ix)) ||
            (src == 3 && decide (63 < ix)), badValue rq 0x0101)]
    effect := fun rq s =>
      let i := tgt 64 rq
      let ix := num rq 0x0101 1 1
      let bound := (List.finRange 64).any fun (j : Fin 64) => s.axis[j].bind.inputs.contains ix
      match s.axis[i].mode with
      | none => .deny conflict
      | some m =>
        if !configuring i s then .deny conflict
        else if !modulationAllowed m.drive (num rq 0x0100 0 1) then .deny (badValue rq 0x0100)
        else if num rq 0x0101 0 1 = 2 ∧ bound then .deny (deny .resource)
        else slotSetting rq s fun x =>
          { x with modKind := num rq 0x0100 0 1, modSet := true, dcSource := num rq 0x0101 0 1, dcIndex := ix,
                   dcMv := num rq 0x0101 4 4, dtc := numD rq 0x0102 0 4 0 } }

/-- Executes LOOP_MODULATION. -/
def execLoopModulation (rq : Request) (s : State) : Host.Outcome State Fault Refusal := runCommand opLoopModulation rq s

/-- LOOP_FOLLOW: GAIN and the limits are in the set-point's own format, so at every depth but current their bits 63 and 62
must be equal (R7, R208). -/
def opLoopFollow : Op :=
  { opcode := 0x0305, target := below 64, toe := false, states := [.commissioning, .operational]
    schema := [fixed 0x0100 2, fixed 0x0101 2, fixed 0x0102 8, fixed 0x0103 16]
    targetState := boundSlot
    values := fun rq s =>
      let word := depthOf (tgt 64 rq) s != 1
      firstDeny
        [(word && bad63At rq 0x0102 0, badValue rq 0x0102),
         (word && (bad63At rq 0x0103 0 || bad63At rq 0x0103 8), badValue rq 0x0103)]
    effect := fun rq s => slotSetting rq s fun x =>
      { x with folOffset := int rq 0x0100 0 2, folDead := num rq 0x0101 0 2, folGain := int rq 0x0102 0 8,
               folMin := int rq 0x0103 0 8, folMax := int rq 0x0103 8 8 } }

/-- Executes LOOP_FOLLOW. -/
def execLoopFollow (rq : Request) (s : State) : Host.Outcome State Fault Refusal := runCommand opLoopFollow rq s

/-- LOOP_LIMITS: served in any state of the slot. -/
def opLoopLimits : Op :=
  { opcode := 0x0306, target := below 64, toe := false, states := [.commissioning, .operational]
    schema := [fixed 0x0100 20, optional 0x0101 16]
    targetState := boundSlot
    values := fun rq _ => firstDeny
        [(bad63At rq 0x0100 0 || bad63At rq 0x0100 8 || num rq 0x0100 16 1 == 0 || num rq 0x0100 17 3 != 0, badValue rq 0x0100)]
    effect := fun rq s =>
      .done (onLSlot (tgt 64 rq) (fun x => { x with
        feWarn := int rq 0x0100 0 8, feLimit := int rq 0x0100 8 8, feCount := num rq 0x0100 16 1, feSeen := 0,
        kVff := if has rq 0x0101 then raw64 rq 0x0101 0 else x.kVff, kAff := if has rq 0x0101 then raw64 rq 0x0101 8 else x.kAff }) s) [] }

/-- Executes LOOP_LIMITS. -/
def execLoopLimits (rq : Request) (s : State) : Host.Outcome State Fault Refusal := runCommand opLoopLimits rq s

/-- LOOP_OBSERVER. -/
def opLoopObserver : Op :=
  { opcode := 0x0307, target := below 64, toe := false, states := [.commissioning, .operational]
    schema := [fixed 0x0100 8, fixed 0x0101 4, fixed 0x0102 16]
    targetState := boundSlot
    values := fun rq _ => firstDeny
        [(bad63At rq 0x0100 0, badValue rq 0x0100), (decide (num rq 0x0101 0 4 < 10) || decide (2000 < num rq 0x0101 0 4), badValue rq 0x0101),
         (num rq 0x0102 6 2 != 0 || bad63At rq 0x0102 8, badValue rq 0x0102)]
    effect := fun rq s => slotSetting rq s fun x =>
      { x with obsMin := some (int rq 0x0100 0 8), obsBw := num rq 0x0101 0 4, startI := int rq 0x0102 0 4,
               startMs := num rq 0x0102 4 2, startSpeed := some (int rq 0x0102 8 8) } }

/-- Executes LOOP_OBSERVER. -/
def execLoopObserver (rq : Request) (s : State) : Host.Outcome State Fault Refusal := runCommand opLoopObserver rq s

/-! LOOP_READ and LOOP_STATUS_READ. -/

/-- A multi-byte field in packet or memory order (R215). -/
def ordered (le : Bool) (bs : List Byte) : List Byte := if le then bs.reverse else bs

/-- A section record's 32 bytes (Table 9.8). -/
def sectionBytes (le : Bool) (c : SecCoef) : List Byte :=
  [c.b0, c.b1, c.b2, c.a1, c.a2].flatMap (fun v => ordered le (beI 4 v)) ++ beI 1 c.g ++ List.replicate 11 0

/-- A cascade's 256 bytes. -/
def cascadeBytes (le : Bool) (l : List SecCoef) : List Byte :=
  ((l.flatMap (sectionBytes le)) ++ List.replicate 256 0).take 256

/-- A region record's 1,024 bytes (Table 9.7); SECTIONS and INTEG of one not loaded are the loop's. -/
def regionRecord (le : Bool) (l : LoopSt) (g : Nat) : List Byte :=
  let r := l.region[Fin.ofNat 8 g]
  be 1 (if r.loaded then r.sections else l.n) ++ be 1 (bit (if r.loaded then r.integ else l.integ)) ++ be 1 (bit r.loaded) ++ be 1 0 ++
  [r.uMin, r.uMax, r.iMin, r.iMax, r.kAw].flatMap (fun v => ordered le (beI 4 v)) ++ List.replicate 40 0 ++
  cascadeBytes le r.casA ++ cascadeBytes le r.casB ++ List.replicate 448 0

/-- The LOOP_SCHEDULE TLVs as in force. -/
def scheduleTlvs (k : Fin 3) (l : LoopSt) : List Byte :=
  ([(0x0100, be 1 k.val), (0x0101, be 1 l.n), (0x0102, be 1 (bit l.integ)),
    (0x0103, be 1 l.schedVar ++ be 1 l.varPort ++ be 1 (bit l.absolute) ++ be 1 0)] ++
   (if l.bounds = [] then [] else [(0x0104, l.bounds.flatMap (beI 8))]) ++ [(0x0105, beI 8 l.hyst)]).flatMap Res.bytes

/-- LOOP_READ. -/
def opLoopRead : Op :=
  { opcode := 0x0308, target := below 64, toe := false, states := afterStart, schema := [fixed 0x0100 1, fixed 0x0101 1]
    targetState := boundSlot
    values := fun rq s => firstDeny [(decide (7 < num rq 0x0101 0 1), badValue rq 0x0101)]
    effect := fun rq s =>
      let i := tgt 64 rq
      match loopDeny rq i s with
      | some d => .deny d
      | none =>
        let l := s.loop.slot[i].lp[loopNo rq]
        .done s [(0x0100, regionRecord false l (num rq 0x0101 0 1)), (0x0101, scheduleTlvs (loopNo rq) l)] }

/-- Executes LOOP_READ. -/
def execLoopRead (rq : Request) (s : State) : Host.Outcome State Fault Refusal := runCommand opLoopRead rq s

/-- LOOP_STATUS_READ; reading the observed margins restarts them (R27). -/
def opLoopStatusRead : Op :=
  { opcode := 0x0309, target := below 64, toe := false, states := afterStart, schema := []
    targetState := boundSlot
    effect := fun rq s =>
      let i := tgt 64 rq
      let x := s.loop.slot[i]
      let t := onLSlot i (fun x => { x with lp := updAll x.lp fun _ y => { y with margin := 0xFFFF } }) s
      .done t
        [(0x0100, be 4 (loopStatus i s).toNat),
         (0x0101, (List.finRange 3).flatMap fun (k : Fin 3) =>
            be 2 (if slotHasLoop i k.val s then x.lp[k].slack.toNat else 0) ++ be 2 x.lp[k].margin.toNat),
         (0x0102, beI 4 x.iD ++ beI 4 x.iQ), (0x0103, beI 4 x.vD ++ beI 4 x.vQ), (0x0104, beI 8 x.fe),
         (0x0105, be 4 x.obsAngle.toNat ++ beI 8 x.obsSpeed)] }

/-- Executes LOOP_STATUS_READ. -/
def execLoopStatusRead (rq : Request) (s : State) : Host.Outcome State Fault Refusal := runCommand opLoopStatusRead rq s

/-! Events. -/

/-- LOOP_SAMPLE: a loop's sample instant. -/
def execLoopSample (slot : Fin 64) (loop : Fin 3) (s : State) : Host.Outcome State Fault Refusal :=
  if !domainsRun s then .next s else .next (loopSample slot loop s)

/-- LOOP_RESULT_READY: the result of a loop's last sample is complete. -/
def execLoopResultReady (slot : Fin 64) (loop : Fin 3) (s : State) : Host.Outcome State Fault Refusal := .next (resultReady slot loop s)

/-- LOOP_RELEASE: sample + L. -/
def execLoopRelease (slot : Fin 64) (loop : Fin 3) (s : State) : Host.Outcome State Fault Refusal :=
  if !domainsRun s then .next s else .next (loopRelease slot loop s)

/-- Does a slot follow an AIN channel? -/
def follows (i : Fin 64) (ch : Fin 8) (s : State) : Bool :=
  match s.axis[i].mode with
  | some m => m.source == 3 && m.srcIndex == ch.val
  | none => false

/-- The set-point an analogue source feeds, at its depth: at open-loop stepping the step rate (R208). -/
def fedSetPoint (i : Fin 64) (s : State) : Int :=
  let a := s.axis[i]
  match depthOf i s with
  | 2 => a.velSp
  | 1 => a.curSp
  | 3 => a.posSp
  | _ => a.velFf

/-- A following slot at a conversion: summed while in range; at the fourth in a row out of range it holds the set-point it
had before the first of them (R208, R209). -/
def followConversion (i : Fin 64) (code : Int) (clips : Nat) (s : State) : State :=
  if clips = 0 then
    onLSlot i (fun x => { x with ainSum := x.ainSum + code, ainN := x.ainN + 1, ainHold := false, ainBefore := [] }) s
  else
    let before := if clips = 1 then [fedSetPoint i s] else s.loop.slot[i].ainBefore
    let s1 := onLSlot i (fun x => { x with ainSum := x.ainSum + code, ainN := x.ainN + 1, ainBefore := before }) s
    if clips < 4 then s1
    else
      let s2 := onLSlot i (fun x => { x with ainHold := true, ainSum := 0, ainN := 0, fAinRange := x.fAinRange || clips == 4 }) s1
      match before with
      | v :: _ =>
        if clips ≠ 4 ∨ s.axis[i].st ≠ .enabled then s2
        else if depthOf i s = 0 then onAx i (fun a => { a with velFf := v }) s2
        else feedValue i v false s2
      | [] => s2

/-- AIN_CONVERSION: a channel's conversion completes (R208, R209). -/
def execAinConversion (channel : Fin 8) (code : BitVec 16) (s : State) : Host.Outcome State Fault Refusal :=
  if !domainsRun s then .next s else
  let c := code.toInt
  let n := if c = -32768 ∨ c = 32767 then s.loop.ain[channel].clips + 1 else 0
  let s1 := s.onLoop fun e => { e with ain := upd e.ain channel fun _ => { code := c, clips := n } }
  let s2 := ((List.finRange 64).filter fun (i : Fin 64) => follows i channel s).foldl (fun s i => followConversion i c n s) s1
  .next (if n = 4 then event 0x0305 channel.val [] s2 else s2)

/-- OBSERVER_START_TIMEOUT: the observer is not valid within 2 × START_MS of Enabling (R213). -/
def execObserverStartTimeout (slot : Fin 64) (s : State) : Host.Outcome State Fault Refusal :=
  let x := s.loop.slot[slot]
  .next (if s.axis[slot].st = .enabled ∧ x.obsStart ∧ !x.obsServed ∧ !x.obsValid ∧ x.frameStart + 1000000 * x.startMs ≤ s.now then
      axisFault slot 6 0 s else s)

end Sys2Proof.Machine
end

