-- ==== Sys2Proof/Machine/NetCore.lean ====
section
/-! DEFINITION.
Frames in the Backbone Switch's queues (R316, R317, 14), and the frames the device itself sends. -/

namespace Sys2Proof.Machine

/-- Change a switch port; 4 is the internal one. -/
def onNetPort (p : Fin 5) (f : NetPort → NetPort) (s : State) : State := s.onNet fun n => { n with port := upd n.port p f }

/-- An external port as a port of the switch. -/
def ext (p : Fin 4) : Fin 5 := ⟨p.val, by omega⟩

/-- The internal port. -/
def inner : Fin 5 := 4

/-- Length on the wire, FCS included, of a frame with this many payload bytes (R308). -/
def frameLength (tagged : Bool) (payload : Nat) : Nat := max 64 (18 + 4 * bit tagged + payload)

/-- ns of a byte at the port's speed. -/
def NetPort.byteNs (p : NetPort) : Nat := if p.speed = 2 then 8 else 80

/-- Wire time in ns of a frame with preamble and inter-frame gap, at the port's speed (R297). -/
def NetPort.wire (p : NetPort) (length : Nat) : Nat := (length + 20) * p.byteNs

/-- There is room for a frame: 64 frames a class within a 96 KiB port buffer (R316). -/
def NetPort.room (p : NetPort) (f : NetFrame) : Bool :=
  decide ((p.queue.filter fun g => g.cls == f.cls).length < 64) && decide ((p.queue.map (·.length)).sum + f.length ≤ 98304)

/-- Enqueue a frame for egress, or drop it as QUEUE_FULL (R316). -/
def NetPort.push (f : NetFrame) (p : NetPort) : NetPort :=
  if p.room f then { p with enqueued := bump p.enqueued 1, queue := p.queue ++ [f] }
  else { p with enqueued := bump p.enqueued 1, queueFull := bump p.queueFull 1 }

/-- A port can send: link is up and it is not DISABLED. -/
def portUp (p : Fin 5) (s : State) : Bool := p == inner || (s.net.port[p].link && s.net.port[p].state != 2)

/-- A frame the device makes enters the switch on the internal port and is queued on the named ports that can send (R317). -/
def originate (ports : List (Fin 4)) (f : NetFrame) (s : State) : State :=
  let s1 := onNetPort inner (fun p => { p with received := bump p.received 1, accepted := bump p.accepted 1 }) s
  let g := { f with src := s.net.mac, ingress := s.nowNs, port := 4,
                    length := frameLength f.vlan.isSome f.payload.length }
  (ports.filter fun p => portUp (ext p) s).foldl (fun s p => onNetPort (ext p) (NetPort.push g) s) s1

/-- A port drives LED0 low for 50 ms on each burst of activity (R309). -/
def NetPort.active (now : Nat) (p : NetPort) : NetPort := { p with ledLow := now + 25000000 }

/-- Levels of ETHn_LED0 and ETHn_LED1 (R309). -/
def ledLevels (p : Fin 4) (s : State) : Bool × Bool :=
  let x := s.net.port[ext p]
  (x.link && decide (x.ledLow ≤ s.now), x.link && x.speed == 2)

/-- Drayman frames run on this port: it has a 1000BASE-T link (R295). -/
def gigabit (port : Nat) (s : State) : Bool := port < 4 && (s.net.port[Fin.ofNat 5 port]).link && (s.net.port[Fin.ofNat 5 port]).speed == 2

/-- The configured frame groups with bricks on a port, with a brick each. -/
def portFrameGroups (port : Nat) (s : State) : List (Fin 16) :=
  (List.finRange 16).filter fun (f : Fin 16) => s.bricks.fg[f].configured &&
    (groupBricks f.val s).any fun b => s.bricks.brick[b].port == port

end Sys2Proof.Machine
end

