-- ==== Sys2Proof/Machine/TimeCore.lean ====
section
/-! DEFINITION.
The time bases: their values, what follows what, and what a step of a base does (R327, R328, R330, 14). Values are in 2^-39 ns. -/

namespace Sys2Proof.Machine

/-- Change a time base. -/
def onTb (b : Fin 4) (f : TimeBase → TimeBase) (s : State) : State := s.onNet fun n => { n with tb := upd n.tb b f }

/-- The base at the end of a chain of follow-a-base links and the sum of the OFFSETs on the way, ns; chains form no cycle (R328). -/
def tbRoot (tb : Vector TimeBase 4) : Nat → Fin 4 → Int × Fin 4
  | 0, b => (0, b)
  | n + 1, b =>
    if tb[b].mode = 2 then
      let r := tbRoot tb n (Fin.ofNat 4 tb[b].follows)
      (tb[b].followOff + r.1, r.2)
    else (0, b)

/-- The chains of follow-a-base links come to an end. -/
def chainsEnd (tb : Vector TimeBase 4) : Bool := (List.finRange 4).all fun b => tb[(tbRoot tb 4 b).2].mode != 2

/-- The instance of the domain in force. -/
def TimeBase.force (t : TimeBase) : Fin 2 := Fin.ofNat 2 (if t.source then t.sec.getD 0 else t.prim)

/-- While the device is grandmaster of the domain in force, the base has the source base's value and is locked (R329). -/
def mastered (n : Net) (t : TimeBase) : TimeBase :=
  if t.mode = 1 ∧ n.ptp[t.force].isGm then
    { t with val := n.tb[Fin.ofNat 4 n.ptp[t.force].gmBase].val, st := 2, sync := true, acquired := true }
  else t

/-- A base that follows a base has its value plus OFFSET, its state and its synchronisation (R328). -/
def followed (tb : Vector TimeBase 4) (b : Fin 4) (t : TimeBase) : TimeBase :=
  if t.mode = 2 then
    let r := tbRoot tb 4 b
    let u := tb[r.2]
    { t with val := ((u.val : Int) + r.1 * 2 ^ 39).toNat, st := u.st, sync := u.sync }
  else t

/-- The dependent bases brought in line with what they depend on. -/
def Net.aligned (n : Net) : Net :=
  let m := updAll n.tb fun _ t => mastered n t
  { n with tb := updAll m (followed m) }

/-! Consumers of a step (R330). -/

/-- Pending commands more than 1 ms behind a forward step of TBASE0 are answered LATE and never executed (R84, 04). -/
def lateCommands (p : Pending → Bool) (s : State) : State :=
  let l := s.pkts.pending.filter p
  let s1 := s.onPkts fun k => { k with
    pending := k.pending.filter (fun e => !p e), gone := k.gone ++ l.map (·.handle) }
  l.foldl (fun s e => sendReply e.opcode e.rq .late (deny .late).tlvs true s) s1

/-- The entry of a gate list that is in force at a time, and the ns it still has (R318). -/
def gateAt : List (BitVec 8 × Nat) → Nat → Nat → Nat × Nat
  | [], i, _ => (i, 0)
  | e :: l, i, t => if t < e.2 then (i, e.2 - t) else gateAt l (i + 1) (t - e.2)

/-- The cycle of a gate list, ns. -/
def GateList.cycle (g : GateList) : Nat := (g.entries.map (·.2)).sum

/-- The entry in force and its remaining time at a base time. -/
def GateList.at (g : GateList) (now : Nat) : Nat × Nat :=
  gateAt g.entries 0 ((((now : Int) - g.t0) % (max g.cycle 1 : Nat)).toNat)

/-- A list continues with the entry the new time selects (R318). -/
def Gates.reselect (b now : Nat) (g : Gates) : Gates :=
  { g with active := g.active.map fun l => if l.base = b then { l with idx := (l.at now).1 } else l }

/-- The instant of index j (R336). -/
def Tso.inst (t : Tso) : Nat := t.t1 + t.j * t.period

/-- After this many further instants, does one remain? -/
def Tso.more (t : Tso) (n : Nat) : Bool := t.period != 0 && (t.count == 0 || decide (t.j + n < t.count))

/-- Instants from the present one on that lie before a time, within the count. -/
def Tso.before (t : Tso) (now : Nat) : Nat :=
  if now ≤ t.inst then 0
  else if t.period = 0 then 1
  else
    let n := (now - t.inst + t.period - 1) / t.period
    if t.count = 0 then n else min n (t.count - t.j)

/-- Leave n instants behind without firing them: they are counted, and the flag of TSO_SKIPPED is set (R337). -/
def Tso.pass (t : Tso) (n : Nat) : Tso :=
  { t with j := t.j + n, armed := t.more n || t.next.isSome, skip := t.skip + BitVec.ofNat 32 n, fSkipped := true }

/-- A schedule: base, polarity, options, count, t_1, P, W. -/
def Tso.load (l : List Nat) (t : Tso) : Tso :=
  { t with
    base := l.getD 0 0, activeLow := l.getD 1 0 == 1, inhibit := hasBit (l.getD 2 0) 0, count := l.getD 3 0, t1 := l.getD 4 0,
    period := l.getD 5 0, width := l.getD 6 0, j := 0, next := none,
    level := if t.pulseEnd.isSome then t.level else l.getD 1 0 == 1 }

/-- What a forward step of a base to a time makes of an output, and how many instants it passes: those of its schedule, up to the
first of a schedule that waits, and then that one's. -/
def Tso.passTo (b now : Nat) (t : Tso) : Tso × Nat :=
  let l := t.next.filter fun l => l.getD 0 0 == b && decide (l.getD 4 0 < now)
  let stop := min now ((l.map (·.getD 4 0)).getD now)
  let n := if t.base = b then t.before stop else 0
  let u := if n = 0 then t else t.pass n
  match l with
  | none => (u, n)
  | some l =>
    let v := { u.load l with armed := true }
    (v.pass (v.before now), n + v.before now)

/-- A forward step passes instants of an output: each is skipped (R337). -/
def skipOutputs (b : Fin 4) (now : Nat) (s : State) : State :=
  (List.finRange 8).foldl (fun s k =>
    let t := s.net.tso[k]
    let r := t.passTo b.val now
    if t.armed ∧ r.2 ≠ 0 then events r.2 0x0807 k.val [] (s.onNet fun m => { m with tso := upd m.tso k fun _ => r.1 })
    else s) s

/-- Start of the cycle of a map that holds a TBASE0 time (R89). -/
def CycMap.start (m : CycMap) (t : Nat) : Nat := t / max m.period 1 * max m.period 1

/-- The axes a map writes to. -/
def CycMap.axes (m : CycMap) : List (Fin 64) :=
  ((m.entries.filter fun e => decide (1 ≤ e.qty) && decide (e.qty ≤ 5)).map fun e => Fin.ofNat 64 e.tgt).eraseDups

/-- The field groups a map writes to. -/
def CycMap.fields (m : CycMap) : List (Fin 4) := ((m.entries.filter fun e => e.qty == 0x06).map fun e => Fin.ofNat 4 e.tgt).eraseDups

/-- Cycles are missed: counted, and at the miss limit every bound axis faults with CYCLIC_LOSS (R91) and the field groups take
their fail states (R377, 16). -/
def missCycles (k : Fin 32) (n : Nat) (s : State) : State :=
  let m := s.net.map[k]
  let s1 := s.onNet fun x => { x with map := upd x.map k fun m => { m with missed := bump m.missed n, missRun := min (m.missRun + n) m.missLimit } }
  let s2 := m.axes.foldl (fun s i => onAx i (fun a => { a with cyclicMiss := true }) s) s1
  if m.missRun < m.missLimit ∧ m.missLimit ≤ m.missRun + n then
    m.fields.foldl (fun s g => onFioGroup g FioGroup.failStates s) (axisFaults m.axes 5 k.val s2)
  else s2

/-- Held frames of cycles that are neither the current nor the next one any more are out of window (R91). -/
def CycMap.prune (now : Nat) (m : CycMap) : CycMap :=
  let c := m.start now
  let l := m.held.filter fun e => e.1 == c || e.1 == c + m.period
  { m with held := l, outOfWindow := bump m.outOfWindow (m.held.length - l.length) }

/-- TBASE0 has stepped: after a forward step each cycle of an inbound map whose start was passed over is a miss (R330). -/
def cyclicStep (old now : Nat) (s : State) : State :=
  (List.finRange 32).foldl (fun s k =>
    let m := s.net.map[k]
    if k.val < 16 ∧ m.enabled then
      let n : Nat := (now - 1) / max m.period 1 - old / max m.period 1
      let s1 := s.onNet fun x => { x with map := upd x.map k fun m =>
        let u := m.prune now
        if old < now ∧ n ≠ 0 then { u with lastApplied := some (m.start (now - 1)) } else u }
      if old < now ∧ n ≠ 0 then missCycles k n s1 else s1
    else s) s

/-- TIME_STEP's detail: size in ns, truncated and saturated, then the magnitude of the rest in 2^-16 ns (Table 21.6A). -/
def stepDetail (d : Int) : List Byte :=
  let ns : Nat := d.natAbs / 2 ^ 39
  let top : Nat := min ns (2 ^ 63 - 1)
  beI 8 (if d < 0 then -(top : Int) else top) ++ be 2 (d.natAbs % 2 ^ 39 / 2 ^ 23)

/-- A timer passes every instant of its own before one: they are skipped (R446). -/
def Timer.skipTo (now : Nat) (t : Timer) : Timer :=
  if t.running ∧ t.nextAt < now then
    let k : Nat := (now - 1 - t.nextAt) / max t.period 1 + 1
    { t with nextAt := t.nextAt + k * t.period, skips := t.skips + BitVec.ofNat 32 k, fSkipped := true }
  else t

/-- A forward step of TBASE0 passes instants of the dispatcher's timers of kind 2: they are skipped (R446). -/
def skipTimers (now : Nat) (s : State) : State :=
  s.onLanes fun n => { n with tmr := updAll n.tmr fun _ t => if t.kind = 2 then t.skipTo now else t }

/-- The instants that fell in a Nap or Rest now over are skipped (R446). -/
def skipSlept (s : State) : State :=
  s.onLanes fun n => { n with tmr := updAll n.tmr fun _ t => t.skipTo (if t.kind = 2 then s.tb0 else s.sysTick) }

/-- What a step of a base from one value to another does: TIME_STEP and the consumers of R330. SYNC groups of the BTA correct
themselves at their boundaries (R253, 11). -/
def stepEffects (c : Fin 4) (old new : Nat) (s : State) : State :=
  let a : Nat := old / 2 ^ 39
  let z : Nat := new / 2 ^ 39
  let s1 := event 0x0801 c.val (stepDetail ((new : Int) - old)) (onTb c (fun t => { t with fStep := true }) s)
  let s2 := vmStep c.val ((z : Int) - a) s1
  let s3 := s2.onNet fun n => { n with gates := updAll n.gates fun _ g => g.reselect c.val z }
  let s4 := if a < z then skipOutputs c z s3 else s3
  if c = 0 then
    cyclicStep a z (if a < z then skipTimers z (lateCommands (fun p => decide (p.rq.toe.toNat + 1000000 < z)) s4) else s4)
  else s4

/-- Change the bases' settings or values: dependent bases follow, and every base whose value jumps has stepped (R330). -/
def changeBases (f : Net → Net) (s : State) : State :=
  let t := s.onNet fun n => (f n).aligned
  (List.finRange 4).foldl (fun u (c : Fin 4) =>
    let a : Nat := s.net.tb[c].val
    let z : Nat := t.net.tb[c].val
    if a == z then u else stepEffects c a z u) t

/-- Set a base to a value. -/
def setBase (b : Fin 4) (v : Nat) (s : State) : State := changeBases (fun n => { n with tb := upd n.tb b fun t => { t with val := v } }) s

end Sys2Proof.Machine
end

