-- ==== Sys2Proof/Machine/Net.lean ====
section
/-! DEFINITION.
The Backbone Switch: links, forwarding, shapers, transparent clock, and the device's own ARP and ICMP answers (R307 to R326, 14). -/

namespace Sys2Proof.Machine

/-! The device's addresses (R310, R311). -/

/-- The IPv4 address: the saved one, or 169.254.x.y from the last two MAC bytes. -/
def ipAddress (s : State) : BitVec 32 :=
  if s.net.ip ≠ 0 then s.net.ip
  else
    let x := s.net.mac.toNat / 256 % 256 % 254 + 1
    BitVec.ofNat 32 (0xA9FE0000 + x * 256 + s.net.mac.toNat % 256)

/-- The MAC address of link-local frames of a port. -/
def portMac (p : Fin 4) (s : State) : BitVec 48 := s.net.mac + BitVec.ofNat 48 (p.val + 1)

/-- Destination addresses that are never forwarded (R314). -/
def linkLocal (m : BitVec 48) : Bool := m.toNat / 16 == 0x0180C2000000 / 16

/-- A group address. -/
def multicast (m : BitVec 48) : Bool := m.getLsbD 40

/-- Offset of an IPv4 header's payload. -/
def ipHead (p : List Byte) : Nat := (p.getD 0 0).toNat % 16 * 4

/-- A frame addressed to the device's MAC address and Ruhity UDP port (R34, 01). -/
def toRuhity (f : NetFrame) (s : State) : Bool :=
  f.dst == s.net.mac && f.etherType == 0x0800 && f.payload.getD 9 0 == 17 &&
  beNat (slice (ipHead f.payload + 2) 2 f.payload) == s.net.udpPort

/-- IPv4 traffic the device serves: its Ruhity port and ICMP echo (R311). -/
def ipServed (f : NetFrame) (s : State) : Bool :=
  toRuhity f s || (f.payload.getD 9 0 == 1 && f.payload.getD (ipHead f.payload) 0 == 8)

/-! PTP frames (R326). -/

/-- Where a PTP message begins in a frame's payload, if it carries one. -/
def ptpAt (f : NetFrame) : Option Nat :=
  if f.etherType = 0x88F7 then some 0
  else
    let h := ipHead f.payload
    let port := beNat (slice (h + 2) 2 f.payload)
    if f.etherType = 0x0800 ∧ f.payload.getD 9 0 = 17 ∧ (port = 319 ∨ port = 320) then some (h + 8) else none

/-- Message type of a PTP frame: 0 Sync, 1 Delay_Req, 2 Pdelay_Req, 3 Pdelay_Resp, 8 Follow_Up, 9 Delay_Resp, 10
Pdelay_Resp_Follow_Up (IEEE 1588-2019). -/
def ptpType (f : NetFrame) (a : Nat) : Nat := (f.payload.getD a 0).toNat % 16

/-- A frame of one of the device's own gPTP instances (R324, R326). -/
def ownPtp (port : Fin 4) (f : NetFrame) (s : State) : Bool :=
  f.etherType == 0x88F7 && (f.payload.getD 0 0).toNat / 16 == 1 &&
  (List.finRange 2).any fun (i : Fin 2) => s.net.ptp[i].ports.getLsbD port.val && (f.payload.getD 4 0).toNat == s.net.ptp[i].domain

/-- A port in peer-to-peer mode terminates the domain's peer-delay messages. -/
def terminates (port : Fin 4) (f : NetFrame) (s : State) : Bool :=
  s.net.port[ext port].tcMode == 2 && (match ptpAt f with
    | some a => [2, 3, 10].contains (ptpType f a)
    | none => false)

/-! Ingress. -/

/-- A frame's VLAN and priority: untagged and priority-tagged frames take the port's (R313). -/
def vlanOf (p : NetPort) (f : NetFrame) : Nat × Nat :=
  match f.vlan with
  | some (pcp, vid) => if vid = 0 then (p.pcp, p.pvid) else (pcp, vid)
  | none => (p.pcp, p.pvid)

/-- Members and untagged egress of a VLAN. -/
def vlanEntry (vid : Nat) (s : State) : Option Vlan := s.net.vlans.find? (·.vid == vid)

/-- Why a frame is dropped at ingress, if it is (R307, R308, R313): RUNT 0, OVERSIZE 1, FCS 2, PAUSE 3, VLAN_FILTER 4. Frames
to link-local addresses belong to no VLAN. -/
def ingressDrop (port : Fin 4) (f : NetFrame) (fcsOk : Bool) (s : State) : Option Nat :=
  let p := s.net.port[ext port]
  let tagged := f.vlan.any fun v => v.2 != 0
  if f.length < 64 then some 0
  else if 1522 < f.length then some 1
  else if !fcsOk then some 2
  else if f.etherType = 0x8808 ∧ beNat (f.payload.take 2) = 1 then some 3
  else if linkLocal f.dst then none
  else if p.taggedOnly ∧ !tagged then some 4
  else
    match vlanEntry (vlanOf p f).2 s with
    | some v => if v.members.getLsbD port.val then none else some 4
    | none => some 4

/-- Count a drop. -/
def NetPort.dropped (r : Nat) (p : NetPort) : NetPort :=
  match r with
  | 0 => { p with runt := bump p.runt 1 }
  | 1 => { p with oversize := bump p.oversize 1 }
  | 2 => { p with fcs := bump p.fcs 1 }
  | 3 => { p with pause := bump p.pause 1 }
  | 4 => { p with vlanFilter := bump p.vlanFilter 1 }
  | 5 => { p with notServed := bump p.notServed 1 }
  | _ => { p with restDrop := bump p.restDrop 1 }

/-- A dynamic entry has been refreshed within AGE seconds (R312). -/
def Fdb.live (s : State) (e : Fdb) : Bool := decide (s.now < e.seen + s.net.age * 500000000)

/-- Learn a source address: refreshed where known, not learned when 2,048 are held (R312). -/
def learn (port : Fin 4) (mac : BitVec 48) (vid : Nat) (s : State) : State :=
  let same := fun (e : Fdb) => e.mac == mac && e.vid == vid
  if multicast mac ∨ s.net.fdbStatic.any same then s
  else
    let e : Fdb := { mac := mac, vid := vid, ports := BitVec.ofNat 5 (2 ^ port.val), seen := s.now }
    let held := s.net.fdbDyn.filter (Fdb.live s)
    s.onNet fun n =>
      if held.any same then { n with fdbDyn := held.map fun x => if same x then e else x }
      else if held.length < 2048 then { n with fdbDyn := held ++ [e] }
      else n

/-- Where the filtering database sends an address; none where it is flooded (R312). -/
def lookup (mac : BitVec 48) (vid : Nat) (s : State) : Option (BitVec 5) :=
  let same := fun (e : Fdb) => e.mac == mac && e.vid == vid
  if mac = s.net.mac then some 0x10
  else
    match s.net.fdbStatic.find? same with
    | some e => some e.ports
    | none => if multicast mac then none else (s.net.fdbDyn.find? fun e => same e && e.live s).map (·.ports)

/-- The ports a frame goes out on (R312 to R314). -/
def egressPorts (port : Fin 4) (f : NetFrame) (s : State) : List (Fin 5) :=
  if linkLocal f.dst ∨ ownPtp port f s ∨ terminates port f s then [inner]
  else
    let v := (vlanOf s.net.port[ext port] f).2
    let members := ((vlanEntry v s).map (·.members)).getD 0
    let dests := (lookup f.dst v s).getD members
    (List.finRange 5).filter fun (q : Fin 5) =>
      q != ext port && members.getLsbD q.val && dests.getLsbD q.val && portUp q s &&
      (q == inner || (s.net.port[ext port].state != 1 && s.net.port[q].state != 1))

/-- A frame as one egress port gets it: class of its PCP, tagged or untagged by the VLAN's egress mask (R313, R316). -/
def egressFrame (port : Fin 4) (f : NetFrame) (q : Fin 5) (s : State) : NetFrame :=
  let v := vlanOf s.net.port[ext port] f
  let bare := f.length - 4 * bit f.vlan.isSome
  let untag := ((vlanEntry v.2 s).map (·.untagged)).any fun m => m.getLsbD q.val
  { f with
    cls := v.1 % 8, port := port.val, ingress := s.nowNs,
    vlan := if untag then none else some v,
    length := if untag then max 64 bare else bare + 4 }

/-- A class is preemptable on a port: preemption is active, and its mask, or on a port with a frame group every class but 7, says
so (R295, R322). -/
def preempts (q : Fin 4) (c : Nat) (s : State) : Bool :=
  let p := s.net.port[ext q]
  p.preempt && (if (portFrameGroups q.val s).isEmpty then p.preMask.getLsbD c else c != 7)

/-- The gate of a class of a port is open now (R318). -/
def gateOpen (q : Fin 4) (c : Nat) (s : State) : Bool :=
  match s.net.gates[q].active with
  | none => true
  | some l => ((l.entries.getD l.idx (0xFF, 0)).1).getLsbD c

/-- Cut-through (R315). -/
def cutThrough (port : Fin 4) (f : NetFrame) (q : Fin 5) (s : State) : Bool :=
  let y := s.net.port[q]
  q != inner && s.net.port[ext port].speed == 2 && y.speed == 2 && !preempts (Fin.ofNat 4 q.val) f.cls s &&
  (y.queue.filter fun g => g.cls == f.cls).isEmpty && gateOpen (Fin.ofNat 4 q.val) f.cls s

/-- Hand a frame over: the internal port's transmissions are hand-overs to its consumers, whose commands account for it
(R317); an external port queues it. -/
def forward (port : Fin 4) (f : NetFrame) (q : Fin 5) (s : State) : State :=
  if q = inner then onNetPort inner (fun p => { p with enqueued := bump p.enqueued 1, transmitted := bump p.transmitted 1 }) s
  else onNetPort q (NetPort.push (egressFrame port f q s)) s

/-- An accepted frame: learned from, and sent on every port it goes to. IPv4 addressed to the device alone that it does not
serve is dropped as NOT_SERVED (R311). -/
def acceptFrame (port : Fin 4) (f : NetFrame) (s : State) : State :=
  let qs := egressPorts port f s
  let s1 := if linkLocal f.dst then s else learn port f.src (vlanOf s.net.port[ext port] f).2 s
  if f.dst = s.net.mac ∧ f.etherType = 0x0800 ∧ !ipServed f s ∧ (ptpAt f).isNone then
    onNetPort (ext port) (NetPort.dropped 5) s1
  else
    qs.foldl (fun s q => forward port f q s) (onNetPort (ext port) (fun p => { p with accepted := bump p.accepted 1 }) s1)

/-- A frame whose FCS proves bad after cut-through has begun: it ends with an inverted FCS, counted as CUT_BAD (R315). -/
def cutBad (port : Fin 4) (qs : List (Fin 5)) (s : State) : State :=
  let s1 := onNetPort (ext port) (fun p => { p with accepted := bump p.accepted 1 }) s
  qs.foldl (fun s q => onNetPort q (fun p => { p with enqueued := bump p.enqueued 1, cutBad := bump p.cutBad 1 }) s) s1

/-- FRAME_INGRESS: an external port receives a frame. In Rest only a wake frame is taken; it starts the wake (R34, R338). -/
def execFrameIngress (port : Fin 4) (frame : NetFrame) (fcsOk : Bool) (s : State) : Host.Outcome State Fault Refusal :=
  if s.power.refLost then .next s else
  let p := s.net.port[ext port]
  if s.sys.dev = .reset ∨ !p.link ∨ p.state = 2 then .next s
  else
    let s1 := onNetPort (ext port) (fun p => ({ p with received := bump p.received 1 }).active s.now) s
    if s.power.power = .rest ∧ !toRuhity frame s then .next (onNetPort (ext port) (NetPort.dropped 6) s1)
    else
      let s2 := if s.power.power = .rest ∨ (s.power.power = .nap ∧ toRuhity frame s) then
          s1.onPower fun w => { w with waking := true } else s1
      match ingressDrop port frame fcsOk s with
      | none => .next (acceptFrame port frame s2)
      | some r =>
        let qs := (egressPorts port frame s).filter fun q => cutThrough port (egressFrame port frame q s) q s
        if r = 2 ∧ ingressDrop port frame true s = none ∧ qs ≠ [] then .next (cutBad port qs s2)
        else .next (onNetPort (ext port) (NetPort.dropped r) s2)

/-! Egress. -/

/-- ns until the gate of a class closes; none when it never does (R318). -/
def gateLeft (q : Fin 4) (c : Nat) (s : State) : Option Nat :=
  match s.net.gates[q].active with
  | none => none
  | some l =>
    if l.entries.all fun e => e.1.getLsbD c then none
    else
      let now := s.tbNs (Fin.ofNat 4 l.base)
      let left := (l.at now).2
      let rest := (l.entries.drop (l.idx + 1) ++ l.entries.take l.idx).takeWhile fun e => e.1.getLsbD c
      some (left + (rest.map (·.2)).sum)

/-- The shaped class of a port's number, if the class is shaped. -/
def shaper (q : Fin 4) (c : Nat) (s : State) : Option (Fin 8) :=
  ([(⟨2 * q.val, by omega⟩ : Fin 8), ⟨2 * q.val + 1, by omega⟩]).find? fun k => s.net.cbs[k].cls == some c

/-- May the head frame of a class start now: its gate is open and it fits (R318), its credit is not negative (R320), and on a
port with a frame group a preemptable class waits for preemption (R322)? -/
def eligible (q : Fin 4) (f : NetFrame) (s : State) : Bool :=
  let p := s.net.port[ext q]
  let pre := preempts q f.cls s
  let bytes := if pre then min f.length 64 else f.length
  gateOpen q f.cls s &&
  (match gateLeft q f.cls s with
   | some t => decide ((bytes + 8) * p.byteNs ≤ t)
   | none => true) &&
  (match shaper q f.cls s with
   | some k => decide (0 ≤ s.net.cbs[k].credit)
   | none => true) &&
  ((portFrameGroups q.val s).isEmpty || f.cls == 7 || p.preempt)

/-- The frame that transmits next: the head of the highest eligible class (R316); behind a preempted frame only an express one
(R322). -/
def selectFrame (q : Fin 4) (s : State) : Option NetFrame :=
  [7, 6, 5, 4, 3, 2, 1, 0].findSome? fun c =>
    match s.net.port[ext q].queue.find? (·.cls == c) with
    | some f => if eligible q f s && !((s.net.port[ext q].tx.isSome || s.net.port[ext q].cut.isSome) && preempts q c s) then some f else none
    | none => none

/-- A preemptable frame on the wire is at a fragment boundary: at least 64 bytes have gone and at least 64 remain (R322). -/
def NetTx.divisible (p : NetPort) (x : NetTx) : Bool :=
  x.pre && decide (72 * p.byteNs ≤ x.gone) && decide (76 * p.byteNs ≤ x.left)

/-- The wire is free for a frame: nothing is on it, or a preemptable frame that may be cut now with none cut before it (R322). -/
def wireFree (q : Fin 4) (s : State) : Bool :=
  let p := s.net.port[ext q]
  match p.tx with
  | none => true
  | some x => x.divisible p && p.cut.isNone

/-- A frame goes onto the wire; one it interrupts waits. -/
def NetPort.begin (f : NetFrame) (pre : Bool) (p : NetPort) : NetPort :=
  { p with
    queue := p.queue.erase f, transmitted := bump p.transmitted 1, cut := p.cut.or (p.tx.map fun x => { x with left := x.left + 20 * p.byteNs }),
    tx := some { cls := f.cls, pre := pre, left := p.wire f.length } }

/-- Line rate, bits/s. -/
def NetPort.rate (p : NetPort) : Nat := if p.speed = 2 then 1000000000 else 100000000

/-- Earn credit (R320, R321). -/
def Cbs.earn (n : Nat) (c : Cbs) : Cbs := { c with credit := c.credit + n, earned := bump c.earned n }

/-- Set credit to 0: positive credit is discarded, negative forgiven (R320, R321). -/
def Cbs.zero (c : Cbs) : Cbs :=
  { c with credit := 0, discarded := bump c.discarded c.credit.toNat, forgiven := bump c.forgiven (-c.credit).toNat }

/-- A shaped class over one NET period of 8 ns (R320): frozen while its gate is closed; it spends while it transmits and earns while
it waits for another class that transmits; below 0 it recovers to 0; above 0 it is dropped when nothing of it is queued or on
the wire. -/
def Cbs.during (rate : Nat) (opened sends other waits : Bool) (c : Cbs) : Cbs :=
  if !opened then c
  else if sends then
    let n := (rate - c.idleSlope) * 8
    { c with credit := c.credit - n, spent := bump c.spent n }
  else if waits && other then c.earn (c.idleSlope * 8)
  else if c.credit < 0 then c.earn (min (8 * c.idleSlope) (-c.credit).toNat)
  else if !waits && decide (0 < c.credit) then c.zero
  else c

/-- The shaper k over one NET period. -/
def shaped (s : State) (k : Fin 8) (c : Cbs) : Cbs :=
  let q : Fin 4 := ⟨k.val / 2, by omega⟩
  let p := s.net.port[ext q]
  match c.cls with
  | none => c
  | some x => c.during p.rate (gateOpen q x s) (p.tx.any (·.cls == x)) p.tx.isSome (p.queue.any (·.cls == x))

/-- The wire of a port after one NET period: the frame on it ends, or at its gate's close is cut at the next fragment boundary
(R318); a cut frame resumes when nothing else is on the wire, its gate is open and no express frame can start. -/
def NetPort.send (opened : Nat → Bool) (express : Bool) (p : NetPort) : NetPort :=
  match p.tx with
  | some x =>
    let y := { x with left := x.left - 8, gone := x.gone + 8 }
    if y.left = 0 then { p with tx := none }
    else if !opened x.cls ∧ y.divisible p ∧ p.cut.isNone then { p with tx := none, cut := some { y with left := y.left + 20 * p.byteNs } }
    else { p with tx := some y }
  | none =>
    match p.cut with
    | some x => if opened x.cls ∧ !express then { p with tx := some { x with gone := 0 }, cut := none } else p
    | none => p

/-! Transparent clock (R326). -/

/-- Add to the 64-bit correctionField at an offset; a sum that would overflow is written as the largest value. -/
def correct (a : Nat) (d : Int) (p : List Byte) : List Byte :=
  let x := beInt (slice (a + 8) 8 p) + d
  let y := if 2 ^ 63 ≤ x then 2 ^ 63 - 1 else x
  p.take (a + 8) ++ beI 8 y ++ p.drop (a + 16)

/-- One's-complement sum of 16-bit words. -/
def onesSum : Nat → List Byte → Nat
  | 0, _ => 0
  | n + 1, bs => if bs = [] then 0 else beNat ((bs ++ [0]).take 2) + onesSum n (bs.drop 2)

/-- Fold carries. -/
def foldSum (x : Nat) : Nat :=
  let y := x % 65536 + x / 65536
  y % 65536 + y / 65536

/-- The UDP checksum after a change of the payload: a zero checksum is left zero (R326). -/
def reChecksum (a : Nat) (old new : List Byte) : List Byte :=
  let c := beNat (slice (a - 2) 2 old)
  if c = 0 then new
  else
    let before := onesSum 4 (slice (a + 8) 8 old)
    let after := onesSum 4 (slice (a + 8) 8 new)
    let x := foldSum (foldSum ((65535 - c) + 4 * 65535 - before) + after)
    let y := 65535 - x % 65536
    new.take (a - 2) ++ be 2 (if y = 0 then 65535 else y) ++ new.drop a

/-- Residence scaled by the rate ratio of a base, 2^-16 ns; the rounding is free (log entry 6). -/
def residence (f : NetFrame) (s : State) : Int :=
  let ns : Nat := s.nowNs - f.ingress
  let rate : Int := match s.net.port[Fin.ofNat 5 f.port].rateBase with
    | some b => s.net.tb[(tbRoot s.net.tb 4 (Fin.ofNat 4 b)).2].rate
    | none => 0
  roundOpen (((ns * 65536 : Nat) : Rat) * ((1099511627776 + rate : Int) : Rat) / 1099511627776)

/-- Who sent a message and its number: source identity, sequence, domain; a Delay_Resp names the requester's. -/
def ptpKey (f : NetFrame) (a : Nat) : List Byte :=
  (if ptpType f a = 9 then slice (a + 44) 10 f.payload else slice (a + 20) 10 f.payload) ++
  slice (a + 30) 2 f.payload ++ slice (a + 4) 1 f.payload

/-- A frame with its correction, and what is kept for a later message. Egress on port q; the ingress port's mode rules. -/
def corrected (q : Fin 4) (f : NetFrame) (s : State) : NetFrame × List (List Byte × Int) :=
  let held := s.net.tcHeld
  let p := s.net.port[Fin.ofNat 5 f.port]
  match ptpAt f with
  | none => (f, held)
  | some a =>
    let kind := ptpType f a
    let add := fun (d : Int) =>
      let np := correct a d f.payload
      { f with payload := if f.etherType = 0x0800 then reChecksum a f.payload np else np }
    let link : Int := if p.tcMode = 2 then p.linkDelay * 4096 else 0
    let r := residence f s
    let keep := fun (port : Nat) (k : Nat) => (be 1 port ++ be 1 k ++ ptpKey f a)
    if p.tcMode = 0 ∨ f.port = 4 then (f, held)
    else if kind = 0 then
      if p.twoStep then (f, held ++ [(keep q.val 0, r)]) else (add (r + link), held)
    else if kind = 1 ∧ p.tcMode = 1 then
      if p.twoStep then (f, held ++ [(keep q.val 1, r)]) else (add r, held)
    else if kind = 8 then
      match held.find? (·.1 == keep q.val 0) with
      | some e => (add (e.2 + link), held.filter (·.1 != e.1))
      | none => (f, held)
    else if kind = 9 then
      match held.find? (·.1 == keep f.port 1) with
      | some e => (add e.2, held.filter (·.1 != e.1))
      | none => (f, held)
    else (f, held)

/-- FRAME_EGRESS: the next frame of a port goes onto the wire once that is free (R316 to R320, R322, R326). -/
def execFrameEgress (port : Fin 4) (s : State) : Host.Outcome State Fault Refusal :=
  if !tbRuns s then .next s else
  if s.power.power = .rest ∨ s.sys.dev = .reset ∨ !portUp (ext port) s then .next s
  else
    match (if wireFree port s then selectFrame port s else none) with
    | none => .next s
    | some f =>
      let c := corrected port f s
      let s1 := onNetPort (ext port) (fun p => (p.begin f (preempts port f.cls s)).active s.now) s
      .next (s1.onNet fun n => { n with tcHeld := c.2, sent := n.sent ++ [(port.val, c.1)] })

/-- Once every 8 ns the NET domain's period (R17, R320): gate lists go on to the entry their base selects, shapers count, and the
frames on the wires go on. -/
def tickNet (s : State) : State :=
  if !tbRuns s ∨ s.sysTick % 4 ≠ 0 then s
  else
    let s1 := s.onNet fun n => { n with gates := updAll n.gates fun _ g =>
      { g with active := g.active.map fun l => { l with idx := (l.at (s.tbNs (Fin.ofNat 4 l.base))).1 } } }
    let express := fun (q : Fin 4) => match selectFrame q s1 with
      | some f => !preempts q f.cls s1
      | none => false
    s1.onNet fun n => { n with
      cbs := updAll n.cbs (shaped s1)
      port := updAll n.port fun p x =>
        if h : p.val < 4 then x.send (fun c => gateOpen ⟨p.val, h⟩ c s1) (express ⟨p.val, h⟩) else x }

/-! Links. -/

/-- LINK_UP: negotiation with a partner that offers these modes, or the forced mode (R307). Without a common mode there is no
link and NEG_FAIL is set; a PHY that fails its self-check is recorded and has none (Table 21.5, 21). -/
def execLinkUp (port : Fin 4) (gigabit fast crossed phyOk : Bool) (s : State) : Host.Outcome State Fault Refusal :=
  let p := s.net.port[ext port]
  if s.sys.dev = .reset ∨ p.state = 2 ∨ p.link then .next s
  else
    let speed := if p.forced then (if fast then 1 else 0)
      else if p.advertise.getLsbD 0 ∧ gigabit then 2 else if p.advertise.getLsbD 1 ∧ fast then 1 else 0
    if !phyOk then .next (recordFault 0x0024 4 port.val 0 false s)
    else if speed = 0 then .next (if p.forced then s else onNetPort (ext port) (fun p => { p with fNegFail := true }) s)
    else .next (onNetPort (ext port) (fun p => { p with
      link := true, speed := speed, mdix := if p.forced ∧ p.mdi ≠ 0 then p.mdi == 2 else crossed, verifyTries := 0, verifyFailed := false,
      preempt := false, verifyAt := s.now }) s)

/-- A port without link: its queue is dropped as LINK_DOWN, credits and what the link had established are gone (R316, R320,
R322, R324). -/
def dropLink (port : Fin 4) (s : State) : State :=
  let s1 := onNetPort (ext port) (fun p => { p with
    link := false, speed := 0, asCapable := false, preempt := false, verifyTries := 0, verifyFailed := false, queue := [], tx := none, cut := none,
    pdelayAt := none, linkDown := bump p.linkDown p.queue.length }) s
  s1.onNet fun n => { n with cbs := updAll n.cbs fun k c => if k.val / 2 = port.val then c.zero else c }

/-- LINK_DOWN. -/
def execLinkDown (port : Fin 4) (s : State) : Host.Outcome State Fault Refusal :=
  .next (if s.net.port[ext port].link then dropLink port s else s)

/-- PREEMPT_VERIFY: one of at most three attempts of the MAC merge verify exchange; one that fails has waited 10 ms (R322). -/
def execPreemptVerify (port : Fin 4) (ok : Bool) (s : State) : Host.Outcome State Fault Refusal :=
  if !tbRuns s then .next s else
  let p := s.net.port[ext port]
  if !p.link ∨ (!p.preEnable ∧ (portFrameGroups port.val s).isEmpty) ∨ p.preempt ∨ p.verifyFailed then .next s
  else if ok then .next (onNetPort (ext port) (fun p => { p with preempt := true }) s)
  else if s.now < p.verifyAt + 5000000 then .next s
  else if p.verifyTries + 1 < 3 then
    .next (onNetPort (ext port) (fun p => { p with verifyTries := p.verifyTries + 1, verifyAt := s.now }) s)
  else
    let s1 := onNetPort (ext port) (fun p => { p with verifyTries := 3, verifyFailed := true }) s
    if (portFrameGroups port.val s).isEmpty then .next s1
    else .next (event 0x0806 port.val [] (onNetPort (ext port) (fun p => { p with fPreemptFail := true }) s1))

/-- FDB_AGE_OUT: a dynamic entry has not been refreshed for AGE seconds (R312). -/
def execFdbAgeOut (mac : BitVec 48) (vid : Nat) (s : State) : Host.Outcome State Fault Refusal :=
  .next (s.onNet fun n => { n with fdbDyn := n.fdbDyn.filter fun e =>
    !(e.mac == mac && e.vid == vid && decide (n.age * 500000000 ≤ s.now - e.seen)) })

/-- GATE_ENTRY_CHANGE: the entry in force is the one the base's time selects (R318). -/
def execGateEntryChange (port : Fin 4) (s : State) : Host.Outcome State Fault Refusal :=
  if !tbRuns s then .next s else
  .next (s.onNet fun n => { n with gates := upd n.gates port fun g =>
    { g with active := g.active.map fun l => { l with idx := (l.at (s.tbNs (Fin.ofNat 4 l.base))).1 } } })

/-- GATE_LIST_TAKEOVER: a waiting list takes over when its time has come (R318). -/
def execGateListTakeover (port : Fin 4) (s : State) : Host.Outcome State Fault Refusal :=
  if !tbRuns s then .next s else
  match s.net.gates[port].next with
  | some (l, t) =>
    let now := s.tbNs (Fin.ofNat 4 l.base)
    if now < t then .next s
    else .next (s.onNet fun n => { n with gates := upd n.gates port fun g =>
      { g with next := none, active := if l.entries = [] then none else some { l with idx := (l.at now).1 } } })
  | none => .next s

/-! The device's own IP traffic (R311). -/

/-- The tag of the device's own IP traffic: the management VLAN, 0 meaning untagged. -/
def mgmtTag (s : State) : Option (Nat × Nat) := if s.net.mgmtVid = 0 then none else some (0, s.net.mgmtVid)

/-- ARP_REQUEST: one for the device's address is answered on the port it came from. -/
def execArpRequest (port : Fin 4) (senderMac : BitVec 48) (senderIp targetIp : BitVec 32) (s : State) :
    Host.Outcome State Fault Refusal :=
  if !tbRuns s then .next s else
  if targetIp ≠ ipAddress s ∨ !afterStartup s ∧ !halted s ∨ s.power.power = .rest then .next s
  else
    let p := be 2 1 ++ be 2 0x0800 ++ be 1 6 ++ be 1 4 ++ be 2 2 ++ be 6 s.net.mac.toNat ++ be 4 (ipAddress s).toNat ++
      be 6 senderMac.toNat ++ be 4 senderIp.toNat
    .next (originate [port] { dst := senderMac, vlan := mgmtTag s, etherType := 0x0806, payload := p } s)

/-- The one's-complement checksum of an even number of bytes. -/
def inetChecksum (bs : List Byte) : Nat := 65535 - foldSum (onesSum bs.length bs)

/-- ICMP_ECHO: an echo request to the device's address is answered with the same identifier, sequence and data. `message` is
what follows the checksum. Which identification and time to live the IPv4 header carries is free (log entry 6). -/
def execIcmpEcho (port : Fin 4) (senderMac : BitVec 48) (senderIp targetIp : BitVec 32) (message : List Byte) (s : State) :
    Host.Outcome State Fault Refusal :=
  if !tbRuns s then .next s else
  if targetIp ≠ ipAddress s ∨ !afterStartup s ∧ !halted s ∨ s.power.power = .rest then .next s
  else
    let n := s.sys.free
    let icmp := be 2 0 ++ be 2 (inetChecksum (be 4 0 ++ message)) ++ message
    let head := fun (c : Nat) => be 1 0x45 ++ be 1 0 ++ be 2 (20 + icmp.length) ++ [Config.freeByte n 0, Config.freeByte n 1] ++ be 2 0 ++
      [Config.freeByte n 2] ++ be 1 1 ++ be 2 c ++ be 4 (ipAddress s).toNat ++ be 4 senderIp.toNat
    let p := head (inetChecksum (head 0)) ++ icmp
    .next (originate [port] { dst := senderMac, vlan := mgmtTag s, etherType := 0x0800, payload := p } (fresh s).2)

end Sys2Proof.Machine
end

