-- ==== Sys2Proof/Machine/Time.lean ====
section
/-! DEFINITION.
Following a domain: the servo, redundant domains, validation (R329, R331 to R335, 14), and the time-scheduled outputs (R336, R337). -/

namespace Sys2Proof.Machine

/-- The primary is valid for a base: its instance is, and the base trusts it (R331). -/
def TimeBase.pOk (t : TimeBase) (n : Net) : Bool := n.ptp[Fin.ofNat 2 t.prim].valid && !t.distP

/-- The secondary is. -/
def TimeBase.sOk (t : TimeBase) (n : Net) : Bool :=
  match t.sec with
  | some i => n.ptp[Fin.ofNat 2 i].valid && !t.distS
  | none => false

/-- The domain in force is valid. -/
def TimeBase.forceOk (t : TimeBase) (n : Net) : Bool := if t.source then t.sOk n else t.pOk n

/-- The other domain is valid. -/
def TimeBase.otherOk (t : TimeBase) (n : Net) : Bool := if t.source then t.pOk n else t.sOk n

/-- Mean of the last offsets, 2^-16 ns (R331); how a mean between two units is rounded is free (log entry 6). -/
def meanOf (l : List Int) : Int := if l = [] then 0 else roundOpen ((l.sum : Rat) / (l.length : Rat))

/-- Follow the other domain: its time is corrected by the carried offset, which DRAIN then removes (R332). -/
def TimeBase.changed (t : TimeBase) : TimeBase :=
  { t with source := !t.source, fSwitch := true, backSince := none, goodRun := 0, bigRun := 0,
           draining := t.drain, carried := if t.source then t.carried - t.delta else t.carried + t.delta }

/-- Change over (R332). -/
def changeOver (b : Fin 4) (s : State) : State :=
  event 0x0802 b.val (be 1 (bit (!s.net.tb[b].source))) (onTb b TimeBase.changed s)

/-- Enter HOLDOVER (R329). -/
def TimeBase.hold (now : Nat) (t : TimeBase) : TimeBase :=
  { t with st := 3, holdSince := now, sync := t.holdSync != 0, goodRun := 0, bigRun := 0 }

/-- The domain in force of a base may have become invalid: change over, from HOLDOVER too, or hold (R332). A base that has not found
its first offset goes on looking. -/
def reassess (b : Fin 4) (s : State) : State :=
  let t := s.net.tb[b]
  if t.mode ≠ 1 ∨ t.forceOk s.net then s
  else if t.otherOk s.net then changeOver b s
  else if t.st = 3 ∨ (t.st = 1 ∧ !t.acquired) then s
  else onTb b (TimeBase.hold s.now) s

/-- The same for every base, with what follows it. -/
def reassessAll (s : State) : State :=
  changeBases id ((List.finRange 4).foldl (fun s b => reassess b s) s)

/-- The servo moves RATE: by how much is free, within 0.5 ppm/s for the time since the last Sync (R329, log entry 6). -/
def servo (b : Fin 4) (ticks : Nat) (s : State) : State :=
  let m : Int := (2 ^ 40 * ticks / 10 ^ 15 : Nat)
  let x := freshInt s
  onTb b (fun t => { t with rate := clampInt (-(2 ^ 31)) (2 ^ 31 - 1) (t.rate + clampInt (-m) m x.1) }) x.2

/-- While ACQUIRING nothing bounds the change of RATE but its range (R327, R329). -/
def servoFree (b : Fin 4) (s : State) : State :=
  let x := freshInt s
  onTb b (fun t => { t with rate := clampInt (-(2 ^ 31)) (2 ^ 31 - 1) x.1 }) x.2

/-- A base steps by an offset: the stored offsets and references are from then on measured from the new value (log entry 25). -/
def stepBy (b : Fin 4) (d : Int) (s : State) : State :=
  let s1 := setBase b ((s.net.tb[b].val : Int) + d * 2 ^ 23).toNat s
  onTb b (fun t => { t with
    oP := t.oP.map (· - d), oS := t.oS.map (· - d), meanP := t.meanP - d, meanS := t.meanS - d, refP := t.refP - d,
    refS := t.refS - d }) s1

/-- A Sync's offset joins the last eight (R331). -/
def TimeBase.track (isP : Bool) (port : Fin 4) (o : Int) (t : TimeBase) : TimeBase :=
  if isP then
    let l := (o :: t.oP).take 8
    { t with oP := l, meanP := meanOf l, portP := some port.val }
  else
    let l := (o :: t.oS).take 8
    { t with oS := l, meanS := meanOf l, portS := some port.val }

/-- A suspected path change at a Sync (R333): another port, or an inter-domain offset that departs from Δ. -/
def TimeBase.suspect (n : Net) (isP : Bool) (port : Fin 4) (o : Int) (t : TimeBase) : Bool :=
  let was := if isP then t.portP else t.portS
  let gap := if isP then t.meanS - o else o - t.meanP
  t.st == 2 &&
  ((was.isSome && was != some port.val) ||
   (t.pOk n && t.sOk n && !t.oP.isEmpty && !t.oS.isEmpty &&
    decide (t.offThresh * 65536 < (gap - (t.meanS - t.meanP)).natAbs)))

/-- Enter VALIDATING: RATE is frozen and the means before this Sync are the references (R333). -/
def TimeBase.validate (now : Nat) (t : TimeBase) : TimeBase :=
  { t with st := 4, valSince := now, refP := t.meanP, refS := t.meanS, shiftP := none, shiftS := none }

/-- A distrusted domain is trusted again once its shift has stayed within T of zero for a full WINDOW (R334). -/
def TimeBase.forgive (now : Nat) (isP : Bool) (o : Int) (t : TimeBase) : TimeBase :=
  let near := fun (r : Int) => decide ((o - r).natAbs ≤ t.offThresh * 65536)
  let full := fun (a : Nat) => decide (t.window * 500000 ≤ now - a)
  if isP then
    if !t.distP then t
    else if !near t.refP then { t with cleanP := none }
    else
      let a := t.cleanP.getD now
      if full a then { t with cleanP := none, distP := false } else { t with cleanP := some a }
  else
    if !t.distS then t
    else if !near t.refS then { t with cleanS := none }
    else
      let a := t.cleanS.getD now
      if full a then { t with cleanS := none, distS := false } else { t with cleanS := some a }

/-- At or after the end of the window the first Sync of a domain gives its shift (R334). -/
def TimeBase.shift (now : Nat) (isP : Bool) (o : Int) (t : TimeBase) : TimeBase :=
  if t.st ≠ 4 ∨ now - t.valSince < t.window * 500000 then t
  else if isP then { t with shiftP := some (t.shiftP.getD (o - t.refP)) }
  else { t with shiftS := some (t.shiftS.getD (o - t.refS)) }

/-- An accepted shift: the base slews, or steps to the new time (Table 14.2 rows 3 and 5). -/
def acceptShift (b : Fin 4) (unverified : Bool) (s : State) : State :=
  let t := s.net.tb[b]
  let sh := (if t.source then t.shiftS else t.shiftP).getD 0
  let ref := if t.source then t.refS else t.refP
  let s1 := event 0x0803 b.val (beI 8 sh ++ be 1 (bit unverified)) (onTb b (fun t => { t with st := 2, fAsym := true }) s)
  if t.stepNs * 65536 < sh.natAbs then stepBy b (ref + sh - t.carried) s1 else s1

/-- One domain becomes distrusted (Table 14.2 row 2). -/
def distrust (b : Fin 4) (isP : Bool) (s : State) : State :=
  let s1 := onTb b (fun t =>
    if isP then { t with st := 2, distP := true, cleanP := none, fAsym := true }
    else { t with st := 2, distS := true, cleanS := none, fAsym := true }) s
  reassess b (event 0x0804 b.val (be 1 (if isP then 1 else 2)) s1)

/-- The decision of Table 14.2, once both shifts are there, or that of the only valid domain. -/
def decideShift (b : Fin 4) (s : State) : State :=
  let t := s.net.tb[b]
  let lim : Nat := t.offThresh * 65536
  if t.st ≠ 4 then s
  else
    match t.shiftP, t.shiftS with
    | some p, some q =>
      if p.natAbs ≤ lim ∧ q.natAbs ≤ lim then onTb b (fun t => { t with st := 2 }) s
      else if q.natAbs ≤ lim then distrust b true s
      else if p.natAbs ≤ lim then distrust b false s
      else if (p - q).natAbs ≤ lim then acceptShift b false s
      else
        event 0x0805 b.val (be 1 3) (onTb b (fun t => ({ t with distP := true, distS := true, cleanP := none, cleanS := none, fAsym := true }).hold s.now) s)
    | some _, none => if t.sOk s.net then s else if t.source then s else acceptShift b true s
    | none, some _ => if t.pOk s.net then s else if t.source then acceptShift b true s else s
    | none, none => s

/-- DRAIN: over these ticks the carried offset goes towards 0 by a free amount, at most 0.1 ppm of the time (R332, log entry 6). -/
def drainCarried (b : Fin 4) (ticks : Nat) (s : State) : State :=
  if !s.net.tb[b].draining then s
  else
    let x := freshNat s
    let c := s.net.tb[b].carried
    let m : Int := min (x.1 % (2 * ticks * 65536 / 10000000 + 1)) c.natAbs
    let d := if c < 0 then c + m else c - m
    onTb b (fun t => { t with carried := d, draining := d != 0 }) x.2

/-- The servo at a Sync of the domain in force, offset e after the carried one (Table 14.1). -/
def follow (b : Fin 4) (e : Int) (ticks : Nat) (s : State) : State :=
  let t := s.net.tb[b]
  let near := decide (e.natAbs ≤ t.lockNs * 65536)
  let far := decide (t.stepNs * 65536 < e.natAbs)
  if t.st = 1 then
    if !t.acquired then stepBy b e (onTb b (fun t => { t with acquired := true, goodRun := 0 }) (servoFree b s))
    else
      let n := if near then t.goodRun + 1 else 0
      servoFree b (onTb b (fun t =>
        if 8 ≤ n then { t with st := 2, sync := true, goodRun := 0, bigRun := 0 } else { t with goodRun := n }) s)
  else if t.st = 2 then
    let n := if far then t.bigRun + 1 else 0
    if 4 ≤ n then onTb b (fun t => { t with st := 1, sync := false, acquired := false, goodRun := 0, bigRun := 0 }) s
    else servo b ticks (onTb b (fun t => { t with bigRun := n }) s)
  else if t.st = 3 then
    if far then onTb b (fun t => { t with st := 1, sync := false, acquired := false, goodRun := 0 }) s
    else servo b ticks (onTb b (fun t => { t with st := 2, sync := true, bigRun := 0 }) s)
  else s

/-- Back to the primary once it has been valid and trusted for a full WINDOW (R332); what Δ was while both were valid. -/
def settle (b : Fin 4) (s : State) : State :=
  let t := s.net.tb[b]
  let s1 :=
    if t.source ∧ t.revert ∧ t.pOk s.net ∧ t.st ≠ 4 then
      let a := t.backSince.getD s.now
      if t.window * 500000 ≤ s.now - a then changeOver b s else onTb b (fun t => { t with backSince := some a }) s
    else onTb b (fun t => { t with backSince := none }) s
  onTb b (fun t => if t.pOk s.net && t.sOk s.net && t.st != 4 then { t with delta := t.meanS - t.meanP } else t) s1

/-- What a Sync does to a base that follows its domain; `time` is the domain's time at ingress, 2^-16 ns. -/
def baseSync (b : Fin 4) (isP : Bool) (port : Fin 4) (time : Int) (ticks : Nat) (s : State) : State :=
  let s0 := reassess b s
  let t := s0.net.tb[b]
  let o := time - (t.val / 2 ^ 23 : Nat)
  let s1 := if t.suspect s0.net isP port o then onTb b (TimeBase.validate s0.now) s0 else s0
  let s2 := onTb b (fun t => ((t.track isP port o).forgive s0.now isP o).shift s0.now isP o) s1
  let u := s2.net.tb[b]
  let s3 := if isP != u.source && u.forceOk s2.net then
      let w := drainCarried b ticks s2
      follow b (o - w.net.tb[b].carried) ticks w
    else s2
  settle b (decideShift b s3)

/-- SYNC_RECEIVED: an instance's Sync arrives on a port of its mask; the domain's time at its ingress timestamp comes with the
correction and the link delay applied, and the port's static asymmetry is added here (R329, R335). A changed grandmaster makes
the domain invalid at this Sync, and its next Sync valid again (R331). -/
def execSyncReceived (inst : Fin 2) (port : Fin 4) (gm : BitVec 64) (steps time : Nat) (s : State) :
    Host.Outcome State Fault Refusal :=
  if !tbRuns s then .next s else
  let x := s.net.ptp[inst]
  let p := s.net.port[ext port]
  if s.sys.dev = .reset ∨ s.power.power = .rest ∨ !p.link ∨ !p.asCapable ∨ !x.ports.getLsbD port.val then .next s
  else
    let ok := !(x.valid && x.gmId != gm)
    let s1 := s.onNet fun n => { n with ptp := upd n.ptp inst fun x => { x with
      gmId := gm, steps := steps, slavePort := some port.val, isGm := false, lastSync := s.now, valid := ok } }
    let t : Int := (time : Int) + p.asym
    let ticks := s.now - x.lastSync
    let bases := (List.finRange 4).filter fun (b : Fin 4) =>
      let y := s.net.tb[b]
      y.mode == 1 && (y.prim == inst.val || y.sec == some inst.val)
    let s2 := bases.foldl (fun s b => baseSync b (s.net.tb[b].prim == inst.val) port t ticks s) s1
    .next (changeBases id s2)

/-- Ticks between the peer-delay exchanges of the ports: the shorter interval of the two instances. -/
def pdelayTicks (s : State) : Nat :=
  let n := min (s.net.ptp[(0 : Fin 2)]).logPdelay (s.net.ptp[(1 : Fin 2)]).logPdelay
  500000000 * 2 ^ n.toNat / 2 ^ (-n).toNat

/-- PDELAY_EXCHANGE: every 2^logPdelayInterval s, a port's mean link delay, in 1/16 ns; asCapable up to 800 ns while the partner answers (R324). A step of
more than PD_THRESH from the filtered value starts validation in the bases whose domains arrive there (R333); how the filter
follows is free between the old and the new value (log entry 6). -/
def execPdelayExchange (port : Fin 4) (delay : Nat) (answered : Bool) (s : State) : Host.Outcome State Fault Refusal :=
  if !tbRuns s then .next s else
  let p := s.net.port[ext port]
  if !p.link ∨ (p.pdelayAt.any fun t => decide (s.now < t + pdelayTicks s)) then .next s
  else if !answered then .next (onNetPort (ext port) (fun p => { p with asCapable := false, pdelayAt := some s.now }) s)
  else
    let gap := ((delay : Int) - p.filtDelay).natAbs
    let hit := fun (t : TimeBase) => t.mode == 1 && t.st == 2 && p.asCapable &&
      (t.portP == some port.val || t.portS == some port.val) && decide (t.pdThresh * 16 < gap)
    let x := freshNat s
    let f := if p.asCapable then min p.filtDelay delay + x.1 % (gap + 1) else delay
    let s1 := onNetPort (ext port) (fun p => { p with linkDelay := delay, filtDelay := f, asCapable := decide (delay ≤ 12800), pdelayAt := some s.now }) x.2
    .next (changeBases id (s1.onNet fun n => { n with tb := updAll n.tb fun _ t => if hit t then t.validate s.now else t }))

/-- SYNC_RECEIPT_TIMEOUT: three intervals without a Sync make a domain invalid (R331); a validation that waited for its shift is then
decided by the other's (R334). -/
def execSyncReceiptTimeout (inst : Fin 2) (s : State) : Host.Outcome State Fault Refusal :=
  let x := s.net.ptp[inst]
  if !x.valid ∨ x.isGm ∨ (s.now - x.lastSync) * 2 ^ (-x.logSync).toNat < 1500000000 then .next s
  else
    let s1 := reassessAll (s.onNet fun n => { n with ptp := upd n.ptp inst fun x => { x with valid := false } })
    .next (changeBases id ((List.finRange 4).foldl (fun s b => decideShift b s) s1))

/-- HOLDOVER_EXPIRY: HOLD_SYNC after entry into HOLDOVER the base is no longer synchronised (Table 14.1). -/
def execHoldoverExpiry (base : Fin 4) (s : State) : Host.Outcome State Fault Refusal :=
  let t := s.net.tb[base]
  .next (if t.mode = 1 ∧ t.st = 3 ∧ t.holdSync * 500000000 ≤ s.now - t.holdSince then
    changeBases id (onTb base (fun t => { t with sync := false }) s) else s)

/-- GM_SYNC_SEND: every 2^logSyncInterval s, as grandmaster an instance sends Sync and Follow_Up from its source base on every asCapable port of its mask;
what IEEE 802.1AS puts into their bytes is free (R324, R325, log entry 6). -/
def execGmSyncSend (inst : Fin 2) (s : State) : Host.Outcome State Fault Refusal :=
  if !tbRuns s then .next s else
  let x := s.net.ptp[inst]
  if !x.isGm ∨ (x.sentSync.any fun t => decide ((s.now - t) * 2 ^ (-x.logSync).toNat < 500000000)) then .next s
  else
    let ports := (List.finRange 4).filter fun (p : Fin 4) => x.ports.getLsbD p.val && s.net.port[ext p].asCapable
    let body := fun (m n : Nat) => be 1 (0x10 + m) ++ (List.range (n - 1)).map fun k => Config.freeByte (s.sys.free + m) k
    let send := fun (m n : Nat) (s : State) =>
      originate ports { dst := 0x0180C200000E, etherType := 0x88F7, payload := body m n, cls := 7 } s
    let s1 := send 8 76 (send 0 44 s)
    let s2 := s1.onNet fun n => { n with ptp := upd n.ptp inst fun x => { x with sentSync := some s.now } }
    .next (s2.onSys fun y => { y with free := y.free + 9 })

/-- The clock identity a grandmaster-capable device states: the EUI-64 of its MAC address (PRESUMED, log entry 26). -/
def clockIdentity (mac : BitVec 48) : BitVec 64 :=
  BitVec.ofNat 64 (mac.toNat / 2 ^ 24 * 2 ^ 40 + 0xFFFE * 2 ^ 24 + mac.toNat % 2 ^ 24)

/-- ANNOUNCE_RECEIPT_TIMEOUT: the master on a port has gone; another port's better master is followed from its first Sync on, and
without one a grandmaster-capable instance becomes grandmaster (R324, R325). -/
def execAnnounceReceiptTimeout (inst : Fin 2) (port : Fin 4) (other : Option (Fin 4)) (s : State) :
    Host.Outcome State Fault Refusal :=
  if !tbRuns s then .next s else
  let x := s.net.ptp[inst]
  let set := fun (f : PtpInst → PtpInst) => s.onNet fun n => { n with ptp := upd n.ptp inst f }
  if s.power.power = .rest ∨ x.isGm ∨ (x.slavePort.isSome ∧ x.slavePort ≠ some port.val) then .next s
  else
    match other with
    | some p => .next (set fun x => { x with slavePort := some p.val })
    | none =>
      if x.gmCapable then
        let t := s.onNet fun n => { n with ptp := upd n.ptp inst fun x =>
          { x with slavePort := none, isGm := true, gmId := clockIdentity n.mac, steps := 0, valid := true } }
        .next (changeBases id t)
      else .next (set fun x => { x with slavePort := none })

/-! Time-scheduled outputs. -/

/-- Change an output. -/
def onTso (k : Fin 8) (f : Tso → Tso) (s : State) : State := s.onNet fun n => { n with tso := upd n.tso k f }

/-- A schedule that waits takes effect at its first instant (R336). -/
def Tso.due (now : Fin 4 → Nat) (t : Tso) : Tso :=
  match t.next with
  | some l => if l.getD 4 0 ≤ now (Fin.ofNat 4 (l.getD 0 0)) then { t.load l with armed := true } else t
  | none => t

/-- TSO_INSTANT: the next instant has come: it fires its leading edge and is an event for latches, or INHIBIT skips it (R336,
R337). In Rest nothing fires; the step on wake skips what fell into it. -/
def execTsoInstant (out : Fin 8) (s : State) : Host.Outcome State Fault Refusal :=
  if !tbRuns s then .next s else
  if s.power.power = .rest ∨ s.sys.dev = .reset then .next s
  else
    let s1 := onTso out (Tso.due fun b => s.tbNs b) s
    let t := s1.net.tso[out]
    let b : Fin 4 := Fin.ofNat 4 t.base
    if !t.armed ∨ s.tbNs b < t.inst ∨ (t.count ≠ 0 ∧ t.count ≤ t.j) ∨ (t.period = 0 ∧ t.j ≠ 0) then .next s1
    else if t.inhibit ∧ !s.net.tb[b].sync then .next (event 0x0807 out.val [] (onTso out (fun t => t.pass 1) s1))
    else
      let s2 := onTso out (fun t => { t with
        j := t.j + 1, armed := t.more 1 || t.next.isSome, level := !t.activeLow, fired := t.fired + 1, fFired := true,
        pulseEnd := some (t.base, t.inst + t.width) }) s1
      .next (latchEvents 1 out.val ((s.tb0 : Int) + t.inst - s.tbNs b).toNat s2)

/-- TSO_PULSE_END: the trailing edge, W after its instant (R336). -/
def execTsoPulseEnd (out : Fin 8) (s : State) : Host.Outcome State Fault Refusal :=
  if !tbRuns s then .next s else
  let t := s.net.tso[out]
  .next (match t.pulseEnd with
    | some e => if e.2 ≤ s.tbNs (Fin.ofNat 4 e.1) then onTso out (fun t => { t with level := t.activeLow, pulseEnd := none }) s else s
    | none => s)

end Sys2Proof.Machine
end

