-- ==== Sys2Proof/Machine/NetOps.lean ====
section
/-! DEFINITION.
The backbone-and-time class (R340, R341, Table 14.5, 14). -/

namespace Sys2Proof.Machine

/-! Status words (Table 14.4). -/

/-- PORT_STATUS. -/
def portStatus (q : Fin 4) (s : State) : Word :=
  let p := s.net.port[ext q]
  pack [(0, 2, p.speed), (2, 1, bit p.link), (3, 1, bit p.fNegFail), (4, 2, p.state), (6, 1, bit p.asCapable), (7, 1, bit p.preempt),
    (8, 1, bit p.fPreemptFail), (9, 1, bit p.mdix), (10, 1, bit s.net.gates[q].active.isSome),
    (11, 1, bit (!(portFrameGroups q.val s).isEmpty))]

/-- TB_STATUS. -/
def tbStatus (b : Fin 4) (s : State) : Word :=
  let t := s.net.tb[b]
  pack [(0, 3, t.st), (3, 1, bit t.sync), (4, 2, t.mode), (6, 1, bit t.source), (7, 1, bit t.distP), (8, 1, bit t.distS),
    (9, 1, bit t.fStep), (10, 1, bit t.fSwitch), (11, 1, bit t.fAsym), (12, 2, t.follows)]

/-- TSO_STATUS. -/
def tsoStatus (k : Fin 8) (s : State) : Word :=
  let t := s.net.tso[k]
  pack [(0, 1, bit t.armed), (1, 1, bit t.level), (2, 2, t.base), (4, 1, bit t.fFired), (5, 1, bit t.fSkipped)]

/-- 2^-16 ns as 1/16 ns, 32 bits; what lies between two units goes to a free one (log entry 6). -/
def sixteenths (x : Int) : Word := BitVec.ofInt 32 (roundOpen ((x : Rat) / 4096))

/-- TB_OFFSET_P, TB_OFFSET_S and TB_DELTA, Δ being o_s - o_p (R331). -/
def tbOffsets (b : Fin 4) (s : State) : List Word :=
  let t := s.net.tb[b]
  [sixteenths t.meanP, sixteenths t.meanS, sixteenths (if t.sec.isSome then t.meanS - t.meanP else 0)]

/-- A base's value in the format of R9: seconds, ns, 2^-16 ns. -/
def tbParts (b : Fin 4) (s : State) : Nat × Nat × Nat :=
  let v : Nat := s.net.tb[b].val
  (v / 2 ^ 39 / 1000000000, v / 2 ^ 39 % 1000000000, v / 2 ^ 23 % 65536)

/-- The same as 12 bytes. -/
def tbBytes (b : Fin 4) (s : State) : List Byte :=
  let p := tbParts b s
  be 6 p.1 ++ be 4 p.2.1 ++ be 2 p.2.2

/-- Frames dropped at ingress and egress (PORT_DROP). -/
def NetPort.drops (p : NetPort) : Tally :=
  p.runt + p.oversize + p.fcs + p.vlanFilter + p.queueFull + p.linkDown + p.cutBad + p.notServed + p.restDrop + p.pause

/-! Switch. -/

/-- NET_ADDR_CONFIG (R311). The reply leaves by the address the request came to, so the new one takes effect after it. -/
def opNetAddrConfig : Op :=
  { opcode := 0x0800, target := device, toe := false, states := [.commissioning], schema := [optional 0x0100 16]
    values := fun rq _ => firstDeny
      [(decide (32 < num rq 0x0100 4 1) || num rq 0x0100 5 3 != 0 || decide (4094 < num rq 0x0100 14 2), badValue rq 0x0100)]
    effect := fun rq s =>
      if !has rq 0x0100 then .done s []
      else .done (s.onNet fun n => { n with
        ip := BitVec.ofNat 32 (num rq 0x0100 0 4), prefixLen := num rq 0x0100 4 1, gateway := BitVec.ofNat 32 (num rq 0x0100 8 4),
        udpPort := num rq 0x0100 12 2, mgmtVid := num rq 0x0100 14 2 }) [] }

/-- Executes NET_ADDR_CONFIG. -/
def execNetAddrConfig (rq : Request) (s : State) : Host.Outcome State Fault Refusal := runCommand opNetAddrConfig rq s

/-- Values of PORT_CONFIG (R341). -/
def portValues (rq : Request) (_ : State) : Option Deny :=
  let rate := num rq 0x0102 2 1
  firstDeny
    [(decide (3 < num rq 0x0100 0 1) || decide (1 < num rq 0x0100 1 1) || decide (2 < num rq 0x0100 2 1) || num rq 0x0100 3 1 != 0,
        badValue rq 0x0100),
     (has rq 0x0101 && (num rq 0x0101 0 2 == 0 || decide (4094 < num rq 0x0101 0 2) || decide (7 < num rq 0x0101 2 1) ||
        decide (5 < num rq 0x0101 3 1)), badValue rq 0x0101),
     (has rq 0x0102 && (decide (2 < num rq 0x0102 0 1) || decide (1 < num rq 0x0102 1 1) || (decide (3 < rate) && rate != 0xFF) ||
        num rq 0x0102 3 1 != 0), badValue rq 0x0102),
     (decide (1 < num rq 0x0103 1 1), badValue rq 0x0103),
     (has rq 0x0104 && (rq.target != 0 || decide (num rq 0x0104 0 4 < 10) || decide (1000000 < num rq 0x0104 0 4)), badValue rq 0x0104)]

/-- What PORT_CONFIG would change on a port with a frame group against R295. -/
def breaksGroup (rq : Request) : Bool :=
  (has rq 0x0100 && (num rq 0x0100 1 1 == 1 || num rq 0x0100 0 1 % 2 == 0)) ||
  (has rq 0x0101 && num rq 0x0101 3 1 / 2 % 4 == 2) ||
  (has rq 0x0103 && (num rq 0x0103 0 1 != 0x7F || num rq 0x0103 1 1 == 0))

/-- A port's settings after PORT_CONFIG. -/
def NetPort.configured (rq : Request) (now : Nat) (p : NetPort) : NetPort :=
  let p1 := if has rq 0x0100 then
      { p with advertise := BitVec.ofNat 2 (num rq 0x0100 0 1), forced := num rq 0x0100 1 1 == 1, mdi := num rq 0x0100 2 1 } else p
  let p2 := if has rq 0x0101 then
      { p1 with pvid := num rq 0x0101 0 2, pcp := num rq 0x0101 2 1, taggedOnly := num rq 0x0101 3 1 % 2 == 1,
                state := num rq 0x0101 3 1 / 2 % 4 } else p1
  let rate := num rq 0x0102 2 1
  let p3 := if has rq 0x0102 then
      { p2 with tcMode := num rq 0x0102 0 1, twoStep := num rq 0x0102 1 1 == 1, rateBase := if rate = 0xFF then none else some rate,
                asym := int rq 0x0102 4 4 } else p2
  if has rq 0x0103 then
    { p3 with preMask := BitVec.ofNat 8 (num rq 0x0103 0 1), preEnable := num rq 0x0103 1 1 == 1,
              preempt := p3.preempt && num rq 0x0103 1 1 == 1, verifyTries := 0, verifyFailed := false, verifyAt := now }
  else p3

/-- PORT_CONFIG: a changed link setting negotiates anew; a DISABLED port's PHY is powered down (R307, R314). -/
def opPortConfig : Op :=
  { opcode := 0x0801, target := below 4, toe := false, states := [.commissioning, .operational]
    schema := [optional 0x0100 4, optional 0x0101 4, optional 0x0102 8, optional 0x0103 2, optional 0x0104 4]
    values := portValues
    effect := fun rq s =>
      let q := tgt 4 rq
      let p := s.net.port[ext q]
      if !(portFrameGroups q.val s).isEmpty ∧ breaksGroup rq then .deny conflict
      else
        let n := p.configured rq s.now
        let s1 := onNetPort (ext q) (NetPort.configured rq s.now) s
        let anew := n.advertise != p.advertise || n.forced != p.forced || n.mdi != p.mdi || n.state == 2
        let s2 := if p.link ∧ anew then dropLink q s1 else s1
        .done (if has rq 0x0104 then s2.onNet fun n => { n with age := num rq 0x0104 0 4 } else s2) [] }

/-- Executes PORT_CONFIG. -/
def execPortConfig (rq : Request) (s : State) : Host.Outcome State Fault Refusal := runCommand opPortConfig rq s

/-- VLAN_CONFIG (R313). -/
def opVlanConfig : Op :=
  { opcode := 0x0802, target := fun t => decide (1 ≤ t) && decide (t ≤ 4094), toe := false, states := [.commissioning, .operational]
    schema := [optional 0x0100 2]
    values := fun rq _ => firstDeny
      [(decide (31 < num rq 0x0100 0 1) || decide (31 < num rq 0x0100 1 1), badValue rq 0x0100)]
    effect := fun rq s =>
      let vid := rq.target.toNat
      let rest := s.net.vlans.filter (·.vid != vid)
      if !has rq 0x0100 then .done (s.onNet fun n => { n with vlans := rest }) []
      else if 64 ≤ rest.length then .deny (deny .resource)
      else
        let v : Vlan := { vid := vid, members := BitVec.ofNat 5 (num rq 0x0100 0 1), untagged := BitVec.ofNat 5 (num rq 0x0100 1 1) }
        .done (s.onNet fun n => { n with vlans := rest ++ [v] }) [] }

/-- Executes VLAN_CONFIG. -/
def execVlanConfig (rq : Request) (s : State) : Host.Outcome State Fault Refusal := runCommand opVlanConfig rq s

/-- FDB_STATIC (R312). -/
def opFdbStatic : Op :=
  { opcode := 0x0803, target := device, toe := false, states := [.commissioning, .operational], schema := [fixed 0x0100 10]
    values := fun rq _ => firstDeny
      [(num rq 0x0100 6 2 == 0 || decide (4094 < num rq 0x0100 6 2) || decide (31 < num rq 0x0100 8 1) || num rq 0x0100 9 1 != 0,
        badValue rq 0x0100)]
    effect := fun rq s =>
      let e : Fdb := { mac := BitVec.ofNat 48 (num rq 0x0100 0 6), vid := num rq 0x0100 6 2, ports := BitVec.ofNat 5 (num rq 0x0100 8 1) }
      let other := fun (x : Fdb) => !(x.mac == e.mac && x.vid == e.vid)
      let rest := s.net.fdbStatic.filter other
      if e.ports = 0 then .done (s.onNet fun n => { n with fdbStatic := rest }) []
      else if 256 ≤ rest.length then .deny (deny .resource)
      else .done (s.onNet fun n => { n with fdbStatic := rest ++ [e], fdbDyn := n.fdbDyn.filter other }) [] }

/-- Executes FDB_STATIC. -/
def execFdbStatic (rq : Request) (s : State) : Host.Outcome State Fault Refusal := runCommand opFdbStatic rq s

/-- The list a GATE_LIST_SET gives; BASE absent keeps the base and base time of the list that waits, else of
the one in force. -/
def gateListOf (rq : Request) (g : Gates) : GateList :=
  let old := ((g.next.map (·.1)).or g.active).getD {}
  { base := numD rq 0x0100 0 1 old.base, t0 := numD rq 0x0100 8 8 old.t0,
    entries := (every rq 0x0101).map fun t => (BitVec.ofNat 8 (beNat (t.value.take 1)), beNat (slice 4 4 t.value)) }

/-- When a new list takes over: at its base time if that lies at least 1 ms ahead, else at the first whole cycle after it that
does (R318). -/
def GateList.begins (now : Nat) (l : GateList) : Nat :=
  let e := now + 1000000
  let c := max l.cycle 1
  if e ≤ l.t0 then l.t0 else l.t0 + (e - l.t0 + c - 1) / c * c

/-- GATE_LIST_SET (R318, R319). -/
def opGateListSet : Op :=
  { opcode := 0x0804, target := below 4, toe := false, states := [.commissioning, .operational]
    schema := [optional 0x0100 16, { type := 0x0101, lo := 8, hi := 8, req := false, many := 256 }]
    values := fun rq _ => firstDeny
      [(decide (3 < num rq 0x0100 0 1) || num rq 0x0100 1 7 != 0, badValue rq 0x0100),
       ((every rq 0x0101).any fun t =>
          let i := beNat (slice 4 4 t.value)
          decide (i < 64) || i % 8 != 0 || beNat (slice 1 3 t.value) != 0, badValue rq 0x0101)]
    effect := fun rq s =>
      let q := tgt 4 rq
      let l := gateListOf rq s.net.gates[q]
      if !(portFrameGroups q.val s).isEmpty ∧ (l.entries.any fun e => !e.1.getLsbD 7) then .deny conflict
      else if l.entries = [] then .done (s.onNet fun n => { n with gates := upd n.gates q fun _ => {} }) []
      else
        let t := l.begins (s.tbNs (Fin.ofNat 4 l.base))
        .done (s.onNet fun n => { n with gates := upd n.gates q fun g => { g with next := some (l, t) } }) [] }

/-- Executes GATE_LIST_SET. -/
def execGateListSet (rq : Request) (s : State) : Host.Outcome State Fault Refusal := runCommand opGateListSet rq s

/-- The line rate the shapers of a port count with: the link's, or without link the best it may have (log entry 27). -/
def shaperRate (p : NetPort) : Nat :=
  if p.link then p.rate else if p.forced ∨ !p.advertise.getLsbD 0 then 100000000 else 1000000000

/-- CBS_CONFIG (R320). -/
def opCbsConfig : Op :=
  { opcode := 0x0805, target := below 4, toe := false, states := [.commissioning, .operational], schema := [fixed 0x0100 8]
    values := fun rq s =>
      let q := tgt 4 rq
      let c := num rq 0x0100 0 1
      let slope := num rq 0x0100 4 4
      let mine := ([(⟨2 * q.val, by omega⟩ : Fin 8), ⟨2 * q.val + 1, by omega⟩]).map fun k => s.net.cbs[k]
      let others := mine.filter fun x => x.cls.isSome && x.cls != some c
      firstDeny
        [(c == 0 || decide (6 < c) || num rq 0x0100 1 3 != 0, badValue rq 0x0100),
         (slope != 0 && others.length == 2, badValue rq 0x0100),
         (slope != 0 && decide (3 * shaperRate s.net.port[ext q] < 4 * (slope + (others.map (·.idleSlope)).sum)), badValue rq 0x0100)]
    effect := fun rq s =>
      let q := tgt 4 rq
      let c := num rq 0x0100 0 1
      let slope := num rq 0x0100 4 4
      let free := ([(⟨2 * q.val, by omega⟩ : Fin 8), ⟨2 * q.val + 1, by omega⟩]).find? fun k => s.net.cbs[k].cls.isNone
      match shaper q c s, free with
      | some k, _ =>
        let new := fun (x : Cbs) => { x.zero with cls := if slope = 0 then none else some c, idleSlope := slope }
        .done (s.onNet fun n => { n with cbs := upd n.cbs k new }) []
      | none, some k =>
        if slope = 0 then .done s []
        else
          let new := fun (x : Cbs) => { x.zero with cls := some c, idleSlope := slope }
          .done (s.onNet fun n => { n with cbs := upd n.cbs k new }) []
      | none, none => .done s [] }

/-- Executes CBS_CONFIG. -/
def execCbsConfig (rq : Request) (s : State) : Host.Outcome State Fault Refusal := runCommand opCbsConfig rq s

/-- PORT_STATUS_READ. -/
def opPortStatusRead : Op :=
  { opcode := 0x0806, target := below 4, toe := false, states := afterStart, schema := []
    effect := fun rq s =>
      let q := tgt 4 rq
      let p := s.net.port[ext q]
      let counts := [p.received, p.accepted, p.runt, p.oversize, p.fcs, p.vlanFilter, p.queueFull, p.linkDown, p.cutBad, p.notServed,
        p.restDrop, p.pause, p.transmitted]
      .done s [(0x0100, be 4 (portStatus q s).toNat), (0x0101, be 4 p.linkDelay), (0x0102, counts.flatMap fun c => be 8 c.toNat)] }

/-- Executes PORT_STATUS_READ. -/
def execPortStatusRead (rq : Request) (s : State) : Host.Outcome State Fault Refusal := runCommand opPortStatusRead rq s

/-! PTP. -/

/-- PTP_CONFIG (R324, R325). -/
def opPtpConfig : Op :=
  { opcode := 0x0810, target := below 2, toe := false, states := [.commissioning]
    schema := [optional 0x0100 1, optional 0x0101 1, optional 0x0102 2, optional 0x0103 4]
    values := fun rq s => firstDeny
      [(decide (127 < num rq 0x0100 0 1), badValue rq 0x0100), (decide (15 < num rq 0x0101 0 1), badValue rq 0x0101),
       (decide (int rq 0x0102 0 1 < -7) || decide (0 < int rq 0x0102 0 1), badValue rq 0x0102),
       (decide (1 < num rq 0x0103 0 1) || decide (3 < num rq 0x0103 3 1) ||
          (num rq 0x0103 0 1 == 1 && s.net.tb[Fin.ofNat 4 (num rq 0x0103 3 1)].mode != 0), badValue rq 0x0103)]
    effect := fun rq s =>
      let set := fun (x : PtpInst) =>
        let a := if has rq 0x0100 then
            { x with domain := num rq 0x0100 0 1, valid := x.valid && x.domain == num rq 0x0100 0 1 } else x
        let b := if has rq 0x0101 then { a with ports := BitVec.ofNat 4 (num rq 0x0101 0 1) } else a
        let c := if has rq 0x0102 then { b with logSync := int rq 0x0102 0 1, logPdelay := int rq 0x0102 1 1 } else b
        if has rq 0x0103 then
          let cap := num rq 0x0103 0 1 == 1
          { c with gmCapable := cap, prio1 := if cap then num rq 0x0103 1 1 else 255, prio2 := num rq 0x0103 2 1,
                   gmBase := num rq 0x0103 3 1, isGm := c.isGm && cap, valid := c.valid && (cap || !c.isGm) }
        else c
      .done (reassessAll (s.onNet fun n => { n with ptp := upd n.ptp (tgt 2 rq) set })) [] }

/-- Executes PTP_CONFIG. -/
def execPtpConfig (rq : Request) (s : State) : Host.Outcome State Fault Refusal := runCommand opPtpConfig rq s

/-- PTP_STATUS. -/
def opPtpStatus : Op :=
  { opcode := 0x0811, target := below 2, toe := false, states := afterStart, schema := []
    effect := fun rq s =>
      let x := s.net.ptp[tgt 2 rq]
      let mask := ((List.finRange 4).map fun (p : Fin 4) => bit s.net.port[ext p].asCapable * 2 ^ p.val).sum
      .done s [(0x0100, be 8 x.gmId.toNat), (0x0101, be 2 x.steps ++ be 1 (x.slavePort.getD 0xFF) ++ be 1 mask)] }

/-- Executes PTP_STATUS. -/
def execPtpStatus (rq : Request) (s : State) : Host.Outcome State Fault Refusal := runCommand opPtpStatus rq s

/-! Time bases. -/

/-- A base that has begun to look for its domain (R329). -/
def TimeBase.acquire (t : TimeBase) : TimeBase :=
  { t with
    st := 1, sync := false, acquired := false, source := false, carried := 0, delta := 0, oP := [], oS := [], meanP := 0, meanS := 0,
    distP := false, distS := false, draining := false, goodRun := 0, bigRun := 0, cleanP := none, cleanS := none, backSince := none, shiftP := none,
    shiftS := none, portP := none, portS := none }

/-- A base's settings after TIMEBASE_CONFIG; a changed mode, or a changed domain in mode 1, begins anew. -/
def TimeBase.configured (rq : Request) (t : TimeBase) : TimeBase :=
  let sec := num rq 0x0101 1 1
  let t1 := if has rq 0x0101 then { t with prim := num rq 0x0101 0 1, sec := if sec = 0xFF then none else some sec } else t
  let t2 := if has rq 0x0102 then { t1 with follows := num rq 0x0102 0 1, followOff := int rq 0x0102 4 8 } else t1
  let o := num rq 0x0103 12 1
  let t3 := if has rq 0x0103 then
      { t2 with lockNs := num rq 0x0103 0 4, stepNs := num rq 0x0103 4 4, bw := num rq 0x0103 8 2, holdSync := num rq 0x0103 10 2,
                revert := hasBit o 0, drain := hasBit o 1 } else t2
  let t4 := if has rq 0x0104 then
      { t3 with pdThresh := num rq 0x0104 0 4, offThresh := num rq 0x0104 4 4, window := num rq 0x0104 8 4 } else t3
  let m := numD rq 0x0100 0 1 t.mode
  if m ≠ t.mode ∨ (m = 1 ∧ (t4.prim ≠ t.prim ∨ t4.sec ≠ t.sec)) then
    if m = 1 then { t4.acquire with mode := 1 } else { t4.acquire with mode := m, st := 0, sync := true }
  else t4

/-- A grandmaster-capable instance's source base (R325). -/
def gmSource (b : Fin 4) (s : State) : Bool := (List.finRange 2).any fun (i : Fin 2) => s.net.ptp[i].gmCapable && s.net.ptp[i].gmBase == b.val

/-- Values of TIMEBASE_CONFIG (R341). -/
def baseValues (rq : Request) (s : State) : Option Deny :=
  let b := tgt 4 rq
  let t := s.net.tb[b]
  let n := t.configured rq
  let lock := num rq 0x0103 0 4
  let stepLim := num rq 0x0103 4 4
  let bw := num rq 0x0103 8 2
  let pd := num rq 0x0104 0 4
  let off := num rq 0x0104 4 4
  let win := num rq 0x0104 8 4
  firstDeny
    [(decide (2 < num rq 0x0100 0 1), badValue rq 0x0100),
     (decide (1 < num rq 0x0101 0 1) || (has rq 0x0101 && decide (1 < num rq 0x0101 1 1) && num rq 0x0101 1 1 != 0xFF) ||
        (has rq 0x0101 && num rq 0x0101 0 1 == num rq 0x0101 1 1), badValue rq 0x0101),
     (decide (3 < num rq 0x0102 0 1) || num rq 0x0102 1 3 != 0, badValue rq 0x0102),
     (has rq 0x0103 && (decide (lock < 10) || decide (10000 < lock) || decide (stepLim < 1000) || decide (1000000000 < stepLim) ||
        decide (bw < 10) || decide (4000 < bw) || decide (3600 < num rq 0x0103 10 2) || decide (3 < num rq 0x0103 12 1) ||
        num rq 0x0103 13 3 != 0), badValue rq 0x0103),
     (has rq 0x0104 && (decide (pd < 10) || decide (10000 < pd) || decide (off < 10) || decide (10000 < off) || decide (win < 250) ||
        decide (60000 < win)), badValue rq 0x0104),
     (!chainsEnd (upd s.net.tb b fun _ => n), badValue rq (if has rq 0x0102 then 0x0102 else 0x0100)),
     (n.mode != 0 && gmSource b s, badValue rq 0x0100)]

/-- TIMEBASE_CONFIG: in Operational only FOLLOW's OFFSET may change (Table 14.5). -/
def opTimebaseConfig : Op :=
  { opcode := 0x0820, target := below 4, toe := false, states := [.commissioning, .operational]
    schema := [optional 0x0100 1, optional 0x0101 2, optional 0x0102 12, optional 0x0103 16, optional 0x0104 12]
    values := baseValues
    effect := fun rq s =>
      let b := tgt 4 rq
      let more := has rq 0x0100 || has rq 0x0101 || has rq 0x0103 || has rq 0x0104 ||
        (has rq 0x0102 && num rq 0x0102 0 1 != s.net.tb[b].follows)
      if s.sys.dev ≠ .commissioning ∧ more then .deny conflict
      else .done (changeBases (fun n => { n with tb := upd n.tb b (TimeBase.configured rq) }) s) [] }

/-- Executes TIMEBASE_CONFIG. -/
def execTimebaseConfig (rq : Request) (s : State) : Host.Outcome State Fault Refusal := runCommand opTimebaseConfig rq s

/-- TIMEBASE_SET (R328, R341). -/
def opTimebaseSet : Op :=
  { opcode := 0x0821, target := below 4, toe := true, states := [.commissioning, .operational]
    schema := [optional 0x0100 12, optional 0x0101 4]
    values := fun rq _ => firstDeny [(decide (999999999 < num rq 0x0100 6 4), badValue rq 0x0100)]
    effect := fun rq s =>
      let b := tgt 4 rq
      if s.net.tb[b].mode ≠ 0 then .deny conflict
      else
        let s1 := if has rq 0x0101 then onTb b (fun t => { t with rate := int rq 0x0101 0 4 }) s else s
        if !has rq 0x0100 then .done s1 []
        else
          let ns : Nat := num rq 0x0100 0 6 * 1000000000 + num rq 0x0100 6 4
          .done (setBase b (ns * 2 ^ 39 + num rq 0x0100 10 2 * 2 ^ 23) s1) [] }

/-- Executes TIMEBASE_SET. -/
def execTimebaseSet (rq : Request) (s : State) : Host.Outcome State Fault Refusal := runCommand opTimebaseSet rq s

/-- TIMEBASE_STATUS. -/
def opTimebaseStatus : Op :=
  { opcode := 0x0822, target := below 4, toe := false, states := afterStart, schema := []
    effect := fun rq s =>
      let b := tgt 4 rq
      .done s [(0x0100, be 4 (tbStatus b s).toNat), (0x0101, tbBytes b s), (0x0102, (tbOffsets b s).flatMap fun w => be 4 w.toNat),
        (0x0103, beI 4 s.net.tb[b].rate)] }

/-- Executes TIMEBASE_STATUS. -/
def execTimebaseStatus (rq : Request) (s : State) : Host.Outcome State Fault Refusal := runCommand opTimebaseStatus rq s

/-- DOMAIN_TRUST (R334). -/
def opDomainTrust : Op :=
  { opcode := 0x0823, target := below 4, toe := false, states := afterStart, schema := [fixed 0x0100 1]
    values := fun rq _ => firstDeny [(decide (1 < num rq 0x0100 0 1), badValue rq 0x0100)]
    effect := fun rq s =>
      let trust := fun (t : TimeBase) =>
        if num rq 0x0100 0 1 = 0 then { t with distP := false, cleanP := none } else { t with distS := false, cleanS := none }
      .done (changeBases id (settle (tgt 4 rq) (reassess (tgt 4 rq) (onTb (tgt 4 rq) trust s)))) [] }

/-- Executes DOMAIN_TRUST. -/
def execDomainTrust (rq : Request) (s : State) : Host.Outcome State Fault Refusal := runCommand opDomainTrust rq s

/-! Time-scheduled outputs. -/

/-- A schedule as TSO_CONFIG gives it. -/
def scheduleOf (rq : Request) : List Nat :=
  [num rq 0x0101 0 1, num rq 0x0101 1 1, num rq 0x0101 2 1, num rq 0x0101 4 4, num rq 0x0101 8 8, num rq 0x0101 16 8, num rq 0x0101 24 8]

/-- TSO_CONFIG (R336). An armed output takes a new schedule from its first instant on. -/
def opTsoConfig : Op :=
  { opcode := 0x0830, target := below 8, toe := false, states := [.commissioning, .operational, .test]
    schema := [optional 0x0100 1, optional 0x0101 32]
    values := fun rq _ =>
      let p := num rq 0x0101 16 8
      let w := num rq 0x0101 24 8
      firstDeny
        [(decide (1 < num rq 0x0100 0 1), badValue rq 0x0100),
         (has rq 0x0101 && (decide (3 < num rq 0x0101 0 1) || decide (1 < num rq 0x0101 1 1) || decide (1 < num rq 0x0101 2 1) ||
            num rq 0x0101 3 1 != 0 || (p != 0 && (decide (p < 200) || decide (2 ^ 63 < p) || decide (p ≤ w))) || decide (w < 8) ||
            decide (1000000000 < w)), badValue rq 0x0101)]
    effect := fun rq s =>
      let k := tgt 8 rq
      let t := s.net.tso[k]
      let l := scheduleOf rq
      let u := if has rq 0x0101 then t.load l else t
      let on := if has rq 0x0100 then num rq 0x0100 0 1 == 1 else t.armed
      let starts := on && (has rq 0x0101 || !t.armed)
      if starts ∧ u.t1 < s.tbNs (Fin.ofNat 4 u.base) + 10000 then .deny (deny .late)
      else if !on then
        .done (onTso k (fun _ => { u with armed := false, next := none }) s) []
      else if !starts then .done s []
      else if t.armed then .done (onTso k (fun t => { t with next := some l }) s) []
      else .done (onTso k (fun _ => { u with armed := true, j := 0 }) s) [] }

/-- Executes TSO_CONFIG. -/
def execTsoConfig (rq : Request) (s : State) : Host.Outcome State Fault Refusal := runCommand opTsoConfig rq s

/-- TSO_STATUS_READ. -/
def opTsoStatusRead : Op :=
  { opcode := 0x0831, target := below 8, toe := false, states := afterStart, schema := []
    effect := fun rq s =>
      let t := s.net.tso[tgt 8 rq]
      .done s [(0x0100, be 4 (tsoStatus (tgt 8 rq) s).toNat), (0x0101, be 8 t.fired.toNat ++ be 8 t.skip.toNat)] }

/-- Executes TSO_STATUS_READ. -/
def execTsoStatusRead (rq : Request) (s : State) : Host.Outcome State Fault Refusal := runCommand opTsoStatusRead rq s

end Sys2Proof.Machine
end

