-- ==== Sys2Proof/Machine/SpmCore.lean ====
section
/-! DEFINITION.
The Memory Port: profiles, the execute-in-place window, line and page buffers, programs and erases (R398 to R402, 18). -/

namespace Sys2Proof.Machine

/-- Change a select. -/
def onSpm (p : Fin 4) (f : SpmSel → SpmSel) (s : State) : State := s.onSerial fun b => { b with sel := upd b.sel p f }

/-! Profiles (Table 18.1). -/

/-- A profile from its 40 bytes. -/
def profileOf (b : List Byte) : Profile :=
  let n := fun off len => beNat (slice off len b)
  { sizeLog2 := n 0 1, window := n 1 1, div := n 2 1, addrBytes := n 3 1, cmdBytes := n 4 1, dummy := n 5 1, statusDummy := n 6 1
    options := BitVec.ofNat 8 (n 7 1), readFmt := BitVec.ofNat 8 (n 8 1), writeFmt := BitVec.ofNat 8 (n 9 1)
    ctrlFmt := BitVec.ofNat 8 (n 10 1), busy := BitVec.ofNat 8 (n 11 1), readOp := n 12 2, progOp := n 14 2, wrenOp := n 16 2
    statusOp := n 18 2, eraseOp := n 20 2, pageLog2 := n 22 1, sectorLog2 := n 23 1, csSetup := n 24 1, csHold := n 25 1
    csGap := n 26 1, pollUs := n 28 2, progTimeout := n 30 2, eraseTimeout := n 32 2 }

/-- Its 40 bytes. -/
def Profile.bytes (p : Profile) : List Byte :=
  be 1 p.sizeLog2 ++ be 1 p.window ++ be 1 p.div ++ be 1 p.addrBytes ++ be 1 p.cmdBytes ++ be 1 p.dummy ++ be 1 p.statusDummy ++
  [p.options, p.readFmt, p.writeFmt, p.ctrlFmt, p.busy] ++ be 2 p.readOp ++ be 2 p.progOp ++ be 2 p.wrenOp ++ be 2 p.statusOp ++
  be 2 p.eraseOp ++ be 1 p.pageLog2 ++ be 1 p.sectorLog2 ++ be 1 p.csSetup ++ be 1 p.csHold ++ be 1 p.csGap ++ be 1 0 ++
  be 2 p.pollUs ++ be 2 p.progTimeout ++ be 2 p.eraseTimeout ++ be 6 0

/-- A number lies in a range. -/
def within (lo hi n : Nat) : Bool := decide (lo ≤ n) && decide (n ≤ hi)

/-- Reads without DQS are sampled half a clock late: such a profile needs DIV 4 at least (R488, 22). -/
def Profile.sampled (p : Profile) : Bool := p.options.getLsbD 1 || decide (4 ≤ p.div)

/-- Every field of a PROFILE value lies inside Table 18.1, and reads can be sampled (R488). -/
def profileOk (b : List Byte) : Bool :=
  let p := profileOf b
  p.sampled &&
  within 20 28 p.sizeLog2 && p.window * 2 ^ 20 % 2 ^ p.sizeLog2 == 0 && within 2 64 p.div && p.div % 2 == 0 && within 3 4 p.addrBytes &&
  within 1 2 p.cmdBytes && within 0 31 p.dummy && within 0 31 p.statusDummy && within 0 3 p.options.toNat &&
  (p.busy &&& 0x78) == 0 && within 8 10 p.pageLog2 && within 12 18 p.sectorLog2 && within 1 64 p.csSetup && within 1 64 p.csHold &&
  within 2 255 p.csGap && beNat (slice 27 1 b) == 0 && within 1 1000 p.pollUs && within 1 65535 p.progTimeout &&
  within 1 65535 p.eraseTimeout && beNat (slice 34 6 b) == 0

/-- The profile with DIV 4 in place of a DIV its reads could not be sampled at (R488). -/
def Profile.slowed (p : Profile) : Profile := if p.sampled then p else { p with div := 4 }

/-- A profile inside Table 18.1 from 40 bytes of any value. -/
def Profile.clipped (b : List Byte) : Profile :=
  let p := profileOf b
  let size := 20 + p.sizeLog2 % 9
  { p with
    sizeLog2 := size, window := p.window / 2 ^ (size - 20) * 2 ^ (size - 20), div := 2 + 2 * (p.div % 32), addrBytes := 3 + p.addrBytes % 2,
    cmdBytes := 1 + p.cmdBytes % 2, dummy := p.dummy % 32, statusDummy := p.statusDummy % 32, options := p.options &&& 3,
    busy := p.busy &&& 0x87, pageLog2 := 8 + p.pageLog2 % 3, sectorLog2 := 12 + p.sectorLog2 % 7, csSetup := 1 + p.csSetup % 64,
    csHold := 1 + p.csHold % 64, csGap := 2 + p.csGap % 254, pollUs := 1 + p.pollUs % 1000, progTimeout := max 1 p.progTimeout,
    eraseTimeout := max 1 p.eraseTimeout }

/-- The fastest profile a device's SFDP declares, never one that R488 bars: what the tables say where the model holds it, else free. -/
def declared (x : SpmSel) (k : Nat) : Profile :=
  (x.fastest.getD (Profile.clipped ((List.range 40).map fun i => Config.freeByte k i))).slowed

/-- Device size in bytes. -/
def Profile.size (p : Profile) : Nat := 2 ^ p.sizeLog2

/-- First window offset of a profile. -/
def Profile.base (p : Profile) : Nat := p.window * 2 ^ 20

/-- The select and device offset a window address names (R400). -/
def windowAt (a : Nat) (s : State) : Option (Fin 4 × Nat) :=
  (List.finRange 4).findSome? fun (p : Fin 4) =>
    match s.serial.sel[p].profile with
    | some r =>
      if 0x80000000 + r.base ≤ a ∧ a < 0x80000000 + r.base + r.size then some (p, a - 0x80000000 - r.base) else none
    | none => none

/-- A profile's window passes 256 MiB or overlaps another's (R400). -/
def windowClash (p : Fin 4) (r : Profile) (s : State) : Bool :=
  decide (2 ^ 28 < r.base + r.size) ||
  (List.finRange 4).any fun (q : Fin 4) => q != p &&
    match s.serial.sel[q].profile with
    | some t => decide (r.base < t.base + t.size) && decide (t.base < r.base + r.size)
    | none => false

/-- The Keeper regions of profile 0 (R403). -/
def keeperRegion (p : Fin 4) (x : Nat) : Bool := decide (p = 0) && decide (x < 0x1650000)

/-! Line buffers (R401). -/

/-- Lines that a range of a device touches are invalidated. -/
def dropLines (p : Fin 4) (off len : Nat) (s : State) : State :=
  s.onSerial fun b => { b with lines := b.lines.filter fun l => !(l.sel == p.val && decide (l.off < off + len) && decide (off < l.off + 64)) }

/-- What a byte of a device reads: in the two copies of the configuration store, whose layout is stated nowhere, the free bytes of the
copy saved there (R52, Table 3.1). -/
def flashByte (p : Fin 4) (x : Nat) (s : State) : Byte :=
  let copy := if x < 0x15D0000 then s.store.copyA else s.store.copyB
  match p.val, copy with
  | 0, some c => if 0x1550000 ≤ x ∧ x < 0x1650000 then Config.freeByte c.mark (x % 0x80000) else cellRead 0xFF x s.serial.sel[p].flash
  | _, _ => cellRead 0xFF x s.serial.sel[p].flash

/-- A word through the line buffers: a miss fetches its 64-byte line, the oldest of eight giving way. -/
def lineWord (p : Fin 4) (x : Nat) (s : State) : Word × State :=
  let base := x / 64 * 64
  let take := fun (bs : List Byte) => BitVec.ofNat 32 (leNat (slice (x - base) 4 bs))
  match s.serial.lines.find? fun l => l.sel == p.val && l.off == base with
  | some l => (take l.bytes, s)
  | none =>
    let bs := (List.range 64).map fun k => flashByte p (base + k) s
    (take bs, s.onSerial fun b => { b with lines := ({ sel := p.val, off := base, bytes := bs } :: b.lines).take 8 })

/-! Page buffers, programs and erases (R402). -/

/-- Page size of a select. -/
def pageSize (p : Fin 4) (s : State) : Nat := 2 ^ ((s.serial.sel[p].profile.map (·.pageLog2)).getD 8)

/-- The page buffer's words go to the device: write enable, program, polls. -/
def startProgram (p : Fin 4) (s : State) : State :=
  match s.serial.sel[p].page with
  | none => onSpm p (fun x => { x with flushDue := false }) s
  | some g =>
    let n := pageSize p s
    onSpm p (fun x => { x with
      opBusy := true, opErase := false, opStart := s.now, opPoll := s.now, opRange := (g * n, n), opWords := x.words, words := [], page := none,
      flushDue := false }) (dropLines p (g * n) n s)

/-- A flush: at once, or when the device is no longer busy. -/
def flushPage (p : Fin 4) (s : State) : State :=
  let x := s.serial.sel[p]
  if x.page.isNone then s else if x.opBusy then onSpm p (fun x => { x with flushDue := true }) s else startProgram p s

/-- A window read: none while it waits for a flush or for a busy device (R401, R402). -/
def windowRead (p : Fin 4) (x : Nat) (s : State) : Option Word × State :=
  let d := s.serial.sel[p]
  if d.page = some (x / pageSize p s) then (none, flushPage p s)
  else if d.opBusy ∨ !tbRuns s then (none, s)
  else let r := lineWord p x s; (some r.1, r.2)

/-- A window write: false while it waits for another page to be flushed from a busy device (R402). -/
def windowWrite (p : Fin 4) (x : Nat) (w : Word) (s : State) : Bool × State :=
  let g := x / pageSize p s
  let put := onSpm p fun d => { d with page := some g, words := putKey x w d.words, lastWrite := s.now }
  let d := s.serial.sel[p]
  if d.page.isNone ∨ d.page = some g then (true, put s)
  else if d.opBusy then (false, flushPage p s)
  else (true, put (flushPage p s))

/-- Program words: NOR programming clears bits only. -/
def programWords (ws : List (Nat × Word)) (m : List Host.Cell) : List Host.Cell :=
  ws.foldl (fun m e => programBytes e.1 (le 4 e.2.toNat) m) m

/-- A word read back differs from the word written. -/
def mismatch (ws : List (Nat × Word)) (m : List Host.Cell) : Bool := ws.any fun e => wordAt 0xFF e.1 m != e.2

/-- The program or erase under way has ended: contents, counts, verification. -/
def endOperation (p : Fin 4) (s : State) : State :=
  let x := s.serial.sel[p]
  if x.opErase then
    let sector := 2 ^ ((x.profile.map (·.sectorLog2)).getD 12)
    onSpm p (fun x => { x with
      opBusy := false, flash := eraseRange x.opRange.1 x.opRange.2 x.flash, sectors := bump x.sectors (x.opRange.2 / sector) })
      (dropLines p x.opRange.1 x.opRange.2 s)
  else
    let m := programWords x.opWords x.flash
    let bad := ((x.profile.map fun r => r.options.getLsbD 0).getD false) && mismatch x.opWords m
    let s1 := onSpm p (fun x => { x with
      opBusy := false, flash := programWords x.opWords x.flash, opWords := [], pages := bump x.pages 1, fVerify := x.fVerify || bad, verifyHit := x.verifyHit || bad })
      (dropLines p x.opRange.1 x.opRange.2 s)
    if bad then event 0x0C02 p.val [] s1 else s1

/-- SPM_ERASE and SPM_FLUSH under way on a select. -/
def spmCommand (p : Fin 4) (e : Exec) : Bool := (e.opcode == 0x0C02 || e.opcode == 0x0C03) && e.key == p.val

/-- A flush that waited for the device starts; with nothing left to program, SPM_FLUSH is answered (R413). -/
def settleFlush (p : Fin 4) (s : State) : State :=
  let x := s.serial.sel[p]
  if x.opBusy then s
  else if x.flushDue ∧ x.page.isSome then startProgram p s
  else
    finish (fun e => e.opcode == 0x0C03 && e.key == p.val) .done [(0x0100, be 1 (bit x.verifyHit))]
      (onSpm p (fun x => { x with flushDue := false }) s)

/-- Advance of IND_ADDR by STEP: 0, 4, 8 or 16 bytes (R104). -/
def Ctx.advance (k : Ctx) : Ctx :=
  { k with indAddr := k.indAddr + (if k.step = 0 then 0 else if k.step = 1 then 4 else if k.step = 2 then 8 else 16) }

/-- A window access that waited is complete: the word read is delivered, an indirect access ends. -/
def Ctx.endWait (e : WindowWait) (w : Word) (ws : List Word) (k : Ctx) : Ctx :=
  let k1 := if e.value.isNone then { k with readData := w, snapshot := if e.snap = 0 then k.snapshot else some (e.addr, ws) } else k
  if e.ind then { k1 with busy := false }.advance else k1

/-- A window access: the word read, or none while it waits. -/
def windowAccess (a : Nat) (v : Option Word) (s : State) : Option Word × State :=
  match windowAt a s with
  | none => (some 0, s)
  | some (p, x) =>
    match v with
    | none => windowRead p x s
    | some w => let r := windowWrite p x w s; (if r.1 then some w else none, r.2)

/-- The words of a window range, read at one instant; none while one of them has to wait (R107). -/
def windowWords : Nat → Nat → State → Option (List Word) × State
  | _, 0, s => (some [], s)
  | a, n + 1, s =>
    match windowAccess a none s with
    | (some w, t) => let r := windowWords (a + 4) n t; (r.1.map (w :: ·), r.2)
    | (none, t) => (none, t)

/-- A waiting access, if it can be carried out now: its words. -/
def waitedWords (e : WindowWait) (s : State) : Option (List Word) × State :=
  if e.snap = 0 then let r := windowAccess e.addr e.value s; (r.1.map fun w => [w], r.2) else windowWords e.addr e.snap s

/-- The accesses of a context that wait, in order, as far as their devices allow them now. -/
def resumeList (c : Fin 6) : List WindowWait → State → State
  | [], s => s.onSys fun y => { y with ctx := upd y.ctx c fun k => { k with windowWait := [] } }
  | e :: l, s =>
    match waitedWords e s with
    | (some ws, t) => resumeList c l (t.onSys fun y => { y with ctx := upd y.ctx c (Ctx.endWait e (ws.headD 0) ws) })
    | (none, t) => t.onSys fun y => { y with ctx := upd y.ctx c fun k => { k with windowWait := e :: l } }

/-- The accesses of a context that wait. -/
def resumeOne (c : Fin 6) (s : State) : State := resumeList c s.sys.ctx[c].windowWait s

/-- The accesses that wait, context by context. -/
def resumeAll (s : State) : State := (List.finRange 6).foldl (fun s c => resumeOne c s) s

/-- A poll shows the device not busy: the operation has ended, SPM_ERASE is answered, accesses that waited go on, a flush that
waited starts (R401, R402, R413). -/
def deviceIdle (p : Fin 4) (s : State) : State :=
  let s1 := endOperation p s
  let s2 := if s.serial.sel[p].opErase then finish (fun e => e.opcode == 0x0C02 && e.key == p.val) .done [] s1 else s1
  settleFlush p (resumeAll s2)

/-- A poll that exceeds its timeout: the device counts as not busy and the buffered data is dropped; how much of the operation the
device carried out is not stated, so the bits it could change are free values (log entry 6). -/
def failOperation (p : Fin 4) (s : State) : State :=
  let x := s.serial.sel[p]
  let r := fresh s
  let s1 := onSpm p (fun d => { d with
    opBusy := false, opWords := [], words := [], page := none, flushDue := false, fFail := true, flash := spoiled r.1 d })
    (dropLines p x.opRange.1 x.opRange.2 r.2)
  let s2 := recordFault 0x0021 4 p.val 0 false (event 0x0C01 p.val [] s1)
  resumeAll (finishDeny (spmCommand p) (faultActive 0x0021) s2)

end Sys2Proof.Machine
end

