-- ==== Sys2Proof/Machine/RegMap.lean ====
section
/-! DEFINITION.
The register map: what each address of Table 5.1 reads, from the fields of the state (R98, R99, R103, R108, R109, 05; the
register summaries of chapters 03, 05, 07 to 12 and 14 to 21). -/

namespace Sys2Proof.Machine

/-- What a register address holds. -/
inductive RegVal
  /-- A register of 32 bits. -/
  | word (w : Word)
  /-- The low word of a wide register (R108). -/
  | low (v : BitVec 64)
  /-- Its high word. -/
  | high (v : BitVec 64)
  /-- A buffered register (R109). -/
  | buffered (b : Buf)

/-- One of `count` register blocks of `stride` bytes from `base`: its number and the offset in it. -/
def regArray (base stride count a : Nat) : Option (Nat × Nat) :=
  if base ≤ a ∧ a < base + stride * count then some ((a - base) / stride, (a - base) % stride) else none

/-- A read-only word. -/
def wordReg (w : Word) : Option RegVal := some (.word w)

/-- A number as a register. -/
def natReg (n : Nat) : Option RegVal := some (.word (BitVec.ofNat 32 n))

/-- A signed number as a register. -/
def intReg (i : Int) : Option RegVal := some (.word (BitVec.ofInt 32 i))

/-- The low or the high word of a signed 64-bit value. -/
def wideReg (hi : Bool) (i : Int) : Option RegVal :=
  some (if hi then .high (BitVec.ofInt 64 i) else .low (BitVec.ofInt 64 i))

/-- OP_STATUS (05). -/
def opStatus (p : Power) : Word :=
  pack [(0, 3, p.opNow), (4, 3, p.opTarget), (7, 1, bit p.ramp), (8, 2, p.band), (10, 3, p.power.code), (13, 3, p.limit),
    (16, 1, bit p.banded), (17, 3, p.opLimit), (20, 3, p.wakeFrom)]

/-- IND_CTRL (05). -/
def indCtrl (k : Ctx) : Word :=
  pack [(0, 2, k.step.toNat), (2, 1, bit k.snap), (4, 4, k.snapLen.toNat), (8, 1, bit k.busy), (9, 1, bit k.indTimeout), (10, 1, bit k.err)]

/-- SYS_ACC_ERR_INFO (05). -/
def accErrInfo (k : Ctx) : Word := pack [(0, 3, k.errCause.toNat), (3, 1, bit k.errWrite), (16, 16, k.errCount.toNat)]

/-- The system region (Table 5.6): IND_DATA is an access of its own and reads 0 here; UPD_STROBE is write-only. -/
def sysReg (c : Fin 6) (a : Nat) (s : State) : Option RegVal :=
  let k := s.sys.ctx[c]
  match a with
  | 0x40000000 => natReg 0x64964B5A
  | 0x40000010 => some (.low (BitVec.ofNat 64 s.sysTick))
  | 0x40000014 => some (.high (BitVec.ofNat 64 s.sysTick))
  | 0x40000100 => wordReg k.indAddr
  | 0x40000104 => natReg 0
  | 0x40000108 => wordReg (indCtrl k)
  | 0x40000200 => natReg 0
  | 0x40000204 => natReg s.sys.updDirty.toNat
  | 0x40000208 => natReg s.sys.updPending.toNat
  | 0x4000020C => natReg s.sys.updSuperseded.toNat
  | 0x40000300 => wordReg (opStatus s.power)
  | 0x40000400 => wordReg k.errAddr
  | 0x40000404 => wordReg (accErrInfo k)
  | 0x40000500 => wordReg s.sys.voteLast
  | _ => none

/-- Motion Planner (Table 7.6). -/
def planReg (a : Nat) (s : State) : Option RegVal :=
  if let some (i, o) := regArray 0x41000000 0x40 64 a then
    let x := s.plan.ax[Fin.ofNat 64 i]
    match o with
    | 0x00 => wordReg (planAxStatus (Fin.ofNat 64 i) s)
    | 0x08 => wideReg false x.pos
    | 0x0C => wideReg true x.pos
    | 0x10 => wideReg false x.vel
    | 0x14 => wideReg true x.vel
    | 0x18 => wideReg false x.acc
    | 0x1C => wideReg true x.acc
    | 0x20 => wideReg false x.target
    | 0x24 => wideReg true x.target
    | _ => none
  else if let some (g, o) := regArray 0x41010000 0x40 16 a then
    match o with
    | 0x00 => wordReg (planGrpStatus (Fin.ofNat 16 g) s)
    | 0x04 => wordReg (planGrpQueue (Fin.ofNat 16 g) s)
    | 0x08 => natReg s.plan.grp[Fin.ofNat 16 g].segId
    | _ => none
  else if let some (i, 0) := regArray 0x41020000 4 64 a then some (.buffered s.plan.ax[Fin.ofNat 64 i].override)
  else if let some (g, 0) := regArray 0x41020100 4 16 a then some (.buffered s.plan.grp[Fin.ofNat 16 g].override)
  else none

/-- Gear Unit (Table 8.6). -/
def gearReg (a : Nat) (s : State) : Option RegVal :=
  if let some (i, o) := regArray 0x41800000 0x40 64 a then
    let x := s.gear.link[Fin.ofNat 64 i]
    match o with
    | 0x00 => wordReg (gearStatus (Fin.ofNat 64 i) s)
    | 0x04 => intReg x.num
    | 0x08 => natReg x.den
    | 0x0C => natReg x.rem
    | 0x10 => wideReg false x.mLast
    | 0x14 => wideReg true x.mLast
    | 0x18 => wideReg false x.slave
    | 0x1C => wideReg true x.slave
    | 0x20 => intReg x.held
    | _ => none
  else if let some (k, o) := regArray 0x41810000 0x20 8 a then
    match o with
    | 0x00 => wideReg false (vmPos (Fin.ofNat 8 k) s)
    | 0x04 => wideReg true (vmPos (Fin.ofNat 8 k) s)
    | 0x08 => wideReg false s.gear.vm[Fin.ofNat 8 k].vel
    | 0x0C => wideReg true s.gear.vm[Fin.ofNat 8 k].vel
    | _ => none
  else none

/-- A word of the coefficient memory (R215): little-endian. -/
def coefReg (a : Nat) (s : State) : Option RegVal :=
  if let some (n, o) := regArray 0x42100000 0x10000 64 a then
    let k := o / 0x2000
    let g := o % 0x2000 / 0x400
    if k < 3 ∧ g < 8 then
      natReg (leNat (slice (o % 0x400) 4 (regionRecord true (s.loop.slot[Fin.ofNat 64 n].lp[Fin.ofNat 3 k]) g)))
    else none
  else none

/-- Loop Engine (Table 9.9). -/
def loopReg (a : Nat) (s : State) : Option RegVal :=
  if let some (n, o) := regArray 0x42000000 0x80 64 a then
    let i : Fin 64 := Fin.ofNat 64 n
    let x := s.loop.slot[i]
    let late := fun (k : Fin 3) => (x.lp[k]).late.toNat
    match o with
    | 0x00 => wordReg (loopStatus i s)
    | 0x04 => wordReg (loopSlack i 0 s)
    | 0x08 => wordReg (loopSlack i 1 s)
    | 0x0C => wordReg (loopSlack i 2 s)
    | 0x10 => wordReg (pack [(0, 16, late 0), (16, 16, late 1)])
    | 0x14 => natReg (late 2)
    | 0x18 => intReg x.iD
    | 0x1C => intReg x.iQ
    | 0x20 => intReg x.vD
    | 0x24 => intReg x.vQ
    | 0x28 => wideReg false x.fe
    | 0x2C => wideReg true x.fe
    | 0x30 => wordReg x.obsAngle
    | 0x34 => wideReg false x.obsSpeed
    | 0x38 => wideReg true x.obsSpeed
    | 0x40 => some (.buffered x.lock)
    | _ => none
  else coefReg a s

/-- Position Ports (Table 10.9). -/
def portReg (a : Nat) (s : State) : Option RegVal :=
  if let some (n, o) := regArray 0x43000000 0x100 32 a then
    let x := s.ports.port[Fin.ofNat 32 n]
    match o with
    | 0x00 => wordReg (ppStatus (Fin.ofNat 32 n) s)
    | 0x04 => natReg x.cir
    | 0x08 => intReg x.rev
    | 0x10 => wideReg false (x.counts * 65536)
    | 0x14 => wideReg true (x.counts * 65536)
    | 0x18 => wideReg false x.speed
    | 0x1C => wideReg true x.speed
    | 0x20 => some (.low (x.edgeFwd - x.edgeRev))
    | 0x24 => some (.high (x.edgeFwd - x.edgeRev))
    | 0x28 => intReg x.disc
    | 0x2C => intReg x.held
    | 0x30 => natReg (unsigned 16 x.sinRaw + 65536 * unsigned 16 x.cosRaw)
    | 0x38 => some (.low x.ssiRaw)
    | 0x3C => some (.high x.ssiRaw)
    | _ => none
  else if let some (u, o) := regArray 0x43010000 0x40 16 a then
    match o with
    | 0x00 => wordReg (pcuStatus (Fin.ofNat 16 u) s)
    | 0x04 => wordReg s.ports.cmp[Fin.ofNat 16 u].hits
    | 0x08 => wordReg s.ports.cmp[Fin.ofNat 16 u].merged
    | _ => none
  else if let some (u, 0) := regArray 0x43020000 4 16 a then some (.buffered s.ports.cmp[Fin.ofNat 16 u].ctrl)
  else if let some (l, 0) := regArray 0x43030000 0x40 16 a then wordReg (luStatus (Fin.ofNat 16 l) s)
  else if a = 0x43040000 then wordReg (snapStatus s)
  else none

/-- Bridge Timer Array and Stepper Drive (Tables 11.6, 12.5). -/
def btaReg (a : Nat) (s : State) : Option RegVal :=
  if let some (n, o) := regArray 0x44000000 0x40 32 a then
    let g : Fin 32 := Fin.ofNat 32 n
    match o with
    | 0x00 => wordReg (grpCtrl g s)
    | 0x04 => some (.buffered s.bta.grp[g].period)
    | 0x08 => natReg 0
    | 0x0C => wordReg (grpStatus g s)
    | 0x10 => wordReg (grpTrip g s)
    | 0x14 => natReg s.bta.grp[g].count
    | 0x18 => wordReg s.bta.grp[g].cycleTrips
    | _ => none
  else if let some (n, o) := regArray 0x44001000 0x10 96 a then
    match o with
    | 0x00 => some (.buffered s.bta.leg[Fin.ofNat 96 n].cmpa)
    | 0x04 => some (.buffered s.bta.leg[Fin.ofNat 96 n].cmpb)
    | 0x08 => natReg 0
    | 0x0C => wordReg (legStatus (Fin.ofNat 96 n) s)
    | _ => none
  else if a = 0x44002000 then
    natReg (((List.finRange 16).map fun (t : Fin 16) => bit s.bta.trip[t].active * 2 ^ t.val).sum)
  else if a = 0x44002004 then
    natReg (((List.finRange 8).map fun (m : Fin 8) => bit (blankActive s.bta.blank[m] s) * 2 ^ m.val).sum)
  else if let some (n, 0) := regArray 0x44003000 4 96 a then wordReg s.bta.sdi[Fin.ofNat 96 n].value
  else if let some (n, 0) := regArray 0x44004000 4 12 a then
    let l := s.bta.leg[Fin.ofNat 96 n]
    wordReg (pack [(0, 7, l.nCal), (7, 1, bit l.fallback), (8, 1, bit l.fCalFail)])
  else if a = 0x44005000 then
    natReg (((List.finRange 8).map fun (k : Fin 8) =>
      bit s.bta.bank[k].high * 2 ^ k.val + bit s.bta.bank[k].changing.isSome * 2 ^ (8 + k.val)).sum)
  else if let some (n, o) := regArray 0x44006000 0x10 64 a then
    match o with
    | 0x00 => wordReg (stepStatus (Fin.ofNat 64 n) s)
    | 0x04 => wideReg false s.stepper.slot[Fin.ofNat 64 n].m
    | 0x08 => wideReg true s.stepper.slot[Fin.ofNat 64 n].m
    | _ => none
  else none

/-- Backbone Switch and Time Base Unit (Table 14.4). -/
def netReg (a : Nat) (s : State) : Option RegVal :=
  if let some (n, o) := regArray 0x45000000 0x100 4 a then
    let p := s.net.port[Fin.ofNat 5 n]
    match o with
    | 0x00 => wordReg (portStatus (Fin.ofNat 4 n) s)
    | 0x04 => natReg p.linkDelay
    | 0x08 => some (.low p.received)
    | 0x0C => some (.high p.received)
    | 0x10 => some (.low p.drops)
    | 0x14 => some (.high p.drops)
    | _ => none
  else if let some (n, o) := regArray 0x45010000 0x100 4 a then
    let b : Fin 4 := Fin.ofNat 4 n
    let v := tbParts b s
    match o with
    | 0x00 => wordReg (tbStatus b s)
    | 0x04 => wordReg ((tbOffsets b s).getD 0 0)
    | 0x08 => wordReg ((tbOffsets b s).getD 1 0)
    | 0x0C => wordReg ((tbOffsets b s).getD 2 0)
    | 0x10 => intReg s.net.tb[b].rate
    | 0x20 => natReg (v.1 / 2 ^ 32 % 65536)
    | 0x24 => natReg v.1
    | 0x28 => natReg v.2.1
    | 0x2C => natReg v.2.2
    | _ => none
  else if let some (k, o) := regArray 0x45020000 0x20 8 a then
    match o with
    | 0x00 => wordReg (tsoStatus (Fin.ofNat 8 k) s)
    | 0x04 => wordReg s.net.tso[Fin.ofNat 8 k].fired
    | 0x08 => wordReg s.net.tso[Fin.ofNat 8 k].skip
    | _ => none
  else none

/-- CAN Controllers (Table 17.3). -/
def canReg (a : Nat) (s : State) : Option RegVal :=
  if let some (n, o) := regArray 0x46000000 0x100 4 a then
    let c : Fin 4 := Fin.ofNat 4 n
    match o with
    | 0x00 => wordReg (canStatus c s)
    | 0x04 => wordReg (canErrcnt c s)
    | 0x08 => wordReg (canFifo c s)
    | 0x0C => wordReg (canTt c s)
    | _ => none
  else none

/-- SPM_STATUS. -/
def spmStatus (p : Fin 4) (s : State) : Word :=
  let x := s.serial.sel[p]
  pack [(0, 1, bit x.profile.isSome), (1, 1, bit x.opBusy), (2, 1, bit x.page.isSome), (3, 1, bit x.fFail), (4, 1, bit x.fVerify),
    (5, 1, bit ((x.profile.map fun r => r.options.getLsbD 1).getD false)), (6, 7, (x.profile.map (·.div)).getD 0)]

/-- SPH_STATUS: SPH_IRQN is low while the outbox holds a reply (R410). -/
def sphStatus (s : State) : Word :=
  pack [(0, 5, s.pkts.outbox.length), (8, 4, 8 - s.pkts.inbox.length), (12, 3, s.serial.last), (15, 1, bit (s.pkts.outbox != []))]

/-- Memory Port and Host Port (Table 18.6). -/
def serialReg (a : Nat) (s : State) : Option RegVal :=
  if let some (n, o) := regArray 0x47000000 0x20 4 a then
    let x := s.serial.sel[Fin.ofNat 4 n]
    match o with
    | 0x00 => wordReg (spmStatus (Fin.ofNat 4 n) s)
    | 0x08 => some (.low x.pages)
    | 0x0C => some (.high x.pages)
    | 0x10 => some (.low x.sectors)
    | 0x14 => some (.high x.sectors)
    | _ => none
  else if a = 0x47010000 then wordReg (sphStatus s)
  else if let some (k, o) := regArray 0x47010010 8 8 a then
    let v := s.serial.cnt[Fin.ofNat 8 k]
    if o = 0 then some (.low v) else if o = 4 then some (.high v) else none
  else none

/-- ACQ_STATUS. -/
def acqStatus (b : AcqBlk) : Word :=
  pack [(0, 3, b.st), (3, 6, b.segment), (9, 1, bit b.fOverflow), (10, 1, bit b.fTruncated), (11, 1, bit b.fMaskFail), (12, 1, bit b.fDone),
    (13, 1, bit b.calOk), (14, 10, b.fifo.length)]

/-- The registers at 0x4800_0000 to 0x4800_0014. -/
def acqWords (b : AcqBlk) : List Word :=
  [acqStatus b, pack [(0, 9, b.bitmask.toNat), (9, 4, b.primary)], BitVec.ofNat 32 b.deadLast, BitVec.ofNat 32 b.deadMin,
   BitVec.ofNat 32 b.deadMax, b.missed]

/-- Acquisition Engine (Table 19.7). -/
def acqReg (a : Nat) (s : State) : Option RegVal :=
  if let some (k, 0) := regArray 0x48000000 4 6 a then wordReg ((acqWords s.acq).getD k 0)
  else if let some (k, 0) := regArray 0x48000100 4 64 a then
    let g := s.acq.seg[Fin.ofNat 64 k]
    wordReg (pack [(0, 2, g.use), (20, 12, g.seq)])
  else none

/-- Threads READY or PREEMPTED; how many of them are Gardener's own is a free value (log entry 30). -/
def readyCount (s : State) : Nat :=
  ((List.finRange 512).filter fun (t : Fin 512) => s.lanes.thr[t].st == .ready || s.lanes.thr[t].st == .preempted).length +
  Config.freeNat s.sys.free % 257

/-- DISP_STATUS. -/
def dispStatus (s : State) : Word :=
  let bits := fun (f : Lane → Bool) => ((List.finRange 8).map fun (l : Fin 8) => bit (f s.lanes.lane[l]) * 2 ^ l.val).sum
  pack [(0, 10, readyCount s), (10, 8, bits fun l => l.thread.isSome), (18, 8, bits fun l => l.entry.isSome),
    (26, 1, bit (s.power.power == .nap || s.power.power == .rest))]

/-- SPT_STATUS. -/
def sptStatus (i : Fin 64) (s : State) : Word :=
  let p := s.lanes.spt[i]
  let lane := (List.finRange 8).find? fun (l : Fin 8) => (s.lanes.lane[l]).grantS.getLsbD i.val
  pack [(0, 8, p.stale), (8, 1, bit p.fresh), (9, 1, bit lane.isSome), (10, 3, (lane.map (·.val)).getD 0), (13, 8, p.stallLimit),
    (21, 1, bit p.fStall)]

/-- A thread's registers; those of T0 to T255 are free values (log entry 30). -/
def threadReg (t : Fin 512) (o : Nat) (s : State) : Option RegVal :=
  let open32 := BitVec.ofNat 32 (Config.freeNat s.sys.free)
  let own := fun (w : Word) => if t.val < 256 then open32 else w
  match o with
  | 0x00 => wordReg (own (thrStatus t s))
  | 0x04 => wordReg (own (thrCount t s))
  | 0x08 => wordReg (own s.lanes.thr[t].runs)
  | 0x0C => wordReg (own (thrLat t s))
  | _ => none

/-- Lane memories: data of 96 KiB, program of 32 KiB, words the program does not reach read 0 (R447, 20). -/
def laneMemory (a : Nat) (s : State) : Option RegVal :=
  if let some (l, o) := regArray 0x4A100000 0x40000 8 a then
    let x := s.lanes.lane[Fin.ofNat 8 l]
    if 0x8000 ≤ o % 0x10000 then none
    else if o < 0x30000 then wordReg (wordAt 0 (o / 0x10000 * 0x8000 + o % 0x10000) x.data)
    else wordReg (x.prog.getD ((o - 0x30000) / 4) 0)
  else none

/-- Thread Dispatcher and Cooper lanes (Table 20.9). -/
def laneReg (a : Nat) (s : State) : Option RegVal :=
  if a = 0x49000000 then wordReg (dispStatus s)
  else if let some (n, o) := regArray 0x49001000 0x10 512 a then threadReg (Fin.ofNat 512 n) o s
  else if let some (k, o) := regArray 0x49004000 0x10 16 a then
    let t := s.lanes.tmr[Fin.ofNat 16 k]
    match o with
    | 0x00 => wordReg (pack [(0, 2, t.kind), (2, 1, bit t.running), (3, 1, bit t.fSkipped)])
    | 0x04 => wordReg t.skips
    | _ => none
  else if let some (l, o) := regArray 0x4A000000 0x20 8 a then
    match o with
    | 0x00 => wordReg (laneStatus (Fin.ofNat 8 l) s)
    | 0x04 => wordReg (lanePc (Fin.ofNat 8 l) s)
    | _ => none
  else if let some (p, 0) := regArray 0x4A001000 4 64 a then wordReg (portRead (Fin.ofNat 64 p) s)
  else if let some (i, o) := regArray 0x4A001200 8 64 a then
    let v := s.lanes.spt[Fin.ofNat 64 i].value
    if o = 0 then some (.low v) else if o = 4 then some (.high v) else none
  else if let some (i, 0) := regArray 0x4A001400 4 64 a then wordReg (sptStatus (Fin.ofNat 64 i) s)
  else laneMemory a s

/-- Field I/O (Table 16.6). -/
def fioReg (a : Nat) (s : State) : Option RegVal :=
  if let some (n, o) := regArray 0x4B000000 0x100 4 a then
    let g : Fin 4 := Fin.ofNat 4 n
    match o with
    | 0x00 => wordReg (fioStatus g s)
    | 0x04 => wordReg (fioDi g s)
    | 0x08 => wordReg (fioDo g s)
    | 0x0C => wordReg (fioDiag g s)
    | _ => none
  else none

/-- The Lodge mirror (15). -/
def lodgeReg (a : Nat) (s : State) : Option RegVal :=
  if let some (k, 0) := regArray 0x4C000000 4 4 a then wordReg (s.lodge.mirror.getD k 0) else none

/-- INT_STATUS. -/
def intStatus (g : Integrity) : Word :=
  pack [(0, 6, g.bankBad.toNat), (6, 1, bit g.laneBad), (7, 1, bit g.scrubbing), (16, 16, g.passMs.toNat)]

/-- FAULT_STATUS. -/
def faultStatus (s : State) : Word :=
  pack [(0, 7, (unacked s).length), (7, 1, bit (faultnLow s)), (8, 8, s.integ.lost.toNat), (16, 1, bit s.power.aonRc)]

/-- EVT_STATUS. -/
def evtStatus (g : Integrity) : Word := pack [(0, 11, g.events.length), (16, 16, g.evtLost.toNat)]

/-- Tally (Table 21.9). -/
def tallyReg (a : Nat) (s : State) : Option RegVal :=
  match a with
  | 0x4D000000 => wordReg (intStatus s.integ)
  | 0x4D000004 => wordReg s.integ.errAddr
  | 0x4D000010 => wordReg (faultStatus s)
  | 0x4D000020 => wordReg (evtStatus s.integ)
  | _ => none

/-- SYS_STATE (Table 3.5). -/
def sysState (s : State) : Word :=
  let b := s.boot
  pack [(0, 4, s.sys.dev.code), (4, 4, s.sys.phase.toNat), (8, 1, b.keeperSlot), (9, 1, b.gardenerSlot), (10, 1, bit b.keeperTrial),
    (11, 1, bit b.gardenerTrial), (12, 3, b.haltCause), (16, 3, b.rejectCause), (24, 7, b.secLevel)]

/-- The block regions of Table 5.1; a shadow alias is not among these addresses. -/
def regAt (c : Fin 6) (a : Nat) (s : State) : Option RegVal :=
  match a / 0x1000000 with
  | 0x40 => sysReg c a s
  | 0x41 => if a < 0x41800000 then planReg a s else gearReg a s
  | 0x42 => loopReg a s
  | 0x43 => portReg a s
  | 0x44 => btaReg a s
  | 0x45 => netReg a s
  | 0x46 => canReg a s
  | 0x47 => serialReg a s
  | 0x48 => acqReg a s
  | 0x49 => laneReg a s
  | 0x4A => laneReg a s
  | 0x4B => fioReg a s
  | 0x4C => lodgeReg a s
  | 0x4D => tallyReg a s
  | 0x4E => if a = 0x4E000000 then wordReg (sysState s) else none
  | _ => none

/-- An address of the block regions. -/
def blockRegion (a : Nat) : Bool := decide (0x40000000 ≤ a) && decide (a < 0x4F000000)

/-- A shadow alias (R99). -/
def isAlias (a : Nat) : Bool := blockRegion a && decide (0x8000 ≤ a % 0x10000)

/-- The register an address names, its alias or its own. -/
def registerOf (a : Nat) : Nat := if isAlias a then a - 0x8000 else a

/-- Registers reached only through the indirect pair (R103): Field I/O, TB_TIME, the coefficient and the lane memories. -/
def indirectOnly (a : Nat) : Bool :=
  let r := registerOf a
  r / 0x1000000 == 0x4B || (decide (0x42100000 ≤ r) && decide (r < 0x42500000)) ||
  (decide (0x4A100000 ≤ r) && decide (r < 0x4A300000)) ||
  (match regArray 0x45010000 0x100 4 r with
   | some (_, o) => decide (0x20 ≤ o) && decide (o < 0x30)
   | none => false)

/-- Registers whose value is partly free: Gardener's own threads and their number (log entry 30). -/
def openRegister (a : Nat) : Bool :=
  let r := registerOf a
  r == 0x49000000 || (decide (0x49001000 ≤ r) && decide (r < 0x49002000))

end Sys2Proof.Machine
end

