-- ==== Sys2Proof/Machine/RegWrite.lean ====
section
/-! DEFINITION.
What a write of each register does: w1c flags, buffered shadows, the fields that are commands (R109, R111, 05; the register
tables of chapters 07 to 12, 14, 16 to 21), and what an rc field's read clears (R118, 05). -/

namespace Sys2Proof.Machine

/-- Change a context. -/
def onCtx (c : Fin 6) (f : Ctx → Ctx) (s : State) : State := s.onSys fun y => { y with ctx := upd y.ctx c f }

/-- A w1c flag after a write: cleared by 1. -/
def w1c (flag : Bool) (w : Word) (n : Nat) : Bool := flag && !w.getLsbD n

/-- Motion Planner. A factor above 2,048 is stored as 2,048 (R167). -/
def writePlan (a : Nat) (w : Word) (s : State) : State :=
  let factor : Word := BitVec.ofNat 32 (min 2048 (w.toNat % 4096))
  if let some (g, 0) := regArray 0x41010000 0x40 16 a then
    onPgrp (Fin.ofNat 16 g) (fun x => { x with starved := w1c x.starved w 8, faultStop := w1c x.faultStop w 9 }) s
  else if let some (i, 0) := regArray 0x41020000 4 64 a then
    markDirty 1 (onPax (Fin.ofNat 64 i) (fun x => { x with override := x.override.write factor }) s)
  else if let some (g, 0) := regArray 0x41020100 4 16 a then
    markDirty 1 (onPgrp (Fin.ofNat 16 g) (fun x => { x with override := x.override.write factor }) s)
  else s

/-- Gear Unit. -/
def writeGear (a : Nat) (w : Word) (s : State) : State :=
  if let some (i, 0) := regArray 0x41800000 0x40 64 a then
    onLink (Fin.ofNat 64 i) (fun x => { x with
      fEnd := w1c x.fEnd w 26, fLost := w1c x.fLost w 27, fResidue := w1c x.fResidue w 28, fLimit := w1c x.fLimit w 29 }) s
  else s

/-- Loop Engine. -/
def writeLoop (a : Nat) (w : Word) (s : State) : State :=
  match regArray 0x42000000 0x80 64 a with
  | some (i, 0x00) =>
    onLSlot (Fin.ofNat 64 i) (fun x => { x with
      fSwap := w1c x.fSwap w 13, fSwapClamped := w1c x.fSwapClamped w 14, fNumeric := w1c x.fNumeric w 17,
      fAinRange := w1c x.fAinRange w 18 }) s
  | some (i, 0x40) =>
    markDirty 3 (onLSlot (Fin.ofNat 64 i) (fun x => { x with lock := x.lock.write (BitVec.ofNat 32 (w.toNat % 4096)) }) s)
  | _ => s

/-- Position Ports. -/
def writePort (a : Nat) (w : Word) (s : State) : State :=
  if let some (p, 0) := regArray 0x43000000 0x100 32 a then
    onPort (Fin.ofNat 32 p) (fun x => { x with
      fLoss := w1c x.fLoss w 9, fSat := w1c x.fSat w 11, fIndex := w1c x.fIndex w 12, fHallSkip := w1c x.fHallSkip w 17 }) s
  else if let some (u, 0) := regArray 0x43010000 0x40 16 a then
    onCmp (Fin.ofNat 16 u) (fun x => { x with
      fHit := w1c x.fHit w 12, fSkipped := w1c x.fSkipped w 13, fMerged := w1c x.fMerged w 14 }) s
  else if let some (u, 0) := regArray 0x43020000 4 16 a then
    markDirty 4 (onCmp (Fin.ofNat 16 u) (fun x => { x with ctrl := x.ctrl.write (BitVec.ofNat 32 (w.toNat % 16)) }) s)
  else if let some (l, 0) := regArray 0x43030000 0x40 16 a then
    onLatch (Fin.ofNat 16 l) (fun x => { x with fLost := w1c x.fLost w 6 }) s
  else if a = 0x43040000 then onSnap (fun x => { x with fLost := w1c x.fLost w 4 }) s
  else s

/-- Bridge Timer Array and Stepper Drive. -/
def writeBta (c : Fin 6) (a : Nat) (w : Word) (s : State) : State :=
  if let some (n, o) := regArray 0x44000000 0x40 32 a then
    let g : Fin 32 := Fin.ofNat 32 n
    match o with
    | 0x04 => writeGrpPeriod c g w s
    | 0x08 => writeGrpSeal c g w s
    | 0x0C => onGrp g (fun x => { x with
        fSuper := w1c x.fSuper w 2, fOverdue := w1c x.fOverdue w 3, fClamped := w1c x.fClamped w 4, fOwned := w1c x.fOwned w 5 }) s
    | 0x10 => writeGrpTrip g w s
    | _ => s
  else if let some (n, o) := regArray 0x44001000 0x10 96 a then
    match o with
    | 0x00 => writeLegCmp c (Fin.ofNat 96 n) false w s
    | 0x04 => writeLegCmp c (Fin.ofNat 96 n) true w s
    | 0x08 => writeLegDuty c (Fin.ofNat 96 n) w s
    | _ => s
  else if let some (n, 0) := regArray 0x44004000 4 12 a then
    onLeg (Fin.ofNat 96 n) (fun l => { l with fCalFail := w1c l.fCalFail w 8 }) s
  else if let some (i, 0) := regArray 0x44006000 0x10 64 a then
    onStep (Fin.ofNat 64 i) (fun x => { x with fLost := w1c x.fLost w 6, fSwitched := w1c x.fSwitched w 7 }) s
  else s

/-- Backbone Switch and Time Base Unit. -/
def writeNet (a : Nat) (w : Word) (s : State) : State :=
  if let some (p, 0) := regArray 0x45000000 0x100 4 a then
    onNetPort (Fin.ofNat 5 p) (fun x => { x with fNegFail := w1c x.fNegFail w 3, fPreemptFail := w1c x.fPreemptFail w 8 }) s
  else if let some (b, 0) := regArray 0x45010000 0x100 4 a then
    onTb (Fin.ofNat 4 b) (fun x => { x with fStep := w1c x.fStep w 9, fSwitch := w1c x.fSwitch w 10, fAsym := w1c x.fAsym w 11 }) s
  else if let some (k, 0) := regArray 0x45020000 0x20 8 a then
    onTso (Fin.ofNat 8 k) (fun x => { x with fFired := w1c x.fFired w 4, fSkipped := w1c x.fSkipped w 5 }) s
  else s

/-- CAN Controllers. -/
def writeCan (a : Nat) (w : Word) (s : State) : State :=
  match regArray 0x46000000 0x100 4 a with
  | some (c, 0x00) =>
    onCtl (Fin.ofNat 4 c) (fun x => { x with
      fBusOff := w1c x.fBusOff w 8, fCollision := w1c x.fCollision w 9, fAbandoned := w1c x.fAbandoned w 10 }) s
  | some (c, 0x08) =>
    onCtl (Fin.ofNat 4 c) (fun x => { x with
      fifo := updAll x.fifo fun k f => { f with overflow := w1c f.overflow w (7 + 8 * k.val) } }) s
  | some (c, 0x0C) => onCtl (Fin.ofNat 4 c) (fun x => { x with fMissed := w1c x.fMissed w 12, fRefLost := w1c x.fRefLost w 13 }) s
  | _ => s

/-- Memory Port. -/
def writeSerial (a : Nat) (w : Word) (s : State) : State :=
  match regArray 0x47000000 0x20 4 a with
  | some (p, 0x00) => onSpm (Fin.ofNat 4 p) (fun x => { x with fFail := w1c x.fFail w 3, fVerify := w1c x.fVerify w 4 }) s
  | _ => s

/-- Acquisition Engine. -/
def writeAcq (a : Nat) (w : Word) (s : State) : State :=
  if a = 0x48000000 then
    s.onAcq fun b => { b with
      fOverflow := w1c b.fOverflow w 9, fTruncated := w1c b.fTruncated w 10, fMaskFail := w1c b.fMaskFail w 11, fDone := w1c b.fDone w 12 }
  else s

/-- Thread Dispatcher and lanes. -/
def writeLanes (a : Nat) (w : Word) (s : State) : State :=
  if let some (t, 0x00) := regArray 0x49001000 0x10 512 a then
    onThr (Fin.ofNat 512 t) (fun x => { x with fFault := w1c x.fFault w 13, fOverrun := w1c x.fOverrun w 17 }) s
  else if let some (k, 0x00) := regArray 0x49004000 0x10 16 a then
    s.onLanes fun n => { n with tmr := upd n.tmr (Fin.ofNat 16 k) fun t => { t with fSkipped := w1c t.fSkipped w 3 } }
  else if let some (i, 0) := regArray 0x4A001400 4 64 a then
    s.onLanes fun n => { n with spt := upd n.spt (Fin.ofNat 64 i) fun p => { p with fStall := w1c p.fStall w 21 } }
  else s

/-- Field I/O: CMD is dropped while an enabled map writes the group (R376). -/
def writeFio (a : Nat) (w : Word) (s : State) : State :=
  match regArray 0x4B000000 0x100 4 a with
  | some (n, o) =>
    let g : Fin 4 := Fin.ofNat 4 n
    match o with
    | 0x00 => onFioGroup g (fun x => { x with fSag := w1c x.fSag w 3, fLost := w1c x.fLost w 4 }) s
    | 0x04 => onFioGroup g (fun x => { x with input := updAll x.input fun j i => { i with fOpen := w1c i.fOpen w (16 + j.val) } }) s
    | 0x08 => if fioMapped g s then s else onFioGroup g (FioGroup.command 15 (w.toNat % 16)) s
    | 0x0C => onFioGroup g (fun x => { x with output := updAll x.output fun j k => { k with
        fOverload := w1c k.fOverload w (16 + j.val), fOvertemp := w1c k.fOvertemp w (20 + j.val),
        fOpenLoad := w1c k.fOpenLoad w (24 + j.val), fBackfeed := w1c k.fBackfeed w (28 + j.val) } }) s
    | _ => s
  | none => s

/-- Update strobes a context may write (R60, R113): all for Keeper and the host (Table 3.4A), for Gardener those of its entries. -/
def mayStrobe (c : Fin 6) (s : State) : BitVec 16 :=
  if c = 0 ∨ c = 5 then 0xFFFF
  else (s.boot.perms.filter (Permission.holds s)).foldl (fun m e => m ||| e.strobes) 0

/-- A write of UPD_STROBE: permitted bits are taken, the others named in one event (R111, R113). -/
def writeStrobe (c : Fin 6) (w : Word) (s : State) : State :=
  let bits : BitVec 16 := w.setWidth 16
  let ok := mayStrobe c s
  let s1 := if bits &&& ~~~ok = 0 then s else permissionEvent c 0x40000200 true (bits &&& ~~~ok).toNat s
  if bits &&& ok = 0 then s1 else strobe (bits &&& ok) s1

/-- A write of IND_CTRL discards the snapshot (R107). -/
def Ctx.writeCtrl (w : Word) (k : Ctx) : Ctx :=
  { k with
    step := w.setWidth 2, snap := w.getLsbD 2, snapLen := (w >>> 4).setWidth 4, indTimeout := w1c k.indTimeout w 9,
    err := w1c k.err w 10, snapshot := none }

/-- A write of IND_ADDR discards the snapshot (R107). -/
def Ctx.writeAddr (w : Word) (k : Ctx) : Ctx := { k with indAddr := w &&& 0xFFFFFFFC, snapshot := none }

/-- System region but for IND_DATA. -/
def writeSys (c : Fin 6) (a : Nat) (w : Word) (s : State) : State :=
  match a with
  | 0x40000100 => onCtx c (Ctx.writeAddr w) s
  | 0x40000108 => onCtx c (Ctx.writeCtrl w) s
  | 0x40000200 => writeStrobe c w s
  | 0x4000020C => s.onSys fun y => { y with updSuperseded := y.updSuperseded &&& ~~~w.setWidth 16 }
  | _ => s

/-- A write of a register; fields of other access codes ignore it. -/
def writeRegister (c : Fin 6) (a : Nat) (w : Word) (s : State) : State :=
  match a / 0x1000000 with
  | 0x40 => writeSys c a w s
  | 0x41 => if a < 0x41800000 then writePlan a w s else writeGear a w s
  | 0x42 => writeLoop a w s
  | 0x43 => writePort a w s
  | 0x44 => writeBta c a w s
  | 0x45 => writeNet a w s
  | 0x46 => writeCan a w s
  | 0x47 => writeSerial a w s
  | 0x48 => writeAcq a w s
  | 0x49 => writeLanes a w s
  | 0x4A => writeLanes a w s
  | 0x4B => writeFio a w s
  | _ => s

/-- What the read of an rc field clears: the bits returned, or the measurement it restarts (R118). -/
def clearOnRead (c : Fin 6) (a : Nat) (w : Word) (s : State) : State :=
  if a = 0x40000404 then onCtx c (fun k => { k with errCount := k.errCount &&& ~~~(w >>> 16).setWidth 16 }) s
  else if a = 0x4800000C then s.onAcq fun b => { b with deadMin := 0xFFFFFFFF }
  else if a = 0x48000010 then s.onAcq fun b => { b with deadMax := 0 }
  else if a = 0x4D000010 then s.onInteg fun g => { g with lost := g.lost &&& ~~~(w >>> 8).setWidth 8 }
  else if a = 0x4D000020 then s.onInteg fun g => { g with evtLost := g.evtLost &&& ~~~(w >>> 16).setWidth 16 }
  else if let some (t, 0x0C) := regArray 0x49001000 0x10 512 a then
    onThr (Fin.ofNat 512 t) (fun x => { x with latMax := x.latMax &&& ~~~(w >>> 16).setWidth 16 }) s
  else
    match regArray 0x42000000 0x80 64 a with
    | some (i, o) =>
      if o = 4 ∨ o = 8 ∨ o = 12 then onLoopSt (Fin.ofNat 64 i) (Fin.ofNat 3 (o / 4 - 1)) (fun y => { y with margin := 0xFFFF }) s else s
    | none => s

end Sys2Proof.Machine
end

