-- ==== Sys2Proof/Machine/Access.lean ====
section
/-! DEFINITION.
Accesses of the six contexts: their checks, direct reads and writes, the indirect pair (R98 to R120, 05; R60, R493, 03; R401 to
R403, 18). Nothing is accessed during Reset. -/

namespace Sys2Proof.Machine

/-- Causes of an access error (SYS_ACC_ERR_INFO.CAUSE, R120). -/
inductive AccessError
  | unmapped
  | size
  | indirectOnly
  | timeout
  | wideOrder
  | aliased
deriving DecidableEq, Repr

/-- Their codes. -/
def AccessError.code : AccessError → Nat
  | .unmapped => 1
  | .size => 2
  | .indirectOnly => 3
  | .timeout => 4
  | .wideOrder => 5
  | .aliased => 6

/-- What the checks say of an access. -/
inductive Verdict
  | pass
  | error (e : AccessError)
  | refused
deriving DecidableEq, Repr

/-- The host context. -/
def hostCtx : Fin 6 := 5

/-- Record an access error (R120). -/
def accessError (c : Fin 6) (e : AccessError) (write : Bool) (a : Nat) (s : State) : State :=
  onCtx c (fun k => { k with
    errAddr := BitVec.ofNat 32 a, errCause := BitVec.ofNat 3 e.code, errWrite := write
    errCount := if k.errCount = 0xFFFF then k.errCount else k.errCount + 1 }) s

/-- IND_DATA. -/
def indData : Nat := 0x40000104

/-- A word of the indirect pair. -/
def pairWord (a : Nat) : Bool := decide (0x40000100 ≤ a) && decide (a < 0x4000010C)

/-- An address of SRAM. -/
def sramAddr (a : Nat) : Bool := decide (a < 0x1800000)

/-- Something answers at an address (R98). -/
def mapped (c : Fin 6) (a : Nat) (s : State) : Bool :=
  sramAddr a || (windowAt a s).isSome || (blockRegion a && (regAt c (registerOf a) s).isSome)

/-- The states in which blocks are written (Table 3.4A). -/
def writableState (s : State) : Bool := s.sys.dev == .commissioning || s.sys.dev == .operational || s.sys.dev == .test

/-- The execute-in-place window: reads after Startup, writes of all but the Keeper regions (R403, R493). -/
def windowMay (write : Bool) (a : Nat) (s : State) : Bool :=
  if write then
    writableState s && (match windowAt a s with
      | some (p, x) => !keeperRegion p x
      | none => false)
  else afterStartup s

/-- The host permission table (Table 3.4A). -/
def hostMay (write : Bool) (a : Nat) (s : State) : Bool :=
  if sramAddr a then !write && decide (0x400000 ≤ a) && afterStartup s
  else if !blockRegion a then windowMay write a s
  else
    match a / 0x1000000 with
    | 0x40 => true
    | 0x4B => !write || writableState s || s.sys.dev == .recovery
    | 0x4C => !write && decide (a < 0x4C000100) && afterStartup s
    | 0x4E => !write
    | _ => !write || writableState s

/-- An address of the flash slot regions, to which Gardener has no path (R59, R403). -/
def keeperWindow (a : Nat) (s : State) : Bool :=
  match windowAt a s with
  | some (p, x) => keeperRegion p x
  | none => false

/-- What Gardener may access: what its table grants, but no write of the Keeper regions, the mailbox, or power and identity (R59,
R60, Table 3.4, R403). -/
def gardenerMay (write : Bool) (a : Nat) (s : State) : Bool :=
  granted write a s && !(write && (keeperWindow a s || (blockRegion a && (a / 0x1000000 == 0x4E || a / 0x1000000 == 0x4C))))

/-- A field of access sv at an address. -/
def votedAt (a : Nat) (s : State) : Bool := s.sys.voted.any fun v => v.addr == a

/-- The permission check (R60); Keeper's accesses are not checked, nor is a write of IND_ADDR (R105); sv fields are written only by
Keeper (R117). -/
def mayAccess (c : Fin 6) (write : Bool) (a : Nat) (s : State) : Bool :=
  if c = 0 ∨ write ∧ a = 0x40000100 then true
  else if write ∧ votedAt a s then false
  else if c = hostCtx then hostMay write a s
  else gardenerMay write a s

/-- A buffered register, at its address or its alias. -/
def bufferedAt (c : Fin 6) (a : Nat) (s : State) : Bool :=
  match regAt c (registerOf a) s with
  | some (.buffered _) => true
  | _ => false

/-- The checks of an access in the order of R120; the last two, WIDE_ORDER and TIMEOUT, are met by the access itself. -/
def check (c : Fin 6) (ind write : Bool) (a bytes : Nat) (s : State) : Verdict :=
  if bytes ≠ 4 ∨ a % 4 ≠ 0 then .error .size
  else if !mapped c a s then .error .unmapped
  else if !ind && indirectOnly a && blockRegion a then .error .indirectOnly
  else if write && isAlias a && !bufferedAt c a s then .error .aliased
  else if !mayAccess c write a s then .refused
  else .pass

/-- Record what a failed check leaves: an access error, or a PERMISSION event (R60, R120). -/
def failCheck (c : Fin 6) (v : Verdict) (write : Bool) (a : Nat) (s : State) : State :=
  match v with
  | .pass => s
  | .error e => accessError c e write a s
  | .refused => permissionEvent c a write 0 s

/-! Voted fields (R114, R116). -/

/-- The bitwise majority. -/
def Voted.majority (v : Voted) : Word := (v.c0 &&& v.c1) ||| (v.c0 &&& v.c2) ||| (v.c1 &&& v.c2)

/-- Vote a field: copies that disagree are rewritten and counted; a field whose copies all differ takes its reset value. -/
def voteField (v : Voted) (s : State) : State :=
  let put := fun (w : Word) => s.onSys fun y => { y with
    voted := y.voted.map fun u => if u.addr = v.addr then { u with c0 := w, c1 := w, c2 := w } else u }
  if v.c0 = v.c1 ∧ v.c1 = v.c2 then s
  else if v.c0 ≠ v.c1 ∧ v.c0 ≠ v.c2 ∧ v.c1 ≠ v.c2 ∧ 2 ≤ v.width then
    deviceFault 0x0013 0xFFFF v.addr false (put v.resetVal)
  else
    onMemTally 7 (fun t => { t with votes := bump t.votes 1 })
      ((put v.majority).onSys fun y => { y with voteLast := BitVec.ofNat 32 v.addr })

/-- Bits of a voted field: it lies from bit 0 of its register (log entry 49). -/
def Voted.mask (v : Voted) : Word := BitVec.ofNat 32 (2 ^ v.width - 1)

/-- A register word with the majority of a voted field in place (R114). -/
def Voted.over (w : Word) (v : Voted) : Word := (w &&& ~~~v.mask) ||| (v.majority &&& v.mask)

/-- A register word as it is read: voted fields are their majority (R114). -/
def votedWord (a : Nat) (w : Word) (s : State) : Word := (s.sys.voted.filter fun v => v.addr == a).foldl Voted.over w

/-- Keeper's write of a voted field replaces all three copies (R117). -/
def writeVoted (a : Nat) (w : Word) (s : State) : State :=
  if votedAt a s then
    s.onSys fun y => { y with voted := y.voted.map fun v =>
      if v.addr = a then { v with c0 := w &&& v.mask, c1 := w &&& v.mask, c2 := w &&& v.mask } else v }
  else s

/-- A read votes the field it reads. -/
def voteRead (a : Nat) (s : State) : State :=
  match s.sys.voted.find? fun v => v.addr == a with
  | some v => voteField v s
  | none => s

/-! One access, its checks passed. -/

/-- The word of the Belvedere store at an address of banks 4 and 5: record n of segment k of n segments lies at record
k × (1,048,576 / n) + n of the store (R422; log entry 33). -/
def storeWord (a : Nat) (s : State) : Option Word :=
  let size := 1048576 / max s.acq.segments 1
  let r := (a - 0x1000000) / 8
  let g := r / size
  if a < 0x1000000 ∨ 64 ≤ g then none
  else
    ((s.acq.seg[Fin.ofNat 64 g]).records[r % size]?).map fun (v : BitVec 64) =>
      if a % 8 < 4 then v.setWidth 32 else (v >>> 32).setWidth 32

/-- A read of SRAM: a poisoned block reads 0 and is counted (R470). -/
def readSram (a : Nat) (s : State) : Word × State :=
  if poisonedAt a s then (0, countPoison a s) else ((storeWord a s).getD (wordAt 0 a s.integ.sram), s)

/-- A write of SRAM: dropped and counted where the block is poisoned (R470). -/
def writeSram (a : Nat) (w : Word) (s : State) : State :=
  if poisonedAt a s then countPoison a s else s.onInteg fun g => { g with sram := wordPut 0 a w g.sram }

/-- A read of a register: a wide register's low word latches its high word, the high word is taken from the latch (R108); a
buffered register's alias reads its shadow (R109). -/
def readRegister (c : Fin 6) (a : Nat) (s : State) : Word × State :=
  let r := registerOf a
  if protectedAddr r && poisonedAt r s then (0, countPoison r s)
  else
    let s1 := voteRead r (if openRegister r then (fresh s).2 else s)
    match regAt c r s with
    | some (.word w) => (votedWord r w s1, s1)
    | some (.low v) => (v.setWidth 32, onCtx c (fun k => { k with readLatch := some (r, (v >>> 32).setWidth 32) }) s1)
    | some (.high v) =>
      match s.sys.ctx[c].readLatch with
      | some (b, w) => if b + 4 = r then (w, onCtx c (fun k => { k with readLatch := none }) s1) else ((v >>> 32).setWidth 32, s1)
      | none => ((v >>> 32).setWidth 32, s1)
    | some (.buffered b) => (if isAlias a then b.shadow else b.active, s1)
    | none => (0, s1)

/-- A write of a register: the low word of a wide register waits in the write latch, the high word commits it (R108). Every wide
register of the map is ro, so what is committed changes nothing. -/
def writeWord (c : Fin 6) (a : Nat) (w : Word) (s : State) : State :=
  let r := registerOf a
  match regAt c r (writeVoted r w s) with
  | some (.low _) => onCtx c (fun k => { k with writeLatch := some (r, w) }) s
  | some (.high _) =>
    match s.sys.ctx[c].writeLatch with
    | some (b, _) => if b + 4 = r then onCtx c (fun k => { k with writeLatch := none }) s else accessError c .wideOrder true a s
    | none => accessError c .wideOrder true a s
  | _ => writeRegister c r w (writeVoted r w s)

/-- An address of the window. -/
def windowAddr (a : Nat) : Bool := !sramAddr a && !blockRegion a

/-- Queue a window access that waits. -/
def enqueueWait (c : Fin 6) (e : WindowWait) (s : State) : State :=
  onCtx c (fun k => { k with
    windowWait := k.windowWait ++ [e], busy := k.busy || e.ind, busyAt := if e.ind then s.now else k.busyAt,
    busyAddr := if e.ind then e.addr else k.busyAddr
    indWrite := if e.ind then e.value.isSome else k.indWrite }) s

/-- A read, its rc clearing left out; none while it waits for a flash device. Window accesses of one context stay in order. -/
def fetch (c : Fin 6) (ind : Bool) (a : Nat) (s : State) : Option Word × State :=
  if sramAddr a then let r := readSram a s; (some r.1, r.2)
  else if windowAddr a then
    let e : WindowWait := { addr := a, value := none, ind := ind, since := s.now }
    if s.sys.ctx[c].windowWait != [] then (none, enqueueWait c e s)
    else
      match windowAccess a none s with
      | (some w, t) => (some w, t)
      | (none, t) => (none, enqueueWait c e t)
  else let r := readRegister c a s; (some r.1, r.2)

/-- A write; false while it waits for a flash device. -/
def store (c : Fin 6) (ind : Bool) (a : Nat) (w : Word) (s : State) : Bool × State :=
  if sramAddr a then (true, writeSram a w s)
  else if windowAddr a then
    let e : WindowWait := { addr := a, value := some w, ind := ind, since := s.now }
    if s.sys.ctx[c].windowWait != [] then (false, enqueueWait c e s)
    else
      match windowAccess a (some w) s with
      | (some _, t) => (true, t)
      | (none, t) => (false, enqueueWait c e t)
  else (true, writeWord c a w s)

/-- A context is given a word. -/
def handWord (c : Fin 6) (w : Word) (s : State) : State := onCtx c (fun k => { k with readData := w }) s

/-! The indirect pair (R104 to R107). -/

/-- An indirect access that has not completed after 100 µs is abandoned (R106). -/
def indTimeout (c : Fin 6) (s : State) : State :=
  let k := s.sys.ctx[c]
  if !k.busy then s
  else
    onCtx c (fun k => { k with
      busy := false, indTimeout := true, windowWait := k.windowWait.filter fun e => !e.ind
      readData := if k.indWrite then k.readData else 0 }.advance) (accessError c .timeout k.indWrite k.busyAddr s)

/-- An indirect access has been under way for 100 µs (R106). -/
def indOverdue (c : Fin 6) (s : State) : Bool := s.sys.ctx[c].busy && decide (s.sys.ctx[c].busyAt + 50000 ≤ s.now)

/-- A refused indirect access: a read returns 0, a write is dropped, ERR is set, IND_ADDR advances (R105). -/
def indRefuse (c : Fin 6) (read : Bool) (s : State) : State :=
  onCtx c (fun k => { k with err := true, readData := if read then 0 else k.readData }.advance) s

/-- IND_ADDR advances, a read having delivered a word. -/
def indDone (c : Fin 6) (w : Option Word) (s : State) : State :=
  onCtx c (fun k => { k with readData := w.getD k.readData }.advance) s

/-- An access to a field group whose supply is lost does not complete (R106). -/
def unpowered (a : Nat) (s : State) : Bool :=
  match regArray 0x4B000000 0x100 4 (registerOf a) with
  | some (g, _) => !s.fio.grp[Fin.ofNat 4 g].powered
  | none => false

/-- An indirect access is under way. -/
def indBusy (c : Fin 6) (write : Bool) (s : State) : State := onCtx c (fun k => { k with busy := true, busyAt := s.now, busyAddr := k.indAddr.toNat, indWrite := write }) s

/-- A snapshot: `n` words from `a`, each captured as one read (R107, R119); a word at which nothing answers is 0. -/
def capture (c : Fin 6) : Nat → Nat → State → List Word × State
  | _, 0, s => ([], s)
  | a, n + 1, s =>
    match (if mapped c a s && !windowAddr a then fetch c true a s else (some 0, s)) with
    | (some w, t) =>
      let r := capture c (a + 4) n (clearOnRead c (registerOf a) w t)
      (w :: r.1, r.2)
    | (none, t) => ([], t)

/-- The captured word of an address inside the snapshot window. -/
def snapWord (k : Ctx) (a : Nat) : Option Word :=
  match k.snapshot with
  | some (b, ws) => if k.snap ∧ b ≤ a then ws[(a - b) / 4]? else none
  | none => none

/-- A window that no snapshot is taken of: it would span two pages of a block region (R99, R107), or two devices of the
execute-in-place window. A page is taken to lie in one domain (log entry 49). -/
def snapSplit (a n : Nat) (s : State) : Bool :=
  let b := a + 4 * n - 4
  (blockRegion a && a / 0x10000 != b / 0x10000) ||
  (windowAddr a && (windowAt a s).map (·.1) != (windowAt b s).map (·.1))

/-- A snapshot of the execute-in-place window; the read waits with it for its flash device (R107, R401). -/
def indSnapWindow (c : Fin 6) (a n : Nat) (s : State) : State :=
  let e : WindowWait := { addr := a, value := none, ind := true, since := s.now, snap := n }
  if s.sys.ctx[c].windowWait != [] then enqueueWait c e s
  else
    match windowWords a n s with
    | (some ws, t) => onCtx c (Ctx.endWait e (ws.headD 0) ws) t
    | (none, t) => enqueueWait c e t

/-- A read of the register at IND_ADDR: inside the snapshot window the target is not touched (R107). -/
def indFetch (c : Fin 6) (a : Nat) (s : State) : State :=
  let k := s.sys.ctx[c]
  let n := k.snapLen.toNat + 1
  if let some w := snapWord k a then indDone c (some w) s
  else if k.snap ∧ snapSplit a n s then indRefuse c true s
  else if unpowered a s then indBusy c false s
  else if k.snap then
    if windowAddr a then indSnapWindow c a n s
    else
      let r := capture c a n s
      indDone c (some (r.1.headD 0)) (onCtx c (fun k => { k with snapshot := some (a, r.1) }) r.2)
  else
    match fetch c true a s with
    | (some w, t) => indDone c (some w) (clearOnRead c (registerOf a) w t)
    | (none, t) => t

/-- A read of IND_DATA that may begin (R104). -/
def indReadNow (c : Fin 6) (s : State) : State :=
  let a := s.sys.ctx[c].indAddr.toNat
  if pairWord a then indRefuse c true s
  else
    match check c true false a 4 s with
    | .pass => indFetch c a s
    | .error e => indDone c (some 0) (accessError c e false a s)
    | .refused => indRefuse c true (permissionEvent c a false 0 s)

/-- A write of the register at IND_ADDR. -/
def indStore (c : Fin 6) (a : Nat) (w : Word) (s : State) : State :=
  if unpowered a s then indBusy c true s
  else
    match store c true a w s with
    | (true, t) => indDone c none t
    | (false, t) => t

/-- A write of IND_DATA that may begin: it discards the snapshot and goes to the live register (R104, R107). -/
def indWriteNow (c : Fin 6) (w : Word) (s0 : State) : State :=
  let s := onCtx c (fun k => { k with snapshot := none }) s0
  let a := s.sys.ctx[c].indAddr.toNat
  if pairWord a then indRefuse c false s
  else
    match check c true true a 4 s with
    | .pass => indStore c a w s
    | .error e => indDone c none (accessError c e true a s)
    | .refused => indRefuse c false (permissionEvent c a true 0 s)

/-- An access of IND_DATA: a read, or a write of a word, IND_ADDR written first where the access comes with its address. -/
def indNow (c : Fin 6) (v : Option Word × Option Word) (s0 : State) : State :=
  let s := match v.1 with
    | none => s0
    | some a => onCtx c (Ctx.writeAddr a) s0
  match v.2 with
  | none => indReadNow c s
  | some w => indWriteNow c w s

/-- The accesses of IND_DATA that waited go on in order until one is under way again (R104). -/
def indNext (c : Fin 6) : Nat → State → State
  | 0, s => s
  | n + 1, s =>
    match s.sys.ctx[c].indQueue with
    | [] => s
    | v :: l =>
      if s.sys.ctx[c].busy then s else indNext c n (indNow c v (onCtx c (fun k => { k with indQueue := l }) s))

/-- After an indirect access has ended. -/
def indResume (c : Fin 6) (s : State) : State := indNext c s.sys.ctx[c].indQueue.length s

/-- The same for every context. -/
def indResumeAll (s : State) : State := (List.finRange 6).foldl (fun s c => indResume c s) s

/-- An access of IND_DATA: it waits until the context's previous indirect access has completed (R104). -/
def indAccess (c : Fin 6) (v : Option Word × Option Word) (s : State) : State :=
  if s.sys.ctx[c].busy then onCtx c (fun k => { k with indQueue := k.indQueue ++ [v] }) s else indNow c v s

/-- Each access of IND_DATA under way or waiting ends, abandoned where it does not complete. -/
def indDrainN (c : Fin 6) : Nat → State → State
  | 0, s => s
  | n + 1, s => indDrainN c n (indResume c (indTimeout c s))

/-- The same for all of them. -/
def indDrain (c : Fin 6) (s : State) : State := indDrainN c (s.sys.ctx[c].indQueue.length + 1) s

/-! Direct accesses. -/

/-- A direct read, its rc clearing left to `clear`: the word, and none while it waits. -/
def readDirect (c : Fin 6) (a : Nat) (s : State) : Option Word × State :=
  if a = indData then
    let t := indAccess c (none, none) s
    (if t.sys.ctx[c].busy then none else some t.sys.ctx[c].readData, t)
  else fetch c false a s

/-- No access can come from a context: in Reset, or from a Keeper core that has halted (Table 21.3). -/
def contextDead (c : Fin 6) (s : State) : Bool := s.sys.dev == .reset || (c == 0 && s.sys.keeperHalted)

/-- A read by a context: checked, carried out, its rc fields cleared, its word delivered. -/
def accessRead (c : Fin 6) (a bytes : Nat) (s : State) : State :=
  if contextDead c s then s
  else
    match check c false false a bytes s with
    | .pass =>
      match readDirect c a s with
      | (some w, t) => handWord c w (clearOnRead c (registerOf a) w t)
      | (none, t) => t
    | v => handWord c 0 (failCheck c v false a s)

/-- A direct write. -/
def writeDirect (c : Fin 6) (a : Nat) (w : Word) (s : State) : State :=
  if a = indData then indAccess c (none, some w) s else (store c false a w s).2

/-- A write by a context: checked, carried out. -/
def accessWrite (c : Fin 6) (a bytes : Nat) (w : Word) (s : State) : State :=
  if contextDead c s then s
  else
    match check c false true a bytes s with
    | .pass => writeDirect c a w s
    | v => failCheck c v true a s

/-- A direct read waits in the window. -/
def WindowWait.read (e : WindowWait) : Bool := e.value.isNone && !e.ind

/-- A context's oldest direct read in the window has waited 100 µs (R401). -/
def windowOverdue (c : Fin 6) (s : State) : Bool :=
  (s.sys.ctx[c].windowWait.find? WindowWait.read).any fun e => decide (e.since + 50000 ≤ s.now)

/-- A read in the window that has waited too long returns 0; what waited behind it goes on (R401). -/
def windowTimeout (c : Fin 6) (s : State) : State :=
  match s.sys.ctx[c].windowWait.find? WindowWait.read with
  | none => s
  | some e =>
    resumeOne c (onCtx c (fun k => { k with readData := 0, windowWait := k.windowWait.eraseP WindowWait.read })
      (accessError c .timeout false e.addr s))

end Sys2Proof.Machine
end

