-- ==== Sys2Proof/Machine/AcqOps.lean ====
section
/-! DEFINITION.
Belvedere: its opcodes (R433, R434) and its events (R416, R420, R426 to R431, 19). -/

namespace Sys2Proof.Machine

/-- "Idle" of Table 19.8. -/
def acqIdle (s : State) : Bool := s.acq.st == 0 || s.acq.st == 6

/-! Configuration. -/

/-- SOURCE and CLOCK lie inside Table 19.1 and R416; an indirect-only address is refused (R415). -/
def channelValues (rq : Request) : Option Deny :=
  let n := fun off len => num rq 0x0100 off len
  let c := fun off len => num rq 0x0101 off len
  let code := n 0 1
  firstDeny
    [(has rq 0x0100 && (!within 1 15 code || decide (32 < n 2 1) || decide (1 < n 3 1)), badValue rq 0x0100),
     (has rq 0x0100 && code != 15 && (decide (variableCount code ≤ n 1 1) || n 4 4 != 0), badValue rq 0x0100),
     (has rq 0x0100 && code == 15 && (n 4 4 % 4 != 0 || (blockRegion (n 4 4) && indirectOnly (n 4 4))), badValue rq 0x0100),
     (decide (1 < c 0 1) || decide (63 < c 1 1) || decide (2 < c 2 1) || c 3 1 != 0, badValue rq 0x0101),
     (c 0 1 == 1 && decide (c 4 4 < 5000), badValue rq 0x0101),
     (decide (2 ^ 31 ≤ num rq 0x0102 0 4), badValue rq 0x0102)]

/-- A channel as ACQ_CHANNEL_CONFIG sets it. -/
def acqChannelOf (rq : Request) : AcqChan :=
  { code := num rq 0x0100 0 1, index := num rq 0x0100 1 1, shift := num rq 0x0100 2 1, change := hasBit (num rq 0x0100 3 1) 0
    addr := num rq 0x0100 4 4, clkPeriod := num rq 0x0101 0 1 == 1, slot := num rq 0x0101 1 1, loop := num rq 0x0101 2 1
    period := num rq 0x0101 4 4, deadband := num rq 0x0102 0 4 }

/-- ACQ_CHANNEL_CONFIG: without SOURCE the channel is turned off (R414). -/
def opAcqChannelConfig : Op :=
  { opcode := 0x0D00, target := below 64, toe := false, states := afterStart
    schema := [optional 0x0100 8, fixed 0x0101 8, optional 0x0102 4]
    values := fun rq _ => channelValues rq
    effect := fun rq s =>
      let c := tgt 64 rq
      if !acqIdle s then .deny conflict
      else if decide (56 ≤ c.val) && s.acq.pinEn.getLsbD (c.val - 56) then .deny conflict
      else .done (s.onAcq fun b => { b with chan := upd b.chan c fun _ => if has rq 0x0100 then acqChannelOf rq else {} }) [] }

/-- Executes ACQ_CHANNEL_CONFIG. -/
def execAcqChannelConfig (rq : Request) (s : State) : Host.Outcome State Fault Refusal := runCommand opAcqChannelConfig rq s

/-- The eight DESKEW values. -/
def deskewOf (rq : Request) : List Int := (List.range 8).map fun k => int rq 0x0101 k 1

/-- ACQ_PIN_CONFIG: enabling pin k makes CH56 + k its channel (R414, R417). -/
def opAcqPinConfig : Op :=
  { opcode := 0x0D01, target := device, toe := false, states := afterStart, schema := [fixed 0x0100 4, optional 0x0101 8]
    values := fun rq _ => firstDeny
      [(num rq 0x0100 2 2 == 0, badValue rq 0x0100),
       (has rq 0x0101 && (deskewOf rq).any fun d => decide (d < -32) || decide (32 < d), badValue rq 0x0101)]
    effect := fun rq s =>
      let en : BitVec 8 := BitVec.ofNat 8 (num rq 0x0100 0 1)
      if !acqIdle s then .deny conflict
      else .done (s.onAcq fun b => { b with
        pinEn := en, pinStore := BitVec.ofNat 8 (num rq 0x0100 1 1), pinDiv := num rq 0x0100 2 2
        deskew := if has rq 0x0101 then deskewOf rq else b.deskew
        chan := updAll b.chan fun i c => if decide (56 ≤ i.val) && en.getLsbD (i.val - 56) then {} else c }) [] }

/-- Executes ACQ_PIN_CONFIG. -/
def execAcqPinConfig (rq : Request) (s : State) : Host.Outcome State Fault Refusal := runCommand opAcqPinConfig rq s

/-- ACQ_TRIGGER_CONFIG (R426). -/
def opAcqTriggerConfig : Op :=
  { opcode := 0x0D02, target := below 8, toe := false, states := afterStart, schema := [fixed 0x0100 1, fixed 0x0101 48]
    values := fun rq _ => firstDeny [(decide (7 < num rq 0x0100 0 1), badValue rq 0x0100)]
    effect := fun rq s =>
      if !acqIdle s then .deny conflict
      else .done (s.onAcq fun b => { b with
        trig := upd b.trig (tgt 8 rq) fun _ => { kind := num rq 0x0100 0 1, cond := value rq 0x0101 } }) [] }

/-- Executes ACQ_TRIGGER_CONFIG. -/
def execAcqTriggerConfig (rq : Request) (s : State) : Host.Outcome State Fault Refusal := runCommand opAcqTriggerConfig rq s

/-- The points of a request: t, lower, upper. -/
def pointsOf (rq : Request) : List (Nat × Int × Int) :=
  (List.range ((value rq 0x0101).length / 16)).map fun k =>
    (num rq 0x0101 (16 * k) 8, int rq 0x0101 (16 * k + 8) 4, int rq 0x0101 (16 * k + 12) 4)

/-- t rises strictly. -/
def risingPoints : List (Nat × Int × Int) → Bool
  | p :: q :: l => decide (p.1 < q.1) && risingPoints (q :: l)
  | _ => true

/-- An envelope's points after a write at INDEX: those before it stay, those from it on are replaced. -/
def newPoints (rq : Request) (s : State) : List (Nat × Int × Int) :=
  (s.acq.env[tgt 4 rq]).points.take (num rq 0x0102 0 2) ++ pointsOf rq

/-- ACQ_ENVELOPE_SET (R428). -/
def opAcqEnvelopeSet : Op :=
  { opcode := 0x0D03, target := below 4, toe := false, states := afterStart
    schema := [fixed 0x0100 2, { type := 0x0101, lo := 32, hi := 1280, step := 16 }, fixed 0x0102 2]
    values := fun rq s =>
      let k := num rq 0x0102 0 2
      firstDeny
        [(decide (63 < num rq 0x0100 0 1) || decide (3 < num rq 0x0100 1 1), badValue rq 0x0100),
         (decide ((s.acq.env[tgt 4 rq]).points.length < k) || decide (1024 < k + (pointsOf rq).length), badValue rq 0x0102),
         (!risingPoints (newPoints rq s) || (pointsOf rq).any fun p => decide (p.2.2 < p.2.1), badValue rq 0x0101)]
    effect := fun rq s =>
      if !acqIdle s then .deny conflict
      else .done (s.onAcq fun b => { b with env := upd b.env (tgt 4 rq) fun _ =>
        { chan := num rq 0x0100 0 1, enabled := hasBit (num rq 0x0100 1 1) 0, stop := hasBit (num rq 0x0100 1 1) 1
          points := newPoints rq s } }) [] }

/-- Executes ACQ_ENVELOPE_SET. -/
def execAcqEnvelopeSet (rq : Request) (s : State) : Host.Outcome State Fault Refusal := runCommand opAcqEnvelopeSet rq s

/-- CAPTURE lies inside R422, R427 and R431. -/
def captureOk (rq : Request) : Bool :=
  let n := fun off len => num rq 0x0100 off len
  let hold := n 5 1
  [1, 2, 4, 8, 16, 32, 64].contains (n 0 1) && within 0 1 (n 1 1) && within 0 7 (n 2 1) && within 0 511 (n 3 2) && within 0 2 hold &&
  n 6 2 == 0 && decide (n 8 4 + 1 < 1048576 / max (n 0 1) 1) && within 1 0xFFFFFFFF (n 12 4) &&
  (hold != 0 || n 1 1 == 0) && (hold != 1 || within 1000 10000000000 (n 16 8)) && (hold != 2 || within 1 65535 (n 16 8))

/-- ACQ_CAPTURE_CONFIG; a new division of the store frees every segment, and the records kept there are overwritten (log entry 23). -/
def opAcqCaptureConfig : Op :=
  { opcode := 0x0D04, target := device, toe := false, states := afterStart, schema := [fixed 0x0100 24]
    values := fun rq _ => firstDeny [(!captureOk rq, badValue rq 0x0100)]
    effect := fun rq s =>
      let n := fun off len => num rq 0x0100 off len
      if !acqIdle s then .deny conflict
      else
        let clear := fun (b : AcqBlk) =>
          if n 0 1 = b.segments then b
          else { b with seg := updAll b.seg fun _ _ => {}, overwritten := bump b.overwritten (b.seg.toList.map (·.kept)).sum }
        .done (s.onAcq fun b => { clear b with
          segments := n 0 1, repeatMode := n 1 1 == 1, overwrite := hasBit (n 2 1) 0, prefill := hasBit (n 2 1) 1
          armAtStart := hasBit (n 2 1) 2, mask := BitVec.ofNat 16 (n 3 2), holdKind := n 5 1, pre := n 8 4, post32 := n 12 4
          holdoff := n 16 8 }) [] }

/-- Executes ACQ_CAPTURE_CONFIG. -/
def execAcqCaptureConfig (rq : Request) (s : State) : Host.Outcome State Fault Refusal := runCommand opAcqCaptureConfig rq s

/-! Arming, stopping, forcing. -/

/-- A channel is on: internal, or a pin's. -/
def channelOn (k : Nat) (s : State) : Bool :=
  (s.acq.chan[(Fin.ofNat 64 k : Fin 64)]).code != 0 || (decide (56 ≤ k) && s.acq.pinEn.getLsbD (k - 56))

/-- A level, edge or mask trigger of the capture, or an enabled envelope, names a channel that is off (R434). -/
def namesOff (s : State) : Bool :=
  ((List.finRange 8).any fun (u : Fin 8) =>
    let t := s.acq.trig[u]
    s.acq.mask.getLsbD u.val && decide (t.kind ≤ 2) &&
    (let c := Config.triggerCond (t.cond.map (·.toNat))
     if c.onPin then decide (t.kind ≠ 2) && !channelOn (56 + c.source) s else !channelOn c.source s)) ||
  ((List.finRange 4).any fun (e : Fin 4) => s.acq.env[e].enabled && !channelOn s.acq.env[e].chan s)

/-- BAD_PARAM, reason 3, of a value no TLV of the request carries. -/
def badStored : Deny := denyAt .badParam (Config.openDetail 0x0102 0) (Config.openDetail 0x0102 1) 3

/-- STATE_CONFLICT, the DETAIL naming a channel in its type field (log entry 23). -/
def conflictChannel (c : Nat) : Deny := denyAt .stateConflict (Config.openDetail 0x0200 0) c (Config.openDetail 0x0200 2)

/-- Why the engine cannot be armed (R415, R434). -/
def armDeny (s : State) : Option Deny :=
  let on := fun (c : Fin 64) => s.acq.chan[c].code != 0
  if namesOff s then some badStored
  else if !acqIdle s then some (deny .busy)
  else if (List.finRange 64).any fun (c : Fin 64) => s.acq.chan[c].code == 15 && !hostMay false s.acq.chan[c].addr s then
    some (deny .denied)
  else
    match (List.finRange 64).find? fun (c : Fin 64) => on c && !chanExists s.acq.chan[c] s with
    | some c => some (conflictChannel c.val)
    | none => if (freeSegment 0 s.acq).isNone then some (deny .resource) else none

/-- Arm on the first free segment. -/
def armNow (s : State) : State :=
  match freeSegment 0 s.acq with
  | some g => reselect (arm g s)
  | none => s

/-- ACQ_ARM (R434). -/
def opAcqArm : Op :=
  { opcode := 0x0D05, target := device, toe := true, states := afterStart, schema := []
    effect := fun _ s =>
      match armDeny s with
      | some d => .deny d
      | none => let t := armNow s; .done t [(0x0100, be 1 t.acq.segment)] }

/-- Executes ACQ_ARM. -/
def execAcqArm (rq : Request) (s : State) : Host.Outcome State Fault Refusal := runCommand opAcqArm rq s

/-- ACQ_STOP: the capture ends with STOPPED; an engine that re-arms or holds off is Done; an idle one stays as it is (R434). -/
def opAcqStop : Op :=
  { opcode := 0x0D06, target := device, toe := true, states := afterStart, schema := []
    effect := fun _ s =>
      .done (if s.acq.active then endCapture 2 s else if acqIdle s then s else s.onAcq fun b => { b with st := 6, rearmAt := none }) [] }

/-- Executes ACQ_STOP. -/
def execAcqStop (rq : Request) (s : State) : Host.Outcome State Fault Refusal := runCommand opAcqStop rq s

/-- ACQ_FORCE: occurrence bit 8 (R426). -/
def opAcqForce : Op :=
  { opcode := 0x0D07, target := device, toe := true, states := afterStart, schema := []
    effect := fun _ s => .done (occurNow 0x100 0 s) [] }

/-- Executes ACQ_FORCE. -/
def execAcqForce (rq : Request) (s : State) : Host.Outcome State Fault Refusal := runCommand opAcqForce rq s

/-- A record of a segment as it is read: 0 where its block of the store is poisoned (Table 21.3). -/
def recordAt (g : Fin 64) (k : Nat) (s : State) : Option (BitVec 64) :=
  (s.acq.seg[g].records[k]?).map fun v => if poisonedAt (0x1000000 + 8 * (g.val * s.acq.size + k)) s then 0 else v

/-- ACQ_READ (R434). -/
def opAcqRead : Op :=
  { opcode := 0x0D08, target := below 64, toe := false, states := afterStart
    schema := [fixed 0x0100 4, fixed 0x0101 2, optional 0x0102 1]
    values := fun rq _ => firstDeny
      [(!within 1 169 (num rq 0x0101 0 2), badValue rq 0x0101), (decide (1 < num rq 0x0102 0 1), badValue rq 0x0102)]
    effect := fun rq s =>
      let g := tgt 64 rq
      let x := s.acq.seg[g]
      if x.use ≠ 2 then .deny conflict
      else
        let recs := (List.range (num rq 0x0101 0 2)).filterMap fun k => recordAt g (num rq 0x0100 0 4 + k) s
        let t := if num rq 0x0102 0 1 = 1 then s.onAcq fun b => { b with
            released := bump b.released x.kept, seg := upd b.seg g fun y => { seq := y.seq } } else s
        let t := awaitSegment t
        .done t [(0x0100, x.header), (0x0101, recs.flatMap fun v => be 8 v.toNat)] }

/-- Executes ACQ_READ. -/
def execAcqRead (rq : Request) (s : State) : Host.Outcome State Fault Refusal := runCommand opAcqRead rq s

/-- ACQ_STATUS_READ: the registers, with the effect of their reads (R430). -/
def opAcqStatusRead : Op :=
  { opcode := 0x0D09, target := device, toe := false, states := afterStart, schema := []
    effect := fun _ s =>
      .done (s.onAcq fun b => { b with deadMin := 0xFFFFFFFF, deadMax := 0 }) [(0x0100, (acqWords s.acq).flatMap fun w => be 4 w.toNat)] }

/-- Executes ACQ_STATUS_READ. -/
def execAcqStatusRead (rq : Request) (s : State) : Host.Outcome State Fault Refusal := runCommand opAcqStatusRead rq s

/-- ACQ_CALIBRATE (R417). -/
def opAcqCalibrate : Op :=
  { opcode := 0x0D0A, target := device, toe := false, states := afterStart, schema := []
    effect := fun _ s =>
      if !acqIdle s ∧ s.acq.pinEn ≠ 0 then .deny (deny .busy)
      else let r := calibrate s; .done r.2 [(0x0100, be 2 r.1)] }

/-- Executes ACQ_CALIBRATE. -/
def execAcqCalibrate (rq : Request) (s : State) : Host.Outcome State Fault Refusal := runCommand opAcqCalibrate rq s

/-! Samples of internal channels (R415, R416, R420, R428). -/

/-- A code 15 channel reads its address as Keeper, without the side effect of an rc field (R415). -/
def peek (a : Nat) (s : State) : Int :=
  if sramAddr a then ((readSram a s).1).toInt
  else
    match regAt 0 (registerOf a) s with
    | some (.word w) => w.toInt
    | some (.low v) => (v.setWidth 32 : Word).toInt
    | some (.high v) => ((v >>> 32).setWidth 32 : Word).toInt
    | some (.buffered b) => (if isAlias a then b.shadow else b.active).toInt
    | none =>
      match windowAt a s with
      | some (p, x) => ((lineWord p x s).1).toInt
      | none => 0

/-- A channel's value, and whether it saturated (R415). -/
def channelValue (c : AcqChan) (s : State) : Int × Bool :=
  if c.code = 15 then (peek c.addr s, false)
  else
    let v := variableOf c.code c.index s
    if wideVariable c.code then
      let x := v.fdiv (2 ^ c.shift)
      let y := clampInt (-2147483648) 2147483647 x
      (y, x != y)
    else (v, false)

/-- The point of an envelope that governs a time after the trigger. -/
def governs (t : Nat) (points : List (Nat × Int × Int)) : Option (Nat × Int × Int) :=
  match points.getLast? with
  | some l => if l.1 < t then none
    else ((List.range points.length).zip points).reverse.findSome? fun e => if e.2.1 ≤ t then some (e.1, e.2.2.1, e.2.2.2) else none
  | none => none

/-- The envelopes a value of a channel violates: envelope and point (R428). -/
def violations (c : Fin 64) (v : Int) (t : Nat) (s : State) : List (Fin 4 × Nat) :=
  if s.acq.st ≠ 2 ∧ s.acq.st ≠ 3 then []
  else
    (List.finRange 4).filterMap fun (e : Fin 4) =>
      let x := s.acq.env[e]
      if !x.enabled || x.chan != c.val || decide (t < s.acq.trigTag) then none
      else
        match governs (t - s.acq.trigTag) x.points with
        | some (j, lo, hi) => if v < lo ∨ hi < v then some (e, j) else none
        | none => none

/-- A violation's mark, event and count. -/
def markViolation (e : Fin 4) (j tag : Nat) (s : State) : State :=
  event 0x0D02 e.val (be 1 e.val ++ be 2 j) (s.onAcq fun b =>
    let w := (b.write 3 3 (e.val + 65536 * j) tag false).2
    { w with fMaskFail := true, maskCap := true, maskFails := (w.maskFails + 1) % 2 ^ 32 })

/-- How many ticks ago a channel's sample instant was: 0 but on the loops of a remote slot, which sample at t_s (R296, R416). -/
def sampleAgo (c : AcqChan) (s : State) : Nat := if c.clkPeriod then 0 else s.now - sampleTick (Fin.ofNat 64 c.slot) s

/-- The conditions a sample of a channel meets. -/
def channelHits (c : Fin 64) (v : Int) (s : State) : BitVec 9 :=
  unitsHit (fun _ k => if k.onPin || k.source != c.val then none else s.acq.chan[c].prev.map fun p => (p, v)) s

/-- A sample of a channel: first the triggers it meets, then its envelopes and its record. -/
def channelSample (c : Fin 64) (s00 : State) : State :=
  let ago := sampleAgo s00.acq.chan[c] s00
  let v := channelValue s00.acq.chan[c] s00
  let s := occurNow (channelHits c v.1 s00) ago s00
  let x := s.acq.chan[c]
  let tag := acqTag s - 2 * ago
  let bad := violations c v.1 tag s
  let far := match x.last with
    | some l => decide (x.deadband < (v.1 - l).natAbs)
    | none => true
  let keep := x.firstDue || !x.change || far || bad != []
  let s1 := s.onAcq fun b =>
    let b1 := { b with
      samples := bump b.samples 1, satCap := b.satCap || v.2
      chan := upd b.chan c fun y => { y with prev := some v.1, firstDue := false, sampledAt := some (s.now - ago), last := if keep then some v.1 else y.last } }
    if keep then b1.writeSample 2 c.val (unsigned 32 v.1) tag else { b1 with suppressed := bump b1.suppressed 1 }
  let s2 := bad.foldl (fun s e => markViolation e.1 e.2 tag s) s1
  if bad.any fun e => s.acq.env[e.1].stop then endCapture 1 s2 else endIfMet s2

/-- A channel's clock samples now, and the channel has not sampled at that instant yet: a multiple of the period from the arming instant,
or the sample instant of its loop, once that loop has taken it (R416). -/
def clockDue (c : AcqChan) (s : State) : Bool :=
  if c.clkPeriod then (s.sysTick - s.acq.armTick) % max c.period 1 == 0 && c.sampledAt != some s.now
  else
    let i : Fin 64 := Fin.ofNat 64 c.slot
    s.loop.slot[i].lp[(Fin.ofNat 3 c.loop : Fin 3)].sampledAt == some (sampleTick i s) && c.sampledAt != some (sampleTick i s)

/-- ACQ_CHANNEL_SAMPLE: a channel's clock samples (R416); a variable that has vanished is lost (R421). -/
def execAcqChannelSample (chan : Fin 64) (s : State) : Host.Outcome State Fault Refusal :=
  let x := s.acq.chan[chan]
  .next (if !acqRuns s ∨ !s.acq.active ∨ !x.sampling ∨ !clockDue x s then s
    else if !chanExists x s then acqPrune s
    else channelSample chan s)

/-- ACQ_PIN_CHANGE: pin levels change; at a sample instant of the pin group the sample is taken at once (R420). -/
def execAcqPinChange (levels : BitVec 8) (s : State) : Host.Outcome State Fault Refusal :=
  let s1 := s.onAcq fun b => { b with pins := levels }
  .next (if pinsSampled s1 && levels != s.acq.pinSeen then pinSample s1 else s1)

/-- ACQ_TRIGGER_OCCURRENCE: the CAN, Drayman, backbone and Host Port units whose conditions become true in this ACQ period; level, edge and
mask conditions are judged at the samples themselves (R426, R427). -/
def execAcqTriggerOccurrence (units : BitVec 8) (s : State) : Host.Outcome State Fault Refusal :=
  let on : Nat := ((List.finRange 8).map fun (u : Fin 8) => bit (units.getLsbD u.val && within 3 6 s.acq.trig[u].kind) * 2 ^ u.val).sum
  .next (if acqRuns s then occurNow (BitVec.ofNat 9 on) 0 s else s)

/-- ACQ_REARM: 2 µs after a segment is available (R429). -/
def execAcqRearm (s : State) : Host.Outcome State Fault Refusal :=
  .next (if !acqRuns s ∨ s.acq.st ≠ 4 ∨ !(s.acq.rearmAt.any fun t => decide (t ≤ s.sysTick)) then s
    else
      match freeSegment (s.acq.segment + 1) s.acq with
      | some g => reselect (arm g s)
      | none => s)

/-- ACQ_HOLDOFF_END: a time hold-off has passed (R431); one of events ends at its last occurrence. -/
def execAcqHoldoffEnd (s : State) : Host.Outcome State Fault Refusal :=
  .next (if s.acq.st ≠ 5 ∨ s.acq.holdKind = 2 ∨ 2 * (s.sysTick - s.acq.endTick.getD 0) < s.acq.holdoff then s
    else awaitSegment (s.onAcq fun b => { b with st := 4 }))

end Sys2Proof.Machine
end

