-- ==== Sys2Proof/Machine/Stepper.lean ====
section
/-! DEFINITION.
The stepper class and the stepper's own events (R280 to R292, Table 12.6, 12). -/

namespace Sys2Proof.Machine

/-- A bound two-phase stepper (R291). -/
def stepperTarget (rq : Request) (s : State) : Bool := boundSlot rq s && driveOf (tgt 64 rq) s == 2

/-- Values of STEPPER_CONFIG (R292). -/
def stepperValues (rq : Request) (s : State) : Option Deny :=
  let i := tgt 64 rq
  let y := s.stepper.slot[i]
  let mode := numD rq 0x0100 0 1 y.opMode
  let v := intD rq 0x0101 0 8 y.vSw
  let h := intD rq 0x0101 8 8 y.hyst
  let run := intD rq 0x0102 0 4 y.iRun
  let hold := intD rq 0x0102 4 4 y.iHold
  firstDeny
    [(decide (2 < mode), badValue rq 0x0100),
     (decide (1 ≤ mode) && !hasCurrents s.axis[i].bind s, lacks rq 0x0100 0x000A),
     (bad63At rq 0x0101 0 || bad63At rq 0x0101 8 || decide (h < 0), badValue rq 0x0101),
     (mode == 2 && (v == 0 || decide (v ≤ h)), badValue rq (if has rq 0x0101 then 0x0101 else 0x0100)),
     (decide (run ≤ 0) || decide (run < hold), badValue rq 0x0102),
     (num rq 0x0103 5 1 != 0, badValue rq 0x0103),
     (decide (1 < num rq 0x0104 0 1), badValue rq 0x0104)]

/-- STEPPER_CONFIG: on an Enabled slot CURRENTS and SWITCH only. -/
def opStepperConfig : Op :=
  { opcode := 0x0600, target := below 64, toe := false, states := [.commissioning, .operational], targetState := stepperTarget
    schema := [optional 0x0100 1, optional 0x0101 16, optional 0x0102 8, optional 0x0103 8, optional 0x0104 1]
    values := stepperValues
    effect := fun rq s =>
      let i := tgt 64 rq
      let a := s.axis[i]
      let plain := !has rq 0x0100 && !has rq 0x0103 && !has rq 0x0104
      if !(s.sys.dev == .commissioning || a.st == .disabled || (a.st == .enabled && plain)) then .deny conflict
      else
        .done (onStep i (fun y => { y with
          opMode := numD rq 0x0100 0 1 y.opMode, vSw := intD rq 0x0101 0 8 y.vSw, hyst := intD rq 0x0101 8 8 y.hyst,
          iRun := intD rq 0x0102 0 4 y.iRun, iHold := intD rq 0x0102 4 4 y.iHold, holdRamp := numD rq 0x0103 0 2 y.holdRamp,
          freewheelDelay := numD rq 0x0103 2 2 y.freewheelDelay, wakeRamp := numD rq 0x0103 4 1 y.wakeRamp,
          freewheelLimit := numD rq 0x0103 6 2 y.freewheelLimit,
          holdMemory := if has rq 0x0104 then num rq 0x0104 0 1 == 1 else y.holdMemory,
          holdValid := y.holdValid && numD rq 0x0104 0 1 1 == 1 }) s) [] }

/-- Executes STEPPER_CONFIG. -/
def execStepperConfig (rq : Request) (s : State) : Host.Outcome State Fault Refusal := runCommand opStepperConfig rq s

/-- STEPPER_STATUS_READ. -/
def opStepperStatusRead : Op :=
  { opcode := 0x0601, target := below 64, toe := false, states := afterStart, targetState := stepperTarget, schema := []
    effect := fun rq s =>
      let i := tgt 64 rq
      .done s [(0x0100, be 4 (stepStatus i s).toNat), (0x0102, beI 8 s.stepper.slot[i].m)] }

/-- Executes STEPPER_STATUS_READ. -/
def execStepperStatusRead (rq : Request) (s : State) : Host.Outcome State Fault Refusal := runCommand opStepperStatusRead rq s

/-- STEPPER_SET_POSITION: m and m_off by the same amount; the set-point follows (R290). -/
def opStepperSetPosition : Op :=
  { opcode := 0x0602, target := below 64, toe := false, states := afterStart, targetState := stepperTarget, schema := [fixed 0x0100 8]
    effect := fun rq s =>
      let i := tgt 64 rq
      let a := s.axis[i]
      let d := int rq 0x0100 0 8 - s.stepper.slot[i].m
      if !(a.st == .disabled || (a.st == .enabled && a.standstill && s.plan.ax[i].activity == 0)) then .deny conflict
      else
        let s1 := onStep i (fun y => { y with
          m := y.m + d, mOff := y.mOff + d, mPrev := y.mPrev + d, spPrev := y.spPrev + 65536 * d, presetPos := bumpFwd y.presetPos d, presetNeg := bumpRev y.presetNeg d }) s
        let p := int rq 0x0100 0 8 * 65536
        .done (onPax i (fun x => { x with pos := p }) (onAx i (fun a => { a with posSp := p }) s1)) [] }

/-- Executes STEPPER_SET_POSITION. -/
def execStepperSetPosition (rq : Request) (s : State) : Host.Outcome State Fault Refusal := runCommand opStepperSetPosition rq s

/-! Events. -/

/-- HOLD_RAMP_END: the reduction to I_HOLD ends (R284). -/
def execHoldRampEnd (slot : Fin 64) (s : State) : Host.Outcome State Fault Refusal :=
  let y := s.stepper.slot[slot]
  .next (if y.phase = 1 ∧ y.phaseStart + 500000 * y.holdRamp ≤ s.now then onStep slot (fun y => { y with phase := 2 }) s else s)

/-- FREEWHEEL_START: policies 4 and 5 after HOLD_RAMP and FREEWHEEL_DELAY (Table 12.1). -/
def execFreewheelStart (slot : Fin 64) (s : State) : Host.Outcome State Fault Refusal :=
  let y := s.stepper.slot[slot]
  let policy : Nat := (s.axis[slot].mode.map (·.standstill)).getD 0
  let off : Bool := policy == 4
  .next (
    if s.axis[slot].st = .enabled ∧ s.axis[slot].standstill ∧ (y.phase = 1 ∨ y.phase = 2) ∧ (policy = 4 ∨ policy = 5) ∧
        y.phaseStart + 500000 * (y.holdRamp + y.freewheelDelay) ≤ s.now then
      let s1 := onAx slot (fun a => { a with legsOff := off, legsShort := !off }) s
      let s2 := loopsStop slot (outputFor slot (if off then 0 else 1) s1)
      onStep slot (fun y => { y with phase := if off then 3 else 4 }) s2
    else s)

/-- FREEWHEEL_LIMIT_EXCEEDED: the loss shows at once (R286). -/
def execFreewheelLimitExceeded (slot : Fin 64) (s : State) : Host.Outcome State Fault Refusal :=
  .next (if s.stepper.slot[slot].downSince.isSome && stepAngle slot s && stepperSpent slot s then
      onStep slot (fun y => { y with holdValid := false }) s else s)

/-- WAKE_RAMP_END: a waiting change is applied at the next inner sample; otherwise the slot stands at its standstill level
(R288). -/
def execWakeRampEnd (slot : Fin 64) (s : State) : Host.Outcome State Fault Refusal :=
  let y := s.stepper.slot[slot]
  .next (
    if y.phase = 5 ∧ y.phaseStart + wakeTicks slot s ≤ s.now then
      if wakeWaits slot s || !reduces s.axis[slot] then
        onStep slot (fun y => { y with phase := 0 }) (onAx slot (fun a => { a with waitN := 0, spChange := s.now }) s)
      else
        onStep slot (fun y => { y with phase := 2, phaseStart := s.now - 500000 * y.holdRamp }) (onAx slot (fun a => { a with standstill := true }) s)
    else s)

end Sys2Proof.Machine
end

