-- ==== Sys2Proof/Machine/Bricks.lean ====
section
/-! DEFINITION.
Remote bricks: Drayman frames, losses, STO frames, and the remote-brick class (R293 to R306, 13). -/

namespace Sys2Proof.Machine

/-- Change a brick. -/
def onBrick (b : Fin 64) (f : Brick → Brick) (s : State) : State := s.onBricks fun k => { k with brick := upd k.brick b f }

/-- The slots bound to a brick. -/
def brickSlots (b : Fin 64) (s : State) : List (Fin 64) :=
  (List.finRange 64).filter fun (i : Fin 64) => s.axis[i].bind.location == 2 && s.axis[i].bind.brick == b.val

/-! Losses (R301). -/

/-- BRICK_LOSS: the event, the live slots' fault, and their enable bits cleared. -/
def brickLoss (b : Fin 64) (reason : Nat) (s : State) : State :=
  let l := (brickSlots b s).filter fun i => live s.axis[i]
  let s1 := axisFaults l 10 reason (event 0x0701 b.val (be 1 reason) s)
  l.foldl (fun s i => onChannel i (fun c => { c with enable := false }) s) s1

/-- The reason for which a brick is lost by what it reports: outbound misses, fault flag, STO flag, unsynchronised. -/
def reportedLoss (x : Brick) : Option Nat :=
  let flags := (x.header.getD 2 0).toNat
  if 4 ≤ (x.header.getD 5 0).toNat then some 2
  else if hasBit flags 1 then some 3
  else if hasBit flags 0 then some 4
  else if 4 ≤ x.unsyncRun then some 5
  else none

/-- Keep 1 ms of reported positions. -/
def keepPosition (ns : Nat) (p : Int) (l : List (Nat × Int)) : List (Nat × Int) :=
  let fresh0 := fun (e : Nat × Int) => decide (ns < e.1 + 1000000)
  (ns, p) :: (l.takeWhile fresh0 ++ (l.dropWhile fresh0).take 1)

/-- A channel record of 24 bytes (Table 13.5). A position whose bits 63 and 62 differ is taken as it stands, no rule giving
it another meaning (DESIGN CHOICE, log 49); one that is not valid leaves the last one (DEDUCED, log 49). -/
def Channel.report (ns : Nat) (enabled : Bool) (r : List Byte) (c : Channel) : Channel :=
  let p := beInt (slice 12 8 r)
  let ok := (r.getD 20 0).getLsbD 0
  { c with
    inCur := [beInt (slice 0 4 r), beInt (slice 4 4 r), beInt (slice 8 4 r)], inPos := if ok then p else c.inPos, inPosOk := ok,
    posHist := if ok then keepPosition ns p c.posHist else c.posHist, enabledSeen := enabled }

/-- Outbound misses a brick newly reports: its count of consecutive ones has grown, or begun anew. -/
def newMisses (old new : Nat) : Nat := if old ≤ new then new - old else new

/-- A used record: header, DC link, channels, runs. -/
def Brick.take (ts ns : Nat) (p : List Byte) (x : Brick) : Brick :=
  let flags := (p.getD 2 0).toNat
  let en := (p.getD 20 0).toNat
  let read := fun (k : Fin 4) (c : Channel) =>
    if k.val < (p.getD 3 0).toNat then c.report ns (hasBit en k.val) (slice (24 + 24 * k.val) 24 p) else c
  { x with
    usedTs := some ts, header := p.take 24, dcVolt := beInt (slice 16 4 p), missRun := 0,
    unsyncRun := if hasBit flags 2 then 0 else x.unsyncRun + 1, chan := updAll x.chan read, used := bump x.used 1,
    reported := x.reported + newMisses (x.header.getD 5 0).toNat (p.getD 5 0).toNat }

/-- A used record's effect on the slots: the miss ends, and an enabling slot learns that its channel is enabled. -/
def recordSlots (b : Fin 64) (s : State) : State :=
  (brickSlots b s).foldl (fun s i =>
    let c := brickChannel s.axis[i].bind s
    onAx i (fun a => { a with brickMiss := false, brickEnabled := a.brickEnabled || (a.st == .enabling && c.enabledSeen) }) s) s

/-- A frame is one of Table 13.4: type, version, channel count and length. -/
def inboundOk (p : List Byte) : Bool :=
  let n := (p.getD 3 0).toNat
  p.getD 0 0 == 0xD2 && p.getD 1 0 == 1 && decide (1 ≤ n) && decide (n ≤ 4) && p.length == 24 + 24 * n

/-- An inbound Drayman frame (R301): used, or discarded and counted on the brick number it names; on a port without a 1000BASE-T link
there is none (R295). -/
def draymanInbound (port : Fin 4) (mac : BitVec 48) (p : List Byte) (s : State) : State :=
  let n := (p.getD 4 0).toNat
  if 64 ≤ n ∨ !gigabit port.val s then s
  else
    let b : Fin 64 := Fin.ofNat 64 n
    let x := s.bricks.brick[b]
    let ts := beNat (slice 8 8 p)
    let s1 := onBrick b (fun x => { x with received := bump x.received 1 }) s
    if !x.registered || x.mac != mac || x.port != port.val || !inboundOk p then
      onBrick b (fun x => { x with unknown := bump x.unknown 1 }) s1
    else if cycleTs (Fin.ofNat 16 x.group) s ≠ some ts then onBrick b (fun x => { x with outOfWindow := bump x.outOfWindow 1 }) s1
    else if x.usedTs = some ts then onBrick b (fun x => { x with duplicate := bump x.duplicate 1 }) s1
    else if ts + arriveIn b s < s.tb0 ∨ x.missTs = some ts then onBrick b (fun x => { x with late := bump x.late 1 }) s1
    else
      let s2 := recordSlots b (onBrick b (fun x => x.take ts (s.ofTb0 ts).toNat p) s1)
      let s3 := (brickSlots b s2).foldl (fun s i => match s.axis[i].bind.portA with
        | some _ => s
        | none => if s.stepper.slot[i].downSince.isSome && stepAngle i s && stepperMoved i s then
            onStep i (fun y => { y with holdValid := false }) s else s) s2
      match reportedLoss s3.bricks.brick[b] with
      | some r =>
        if reportedLoss x = some r ∧ ((brickSlots b s3).all fun i => !live s3.axis[i]) then s3 else brickLoss b r s3
      | none => s3

/-- The cycle of a frame group is complete: each of its records has been used or missed. -/
def groupComplete (f : Fin 16) (s : State) : Bool :=
  match cycleTs f s with
  | some ts =>
    let l := groupBricks f.val s
    !l.isEmpty && l.all fun b => s.bricks.brick[b].usedTs == some ts || s.bricks.brick[b].missTs == some ts
  | none => false

/-- The group's token once a cycle, with its last record or that record's deadline (Table 20.2 code 5, 20). -/
def groupToken (b : Fin 64) (old s : State) : State :=
  let f : Fin 16 := Fin.ofNat 16 s.bricks.brick[b].group
  if !groupComplete f old ∧ groupComplete f s then occurs 5 f.val 0 s else s

/-- DRAYMAN_INBOUND: a frame received on an external port, its source address and payload. -/
def execDraymanInbound (port : Fin 4) (mac : BitVec 48) (payload : List Byte) (s : State) : Host.Outcome State Fault Refusal :=
  if !tbRuns s then .next s else
  .next (groupToken (Fin.ofNat 64 (payload.getD 4 0).toNat) s (draymanInbound port mac payload s))

/-- A cycle without a record; the fourth running is a loss, and so is a later one while a slot on the brick is live (R301). -/
def recordMissed (b : Fin 64) (ts : Nat) (s : State) : State :=
  let s1 := onBrick b (fun x => { x with
    missTs := some ts, missed := bump x.missed 1, missRun := x.missRun + 1,
    chan := updAll x.chan fun _ c => { c with repeated := true } }) s
  let s2 := (brickSlots b s).foldl (fun s i =>
    let s1 := onAx i (fun a => { a with brickMiss := true }) s
    if s.axis[i].st = .enabling ∧ !s.axis[i].brickEnabled then
      if 8 ≤ s.axis[i].enableCycles + 1 then axisFault i 11 0 s1
      else onAx i (fun a => { a with enableCycles := a.enableCycles + 1 }) s1
    else s1) s1
  let run := s2.bricks.brick[b].missRun
  if run = 4 ∨ (4 ≤ run ∧ (brickSlots b s2).any fun i => live s2.axis[i]) then brickLoss b 1 s2 else s2

/-- BRICK_RECORD_DEADLINE: t_s + a_in has passed without a record. -/
def execBrickRecordDeadline (brick : Fin 64) (s : State) : Host.Outcome State Fault Refusal :=
  if !tbRuns s then .next s else
  let x := s.bricks.brick[brick]
  .next (match cycleTs (Fin.ofNat 16 x.group) s with
    | some ts =>
      if x.registered ∧ x.usedTs ≠ some ts ∧ x.missTs ≠ some ts ∧ ts + arriveIn brick s ≤ s.tb0 then groupToken brick s (recordMissed brick ts s) else s
    | none => s)

/-! Outbound frames (R297, R299, R303). -/

/-- Four channel bits as a nibble. -/
def channelBits (x : Brick) (f : Channel → Bool) : Nat := ((List.finRange 4).map fun (c : Fin 4) => bit (f x.chan[c]) * 2 ^ c.val).sum

/-- A brick's outbound record (Table 13.3). -/
def outboundRecord (b : Fin 64) (s : State) : List Byte :=
  let x := s.bricks.brick[b]
  let offs := ((List.finRange 4).map fun (c : Fin 4) => (x.chan[c]).legOff.toNat * 16 ^ c.val).sum
  be 1 b.val ++ be 1 (channelBits x (·.enable) + 16 * channelBits x (·.repeated)) ++ be 1 (channelBits x (·.short)) ++ be 1 0 ++
    be 2 offs ++ be 2 0 ++ (List.finRange 4).flatMap fun (c : Fin 4) => (((x.chan[c]).codes ++ [0, 0, 0, 0]).take 4).flatMap (be 2)

/-- The bricks of a group in ascending hop order. -/
def hopOrder (f : Fin 16) (s : State) : List (Fin 64) :=
  (List.range 9).flatMap fun h => (groupBricks f.val s).filter fun b => s.bricks.brick[b].hop == h

/-- L of the current loops of a group, ticks (R294). -/
def groupL (f : Fin 16) (s : State) : Nat :=
  ((List.finRange 64).findSome? fun (i : Fin 64) =>
    if s.axis[i].bind.location = 2 ∧ slotFrameGroup s.axis[i].bind s = f then s.axis[i].mode.map (·.lCur) else none).getD 0

/-- Hand a group's frame to a port with a 1000BASE-T link, tagged with PCP 7 and the group's VLAN (R295, R299). -/
def sendDrayman (f : Fin 16) (port : Nat) (p : List Byte) (s : State) : State :=
  let g := s.bricks.fg[f]
  if !gigabit port s then s else originate [Fin.ofNat 4 port] { dst := g.mac, vlan := some (7, g.vlan), etherType := g.etherType, payload := p, cls := 7 } s

/-- The slots on the bricks of a frame group. -/
def frameSlots (f : Fin 16) (s : State) : List (Fin 64) :=
  (List.finRange 64).filter fun (i : Fin 64) => s.axis[i].bind.location == 2 && slotFrameGroup s.axis[i].bind s == f

/-- The frame of the present cycle is due at t_s + launch and has not been launched (R297). -/
def launchDue (f : Fin 16) (ts : Nat) (s : State) : Bool :=
  decide ((ts : Int) + launchAt f.val (groupL f s) s ≤ s.tb0) && s.bricks.fg[f].launched != some ts

/-- DRAYMAN_LAUNCH: at t_s + launch the results that are ready go into their records, the others take the late path, and the
group's frame goes to its port (R21, R23, R297, Tables 13.2 and 13.3). -/
def execDraymanLaunch (group : Fin 16) (s0 : State) : Host.Outcome State Fault Refusal :=
  if !tbRuns s0 then .next s0 else
  let g := s0.bricks.fg[group]
  match cycleTs group s0, hopOrder group s0 with
  | some ts, b :: l' =>
    if !g.configured ∨ !launchDue group ts s0 then .next s0
    else
      let s := (frameSlots group s0).foldl (fun s i => releaseLoop i 0 s) s0
      let l := b :: l'
      let p := be 1 0xD1 ++ be 1 1 ++ be 1 (bit (stoInForce s) + 2 * bit s.tb0Sync) ++ be 1 l.length ++ be 2 group.val ++
        be 2 g.counter.toNat ++ be 8 ts ++ be 8 (ts + 2 * groupL group s) ++ l.flatMap fun b => outboundRecord b s
      let s1 := sendDrayman group s.bricks.brick[b].port p s
      let sent := fun (b : Fin 64) (x : Brick) => if (hopOrder group s).contains b then { x with chan := updAll x.chan fun _ c => { c with repeated := false } } else x
      .next (s1.onBricks fun k => { k with brick := updAll k.brick sent, fg := upd k.fg group fun g => { g with ts := ts, launched := some ts, counter := g.counter + 1 } })
  | _, _ => .next s0

/-- The next STO frame is due: with STO held, none sent since it was asserted, or 100 µs after the last (R303). -/
def stoFrameDue (s : State) : Bool :=
  stoInForce s && (match s.bricks.stoSent with
    | some t => decide (t + 100000 ≤ s.nowNs)
    | none => true)

/-- STO_FRAME: while STO is held, on its assertion and every 100 µs, a frame with the STO flag and record count 0 on every port
that carries a frame group; what its further header fields hold is free (R303, log entry 6). -/
def execStoFrame (s : State) : Host.Outcome State Fault Refusal :=
  if !tbRuns s then .next s else
  if !stoFrameDue s then .next (if stoInForce s then s else s.onBricks fun k => { k with stoSent := none })
  else
    let body := (List.range 20).map fun k => Config.freeByte s.sys.free k
    let p := be 1 0xD1 ++ be 1 1 ++ be 1 (1 + 2 * bit s.tb0Sync) ++ be 1 0 ++ body
    let ports := (List.range 4).filterMap fun q => ((portFrameGroups q s).head?).map fun f => (f, q)
    .next ((ports.foldl (fun s e => sendDrayman e.1 e.2 p s) (fresh s).2).onBricks fun k => { k with stoSent := some s.nowNs })

/-! Opcodes (Table 13.8, R306). -/

/-- The refusal of a changed proof: wire occupancy, then slack (R297, R298). -/
def brickProof (s : State) : Option Deny :=
  match wireDeny s with
  | some d => some d
  | none => admission s

/-- A CHANNEL record is well formed. -/
def channelOk (n : Nat) (v : List Byte) : Bool :=
  decide ((v.getD 0 0).toNat < n) && decide (1 ≤ (v.getD 1 0).toNat) && decide ((v.getD 1 0).toNat ≤ 3) && decide ((v.getD 3 0).toNat < 4)

/-- Values of BRICK_REGISTER (R306). -/
def brickValues (rq : Request) (s : State) : Option Deny :=
  let b := tgt 64 rq
  let port := num rq 0x0100 0 1
  let hop := num rq 0x0100 1 1
  let grp := num rq 0x0100 2 1
  let n := num rq 0x0100 3 1
  let chans := every rq 0x0102
  let others := (bricksOf s).filter (· != b)
  firstDeny
    [(has rq 0x0100 && (decide (3 < port) || hop == 0 || decide (8 < hop) || decide (15 < grp) || n == 0 || decide (4 < n) ||
        num rq 0x0100 10 2 != 0 ||
        decide (8 ≤ (others.filter fun c => s.bricks.brick[c].group == grp).length) ||
        others.any (fun c => s.bricks.brick[c].group == grp && s.bricks.brick[c].port != port) ||
        others.any (fun c => s.bricks.brick[c].port == port && s.bricks.brick[c].hop == hop)), badValue rq 0x0100),
     (decide (num rq 0x0101 0 4 < 500) || decide (4000 < num rq 0x0101 4 2) || decide (1000 < num rq 0x0101 6 2), badValue rq 0x0101),
     (has rq 0x0100 && (chans.length != n || chans.any (fun t => !channelOk n t.value) ||
        !(List.range n).all (fun k => chans.any fun t => (t.value.getD 0 0).toNat == k)), badValue rq 0x0102)]

/-- Same LINK as registered? -/
def sameLink (rq : Request) (x : Brick) : Bool :=
  has rq 0x0100 && x.registered && x.port == num rq 0x0100 0 1 && x.hop == num rq 0x0100 1 1 && x.group == num rq 0x0100 2 1 &&
  x.channels == num rq 0x0100 3 1 && x.mac.toNat == num rq 0x0100 4 6

/-- A brick's counters outlive a registration (R464). -/
def Brick.tallies (x : Brick) : Brick :=
  { received := x.received, used := x.used, late := x.late, outOfWindow := x.outOfWindow, duplicate := x.duplicate, unknown := x.unknown,
    missed := x.missed, reported := x.reported }

/-- A channel with what its CHANNEL record declares. -/
def channelOf (rq : Request) (k : Fin 4) (c : Channel) : Channel :=
  match (every rq 0x0102).find? fun t => (t.value.getD 0 0).toNat == k.val with
  | some t =>
    let o := (t.value.getD 3 0)
    { c with declared := true, currents := (t.value.getD 1 0).toNat, feedback := t.value.getD 2 0, canShort := o.getLsbD 0, dcLink := o.getLsbD 1 }
  | none => { c with declared := false }

/-- A registered brick. -/
def Brick.register (rq : Request) (x : Brick) : Brick :=
  { x with
    registered := true, port := num rq 0x0100 0 1, hop := num rq 0x0100 1 1, group := num rq 0x0100 2 1, channels := num rq 0x0100 3 1,
    mac := BitVec.ofNat 48 (num rq 0x0100 4 6), txOffset := num rq 0x0101 0 4, setup := num rq 0x0101 4 2, residence := num rq 0x0101 6 2,
    chan := updAll x.chan (channelOf rq) }

/-- BRICK_REGISTER. -/
def opBrickRegister : Op :=
  { opcode := 0x0700, target := below 64, toe := false, states := [.commissioning]
    schema := [optional 0x0100 12, fixed 0x0101 8, { type := 0x0102, lo := 4, hi := 4, req := false, many := 4 }]
    values := brickValues
    effect := fun rq s =>
      let b := tgt 64 rq
      let x := s.bricks.brick[b]
      let same := sameLink rq x
      if !same ∧ x.registered ∧ !(brickSlots b s).isEmpty then .deny conflict
      else if !has rq 0x0100 then .done (reselect (onBrick b Brick.tallies s)) []
      else
        let t := onBrick b (fun x => (if same then x else x.tallies).register rq) s
        match brickProof t with
        | some d => .deny d
        | none => .done (reselect t) [] }

/-- Executes BRICK_REGISTER. -/
def execBrickRegister (rq : Request) (s : State) : Host.Outcome State Fault Refusal := runCommand opBrickRegister rq s

/-- FRAME_GROUP_CONFIG. -/
def opFrameGroupConfig : Op :=
  { opcode := 0x0701, target := below 16, toe := false, states := [.commissioning], schema := [fixed 0x0100 10, fixed 0x0101 4]
    values := fun rq s =>
      let p := groupPeriod (rq.target.toNat % 16) s
      firstDeny
        [(decide (4094 < num rq 0x0100 6 2), badValue rq 0x0100), (p.any fun q => decide (q ≤ num rq 0x0101 0 4), badValue rq 0x0101)]
    effect := fun rq s =>
      let t := s.onBricks fun k => { k with fg := upd k.fg (tgt 16 rq) fun g => { g with
        mac := BitVec.ofNat 48 (num rq 0x0100 0 6), vlan := num rq 0x0100 6 2, etherType := num rq 0x0100 8 2, phase := num rq 0x0101 0 4,
        configured := true } }
      match brickProof t with
      | some d => .deny d
      | none => .done (reselect t) [] }

/-- Executes FRAME_GROUP_CONFIG. -/
def execFrameGroupConfig (rq : Request) (s : State) : Host.Outcome State Fault Refusal := runCommand opFrameGroupConfig rq s

/-- BRICK_STATUS. -/
def opBrickStatus : Op :=
  { opcode := 0x0702, target := below 64, toe := false, states := afterStart, schema := []
    effect := fun rq s =>
      let x := s.bricks.brick[tgt 64 rq]
      .done s
        [(0x0100, (x.header ++ List.replicate 24 0).take 24),
         (0x0101, be 8 x.used.toNat ++ be 8 x.late.toNat ++ be 8 x.outOfWindow.toNat ++ be 8 x.duplicate.toNat ++ be 8 x.missed.toNat ++
            be 8 x.reported)] }

/-- Executes BRICK_STATUS. -/
def execBrickStatus (rq : Request) (s : State) : Host.Outcome State Fault Refusal := runCommand opBrickStatus rq s

end Sys2Proof.Machine
end

