-- ==== Sys2Proof/Machine/Cyclic.lean ====
section
/-! DEFINITION.
Cyclic maps (R89 to R93, 04). -/

namespace Sys2Proof.Machine

/-- Change a map. -/
def onMap (k : Fin 32) (f : CycMap → CycMap) (s : State) : State := s.onNet fun n => { n with map := upd n.map k f }

/-- Width of a quantity in a payload; 0 for a code Table 4.8A does not have. -/
def quantityWidth (q : Nat) : Nat :=
  if [0x01, 0x02, 0x04, 0x81, 0x82, 0x85, 0x86].contains q then 8
  else if [0x03, 0x05, 0x06, 0x83, 0x84, 0x87].contains q then 4
  else 0

/-- A 63-bit format as a payload carries it: bit 63 is taken to equal bit 62 (R7, 00; log entry 28). -/
def int63 (bs : List Byte) : Int := signed 63 (beNat bs)

/-! Inbound. -/

/-- Write a value into a slot: the set-point its depth uses takes effect where the cyclic stream feeds the slot; one of another
depth is stored (Table 6.7, 06). -/
def writeSlot (i : Fin 64) (q : Nat) (bs : List Byte) (s : State) : State :=
  let a := s.axis[i]
  let uses := q == depthQuantity (depthOf i s) && (a.mode.any fun m => m.source == 5) && a.st == .enabled
  let held := planBusy i s || s.loop.slot[i].obsStart || a.st == .reacting
  if q = 0x04 then onAx i (fun a => { a with cycVel := some (int63 bs) }) s
  else if q = 0x05 then onAx i (fun a => { a with curFf := beInt bs }) s
  else if uses then
    if held then s
    else if q = 0x01 then setPoint i (int63 bs) a.velSp a.velFf s
    else if q = 0x02 then setPoint i a.posSp (int63 bs) a.velFf s
    else setPoints i a.posSp a.velSp a.velFf (beInt bs) s
  else if held || a.st == .enabled && q == depthQuantity (depthOf i s) then s
  else
    onAx i (fun a =>
      if q = 0x01 then { a with stoPos := int63 bs } else if q = 0x02 then { a with stoVel := int63 bs } else { a with stoCur := beInt bs }) s

/-- Write one entry of an applied frame (R91). -/
def writeEntry (p : List Byte) (e : CycEntry) (s : State) : State :=
  let bs := slice e.off (quantityWidth e.qty) p
  if e.qty = 0x06 then onFioGroup (Fin.ofNat 4 e.tgt) (FioGroup.command 15 (beNat bs)) s
  else writeSlot (Fin.ofNat 64 e.tgt) e.qty bs s

/-- The payload bytes a map's entries reach. -/
def CycMap.size (m : CycMap) : Nat := (m.entries.map fun e => e.off + quantityWidth e.qty).foldl max 12

/-- A frame of a map's stream, on a port of its mask (R317, 14). -/
def CycMap.matches (port : Fin 4) (f : NetFrame) (m : CycMap) : Bool :=
  m.defined && m.enabled && m.ports.getLsbD port.val && f.dst == m.mac && f.etherType == m.etherType &&
  (f.vlan.map (·.2)).getD 0 == m.vlan

/-- CYCLIC_FRAME_RX: a frame of an enabled inbound map. One whose valid flag is clear, or that ends before its entries, counts as
missing (R91; log entry 28). -/
def execCyclicFrameRx (port : Fin 4) (frame : NetFrame) (s : State) : Host.Outcome State Fault Refusal :=
  if !tbRuns s then .next s else
  let p := frame.payload
  let n := (p.getD 0 0xFF).toNat
  let k : Fin 32 := Fin.ofNat 32 n
  let m := s.net.map[k].prune s.tb0
  if 16 ≤ n ∨ !m.matches port frame ∨ (p.getD 1 0).toNat % 2 = 0 ∨ p.length < m.size ∨ s.power.power = .rest then .next s
  else
    let ts := beNat (slice 4 8 p)
    let c := m.start s.tb0
    let r := { m with received := bump m.received 1 }
    let u :=
      if ts = c ∧ (c + m.off < s.tb0 ∨ (m.lastApplied.any fun a => decide (c ≤ a))) then { r with late := bump r.late 1 }
      else if ts ≠ c ∧ ts ≠ c + m.period then { r with outOfWindow := bump r.outOfWindow 1 }
      else if m.held.any fun e => e.1 == ts then { r with duplicate := bump r.duplicate 1 }
      else { r with held := r.held ++ [(ts, p)] }
    .next (onMap k (fun _ => u) s)

/-- CYCLIC_APPLY: at the apply instant of the current cycle the held frame's values are written, or the cycle is a miss (R91). -/
def execCyclicApply (map : Fin 16) (s : State) : Host.Outcome State Fault Refusal :=
  if !tbRuns s then .next s else
  let k : Fin 32 := ⟨map.val, by omega⟩
  let m := s.net.map[k].prune s.tb0
  let c := m.start s.tb0
  if !m.enabled ∨ s.tb0 < c + m.off ∨ (m.lastApplied.any fun a => decide (c ≤ a)) ∨ s.power.power = .rest then .next s
  else
    match m.held.find? (·.1 == c) with
    | some f =>
      let s1 := onMap k (fun _ => { m with
        held := m.held.filter (·.1 != c), applied := bump m.applied 1, missRun := 0, lastApplied := some c }) s
      let s2 := m.axes.foldl (fun s i => onAx i (fun a => { a with cyclicMiss := false }) s) s1
      .next (occurs 4 map.val 0 (m.entries.foldl (fun s e => writeEntry f.2 e s) s2))
    | none => .next (occurs 4 map.val 0 (missCycles k 1 (onMap k (fun _ => { m with lastApplied := some c }) s)))

/-! Outbound. -/

/-- The latest valid capture of any latch unit whose port is a slot's primary port (R247); 0 before any. -/
def latestCapture (a : Axis) (s : State) : Int :=
  let l := (List.finRange 16).filterMap fun (u : Fin 16) =>
    if a.bind.portA = some (s.ports.latch[u]).port then (s.ports.latch[u]).lastValid else none
  ((l.foldl (fun (b : Option (Int × Int)) c => match b with
    | some d => if d.1 < c.1 then some c else b
    | none => some c) none).map (·.2)).getD 0

/-- The value of an outbound quantity (Table 4.8A). -/
def readQuantity (e : CycEntry) (s : State) : List Byte :=
  let i : Fin 64 := Fin.ofNat 64 e.tgt
  let a := s.axis[i]
  match e.qty with
  | 0x81 => beI 8 a.posAct
  | 0x82 => beI 8 a.velAct
  | 0x83 => beI 4 a.curAct
  | 0x84 => be 4 (axisStatus i s).toNat
  | 0x85 => beI 8 s.loop.slot[i].fe
  | 0x86 => beI 8 (latestCapture a s)
  | _ => be 4 (fioInputs (Fin.ofNat 4 e.tgt) s)

/-- Put bytes into a payload at an offset. -/
def putAt (off : Nat) (bs p : List Byte) : List Byte := p.take off ++ bs ++ p.drop (off + bs.length)

/-- The frame a map assembles for a cycle (Table 4.7). -/
def assemble (k : Fin 32) (m : CycMap) (c : Nat) (s : State) : List Byte :=
  let head := be 1 k.val ++ be 1 1 ++ be 2 m.counter.toNat ++ be 8 c
  m.entries.foldl (fun p e => putAt e.off (readQuantity e s) p) (head ++ List.replicate (m.size - 12) 0)

/-- An outbound map's number. -/
def outMap (map : Fin 16) : Fin 32 := ⟨16 + map.val, by omega⟩

/-- CYCLIC_SAMPLE: at the sample instant the entries are sampled; a frame of an earlier cycle still waiting stays unsent (R92). -/
def execCyclicSample (map : Fin 16) (s : State) : Host.Outcome State Fault Refusal :=
  if !tbRuns s then .next s else
  let k := outMap map
  let m := s.net.map[k]
  let c := m.start s.tb0
  if !m.enabled ∨ s.tb0 < c + m.off ∨ (m.sample.any fun e => e.1 == c) ∨ (m.lastApplied.any fun a => decide (c ≤ a)) ∨
      s.power.power = .rest then .next s
  else .next (onMap k (fun m => { m with
    sample := some (c, assemble k m c s), counter := m.counter + 1, received := bump m.received 1,
    duplicate := bump m.duplicate (bit m.sample.isSome) }) s)

/-- CYCLIC_LAUNCH: at the launch instant the frame of the current cycle goes to its ports; without one, or without a port that has
link, the cycle is unsent (R92). -/
def execCyclicLaunch (map : Fin 16) (s : State) : Host.Outcome State Fault Refusal :=
  if !tbRuns s then .next s else
  let k := outMap map
  let m := s.net.map[k]
  let c := m.start s.tb0
  if !m.enabled ∨ s.tb0 < c + m.launch ∨ (m.lastApplied.any fun a => decide (c ≤ a)) ∨ s.power.power = .rest then .next s
  else
    let ports := (List.finRange 4).filter fun (p : Fin 4) => m.ports.getLsbD p.val && portUp (ext p) s
    match m.sample with
    | some (t, p) =>
      if t = c ∧ ports ≠ [] then
        let f : NetFrame := { dst := m.mac, vlan := some (m.pcp, m.vlan), etherType := m.etherType, payload := p, cls := m.pcp }
        .next (originate ports f (onMap k (fun m => { m with sample := none, lastApplied := some c, applied := bump m.applied 1 }) s))
      else .next (onMap k (fun m => { m with sample := none, lastApplied := some c, duplicate := bump m.duplicate 1 }) s)
    | none => .next (onMap k (fun m => { m with lastApplied := some c, duplicate := bump m.duplicate 1 }) s)

/-! Definition and enabling. -/

/-- CYCLIC_ENABLE_EFFECT: an enable or disable takes effect at its cycle start (R93). Frames still held then are out of window. -/
def execCyclicEnableEffect (map : Fin 32) (s : State) : Host.Outcome State Fault Refusal :=
  if !tbRuns s then .next s else
  match s.net.map[map].enableDue with
  | some (on, t) =>
    if s.tb0 < t then .next s
    else .next (onMap map (fun m => { m with
      enabled := on, enableDue := none, missRun := 0, lastApplied := none, sample := none, held := [],
      outOfWindow := bump m.outOfWindow m.held.length, duplicate := bump m.duplicate (bit m.sample.isSome) }) s)
  | none => .next s

/-- The entries of a CYCLIC_MAP_DEFINE. -/
def entriesOf (rq : Request) : List CycEntry :=
  (every rq 0x0102).map fun t =>
    { off := beNat (slice 0 2 t.value), qty := (t.value.getD 2 0).toNat, tgt := beNat (slice 4 2 t.value), at0 := t.off }

/-- An entry is in range for its direction (R90, Table 4.8A). -/
def entryOk (inbound : Bool) (t : Tlv) : Bool :=
  let off := beNat (slice 0 2 t.value)
  let q := (t.value.getD 2 0).toNat
  let tg := beNat (slice 4 2 t.value)
  quantityWidth q != 0 && (decide (q < 0x80) == inbound) && t.value.getD 3 0 == 0 && beNat (slice 6 2 t.value) == 0 &&
  decide (12 ≤ off) && decide (off + quantityWidth q ≤ 1500) && decide (tg < if q = 0x06 ∨ q = 0x87 then 4 else 64)

/-- Values of CYCLIC_MAP_DEFINE (R89, R92). -/
def mapValues (rq : Request) (_ : State) : Option Deny :=
  let inbound := decide (rq.target < 16)
  let p := num rq 0x0101 0 4
  let off := num rq 0x0101 4 4
  let launch := num rq 0x0101 8 4
  let miss := num rq 0x0101 12 1
  let bad := (every rq 0x0102).find? fun t => !entryOk inbound t
  firstDeny
    [(decide (4094 < num rq 0x0100 6 2) || decide (7 < num rq 0x0100 8 1) || decide (15 < num rq 0x0100 9 1), badValue rq 0x0100),
     (decide (p < 31250) || 1000000000 % max p 1 != 0 || num rq 0x0101 13 3 != 0 ||
        (if inbound then decide (p ≤ off) || launch != 0 || miss == 0 || decide (15 < miss)
         else decide (launch < off + 4000) || decide (p ≤ launch) || miss != 0), badValue rq 0x0101),
     (bad.isSome, denyAt .badParam ((bad.map (·.off)).getD 0) 0x0102 3)]

/-- CYCLIC_MAP_DEFINE. A map's counters outlive a new definition (R464). A map that is enabled, or whose enable or disable is still due, is
refused with STATE_CONFLICT (DESIGN CHOICE, log entry 49: no rule says what a new definition of it does). -/
def opCyclicMapDefine : Op :=
  { opcode := 0x0060, target := below 32, toe := false, states := [.commissioning]
    schema := [fixed 0x0100 12, fixed 0x0101 16, { type := 0x0102, lo := 8, hi := 8, many := 128 }]
    values := mapValues
    effect := fun rq s =>
      let k := tgt 32 rq
      let m := s.net.map[k]
      let es := entriesOf rq
      let others := ((List.finRange 32).filter (· != k)).map fun j => s.net.map[j].entries.length
      if m.enabled ∨ m.enableDue.isSome then .deny conflict
      else if 2048 < es.length + others.sum then .deny (deny .resource)
      else
        let new : CycMap := { m with
          defined := true, mac := BitVec.ofNat 48 (num rq 0x0100 0 6), vlan := num rq 0x0100 6 2, pcp := num rq 0x0100 8 1,
          ports := BitVec.ofNat 4 (num rq 0x0100 9 1), etherType := num rq 0x0100 10 2, period := num rq 0x0101 0 4,
          off := num rq 0x0101 4 4, launch := num rq 0x0101 8 4, missLimit := num rq 0x0101 12 1, entries := es, missRun := 0,
          lastApplied := none, counter := 0 }
        .done (onMap k (fun _ => new) s) [] }

/-- Executes CYCLIC_MAP_DEFINE. -/
def execCyclicMapDefine (rq : Request) (s : State) : Host.Outcome State Fault Refusal := runCommand opCyclicMapDefine rq s

/-- An entry that keeps an inbound map from being enabled: a set-point of an axis whose command source is not the cyclic stream, or
a quantity another enabled map writes (R93). A map whose enable is still due counts as enabled (DESIGN CHOICE, log entry 49). -/
def offending (k : Fin 32) (s : State) : Option CycEntry :=
  s.net.map[k].entries.find? fun e =>
    (decide (e.qty ≤ 3) && !(s.axis[Fin.ofNat 64 e.tgt].mode.any fun m => m.source == 5)) ||
    (List.finRange 32).any fun (j : Fin 32) => j != k && decide (j.val < 16) &&
      (s.net.map[j].enabled || (s.net.map[j].enableDue.any (·.1))) &&
      s.net.map[j].entries.any fun d => d.qty == e.qty && d.tgt == e.tgt

/-- An inbound map, enabled, feeds an axis that is enabled: a set-point or a feedforward of it (R93, Table 4.8A). -/
def feedsEnabled (k : Fin 32) (s : State) : Bool :=
  s.net.map[k].enabled && s.net.map[k].entries.any fun e => decide (1 ≤ e.qty) && decide (e.qty ≤ 5) && live s.axis[Fin.ofNat 64 e.tgt]

/-- CYCLIC_MAP_ENABLE: in effect from the first cycle start at least 1 ms after the reply (R93). A map never defined is refused with
STATE_CONFLICT (DESIGN CHOICE, log entry 49). -/
def opCyclicMapEnable : Op :=
  { opcode := 0x0061, target := below 32, toe := true, states := [.commissioning, .operational], schema := [fixed 0x0100 1]
    values := fun rq _ => firstDeny [(decide (1 < num rq 0x0100 0 1), badValue rq 0x0100)]
    effect := fun rq s =>
      let k := tgt 32 rq
      let m := s.net.map[k]
      let on := num rq 0x0100 0 1 == 1
      let p := max m.period 1
      let due := some (on, (s.tb0 + 1000000 + p - 1) / p * p)
      if !m.defined then .deny conflict
      else if on ∧ k.val < 16 then
        match offending k s with
        | some e => .deny (denyAt .stateConflict e.at0 0x0102 (Config.openDetail 0x0200 2))
        | none => .done (onMap k (fun m => { m with enableDue := due }) s) []
      else if !on ∧ k.val < 16 ∧ feedsEnabled k s then .deny conflict
      else .done (onMap k (fun m => { m with enableDue := due }) s) [] }

/-- Executes CYCLIC_MAP_ENABLE. -/
def execCyclicMapEnable (rq : Request) (s : State) : Host.Outcome State Fault Refusal := runCommand opCyclicMapEnable rq s

/-- The six counts of a map, in the order of CYCLIC_MAP_STATUS. -/
def mapCounts (k : Fin 32) (s : State) : List Tally :=
  let m := s.net.map[k]
  if k.val < 16 then [m.received, m.applied, m.duplicate, m.outOfWindow, m.late, m.missed]
  else [m.received, m.applied, m.duplicate, 0, 0, 0]

/-- CYCLIC_MAP_STATUS. -/
def opCyclicMapStatus : Op :=
  { opcode := 0x0062, target := below 32, toe := false, states := afterStart, schema := []
    effect := fun rq s => .done s [(0x0100, (mapCounts (tgt 32 rq) s).flatMap fun c => be 8 c.toNat)] }

/-- Executes CYCLIC_MAP_STATUS. -/
def execCyclicMapStatus (rq : Request) (s : State) : Host.Outcome State Fault Refusal := runCommand opCyclicMapStatus rq s

end Sys2Proof.Machine
end

