-- ==== Sys2Proof/Machine/Dispatcher.lean ====
section
/-! DEFINITION.
Dispatch on the lanes, and timers (R441 to R446, R458, 20). Gardener's kernel threads are internal (R435): their queues stay
empty and only lanes dispatch (log entry 30). -/

namespace Sys2Proof.Machine

/-- The thread at the head of a lane's highest non-empty level (R441). -/
def queueHead (l : Fin 8) (s : State) : Option (Fin 512) := (s.lanes.lane[l]).queue.head?.map (Fin.ofNat 512)

/-- A thread takes the lane. -/
def takeLane (l : Fin 8) (t : Fin 512) (r : LaneRegs) (s : State) : State :=
  let s1 := onThr t (fun x => { x with st := .running, saved := none }) s
  onLane l (fun x => { x with thread := some t.val, lastThread := t.val, regs := r, queue := x.queue.filter (· != t.val) }) s1

/-- The registers of a cleared lane (R443). -/
def clearedLane (t : Thread) : LaneRegs := { sat := t.satStart, pc := BitVec.ofNat 13 t.entry }

/-- THREAD_START: the READY thread at the head of an idle lane's queue starts; its latency is noted. Dispatch decisions come after all else
of the instant at which it became READY (R439). -/
def execThreadStart (lane : Fin 8) (s : State) : Host.Outcome State Fault Refusal :=
  match queueHead lane s with
  | none => .next s
  | some t =>
    let x := s.lanes.thr[t]
    if lanesGated s || (s.lanes.lane[lane]).thread.isSome || x.st != .ready || x.readyAt == s.sysTick then .next s
    else
      let lat := BitVec.ofNat 16 (min (s.sysTick - x.readyAt) 65535)
      let s1 := takeLane lane t (clearedLane x) (onThr t (fun y => { y with
        runs := y.runs + 1, latLast := lat, latMax := if y.latMax < lat then lat else y.latMax }) s)
      .next (if (s.lanes.lane[lane]).prog.length ≤ x.entry then laneAbort lane t 1 0 s1 else s1)

/-- THREAD_PREEMPT: at a free boundary a READY preemptive thread of a higher level interrupts the lane; the running thread is
saved at the head of its level (R441, R442, R458). -/
def execThreadPreempt (lane : Fin 8) (s : State) : Host.Outcome State Fault Refusal :=
  let x := s.lanes.lane[lane]
  match x.thread with
  | none => .next s
  | some n =>
    let t : Fin 512 := Fin.ofNat 512 n
    let above := x.queue.any fun u =>
      let y := s.lanes.thr[Fin.ofNat 512 u]
      y.st == .ready && y.readyAt != s.sysTick && y.preemptive && decide ((s.lanes.thr[t]).level < y.level)
    if lanesGated s || heldOff x.regs || !above then .next s
    else
      let s1 := onThr t (fun y => { y with st := .preempted, saved := some x.regs }) s
      .next (onLane lane (fun y => { y with thread := none, queue := joinHead (levelOf s) n y.queue }) s1)

/-- THREAD_RESUME: a PREEMPTED thread at the head of an idle lane's queue goes on with its lane state as it stood (R443). -/
def execThreadResume (lane : Fin 8) (s : State) : Host.Outcome State Fault Refusal :=
  match queueHead lane s with
  | none => .next s
  | some t =>
    let x := s.lanes.thr[t]
    if lanesGated s || (s.lanes.lane[lane]).thread.isSome || x.st != .preempted then .next s
    else .next (takeLane lane t (x.saved.getD {}) s)

/-- A timer passes its present instant. -/
def Timer.pass (skip : Nat) (x : Timer) : Timer :=
  { x with nextAt := x.nextAt + x.period, skips := x.skips + BitVec.ofNat 32 skip, fSkipped := x.fSkipped || decide (0 < skip) }

/-- DISPATCH_TIMER_INSTANT: a due instant delivers its tokens; in Nap or Rest it is counted as skipped instead (R446). -/
def execDispatchTimerInstant (timer : Fin 16) (s : State) : Host.Outcome State Fault Refusal :=
  let x := s.lanes.tmr[timer]
  let at0 := if x.kind = 2 then s.wall else s.sysTick
  let asleep := s.power.power == .nap || s.power.power == .rest
  if s.sys.dev == .reset || !x.running || decide (at0 < x.nextAt) then .next s
  else
    let s1 := s.onLanes fun n => { n with tmr := upd n.tmr timer (Timer.pass (bit asleep)) }
    .next (if asleep then s1 else occurs 9 timer.val 0 s1)

end Sys2Proof.Machine
end

