-- ==== Sys2Proof/Machine/HostPort.lean ====
section
/-! DEFINITION.
Host Port frames (R404 to R411, R495, R496, 18). A frame is one command, at the release of its select; a word of a READ frame that
is not ready then counts as one that was not ready within 100 µs (R405; log entry 32). -/

namespace Sys2Proof.Machine

/-- Frames are ignored, uncounted, during Reset (R411). -/
def frame (f : State → State) (s : State) : Host.Outcome State Fault Refusal := .next (if s.sys.dev = .reset then s else f s)

/-- Count k of Table 18.6 for a result of Table 18.4. -/
def resultCount (code : Nat) : Fin 8 := if code < 3 then Fin.ofNat 8 code else Fin.ofNat 8 (code + 1)

/-- Record a frame's result. -/
def frameResult (code edges : Nat) (s : State) : State :=
  s.onSerial fun b => { b with last := code, cnt := upd (upd b.cnt (resultCount code) fun v => bump v 1) 3 fun v => bump v edges }

/-- The result of a complete frame: OK, or EXTRA with its edges. -/
def complete (edges : Nat) (s : State) : State := frameResult (if edges = 0 then 0 else 2) edges s

/-- A select in Nap or Rest wakes the device, and frames are held or turned away until it has woken (R411). -/
def asleep (s : State) : Bool := s.power.power == .nap || s.power.power == .rest || s.power.waking

/-- The waking select. -/
def selectWake (s : State) : State :=
  if s.power.power = .nap ∨ s.power.power = .rest then s.onPower fun p => { p with waking := true } else s

/-! Committing frames. -/

/-- Does a word of a WRITE frame keep the whole frame from being written (R407)? -/
def wordDenied (a : Nat) (s : State) : Bool :=
  match check hostCtx false true a 4 s with
  | .refused => true
  | .error .unmapped => true
  | _ => false

/-- Words in ascending address order, each one access of the host context. -/
def writeWords : Nat → List Word → State → State
  | _, [], s => s
  | a, w :: l, s => writeWords (a + 4) l (accessWrite hostCtx a 4 w s)

/-- A WRITE frame at the release of its select: all its words or none (R407). -/
def commitWrite (addr : Nat) (words : List Word) (edges : Nat) (s : State) : State :=
  match ((List.range words.length).map fun k => addr + 4 * k).find? fun a => wordDenied a s with
  | some a => frameResult 4 0 (failCheck hostCtx (check hostCtx false true a 4 s) true a s)
  | none => complete edges (writeWords addr words s)

/-- A packet enters the inbox, which has room. -/
def commitPacket (arrived : Nat) (bytes : List Byte) (edges : Nat) (s : State) : State :=
  complete edges (s.onPkts fun k => { k with inbox := k.inbox ++ [(arrived, bytes)] })

/-- Held frames are committed in order; a packet that finds the inbox full stays held with those behind it (R411, R495). -/
def commitHeld : List HeldFrame → State → State
  | [], s => s.onSerial fun b => { b with held := [] }
  | f :: l, s =>
    if f.packet then
      if 8 ≤ s.pkts.inbox.length then s.onSerial fun b => { b with held := f :: l }
      else commitHeld l (commitPacket f.arrived f.bytes f.edges s)
    else commitHeld l (commitWrite f.addr f.words f.edges s)

/-- Hold a frame during a wake: up to 8 packets and 1 KiB of words, else INBOX_FULL (R411). -/
def holdFrame (f : HeldFrame) (s : State) : State :=
  let l := s.serial.held ++ [f]
  if 8 < (l.filter fun x => x.packet).length ∨ 256 < (l.map fun x => x.words.length).sum then frameResult 5 0 s
  else s.onSerial fun b => { b with held := l }

/-- The edges of a frame after its completion. -/
def edgesOf : FrameEnd → Nat
  | .extra n => n
  | _ => 0

/-- A frame that ended early. -/
def isShort : FrameEnd → Bool
  | .short _ => true
  | _ => false

/-! READ frames (R405, R408). -/

/-- A word not ready in time is delivered as 0 and recorded (R405, R106, R401); the accesses of IND_DATA before it end first (R104). -/
def wordTimeout (s : State) : State := windowTimeout hostCtx (indDrain hostCtx s)

/-- Words of a READ frame, fetched in order: the words, and those whose rc fields are to be cleared at release. -/
def fetchWords : Nat → Nat → State → (List Word × List (Nat × Word)) × State
  | _, 0, s => (([], []), s)
  | a, n + 1, s =>
    match check hostCtx false false a 4 s with
    | .pass =>
      match readDirect hostCtx a s with
      | (some w, t) =>
        let r := fetchWords (a + 4) n t
        ((w :: r.1.1, (registerOf a, w) :: r.1.2), r.2)
      | (none, t) =>
        let u := wordTimeout t
        let r := fetchWords (a + 4) n u
        (((if a = indData then u.sys.ctx[hostCtx].readData else 0) :: r.1.1, r.1.2), r.2)
    | v =>
      let r := fetchWords (a + 4) n (failCheck hostCtx v false a s)
      ((0 :: r.1.1, r.1.2), r.2)

/-- A READ frame: complete, its side effects are applied at release; cut short, the wide-register latch and IND_ADDR stay as they
were and no rc field it read directly is cleared (R408). -/
def readFrame (addr len : Nat) (fin : FrameEnd) (s : State) : State :=
  match fin with
  | .short n =>
    let r := fetchWords addr (min n len) s
    let k := s.sys.ctx[hostCtx]
    frameResult 1 0 (onCtx hostCtx (fun x => { x with indAddr := k.indAddr, readLatch := k.readLatch })
      (r.2.onSerial fun b => { b with sphOut := r.1.1 }))
  | _ =>
    let r := fetchWords addr len s
    let s1 := r.1.2.foldl (fun s e => clearOnRead hostCtx e.1 e.2 s) r.2
    complete (edgesOf fin) (s1.onSerial fun b => { b with sphOut := r.1.1 })

/-! The frames. -/

/-- ADDR and LEN of a WRITE or READ frame are inside Table 18.2. -/
def frameArgs (addr len : Nat) : Bool := addr % 4 == 0 && within 1 256 len

/-- SPH_WRITE_FRAME (R407, R411). -/
def execSphWriteFrame (addr : Nat) (words : List Word) (fin : FrameEnd) (s : State) : Host.Outcome State Fault Refusal :=
  if s.power.refLost then .next s else
  frame (fun s0 =>
    let s := selectWake s0
    if !frameArgs addr words.length then frameResult 3 0 s
    else if isShort fin then frameResult 1 0 s
    else if asleep s then holdFrame { addr := addr, words := words, edges := edgesOf fin } s
    else commitWrite addr words (edgesOf fin) s) s

/-- SPH_READ_FRAME (R408, R411). -/
def execSphReadFrame (addr len : Nat) (fin : FrameEnd) (s : State) : Host.Outcome State Fault Refusal :=
  if s.power.refLost then .next s else
  frame (fun s0 =>
    let s := selectWake s0
    if !frameArgs addr len then frameResult 3 0 s
    else if asleep s then frameResult 6 0 s
    else readFrame addr len fin s) s

/-- SPH_PACKET_IN (R409, R411): its arrival instant is the release of the select (R81). -/
def execSphPacketIn (bytes : List Byte) (fin : FrameEnd) (s : State) : Host.Outcome State Fault Refusal :=
  if s.power.refLost then .next s else
  frame (fun s0 =>
    let s := selectWake s0
    if !within 24 1472 bytes.length then frameResult 3 0 s
    else if isShort fin then frameResult 1 0 s
    else if asleep s then holdFrame { packet := true, bytes := bytes, edges := edgesOf fin, arrived := s.wall } s
    else if 8 ≤ s.pkts.inbox.length then frameResult 5 0 s
    else commitPacket s.tb0 bytes (edgesOf fin) s) s

/-- A reply leaves the outbox, and the oldest reply waiting behind it enters (R75). -/
def dropReplyOut (k : Packets) : Packets :=
  { k with outbox := k.outbox.drop 1 ++ k.waiting.take 1, waiting := k.waiting.drop 1 }

/-- The same, and the 1 ms before Reset starts when the reply that announces it is handed over (R97). -/
def handReplyOut (s : State) : State :=
  (s.onPkts dropReplyOut).onSys fun y =>
    match y.resetBehind with
    | some n => if n ≤ 1 then { y with resetBehind := none, resetDue := some (s.now + 500000) } else { y with resetBehind := some (n - 1) }
    | none => y

/-- SPH_PACKET_OUT (R409, R411). -/
def execSphPacketOut (len : Nat) (fin : FrameEnd) (s : State) : Host.Outcome State Fault Refusal :=
  if s.power.refLost then .next s else
  frame (fun s0 =>
    let s := selectWake s0
    if !within 2 1474 len ∨ len % 2 ≠ 0 then frameResult 3 0 s
    else if asleep s then frameResult 6 0 s
    else if isShort fin then frameResult 1 0 s
    else
      let p := s.pkts.outbox.headD []
      let out := (be 2 p.length ++ p.take (len - 2) ++ List.replicate len 0).take len
      let s1 := s.onSerial fun b => { b with sphPacket := out }
      complete (edgesOf fin) (if s.pkts.outbox ≠ [] ∧ p.length ≤ len - 2 then handReplyOut s1 else s1)) s

/-- SPH_STATUS_FRAME: SPH_STATUS as it stands before the frame's own result (R404, R411). -/
def execSphStatusFrame (fin : FrameEnd) (s : State) : Host.Outcome State Fault Refusal :=
  if s.power.refLost then .next s else
  frame (fun s0 =>
    let s := selectWake s0
    if asleep s then frameResult 6 0 s
    else if isShort fin then frameResult 1 0 s
    else complete (edgesOf fin) (s.onSerial fun b => { b with sphOut := [sphStatus s] })) s

/-- SPH_BAD_CMD_FRAME (R406). -/
def execSphBadCmdFrame (s : State) : Host.Outcome State Fault Refusal :=
  if s.power.refLost then .next s else frame (fun s => frameResult 3 0 (selectWake s)) s

/-- SPH_WORD_TIMEOUT: a word whose domain was not ready within 100 µs of its request (R405). -/
def execSphWordTimeout (addr : Nat) (s : State) : Host.Outcome State Fault Refusal :=
  if s.power.refLost then .next s else
  frame (fun s => accessError hostCtx .timeout false addr (s.onSerial fun b => { b with sphOut := b.sphOut ++ [0] })) s

end Sys2Proof.Machine
end

