-- ==== Sys2Proof/Machine/Integrity.lean ====
section
/-! DEFINITION.
Tallies and their audit, scrubs, the fault record and the event queue (R464 to R481, 21). -/

namespace Sys2Proof.Machine

/-! Tally families (Table 21.1). -/

/-- A signed held value as 64-bit two's complement (R465). -/
def signed64 (i : Int) : Tally := BitVec.ofInt 64 i

/-- A number as a value. -/
def count64 (n : Nat) : Tally := BitVec.ofNat 64 n

/-- Family 1. -/
def portTally (p : Fin 32) (s : State) : List Tally :=
  let x := s.ports.port[p]
  [x.edgeFwd, x.edgeRev, x.unresolved, x.ovrFwd, x.ovrRev, x.idxDuePos, x.idxDueNeg, x.idxAppPos, x.idxAppNeg, x.idxDropPos,
   x.idxDropNeg, x.idxIgnored, x.presetPos, x.presetNeg, signed64 x.held, signed64 x.counts]

/-- Family 2. -/
def gearTally (i : Fin 64) (s : State) : List Tally :=
  let x := s.gear.link[i]
  [x.dueFwd, x.dueRev, x.appFwd, x.appRev, x.skipFwd, x.skipRev, x.residue, signed64 x.held]

/-- Family 3. -/
def stepTally (i : Fin 64) (s : State) : List Tally :=
  let x := s.stepper.slot[i]
  [x.issuedFwd, x.issuedRev, x.realignFwd, x.realignRev, x.presetPos, x.presetNeg, signed64 x.m]

/-- Family 4; the counts of Gardener's own threads are free values for which the identity holds (log entry 30). -/
def tokenTally (t : Fin 512) (s : State) : List Tally :=
  let x := s.lanes.thr[t]
  let free := fun (k : Nat) => count64 (Config.freeNat (s.sys.free + k))
  if t.val < 256 then [free 0 + free 1 + free 2 + free 3, free 1, free 2, free 3]
  else [x.tokIn, x.tokUsed, x.tokDropped, count64 x.held]

/-- Records of samples in segments, not yet freed, and in the FIFO (Table 19.5). A record of the segment being written
counts with the segments. -/
def acqHeld (b : AcqBlk) : Nat × Nat :=
  ((b.seg.toList.map (·.kept)).sum + (b.ring.filter fun e => e.sample).length + (b.post.filter fun e => e.sample).length,
   (b.fifo.filter fun e => e.sample).length)

/-- Family 5. -/
def acqTally (s : State) : List Tally :=
  let b := s.acq
  [b.samples, b.suppressed, b.unstored, b.overwritten, b.released, count64 (acqHeld b).1, count64 (acqHeld b).2]

/-- Family 6. -/
def canTally (c : Fin 4) (s : State) : List Tally :=
  let x := s.can.ctl[c]
  let f := fun (k : Fin 2) => x.fifo[k]
  [x.rxOk, x.rejected, x.dropped, (f 0).written, (f 1).written, (f 0).readOut, (f 1).readOut, (f 0).overs, (f 1).overs,
   count64 (f 0).frames.length, count64 (f 1).frames.length, x.submitted, x.sent, x.abandoned, count64 x.queue.length]

/-- Family 7. -/
def switchTally (p : Fin 5) (s : State) : List Tally :=
  let x := s.net.port[p]
  [x.received, x.accepted, x.runt, x.oversize, x.fcs, x.vlanFilter, x.queueFull, x.linkDown, x.cutBad, x.notServed, x.restDrop, x.pause,
   x.enqueued, x.transmitted, count64 x.queue.length]

/-- The shaped class an instance of family 8 names: a port's classes in ascending order. -/
def shaperOf (n : Nat) (s : State) : Option Cbs :=
  let a := s.net.cbs[Fin.ofNat 8 (n / 2 * 2)]
  let b := s.net.cbs[Fin.ofNat 8 (n / 2 * 2 + 1)]
  let l := match a.cls, b.cls with
    | some x, some y => if x ≤ y then [a, b] else [b, a]
    | some _, none => [a]
    | none, some _ => [b]
    | none, none => []
  l[n % 2]?

/-- Family 8. -/
def shaperTally (c : Cbs) : List Tally := [c.earned, c.spent, c.discarded, c.forgiven, signed64 c.credit]

/-- Family 9. -/
def mapTally (k : Fin 32) (s : State) : List Tally :=
  mapCounts k s ++ [count64 (if k.val < 16 then s.net.map[k].held.length else bit s.net.map[k].sample.isSome)]

/-- Family 10. -/
def brickTally (b : Fin 64) (s : State) : List Tally :=
  let x := s.bricks.brick[b]
  [x.received, x.used, x.late, x.outOfWindow, x.duplicate, x.unknown]

/-- Family 11. -/
def dropTally (s : State) : List Tally :=
  let k := s.pkts
  [k.dropShort, k.dropMagic, k.dropReply, k.dropFragment, k.dropChecksum, k.dropBroadcast, k.dropLockout]

/-- Family 12. -/
def memTally (m : Fin 8) (s : State) : List Tally :=
  let t := s.integ.tally[m]
  [t.symbols, t.blocks, t.uncorrectable, t.votes]

/-- How many instances a family has (Table 21.1). -/
def instances (family : Nat) : Nat :=
  match family with
  | 1 => 32
  | 2 => 64
  | 3 => 64
  | 4 => 512
  | 5 => 1
  | 6 => 4
  | 7 => 5
  | 8 => 8
  | 9 => 32
  | 10 => 64
  | 11 => 1
  | 12 => 8
  | _ => 0

/-- An instance's values at one tick; none for a shaper whose class is not shaped (R466, R481). -/
def tallyValues (family n : Nat) (s : State) : Option (List Tally) :=
  match family with
  | 1 => some (portTally (Fin.ofNat 32 n) s)
  | 2 => some (gearTally (Fin.ofNat 64 n) s)
  | 3 => some (stepTally (Fin.ofNat 64 n) s)
  | 4 => some (tokenTally (Fin.ofNat 512 n) s)
  | 5 => some (acqTally s)
  | 6 => some (canTally (Fin.ofNat 4 n) s)
  | 7 => some (switchTally (Fin.ofNat 5 n) s)
  | 8 => (shaperOf n s).map shaperTally
  | 9 => some (mapTally (Fin.ofNat 32 n) s)
  | 10 => some (brickTally (Fin.ofNat 64 n) s)
  | 11 => some (dropTally s)
  | 12 => some (memTally (Fin.ofNat 8 n) s)
  | _ => none

/-- The identity of a family, modulo 2^64; none where it has none (R186, R235, R289, R301, R317, R321, R390, R394, R432, R440, R91). -/
def identity (family n : Nat) (v : List Tally) : Option Bool :=
  let g := fun (k : Nat) => v.getD k 0
  match family with
  | 1 => some (g 15 == (g 0 - g 1) - (g 3 - g 4) + (g 7 - g 8) + (g 12 - g 13) &&
      (g 5 - g 6) - (g 7 - g 8) - (g 9 - g 10) - g 14 == 0)
  | 2 => some ((g 0 - g 1) - (g 2 - g 3) - (g 4 - g 5) - g 7 == 0)
  | 3 => some (g 6 == (g 0 - g 1) + (g 2 - g 3) + (g 4 - g 5))
  | 4 => some (g 0 - g 1 - g 2 - g 3 == 0)
  | 5 => some (g 0 == g 1 + g 2 + g 3 + g 4 + g 5 + g 6)
  | 6 => some (g 0 == g 1 + g 2 + g 3 + g 4 && g 3 == g 5 + g 7 + g 9 && g 4 == g 6 + g 8 + g 10 && g 11 == g 12 + g 13 + g 14)
  | 7 => some (g 0 == g 1 + g 2 + g 3 + g 4 + g 5 + g 9 + g 10 + g 11 && g 12 == g 13 + g 6 + g 7 + g 8 + g 14)
  | 8 => some (g 4 == g 0 - g 1 - g 2 + g 3)
  | 9 => if n < 16 then some (g 0 == g 1 + g 2 + g 3 + g 4 + g 6) else none
  | 10 => some (g 0 == g 1 + g 2 + g 3 + g 4 + g 5)
  | _ => none

/-- The audit byte: 0 holds, 1 fails, 2 no identity. -/
def auditByte (family n : Nat) (v : List Tally) : Nat :=
  match identity family n v with
  | some true => 0
  | some false => 1
  | none => 2

/-- An instance's values fail their identity. -/
def auditFails (family n : Nat) (s : State) : Bool :=
  match tallyValues family n s with
  | some v => auditByte family n v == 1
  | none => false

/-- TALLY_AUDIT, once per second: a failed identity raises TALLY_MISMATCH, naming instance and family (R467). -/
def execTallyAudit (s : State) : Host.Outcome State Fault Refusal :=
  let bad := (List.range 11).flatMap fun f => ((List.range (instances f)).filter fun n => auditFails f n s).map fun n => (f, n)
  .next (if afterStartup s ∧ tbRuns s ∧ !s.sys.keeperHalted ∧ s.integ.auditAt ≤ s.now then
      bad.foldl (fun t e => deviceFault 0x0015 e.2 e.1 false t) (s.onInteg fun g => { g with auditAt := s.now + 500000000 })
    else s)

/-- TALLY_READ (R465, R466, R481). -/
def opTallyRead : Op :=
  { opcode := 0x0F00, target := device, toe := false, states := afterStart, schema := [fixed 0x0100 1, fixed 0x0101 2]
    values := fun rq s =>
      let f := num rq 0x0100 0 1
      let n := num rq 0x0101 0 2
      firstDeny [(!within 1 12 f, badValue rq 0x0100), (decide (instances f ≤ n) || (tallyValues f n s).isNone, badValue rq 0x0101)]
    effect := fun rq s =>
      let f := num rq 0x0100 0 1
      let n := num rq 0x0101 0 2
      let v := (tallyValues f n s).getD []
      .done (s.onSys fun y => { y with free := y.free + 4 })
        [(0x0100, be 8 s.sysTick ++ be 1 v.length ++ be 1 (auditByte f n v) ++ be 2 0 ++ v.flatMap fun t => be 8 t.toNat)] }

/-- Executes TALLY_READ. -/
def execTallyRead (rq : Request) (s : State) : Host.Outcome State Fault Refusal := runCommand opTallyRead rq s

/-! The fault record. -/

/-- An entry's 32 bytes (Table 21.4). -/
def FaultEntry.bytes (e : FaultEntry) : List Byte :=
  be 4 e.seq ++ be 2 e.code ++ be 1 e.cls ++ be 1 (bit e.acked + 2 * bit e.present + 4 * bit e.coarse) ++ be 8 e.time ++ be 8 e.tick ++
  be 2 e.index ++ be 1 e.dev ++ be 1 e.opBand ++ be 4 e.detail

/-- The entries FAULT_READ returns (R481). -/
def faultPage (rq : Request) (l : List FaultEntry) : List FaultEntry :=
  let numbered := l.filter fun e => e.seq != 0
  (if has rq 0x0100 then numbered.filter fun e => decide (num rq 0x0100 0 4 ≤ e.seq)
   else (l.filter fun e => e.seq == 0) ++ numbered).take 40

/-- FAULT_READ (R481). -/
def opFaultRead : Op :=
  { opcode := 0x0F01, target := device, toe := false, states := allStates, loader := true
    schema := [optional 0x0100 4, optional 0x0101 1]
    values := fun rq _ => firstDeny [(decide (1 < num rq 0x0101 0 1), badValue rq 0x0101)]
    effect := fun rq s =>
      let page := faultPage rq (if num rq 0x0101 0 1 = 1 then s.integ.log else s.integ.ring)
      let next := match (page.filter fun e => e.seq != 0).getLast? with
        | some e => e.seq + 1
        | none => if s.integ.ringLost then 0 else s.integ.nextSeq
      .done s [(0x0100, page.flatMap FaultEntry.bytes), (0x0101, be 4 next)] }

/-- Executes FAULT_READ. -/
def execFaultRead (rq : Request) (s : State) : Host.Outcome State Fault Refusal := runCommand opFaultRead rq s

/-- FAULT_ACK: every entry up to the sequence, and entries of sequence 0 (R473, R474). -/
def opFaultAck : Op :=
  { opcode := 0x0F02, target := device, toe := false, states := afterStart, schema := [fixed 0x0100 4]
    effect := fun rq s =>
      let t := s.onInteg fun g => { g with ring := g.ring.map fun e => if e.seq ≤ num rq 0x0100 0 4 then { e with acked := true } else e }
      .done t [(0x0100, be 1 (unacked t).length)] }

/-- Executes FAULT_ACK. -/
def execFaultAck (rq : Request) (s : State) : Host.Outcome State Fault Refusal := runCommand opFaultAck rq s

/-- EVENT_READ: the oldest events, removed, and LOST, cleared (R475). -/
def opEventRead : Op :=
  { opcode := 0x0F03, target := device, toe := false, states := afterStart, schema := [fixed 0x0100 1]
    values := fun rq _ => firstDeny [(!within 1 58 (num rq 0x0100 0 1), badValue rq 0x0100)]
    effect := fun rq s =>
      let n := num rq 0x0100 0 1
      .done (s.onInteg fun g => { g with events := g.events.drop n, evtLost := 0 })
        [(0x0100, (s.integ.events.take n).flatMap Event.bytes), (0x0101, be 2 s.integ.evtLost.toNat)] }

/-- Executes EVENT_READ. -/
def execEventRead (rq : Request) (s : State) : Host.Outcome State Fault Refusal := runCommand opEventRead rq s

/-! Scrubs. -/

/-- The scrub reads a block with so many erroneous symbols (R469, R470, R472). Five or more lie outside the code's guarantee:
whether they are detected, and what is corrected where they are not, are free values. -/
def scrubBlock (a n : Nat) (s : State) : State :=
  if poisonedAt a s then countPoison a s
  else if n = 0 then s
  else if n ≤ 2 then countCorrection a n s
  else if n ≤ 4 then poison a s
  else
    let r := freshBool s
    let k := freshNat r.2
    if r.1 then poison a r.2 else if k.1 % 3 = 0 then k.2 else countCorrection a (k.1 % 3) k.2

/-- A new pass begins at the first block, and ends the one before (INT_STATUS; log entry 32). -/
def scrubPass (s : State) : State :=
  s.onInteg fun g => { g with
    passMs := if g.scrubbing then BitVec.ofNat 16 (min 0xFFFF ((s.now - g.scrubStart) / 500000)) else g.passMs
    scrubbing := true, scrubStart := s.now }

/-- MEMORY_SCRUB: one block is read, holding so many erroneous symbols (R471). -/
def execMemoryScrub (addr symbols : Nat) (s : State) : Host.Outcome State Fault Refusal :=
  .next (if !tbRuns s ∨ !protectedAddr addr then s
    else scrubBlock addr symbols (if addr < 32 then scrubPass s else s))

/-- VOTE_SCRUB: a field of access sv and its three copies as the scrub finds them (R115, R116). -/
def execVoteScrub (addr width : Nat) (resetVal c0 c1 c2 : Word) (s : State) : Host.Outcome State Fault Refusal :=
  let v : Voted := { addr := addr, width := width, resetVal := resetVal, c0 := c0, c1 := c1, c2 := c2 }
  .next (if !tbRuns s then s
    else voteField v (s.onSys fun y => { y with voted := v :: y.voted.filter fun u => u.addr != addr }))

end Sys2Proof.Machine
end

