-- ==== Sys2Proof/Machine/LaneInstr.lean ====
section
/-! DEFINITION.
The instructions of the Cooper lanes (Table 20.5, R450 to R456, 20), one meaning each. -/

namespace Sys2Proof.Machine

/-! Arithmetic and logic. -/

/-- An instruction of two data registers. -/
def twoRegs (f : Word → Word → Word) (w : Word) (r : LaneRegs) : LaneRegs := r.put (rd w) (f r.d[ra w] r.d[rb w])

/-- A shift count taken from a register: 32 or more shifts everything out. -/
def countOf (c : Word) : Nat := min c.toNat 32

/-- NOP. -/
def execLaneNop (lane : Fin 8) (s : State) : Host.Outcome State Fault Refusal := laneCommand 0x00 (regsOnly fun _ r => r) lane s

/-- ADD. -/
def execLaneAdd (lane : Fin 8) (s : State) : Host.Outcome State Fault Refusal :=
  laneCommand 0x01 (regsOnly (twoRegs fun a b => a + b)) lane s

/-- SUB. -/
def execLaneSub (lane : Fin 8) (s : State) : Host.Outcome State Fault Refusal :=
  laneCommand 0x02 (regsOnly (twoRegs fun a b => a - b)) lane s

/-- ADDS. -/
def execLaneAdds (lane : Fin 8) (s : State) : Host.Outcome State Fault Refusal :=
  laneCommand 0x03 (regsOnly fun w r => r.putSat (rd w) (r.sgn (ra w) + r.sgn (rb w))) lane s

/-- SUBS. -/
def execLaneSubs (lane : Fin 8) (s : State) : Host.Outcome State Fault Refusal :=
  laneCommand 0x04 (regsOnly fun w r => r.putSat (rd w) (r.sgn (ra w) - r.sgn (rb w))) lane s

/-- MUL. -/
def execLaneMul (lane : Fin 8) (s : State) : Host.Outcome State Fault Refusal :=
  laneCommand 0x05 (regsOnly (twoRegs fun a b => a * b)) lane s

/-- MULH. -/
def execLaneMulh (lane : Fin 8) (s : State) : Host.Outcome State Fault Refusal :=
  laneCommand 0x06 (regsOnly (twoRegs fun a b => highWord (a.toInt * b.toInt))) lane s

/-- AND. -/
def execLaneAnd (lane : Fin 8) (s : State) : Host.Outcome State Fault Refusal :=
  laneCommand 0x07 (regsOnly (twoRegs fun a b => a &&& b)) lane s

/-- OR. -/
def execLaneOr (lane : Fin 8) (s : State) : Host.Outcome State Fault Refusal :=
  laneCommand 0x08 (regsOnly (twoRegs fun a b => a ||| b)) lane s

/-- XOR. -/
def execLaneXor (lane : Fin 8) (s : State) : Host.Outcome State Fault Refusal :=
  laneCommand 0x09 (regsOnly (twoRegs fun a b => a ^^^ b)) lane s

/-- SHL. -/
def execLaneShl (lane : Fin 8) (s : State) : Host.Outcome State Fault Refusal :=
  laneCommand 0x0A (regsOnly (twoRegs fun a b => a <<< countOf b)) lane s

/-- SHR. -/
def execLaneShr (lane : Fin 8) (s : State) : Host.Outcome State Fault Refusal :=
  laneCommand 0x0B (regsOnly (twoRegs fun a b => a >>> countOf b)) lane s

/-- SAR. -/
def execLaneSar (lane : Fin 8) (s : State) : Host.Outcome State Fault Refusal :=
  laneCommand 0x0C (regsOnly (twoRegs fun a b => a.sshiftRight (countOf b))) lane s

/-- MIN. -/
def execLaneMin (lane : Fin 8) (s : State) : Host.Outcome State Fault Refusal :=
  laneCommand 0x0D (regsOnly (twoRegs fun a b => if a.toInt ≤ b.toInt then a else b)) lane s

/-- MAX. -/
def execLaneMax (lane : Fin 8) (s : State) : Host.Outcome State Fault Refusal :=
  laneCommand 0x0E (regsOnly (twoRegs fun a b => if a.toInt ≤ b.toInt then b else a)) lane s

/-- ABS. -/
def execLaneAbs (lane : Fin 8) (s : State) : Host.Outcome State Fault Refusal :=
  laneCommand 0x0F (regsOnly fun w r => r.putSat (rd w) (r.sgn (ra w)).natAbs) lane s

/-- ADDI. -/
def execLaneAddi (lane : Fin 8) (s : State) : Host.Outcome State Fault Refusal :=
  laneCommand 0x10 (regsOnly fun w r => r.put (rd w) (r.d[ra w] + BitVec.ofInt 32 (immS w))) lane s

/-- LUI. -/
def execLaneLui (lane : Fin 8) (s : State) : Host.Outcome State Fault Refusal :=
  laneCommand 0x11 (regsOnly fun w r => r.put (rd w) (BitVec.ofNat 32 (immU w * 65536))) lane s

/-- ORI. -/
def execLaneOri (lane : Fin 8) (s : State) : Host.Outcome State Fault Refusal :=
  laneCommand 0x12 (regsOnly fun w r => r.put (rd w) (r.d[ra w] ||| BitVec.ofNat 32 (immU w))) lane s

/-- SHLI; a count beyond 31 acts as SHL's does. -/
def execLaneShli (lane : Fin 8) (s : State) : Host.Outcome State Fault Refusal :=
  laneCommand 0x13 (regsOnly fun w r => r.put (rd w) (r.d[ra w] <<< min (immU w) 32)) lane s

/-- SARI; a count beyond 31 acts as SAR's does. -/
def execLaneSari (lane : Fin 8) (s : State) : Host.Outcome State Fault Refusal :=
  laneCommand 0x14 (regsOnly fun w r => r.put (rd w) ((r.d[ra w]).sshiftRight (min (immU w) 32))) lane s

/-- SHRI; a count beyond 31 acts as SHR's does. -/
def execLaneShri (lane : Fin 8) (s : State) : Host.Outcome State Fault Refusal :=
  laneCommand 0x15 (regsOnly fun w r => r.put (rd w) (r.d[ra w] >>> min (immU w) 32)) lane s

/-! Memory and address registers. -/

/-- LD: the word reaches its register after the delay slot. -/
def laneLoad : LaneEffect := fun l t w s =>
  let a := effAddr w s.lanes.lane[l].regs
  match laneRead l t.val a s with
  | .error e => .error e
  | .ok r => .ok (onLaneRegs l (fun x => postUpdate w { x with load := some ((rd w).val, r.1) }) r.2)

/-- LD. -/
def execLaneLd (lane : Fin 8) (s : State) : Host.Outcome State Fault Refusal := laneCommand 0x18 laneLoad lane s

/-- ST. -/
def laneStore : LaneEffect := fun l _ w s =>
  let r := s.lanes.lane[l].regs
  match laneWrite l (effAddr w r) r.d[rd w] s with
  | .error e => .error e
  | .ok s1 => .ok (onLaneRegs l (postUpdate w) s1)

/-- ST. -/
def execLaneSt (lane : Fin 8) (s : State) : Host.Outcome State Fault Refusal := laneCommand 0x19 laneStore lane s

/-- The index of format X. -/
def xIndex (w : Word) : Fin 8 := Fin.ofNat 8 (wordBits w 21 3)

/-- SETX: X, M, B or L of the index; the pointer itself is not touched by B or L (R454). -/
def execLaneSetx (lane : Fin 8) (s : State) : Host.Outcome State Fault Refusal :=
  laneCommand 0x1A (regsOnly fun w r =>
    let v := r.d[ra w]
    let i := xIndex w
    match wordBits w 24 2 with
    | 0 => { r with x := upd r.x i fun _ => v }
    | 1 => { r with mods := upd r.mods i fun _ => v }
    | 2 => { r with base := upd r.base i fun _ => v }
    | _ => { r with len := upd r.len i fun _ => v }) lane s

/-- GETX. -/
def execLaneGetx (lane : Fin 8) (s : State) : Host.Outcome State Fault Refusal :=
  laneCommand 0x1B (regsOnly fun w r =>
    let i := xIndex w
    r.put (ra w) (match wordBits w 24 2 with
      | 0 => r.x[i]
      | 1 => r.mods[i]
      | 2 => r.base[i]
      | _ => r.len[i])) lane s

/-! Accumulators. -/

/-- Signed value of an accumulator. -/
def LaneRegs.accInt (r : LaneRegs) (a : Fin 4) : Int := (r.acc[a]).toInt

/-- CLR. -/
def execLaneClr (lane : Fin 8) (s : State) : Host.Outcome State Fault Refusal :=
  laneCommand 0x20 (regsOnly fun w r => r.putAcc (accOf w) 0) lane s

/-- MPY. -/
def execLaneMpy (lane : Fin 8) (s : State) : Host.Outcome State Fault Refusal :=
  laneCommand 0x21 (regsOnly fun w r => r.putAcc (accOf w) (r.sgn (ra w) * r.sgn (rb w))) lane s

/-- MAC. -/
def execLaneMac (lane : Fin 8) (s : State) : Host.Outcome State Fault Refusal :=
  laneCommand 0x22 (regsOnly fun w r => r.putAcc (accOf w) (r.accInt (accOf w) + r.sgn (ra w) * r.sgn (rb w))) lane s

/-- MSU. -/
def execLaneMsu (lane : Fin 8) (s : State) : Host.Outcome State Fault Refusal :=
  laneCommand 0x23 (regsOnly fun w r => r.putAcc (accOf w) (r.accInt (accOf w) - r.sgn (ra w) * r.sgn (rb w))) lane s

/-- MACX: both words are read, then both pointers move. -/
def laneMacx : LaneEffect := fun l t w s =>
  let r := s.lanes.lane[l].regs
  let i : Fin 8 := Fin.ofNat 8 (wordBits w 21 3)
  let j : Fin 8 := Fin.ofNat 8 (wordBits w 18 3)
  match laneRead l t.val (r.x[i]).toNat s with
  | .error e => .error e
  | .ok u =>
    match laneRead l t.val (r.x[j]).toNat u.2 with
    | .error e => .error e
    | .ok v =>
      .ok (onLaneRegs l (fun x =>
        let y := (x.putAcc (accOf w) (x.accInt (accOf w) + u.1.toInt * v.1.toInt)).step i (x.mods[i]).toInt
        y.step j (y.mods[j]).toInt) v.2)

/-- MACX. -/
def execLaneMacx (lane : Fin 8) (s : State) : Host.Outcome State Fault Refusal := laneCommand 0x24 laneMacx lane s

/-- ADDA. -/
def execLaneAdda (lane : Fin 8) (s : State) : Host.Outcome State Fault Refusal :=
  laneCommand 0x25 (regsOnly fun w r => r.putAcc (accOf w) (r.accInt (accOf w) + r.accInt (acc2Of w))) lane s

/-- SHA. -/
def execLaneSha (lane : Fin 8) (s : State) : Host.Outcome State Fault Refusal :=
  laneCommand 0x26 (regsOnly fun w r => r.putAcc (accOf w) (shiftInt (r.accInt (accOf w)) (shOf w))) lane s

/-- EXP. -/
def execLaneExp (lane : Fin 8) (s : State) : Host.Outcome State Fault Refusal :=
  laneCommand 0x27 (regsOnly fun w r => r.put (ra w) (BitVec.ofInt 32 ((leadingSame r.acc[accOf w] 72 : Int) - 9))) lane s

/-- The shift NORM takes from a register: its value, else 0 (log entry 30). -/
def normShift (v : Int) : Int := if -72 ≤ v ∧ v ≤ 71 then v else 0

/-- NORM. -/
def execLaneNorm (lane : Fin 8) (s : State) : Host.Outcome State Fault Refusal :=
  laneCommand 0x28 (regsOnly fun w r => r.putAcc (accOf w) (shiftInt (r.accInt (accOf w)) (normShift (r.sgn (ra w))))) lane s

/-- MOVAH: rounded half to even, saturated (SX). -/
def execLaneMovah (lane : Fin 8) (s : State) : Host.Outcome State Fault Refusal :=
  laneCommand 0x29 (regsOnly fun w r =>
    let v := halfEven (r.accInt (accOf w)) (2 ^ (shOf w).toNat)
    let c := clampInt (-2147483648) 2147483647 v
    let q := r.put (ra w) (BitVec.ofInt 32 c)
    { q with sx := r.sx || c != v }) lane s

/-- LDA. -/
def execLaneLda (lane : Fin 8) (s : State) : Host.Outcome State Fault Refusal :=
  laneCommand 0x2A (regsOnly fun w r => r.putAcc (accOf w) (r.sgn (ra w) * 4294967296 + (r.d[rb w]).toNat)) lane s

/-! Branches (R455): two delay slots, taken or not. -/

/-- A branch's own address plus its offset, as a word address of 13 bits. -/
def branchTarget (w : Word) (r : LaneRegs) : Nat := (((r.pc.toNat : Int) + immS w) % 8192).toNat

/-- The word after the delay slots. -/
def fallThrough (r : LaneRegs) : Nat := r.pc.toNat + 3

/-- A branch under a condition on two registers, in bits 25:21 and 20:16. -/
def branchIf (c : Word → Word → Bool) (w : Word) (r : LaneRegs) : LaneRegs :=
  { r with delay := some (2, if c r.d[rd w] r.d[ra w] then branchTarget w r else fallThrough r) }

/-- BEQ. -/
def execLaneBeq (lane : Fin 8) (s : State) : Host.Outcome State Fault Refusal :=
  laneCommand 0x30 (regsOnly (branchIf fun a b => a == b)) lane s

/-- BNE. -/
def execLaneBne (lane : Fin 8) (s : State) : Host.Outcome State Fault Refusal :=
  laneCommand 0x31 (regsOnly (branchIf fun a b => a != b)) lane s

/-- BLT. -/
def execLaneBlt (lane : Fin 8) (s : State) : Host.Outcome State Fault Refusal :=
  laneCommand 0x32 (regsOnly (branchIf fun a b => a.slt b)) lane s

/-- BGE. -/
def execLaneBge (lane : Fin 8) (s : State) : Host.Outcome State Fault Refusal :=
  laneCommand 0x33 (regsOnly (branchIf fun a b => !a.slt b)) lane s

/-- BRA. -/
def execLaneBra (lane : Fin 8) (s : State) : Host.Outcome State Fault Refusal :=
  laneCommand 0x34 (regsOnly (branchIf fun _ _ => true)) lane s

/-- CALL: D31 is its own address plus 3. -/
def execLaneCall (lane : Fin 8) (s : State) : Host.Outcome State Fault Refusal :=
  laneCommand 0x35 (regsOnly fun w r =>
    { r.put 31 (BitVec.ofNat 32 (r.pc.toNat + 3)) with delay := some (2, wordBits w 0 13) }) lane s

/-- RET: D31 bits 12:0. -/
def execLaneRet (lane : Fin 8) (s : State) : Host.Outcome State Fault Refusal :=
  laneCommand 0x36 (regsOnly fun _ r => { r with delay := some (2, (r.d[(31 : Fin 32)]).toNat % 8192) }) lane s

/-! Control. -/

/-- How often REP repeats: its count field plus 1, or a register's value from 1 to 1,024, else 0 (R456). -/
def repCount (w : Word) (r : LaneRegs) : Nat :=
  if wordBits w 25 1 = 0 then wordBits w 0 10 + 1
  else if 1 ≤ r.sgn (ra w) ∧ r.sgn (ra w) ≤ 1024 then (r.d[ra w]).toNat else 0

/-- REP: a count of 0 passes over the next word. -/
def execLaneRep (lane : Fin 8) (s : State) : Host.Outcome State Fault Refusal :=
  laneCommand 0x37 (regsOnly fun w r =>
    if repCount w r = 0 then { r with pc := r.pc + 1 } else { r with rep := some (repCount w r) }) lane s

/-- END: the thread ends, its end token goes out, its counter reloads (R438, R445). -/
def execLaneEnd (lane : Fin 8) (s : State) : Host.Outcome State Fault Refusal :=
  laneCommand 0x38 (fun _ t _ s => .ok (endThread t s)) lane s

/-- MODE: SAT mode, and the sticky flags cleared. -/
def execLaneMode (lane : Fin 8) (s : State) : Host.Outcome State Fault Refusal :=
  laneCommand 0x39 (regsOnly fun w r =>
    let q := { r with sat := wordBits w 0 1 == 1 }
    if wordBits w 1 1 = 1 then { q with go := Vector.replicate 4 false, sx := false, qs := false } else q) lane s

/-- The flags word. -/
def flagsWord (r : LaneRegs) : Nat :=
  ((List.finRange 4).map fun (k : Fin 4) => bit r.go[k] * 2 ^ k.val).sum + 16 * bit r.sx + 32 * bit r.qs + 64 * bit r.sat

/-- GETF. -/
def execLaneGetf (lane : Fin 8) (s : State) : Host.Outcome State Fault Refusal :=
  laneCommand 0x3A (regsOnly fun w r => r.put (rd w) (BitVec.ofNat 32 (flagsWord r))) lane s

end Sys2Proof.Machine
end

