-- ==== Sys2Proof/Machine/Lodge.lean ====
section
/-! DEFINITION.
Lodge's events: inputs and test pulses, snapshots and command instants, STO, safe outputs, supervision (R342 to R358, 15). -/

namespace Sys2Proof.Machine

/-! Inputs (R347 to R349). -/

/-- SI_LEVEL_ACCEPTED: input SI2k or SI2k+1 has shown a new level for its filter count. -/
def execSiLevelAccepted (input : Fin 16) (level : Bool) (s : State) : Host.Outcome State Fault Refusal :=
  if !lodgePowered s then .next s
  else
    let k : Fin 8 := ⟨input.val / 2, by omega⟩
    .next (judgePairs (onPair k (fun x => if input.val % 2 = 0 then { x with siA := level } else { x with siB := level }) s))

/-- 8 ms frames whose pulse of TPn has ended: it starts at n × 2 ms in each and lasts 100 us (R348). -/
def tpFrame (tp : Fin 4) (time : Nat) : Nat := (time + 7900000 - tp.val * 2000000) / 8000000

/-- TEST_PULSE: TPn's pulse has run, once a frame; `missing` are the inputs that did not show low in its last 50 us, `foreign` those that
were low only within it. Only inputs with a TP source are checked: against their own source, and against the others. -/
def execTestPulse (tp : Fin 4) (missing foreign : BitVec 16) (s : State) : Host.Outcome State Fault Refusal :=
  let k := tpFrame tp s.lodge.time
  if s.lodge.st ≠ .run ∨ k ≤ s.lodge.tpDone[tp] then .next s
  else
    let s1 := s.onLodge fun b => { b with tpDone := upd b.tpDone tp fun _ => k }
    let hit := fun (k : Fin 8) (own : Bool) (m : BitVec 16) =>
      let c := s.lodge.cfg k
      c.kind != 0 && c.tpInUse && (((c.tpA == tp.val) == own && m.getLsbD (2 * k.val)) || ((c.tpB == tp.val) == own && m.getLsbD (2 * k.val + 1)))
    .next ((List.finRange 8).foldl (fun s (k : Fin 8) =>
      if hit k true missing then pairFault k 2 s else if hit k false foreign then pairFault k 3 s else s) s1)

/-- DISCREPANCY_TIMEOUT: the inputs of a pair have disagreed for longer than DISCREPANCY (R349). -/
def execDiscrepancyTimeout (pair : Fin 8) (s : State) : Host.Outcome State Fault Refusal :=
  let c := s.lodge.cfg pair
  match s.lodge.pair[pair].differ with
  | some t =>
    if s.lodge.st = .run ∧ agreeing c ∧ t + c.discrepancy * 1000000 < s.lodge.time then .next (pairFault pair 1 s) else .next s
  | none => .next s

/-! The 250 us cycle (R356). -/

/-- Number of the cycle that Lodge time is in: snapshots at 10 us + 250 us × i. -/
def lodgeCycle (time : Nat) : Nat := (time + 240000) / 250000

/-- LODGE_SNAPSHOT: the demands as they stand are taken, once in a cycle; the cycle keeps its instant. -/
def execLodgeSnapshot (s : State) : Host.Outcome State Fault Refusal :=
  let b := s.lodge
  if b.st = .absent ∨ lodgeCycle b.time ≤ b.cycle then .next s
  else .next (s.onLodge fun b => { b with
    cycle := lodgeCycle b.time, snapAt := some (lodgeCycle b.time * 250000 - 240000)
    snapDemand := BitVec.ofNat 8 (bitsOf fun (k : Fin 8) => b.pair[k].demand) })

/-- LODGE_COMMAND_INSTANT: 230 us after a snapshot, outputs and STO are decided and the mirrors refreshed (R353, R355, R356). At
the end of the cycle the channels have compared: a second disagreement in a row is an internal fault (R343), and so is what
Lodge finds of its oscillator, its memory or the gate's read-back (Table 15.8). -/
def execLodgeCommandInstant (disagree : Bool) (internal : Option (Fin 3)) (s : State) : Host.Outcome State Fault Refusal :=
  match s.lodge.snapAt with
  | none => .next s
  | some t =>
    if s.lodge.st = .absent ∨ s.lodge.time < t + 230000 then .next s
    else
      let s1 := s.onLodge fun b => { b with snapAt := none, disagreed := disagree }
      if s.lodge.st = .safeFault then .next (refreshMirrors s1)
      else if disagree ∧ s.lodge.disagreed then .next (internalFault 11 s1)
      else
        match internal with
        | some k => .next (internalFault (13 + k.val) s1)
        | none => .next (refreshMirrors (decideSto (decideOuts s1)))

/-- SS1_QUICK_STOP: Keeper answers SS1_REQUEST with STOP QUICK of every axis and group (R356, R165). -/
def execSs1QuickStop (s : State) : Host.Outcome State Fault Refusal :=
  if !s.lodge.ss1Request then .next s
  else
    let s1 := s.onLodge fun b => { b with ss1Request := false }
    let s2 := (List.finRange 64).foldl (fun s i => if stoppable i s then requestStop i 1 s else s) s1
    .next ((List.finRange 16).foldl (fun s (g : Fin 16) =>
      if s.plan.grp[g].running && s.plan.grp[g].activity != 4 then requestGroupStop g 1 s else s) s2)

/-- SS1_DELAY_EXPIRY: the delay of an output ends and it switches off; that of STO ends and STO is asserted, even if the
condition has returned (R353, R356). -/
def execSs1DelayExpiry (out : Option (Fin 4)) (s : State) : Host.Outcome State Fault Refusal :=
  let due := fun (o : Option Nat) => match o with
    | some t => decide (t ≤ s.lodge.time)
    | none => false
  match out with
  | some n => if due s.lodge.out[n].delay then .next (onSafeOut n (fun x => x.open s.lodge.time) s) else .next s
  | none =>
    if due s.lodge.ss1End then .next (assertSto (s.onLodge fun b => { b with ss1End := none, ss1Done := true })) else .next s

/-! STOIN (R357). -/

/-- STOIN is enabled. -/
def stoinOn (s : State) : Bool := (s.lodge.params.map (·.stoin)).getD false

/-- The balls' accepted levels: how long they differ, and whether both have been low together. -/
def stoinLevels (a b : Bool) (s : State) : State :=
  s.onLodge fun l => { l with
    stoinA := a, stoinB := b, stoinDiffer := if a != b then some (l.stoinDiffer.getD l.time) else none
    stoinLow := l.stoinFault && (l.stoinLow || (!a && !b)) }

/-- STOIN_DEMAND: a ball has been low for 1 us; STO is asserted at once. With STOIN disabled the balls are not read. -/
def execStoinDemand (a b : Bool) (s : State) : Host.Outcome State Fault Refusal :=
  if !lodgePowered s || !stoinOn s || (a && b) then .next s
  else .next (assertSto ((stoinLevels a b s).onLodge fun l => { l with stoinDemand := true }))

/-- STOIN_RELEASE: both balls are high; STO is released at the next command instant if nothing else demands it (R355). -/
def execStoinRelease (s : State) : Host.Outcome State Fault Refusal :=
  if !lodgePowered s || !stoinOn s then .next s
  else .next ((stoinLevels true true s).onLodge fun l => { l with stoinDemand := false })

/-- STOIN_DISCREPANCY: the balls have differed for more than 100 ms; STO is held until both have been low together. -/
def execStoinDiscrepancy (s : State) : Host.Outcome State Fault Refusal :=
  match s.lodge.stoinDiffer with
  | some t =>
    if s.lodge.st = .run ∧ stoinOn s ∧ !s.lodge.stoinFault ∧ t + 100000000 < s.lodge.time then
      .next (assertSto (postFault 0 4 none true (s.onLodge fun l => { l with stoinFault := true, stoinLow := false })))
    else .next s
  | none => .next s

/-! Supervision (R344) and temperature (R355, R50). -/

/-- KEEPER_HEARTBEAT: Keeper writes its word; a new value ends the cause HEARTBEAT. -/
def execKeeperHeartbeat (word : Word) (s : State) : Host.Outcome State Fault Refusal :=
  if s.sys.dev = .reset ∨ s.sys.keeperHalted ∨ !lodgePowered s ∨ word = s.lodge.heartbeat then .next s
  else .next (s.onLodge fun b => { b with
    heartbeat := word, hbAt := b.time, hbGone := if b.hbFault then some (b.hbGone.getD b.time) else none })

/-- REFERENCE_TIMEOUT: no reference edge for 50 us, or its frequency outside ±2 % over 1 ms. -/
def execReferenceTimeout (s : State) : Host.Outcome State Fault Refusal :=
  if !lodgePowered s then .next s
  else .next (assertSto (s.onLodge fun b => { b with refFault := true, refGone := if s.power.refLost then none else some b.time }))

/-- HEARTBEAT_TIMEOUT: no new value for 20 ms. -/
def execHeartbeatTimeout (s : State) : Host.Outcome State Fault Refusal :=
  if !lodgePowered s || decide (s.lodge.time < s.lodge.hbAt + 20000000) then .next s
  else .next (assertSto (s.onLodge fun b => { b with hbFault := true, hbGone := none }))

/-- The first command instant at or after a Lodge time: 240 us + 250 us × i (R356). -/
def instantFrom (t : Nat) : Nat := (t + 9999) / 250000 * 250000 + 240000

/-- A supervision cause absent since a time has been so for 100 ms at a command instant (R344). -/
def releasable (since : Option Nat) (time : Nat) : Bool := since.any fun t => decide (instantFrom (t + 100000000) ≤ time)

/-- SUPERVISION_RELEASE: the first command instant after a cause has been absent for 100 ms; STO is released unless another
cause is present. -/
def execSupervisionRelease (reference : Bool) (s : State) : Host.Outcome State Fault Refusal :=
  let b := s.lodge
  let s1 :=
    if reference && b.refFault && releasable b.refGone b.time then s.onLodge fun b => { b with refFault := false, refGone := none }
    else if !reference && b.hbFault && releasable b.hbGone b.time then s.onLodge fun b => { b with hbFault := false, hbGone := none }
    else s
  if s1.lodge.refFault == b.refFault && s1.lodge.hbFault == b.hbFault then .next s else .next (refreshMirrors (decideSto s1))

/-- LODGE_OVERTEMP: from 150 °C every safe output is open and STO held, until below 130 °C. -/
def execLodgeOvertemp (temp : Int) (s : State) : Host.Outcome State Fault Refusal :=
  if !lodgePowered s then .next s
  else
    let s1 := s.onLodge fun b => { b with temp := temp, overtemp := if 150 ≤ temp then true else b.overtemp && decide (130 ≤ temp) }
    if 150 ≤ temp then .next (assertSto (s1.onLodge fun b => { b with out := updAll b.out fun _ x => x.open b.time })) else .next s1

/-! Safe-output diagnostics (R354, Table 15.4). -/

/-- An output fault: the output is held off; a cause seen with the output off stays until a read-back shows it gone. -/
def outFault (n : Fin 4) (code : Nat) (stays : Bool) (s : State) : State :=
  let x := s.lodge.out[n]
  let s1 := onSafeOut n (fun x => { x with fault := if x.fault = 0 then code else x.fault, faultPresent := x.faultPresent || stays }) s
  let s2 := onSafeOut n (fun x => x.open s.lodge.time) s1
  if x.fault = 0 then postFault 1 (4 + code) (some n.val) stays s2 else s2

/-- SAFE_OUTPUT_TEST: every TEST_INTERVAL an on output is off-pulsed on one side and read back; an off output has both terminals read back. -/
def execSafeOutputTest (out : Fin 4) (pStuck mStuck : Bool) (cross : Option (Fin 4)) (s : State) :
    Host.Outcome State Fault Refusal :=
  if s.lodge.st ≠ .run then .next s
  else
    let x := s.lodge.out[out]
    let c := (s.lodge.params.map fun p => p.out[out]).getD {}
    if x.on && (c.noPulse || decide (s.lodge.time < x.testAt + c.testMs10 * 10000000)) then .next s
    else
      let p := pStuck && !(x.on && x.pulseM)
      let m := mStuck && !(x.on && !x.pulseM)
      let s1 := onSafeOut out (fun y => { y with pulseM := if x.on then !y.pulseM else y.pulseM, testAt := if x.on then s.lodge.time else y.testAt }) s
      let s2 := if p then outFault out 1 true s1 else if m then outFault out 2 true s1 else s1
      match cross with
      | some n => .next (if x.on then outFault out 3 true (outFault n 3 true s2) else s2)
      | none =>
        if p ∨ m ∨ x.on ∨ !x.faultPresent then .next s2
        else
          .next (setCause (0x0304 + x.fault) out.val false
            (onSafeOut out (fun y => { y with faultPresent := false, p := false, m := false }) s2))

/-- SAFE_OUTPUT_OVERLOAD: more than 2.6 A for 100 us. -/
def execSafeOutputOverload (out : Fin 4) (s : State) : Host.Outcome State Fault Refusal :=
  if s.lodge.st = .run ∧ s.lodge.out[out].on ∧ s.lodge.out[out].onAt + 100000 ≤ s.lodge.time then .next (outFault out 4 false s) else .next s

/-- SAFE_OUTPUT_OPEN_LOAD: less than 10 mA for 100 ms while on, with the option. -/
def execSafeOutputOpenLoad (out : Fin 4) (s : State) : Host.Outcome State Fault Refusal :=
  let c := (s.lodge.params.map fun p => p.out[out]).getD {}
  if s.lodge.st = .run ∧ s.lodge.out[out].on ∧ c.openLoad ∧ s.lodge.out[out].onAt + 100000000 ≤ s.lodge.time then .next (outFault out 5 false s) else .next s

/-- TEST_OVERDUE: an output without pulses has not been off for 24 h. -/
def execTestOverdue (out : Fin 4) (s : State) : Host.Outcome State Fault Refusal :=
  let c := (s.lodge.params.map fun p => p.out[out]).getD {}
  let x := s.lodge.out[out]
  if s.lodge.st == .run && x.on && c.noPulse && decide (x.offAt + 86400000000000 ≤ s.lodge.time) then .next (outFault out 6 false s) else .next s

end Sys2Proof.Machine
end

