-- ==== Sys2Proof/Machine/LodgeSet.lean ====
section
/-! DEFINITION.
Lodge's parameter set: its layout (Table 15.7) and its checks (R363, 15). -/

namespace Sys2Proof.Machine

/-- A big-endian field of the set. -/
def setField (bs : List Byte) (off n : Nat) : Nat := beNat (slice off n bs)

/-- A pair's parameters. -/
def parsePair (bs : List Byte) (k : Nat) : LodgePairCfg :=
  let f := fun o n => setField bs (0x10 + 8 * k + o) n
  { kind := f 0 1, anti := f 1 1 == 1, tpInUse := hasBit (f 2 1) 7, tpA := f 2 1 % 4, tpB := f 2 1 / 4 % 4, filter := f 3 1,
    discrepancy := f 4 2, manual := hasBit (f 6 1) 7, resetPair := f 6 1 % 8 }

/-- A safe output's parameters. -/
def parseOut (bs : List Byte) (n : Nat) : LodgeOutCfg :=
  let f := fun o k => setField bs (0x50 + 8 * n + o) k
  { mask := BitVec.ofNat 8 (f 0 1), delayed := f 1 1 == 1, delayMs := f 2 2, testMs10 := f 4 2, noPulse := hasBit (f 6 1) 0,
    openLoad := hasBit (f 6 1) 1 }

/-- A set as Lodge applies it. -/
def parseSet (bs : List Byte) : LodgeParams :=
  { setId := setField bs 8 4, pair := Vector.ofFn fun (k : Fin 8) => parsePair bs k.val
    out := Vector.ofFn fun (n : Fin 4) => parseOut bs n.val
    stoMask := BitVec.ofNat 8 (setField bs 0x70 1), stoSs1 := setField bs 0x71 1 == 1, stoDelayMs := setField bs 0x72 2
    stoin := setField bs 0x74 1 == 1, bytes := bs }

/-- The first of `n` bytes that is not zero. -/
def nonZero (bs : List Byte) (off n : Nat) : List (Bool × Nat) :=
  (List.range n).map fun i => (setField bs (off + i) 1 != 0, off + i)

/-- Codings a kind admits (Table 15.3). -/
def codings (kind : Nat) : List Nat :=
  match kind with
  | 1 => [0, 1]
  | 2 => [0, 1]
  | 3 => [1]
  | _ => [0]

/-- Least FILTER of a kind, in 0.25 ms (Table 15.3, R348). -/
def leastFilter (kind : Nat) (tp : Bool) : Nat := if kind = 4 then 4 else if tp then 2 else 1

/-- The conditions a pair's bytes break, each with its byte. An unused pair's other fields are not judged. -/
def pairFaults (bs : List Byte) (k : Nat) : List (Bool × Nat) :=
  let b := 0x10 + 8 * k
  let c := parsePair bs k
  let kindOf := fun j => setField bs (0x10 + 8 * j) 1
  let used := c.kind != 0
  [(decide (5 < c.kind) || (c.kind == 3 && kindOf (k / 2 * 2 + (1 - k % 2)) != 3), b),
   (used && !(codings c.kind).contains (setField bs (b + 1) 1), b + 1),
   (used && (decide (setField bs (b + 2) 1 / 16 % 8 ≠ 0) || (c.tpInUse && (c.kind == 4 || c.tpA == c.tpB))), b + 2),
   (used && (decide (c.filter < leastFilter c.kind c.tpInUse) || decide (40 < c.filter)), b + 3),
   (used && c.kind != 4 && (decide (c.discrepancy < 10) || decide (2000 < c.discrepancy)), b + 4),
   (used && (decide (setField bs (b + 6) 1 / 8 % 16 ≠ 0) || (c.manual && kindOf c.resetPair != 5)), b + 6),
   (setField bs (b + 7) 1 != 0, b + 7)]

/-- A mask that names a pair of kind 0 or 5. -/
def badMask (bs : List Byte) (off : Nat) : Bool :=
  (List.range 8).any fun k => hasBit (setField bs off 1) k && [0, 5].contains (setField bs (0x10 + 8 * k) 1)

/-- The conditions an output's bytes break. -/
def outFaults (bs : List Byte) (n : Nat) : List (Bool × Nat) :=
  let b := 0x50 + 8 * n
  let c := parseOut bs n
  [(badMask bs b, b), (decide (1 < setField bs (b + 1) 1), b + 1), (decide (10000 < c.delayMs), b + 2),
   (decide (c.testMs10 < 10) || decide (1000 < c.testMs10), b + 4), (decide (3 < setField bs (b + 6) 1), b + 6),
   (setField bs (b + 7) 1 != 0, b + 7)]

/-- The first byte at which a set breaks R363, in byte order. -/
def setFault (bs : List Byte) : Option Nat :=
  let head := [(setField bs 0 4 != 0x4C504152, 0), (setField bs 4 2 != 1, 4), (setField bs 6 2 != 256, 6)]
  let sto := [(badMask bs 0x70, 0x70), (decide (1 < setField bs 0x71 1), 0x71), (decide (10000 < setField bs 0x72 2), 0x72),
    (decide (1 < setField bs 0x74 1), 0x74)]
  let all := head ++ nonZero bs 0x0C 4 ++ (List.range 8).flatMap (pairFaults bs) ++ (List.range 4).flatMap (outFaults bs) ++ sto ++
    nonZero bs 0x75 (0xC0 - 0x75)
  (all.find? (·.1)).map (·.2)

end Sys2Proof.Machine
end

