-- ==== Sys2Proof/Machine/LodgeOps.lean ====
section
/-! DEFINITION.
The Lodge class of opcodes (R360 to R364, Table 15.9), and what Lodge does of itself between states: self-test, switching,
its supply, its image (R345, R346, R62). -/

namespace Sys2Proof.Machine

/-- LODGE_READ: mirrors, the confirmed set, the staged set if asked, the fields as applied, the last fault, the version. -/
def opLodgeRead : Op :=
  { opcode := 0x0900, target := device, toe := false, states := afterStart, schema := [optional 0x0100 1]
    values := fun rq _ => firstDeny [(decide (1 < num rq 0x0100 0 1), badValue rq 0x0100)]
    effect := fun rq s =>
      let b := s.lodge
      let set := match b.params with
        | some p => if b.st = .config ∨ b.st = .absent then [] else [(0x0101, p.bytes)]
        | none => []
      let stage := match b.staged with
        | some p => if hasBit (num rq 0x0100 0 1) 0 then [(0x0102, p.bytes)] else []
        | none => []
      let fields := match b.params with
        | some p => [(0x0103, slice 0x10 104 p.bytes)]
        | none => []
      let f := fun i => b.lastFault.getD i 0
      .done s ([(0x0100, b.mirror.flatMap fun w => be 4 w.toNat)] ++ set ++ stage ++ fields ++
        [(0x0104, be 1 (f 0) ++ be 1 (f 1) ++ be 1 (f 2) ++ be 1 0 ++ be 4 (f 3)), (0x0105, be 4 b.version)]) }

/-- Executes LODGE_READ. -/
def execLodgeRead (rq : Request) (s : State) : Host.Outcome State Fault Refusal := runCommand opLodgeRead rq s

/-- Refused while VSAF is absent, and with BUSY in Start and Switching (R364). -/
def lodgeBusy (s : State) : Option Deny :=
  if s.lodge.st = .absent then some conflict
  else if s.lodge.st = .start ∨ s.lodge.st = .switching then some (deny .busy)
  else none

/-- LODGE_PARAM_STAGE: the key against the fuse and the signature, then the layout (R360). -/
def opLodgeParamStage : Op :=
  { opcode := 0x0901, target := device, toe := false, states := [.commissioning], schema := [fixed 0x0100 256, fixed 0x0101 64]
    effect := fun rq s =>
      match lodgeBusy s with
      | some d => .deny d
      | none =>
        let set := value rq 0x0100
        let key := value rq 0x0101
        if s.lodge.keyHash ≠ some (sha256 key) ∨ !ecdsaOk key (set.take 0xC0) (set.drop 0xC0) then .deny authFail
        else
          match setFault set with
          | some at0 => .deny (denyAt .badParam (tlvOff rq 0x0100 + 4 + at0) 0x0100 3)
          | none =>
            .done (s.onLodge fun b => { b with staged := some (parseSet set), stagedAt := b.time })
              [(0x0100, be 4 (setCrc set).toNat)] }

/-- Executes LODGE_PARAM_STAGE. -/
def execLodgeParamStage (rq : Request) (s : State) : Host.Outcome State Fault Refusal := runCommand opLodgeParamStage rq s

/-- LODGE_PARAM_CONFIRM: a set staged less than 60 s before whose CRC is echoed; answered when Lodge has reached Run (R361,
R364). No command brings Lodge out of Safe-Fault (R362). -/
def opLodgeParamConfirm : Op :=
  { opcode := 0x0902, target := device, toe := false, states := [.commissioning], schema := [fixed 0x0100 4]
    effect := fun rq s =>
      match lodgeBusy s, s.lodge.staged with
      | some d, _ => .deny d
      | none, none => .deny conflict
      | none, some p =>
        if s.lodge.st = .safeFault ∨ s.lodge.stagedAt + 60000000000 ≤ s.lodge.time then .deny conflict
        else if num rq 0x0100 0 4 ≠ (setCrc p.bytes).toNat then .deny (badValue rq 0x0100)
        else .wait (leaveRun .switching (s.onLodge fun b => { b with staged := none, switching := some p })) 0x0902 [] }

/-- Executes LODGE_PARAM_CONFIRM. -/
def execLodgeParamConfirm (rq : Request) (s : State) : Host.Outcome State Fault Refusal := runCommand opLodgeParamConfirm rq s

/-- LODGE_KEY_ENROL: a one-time fuse. -/
def opLodgeKeyEnrol : Op :=
  { opcode := 0x0903, target := device, toe := false, states := [.commissioning], hostOnly := true, schema := [fixed 0x0100 64]
    effect := fun rq s =>
      if s.lodge.st = .absent ∨ s.lodge.keyHash.isSome then .deny conflict
      else .done (s.onLodge fun b => { b with keyHash := some (sha256 (value rq 0x0100)) }) [] }

/-- Executes LODGE_KEY_ENROL. -/
def execLodgeKeyEnrol (rq : Request) (s : State) : Host.Outcome State Fault Refusal := runCommand opLodgeKeyEnrol rq s

/-- The faults whose cause is absent are cleared; an internal one never is (R362). -/
def clearLodgeFaults (s : State) : State :=
  judgePairs (s.onLodge fun b => { b with
    pair := updAll b.pair fun _ x => if x.faultPresent then x else { x with fault := 0 }
    out := updAll b.out fun _ x => if x.faultPresent then x else { x with fault := 0 }
    stoinFault := b.stoinFault && !(b.stoinLow && b.stoinA == b.stoinB) })

/-- What LODGE_FAULT_CLEAR reports as left. -/
def remainingFaults (b : LodgeBlk) : Nat :=
  bitsOf (fun (k : Fin 8) => b.pair[k].fault != 0) + 256 * bitsOf (fun (n : Fin 4) => b.out[n].fault != 0) +
    4096 * bit b.stoinFault + 32768 * bit (b.st == .safeFault)

/-- LODGE_FAULT_CLEAR. -/
def opLodgeFaultClear : Op :=
  { opcode := 0x0904, target := device, toe := false, states := afterStart, schema := []
    effect := fun _ s =>
      if s.lodge.st = .absent then .deny conflict
      else
        let s1 := clearLodgeFaults s
        .done s1 [(0x0100, be 4 (remainingFaults s1.lodge))] }

/-- Executes LODGE_FAULT_CLEAR. -/
def execLodgeFaultClear (rq : Request) (s : State) : Host.Outcome State Fault Refusal := runCommand opLodgeFaultClear rq s

/-! States. -/

/-- VSAF_LOSS: Lodge is unpowered, every safe output open, STO in force (R45). Of a set being switched to, one complete copy
stays, which one being free (R346); the confirm is not answered. What Lodge had staged is lost (log entry 29). -/
def execVsafLoss (s : State) : Host.Outcome State Fault Refusal :=
  if s.lodge.st = .absent then .next (s.onPower fun p => { p with vsaf := false })
  else
    let r := freshBool s
    let s1 := if s.lodge.st = .switching ∧ r.1 then r.2.onLodge fun b => { b with params := b.switching } else r.2
    let s2 := s1.onPkts fun k => { k with executing := k.executing.filter fun e => e.opcode != 0x0902 }
    let s3 := leaveRun .absent (s2.onPower fun p => { p with vsaf := false })
    .next (refreshMirrors (s3.onLodge fun b => { b with staged := none, switching := none }))

/-- VSAF_RETURN: Lodge enters Start with its set, its fuse and its image, and nothing else of what it held (R345). -/
def execVsafReturn (s : State) : Host.Outcome State Fault Refusal :=
  if s.lodge.st ≠ .absent then .next s
  else
    let s1 := s.onLodge fun b =>
      { params := b.params, keyHash := b.keyHash, zellajo := b.zellajo, version := b.version, temp := b.temp, heartbeat := b.heartbeat, st := .start }
    .next (refreshMirrors (wakes (s1.onPower fun p => { p with vsaf := true })))

/-- LODGE_SELF_TEST_END: Run with a confirmed set, Config without one, Safe-Fault on a failed test (R345). -/
def execLodgeSelfTestEnd (passed : Bool) (s : State) : Host.Outcome State Fault Refusal :=
  if s.lodge.st ≠ .start then .next s
  else if !passed then .next (internalFault 12 s)
  else
    match s.lodge.params with
    | some p => .next (enterRun p s)
    | none => .next (leaveRun .config s)

/-- LODGE_SWITCHING_END: both copies hold the new set, Run is entered and the confirm answered (R346, R361, R364). -/
def execLodgeSwitchingEnd (s : State) : Host.Outcome State Fault Refusal :=
  match s.lodge.st, s.lodge.switching with
  | .switching, some p =>
    .next (finish (fun e => e.opcode == 0x0902) .done [(0x0100, be 1 LodgeState.run.code)] (enterRun p s))
  | _, _ => .next s

/-- LODGE_IMAGE_INSTALLED: Lodge verifies the image handed over against its own copy of the Zellajo key hashes, and installs it or rejects
it; IMAGE_ACTIVATE is answered (R62, R346).
Whether the new image accepts the set's FORMAT is the image's own. -/
def execLodgeImageInstalled (acceptsFormat : Bool) (s : State) : Host.Outcome State Fault Refusal :=
  if !s.boot.activating then .next s
  else
    let p := imagePlace 3 0
    let c := imageCheckBy { s.boot with keyHash := s.lodge.zellajo, keyRevoked := Vector.replicate 4 false, integratorHash := none } 3 p s
    let s1 := s.onBoot fun b => { b with activating := false }
    let mine := fun (e : Exec) => e.opcode == 0x0033 && e.key == 3
    if c ≠ 0 then .next (finishDeny mine (deny .badParam [(0x0004, be 1 c)]) s1)
    else
      let s2 := s1.onLodge fun b => { b with version := imageVersion p.1 (bootFlash s) }
      let s3 := if acceptsFormat || s.lodge.params.isNone then s2
        else leaveRun .config (s2.onLodge fun b => { b with params := none })
      .next (finish mine .done [] s3)

end Sys2Proof.Machine
end

