-- ==== Sys2Proof/Machine/SavedConfig.lean ====
section
/-! DEFINITION.
The configuration store: what CONFIG_SAVE keeps of each block, and how Keeper puts it in force at start (R97, Table 3.3, R311, R417,
R431, R461; log entry 14). For each block one function brings the configuration of one copy into another and leaves positions,
states, flags and tallies of the other alone. -/

namespace Sys2Proof.Machine

/-- Slots: binding and mode; a bound slot is Disabled. -/
def Axis.config (c x : Axis) : Axis := { x with bind := c.bind, mode := c.mode, st := if c.bind.location = 0 then .unbound else .disabled }

/-- Planner groups: definition and queue allocation. -/
def PlanGroup.config (c x : PlanGroup) : PlanGroup :=
  { x with
    defined := c.defined, members := c.members, pathCount := c.pathCount, weights := c.weights, limits := c.limits, quick := c.quick
    profile := c.profile, arcTol := c.arcTol, capacity := c.capacity, storeAt := c.storeAt }

/-- Planner. -/
def Planner.config (c x : Planner) : Planner :=
  { ax := updAll x.ax fun i a => { a with cfg := c.ax[i].cfg }, grp := updAll x.grp fun g a => (c.grp[g]).config a, store := c.store }

/-- Gear and cam links wait to engage again. -/
def GearLink.config (c x : GearLink) : GearLink :=
  { x with
    mode := c.mode, engage := if c.mode = 0 then 0 else 1, mKind := c.mKind, mIndex := c.mIndex, followIndex := c.followIndex
    engagePos := c.engagePos, num := c.num, den := c.den, table := c.table, camAbs := c.camAbs, camScale := c.camScale
    camMaster := c.camMaster, camSlave := c.camSlave }

/-- Gear Unit. -/
def GearUnit.config (c x : GearUnit) : GearUnit :=
  { link := updAll x.link fun i l => (c.link[i]).config l, vm := c.vm, cam := c.cam }

/-- A loop: schedule and region records. -/
def LoopSt.config (c x : LoopSt) : LoopSt :=
  { x with
    n := c.n, integ := c.integ, nRegions := c.nRegions, schedVar := c.schedVar, varPort := c.varPort, absolute := c.absolute
    bounds := c.bounds, hyst := c.hyst, region := c.region }

/-- A slot of the Loop Engine. -/
def LoopSlot.config (c x : LoopSlot) : LoopSlot :=
  { x with
    currentFs := c.currentFs, voltageFs := c.voltageFs, velFs := c.velFs, posFs := c.posFs, inputCal := c.inputCal
    elecCounts := c.elecCounts, motorR := c.motorR, motorLd := c.motorLd, motorLq := c.motorLq, motorPsi := c.motorPsi
    motorSet := c.motorSet, motorOpts := c.motorOpts, modKind := c.modKind, modSet := c.modSet, dcSource := c.dcSource
    dcIndex := c.dcIndex, dcMv := c.dcMv, dtc := c.dtc, folOffset := c.folOffset, folDead := c.folDead, folGain := c.folGain
    folMin := c.folMin, folMax := c.folMax, feWarn := c.feWarn, feLimit := c.feLimit, feCount := c.feCount, kVff := c.kVff
    kAff := c.kAff, obsMin := c.obsMin, obsBw := c.obsBw, startI := c.startI, startMs := c.startMs, startSpeed := c.startSpeed
    lp := updAll x.lp fun k l => (c.lp[k]).config l }

/-- Ports, compare lists, latch and snapshot sources. -/
def PortsBlk.config (c x : PortsBlk) : PortsBlk :=
  { port := updAll x.port fun p y => { y with mode := c.port[p].mode, cfg := c.port[p].cfg }
    cmp := updAll x.cmp fun u y => { y with
      port := c.cmp[u].port, defined := c.cmp[u].defined, length := c.cmp[u].length, entries := c.cmp[u].entries,
      modulo := c.cmp[u].modulo, cyclic := c.cmp[u].cyclic }
    latch := updAll x.latch fun u y => { y with enabled := c.latch[u].enabled, port := c.latch[u].port, src := c.latch[u].src }
    snap := { x.snap with enabled := c.snap.enabled, src := c.snap.src } }

/-- The PERIOD a group was last given: its shadow where that waits. -/
def BtaGroup.setPeriod (g : BtaGroup) : Word := if g.periodWritten then g.period.shadow else g.period.active

/-- A leg group; a free group does not run after a load (log 14). -/
def BtaGroup.config (c x : BtaGroup) : BtaGroup :=
  { x with
    gang := c.gang, strobe := c.strobe, sync := c.sync, unsealLimit := c.unsealLimit, blk := c.blk, blkMask := c.blkMask
    period := { active := c.setPeriod, shadow := c.setPeriod, armed := c.setPeriod }, phase := c.phase, smp := c.smp, extMask := c.extMask, cycMask := c.cycMask, ocKind := c.ocKind, ocInputs := c.ocInputs }

/-- Bridge Timer Array. -/
def BtaBlk.config (c x : BtaBlk) : BtaBlk :=
  { grp := updAll x.grp fun g y => (c.grp[g]).config y
    leg := updAll x.leg fun n y => { y with
      dtR := c.leg[n].dtR, dtF := c.leg[n].dtF, compat := c.leg[n].compat, tripState := c.leg[n].tripState }
    trip := updAll x.trip fun k y => { y with activeHigh := c.trip[k].activeHigh, filter := c.trip[k].filter }
    blank := c.blank
    sdc := c.sdc
    sdi := updAll x.sdi fun k y => { y with
      osr := c.sdi[k].osr, osrOc := c.sdi[k].osrOc, ocCount := c.sdi[k].ocCount, ocLo := c.sdi[k].ocLo, ocHi := c.sdi[k].ocHi,
      enabled := c.sdi[k].enabled }
    bank := updAll x.bank fun k y => { y with high := c.bank[k].high } }

/-- A stepper's settings. -/
def Stepper.config (c x : Stepper) : Stepper :=
  { x with
    opMode := c.opMode, vSw := c.vSw, hyst := c.hyst, iRun := c.iRun, iHold := c.iHold, holdRamp := c.holdRamp
    freewheelDelay := c.freewheelDelay, wakeRamp := c.wakeRamp, freewheelLimit := c.freewheelLimit, holdMemory := c.holdMemory }

/-- A brick's registration. -/
def Brick.config (c x : Brick) : Brick :=
  { x with
    registered := c.registered, port := c.port, hop := c.hop, group := c.group, channels := c.channels, mac := c.mac
    txOffset := c.txOffset, setup := c.setup, residence := c.residence
    chan := updAll x.chan fun k y => { y with
      declared := c.chan[k].declared, currents := c.chan[k].currents, feedback := c.chan[k].feedback,
      canShort := c.chan[k].canShort, dcLink := c.chan[k].dcLink } }

/-- Bricks and frame groups. -/
def BricksBlk.config (c x : BricksBlk) : BricksBlk :=
  { brick := updAll x.brick fun b y => (c.brick[b]).config y
    fg := updAll x.fg fun f y => { y with
      mac := c.fg[f].mac, vlan := c.fg[f].vlan, etherType := c.fg[f].etherType, phase := c.fg[f].phase,
      configured := c.fg[f].configured } }

/-- A switch port. -/
def NetPort.config (c x : NetPort) : NetPort :=
  { x with
    advertise := c.advertise, forced := c.forced, mdi := c.mdi, pvid := c.pvid, pcp := c.pcp, taggedOnly := c.taggedOnly
    tcMode := c.tcMode, twoStep := c.twoStep, rateBase := c.rateBase, asym := c.asym, preMask := c.preMask
    preEnable := c.preEnable }

/-- A time base: its settings; one that follows a domain starts unsynchronised and ACQUIRING (R329). -/
def TimeBase.config (c x : TimeBase) : TimeBase :=
  { x with
    mode := c.mode, st := if c.mode = 1 then 1 else 0, sync := c.mode != 1, follows := c.follows, followOff := c.followOff
    prim := c.prim, sec := c.sec, lockNs := c.lockNs, stepNs := c.stepNs, bw := c.bw, holdSync := c.holdSync, revert := c.revert
    drain := c.drain, pdThresh := c.pdThresh, offThresh := c.offThresh, window := c.window }

/-- A cyclic map's definition; maps start disabled. -/
def CycMap.config (c x : CycMap) : CycMap :=
  { x with
    defined := c.defined, mac := c.mac, vlan := c.vlan, pcp := c.pcp, ports := c.ports, etherType := c.etherType
    period := c.period, off := c.off, launch := c.launch, missLimit := c.missLimit, entries := c.entries }

/-- Backbone and time. -/
def Net.config (c x : Net) : Net :=
  { x with
    port := updAll x.port fun p y => (c.port[p]).config y
    cbs := updAll x.cbs fun k y => { y with cls := c.cbs[k].cls, idleSlope := c.cbs[k].idleSlope }
    gates := updAll x.gates fun p y => { y with active := c.gates[p].active }
    vlans := c.vlans, fdbStatic := c.fdbStatic, age := c.age, ip := c.ip, prefixLen := c.prefixLen, gateway := c.gateway
    udpPort := c.udpPort, mgmtVid := c.mgmtVid
    ptp := updAll x.ptp fun k y => { y with
      domain := c.ptp[k].domain, ports := c.ptp[k].ports, logSync := c.ptp[k].logSync, logPdelay := c.ptp[k].logPdelay,
      gmCapable := c.ptp[k].gmCapable, prio1 := c.ptp[k].prio1, prio2 := c.ptp[k].prio2, gmBase := c.ptp[k].gmBase }
    tb := updAll x.tb fun b y => (c.tb[b]).config y
    map := updAll x.map fun k y => (c.map[k]).config y }

/-- Field I/O: the running configuration of every group. -/
def FioBlk.config (c x : FioBlk) : FioBlk :=
  { x with cfgIn := c.cfgIn, cfgOut := c.cfgOut, cfgAuto := c.cfgAuto, cfgRestore := c.cfgRestore }

/-- CAN controllers: configuration, filters, matrix, detection. -/
def CanBlk.config (c x : CanBlk) : CanBlk :=
  { ctl := updAll x.ctl fun k y => { y with
      cfg := c.ctl[k].cfg, filters := c.ctl[k].filters, filterCount := c.ctl[k].filterCount, tt := c.ctl[k].tt,
      cands := c.ctl[k].cands, dwell := c.ctl[k].dwell, rounds := c.ctl[k].rounds } }

/-- Belvedere: channels, pins, triggers, envelopes, capture settings (R431). -/
def AcqBlk.config (c x : AcqBlk) : AcqBlk :=
  { x with
    chan := updAll x.chan fun k y => { y with
      code := c.chan[k].code, index := c.chan[k].index, shift := c.chan[k].shift, change := c.chan[k].change,
      addr := c.chan[k].addr, clkPeriod := c.chan[k].clkPeriod, slot := c.chan[k].slot, loop := c.chan[k].loop,
      period := c.chan[k].period, deadband := c.chan[k].deadband }
    pinEn := c.pinEn, pinStore := c.pinStore, pinDiv := c.pinDiv, deskew := c.deskew, trig := c.trig, env := c.env
    segments := c.segments, repeatMode := c.repeatMode, overwrite := c.overwrite, prefill := c.prefill
    armAtStart := c.armAtStart, mask := c.mask, holdKind := c.holdKind, pre := c.pre, post32 := c.post32, holdoff := c.holdoff }

/-- A thread slot's definition and enable. -/
def Thread.config (c x : Thread) : Thread :=
  { x with
    defined := c.defined, enabled := c.enabled, lane := c.lane, level := c.level, preemptive := c.preemptive
    satStart := c.satStart, entry := c.entry, reload := c.reload, sources := c.sources, budget := c.budget }

/-- Dispatcher and lanes: plug-in entries, threads, timers, stall limits (R461). -/
def LanesBlk.config (c x : LanesBlk) : LanesBlk :=
  { x with
    thr := updAll x.thr fun t y => (c.thr[t]).config y
    tmr := updAll x.tmr fun k y => { y with kind := c.tmr[k].kind, period := c.tmr[k].period, phase := c.tmr[k].phase }
    lane := updAll x.lane fun l y => { y with entry := c.lane[l].entry }
    spt := updAll x.spt fun i y => { y with stallLimit := c.spt[i].stallLimit } }

/-! Saving. -/

/-- The present configuration, with everything that is no configuration at its reset value. -/
def savedConfig (seq : Nat) (auto : Bool) (s : State) : Saved :=
  { seq := seq, autostart := auto
    tolMotion := s.power.tolMotion, tolNetwork := s.power.tolNetwork, tolHost := s.power.tolHost, opLimit := s.power.opLimit
    banded := s.power.banded, restPermitted := s.power.restPermitted, policy := s.pkts.policy, policyHost := s.pkts.policyHost
    axis := updAll (Vector.replicate 64 {}) fun i x => (s.axis[i]).config x
    plan := s.plan.config {}
    gear := s.gear.config {}
    loop := { slot := updAll (Vector.replicate 64 {}) fun i x => (s.loop.slot[i]).config x }
    ports := s.ports.config {}
    bta := s.bta.config {}
    stepper := { slot := updAll (Vector.replicate 64 {}) fun i x => (s.stepper.slot[i]).config x }
    bricks := s.bricks.config {}
    net := s.net.config {}
    fio := s.fio.config {}
    can := s.can.config {}
    serial := (s.serial.sel.map (·.profile)).toList
    acq := s.acq.config {}
    lanes := s.lanes.config {} }

/-- The newer of the two copies: the one of the higher sequence. -/
def newerCopy (b : Store) : Option Saved :=
  match b.copyA, b.copyB with
  | some a, some c => some (if a.seq < c.seq then c else a)
  | some a, none => some a
  | none, c => c

/-- Write the older copy: an empty one first, else the one of the lower sequence (R97). -/
def Store.save (mk : Nat → Saved) (b : Store) : Store :=
  let n := ((newerCopy b).map (·.seq)).getD 0 + 1
  match b.copyA, b.copyB with
  | none, _ => { b with copyA := some (mk n) }
  | some _, none => { b with copyB := some (mk n) }
  | some a, some c => if a.seq ≤ c.seq then { b with copyA := some (mk n) } else { b with copyB := some (mk n) }

/-- CONFIG_SAVE (R97): answered at once; the 2 s are a limit (log entry 14). -/
def opConfigSave : Op :=
  { opcode := 0x0042, target := device, toe := false, states := [.commissioning], schema := [fixed 0x0100 1]
    values := fun rq _ => firstDeny [(decide (1 < num rq 0x0100 0 1), badValue rq 0x0100)]
    effect := fun rq s =>
      let r := fresh s
      let mk := fun (n : Nat) => { savedConfig n (num rq 0x0100 0 1 == 1) s with mark := r.1 }
      .done (dropLines 0 0x1550000 0x100000 { r.2 with store := s.store.save mk }) [] }

/-- Executes CONFIG_SAVE. -/
def execConfigSave (rq : Request) (s : State) : Host.Outcome State Fault Refusal := runCommand opConfigSave rq s

/-! Loading. -/

/-- Bound slots take their groups and ports again; field groups and CAN controllers start with their settings. -/
def installConfig (s : State) : State :=
  let s1 := (List.finRange 64).foldl (fun s i => if s.axis[i].bind.location = 0 then s else installSlot i [] s) s
  let s2 := (List.finRange 4).foldl (fun s g => if s.fio.grp[g].powered then loadFio g s else s) s1
  s2.onCan fun b => { b with ctl := updAll b.ctl fun _ y => { y with dwellAt := s.now } }

/-- The state with the settings of a copy in place of its own. -/
def loadedConfig (c : Saved) (s : State) : State :=
  let prof := fun (k : Nat) (old : Option Profile) => if k = 0 then old else c.serial.getD k none
  { s with
    power := { s.power with
      tolMotion := c.tolMotion, tolNetwork := c.tolNetwork, tolHost := c.tolHost, opLimit := c.opLimit, banded := c.banded,
      restPermitted := c.restPermitted }
    pkts := { s.pkts with policy := c.policy, policyHost := c.policyHost }
    sys := { s.sys with autostartDue := c.autostart }
    axis := updAll s.axis fun i x => (c.axis[i]).config x
    plan := c.plan.config s.plan
    gear := c.gear.config s.gear
    loop := { s.loop with slot := updAll s.loop.slot fun i x => (c.loop.slot[i]).config x }
    ports := c.ports.config s.ports
    bta := c.bta.config s.bta
    stepper := { s.stepper with slot := updAll s.stepper.slot fun i x => (c.stepper.slot[i]).config x }
    bricks := c.bricks.config s.bricks
    net := c.net.config s.net
    fio := c.fio.config s.fio
    can := c.can.config s.can
    serial := { s.serial with sel := updAll s.serial.sel fun k x => { x with profile := prof k.val x.profile } }
    acq := c.acq.config s.acq }

/-- Keeper loads a copy; thread definitions wait for Gardener (GARDENER_READY). -/
def loadConfig (c : Saved) (s : State) : State := installConfig (loadedConfig c s)

end Sys2Proof.Machine
end

