-- ==== Sys2Proof/Machine/SpmOps.lean ====
section
/-! DEFINITION.
The serial-port class of opcodes (R412, R413, 18). -/

namespace Sys2Proof.Machine

/-- The states of Table 18.7 that serve flash work. -/
def flashStates : List DevState := [.commissioning, .operational, .test]

/-- A device that is busy or has writes pending. -/
def spmBusy (p : Fin 4) (s : State) : Bool := s.serial.sel[p].opBusy || s.serial.sel[p].page.isSome

/-- SPM_PROFILE_SET: without PROFILE the profile is released (R400, R413). -/
def opSpmProfileSet : Op :=
  { opcode := 0x0C00, target := below 4, toe := false, states := [.commissioning], schema := [optional 0x0100 40]
    values := fun rq s =>
      let b := value rq 0x0100
      firstDeny [(has rq 0x0100 && (!profileOk b || windowClash (tgt 4 rq) (profileOf b) s) && rq.target != 0, badValue rq 0x0100)]
    effect := fun rq s =>
      let p := tgt 4 rq
      if p = 0 then .deny (deny .denied)
      else if spmBusy p s then .deny (deny .busy)
      else .done (onSpm p (fun x => { x with profile := if has rq 0x0100 then some (profileOf (value rq 0x0100)) else none }) s) [] }

/-- Executes SPM_PROFILE_SET. -/
def execSpmProfileSet (rq : Request) (s : State) : Host.Outcome State Fault Refusal := runCommand opSpmProfileSet rq s

/-- What SPM_DISCOVER returns: on select 0 the profile in force, else the fastest its SFDP declares (R413, R488). -/
def discovered (p : Fin 4) (s : State) : List Byte :=
  let x := s.serial.sel[p]
  ((if p = 0 then x.profile else none).getD (declared x s.sys.free)).bytes

/-- SPM_DISCOVER (R413). -/
def opSpmDiscover : Op :=
  { opcode := 0x0C01, target := below 4, toe := false, states := flashStates, schema := []
    effect := fun rq s =>
      let x := s.serial.sel[tgt 4 rq]
      if !x.present then .deny (deny .badTarget)
      else if x.sfdp = [] then .deny conflict
      else .done (fresh s).2 [(0x0100, discovered (tgt 4 rq) s), (0x0101, x.sfdp.take 1024)] }

/-- Executes SPM_DISCOVER. -/
def execSpmDiscover (rq : Request) (s : State) : Host.Outcome State Fault Refusal := runCommand opSpmDiscover rq s

/-- First device offset and length of an erase. -/
def eraseSpan (rq : Request) (r : Profile) : Nat × Nat := (num rq 0x0100 0 4, num rq 0x0101 0 2 * 2 ^ r.sectorLog2)

/-- SPM_ERASE: replies when the device is no longer busy (R413). -/
def opSpmErase : Op :=
  { opcode := 0x0C02, target := below 4, toe := false, states := flashStates, schema := [fixed 0x0100 4, fixed 0x0101 2]
    values := fun rq s =>
      let c := num rq 0x0101 0 2
      match s.serial.sel[tgt 4 rq].profile with
      | none => firstDeny [(!within 1 1024 c, badValue rq 0x0101)]
      | some r =>
        let e := eraseSpan rq r
        firstDeny [(!within 1 1024 c, badValue rq 0x0101), (e.1 % 2 ^ r.sectorLog2 != 0 || decide (r.size < e.1 + e.2), badValue rq 0x0100)]
    effect := fun rq s =>
      let p := tgt 4 rq
      match s.serial.sel[p].profile with
      | none => .deny conflict
      | some r =>
        let e := eraseSpan rq r
        if keeperRegion p e.1 then .deny (deny .denied)
        else if spmBusy p s then .deny (deny .busy)
        else .wait (onSpm p (fun x => { x with opBusy := true, opErase := true, opStart := s.now, opPoll := s.now, opRange := e }) (dropLines p e.1 e.2 s))
          p.val [] }

/-- Executes SPM_ERASE. -/
def execSpmErase (rq : Request) (s : State) : Host.Outcome State Fault Refusal := runCommand opSpmErase rq s

/-- SPM_FLUSH: replies when the device is no longer busy; at once when nothing is buffered and the device is idle (R402, R413). -/
def opSpmFlush : Op :=
  { opcode := 0x0C03, target := below 4, toe := false, states := flashStates, schema := []
    effect := fun rq s =>
      let p := tgt 4 rq
      let s1 := onSpm p (fun x => { x with verifyHit := false }) s
      if spmBusy p s then .wait (flushPage p s1) p.val [] else .done s1 [(0x0100, be 1 0)] }

/-- Executes SPM_FLUSH. -/
def execSpmFlush (rq : Request) (s : State) : Host.Outcome State Fault Refusal := runCommand opSpmFlush rq s

/-- SPM_STATUS_READ. -/
def opSpmStatusRead : Op :=
  { opcode := 0x0C04, target := below 4, toe := false, states := afterStart, schema := []
    effect := fun rq s =>
      let x := s.serial.sel[tgt 4 rq]
      .done s [(0x0100, be 4 (spmStatus (tgt 4 rq) s).toNat), (0x0101, be 8 x.pages.toNat ++ be 8 x.sectors.toNat)] }

/-- Executes SPM_STATUS_READ. -/
def execSpmStatusRead (rq : Request) (s : State) : Host.Outcome State Fault Refusal := runCommand opSpmStatusRead rq s

/-- SPH_STATUS_READ. -/
def opSphStatusRead : Op :=
  { opcode := 0x0C10, target := device, toe := false, states := afterStart, schema := []
    effect := fun _ s =>
      .done s [(0x0100, be 4 (sphStatus s).toNat), (0x0101, s.serial.cnt.toList.flatMap fun v => be 8 v.toNat)] }

/-- Executes SPH_STATUS_READ. -/
def execSphStatusRead (rq : Request) (s : State) : Host.Outcome State Fault Refusal := runCommand opSphStatusRead rq s

end Sys2Proof.Machine
end

