-- ==== Sys2Proof/Machine/OpTable.lean ====
section
/-! DEFINITION.
The opcodes of Table 4.9, by class, and what finds one by its number (R95, R96). -/

namespace Sys2Proof.Machine

/-- System opcodes. -/
def opsSystem : List Op :=
  [opPing, opGetInfo, opCancel, opSetLatencyTolerance, opGetOperatingPoint, opSetWakeTimer, opIdentityRead, opImageBegin,
   opImageData, opImageCommit, opImageActivate, opImageConfirm, opImageRollback, opSetState, opReset, opConfigSave,
   opAuthKeySet, opAuthPolicySet, opCyclicMapDefine, opCyclicMapEnable, opCyclicMapStatus]

/-- Axis opcodes. -/
def opsAxis : List Op :=
  [opAxisBind, opAxisSetMode, opAxisEnable, opAxisDisable, opAxisStatus]

/-- Planner, gear and cam opcodes. -/
def opsMotion : List Op :=
  [opMoveAbs, opMoveRel, opJog, opStop, opSegmentAppend, opPlanAxisConfig, opGroupDefine, opGroupStart, opGroupResume,
   opGroupClear, opGroupStatus, opStoreStatus, opOverrideSet, opGearLink, opGearRatioAt, opGearClearPending, opCamDefine,
   opCamData, opCamCommit, opVmasterSet, opGearStatusRead]

/-- Loop opcodes. -/
def opsLoop : List Op :=
  [opLoopLoadCascade, opLoopSchedule, opLoopScales, opLoopMotor, opLoopModulation, opLoopFollow, opLoopLimits,
   opLoopObserver, opLoopRead, opLoopStatusRead]

/-- Port opcodes. -/
def opsPort : List Op :=
  [opPpConfig, opPpSetPosition, opPpIndexConfig, opPpSpeedConfig, opPpLossConfig, opPpStatusRead, opCompareDefine,
   opCompareData, opCompareArm, opCompareForce, opLatchConfig, opLatchRead, opSnapshotConfig, opSnapshotRead,
   opSnapshotTrigger]

/-- BTA opcodes. -/
def opsBta : List Op :=
  [opBtaGroupConfig, opBtaLegConfig, opBtaTripConfig, opBtaTripClear, opBtaBlankConfig, opBtaTripInputConfig,
   opBtaSdcConfig, opBtaSdiConfig, opBtaDutySet, opBtaBankLevel, opBtaStatusRead]

/-- Stepper opcodes. -/
def opsStepper : List Op :=
  [opStepperConfig, opStepperStatusRead, opStepperSetPosition]

/-- Brick opcodes. -/
def opsBrick : List Op :=
  [opBrickRegister, opFrameGroupConfig, opBrickStatus]

/-- Backbone and time opcodes. -/
def opsNet : List Op :=
  [opNetAddrConfig, opPortConfig, opVlanConfig, opFdbStatic, opGateListSet, opCbsConfig, opPortStatusRead, opPtpConfig,
   opPtpStatus, opTimebaseConfig, opTimebaseSet, opTimebaseStatus, opDomainTrust, opTsoConfig, opTsoStatusRead]

/-- Lodge opcodes. -/
def opsLodge : List Op :=
  [opLodgeRead, opLodgeParamStage, opLodgeParamConfirm, opLodgeKeyEnrol, opLodgeFaultClear]

/-- Field I/O opcodes. -/
def opsFio : List Op :=
  [opFioGroupConfig, opFioInputConfig, opFioOutputConfig, opFioOutputSet, opFioRead, opFioClear]

/-- CAN opcodes. -/
def opsCan : List Op :=
  [opCanConfig, opCanFilterSet, opCanTtConfig, opCanTtBufferSet, opCanTx, opCanRxRead, opCanStatusRead, opCanBitrateDetect,
   opCanBusRecover]

/-- Serial opcodes. -/
def opsSerial : List Op :=
  [opSpmProfileSet, opSpmDiscover, opSpmErase, opSpmFlush, opSpmStatusRead, opSphStatusRead]

/-- Acquisition opcodes. -/
def opsAcq : List Op :=
  [opAcqChannelConfig, opAcqPinConfig, opAcqTriggerConfig, opAcqEnvelopeSet, opAcqCaptureConfig, opAcqArm, opAcqStop,
   opAcqForce, opAcqRead, opAcqStatusRead, opAcqCalibrate]

/-- Dispatcher and lane opcodes. -/
def opsLane : List Op :=
  [opPluginLoad, opThreadDefine, opThreadEnable, opThreadSignal, opThreadTimerConfig, opPluginPortConfig,
   opThreadStatusRead, opLaneStatusRead, opLaneKeyEnrol]

/-- Tally and fault opcodes. -/
def opsTally : List Op :=
  [opTallyRead, opFaultRead, opFaultAck, opEventRead]

/-- Every opcode (R95). -/
def opTable : List Op :=
  opsSystem ++ opsAxis ++ opsMotion ++ opsLoop ++ opsPort ++ opsBta ++ opsStepper ++ opsBrick ++
    opsNet ++ opsLodge ++ opsFio ++ opsCan ++ opsSerial ++ opsAcq ++ opsLane ++ opsTally

/-- The opcode of a number (step 6). -/
def opOfCode (n : Nat) : Option Op := opTable.find? fun o => o.opcode == n

end Sys2Proof.Machine
end

