-- ==== Sys2Proof/Machine/Packets.lean ====
section
/-! DEFINITION.
Ruhity packets from their bytes to their effect: steps 1 to 6 of Table 4.5, sequence windows, late effects and delayed replies
(R68 to R88, 04). -/

namespace Sys2Proof.Machine

/-! The header (Table 4.1). -/

/-- A big-endian field of a packet. -/
def pktField (p : List Byte) (off n : Nat) : Nat := beNat (slice off n p)

/-- A flag of a packet (Table 4.2). -/
def pktFlag (p : List Byte) (k : Nat) : Bool := hasBit (pktField p 3 1) k

/-- Bytes a packet should have by its header: 24, its parameters, and 16 with AUTH (step 3). -/
def pktLength (p : List Byte) : Nat := 24 + pktField p 12 2 + (if pktFlag p 0 then 16 else 0)

/-- The request a packet carries. -/
def requestOf (src : Source) (arrival : Nat) (authed : Bool) (p : List Byte) : Request :=
  { src := src, flags := BitVec.ofNat 8 (pktField p 3 1), seq := BitVec.ofNat 32 (pktField p 4 4),
    target := BitVec.ofNat 16 (pktField p 10 2), tag := BitVec.ofNat 16 (pktField p 14 2),
    toe := BitVec.ofNat 64 (pktField p 16 8), params := slice 24 (pktField p 12 2) p, arrival := arrival, authed := authed }

/-! Authentication (R86, R88). -/

/-- The tag verifies under the key slot KEY names. -/
def tagOk (p : List Byte) (s : State) : Bool :=
  match s.pkts.keys[Fin.ofNat 4 (pktField p 3 1 / 64)] with
  | some k => (hmac k (p.take (p.length - 16))).take 16 == p.drop (p.length - 16)
  | none => false

/-- An authenticated RESYNC carries the device's current challenge. -/
def challengeOk (p : List Byte) (s : State) : Bool :=
  !pktFlag p 3 || value (requestOf .hostPort 0 true p) 0x0010 == be 8 s.pkts.challenge.toNat

/-! The sequence window (R78, R79). -/

/-- What step 5 decides. -/
inductive WindowVerdict
  /-- Process it: its sequence has been marked. -/
  | proceed (s : State)
  /-- A duplicate: resend its reply, or hold it. -/
  | duplicate (reply : Option (List Byte))
  /-- Refused, in no window. -/
  | refuse (d : Deny)

/-- A source's window. -/
def windowOf (src : Source) (s : State) : Option Window := s.pkts.windows.find? fun w => w.src == src

/-- Open a window for a source: the first packet sets h; it is marked under a new number (R79). -/
def openWindow (src : Source) (seq : BitVec 32) (s : State) : Window × State :=
  ({ src := src, h := seq }, s.onPkts fun k => { k with epoch := k.epoch + 1 })

/-- Number of a source's window, as its sequences carry it. -/
def epochOf (src : Source) (s : State) : Nat :=
  ((windowOf src s).bind fun w => w.seen.getLast?.map (·.epoch)).getD s.pkts.epoch

/-- Put a source's window in place of its old one. -/
def putWindow (w : Window) (s : State) : State :=
  s.onPkts fun k => { k with windows := k.windows.filter (fun x => x.src != w.src) ++ [w] }

/-- The UDP source that has been silent longest. -/
def silentLongest : List Window → Option Window
  | [] => none
  | w :: l =>
    match silentLongest l with
    | some v => if w.last ≤ v.last then some w else some v
    | none => some w

/-- Room for a new source: 16 UDP sources, or one silent for at least 10 s to give way (R79). -/
def makeRoom (src : Source) (s : State) : Option State :=
  let udp := s.pkts.windows.filter fun w => w.src != .hostPort
  if src = .hostPort ∨ udp.length < 16 then some s
  else
    match silentLongest udp with
    | some w =>
      if w.last + 5000000000 ≤ s.now then some (s.onPkts fun k => { k with windows := k.windows.filter fun x => x.src != w.src })
      else none
    | none => some s

/-- A sequence is newer than h in 32-bit serial arithmetic (R78). -/
def newer (seq h : BitVec 32) : Bool := decide (1 ≤ (seq - h).toNat) && decide ((seq - h).toNat ≤ 2 ^ 31 - 1)

/-- Mark a sequence seen; entries more than 63 below h leave the window. -/
def Window.mark (rq : Request) (opcode now epoch : Nat) (w : Window) : Window :=
  let h := if newer rq.seq w.h then rq.seq else w.h
  { w with
    last := now, h := h,
    seen := (w.seen.filter fun e => decide ((h - e.seq).toNat ≤ 63)) ++ [{ seq := rq.seq, opcode := opcode, tag := rq.tag, epoch := epoch }] }

/-- Step 5 of Table 4.5. -/
def windowCheck (rq : Request) (opcode : Nat) (s : State) : WindowVerdict :=
  match windowOf rq.src s with
  | none =>
    match makeRoom rq.src s with
    | some t =>
      let r := openWindow rq.src rq.seq t
      .proceed (putWindow (r.1.mark rq opcode s.now r.2.pkts.epoch) r.2)
    | none => .refuse (deny .resource)
  | some w =>
    if rq.flags.getLsbD 3 then
      let r := openWindow rq.src rq.seq s
      .proceed (putWindow (r.1.mark rq opcode s.now r.2.pkts.epoch) r.2)
    else if !newer rq.seq w.h && decide (63 < (w.h - rq.seq).toNat) then .refuse (denyAt .stateConflict 4 0 2)
    else
      match w.seen.find? fun e => e.seq == rq.seq with
      | none => .proceed (putWindow (w.mark rq opcode s.now (epochOf rq.src s)) s)
      | some e =>
        if e.opcode = opcode ∧ e.tag = rq.tag then .duplicate e.reply else .refuse (denyAt .stateConflict 4 0 1)

/-- The source has sent a packet (R79). -/
def heardFrom (src : Source) (s : State) : State :=
  s.onPkts fun k => { k with windows := k.windows.map fun w => if w.src = src then { w with last := s.now } else w }

/-- A cached reply of status DONE or ACCEPTED. -/
def goodReply (p : List Byte) : Bool := pktField p 24 2 == 0 || pktField p 24 2 == 1

/-- Answer a duplicate: the cached reply with REPEATED set, or hold it until there is one (R78). NOREPLY suppresses a DONE or
ACCEPTED here too. -/
def answerDuplicate (rq : Request) (reply : Option (List Byte)) (s : State) : State :=
  match reply with
  | some p => if rq.flags.getLsbD 2 && goodReply p then s else emit rq.src (repeated p) s
  | none => s.onPkts fun k => { k with
      held := k.held ++ [{ src := rq.src, seq := rq.seq, epoch := epochOf rq.src s, quiet := rq.flags.getLsbD 2 }] }

/-! Steps 1 to 6 (R77). -/

/-- Count a drop by reason (R76). -/
def dropped (f : Packets → Packets) (s : State) : State := s.onPkts f

/-- From step 5 on: the packet's tag has verified, or it carried none. -/
def acceptPacket (rq : Request) (opcode : Nat) (s : State) : State :=
  match windowCheck rq opcode s with
  | .refuse d => refusePlain opcode 1 rq d (heardFrom rq.src s)
  | .duplicate r => answerDuplicate rq r (heardFrom rq.src s)
  | .proceed t =>
    let t1 := if rq.authed && rq.flags.getLsbD 3 then
        (freshNat t).2.onPkts fun k => { k with challenge := BitVec.ofNat 64 (freshNat t).1 }
      else t
    let own := { rq with epoch := epochOf rq.src t }
    match opOfCode opcode with
    | some o => runOp o own t1
    | none => sendReply opcode own .badOpcode (denyAt .badOpcode 8 0 (Config.openDetail 0x0100 2)).tlvs false t1

/-- A packet that has arrived: dropped and counted, or checked step by step (R76, R77). -/
def takePacket (src : Source) (broadcast : Bool) (arrival : Nat) (p : List Byte) (s : State) : State :=
  let opcode := pktField p 8 2
  let plain := requestOf src arrival false p
  if lockedOut src s then dropped (fun k => { k with dropLockout := bump k.dropLockout 1 }) s
  else if p.length < 24 then dropped (fun k => { k with dropShort := bump k.dropShort 1 }) s
  else if pktField p 0 2 ≠ 0x4B5A then dropped (fun k => { k with dropMagic := bump k.dropMagic 1 }) s
  else if pktFlag p 1 then dropped (fun k => { k with dropReply := bump k.dropReply 1 }) s
  else if broadcast ∧ opcode ≠ 0x0001 ∧ opcode ≠ 0x0002 then dropped (fun k => { k with dropBroadcast := bump k.dropBroadcast 1 }) s
  else if pktField p 2 1 ≠ 1 then refusePlain opcode (pktField p 2 1) plain (denyAt .badParam 2 0 12) s
  else if pktField p 12 2 > 1432 ∨ pktLength p ≠ p.length then refusePlain opcode 1 plain (denyAt .badLength 12 0 11) s
  else if pktFlag p 0 then
    if tagOk p s && challengeOk p s then acceptPacket (requestOf src arrival true p) opcode s
    else refusePlain opcode 1 plain authFail s
  else acceptPacket plain opcode s

/-- The reply to a broadcast waits for its delay, drawn from 0 to 10 ms (R75). -/
def delayed (f : State → State) (s : State) : State :=
  let n := s.pkts.udpOut.length
  let r := freshNat (f s)
  let at0 := s.now + r.1 % 5000001
  r.2.onPkts fun k => { k with
    udpOut := k.udpOut.take n, bcast := k.bcast ++ (k.udpOut.drop n).map fun e => { e with due := at0 } }

/-- A datagram is checked: fragments and bad checksums go first (R70, R75, R76). -/
def takeDatagram (d : HeldDatagram) (s : State) : State :=
  if d.fragment then dropped (fun k => { k with dropFragment := bump k.dropFragment 1 }) s
  else if !d.checksumOk then dropped (fun k => { k with dropChecksum := bump k.dropChecksum 1 }) s
  else if d.broadcast then delayed (takePacket d.src true d.arrived d.bytes) s
  else takePacket d.src false d.arrived d.bytes s

/-- Datagrams held during a wake or a restart of Gardener are taken in order (R34, R61). -/
def takeHeldUdp (s : State) : State :=
  s.pkts.heldUdp.foldl (fun s d => takeDatagram d s) (s.onPkts fun k => { k with heldUdp := [] })

/-! The commands. -/

/-- Ruhity packets are served: after Startup while Gardener runs, or by a loader (R58). -/
def ruhityServed (s : State) : Bool := (afterStartup s && s.boot.gardenerRuns) || halted s

/-- RUHITY_DATAGRAM. The backbone carries none before Gardener has started the switch or while the ROM has halted (R57, R58); one
that finds the device in Nap or Rest wakes it and is processed after the wake (R34). -/
def execRuhityDatagram (src : Source) (broadcast fragment checksumOk : Bool) (bytes : List Byte) (s : State) :
    Host.Outcome State Fault Refusal :=
  if s.power.refLost then .next s else
  let d : HeldDatagram :=
    { src := src, broadcast := broadcast, fragment := fragment, checksumOk := checksumOk, bytes := bytes, arrived := s.wall }
  .next (
    if src = .hostPort then s
    else if s.sys.dev = .reset ∨ (s.sys.dev = .startup ∧ !(halted s ∧ s.boot.haltCause = 3)) then s
    else if asleep s then
      if broadcast ∧ s.power.power = .rest then s
      else
        (if broadcast then s else selectWake s).onPkts fun k => { k with heldUdp := k.heldUdp ++ [d] }
    else if !ruhityServed s then s.onPkts fun k => { k with heldUdp := k.heldUdp ++ [d] }
    else takeDatagram d s)

/-- INBOX_TAKE: the oldest packet, once the outbox has room (R75); held frames then find a place (R495). -/
def execInboxTake (s : State) : Host.Outcome State Fault Refusal :=
  .next (
    match s.pkts.inbox with
    | [] => s
    | (t, p) :: l =>
      if !ruhityServed s ∨ asleep s ∨ 16 ≤ s.pkts.outbox.length then s
      else
        let s1 := s.onPkts fun k => { k with inbox := l }
        takePacket .hostPort false t p (if s.serial.held = [] then s1 else commitHeld s.serial.held s1))

/-- The waiting broadcast reply whose delay ends first; of equal ones the one drawn first. -/
def firstBroadcast : List UdpReply → Option UdpReply
  | [] => none
  | e :: l =>
    match firstBroadcast l with
    | some d => if d.due < e.due then some d else some e
    | none => some e

/-- BROADCAST_REPLY: the delay of a waiting reply is over, and it is sent (R75). -/
def execBroadcastReply (s : State) : Host.Outcome State Fault Refusal :=
  if !tbRuns s then .next s else
  .next (
    match firstBroadcast s.pkts.bcast with
    | none => s
    | some e =>
      if s.now < e.due then s
      else s.onPkts fun k => { k with udpOut := k.udpOut ++ [e], bcast := k.bcast.erase e })

/-- The pending command of a handle. -/
def pendingOf (handle : Nat) (s : State) : Option Pending := s.pkts.pending.find? fun p => p.handle == handle

/-- Strike a pending command; one that ended without effect is remembered as gone (R85). -/
def strike (handle : Nat) (gone : Bool) (s : State) : State :=
  s.onPkts fun k => { k with
    pending := k.pending.filter (fun p => p.handle != handle), gone := if gone then handle :: k.gone else k.gone }

/-- Another command with the same time-of-effect arrived earlier and is not committed yet; of two that arrived at the same instant the
one accepted first goes first (R82). -/
def earlierDue (p : Pending) (s : State) : Bool :=
  let same := fun (q : Pending) => q.rq.toe == p.rq.toe && !q.committed
  s.pkts.pending.any (fun q => same q && decide (q.rq.arrival < p.rq.arrival)) ||
  (s.pkts.pending.takeWhile fun q => q.handle != p.handle).any fun q => same q && q.rq.arrival == p.rq.arrival

/-- PENDING_COMMIT at t_e − 20 µs: the step-13 checks again (R82). A check that fails ends the command with a deferred refusal. -/
def execPendingCommit (handle : Nat) (s : State) : Host.Outcome State Fault Refusal :=
  .next (
    match pendingOf handle s with
    | none => s
    | some p =>
      if p.committed ∨ s.tb0 + 20000 < p.rq.toe.toNat ∨ earlierDue p s ∨ s.power.power = .rest then s
      else
        match opOfCode p.opcode with
        | none => s
        | some o =>
          match o.outcome p.rq s with
          | .deny d => sendReply p.opcode p.rq d.status d.tlvs true (strike handle true s)
          | .fail t ⟨.denied, l⟩ => sendReply p.opcode p.rq .denied l true (strike handle true t)
          | _ => s.onPkts fun k => { k with
              pending := k.pending.map fun q => if q.handle = handle then
                { q with committed := true, mark := (s.gear.link[tgt 64 p.rq]).appended } else q })

/-- DEFERRED_EFFECT at or after t_e: the committed command takes effect, and the deferred reply follows when it is complete (R83). -/
def execDeferredEffect (handle : Nat) (s : State) : Host.Outcome State Fault Refusal :=
  .next (
    match pendingOf handle s with
    | none => s
    | some p =>
      if !p.committed ∨ s.tb0 < p.rq.toe.toNat ∨ s.power.power = .rest ∨ targetBusy p.opcode p.rq s then s
      else
        match opOfCode p.opcode with
        | none => s
        | some o =>
          let s0 := strike handle false s
          let s1 := if p.opcode = 0x0282 then onLink (tgt 64 p.rq) (fun l => { l with clearTo := some p.mark }) s0 else s0
          conclude o p.rq true (o.outcome p.rq s1) s1)

/-! Commands that wait for their target (R80). -/

/-- The first waiting command whose target is free and before which none of its source or target waits, and the others. -/
def runnable (s : State) : List (Nat × Request) → List (Nat × Request) → Option ((Nat × Request) × List (Nat × Request))
  | _, [] => none
  | before, e :: l =>
    if targetBusy e.1 e.2 s || before.any (waitsBehind e.1 e.2) then runnable s (before ++ [e]) l else some (e, before ++ l)

/-- Run it. -/
def serveBlocked (s : State) : State :=
  match runnable s [] s.pkts.blocked with
  | none => s
  | some (e, l) =>
    let s1 := s.onPkts fun k => { k with blocked := l }
    match opOfCode e.1 with
    | some o => runNow o e.2 s1
    | none => s1

end Sys2Proof.Machine
end

