-- ==== Sys2Proof/Machine/PlannerEvents.lean ====
section
/-! DEFINITION.
When a planner boundary falls, and PLANNER_BOUNDARY (R142, R143, R155, 07). -/

namespace Sys2Proof.Machine

/-- The number, from 0, of the outermost-loop sample that falls at this instant, counted from Enabling. -/
def outerIndex (i : Fin 64) (s : State) : Nat :=
  let d := max ((s.axis[i].mode.map fun m => loopDiv m (outerLoop m.depth)).getD 1) 1
  let n := s.loop.slot[i].samples
  (if innerTaken i s then n - 1 else n) / d

/-- Planner divider of an axis. -/
def planDivider (i : Fin 64) (s : State) : Nat := max ((s.plan.ax[i].cfg.map (·.divider)).getD 1) 1

/-- This is a planner boundary of an Enabled axis, still to be taken: every divider-th outermost-loop sample, from its phase on (R142,
R155). -/
def boundaryDue (i : Fin 64) (s : State) : Bool :=
  s.axis[i].st == .enabled && outerNow i s && (outerIndex i s + planDivider i s - s.plan.ax[i].phase % planDivider i s) % planDivider i s == 0 &&
  s.plan.ax[i].boundary != sampleTick i s

/-- A group's boundary, still to be taken: that of a member in service. The first is the first shared sample at least 62.5 µs after GROUP_START
took effect (R155). A group without a member in service goes on at once. -/
def groupDue (g : Fin 16) (s : State) : Bool :=
  let x := s.plan.grp[g]
  let served := x.members.filter fun n => s.axis[memberSlot n].st == .enabled
  if x.startPend then
    served.isEmpty || (decide (x.boundary + 31250 ≤ s.now) && served.any fun n => outerNow (memberSlot n) s)
  else served.isEmpty || served.any fun n => boundaryDue (memberSlot n) s

/-- The tick of a group's boundary. -/
def groupTick (g : Fin 16) (s : State) : Nat :=
  match s.plan.grp[g].members.find? fun n => s.axis[memberSlot n].st == .enabled with
  | some n => sampleTick (memberSlot n) s
  | none => s.now

/-- At a group's first boundary its members' boundaries are counted afresh (R155). -/
def groupPhases (g : Fin 16) (s : State) : State :=
  if s.plan.grp[g].startPend then
    s.plan.grp[g].members.foldl (fun s n => onPax (memberSlot n) (fun y => { y with phase := outerIndex (memberSlot n) s }) s) s
  else s

/-- PLANNER_BOUNDARY: an axis or a group moves one planner period on, at its boundary (R142, R143). The boundary of a member of a running
group is its group's. -/
def execPlannerBoundary (unit : PlanUnit) (s : State) : Host.Outcome State Fault Refusal :=
  if !domainsRun s then .next s else
  match unit with
  | .axis i =>
    let grouped := ((memberOf i s).map fun g => s.plan.grp[g].running).getD false
    if boundaryDue i s ∧ axisBoundaries i s ∧ !grouped then
      .next (disableWaiting i (targetCheck i (axisBoundary i (sampleTick i s) s)))
    else .next (disableWaiting i s)
  | .group g => .next (if s.plan.grp[g].running ∧ groupDue g s then groupBoundary g (groupTick g s) (groupPhases g s) else s)

end Sys2Proof.Machine
end

