-- ==== Sys2Proof/Machine/PortEvents.lean ====
section
/-! DEFINITION.
What happens at the Position Ports by itself: edges, frames, samples, losses, captures (R220 to R248, 10). -/

namespace Sys2Proof.Machine

/-- Timestamp of a change: its command stands at the first of the FILTER + 1 samples of the 5 ns grid that show it, so that samples,
speeds and latches see it from there on (R220, R231, R246; DESIGN CHOICE, log 50). -/
def fbStamp (s : State) : Nat := s.nowNs - s.nowNs % 5

/-- Signed count: INVERT reverses every mode (R221). -/
def Port.signOf (x : Port) (fwd : Bool) : Int := if fwd != x.cfg.opts.getLsbD 0 then 1 else -1

/-- Counts of a port that moved (R239: FREEZE ends). -/
def countMoved (p : Fin 32) (d : Int) (ns : Nat) (s : State) : State := moved p s.ports.port[p].counts (countPort p d ns s)

/-! Index (R232 to R234). -/

/-- Corrections of the position that fire no compare (R233, R244). -/
def applyCorrection (p : Fin 32) (n : Int) (ns : Nat) (s : State) : State :=
  if n = 0 then s
  else
    let x := s.ports.port[p]
    let y := { x.move n with idxAppPos := bumpFwd x.idxAppPos n, idxAppNeg := bumpRev x.idxAppNeg n }
    let s1 := onPort p (fun _ => (y.noteMove x.counts ns).rememberSet ns) s
    moved p x.counts (satEvent p x.overrun (compareMove false p ns x.counts y.counts s1))

/-- Discrepancy of an index (R233). -/
def Port.discrepancy (x : Port) : Int :=
  let m : Int := max x.cfg.modulus 1
  let half : Int := m / 2
  (((x.cir : Int) + x.held - x.cfg.idxPos + half) % m) - half

/-- An index (R233, R234). -/
def indexSeen (p : Fin 32) (ns : Nat) (s : State) : State :=
  let x := s.ports.port[p]
  let d := x.discrepancy
  let s1 := event 0x0401 p.val (beI 4 d) (onPort p (fun x => { x with disc := d, fIndex := true }) s)
  let s2 := latchEvents 5 p.val (s.toTb0 ns).toNat s1
  let ref := x.cfg.reference && x.refPending
  let s3 := if ref then onPort p (fun x => { x with refPending := false, referenced := true }) s2 else s2
  if !ref && decide (d.natAbs ≤ x.cfg.tol) then s3
  else
    let due := fun (x : Port) => { x with idxDuePos := bumpFwd x.idxDuePos (-d), idxDueNeg := bumpRev x.idxDueNeg (-d) }
    if ref || x.cfg.idxPolicy == 1 then
      applyCorrection p (x.held - d) ns (onPort p (fun x => { due x with held := 0, travel := 0, stride := 1 }) s3)
    else if x.cfg.idxPolicy = 2 then
      let h := x.held - d
      onPort p (fun x => { due x with held := h, travel := 0, stride := max 1 (x.cfg.spread / max h.natAbs 1) }) s3
    else onPort p (fun x => { x with idxIgnored := bump x.idxIgnored d.natAbs }) s3

/-- The index where it becomes active with this change of lines (R232). -/
def indexCheck (p : Fin 32) (before : Port) (ns : Nat) (s : State) : State :=
  let x := s.ports.port[p]
  let high := x.indexHigh x.cfg.gate
  let fire := if x.cfg.gate = 0 then high && !before.lineZ else high && !before.idxActive
  let s1 := onPort p (fun x => { x with idxActive := high }) s
  if fire then indexSeen p ns s1 else s1

/-! Edges (R220 to R223). -/

/-- The direction level as accepted 20 ns before a timestamp (R222). -/
def Port.directionAt (x : Port) (ns : Nat) : Bool :=
  match x.dirLevels.find? fun e => decide (e.1 + 20 ≤ ns) with
  | some e => e.2
  | none =>
    match x.dirLevels.getLast? with
    | some e => !e.2
    | none => x.lineB

/-- Note a change of the direction line. -/
def Port.noteDirection (x : Port) (ns : Nat) (b : Bool) : Port :=
  { x with dirLevels := (ns, b) :: x.dirLevels.take 8 }

/-- A change of Hall state (R223). -/
def hallChange (p : Fin 32) (ns : Nat) (s : State) : State :=
  let x := s.ports.port[p]
  let code := x.hallCode
  if !hallOrder.contains code then onPort p (fun x => { x with illegalSince := some (x.illegalSince.getD ns) }) s
  else
    let s1 := lossGone p 4 (onPort p (fun x => { x with hallRef := some (BitVec.ofNat 3 code), illegalSince := none }) s)
    match x.hallRef with
    | none => s1
    | some r =>
      let k := (hallOrder.idxOf code + 6 - hallOrder.idxOf r.toNat) % 6
      let skip := fun (s : State) => event 0x0403 p.val [] (onPort p (fun x => { x with fHallSkip := true }) s)
      match k with
      | 0 => s1
      | 1 => countMoved p (x.signOf true) ns s1
      | 2 => skip (countMoved p (2 * x.signOf true) ns s1)
      | 3 => unresolved p 3 ns s1
      | 4 => skip (countMoved p (2 * x.signOf false) ns s1)
      | _ => countMoved p (x.signOf false) ns s1

/-- The first Hall edge after enabling refines the commutation offset of a Hall + quadrature slot: the edge lies at the border of two
sectors (Table 6.5). -/
def refineHall (p : Fin 32) (before : Port) (s : State) : State :=
  let x := s.ports.port[p]
  match before.hallRef, x.hallRef with
  | some a, some b =>
    let ka := hallOrder.idxOf a.toNat
    let kb := hallOrder.idxOf b.toNat
    if a = b then s
    else
      let border : Rat := if kb = (ka + 1) % 6 then (kb : Rat) else if ka = (kb + 1) % 6 then (ka : Rat) else (kb : Rat) + 1 / 2
      ((List.finRange 64).filter fun (i : Fin 64) =>
        let c := s.axis[i]
        live c && c.bind.portB == some p.val && (c.mode.map (·.feedback)) == some 3 && !s.loop.slot[i].hallRefined).foldl (fun s i =>
          let d := halfEven (x.sixths border * s.loop.slot[i].elecCounts) 4294967296
          let s1 := s.onLoop fun e => { e with slot := upd e.slot i fun y => { y with hallRefined := true } }
          onAx i (fun c => { c with offset := some (measuredPos i s - d) }) s1) s
  | _, _ => s

/-- Changes of lines accepted at one sample: A, B, Z, C in bits 0 to 3. -/
def edgeAccepted (p : Fin 32) (lines : BitVec 4) (s : State) : State :=
  let x := s.ports.port[p]
  let ns := fbStamp s
  let a := lines.getLsbD 0
  let b := lines.getLsbD 1
  let da := a != x.lineA
  let db := b != x.lineB
  let y := { x with lineA := a, lineB := b, lineZ := lines.getLsbD 2, lineC := lines.getLsbD 3 }
  let s1 := onPort p (fun _ => if db then y.noteDirection ns b else y) s
  match x.mode with
  | 1 =>
    let s2 := if da && db then unresolved p 2 ns s1
      else if da then countMoved p (x.signOf (a != b)) ns s1
      else if db then countMoved p (x.signOf (a == b)) ns s1
      else s1
    indexCheck p x ns s2
  | 2 =>
    if da && a != x.cfg.opts.getLsbD 3 then countMoved p (x.signOf ((s1.ports.port[p]).directionAt ns)) ns s1 else s1
  | 3 =>
    let s2 := if da then countMoved p (x.signOf true) ns s1 else s1
    if db then countMoved p (x.signOf false) ns s2 else s2
  | 4 => refineHall p x (hallChange p ns s1)
  | 6 => indexCheck p x ns s1
  | _ => s1

/-- PP_EDGE_ACCEPTED. -/
def execPpEdgeAccepted (port : Fin 32) (lines : BitVec 4) (s : State) : Host.Outcome State Fault Refusal :=
  if !domainsRun s then .next s else
  .next (edgeAccepted port lines s)

/-! SSI (R224 to R226). -/

/-- One bit into a CRC register of `n` bits, most significant first. -/
def crcStep (n poly reg : Nat) (b : Bool) : Nat :=
  let top := hasBit reg (n - 1) != b
  let r := reg * 2 % 2 ^ n
  if top then r ^^^ (poly % 2 ^ n) else r

/-- CRC over the `len` bits of a value, most significant first, from 0 (R224). -/
def crcOf (n poly v : Nat) : Nat → Nat → Nat
  | 0, reg => reg
  | len + 1, reg => crcOf n poly v len (crcStep n poly reg (hasBit v len))

/-- Gray to binary over `n` bits: bit k is the parity of the Gray bits from k up. -/
def grayToBinary (n v : Nat) : Nat :=
  ((List.range n).map fun k => (((List.range (n - k)).filter fun j => hasBit v (k + j)).length % 2) * 2 ^ k).sum

/-- Is a whole frame good: check bits and status bits (R224)? -/
def ssiGood (c : SsiCfg) (inverted : Bool) (raw : Nat) : Bool :=
  let n := c.lead + c.mt + c.st + c.stat
  let body := raw / 2 ^ c.crcLen % 2 ^ n
  let crc := crcOf c.crcLen c.crcPoly body n 0
  let want := if inverted then 2 ^ c.crcLen - 1 - crc else crc
  (c.crcLen == 0 || raw % 2 ^ c.crcLen == want) &&
  (List.range c.stat).all fun k => hasBit body k != c.errPol.getLsbD k

/-- The absolute value a of a frame (R226). -/
def ssiValue (c : SsiCfg) (opts : BitVec 8) (raw : Nat) : Int :=
  let n := c.mt + c.st
  let v := raw / 2 ^ (c.crcLen + c.stat) % 2 ^ n
  let b := if opts.getLsbD 4 then grayToBinary n v else v
  if opts.getLsbD 5 then signed n b else b

/-- The slots with a mode whose binding names a port. -/
def namingSlots (p : Fin 32) (s : State) : List (Fin 64) := (List.finRange 64).filter fun (i : Fin 64) =>
  s.axis[i].mode.isSome && (s.axis[i].bind.portA == some p.val || s.axis[i].bind.portB == some p.val)

/-- May a frame start now? TM after the last one has passed; a frame of a bound port is complete at least 1 µs before the next sample
instant of the slot's inner loop, an unbound port starts one every POLL (R224, R225). -/
def ssiMayStart (p : Fin 32) (s : State) : Bool :=
  let x := s.ports.port[p]
  let l := namingSlots p s
  x.ssiStart.isNone && decide (x.ssiEnd + 1000 * x.cfg.ssi.tm ≤ s.nowNs) &&
  (if l = [] then decide (x.ssiPoll + 1000 * x.cfg.ssi.poll ≤ s.nowNs)
   else l.all fun i => decide (ssiFrame x.cfg.ssi + 1000 ≤ 2 * ticksToSample i s))

/-- A frame starts: the encoder latches its value at the first falling clock edge, which stamps the frame. -/
def execSsiFrameStart (port : Fin 32) (s : State) : Host.Outcome State Fault Refusal :=
  if !domainsRun s then .next s else
  .next (if s.ports.port[port].mode = 5 ∧ ssiMayStart port s then
      onPort port (fun x => { x with ssiStart := some s.nowNs, ssiPoll := s.nowNs }) s else s)

/-- A bad frame changes neither position nor speed; SSI_ERR_LIMIT in a row are a loss (R224, Table 10.5). -/
def ssiBadFrame (p : Fin 32) (ns : Nat) (timeout : Bool) (s : State) : State :=
  let s1 := onPort p (fun x => { x with ssiBad := x.ssiBad + 1 }.remember ns false) s
  if s.ports.port[p].cfg.ssi.errLimit ≤ s.ports.port[p].ssiBad + 1 then lossPresent p (if timeout then 3 else 2) s1 else s1

/-- A good frame (R226): the initial one presets the position, later ones count. While LOSS_ACTIVE the counter holds. -/
def ssiGoodFrame (p : Fin 32) (ns : Nat) (a : Int) (s : State) : State :=
  let x := s.ports.port[p]
  let s1 := lossGone p 3 (lossGone p 2 (onPort p (fun x => { x with ssiBad := 0, ssiAbs := some a }) s))
  if x.lossActive then onPort p (fun x => x.remember ns false) s1
  else
    let s2 := onPort p (fun x => { x with ssiLast := some a }) s1
    match x.ssiLast with
    | none =>
      moved p x.counts (onPort p (fun x => { x.remember ns true with referenced := true }) (presetPort p (a + x.ssiOff) ns s2))
    | some old =>
      let full : Int := 2 ^ (x.cfg.ssi.mt + x.cfg.ssi.st)
      let d := (a - old + full / 2) % full - full / 2
      countMoved p (d * x.signOf true) ns s2

/-- SSI_FRAME_END: the frame's bits, right-aligned, once its time has passed, or its failure by timeout (R224). -/
def execSsiFrameEnd (port : Fin 32) (data : BitVec 64) (timeout : Bool) (s : State) : Host.Outcome State Fault Refusal :=
  if !domainsRun s then .next s else
  let x := s.ports.port[port]
  match x.ssiStart with
  | none => .next s
  | some ns =>
    let s1 := onPort port (fun x => { x with ssiStart := none, ssiEnd := s.nowNs, ssiRaw := data }) s
    .next (if s.nowNs < ns + (if timeout then 0 else ssiFrame x.cfg.ssi) then s
      else if x.mode ≠ 5 then onPort port (fun x => { x with ssiStart := none }) s
      else if timeout || !ssiGood x.cfg.ssi (x.cfg.opts.getLsbD 6) data.toNat then ssiBadFrame port ns timeout s1
      else ssiGoodFrame port ns (ssiValue x.cfg.ssi x.cfg.opts data.toNat) s1)

/-! Sin/cos (R227). Codes are 14 bits for ±1.0 V (22). -/

/-- A code corrected by offset and gain, in mV × 8192 × 16384. -/
def sinCorrected (code : BitVec 14) (off gain : Int) : Int := (code.toInt * 1000 - off * 8192) * gain

/-- An angle as a fraction of a revolution. -/
def ofAngle (t : Int) : Rat := (t : Rat) / (fixTurn : Rat)

/-- SINCOS_SAMPLE: the pair converted at this instant. The phase is the 12-bit fraction of a period that atan2(s, c) is; how it is rounded
is free (log entry 6). -/
def execSincosSample (port : Fin 8) (sineCode cosineCode : BitVec 14) (s : State) : Host.Outcome State Fault Refusal :=
  if !domainsRun s then .next s else
  let p : Fin 32 := Fin.ofNat 32 port.val
  let x := s.ports.port[p]
  let ns := s.nowNs
  if x.mode ≠ 6 then .next s
  else
    let c := x.cfg.sincos
    let sn := sinCorrected sineCode c.offS c.gainS
    let cs := sinCorrected cosineCode c.offC c.gainC
    let scale : Int := 8192 * 16384
    let r2 := sn * sn + cs * cs
    let inBand := decide (((c.ampMin : Int) * scale) ^ 2 ≤ r2) && decide (r2 ≤ ((c.ampMax : Int) * scale) ^ 2)
    let s1 := onPort p (fun x => { x with sinRaw := sineCode.toInt, cosRaw := cosineCode.toInt }) s
    if !inBand then
      let s2 := onPort p (fun x => { x with sinBad := x.sinBad + 1 }.remember ns false) s1
      .next (if 4 ≤ x.sinBad + 1 then lossPresent p 5 s2 else s2)
    else
      let phi : Int := roundOpen (ofAngle (angleOf sn cs) * 4096) % 4096
      let s2 := onPort p (fun x => { x with sinBad := 0 }) s1
      let d : Int := match x.phase with
        | none => 0
        | some old => (phi - old + 2048) % 4096 - 2048
      .next (if d.natAbs ≤ 1024 then
          lossGone p 5 (countMoved p (d * x.signOf true) ns (onPort p (fun x => { x with phase := some phi }) s2))
        else
          lossPresent p 5 (unresolved p d.natAbs ns (onPort p (fun x => x.remember ns false) s2)))

/-! Speed (R236, R237). -/

/-- Does a loop use a port: does a slot with a mode name it? -/
def loopUses (p : Fin 32) (s : State) : Bool :=
  (List.finRange 64).any fun (i : Fin 64) => s.axis[i].mode.isSome && (slotPorts s.axis[i]).contains p.val

/-- SPEED_EVALUATION: 100 µs after the last one, of a port no loop uses (R236). -/
def execSpeedEvaluation (port : Fin 32) (s : State) : Host.Outcome State Fault Refusal :=
  if !domainsRun s then .next s else
  .next (if !loopUses port s ∧ s.ports.port[port].evalAt + 100000 ≤ s.nowNs then evalSpeed port s else s)

/-- SPEED_STANDSTILL_TIMEOUT: no count for TIMEOUT. -/
def execSpeedStandstillTimeout (port : Fin 32) (s : State) : Host.Outcome State Fault Refusal :=
  if !domainsRun s then .next s else
  let x := s.ports.port[port]
  let last := (x.stamps.head?.map (·.1)).getD 0
  .next (if 1 ≤ x.mode ∧ x.mode ≤ 4 ∧ last + 1000000 * x.cfg.timeoutMs ≤ s.nowNs then
      onPort port (fun x => { x with standstill := true, reversal := false, sinceStop := 0 }) s
    else s)

/-! Losses (Table 10.5). -/

/-- LINE_FAULT. -/
def execLineFault (port : Fin 32) (s : State) : Host.Outcome State Fault Refusal :=
  if !domainsRun s then .next s else .next (lossPresent port 1 s)

/-- HALL_ILLEGAL: the code has been illegal for 2 µs. -/
def execHallIllegal (port : Fin 32) (s : State) : Host.Outcome State Fault Refusal :=
  if !domainsRun s then .next s else
  .next (match s.ports.port[port].illegalSince with
    | some t => if t + 2000 ≤ s.nowNs then lossPresent port 4 s else s
    | none => s)

/-- Does a slot the port feeds have a valid observer at FREEZE_SPEED or more (cause 6)? -/
def observerMoves (p : Fin 32) (s : State) : Bool :=
  (portSlots p s).any fun i =>
    s.loop.slot[i].obsValid && decide (s.ports.port[p].cfg.freezeSpeed ≤ (s.loop.slot[i].obsSpeed.natAbs : Int))

/-- FREEZE_DETECT. -/
def execFreezeDetect (port : Fin 32) (s : State) : Host.Outcome State Fault Refusal :=
  if !domainsRun s then .next s else
  let x := s.ports.port[port]
  .next (if x.lastMove + 1000000 * x.cfg.freezeMs ≤ s.nowNs ∧ observerMoves port s then lossPresent port 6 s else s)

/-- ENCODER_SUPPLY_LIMIT: VENCm serves PP4m to PP4m + 3. -/
def execEncoderSupplyLimit (supply : Fin 8) (s : State) : Host.Outcome State Fault Refusal :=
  .next (((List.finRange 32).filter fun (p : Fin 32) => p.val / 4 == supply.val).foldl (fun s p =>
    lossPresent p 7 s) s)

/-- LOSS_CLEAR: the causes seen at the pins have been absent for 10 ms, and so have those the port knows itself. -/
def execLossClear (port : Fin 32) (s : State) : Host.Outcome State Fault Refusal :=
  if !domainsRun s then .next s else
  let x := s.ports.port[port]
  let keep : BitVec 8 := if observerMoves port s then 0xBE else 0x9E
  let s1 := onPort port (fun x => { x with causesNow := x.causesNow &&& (keep &&& if x.unresUntil ≤ s.nowNs then 0x7F else 0xFF) }) s
  .next (if x.lossActive && lossOver port s1 then clearLoss port s1 else s)

/-! Compare pulses, latches, snapshot (R243 to R248). -/

/-- COMPARE_PULSE_END. -/
def execComparePulseEnd (unit : Fin 16) (s : State) : Host.Outcome State Fault Refusal :=
  if !domainsRun s then .next s else
  .next (match s.ports.cmp[unit].pulseEnd with
    | some t => if t ≤ s.nowNs then onCmp unit (fun c => { c with output := false, pulseEnd := none }) s else s
    | none => s)

/-- Does a source name this edge of a pin? -/
def pinNamed (c : Source107) (pin : Fin 16) (rise : Bool) : Bool :=
  c.code == 0 && c.sel == pin.val && hasBit c.edges (if rise then 0 else 1)

/-- The network-time source of a unit has fallen due: its instant and the source after it. -/
def timeDue (c : Source107) (s : State) : Option (Nat × Source107) :=
  match c.nextAt with
  | some t => if c.code = 3 ∧ t ≤ s.tb0 then some (t, { c with nextAt := if c.period = 0 then none else some (t + c.period) }) else none
  | none => none

/-- A latch at a pin edge, or without a pin at the instants of its network-time source. -/
def Latch.note (s : State) (pin : Option (Fin 16)) (rise : Bool) (l : Latch) : Latch :=
  if !l.enabled then l
  else
    match pin with
    | some n => if pinNamed l.src n rise then { l with due := l.due ++ [dueCapture 0 (s.toTb0 (fbStamp s)).toNat l.src.offset s] } else l
    | none =>
      match timeDue l.src s with
      | some (t, c) => { l with due := l.due ++ [dueCapture 3 t l.src.offset s], src := c }
      | none => l

/-- The same for the snapshot unit. -/
def Snap.note (s : State) (pin : Option (Fin 16)) (rise : Bool) (l : Snap) : Snap :=
  if !l.enabled then l
  else
    match pin with
    | some n => if pinNamed l.src n rise then { l with due := l.due ++ [dueCapture 0 (s.toTb0 (fbStamp s)).toNat l.src.offset s] } else l
    | none =>
      match timeDue l.src s with
      | some (t, c) => { l with due := l.due ++ [dueCapture 3 t l.src.offset s], src := c }
      | none => l

/-- LATCH_EVENT: an accepted edge of a LAT pin, or the network-time instants that have come. The other sources of Table 10.7
note their events where they arise. -/
def execLatchEvent (pin : Option (Fin 16)) (rise : Bool) (s : State) : Host.Outcome State Fault Refusal :=
  if !domainsRun s then .next s else
  .next (s.onPorts fun b => { b with latch := updAll b.latch fun _ l => l.note s pin rise, snap := b.snap.note s pin rise })

/-- Linear interpolation, rounded half to even (R246). -/
def interpolate (t0 : Int) (p0 : Int) (t1 : Int) (p1 : Int) (t : Int) : Int :=
  if t1 ≤ t0 then p1 else halfEven (p0 * (t1 - t) + p1 * (t - t0)) (t1 - t0)

/-- A capture from a list of instants and positions, newest first: none while the later one is missing; invalid outside the
history of 1 ms or where a bracketing entry is missing or bad (R246). -/
def captureBetween (now : Nat) (l : List (Nat × Int × Bool)) (t : Int) : Option (Bool × Int) :=
  let later := (l.takeWhile fun e => decide (t ≤ (e.1 : Int))).getLast?
  if t + 1000000 < now then some (false, 0)
  else
    match later with
    | none => none
    | some e1 =>
      if (e1.1 : Int) = t then some (if e1.2.2 then (true, e1.2.1) else (false, 0))
      else
        match (l.dropWhile fun e => decide (t ≤ (e.1 : Int))).head? with
        | none => some (false, 0)
        | some e0 =>
          if e0.2.2 && e1.2.2 then some (true, interpolate e0.1 e0.2.1 e1.1 e1.2.1 t) else some (false, 0)

/-- The capture of a port at a device instant (R246): `t` is t_r. -/
def portCapture (p : Fin 32) (t : Int) (s : State) : Option (Bool × Int) :=
  let x := s.ports.port[p]
  if x.mode = 5 ∨ x.mode = 6 then captureBetween s.nowNs (x.hist.map fun e => (e.1, e.2.1 * 65536, e.2.2)) t
  else if (s.nowNs : Int) ≤ t then none
  else if t + 1000000 < s.nowNs then some (false, 0)
  else some (true, (((x.hist.find? fun e => decide ((e.1 : Int) ≤ t)).map (·.2.1)).getD x.counts) * 65536)

/-- Insert a capture in order of capture instant (R247). -/
def insertCapture (c : Capture) : List Capture → List Capture
  | [] => [c]
  | d :: l => if c.t < d.t then c :: d :: l else d :: insertCapture c l

/-- LATCH_CAPTURE: the oldest event whose data exists is captured; a seventeenth capture is lost (R247). -/
def execLatchCapture (unit : Fin 16) (s : State) : Host.Outcome State Fault Refusal :=
  if !domainsRun s then .next s else
  let l := s.ports.latch[unit]
  match l.due with
  | [] => .next s
  | d :: rest =>
    let p : Fin 32 := Fin.ofNat 32 l.port
    match portCapture p (d.t + s.ports.port[p].cfg.delay) s with
    | none => .next s
    | some (ok, pos) =>
      let c : Capture := { pos := pos, atTime := d.atTime, seq := l.seq.toNat, source := d.source, valid := ok, t := d.t }
      let s1 := onLatch unit (fun l =>
        if l.caps.length < 16 then { l with due := rest, caps := insertCapture c l.caps, seq := l.seq + 1 }
        else { l with due := rest, lost := l.lost + 1, fLost := true, seq := l.seq + 1 })
        (if l.caps.length < 16 then occurs 8 unit.val 0 s else s)
      let later := match l.lastValid with
        | some (t, _) => decide (t ≤ d.t)
        | none => true
      .next (if ok && later then onLatch unit (fun l => { l with lastValid := some (d.t, pos) }) s1 else s1)

/-- A bound slot's entry of a snapshot at t_c, once its data exists (R248). -/
def snapEntry (i : Fin 64) (t : Int) (s : State) : Option SnapEntry :=
  let a := s.axis[i]
  if sensored a then
    match a.bind.portA with
    | some n =>
      let p : Fin 32 := Fin.ofNat 32 n
      (portCapture p (t + s.ports.port[p].cfg.delay) s).map fun r => { slot := i.val, valid := r.1, pos := r.2 }
    | none =>
      (captureBetween s.nowNs ((brickChannel a.bind s).posHist.map fun e => (e.1, e.2, true)) t).map fun r =>
        { slot := i.val, valid := r.1, pos := r.2 }
  else if a.mode.isNone then some { slot := i.val, valid := true, est := true, pos := measuredPos i s }
  else
    (captureBetween s.nowNs (a.posHist.map fun e => (e.1, e.2, true)) t).map fun r =>
      { slot := i.val, valid := r.1, est := true, pos := r.2 }

/-- The bound slots, in order. -/
def boundSlots (s : State) : List (Fin 64) := (List.finRange 64).filter fun (i : Fin 64) => s.axis[i].bind.location != 0

/-- SNAPSHOT_CAPTURE: the record once every bound slot's data exists; a fifth is lost (R248). -/
def execSnapshotCapture (s : State) : Host.Outcome State Fault Refusal :=
  if !domainsRun s then .next s else
  match s.ports.snap.due with
  | [] => .next s
  | d :: rest =>
    match (boundSlots s).mapM fun i => snapEntry i d.t s with
    | none => .next s
    | some es =>
      if s.ports.snap.held.length < 4 then
        let s1 := onSnap (fun x => { x with due := rest, held := x.held ++ [(d.inst, es)], number := x.number + 1 }) s
        .next (event 0x0406 s.ports.snap.number.toNat [] s1)
      else .next (onSnap (fun x => { x with due := rest, lost := x.lost + 1, fLost := true, number := x.number + 1 }) s)

end Sys2Proof.Machine
end

