-- ==== Sys2Proof/Machine/Registers.lean ====
section
/-! DEFINITION.
Register and window accesses as commands (05; 18). The rows of one shape are one shared access: which register is meant is the
address, and what it does is its own row of the map (RegMap, RegWrite). -/

namespace Sys2Proof.Machine

/-- IND_DATA_READ (R104). -/
def execIndDataRead (ctx : Fin 6) (s : State) : Host.Outcome State Fault Refusal := .next (accessRead ctx indData 4 s)

/-- IND_DATA_WRITE (R104). -/
def execIndDataWrite (ctx : Fin 6) (value : Word) (s : State) : Host.Outcome State Fault Refusal :=
  .next (accessWrite ctx indData 4 value s)

/-- IND_ADDR_WRITE (R105, R107). -/
def execIndAddrWrite (ctx : Fin 6) (value : Word) (s : State) : Host.Outcome State Fault Refusal :=
  .next (accessWrite ctx 0x40000100 4 value s)

/-- IND_CTRL_WRITE (R107). -/
def execIndCtrlWrite (ctx : Fin 6) (value : Word) (s : State) : Host.Outcome State Fault Refusal :=
  .next (accessWrite ctx 0x40000108 4 value s)

/-- IND_ACCESS_TIMEOUT (R106): 100 µs have passed; the next access of the pair begins. -/
def execIndAccessTimeout (ctx : Fin 6) (s : State) : Host.Outcome State Fault Refusal :=
  .next (if indOverdue ctx s then indResume ctx (resumeOne ctx (indTimeout ctx s)) else s)

/-- UPD_STROBE_WRITE (R111, R113). -/
def execUpdStrobeWrite (ctx : Fin 6) (value : Word) (s : State) : Host.Outcome State Fault Refusal :=
  .next (accessWrite ctx 0x40000200 4 value s)

/-- WIDE_LOW_READ (R108). -/
def execWideLowRead (ctx : Fin 6) (addr : Nat) (s : State) : Host.Outcome State Fault Refusal := .next (accessRead ctx addr 4 s)

/-- WIDE_HIGH_READ (R108). -/
def execWideHighRead (ctx : Fin 6) (addr : Nat) (s : State) : Host.Outcome State Fault Refusal := .next (accessRead ctx addr 4 s)

/-- WIDE_LOW_WRITE (R108). -/
def execWideLowWrite (ctx : Fin 6) (addr : Nat) (value : Word) (s : State) : Host.Outcome State Fault Refusal :=
  .next (accessWrite ctx addr 4 value s)

/-- WIDE_HIGH_WRITE (R108). -/
def execWideHighWrite (ctx : Fin 6) (addr : Nat) (value : Word) (s : State) : Host.Outcome State Fault Refusal :=
  .next (accessWrite ctx addr 4 value s)

/-- RC_REGISTER_READ (R118): any register read, `bytes` its size. -/
def execRcRegisterRead (ctx : Fin 6) (addr bytes : Nat) (s : State) : Host.Outcome State Fault Refusal :=
  .next (accessRead ctx addr bytes s)

/-- REGISTER_WRITE (R109): any register written, `bytes` the access's size. -/
def execRegisterWrite (ctx : Fin 6) (addr bytes : Nat) (value : Word) (s : State) : Host.Outcome State Fault Refusal :=
  .next (accessWrite ctx addr bytes value s)

/-- GRP_SEAL_WRITE (R263). -/
def execGrpSealWrite (ctx : Fin 6) (group : Fin 32) (value : Word) (s : State) : Host.Outcome State Fault Refusal :=
  .next (accessWrite ctx (0x44000008 + group.val * 0x40) 4 value s)

/-- LEG_CMPB_SEAL_WRITE (R263): CMPB of the group's last leg, 3 × group + 2. -/
def execLegCmpbSealWrite (ctx : Fin 6) (group : Fin 32) (value : Word) (s : State) : Host.Outcome State Fault Refusal :=
  .next (accessWrite ctx (0x44001004 + (3 * group.val + 2) * 0x10) 4 value s)

/-- LEG_DUTY_WRITE (R259). -/
def execLegDutyWrite (ctx : Fin 6) (leg : Fin 96) (value : Word) (s : State) : Host.Outcome State Fault Refusal :=
  .next (accessWrite ctx (0x44001008 + leg.val * 0x10) 4 value s)

/-- GRP_TRIP_CLEAR (R271): GRP_TRIP is written with CLEAR (bit 12) set. -/
def execGrpTripClear (ctx : Fin 6) (group : Fin 32) (s : State) : Host.Outcome State Fault Refusal :=
  .next (accessWrite ctx (0x44000010 + group.val * 0x40) 4 0x1000 s)

/-- FIO_DO_WRITE (R376): Field I/O is reached through the context's indirect pair alone (R103): IND_ADDR is written, then IND_DATA, both
once the pair is free (DEDUCED, log 49). -/
def execFioDoWrite (ctx : Fin 6) (group : Fin 4) (cmd : BitVec 4) (s : State) : Host.Outcome State Fault Refusal :=
  .next (if contextDead ctx s then s
    else indAccess ctx (some (BitVec.ofNat 32 (0x4B000008 + group.val * 0x100)), some (cmd.setWidth 32)) s)

/-- XIP_READ (R401). -/
def execXipRead (ctx : Fin 6) (addr : Nat) (s : State) : Host.Outcome State Fault Refusal := .next (accessRead ctx addr 4 s)

/-- XIP_WRITE (R402). -/
def execXipWrite (ctx : Fin 6) (addr : Nat) (value : Word) (s : State) : Host.Outcome State Fault Refusal :=
  .next (accessWrite ctx addr 4 value s)

/-- XIP_READ_TIMEOUT (R401): 100 µs have passed. -/
def execXipReadTimeout (ctx : Fin 6) (s : State) : Host.Outcome State Fault Refusal :=
  .next (if windowOverdue ctx s then indResume ctx (windowTimeout ctx s) else s)

/-- SPM_BUFFER_TIMEOUT (R402): 100 µs without a write to the page buffer. -/
def execSpmBufferTimeout (sel : Fin 4) (s : State) : Host.Outcome State Fault Refusal :=
  .next (if !tbRuns s ∨ s.now < s.serial.sel[sel].lastWrite + 50000 then s else flushPage sel s)

/-- A status poll of a device whose operation is under way may complete: POLL_US after the last one (R402). -/
def pollDue (p : Fin 4) (s : State) : Bool :=
  let x := s.serial.sel[p]
  x.opBusy && decide (x.opPoll + 500 * ((x.profile.map (·.pollUs)).getD 1) ≤ s.now)

/-- The operation under way has taken longer than PROG_TIMEOUT or ERASE_TIMEOUT (R402). -/
def pollOverdue (p : Fin 4) (s : State) : Bool :=
  let x := s.serial.sel[p]
  let ms := (x.profile.map fun r => if x.opErase then r.eraseTimeout else r.progTimeout).getD 1
  x.opBusy && decide (x.opStart + 500000 * ms < s.now)

/-- SPM_STATUS_POLL (R402): a poll completes and shows the device busy or not. -/
def execSpmStatusPoll (sel : Fin 4) (busy : Bool) (s : State) : Host.Outcome State Fault Refusal :=
  .next (if !tbRuns s ∨ !pollDue sel s then s
    else if busy then onSpm sel (fun x => { x with opPoll := s.now }) s
    else indResumeAll (deviceIdle sel s))

/-- SPM_OP_TIMEOUT (R402): a poll exceeds PROG_TIMEOUT or ERASE_TIMEOUT. -/
def execSpmOpTimeout (sel : Fin 4) (s : State) : Host.Outcome State Fault Refusal :=
  .next (if !tbRuns s ∨ !pollOverdue sel s then s else indResumeAll (failOperation sel s))

end Sys2Proof.Machine
end

