-- ==== Sys2Proof/Machine/Startup.lean ====
section
/-! DEFINITION.
Startup after the release of Reset (R56 to R58, R492, 03) and the end of a wake (R34, R35, 01). -/

namespace Sys2Proof.Machine

/-! The boot ROM and Keeper. -/

/-- Startup halts; the loader of R58 is served from now on. -/
def haltStartup (cause : Nat) (s : State) : State :=
  (s.onBoot fun b => { b with haltCause := cause }).onSys fun y => { y with phase := 0xF }

/-- The profile of select 0: the fastest its SFDP declares, else one lane at 25 MHz with READ_OP 0x03 (Table 3.3). -/
def bootProfile (x : SpmSel) (k : Nat) : Profile := if x.sfdp = [] then {} else { declared x k with window := 0 }

/-- Keeper numbers the entries AON wrote after the ring had been lost: one above the highest sequence in the fault log, or from
1 (R473). -/
def numberFaults : Nat → List FaultEntry → List FaultEntry × Nat
  | n, [] => ([], n)
  | n, e :: l =>
    let r := if e.seq = 0 then numberFaults (n + 1) l else numberFaults n l
    ((if e.seq = 0 then { e with seq := n } else e) :: r.1, r.2)

/-- Entries not yet copied are appended to the fault log of 512 (R473). -/
def copyFaults (g : Integrity) : Integrity :=
  let l := g.log ++ (g.ring.filter fun e => !e.copied).map fun e => { e with copied := true }
  { g with log := l.drop (l.length - 512), ring := g.ring.map fun e => { e with copied := true } }

/-- Keeper's duties of the ≤ 8 ms instant on the fault record. -/
def settleFaults (s : State) : State :=
  s.onInteg fun g =>
    let r := numberFaults (if g.ringLost then (g.log.map (·.seq)).foldl max 0 + 1 else g.nextSeq) g.ring
    copyFaults { g with ring := r.1, nextSeq := r.2, ringLost := false }

/-- Keeper has started: configuration, fault record, scrub, pin calibration, a capture marked ARM_AT_START (Table 3.3, R417,
R431, R471, R473). -/
def keeperDuties (s : State) : State :=
  let s1 := match newerCopy s.store with
    | some c => setBanded c.banded (loadConfig { c with banded := s.power.banded } s)
    | none => s
  let s2 := (calibrate (scrubPass (settleFaults s1))).2
  if s2.acq.armAtStart ∧ armDeny s2 = none then armNow s2 else s2

/-- The ROM's tests of bank 0 and of the boot flash: the halt cause of the first that fails (Table 3.3, Table 3.5). -/
def romTests (s : State) : Option Nat :=
  if s.integ.poison.any fun b => decide (b < 0x20000) then some 0
  else if !s.serial.sel[0].present then some 1
  else none

/-- The choice of R56 is made, and the copying and hashing of its kind begins (R492). -/
def chooseNow (kind : Nat) (s : State) : State :=
  let c := chooseSlot kind s
  ((onFlash (fun _ => c.flash) s).onBoot fun b => { b with
    chosen := c.slot.map fun n => (n, c.trial), rejectCause := if kind = 1 ∨ c.reject ≠ 0 then c.reject else b.rejectCause }).onSys
    fun y => { y with phase := 2 * kind - 1 }

/-- The ROM sets profile 0 and goes on to Keeper verify. -/
def keeperVerify (s : State) : State :=
  chooseNow 1 ((fresh s).2.onSerial fun x => { x with sel := upd x.sel 0 fun d => { d with profile := some (bootProfile d s.sys.free) } })

/-- In Startup the copying of the chosen Keeper or Gardener slot begins at some tick before its core starts, which one being a free
value (R492, Table 3.3; log entry 8). -/
def verifyBegins (s : State) : State :=
  if s.sys.dev ≠ .startup ∨ !s.power.pllLocked then s
  else if s.sys.phase = 0 ∧ romTests s = none then
    let r := freshBool s
    if r.1 then keeperVerify r.2 else r.2
  else if s.sys.phase = 2 ∧ !s.boot.gardenerRestart then
    let r := freshBool s
    if r.1 then chooseNow 2 r.2 else r.2
  else s

/-- Gardener's permission table as the Keeper image gives it (R60). -/
def builtPermissions : List Permission :=
  Config.gardenerTable.map fun e =>
    { lo := e.1, hi := e.2.1, read := e.2.2.1.testBit 0, write := e.2.2.1.testBit 1,
      states := [.reset, .startup, .commissioning, .operational, .test, .recovery].filter fun d => e.2.2.2.1.testBit d.code,
      strobes := BitVec.ofNat 16 e.2.2.2.2 }

/-- KEEPER_START: the ROM's tests and the choice of R56, the payload in SRAM bank 0, Keeper's first duties and permission tables, or a halt
(R57, R58, R60; log entry 8). While the PLL has not locked the ROM waits (R478). -/
def execKeeperStart (s : State) : Host.Outcome State Fault Refusal :=
  if s.sys.dev ≠ .startup ∨ 1 < s.sys.phase ∨ !s.power.pllLocked then .next s
  else
    match romTests s with
    | some c => .next (haltStartup c s)
    | none =>
      let s1 := if s.sys.phase = 0 then keeperVerify s else s
      match s1.boot.chosen with
      | none => .next (haltStartup 2 s1)
      | some (n, trial) =>
        let s2 := s1.onBoot fun b => { b with keeperSlot := n, keeperTrial := trial, haltCause := 0, perms := builtPermissions }
        .next (keeperDuties ((copyPayload 1 (imagePlace 1 n) s2).onSys fun y => { y with phase := 2 }))

/-- Gardener starts. -/
def gardenerRuns (s : State) : State :=
  (s.onBoot fun b => { b with gardenerRuns := true, gardenerRestart := false, gardenerReload := false }).onSys fun y => { y with phase := 4 }

/-- Recovery follows Gardener's restart (R61). -/
def recoverAfter (s : State) : State :=
  let s1 := s.onBoot fun b => { b with recoverDue := false }
  if s.boot.recoverDue ∧ (s.sys.dev = .operational ∨ s.sys.dev = .test) then enterRecovery s1 else s1

/-- GARDENER_START: the choice of R56 in Startup, the payload in SRAM banks 1 and 2; or after a restart the verified copy already
there, loaded anew from the booted slot where its banks have failed (R61, Table 3.3, Table 21.3). The banks are written anew (R470). -/
def execGardenerStart (s : State) : Host.Outcome State Fault Refusal :=
  if s.boot.gardenerRestart then
    let s1 := clearPoison 0x400000 0x800000 s
    let s2 := if s.boot.gardenerReload then copyPayload 2 (imagePlace 2 s.boot.gardenerSlot) s1 else s1
    .next (takeHeldUdp (recoverAfter (gardenerRuns s2)))
  else if s.sys.dev ≠ .startup ∨ (s.sys.phase ≠ 2 ∧ s.sys.phase ≠ 3) then .next s
  else
    let s1 := if s.sys.phase = 2 then chooseNow 2 s else s
    match s1.boot.chosen with
    | none => .next (haltStartup 3 s1)
    | some (n, trial) =>
      .next (gardenerRuns (clearPoison 0x400000 0x800000
        (copyPayload 2 (imagePlace 2 n) (s1.onBoot fun b => { b with gardenerSlot := n, gardenerTrial := trial }))))

/-! Commissioning. -/

/-- Keeper reloads a lane's saved plug-in; one that is refused leaves the lane empty (R461). -/
def reloadLane (c : Saved) (s : State) (l : Fin 8) : State :=
  match c.lanes.lane[l].entry with
  | none => s
  | some e =>
    match loadPlug {} l e s with
    | .ok t => t
    | .error _ => s

/-- A saved thread comes back; an enabled one starts to wait when its lane is loaded. -/
def reloadThread (c : Saved) (s : State) (t : Fin 512) : State :=
  let x := c.lanes.thr[t]
  if !x.defined then s
  else
    let s1 := onThr t (fun y => { Thread.config x y with enabled := false, cnt := x.reload }) s
    if x.enabled ∧ (s1.lanes.lane[Fin.ofNat 8 x.lane]).entry.isSome then startWaiting t s1 else s1

/-- A saved timer starts as after THREAD_TIMER_CONFIG (R446). -/
def reloadTimer (c : Saved) (s : State) (k : Fin 16) : State :=
  let x := c.lanes.tmr[k]
  if x.kind = 0 then s else s.onLanes fun n => { n with tmr := upd n.tmr k fun y => timerSet x.kind x.period x.phase s y }

/-- Plug-ins, threads, timers and stall limits of the saved configuration (R461). -/
def reloadLanes (c : Saved) (s : State) : State :=
  let s1 := (List.finRange 8).foldl (reloadLane c) s
  let s2 := (List.finRange 512).foldl (reloadThread c) s1
  let s3 := (List.finRange 16).foldl (reloadTimer c) s2
  s3.onLanes fun n => { n with spt := updAll n.spt fun i p => { p with stallLimit := c.lanes.spt[i].stallLimit } }

/-- GARDENER_READY: the device enters Commissioning (R57). -/
def execGardenerReady (s : State) : Host.Outcome State Fault Refusal :=
  if s.sys.dev ≠ .startup ∨ !s.boot.gardenerRuns then .next s
  else
    let s1 := s.onSys fun y => { y with dev := .commissioning }
    .next (reselect (match newerCopy s.store with
      | some c => reloadLanes c s1
      | none => s1))

/-- AUTOSTART: SET_STATE Operational under Table 3.7 (R57). -/
def execAutostart (s : State) : Host.Outcome State Fault Refusal :=
  if s.sys.autostartDue ∧ s.sys.dev = .commissioning then
    let s1 := s.onSys fun y => { y with autostartDue := false }
    .next (match transitionDeny .operational s1 with
      | some _ => s1
      | none => setDevice .operational s1)
  else .next s

/-! The end of a wake. -/

/-- A base restarts from the coarse count after Rest: TBASE0 at it, the others as far on as TBASE0 has moved; a base that
follows a domain enters ACQUIRING and is not synchronised (R35, R338; log entry 35). -/
def TimeBase.restart (moved : Int) (t : TimeBase) : TimeBase :=
  let u := { t with val := ((t.val : Int) + moved).toNat }
  if t.mode = 1 then { u with st := 1, sync := false, acquired := false, goodRun := 0, bigRun := 0, oP := [], oS := [] } else u

/-- Leaving Rest: times of effect that fell in it are late (R84), and the bases step (R330). -/
def leaveRest (s : State) : State :=
  let z : Nat := s.power.coarse * 1000
  let moved : Int := (z : Int) * 2 ^ 39 - (s.net.tb[0]).val
  changeBases (fun n => { n with tb := updAll n.tb fun _ t => t.restart moved })
    (lateCommands (fun p => decide (p.rq.toe.toNat ≤ z)) s)

/-- WAKE_COMPLETE: the woken classes are served again; groups that ran restart with the sets they held (R277), and held frames
are committed (R411, R495); datagrams that came meanwhile are processed (R34). The power state is evaluated again at the next instant of R33. -/
def execWakeComplete (s : State) : Host.Outcome State Fault Refusal :=
  if !s.power.waking then .next s
  else
    let was := s.power.power
    let s1 := if was = .rest then leaveRest s else s
    let s2 := s1.onPower fun p => { p with
      power := if p.opTarget = 0 then .run else .trim, wakeFrom := was.code, waking := false }
    let s3 := (List.finRange 32).foldl (fun s g => if (s.bta.grp[g]).run then startGroup g s else s) s2
    .next (takeHeldUdp (commitHeld s3.serial.held (refreshAll (skipSlept s3))))

end Sys2Proof.Machine
end

