-- ==== Sys2Proof/Machine/Dispatch.lean ====
section
/-! DEFINITION.
One arm for each command: a direct call of its meaning. -/

namespace Sys2Proof.Machine

/-- What a command does to everything but the queue, by the rules of spec/. -/
def exec (i : Instr) (s : State) : Host.Outcome State Fault Refusal :=
  match i with
  | .ruhityDatagram src broadcast fragment checksumOk bytes => Sys2Proof.Machine.execRuhityDatagram src broadcast fragment checksumOk bytes s
  | .inboxTake => Sys2Proof.Machine.execInboxTake s
  | .broadcastReply => Sys2Proof.Machine.execBroadcastReply s
  | .authLockoutEnd src => Sys2Proof.Machine.execAuthLockoutEnd src s
  | .pendingCommit handle => Sys2Proof.Machine.execPendingCommit handle s
  | .deferredEffect handle => Sys2Proof.Machine.execDeferredEffect handle s
  | .resetEntry => Sys2Proof.Machine.execResetEntry s
  | .imageSessionTimeout => Sys2Proof.Machine.execImageSessionTimeout s
  | .ping rq => Sys2Proof.Machine.execPing rq s
  | .getInfo rq => Sys2Proof.Machine.execGetInfo rq s
  | .cancel rq => Sys2Proof.Machine.execCancel rq s
  | .setLatencyTolerance rq => Sys2Proof.Machine.execSetLatencyTolerance rq s
  | .getOperatingPoint rq => Sys2Proof.Machine.execGetOperatingPoint rq s
  | .setWakeTimer rq => Sys2Proof.Machine.execSetWakeTimer rq s
  | .identityRead rq => Sys2Proof.Machine.execIdentityRead rq s
  | .imageBegin rq => Sys2Proof.Machine.execImageBegin rq s
  | .imageData rq => Sys2Proof.Machine.execImageData rq s
  | .imageCommit rq => Sys2Proof.Machine.execImageCommit rq s
  | .imageActivate rq => Sys2Proof.Machine.execImageActivate rq s
  | .imageConfirm rq => Sys2Proof.Machine.execImageConfirm rq s
  | .imageRollback rq => Sys2Proof.Machine.execImageRollback rq s
  | .setState rq => Sys2Proof.Machine.execSetState rq s
  | .reset rq => Sys2Proof.Machine.execReset rq s
  | .configSave rq => Sys2Proof.Machine.execConfigSave rq s
  | .authKeySet rq => Sys2Proof.Machine.execAuthKeySet rq s
  | .authPolicySet rq => Sys2Proof.Machine.execAuthPolicySet rq s
  | .cyclicMapDefine rq => Sys2Proof.Machine.execCyclicMapDefine rq s
  | .cyclicMapEnable rq => Sys2Proof.Machine.execCyclicMapEnable rq s
  | .cyclicMapStatus rq => Sys2Proof.Machine.execCyclicMapStatus rq s
  | .axisBind rq => Sys2Proof.Machine.execAxisBind rq s
  | .axisSetMode rq => Sys2Proof.Machine.execAxisSetMode rq s
  | .axisEnable rq => Sys2Proof.Machine.execAxisEnable rq s
  | .axisDisable rq => Sys2Proof.Machine.execAxisDisable rq s
  | .axisStatus rq => Sys2Proof.Machine.execAxisStatus rq s
  | .moveAbs rq => Sys2Proof.Machine.execMoveAbs rq s
  | .moveRel rq => Sys2Proof.Machine.execMoveRel rq s
  | .jog rq => Sys2Proof.Machine.execJog rq s
  | .stop rq => Sys2Proof.Machine.execStop rq s
  | .segmentAppend rq => Sys2Proof.Machine.execSegmentAppend rq s
  | .planAxisConfig rq => Sys2Proof.Machine.execPlanAxisConfig rq s
  | .groupDefine rq => Sys2Proof.Machine.execGroupDefine rq s
  | .groupStart rq => Sys2Proof.Machine.execGroupStart rq s
  | .groupResume rq => Sys2Proof.Machine.execGroupResume rq s
  | .groupClear rq => Sys2Proof.Machine.execGroupClear rq s
  | .groupStatus rq => Sys2Proof.Machine.execGroupStatus rq s
  | .storeStatus rq => Sys2Proof.Machine.execStoreStatus rq s
  | .overrideSet rq => Sys2Proof.Machine.execOverrideSet rq s
  | .gearLink rq => Sys2Proof.Machine.execGearLink rq s
  | .gearRatioAt rq => Sys2Proof.Machine.execGearRatioAt rq s
  | .gearClearPending rq => Sys2Proof.Machine.execGearClearPending rq s
  | .camDefine rq => Sys2Proof.Machine.execCamDefine rq s
  | .camData rq => Sys2Proof.Machine.execCamData rq s
  | .camCommit rq => Sys2Proof.Machine.execCamCommit rq s
  | .vmasterSet rq => Sys2Proof.Machine.execVmasterSet rq s
  | .gearStatusRead rq => Sys2Proof.Machine.execGearStatusRead rq s
  | .loopLoadCascade rq => Sys2Proof.Machine.execLoopLoadCascade rq s
  | .loopSchedule rq => Sys2Proof.Machine.execLoopSchedule rq s
  | .loopScales rq => Sys2Proof.Machine.execLoopScales rq s
  | .loopMotor rq => Sys2Proof.Machine.execLoopMotor rq s
  | .loopModulation rq => Sys2Proof.Machine.execLoopModulation rq s
  | .loopFollow rq => Sys2Proof.Machine.execLoopFollow rq s
  | .loopLimits rq => Sys2Proof.Machine.execLoopLimits rq s
  | .loopObserver rq => Sys2Proof.Machine.execLoopObserver rq s
  | .loopRead rq => Sys2Proof.Machine.execLoopRead rq s
  | .loopStatusRead rq => Sys2Proof.Machine.execLoopStatusRead rq s
  | .ppConfig rq => Sys2Proof.Machine.execPpConfig rq s
  | .ppSetPosition rq => Sys2Proof.Machine.execPpSetPosition rq s
  | .ppIndexConfig rq => Sys2Proof.Machine.execPpIndexConfig rq s
  | .ppSpeedConfig rq => Sys2Proof.Machine.execPpSpeedConfig rq s
  | .ppLossConfig rq => Sys2Proof.Machine.execPpLossConfig rq s
  | .ppStatusRead rq => Sys2Proof.Machine.execPpStatusRead rq s
  | .compareDefine rq => Sys2Proof.Machine.execCompareDefine rq s
  | .compareData rq => Sys2Proof.Machine.execCompareData rq s
  | .compareArm rq => Sys2Proof.Machine.execCompareArm rq s
  | .compareForce rq => Sys2Proof.Machine.execCompareForce rq s
  | .latchConfig rq => Sys2Proof.Machine.execLatchConfig rq s
  | .latchRead rq => Sys2Proof.Machine.execLatchRead rq s
  | .snapshotConfig rq => Sys2Proof.Machine.execSnapshotConfig rq s
  | .snapshotRead rq => Sys2Proof.Machine.execSnapshotRead rq s
  | .snapshotTrigger rq => Sys2Proof.Machine.execSnapshotTrigger rq s
  | .btaGroupConfig rq => Sys2Proof.Machine.execBtaGroupConfig rq s
  | .btaLegConfig rq => Sys2Proof.Machine.execBtaLegConfig rq s
  | .btaTripConfig rq => Sys2Proof.Machine.execBtaTripConfig rq s
  | .btaTripClear rq => Sys2Proof.Machine.execBtaTripClear rq s
  | .btaBlankConfig rq => Sys2Proof.Machine.execBtaBlankConfig rq s
  | .btaTripInputConfig rq => Sys2Proof.Machine.execBtaTripInputConfig rq s
  | .btaSdcConfig rq => Sys2Proof.Machine.execBtaSdcConfig rq s
  | .btaSdiConfig rq => Sys2Proof.Machine.execBtaSdiConfig rq s
  | .btaDutySet rq => Sys2Proof.Machine.execBtaDutySet rq s
  | .btaBankLevel rq => Sys2Proof.Machine.execBtaBankLevel rq s
  | .btaStatusRead rq => Sys2Proof.Machine.execBtaStatusRead rq s
  | .stepperConfig rq => Sys2Proof.Machine.execStepperConfig rq s
  | .stepperStatusRead rq => Sys2Proof.Machine.execStepperStatusRead rq s
  | .stepperSetPosition rq => Sys2Proof.Machine.execStepperSetPosition rq s
  | .brickRegister rq => Sys2Proof.Machine.execBrickRegister rq s
  | .frameGroupConfig rq => Sys2Proof.Machine.execFrameGroupConfig rq s
  | .brickStatus rq => Sys2Proof.Machine.execBrickStatus rq s
  | .netAddrConfig rq => Sys2Proof.Machine.execNetAddrConfig rq s
  | .portConfig rq => Sys2Proof.Machine.execPortConfig rq s
  | .vlanConfig rq => Sys2Proof.Machine.execVlanConfig rq s
  | .fdbStatic rq => Sys2Proof.Machine.execFdbStatic rq s
  | .gateListSet rq => Sys2Proof.Machine.execGateListSet rq s
  | .cbsConfig rq => Sys2Proof.Machine.execCbsConfig rq s
  | .portStatusRead rq => Sys2Proof.Machine.execPortStatusRead rq s
  | .ptpConfig rq => Sys2Proof.Machine.execPtpConfig rq s
  | .ptpStatus rq => Sys2Proof.Machine.execPtpStatus rq s
  | .timebaseConfig rq => Sys2Proof.Machine.execTimebaseConfig rq s
  | .timebaseSet rq => Sys2Proof.Machine.execTimebaseSet rq s
  | .timebaseStatus rq => Sys2Proof.Machine.execTimebaseStatus rq s
  | .domainTrust rq => Sys2Proof.Machine.execDomainTrust rq s
  | .tsoConfig rq => Sys2Proof.Machine.execTsoConfig rq s
  | .tsoStatusRead rq => Sys2Proof.Machine.execTsoStatusRead rq s
  | .lodgeRead rq => Sys2Proof.Machine.execLodgeRead rq s
  | .lodgeParamStage rq => Sys2Proof.Machine.execLodgeParamStage rq s
  | .lodgeParamConfirm rq => Sys2Proof.Machine.execLodgeParamConfirm rq s
  | .lodgeKeyEnrol rq => Sys2Proof.Machine.execLodgeKeyEnrol rq s
  | .lodgeFaultClear rq => Sys2Proof.Machine.execLodgeFaultClear rq s
  | .fioGroupConfig rq => Sys2Proof.Machine.execFioGroupConfig rq s
  | .fioInputConfig rq => Sys2Proof.Machine.execFioInputConfig rq s
  | .fioOutputConfig rq => Sys2Proof.Machine.execFioOutputConfig rq s
  | .fioOutputSet rq => Sys2Proof.Machine.execFioOutputSet rq s
  | .fioRead rq => Sys2Proof.Machine.execFioRead rq s
  | .fioClear rq => Sys2Proof.Machine.execFioClear rq s
  | .canConfig rq => Sys2Proof.Machine.execCanConfig rq s
  | .canFilterSet rq => Sys2Proof.Machine.execCanFilterSet rq s
  | .canTtConfig rq => Sys2Proof.Machine.execCanTtConfig rq s
  | .canTtBufferSet rq => Sys2Proof.Machine.execCanTtBufferSet rq s
  | .canTx rq => Sys2Proof.Machine.execCanTx rq s
  | .canRxRead rq => Sys2Proof.Machine.execCanRxRead rq s
  | .canStatusRead rq => Sys2Proof.Machine.execCanStatusRead rq s
  | .canBitrateDetect rq => Sys2Proof.Machine.execCanBitrateDetect rq s
  | .canBusRecover rq => Sys2Proof.Machine.execCanBusRecover rq s
  | .spmProfileSet rq => Sys2Proof.Machine.execSpmProfileSet rq s
  | .spmDiscover rq => Sys2Proof.Machine.execSpmDiscover rq s
  | .spmErase rq => Sys2Proof.Machine.execSpmErase rq s
  | .spmFlush rq => Sys2Proof.Machine.execSpmFlush rq s
  | .spmStatusRead rq => Sys2Proof.Machine.execSpmStatusRead rq s
  | .sphStatusRead rq => Sys2Proof.Machine.execSphStatusRead rq s
  | .acqChannelConfig rq => Sys2Proof.Machine.execAcqChannelConfig rq s
  | .acqPinConfig rq => Sys2Proof.Machine.execAcqPinConfig rq s
  | .acqTriggerConfig rq => Sys2Proof.Machine.execAcqTriggerConfig rq s
  | .acqEnvelopeSet rq => Sys2Proof.Machine.execAcqEnvelopeSet rq s
  | .acqCaptureConfig rq => Sys2Proof.Machine.execAcqCaptureConfig rq s
  | .acqArm rq => Sys2Proof.Machine.execAcqArm rq s
  | .acqStop rq => Sys2Proof.Machine.execAcqStop rq s
  | .acqForce rq => Sys2Proof.Machine.execAcqForce rq s
  | .acqRead rq => Sys2Proof.Machine.execAcqRead rq s
  | .acqStatusRead rq => Sys2Proof.Machine.execAcqStatusRead rq s
  | .acqCalibrate rq => Sys2Proof.Machine.execAcqCalibrate rq s
  | .pluginLoad rq => Sys2Proof.Machine.execPluginLoad rq s
  | .threadDefine rq => Sys2Proof.Machine.execThreadDefine rq s
  | .threadEnable rq => Sys2Proof.Machine.execThreadEnable rq s
  | .threadSignal rq => Sys2Proof.Machine.execThreadSignal rq s
  | .threadTimerConfig rq => Sys2Proof.Machine.execThreadTimerConfig rq s
  | .pluginPortConfig rq => Sys2Proof.Machine.execPluginPortConfig rq s
  | .threadStatusRead rq => Sys2Proof.Machine.execThreadStatusRead rq s
  | .laneStatusRead rq => Sys2Proof.Machine.execLaneStatusRead rq s
  | .laneKeyEnrol rq => Sys2Proof.Machine.execLaneKeyEnrol rq s
  | .tallyRead rq => Sys2Proof.Machine.execTallyRead rq s
  | .faultRead rq => Sys2Proof.Machine.execFaultRead rq s
  | .faultAck rq => Sys2Proof.Machine.execFaultAck rq s
  | .eventRead rq => Sys2Proof.Machine.execEventRead rq s
  | .sphWriteFrame addr words fin => Sys2Proof.Machine.execSphWriteFrame addr words fin s
  | .sphReadFrame addr len fin => Sys2Proof.Machine.execSphReadFrame addr len fin s
  | .sphPacketIn bytes fin => Sys2Proof.Machine.execSphPacketIn bytes fin s
  | .sphPacketOut len fin => Sys2Proof.Machine.execSphPacketOut len fin s
  | .sphStatusFrame fin => Sys2Proof.Machine.execSphStatusFrame fin s
  | .indDataRead ctx => Sys2Proof.Machine.execIndDataRead ctx s
  | .indDataWrite ctx value => Sys2Proof.Machine.execIndDataWrite ctx value s
  | .indAddrWrite ctx value => Sys2Proof.Machine.execIndAddrWrite ctx value s
  | .indCtrlWrite ctx value => Sys2Proof.Machine.execIndCtrlWrite ctx value s
  | .indAccessTimeout ctx => Sys2Proof.Machine.execIndAccessTimeout ctx s
  | .updStrobeWrite ctx value => Sys2Proof.Machine.execUpdStrobeWrite ctx value s
  | .updateTakeover group => Sys2Proof.Machine.execUpdateTakeover group s
  | .wideLowRead ctx addr => Sys2Proof.Machine.execWideLowRead ctx addr s
  | .wideHighRead ctx addr => Sys2Proof.Machine.execWideHighRead ctx addr s
  | .wideLowWrite ctx addr value => Sys2Proof.Machine.execWideLowWrite ctx addr value s
  | .wideHighWrite ctx addr value => Sys2Proof.Machine.execWideHighWrite ctx addr value s
  | .rcRegisterRead ctx addr bytes => Sys2Proof.Machine.execRcRegisterRead ctx addr bytes s
  | .registerWrite ctx addr bytes value => Sys2Proof.Machine.execRegisterWrite ctx addr bytes value s
  | .grpSealWrite ctx group value => Sys2Proof.Machine.execGrpSealWrite ctx group value s
  | .legCmpbSealWrite ctx group value => Sys2Proof.Machine.execLegCmpbSealWrite ctx group value s
  | .legDutyWrite ctx leg value => Sys2Proof.Machine.execLegDutyWrite ctx leg value s
  | .grpTripClear ctx group => Sys2Proof.Machine.execGrpTripClear ctx group s
  | .fioDoWrite ctx group cmd => Sys2Proof.Machine.execFioDoWrite ctx group cmd s
  | .xipRead ctx addr => Sys2Proof.Machine.execXipRead ctx addr s
  | .xipWrite ctx addr value => Sys2Proof.Machine.execXipWrite ctx addr value s
  | .spmBufferTimeout sel => Sys2Proof.Machine.execSpmBufferTimeout sel s
  | .spmStatusPoll sel busy => Sys2Proof.Machine.execSpmStatusPoll sel busy s
  | .spmOpTimeout sel => Sys2Proof.Machine.execSpmOpTimeout sel s
  | .resetRelease => Sys2Proof.Machine.execResetRelease s
  | .keeperStart => Sys2Proof.Machine.execKeeperStart s
  | .gardenerStart => Sys2Proof.Machine.execGardenerStart s
  | .gardenerReady => Sys2Proof.Machine.execGardenerReady s
  | .autostart => Sys2Proof.Machine.execAutostart s
  | .gardenerWatchdog => Sys2Proof.Machine.execGardenerWatchdog s
  | .keeperWatchdog => Sys2Proof.Machine.execKeeperWatchdog s
  | .vlogLow => Sys2Proof.Machine.execVlogLow s
  | .resetPin => Sys2Proof.Machine.execResetPin s
  | .referenceLoss => Sys2Proof.Machine.execReferenceLoss s
  | .pllLock => Sys2Proof.Machine.execPllLock s
  | .vsafLoss => Sys2Proof.Machine.execVsafLoss s
  | .vsafReturn => Sys2Proof.Machine.execVsafReturn s
  | .tempSample hottest => Sys2Proof.Machine.execTempSample hottest s
  | .bandFall => Sys2Proof.Machine.execBandFall s
  | .voltageRampEnd => Sys2Proof.Machine.execVoltageRampEnd s
  | .powerStateEval => Sys2Proof.Machine.execPowerStateEval s
  | .wakeEvent => Sys2Proof.Machine.execWakeEvent s
  | .wakeTimerExpiry => Sys2Proof.Machine.execWakeTimerExpiry s
  | .wakeComplete => Sys2Proof.Machine.execWakeComplete s
  | .keeperHeartbeat word => Sys2Proof.Machine.execKeeperHeartbeat word s
  | .tallyAudit => Sys2Proof.Machine.execTallyAudit s
  | .voteScrub addr width resetVal c0 c1 c2 => Sys2Proof.Machine.execVoteScrub addr width resetVal c0 c1 c2 s
  | .memoryScrub addr symbols => Sys2Proof.Machine.execMemoryScrub addr symbols s
  | .loopSample slot loop => Sys2Proof.Machine.execLoopSample slot loop s
  | .loopResultReady slot loop => Sys2Proof.Machine.execLoopResultReady slot loop s
  | .loopRelease slot loop => Sys2Proof.Machine.execLoopRelease slot loop s
  | .ainConversion channel code => Sys2Proof.Machine.execAinConversion channel code s
  | .plannerBoundary unit => Sys2Proof.Machine.execPlannerBoundary unit s
  | .standstillEntry slot => Sys2Proof.Machine.execStandstillEntry slot s
  | .alignmentComplete slot => Sys2Proof.Machine.execAlignmentComplete slot s
  | .reactionComplete slot => Sys2Proof.Machine.execReactionComplete slot s
  | .observerStartTimeout slot => Sys2Proof.Machine.execObserverStartTimeout slot s
  | .periodBoundary group => Sys2Proof.Machine.execPeriodBoundary group s
  | .tripInputAccepted input level => Sys2Proof.Machine.execTripInputAccepted input level s
  | .overcurrentDetect input => Sys2Proof.Machine.execOvercurrentDetect input s
  | .blankWindowEnd timer => Sys2Proof.Machine.execBlankWindowEnd timer s
  | .delayLineCalibration leg nCal => Sys2Proof.Machine.execDelayLineCalibration leg nCal s
  | .calFallback leg => Sys2Proof.Machine.execCalFallback leg s
  | .bankLevelSettled bank => Sys2Proof.Machine.execBankLevelSettled bank s
  | .holdRampEnd slot => Sys2Proof.Machine.execHoldRampEnd slot s
  | .freewheelStart slot => Sys2Proof.Machine.execFreewheelStart slot s
  | .freewheelLimitExceeded slot => Sys2Proof.Machine.execFreewheelLimitExceeded slot s
  | .wakeRampEnd slot => Sys2Proof.Machine.execWakeRampEnd slot s
  | .ppEdgeAccepted port lines => Sys2Proof.Machine.execPpEdgeAccepted port lines s
  | .ssiFrameStart port => Sys2Proof.Machine.execSsiFrameStart port s
  | .ssiFrameEnd port data timeout => Sys2Proof.Machine.execSsiFrameEnd port data timeout s
  | .sincosSample port sineCode cosineCode => Sys2Proof.Machine.execSincosSample port sineCode cosineCode s
  | .speedEvaluation port => Sys2Proof.Machine.execSpeedEvaluation port s
  | .speedStandstillTimeout port => Sys2Proof.Machine.execSpeedStandstillTimeout port s
  | .lineFault port => Sys2Proof.Machine.execLineFault port s
  | .hallIllegal port => Sys2Proof.Machine.execHallIllegal port s
  | .freezeDetect port => Sys2Proof.Machine.execFreezeDetect port s
  | .encoderSupplyLimit supply => Sys2Proof.Machine.execEncoderSupplyLimit supply s
  | .lossClear port => Sys2Proof.Machine.execLossClear port s
  | .comparePulseEnd unit => Sys2Proof.Machine.execComparePulseEnd unit s
  | .latchEvent pin rise => Sys2Proof.Machine.execLatchEvent pin rise s
  | .latchCapture unit => Sys2Proof.Machine.execLatchCapture unit s
  | .snapshotCapture => Sys2Proof.Machine.execSnapshotCapture s
  | .draymanInbound port mac payload => Sys2Proof.Machine.execDraymanInbound port mac payload s
  | .brickRecordDeadline brick => Sys2Proof.Machine.execBrickRecordDeadline brick s
  | .draymanLaunch group => Sys2Proof.Machine.execDraymanLaunch group s
  | .stoFrame => Sys2Proof.Machine.execStoFrame s
  | .cyclicFrameRx port frame => Sys2Proof.Machine.execCyclicFrameRx port frame s
  | .cyclicApply map => Sys2Proof.Machine.execCyclicApply map s
  | .cyclicSample map => Sys2Proof.Machine.execCyclicSample map s
  | .cyclicLaunch map => Sys2Proof.Machine.execCyclicLaunch map s
  | .cyclicEnableEffect map => Sys2Proof.Machine.execCyclicEnableEffect map s
  | .linkUp port gigabit fast crossed phyOk => Sys2Proof.Machine.execLinkUp port gigabit fast crossed phyOk s
  | .linkDown port => Sys2Proof.Machine.execLinkDown port s
  | .frameIngress port frame fcsOk => Sys2Proof.Machine.execFrameIngress port frame fcsOk s
  | .frameEgress port => Sys2Proof.Machine.execFrameEgress port s
  | .arpRequest port senderMac senderIp targetIp => Sys2Proof.Machine.execArpRequest port senderMac senderIp targetIp s
  | .icmpEcho port senderMac senderIp targetIp message => Sys2Proof.Machine.execIcmpEcho port senderMac senderIp targetIp message s
  | .fdbAgeOut mac vid => Sys2Proof.Machine.execFdbAgeOut mac vid s
  | .gateEntryChange port => Sys2Proof.Machine.execGateEntryChange port s
  | .gateListTakeover port => Sys2Proof.Machine.execGateListTakeover port s
  | .preemptVerify port ok => Sys2Proof.Machine.execPreemptVerify port ok s
  | .syncReceived inst port gm steps time => Sys2Proof.Machine.execSyncReceived inst port gm steps time s
  | .pdelayExchange port delay answered => Sys2Proof.Machine.execPdelayExchange port delay answered s
  | .syncReceiptTimeout inst => Sys2Proof.Machine.execSyncReceiptTimeout inst s
  | .holdoverExpiry base => Sys2Proof.Machine.execHoldoverExpiry base s
  | .gmSyncSend inst => Sys2Proof.Machine.execGmSyncSend inst s
  | .tsoInstant out => Sys2Proof.Machine.execTsoInstant out s
  | .tsoPulseEnd out => Sys2Proof.Machine.execTsoPulseEnd out s
  | .siLevelAccepted input level => Sys2Proof.Machine.execSiLevelAccepted input level s
  | .testPulse tp missing foreign => Sys2Proof.Machine.execTestPulse tp missing foreign s
  | .discrepancyTimeout pair => Sys2Proof.Machine.execDiscrepancyTimeout pair s
  | .lodgeSnapshot => Sys2Proof.Machine.execLodgeSnapshot s
  | .lodgeCommandInstant disagree internal => Sys2Proof.Machine.execLodgeCommandInstant disagree internal s
  | .ss1QuickStop => Sys2Proof.Machine.execSs1QuickStop s
  | .ss1DelayExpiry out => Sys2Proof.Machine.execSs1DelayExpiry out s
  | .stoinDemand a b => Sys2Proof.Machine.execStoinDemand a b s
  | .stoinRelease => Sys2Proof.Machine.execStoinRelease s
  | .stoinDiscrepancy => Sys2Proof.Machine.execStoinDiscrepancy s
  | .referenceTimeout => Sys2Proof.Machine.execReferenceTimeout s
  | .heartbeatTimeout => Sys2Proof.Machine.execHeartbeatTimeout s
  | .supervisionRelease reference => Sys2Proof.Machine.execSupervisionRelease reference s
  | .lodgeOvertemp temp => Sys2Proof.Machine.execLodgeOvertemp temp s
  | .lodgeSelfTestEnd passed => Sys2Proof.Machine.execLodgeSelfTestEnd passed s
  | .lodgeSwitchingEnd => Sys2Proof.Machine.execLodgeSwitchingEnd s
  | .safeOutputTest out pStuck mStuck cross => Sys2Proof.Machine.execSafeOutputTest out pStuck mStuck cross s
  | .safeOutputOverload out => Sys2Proof.Machine.execSafeOutputOverload out s
  | .safeOutputOpenLoad out => Sys2Proof.Machine.execSafeOutputOpenLoad out s
  | .testOverdue out => Sys2Proof.Machine.execTestOverdue out s
  | .diEdgeAccepted input level => Sys2Proof.Machine.execDiEdgeAccepted input level s
  | .openWire input => Sys2Proof.Machine.execOpenWire input s
  | .overload output => Sys2Proof.Machine.execOverload output s
  | .fioOvertemp output => Sys2Proof.Machine.execFioOvertemp output s
  | .openLoad output => Sys2Proof.Machine.execOpenLoad output s
  | .backfeed output => Sys2Proof.Machine.execBackfeed output s
  | .outputRetry output ok => Sys2Proof.Machine.execOutputRetry output ok s
  | .fioLinkRefresh group => Sys2Proof.Machine.execFioLinkRefresh group s
  | .fioRefreshTimeout group => Sys2Proof.Machine.execFioRefreshTimeout group s
  | .fieldGroupLost group => Sys2Proof.Machine.execFieldGroupLost group s
  | .supplySag group vf => Sys2Proof.Machine.execSupplySag group vf s
  | .supplyLost group vf => Sys2Proof.Machine.execSupplyLost group vf s
  | .dieUnpowered group vf => Sys2Proof.Machine.execDieUnpowered group vf s
  | .diePowerReturn group vf => Sys2Proof.Machine.execDiePowerReturn group vf s
  | .fioAutoReenable group => Sys2Proof.Machine.execFioAutoReenable group s
  | .canFrameReceived ctl frame esi age => Sys2Proof.Machine.execCanFrameReceived ctl frame esi age s
  | .canTxComplete ctl delay => Sys2Proof.Machine.execCanTxComplete ctl delay s
  | .canBusError ctl counted severe hit => Sys2Proof.Machine.execCanBusError ctl counted severe hit s
  | .canBusOffRecovery ctl => Sys2Proof.Machine.execCanBusOffRecovery ctl s
  | .canCycleStart ctl idle => Sys2Proof.Machine.execCanCycleStart ctl idle s
  | .canBufferFreeze ctl => Sys2Proof.Machine.execCanBufferFreeze ctl s
  | .canWindowStart ctl idle => Sys2Proof.Machine.execCanWindowStart ctl idle s
  | .refLost ctl => Sys2Proof.Machine.execRefLost ctl s
  | .canDetectDwellEnd ctl => Sys2Proof.Machine.execCanDetectDwellEnd ctl s
  | .acqChannelSample chan => Sys2Proof.Machine.execAcqChannelSample chan s
  | .acqPinChange levels => Sys2Proof.Machine.execAcqPinChange levels s
  | .acqTriggerOccurrence units => Sys2Proof.Machine.execAcqTriggerOccurrence units s
  | .acqRearm => Sys2Proof.Machine.execAcqRearm s
  | .acqHoldoffEnd => Sys2Proof.Machine.execAcqHoldoffEnd s
  | .threadStart lane => Sys2Proof.Machine.execThreadStart lane s
  | .threadPreempt lane => Sys2Proof.Machine.execThreadPreempt lane s
  | .threadResume lane => Sys2Proof.Machine.execThreadResume lane s
  | .dispatchTimerInstant timer => Sys2Proof.Machine.execDispatchTimerInstant timer s
  | .laneNop lane => Sys2Proof.Machine.execLaneNop lane s
  | .laneAdd lane => Sys2Proof.Machine.execLaneAdd lane s
  | .laneSub lane => Sys2Proof.Machine.execLaneSub lane s
  | .laneAdds lane => Sys2Proof.Machine.execLaneAdds lane s
  | .laneSubs lane => Sys2Proof.Machine.execLaneSubs lane s
  | .laneMul lane => Sys2Proof.Machine.execLaneMul lane s
  | .laneMulh lane => Sys2Proof.Machine.execLaneMulh lane s
  | .laneAnd lane => Sys2Proof.Machine.execLaneAnd lane s
  | .laneOr lane => Sys2Proof.Machine.execLaneOr lane s
  | .laneXor lane => Sys2Proof.Machine.execLaneXor lane s
  | .laneShl lane => Sys2Proof.Machine.execLaneShl lane s
  | .laneShr lane => Sys2Proof.Machine.execLaneShr lane s
  | .laneSar lane => Sys2Proof.Machine.execLaneSar lane s
  | .laneMin lane => Sys2Proof.Machine.execLaneMin lane s
  | .laneMax lane => Sys2Proof.Machine.execLaneMax lane s
  | .laneAbs lane => Sys2Proof.Machine.execLaneAbs lane s
  | .laneAddi lane => Sys2Proof.Machine.execLaneAddi lane s
  | .laneLui lane => Sys2Proof.Machine.execLaneLui lane s
  | .laneOri lane => Sys2Proof.Machine.execLaneOri lane s
  | .laneShli lane => Sys2Proof.Machine.execLaneShli lane s
  | .laneSari lane => Sys2Proof.Machine.execLaneSari lane s
  | .laneShri lane => Sys2Proof.Machine.execLaneShri lane s
  | .laneLd lane => Sys2Proof.Machine.execLaneLd lane s
  | .laneSt lane => Sys2Proof.Machine.execLaneSt lane s
  | .laneSetx lane => Sys2Proof.Machine.execLaneSetx lane s
  | .laneGetx lane => Sys2Proof.Machine.execLaneGetx lane s
  | .laneClr lane => Sys2Proof.Machine.execLaneClr lane s
  | .laneMpy lane => Sys2Proof.Machine.execLaneMpy lane s
  | .laneMac lane => Sys2Proof.Machine.execLaneMac lane s
  | .laneMsu lane => Sys2Proof.Machine.execLaneMsu lane s
  | .laneMacx lane => Sys2Proof.Machine.execLaneMacx lane s
  | .laneAdda lane => Sys2Proof.Machine.execLaneAdda lane s
  | .laneSha lane => Sys2Proof.Machine.execLaneSha lane s
  | .laneExp lane => Sys2Proof.Machine.execLaneExp lane s
  | .laneNorm lane => Sys2Proof.Machine.execLaneNorm lane s
  | .laneMovah lane => Sys2Proof.Machine.execLaneMovah lane s
  | .laneLda lane => Sys2Proof.Machine.execLaneLda lane s
  | .laneBeq lane => Sys2Proof.Machine.execLaneBeq lane s
  | .laneBne lane => Sys2Proof.Machine.execLaneBne lane s
  | .laneBlt lane => Sys2Proof.Machine.execLaneBlt lane s
  | .laneBge lane => Sys2Proof.Machine.execLaneBge lane s
  | .laneBra lane => Sys2Proof.Machine.execLaneBra lane s
  | .laneCall lane => Sys2Proof.Machine.execLaneCall lane s
  | .laneRet lane => Sys2Proof.Machine.execLaneRet lane s
  | .laneRep lane => Sys2Proof.Machine.execLaneRep lane s
  | .laneEnd lane => Sys2Proof.Machine.execLaneEnd lane s
  | .laneMode lane => Sys2Proof.Machine.execLaneMode lane s
  | .laneGetf lane => Sys2Proof.Machine.execLaneGetf lane s
  | .commandSignalEdge leg rise => Sys2Proof.Machine.execCommandSignalEdge leg rise s
  | .overcurrentInactive input => Sys2Proof.Machine.execOvercurrentInactive input s
  | .arbitrationLost ctl => Sys2Proof.Machine.execArbitrationLost ctl s
  | .sphBadCmdFrame => Sys2Proof.Machine.execSphBadCmdFrame s
  | .xipReadTimeout ctx => Sys2Proof.Machine.execXipReadTimeout ctx s
  | .sphWordTimeout addr => Sys2Proof.Machine.execSphWordTimeout addr s
  | .lodgeImageInstalled acceptsFormat => Sys2Proof.Machine.execLodgeImageInstalled acceptsFormat s
  | .announceReceiptTimeout inst port other => Sys2Proof.Machine.execAnnounceReceiptTimeout inst port other s
  | .fieldSupplyReturn group vf => Sys2Proof.Machine.execFieldSupplyReturn group vf s
  | .openWireClear input => Sys2Proof.Machine.execOpenWireClear input s
  | .openLoadClear output => Sys2Proof.Machine.execOpenLoadClear output s
  | .backfeedClear output => Sys2Proof.Machine.execBackfeedClear output s
  | .fioOvertempClear output => Sys2Proof.Machine.execFioOvertempClear output s

end Sys2Proof.Machine
end

