-- ==== Sys2Proof/Machine/Idle.lean ====
section
/-! DEFINITION.
What one clock tick does on an empty queue (log entry 1): SYS_TICK, the time bases, the group counters, the turn-ons of
legs and the trips that have fallen due, the levels that have settled. -/

namespace Sys2Proof.Machine

/-- AON counts microseconds in every device state, Reset included; in Rest and without the reference its coarse count goes on in
the place of TBASE0 (R33, R35, R478). The RC oscillator that keeps the count there counts exactly 1 µs per 500 ticks, within the 5 %
R18 gives it (DESIGN CHOICE, log entry 49). -/
def Power.aonTick (slow : Bool) (p : Power) : Power :=
  if p.aonSub + 1 < 500 then { p with aonSub := p.aonSub + 1 }
  else { p with aonSub := 0, aonUs := p.aonUs + 1, coarse := p.coarse + bit slow }

/-- Ticks are counted while the block is out of Reset (R10), those in which TB stands still apart. -/
def tickSys (s : State) : State :=
  let s1 := s.onPower (Power.aonTick (s.power.power = .rest || s.power.refLost))
  if s.sys.dev = .reset then s1
  else s1.onSys fun y => { y with tick := y.tick + 1, stopped := y.stopped + bit (!tbRuns s) }

/-- A time base advances by 2 ns and its rate correction (R327, R328). -/
def TimeBase.advance (t : TimeBase) : TimeBase := { t with val := ((t.val : Int) + 2 ^ 40 + t.rate).toNat }

/-- A running counter: c goes from 0 to PERIOD - 1 and round once the group's first boundary has come (R252), with the
one-tick change of a SYNC group (R253); what a boundary does is PERIOD_BOUNDARY. -/
def BtaGroup.advance (g : BtaGroup) : BtaGroup :=
  if g.run && g.startDue.isNone then
    { g with count := if (g.count : Int) + 1 < (g.period.active.toNat : Int) + g.lengthen then g.count + 1 else 0 }
  else g

/-- Does a modulator clock run (R273)? An auto clock does for an input that is bound, read as a DC link or enabled. -/
def clockRuns (k : Fin 12) (s : State) : Bool :=
  let c := s.bta.sdc[k]
  c.enable == 1 || (c.enable == 2 &&
    ((List.finRange 64).any (fun (i : Fin 64) => s.axis[i].bind.inputs.any (fun n => n / 8 == k.val) ||
        (s.loop.slot[i].dcSource == 2 && s.loop.slot[i].dcIndex / 8 == k.val)) ||
     (List.finRange 8).any (fun (j : Fin 8) => s.bta.sdi[(⟨8 * k.val + j.val, by omega⟩ : Fin 96)].enabled)))

/-- Is this tick a capture of a clock's modulator bits: CAPTURE_DELAY after a rising edge, the dividers having started with
SYS_TICK (R273)? -/
def captureTick (c : Sdc) (now : Nat) : Bool := decide (c.capture ≤ now) && (now - c.capture) % max c.div 1 == 0

/-- The decimated value of a sum S over the sinc filter (R274). -/
def decimated (osr sum : Nat) : Word :=
  let n : Int := osr ^ 3
  let d : Int := ((sum : Int) - n / 2) * 4294967296 / max n 1
  BitVec.ofInt 32 (min d 2147483647)

/-- A running clock captures a bit at this tick. -/
def clockTicks (k : Fin 12) (s : State) : Bool := captureTick s.bta.sdc[k] s.sysTick && clockRuns k s

/-- The modulator bits come from outside: after each the sum S of a running input is a free value from 0 to OSR³ (R274, log
entry 6). -/
def tickSdi (s : State) : State :=
  if !domainsRun s then s
  else if (List.finRange 12).any (fun (k : Fin 12) => clockTicks k s) then
    let bits := fun (n : Fin 96) (x : Sdi) =>
      if clockTicks ⟨n.val / 8, by omega⟩ s then
        { x with value := decimated x.osr (Config.freeNat (s.sys.free + n.val) % (x.osr ^ 3 + 1)) }
      else x
    let s1 := s.onBta fun b => { b with sdi := updAll b.sdi bits }
    s1.onSys fun y => { y with free := y.free + 96 }
  else s

/-- Counters and legs: they stand still in Nap and Rest (R277). -/
def tickBta (s : State) : State :=
  if !domainsRun s then s
  else s.onBta fun b => { b with
    grp := updAll b.grp fun _ g => g.advance, leg := updAll b.leg fun _ l => l.settle s.now }

/-- Compare actions whose output edge has come reach their outputs (R243). -/
def tickCompare (s : State) : State :=
  if !domainsRun s then s
  else s.onPorts fun b => { b with cmp := updAll b.cmp fun _ c => c.settle s.nowNs }

/-- Time bases advance while their domain runs (R33, R327); without the reference only the AON count goes on, at the rate of
`Power.aonTick` (R18; DESIGN CHOICE, log entry 49). -/
def tickTime (s : State) : State :=
  if !tbRuns s then s
  else s.onNet fun n => { n with tb := updAll n.tb fun _ t => t.advance }.aligned

/-- Lodge counts its own time while it has its supply, whatever the compute die does (R345, R348). -/
def tickLodge (s : State) : State := if s.lodge.st = .absent then s else s.onLodge fun b => { b with time := b.time + 2 }

/-- The free-running counters advance: SYS_TICK, the time bases, group counters, due turn-ons, modulator clocks; strobes are
captured at their grid instants; a command that waits for its target runs when that is free (R80); in Startup a verify phase may
begin (R492). -/
def idle (s : State) : State :=
  serveBlocked (captureStrobes (verifyBegins (tickSdi (tickCompare (tickBanks (tickTrips (tickBta (tickLodge (tickCan (tickFio (tickNet (tickTime (tickSys (tickAcq s))))))))))))))

end Sys2Proof.Machine
end

