-- ==== Sys2Proof/Machine/Step.lean ====
section
/-! DEFINITION.
One step: the command at the front of the queue, or one clock tick of an empty queue (log entry 1). -/

namespace Sys2Proof.Machine

/-- The state with the front of its queue taken off. -/
def State.popped (s : State) : State := { s with pending := s.pending.tail }

/-- One step of the block: first in, first out; on an empty queue 2 ns pass. -/
def step (s : State) : Host.Outcome State Fault Refusal :=
  match s.pending with
  | [] => .next (idle s)
  | c :: _ => exec c s.popped

/-- The state with the command a table word spells put in front of its queue; no row of the table gives bits, so no word
spells one and the state is unchanged. -/
def State.withFetchWord (s : State) (nbits w : Nat) : State :=
  match Sys2Proof.decodeTableWord nbits w with
  | some i => { s with pending := i :: s.pending }
  | none => s

end Sys2Proof.Machine
end

