-- ==== Sys2Proof/Safety.lean ====
section
/-! DEFINITION.
What claims are stated in: a good state (memories in canonical form, queues within the depths the spec gives them, Lodge safe outside
Run), what a command may change, a request that is carried out, a lane instruction that is issued. -/

namespace Sys2Proof.Machine

/-- Ruhity queues within their depths: inbox 8, outbox 16 (R75), pending table 256 (R82, 04). -/
def Packets.Ok (k : Packets) : Prop := k.inbox.length ≤ 8 ∧ k.outbox.length ≤ 16 ∧ k.pending.length ≤ 256

/-- SRAM in canonical form; at most 64 fault entries (R473) and 1,024 events (R475, 21). -/
def Integrity.Ok (g : Integrity) : Prop := Memory.wf 0 g.sram = true ∧ g.ring.length ≤ 64 ∧ g.events.length ≤ 1024

/-- Every flash device's contents in canonical form (R52, R401). -/
def SerialBlk.Ok (x : SerialBlk) : Prop := ∀ i : Fin 4, Memory.wf 0xFF x.sel[i].flash = true

/-- Every lane's data memory in canonical form (R447, 20). -/
def LanesBlk.Ok (x : LanesBlk) : Prop := ∀ l : Fin 8, Memory.wf 0 x.lane[l].data = true

/-- Lodge outside Run: STO held and every safe output open (R345, 15). -/
def LodgeBlk.Ok (b : LodgeBlk) : Prop := b.st = .run ∨ (b.sto = true ∧ ∀ n : Fin 4, b.out[n].on = false)

/-- A good state. -/
def State.Good (s : State) : Prop := s.pkts.Ok ∧ s.integ.Ok ∧ s.serial.Ok ∧ s.lanes.Ok ∧ s.lodge.Ok

/-! What a command may change. -/

/-- The blocks of the state; after the queue stand parts of blocks: the memories within integ, serial and
lanes; and within sys the device state, the contexts and the count of free values drawn, which .sys does not take in. -/
inductive Block
  | sys
  | power
  | boot
  | pkts
  | integ
  | axis
  | plan
  | gear
  | loop
  | ports
  | bta
  | stepper
  | bricks
  | net
  | lodge
  | fio
  | can
  | serial
  | acq
  | lanes
  | store
  | pending
  | sram
  | flash
  | ldata
  | dev
  | ctx
  | free
deriving DecidableEq, Repr

/-- Every block but the queue. -/
abbrev everyBlock : List Block :=
  [.sys, .power, .boot, .pkts, .integ, .axis, .plan, .gear, .loop, .ports, .bta, .stepper, .bricks, .net, .lodge, .fio, .can, .serial, .acq, .lanes, .store, .sram, .flash, .ldata, .dev, .ctx, .free]

/-- Every block but the queue, SRAM and the contexts: what the effects of the opcodes may change. -/
abbrev opBlocks : List Block :=
  [.sys, .power, .boot, .pkts, .integ, .axis, .plan, .gear, .loop, .ports, .bta, .stepper, .bricks, .net, .lodge, .fio, .can, .serial, .acq, .lanes, .store, .flash, .ldata, .dev, .free]

/-- A block is the same in two states. -/
def Block.same (s t : State) : Block → Prop
  | .sys => { t.sys with dev := s.sys.dev, ctx := s.sys.ctx, free := s.sys.free } = s.sys
  | .power => t.power = s.power
  | .boot => t.boot = s.boot
  | .pkts => t.pkts = s.pkts
  | .integ => t.integ = s.integ
  | .axis => t.axis = s.axis
  | .plan => t.plan = s.plan
  | .gear => t.gear = s.gear
  | .loop => t.loop = s.loop
  | .ports => t.ports = s.ports
  | .bta => t.bta = s.bta
  | .stepper => t.stepper = s.stepper
  | .bricks => t.bricks = s.bricks
  | .net => t.net = s.net
  | .lodge => t.lodge = s.lodge
  | .fio => t.fio = s.fio
  | .can => t.can = s.can
  | .serial => t.serial = s.serial
  | .acq => t.acq = s.acq
  | .lanes => t.lanes = s.lanes
  | .store => t.store = s.store
  | .pending => t.pending = s.pending
  | .sram => t.integ.sram = s.integ.sram
  | .flash => ∀ i : Fin 4, t.serial.sel[i].flash = s.serial.sel[i].flash
  | .ldata => ∀ l : Fin 8, t.lanes.lane[l].data = s.lanes.lane[l].data
  | .dev => t.sys.dev = s.sys.dev
  | .ctx => t.sys.ctx = s.sys.ctx
  | .free => t.sys.free = s.sys.free

/-- The blocks a command may change: its own block, those it acts on (faults, events, replies, tallies among them) and, of an opcode
whose effect runs on other blocks, theirs. -/
def changes : Instr → List Block
  | .ruhityDatagram .. | .pendingCommit .. | .deferredEffect .. =>
      opBlocks
  | .inboxTake .. | .wakeComplete .. =>
      everyBlock
  | .broadcastReply .. | .authLockoutEnd .. =>
      [.pkts]
  | .resetEntry .. | .keeperWatchdog .. | .vlogLow .. | .resetPin .. =>
      [.sys, .power, .boot, .pkts, .integ, .axis, .plan, .gear, .loop, .ports, .bta, .stepper, .bricks, .net, .can, .serial, .acq, .lanes, .flash, .ldata, .dev, .ctx, .free]
  | .imageSessionTimeout .. =>
      [.boot]
  | .ping .. | .getInfo .. | .cancel .. | .identityRead .. | .authKeySet .. | .authPolicySet .. | .cyclicMapStatus ..
  | .axisStatus .. | .groupStatus .. | .storeStatus .. | .gearStatusRead .. | .loopRead .. | .ppStatusRead .. | .btaStatusRead ..
  | .stepperStatusRead .. | .brickStatus .. | .portStatusRead .. | .ptpStatus .. | .timebaseStatus .. | .tsoStatusRead ..
  | .lodgeRead .. | .fioRead .. | .canStatusRead .. | .spmDiscover .. | .spmStatusRead .. | .sphStatusRead .. | .laneStatusRead ..
  | .tallyRead .. | .faultRead .. | .faultAck .. | .eventRead .. =>
      [.pkts, .integ, .free]
  | .setLatencyTolerance .. | .loopSchedule .. =>
      [.power, .pkts, .integ, .loop, .bta, .free]
  | .getOperatingPoint .. | .loopLoadCascade .. | .loopScales .. | .loopMotor .. | .loopModulation .. | .loopFollow ..
  | .loopLimits .. | .loopObserver .. | .loopStatusRead .. =>
      [.pkts, .integ, .loop, .free]
  | .setWakeTimer .. =>
      [.power, .pkts, .integ, .free]
  | .imageBegin .. | .imageData .. | .imageCommit .. | .imageConfirm .. =>
      [.boot, .pkts, .integ, .serial, .flash, .free]
  | .imageActivate .. =>
      [.sys, .boot, .pkts, .integ, .free]
  | .imageRollback .. =>
      [.sys, .pkts, .integ, .serial, .flash, .free]
  | .setState .. =>
      [.sys, .pkts, .integ, .axis, .plan, .gear, .loop, .bta, .stepper, .bricks, .dev, .free]
  | .reset .. =>
      [.sys, .pkts, .integ, .free]
  | .configSave .. =>
      [.pkts, .integ, .serial, .store, .free]
  | .cyclicMapDefine .. | .cyclicMapEnable .. | .netAddrConfig .. | .portConfig .. | .vlanConfig .. | .fdbStatic ..
  | .gateListSet .. | .cbsConfig .. | .tsoConfig .. =>
      [.pkts, .integ, .net, .free]
  | .axisBind .. =>
      [.power, .pkts, .integ, .axis, .plan, .loop, .ports, .bta, .stepper, .acq, .lanes, .free]
  | .axisSetMode .. =>
      [.power, .pkts, .integ, .axis, .loop, .ports, .bta, .acq, .lanes, .free]
  | .axisEnable .. | .axisDisable .. =>
      [.power, .pkts, .integ, .axis, .plan, .gear, .loop, .bta, .stepper, .bricks, .free]
  | .moveAbs .. | .moveRel .. | .jog .. =>
      [.pkts, .integ, .axis, .plan, .bta, .bricks, .free]
  | .stop .. | .segmentAppend .. | .planAxisConfig .. | .groupDefine .. | .groupStart .. | .groupResume .. | .groupClear .. =>
      [.pkts, .integ, .plan, .free]
  | .overrideSet .. | .compareArm .. | .compareForce .. =>
      [.sys, .pkts, .integ, .plan, .loop, .ports, .bta, .free]
  | .gearLink .. | .gearRatioAt .. | .gearClearPending .. | .camData .. | .camCommit .. | .vmasterSet .. =>
      [.pkts, .integ, .gear, .free]
  | .camDefine .. =>
      [.pkts, .integ, .plan, .gear, .free]
  | .ppConfig .. | .ppLossConfig .. =>
      [.pkts, .integ, .axis, .plan, .gear, .loop, .ports, .bta, .stepper, .bricks, .free]
  | .ppSetPosition .. =>
      [.pkts, .integ, .ports, .stepper, .free]
  | .ppIndexConfig .. | .ppSpeedConfig .. | .compareData .. | .latchConfig .. | .latchRead .. | .snapshotConfig ..
  | .snapshotRead .. | .snapshotTrigger .. =>
      [.pkts, .integ, .ports, .free]
  | .compareDefine .. =>
      [.pkts, .integ, .plan, .ports, .free]
  | .btaGroupConfig .. | .btaDutySet .. =>
      [.sys, .pkts, .integ, .bta, .free]
  | .btaLegConfig .. | .btaTripConfig .. | .btaTripClear .. | .btaBlankConfig .. | .btaTripInputConfig .. | .btaSdcConfig ..
  | .btaSdiConfig .. | .btaBankLevel .. =>
      [.pkts, .integ, .bta, .free]
  | .stepperConfig .. =>
      [.pkts, .integ, .stepper, .free]
  | .stepperSetPosition .. =>
      [.pkts, .integ, .axis, .plan, .stepper, .free]
  | .brickRegister .. | .frameGroupConfig .. =>
      [.power, .pkts, .integ, .loop, .bta, .bricks, .free]
  | .ptpConfig .. | .timebaseConfig .. | .timebaseSet .. | .domainTrust .. | .syncReceived .. | .pdelayExchange .. =>
      [.pkts, .integ, .axis, .plan, .gear, .loop, .bta, .stepper, .bricks, .net, .fio, .lanes, .free]
  | .lodgeParamStage .. | .lodgeKeyEnrol .. | .lodgeFaultClear .. =>
      [.pkts, .integ, .lodge, .free]
  | .lodgeParamConfirm .. | .vsafLoss .. =>
      [.sys, .power, .pkts, .integ, .axis, .plan, .gear, .loop, .bta, .stepper, .bricks, .lodge, .dev, .free]
  | .fioGroupConfig .. | .fioInputConfig .. | .fioOutputConfig .. | .fioOutputSet .. | .fioClear .. =>
      [.pkts, .integ, .fio, .free]
  | .canConfig .. | .canFilterSet .. | .canTtConfig .. | .canTtBufferSet .. | .canTx .. | .canRxRead .. | .canBitrateDetect ..
  | .canBusRecover .. =>
      [.pkts, .integ, .can, .free]
  | .spmProfileSet .. | .spmErase .. | .spmFlush .. =>
      [.pkts, .integ, .serial, .free]
  | .acqChannelConfig .. | .acqPinConfig .. | .acqTriggerConfig .. | .acqEnvelopeSet .. | .acqCaptureConfig .. | .acqRead ..
  | .acqStatusRead .. | .acqCalibrate .. =>
      [.pkts, .integ, .acq, .free]
  | .acqArm .. =>
      [.power, .pkts, .integ, .loop, .bta, .acq, .free]
  | .acqStop .. =>
      [.power, .pkts, .integ, .loop, .bta, .acq, .lanes, .free]
  | .acqForce .. =>
      [.pkts, .integ, .ports, .acq, .free]
  | .pluginLoad .. =>
      [.pkts, .integ, .lanes, .ldata, .free]
  | .threadDefine .. | .threadEnable .. | .threadSignal .. | .threadTimerConfig .. | .pluginPortConfig .. | .threadStatusRead .. =>
      [.pkts, .integ, .lanes, .free]
  | .laneKeyEnrol .. =>
      [.boot, .pkts, .integ, .free]
  | .sphWriteFrame .. | .sphReadFrame .. =>
      [.sys, .power, .pkts, .integ, .axis, .plan, .gear, .loop, .ports, .bta, .stepper, .bricks, .net, .fio, .can, .serial, .acq, .lanes, .sram, .dev, .ctx, .free]
  | .sphPacketIn .. =>
      [.power, .pkts, .serial]
  | .sphPacketOut .. =>
      [.sys, .power, .pkts, .serial]
  | .sphStatusFrame .. | .sphBadCmdFrame .. =>
      [.power, .serial]
  | .indDataRead .. | .indDataWrite .. | .indAddrWrite .. | .indCtrlWrite .. | .indAccessTimeout .. | .updStrobeWrite ..
  | .wideLowRead .. | .wideHighRead .. | .wideLowWrite .. | .wideHighWrite .. | .rcRegisterRead .. | .registerWrite ..
  | .grpSealWrite .. | .legCmpbSealWrite .. | .legDutyWrite .. | .grpTripClear .. | .fioDoWrite .. | .xipRead .. | .xipWrite ..
  | .xipReadTimeout .. =>
      [.sys, .pkts, .integ, .axis, .plan, .gear, .loop, .ports, .bta, .stepper, .bricks, .net, .fio, .can, .serial, .acq, .lanes, .sram, .dev, .ctx, .free]
  | .updateTakeover .. =>
      [.sys, .plan, .loop]
  | .spmBufferTimeout .. =>
      [.serial]
  | .spmStatusPoll .. | .spmOpTimeout .. =>
      [.sys, .pkts, .integ, .axis, .plan, .gear, .loop, .ports, .bta, .stepper, .bricks, .net, .fio, .can, .serial, .acq, .lanes, .sram, .flash, .dev, .ctx, .free]
  | .resetRelease .. =>
      [.sys, .power, .bta, .dev]
  | .keeperStart .. =>
      [.sys, .power, .boot, .pkts, .integ, .axis, .plan, .gear, .loop, .ports, .bta, .stepper, .bricks, .net, .fio, .can, .serial, .acq, .sram, .flash, .free]
  | .gardenerStart .. =>
      [.sys, .power, .boot, .pkts, .integ, .axis, .plan, .gear, .loop, .ports, .bta, .stepper, .bricks, .net, .lodge, .fio, .can, .serial, .acq, .lanes, .store, .sram, .flash, .ldata, .dev, .free]
  | .gardenerReady .. =>
      [.sys, .power, .integ, .loop, .bta, .lanes, .ldata, .dev]
  | .autostart .. | .tallyAudit .. | .voteScrub .. =>
      [.sys, .pkts, .integ, .axis, .plan, .gear, .loop, .bta, .stepper, .bricks, .dev]
  | .gardenerWatchdog .. =>
      [.sys, .boot, .pkts, .integ, .axis, .plan, .gear, .loop, .bta, .stepper, .bricks]
  | .referenceLoss .. | .tempSample .. =>
      [.sys, .power, .pkts, .integ, .axis, .plan, .gear, .loop, .bta, .stepper, .bricks, .dev]
  | .pllLock .. =>
      [.sys, .power, .integ, .bta, .lodge]
  | .vsafReturn .. =>
      [.power, .lodge]
  | .bandFall .. | .powerStateEval .. =>
      [.power, .loop, .bta]
  | .voltageRampEnd .. =>
      [.power, .loop]
  | .wakeEvent .. | .wakeTimerExpiry .. =>
      [.power]
  | .keeperHeartbeat .. | .lodgeSnapshot .. | .stoinRelease .. =>
      [.lodge]
  | .memoryScrub .. =>
      [.sys, .boot, .pkts, .integ, .axis, .plan, .gear, .loop, .bta, .stepper, .bricks, .lanes, .dev, .free]
  | .loopSample .. =>
      [.sys, .pkts, .integ, .axis, .plan, .gear, .loop, .ports, .bta, .stepper, .bricks, .lanes, .free]
  | .loopResultReady .. | .alignmentComplete .. | .observerStartTimeout .. | .overcurrentDetect .. =>
      [.pkts, .integ, .axis, .plan, .gear, .loop, .bta, .stepper, .bricks]
  | .loopRelease .. | .draymanInbound .. | .brickRecordDeadline .. =>
      [.pkts, .integ, .axis, .plan, .gear, .loop, .bta, .stepper, .bricks, .lanes]
  | .ainConversion .. =>
      [.integ, .axis, .loop, .bta, .bricks]
  | .plannerBoundary .. =>
      [.sys, .power, .pkts, .integ, .axis, .plan, .gear, .loop, .bta, .stepper, .bricks]
  | .standstillEntry .. | .freewheelStart .. =>
      [.axis, .loop, .bta, .stepper, .bricks]
  | .reactionComplete .. =>
      [.power, .pkts, .integ, .axis, .plan, .gear, .loop, .bta, .stepper, .bricks]
  | .periodBoundary .. =>
      [.sys, .pkts, .integ, .axis, .plan, .gear, .loop, .bta, .stepper, .bricks]
  | .tripInputAccepted .. | .blankWindowEnd .. | .delayLineCalibration .. | .commandSignalEdge .. | .overcurrentInactive .. =>
      [.bta]
  | .calFallback .. =>
      [.integ, .bta]
  | .bankLevelSettled .. =>
      [.pkts, .bta]
  | .holdRampEnd .. | .freewheelLimitExceeded .. =>
      [.stepper]
  | .wakeRampEnd .. =>
      [.axis, .stepper]
  | .ppEdgeAccepted .. | .ssiFrameEnd .. | .sincosSample .. | .lineFault .. | .hallIllegal .. | .freezeDetect ..
  | .encoderSupplyLimit .. =>
      [.pkts, .integ, .axis, .plan, .gear, .loop, .ports, .bta, .stepper, .bricks]
  | .ssiFrameStart .. | .speedEvaluation .. | .speedStandstillTimeout .. | .lossClear .. | .comparePulseEnd .. | .latchEvent .. =>
      [.ports]
  | .latchCapture .. =>
      [.integ, .ports, .lanes]
  | .snapshotCapture .. =>
      [.integ, .ports]
  | .draymanLaunch .. =>
      [.pkts, .integ, .axis, .plan, .gear, .loop, .bta, .stepper, .bricks, .net, .lanes]
  | .stoFrame .. =>
      [.bricks, .net, .free]
  | .cyclicFrameRx .. | .cyclicSample .. | .cyclicLaunch .. | .cyclicEnableEffect .. | .linkDown .. | .frameEgress ..
  | .arpRequest .. | .fdbAgeOut .. | .gateEntryChange .. | .gateListTakeover .. | .tsoPulseEnd .. =>
      [.net]
  | .cyclicApply .. | .syncReceiptTimeout .. | .holdoverExpiry .. | .announceReceiptTimeout .. =>
      [.pkts, .integ, .axis, .plan, .gear, .loop, .bta, .stepper, .bricks, .net, .fio, .lanes]
  | .linkUp .. | .preemptVerify .. =>
      [.integ, .net]
  | .frameIngress .. =>
      [.power, .net]
  | .icmpEcho .. | .gmSyncSend .. =>
      [.net, .free]
  | .tsoInstant .. =>
      [.integ, .ports, .net]
  | .siLevelAccepted .. | .testPulse .. | .discrepancyTimeout .. | .safeOutputTest .. | .safeOutputOverload ..
  | .safeOutputOpenLoad .. | .testOverdue .. =>
      [.integ, .lodge]
  | .lodgeCommandInstant .. | .lodgeSelfTestEnd .. =>
      [.sys, .power, .pkts, .integ, .axis, .plan, .gear, .loop, .bta, .stepper, .bricks, .lodge, .dev]
  | .ss1QuickStop .. =>
      [.plan, .lodge]
  | .ss1DelayExpiry .. | .stoinDemand .. | .stoinDiscrepancy .. | .referenceTimeout .. | .heartbeatTimeout ..
  | .supervisionRelease .. | .lodgeOvertemp .. =>
      [.pkts, .integ, .axis, .plan, .gear, .loop, .bta, .stepper, .bricks, .lodge]
  | .lodgeSwitchingEnd .. =>
      [.power, .pkts, .integ, .lodge]
  | .diEdgeAccepted .. =>
      [.power, .integ, .fio, .free]
  | .openWire .. | .overload .. | .fioOvertemp .. | .openLoad .. | .backfeed .. | .fioLinkRefresh .. | .supplySag ..
  | .supplyLost .. =>
      [.integ, .fio]
  | .outputRetry .. | .fioRefreshTimeout .. | .dieUnpowered .. | .diePowerReturn .. | .fioAutoReenable .. | .fieldSupplyReturn ..
  | .openWireClear .. | .openLoadClear .. | .backfeedClear .. | .fioOvertempClear .. =>
      [.fio]
  | .fieldGroupLost .. =>
      [.integ]
  | .canFrameReceived .. =>
      [.integ, .can, .lanes, .free]
  | .canTxComplete .. | .canBusError .. | .arbitrationLost .. =>
      [.pkts, .integ, .can]
  | .canBusOffRecovery .. | .canBufferFreeze .. =>
      [.can]
  | .canCycleStart .. | .canWindowStart .. | .refLost .. | .canDetectDwellEnd .. =>
      [.integ, .can]
  | .acqChannelSample .. | .acqPinChange .. =>
      [.power, .integ, .loop, .ports, .bta, .acq, .lanes, .free]
  | .acqTriggerOccurrence .. =>
      [.ports, .acq]
  | .acqRearm .. =>
      [.power, .loop, .bta, .acq]
  | .acqHoldoffEnd .. =>
      [.acq]
  | .threadStart .. | .laneNop .. | .laneAdd .. | .laneSub .. | .laneAdds .. | .laneSubs .. | .laneMul .. | .laneMulh ..
  | .laneAnd .. | .laneOr .. | .laneXor .. | .laneShl .. | .laneShr .. | .laneSar .. | .laneMin .. | .laneMax .. | .laneAbs ..
  | .laneAddi .. | .laneLui .. | .laneOri .. | .laneShli .. | .laneSari .. | .laneShri .. | .laneLd .. | .laneSetx ..
  | .laneGetx .. | .laneClr .. | .laneMpy .. | .laneMac .. | .laneMsu .. | .laneMacx .. | .laneAdda .. | .laneSha .. | .laneExp ..
  | .laneNorm .. | .laneMovah .. | .laneLda .. | .laneBeq .. | .laneBne .. | .laneBlt .. | .laneBge .. | .laneBra .. | .laneCall ..
  | .laneRet .. | .laneRep .. | .laneEnd .. | .laneMode .. | .laneGetf .. =>
      [.pkts, .integ, .lanes]
  | .threadPreempt .. | .threadResume .. =>
      [.lanes]
  | .dispatchTimerInstant .. =>
      [.integ, .lanes]
  | .laneSt .. =>
      [.pkts, .integ, .lanes, .ldata]
  | .sphWordTimeout .. =>
      [.serial, .ctx]
  | .lodgeImageInstalled .. =>
      [.sys, .power, .boot, .pkts, .integ, .axis, .plan, .gear, .loop, .bta, .stepper, .bricks, .lodge, .dev]

/-! Requests. -/

/-- The opcode a command executes and its request; none of the other rows. -/
def commandOf : Instr → Option (Op × Request)
  | .ping rq => some (opPing, rq)
  | .getInfo rq => some (opGetInfo, rq)
  | .cancel rq => some (opCancel, rq)
  | .setLatencyTolerance rq => some (opSetLatencyTolerance, rq)
  | .getOperatingPoint rq => some (opGetOperatingPoint, rq)
  | .setWakeTimer rq => some (opSetWakeTimer, rq)
  | .identityRead rq => some (opIdentityRead, rq)
  | .imageBegin rq => some (opImageBegin, rq)
  | .imageData rq => some (opImageData, rq)
  | .imageCommit rq => some (opImageCommit, rq)
  | .imageActivate rq => some (opImageActivate, rq)
  | .imageConfirm rq => some (opImageConfirm, rq)
  | .imageRollback rq => some (opImageRollback, rq)
  | .setState rq => some (opSetState, rq)
  | .reset rq => some (opReset, rq)
  | .configSave rq => some (opConfigSave, rq)
  | .authKeySet rq => some (opAuthKeySet, rq)
  | .authPolicySet rq => some (opAuthPolicySet, rq)
  | .cyclicMapDefine rq => some (opCyclicMapDefine, rq)
  | .cyclicMapEnable rq => some (opCyclicMapEnable, rq)
  | .cyclicMapStatus rq => some (opCyclicMapStatus, rq)
  | .axisBind rq => some (opAxisBind, rq)
  | .axisSetMode rq => some (opAxisSetMode, rq)
  | .axisEnable rq => some (opAxisEnable, rq)
  | .axisDisable rq => some (opAxisDisable, rq)
  | .axisStatus rq => some (opAxisStatus, rq)
  | .moveAbs rq => some (opMoveAbs, rq)
  | .moveRel rq => some (opMoveRel, rq)
  | .jog rq => some (opJog, rq)
  | .stop rq => some (opStop, rq)
  | .segmentAppend rq => some (opSegmentAppend, rq)
  | .planAxisConfig rq => some (opPlanAxisConfig, rq)
  | .groupDefine rq => some (opGroupDefine, rq)
  | .groupStart rq => some (opGroupStart, rq)
  | .groupResume rq => some (opGroupResume, rq)
  | .groupClear rq => some (opGroupClear, rq)
  | .groupStatus rq => some (opGroupStatus, rq)
  | .storeStatus rq => some (opStoreStatus, rq)
  | .overrideSet rq => some (opOverrideSet, rq)
  | .gearLink rq => some (opGearLink, rq)
  | .gearRatioAt rq => some (opGearRatioAt, rq)
  | .gearClearPending rq => some (opGearClearPending, rq)
  | .camDefine rq => some (opCamDefine, rq)
  | .camData rq => some (opCamData, rq)
  | .camCommit rq => some (opCamCommit, rq)
  | .vmasterSet rq => some (opVmasterSet, rq)
  | .gearStatusRead rq => some (opGearStatusRead, rq)
  | .loopLoadCascade rq => some (opLoopLoadCascade, rq)
  | .loopSchedule rq => some (opLoopSchedule, rq)
  | .loopScales rq => some (opLoopScales, rq)
  | .loopMotor rq => some (opLoopMotor, rq)
  | .loopModulation rq => some (opLoopModulation, rq)
  | .loopFollow rq => some (opLoopFollow, rq)
  | .loopLimits rq => some (opLoopLimits, rq)
  | .loopObserver rq => some (opLoopObserver, rq)
  | .loopRead rq => some (opLoopRead, rq)
  | .loopStatusRead rq => some (opLoopStatusRead, rq)
  | .ppConfig rq => some (opPpConfig, rq)
  | .ppSetPosition rq => some (opPpSetPosition, rq)
  | .ppIndexConfig rq => some (opPpIndexConfig, rq)
  | .ppSpeedConfig rq => some (opPpSpeedConfig, rq)
  | .ppLossConfig rq => some (opPpLossConfig, rq)
  | .ppStatusRead rq => some (opPpStatusRead, rq)
  | .compareDefine rq => some (opCompareDefine, rq)
  | .compareData rq => some (opCompareData, rq)
  | .compareArm rq => some (opCompareArm, rq)
  | .compareForce rq => some (opCompareForce, rq)
  | .latchConfig rq => some (opLatchConfig, rq)
  | .latchRead rq => some (opLatchRead, rq)
  | .snapshotConfig rq => some (opSnapshotConfig, rq)
  | .snapshotRead rq => some (opSnapshotRead, rq)
  | .snapshotTrigger rq => some (opSnapshotTrigger, rq)
  | .btaGroupConfig rq => some (opBtaGroupConfig, rq)
  | .btaLegConfig rq => some (opBtaLegConfig, rq)
  | .btaTripConfig rq => some (opBtaTripConfig, rq)
  | .btaTripClear rq => some (opBtaTripClear, rq)
  | .btaBlankConfig rq => some (opBtaBlankConfig, rq)
  | .btaTripInputConfig rq => some (opBtaTripInputConfig, rq)
  | .btaSdcConfig rq => some (opBtaSdcConfig, rq)
  | .btaSdiConfig rq => some (opBtaSdiConfig, rq)
  | .btaDutySet rq => some (opBtaDutySet, rq)
  | .btaBankLevel rq => some (opBtaBankLevel, rq)
  | .btaStatusRead rq => some (opBtaStatusRead, rq)
  | .stepperConfig rq => some (opStepperConfig, rq)
  | .stepperStatusRead rq => some (opStepperStatusRead, rq)
  | .stepperSetPosition rq => some (opStepperSetPosition, rq)
  | .brickRegister rq => some (opBrickRegister, rq)
  | .frameGroupConfig rq => some (opFrameGroupConfig, rq)
  | .brickStatus rq => some (opBrickStatus, rq)
  | .netAddrConfig rq => some (opNetAddrConfig, rq)
  | .portConfig rq => some (opPortConfig, rq)
  | .vlanConfig rq => some (opVlanConfig, rq)
  | .fdbStatic rq => some (opFdbStatic, rq)
  | .gateListSet rq => some (opGateListSet, rq)
  | .cbsConfig rq => some (opCbsConfig, rq)
  | .portStatusRead rq => some (opPortStatusRead, rq)
  | .ptpConfig rq => some (opPtpConfig, rq)
  | .ptpStatus rq => some (opPtpStatus, rq)
  | .timebaseConfig rq => some (opTimebaseConfig, rq)
  | .timebaseSet rq => some (opTimebaseSet, rq)
  | .timebaseStatus rq => some (opTimebaseStatus, rq)
  | .domainTrust rq => some (opDomainTrust, rq)
  | .tsoConfig rq => some (opTsoConfig, rq)
  | .tsoStatusRead rq => some (opTsoStatusRead, rq)
  | .lodgeRead rq => some (opLodgeRead, rq)
  | .lodgeParamStage rq => some (opLodgeParamStage, rq)
  | .lodgeParamConfirm rq => some (opLodgeParamConfirm, rq)
  | .lodgeKeyEnrol rq => some (opLodgeKeyEnrol, rq)
  | .lodgeFaultClear rq => some (opLodgeFaultClear, rq)
  | .fioGroupConfig rq => some (opFioGroupConfig, rq)
  | .fioInputConfig rq => some (opFioInputConfig, rq)
  | .fioOutputConfig rq => some (opFioOutputConfig, rq)
  | .fioOutputSet rq => some (opFioOutputSet, rq)
  | .fioRead rq => some (opFioRead, rq)
  | .fioClear rq => some (opFioClear, rq)
  | .canConfig rq => some (opCanConfig, rq)
  | .canFilterSet rq => some (opCanFilterSet, rq)
  | .canTtConfig rq => some (opCanTtConfig, rq)
  | .canTtBufferSet rq => some (opCanTtBufferSet, rq)
  | .canTx rq => some (opCanTx, rq)
  | .canRxRead rq => some (opCanRxRead, rq)
  | .canStatusRead rq => some (opCanStatusRead, rq)
  | .canBitrateDetect rq => some (opCanBitrateDetect, rq)
  | .canBusRecover rq => some (opCanBusRecover, rq)
  | .spmProfileSet rq => some (opSpmProfileSet, rq)
  | .spmDiscover rq => some (opSpmDiscover, rq)
  | .spmErase rq => some (opSpmErase, rq)
  | .spmFlush rq => some (opSpmFlush, rq)
  | .spmStatusRead rq => some (opSpmStatusRead, rq)
  | .sphStatusRead rq => some (opSphStatusRead, rq)
  | .acqChannelConfig rq => some (opAcqChannelConfig, rq)
  | .acqPinConfig rq => some (opAcqPinConfig, rq)
  | .acqTriggerConfig rq => some (opAcqTriggerConfig, rq)
  | .acqEnvelopeSet rq => some (opAcqEnvelopeSet, rq)
  | .acqCaptureConfig rq => some (opAcqCaptureConfig, rq)
  | .acqArm rq => some (opAcqArm, rq)
  | .acqStop rq => some (opAcqStop, rq)
  | .acqForce rq => some (opAcqForce, rq)
  | .acqRead rq => some (opAcqRead, rq)
  | .acqStatusRead rq => some (opAcqStatusRead, rq)
  | .acqCalibrate rq => some (opAcqCalibrate, rq)
  | .pluginLoad rq => some (opPluginLoad, rq)
  | .threadDefine rq => some (opThreadDefine, rq)
  | .threadEnable rq => some (opThreadEnable, rq)
  | .threadSignal rq => some (opThreadSignal, rq)
  | .threadTimerConfig rq => some (opThreadTimerConfig, rq)
  | .pluginPortConfig rq => some (opPluginPortConfig, rq)
  | .threadStatusRead rq => some (opThreadStatusRead, rq)
  | .laneStatusRead rq => some (opLaneStatusRead, rq)
  | .laneKeyEnrol rq => some (opLaneKeyEnrol, rq)
  | .tallyRead rq => some (opTallyRead, rq)
  | .faultRead rq => some (opFaultRead, rq)
  | .faultAck rq => some (opFaultAck, rq)
  | .eventRead rq => some (opEventRead, rq)
  | .ruhityDatagram .. | .inboxTake .. | .broadcastReply .. | .authLockoutEnd .. | .pendingCommit .. | .deferredEffect ..
  | .resetEntry .. | .imageSessionTimeout .. | .sphWriteFrame .. | .sphReadFrame .. | .sphPacketIn .. | .sphPacketOut ..
  | .sphStatusFrame .. | .indDataRead .. | .indDataWrite .. | .indAddrWrite .. | .indCtrlWrite .. | .indAccessTimeout ..
  | .updStrobeWrite .. | .updateTakeover .. | .wideLowRead .. | .wideHighRead .. | .wideLowWrite .. | .wideHighWrite ..
  | .rcRegisterRead .. | .registerWrite .. | .grpSealWrite .. | .legCmpbSealWrite .. | .legDutyWrite .. | .grpTripClear ..
  | .fioDoWrite .. | .xipRead .. | .xipWrite .. | .spmBufferTimeout .. | .spmStatusPoll .. | .spmOpTimeout .. | .resetRelease ..
  | .keeperStart .. | .gardenerStart .. | .gardenerReady .. | .autostart .. | .gardenerWatchdog .. | .keeperWatchdog ..
  | .vlogLow .. | .resetPin .. | .referenceLoss .. | .pllLock .. | .vsafLoss .. | .vsafReturn .. | .tempSample .. | .bandFall ..
  | .voltageRampEnd .. | .powerStateEval .. | .wakeEvent .. | .wakeTimerExpiry .. | .wakeComplete .. | .keeperHeartbeat ..
  | .tallyAudit .. | .voteScrub .. | .memoryScrub .. | .loopSample .. | .loopResultReady .. | .loopRelease .. | .ainConversion ..
  | .plannerBoundary .. | .standstillEntry .. | .alignmentComplete .. | .reactionComplete .. | .observerStartTimeout ..
  | .periodBoundary .. | .tripInputAccepted .. | .overcurrentDetect .. | .blankWindowEnd .. | .delayLineCalibration ..
  | .calFallback .. | .bankLevelSettled .. | .holdRampEnd .. | .freewheelStart .. | .freewheelLimitExceeded .. | .wakeRampEnd ..
  | .ppEdgeAccepted .. | .ssiFrameStart .. | .ssiFrameEnd .. | .sincosSample .. | .speedEvaluation .. | .speedStandstillTimeout ..
  | .lineFault .. | .hallIllegal .. | .freezeDetect .. | .encoderSupplyLimit .. | .lossClear .. | .comparePulseEnd ..
  | .latchEvent .. | .latchCapture .. | .snapshotCapture .. | .draymanInbound .. | .brickRecordDeadline .. | .draymanLaunch ..
  | .stoFrame .. | .cyclicFrameRx .. | .cyclicApply .. | .cyclicSample .. | .cyclicLaunch .. | .cyclicEnableEffect .. | .linkUp ..
  | .linkDown .. | .frameIngress .. | .frameEgress .. | .arpRequest .. | .icmpEcho .. | .fdbAgeOut .. | .gateEntryChange ..
  | .gateListTakeover .. | .preemptVerify .. | .syncReceived .. | .pdelayExchange .. | .syncReceiptTimeout .. | .holdoverExpiry ..
  | .gmSyncSend .. | .tsoInstant .. | .tsoPulseEnd .. | .siLevelAccepted .. | .testPulse .. | .discrepancyTimeout ..
  | .lodgeSnapshot .. | .lodgeCommandInstant .. | .ss1QuickStop .. | .ss1DelayExpiry .. | .stoinDemand .. | .stoinRelease ..
  | .stoinDiscrepancy .. | .referenceTimeout .. | .heartbeatTimeout .. | .supervisionRelease .. | .lodgeOvertemp ..
  | .lodgeSelfTestEnd .. | .lodgeSwitchingEnd .. | .safeOutputTest .. | .safeOutputOverload .. | .safeOutputOpenLoad ..
  | .testOverdue .. | .diEdgeAccepted .. | .openWire .. | .overload .. | .fioOvertemp .. | .openLoad .. | .backfeed ..
  | .outputRetry .. | .fioLinkRefresh .. | .fioRefreshTimeout .. | .fieldGroupLost .. | .supplySag .. | .supplyLost ..
  | .dieUnpowered .. | .diePowerReturn .. | .fioAutoReenable .. | .canFrameReceived .. | .canTxComplete .. | .canBusError ..
  | .canBusOffRecovery .. | .canCycleStart .. | .canBufferFreeze .. | .canWindowStart .. | .refLost .. | .canDetectDwellEnd ..
  | .acqChannelSample .. | .acqPinChange .. | .acqTriggerOccurrence .. | .acqRearm .. | .acqHoldoffEnd .. | .threadStart ..
  | .threadPreempt .. | .threadResume .. | .dispatchTimerInstant .. | .laneNop .. | .laneAdd .. | .laneSub .. | .laneAdds ..
  | .laneSubs .. | .laneMul .. | .laneMulh .. | .laneAnd .. | .laneOr .. | .laneXor .. | .laneShl .. | .laneShr .. | .laneSar ..
  | .laneMin .. | .laneMax .. | .laneAbs .. | .laneAddi .. | .laneLui .. | .laneOri .. | .laneShli .. | .laneSari .. | .laneShri ..
  | .laneLd .. | .laneSt .. | .laneSetx .. | .laneGetx .. | .laneClr .. | .laneMpy .. | .laneMac .. | .laneMsu .. | .laneMacx ..
  | .laneAdda .. | .laneSha .. | .laneExp .. | .laneNorm .. | .laneMovah .. | .laneLda .. | .laneBeq .. | .laneBne .. | .laneBlt ..
  | .laneBge .. | .laneBra .. | .laneCall .. | .laneRet .. | .laneRep .. | .laneEnd .. | .laneMode .. | .laneGetf ..
  | .commandSignalEdge .. | .overcurrentInactive .. | .arbitrationLost .. | .sphBadCmdFrame .. | .xipReadTimeout ..
  | .sphWordTimeout .. | .lodgeImageInstalled .. | .announceReceiptTimeout .. | .fieldSupplyReturn .. | .openWireClear ..
  | .openLoadClear .. | .backfeedClear .. | .fioOvertempClear .. => none

/-! Requests that are carried out. -/

/-- Nothing keeps the request waiting (R80), it passes steps 7 to 12 of Table 4.5 (R77), it is for at once (R81), and Gardener's table
permits what it touches (R60, step 13). -/
def Ready (o : Op) (rq : Request) (s : State) : Prop :=
  targetBusy o.opcode rq s = false ∧ s.pkts.blocked.any (waitsBehind o.opcode rq) = false ∧ refusal o rq s = none ∧ rq.toe = 0 ∧
  forbidden o rq s = none

/-- The outcome of a request answered DONE with these results, its effect having left the state u. -/
def answered (o : Op) (rq : Request) (s u : State) (r : List Res) : Host.Outcome State Fault Refusal :=
  .next (conclude o rq false (.done u r) s)

/-- The outcome of a request whose effect has begun, leaving the state u, and which is answered when it is complete: the entry of
commands under way carries what completion looks it up by. -/
def begun (o : Op) (rq : Request) (u : State) (key : Nat) (ctx : List Nat) : Host.Outcome State Fault Refusal :=
  .next (begin o.opcode rq key ctx false u)

/-! Lane instructions that are issued. -/

/-- The lane issues this word of this OP next, for this thread (R450): its program word is not poisoned, nothing is pending from
before it, the budget lasts, and another word follows. -/
def Issues (code : Nat) (l : Fin 8) (t : Fin 512) (w : Word) (s : State) : Prop :=
  nextWord l s = some (t, w) ∧ opOf w = code ∧ poisonedAt (laneProgAddr l s.lanes.lane[l].regs.pc.toNat) s = false ∧
  s.lanes.lane[l].regs.load = none ∧ s.lanes.lane[l].regs.rep = none ∧ s.lanes.lane[l].regs.delay = none ∧
  s.lanes.lane[l].regs.issued + 1 < (s.lanes.thr[t]).budget ∧ s.lanes.lane[l].regs.pc.toNat + 1 < s.lanes.lane[l].prog.length

/-- The state after one plain instruction of a lane: its step passed, its registers changed by f, one more issued, the program counter one
on. -/
def issued (l : Fin 8) (f : LaneRegs → LaneRegs) (s : State) : State :=
  onLaneRegs l (fun r => { f r with issued := r.issued + 1, pc := r.pc + 1 }) (passStep l s)

end Sys2Proof.Machine
end

