-- ==== Sys2Proof/Certificates/Slice0/Obligations.lean ====
section
/-! DEFINITION.
The statements for the provers. -/

open Sys2Proof Sys2Proof.Machine

/-- A ready PING answers DONE with its ECHO, if it carries one, and TBASE0, and changes nothing; GET_INFO answers with the device
state and phase and the current challenge among its results and changes nothing; GET_OPERATING_POINT answers with the
operating-point summary; IDENTITY_READ answers the identity record with the echoed nonce and changes nothing. Each is answered
at once for every state and operands that are ready. (04_command_packets.md, 03_boot_trust_identity.md) -/
def Obligations.SystemReadsComplete : Prop :=
  (∀ rq s, Ready opPing rq s →
    exec (.ping rq) s =
      answered opPing rq s s ((if has rq 0x0100 then [(0x0100, value rq 0x0100)] else []) ++ [(0x0101, be 8 s.tb0)])) ∧
  (∀ rq s, Ready opGetInfo rq s → ∃ r, exec (.getInfo rq) s = answered opGetInfo rq s s r ∧
    (0x0102, be 1 s.sys.dev.code ++ be 1 s.sys.phase.toNat) ∈ r ∧ (0x0104, be 8 s.pkts.challenge.toNat) ∈ r) ∧
  (∀ rq s, Ready opGetOperatingPoint rq s → ∃ u r, exec (.getOperatingPoint rq) s = answered opGetOperatingPoint rq s u r ∧
    (0x0100, opSummary s) ∈ r ∧ u.power = s.power) ∧
  (∀ rq s, Ready opIdentityRead rq s →
    exec (.identityRead rq) s = answered opIdentityRead rq s s [(0x0100, identityRecord (value rq 0x0100) s)])

/-- A ready CANCEL whose handle, when it names one, is that of a pending command not committed and within its authority, withdraws
exactly the pending commands it names and answers their count; SET_LATENCY_TOLERANCE with tolerances of at least 4, 2 and 40
microseconds sets all three and answers the summary; SET_WAKE_TIMER arms the AON wake timer d microseconds ahead or, with 0,
disarms it; AUTH_KEY_SET loads or empties the one key slot; AUTH_POLICY_SET sets the classes and the Host Port bit.
(04_command_packets.md, 01_timing_model.md) -/
def Obligations.SystemSettingsComplete : Prop :=
  (∀ rq s, Ready opCancel rq s →
    (has rq 0x0100 = true → ∃ p, s.pkts.pending.find? (fun p => p.handle == num rq 0x0100 0 4) = some p ∧ p.committed = false ∧
      (tagRequired p.opcode rq.src s = true → rq.authed = true)) →
    ∃ u, exec (.cancel rq) s = answered opCancel rq s u [(0x0100, be 2 (s.pkts.pending.filter (cancels rq s)).length)] ∧
      u.pkts.pending = s.pkts.pending.filter (fun p => !cancels rq s p)) ∧
  (∀ rq s, Ready opSetLatencyTolerance rq s →
    4000 ≤ numD rq 0x0100 0 4 s.power.tolMotion → 2000 ≤ numD rq 0x0100 4 4 s.power.tolNetwork →
    40000 ≤ numD rq 0x0100 8 4 s.power.tolHost →
    ∃ u, exec (.setLatencyTolerance rq) s = answered opSetLatencyTolerance rq s u [(0x0100, opSummary u)] ∧
      u.power.tolMotion = numD rq 0x0100 0 4 s.power.tolMotion ∧ u.power.tolNetwork = numD rq 0x0100 4 4 s.power.tolNetwork ∧
      u.power.tolHost = numD rq 0x0100 8 4 s.power.tolHost) ∧
  (∀ rq s, Ready opSetWakeTimer rq s →
    exec (.setWakeTimer rq) s = answered opSetWakeTimer rq s
      (s.onPower fun p => { p with
        wakeTimer := if num rq 0x0100 0 4 = 0 then none else some (p.aonUs + num rq 0x0100 0 4) }) []) ∧
  (∀ rq s, Ready opAuthKeySet rq s → ∃ u, exec (.authKeySet rq) s = answered opAuthKeySet rq s u [] ∧
    (∀ k : Fin 4, u.pkts.keys[k] =
      if k.val = num rq 0x0100 0 1 % 4 then (if has rq 0x0101 then some (value rq 0x0101) else none) else s.pkts.keys[k])) ∧
  (∀ rq s, Ready opAuthPolicySet rq s → ∃ u, exec (.authPolicySet rq) s = answered opAuthPolicySet rq s u [] ∧
    u.pkts.policy = BitVec.ofNat 16 (num rq 0x0100 0 2) ∧ u.pkts.policyHost = (num rq 0x0101 0 1 == 1) ∧
    u.pkts.keys = s.pkts.keys)

/-- Ready IMAGE_BEGIN with no session open and its kind admitted in the device state opens the session and leaves every byte of its
target erased; IMAGE_DATA of the open session, inside its total and over nothing written before, programs its bytes and no byte
outside them; IMAGE_COMMIT of an image that verifies closes the session; IMAGE_ACTIVATE of a trial sets Reset due 1 ms (500,000
ticks) later, and of a pending Lodge image begins the hand-over; IMAGE_CONFIRM of a running trial ends the trial and never
lowers the security level; IMAGE_ROLLBACK onto a confirmed slot that still verifies sets Reset due. (03_boot_trust_identity.md,
04_command_packets.md) -/
def Obligations.ImageSessionsComplete : Prop :=
  (∀ rq s, Ready opImageBegin rq s → s.boot.session = none →
    (s.sys.dev = .startup → num rq 0x0100 0 1 = 1 ∨ (num rq 0x0100 0 1 = 2 ∧ s.boot.haltCause = 3)) →
    (num rq 0x0100 0 1 = 3 → s.sys.dev = .commissioning) →
    ∃ u r x, exec (.imageBegin rq) s = answered opImageBegin rq s u r ∧ u.boot.session = some x ∧ x.id = s.boot.nextSession ∧
      x.kind = num rq 0x0100 0 1 ∧ x.total = num rq 0x0101 0 4 ∧ x.written = [] ∧
      bootFlash u = eraseRange x.base (imagePlace x.kind 0).2 (bootFlash s)) ∧
  (∀ rq s x, Ready opImageData rq s → s.boot.session = some x → x.id = num rq 0x0100 0 2 →
    num rq 0x0101 0 4 + (value rq 0x0102).length ≤ x.total →
    (∀ w ∈ x.written, ¬(w.1 < num rq 0x0101 0 4 + (value rq 0x0102).length ∧ num rq 0x0101 0 4 < w.1 + w.2)) →
    ∃ u, exec (.imageData rq) s = answered opImageData rq s u [] ∧
      bootFlash u = programBytes (x.base + num rq 0x0101 0 4) (value rq 0x0102) (bootFlash s) ∧
      ∀ k : Fin 4, k ≠ 0 → u.serial.sel[k] = s.serial.sel[k]) ∧
  (∀ rq s x, Ready opImageCommit rq s → s.boot.session = some x → x.id = num rq 0x0100 0 2 →
    imageCheck x.kind (sessionPlace x) s = 0 →
    ∃ u, exec (.imageCommit rq) s = answered opImageCommit rq s u [] ∧ u.boot.session = none ∧
      bootFlash u = programBytes (trailerAt (sessionPlace x)) (pendingTrailer x s) (bootFlash s)) ∧
  (∀ rq s, Ready opImageActivate rq s → num rq 0x0100 0 1 ≠ 3 → hasTrial (num rq 0x0100 0 1) s = true →
    ∃ u, exec (.imageActivate rq) s = answered opImageActivate rq s u [] ∧ u.sys.resetDue = some (s.now + 500000)) ∧
  (∀ rq s, Ready opImageActivate rq s → num rq 0x0100 0 1 = 3 → (trailer (imagePlace 3 0) (bootFlash s)).2.1 = 0x3C →
    s.boot.activating = false →
    exec (.imageActivate rq) s = begun opImageActivate rq (s.onBoot fun b => { b with activating := true }) 3 []) ∧
  (∀ rq s, Ready opImageConfirm rq s → onTrial (num rq 0x0100 0 1) s.boot = true →
    ∃ u r, exec (.imageConfirm rq) s = answered opImageConfirm rq s u r ∧ s.boot.secLevel ≤ u.boot.secLevel ∧
      onTrial (num rq 0x0100 0 1) u.boot = false) ∧
  (∀ rq s, Ready opImageRollback rq s → num rq 0x0100 0 1 ≠ 3 →
    (trailer (imagePlace (num rq 0x0100 0 1) (1 - bootedSlot (num rq 0x0100 0 1) s.boot)) (bootFlash s)).2.1 = 0x18 →
    imageCheck (num rq 0x0100 0 1) (imagePlace (num rq 0x0100 0 1) (1 - bootedSlot (num rq 0x0100 0 1) s.boot)) s = 0 →
    ∃ u, exec (.imageRollback rq) s = answered opImageRollback rq s u [] ∧ u.sys.resetDue = some (s.now + 500000))

/-- A ready SET_STATE with no transition under way answers at once when the state is already the one asked for, and otherwise, when
Table 3.7 admits the transition, makes it; the device state afterwards is the one asked for. RESET sets Reset due 1 ms later
with HOST_RESET as its cause. CONFIG_SAVE writes exactly one copy of the configuration store, numbered one above the newest.
CYCLIC_MAP_DEFINE of a map neither enabled nor about to be, within the 2,048 entries of all maps, defines that map and no other;
CYCLIC_MAP_ENABLE of a defined map that may change sets the cycle start at which it takes effect; CYCLIC_MAP_STATUS answers the
map counts and changes nothing. (03 Table 3.7, 04 Table 4.10) -/
def Obligations.StateCommandsComplete : Prop :=
  (∀ rq s, Ready opSetState rq s → s.sys.transition = none → s.sys.dev.code = num rq 0x0100 0 1 →
    exec (.setState rq) s = answered opSetState rq s s [(0x0100, be 1 (num rq 0x0100 0 1))]) ∧
  (∀ rq s, Ready opSetState rq s → s.sys.transition = none → s.sys.dev.code ≠ num rq 0x0100 0 1 →
    transitionDeny (stateOf (num rq 0x0100 0 1)) s = none → stateOf (num rq 0x0100 0 1) ≠ .recovery → s.lodge.st = .run →
    ∃ u, exec (.setState rq) s = answered opSetState rq s u [(0x0100, be 1 (num rq 0x0100 0 1))] ∧
      u.sys.dev = stateOf (num rq 0x0100 0 1)) ∧
  (∀ rq s, Ready opSetState rq s → s.sys.transition = none → s.sys.dev.code ≠ num rq 0x0100 0 1 →
    transitionDeny (stateOf (num rq 0x0100 0 1)) s = none → stateOf (num rq 0x0100 0 1) = .recovery →
    exec (.setState rq) s = answered opSetState rq s (enterRecovery s) [(0x0100, be 1 (num rq 0x0100 0 1))]) ∧
  (∀ rq s, Ready opReset rq s →
    ∃ u, exec (.reset rq) s = answered opReset rq s u [] ∧ u.sys.resetDue = some (s.now + 500000) ∧ u.sys.resetCause = some 4) ∧
  (∀ rq s, Ready opConfigSave rq s →
    ∃ u c, exec (.configSave rq) s = answered opConfigSave rq s u [] ∧
      c.seq = ((newerCopy s.store).map (·.seq)).getD 0 + 1 ∧ c.autostart = (num rq 0x0100 0 1 == 1) ∧
      (u.store.copyA = some c ∧ u.store.copyB = s.store.copyB ∨ u.store.copyB = some c ∧ u.store.copyA = s.store.copyA)) ∧
  (∀ rq s, Ready opCyclicMapDefine rq s → s.net.map[tgt 32 rq].enabled = false → s.net.map[tgt 32 rq].enableDue = none →
    (entriesOf rq).length +
      (((List.finRange 32).filter (· != tgt 32 rq)).map fun j => s.net.map[j].entries.length).sum ≤ 2048 →
    ∃ u, exec (.cyclicMapDefine rq) s = answered opCyclicMapDefine rq s u [] ∧ u.net.map[tgt 32 rq].defined = true ∧
      u.net.map[tgt 32 rq].period = num rq 0x0101 0 4 ∧ u.net.map[tgt 32 rq].entries = entriesOf rq ∧
      ∀ k, k ≠ tgt 32 rq → u.net.map[k] = s.net.map[k]) ∧
  (∀ rq s, Ready opCyclicMapEnable rq s → s.net.map[tgt 32 rq].defined = true →
    (num rq 0x0100 0 1 = 1 → (tgt 32 rq).val < 16 → offending (tgt 32 rq) s = none) →
    (num rq 0x0100 0 1 ≠ 1 → (tgt 32 rq).val < 16 → feedsEnabled (tgt 32 rq) s = false) →
    ∃ u t, exec (.cyclicMapEnable rq) s = answered opCyclicMapEnable rq s u [] ∧
      u.net.map[tgt 32 rq].enableDue = some (num rq 0x0100 0 1 == 1, t) ∧ s.tb0 + 1000000 ≤ t ∧
      t % max s.net.map[tgt 32 rq].period 1 = 0 ∧ ∀ k, k ≠ tgt 32 rq → u.net.map[k] = s.net.map[k]) ∧
  (∀ rq s, Ready opCyclicMapStatus rq s →
    exec (.cyclicMapStatus rq) s =
      answered opCyclicMapStatus rq s s [(0x0100, (mapCounts (tgt 32 rq) s).flatMap fun c => be 8 c.toNat)])

/-- A ready AXIS_BIND of an Unbound or Disabled slot binds it when the resources are free and its mode, if it has one, still passes
the checks and the admission proof, and unbinds it with LOCATION 0 when nothing needs it and the proofs hold without it;
AXIS_SET_MODE of a slot not in service, in Commissioning or Disabled, takes the mode when the same checks pass, and of an
Enabled slot in standstill takes a new SOURCE alone, for the next sample; AXIS_ENABLE of a slot that may be enabled, linked if
it is remote, begins the enabling steps, and of an Enabled one answers at once; AXIS_DISABLE of an Enabled slot with STOP 1, or
0 at depth 1, leaves it Disabled at once, with 0 begins a quick stop and with 2 the short brake, takes an Enabling slot to
Disabled, a Reacting one with STOP 1 to its torque off, and a Faulted slot whose cause is gone and whose groups are clear to
Disabled; AXIS_STATUS answers, among others, status and position and changes nothing. (06_axis_slots_and_modes.md) -/
def Obligations.AxisCommandsComplete : Prop :=
  (∀ rq s, Ready opAxisBind rq s → (s.axis[tgt 64 rq].st = .unbound ∨ s.axis[tgt 64 rq].st = .disabled) →
    (bindingOf rq).location = 0 → unbindConflict (tgt 64 rq) s = false →
    wireDeny (bindSlot (tgt 64 rq) (bindingOf rq) s) = none → admission (bindSlot (tgt 64 rq) (bindingOf rq) s) = none →
    exec (.axisBind rq) s = answered opAxisBind rq s
      (acqPrune (reselect (installSlot (tgt 64 rq) (slotGroups s.axis[tgt 64 rq].bind) (bindSlot (tgt 64 rq) (bindingOf rq) s)))) []) ∧
  (∀ rq s, Ready opAxisBind rq s → (s.axis[tgt 64 rq].st = .unbound ∨ s.axis[tgt 64 rq].st = .disabled) →
    (bindingOf rq).location ≠ 0 → bindTaken rq (tgt 64 rq) (bindingOf rq) s = none →
    (∀ m, s.axis[tgt 64 rq].mode = some m →
      checkMode rq (tgt 64 rq) (bindingOf rq) m (bindSlot (tgt 64 rq) (bindingOf rq) s) = none ∧
      wireDeny (bindSlot (tgt 64 rq) (bindingOf rq) s) = none ∧ admission (bindSlot (tgt 64 rq) (bindingOf rq) s) = none) →
    exec (.axisBind rq) s = answered opAxisBind rq s
      (acqPrune (reselect (installSlot (tgt 64 rq) (slotGroups s.axis[tgt 64 rq].bind) (bindSlot (tgt 64 rq) (bindingOf rq) s)))) []) ∧
  (∀ rq s, Ready opAxisSetMode rq s → live s.axis[tgt 64 rq] = false → (s.sys.dev = .commissioning ∨ s.axis[tgt 64 rq].st = .disabled) →
    (s.axis[tgt 64 rq].mode = none → ∀ t ∈ modeTlvs, has rq t = true) →
    checkMode rq (tgt 64 rq) s.axis[tgt 64 rq].bind (modeOf rq (s.axis[tgt 64 rq].mode.getD {})) s = none →
    wireDeny (onAx (tgt 64 rq) (fun a => { a with mode := some (modeOf rq (s.axis[tgt 64 rq].mode.getD {})), nextSource := none }) s) = none →
    admission (onAx (tgt 64 rq) (fun a => { a with mode := some (modeOf rq (s.axis[tgt 64 rq].mode.getD {})), nextSource := none }) s) = none →
    exec (.axisSetMode rq) s = answered opAxisSetMode rq s
      (acqPrune (reselect (installSlot (tgt 64 rq) []
        (onAx (tgt 64 rq) (fun a => { a with mode := some (modeOf rq (s.axis[tgt 64 rq].mode.getD {})), nextSource := none }) s)))) []) ∧
  (∀ rq s m, Ready opAxisSetMode rq s → s.axis[tgt 64 rq].st = .enabled → s.axis[tgt 64 rq].standstill = true →
    s.axis[tgt 64 rq].mode = some m → has rq 0x0103 = true →
    ((tlvs rq).all fun t => hasBit t.type 15 || t.type == 0x0010 || t.type == 0x0103) = true →
    checkSource rq (tgt 64 rq) s.axis[tgt 64 rq].bind (modeOf rq m) s = none →
    exec (.axisSetMode rq) s = answered opAxisSetMode rq s (onAx (tgt 64 rq) (fun a => { a with
      nextSource := some ((modeOf rq m).source, (modeOf rq m).srcIndex, (modeOf rq m).srcScale) }) s) []) ∧
  (∀ rq s, Ready opAxisEnable rq s → enableDeny rq (tgt 64 rq) s = none → s.axis[tgt 64 rq].st = .enabled →
    exec (.axisEnable rq) s = answered opAxisEnable rq s s []) ∧
  (∀ rq s, Ready opAxisEnable rq s → enableDeny rq (tgt 64 rq) s = none → s.axis[tgt 64 rq].st ≠ .enabled →
    (s.axis[tgt 64 rq].bind.location = 2 → brickLinked s.axis[tgt 64 rq].bind s = true) →
    exec (.axisEnable rq) s =
      begun opAxisEnable rq (enableBegin (tgt 64 rq) (hasBit (num rq 0x0104 0 1) 0) s) (tgt 64 rq).val []) ∧
  (∀ rq s, Ready opAxisDisable rq s → s.axis[tgt 64 rq].st = .disabled →
    exec (.axisDisable rq) s = answered opAxisDisable rq s s []) ∧
  (∀ rq s, Ready opAxisDisable rq s → s.axis[tgt 64 rq].st = .enabled →
    (num rq 0x0100 0 1 = 1 ∨ num rq 0x0100 0 1 = 0 ∧ depthOf (tgt 64 rq) s = 1) →
    exec (.axisDisable rq) s = answered opAxisDisable rq s (slotDisabled (tgt 64 rq) s) []) ∧
  (∀ rq s, Ready opAxisDisable rq s → s.axis[tgt 64 rq].st = .enabled → num rq 0x0100 0 1 = 0 → depthOf (tgt 64 rq) s ≠ 1 →
    exec (.axisDisable rq) s = begun opAxisDisable rq (requestStop (tgt 64 rq) 1 s) (tgt 64 rq).val []) ∧
  (∀ rq s, Ready opAxisDisable rq s → s.axis[tgt 64 rq].st = .enabled → num rq 0x0100 0 1 = 2 →
    exec (.axisDisable rq) s = begun opAxisDisable rq
      (loopsStop (tgt 64 rq) (planEnd (tgt 64 rq) (outputFor (tgt 64 rq) 1 (onAx (tgt 64 rq) (fun a => { a with
        stopShort := true, legsShort := true, reactStart := s.now }) s)))) (tgt 64 rq).val []) ∧
  (∀ rq s, Ready opAxisDisable rq s → s.axis[tgt 64 rq].st = .enabling →
    exec (.axisDisable rq) s = answered opAxisDisable rq s (slotDisabled (tgt 64 rq) s) []) ∧
  (∀ rq s, Ready opAxisDisable rq s → s.axis[tgt 64 rq].st = .reacting → num rq 0x0100 0 1 = 1 →
    exec (.axisDisable rq) s = answered opAxisDisable rq s (takeReaction (tgt 64 rq) 0 s.axis[tgt 64 rq].cause s) []) ∧
  (∀ rq s u, Ready opAxisDisable rq s → s.axis[tgt 64 rq].st = .faulted → groupsHeld (tgt 64 rq) s = false →
    causePresent (tgt 64 rq) s = false →
    u = (slotGroups s.axis[tgt 64 rq].bind).foldl (fun s g =>
      if s.bta.grp[g].held || s.bta.grp[g].bySto then clearGroup g s else s) s →
    exec (.axisDisable rq) s = answered opAxisDisable rq s (slotDisabled (tgt 64 rq) u) []) ∧
  (∀ rq s, Ready opAxisStatus rq s → ∃ r, exec (.axisStatus rq) s = answered opAxisStatus rq s s r ∧
    (0x0100, be 4 (axisStatus (tgt 64 rq) s).toNat) ∈ r ∧ (0x0101, beI 8 (measuredPos (tgt 64 rq) s)) ∈ r)

/-- A ready MOVE_ABS or MOVE_REL that nothing denies hands the planner of its axis a position move whose target is POSITION, or
POSITION beyond the running target or the set-point; JOG a velocity move of its speed; each wakes the slot and is answered when
the move starts, and changes no other axis of the planner. A ready STOP of one axis asks that axis, or the running group it
belongs to, to stop and is answered at rest; with nothing to stop it is answered at once and changes nothing. STOP of all axes
asks every axis that has something to stop, then every running group, and is answered at once if everything is at rest, else
when it is. (07_motion_planner.md) -/
def Obligations.PlannerMovesComplete : Prop :=
  (∀ rq s, Ready opMoveAbs rq s → moveDeny rq (tgt 64 rq) false (int rq 0x0100 0 8) 0 s = none →
    ∃ c : MoveCmd, exec (.moveAbs rq) s =
        begun opMoveAbs rq (wakeSlot (tgt 64 rq) (onPax (tgt 64 rq) (fun y => { y with next := some c }) s)) (tgt 64 rq).val [] ∧
      c.kind = 1 ∧ c.target = int rq 0x0100 0 8 ∧ c.handed = s.now) ∧
  (∀ rq s, Ready opMoveRel rq s → moveDeny rq (tgt 64 rq) false (relBase (tgt 64 rq) s + int rq 0x0100 0 8) 0 s = none →
    ∃ c : MoveCmd, exec (.moveRel rq) s =
        begun opMoveRel rq (wakeSlot (tgt 64 rq) (onPax (tgt 64 rq) (fun y => { y with next := some c }) s)) (tgt 64 rq).val [] ∧
      c.kind = 1 ∧ c.handed = s.now ∧
      c.target = int rq 0x0100 0 8 +
        (if s.plan.ax[tgt 64 rq].activity = 1 then s.plan.ax[tgt 64 rq].cmd.target else s.axis[tgt 64 rq].posSp)) ∧
  (∀ rq s, Ready opJog rq s → moveDeny rq (tgt 64 rq) true s.axis[tgt 64 rq].posSp (int rq 0x0100 0 8) s = none →
    ∃ c : MoveCmd, exec (.jog rq) s =
        begun opJog rq (wakeSlot (tgt 64 rq) (onPax (tgt 64 rq) (fun y => { y with next := some c }) s)) (tgt 64 rq).val [] ∧
      c.kind = 2 ∧ c.speed = int rq 0x0100 0 8 ∧ c.handed = s.now) ∧
  (∀ rq s g, Ready opStop rq s → rq.target ≠ 0xFFFF → runningGroup (tgt 64 rq) s = some g →
    exec (.stop rq) s = begun opStop rq (requestGroupStop g (num rq 0x0100 0 1) s) (groupKey g) []) ∧
  (∀ rq s, Ready opStop rq s → rq.target ≠ 0xFFFF → runningGroup (tgt 64 rq) s = none → stoppable (tgt 64 rq) s = true →
    exec (.stop rq) s = begun opStop rq (requestStop (tgt 64 rq) (num rq 0x0100 0 1) s) (tgt 64 rq).val []) ∧
  (∀ rq s, Ready opStop rq s → rq.target ≠ 0xFFFF → runningGroup (tgt 64 rq) s = none → stoppable (tgt 64 rq) s = false →
    exec (.stop rq) s = answered opStop rq s s []) ∧
  (∀ rq s u v, Ready opStop rq s → rq.target = 0xFFFF →
    v = (List.finRange 64).foldl (fun s i => if stoppable i s then requestStop i (num rq 0x0100 0 1) s else s) s →
    u = (List.finRange 16).foldl (fun s g =>
      if s.plan.grp[g].running && s.plan.grp[g].activity != 4 then requestGroupStop g (num rq 0x0100 0 1) s else s) v →
    exec (.stop rq) s = if allAtRest u then answered opStop rq s u [] else begun opStop rq u 0xFFFF [])

/-- A ready PLAN_AXIS_CONFIG of a bound slot in Commissioning, or Disabled, or Enabled with its planner idle and the divider
untouched, with a first configuration whole, sets the configuration of that planner axis and nothing else; SEGMENT_APPEND of
entries that parse, within the capacity of the group, replaces the queue by the longer one and answers the free entries;
GROUP_DEFINE without MEMBERS releases an idle group and its store; with members bound and in no other group, and store found,
the group is defined with them; STORE_STATUS answers the free and the longest run and changes nothing; OVERRIDE_SET writes the
override shadows of every item it carries and strobes update group US1. (07_motion_planner.md) -/
def Obligations.PlannerSettingsComplete : Prop :=
  (∀ rq s, Ready opPlanAxisConfig rq s → s.axis[tgt 64 rq].st ≠ .unbound →
    (s.sys.dev = .commissioning ∨ s.axis[tgt 64 rq].st = .disabled ∨
      s.axis[tgt 64 rq].st = .enabled ∧ s.plan.ax[tgt 64 rq].activity = 0 ∧ has rq 0x0104 = false) →
    (s.plan.ax[tgt 64 rq].cfg = none → ∀ t ∈ [0x0100, 0x0101, 0x0104], has rq t = true) →
    exec (.planAxisConfig rq) s = answered opPlanAxisConfig rq s
      (onPax (tgt 64 rq) (fun y => { y with cfg := some (planCfgOf rq (s.plan.ax[tgt 64 rq].cfg.getD {})) }) s) []) ∧
  (∀ rq s q, Ready opSegmentAppend rq s → s.plan.grp[tgt 16 rq].defined = true →
    parseSegs s.plan.grp[tgt 16 rq] s ((value rq 0x0100).length / 32) 0 (value rq 0x0100) s.plan.grp[tgt 16 rq].queue = .ok q →
    queueUsed { s.plan.grp[tgt 16 rq] with queue := q } ≤ s.plan.grp[tgt 16 rq].capacity →
    exec (.segmentAppend rq) s = answered opSegmentAppend rq s (onPgrp (tgt 16 rq) (fun y => { y with queue := q, stale := true }) s)
      [(0x0100, be 2 (queueFree { s.plan.grp[tgt 16 rq] with queue := q }))]) ∧
  (∀ rq s, Ready opGroupDefine rq s → (s.plan.grp[tgt 16 rq].defined = true → s.plan.grp[tgt 16 rq].activity = 1) →
    has rq 0x0100 = false →
    ∃ u, exec (.groupDefine rq) s = answered opGroupDefine rq s u [] ∧ u.plan.grp[tgt 16 rq].defined = false ∧
      (∀ x ∈ u.plan.store, x.owner ≠ storeGroup (tgt 16 rq)) ∧ ∀ k, k ≠ tgt 16 rq → u.plan.grp[k] = s.plan.grp[k]) ∧
  (∀ rq s v, Ready opGroupDefine rq s → (s.plan.grp[tgt 16 rq].defined = true → s.plan.grp[tgt 16 rq].activity = 1) →
    has rq 0x0100 = true →
    (∀ n ∈ membersOf rq, s.axis[memberSlot n].bind.location ≠ 0 ∧
      ∀ k : Fin 16, k ≠ tgt 16 rq → s.plan.grp[k].defined = true → n ∉ s.plan.grp[k].members) →
    storeAllocate (storeGroup (tgt 16 rq)) (num rq 0x0105 0 2) s = some v →
    ∃ u, exec (.groupDefine rq) s = answered opGroupDefine rq s u [] ∧ u.plan.grp[tgt 16 rq].defined = true ∧
      u.plan.grp[tgt 16 rq].members = membersOf rq ∧ u.plan.grp[tgt 16 rq].capacity = num rq 0x0105 0 2 ∧
      u.plan.grp[tgt 16 rq].queue = [] ∧ u.plan.store = v.plan.store ∧
      ∀ k, k ≠ tgt 16 rq → u.plan.grp[k] = s.plan.grp[k]) ∧
  (∀ rq s, Ready opStoreStatus rq s →
    exec (.storeStatus rq) s = answered opStoreStatus rq s s [(0x0100, be 2 (storeFree s)), (0x0101, be 2 (storeLongest s))]) ∧
  (∀ rq s, Ready opOverrideSet rq s →
    exec (.overrideSet rq) s = answered opOverrideSet rq s
      (strobe 2 (markDirty 1 ((every rq 0x0100).foldl (fun s t => setOverride (overrideItem t) s) s))) [])

/-- A ready GROUP_START of a defined, idle group with every member ready sets it running from now, and of a group already running
answers at once; GROUP_RESUME of a paused group sets it running again; GROUP_CLEAR of a group neither running nor stopping
empties its queue and its path; GROUP_STATUS answers status, queue, segment and path of the group and changes nothing. Each
touches its own group alone. (07_motion_planner.md) -/
def Obligations.PlannerGroupsComplete : Prop :=
  (∀ rq s, Ready opGroupStart rq s → s.plan.grp[tgt 16 rq].defined = true → groupStopping s.plan.grp[tgt 16 rq] = false →
    s.plan.grp[tgt 16 rq].activity ≠ 4 → s.plan.grp[tgt 16 rq].running = false →
    (∀ n ∈ s.plan.grp[tgt 16 rq].members,
      memberReady (memberSlot (s.plan.grp[tgt 16 rq].members.getD 0 0)) (memberSlot n) s = true) →
    exec (.groupStart rq) s = answered opGroupStart rq s
      (onPgrp (tgt 16 rq) (fun y => { y with running := true, startPend := true, activity := 2, boundary := s.now }) s) []) ∧
  (∀ rq s, Ready opGroupStart rq s → s.plan.grp[tgt 16 rq].defined = true → groupStopping s.plan.grp[tgt 16 rq] = false →
    s.plan.grp[tgt 16 rq].activity ≠ 4 → s.plan.grp[tgt 16 rq].running = true →
    exec (.groupStart rq) s = answered opGroupStart rq s s []) ∧
  (∀ rq s, Ready opGroupResume rq s → groupStopping s.plan.grp[tgt 16 rq] = false → s.plan.grp[tgt 16 rq].defined = true →
    s.plan.grp[tgt 16 rq].activity = 4 →
    exec (.groupResume rq) s = answered opGroupResume rq s
      (onPgrp (tgt 16 rq) (fun y => { y with running := true, activity := 2, resumeDue := some s.now }) s) []) ∧
  (∀ rq s, Ready opGroupClear rq s → groupStopping s.plan.grp[tgt 16 rq] = false → s.plan.grp[tgt 16 rq].defined = true →
    s.plan.grp[tgt 16 rq].activity ≠ 2 → s.plan.grp[tgt 16 rq].activity ≠ 3 →
    ∃ u r, exec (.groupClear rq) s = answered opGroupClear rq s u r ∧ u.plan.grp[tgt 16 rq].queue = [] ∧
      u.plan.grp[tgt 16 rq].path = 0 ∧ u.plan.grp[tgt 16 rq].pathVel = 0 ∧
      r = [(0x0100, be 2 (queueFree u.plan.grp[tgt 16 rq]))] ∧ ∀ k, k ≠ tgt 16 rq → u.plan.grp[k] = s.plan.grp[k]) ∧
  (∀ rq s, Ready opGroupStatus rq s →
    exec (.groupStatus rq) s = answered opGroupStatus rq s s
      [(0x0100, be 4 (planGrpStatus (tgt 16 rq) s).toNat), (0x0101, be 4 (planGrpQueue (tgt 16 rq) s).toNat),
       (0x0102, be 4 s.plan.grp[tgt 16 rq].segId), (0x0103, beI 8 (roundOpen (s.plan.grp[tgt 16 rq].path * 65536)))])

/-- A ready GEAR_LINK with MODE 0 releases the link of a slot that does not follow it; with a link that no rule denies the link is
set from the request, keeping its tallies and flags, with the index corrections of its master port so far and its present
position; GEAR_RATIO_AT with a ratio on a gear link, or a committed table on a cam link, with fewer than 64 changes waiting,
appends the change and answers the count; GEAR_CLEAR_PENDING empties the list and answers how many waited; VMASTER_SET of a
virtual master that no engaged link uses, or without a position, sets its base and speed and the position given;
GEAR_STATUS_READ changes nothing. (08_gearing_and_cams.md) -/
def Obligations.GearLinksComplete : Prop :=
  (∀ rq s, Ready opGearLink rq s → num rq 0x0100 0 1 = 0 →
    ¬(s.axis[tgt 64 rq].st = .enabled ∧ (sourceOf (tgt 64 rq) s = 1 ∨ sourceOf (tgt 64 rq) s = 2)) →
    exec (.gearLink rq) s = answered opGearLink rq s (onLink (tgt 64 rq) linkReleased s) []) ∧
  (∀ rq s l, Ready opGearLink rq s → num rq 0x0100 0 1 ≠ 0 →
    l = { linkOf rq s.gear.link[tgt 64 rq] with
      mOffset := masterOffset (linkOf rq s.gear.link[tgt 64 rq]) s,
      mLast := masterPos { linkOf rq s.gear.link[tgt 64 rq] with mOffset := masterOffset (linkOf rq s.gear.link[tgt 64 rq]) s } s } →
    s.gear.link[tgt 64 rq].engage ≠ 2 → ¬(sourceOf (tgt 64 rq) s = 1 ∧ num rq 0x0100 0 1 = 2) →
    ¬(sourceOf (tgt 64 rq) s = 2 ∧ num rq 0x0100 0 1 = 1) →
    chainsOk (upd s.gear.link (tgt 64 rq) fun _ => l) = true →
    (l.mKind = 3 → s.ports.port[Fin.ofNat 32 l.mIndex].mode ∈ [1, 2, 3]) →
    (num rq 0x0100 0 1 = 2 → (camTab s l.table).committed = true) →
    (l.engagePos = none → s.axis[tgt 64 rq].st = .enabled → camFar (tgt 64 rq) l l.mLast s = false) →
    exec (.gearLink rq) s = answered opGearLink rq s (onLink (tgt 64 rq) (fun _ => l) s) []) ∧
  (∀ rq s, Ready opGearRatioAt rq s → s.gear.link[tgt 64 rq].mode = 1 → has rq 0x0102 = true → has rq 0x0103 = false →
    s.gear.link[tgt 64 rq].changes.length < 64 →
    ∃ u c, exec (.gearRatioAt rq) s = answered opGearRatioAt rq s u [(0x0100, be 1 (s.gear.link[tgt 64 rq].changes.length + 1))] ∧
      u.gear.link[tgt 64 rq].changes = s.gear.link[tgt 64 rq].changes ++ [c] ∧ c.p = int rq 0x0100 0 8 ∧
      c.num = int rq 0x0102 0 4 ∧ c.den = num rq 0x0102 4 4 ∧ c.table = none ∧
      ∀ k, k ≠ tgt 64 rq → u.gear.link[k] = s.gear.link[k]) ∧
  (∀ rq s, Ready opGearRatioAt rq s → s.gear.link[tgt 64 rq].mode = 2 → has rq 0x0102 = false → has rq 0x0103 = true →
    (camTab s (num rq 0x0103 0 1)).committed = true → s.gear.link[tgt 64 rq].changes.length < 64 →
    ∃ u c, exec (.gearRatioAt rq) s = answered opGearRatioAt rq s u [(0x0100, be 1 (s.gear.link[tgt 64 rq].changes.length + 1))] ∧
      u.gear.link[tgt 64 rq].changes = s.gear.link[tgt 64 rq].changes ++ [c] ∧ c.p = int rq 0x0100 0 8 ∧
      c.table = some (num rq 0x0103 0 1) ∧ ∀ k, k ≠ tgt 64 rq → u.gear.link[k] = s.gear.link[k]) ∧
  (∀ rq s, Ready opGearClearPending rq s →
    exec (.gearClearPending rq) s = answered opGearClearPending rq s
      (onLink (tgt 64 rq) (fun l => { l with changes := l.kept, clearTo := none }) s)
      [(0x0100, be 1 (s.gear.link[tgt 64 rq].changes.length - s.gear.link[tgt 64 rq].kept.length))]) ∧
  (∀ rq s, Ready opVmasterSet rq s →
    (has rq 0x0102 = true → ∀ i : Fin 64, ¬(s.gear.link[i].mode ≠ 0 ∧ s.gear.link[i].engage = 2 ∧ s.gear.link[i].mKind = 4 ∧
      s.gear.link[i].mIndex = (tgt 8 rq).val)) →
    ∃ u, exec (.vmasterSet rq) s = answered opVmasterSet rq s u [] ∧
      u.gear.vm[tgt 8 rq].base = numD rq 0x0100 0 1 s.gear.vm[tgt 8 rq].base ∧
      u.gear.vm[tgt 8 rq].vel = intD rq 0x0101 0 8 s.gear.vm[tgt 8 rq].vel ∧
      (has rq 0x0102 = true → u.gear.vm[tgt 8 rq].p0 = int rq 0x0102 0 8) ∧ u.gear.link = s.gear.link ∧
      u.gear.cam = s.gear.cam ∧ ∀ k, k ≠ tgt 8 rq → u.gear.vm[k] = s.gear.vm[k]) ∧
  (∀ rq s, Ready opGearStatusRead rq s →
    exec (.gearStatusRead rq) s = answered opGearStatusRead rq s s
      [(0x0100, be 4 (gearStatus (tgt 64 rq) s).toNat),
       (0x0101, beI 4 s.gear.link[tgt 64 rq].num ++ be 4 s.gear.link[tgt 64 rq].den),
       (0x0102, beI 8 s.gear.link[tgt 64 rq].mLast), (0x0103, beI 8 s.gear.link[tgt 64 rq].slave)])

/-- On a cam table that no link uses: a ready CAM_DEFINE without HEADER leaves the table undefined and owning no store; with a
HEADER and store found the table is defined, uncommitted, with the header taken, and the free entries are answered; CAM_DATA on
a defined table, starting no further than one entry after those it holds and with every entry well laid out (a header within the
room of the table), enters them one by one; CAM_COMMIT of a defined table that breaks no rule commits it. No other table
changes. (08_gearing_and_cams.md) -/
def Obligations.CamTablesComplete : Prop :=
  (∀ rq s, Ready opCamDefine rq s → camInUse (tgt 32 rq) s = false → has rq 0x0100 = false →
    ∃ u r, exec (.camDefine rq) s = answered opCamDefine rq s u r ∧ u.gear.cam[tgt 32 rq].defined = false ∧
      u.gear.cam[tgt 32 rq].committed = false ∧ (∀ x ∈ u.plan.store, x.owner ≠ storeCam (tgt 32 rq)) ∧
      r = [(0x0100, be 2 (storeEntries u))] ∧ ∀ k, k ≠ tgt 32 rq → u.gear.cam[k] = s.gear.cam[k]) ∧
  (∀ rq s v, Ready opCamDefine rq s → camInUse (tgt 32 rq) s = false → has rq 0x0100 = true →
    storeAllocate (storeCam (tgt 32 rq)) (num rq 0x0100 2 2 + 1) s = some v →
    ∃ u r, exec (.camDefine rq) s = answered opCamDefine rq s u r ∧
      u.gear.cam[tgt 32 rq] = CamTable.header { defined := true } (value rq 0x0100) ∧ u.plan.store = v.plan.store ∧
      r = [(0x0100, be 2 (storeEntries v))] ∧ ∀ k, k ≠ tgt 32 rq → u.gear.cam[k] = s.gear.cam[k]) ∧
  (∀ rq s, Ready opCamData rq s → s.gear.cam[tgt 32 rq].defined = true → camInUse (tgt 32 rq) s = false →
    num rq 0x0100 0 2 + (value rq 0x0101).length / 32 ≤ s.gear.cam[tgt 32 rq].count + 1 →
    (∀ k, k < (value rq 0x0101).length / 32 → if num rq 0x0100 0 2 + k = 0 then
      camHeaderOk (slice (32 * k) 32 (value rq 0x0101)) = true ∧
        beNat (slice 2 2 (slice (32 * k) 32 (value rq 0x0101))) + 1 ≤ camRoom (tgt 32 rq) s
      else bad63 (slice 8 8 (slice (32 * k) 32 (value rq 0x0101))) = false ∧ bad63 (slice 16 8 (slice (32 * k) 32 (value rq 0x0101))) = false ∧
      ∀ x ∈ slice 1 7 (slice (32 * k) 32 (value rq 0x0101)), x = 0) →
    exec (.camData rq) s = answered opCamData rq s (onCam (tgt 32 rq) (fun c =>
      (List.range ((value rq 0x0101).length / 32)).foldl (fun c k =>
        c.entry (num rq 0x0100 0 2 + k) (slice (32 * k) 32 (value rq 0x0101))) c) s) []) ∧
  (∀ rq s, Ready opCamCommit rq s → s.gear.cam[tgt 32 rq].defined = true → camBad s.gear.cam[tgt 32 rq] = none →
    exec (.camCommit rq) s = answered opCamCommit rq s (onCam (tgt 32 rq) (fun c => { c with committed := true }) s) [])

/-- Ready, and with the loop the slot has and the state the setting asks for: LOOP_LOAD_CASCADE stages the record as the load of one
region of that loop, not before 10 microseconds (5,000 ticks) from now, and is answered when it commits; LOOP_SCHEDULE of an
enabled slot takes bounds of the same count, and of a slot being configured the whole schedule, admitted anew when the number of
sections changes, with its regions unloaded unless it is the same; LOOP_SCALES, LOOP_MOTOR, LOOP_FOLLOW and LOOP_OBSERVER of a
slot being configured, and LOOP_MODULATION with a kind its drive admits, and LOOP_LIMITS of any bound slot, set what they carry.
Every one changes that slot of the Loop Engine and nothing else. (09_loop_engine.md) -/
def Obligations.LoopSettingsComplete : Prop :=
  (∀ rq s, Ready opLoopLoadCascade rq s → loopDeny rq (tgt 64 rq) s = none → loadDeny rq (tgt 64 rq) s = none →
    ∃ ld : LoopLoad, exec (.loopLoadCascade rq) s = begun opLoopLoadCascade rq
        (onLoopSt (tgt 64 rq) (loopNo rq) (fun y => { y with load := some ld }) s) (loadKey (tgt 64 rq) (loopNo rq)) [] ∧
      ld.region = num rq 0x0101 0 1 ∧ ld.notBefore = s.now + 5000 ∧
      ld.recv = regionOf rq s.loop.slot[tgt 64 rq].lp[loopNo rq]) ∧
  (∀ rq s, Ready opLoopSchedule rq s → loopDeny rq (tgt 64 rq) s = none → s.axis[tgt 64 rq].st = .enabled →
    has rq 0x0101 = false → has rq 0x0102 = false → has rq 0x0103 = false →
    (boundsOf rq).length + 1 = s.loop.slot[tgt 64 rq].lp[loopNo rq].nRegions →
    edgesDeny s.loop.slot[tgt 64 rq].lp[loopNo rq].schedVar rq = none →
    exec (.loopSchedule rq) s = answered opLoopSchedule rq s
      (onLoopSt (tgt 64 rq) (loopNo rq) (fun y => { y with bounds := boundsOf rq, hyst := intD rq 0x0105 0 8 0 }) s) []) ∧
  (∀ rq s l t, Ready opLoopSchedule rq s → loopDeny rq (tgt 64 rq) s = none → s.axis[tgt 64 rq].st ≠ .enabled →
    configuring (tgt 64 rq) s = true → has rq 0x0101 = true → has rq 0x0102 = true → has rq 0x0103 = true →
    scheduleDeny rq (tgt 64 rq) s = none → edgesDeny (num rq 0x0103 0 1) rq = none → l = s.loop.slot[tgt 64 rq].lp[loopNo rq] →
    t = onLoopSt (tgt 64 rq) (loopNo rq) (fun y => { y with
      n := num rq 0x0101 0 1, integ := num rq 0x0102 0 1 == 1, nRegions := (boundsOf rq).length + 1, schedVar := num rq 0x0103 0 1,
      varPort := num rq 0x0103 1 1, absolute := hasBit (num rq 0x0103 2 1) 0, bounds := boundsOf rq, hyst := intD rq 0x0105 0 8 0,
      region := if num rq 0x0101 0 1 == l.n && (num rq 0x0102 0 1 == 1) == l.integ && num rq 0x0103 0 1 == l.schedVar &&
        num rq 0x0103 1 1 == l.varPort && hasBit (num rq 0x0103 2 1) 0 == l.absolute && (boundsOf rq).length + 1 == l.nRegions then y.region else updAll y.region fun _ r => { r with loaded := false } }) s →
    (num rq 0x0101 0 1 ≠ l.n → admission t = none) →
    exec (.loopSchedule rq) s = answered opLoopSchedule rq s (if num rq 0x0101 0 1 = l.n then t else reselect t) []) ∧
  (∀ rq s, Ready opLoopScales rq s → configuring (tgt 64 rq) s = true →
    exec (.loopScales rq) s = answered opLoopScales rq s
      (onLSlot (tgt 64 rq) (fun x => { x with
        currentFs := num rq 0x0100 0 4, voltageFs := num rq 0x0101 0 4,
        velFs := int rq 0x0102 0 8, posFs := int rq 0x0103 0 8,
        inputCal := if has rq 0x0104 then (List.range ((value rq 0x0104).length / 12)).map fun k =>
          (int rq 0x0104 (12 * k) 4, raw64 rq 0x0104 (12 * k + 4)) else x.inputCal }) s) []) ∧
  (∀ rq s, Ready opLoopMotor rq s → configuring (tgt 64 rq) s = true →
    exec (.loopMotor rq) s = answered opLoopMotor rq s
      (onLSlot (tgt 64 rq) (fun x => { x with
        elecCounts := int rq 0x0100 0 8, motorR := raw64 rq 0x0101 0,
        motorLd := raw64 rq 0x0101 8, motorLq := raw64 rq 0x0101 16, motorPsi := raw64 rq 0x0101 24, motorSet := true,
        motorOpts := BitVec.ofNat 3 (num rq 0x0102 0 1) }) s) []) ∧
  (∀ rq s m, Ready opLoopModulation rq s → configuring (tgt 64 rq) s = true → s.axis[tgt 64 rq].mode = some m →
    modulationAllowed m.drive (num rq 0x0100 0 1) = true →
    (num rq 0x0101 0 1 = 2 → ∀ j : Fin 64, num rq 0x0101 1 1 ∉ s.axis[j].bind.inputs) →
    exec (.loopModulation rq) s = answered opLoopModulation rq s
      (onLSlot (tgt 64 rq) (fun x => { x with
        modKind := num rq 0x0100 0 1, modSet := true, dcSource := num rq 0x0101 0 1,
        dcIndex := num rq 0x0101 1 1, dcMv := num rq 0x0101 4 4, dtc := numD rq 0x0102 0 4 0 }) s) []) ∧
  (∀ rq s, Ready opLoopFollow rq s → configuring (tgt 64 rq) s = true →
    exec (.loopFollow rq) s = answered opLoopFollow rq s
      (onLSlot (tgt 64 rq) (fun x => { x with
        folOffset := int rq 0x0100 0 2, folDead := num rq 0x0101 0 2,
        folGain := int rq 0x0102 0 8, folMin := int rq 0x0103 0 8, folMax := int rq 0x0103 8 8 }) s) []) ∧
  (∀ rq s, Ready opLoopLimits rq s →
    exec (.loopLimits rq) s = answered opLoopLimits rq s
      (onLSlot (tgt 64 rq) (fun x => { x with
        feWarn := int rq 0x0100 0 8, feLimit := int rq 0x0100 8 8,
        feCount := num rq 0x0100 16 1, feSeen := 0, kVff := if has rq 0x0101 then raw64 rq 0x0101 0 else x.kVff,
        kAff := if has rq 0x0101 then raw64 rq 0x0101 8 else x.kAff }) s) []) ∧
  (∀ rq s, Ready opLoopObserver rq s → configuring (tgt 64 rq) s = true →
    exec (.loopObserver rq) s = answered opLoopObserver rq s
      (onLSlot (tgt 64 rq) (fun x => { x with
        obsMin := some (int rq 0x0100 0 8), obsBw := num rq 0x0101 0 4,
        startI := int rq 0x0102 0 4, startMs := num rq 0x0102 4 2, startSpeed := some (int rq 0x0102 8 8) }) s) [])

/-- A ready LOOP_READ of a loop the slot has answers the record of the region named and the schedule of the loop, and changes
nothing. LOOP_STATUS_READ answers, among others, the loop status and the following error, and restarts the least margins at
FFFFH, changing nothing else of the loops and no other slot. (09_loop_engine.md) -/
def Obligations.LoopReadsComplete : Prop :=
  (∀ rq s, Ready opLoopRead rq s → loopDeny rq (tgt 64 rq) s = none →
    exec (.loopRead rq) s = answered opLoopRead rq s s
      [(0x0100, regionRecord false s.loop.slot[tgt 64 rq].lp[loopNo rq] (num rq 0x0101 0 1)),
       (0x0101, scheduleTlvs (loopNo rq) s.loop.slot[tgt 64 rq].lp[loopNo rq])]) ∧
  (∀ rq s, Ready opLoopStatusRead rq s → ∃ u r, exec (.loopStatusRead rq) s = answered opLoopStatusRead rq s u r ∧
    (0x0100, be 4 (loopStatus (tgt 64 rq) s).toNat) ∈ r ∧ (0x0104, beI 8 s.loop.slot[tgt 64 rq].fe) ∈ r ∧
    (∀ k : Fin 3, u.loop.slot[tgt 64 rq].lp[k] = { s.loop.slot[tgt 64 rq].lp[k] with margin := 0xFFFF }) ∧
    ∀ k, k ≠ tgt 64 rq → u.loop.slot[k] = s.loop.slot[k])

/-- On a port free for change: a ready PP_CONFIG, in a mode its binding leaves free, sets the mode, the modulus and the
configuration carried, and enables every loss cause but cause 6; PP_SET_POSITION presets the counter to the whole counts given,
with the absolute offset of an SSI port following; PP_INDEX_CONFIG and PP_SPEED_CONFIG set what they carry. PP_LOSS_CONFIG needs
no free port, sets the mask, the limits and the freeze time and detects each cause it enables that is present; PP_STATUS_READ
answers, among others, status, position and speed of the port and changes nothing. (10_position_ports.md) -/
def Obligations.PositionPortsComplete : Prop :=
  (∀ rq s, Ready opPpConfig rq s → freePort (tgt 32 rq) s = true → (∀ m, fixedMode (tgt 32 rq) s = some m → m = num rq 0x0100 0 1) →
    ∃ u, u = setPort (tgt 32 rq) (num rq 0x0100 0 1) (num rq 0x0103 0 4) s ∧ u.ports.port[tgt 32 rq].mode = num rq 0x0100 0 1 ∧
      u.ports.port[tgt 32 rq].cfg.modulus = num rq 0x0103 0 4 ∧
      exec (.ppConfig rq) s = answered opPpConfig rq s (enableCauses (tgt 32 rq) 0xDF (onPort (tgt 32 rq) (fun x => { x with
        cfg := ppConfigured rq x.cfg, ssiLast := none, ssiAbs := none, ssiOff := 0, ssiBad := 0, ssiStart := none,
        hallRef := x.hallStart, refPending := x.cfg.reference }) u)) []) ∧
  (∀ rq s, Ready opPpSetPosition rq s → freePort (tgt 32 rq) s = true →
    (s.ports.port[tgt 32 rq].preset (int rq 0x0100 0 8 / 65536)).counts = int rq 0x0100 0 8 / 65536 ∧
      exec (.ppSetPosition rq) s = answered opPpSetPosition rq s (moved (tgt 32 rq) s.ports.port[tgt 32 rq].counts
        (onPort (tgt 32 rq) (fun x => { x with
          ssiOff := if x.mode = 5 then ((x.ssiAbs.map fun a => int rq 0x0100 0 8 / 65536 - a).getD x.ssiOff) else x.ssiOff,
          referenced := x.referenced || (x.mode != 0 && x.mode != 5) })
          (presetPort (tgt 32 rq) (int rq 0x0100 0 8 / 65536) s.nowNs s))) []) ∧
  (∀ rq s, Ready opPpIndexConfig rq s → freePort (tgt 32 rq) s = true →
    exec (.ppIndexConfig rq) s = answered opPpIndexConfig rq s (onPort (tgt 32 rq) (fun x => { x with
      refPending := num rq 0x0100 2 1 == 1, idxActive := x.indexHigh (num rq 0x0100 1 1),
      cfg := { x.cfg with
        idxPolicy := num rq 0x0100 0 1, gate := num rq 0x0100 1 1, reference := num rq 0x0100 2 1 == 1,
        idxPos := num rq 0x0100 4 4, tol := num rq 0x0100 8 4, spread := num rq 0x0100 12 4 } }) s) []) ∧
  (∀ rq s, Ready opPpSpeedConfig rq s → freePort (tgt 32 rq) s = true →
    exec (.ppSpeedConfig rq) s = answered opPpSpeedConfig rq s
      (onPort (tgt 32 rq) (fun x => { x with cfg := { x.cfg with
        timeoutMs := num rq 0x0100 0 2, periodEdges := num rq 0x0100 2 1, tw := num rq 0x0100 4 4,
        vLo := int rq 0x0100 8 8, vHi := int rq 0x0100 16 8 } }) s) []) ∧
  (∀ rq s, Ready opPpLossConfig rq s →
    exec (.ppLossConfig rq) s = answered opPpLossConfig rq s
      (((List.range 8).filter fun k => (BitVec.ofNat 8 (num rq 0x0100 0 1) &&& ~~~s.ports.port[tgt 32 rq].cfg.lossMask &&&
          s.ports.port[tgt 32 rq].causesNow).getLsbD k).foldl (fun s k => portLoss (tgt 32 rq) (k + 1) s)
        (onPort (tgt 32 rq) (fun x => { x with cfg := { x.cfg with
          lossMask := BitVec.ofNat 8 (num rq 0x0100 0 1), unresLimit := num rq 0x0100 1 1, freezeMs := num rq 0x0100 2 1,
          freezeSpeed := int rq 0x0100 8 8 } }) s)) []) ∧
  (∀ rq s, Ready opPpStatusRead rq s → ∃ r, exec (.ppStatusRead rq) s = answered opPpStatusRead rq s s r ∧
    (0x0100, be 4 (ppStatus (tgt 32 rq) s).toNat) ∈ r ∧ (0x0101, beI 8 (s.ports.port[tgt 32 rq].counts * 65536)) ∈ r ∧
    (0x0104, beI 8 s.ports.port[tgt 32 rq].speed) ∈ r)

/-- A ready COMPARE_DEFINE of a unit not enabled frees its list without LENGTH and, with LENGTH and store found, gives it an empty
list of that length; COMPARE_DATA of a defined unit not enabled, within the length, puts the entries at their places;
COMPARE_ARM with 0 disables the unit, and with 1 on a defined unit whose list breaks no rule enables it from the entry named
with nothing repeated and nothing done; COMPARE_FORCE writes the force bits of the unit. (10_position_ports.md) -/
def Obligations.CompareUnitsComplete : Prop :=
  (∀ rq s, Ready opCompareDefine rq s → s.ports.cmp[tgt 16 rq].enabled = false → has rq 0x0101 = false →
    ∃ u r, exec (.compareDefine rq) s = answered opCompareDefine rq s u r ∧ u.ports.cmp[tgt 16 rq].defined = false ∧
      u.ports.cmp[tgt 16 rq].entries = [] ∧ (∀ x ∈ u.plan.store, x.owner ≠ storeCompare (tgt 16 rq)) ∧
      r = [(0x0100, be 2 (storeEntries u))] ∧ ∀ k, k ≠ tgt 16 rq → u.ports.cmp[k] = s.ports.cmp[k]) ∧
  (∀ rq s v, Ready opCompareDefine rq s → s.ports.cmp[tgt 16 rq].enabled = false → has rq 0x0101 = true →
    storeAllocate (storeCompare (tgt 16 rq)) (num rq 0x0101 0 2) s = some v →
    ∃ u r, exec (.compareDefine rq) s = answered opCompareDefine rq s u r ∧ u.ports.cmp[tgt 16 rq].defined = true ∧
      u.ports.cmp[tgt 16 rq].length = num rq 0x0101 0 2 ∧ u.ports.cmp[tgt 16 rq].port = num rq 0x0100 0 1 ∧
      u.ports.cmp[tgt 16 rq].entries = [] ∧ u.plan.store = v.plan.store ∧ r = [(0x0100, be 2 (storeEntries v))] ∧
      ∀ k, k ≠ tgt 16 rq → u.ports.cmp[k] = s.ports.cmp[k]) ∧
  (∀ rq s, Ready opCompareData rq s → s.ports.cmp[tgt 16 rq].enabled = false → s.ports.cmp[tgt 16 rq].defined = true →
    num rq 0x0100 0 2 + (value rq 0x0101).length / 32 ≤ s.ports.cmp[tgt 16 rq].length →
    (∀ k, k < (value rq 0x0101).length / 32 →
      bad63 (slice (32 * k + 8) 8 (value rq 0x0101)) = false ∧ bad63 (slice (32 * k + 16) 8 (value rq 0x0101)) = false) →
    exec (.compareData rq) s = answered opCompareData rq s (onCmp (tgt 16 rq) (fun c => { c with
      entries := (List.range ((value rq 0x0101).length / 32)).foldl (fun l k =>
        putKey (num rq 0x0100 0 2 + k) (compareEntry (slice (32 * k) 32 (value rq 0x0101))) l) c.entries }) s) []) ∧
  (∀ rq s, Ready opCompareArm rq s → num rq 0x0100 0 1 = 0 →
    exec (.compareArm rq) s = answered opCompareArm rq s (writePcuCtrl (tgt 16 rq) 1 0 s) []) ∧
  (∀ rq s, Ready opCompareArm rq s → num rq 0x0100 0 1 = 1 → s.ports.cmp[tgt 16 rq].defined = true →
    numD rq 0x0101 0 2 0 < s.ports.cmp[tgt 16 rq].length → compareBad (tgt 16 rq) s = none →
    exec (.compareArm rq) s = answered opCompareArm rq s
      (writePcuCtrl (tgt 16 rq) 1 1 (onCmp (tgt 16 rq) (fun c => { c with head := numD rq 0x0101 0 2 0, rep := 0, done := false }) s)) []) ∧
  (∀ rq s, Ready opCompareForce rq s →
    exec (.compareForce rq) s = answered opCompareForce rq s
      (writePcuCtrl (tgt 16 rq) 6 (if num rq 0x0100 0 1 = 0 then 0 else if num rq 0x0100 0 1 = 1 then 2 else 6) s) [])

/-- A ready LATCH_CONFIG sets enable, port and source of one latch; LATCH_READ answers and drops up to COUNT captures, the oldest
first, and the count lost, which it clears; SNAPSHOT_CONFIG sets enable and source of the snapshot unit; SNAPSHOT_READ answers
and drops the oldest snapshot held, with the count lost, which it clears; SNAPSHOT_TRIGGER adds a snapshot due at its
time-of-effect or arrival. None touches another latch or port. (10_position_ports.md) -/
def Obligations.CapturesComplete : Prop :=
  (∀ rq s, Ready opLatchConfig rq s →
    exec (.latchConfig rq) s = answered opLatchConfig rq s
      (onLatch (tgt 16 rq) (fun l => { l with
        enabled := num rq 0x0100 0 1 == 1, port := num rq 0x0101 0 1,
        src := captureSource rq 0x0102 0x0103 0x0104 s,
        lastValid := if num rq 0x0101 0 1 = l.port then l.lastValid else none }) s) []) ∧
  (∀ rq s, Ready opLatchRead rq s →
    exec (.latchRead rq) s = answered opLatchRead rq s
      (onLatch (tgt 16 rq) (fun x => { x with caps := x.caps.drop (num rq 0x0100 0 1), lost := 0 }) s)
      [(0x0100, (s.ports.latch[tgt 16 rq].caps.take (num rq 0x0100 0 1)).flatMap Capture.bytes),
       (0x0101, be 4 s.ports.latch[tgt 16 rq].lost)]) ∧
  (∀ rq s, Ready opSnapshotConfig rq s →
    exec (.snapshotConfig rq) s = answered opSnapshotConfig rq s
      (onSnap (fun x => { x with enabled := num rq 0x0100 0 1 == 1, src := captureSource rq 0x0101 0x0102 0x0103 s }) s) []) ∧
  (∀ rq s, Ready opSnapshotRead rq s → ∃ u r, exec (.snapshotRead rq) s = answered opSnapshotRead rq s u r ∧
    u.ports.snap.held = s.ports.snap.held.drop 1 ∧ u.ports.snap.lost = 0 ∧ (0x0101, be 4 s.ports.snap.lost) ∈ r ∧
    u.ports.port = s.ports.port ∧ u.ports.latch = s.ports.latch) ∧
  (∀ rq s, Ready opSnapshotTrigger rq s → ∃ d, exec (.snapshotTrigger rq) s = answered opSnapshotTrigger rq s
      (onSnap (fun x => { x with due := x.due ++ [d] }) s) [] ∧ d = dueCapture s.ports.snap.src.code rq.arrival 0 s)

/-- On a group that is quiet: a ready BTA_GROUP_CONFIG sets phase, sample point, gang, strobe, unseal limit and sync, writes a
PERIOD that is not 0, and starts or stops the group as RUN says, an occupied group admitting no PERIOD, gang or RUN;
BTA_LEG_CONFIG sets dead times, trip state and compatibility of one leg; BTA_TRIP_CONFIG sets masks, kind, overcurrent inputs
that no slot binds and blanking, and evaluates the trips. BTA_BLANK_CONFIG, BTA_TRIP_INPUT_CONFIG, BTA_SDC_CONFIG and
BTA_SDI_CONFIG set their one unit. BTA_BANK_LEVEL of a bank that may change notes the level it changes to and is answered when
the change is complete. (11_bridge_timer_array.md) -/
def Obligations.BtaSettingsComplete : Prop :=
  (∀ rq s, Ready opBtaGroupConfig rq s → groupQuiet (tgt 32 rq) s = true →
    (s.bta.grp[tgt 32 rq].occupied = true → num rq 0x0100 0 4 = 0 ∧ num rq 0x0101 0 1 ≠ 1 ∧ has rq 0x0102 = false) →
    ∃ v w, exec (.btaGroupConfig rq) s = answered opBtaGroupConfig rq s
        (if has rq 0x0102 = false then w else if num rq 0x0102 0 1 = 0 then stopGroup (tgt 32 rq) w
         else if s.bta.grp[tgt 32 rq].run then w else refreshGroup (tgt 32 rq) (startGroup (tgt 32 rq) w)) [] ∧
      w = (if num rq 0x0100 0 4 = 0 then v else writePeriod (tgt 32 rq) (num rq 0x0100 0 4) v) ∧
      v = onGrp (tgt 32 rq) (fun x => { x with
        phase := num rq 0x0100 4 4, smp := num rq 0x0100 8 4, gang := num rq 0x0101 0 1 == 1,
        strobe := num rq 0x0101 1 1 - 8, unsealLimit := num rq 0x0101 2 1, sync := num rq 0x0101 3 1 == 1 }) s) ∧
  (∀ rq s, Ready opBtaLegConfig rq s → groupQuiet (legGroup (tgt 96 rq)) s = true →
    ∃ u, exec (.btaLegConfig rq) s = answered opBtaLegConfig rq s
        (if s.bta.leg[tgt 96 rq].tripState = num rq 0x0101 0 1 then u else refreshLeg (tgt 96 rq) u) [] ∧
      u = onLeg (tgt 96 rq) (fun l => { l with
        dtR := num rq 0x0100 0 2, dtF := num rq 0x0100 2 2, tripState := num rq 0x0101 0 1,
        compat := num rq 0x0102 0 1 == 1 }) s) ∧
  (∀ rq s, Ready opBtaTripConfig rq s → groupQuiet (tgt 32 rq) s = true →
    (has rq 0x0101 = true → s.bta.grp[tgt 32 rq].occupied = false ∧
      ∀ i : Fin 64, ∀ n ∈ ocInputsOf rq, n ∉ s.axis[i].bind.inputs) →
    exec (.btaTripConfig rq) s = answered opBtaTripConfig rq s
      (tripOpen (tgt 32 rq) (onGrp (tgt 32 rq) (fun x => { x with
        extMask := BitVec.ofNat 16 (num rq 0x0100 0 2),
        cycMask := BitVec.ofNat 16 (num rq 0x0100 2 2), ocKind := num rq 0x0100 4 1,
        ocInputs := if has rq 0x0101 then ocInputsOf rq else x.ocInputs,
        blk := if !has rq 0x0102 then x.blk else if num rq 0x0102 0 1 = 0xFF then none else some (num rq 0x0102 0 1),
        blkMask := if has rq 0x0102 then BitVec.ofNat 2 (num rq 0x0102 1 1) else x.blkMask }) s)) []) ∧
  (∀ rq s, Ready opBtaBlankConfig rq s →
    exec (.btaBlankConfig rq) s = answered opBtaBlankConfig rq s
      (tripAll (s.onBta fun x => { x with blank := upd x.blank (tgt 8 rq) fun _ =>
        { group := some (num rq 0x0100 0 1), start := num rq 0x0100 4 4, stop := num rq 0x0100 8 4 } })) []) ∧
  (∀ rq s, Ready opBtaTripInputConfig rq s →
    exec (.btaTripInputConfig rq) s = answered opBtaTripInputConfig rq s
      (tripAll (s.onBta fun b => { b with trip := upd b.trip (tgt 16 rq) fun t =>
        { activeHigh := num rq 0x0100 0 1 == 1, filter := num rq 0x0100 1 1,
          active := t.active != (t.activeHigh != (num rq 0x0100 0 1 == 1)) } })) []) ∧
  (∀ rq s, Ready opBtaSdcConfig rq s →
    exec (.btaSdcConfig rq) s = answered opBtaSdcConfig rq s
      (s.onBta fun b => { b with sdc := upd b.sdc (tgt 12 rq) fun _ =>
        { div := num rq 0x0100 0 2, capture := num rq 0x0100 2 1, enable := num rq 0x0100 3 1 } }) []) ∧
  (∀ rq s, Ready opBtaSdiConfig rq s →
    (s.sys.dev = .commissioning ∨ ∀ i : Fin 64, (tgt 96 rq).val ∈ s.axis[i].bind.inputs → s.axis[i].st ≠ .enabled) →
    exec (.btaSdiConfig rq) s = answered opBtaSdiConfig rq s
      (s.onBta fun b => { b with sdi := upd b.sdi (tgt 96 rq) fun x => { x with
        osr := num rq 0x0100 0 2, osrOc := num rq 0x0100 2 1, ocCount := num rq 0x0100 3 1, ocLo := int rq 0x0101 0 4,
        ocHi := int rq 0x0101 4 4, enabled := if has rq 0x0102 then num rq 0x0102 0 1 == 1 else x.enabled } }) []) ∧
  (∀ rq s, Ready opBtaBankLevel rq s →
    (∀ g ∈ bankGroups (tgt 8 rq), groupQuiet g s = true ∧ (s.bta.grp[g].run = true → s.bta.grp[g].occupied = true)) →
    ∃ u, exec (.btaBankLevel rq) s = begun opBtaBankLevel rq u (tgt 8 rq).val [] ∧
      u = (bankGroups (tgt 8 rq)).foldl (fun s g => refreshGroup g s)
        (s.onBta fun b => { b with bank := upd b.bank (tgt 8 rq) fun x => { x with changing := some (num rq 0x0100 0 1 == 1), since := s.now } }))

/-- A ready BTA_TRIP_CLEAR with no trip of the groups it names still active clears each that holds one; BTA_DUTY_SET of an
unoccupied group writes the duty shadows of its legs and, with SEAL 1 or none, seals them; BTA_STATUS_READ answers control,
status, trips and legs of the group and changes nothing. (11_bridge_timer_array.md) -/
def Obligations.BtaActionsComplete : Prop :=
  (∀ rq s, Ready opBtaTripClear rq s →
    (∀ g : Fin 32, (rq.target = 0xFFFF ∨ g.val = rq.target.toNat) → groupHeld g s = true → stillActive g s = 0) →
    exec (.btaTripClear rq) s = answered opBtaTripClear rq s
      (((List.finRange 32).filter fun (g : Fin 32) => (rq.target == 0xFFFF || g.val == rq.target.toNat) && groupHeld g s).foldl
        (fun s g => clearGroup g s) s) []) ∧
  (∀ rq s, Ready opBtaDutySet rq s → s.bta.grp[tgt 32 rq].occupied = false →
    ∃ u, exec (.btaDutySet rq) s = answered opBtaDutySet rq s (if numD rq 0x0101 0 1 1 = 1 then sealGroup (tgt 32 rq) u else u) [] ∧
      u = touchGroup (tgt 32 rq) (((groupLegs (tgt 32 rq)).zipIdx).foldl (fun s e => writeDuty e.1 (num rq 0x0100 (2 * e.2) 2) 65535 s) s)) ∧
  (∀ rq s, Ready opBtaStatusRead rq s →
    exec (.btaStatusRead rq) s = answered opBtaStatusRead rq s s
      [(0x0100, be 4 (grpCtrl (tgt 32 rq) s).toNat), (0x0101, be 4 (grpStatus (tgt 32 rq) s).toNat),
       (0x0102, be 4 (grpTrip (tgt 32 rq) s).toNat),
       (0x0103, (groupLegs (tgt 32 rq)).flatMap fun n => be 4 (legStatus n s).toNat),
       (0x0104, be 4 s.bta.grp[tgt 32 rq].cycleTrips.toNat)])

/-- A ready STEPPER_CONFIG in Commissioning, or of a Disabled slot, or of an Enabled one with currents and switch alone, sets the
mode, the switch voltages, the currents, the ramps and the hold memory that it carries and keeps the others;
STEPPER_SET_POSITION of a Disabled slot, or of one in standstill with its planner idle, makes the position MICROSTEP, moves the
set-point with it, books the jump and changes no other slot; STEPPER_STATUS_READ answers status and microstep position and
changes nothing. BRICK_REGISTER without LINK of a brick that carries no bound slot, or on the same link, leaves only its
tallies; with LINK, if the proof of the backbone admits it, registers it; FRAME_GROUP_CONFIG under the same proof configures the
group; BRICK_STATUS answers, among others, the last header and changes nothing. (12_stepper_drive.md, 13_remote_axes.md) -/
def Obligations.StepperAndBricksComplete : Prop :=
  (∀ rq s, Ready opStepperConfig rq s → (s.sys.dev = .commissioning ∨ s.axis[tgt 64 rq].st = .disabled ∨
      s.axis[tgt 64 rq].st = .enabled ∧ has rq 0x0100 = false ∧ has rq 0x0103 = false ∧ has rq 0x0104 = false) →
    exec (.stepperConfig rq) s = answered opStepperConfig rq s (onStep (tgt 64 rq) (fun y => { y with
      opMode := numD rq 0x0100 0 1 y.opMode, vSw := intD rq 0x0101 0 8 y.vSw, hyst := intD rq 0x0101 8 8 y.hyst,
      iRun := intD rq 0x0102 0 4 y.iRun, iHold := intD rq 0x0102 4 4 y.iHold, holdRamp := numD rq 0x0103 0 2 y.holdRamp,
      freewheelDelay := numD rq 0x0103 2 2 y.freewheelDelay, wakeRamp := numD rq 0x0103 4 1 y.wakeRamp,
      freewheelLimit := numD rq 0x0103 6 2 y.freewheelLimit,
      holdMemory := if has rq 0x0104 then num rq 0x0104 0 1 == 1 else y.holdMemory,
      holdValid := y.holdValid && numD rq 0x0104 0 1 1 == 1 }) s) []) ∧
  (∀ rq s, Ready opStepperStatusRead rq s →
    exec (.stepperStatusRead rq) s = answered opStepperStatusRead rq s s
      [(0x0100, be 4 (stepStatus (tgt 64 rq) s).toNat), (0x0102, beI 8 s.stepper.slot[tgt 64 rq].m)]) ∧
  (∀ rq s, Ready opStepperSetPosition rq s → (s.axis[tgt 64 rq].st = .disabled ∨
      s.axis[tgt 64 rq].st = .enabled ∧ s.axis[tgt 64 rq].standstill = true ∧ s.plan.ax[tgt 64 rq].activity = 0) →
    ∃ u d, d = int rq 0x0100 0 8 - s.stepper.slot[tgt 64 rq].m ∧ exec (.stepperSetPosition rq) s = answered opStepperSetPosition rq s u [] ∧
      u = onPax (tgt 64 rq) (fun x => { x with pos := int rq 0x0100 0 8 * 65536 })
        (onAx (tgt 64 rq) (fun a => { a with posSp := int rq 0x0100 0 8 * 65536 }) (onStep (tgt 64 rq) (fun y => { y with
          m := y.m + d, mOff := y.mOff + d, mPrev := y.mPrev + d, spPrev := y.spPrev + 65536 * d,
          presetPos := bumpFwd y.presetPos d, presetNeg := bumpRev y.presetNeg d }) s)) ∧
      u.stepper.slot[tgt 64 rq].m = int rq 0x0100 0 8 ∧ u.axis[tgt 64 rq].posSp = int rq 0x0100 0 8 * 65536 ∧
      ∀ k, k ≠ tgt 64 rq → u.stepper.slot[k] = s.stepper.slot[k] ∧ u.axis[k] = s.axis[k]) ∧
  (∀ rq s, Ready opBrickRegister rq s → (sameLink rq s.bricks.brick[tgt 64 rq] = true ∨ s.bricks.brick[tgt 64 rq].registered = false ∨ brickSlots (tgt 64 rq) s = []) →
    has rq 0x0100 = false →
    exec (.brickRegister rq) s = answered opBrickRegister rq s (reselect (onBrick (tgt 64 rq) Brick.tallies s)) []) ∧
  (∀ rq s t, Ready opBrickRegister rq s → (sameLink rq s.bricks.brick[tgt 64 rq] = true ∨ s.bricks.brick[tgt 64 rq].registered = false ∨ brickSlots (tgt 64 rq) s = []) →
    has rq 0x0100 = true →
    t = onBrick (tgt 64 rq) (fun x => (if sameLink rq s.bricks.brick[tgt 64 rq] then x else x.tallies).register rq) s →
    brickProof t = none →
    exec (.brickRegister rq) s = answered opBrickRegister rq s (reselect t) []) ∧
  (∀ rq s t, Ready opFrameGroupConfig rq s →
    t = (s.onBricks fun k => { k with fg := upd k.fg (tgt 16 rq) fun g => { g with
      mac := BitVec.ofNat 48 (num rq 0x0100 0 6), vlan := num rq 0x0100 6 2, etherType := num rq 0x0100 8 2,
      phase := num rq 0x0101 0 4, configured := true } }) → brickProof t = none →
    exec (.frameGroupConfig rq) s = answered opFrameGroupConfig rq s (reselect t) []) ∧
  (∀ rq s, Ready opBrickStatus rq s → ∃ r, exec (.brickStatus rq) s = answered opBrickStatus rq s s r ∧
    (0x0100, (s.bricks.brick[tgt 64 rq].header ++ List.replicate 24 0).take 24) ∈ r)

/-- A ready NET_ADDR_CONFIG with ADDRESS sets address, prefix, gateway, UDP port and management VLAN; PORT_CONFIG that breaks no
frame group takes the settings and the ageing time carried and drops a link they change; VLAN_CONFIG removes the VLAN of its
target, or sets it, with at most 64 VLANs; FDB_STATIC replaces or removes the entry of its address and VLAN, with at most 256;
GATE_LIST_SET on a port of no frame group gives the list waiting and when it begins, or removes the lists; CBS_CONFIG sets the
idle slope of the shaper of its class, or of the first free shaper of the port, and zeroes its credit; PORT_STATUS_READ changes
nothing. (14_backbone_and_time.md) -/
def Obligations.SwitchSettingsComplete : Prop :=
  (∀ rq s, Ready opNetAddrConfig rq s → has rq 0x0100 = true →
    exec (.netAddrConfig rq) s = answered opNetAddrConfig rq s
      (s.onNet fun n => { n with
        ip := BitVec.ofNat 32 (num rq 0x0100 0 4), prefixLen := num rq 0x0100 4 1, gateway := BitVec.ofNat 32 (num rq 0x0100 8 4),
        udpPort := num rq 0x0100 12 2, mgmtVid := num rq 0x0100 14 2 }) []) ∧
  (∀ rq s p n, Ready opPortConfig rq s → (portFrameGroups (tgt 4 rq).val s = [] ∨ breaksGroup rq = false) →
    p = s.net.port[ext (tgt 4 rq)] → n = p.configured rq s.now →
    ∃ u v, exec (.portConfig rq) s = answered opPortConfig rq s v [] ∧
      u = onNetPort (ext (tgt 4 rq)) (NetPort.configured rq s.now) s ∧
      v.net.age = (if has rq 0x0104 then num rq 0x0104 0 4 else s.net.age) ∧
      v.net.port = (if p.link ∧ (n.advertise ≠ p.advertise ∨ n.forced ≠ p.forced ∨ n.mdi ≠ p.mdi ∨ n.state = 2)
        then (dropLink (tgt 4 rq) u).net.port else u.net.port)) ∧
  (∀ rq s, Ready opVlanConfig rq s → has rq 0x0100 = false →
    exec (.vlanConfig rq) s = answered opVlanConfig rq s
      (s.onNet fun n => { n with vlans := s.net.vlans.filter (·.vid != rq.target.toNat) }) []) ∧
  (∀ rq s, Ready opVlanConfig rq s → has rq 0x0100 = true → (s.net.vlans.filter (·.vid != rq.target.toNat)).length < 64 →
    ∃ u v, exec (.vlanConfig rq) s = answered opVlanConfig rq s u [] ∧ v.vid = rq.target.toNat ∧
      v.members = BitVec.ofNat 5 (num rq 0x0100 0 1) ∧ v.untagged = BitVec.ofNat 5 (num rq 0x0100 1 1) ∧
      u = s.onNet fun n => { n with vlans := s.net.vlans.filter (·.vid != rq.target.toNat) ++ [v] }) ∧
  (∀ rq s, Ready opFdbStatic rq s → num rq 0x0100 8 1 = 0 →
    ∃ u, exec (.fdbStatic rq) s = answered opFdbStatic rq s u [] ∧ u.net.fdbDyn = s.net.fdbDyn ∧
      u.net.fdbStatic = s.net.fdbStatic.filter fun x =>
        !(x.mac == BitVec.ofNat 48 (num rq 0x0100 0 6) && x.vid == num rq 0x0100 6 2)) ∧
  (∀ rq s e, Ready opFdbStatic rq s → num rq 0x0100 8 1 ≠ 0 →
    e = ({ mac := BitVec.ofNat 48 (num rq 0x0100 0 6), vid := num rq 0x0100 6 2, ports := BitVec.ofNat 5 (num rq 0x0100 8 1) } : Fdb) →
    (s.net.fdbStatic.filter fun x => !(x.mac == e.mac && x.vid == e.vid)).length < 256 →
    exec (.fdbStatic rq) s = answered opFdbStatic rq s (s.onNet fun n => { n with
      fdbStatic := (s.net.fdbStatic.filter fun x => !(x.mac == e.mac && x.vid == e.vid)) ++ [e],
      fdbDyn := n.fdbDyn.filter fun x => !(x.mac == e.mac && x.vid == e.vid) }) []) ∧
  (∀ rq s, Ready opGateListSet rq s → portFrameGroups (tgt 4 rq).val s = [] →
    (gateListOf rq s.net.gates[tgt 4 rq]).entries = [] →
    exec (.gateListSet rq) s = answered opGateListSet rq s (s.onNet fun n => { n with gates := upd n.gates (tgt 4 rq) fun _ => {} }) []) ∧
  (∀ rq s l, Ready opGateListSet rq s → portFrameGroups (tgt 4 rq).val s = [] →
    l = gateListOf rq s.net.gates[tgt 4 rq] → l.entries ≠ [] →
    exec (.gateListSet rq) s = answered opGateListSet rq s
      (s.onNet fun n => { n with gates := upd n.gates (tgt 4 rq) fun g => { g with
        next := some (l, l.begins (s.tbNs (Fin.ofNat 4 l.base))) } }) []) ∧
  (∀ rq s k, Ready opCbsConfig rq s → shaper (tgt 4 rq) (num rq 0x0100 0 1) s = some k →
    exec (.cbsConfig rq) s = answered opCbsConfig rq s
      (s.onNet fun n => { n with cbs := upd n.cbs k fun x => { x.zero with
        cls := if num rq 0x0100 4 4 = 0 then none else some (num rq 0x0100 0 1), idleSlope := num rq 0x0100 4 4 } }) []) ∧
  (∀ rq s (k : Fin 8), Ready opCbsConfig rq s → shaper (tgt 4 rq) (num rq 0x0100 0 1) s = none → k.val = 2 * (tgt 4 rq).val →
    s.net.cbs[k].cls = none → num rq 0x0100 4 4 ≠ 0 →
    exec (.cbsConfig rq) s = answered opCbsConfig rq s
      (s.onNet fun n => { n with cbs := upd n.cbs k fun x => { x.zero with
        cls := some (num rq 0x0100 0 1), idleSlope := num rq 0x0100 4 4 } }) []) ∧
  (∀ rq s, Ready opCbsConfig rq s → shaper (tgt 4 rq) (num rq 0x0100 0 1) s = none → num rq 0x0100 4 4 = 0 →
    exec (.cbsConfig rq) s = answered opCbsConfig rq s s []) ∧
  (∀ rq s, Ready opPortStatusRead rq s → ∃ r, exec (.portStatusRead rq) s = answered opPortStatusRead rq s s r ∧
    (0x0100, be 4 (portStatus (tgt 4 rq) s).toNat) ∈ r ∧ (0x0101, be 4 s.net.port[ext (tgt 4 rq)].linkDelay) ∈ r)

/-- A ready PTP_CONFIG sets domain, ports, interval and grandmaster capability of its instance where it carries them;
TIMEBASE_CONFIG in Commissioning, or with the offset of FOLLOW alone, configures its base under the rules of a change of bases;
TIMEBASE_SET of a base in mode 0 takes RATE and steps the base to the time given; DOMAIN_TRUST 0 ends the distrust of the
primary master of its base, 1 of the secondary; TSO_CONFIG with ARM 0 disarms its output, with ARM 1 and a first edge at least
10,000 ns ahead arms one that was not armed, and gives an armed one its next schedule. PTP_STATUS, TIMEBASE_STATUS and
TSO_STATUS_READ answer and change nothing. (14_backbone_and_time.md) -/
def Obligations.TimeCommandsComplete : Prop :=
  (∀ rq s, Ready opPtpConfig rq s → 
    ∃ f, exec (.ptpConfig rq) s = answered opPtpConfig rq s
        (reassessAll (s.onNet fun n => { n with ptp := upd n.ptp (tgt 2 rq) f })) [] ∧
      ∀ x : PtpInst, (f x).domain = numD rq 0x0100 0 1 x.domain ∧
        (f x).ports = (if has rq 0x0101 then BitVec.ofNat 4 (num rq 0x0101 0 1) else x.ports) ∧
        (f x).logSync = (if has rq 0x0102 then int rq 0x0102 0 1 else x.logSync) ∧
        (f x).gmCapable = (if has rq 0x0103 then num rq 0x0103 0 1 == 1 else x.gmCapable)) ∧
  (∀ rq s, Ready opPtpStatus rq s → ∃ r, exec (.ptpStatus rq) s = answered opPtpStatus rq s s r ∧
    (0x0100, be 8 s.net.ptp[tgt 2 rq].gmId.toNat) ∈ r) ∧
  (∀ rq s, Ready opTimebaseConfig rq s → (s.sys.dev = .commissioning ∨
      has rq 0x0100 = false ∧ has rq 0x0101 = false ∧ has rq 0x0103 = false ∧ has rq 0x0104 = false ∧
      (has rq 0x0102 = true → num rq 0x0102 0 1 = s.net.tb[tgt 4 rq].follows)) →
    exec (.timebaseConfig rq) s = answered opTimebaseConfig rq s
      (changeBases (fun n => { n with tb := upd n.tb (tgt 4 rq) (TimeBase.configured rq) }) s) []) ∧
  (∀ rq s, Ready opTimebaseSet rq s → s.net.tb[tgt 4 rq].mode = 0 → has rq 0x0100 = true →
    exec (.timebaseSet rq) s = answered opTimebaseSet rq s
      (setBase (tgt 4 rq) ((num rq 0x0100 0 6 * 1000000000 + num rq 0x0100 6 4 : Nat) * 2 ^ 39 + num rq 0x0100 10 2 * 2 ^ 23)
        (if has rq 0x0101 then onTb (tgt 4 rq) (fun t => { t with rate := int rq 0x0101 0 4 }) s else s)) []) ∧
  (∀ rq s, Ready opTimebaseSet rq s → s.net.tb[tgt 4 rq].mode = 0 → has rq 0x0100 = false → has rq 0x0101 = true →
    exec (.timebaseSet rq) s = answered opTimebaseSet rq s (onTb (tgt 4 rq) (fun t => { t with rate := int rq 0x0101 0 4 }) s) []) ∧
  (∀ rq s, Ready opTimebaseStatus rq s → ∃ r, exec (.timebaseStatus rq) s = answered opTimebaseStatus rq s s r ∧
    (0x0100, be 4 (tbStatus (tgt 4 rq) s).toNat) ∈ r ∧ (0x0101, tbBytes (tgt 4 rq) s) ∈ r ∧ (0x0103, beI 4 s.net.tb[tgt 4 rq].rate) ∈ r) ∧
  (∀ rq s, Ready opDomainTrust rq s → ∃ u, exec (.domainTrust rq) s = answered opDomainTrust rq s u [] ∧
    u.net.tb[tgt 4 rq].distP = (num rq 0x0100 0 1 != 0 && s.net.tb[tgt 4 rq].distP) ∧
    u.net.tb[tgt 4 rq].distS = (num rq 0x0100 0 1 == 0 && s.net.tb[tgt 4 rq].distS) ∧
    ∀ k, k ≠ tgt 4 rq → u.net.tb[k] = s.net.tb[k]) ∧
  (∀ rq s, Ready opTsoConfig rq s → num rq 0x0100 0 1 = 0 → (has rq 0x0100 = true ∨ s.net.tso[tgt 8 rq].armed = false) →
    ∃ v, exec (.tsoConfig rq) s = answered opTsoConfig rq s (onTso (tgt 8 rq) (fun _ => { v with armed := false, next := none }) s) [] ∧
      v = if has rq 0x0101 then s.net.tso[tgt 8 rq].load (scheduleOf rq) else s.net.tso[tgt 8 rq]) ∧
  (∀ rq s, Ready opTsoConfig rq s → s.net.tso[tgt 8 rq].armed = true → (has rq 0x0100 = true → num rq 0x0100 0 1 = 1) →
    (has rq 0x0101 = true → s.tbNs (Fin.ofNat 4 (s.net.tso[tgt 8 rq].load (scheduleOf rq)).base) + 10000 ≤
      (s.net.tso[tgt 8 rq].load (scheduleOf rq)).t1) →
    exec (.tsoConfig rq) s = answered opTsoConfig rq s
      (if has rq 0x0101 then onTso (tgt 8 rq) (fun t => { t with next := some (scheduleOf rq) }) s else s) []) ∧
  (∀ rq s v, Ready opTsoConfig rq s → num rq 0x0100 0 1 = 1 → has rq 0x0100 = true →
    s.net.tso[tgt 8 rq].armed = false →
    v = (if has rq 0x0101 then s.net.tso[tgt 8 rq].load (scheduleOf rq) else s.net.tso[tgt 8 rq]) →
    s.tbNs (Fin.ofNat 4 v.base) + 10000 ≤ v.t1 →
    exec (.tsoConfig rq) s = answered opTsoConfig rq s (onTso (tgt 8 rq) (fun _ => { v with armed := true, j := 0 }) s) []) ∧
  (∀ rq s, Ready opTsoStatusRead rq s →
    exec (.tsoStatusRead rq) s = answered opTsoStatusRead rq s s
      [(0x0100, be 4 (tsoStatus (tgt 8 rq) s).toNat),
       (0x0101, be 8 s.net.tso[tgt 8 rq].fired.toNat ++ be 8 s.net.tso[tgt 8 rq].skip.toNat)])

/-- A ready LODGE_READ answers the mirrors and changes nothing; LODGE_PARAM_STAGE of a set signed with the enrolled key and free of
faults stages it at the time of the Lodge and answers its CRC; LODGE_PARAM_CONFIRM of that CRC within 60 s of staging takes the
staged set for the switch-over, leaves Run, and is answered when the switch is done; LODGE_KEY_ENROL, with no key enrolled and
the Lodge present, enrols the hash of the key; LODGE_FAULT_CLEAR with the Lodge present clears what may be cleared and answers
what remains. (15_safety_lodge.md) -/
def Obligations.LodgeCommandsComplete : Prop :=
  (∀ rq s, Ready opLodgeRead rq s → ∃ r, exec (.lodgeRead rq) s = answered opLodgeRead rq s s r ∧
    (0x0100, s.lodge.mirror.flatMap fun w => be 4 w.toNat) ∈ r ∧ (0x0105, be 4 s.lodge.version) ∈ r) ∧
  (∀ rq s, Ready opLodgeParamStage rq s → lodgeBusy s = none → s.lodge.keyHash = some (sha256 (value rq 0x0101)) →
    ecdsaOk (value rq 0x0101) ((value rq 0x0100).take 0xC0) ((value rq 0x0100).drop 0xC0) = true → setFault (value rq 0x0100) = none →
    exec (.lodgeParamStage rq) s = answered opLodgeParamStage rq s
      (s.onLodge fun b => { b with staged := some (parseSet (value rq 0x0100)), stagedAt := b.time })
      [(0x0100, be 4 (setCrc (value rq 0x0100)).toNat)]) ∧
  (∀ rq s p, Ready opLodgeParamConfirm rq s → lodgeBusy s = none → s.lodge.staged = some p → s.lodge.st ≠ .safeFault →
    s.lodge.time < s.lodge.stagedAt + 60000000000 → num rq 0x0100 0 4 = (setCrc p.bytes).toNat →
    exec (.lodgeParamConfirm rq) s = begun opLodgeParamConfirm rq
      (leaveRun .switching (s.onLodge fun b => { b with staged := none, switching := some p })) 0x0902 []) ∧
  (∀ rq s, Ready opLodgeKeyEnrol rq s → s.lodge.st ≠ .absent → s.lodge.keyHash = none →
    exec (.lodgeKeyEnrol rq) s = answered opLodgeKeyEnrol rq s
      (s.onLodge fun b => { b with keyHash := some (sha256 (value rq 0x0100)) }) []) ∧
  (∀ rq s, Ready opLodgeFaultClear rq s → s.lodge.st ≠ .absent →
    exec (.lodgeFaultClear rq) s = answered opLodgeFaultClear rq s (clearLodgeFaults s)
      [(0x0100, be 4 (remainingFaults (clearLodgeFaults s).lodge))])

/-- With the die powered: a ready FIO_GROUP_CONFIG, FIO_INPUT_CONFIG or FIO_OUTPUT_CONFIG sets the configuration kept for its group,
input or output, and loads the die; FIO_OUTPUT_SET of dies in no enabled map commands the outputs of its mask. FIO_READ answers,
among others, the edge times of the group and changes nothing; FIO_CLEAR releases latched outputs of its groups.
(16_field_io.md) -/
def Obligations.FieldIoComplete : Prop :=
  (∀ rq s, Ready opFioGroupConfig rq s → s.fio.grp[tgt 4 rq].powered = true →
    exec (.fioGroupConfig rq) s = answered opFioGroupConfig rq s (loadFio (tgt 4 rq) (s.onFio fun f => { f with
      cfgAuto := upd f.cfgAuto (tgt 4 rq) fun _ => num rq 0x0100 0 1 == 1,
      cfgRestore := upd f.cfgRestore (tgt 4 rq) fun _ => num rq 0x0100 2 2 })) []) ∧
  (∀ rq s, Ready opFioInputConfig rq s → s.fio.grp[(inputPlace (tgt 32 rq)).1].powered = true →
    exec (.fioInputConfig rq) s = answered opFioInputConfig rq s (loadFio (inputPlace (tgt 32 rq)).1 (s.onFio fun f => { f with
      cfgIn := upd f.cfgIn (tgt 32 rq) fun x => { x with
        type3 := num rq 0x0100 0 1 == 3, filter := num rq 0x0100 1 1, openWire := hasBit (num rq 0x0100 2 1) 0,
        wakeRise := hasBit (num rq 0x0100 2 1) 1, wakeFall := hasBit (num rq 0x0100 2 1) 2 } })) []) ∧
  (∀ rq s, Ready opFioOutputConfig rq s → s.fio.grp[(outputPlace (tgt 16 rq)).1].powered = true →
    exec (.fioOutputConfig rq) s = answered opFioOutputConfig rq s (loadFio (outputPlace (tgt 16 rq)).1 (s.onFio fun f => { f with
      cfgOut := upd f.cfgOut (tgt 16 rq) fun o => { o with
        failHold := num rq 0x0100 0 1 == 1, retry := num rq 0x0100 1 1 == 1, openCheck := num rq 0x0100 2 1 == 1 } })) []) ∧
  (∀ rq s gs, Ready opFioOutputSet rq s → gs = ((fioGroups rq).filter fun g => rq.target != 0xFFFF || fioPart rq 0 g != 0) →
    (∀ g, g ∈ gs → s.fio.grp[g].powered = true ∧ fioMapped g s = false) →
    exec (.fioOutputSet rq) s = answered opFioOutputSet rq s
      (gs.foldl (fun s g => onFioGroup g (FioGroup.command (fioPart rq 0 g) (fioPart rq 2 g)) s) s) []) ∧
  (∀ rq s, Ready opFioRead rq s → ∃ r, exec (.fioRead rq) s = answered opFioRead rq s s r ∧
    (0x0101, (List.finRange 8).flatMap fun (j : Fin 8) => be 8 s.fio.grp[tgt 4 rq].input[j].edgeAt) ∈ r) ∧
  (∀ rq s, Ready opFioClear rq s → ∃ u r, exec (.fioClear rq) s = answered opFioClear rq s u r ∧
    u = (fioGroups rq).foldl (fun s g => onFioGroup g FioGroup.release s) s)

/-- A ready CAN_CONFIG with no frame being sent puts its configuration in force at once, and with one is answered at its end;
CAN_FILTER_SET sets the filter count and the entries from FIRST on; CAN_TT_CONFIG of a controller in mode 0 sets its matrix, or
removes it with source 3, and forgets what the old one had reached; CAN_TT_BUFFER_SET gives one buffer its frame; CAN_TX in mode
1 with fewer than 32 frames queued puts the frame last and counts it submitted; CAN_RX_READ answers and removes up to COUNT
frames, the oldest first; CAN_BITRATE_DETECT begins with its first candidate in mode 3; CAN_BUS_RECOVER of a controller not
bus-off changes nothing, and of one bus-off recovers it when 128 recessive sequences have been seen, else notes the wish;
CAN_STATUS_READ changes nothing. (17_can_fd.md) -/
def Obligations.CanCommandsComplete : Prop :=
  (∀ rq s, Ready opCanConfig rq s → s.can.ctl[tgt 4 rq].sending = none →
    ∃ g : CanCfg, exec (.canConfig rq) s = answered opCanConfig rq s (putConfig (tgt 4 rq) g s) [] ∧ g.mode = num rq 0x0100 0 1 ∧
      g.nominal = nominalOf (value rq 0x0101) ∧ g.fd = hasBit (num rq 0x0103 0 1) 0 ∧ g.autoRecover = hasBit (num rq 0x0103 0 1) 1 ∧
      g.retry = num rq 0x0103 1 1) ∧
  (∀ rq s x, Ready opCanConfig rq s → s.can.ctl[tgt 4 rq].sending = some x →
    ∃ g : CanCfg, exec (.canConfig rq) s =
      begun opCanConfig rq (onCtl (tgt 4 rq) (fun x => { x with cfgNext := some g }) s) (tgt 4 rq).val [] ∧ g.mode = num rq 0x0100 0 1) ∧
  (∀ rq s, Ready opCanFilterSet rq s → ∃ u, exec (.canFilterSet rq) s = answered opCanFilterSet rq s u [] ∧
    u.can.ctl[tgt 4 rq].filterCount = num rq 0x0100 0 2 ∧
    u.can.ctl[tgt 4 rq].filters = (List.range ((value rq 0x0102).length / 12)).foldl (fun l i =>
      putKey (num rq 0x0101 0 2 + i) (filterOf (slice (12 * i) 12 (value rq 0x0102))) l) s.can.ctl[tgt 4 rq].filters ∧
    ∀ k, k ≠ tgt 4 rq → u.can.ctl[k] = s.can.ctl[k]) ∧
  (∀ rq s, Ready opCanTtConfig rq s → s.can.ctl[tgt 4 rq].cfg.mode = 0 →
    exec (.canTtConfig rq) s = answered opCanTtConfig rq s (onCtl (tgt 4 rq) (fun x => { x with
      tt := if (matrixOf rq).source = 3 then { source := 3 } else matrixOf rq, ttSync := false, lastRef := none, ttFrozen := none, ttCycle := 0, ttWindow := 0, cycleStart := 0 }) s) []) ∧
  (∀ rq s, Ready opCanTtBufferSet rq s →
    exec (.canTtBufferSet rq) s = answered opCanTtBufferSet rq s
      (onCtl (tgt 4 rq) (fun x => { x with ttBuf := putKey (num rq 0x0100 0 1) (frameOf (value rq 0x0101)) x.ttBuf })
        (freezeBuffer (tgt 4 rq) s)) []) ∧
  (∀ rq s, Ready opCanTx rq s → s.can.ctl[tgt 4 rq].cfg.mode = 1 → s.can.ctl[tgt 4 rq].queue.length < 32 →
    exec (.canTx rq) s = answered opCanTx rq s
      (trySend (tgt 4 rq) (onCtl (tgt 4 rq) (fun x => { x with
        queue := x.queue ++ [{ frame := frameOf (value rq 0x0100) }], submitted := bump x.submitted 1 }) s))
      [(0x0100, be 1 (s.can.ctl[tgt 4 rq].queue.length + 1))]) ∧
  (∀ rq s k l, Ready opCanRxRead rq s → k = Fin.ofNat 2 (num rq 0x0100 0 1) →
    l = s.can.ctl[tgt 4 rq].fifo[k].frames.take (num rq 0x0101 0 1) →
    ∃ u, exec (.canRxRead rq) s = answered opCanRxRead rq s u [(0x0100, l.flatMap CanRx.bytes)] ∧
      u.can.ctl[tgt 4 rq].fifo[k].frames = s.can.ctl[tgt 4 rq].fifo[k].frames.drop l.length ∧
      u.can.ctl[tgt 4 rq].fifo[k].readOut = bump s.can.ctl[tgt 4 rq].fifo[k].readOut l.length ∧
      ∀ c, c ≠ tgt 4 rq → u.can.ctl[c] = s.can.ctl[c]) ∧
  (∀ rq s, Ready opCanStatusRead rq s → ∃ r, exec (.canStatusRead rq) s = answered opCanStatusRead rq s s r ∧
    (0x0102, s.can.ctl[tgt 4 rq].coll.flatMap Collision.bytes) ∈ r) ∧
  (∀ rq s, Ready opCanBitrateDetect rq s → ∃ l, exec (.canBitrateDetect rq) s = answered opCanBitrateDetect rq s
      (onCtl (tgt 4 rq) (fun x => CanCtl.tryCandidate 0 s.now { x with
        cands := l, dwell := num rq 0x0101 0 2, rounds := num rq 0x0102 0 1, roundsDone := 0, locked := false, sending := none,
        cfg := { x.cfg with mode := 3 } }) s) [] ∧
    l = (every rq 0x0100).map fun t => (nominalOf (t.value.take 8), some (dataOf (t.value.drop 8)))) ∧
  (∀ rq s, Ready opCanBusRecover rq s → s.can.ctl[tgt 4 rq].bus ≠ 2 →
    exec (.canBusRecover rq) s = answered opCanBusRecover rq s s []) ∧
  (∀ rq s, Ready opCanBusRecover rq s → s.can.ctl[tgt 4 rq].bus = 2 → s.can.ctl[tgt 4 rq].recessive < 128 →
    exec (.canBusRecover rq) s = answered opCanBusRecover rq s (onCtl (tgt 4 rq) (fun x => { x with recover := true }) s) []) ∧
  (∀ rq s, Ready opCanBusRecover rq s → s.can.ctl[tgt 4 rq].bus = 2 → 128 ≤ s.can.ctl[tgt 4 rq].recessive →
    exec (.canBusRecover rq) s =
      answered opCanBusRecover rq s (trySend (tgt 4 rq) (onCtl (tgt 4 rq) CanCtl.recovered s)) [])

/-- A ready SPM_PROFILE_SET of an idle select other than 0 sets or removes its profile; SPM_DISCOVER of a device present with SFDP
data answers what it finds, and changes no select; SPM_ERASE of a select with a profile, idle and outside the Keeper region,
drops the lines of the span and begins the erase; SPM_FLUSH of an idle select is answered at once with 0, and of a busy one when
the page is written; SPM_STATUS_READ and SPH_STATUS_READ answer status and tallies and change nothing. (18_serial_ports.md) -/
def Obligations.MemoryPortComplete : Prop :=
  (∀ rq s, Ready opSpmProfileSet rq s → tgt 4 rq ≠ 0 → spmBusy (tgt 4 rq) s = false →
    exec (.spmProfileSet rq) s = answered opSpmProfileSet rq s (onSpm (tgt 4 rq) (fun x => { x with
      profile := if has rq 0x0100 then some (profileOf (value rq 0x0100)) else none }) s) []) ∧
  (∀ rq s, Ready opSpmDiscover rq s → s.serial.sel[tgt 4 rq].present = true → s.serial.sel[tgt 4 rq].sfdp ≠ [] →
    ∃ u, exec (.spmDiscover rq) s = answered opSpmDiscover rq s u
        [(0x0100, discovered (tgt 4 rq) s), (0x0101, s.serial.sel[tgt 4 rq].sfdp.take 1024)] ∧ u.serial = s.serial) ∧
  (∀ rq s r, Ready opSpmErase rq s → s.serial.sel[tgt 4 rq].profile = some r → keeperRegion (tgt 4 rq) (eraseSpan rq r).1 = false →
    spmBusy (tgt 4 rq) s = false →
    exec (.spmErase rq) s = begun opSpmErase rq
      (onSpm (tgt 4 rq) (fun x => { x with opBusy := true, opErase := true, opStart := s.now, opPoll := s.now, opRange := eraseSpan rq r })
        (dropLines (tgt 4 rq) (eraseSpan rq r).1 (eraseSpan rq r).2 s)) (tgt 4 rq).val []) ∧
  (∀ rq s, Ready opSpmFlush rq s → spmBusy (tgt 4 rq) s = false →
    exec (.spmFlush rq) s = answered opSpmFlush rq s (onSpm (tgt 4 rq) (fun x => { x with verifyHit := false }) s) [(0x0100, be 1 0)]) ∧
  (∀ rq s, Ready opSpmFlush rq s → spmBusy (tgt 4 rq) s = true →
    exec (.spmFlush rq) s = begun opSpmFlush rq
      (flushPage (tgt 4 rq) (onSpm (tgt 4 rq) (fun x => { x with verifyHit := false }) s)) (tgt 4 rq).val []) ∧
  (∀ rq s, Ready opSpmStatusRead rq s →
    exec (.spmStatusRead rq) s = answered opSpmStatusRead rq s s [(0x0100, be 4 (spmStatus (tgt 4 rq) s).toNat),
      (0x0101, be 8 s.serial.sel[tgt 4 rq].pages.toNat ++ be 8 s.serial.sel[tgt 4 rq].sectors.toNat)]) ∧
  (∀ rq s, Ready opSphStatusRead rq s →
    exec (.sphStatusRead rq) s = answered opSphStatusRead rq s s [(0x0100, be 4 (sphStatus s).toNat),
      (0x0101, s.serial.cnt.toList.flatMap fun v => be 8 v.toNat)])

/-- With the Belvedere idle, a ready ACQ_CHANNEL_CONFIG, ACQ_PIN_CONFIG, ACQ_TRIGGER_CONFIG, ACQ_ENVELOPE_SET and ACQ_CAPTURE_CONFIG
set what they carry; with the same number of segments no capture is lost, with another every segment is freed and what it kept
counted overwritten; ACQ_ARM that no rule denies arms and answers the segment. ACQ_STOP ends an active capture, leaves an engine
that re-arms or holds off Done, and of an idle Belvedere changes nothing; ACQ_FORCE is an occurrence of the force trigger now;
ACQ_READ of a complete segment answers its header among others, and releases it with RELEASE 1; ACQ_STATUS_READ restarts the
dead times; ACQ_CALIBRATE answers the mismatch of the pins. (19_acquisition.md) -/
def Obligations.AcquisitionComplete : Prop :=
  (∀ rq s, Ready opAcqChannelConfig rq s → acqIdle s = true → (56 ≤ (tgt 64 rq).val → s.acq.pinEn.getLsbD ((tgt 64 rq).val - 56) = false) →
    exec (.acqChannelConfig rq) s = answered opAcqChannelConfig rq s
      (s.onAcq fun b => { b with chan := upd b.chan (tgt 64 rq) fun _ => if has rq 0x0100 then acqChannelOf rq else {} }) []) ∧
  (∀ rq s, Ready opAcqPinConfig rq s → acqIdle s = true → ∃ u, exec (.acqPinConfig rq) s = answered opAcqPinConfig rq s u [] ∧
    u.acq.pinEn = BitVec.ofNat 8 (num rq 0x0100 0 1) ∧ u.acq.pinDiv = num rq 0x0100 2 2 ∧
    ∀ c : Fin 64, c.val < 56 → u.acq.chan[c] = s.acq.chan[c]) ∧
  (∀ rq s, Ready opAcqTriggerConfig rq s → acqIdle s = true →
    exec (.acqTriggerConfig rq) s = answered opAcqTriggerConfig rq s
      (s.onAcq fun b => { b with trig := upd b.trig (tgt 8 rq) fun _ => { kind := num rq 0x0100 0 1, cond := value rq 0x0101 } }) []) ∧
  (∀ rq s, Ready opAcqEnvelopeSet rq s → acqIdle s = true → ∃ u, exec (.acqEnvelopeSet rq) s = answered opAcqEnvelopeSet rq s u [] ∧
    u.acq.env[tgt 4 rq].chan = num rq 0x0100 0 1 ∧ u.acq.env[tgt 4 rq].enabled = hasBit (num rq 0x0100 1 1) 0 ∧
    u.acq.env[tgt 4 rq].points = newPoints rq s ∧ ∀ k, k ≠ tgt 4 rq → u.acq.env[k] = s.acq.env[k]) ∧
  (∀ rq s, Ready opAcqCaptureConfig rq s → acqIdle s = true → num rq 0x0100 0 1 = s.acq.segments →
    exec (.acqCaptureConfig rq) s = answered opAcqCaptureConfig rq s (s.onAcq fun b => { b with
      repeatMode := num rq 0x0100 1 1 == 1, overwrite := hasBit (num rq 0x0100 2 1) 0, prefill := hasBit (num rq 0x0100 2 1) 1,
      armAtStart := hasBit (num rq 0x0100 2 1) 2, mask := BitVec.ofNat 16 (num rq 0x0100 3 2), holdKind := num rq 0x0100 5 1,
      pre := num rq 0x0100 8 4, post32 := num rq 0x0100 12 4, holdoff := num rq 0x0100 16 8 }) []) ∧
  (∀ rq s, Ready opAcqCaptureConfig rq s → acqIdle s = true → num rq 0x0100 0 1 ≠ s.acq.segments → ∃ u,
    exec (.acqCaptureConfig rq) s = answered opAcqCaptureConfig rq s u [] ∧ u.acq.segments = num rq 0x0100 0 1 ∧
    (∀ g : Fin 64, u.acq.seg[g] = {}) ∧
    u.acq.overwritten = bump s.acq.overwritten (s.acq.seg.toList.map (·.kept)).sum) ∧
  (∀ rq s, Ready opAcqArm rq s → armDeny s = none →
    exec (.acqArm rq) s = answered opAcqArm rq s (armNow s) [(0x0100, be 1 (armNow s).acq.segment)]) ∧
  (∀ rq s, Ready opAcqStop rq s → s.acq.active = true →
    exec (.acqStop rq) s = answered opAcqStop rq s (endCapture 2 s) []) ∧
  (∀ rq s, Ready opAcqStop rq s → s.acq.active = false → acqIdle s = true →
    exec (.acqStop rq) s = answered opAcqStop rq s s []) ∧
  (∀ rq s, Ready opAcqStop rq s → s.acq.active = false → acqIdle s = false →
    exec (.acqStop rq) s = answered opAcqStop rq s (s.onAcq fun b => { b with st := 6, rearmAt := none }) []) ∧
  (∀ rq s, Ready opAcqForce rq s →
    exec (.acqForce rq) s = answered opAcqForce rq s (occurNow 0x100 0 s) []) ∧
  (∀ rq s, Ready opAcqRead rq s → s.acq.seg[tgt 64 rq].use = 2 → ∃ u r, exec (.acqRead rq) s = answered opAcqRead rq s u r ∧
    (0x0100, s.acq.seg[tgt 64 rq].header) ∈ r ∧ (num rq 0x0102 0 1 ≠ 1 → u = s) ∧
    (num rq 0x0102 0 1 = 1 → u.acq.seg[tgt 64 rq] = { seq := s.acq.seg[tgt 64 rq].seq } ∧
      u.acq.released = bump s.acq.released s.acq.seg[tgt 64 rq].kept)) ∧
  (∀ rq s, Ready opAcqStatusRead rq s →
    exec (.acqStatusRead rq) s = answered opAcqStatusRead rq s (s.onAcq fun b => { b with deadMin := 0xFFFFFFFF, deadMax := 0 })
      [(0x0100, (acqWords s.acq).flatMap fun w => be 4 w.toNat)]) ∧
  (∀ rq s, Ready opAcqCalibrate rq s → (acqIdle s = true ∨ s.acq.pinEn = 0) →
    exec (.acqCalibrate rq) s = answered opAcqCalibrate rq s (calibrate s).2 [(0x0100, be 2 (calibrate s).1)])

/-- A ready TALLY_READ answers, with the tick, the tallies of one family and instance and leaves those of memory as they are;
FAULT_READ answers a page of the ring or the log and changes nothing; FAULT_ACK marks every ring entry up to its number
acknowledged and answers how many are not; EVENT_READ answers up to COUNT events, the oldest first, removes them and clears the
count of lost ones. (21_tallies_integrity_faults.md) -/
def Obligations.RecordsComplete : Prop :=
  (∀ rq s, Ready opTallyRead rq s → ∃ u r, exec (.tallyRead rq) s = answered opTallyRead rq s u [(0x0100, r)] ∧
    r.take 8 = be 8 s.sys.tick.toNat ∧ u.integ = s.integ ∧
    r.drop 12 = ((tallyValues (num rq 0x0100 0 1) (num rq 0x0101 0 2) s).getD []).flatMap fun t => be 8 t.toNat) ∧
  (∀ rq s, Ready opFaultRead rq s → ∃ r, exec (.faultRead rq) s = answered opFaultRead rq s s r ∧
    (0x0100, (faultPage rq (if num rq 0x0101 0 1 = 1 then s.integ.log else s.integ.ring)).flatMap FaultEntry.bytes) ∈ r) ∧
  (∀ rq s, Ready opFaultAck rq s → ∃ u, exec (.faultAck rq) s = answered opFaultAck rq s u [(0x0100, be 1 (unacked u).length)] ∧
    (∀ e ∈ u.integ.ring, e.seq ≤ num rq 0x0100 0 4 → e.acked = true) ∧ u.integ.ring.length = s.integ.ring.length ∧
    u.integ.log = s.integ.log ∧ u.integ.events = s.integ.events) ∧
  (∀ rq s, Ready opEventRead rq s →
    exec (.eventRead rq) s = answered opEventRead rq s
      (s.onInteg fun g => { g with events := g.events.drop (num rq 0x0100 0 1), evtLost := 0 })
      [(0x0100, (s.integ.events.take (num rq 0x0100 0 1)).flatMap Event.bytes), (0x0101, be 2 s.integ.evtLost.toNat)])

/-- A ready PLUGIN_LOAD whose image passes loads its lane; THREAD_DEFINE of a thread not enabled defines or releases it;
THREAD_ENABLE 1 of a defined thread of a loaded lane, Disabled or Faulted, starts it waiting, 0 stops it or, while it runs, is
answered when the run ends; THREAD_SIGNAL delivers its tokens; THREAD_TIMER_CONFIG sets a timer; PLUGIN_PORT_CONFIG in
Commissioning, or for a Disabled slot, sets the stall limit of a set-point port; THREAD_STATUS_READ of a plug-in thread answers
and restarts the largest latency, and of one of T0 to T255 changes no thread; LANE_STATUS_READ changes nothing; LANE_KEY_ENROL
with no key enrolled enrols the key by its hash. (20_dispatcher_and_lanes.md) -/
def Obligations.ThreadCommandsComplete : Prop :=
  (∀ rq s t, Ready opPluginLoad rq s → loadPlug rq (tgt 8 rq) (num rq 0x0100 0 1) s = .ok t →
    exec (.pluginLoad rq) s = answered opPluginLoad rq s t []) ∧
  (∀ rq s, Ready opThreadDefine rq s → s.lanes.thr[tgt 512 rq].enabled = false →
    exec (.threadDefine rq) s = answered opThreadDefine rq s
      (onThr (tgt 512 rq) (fun x => if has rq 0x0100 then x.define rq else x.released) s) []) ∧
  (∀ rq s, Ready opThreadEnable rq s → s.lanes.thr[tgt 512 rq].defined = true → num rq 0x0100 0 1 = 1 →
    s.lanes.lane[Fin.ofNat 8 s.lanes.thr[tgt 512 rq].lane].entry.isSome = true →
    exec (.threadEnable rq) s = answered opThreadEnable rq s
      (if s.lanes.thr[tgt 512 rq].st = .disabled ∨ s.lanes.thr[tgt 512 rq].st = .faulted then startWaiting (tgt 512 rq) s else s) []) ∧
  (∀ rq s, Ready opThreadEnable rq s → s.lanes.thr[tgt 512 rq].defined = true → num rq 0x0100 0 1 = 0 →
    (s.lanes.thr[tgt 512 rq].st = .running ∨ s.lanes.thr[tgt 512 rq].st = .preempted) →
    exec (.threadEnable rq) s =
      begun opThreadEnable rq (onThr (tgt 512 rq) (fun x => { x with disableAtEnd := true }) s) (tgt 512 rq).val []) ∧
  (∀ rq s, Ready opThreadEnable rq s → s.lanes.thr[tgt 512 rq].defined = true → num rq 0x0100 0 1 = 0 →
    s.lanes.thr[tgt 512 rq].st ≠ .running → s.lanes.thr[tgt 512 rq].st ≠ .preempted →
    exec (.threadEnable rq) s = answered opThreadEnable rq s (stopThread (tgt 512 rq) .disabled s) []) ∧
  (∀ rq s, Ready opThreadSignal rq s →
    exec (.threadSignal rq) s = answered opThreadSignal rq s
      (deliver (tgt 512 rq) (num rq 0x0100 0 2 * s.lanes.thr[tgt 512 rq].lists 10 0 0) s) []) ∧
  (∀ rq s, Ready opThreadTimerConfig rq s →
    exec (.threadTimerConfig rq) s = answered opThreadTimerConfig rq s (s.onLanes fun n => { n with
      tmr := upd n.tmr (tgt 16 rq) fun x => timerSet (num rq 0x0100 0 1) (num rq 0x0100 4 8) (num rq 0x0100 12 8) s x }) []) ∧
  (∀ rq s, Ready opPluginPortConfig rq s → (s.sys.dev = .commissioning ∨ s.axis[tgt 64 rq].st = .disabled) →
    exec (.pluginPortConfig rq) s = answered opPluginPortConfig rq s
      (s.onLanes fun n => { n with spt := upd n.spt (tgt 64 rq) fun p => { p with stallLimit := num rq 0x0100 0 1 } }) []) ∧
  (∀ rq s, Ready opThreadStatusRead rq s → 256 ≤ (tgt 512 rq).val → ∃ r, exec (.threadStatusRead rq) s = answered opThreadStatusRead rq s
      (onThr (tgt 512 rq) (fun x => { x with latMax := 0 }) s) r ∧
    (0x0101, be 8 s.lanes.thr[tgt 512 rq].tokIn.toNat ++ be 8 s.lanes.thr[tgt 512 rq].tokUsed.toNat ++
      be 8 s.lanes.thr[tgt 512 rq].tokDropped.toNat) ∈ r) ∧
  (∀ rq s, Ready opThreadStatusRead rq s → (tgt 512 rq).val < 256 → ∃ u r,
    exec (.threadStatusRead rq) s = answered opThreadStatusRead rq s u r ∧ u.lanes = s.lanes) ∧
  (∀ rq s, Ready opLaneStatusRead rq s →
    exec (.laneStatusRead rq) s = answered opLaneStatusRead rq s s
      [(0x0100, be 4 (laneStatus (tgt 8 rq) s).toNat ++ be 4 (lanePc (tgt 8 rq) s).toNat)]) ∧
  (∀ rq s, Ready opLaneKeyEnrol rq s → s.boot.integratorHash = none →
    exec (.laneKeyEnrol rq) s = answered opLaneKeyEnrol rq s
      (s.onBoot fun b => { b with
        integratorHash := some (sha256 (value rq 0x0100)), integratorPub := some (value rq 0x0100) }) [])

/-- Awake, served and with the reference present: a whole datagram with a good checksum to this device alone is taken at once as a
packet that arrived now; a broadcast one too, its reply left to its delay. INBOX_TAKE takes the oldest packet of the inbox when
the outbox has room. BROADCAST_REPLY, at the instant of the waiting reply that is due first, sends it and takes it off the list.
AUTH_LOCKOUT_END, the second of its source over, ends the lock-out and forgets its failures. PENDING_COMMIT from 20 microseconds
before its time-of-effect, out of Rest and with none before it, commits a pending command whose step-13 checks still pass, and
strikes one whose checks fail with a deferred refusal. DEFERRED_EFFECT at or after the time-of-effect, its target free, strikes
the committed command and concludes it with its effect, a GEAR_CLEAR_PENDING clearing the changes appended before its commit.
(04_command_packets.md) -/
def Obligations.PacketEventsComplete : Prop :=
  (∀ src b s, src ≠ .hostPort → ruhityServed s = true → asleep s = false → s.power.refLost = false → s.sys.dev ≠ .reset →
    (s.sys.dev = .startup → s.boot.haltCause = 3) →
    exec (.ruhityDatagram src false false true b) s = .next (takePacket src false s.wall b s) ∧
    exec (.ruhityDatagram src true false true b) s = .next (delayed (takePacket src true s.wall b) s)) ∧
  (∀ s t p l, s.pkts.inbox = (t, p) :: l → ruhityServed s = true → asleep s = false → s.pkts.outbox.length < 16 → s.serial.held = [] →
    exec .inboxTake s = .next (takePacket .hostPort false t p (s.onPkts fun k => { k with inbox := l }))) ∧
  (∀ s e, tbRuns s = true → firstBroadcast s.pkts.bcast = some e → e.due ≤ s.now →
    exec .broadcastReply s = .next (s.onPkts fun k => { k with udpOut := k.udpOut ++ [e], bcast := k.bcast.erase e })) ∧
  (∀ src t s, (src, t) ∈ s.pkts.lockouts → t + 500000000 ≤ s.now → ∃ u, exec (.authLockoutEnd src) s = .next u ∧
    (∀ e ∈ u.pkts.lockouts, e.1 ≠ src) ∧ (∀ e ∈ u.pkts.authFails, e.1 ≠ src) ∧
    (∀ e, e.1 ≠ src → (e ∈ u.pkts.lockouts ↔ e ∈ s.pkts.lockouts)) ∧ (∀ e, e.1 ≠ src → (e ∈ u.pkts.authFails ↔ e ∈ s.pkts.authFails)) ∧
    u.pkts.keys = s.pkts.keys) ∧
  (∀ handle s p o, pendingOf handle s = some p → p.committed = false → p.rq.toe.toNat ≤ s.tb0 + 20000 → earlierDue p s = false →
    s.power.power ≠ .rest → opOfCode p.opcode = some o →
    (∀ v r, o.outcome p.rq s = .done v r → exec (.pendingCommit handle) s = .next (s.onPkts fun k => { k with
      pending := s.pkts.pending.map fun q => if q.handle = handle then
        { q with committed := true, mark := (s.gear.link[tgt 64 p.rq]).appended } else q })) ∧
    (∀ v n r, o.outcome p.rq s = .wait v n r → exec (.pendingCommit handle) s = .next (s.onPkts fun k => { k with
      pending := s.pkts.pending.map fun q => if q.handle = handle then
        { q with committed := true, mark := (s.gear.link[tgt 64 p.rq]).appended } else q })) ∧
    (∀ d, o.outcome p.rq s = .deny d →
      exec (.pendingCommit handle) s = .next (sendReply p.opcode p.rq d.status d.tlvs true (strike handle true s)))) ∧
  (∀ handle s p o v, pendingOf handle s = some p → p.committed = true → p.rq.toe.toNat ≤ s.tb0 → s.power.power ≠ .rest →
    targetBusy p.opcode p.rq s = false → opOfCode p.opcode = some o →
    v = (if p.opcode = 0x0282 then onLink (tgt 64 p.rq) (fun l => { l with clearTo := some p.mark }) (strike handle false s)
      else strike handle false s) →
    exec (.deferredEffect handle) s = .next (conclude o p.rq true (o.outcome p.rq v) v))

/-- Out of Reset, awake and with the reference present: a whole WRITE frame with proper ADDR and LEN is written word by word at its
release when no word of it is denied, and its result is recorded; a READ frame fetches its words, clears at release what they
clear, and leaves them on the port; a packet of 24 to 1,472 bytes enters an inbox with room at its arrival; PACKET_OUT carries
the oldest reply and removes it when it was carried whole; STATUS carries the status as it stood; a bad command is recorded as
such; a word not ready in 100 microseconds is carried as 0 and recorded as TIMEOUT. (18_serial_ports.md) -/
def Obligations.HostPortFramesComplete : Prop :=
  (∀ addr ws s, s.sys.dev ≠ .reset → s.power.refLost = false → asleep s = false → addr % 4 = 0 → 1 ≤ ws.length → ws.length ≤ 256 →
    (∀ k, k < ws.length → wordDenied (addr + 4 * k) s = false) →
    exec (.sphWriteFrame addr ws .whole) s = .next (complete 0 (writeWords addr ws s))) ∧
  (∀ addr len s r, s.sys.dev ≠ .reset → s.power.refLost = false → asleep s = false → addr % 4 = 0 → 1 ≤ len → len ≤ 256 →
    r = fetchWords addr len s →
    exec (.sphReadFrame addr len .whole) s =
      .next (complete 0 ((r.1.2.foldl (fun s e => clearOnRead hostCtx e.1 e.2 s) r.2).onSerial fun b => { b with sphOut := r.1.1 }))) ∧
  (∀ b s, s.sys.dev ≠ .reset → s.power.refLost = false → asleep s = false → 24 ≤ b.length → b.length ≤ 1472 →
    s.pkts.inbox.length < 8 →
    ∃ u, exec (.sphPacketIn b .whole) s = .next u ∧ u.pkts.inbox = s.pkts.inbox ++ [(s.tb0, b)] ∧ u.pkts.outbox = s.pkts.outbox ∧
      u.serial.last = 0) ∧
  (∀ p l s, s.sys.dev ≠ .reset → s.power.refLost = false → asleep s = false → s.pkts.outbox = p :: l → p.length % 2 = 0 →
    p.length ≤ 1472 → s.pkts.waiting = [] →
    ∃ u, exec (.sphPacketOut (p.length + 2) .whole) s = .next u ∧ u.pkts.outbox = l ∧ u.serial.sphPacket = be 2 p.length ++ p) ∧
  (∀ s, s.sys.dev ≠ .reset → s.power.refLost = false → asleep s = false →
    exec (.sphStatusFrame .whole) s = .next (complete 0 (s.onSerial fun b => { b with sphOut := [sphStatus s] }))) ∧
  (∀ s, s.sys.dev ≠ .reset → s.power.refLost = false → asleep s = false → exec .sphBadCmdFrame s = .next (frameResult 3 0 s)) ∧
  (∀ addr s, s.sys.dev ≠ .reset → s.power.refLost = false →
    exec (.sphWordTimeout addr) s =
      .next (accessError hostCtx .timeout false addr (s.onSerial fun b => { b with sphOut := b.sphOut ++ [0] })))

/-- Out of Reset, of a context that lives, when the checks of the access pass: every register, window and wide-register read
delivers the word it read, after the clear-on-read fields are cleared, unless it must wait for its domain; every write is
carried out at the address its command names: IND_DATA, IND_ADDR, IND_CTRL, UPD_STROBE, the SEAL, CMPB and duty registers of the
bridge timers, any register, and the window. A group trip clear writes CLEAR. An output write of Field I/O, the context's pair
free, writes IND_ADDR with the address of its group's command register and then IND_DATA with the command.
(05_register_access.md, 11_bridge_timer_array.md, 16_field_io.md, 18_serial_ports.md) -/
def Obligations.DirectAccessesComplete : Prop :=
  (∀ ctx a w t s, contextDead ctx s = false → check ctx false false a 4 s = .pass → readDirect ctx a s = (some w, t) →
    let u := handWord ctx w (clearOnRead ctx (registerOf a) w t)
    exec (.wideLowRead ctx a) s = .next u ∧ exec (.wideHighRead ctx a) s = .next u ∧ exec (.rcRegisterRead ctx a 4) s = .next u ∧
    exec (.xipRead ctx a) s = .next u ∧ (a = 0x40000104 → exec (.indDataRead ctx) s = .next u)) ∧
  (∀ ctx a v s, contextDead ctx s = false → check ctx false true a 4 s = .pass →
    let u := writeDirect ctx a v s
    exec (.wideLowWrite ctx a v) s = .next u ∧ exec (.wideHighWrite ctx a v) s = .next u ∧ exec (.registerWrite ctx a 4 v) s = .next u ∧
    exec (.xipWrite ctx a v) s = .next u ∧ (a = 0x40000104 → exec (.indDataWrite ctx v) s = .next u) ∧
    (a = 0x40000100 → exec (.indAddrWrite ctx v) s = .next u) ∧ (a = 0x40000108 → exec (.indCtrlWrite ctx v) s = .next u) ∧
    (a = 0x40000200 → exec (.updStrobeWrite ctx v) s = .next u)) ∧
  (∀ ctx (g : Fin 32) v s, contextDead ctx s = false → check ctx false true (0x44000008 + g.val * 0x40) 4 s = .pass →
    exec (.grpSealWrite ctx g v) s = .next (writeDirect ctx (0x44000008 + g.val * 0x40) v s)) ∧
  (∀ ctx (g : Fin 32) v s, contextDead ctx s = false → check ctx false true (0x44001004 + (3 * g.val + 2) * 0x10) 4 s = .pass →
    exec (.legCmpbSealWrite ctx g v) s = .next (writeDirect ctx (0x44001004 + (3 * g.val + 2) * 0x10) v s)) ∧
  (∀ ctx (n : Fin 96) v s, contextDead ctx s = false → check ctx false true (0x44001008 + n.val * 0x10) 4 s = .pass →
    exec (.legDutyWrite ctx n v) s = .next (writeDirect ctx (0x44001008 + n.val * 0x10) v s)) ∧
  (∀ ctx (g : Fin 32) s, contextDead ctx s = false → check ctx false true (0x44000010 + g.val * 0x40) 4 s = .pass →
    exec (.grpTripClear ctx g) s = .next (writeDirect ctx (0x44000010 + g.val * 0x40) 0x1000 s)) ∧
  (∀ ctx (g : Fin 4) (c : BitVec 4) s, contextDead ctx s = false → s.sys.ctx[ctx].busy = false →
    exec (.fioDoWrite ctx g c) s =
      .next (indNow ctx (some (BitVec.ofNat 32 (0x4B000008 + g.val * 0x100)), some (c.setWidth 32)) s))

/-- An indirect access of 100 microseconds is abandoned and the accesses that waited for its pair go on; a window read that has
waited 100 microseconds is given up and what waited behind it goes on. While TB runs: the page buffer is programmed 100
microseconds after its last write; a poll that is due ends the operation of a device that shows idle and is noted of one that
shows busy; an operation beyond its time-out fails. An update group that is pending takes over what has no boundary left. The
audit, when its second has come, raises the fault of every tally family and instance whose identity fails. A voted field is
stored and voted; a scrubbed block of protected memory, not the first, is read. IMAGE_SESSION_TIMEOUT 10 s after the last data
closes the image session and changes nothing else. (03_boot_trust_identity.md, 05_register_access.md, 18_serial_ports.md,
21_tallies_integrity_faults.md) -/
def Obligations.AccessEventsComplete : Prop :=
  (∀ ctx s, s.sys.ctx[ctx].busy = true → s.sys.ctx[ctx].busyAt + 50000 ≤ s.now →
    exec (.indAccessTimeout ctx) s = .next (indResume ctx (resumeOne ctx (indTimeout ctx s)))) ∧
  (∀ ctx s e, s.sys.ctx[ctx].windowWait.find? WindowWait.read = some e → e.since + 50000 ≤ s.now →
    exec (.xipReadTimeout ctx) s = .next (indResume ctx (windowTimeout ctx s))) ∧
  (∀ sel s, tbRuns s = true → s.serial.sel[sel].lastWrite + 50000 ≤ s.now → exec (.spmBufferTimeout sel) s = .next (flushPage sel s)) ∧
  (∀ sel s, tbRuns s = true → pollDue sel s = true → exec (.spmStatusPoll sel false) s = .next (indResumeAll (deviceIdle sel s)) ∧
    exec (.spmStatusPoll sel true) s = .next (onSpm sel (fun x => { x with opPoll := s.now }) s)) ∧
  (∀ sel s, tbRuns s = true → pollOverdue sel s = true → exec (.spmOpTimeout sel) s = .next (indResumeAll (failOperation sel s))) ∧
  (∀ (g : Fin 16) s, s.sys.updPending.getLsbD g.val = true →
    exec (.updateTakeover g) s = .next (settleUpdate g.val (takeStranded g.val s))) ∧
  (∀ s bad, afterStartup s = true → tbRuns s = true → s.sys.keeperHalted = false → s.integ.auditAt ≤ s.now →
    bad = ((List.range 11).flatMap fun f => ((List.range (instances f)).filter fun n => auditFails f n s).map fun n => (f, n)) →
    exec .tallyAudit s = .next (bad.foldl (fun t e => deviceFault 0x0015 e.2 e.1 false t)
      (s.onInteg fun g => { g with auditAt := s.now + 500000000 }))) ∧
  (∀ addr width (rv c0 c1 c2 : Word) s v, tbRuns s = true →
    v = ({ addr := addr, width := width, resetVal := rv, c0 := c0, c1 := c1, c2 := c2 } : Voted) →
    exec (.voteScrub addr width rv c0 c1 c2) s = .next (voteField v (s.onSys fun y => { y with
      voted := v :: y.voted.filter fun u => u.addr != addr }))) ∧
  (∀ addr n s, tbRuns s = true → protectedAddr addr = true → 32 ≤ addr →
    exec (.memoryScrub addr n) s = .next (scrubBlock addr n s)) ∧
  (∀ s x, s.boot.session = some x → x.last + 5000000000 ≤ s.now →
    exec .imageSessionTimeout s = .next (s.onBoot fun b => { b with session := none }))

/-- RESET_ENTRY at the instant of a due reset, KEEPER_WATCHDOG out of Reset, VLOG_LOW and RESET_PIN enter Reset, their fault
recorded: the device state is Reset, RSTOUT low, no packet and no pending command is left, and keys, configuration store, Lodge,
field dies and the commands that wait are as they were. RESET_RELEASE in Reset begins Startup in phase 0 at tick 0. KEEPER_START
with the reference locked and nothing found by the ROM's tests, its image verified, copies it and goes to Keeper's duties in
phase 2; without flash it halts with cause 1; with no image, with cause 2. GARDENER_START in phase 2 with an image that verifies
starts Gardener in phase 4; after a restart it starts the copy that is there and takes the datagrams held. GARDENER_READY makes
the device state Commissioning. GARDENER_WATCHDOG faults the axes and asks for the restart of Gardener. AUTOSTART, due in
Commissioning, is no longer due, and makes the device Operational when Table 3.7 admits it. LODGE_IMAGE_INSTALLED of an image
that fails its check refuses the activation, of another whose set is accepted takes its version and answers it.
(03_boot_trust_identity.md, 02_package_supplies.md) -/
def Obligations.ResetAndStartupComplete : Prop :=
  (∀ s t, s.sys.resetDue = some t → t ≤ s.now → exec .resetEntry s =
    .next (enterReset (if s.sys.resetCause = some 4 then recordFault 0x0004 0 0xFFFF 0 false s else s))) ∧
  (∀ s, s.sys.dev ≠ .reset → exec .keeperWatchdog s = .next (enterReset (recordFault 0x0003 0 0xFFFF 0 false s))) ∧
  (∀ s, exec .vlogLow s = .next (enterReset ((recordFault 0x0001 0 0xFFFF 0 false s).onPower fun p => { p with
    vlogGood := false, sagged := true }))) ∧
  (∀ s, exec .resetPin s = .next (enterReset ((recordFault 0x0002 0 0xFFFF 0 false s).onPower fun p => { p with resetnLow := true }))) ∧
  (∀ s u, u = enterReset s → u.sys.dev = .reset ∧ u.sys.rstoutLow = true ∧ u.pkts.inbox = [] ∧ u.pkts.outbox = [] ∧ u.pkts.pending = [] ∧
    u.pkts.keys = s.pkts.keys ∧ u.store = s.store ∧ u.lodge = s.lodge ∧ u.fio = s.fio ∧ u.pending = s.pending) ∧
  (∀ s, s.sys.dev = .reset → ∃ u, exec .resetRelease s = .next u ∧ u.sys.dev = .startup ∧ u.sys.phase = 0 ∧ u.sys.tick = 0 ∧
    u.sys.rstoutLow = false ∧ u.power.vlogGood = true ∧ u.power.resetnLow = false ∧ u.pkts = s.pkts ∧ u.store = s.store) ∧
  (∀ s v n trial, s.sys.dev = .startup → s.sys.phase = 0 → s.power.pllLocked = true → romTests s = none → v = keeperVerify s →
    v.boot.chosen = some (n, trial) →
    exec .keeperStart s = .next (keeperDuties ((copyPayload 1 (imagePlace 1 n) (v.onBoot fun b => { b with
      keeperSlot := n, keeperTrial := trial, haltCause := 0, perms := builtPermissions })).onSys fun y => { y with phase := 2 }))) ∧
  (∀ s v, s.sys.dev = .startup → s.sys.phase = 0 → s.power.pllLocked = true → romTests s = none → v = keeperVerify s →
    v.boot.chosen = none → exec .keeperStart s = .next (haltStartup 2 v)) ∧
  (∀ s, s.sys.dev = .startup → s.sys.phase = 0 → s.power.pllLocked = true → (∀ b ∈ s.integ.poison, 0x20000 ≤ b) →
    s.serial.sel[(0 : Fin 4)].present = false → exec .keeperStart s = .next (haltStartup 1 s)) ∧
  (∀ s v n trial, s.boot.gardenerRestart = false → s.sys.dev = .startup → s.sys.phase = 2 → v = chooseNow 2 s →
    v.boot.chosen = some (n, trial) → ∃ u, exec .gardenerStart s = .next u ∧ u.boot.gardenerRuns = true ∧ u.sys.phase = 4 ∧
      u.boot.gardenerSlot = n ∧ u.boot.gardenerTrial = trial ∧
      u.integ.sram = (copyPayload 2 (imagePlace 2 n) v).integ.sram) ∧
  (∀ s, s.boot.gardenerRestart = true → s.boot.gardenerReload = false →
    exec .gardenerStart s = .next (takeHeldUdp (recoverAfter (gardenerRuns (clearPoison 0x400000 0x800000 s))))) ∧
  (∀ s, s.sys.dev = .startup → s.boot.gardenerRuns = true → ∃ u, exec .gardenerReady s = .next u ∧ u.sys.dev = .commissioning ∧
    u.pkts = s.pkts) ∧
  (∀ s, s.boot.gardenerRuns = true → exec .gardenerWatchdog s =
    .next (((recordFault 0x0011 1 0xFFFF 0 false (axisFaults (liveSlots s) 4 0 s)).onBoot fun b => { b with
      gardenerRuns := false, gardenerRestart := true, recoverDue := true }).onSys fun y => { y with phase := 2 })) ∧
  (∀ s v, s.sys.autostartDue = true → s.sys.dev = .commissioning → v = (s.onSys fun y => { y with autostartDue := false }) →
    exec .autostart s = .next (if transitionDeny .operational v = none then setDevice .operational v else v)) ∧
  (∀ s c v, s.boot.activating = true → v = (s.onBoot fun b => { b with activating := false }) →
    c = imageCheckBy { s.boot with keyHash := s.lodge.zellajo, keyRevoked := Vector.replicate 4 false, integratorHash := none } 3
      (imagePlace 3 0) s →
    (c ≠ 0 → ∀ f, exec (.lodgeImageInstalled f) s =
      .next (finishDeny (fun e => e.opcode == 0x0033 && e.key == 3) (deny .badParam [(0x0004, be 1 c)]) v)) ∧
    (c = 0 → exec (.lodgeImageInstalled true) s = .next (finish (fun e => e.opcode == 0x0033 && e.key == 3) .done []
      (v.onLodge fun b => { b with version := imageVersion (imagePlace 3 0).1 (bootFlash s) }))))

/-- REFERENCE_LOSS, the reference being present, clamps every leg, moves AON to its RC and records fault 0005H; PLL_LOCK ends all
three. VSAF_LOSS with the Lodge present leaves it Absent with nothing staged, VSAF_RETURN leaves it in Start with its set and
key. TEMP_SAMPLE keeps the hottest reading. BAND_FALL after a low second lowers the band by one. VOLTAGE_RAMP_END, the core
voltage at its target, makes the target the operating point and a waiting band the band. POWER_STATE_EVAL awake and after
Startup re-evaluates both. WAKE_EVENT, and WAKE_TIMER_EXPIRY at its AON time, in Nap or Rest start the wake; WAKE_COMPLETE ends
it in Run or Trim by the target. KEEPER_HEARTBEAT of a running Keeper with a new word keeps it and its time.
(01_timing_model.md, 02_package_supplies.md, 15_safety_lodge.md) -/
def Obligations.PowerEventsComplete : Prop :=
  (∀ s, s.power.refLost = false → ∃ u, exec .referenceLoss s = .next u ∧ u.power.refLost = true ∧ u.power.pllLocked = false ∧
    u.power.aonRc = true ∧ u.sys.legClamp = true ∧ u.integ.ring ≠ []) ∧
  (∀ s, ∃ u, exec .pllLock s = .next u ∧ u.power.refLost = false ∧ u.power.pllLocked = true ∧ u.power.aonRc = false ∧
    u.sys.legClamp = false) ∧
  (∀ s, s.lodge.st ≠ .absent → ∃ u, exec .vsafLoss s = .next u ∧ u.lodge.st = .absent ∧ u.power.vsaf = false ∧ u.lodge.staged = none) ∧
  (∀ s, s.lodge.st = .absent → ∃ u, exec .vsafReturn s = .next u ∧ u.lodge.st = .start ∧ u.power.vsaf = true ∧
    u.lodge.params = s.lodge.params ∧ u.lodge.keyHash = s.lodge.keyHash) ∧
  (∀ h s, ∃ u, exec (.tempSample h) s = .next u ∧ u.power.hottest = h) ∧
  (∀ t s, s.power.bandFallSince = some t → t + 500000000 ≤ s.now → 0 < s.power.band → ∃ u, exec .bandFall s = .next u ∧
    u.power.band = s.power.band - 1 ∧ u.power.bandFallSince = none) ∧
  (∀ s, s.power.ramp = true → coreVolt s = opVolt s.power.opTarget → ∃ u, exec .voltageRampEnd s = .next u ∧
    u.power.opNow = s.power.opTarget ∧ u.power.ramp = false ∧
    u.power.band = s.power.bandNext.getD s.power.band ∧ u.power.bandNext = none) ∧
  (∀ s, afterStartup s = true → s.power.waking = false → exec .powerStateEval s = .next (reselect s)) ∧
  (∀ s, (s.power.power = .nap ∨ s.power.power = .rest) → exec .wakeEvent s = .next (s.onPower fun p => { p with waking := true })) ∧
  (∀ s t, (s.power.power = .nap ∨ s.power.power = .rest) → s.power.wakeTimer = some t → t ≤ s.power.aonUs →
    exec .wakeTimerExpiry s = .next (s.onPower fun p => { p with waking := true, wakeTimer := none })) ∧
  (∀ s, s.power.waking = true → ∃ v, exec .wakeComplete s = .next (takeHeldUdp (commitHeld v.serial.held v)) ∧
    v.power.power = (if s.power.opTarget = 0 then .run else .trim) ∧ v.power.wakeFrom = s.power.power.code ∧ v.power.waking = false) ∧
  (∀ w s, s.sys.dev ≠ .reset → s.sys.keeperHalted = false → s.lodge.st ≠ .absent → w ≠ s.lodge.heartbeat →
    ∃ u, exec (.keeperHeartbeat w) s = .next u ∧ u.lodge.heartbeat = w ∧ u.lodge.hbAt = s.lodge.time ∧
      u.lodge.st = s.lodge.st)

/-- While the loops run: LOOP_SAMPLE at a sample instant of a loop stamps it, delivers its tokens, takes its lock, the ports and its
load, and, the loop admitted, does the inner or outer work of the sample, then runs the loop or leaves it idle.
LOOP_RESULT_READY in time keeps the result ready with its margin. LOOP_RELEASE of a local loop at its release tick delivers its
tokens and releases the result. AIN_CONVERSION of a channel nothing follows keeps the code and counts clipped codes in a row.
PLANNER_BOUNDARY at the boundary of an Enabled axis in no running group, or of a running group, moves it one period on.
STANDSTILL_ENTRY after the idle time puts the slot into standstill by its policy. ALIGNMENT_COMPLETE after 250 ms of a slot that
moved keeps the offset; REACTION_COMPLETE of a Reacting slot leaves it Faulted; OBSERVER_START_TIMEOUT of an observer never yet
valid, its time over, faults the slot. (06_axis_slots_and_modes.md, 07_motion_planner.md, 09_loop_engine.md) -/
def Obligations.LoopAndPlannerEventsComplete : Prop :=
  (∀ i k s m c v, domainsRun s = true → s.axis[i].mode = some m → samplesNow i k m s = true →
    c = commitLoad i k (portsSample i k m (takeLock i k (onLoopSt i k (fun y => { y with sampledAt := some (sampleTick i s) })
      (if (slotLoops s.axis[i].bind m s).contains k then occurs 3 i.val k.val s else s)))) →
    (live s.axis[i] = true → c.1.loop.slot[i].lp[k].slackFault = false) →
    v = (let x := if k = 0 then innerSample i c.1 else c.1;
      let y := if k = outerLoop m.depth then sourceChain 8 i x else x;
      if k = 2 ∧ loopActive i k y = true then followingError i y else y) →
    exec (.loopSample i k) s = .next (if loopActive i k v = true ∧
      ((slotLoops s.axis[i].bind m s).contains k = true ∨ m.drive = 2 ∧ m.depth = 0) then saturation i (runSample i k c.2 v)
      else loopIdle i k v)) ∧
  (∀ i k s r, s.loop.slot[i].lp[k].computing = some r → s.loop.slot[i].lp[k].computingLate = false → s.now ≤ releaseTick i k s →
    exec (.loopResultReady i k) s = .next (onLoopSt i k (fun y => { y with
      computing := none, ready := some r,
      margin := BitVec.ofNat 16 (min y.margin.toNat (min (releaseTick i k s - s.now) 0xFFFF)) }) s)) ∧
  (∀ i k s r, domainsRun s = true → ¬(k = 0 ∧ s.axis[i].bind.location = 2) → releaseTick i k s ≤ s.now →
    s.loop.slot[i].lp[k].ready = some r → ∃ v, exec (.loopRelease i k) s = .next (if k = 0 then releaseLegs i r v else v) ∧
      v.loop.slot[i].lp[k].released = r ∧ v.loop.slot[i].lp[k].ready = none ∧ v.lanes = (occurs 2 i.val k.val s).lanes) ∧
  (∀ c code s, domainsRun s = true → (∀ i : Fin 64, follows i c s = false) →
    exec (.ainConversion c code) s = .next (
      let n := if code.toInt = -32768 ∨ code.toInt = 32767 then s.loop.ain[c].clips + 1 else 0
      let u := s.onLoop fun e => { e with ain := upd e.ain c fun _ => { code := code.toInt, clips := n } }
      if n = 4 then event 0x0305 c.val [] u else u)) ∧
  (∀ i s, domainsRun s = true → s.axis[i].st = .enabled → (sourceOf i s = 0 ∨ planBusy i s = true) → boundaryDue i s = true →
    (∀ g, memberOf i s = some g → s.plan.grp[g].running = false) →
    exec (.plannerBoundary (.axis i)) s = .next (disableWaiting i (targetCheck i (axisBoundary i (sampleTick i s) s)))) ∧
  (∀ g s, domainsRun s = true → s.plan.grp[g].running = true → groupDue g s = true →
    exec (.plannerBoundary (.group g)) s = .next (groupBoundary g (groupTick g s) (groupPhases g s))) ∧
  (∀ i s m, s.axis[i].mode = some m → s.axis[i].st = .enabled → s.axis[i].standstill = false → m.standstill = 0 →
    s.axis[i].spChange + 500000 * m.idleMs ≤ s.now → ∃ u, exec (.standstillEntry i) s = .next u ∧ u.axis[i].standstill = true ∧
      u.axis[i].legsOff = false ∧ u.axis[i].legsShort = false ∧ ∀ k, k ≠ i → u.axis[k] = s.axis[k]) ∧
  (∀ i s m v, s.axis[i].mode = some m → s.axis[i].st = .enabled → s.axis[i].standstill = false → 1 ≤ m.standstill →
    s.axis[i].spChange + 500000 * m.idleMs ≤ s.now →
    v = onAx i (fun a => { a with standstill := true, legsOff := m.standstill == 1, legsShort := m.standstill == 2 }) s →
    exec (.standstillEntry i) s = .next (if m.standstill = 1 then loopsStop i (outputFor i 0 v)
      else if m.standstill = 2 then loopsStop i (outputFor i 1 v)
      else v.onStepper fun e => { e with slot := upd e.slot i fun x => { x with phase := 1, phaseStart := s.now, changeDue := false } })) ∧
  (∀ i s, s.axis[i].aligning = true → s.axis[i].alignSince + 125000000 ≤ s.now → s.axis[i].alignMoved = true →
    exec (.alignmentComplete i) s = .next (onAx i (fun a => { a with aligning := false, offset := some (measuredPos i s), forceAlign := false }) s)) ∧
  (∀ i s, s.axis[i].st = .reacting → s.axis[i].stopShort = false → s.axis[i].reaction = some 1 →
    exec (.reactionComplete i) s = .next (onAx i (fun a => { a with st := .faulted }) s)) ∧
  (∀ i s, s.axis[i].st = .reacting → s.axis[i].stopShort = false → s.axis[i].reaction ≠ some 1 →
    (s.axis[i].reaction = some 2 → rampOver i s = true) →
    exec (.reactionComplete i) s = .next (planEnd i (loopsStop i (outputFor i 0
      (onAx i (fun a => { a with st := .faulted, legsOff := true, legsShort := false, slowSince := none }) s))))) ∧
  (∀ i s, s.axis[i].st = .enabled → s.loop.slot[i].obsStart = true → s.loop.slot[i].obsServed = false →
    s.loop.slot[i].obsValid = false → s.loop.slot[i].frameStart + 1000000 * s.loop.slot[i].startMs ≤ s.now →
    exec (.observerStartTimeout i) s = .next (axisFault i 6 0 s))

/-- While TB and the domains run, at its instant: PERIOD_BOUNDARY of a running group, its counter at 0 or its first boundary come,
acts once; COMMAND_SIGNAL_EDGE at the tick of an edge not yet issued issues it; TRIP_INPUT_ACCEPTED keeps the level as active or
not, a source become active tripping the groups whose mask names it 3 ticks later; OVERCURRENT_DETECT sets one comparator and
trips its groups, OVERCURRENT_INACTIVE clears it; BLANK_WINDOW_END evaluates the groups of its timer; DELAY_LINE_CALIBRATION a
millisecond after the last keeps a good count for the leg, at once when its group does not run, and the time of a bad one;
CAL_FALLBACK after 10 ms of bad ones falls back with its event. BANK_LEVEL_SETTLED ends the change of its bank at the level
asked for; HOLD_RAMP_END, FREEWHEEL_START, FREEWHEEL_LIMIT_EXCEEDED and WAKE_RAMP_END move the phase of their slot.
(11_bridge_timer_array.md, 12_stepper_drive.md) -/
def Obligations.BridgeAndStepperEventsComplete : Prop :=
  (∀ g s, domainsRun s = true → s.bta.grp[g].run = true →
    (s.bta.grp[g].startDue = none ∧ s.bta.grp[g].count = 0 ∧ s.bta.grp[g].boundaryAt ≠ some s.now ∨
      ∃ t, s.bta.grp[g].startDue = some t ∧ t ≤ s.now) →
    exec (.periodBoundary g) s = .next (boundary g s)) ∧
  (∀ n t s, domainsRun s = true → s.bta.grp[legGroup n].run = true → s.bta.grp[legGroup n].boundaryAt = some t →
    t + s.bta.grp[legGroup n].count = s.now → s.bta.leg[n].rose = false →
    s.bta.grp[legGroup n].count = edgeTick n s.bta.grp[legGroup n].ditherK s.bta.leg[n] s.bta.leg[n].cmpa.active →
    exec (.commandSignalEdge n true) s = .next (issueEdge n true s)) ∧
  (∀ n t s, domainsRun s = true → s.bta.grp[legGroup n].run = true → s.bta.grp[legGroup n].boundaryAt = some t →
    t + s.bta.grp[legGroup n].count = s.now → s.bta.leg[n].fell = false → s.bta.leg[n].rose = true →
    s.bta.grp[legGroup n].count = edgeTick n s.bta.grp[legGroup n].ditherK s.bta.leg[n] s.bta.leg[n].cmpb.active →
    exec (.commandSignalEdge n false) s = .next (issueEdge n false s)) ∧
  (∀ k b s v, tbRuns s = true →
    v = (s.onBta fun x => { x with trip := upd x.trip k fun t => { t with active := b == t.activeHigh } }) →
    exec (.tripInputAccepted k b) s = .next (if s.bta.trip[k].active = true ∨ b ≠ s.bta.trip[k].activeHigh then v
      else (List.finRange 32).foldl (fun s g => tripSoon g (openPins g s &&& BitVec.ofNat 16 (2 ^ k.val)) [] s) v)) ∧
  (∀ k s, domainsRun s = true →
    exec (.overcurrentDetect k) s = .next ((List.finRange 32).foldl (fun s g => actTrips g 0 (openOc g s) s) (setOc k true s)) ∧
    exec (.overcurrentInactive k) s = .next (setOc k false s)) ∧
  (∀ t s, domainsRun s = true → windowEnds s.bta.blank[t] s = true → exec (.blankWindowEnd t) s = .next
    (((List.finRange 32).filter fun (g : Fin 32) => s.bta.grp[g].blk == some t.val).foldl (fun s g => tripOpen g s) s)) ∧
  (∀ (k : Fin 12) (n : Fin 96) c s v, n.val = k.val → calibrationDue n s = true → 64 ≤ c → c ≤ 96 →
    v = onLeg n (fun l => { l with nCal := c, nCalNext := some c, calBad := none, calAt := some s.now }) s →
    exec (.delayLineCalibration k c) s = .next (if s.bta.grp[legGroup n].run = true then v else onLeg n takeCalibration v)) ∧
  (∀ (k : Fin 12) (n : Fin 96) c s, n.val = k.val → calibrationDue n s = true → (c < 64 ∨ 96 < c) →
    exec (.delayLineCalibration k c) s =
      .next (onLeg n (fun l => { l with calBad := some (l.calBad.getD s.now), calAt := some s.now }) s)) ∧
  (∀ (k : Fin 12) (n : Fin 96) t s, n.val = k.val → s.bta.leg[n].calBad = some t → t + 5000000 ≤ s.now → s.bta.leg[n].fallback = false →
    exec (.calFallback k) s = .next
      (event 0x0504 n.val [] (onLeg n (fun l => { l with fallback := true, fCalFail := true }) s))) ∧
  (∀ k h s, s.bta.bank[k].changing = some h → ∃ v, exec (.bankLevelSettled k) s =
      .next (finish (fun e => e.opcode == 0x0509 && e.key == k.val) .done [] ((bankGroups k).foldl (fun s g => refreshGroup g s) v)) ∧
    v = s.onBta fun b => { b with bank := upd b.bank k fun _ => { high := h } }) ∧
  (∀ i s, s.stepper.slot[i].phase = 1 → s.stepper.slot[i].phaseStart + 500000 * s.stepper.slot[i].holdRamp ≤ s.now →
    exec (.holdRampEnd i) s = .next (onStep i (fun y => { y with phase := 2 }) s)) ∧
  (∀ i s m, s.axis[i].mode = some m → (m.standstill = 4 ∨ m.standstill = 5) → s.axis[i].st = .enabled → s.axis[i].standstill = true →
    (s.stepper.slot[i].phase = 1 ∨ s.stepper.slot[i].phase = 2) →
    s.stepper.slot[i].phaseStart + 500000 * (s.stepper.slot[i].holdRamp + s.stepper.slot[i].freewheelDelay) ≤ s.now →
    exec (.freewheelStart i) s = .next (onStep i (fun y => { y with phase := if m.standstill = 4 then 3 else 4 })
      (loopsStop i (outputFor i (if m.standstill = 4 then 0 else 1)
        (onAx i (fun a => { a with legsOff := m.standstill == 4, legsShort := m.standstill != 4 }) s))))) ∧
  (∀ i s, s.stepper.slot[i].downSince.isSome = true → stepAngle i s = true → stepperSpent i s = true →
    exec (.freewheelLimitExceeded i) s = .next (onStep i (fun y => { y with holdValid := false }) s)) ∧
  (∀ i s, s.stepper.slot[i].phase = 5 → s.stepper.slot[i].phaseStart + wakeTicks i s ≤ s.now → wakeWaits i s = true →
    exec (.wakeRampEnd i) s = .next (onStep i (fun y => { y with phase := 0 }) (onAx i (fun a => { a with waitN := 0, spChange := s.now }) s)))

/-- While FB runs: PP_EDGE_ACCEPTED keeps the four levels of a port without a mode that counts edges, and counts one way or the
other the accepted edge of line A in quadrature. SSI_FRAME_START of an SSI port whose frame may start stamps it; SSI_FRAME_END
after the time of a frame takes the value of a good one. SINCOS_SAMPLE of the first pair in band, in sine-cosine mode, keeps
codes and phase. SPEED_EVALUATION 100 microseconds after the last one of a port no loop uses evaluates the speed;
SPEED_STANDSTILL_TIMEOUT after TIMEOUT without a count shows standstill. LINE_FAULT, HALL_ILLEGAL 2 microseconds into an illegal
code, FREEZE_DETECT with the observer moving, and ENCODER_SUPPLY_LIMIT for the four ports of its supply, bring in their cause of
loss; LOSS_CLEAR with every cause absent for 10 ms ends the loss. (10_position_ports.md) -/
def Obligations.PositionPortEventsComplete : Prop :=
  (∀ p l s, domainsRun s = true → (s.ports.port[p].mode = 0 ∨ s.ports.port[p].mode = 5) → ∃ u, exec (.ppEdgeAccepted p l) s = .next u ∧
    u.ports.port[p].lineA = l.getLsbD 0 ∧ u.ports.port[p].lineB = l.getLsbD 1 ∧ u.ports.port[p].lineZ = l.getLsbD 2 ∧
    u.ports.port[p].lineC = l.getLsbD 3 ∧ u.ports.port[p].counts = s.ports.port[p].counts ∧
    ∀ q, q ≠ p → u.ports.port[q] = s.ports.port[q]) ∧
  (∀ p (l : BitVec 4) s x, domainsRun s = true → x = s.ports.port[p] → x.mode = 1 → l.getLsbD 0 ≠ x.lineA → l.getLsbD 1 = x.lineB →
    exec (.ppEdgeAccepted p l) s = .next (indexCheck p x (fbStamp s) (countMoved p (x.signOf (l.getLsbD 0 != l.getLsbD 1)) (fbStamp s)
      (onPort p (fun _ => { x with lineA := l.getLsbD 0, lineB := l.getLsbD 1, lineZ := l.getLsbD 2, lineC := l.getLsbD 3 }) s)))) ∧
  (∀ p s, domainsRun s = true → s.ports.port[p].mode = 5 → ssiMayStart p s = true →
    exec (.ssiFrameStart p) s = .next (onPort p (fun x => { x with ssiStart := some s.nowNs, ssiPoll := s.nowNs }) s)) ∧
  (∀ p d t s, domainsRun s = true → s.ports.port[p].ssiStart = some t → s.ports.port[p].mode = 5 →
    t + ssiFrame s.ports.port[p].cfg.ssi ≤ s.nowNs →
    ssiGood s.ports.port[p].cfg.ssi (s.ports.port[p].cfg.opts.getLsbD 6) d.toNat = true →
    exec (.ssiFrameEnd p d false) s = .next (ssiGoodFrame p t (ssiValue s.ports.port[p].cfg.ssi s.ports.port[p].cfg.opts d.toNat)
      (onPort p (fun x => { x with ssiStart := none, ssiEnd := s.nowNs, ssiRaw := d }) s))) ∧
  (∀ (k : Fin 8) (p : Fin 32) a b s c r2, domainsRun s = true → p = Fin.ofNat 32 k.val → s.ports.port[p].mode = 6 →
    s.ports.port[p].phase = none → c = s.ports.port[p].cfg.sincos →
    r2 = sinCorrected a c.offS c.gainS ^ 2 + sinCorrected b c.offC c.gainC ^ 2 →
    ((c.ampMin : Int) * 134217728) ^ 2 ≤ r2 → r2 ≤ ((c.ampMax : Int) * 134217728) ^ 2 →
    exec (.sincosSample k a b) s = .next (lossGone p 5 (countMoved p 0 s.nowNs (onPort p (fun x => { x with
      sinRaw := a.toInt, cosRaw := b.toInt, sinBad := 0,
      phase := some (roundOpen (ofAngle (angleOf (sinCorrected a c.offS c.gainS) (sinCorrected b c.offC c.gainC)) * 4096) % 4096) }) s)))) ∧
  (∀ p s, domainsRun s = true → loopUses p s = false → s.ports.port[p].evalAt + 100000 ≤ s.nowNs →
    exec (.speedEvaluation p) s = .next (evalSpeed p s)) ∧
  (∀ p s, domainsRun s = true → 1 ≤ s.ports.port[p].mode → s.ports.port[p].mode ≤ 4 →
    (s.ports.port[p].stamps.head?.map (·.1)).getD 0 + 1000000 * s.ports.port[p].cfg.timeoutMs ≤ s.nowNs →
    exec (.speedStandstillTimeout p) s =
      .next (onPort p (fun x => { x with standstill := true, reversal := false, sinceStop := 0 }) s)) ∧
  (∀ p s, domainsRun s = true → exec (.lineFault p) s = .next (lossPresent p 1 s)) ∧
  (∀ p t s, domainsRun s = true → s.ports.port[p].illegalSince = some t → t + 2000 ≤ s.nowNs →
    exec (.hallIllegal p) s = .next (lossPresent p 4 s)) ∧
  (∀ p s, domainsRun s = true → s.ports.port[p].lastMove + 1000000 * s.ports.port[p].cfg.freezeMs ≤ s.nowNs → observerMoves p s = true →
    exec (.freezeDetect p) s = .next (lossPresent p 6 s)) ∧
  (∀ (k : Fin 8) s, exec (.encoderSupplyLimit k) s =
    .next (((List.finRange 32).filter fun (p : Fin 32) => p.val / 4 == k.val).foldl (fun s p => lossPresent p 7 s) s)) ∧
  (∀ p s v, domainsRun s = true → v = onPort p (fun x => { x with
      causesNow := x.causesNow &&& ((if observerMoves p s then 0xBE else 0x9E) &&& if x.unresUntil ≤ s.nowNs then 0x7F else 0xFF) }) s →
    s.ports.port[p].lossActive = true → lossOver p v = true → exec (.lossClear p) s = .next (clearLoss p v))

/-- While FB runs: COMPARE_PULSE_END at its instant ends the pulse; LATCH_EVENT notes the event in every latch and the snapshot
unit; LATCH_CAPTURE and SNAPSHOT_CAPTURE capture the oldest event whose data exists, when there is room. While TB runs:
DRAYMAN_INBOUND takes a frame, BRICK_RECORD_DEADLINE books a missing record, DRAYMAN_LAUNCH at the launch of a cycle not yet
sent notes it and advances the counter of its group; STO_FRAME, STO in force and its frame due, draws one free value and notes
its instant. CYCLIC_FRAME_RX holds a frame of the next cycle, CYCLIC_APPLY applies the one of this cycle, CYCLIC_SAMPLE and
CYCLIC_LAUNCH sample and send, CYCLIC_ENABLE_EFFECT at its instant enables or disables its map, holding nothing.
(10_position_ports.md, 13_remote_axes.md, 04_command_packets.md) -/
def Obligations.CaptureAndCycleEventsComplete : Prop :=
  (∀ u t s, domainsRun s = true → s.ports.cmp[u].pulseEnd = some t → t ≤ s.nowNs →
    exec (.comparePulseEnd u) s = .next (onCmp u (fun c => { c with output := false, pulseEnd := none }) s)) ∧
  (∀ pin rise s, domainsRun s = true → ∃ u, exec (.latchEvent pin rise) s = .next u ∧
    (∀ k : Fin 16, u.ports.latch[k] = s.ports.latch[k].note s pin rise) ∧
    u.ports.snap = s.ports.snap.note s pin rise ∧ u.ports.port = s.ports.port) ∧
  (∀ k s d rest ok pos, domainsRun s = true → s.ports.latch[k].due = d :: rest → s.ports.latch[k].caps.length < 16 →
    portCapture (Fin.ofNat 32 s.ports.latch[k].port) (d.t + s.ports.port[(Fin.ofNat 32 s.ports.latch[k].port : Fin 32)].cfg.delay) s =
      some (ok, pos) →
    ∃ u, exec (.latchCapture k) s = .next u ∧ u.ports.latch[k].due = rest ∧ u.ports.latch[k].seq = s.ports.latch[k].seq + 1 ∧
      u.ports.latch[k].caps = insertCapture
        { pos := pos, atTime := d.atTime, seq := s.ports.latch[k].seq.toNat, source := d.source, valid := ok, t := d.t }
        s.ports.latch[k].caps) ∧
  (∀ s d rest es, domainsRun s = true → s.ports.snap.due = d :: rest → (boundSlots s).mapM (fun i => snapEntry i d.t s) = some es →
    s.ports.snap.held.length < 4 → ∃ u, exec .snapshotCapture s = .next u ∧
      u.ports.snap.held = s.ports.snap.held ++ [(d.inst, es)] ∧ u.ports.snap.due = rest ∧ u.ports.port = s.ports.port) ∧
  (∀ p mac b s, tbRuns s = true → exec (.draymanInbound p mac b) s =
    .next (groupToken (Fin.ofNat 64 (b.getD 4 0).toNat) s (draymanInbound p mac b s))) ∧
  (∀ b ts s, tbRuns s = true → cycleTs (Fin.ofNat 16 s.bricks.brick[b].group) s = some ts → s.bricks.brick[b].registered = true →
    s.bricks.brick[b].usedTs ≠ some ts → s.bricks.brick[b].missTs ≠ some ts → ts + arriveIn b s ≤ s.tb0 →
    exec (.brickRecordDeadline b) s = .next (groupToken b s (recordMissed b ts s))) ∧
  (∀ g ts b l s, tbRuns s = true → cycleTs g s = some ts → hopOrder g s = b :: l → s.bricks.fg[g].configured = true →
    (ts : Int) + launchAt g.val (groupL g s) s ≤ s.tb0 → s.bricks.fg[g].launched ≠ some ts →
    ∃ u v, v = (frameSlots g s).foldl (fun s i => releaseLoop i 0 s) s ∧ exec (.draymanLaunch g) s = .next u ∧
      u.bricks.fg[g] = { v.bricks.fg[g] with ts := ts, launched := some ts, counter := v.bricks.fg[g].counter + 1 } ∧
      u.axis = v.axis ∧ u.loop = v.loop) ∧
  (∀ s, tbRuns s = true → stoInForce s = true → (∀ t, s.bricks.stoSent = some t → t + 100000 ≤ s.nowNs) →
    ∃ u, exec .stoFrame s = .next u ∧ u.sys.free = s.sys.free + 1 ∧ u.bricks.stoSent = some s.nowNs ∧ u.bricks.brick = s.bricks.brick) ∧
  (∀ port f s m, tbRuns s = true → (f.payload.getD 0 0xFF).toNat < 16 →
    m = s.net.map[(Fin.ofNat 32 (f.payload.getD 0 0xFF).toNat : Fin 32)].prune s.tb0 → m.matches port f = true →
    (f.payload.getD 1 0).toNat % 2 = 1 → m.size ≤ f.payload.length → m.held = [] →
    beNat (slice 4 8 f.payload) = m.start s.tb0 + m.period → 0 < m.period →
    exec (.cyclicFrameRx port f) s = .next (onMap (Fin.ofNat 32 (f.payload.getD 0 0xFF).toNat)
      (fun _ => { m with received := bump m.received 1, held := [(m.start s.tb0 + m.period, f.payload)] }) s)) ∧
  (∀ (k : Fin 16) (j : Fin 32) s m p, tbRuns s = true → j.val = k.val → m = s.net.map[j].prune s.tb0 → m.enabled = true →
    (∀ a, m.lastApplied = some a → a < m.start s.tb0) → m.start s.tb0 + m.off ≤ s.tb0 → m.held = [(m.start s.tb0, p)] →
    exec (.cyclicApply k) s = .next (occurs 4 k.val 0 (m.entries.foldl (fun s e => writeEntry p e s)
      (m.axes.foldl (fun s i => onAx i (fun a => { a with cyclicMiss := false }) s)
        (onMap j (fun _ => { m with
          held := [], applied := bump m.applied 1, missRun := 0, lastApplied := some (m.start s.tb0) }) s))))) ∧
  (∀ k s m, tbRuns s = true → m = s.net.map[outMap k] → m.enabled = true → (∀ a, m.lastApplied = some a → a < m.start s.tb0) →
    (∀ e, m.sample = some e → e.1 ≠ m.start s.tb0) → m.start s.tb0 + m.off ≤ s.tb0 → ∃ u, exec (.cyclicSample k) s = .next u ∧
      u.net.map[outMap k].sample = some (m.start s.tb0, assemble (outMap k) m (m.start s.tb0) s) ∧
      u.net.map[outMap k].counter = m.counter + 1 ∧ ∀ j, j ≠ outMap k → u.net.map[j] = s.net.map[j]) ∧
  (∀ k s m p ports, tbRuns s = true → m = s.net.map[outMap k] → m.enabled = true → (∀ a, m.lastApplied = some a → a < m.start s.tb0) →
    m.sample = some (m.start s.tb0, p) → m.start s.tb0 + m.launch ≤ s.tb0 → ports ≠ [] →
    ports = (List.finRange 4).filter (fun (p : Fin 4) => m.ports.getLsbD p.val && portUp (ext p) s) →
    exec (.cyclicLaunch k) s = .next (originate ports
      { dst := m.mac, vlan := some (m.pcp, m.vlan), etherType := m.etherType, payload := p, cls := m.pcp }
      (onMap (outMap k) (fun m => { m with
        sample := none, lastApplied := some (m.start s.tb0), applied := bump m.applied 1 }) s))) ∧
  (∀ k on t s, tbRuns s = true → s.net.map[k].enableDue = some (on, t) → t ≤ s.tb0 → ∃ u, exec (.cyclicEnableEffect k) s = .next u ∧
    u.net.map[k].enabled = on ∧ u.net.map[k].enableDue = none ∧ u.net.map[k].held = [] ∧ ∀ j, j ≠ k → u.net.map[j] = s.net.map[j])

/-- LINK_UP of a port enabled and without link, its PHY sound, gives link at the highest common mode, 1000 or 100 Mb/s, or at the
forced one; LINK_DOWN drops a link. With the reference present and awake, FRAME_INGRESS of a frame nothing drops is counted and
accepted. While TB runs: FRAME_EGRESS with the wire free of the frame selected puts it on the wire and takes it as sent;
ARP_REQUEST and ICMP_ECHO for the address of the device, after Startup or in a loader, are answered on their port;
GATE_ENTRY_CHANGE moves the active list to its present entry, GATE_LIST_TAKEOVER puts a due list in force; PREEMPT_VERIFY that
succeeds on a port that asks for it makes the port preemptive. FDB_AGE_OUT removes an entry old enough.
(14_backbone_and_time.md) -/
def Obligations.SwitchEventsComplete : Prop :=
  (∀ p x s g f v, s.sys.dev ≠ .reset → s.net.port[ext p].state ≠ 2 → s.net.port[ext p].link = false →
    v = (if s.net.port[ext p].forced = true then (if f = true then 1 else 0)
      else if s.net.port[ext p].advertise.getLsbD 0 = true ∧ g = true then 2
      else if s.net.port[ext p].advertise.getLsbD 1 = true ∧ f = true then 1 else 0) → v ≠ 0 →
    ∃ u, exec (.linkUp p g f x true) s = .next u ∧ u.net.port[ext p].link = true ∧ u.net.port[ext p].speed = v ∧
      u.net.port[ext p].preempt = false ∧ u.net.port[ext p].verifyTries = 0 ∧ ∀ q, q ≠ ext p → u.net.port[q] = s.net.port[q]) ∧
  (∀ p s, s.net.port[ext p].link = true → exec (.linkDown p) s = .next (dropLink p s)) ∧
  (∀ p f s, s.sys.dev ≠ .reset → s.power.refLost = false → s.net.port[ext p].link = true → s.net.port[ext p].state ≠ 2 →
    s.power.power ≠ .rest → s.power.power ≠ .nap → ingressDrop p f true s = none →
    exec (.frameIngress p f true) s =
      .next (acceptFrame p f (onNetPort (ext p) (fun p => ({ p with received := bump p.received 1 }).active s.now) s))) ∧
  (∀ p f s, tbRuns s = true → portUp (ext p) s = true → wireFree p s = true → selectFrame p s = some f →
    ∃ v, exec (.frameEgress p) s = .next (v.onNet fun n => { n with
        tcHeld := (corrected p f s).2, sent := n.sent ++ [(p.val, (corrected p f s).1)] }) ∧
      v = onNetPort (ext p) (fun x => (x.begin f (preempts p f.cls s)).active s.now) s) ∧
  (∀ p mac ip s, tbRuns s = true → (afterStartup s = true ∨ halted s = true) →
    exec (.arpRequest p mac ip (ipAddress s)) s = .next (originate [p]
      { dst := mac, vlan := mgmtTag s, etherType := 0x0806,
        payload := be 2 1 ++ be 2 0x0800 ++ be 1 6 ++ be 1 4 ++ be 2 2 ++ be 6 s.net.mac.toNat ++ be 4 (ipAddress s).toNat ++
          be 6 mac.toNat ++ be 4 ip.toNat } s)) ∧
  (∀ p mac ip b s, tbRuns s = true → (afterStartup s = true ∨ halted s = true) → ∃ c, exec (.icmpEcho p mac ip (ipAddress s) b) s =
    .next (originate [p] { dst := mac, vlan := mgmtTag s, etherType := 0x0800, payload := c } (fresh s).2) ∧
    c.drop 20 = be 2 0 ++ be 2 (inetChecksum (be 4 0 ++ b)) ++ b) ∧
  (∀ mac vid s, ∃ u, exec (.fdbAgeOut mac vid) s = .next u ∧ u.net.fdbStatic = s.net.fdbStatic ∧
    (∀ e ∈ u.net.fdbDyn, e.mac = mac → e.vid = vid → s.now - e.seen < s.net.age * 500000000) ∧
    ∀ e ∈ s.net.fdbDyn, (e.mac ≠ mac ∨ e.vid ≠ vid) → e ∈ u.net.fdbDyn) ∧
  (∀ p l s, tbRuns s = true → s.net.gates[p].active = some l → exec (.gateEntryChange p) s =
    .next (s.onNet fun n => { n with gates := upd n.gates p fun g => { g with
      active := some { l with idx := (l.at (s.tbNs (Fin.ofNat 4 l.base))).1 } } })) ∧
  (∀ p l t s, tbRuns s = true → s.net.gates[p].next = some (l, t) → t ≤ s.tbNs (Fin.ofNat 4 l.base) → l.entries ≠ [] →
    exec (.gateListTakeover p) s = .next (s.onNet fun n => { n with gates := upd n.gates p fun g => { g with
      next := none, active := some { l with idx := (l.at (s.tbNs (Fin.ofNat 4 l.base))).1 } } })) ∧
  (∀ p s, tbRuns s = true → s.net.port[ext p].link = true → (s.net.port[ext p].preEnable = true ∨ portFrameGroups p.val s ≠ []) →
    s.net.port[ext p].preempt = false → s.net.port[ext p].verifyFailed = false →
    exec (.preemptVerify p true) s = .next (onNetPort (ext p) (fun p => { p with preempt := true }) s))

/-- While TB runs: SYNC_RECEIVED on an asCapable port of the mask takes grandmaster, steps and port for its instance;
PDELAY_EXCHANGE at its interval, unanswered, makes its port not asCapable, and answered keeps the delay and makes it asCapable
up to 800 ns; ANNOUNCE_RECEIPT_TIMEOUT of the followed port follows the other port, or makes a capable instance grandmaster;
GM_SYNC_SEND of a grandmaster at its interval notes the instant and draws its free values; TSO_INSTANT of an armed output at its
instant fires the leading edge, TSO_PULSE_END ends the pulse. SYNC_RECEIPT_TIMEOUT after three intervals makes the domain
invalid, HOLDOVER_EXPIRY makes the base unsynchronised. (14_backbone_and_time.md) -/
def Obligations.TimeEventsComplete : Prop :=
  (∀ i p gm steps t s, tbRuns s = true → s.net.port[ext p].link = true → s.net.port[ext p].asCapable = true →
    s.net.ptp[i].ports.getLsbD p.val = true → ∃ u, exec (.syncReceived i p gm steps t) s = .next u ∧ u.net.ptp[i].gmId = gm ∧
      u.net.ptp[i].steps = steps ∧ u.net.ptp[i].slavePort = some p.val ∧ u.net.ptp[i].lastSync = s.now ∧
      u.net.ptp[i].valid = !(s.net.ptp[i].valid && s.net.ptp[i].gmId != gm)) ∧
  (∀ p d s, tbRuns s = true → s.net.port[ext p].link = true → (∀ t, s.net.port[ext p].pdelayAt = some t → t + pdelayTicks s ≤ s.now) →
    exec (.pdelayExchange p d false) s = .next (onNetPort (ext p) (fun p => { p with asCapable := false, pdelayAt := some s.now }) s)) ∧
  (∀ p d s, tbRuns s = true → s.net.port[ext p].link = true → (∀ t, s.net.port[ext p].pdelayAt = some t → t + pdelayTicks s ≤ s.now) →
    ∃ u, exec (.pdelayExchange p d true) s = .next u ∧
    u.net.port[ext p].linkDelay = d ∧ u.net.port[ext p].asCapable = decide (d ≤ 12800)) ∧
  (∀ i s, s.net.ptp[i].valid = true → s.net.ptp[i].isGm = false →
    1500000000 ≤ (s.now - s.net.ptp[i].lastSync) * 2 ^ (-s.net.ptp[i].logSync).toNat →
    exec (.syncReceiptTimeout i) s = .next (changeBases id ((List.finRange 4).foldl (fun s b => decideShift b s)
      (reassessAll (s.onNet fun n => { n with ptp := upd n.ptp i fun x => { x with valid := false } }))))) ∧
  (∀ i p q s, tbRuns s = true → s.net.ptp[i].isGm = false → s.net.ptp[i].slavePort = some p.val →
    exec (.announceReceiptTimeout i p (some q)) s =
      .next (s.onNet fun n => { n with ptp := upd n.ptp i fun x => { x with slavePort := some q.val } })) ∧
  (∀ i p s, tbRuns s = true → s.net.ptp[i].isGm = false → s.net.ptp[i].slavePort = some p.val → s.net.ptp[i].gmCapable = true →
    exec (.announceReceiptTimeout i p none) s = .next (changeBases id (s.onNet fun n => { n with ptp := upd n.ptp i fun x => { x with
      slavePort := none, isGm := true, gmId := clockIdentity n.mac, steps := 0, valid := true } }))) ∧
  (∀ i s, tbRuns s = true → s.net.ptp[i].isGm = true →
    (∀ t, s.net.ptp[i].sentSync = some t → 500000000 ≤ (s.now - t) * 2 ^ (-s.net.ptp[i].logSync).toNat) →
    ∃ u, exec (.gmSyncSend i) s = .next u ∧ u.sys.free = s.sys.free + 9 ∧ u.net.ptp[i] = { s.net.ptp[i] with sentSync := some s.now } ∧
      u.net.tb = s.net.tb) ∧
  (∀ b s, s.net.tb[b].mode = 1 → s.net.tb[b].st = 3 → s.net.tb[b].holdSync * 500000000 ≤ s.now - s.net.tb[b].holdSince →
    exec (.holdoverExpiry b) s = .next (changeBases id (onTb b (fun t => { t with sync := false }) s))) ∧
  (∀ k s t, tbRuns s = true → t = (s.net.tso[k].due fun b => s.tbNs b) → t.armed = true →
    t.inst ≤ s.tbNs (Fin.ofNat 4 t.base) → t.count = 0 → t.period ≠ 0 → t.inhibit = false →
    ∃ v, exec (.tsoInstant k) s = .next (latchEvents 1 k.val ((s.tb0 : Int) + t.inst - s.tbNs (Fin.ofNat 4 t.base)).toNat v) ∧
      v.net.tso[k].level = !t.activeLow ∧ v.net.tso[k].j = t.j + 1 ∧ v.net.tso[k].fired = t.fired + 1 ∧
      v.net.tso[k].pulseEnd = some (t.base, t.inst + t.width) ∧ ∀ j, j ≠ k → v.net.tso[j] = s.net.tso[j]) ∧
  (∀ k e s, tbRuns s = true → s.net.tso[k].pulseEnd = some e → e.2 ≤ s.tbNs (Fin.ofNat 4 e.1) →
    exec (.tsoPulseEnd k) s = .next (onTso k (fun t => { t with level := t.activeLow, pulseEnd := none }) s))

/-- With Lodge powered: SI_LEVEL_ACCEPTED keeps the level of its input and judges the pairs; in Run, TEST_PULSE of a new frame with
no wrong input only notes the frame and a missing one faults its pair, DISCREPANCY_TIMEOUT faults its pair; LODGE_SNAPSHOT takes
the demands of a new cycle; STOIN_DEMAND, STOIN in use, asserts STO and notes the demand, STOIN_RELEASE forgets it,
STOIN_DISCREPANCY after more than 100 ms in Run faults the balls; REFERENCE_TIMEOUT and HEARTBEAT_TIMEOUT after 20 ms assert STO
with their cause, SUPERVISION_RELEASE ends a cause absent long enough; LODGE_OVERTEMP keeps the temperature, opens every output
and holds STO from 150 degrees. LODGE_SELF_TEST_END passed leaves Start for Run with a set, for Config without;
LODGE_SWITCHING_END enters Run with the new set and answers its confirm. (15_safety_lodge.md) -/
def Obligations.LodgeInputEventsComplete : Prop :=
  (∀ (n : Fin 16) (k : Fin 8) b s, lodgePowered s = true → k.val = n.val / 2 → exec (.siLevelAccepted n b) s =
    .next (judgePairs (onPair k (fun x => if n.val % 2 = 0 then { x with siA := b } else { x with siB := b }) s))) ∧
  (∀ t s, s.lodge.st = .run → s.lodge.tpDone[t] < tpFrame t s.lodge.time → exec (.testPulse t 0 0) s =
    .next (s.onLodge fun b => { b with tpDone := upd b.tpDone t fun _ => tpFrame t s.lodge.time })) ∧
  (∀ t s, s.lodge.st = .run → s.lodge.tpDone[t] < tpFrame t s.lodge.time → (s.lodge.cfg 0).kind ≠ 0 → (s.lodge.cfg 0).tpInUse = true →
    (s.lodge.cfg 0).tpA = t.val → (∀ k : Fin 8, k ≠ 0 → (s.lodge.cfg k).tpInUse = false) → exec (.testPulse t 1 0) s =
      .next (pairFault 0 2 (s.onLodge fun b => { b with tpDone := upd b.tpDone t fun _ => tpFrame t s.lodge.time }))) ∧
  (∀ k t s, s.lodge.pair[k].differ = some t → s.lodge.st = .run → agreeing (s.lodge.cfg k) = true →
    t + (s.lodge.cfg k).discrepancy * 1000000 < s.lodge.time → exec (.discrepancyTimeout k) s = .next (pairFault k 1 s)) ∧
  (∀ s, s.lodge.st ≠ .absent → s.lodge.cycle < lodgeCycle s.lodge.time → ∃ u, exec .lodgeSnapshot s = .next u ∧
    u.lodge.snapAt = some (lodgeCycle s.lodge.time * 250000 - 240000) ∧ u.lodge.cycle = lodgeCycle s.lodge.time ∧
    u.lodge.snapDemand = BitVec.ofNat 8 (bitsOf fun (k : Fin 8) => s.lodge.pair[k].demand) ∧ u.lodge.pair = s.lodge.pair) ∧
  (∀ a b s, lodgePowered s = true → stoinOn s = true → (a && b) = false → exec (.stoinDemand a b) s =
    .next (assertSto ((stoinLevels a b s).onLodge fun l => { l with stoinDemand := true }))) ∧
  (∀ s, lodgePowered s = true → stoinOn s = true → exec .stoinRelease s =
    .next ((stoinLevels true true s).onLodge fun l => { l with stoinDemand := false })) ∧
  (∀ t s, s.lodge.stoinDiffer = some t → s.lodge.st = .run → stoinOn s = true → s.lodge.stoinFault = false →
    t + 100000000 < s.lodge.time → exec .stoinDiscrepancy s =
      .next (assertSto (postFault 0 4 none true (s.onLodge fun l => { l with stoinFault := true, stoinLow := false })))) ∧
  (∀ s, lodgePowered s = true → exec .referenceTimeout s = .next (assertSto (s.onLodge fun b => { b with
    refFault := true, refGone := if s.power.refLost then none else some b.time }))) ∧
  (∀ s, lodgePowered s = true → s.lodge.hbAt + 20000000 ≤ s.lodge.time →
    exec .heartbeatTimeout s = .next (assertSto (s.onLodge fun b => { b with hbFault := true, hbGone := none }))) ∧
  (∀ s, s.lodge.refFault = true → releasable s.lodge.refGone s.lodge.time = true → exec (.supervisionRelease true) s =
    .next (refreshMirrors (decideSto (s.onLodge fun b => { b with refFault := false, refGone := none })))) ∧
  (∀ s, s.lodge.hbFault = true → releasable s.lodge.hbGone s.lodge.time = true → exec (.supervisionRelease false) s =
    .next (refreshMirrors (decideSto (s.onLodge fun b => { b with hbFault := false, hbGone := none })))) ∧
  (∀ t s, lodgePowered s = true → t < 150 → ∃ u, exec (.lodgeOvertemp t) s = .next u ∧ u.lodge.temp = t ∧
    u.lodge.overtemp = (s.lodge.overtemp && decide (130 ≤ t)) ∧ u.lodge.out = s.lodge.out) ∧
  (∀ t s, lodgePowered s = true → 150 ≤ t → ∃ v, exec (.lodgeOvertemp t) s = .next (assertSto v) ∧ v.lodge.temp = t ∧
    v.lodge.overtemp = true ∧ ∀ k : Fin 4, v.lodge.out[k] = s.lodge.out[k].open s.lodge.time) ∧
  (∀ p s, s.lodge.st = .start → s.lodge.params = some p → exec (.lodgeSelfTestEnd true) s = .next (enterRun p s)) ∧
  (∀ s, s.lodge.st = .start → s.lodge.params = none → exec (.lodgeSelfTestEnd true) s = .next (leaveRun .config s)) ∧
  (∀ p s, s.lodge.st = .switching → s.lodge.switching = some p → exec .lodgeSwitchingEnd s =
    .next (finish (fun e => e.opcode == 0x0902) .done [(0x0100, be 1 LodgeState.run.code)] (enterRun p s)))

/-- 230 microseconds after a snapshot, out of Safe-Fault and with nothing found wrong, LODGE_COMMAND_INSTANT decides outputs and STO
and refreshes the mirrors. SS1_QUICK_STOP, asked for, withdraws the request and stops every axis and group quickly;
SS1_DELAY_EXPIRY of an output at its time opens it, and that of STO asserts it. In Run, of an output that is on:
SAFE_OUTPUT_TEST, its interval over, of a sound output alternates the side it pulses and keeps the time; SAFE_OUTPUT_OVERLOAD
from 100 microseconds on, SAFE_OUTPUT_OPEN_LOAD with its option from 100 ms on, and TEST_OVERDUE of one without pulses not off
for 24 h fault it. (15_safety_lodge.md) -/
def Obligations.LodgeOutputEventsComplete : Prop :=
  (∀ t s, s.lodge.snapAt = some t → s.lodge.st ≠ .absent → s.lodge.st ≠ .safeFault → t + 230000 ≤ s.lodge.time →
    exec (.lodgeCommandInstant false none) s =
      .next (refreshMirrors (decideSto (decideOuts (s.onLodge fun b => { b with snapAt := none, disagreed := false }))))) ∧
  (∀ s, s.lodge.ss1Request = true → ∃ v, exec .ss1QuickStop s = .next ((List.finRange 16).foldl (fun s (g : Fin 16) =>
      if s.plan.grp[g].running && s.plan.grp[g].activity != 4 then requestGroupStop g 1 s else s) v) ∧
    v = (List.finRange 64).foldl (fun s i => if stoppable i s then requestStop i 1 s else s)
      (s.onLodge fun b => { b with ss1Request := false })) ∧
  (∀ n t s, s.lodge.out[n].delay = some t → t ≤ s.lodge.time →
    exec (.ss1DelayExpiry (some n)) s = .next (onSafeOut n (fun x => x.open s.lodge.time) s)) ∧
  (∀ t s, s.lodge.ss1End = some t → t ≤ s.lodge.time →
    exec (.ss1DelayExpiry none) s = .next (assertSto (s.onLodge fun b => { b with ss1End := none, ss1Done := true }))) ∧
  (∀ n p s, s.lodge.st = .run → s.lodge.out[n].on = true → s.lodge.params = some p → p.out[n].noPulse = false →
    s.lodge.out[n].testAt + p.out[n].testMs10 * 10000000 ≤ s.lodge.time →
    exec (.safeOutputTest n false false none) s =
      .next (onSafeOut n (fun y => { y with pulseM := !y.pulseM, testAt := s.lodge.time }) s)) ∧
  (∀ n s, s.lodge.st = .run → s.lodge.out[n].on = true → s.lodge.out[n].onAt + 100000 ≤ s.lodge.time →
    exec (.safeOutputOverload n) s = .next (outFault n 4 false s)) ∧
  (∀ n p s, s.lodge.st = .run → s.lodge.out[n].on = true → s.lodge.params = some p → p.out[n].openLoad = true →
    s.lodge.out[n].onAt + 100000000 ≤ s.lodge.time → exec (.safeOutputOpenLoad n) s = .next (outFault n 5 false s)) ∧
  (∀ n p s, s.lodge.st = .run → s.lodge.out[n].on = true → s.lodge.params = some p → p.out[n].noPulse = true →
    s.lodge.out[n].offAt + 86400000000000 ≤ s.lodge.time → exec (.testOverdue n) s = .next (outFault n 6 false s))

/-- With the die powered: an accepted edge of an input not open, FILTER after the last, takes the new level and its instant; an open
wire of a type 3 input with the check makes it open at 0, and its end ends that; OVERLOAD of an output on for 500 microseconds,
FIO_OVERTEMP and its end, OPEN_LOAD and BACKFEED after 100 ms and 1 ms in the switch state with their ends set and clear the
state they name with its event; OUTPUT_RETRY that succeeds ends the latch. FIO_LINK_REFRESH a millisecond after the last
refreshes the group; FIO_REFRESH_TIMEOUT and FIELD_GROUP_LOST after 10 ms without put it into its fail states and record its
fault; SUPPLY_SAG, SUPPLY_LOST, DIE_UNPOWERED, DIE_POWER_RETURN, FIELD_SUPPLY_RETURN and FIO_AUTO_REENABLE move the supply of
the group. (16_field_io.md) -/
def Obligations.FieldIoEventsComplete : Prop :=
  (∀ n b s, s.fio.grp[(inputPlace n).1].powered = true → (inputOf n s).opened = false → (inputOf n s).level ≠ b →
    (∀ t, (inputOf n s).acceptAt = some t → localDue t (50 * (inputOf n s).filter) s = true) →
    s.power.power ≠ .nap → s.power.power ≠ .rest → s.power.refLost = false → exec (.diEdgeAccepted n b) s =
      .next (onInput n (fun y => { y with
        level := b, edgeAt := fieldTime s - (filterAgo (inputOf n s).filter s).1, acceptAt := some s.power.aonUs })
        (filterAgo (inputOf n s).filter s).2)) ∧
  (∀ n s, s.fio.grp[(inputPlace n).1].powered = true → (inputOf n s).type3 = true → (inputOf n s).openWire = true →
    (inputOf n s).opened = false → exec (.openWire n) s = .next (fioEvent 0x0A01 (inputPlace n).1 (inputPlace n).2.val
      (onInput n (fun y => { y with opened := true, fOpen := true, level := false, openedAt := s.power.aonUs }) s))) ∧
  (∀ n s, localDue (inputOf n s).openedAt 100000 s = true →
    exec (.openWireClear n) s = .next (onInput n (fun y => { y with opened := false }) s)) ∧
  (∀ n s, (outputOf n s).state = true → heldFor 500 (outputOf n s) s = true → exec (.overload n) s =
    .next (fioEvent 0x0A02 (outputPlace n).1 (outputPlace n).2.val
      (onOutput n (fun o => { o with latched := true, overload := true, fOverload := true, tryAt := s.power.aonUs }) s))) ∧
  (∀ n s, s.fio.grp[(outputPlace n).1].powered = true → (outputOf n s).hot = false → exec (.fioOvertemp n) s =
    .next (fioEvent 0x0A03 (outputPlace n).1 (outputPlace n).2.val
      (onOutput n (fun o => { o with hot := true, latched := true, overtemp := true, fOvertemp := true, tryAt := s.power.aonUs }) s))) ∧
  (∀ n s, exec (.fioOvertempClear n) s = .next (onOutput n (fun o => { o with hot := false }) s)) ∧
  (∀ n s, (outputOf n s).state = true → (outputOf n s).openCheck = true → (outputOf n s).openLoad = false →
    heldFor 100000 (outputOf n s) s = true → exec (.openLoad n) s =
    .next (fioEvent 0x0A04 (outputPlace n).1 (outputPlace n).2.val
      (onOutput n (fun o => { o with openLoad := true, fOpenLoad := true, openLoadAt := s.power.aonUs }) s))) ∧
  (∀ n s, localDue (outputOf n s).openLoadAt 100000 s = true →
    exec (.openLoadClear n) s = .next (onOutput n (fun o => { o with openLoad := false }) s)) ∧
  (∀ n s, s.fio.grp[(outputPlace n).1].powered = true → (outputOf n s).state = false → (outputOf n s).backfeed = false →
    heldFor 1000 (outputOf n s) s = true → exec (.backfeed n) s =
    .next (fioEvent 0x0A05 (outputPlace n).1 (outputPlace n).2.val
      (onOutput n (fun o => { o with backfeed := true, fBackfeed := true, backfeedAt := s.power.aonUs }) s))) ∧
  (∀ n s, localDue (outputOf n s).backfeedAt 1000 s = true →
    exec (.backfeedClear n) s = .next (onOutput n (fun o => { o with backfeed := false }) s)) ∧
  (∀ n s, (outputOf n s).retry = true → (outputOf n s).latched = true → (outputOf n s).cmd = true → (outputOf n s).hot = false →
    localDue (outputOf n s).tryAt 100000 s = true → exec (.outputRetry n true) s = .next (onOutput n (fun o => { o with
      latched := false, overload := false, overtemp := false, tryAt := s.power.aonUs }) s)) ∧
  (∀ g s, s.sys.dev ≠ .reset → s.power.refLost = false → s.fio.grp[g].powered = true →
    (∀ t, s.fio.grp[g].refreshAt = some t → t + 1000 ≤ s.power.aonUs) → exec (.fioLinkRefresh g) s =
    .next (setCause 0x0023 g.val false (onFioGroup g (FioGroup.refreshed s.power.aonUs) s))) ∧
  (∀ g s, s.fio.grp[g].powered = true → s.fio.grp[g].linkFailed = false → localDue s.fio.grp[g].watchAt 10000 s = true →
    exec (.fioRefreshTimeout g) s = .next (onFioGroup g (fun g => { g.failStates with linkFailed := true }) s)) ∧
  (∀ g s, s.fio.grp[g].powered = true → s.sys.dev ≠ .reset → s.fio.grp[g].watchAt + 10000 ≤ s.power.aonUs →
    exec (.fieldGroupLost g) s = .next (setCause 0x0023 g.val true (recordFault 0x0023 4 g.val 0 true s))) ∧
  (∀ g v s u, s.fio.grp[g].powered = true → v < 1800 →
    u = onFioGroup g (fun g => { g with vf := v, restoring := false, sag := true, fSag := true }) s →
    exec (.supplySag g v) s = .next (if s.fio.grp[g].sag = true then u else event 0x0A06 g.val [] u)) ∧
  (∀ g v s u, s.fio.grp[g].powered = true → v < 1500 →
    u = onFioGroup g (fun g => ({ g with vf := v, restoring := false, lost := true, fLost := true }).settle) s →
    exec (.supplyLost g v) s = .next (if s.fio.grp[g].lost = true then u else event 0x0A07 g.val [] u)) ∧
  (∀ g v s, v < 1200 → ∃ u, exec (.dieUnpowered g v) s = .next u ∧ u.fio.grp[g].powered = false ∧ u.fio.grp[g].vf = v ∧
    u.fio.grp[g].lost = s.fio.grp[g].lost ∧ ∀ k, k ≠ g → u.fio.grp[k] = s.fio.grp[k]) ∧
  (∀ g v s, 1200 ≤ v → s.fio.grp[g].powered = false → s.sys.dev ≠ .reset → exec (.diePowerReturn g v) s =
    .next (loadFio g (onFioGroup g (fun g => { g with powered := true, vf := v, watchAt := s.power.aonUs }) s))) ∧
  (∀ g s, s.fio.grp[g].lost = true → s.fio.grp[g].auto = true → s.fio.grp[g].restoring = true → 1800 ≤ s.fio.grp[g].vf →
    localDue s.fio.grp[g].restoreAt (1000 * s.fio.grp[g].restoreMs) s = true →
    exec (.fioAutoReenable g) s = .next (onFioGroup g (fun g => ({ g with lost := false, restoring := false }).settle) s)) ∧
  (∀ g v s, 1800 ≤ v → s.fio.grp[g].powered = true → exec (.fieldSupplyReturn g v) s = .next (onFioGroup g (fun g => { g with
    vf := v, restoring := true, restoreAt := if g.restoring then g.restoreAt else s.power.aonUs, sag := g.sag && decide (v < 1850) }) s))

/-- Of a controller that runs, is on and not bus-off: CAN_FRAME_RECEIVED in listen-only mode counts the frame, files it and lets it
set the cycle of a slave; CAN_TX_COMPLETE takes the frame sent from the queue and counts it; ARBITRATION_LOST ends the attempt;
CAN_BUS_ERROR as a receiver adds 1 or 8. CAN_BUS_OFF_RECOVERY after 128 x 11 bit times, automatic or asked for, recovers.
CAN_CYCLE_START begins the first cycle of a free-running source in use, CAN_BUFFER_FREEZE freezes the buffer of the exclusive
window that is 2 microseconds ahead, CAN_WINDOW_START starts the next window at its instant; REF_LOST after 1.5 cycles ends
synchronism with its event; CAN_DETECT_DWELL_END after the dwell tries the next candidate. (17_can_fd.md) -/
def Obligations.CanEventsComplete : Prop :=
  (∀ c f e s, canRuns s = true → s.can.ctl[c].cfg.mode = 2 → s.can.ctl[c].bus ≠ 2 → s.can.ctl[c].joinAt = none →
    exec (.canFrameReceived c f e 0) s =
    .next (detectGood c (slaveCycle c s.nowNs f (fileFrame c s.nowNs f e (onCtl c (fun x => { x with rxOk := bump x.rxOk 1 }) s))))) ∧
  (∀ c d f s, canRuns s = true → s.can.ctl[c].sending = some (0, f) → ∃ v, exec (.canTxComplete c d) s = .next (busFree c (busState c v)) ∧
    v.can.ctl[c].queue = dropFirst (fun t => t.frame == f) s.can.ctl[c].queue ∧ v.can.ctl[c].sent = bump s.can.ctl[c].sent 1 ∧
    v.can.ctl[c].tec = s.can.ctl[c].tec - 1) ∧
  (∀ c f s, canRuns s = true → s.can.ctl[c].sending = some (0, f) → exec (.arbitrationLost c) s = .next (busFree c (retryEvent c f s))) ∧
  (∀ c k v s, canRuns s = true → s.can.ctl[c].cfg.mode = 1 → s.can.ctl[c].bus ≠ 2 → s.can.ctl[c].sending = none →
    exec (.canBusError c k v none) s = .next (busState c (onCtl c (fun x => { x with
      rxErr := min 255 (x.rxErr + (if v then 8 else 1)) }) s))) ∧
  (∀ c s, canRuns s = true → s.can.ctl[c].bus = 2 → (s.can.ctl[c].cfg.autoRecover = true ∨ s.can.ctl[c].recover = true) →
    2 * s.can.ctl[c].busOffAt + 1408 * s.can.ctl[c].cfg.nominal.bitTime ≤ 2 * s.nowNs →
    exec (.canBusOffRecovery c) s = .next (trySend c (onCtl c CanCtl.recovered s))) ∧
  (∀ c s p n, canRuns s = true → s.can.ctl[c].cfg.mode ≠ 0 → s.can.ctl[c].tt.source = 0 → s.can.ctl[c].tt.absent = false →
    s.can.ctl[c].ttSync = false → p = max s.can.ctl[c].tt.cycleNs 1 → n = canTime s.can.ctl[c] s / p * p →
    exec (.canCycleStart c true) s = .next (startWindow c 0 true (onCtl c (fun x => { x with
      cycleStart := n, ttSync := true, ttCycle := n % 1000000000 / p % max x.tt.cycles 1 }) (missMany c 0 s)))) ∧
  (∀ c w f s, canRuns s = true → s.can.ctl[c].cfg.mode ≠ 0 → s.can.ctl[c].ttSync = true → s.can.ctl[c].nextWindow = some w →
    ((s.can.ctl[c].tt.span w).1 : Int) ≤ s.can.ctl[c].pos s + 2000 → (s.can.ctl[c].tt.cell s.can.ctl[c].ttCycle w).1 = 0 →
    s.can.ctl[c].ttFrozen = none → getKey (s.can.ctl[c].tt.cell s.can.ctl[c].ttCycle w).2 s.can.ctl[c].ttBuf = some f →
    exec (.canBufferFreeze c) s = .next (onCtl c (fun x => { x with
      ttFrozen := some ((s.can.ctl[c].tt.cell s.can.ctl[c].ttCycle w).2, f) }) s)) ∧
  (∀ c w i s, canRuns s = true → s.can.ctl[c].cfg.mode ≠ 0 → s.can.ctl[c].tt.absent = false → s.can.ctl[c].nextWindow = some w →
    ((s.can.ctl[c].tt.span w).1 : Int) ≤ s.can.ctl[c].pos s → exec (.canWindowStart c i) s = .next (startWindow c w i s)) ∧
  (∀ c t s, canRuns s = true → s.can.ctl[c].lastRef = some t → s.can.ctl[c].tt.source = 2 → s.can.ctl[c].ttSync = true →
    2 * t + 3 * s.can.ctl[c].tt.cycleNs ≤ 2 * s.nowNs →
    exec (.refLost c) s = .next (event 0x0B06 c.val [] (onCtl c (fun x => { x with ttSync := false, fRefLost := true }) s))) ∧
  (∀ c s, canRuns s = true → s.can.ctl[c].cfg.mode = 3 → s.can.ctl[c].dwellAt + s.can.ctl[c].dwell * 500000 ≤ s.now →
    s.can.ctl[c].candidate + 1 < s.can.ctl[c].cands.length →
    exec (.canDetectDwellEnd c) s = .next (onCtl c (CanCtl.tryCandidate (s.can.ctl[c].candidate + 1) s.now) s))

/-- While ACQ runs: ACQ_CHANNEL_SAMPLE of a sampling channel of an active capture, at its clock, samples it; ACQ_TRIGGER_OCCURRENCE
is the occurrence of the units named whose conditions are CAN, Drayman, backbone or Host Port ones; ACQ_REARM at its instant
with a free segment arms it. ACQ_PIN_CHANGE outside a sample instant of the pin group keeps the levels; ACQ_HOLDOFF_END after a
time hold-off waits for a segment. Lanes not gated: THREAD_START starts the thread at the head of an idle lane that became READY
at an earlier instant and counts the run; THREAD_PREEMPT saves the running thread for such a preemptive one of a higher level;
THREAD_RESUME gives the lane back as saved. DISPATCH_TIMER_INSTANT of a due running timer, out of Nap and Rest, passes its
instant and delivers tokens. (19_acquisition.md, 20_dispatcher_and_lanes.md) -/
def Obligations.AcquisitionAndThreadEventsComplete : Prop :=
  (∀ c s, acqRuns s = true → s.acq.active = true → s.acq.chan[c].sampling = true → clockDue s.acq.chan[c] s = true →
    chanExists s.acq.chan[c] s = true → exec (.acqChannelSample c) s = .next (channelSample c s)) ∧
  (∀ b s v, v = (s.onAcq fun x => { x with pins := b }) → pinsSampled v = false → exec (.acqPinChange b) s = .next v) ∧
  (∀ (b : BitVec 8) (on : BitVec 9) s, acqRuns s = true →
    (∀ u : Fin 8, on.getLsbD u.val = (b.getLsbD u.val && decide (3 ≤ s.acq.trig[u].kind ∧ s.acq.trig[u].kind ≤ 6))) →
    on.getLsbD 8 = false → exec (.acqTriggerOccurrence b) s = .next (occurNow on 0 s)) ∧
  (∀ g t s, acqRuns s = true → s.acq.st = 4 → s.acq.rearmAt = some t → t ≤ s.sysTick →
    freeSegment (s.acq.segment + 1) s.acq = some g → exec .acqRearm s = .next (reselect (arm g s))) ∧
  (∀ s, s.acq.st = 5 → s.acq.holdKind ≠ 2 → s.acq.holdoff ≤ 2 * (s.sysTick - s.acq.endTick.getD 0) →
    exec .acqHoldoffEnd s = .next (awaitSegment (s.onAcq fun b => { b with st := 4 }))) ∧
  (∀ l t s, queueHead l s = some t → lanesGated s = false → s.lanes.lane[l].thread = none → s.lanes.thr[t].st = .ready →
    s.lanes.thr[t].readyAt ≠ s.sysTick → s.lanes.thr[t].entry < s.lanes.lane[l].prog.length →
    ∃ v lat, exec (.threadStart l) s = .next (takeLane l t (clearedLane s.lanes.thr[t]) v) ∧
      lat = BitVec.ofNat 16 (min (s.sysTick - s.lanes.thr[t].readyAt) 65535) ∧
      v = onThr t (fun y => { y with
        runs := y.runs + 1, latLast := lat, latMax := if y.latMax < lat then lat else y.latMax }) s) ∧
  (∀ l (t w : Fin 512) s, s.lanes.lane[l].thread = some t.val → w.val ∈ s.lanes.lane[l].queue → s.lanes.thr[w].st = .ready →
    s.lanes.thr[w].readyAt ≠ s.sysTick →
    s.lanes.thr[w].preemptive = true → s.lanes.thr[t].level < s.lanes.thr[w].level → lanesGated s = false →
    heldOff s.lanes.lane[l].regs = false → exec (.threadPreempt l) s = .next (onLane l (fun y => { y with
        thread := none, queue := joinHead (levelOf s) t.val y.queue })
      (onThr t (fun y => { y with st := .preempted, saved := some s.lanes.lane[l].regs }) s))) ∧
  (∀ l t r s, queueHead l s = some t → lanesGated s = false → s.lanes.lane[l].thread = none → s.lanes.thr[t].st = .preempted →
    s.lanes.thr[t].saved = some r → exec (.threadResume l) s = .next (takeLane l t r s)) ∧
  (∀ k s, s.sys.dev ≠ .reset → s.lanes.tmr[k].running = true →
    s.lanes.tmr[k].nextAt ≤ (if s.lanes.tmr[k].kind = 2 then s.wall else s.sysTick) →
    s.power.power ≠ .nap → s.power.power ≠ .rest → exec (.dispatchTimerInstant k) s =
      .next (occurs 9 k.val 0 (s.onLanes fun n => { n with tmr := upd n.tmr k (Timer.pass 0) })))

/-- On a lane that issues the instruction next with nothing pending from before it: each writes its destination register with the
result Table 20.5 gives, ADDS, SUBS and ABS saturating and setting QS, and shifts by 32 or more shifting everything out; the
program counter and the issue count go up by 1, and nothing else changes. (20 Table 20.5) -/
def Obligations.LaneArithmeticComplete : Prop :=
  (∀ l t w s, Issues 0x00 l t w s → exec (.laneNop l) s = .next (issued l (fun r => r) s)) ∧
  (∀ l t w s, Issues 0x01 l t w s → exec (.laneAdd l) s = .next (issued l (fun r => r.put (rd w) (r.d[ra w] + r.d[rb w])) s)) ∧
  (∀ l t w s, Issues 0x02 l t w s → exec (.laneSub l) s = .next (issued l (fun r => r.put (rd w) (r.d[ra w] - r.d[rb w])) s)) ∧
  (∀ l t w s, Issues 0x03 l t w s → exec (.laneAdds l) s = .next (issued l (fun r => r.putSat (rd w) (r.d[ra w].toInt + r.d[rb w].toInt)) s)) ∧
  (∀ l t w s, Issues 0x04 l t w s → exec (.laneSubs l) s = .next (issued l (fun r => r.putSat (rd w) (r.d[ra w].toInt - r.d[rb w].toInt)) s)) ∧
  (∀ l t w s, Issues 0x05 l t w s → exec (.laneMul l) s = .next (issued l (fun r => r.put (rd w) (r.d[ra w] * r.d[rb w])) s)) ∧
  (∀ l t w s, Issues 0x06 l t w s → exec (.laneMulh l) s = .next (issued l (fun r => r.put (rd w) (BitVec.ofInt 32 ((r.d[ra w].toInt * r.d[rb w].toInt).fdiv 4294967296))) s)) ∧
  (∀ l t w s, Issues 0x07 l t w s → exec (.laneAnd l) s = .next (issued l (fun r => r.put (rd w) (r.d[ra w] &&& r.d[rb w])) s)) ∧
  (∀ l t w s, Issues 0x08 l t w s → exec (.laneOr l) s = .next (issued l (fun r => r.put (rd w) (r.d[ra w] ||| r.d[rb w])) s)) ∧
  (∀ l t w s, Issues 0x09 l t w s → exec (.laneXor l) s = .next (issued l (fun r => r.put (rd w) (r.d[ra w] ^^^ r.d[rb w])) s)) ∧
  (∀ l t w s, Issues 0x0A l t w s → exec (.laneShl l) s = .next (issued l (fun r => r.put (rd w) (r.d[ra w] <<< min r.d[rb w].toNat 32)) s)) ∧
  (∀ l t w s, Issues 0x0B l t w s → exec (.laneShr l) s = .next (issued l (fun r => r.put (rd w) (r.d[ra w] >>> min r.d[rb w].toNat 32)) s)) ∧
  (∀ l t w s, Issues 0x0C l t w s → exec (.laneSar l) s = .next (issued l (fun r => r.put (rd w) (r.d[ra w].sshiftRight (min r.d[rb w].toNat 32))) s)) ∧
  (∀ l t w s, Issues 0x0D l t w s → exec (.laneMin l) s = .next (issued l (fun r => r.put (rd w) (if r.d[ra w].toInt ≤ r.d[rb w].toInt then r.d[ra w] else r.d[rb w])) s)) ∧
  (∀ l t w s, Issues 0x0E l t w s → exec (.laneMax l) s = .next (issued l (fun r => r.put (rd w) (if r.d[ra w].toInt ≤ r.d[rb w].toInt then r.d[rb w] else r.d[ra w])) s)) ∧
  (∀ l t w s, Issues 0x0F l t w s → exec (.laneAbs l) s = .next (issued l (fun r => r.putSat (rd w) r.d[ra w].toInt.natAbs) s)) ∧
  (∀ l t w s, Issues 0x10 l t w s → exec (.laneAddi l) s = .next (issued l (fun r => r.put (rd w) (r.d[ra w] + BitVec.ofInt 32 (immS w))) s)) ∧
  (∀ l t w s, Issues 0x11 l t w s → exec (.laneLui l) s = .next (issued l (fun r => r.put (rd w) (BitVec.ofNat 32 (immU w * 65536))) s)) ∧
  (∀ l t w s, Issues 0x12 l t w s → exec (.laneOri l) s = .next (issued l (fun r => r.put (rd w) (r.d[ra w] ||| BitVec.ofNat 32 (immU w))) s)) ∧
  (∀ l t w s, Issues 0x13 l t w s → exec (.laneShli l) s = .next (issued l (fun r => r.put (rd w) (r.d[ra w] <<< min (immU w) 32)) s)) ∧
  (∀ l t w s, Issues 0x14 l t w s → exec (.laneSari l) s = .next (issued l (fun r => r.put (rd w) (r.d[ra w].sshiftRight (min (immU w) 32))) s)) ∧
  (∀ l t w s, Issues 0x15 l t w s → exec (.laneShri l) s = .next (issued l (fun r => r.put (rd w) (r.d[ra w] >>> min (immU w) 32)) s))

/-- On a lane that issues the instruction next with nothing pending from before it: LD of data memory loads after its delay slot the
word at the effective address, ST stores it there and nowhere else, and both update their pointer; SETX and GETX move between
data and address registers; the accumulator instructions leave in their accumulator, by R452, the exact result Table 20.5 gives;
EXP counts, MOVAH rounds half to even and saturates. Otherwise only the program counter and the issue count change. (20 Table
20.5) -/
def Obligations.LaneAccumulatorComplete : Prop :=
  (∀ l t w s, Issues 0x18 l t w s → effAddr w s.lanes.lane[l].regs % 4 = 0 → effAddr w s.lanes.lane[l].regs < 0x18000 →
    poisonedAt (laneDataAddr l (effAddr w s.lanes.lane[l].regs)) s = false → exec (.laneLd l) s =
      .next (issued l (fun r => postUpdate w { r with load := some ((rd w).val, wordAt 0 (effAddr w r) s.lanes.lane[l].data) }) s)) ∧
  (∀ l t w s, Issues 0x19 l t w s → effAddr w s.lanes.lane[l].regs % 4 = 0 → effAddr w s.lanes.lane[l].regs < 0x18000 →
    poisonedAt (laneDataAddr l (effAddr w s.lanes.lane[l].regs)) s = false → exec (.laneSt l) s =
      .next (issued l (postUpdate w) (onLane l (fun y => { y with
        data := wordPut 0 (effAddr w s.lanes.lane[l].regs) s.lanes.lane[l].regs.d[rd w] y.data }) s))) ∧
  (∀ l t w s, Issues 0x1A l t w s → wordBits w 24 2 = 0 →
    exec (.laneSetx l) s = .next (issued l (fun r => { r with x := upd r.x (xIndex w) fun _ => r.d[ra w] }) s)) ∧
  (∀ l t w s, Issues 0x1A l t w s → wordBits w 24 2 = 1 →
    exec (.laneSetx l) s = .next (issued l (fun r => { r with mods := upd r.mods (xIndex w) fun _ => r.d[ra w] }) s)) ∧
  (∀ l t w s, Issues 0x1A l t w s → wordBits w 24 2 = 2 →
    exec (.laneSetx l) s = .next (issued l (fun r => { r with base := upd r.base (xIndex w) fun _ => r.d[ra w] }) s)) ∧
  (∀ l t w s, Issues 0x1A l t w s → wordBits w 24 2 = 3 →
    exec (.laneSetx l) s = .next (issued l (fun r => { r with len := upd r.len (xIndex w) fun _ => r.d[ra w] }) s)) ∧
  (∀ l t w s, Issues 0x1B l t w s → exec (.laneGetx l) s = .next (issued l (fun r => r.put (ra w) (if wordBits w 24 2 = 0 then r.x[xIndex w] else if wordBits w 24 2 = 1 then r.mods[xIndex w]
      else if wordBits w 24 2 = 2 then r.base[xIndex w] else r.len[xIndex w])) s)) ∧
  (∀ l t w s, Issues 0x20 l t w s → exec (.laneClr l) s = .next (issued l (fun r => r.putAcc (accOf w) 0) s)) ∧
  (∀ l t w s, Issues 0x21 l t w s → exec (.laneMpy l) s = .next (issued l (fun r => r.putAcc (accOf w) (r.d[ra w].toInt * r.d[rb w].toInt)) s)) ∧
  (∀ l t w s, Issues 0x22 l t w s → exec (.laneMac l) s = .next (issued l (fun r => r.putAcc (accOf w) (r.acc[accOf w].toInt + r.d[ra w].toInt * r.d[rb w].toInt)) s)) ∧
  (∀ l t w s, Issues 0x23 l t w s → exec (.laneMsu l) s = .next (issued l (fun r => r.putAcc (accOf w) (r.acc[accOf w].toInt - r.d[ra w].toInt * r.d[rb w].toInt)) s)) ∧
  (∀ l t w s (i j : Fin 8), Issues 0x24 l t w s → i.val = wordBits w 21 3 → j.val = wordBits w 18 3 →
    (∀ k, k = i ∨ k = j → s.lanes.lane[l].regs.x[k].toNat % 4 = 0 ∧ s.lanes.lane[l].regs.x[k].toNat < 0x18000 ∧
      poisonedAt (laneDataAddr l s.lanes.lane[l].regs.x[k].toNat) s = false) →
    exec (.laneMacx l) s = .next (issued l (fun r =>
      let q := (r.putAcc (accOf w) (r.acc[accOf w].toInt + (wordAt 0 r.x[i].toNat s.lanes.lane[l].data).toInt *
        (wordAt 0 r.x[j].toNat s.lanes.lane[l].data).toInt)).step i r.mods[i].toInt
      q.step j q.mods[j].toInt) s)) ∧
  (∀ l t w s, Issues 0x25 l t w s → exec (.laneAdda l) s = .next (issued l (fun r => r.putAcc (accOf w) (r.acc[accOf w].toInt + r.acc[acc2Of w].toInt)) s)) ∧
  (∀ l t w s, Issues 0x26 l t w s → exec (.laneSha l) s = .next (issued l (fun r => r.putAcc (accOf w) (shiftInt r.acc[accOf w].toInt (shOf w))) s)) ∧
  (∀ l t w s, Issues 0x27 l t w s → exec (.laneExp l) s = .next (issued l (fun r => r.put (ra w) (BitVec.ofInt 32 ((leadingSame r.acc[accOf w] 72 : Int) - 9))) s)) ∧
  (∀ l t w s, Issues 0x28 l t w s → exec (.laneNorm l) s = .next (issued l (fun r => r.putAcc (accOf w) (shiftInt r.acc[accOf w].toInt (normShift r.d[ra w].toInt))) s)) ∧
  (∀ l t w s v c, Issues 0x29 l t w s → v = halfEven s.lanes.lane[l].regs.acc[accOf w].toInt (2 ^ (shOf w).toNat) →
    c = clampInt (-2147483648) 2147483647 v →
    exec (.laneMovah l) s = .next (issued l (fun r => { r.put (ra w) (BitVec.ofInt 32 c) with sx := r.sx || c != v }) s)) ∧
  (∀ l t w s, Issues 0x2A l t w s → exec (.laneLda l) s = .next (issued l (fun r => r.putAcc (accOf w) (r.d[ra w].toInt * 4294967296 + r.d[rb w].toNat)) s))

/-- On a lane that issues the instruction next with nothing pending from before it: a branch sets, for after its two delay slots,
its target when its condition holds and the word after the slots otherwise; CALL leaves its return address in D31 and RET goes
there; REP repeats the next word, or passes it at a count of 0; MODE sets SAT mode and clears the flags if asked; GETF reads the
flags word; END ends the thread. (20 Table 20.5) -/
def Obligations.LaneControlComplete : Prop :=
  (∀ l t w s, Issues 0x30 l t w s → exec (.laneBeq l) s = .next (issued l (fun r => { r with
    delay := some (2, if r.d[rd w] = r.d[ra w] then branchTarget w r else r.pc.toNat + 3) }) s)) ∧
  (∀ l t w s, Issues 0x31 l t w s → exec (.laneBne l) s = .next (issued l (fun r => { r with
    delay := some (2, if r.d[rd w] ≠ r.d[ra w] then branchTarget w r else r.pc.toNat + 3) }) s)) ∧
  (∀ l t w s, Issues 0x32 l t w s → exec (.laneBlt l) s = .next (issued l (fun r => { r with
    delay := some (2, if r.d[rd w].toInt < r.d[ra w].toInt then branchTarget w r else r.pc.toNat + 3) }) s)) ∧
  (∀ l t w s, Issues 0x33 l t w s → exec (.laneBge l) s = .next (issued l (fun r => { r with
    delay := some (2, if r.d[ra w].toInt ≤ r.d[rd w].toInt then branchTarget w r else r.pc.toNat + 3) }) s)) ∧
  (∀ l t w s, Issues 0x34 l t w s → exec (.laneBra l) s = .next (issued l (fun r => { r with delay := some (2, branchTarget w r) }) s)) ∧
  (∀ l t w s, Issues 0x35 l t w s → exec (.laneCall l) s = .next (issued l (fun r => { r.put 31 (BitVec.ofNat 32 (r.pc.toNat + 3)) with delay := some (2, wordBits w 0 13) }) s)) ∧
  (∀ l t w s, Issues 0x36 l t w s → exec (.laneRet l) s = .next (issued l (fun r => { r with delay := some (2, r.d[(31 : Fin 32)].toNat % 8192) }) s)) ∧
  (∀ l t w s, Issues 0x37 l t w s → repCount w s.lanes.lane[l].regs ≠ 0 →
    exec (.laneRep l) s = .next (issued l (fun r => { r with rep := some (repCount w r) }) s)) ∧
  (∀ l t w s, Issues 0x38 l t w s → (endThread t (passStep l s)).lanes.lane[l].thread = none →
    exec (.laneEnd l) s = .next (onLaneRegs l (fun r => { r with issued := s.lanes.lane[l].regs.issued + 1, pc := r.pc + 1 })
      (endThread t (passStep l s)))) ∧
  (∀ l t w s, Issues 0x39 l t w s → exec (.laneMode l) s = .next (issued l (fun r => { r with
    sat := wordBits w 0 1 == 1, go := if wordBits w 1 1 = 1 then Vector.replicate 4 false else r.go,
    sx := r.sx && wordBits w 1 1 != 1, qs := r.qs && wordBits w 1 1 != 1 }) s)) ∧
  (∀ l t w s, Issues 0x3A l t w s → exec (.laneGetf l) s = .next (issued l (fun r => r.put (rd w) (BitVec.ofNat 32 (flagsWord r))) s))

/-- A step with the command c at the front of the queue is exec of c on the state with the rest of the queue. On an empty queue the
block idles for one TB tick (the model's choice, log entry 1): out of Reset SYS_TICK counts one tick and Lodge time 2 ns while
Lodge has its supply, strobes are then captured and a command that waited for its target is served. (95_what_each_step_holds.md,
00_scope.md, 05_register_access.md) -/
def Obligations.FrontCommandRuns : Prop :=
  (∀ c l s, s.pending = c :: l → step s = exec c { s with pending := l }) ∧
  (∀ s, s.pending = [] → step s = .next (idle s)) ∧
  (∀ s, s.pending = [] → s.sys.dev ≠ .reset → ∃ u, step s = .next (serveBlocked (captureStrobes u)) ∧
    u.sys.tick = s.sys.tick + 1 ∧ u.lodge.time = if s.lodge.st = .absent then s.lodge.time else s.lodge.time + 2)

/-- Whatever the command, its operands and the state, exec answers a next state (no command ends in a fault or a refusal of the
model), and the queue of waiting commands is the same after it. The command of an opcode on a request that is ready, whatever
TLVs it carries, answers the state in which the effect of that opcode is concluded: done, failed, refused or begun, with its
reply. (95_what_each_step_holds.md, 04_command_packets.md) -/
def Obligations.EveryCommandAnswersNext : Prop :=
  (∀ c s, ∃ t, exec c s = .next t ∧ t.pending = s.pending) ∧
  (∀ c o rq s, commandOf c = some (o, rq) → Ready o rq s → exec c s = .next (conclude o rq false (o.effect rq s) s))

/-- For every command and every block of the state (the register groups of each unit, the packet queues, the fault and event
records, the time bases, the lanes, the contents of SRAM, of every flash device and of every lane data memory among them): a
block that is not in the list of blocks the command may change is the same, field for field and byte for byte, after the
command. (04_command_packets.md, 05_register_access.md, 06_axis_slots_and_modes.md, 07_motion_planner.md, 09_loop_engine.md,
10_position_ports.md, 11_bridge_timer_array.md, 14_backbone_and_time.md, 15_safety_lodge.md, 19_acquisition.md,
20_dispatcher_and_lanes.md, 21_tallies_integrity_faults.md) -/
def Obligations.CommandFrames : Prop :=
  ∀ c s t b, exec c s = .next t → (changes c).contains b = false → b.same s t

/-- From every good state a step leads to a good state. Good: SRAM, every flash device and every lane data memory in canonical form;
inbox at most 8, outbox at most 16, at most 256 pending commands, 64 fault entries and 1,024 events; and in every Lodge state
other than Run every safe output is open and STO is held. (04_command_packets.md, 05_register_access.md, 15_safety_lodge.md,
18_serial_ports.md, 20_dispatcher_and_lanes.md, 21_tallies_integrity_faults.md) -/
def Obligations.GoodKept : Prop :=
  ∀ s t, s.Good → step s = .next t → t.Good

/-- After reset the state is good and its queue is empty; the device is in the ROM phase of Startup, Lodge unpowered; no opcode
class requires a tag and t_lead is 60 microseconds; the switch forwards on every port with VLAN 1 alone, every port an untagged
member, no gate lists, shaped classes or preemption, E2E one-step transparent clocks, instances of domains 0 and 20 on all ports
and not grandmaster-capable, time bases free-running from 0; every Position Port is in mode 0 with M = 2^32 - 1 and its speed
settings; every trip input active low with FILTER 0, every group with masks 0, overcurrent kind none and no blanking timer; the
Ruhity port is 0x5A7A. (04_command_packets.md, 10_position_ports.md, 11_bridge_timer_array.md, 14_backbone_and_time.md,
15_safety_lodge.md) -/
def Obligations.ResetLeaves : Prop :=
  State.reset.Good ∧ State.reset.pending = [] ∧ State.reset.sys.dev = .startup ∧ State.reset.sys.phase = 0 ∧ State.reset.lodge.st = .absent ∧
  State.reset.pkts.policy = 0 ∧ tLead State.reset = 60000 ∧ State.reset.net.udpPort = 0x5A7A ∧
  (∀ p : Fin 5, State.reset.net.port[p].state = 0 ∧ State.reset.net.port[p].pvid = 1 ∧ State.reset.net.port[p].pcp = 0 ∧
    State.reset.net.port[p].forced = false ∧ State.reset.net.port[p].preEnable = false ∧ State.reset.net.port[p].tcMode = 1 ∧
    State.reset.net.port[p].twoStep = false) ∧
  State.reset.net.vlans = [{ vid := 1, members := 0x1F, untagged := 0x1F }] ∧
  (∀ p : Fin 4, State.reset.net.gates[p].active = none ∧ State.reset.net.gates[p].next = none) ∧
  (∀ c : Fin 8, State.reset.net.cbs[c].cls = none) ∧
  State.reset.net.ptp[0].domain = 0 ∧ State.reset.net.ptp[1].domain = 20 ∧
  (∀ i : Fin 2, State.reset.net.ptp[i].ports = 0xF ∧ State.reset.net.ptp[i].gmCapable = false) ∧
  (∀ b : Fin 4, State.reset.net.tb[b].mode = 0 ∧ State.reset.net.tb[b].val = 0 ∧ State.reset.net.tb[b].rate = 0) ∧
  (∀ p : Fin 32, State.reset.ports.port[p].mode = 0 ∧ State.reset.ports.port[p].cfg.modulus = 2 ^ 32 - 1 ∧
    State.reset.ports.port[p].cfg.timeoutMs = 10 ∧ State.reset.ports.port[p].cfg.periodEdges = 4 ∧
    State.reset.ports.port[p].cfg.tw = 1000 ∧ State.reset.ports.port[p].cfg.vLo = 20000 * 2 ^ 24 ∧
    State.reset.ports.port[p].cfg.vHi = 80000 * 2 ^ 24) ∧
  (∀ k : Fin 16, State.reset.bta.trip[k].activeHigh = false ∧ State.reset.bta.trip[k].filter = 0) ∧
  (∀ g : Fin 32, State.reset.bta.grp[g].extMask = 0 ∧ State.reset.bta.grp[g].cycMask = 0 ∧ State.reset.bta.grp[g].ocKind = 2 ∧
    State.reset.bta.grp[g].blk = none)

/-- A write of a word that passes its checks to a word of SRAM that is not poisoned leaves at its four addresses the bytes of the
word, least significant first, and every other byte of SRAM as it was, so that the word read there is the word written. The lane
store does the same in the data memory of its lane and leaves those of the other lanes. A programmed page: each byte that was
programmed is the AND of what it was and what was written, every other byte of the device as it was, and an erased range reads
0xFF. (00_scope.md, 05_register_access.md, 18_serial_ports.md, 20_dispatcher_and_lanes.md) -/
def Obligations.MemoriesReadBack : Prop :=
  (∀ c a w s t, s.integ.Ok → contextDead c s = false → a < 0x1800000 → check c false true a 4 s = .pass → poisonedAt a s = false →
    exec (.registerWrite c a 4 w) s = .next t →
    (∀ k, k < 4 → cellRead 0 (a + k) t.integ.sram = (w >>> (8 * k)).setWidth 8) ∧
    (∀ x, x < a ∨ a + 4 ≤ x → cellRead 0 x t.integ.sram = cellRead 0 x s.integ.sram) ∧
    wordAt 0 a t.integ.sram = w) ∧
  (∀ l a w s, s.lanes.Ok → a % 4 = 0 → a < 0x18000 → poisonedAt (laneDataAddr l a) s = false → ∃ t, laneWrite l a w s = .ok t ∧
    (∀ k, k < 4 → cellRead 0 (a + k) t.lanes.lane[l].data = (w >>> (8 * k)).setWidth 8) ∧
    (∀ x, x < a ∨ a + 4 ≤ x → cellRead 0 x t.lanes.lane[l].data = cellRead 0 x s.lanes.lane[l].data) ∧
    ∀ j, j ≠ l → t.lanes.lane[j].data = s.lanes.lane[j].data) ∧
  (∀ a bs m, Memory.wf 0xFF m = true →
    (∀ k, k < bs.length → cellRead 0xFF (a + k) (programBytes a bs m) = bs.getD k 0 &&& cellRead 0xFF (a + k) m) ∧
    (∀ x, x < a ∨ a + bs.length ≤ x → cellRead 0xFF x (programBytes a bs m) = cellRead 0xFF x m)) ∧
  (∀ a n x m, Memory.wf 0xFF m = true →
    cellRead 0xFF x (eraseRange a n m) = if a ≤ x ∧ x < a + n then 0xFF else cellRead 0xFF x m)

/-- A request that does not wait for its target and is refused, by steps 7 to 12 of the order of checks, by its own step-13 checks,
or because 256 commands are pending: its command answers a next state in which every block but the packet queues is the same,
and of these the pending commands, those under way and those that wait, the inbox, the keys, the policy and the challenge. A
request that passes steps 7 to 12 and needs an access the permission table of Gardener refuses is answered DENIED, timed or not,
and the PERMISSION event of that access is its only other effect; one without a time-of-effect whose accesses are all granted is
carried out. (04_command_packets.md) -/
def Obligations.RefusalsLeaveNoEffect : Prop :=
  ∀ c o rq s, commandOf c = some (o, rq) → targetBusy o.opcode rq s = false → s.pkts.blocked.any (waitsBehind o.opcode rq) = false →
    ((((∃ d, refusal o rq s = some d) ∨ (refusal o rq s = none ∧ forbidden o rq s = none ∧
        ((∃ d, o.effect rq s = .deny d) ∨ rq.toe ≠ 0 ∧ 256 ≤ s.pkts.pending.length))) →
      ∃ t, exec c s = .next t ∧ (∀ b : Block, b ≠ .pkts → b.same s t) ∧ t.pkts.pending = s.pkts.pending ∧
        t.pkts.executing = s.pkts.executing ∧ t.pkts.blocked = s.pkts.blocked ∧ t.pkts.inbox = s.pkts.inbox ∧
        t.pkts.keys = s.pkts.keys ∧ t.pkts.policy = s.pkts.policy ∧ t.pkts.challenge = s.pkts.challenge) ∧
    (refusal o rq s = none → rq.toe = 0 ∨ (forbidden o rq s).isSome = true → exec c s = .next (match forbidden o rq s with
      | some a => sendReply o.opcode rq .denied [] false (noteForbidden a s)
      | none => conclude o rq false (o.effect rq s) s)))

/-- Awake, served and with the reference present: a datagram that passes steps 1 to 4 without a tag, from a source whose window has
seen its sequence with the same opcode and tag and holds a reply to it, changes no block but the packet queues and neither the
pending commands nor those under way or waiting; unless NOREPLY suppresses a DONE or ACCEPTED, the cached reply is sent once
more with REPEATED set. (04_command_packets.md) -/
def Obligations.DuplicatesExecuteNothing : Prop :=
  ∀ src p s w e r, src ≠ .hostPort → ruhityServed s = true → asleep s = false → s.power.refLost = false → s.sys.dev ≠ .reset →
    (s.sys.dev = .startup → s.boot.haltCause = 3) →
    lockedOut src s = false → 24 ≤ p.length → pktField p 0 2 = 0x4B5A → pktFlag p 1 = false → pktField p 2 1 = 1 →
    pktField p 12 2 ≤ 1432 → pktLength p = p.length → pktFlag p 0 = false → pktFlag p 3 = false →
    windowOf src s = some w → (w.h - BitVec.ofNat 32 (pktField p 4 4)).toNat ≤ 63 →
    w.seen.find? (fun e => e.seq == BitVec.ofNat 32 (pktField p 4 4)) = some e → e.opcode = pktField p 8 2 →
    e.tag = BitVec.ofNat 16 (pktField p 14 2) → e.reply = some r →
    ∃ t, exec (.ruhityDatagram src false false true p) s = .next t ∧ (∀ b : Block, b ≠ .pkts → b.same s t) ∧
      t.pkts.pending = s.pkts.pending ∧ t.pkts.executing = s.pkts.executing ∧ t.pkts.blocked = s.pkts.blocked ∧
      t.pkts.outbox = s.pkts.outbox ∧
      t.pkts.udpOut = if pktFlag p 2 && goodReply r then s.pkts.udpOut
        else s.pkts.udpOut ++ [{ dst := src, bytes := sealed (repeated r) s }]

/-- Awake, served and with the reference present, by its first reason of: a fragment; a checksum that does not verify;
authentication lock-out of its source; too short (below 24 bytes); wrong magic; REPLY set; broadcast of an opcode other than
PING and GET_INFO. The datagram, or for the reasons that apply to it the oldest Host Port packet, adds 1 to that count of the
received-frame tally and changes nothing else (the Host Port packet leaves the inbox). (R76) -/
def Obligations.DroppedPacketsAreCounted : Prop :=
  (∀ src b k p s, src ≠ .hostPort → ruhityServed s = true → asleep s = false → s.power.refLost = false → s.sys.dev ≠ .reset →
    (s.sys.dev = .startup → s.boot.haltCause = 3) →
    exec (.ruhityDatagram src b true k p) s = .next (s.onPkts fun x => { x with dropFragment := bump s.pkts.dropFragment 1 })) ∧
  (∀ src b p s, src ≠ .hostPort → ruhityServed s = true → asleep s = false → s.power.refLost = false → s.sys.dev ≠ .reset →
    (s.sys.dev = .startup → s.boot.haltCause = 3) →
    exec (.ruhityDatagram src b false false p) s = .next (s.onPkts fun x => { x with dropChecksum := bump s.pkts.dropChecksum 1 })) ∧
  (∀ src b p s, src ≠ .hostPort → ruhityServed s = true → asleep s = false → s.power.refLost = false → s.sys.dev ≠ .reset →
    (s.sys.dev = .startup → s.boot.haltCause = 3) → lockedOut src s = true →
    exec (.ruhityDatagram src b false true p) s = .next (s.onPkts fun x => { x with dropLockout := bump s.pkts.dropLockout 1 })) ∧
  (∀ src b p s, src ≠ .hostPort → ruhityServed s = true → asleep s = false → s.power.refLost = false → s.sys.dev ≠ .reset →
    (s.sys.dev = .startup → s.boot.haltCause = 3) → lockedOut src s = false → p.length < 24 →
    exec (.ruhityDatagram src b false true p) s = .next (s.onPkts fun x => { x with dropShort := bump s.pkts.dropShort 1 })) ∧
  (∀ src b p s, src ≠ .hostPort → ruhityServed s = true → asleep s = false → s.power.refLost = false → s.sys.dev ≠ .reset →
    (s.sys.dev = .startup → s.boot.haltCause = 3) → lockedOut src s = false → 24 ≤ p.length → pktField p 0 2 ≠ 0x4B5A →
    exec (.ruhityDatagram src b false true p) s = .next (s.onPkts fun x => { x with dropMagic := bump s.pkts.dropMagic 1 })) ∧
  (∀ src b p s, src ≠ .hostPort → ruhityServed s = true → asleep s = false → s.power.refLost = false → s.sys.dev ≠ .reset →
    (s.sys.dev = .startup → s.boot.haltCause = 3) → lockedOut src s = false → 24 ≤ p.length → pktField p 0 2 = 0x4B5A → pktFlag p 1 = true →
    exec (.ruhityDatagram src b false true p) s = .next (s.onPkts fun x => { x with dropReply := bump s.pkts.dropReply 1 })) ∧
  (∀ src p s, src ≠ .hostPort → ruhityServed s = true → asleep s = false → s.power.refLost = false → s.sys.dev ≠ .reset →
    (s.sys.dev = .startup → s.boot.haltCause = 3) → lockedOut src s = false → 24 ≤ p.length → pktField p 0 2 = 0x4B5A → pktFlag p 1 = false →
    pktField p 8 2 ≠ 1 → pktField p 8 2 ≠ 2 →
    exec (.ruhityDatagram src true false true p) s = .next (s.onPkts fun x => { x with dropBroadcast := bump s.pkts.dropBroadcast 1 })) ∧
  (∀ t p l s, s.pkts.inbox = (t, p) :: l → ruhityServed s = true → asleep s = false → s.pkts.outbox.length < 16 → s.serial.held = [] →
    (lockedOut .hostPort s = true → exec .inboxTake s = .next (s.onPkts fun x => { x with
      inbox := l, dropLockout := bump s.pkts.dropLockout 1 })) ∧
    (lockedOut .hostPort s = false → p.length < 24 → exec .inboxTake s = .next (s.onPkts fun x => { x with
      inbox := l, dropShort := bump s.pkts.dropShort 1 })) ∧
    (lockedOut .hostPort s = false → 24 ≤ p.length → pktField p 0 2 ≠ 0x4B5A → exec .inboxTake s = .next (s.onPkts fun x => { x with
      inbox := l, dropMagic := bump s.pkts.dropMagic 1 })) ∧
    (lockedOut .hostPort s = false → 24 ≤ p.length → pktField p 0 2 = 0x4B5A → pktFlag p 1 = true →
      exec .inboxTake s = .next (s.onPkts fun x => { x with inbox := l, dropReply := bump s.pkts.dropReply 1 })))

/-- Out of Reset, an 8-bit or 16-bit access of any context (of context 0 while Keeper's core runs), or an access whose address is
not a multiple of 4: a read delivers 0, a write is dropped, and either is recorded as an access error of that context with cause
SIZE (code 2): its address, its direction, one more in its count, which saturates. Nothing else changes. (R100) -/
def Obligations.WrongSizesAreErrors : Prop :=
  (∀ c a n v s, contextDead c s = false → (n = 1 ∨ n = 2 ∨ a % 4 ≠ 0) →
    exec (.rcRegisterRead c a n) s = .next (onCtx c (fun k => { k with
      errAddr := BitVec.ofNat 32 a, errCause := 2, errWrite := false, readData := 0
      errCount := if k.errCount = 0xFFFF then k.errCount else k.errCount + 1 }) s) ∧
    exec (.registerWrite c a n v) s = .next (onCtx c (fun k => { k with
      errAddr := BitVec.ofNat 32 a, errCause := 2, errWrite := true
      errCount := if k.errCount = 0xFFFF then k.errCount else k.errCount + 1 }) s)) ∧
  (∀ c a v s, contextDead c s = false → a % 4 ≠ 0 →
    exec (.wideLowRead c a) s = exec (.rcRegisterRead c a 4) s ∧ exec (.wideHighRead c a) s = exec (.rcRegisterRead c a 4) s ∧
    exec (.xipRead c a) s = exec (.rcRegisterRead c a 4) s ∧ exec (.wideLowWrite c a v) s = exec (.registerWrite c a 4 v) s ∧
    exec (.wideHighWrite c a v) s = exec (.registerWrite c a 4 v) s ∧ exec (.xipWrite c a v) s = exec (.registerWrite c a 4 v) s)

/-- Whichever access a context makes (a direct read or write of any register or window word, an access through its indirect pair, a
strobe, an output write, the time-out of one), every other context is left as it was: IND_ADDR, IND_CTRL, its latches, its
snapshot and the rest. Out of Reset (and of context 0 while Keeper's core runs) a write of IND_ADDR sets the address of its own
context, and a read of IND_ADDR or IND_CTRL delivers its own context's, where the permission table lets it. (R102) -/
def Obligations.ContextsAreIsolated : Prop :=
  (∀ c d s t, d ≠ c → ((∃ a n, exec (.rcRegisterRead c a n) s = .next t) ∨ (∃ a n v, exec (.registerWrite c a n v) s = .next t) ∨
      (∃ a, exec (.wideLowRead c a) s = .next t ∨ exec (.wideHighRead c a) s = .next t ∨ exec (.xipRead c a) s = .next t) ∨
      (∃ a v, exec (.wideLowWrite c a v) s = .next t ∨ exec (.wideHighWrite c a v) s = .next t ∨ exec (.xipWrite c a v) s = .next t) ∨
      exec (.indDataRead c) s = .next t ∨
      (∃ v, exec (.indDataWrite c v) s = .next t ∨ exec (.indAddrWrite c v) s = .next t ∨ exec (.indCtrlWrite c v) s = .next t ∨
        exec (.updStrobeWrite c v) s = .next t) ∨
      exec (.indAccessTimeout c) s = .next t ∨ exec (.xipReadTimeout c) s = .next t ∨ (∃ g v, exec (.fioDoWrite c g v) s = .next t)) →
    t.sys.ctx[d] = s.sys.ctx[d]) ∧
  (∀ c v s, contextDead c s = false → ∃ t, exec (.indAddrWrite c v) s = .next t ∧
    t.sys.ctx[c].indAddr = v &&& 0xFFFFFFFC ∧ t.sys.ctx[c].snapshot = none) ∧
  (∀ c s, contextDead c s = false → votedAt 0x40000100 s = false → mayAccess c false 0x40000100 s = true →
    ∃ t, exec (.rcRegisterRead c 0x40000100 4) s = .next t ∧ t.sys.ctx[c].readData = s.sys.ctx[c].indAddr) ∧
  (∀ c s, contextDead c s = false → votedAt 0x40000108 s = false → mayAccess c false 0x40000108 s = true →
    ∃ t, exec (.rcRegisterRead c 0x40000108 4) s = .next t ∧ t.sys.ctx[c].readData = indCtrl s.sys.ctx[c])

/-- Out of Reset, awake and with the reference present, of a WRITE frame with a proper ADDR and LEN: released early, it writes
nothing and ends SHORT. At a release after its last byte every word is checked against the host permission table and the memory
map; if one fails, no word is written, the frame ends DENIED and the access error or PERMISSION event of the first failing word
is raised; otherwise the words are written in ascending address order, each as one access of the host context, and the frame
ends OK or EXTRA. (R407) -/
def Obligations.WriteFramesAreAllOrNothing : Prop :=
  (∀ addr ws n s, s.sys.dev ≠ .reset → s.power.refLost = false → asleep s = false → addr % 4 = 0 → 1 ≤ ws.length → ws.length ≤ 256 →
    exec (.sphWriteFrame addr ws (.short n)) s = .next (frameResult 1 0 s)) ∧
  (∀ addr ws fin n s, (fin = .whole ∧ n = 0 ∨ fin = .extra n) → s.sys.dev ≠ .reset → s.power.refLost = false → asleep s = false → addr % 4 = 0 →
    1 ≤ ws.length → ws.length ≤ 256 →
    ((∀ k, k < ws.length → wordDenied (addr + 4 * k) s = false) →
      exec (.sphWriteFrame addr ws fin) s = .next (frameResult (if n = 0 then 0 else 2) n
        (ws.zipIdx.foldl (fun u e => accessWrite hostCtx (addr + 4 * e.2) 4 e.1 u) s))) ∧
    (∀ k, k < ws.length → (∀ j, j < k → wordDenied (addr + 4 * j) s = false) → wordDenied (addr + 4 * k) s = true →
      exec (.sphWriteFrame addr ws fin) s =
        .next (frameResult 4 0 (failCheck hostCtx (check hostCtx false true (addr + 4 * k) 4 s) true (addr + 4 * k) s))))

/-- Out of Reset, awake and with the reference present: a PACKET_IN frame of 24 to 1,472 bytes that ends OK or EXTRA puts its packet
at the end of an inbox that has room. A PACKET_OUT frame of even LEN carries the length L of the oldest reply (0 when the outbox
is empty), its first LEN - 2 bytes and zeros; it removes the reply only if it ends OK or EXTRA and LEN - 2 is at least L.
Otherwise, and whenever it ends SHORT, the reply stays. (R409) -/
def Obligations.PacketFrames : Prop :=
  (∀ b fin n s, (fin = .whole ∧ n = 0 ∨ fin = .extra n) → s.sys.dev ≠ .reset → s.power.refLost = false → asleep s = false → 24 ≤ b.length → b.length ≤ 1472 →
    s.pkts.inbox.length < 8 → exec (.sphPacketIn b fin) s = .next (frameResult (if n = 0 then 0 else 2) n
      (s.onPkts fun k => { k with inbox := s.pkts.inbox ++ [(s.tb0, b)] }))) ∧
  (∀ len fin n s p, (fin = .whole ∧ n = 0 ∨ fin = .extra n) → s.sys.dev ≠ .reset → s.power.refLost = false → asleep s = false → 2 ≤ len → len ≤ 1474 → len % 2 = 0 →
    p = s.pkts.outbox.headD [] → ∃ t, exec (.sphPacketOut len fin) s = .next t ∧
      t.serial.sphPacket = (be 2 p.length ++ p.take (len - 2) ++ List.replicate len 0).take len ∧
      t.serial.last = (if n = 0 then 0 else 2) ∧ t.pkts.inbox = s.pkts.inbox ∧
      (p.length ≤ len - 2 → s.pkts.outbox ≠ [] → t.pkts.outbox = s.pkts.outbox.drop 1 ++ s.pkts.waiting.take 1) ∧
      (len - 2 < p.length ∨ s.pkts.outbox = [] → t.pkts = s.pkts)) ∧
  (∀ len m s, s.sys.dev ≠ .reset → s.power.refLost = false → asleep s = false → 2 ≤ len → len ≤ 1474 → len % 2 = 0 →
    exec (.sphPacketOut len (.short m)) s = .next (frameResult 1 0 s))
end

