-- ==== Sys2Proof/Laws/Memory.lean ====
section
/-! SUPPORT.
Byte memories: every operation keeps the canonical form, a read after a write gives what was written, and a write leaves every
other byte alone. -/

namespace Sys2Proof.Machine

theorem cellsFrom_mono {d : Byte} {lo hi : Nat} {m : List Host.Cell} (h : lo ≤ hi) (hm : cellsFrom d hi m = true) :
    cellsFrom d lo m = true := by
  cases m with
  | nil => rfl
  | cons c m =>
    simp only [cellsFrom, Bool.and_eq_true, decide_eq_true_eq] at hm ⊢
    exact ⟨⟨Nat.le_trans h hm.1.1, hm.1.2⟩, hm.2⟩

theorem cellWrite_from {d : Byte} {a : Nat} {b : Byte} {m : List Host.Cell} {lo : Nat} (h : lo ≤ a) (hm : cellsFrom d lo m = true) :
    cellsFrom d lo (cellWrite d a b m) = true := by
  induction m generalizing lo with
  | nil => by_cases e : b = d <;> simp [cellWrite, cellsFrom, e, h]
  | cons c m ih =>
    simp only [cellsFrom, Bool.and_eq_true, decide_eq_true_eq] at hm
    obtain ⟨⟨h1, h2⟩, h3⟩ := hm
    unfold cellWrite
    by_cases e : c.1 = a
    · by_cases e2 : b = d
      · simpa [e, e2] using cellsFrom_mono (by omega) h3
      · simp only [e, e2, if_true, if_false, cellsFrom, Bool.and_eq_true, decide_eq_true_eq]
        exact ⟨⟨h, e2⟩, by simpa [e] using h3⟩
    · by_cases l : a < c.1
      · by_cases e2 : b = d
        · simp [e, l, e2, cellsFrom, h1, h2, h3]
        · simp only [e, l, e2, if_true, if_false, cellsFrom, Bool.and_eq_true, decide_eq_true_eq]
          exact ⟨⟨h, e2⟩, ⟨by omega, h2⟩, h3⟩
      · simp only [e, l, if_false, cellsFrom, Bool.and_eq_true, decide_eq_true_eq]
        exact ⟨⟨h1, h2⟩, ih (by omega) h3⟩

theorem cellWrite_wf {d : Byte} {a : Nat} {b : Byte} {m : List Host.Cell} (h : Memory.wf d m = true) :
    Memory.wf d (cellWrite d a b m) = true := cellWrite_from (Nat.zero_le a) h

theorem cellsWrite_wf {d : Byte} {a : Nat} {bs : List Byte} {m : List Host.Cell} (h : Memory.wf d m = true) :
    Memory.wf d (cellsWrite d a bs m) = true := by
  induction bs generalizing a m with
  | nil => exact h
  | cons b bs ih => exact ih (cellWrite_wf h)

theorem wordPut_wf {d : Byte} {a : Nat} {w : Word} {m : List Host.Cell} (h : Memory.wf d m = true) :
    Memory.wf d (wordPut d a w m) = true := cellsWrite_wf h

theorem filter_from {d : Byte} {p : Host.Cell → Bool} {m : List Host.Cell} {lo : Nat} (hm : cellsFrom d lo m = true) :
    cellsFrom d lo (m.filter p) = true := by
  induction m generalizing lo with
  | nil => rfl
  | cons c m ih =>
    simp only [cellsFrom, Bool.and_eq_true, decide_eq_true_eq] at hm
    by_cases e : p c = true
    · rw [List.filter_cons_of_pos e]
      simp only [cellsFrom, Bool.and_eq_true, decide_eq_true_eq]
      exact ⟨hm.1, ih hm.2⟩
    · rw [List.filter_cons_of_neg e]
      exact cellsFrom_mono (by omega) (ih hm.2)

theorem eraseRange_wf {a n : Nat} {m : List Host.Cell} (h : Memory.wf 0xFF m = true) : Memory.wf 0xFF (eraseRange a n m) = true :=
  filter_from h

theorem programBytes_wf {a : Nat} {bs : List Byte} {m : List Host.Cell} (h : Memory.wf 0xFF m = true) :
    Memory.wf 0xFF (programBytes a bs m) = true := cellsWrite_wf h

theorem foldl_wf {α : Type} {d : Byte} {f : List Host.Cell → α → List Host.Cell}
    (hf : ∀ m x, Memory.wf d m = true → Memory.wf d (f m x) = true) {l : List α} {m : List Host.Cell} (h : Memory.wf d m = true) :
    Memory.wf d (l.foldl f m) = true := by
  induction l generalizing m with
  | nil => exact h
  | cons x l ih => exact ih (hf m x h)

theorem programWords_wf {ws : List (Nat × Word)} {m : List Host.Cell} (h : Memory.wf 0xFF m = true) :
    Memory.wf 0xFF (programWords ws m) = true := foldl_wf (fun _ _ h => programBytes_wf h) h

theorem spoiled_wf {k : Nat} {x : SpmSel} (h : Memory.wf 0xFF x.flash = true) : Memory.wf 0xFF (spoiled k x) = true := by
  unfold spoiled
  dsimp only
  split
  · exact foldl_wf (fun _ _ h => cellWrite_wf h) h
  · exact foldl_wf (fun _ _ h => programBytes_wf h) h

theorem chooseSlot_wf {k : Nat} {s : State} (h : Memory.wf 0xFF (bootFlash s) = true) :
    Memory.wf 0xFF (chooseSlot k s).flash = true := by
  have hm : ∀ l : List Nat, ∀ f : Nat → Nat, Memory.wf 0xFF (l.foldl (fun m n => programBytes (f n) [0] m) (bootFlash s)) = true :=
    fun l f => foldl_wf (fun _ _ h => programBytes_wf h) h
  unfold chooseSlot
  dsimp only
  split
  · exact programBytes_wf (hm _ _)
  · exact hm _ _

/-- Nothing listed below the bound: the byte there is the default. -/
theorem cellRead_below {d : Byte} {a lo : Nat} {m : List Host.Cell} (h : a < lo) (hm : cellsFrom d lo m = true) :
    cellRead d a m = d := by
  cases m with
  | nil => rfl
  | cons c m =>
    simp only [cellsFrom, Bool.and_eq_true, decide_eq_true_eq] at hm
    simp [cellRead, show c.1 ≠ a by omega, show a < c.1 by omega]

theorem cellRead_write_same {d : Byte} {a : Nat} {b : Byte} {m : List Host.Cell} {lo : Nat} (hm : cellsFrom d lo m = true) :
    cellRead d a (cellWrite d a b m) = b := by
  induction m generalizing lo with
  | nil => by_cases e : b = d <;> simp [cellWrite, cellRead, e]
  | cons c m ih =>
    simp only [cellsFrom, Bool.and_eq_true, decide_eq_true_eq] at hm
    obtain ⟨_, h3⟩ := hm
    unfold cellWrite
    by_cases e : c.1 = a
    · by_cases e2 : b = d
      · simpa [e, e2] using cellRead_below (by omega) h3
      · simp [e, e2, cellRead]
    · by_cases l : a < c.1
      · by_cases e2 : b = d <;> simp [e, l, e2, cellRead]
      · simpa [e, l, cellRead] using ih h3

theorem cellRead_write_other {d : Byte} {a x : Nat} {b : Byte} {m : List Host.Cell} {lo : Nat} (hm : cellsFrom d lo m = true)
    (hx : x ≠ a) : cellRead d x (cellWrite d a b m) = cellRead d x m := by
  induction m generalizing lo with
  | nil =>
    by_cases e : b = d
    · simp [cellWrite, e]
    · simp [cellWrite, cellRead, e, hx.symm]
  | cons c m ih =>
    simp only [cellsFrom, Bool.and_eq_true, decide_eq_true_eq] at hm
    obtain ⟨_, h3⟩ := hm
    unfold cellWrite
    by_cases e : c.1 = a
    · by_cases e2 : b = d
      · by_cases l : x < c.1
        · simp [e, e2, cellRead, hx.symm, show x < a by omega, cellRead_below (show x < c.1 + 1 by omega) h3]
        · simp [e, e2, cellRead, hx.symm, show ¬x < a by omega]
      · simp [e, e2, cellRead, hx.symm]
    · by_cases l : a < c.1
      · by_cases e2 : b = d
        · simp [e, l, e2]
        · by_cases l2 : x < a
          · simp [e, l, e2, cellRead, hx.symm, l2, show c.1 ≠ x by omega, show x < c.1 by omega]
          · simp [e, l, e2, cellRead, hx.symm, l2]
      · simp [e, l, cellRead, ih h3]

end Sys2Proof.Machine
end

