-- ==== Sys2Proof/Laws/State.lean ====
section
/-! SUPPORT.
One lemma for each block and each block change: what the change leaves. -/

namespace Sys2Proof.Machine

variable (s : State)

@[simp] theorem State.onSys_sys (f : Sys → Sys) : (s.onSys f).sys = f s.sys := rfl
@[simp] theorem State.onSys_power (f : Sys → Sys) : (s.onSys f).power = s.power := rfl
@[simp] theorem State.onSys_boot (f : Sys → Sys) : (s.onSys f).boot = s.boot := rfl
@[simp] theorem State.onSys_pkts (f : Sys → Sys) : (s.onSys f).pkts = s.pkts := rfl
@[simp] theorem State.onSys_integ (f : Sys → Sys) : (s.onSys f).integ = s.integ := rfl
@[simp] theorem State.onSys_axis (f : Sys → Sys) : (s.onSys f).axis = s.axis := rfl
@[simp] theorem State.onSys_plan (f : Sys → Sys) : (s.onSys f).plan = s.plan := rfl
@[simp] theorem State.onSys_gear (f : Sys → Sys) : (s.onSys f).gear = s.gear := rfl
@[simp] theorem State.onSys_loop (f : Sys → Sys) : (s.onSys f).loop = s.loop := rfl
@[simp] theorem State.onSys_ports (f : Sys → Sys) : (s.onSys f).ports = s.ports := rfl
@[simp] theorem State.onSys_bta (f : Sys → Sys) : (s.onSys f).bta = s.bta := rfl
@[simp] theorem State.onSys_stepper (f : Sys → Sys) : (s.onSys f).stepper = s.stepper := rfl
@[simp] theorem State.onSys_bricks (f : Sys → Sys) : (s.onSys f).bricks = s.bricks := rfl
@[simp] theorem State.onSys_net (f : Sys → Sys) : (s.onSys f).net = s.net := rfl
@[simp] theorem State.onSys_lodge (f : Sys → Sys) : (s.onSys f).lodge = s.lodge := rfl
@[simp] theorem State.onSys_fio (f : Sys → Sys) : (s.onSys f).fio = s.fio := rfl
@[simp] theorem State.onSys_can (f : Sys → Sys) : (s.onSys f).can = s.can := rfl
@[simp] theorem State.onSys_serial (f : Sys → Sys) : (s.onSys f).serial = s.serial := rfl
@[simp] theorem State.onSys_acq (f : Sys → Sys) : (s.onSys f).acq = s.acq := rfl
@[simp] theorem State.onSys_lanes (f : Sys → Sys) : (s.onSys f).lanes = s.lanes := rfl
@[simp] theorem State.onSys_store (f : Sys → Sys) : (s.onSys f).store = s.store := rfl
@[simp] theorem State.onSys_pending (f : Sys → Sys) : (s.onSys f).pending = s.pending := rfl
@[simp] theorem State.onPower_sys (f : Power → Power) : (s.onPower f).sys = s.sys := rfl
@[simp] theorem State.onPower_power (f : Power → Power) : (s.onPower f).power = f s.power := rfl
@[simp] theorem State.onPower_boot (f : Power → Power) : (s.onPower f).boot = s.boot := rfl
@[simp] theorem State.onPower_pkts (f : Power → Power) : (s.onPower f).pkts = s.pkts := rfl
@[simp] theorem State.onPower_integ (f : Power → Power) : (s.onPower f).integ = s.integ := rfl
@[simp] theorem State.onPower_axis (f : Power → Power) : (s.onPower f).axis = s.axis := rfl
@[simp] theorem State.onPower_plan (f : Power → Power) : (s.onPower f).plan = s.plan := rfl
@[simp] theorem State.onPower_gear (f : Power → Power) : (s.onPower f).gear = s.gear := rfl
@[simp] theorem State.onPower_loop (f : Power → Power) : (s.onPower f).loop = s.loop := rfl
@[simp] theorem State.onPower_ports (f : Power → Power) : (s.onPower f).ports = s.ports := rfl
@[simp] theorem State.onPower_bta (f : Power → Power) : (s.onPower f).bta = s.bta := rfl
@[simp] theorem State.onPower_stepper (f : Power → Power) : (s.onPower f).stepper = s.stepper := rfl
@[simp] theorem State.onPower_bricks (f : Power → Power) : (s.onPower f).bricks = s.bricks := rfl
@[simp] theorem State.onPower_net (f : Power → Power) : (s.onPower f).net = s.net := rfl
@[simp] theorem State.onPower_lodge (f : Power → Power) : (s.onPower f).lodge = s.lodge := rfl
@[simp] theorem State.onPower_fio (f : Power → Power) : (s.onPower f).fio = s.fio := rfl
@[simp] theorem State.onPower_can (f : Power → Power) : (s.onPower f).can = s.can := rfl
@[simp] theorem State.onPower_serial (f : Power → Power) : (s.onPower f).serial = s.serial := rfl
@[simp] theorem State.onPower_acq (f : Power → Power) : (s.onPower f).acq = s.acq := rfl
@[simp] theorem State.onPower_lanes (f : Power → Power) : (s.onPower f).lanes = s.lanes := rfl
@[simp] theorem State.onPower_store (f : Power → Power) : (s.onPower f).store = s.store := rfl
@[simp] theorem State.onPower_pending (f : Power → Power) : (s.onPower f).pending = s.pending := rfl
@[simp] theorem State.onBoot_sys (f : Boot → Boot) : (s.onBoot f).sys = s.sys := rfl
@[simp] theorem State.onBoot_power (f : Boot → Boot) : (s.onBoot f).power = s.power := rfl
@[simp] theorem State.onBoot_boot (f : Boot → Boot) : (s.onBoot f).boot = f s.boot := rfl
@[simp] theorem State.onBoot_pkts (f : Boot → Boot) : (s.onBoot f).pkts = s.pkts := rfl
@[simp] theorem State.onBoot_integ (f : Boot → Boot) : (s.onBoot f).integ = s.integ := rfl
@[simp] theorem State.onBoot_axis (f : Boot → Boot) : (s.onBoot f).axis = s.axis := rfl
@[simp] theorem State.onBoot_plan (f : Boot → Boot) : (s.onBoot f).plan = s.plan := rfl
@[simp] theorem State.onBoot_gear (f : Boot → Boot) : (s.onBoot f).gear = s.gear := rfl
@[simp] theorem State.onBoot_loop (f : Boot → Boot) : (s.onBoot f).loop = s.loop := rfl
@[simp] theorem State.onBoot_ports (f : Boot → Boot) : (s.onBoot f).ports = s.ports := rfl
@[simp] theorem State.onBoot_bta (f : Boot → Boot) : (s.onBoot f).bta = s.bta := rfl
@[simp] theorem State.onBoot_stepper (f : Boot → Boot) : (s.onBoot f).stepper = s.stepper := rfl
@[simp] theorem State.onBoot_bricks (f : Boot → Boot) : (s.onBoot f).bricks = s.bricks := rfl
@[simp] theorem State.onBoot_net (f : Boot → Boot) : (s.onBoot f).net = s.net := rfl
@[simp] theorem State.onBoot_lodge (f : Boot → Boot) : (s.onBoot f).lodge = s.lodge := rfl
@[simp] theorem State.onBoot_fio (f : Boot → Boot) : (s.onBoot f).fio = s.fio := rfl
@[simp] theorem State.onBoot_can (f : Boot → Boot) : (s.onBoot f).can = s.can := rfl
@[simp] theorem State.onBoot_serial (f : Boot → Boot) : (s.onBoot f).serial = s.serial := rfl
@[simp] theorem State.onBoot_acq (f : Boot → Boot) : (s.onBoot f).acq = s.acq := rfl
@[simp] theorem State.onBoot_lanes (f : Boot → Boot) : (s.onBoot f).lanes = s.lanes := rfl
@[simp] theorem State.onBoot_store (f : Boot → Boot) : (s.onBoot f).store = s.store := rfl
@[simp] theorem State.onBoot_pending (f : Boot → Boot) : (s.onBoot f).pending = s.pending := rfl
@[simp] theorem State.onPkts_sys (f : Packets → Packets) : (s.onPkts f).sys = s.sys := rfl
@[simp] theorem State.onPkts_power (f : Packets → Packets) : (s.onPkts f).power = s.power := rfl
@[simp] theorem State.onPkts_boot (f : Packets → Packets) : (s.onPkts f).boot = s.boot := rfl
@[simp] theorem State.onPkts_pkts (f : Packets → Packets) : (s.onPkts f).pkts = f s.pkts := rfl
@[simp] theorem State.onPkts_integ (f : Packets → Packets) : (s.onPkts f).integ = s.integ := rfl
@[simp] theorem State.onPkts_axis (f : Packets → Packets) : (s.onPkts f).axis = s.axis := rfl
@[simp] theorem State.onPkts_plan (f : Packets → Packets) : (s.onPkts f).plan = s.plan := rfl
@[simp] theorem State.onPkts_gear (f : Packets → Packets) : (s.onPkts f).gear = s.gear := rfl
@[simp] theorem State.onPkts_loop (f : Packets → Packets) : (s.onPkts f).loop = s.loop := rfl
@[simp] theorem State.onPkts_ports (f : Packets → Packets) : (s.onPkts f).ports = s.ports := rfl
@[simp] theorem State.onPkts_bta (f : Packets → Packets) : (s.onPkts f).bta = s.bta := rfl
@[simp] theorem State.onPkts_stepper (f : Packets → Packets) : (s.onPkts f).stepper = s.stepper := rfl
@[simp] theorem State.onPkts_bricks (f : Packets → Packets) : (s.onPkts f).bricks = s.bricks := rfl
@[simp] theorem State.onPkts_net (f : Packets → Packets) : (s.onPkts f).net = s.net := rfl
@[simp] theorem State.onPkts_lodge (f : Packets → Packets) : (s.onPkts f).lodge = s.lodge := rfl
@[simp] theorem State.onPkts_fio (f : Packets → Packets) : (s.onPkts f).fio = s.fio := rfl
@[simp] theorem State.onPkts_can (f : Packets → Packets) : (s.onPkts f).can = s.can := rfl
@[simp] theorem State.onPkts_serial (f : Packets → Packets) : (s.onPkts f).serial = s.serial := rfl
@[simp] theorem State.onPkts_acq (f : Packets → Packets) : (s.onPkts f).acq = s.acq := rfl
@[simp] theorem State.onPkts_lanes (f : Packets → Packets) : (s.onPkts f).lanes = s.lanes := rfl
@[simp] theorem State.onPkts_store (f : Packets → Packets) : (s.onPkts f).store = s.store := rfl
@[simp] theorem State.onPkts_pending (f : Packets → Packets) : (s.onPkts f).pending = s.pending := rfl
@[simp] theorem State.onInteg_sys (f : Integrity → Integrity) : (s.onInteg f).sys = s.sys := rfl
@[simp] theorem State.onInteg_power (f : Integrity → Integrity) : (s.onInteg f).power = s.power := rfl
@[simp] theorem State.onInteg_boot (f : Integrity → Integrity) : (s.onInteg f).boot = s.boot := rfl
@[simp] theorem State.onInteg_pkts (f : Integrity → Integrity) : (s.onInteg f).pkts = s.pkts := rfl
@[simp] theorem State.onInteg_integ (f : Integrity → Integrity) : (s.onInteg f).integ = f s.integ := rfl
@[simp] theorem State.onInteg_axis (f : Integrity → Integrity) : (s.onInteg f).axis = s.axis := rfl
@[simp] theorem State.onInteg_plan (f : Integrity → Integrity) : (s.onInteg f).plan = s.plan := rfl
@[simp] theorem State.onInteg_gear (f : Integrity → Integrity) : (s.onInteg f).gear = s.gear := rfl
@[simp] theorem State.onInteg_loop (f : Integrity → Integrity) : (s.onInteg f).loop = s.loop := rfl
@[simp] theorem State.onInteg_ports (f : Integrity → Integrity) : (s.onInteg f).ports = s.ports := rfl
@[simp] theorem State.onInteg_bta (f : Integrity → Integrity) : (s.onInteg f).bta = s.bta := rfl
@[simp] theorem State.onInteg_stepper (f : Integrity → Integrity) : (s.onInteg f).stepper = s.stepper := rfl
@[simp] theorem State.onInteg_bricks (f : Integrity → Integrity) : (s.onInteg f).bricks = s.bricks := rfl
@[simp] theorem State.onInteg_net (f : Integrity → Integrity) : (s.onInteg f).net = s.net := rfl
@[simp] theorem State.onInteg_lodge (f : Integrity → Integrity) : (s.onInteg f).lodge = s.lodge := rfl
@[simp] theorem State.onInteg_fio (f : Integrity → Integrity) : (s.onInteg f).fio = s.fio := rfl
@[simp] theorem State.onInteg_can (f : Integrity → Integrity) : (s.onInteg f).can = s.can := rfl
@[simp] theorem State.onInteg_serial (f : Integrity → Integrity) : (s.onInteg f).serial = s.serial := rfl
@[simp] theorem State.onInteg_acq (f : Integrity → Integrity) : (s.onInteg f).acq = s.acq := rfl
@[simp] theorem State.onInteg_lanes (f : Integrity → Integrity) : (s.onInteg f).lanes = s.lanes := rfl
@[simp] theorem State.onInteg_store (f : Integrity → Integrity) : (s.onInteg f).store = s.store := rfl
@[simp] theorem State.onInteg_pending (f : Integrity → Integrity) : (s.onInteg f).pending = s.pending := rfl
@[simp] theorem State.onAxis_sys (f : Vector Axis 64 → Vector Axis 64) : (s.onAxis f).sys = s.sys := rfl
@[simp] theorem State.onAxis_power (f : Vector Axis 64 → Vector Axis 64) : (s.onAxis f).power = s.power := rfl
@[simp] theorem State.onAxis_boot (f : Vector Axis 64 → Vector Axis 64) : (s.onAxis f).boot = s.boot := rfl
@[simp] theorem State.onAxis_pkts (f : Vector Axis 64 → Vector Axis 64) : (s.onAxis f).pkts = s.pkts := rfl
@[simp] theorem State.onAxis_integ (f : Vector Axis 64 → Vector Axis 64) : (s.onAxis f).integ = s.integ := rfl
@[simp] theorem State.onAxis_axis (f : Vector Axis 64 → Vector Axis 64) : (s.onAxis f).axis = f s.axis := rfl
@[simp] theorem State.onAxis_plan (f : Vector Axis 64 → Vector Axis 64) : (s.onAxis f).plan = s.plan := rfl
@[simp] theorem State.onAxis_gear (f : Vector Axis 64 → Vector Axis 64) : (s.onAxis f).gear = s.gear := rfl
@[simp] theorem State.onAxis_loop (f : Vector Axis 64 → Vector Axis 64) : (s.onAxis f).loop = s.loop := rfl
@[simp] theorem State.onAxis_ports (f : Vector Axis 64 → Vector Axis 64) : (s.onAxis f).ports = s.ports := rfl
@[simp] theorem State.onAxis_bta (f : Vector Axis 64 → Vector Axis 64) : (s.onAxis f).bta = s.bta := rfl
@[simp] theorem State.onAxis_stepper (f : Vector Axis 64 → Vector Axis 64) : (s.onAxis f).stepper = s.stepper := rfl
@[simp] theorem State.onAxis_bricks (f : Vector Axis 64 → Vector Axis 64) : (s.onAxis f).bricks = s.bricks := rfl
@[simp] theorem State.onAxis_net (f : Vector Axis 64 → Vector Axis 64) : (s.onAxis f).net = s.net := rfl
@[simp] theorem State.onAxis_lodge (f : Vector Axis 64 → Vector Axis 64) : (s.onAxis f).lodge = s.lodge := rfl
@[simp] theorem State.onAxis_fio (f : Vector Axis 64 → Vector Axis 64) : (s.onAxis f).fio = s.fio := rfl
@[simp] theorem State.onAxis_can (f : Vector Axis 64 → Vector Axis 64) : (s.onAxis f).can = s.can := rfl
@[simp] theorem State.onAxis_serial (f : Vector Axis 64 → Vector Axis 64) : (s.onAxis f).serial = s.serial := rfl
@[simp] theorem State.onAxis_acq (f : Vector Axis 64 → Vector Axis 64) : (s.onAxis f).acq = s.acq := rfl
@[simp] theorem State.onAxis_lanes (f : Vector Axis 64 → Vector Axis 64) : (s.onAxis f).lanes = s.lanes := rfl
@[simp] theorem State.onAxis_store (f : Vector Axis 64 → Vector Axis 64) : (s.onAxis f).store = s.store := rfl
@[simp] theorem State.onAxis_pending (f : Vector Axis 64 → Vector Axis 64) : (s.onAxis f).pending = s.pending := rfl
@[simp] theorem State.onPlan_sys (f : Planner → Planner) : (s.onPlan f).sys = s.sys := rfl
@[simp] theorem State.onPlan_power (f : Planner → Planner) : (s.onPlan f).power = s.power := rfl
@[simp] theorem State.onPlan_boot (f : Planner → Planner) : (s.onPlan f).boot = s.boot := rfl
@[simp] theorem State.onPlan_pkts (f : Planner → Planner) : (s.onPlan f).pkts = s.pkts := rfl
@[simp] theorem State.onPlan_integ (f : Planner → Planner) : (s.onPlan f).integ = s.integ := rfl
@[simp] theorem State.onPlan_axis (f : Planner → Planner) : (s.onPlan f).axis = s.axis := rfl
@[simp] theorem State.onPlan_plan (f : Planner → Planner) : (s.onPlan f).plan = f s.plan := rfl
@[simp] theorem State.onPlan_gear (f : Planner → Planner) : (s.onPlan f).gear = s.gear := rfl
@[simp] theorem State.onPlan_loop (f : Planner → Planner) : (s.onPlan f).loop = s.loop := rfl
@[simp] theorem State.onPlan_ports (f : Planner → Planner) : (s.onPlan f).ports = s.ports := rfl
@[simp] theorem State.onPlan_bta (f : Planner → Planner) : (s.onPlan f).bta = s.bta := rfl
@[simp] theorem State.onPlan_stepper (f : Planner → Planner) : (s.onPlan f).stepper = s.stepper := rfl
@[simp] theorem State.onPlan_bricks (f : Planner → Planner) : (s.onPlan f).bricks = s.bricks := rfl
@[simp] theorem State.onPlan_net (f : Planner → Planner) : (s.onPlan f).net = s.net := rfl
@[simp] theorem State.onPlan_lodge (f : Planner → Planner) : (s.onPlan f).lodge = s.lodge := rfl
@[simp] theorem State.onPlan_fio (f : Planner → Planner) : (s.onPlan f).fio = s.fio := rfl
@[simp] theorem State.onPlan_can (f : Planner → Planner) : (s.onPlan f).can = s.can := rfl
@[simp] theorem State.onPlan_serial (f : Planner → Planner) : (s.onPlan f).serial = s.serial := rfl
@[simp] theorem State.onPlan_acq (f : Planner → Planner) : (s.onPlan f).acq = s.acq := rfl
@[simp] theorem State.onPlan_lanes (f : Planner → Planner) : (s.onPlan f).lanes = s.lanes := rfl
@[simp] theorem State.onPlan_store (f : Planner → Planner) : (s.onPlan f).store = s.store := rfl
@[simp] theorem State.onPlan_pending (f : Planner → Planner) : (s.onPlan f).pending = s.pending := rfl
@[simp] theorem State.onGear_sys (f : GearUnit → GearUnit) : (s.onGear f).sys = s.sys := rfl
@[simp] theorem State.onGear_power (f : GearUnit → GearUnit) : (s.onGear f).power = s.power := rfl
@[simp] theorem State.onGear_boot (f : GearUnit → GearUnit) : (s.onGear f).boot = s.boot := rfl
@[simp] theorem State.onGear_pkts (f : GearUnit → GearUnit) : (s.onGear f).pkts = s.pkts := rfl
@[simp] theorem State.onGear_integ (f : GearUnit → GearUnit) : (s.onGear f).integ = s.integ := rfl
@[simp] theorem State.onGear_axis (f : GearUnit → GearUnit) : (s.onGear f).axis = s.axis := rfl
@[simp] theorem State.onGear_plan (f : GearUnit → GearUnit) : (s.onGear f).plan = s.plan := rfl
@[simp] theorem State.onGear_gear (f : GearUnit → GearUnit) : (s.onGear f).gear = f s.gear := rfl
@[simp] theorem State.onGear_loop (f : GearUnit → GearUnit) : (s.onGear f).loop = s.loop := rfl
@[simp] theorem State.onGear_ports (f : GearUnit → GearUnit) : (s.onGear f).ports = s.ports := rfl
@[simp] theorem State.onGear_bta (f : GearUnit → GearUnit) : (s.onGear f).bta = s.bta := rfl
@[simp] theorem State.onGear_stepper (f : GearUnit → GearUnit) : (s.onGear f).stepper = s.stepper := rfl
@[simp] theorem State.onGear_bricks (f : GearUnit → GearUnit) : (s.onGear f).bricks = s.bricks := rfl
@[simp] theorem State.onGear_net (f : GearUnit → GearUnit) : (s.onGear f).net = s.net := rfl
@[simp] theorem State.onGear_lodge (f : GearUnit → GearUnit) : (s.onGear f).lodge = s.lodge := rfl
@[simp] theorem State.onGear_fio (f : GearUnit → GearUnit) : (s.onGear f).fio = s.fio := rfl
@[simp] theorem State.onGear_can (f : GearUnit → GearUnit) : (s.onGear f).can = s.can := rfl
@[simp] theorem State.onGear_serial (f : GearUnit → GearUnit) : (s.onGear f).serial = s.serial := rfl
@[simp] theorem State.onGear_acq (f : GearUnit → GearUnit) : (s.onGear f).acq = s.acq := rfl
@[simp] theorem State.onGear_lanes (f : GearUnit → GearUnit) : (s.onGear f).lanes = s.lanes := rfl
@[simp] theorem State.onGear_store (f : GearUnit → GearUnit) : (s.onGear f).store = s.store := rfl
@[simp] theorem State.onGear_pending (f : GearUnit → GearUnit) : (s.onGear f).pending = s.pending := rfl
@[simp] theorem State.onLoop_sys (f : LoopEngine → LoopEngine) : (s.onLoop f).sys = s.sys := rfl
@[simp] theorem State.onLoop_power (f : LoopEngine → LoopEngine) : (s.onLoop f).power = s.power := rfl
@[simp] theorem State.onLoop_boot (f : LoopEngine → LoopEngine) : (s.onLoop f).boot = s.boot := rfl
@[simp] theorem State.onLoop_pkts (f : LoopEngine → LoopEngine) : (s.onLoop f).pkts = s.pkts := rfl
@[simp] theorem State.onLoop_integ (f : LoopEngine → LoopEngine) : (s.onLoop f).integ = s.integ := rfl
@[simp] theorem State.onLoop_axis (f : LoopEngine → LoopEngine) : (s.onLoop f).axis = s.axis := rfl
@[simp] theorem State.onLoop_plan (f : LoopEngine → LoopEngine) : (s.onLoop f).plan = s.plan := rfl
@[simp] theorem State.onLoop_gear (f : LoopEngine → LoopEngine) : (s.onLoop f).gear = s.gear := rfl
@[simp] theorem State.onLoop_loop (f : LoopEngine → LoopEngine) : (s.onLoop f).loop = f s.loop := rfl
@[simp] theorem State.onLoop_ports (f : LoopEngine → LoopEngine) : (s.onLoop f).ports = s.ports := rfl
@[simp] theorem State.onLoop_bta (f : LoopEngine → LoopEngine) : (s.onLoop f).bta = s.bta := rfl
@[simp] theorem State.onLoop_stepper (f : LoopEngine → LoopEngine) : (s.onLoop f).stepper = s.stepper := rfl
@[simp] theorem State.onLoop_bricks (f : LoopEngine → LoopEngine) : (s.onLoop f).bricks = s.bricks := rfl
@[simp] theorem State.onLoop_net (f : LoopEngine → LoopEngine) : (s.onLoop f).net = s.net := rfl
@[simp] theorem State.onLoop_lodge (f : LoopEngine → LoopEngine) : (s.onLoop f).lodge = s.lodge := rfl
@[simp] theorem State.onLoop_fio (f : LoopEngine → LoopEngine) : (s.onLoop f).fio = s.fio := rfl
@[simp] theorem State.onLoop_can (f : LoopEngine → LoopEngine) : (s.onLoop f).can = s.can := rfl
@[simp] theorem State.onLoop_serial (f : LoopEngine → LoopEngine) : (s.onLoop f).serial = s.serial := rfl
@[simp] theorem State.onLoop_acq (f : LoopEngine → LoopEngine) : (s.onLoop f).acq = s.acq := rfl
@[simp] theorem State.onLoop_lanes (f : LoopEngine → LoopEngine) : (s.onLoop f).lanes = s.lanes := rfl
@[simp] theorem State.onLoop_store (f : LoopEngine → LoopEngine) : (s.onLoop f).store = s.store := rfl
@[simp] theorem State.onLoop_pending (f : LoopEngine → LoopEngine) : (s.onLoop f).pending = s.pending := rfl
@[simp] theorem State.onPorts_sys (f : PortsBlk → PortsBlk) : (s.onPorts f).sys = s.sys := rfl
@[simp] theorem State.onPorts_power (f : PortsBlk → PortsBlk) : (s.onPorts f).power = s.power := rfl
@[simp] theorem State.onPorts_boot (f : PortsBlk → PortsBlk) : (s.onPorts f).boot = s.boot := rfl
@[simp] theorem State.onPorts_pkts (f : PortsBlk → PortsBlk) : (s.onPorts f).pkts = s.pkts := rfl
@[simp] theorem State.onPorts_integ (f : PortsBlk → PortsBlk) : (s.onPorts f).integ = s.integ := rfl
@[simp] theorem State.onPorts_axis (f : PortsBlk → PortsBlk) : (s.onPorts f).axis = s.axis := rfl
@[simp] theorem State.onPorts_plan (f : PortsBlk → PortsBlk) : (s.onPorts f).plan = s.plan := rfl
@[simp] theorem State.onPorts_gear (f : PortsBlk → PortsBlk) : (s.onPorts f).gear = s.gear := rfl
@[simp] theorem State.onPorts_loop (f : PortsBlk → PortsBlk) : (s.onPorts f).loop = s.loop := rfl
@[simp] theorem State.onPorts_ports (f : PortsBlk → PortsBlk) : (s.onPorts f).ports = f s.ports := rfl
@[simp] theorem State.onPorts_bta (f : PortsBlk → PortsBlk) : (s.onPorts f).bta = s.bta := rfl
@[simp] theorem State.onPorts_stepper (f : PortsBlk → PortsBlk) : (s.onPorts f).stepper = s.stepper := rfl
@[simp] theorem State.onPorts_bricks (f : PortsBlk → PortsBlk) : (s.onPorts f).bricks = s.bricks := rfl
@[simp] theorem State.onPorts_net (f : PortsBlk → PortsBlk) : (s.onPorts f).net = s.net := rfl
@[simp] theorem State.onPorts_lodge (f : PortsBlk → PortsBlk) : (s.onPorts f).lodge = s.lodge := rfl
@[simp] theorem State.onPorts_fio (f : PortsBlk → PortsBlk) : (s.onPorts f).fio = s.fio := rfl
@[simp] theorem State.onPorts_can (f : PortsBlk → PortsBlk) : (s.onPorts f).can = s.can := rfl
@[simp] theorem State.onPorts_serial (f : PortsBlk → PortsBlk) : (s.onPorts f).serial = s.serial := rfl
@[simp] theorem State.onPorts_acq (f : PortsBlk → PortsBlk) : (s.onPorts f).acq = s.acq := rfl
@[simp] theorem State.onPorts_lanes (f : PortsBlk → PortsBlk) : (s.onPorts f).lanes = s.lanes := rfl
@[simp] theorem State.onPorts_store (f : PortsBlk → PortsBlk) : (s.onPorts f).store = s.store := rfl
@[simp] theorem State.onPorts_pending (f : PortsBlk → PortsBlk) : (s.onPorts f).pending = s.pending := rfl
@[simp] theorem State.onBta_sys (f : BtaBlk → BtaBlk) : (s.onBta f).sys = s.sys := rfl
@[simp] theorem State.onBta_power (f : BtaBlk → BtaBlk) : (s.onBta f).power = s.power := rfl
@[simp] theorem State.onBta_boot (f : BtaBlk → BtaBlk) : (s.onBta f).boot = s.boot := rfl
@[simp] theorem State.onBta_pkts (f : BtaBlk → BtaBlk) : (s.onBta f).pkts = s.pkts := rfl
@[simp] theorem State.onBta_integ (f : BtaBlk → BtaBlk) : (s.onBta f).integ = s.integ := rfl
@[simp] theorem State.onBta_axis (f : BtaBlk → BtaBlk) : (s.onBta f).axis = s.axis := rfl
@[simp] theorem State.onBta_plan (f : BtaBlk → BtaBlk) : (s.onBta f).plan = s.plan := rfl
@[simp] theorem State.onBta_gear (f : BtaBlk → BtaBlk) : (s.onBta f).gear = s.gear := rfl
@[simp] theorem State.onBta_loop (f : BtaBlk → BtaBlk) : (s.onBta f).loop = s.loop := rfl
@[simp] theorem State.onBta_ports (f : BtaBlk → BtaBlk) : (s.onBta f).ports = s.ports := rfl
@[simp] theorem State.onBta_bta (f : BtaBlk → BtaBlk) : (s.onBta f).bta = f s.bta := rfl
@[simp] theorem State.onBta_stepper (f : BtaBlk → BtaBlk) : (s.onBta f).stepper = s.stepper := rfl
@[simp] theorem State.onBta_bricks (f : BtaBlk → BtaBlk) : (s.onBta f).bricks = s.bricks := rfl
@[simp] theorem State.onBta_net (f : BtaBlk → BtaBlk) : (s.onBta f).net = s.net := rfl
@[simp] theorem State.onBta_lodge (f : BtaBlk → BtaBlk) : (s.onBta f).lodge = s.lodge := rfl
@[simp] theorem State.onBta_fio (f : BtaBlk → BtaBlk) : (s.onBta f).fio = s.fio := rfl
@[simp] theorem State.onBta_can (f : BtaBlk → BtaBlk) : (s.onBta f).can = s.can := rfl
@[simp] theorem State.onBta_serial (f : BtaBlk → BtaBlk) : (s.onBta f).serial = s.serial := rfl
@[simp] theorem State.onBta_acq (f : BtaBlk → BtaBlk) : (s.onBta f).acq = s.acq := rfl
@[simp] theorem State.onBta_lanes (f : BtaBlk → BtaBlk) : (s.onBta f).lanes = s.lanes := rfl
@[simp] theorem State.onBta_store (f : BtaBlk → BtaBlk) : (s.onBta f).store = s.store := rfl
@[simp] theorem State.onBta_pending (f : BtaBlk → BtaBlk) : (s.onBta f).pending = s.pending := rfl
@[simp] theorem State.onStepper_sys (f : StepperBlk → StepperBlk) : (s.onStepper f).sys = s.sys := rfl
@[simp] theorem State.onStepper_power (f : StepperBlk → StepperBlk) : (s.onStepper f).power = s.power := rfl
@[simp] theorem State.onStepper_boot (f : StepperBlk → StepperBlk) : (s.onStepper f).boot = s.boot := rfl
@[simp] theorem State.onStepper_pkts (f : StepperBlk → StepperBlk) : (s.onStepper f).pkts = s.pkts := rfl
@[simp] theorem State.onStepper_integ (f : StepperBlk → StepperBlk) : (s.onStepper f).integ = s.integ := rfl
@[simp] theorem State.onStepper_axis (f : StepperBlk → StepperBlk) : (s.onStepper f).axis = s.axis := rfl
@[simp] theorem State.onStepper_plan (f : StepperBlk → StepperBlk) : (s.onStepper f).plan = s.plan := rfl
@[simp] theorem State.onStepper_gear (f : StepperBlk → StepperBlk) : (s.onStepper f).gear = s.gear := rfl
@[simp] theorem State.onStepper_loop (f : StepperBlk → StepperBlk) : (s.onStepper f).loop = s.loop := rfl
@[simp] theorem State.onStepper_ports (f : StepperBlk → StepperBlk) : (s.onStepper f).ports = s.ports := rfl
@[simp] theorem State.onStepper_bta (f : StepperBlk → StepperBlk) : (s.onStepper f).bta = s.bta := rfl
@[simp] theorem State.onStepper_stepper (f : StepperBlk → StepperBlk) : (s.onStepper f).stepper = f s.stepper := rfl
@[simp] theorem State.onStepper_bricks (f : StepperBlk → StepperBlk) : (s.onStepper f).bricks = s.bricks := rfl
@[simp] theorem State.onStepper_net (f : StepperBlk → StepperBlk) : (s.onStepper f).net = s.net := rfl
@[simp] theorem State.onStepper_lodge (f : StepperBlk → StepperBlk) : (s.onStepper f).lodge = s.lodge := rfl
@[simp] theorem State.onStepper_fio (f : StepperBlk → StepperBlk) : (s.onStepper f).fio = s.fio := rfl
@[simp] theorem State.onStepper_can (f : StepperBlk → StepperBlk) : (s.onStepper f).can = s.can := rfl
@[simp] theorem State.onStepper_serial (f : StepperBlk → StepperBlk) : (s.onStepper f).serial = s.serial := rfl
@[simp] theorem State.onStepper_acq (f : StepperBlk → StepperBlk) : (s.onStepper f).acq = s.acq := rfl
@[simp] theorem State.onStepper_lanes (f : StepperBlk → StepperBlk) : (s.onStepper f).lanes = s.lanes := rfl
@[simp] theorem State.onStepper_store (f : StepperBlk → StepperBlk) : (s.onStepper f).store = s.store := rfl
@[simp] theorem State.onStepper_pending (f : StepperBlk → StepperBlk) : (s.onStepper f).pending = s.pending := rfl
@[simp] theorem State.onBricks_sys (f : BricksBlk → BricksBlk) : (s.onBricks f).sys = s.sys := rfl
@[simp] theorem State.onBricks_power (f : BricksBlk → BricksBlk) : (s.onBricks f).power = s.power := rfl
@[simp] theorem State.onBricks_boot (f : BricksBlk → BricksBlk) : (s.onBricks f).boot = s.boot := rfl
@[simp] theorem State.onBricks_pkts (f : BricksBlk → BricksBlk) : (s.onBricks f).pkts = s.pkts := rfl
@[simp] theorem State.onBricks_integ (f : BricksBlk → BricksBlk) : (s.onBricks f).integ = s.integ := rfl
@[simp] theorem State.onBricks_axis (f : BricksBlk → BricksBlk) : (s.onBricks f).axis = s.axis := rfl
@[simp] theorem State.onBricks_plan (f : BricksBlk → BricksBlk) : (s.onBricks f).plan = s.plan := rfl
@[simp] theorem State.onBricks_gear (f : BricksBlk → BricksBlk) : (s.onBricks f).gear = s.gear := rfl
@[simp] theorem State.onBricks_loop (f : BricksBlk → BricksBlk) : (s.onBricks f).loop = s.loop := rfl
@[simp] theorem State.onBricks_ports (f : BricksBlk → BricksBlk) : (s.onBricks f).ports = s.ports := rfl
@[simp] theorem State.onBricks_bta (f : BricksBlk → BricksBlk) : (s.onBricks f).bta = s.bta := rfl
@[simp] theorem State.onBricks_stepper (f : BricksBlk → BricksBlk) : (s.onBricks f).stepper = s.stepper := rfl
@[simp] theorem State.onBricks_bricks (f : BricksBlk → BricksBlk) : (s.onBricks f).bricks = f s.bricks := rfl
@[simp] theorem State.onBricks_net (f : BricksBlk → BricksBlk) : (s.onBricks f).net = s.net := rfl
@[simp] theorem State.onBricks_lodge (f : BricksBlk → BricksBlk) : (s.onBricks f).lodge = s.lodge := rfl
@[simp] theorem State.onBricks_fio (f : BricksBlk → BricksBlk) : (s.onBricks f).fio = s.fio := rfl
@[simp] theorem State.onBricks_can (f : BricksBlk → BricksBlk) : (s.onBricks f).can = s.can := rfl
@[simp] theorem State.onBricks_serial (f : BricksBlk → BricksBlk) : (s.onBricks f).serial = s.serial := rfl
@[simp] theorem State.onBricks_acq (f : BricksBlk → BricksBlk) : (s.onBricks f).acq = s.acq := rfl
@[simp] theorem State.onBricks_lanes (f : BricksBlk → BricksBlk) : (s.onBricks f).lanes = s.lanes := rfl
@[simp] theorem State.onBricks_store (f : BricksBlk → BricksBlk) : (s.onBricks f).store = s.store := rfl
@[simp] theorem State.onBricks_pending (f : BricksBlk → BricksBlk) : (s.onBricks f).pending = s.pending := rfl
@[simp] theorem State.onNet_sys (f : Net → Net) : (s.onNet f).sys = s.sys := rfl
@[simp] theorem State.onNet_power (f : Net → Net) : (s.onNet f).power = s.power := rfl
@[simp] theorem State.onNet_boot (f : Net → Net) : (s.onNet f).boot = s.boot := rfl
@[simp] theorem State.onNet_pkts (f : Net → Net) : (s.onNet f).pkts = s.pkts := rfl
@[simp] theorem State.onNet_integ (f : Net → Net) : (s.onNet f).integ = s.integ := rfl
@[simp] theorem State.onNet_axis (f : Net → Net) : (s.onNet f).axis = s.axis := rfl
@[simp] theorem State.onNet_plan (f : Net → Net) : (s.onNet f).plan = s.plan := rfl
@[simp] theorem State.onNet_gear (f : Net → Net) : (s.onNet f).gear = s.gear := rfl
@[simp] theorem State.onNet_loop (f : Net → Net) : (s.onNet f).loop = s.loop := rfl
@[simp] theorem State.onNet_ports (f : Net → Net) : (s.onNet f).ports = s.ports := rfl
@[simp] theorem State.onNet_bta (f : Net → Net) : (s.onNet f).bta = s.bta := rfl
@[simp] theorem State.onNet_stepper (f : Net → Net) : (s.onNet f).stepper = s.stepper := rfl
@[simp] theorem State.onNet_bricks (f : Net → Net) : (s.onNet f).bricks = s.bricks := rfl
@[simp] theorem State.onNet_net (f : Net → Net) : (s.onNet f).net = f s.net := rfl
@[simp] theorem State.onNet_lodge (f : Net → Net) : (s.onNet f).lodge = s.lodge := rfl
@[simp] theorem State.onNet_fio (f : Net → Net) : (s.onNet f).fio = s.fio := rfl
@[simp] theorem State.onNet_can (f : Net → Net) : (s.onNet f).can = s.can := rfl
@[simp] theorem State.onNet_serial (f : Net → Net) : (s.onNet f).serial = s.serial := rfl
@[simp] theorem State.onNet_acq (f : Net → Net) : (s.onNet f).acq = s.acq := rfl
@[simp] theorem State.onNet_lanes (f : Net → Net) : (s.onNet f).lanes = s.lanes := rfl
@[simp] theorem State.onNet_store (f : Net → Net) : (s.onNet f).store = s.store := rfl
@[simp] theorem State.onNet_pending (f : Net → Net) : (s.onNet f).pending = s.pending := rfl
@[simp] theorem State.onLodge_sys (f : LodgeBlk → LodgeBlk) : (s.onLodge f).sys = s.sys := rfl
@[simp] theorem State.onLodge_power (f : LodgeBlk → LodgeBlk) : (s.onLodge f).power = s.power := rfl
@[simp] theorem State.onLodge_boot (f : LodgeBlk → LodgeBlk) : (s.onLodge f).boot = s.boot := rfl
@[simp] theorem State.onLodge_pkts (f : LodgeBlk → LodgeBlk) : (s.onLodge f).pkts = s.pkts := rfl
@[simp] theorem State.onLodge_integ (f : LodgeBlk → LodgeBlk) : (s.onLodge f).integ = s.integ := rfl
@[simp] theorem State.onLodge_axis (f : LodgeBlk → LodgeBlk) : (s.onLodge f).axis = s.axis := rfl
@[simp] theorem State.onLodge_plan (f : LodgeBlk → LodgeBlk) : (s.onLodge f).plan = s.plan := rfl
@[simp] theorem State.onLodge_gear (f : LodgeBlk → LodgeBlk) : (s.onLodge f).gear = s.gear := rfl
@[simp] theorem State.onLodge_loop (f : LodgeBlk → LodgeBlk) : (s.onLodge f).loop = s.loop := rfl
@[simp] theorem State.onLodge_ports (f : LodgeBlk → LodgeBlk) : (s.onLodge f).ports = s.ports := rfl
@[simp] theorem State.onLodge_bta (f : LodgeBlk → LodgeBlk) : (s.onLodge f).bta = s.bta := rfl
@[simp] theorem State.onLodge_stepper (f : LodgeBlk → LodgeBlk) : (s.onLodge f).stepper = s.stepper := rfl
@[simp] theorem State.onLodge_bricks (f : LodgeBlk → LodgeBlk) : (s.onLodge f).bricks = s.bricks := rfl
@[simp] theorem State.onLodge_net (f : LodgeBlk → LodgeBlk) : (s.onLodge f).net = s.net := rfl
@[simp] theorem State.onLodge_lodge (f : LodgeBlk → LodgeBlk) : (s.onLodge f).lodge = f s.lodge := rfl
@[simp] theorem State.onLodge_fio (f : LodgeBlk → LodgeBlk) : (s.onLodge f).fio = s.fio := rfl
@[simp] theorem State.onLodge_can (f : LodgeBlk → LodgeBlk) : (s.onLodge f).can = s.can := rfl
@[simp] theorem State.onLodge_serial (f : LodgeBlk → LodgeBlk) : (s.onLodge f).serial = s.serial := rfl
@[simp] theorem State.onLodge_acq (f : LodgeBlk → LodgeBlk) : (s.onLodge f).acq = s.acq := rfl
@[simp] theorem State.onLodge_lanes (f : LodgeBlk → LodgeBlk) : (s.onLodge f).lanes = s.lanes := rfl
@[simp] theorem State.onLodge_store (f : LodgeBlk → LodgeBlk) : (s.onLodge f).store = s.store := rfl
@[simp] theorem State.onLodge_pending (f : LodgeBlk → LodgeBlk) : (s.onLodge f).pending = s.pending := rfl
@[simp] theorem State.onFio_sys (f : FioBlk → FioBlk) : (s.onFio f).sys = s.sys := rfl
@[simp] theorem State.onFio_power (f : FioBlk → FioBlk) : (s.onFio f).power = s.power := rfl
@[simp] theorem State.onFio_boot (f : FioBlk → FioBlk) : (s.onFio f).boot = s.boot := rfl
@[simp] theorem State.onFio_pkts (f : FioBlk → FioBlk) : (s.onFio f).pkts = s.pkts := rfl
@[simp] theorem State.onFio_integ (f : FioBlk → FioBlk) : (s.onFio f).integ = s.integ := rfl
@[simp] theorem State.onFio_axis (f : FioBlk → FioBlk) : (s.onFio f).axis = s.axis := rfl
@[simp] theorem State.onFio_plan (f : FioBlk → FioBlk) : (s.onFio f).plan = s.plan := rfl
@[simp] theorem State.onFio_gear (f : FioBlk → FioBlk) : (s.onFio f).gear = s.gear := rfl
@[simp] theorem State.onFio_loop (f : FioBlk → FioBlk) : (s.onFio f).loop = s.loop := rfl
@[simp] theorem State.onFio_ports (f : FioBlk → FioBlk) : (s.onFio f).ports = s.ports := rfl
@[simp] theorem State.onFio_bta (f : FioBlk → FioBlk) : (s.onFio f).bta = s.bta := rfl
@[simp] theorem State.onFio_stepper (f : FioBlk → FioBlk) : (s.onFio f).stepper = s.stepper := rfl
@[simp] theorem State.onFio_bricks (f : FioBlk → FioBlk) : (s.onFio f).bricks = s.bricks := rfl
@[simp] theorem State.onFio_net (f : FioBlk → FioBlk) : (s.onFio f).net = s.net := rfl
@[simp] theorem State.onFio_lodge (f : FioBlk → FioBlk) : (s.onFio f).lodge = s.lodge := rfl
@[simp] theorem State.onFio_fio (f : FioBlk → FioBlk) : (s.onFio f).fio = f s.fio := rfl
@[simp] theorem State.onFio_can (f : FioBlk → FioBlk) : (s.onFio f).can = s.can := rfl
@[simp] theorem State.onFio_serial (f : FioBlk → FioBlk) : (s.onFio f).serial = s.serial := rfl
@[simp] theorem State.onFio_acq (f : FioBlk → FioBlk) : (s.onFio f).acq = s.acq := rfl
@[simp] theorem State.onFio_lanes (f : FioBlk → FioBlk) : (s.onFio f).lanes = s.lanes := rfl
@[simp] theorem State.onFio_store (f : FioBlk → FioBlk) : (s.onFio f).store = s.store := rfl
@[simp] theorem State.onFio_pending (f : FioBlk → FioBlk) : (s.onFio f).pending = s.pending := rfl
@[simp] theorem State.onCan_sys (f : CanBlk → CanBlk) : (s.onCan f).sys = s.sys := rfl
@[simp] theorem State.onCan_power (f : CanBlk → CanBlk) : (s.onCan f).power = s.power := rfl
@[simp] theorem State.onCan_boot (f : CanBlk → CanBlk) : (s.onCan f).boot = s.boot := rfl
@[simp] theorem State.onCan_pkts (f : CanBlk → CanBlk) : (s.onCan f).pkts = s.pkts := rfl
@[simp] theorem State.onCan_integ (f : CanBlk → CanBlk) : (s.onCan f).integ = s.integ := rfl
@[simp] theorem State.onCan_axis (f : CanBlk → CanBlk) : (s.onCan f).axis = s.axis := rfl
@[simp] theorem State.onCan_plan (f : CanBlk → CanBlk) : (s.onCan f).plan = s.plan := rfl
@[simp] theorem State.onCan_gear (f : CanBlk → CanBlk) : (s.onCan f).gear = s.gear := rfl
@[simp] theorem State.onCan_loop (f : CanBlk → CanBlk) : (s.onCan f).loop = s.loop := rfl
@[simp] theorem State.onCan_ports (f : CanBlk → CanBlk) : (s.onCan f).ports = s.ports := rfl
@[simp] theorem State.onCan_bta (f : CanBlk → CanBlk) : (s.onCan f).bta = s.bta := rfl
@[simp] theorem State.onCan_stepper (f : CanBlk → CanBlk) : (s.onCan f).stepper = s.stepper := rfl
@[simp] theorem State.onCan_bricks (f : CanBlk → CanBlk) : (s.onCan f).bricks = s.bricks := rfl
@[simp] theorem State.onCan_net (f : CanBlk → CanBlk) : (s.onCan f).net = s.net := rfl
@[simp] theorem State.onCan_lodge (f : CanBlk → CanBlk) : (s.onCan f).lodge = s.lodge := rfl
@[simp] theorem State.onCan_fio (f : CanBlk → CanBlk) : (s.onCan f).fio = s.fio := rfl
@[simp] theorem State.onCan_can (f : CanBlk → CanBlk) : (s.onCan f).can = f s.can := rfl
@[simp] theorem State.onCan_serial (f : CanBlk → CanBlk) : (s.onCan f).serial = s.serial := rfl
@[simp] theorem State.onCan_acq (f : CanBlk → CanBlk) : (s.onCan f).acq = s.acq := rfl
@[simp] theorem State.onCan_lanes (f : CanBlk → CanBlk) : (s.onCan f).lanes = s.lanes := rfl
@[simp] theorem State.onCan_store (f : CanBlk → CanBlk) : (s.onCan f).store = s.store := rfl
@[simp] theorem State.onCan_pending (f : CanBlk → CanBlk) : (s.onCan f).pending = s.pending := rfl
@[simp] theorem State.onSerial_sys (f : SerialBlk → SerialBlk) : (s.onSerial f).sys = s.sys := rfl
@[simp] theorem State.onSerial_power (f : SerialBlk → SerialBlk) : (s.onSerial f).power = s.power := rfl
@[simp] theorem State.onSerial_boot (f : SerialBlk → SerialBlk) : (s.onSerial f).boot = s.boot := rfl
@[simp] theorem State.onSerial_pkts (f : SerialBlk → SerialBlk) : (s.onSerial f).pkts = s.pkts := rfl
@[simp] theorem State.onSerial_integ (f : SerialBlk → SerialBlk) : (s.onSerial f).integ = s.integ := rfl
@[simp] theorem State.onSerial_axis (f : SerialBlk → SerialBlk) : (s.onSerial f).axis = s.axis := rfl
@[simp] theorem State.onSerial_plan (f : SerialBlk → SerialBlk) : (s.onSerial f).plan = s.plan := rfl
@[simp] theorem State.onSerial_gear (f : SerialBlk → SerialBlk) : (s.onSerial f).gear = s.gear := rfl
@[simp] theorem State.onSerial_loop (f : SerialBlk → SerialBlk) : (s.onSerial f).loop = s.loop := rfl
@[simp] theorem State.onSerial_ports (f : SerialBlk → SerialBlk) : (s.onSerial f).ports = s.ports := rfl
@[simp] theorem State.onSerial_bta (f : SerialBlk → SerialBlk) : (s.onSerial f).bta = s.bta := rfl
@[simp] theorem State.onSerial_stepper (f : SerialBlk → SerialBlk) : (s.onSerial f).stepper = s.stepper := rfl
@[simp] theorem State.onSerial_bricks (f : SerialBlk → SerialBlk) : (s.onSerial f).bricks = s.bricks := rfl
@[simp] theorem State.onSerial_net (f : SerialBlk → SerialBlk) : (s.onSerial f).net = s.net := rfl
@[simp] theorem State.onSerial_lodge (f : SerialBlk → SerialBlk) : (s.onSerial f).lodge = s.lodge := rfl
@[simp] theorem State.onSerial_fio (f : SerialBlk → SerialBlk) : (s.onSerial f).fio = s.fio := rfl
@[simp] theorem State.onSerial_can (f : SerialBlk → SerialBlk) : (s.onSerial f).can = s.can := rfl
@[simp] theorem State.onSerial_serial (f : SerialBlk → SerialBlk) : (s.onSerial f).serial = f s.serial := rfl
@[simp] theorem State.onSerial_acq (f : SerialBlk → SerialBlk) : (s.onSerial f).acq = s.acq := rfl
@[simp] theorem State.onSerial_lanes (f : SerialBlk → SerialBlk) : (s.onSerial f).lanes = s.lanes := rfl
@[simp] theorem State.onSerial_store (f : SerialBlk → SerialBlk) : (s.onSerial f).store = s.store := rfl
@[simp] theorem State.onSerial_pending (f : SerialBlk → SerialBlk) : (s.onSerial f).pending = s.pending := rfl
@[simp] theorem State.onAcq_sys (f : AcqBlk → AcqBlk) : (s.onAcq f).sys = s.sys := rfl
@[simp] theorem State.onAcq_power (f : AcqBlk → AcqBlk) : (s.onAcq f).power = s.power := rfl
@[simp] theorem State.onAcq_boot (f : AcqBlk → AcqBlk) : (s.onAcq f).boot = s.boot := rfl
@[simp] theorem State.onAcq_pkts (f : AcqBlk → AcqBlk) : (s.onAcq f).pkts = s.pkts := rfl
@[simp] theorem State.onAcq_integ (f : AcqBlk → AcqBlk) : (s.onAcq f).integ = s.integ := rfl
@[simp] theorem State.onAcq_axis (f : AcqBlk → AcqBlk) : (s.onAcq f).axis = s.axis := rfl
@[simp] theorem State.onAcq_plan (f : AcqBlk → AcqBlk) : (s.onAcq f).plan = s.plan := rfl
@[simp] theorem State.onAcq_gear (f : AcqBlk → AcqBlk) : (s.onAcq f).gear = s.gear := rfl
@[simp] theorem State.onAcq_loop (f : AcqBlk → AcqBlk) : (s.onAcq f).loop = s.loop := rfl
@[simp] theorem State.onAcq_ports (f : AcqBlk → AcqBlk) : (s.onAcq f).ports = s.ports := rfl
@[simp] theorem State.onAcq_bta (f : AcqBlk → AcqBlk) : (s.onAcq f).bta = s.bta := rfl
@[simp] theorem State.onAcq_stepper (f : AcqBlk → AcqBlk) : (s.onAcq f).stepper = s.stepper := rfl
@[simp] theorem State.onAcq_bricks (f : AcqBlk → AcqBlk) : (s.onAcq f).bricks = s.bricks := rfl
@[simp] theorem State.onAcq_net (f : AcqBlk → AcqBlk) : (s.onAcq f).net = s.net := rfl
@[simp] theorem State.onAcq_lodge (f : AcqBlk → AcqBlk) : (s.onAcq f).lodge = s.lodge := rfl
@[simp] theorem State.onAcq_fio (f : AcqBlk → AcqBlk) : (s.onAcq f).fio = s.fio := rfl
@[simp] theorem State.onAcq_can (f : AcqBlk → AcqBlk) : (s.onAcq f).can = s.can := rfl
@[simp] theorem State.onAcq_serial (f : AcqBlk → AcqBlk) : (s.onAcq f).serial = s.serial := rfl
@[simp] theorem State.onAcq_acq (f : AcqBlk → AcqBlk) : (s.onAcq f).acq = f s.acq := rfl
@[simp] theorem State.onAcq_lanes (f : AcqBlk → AcqBlk) : (s.onAcq f).lanes = s.lanes := rfl
@[simp] theorem State.onAcq_store (f : AcqBlk → AcqBlk) : (s.onAcq f).store = s.store := rfl
@[simp] theorem State.onAcq_pending (f : AcqBlk → AcqBlk) : (s.onAcq f).pending = s.pending := rfl
@[simp] theorem State.onLanes_sys (f : LanesBlk → LanesBlk) : (s.onLanes f).sys = s.sys := rfl
@[simp] theorem State.onLanes_power (f : LanesBlk → LanesBlk) : (s.onLanes f).power = s.power := rfl
@[simp] theorem State.onLanes_boot (f : LanesBlk → LanesBlk) : (s.onLanes f).boot = s.boot := rfl
@[simp] theorem State.onLanes_pkts (f : LanesBlk → LanesBlk) : (s.onLanes f).pkts = s.pkts := rfl
@[simp] theorem State.onLanes_integ (f : LanesBlk → LanesBlk) : (s.onLanes f).integ = s.integ := rfl
@[simp] theorem State.onLanes_axis (f : LanesBlk → LanesBlk) : (s.onLanes f).axis = s.axis := rfl
@[simp] theorem State.onLanes_plan (f : LanesBlk → LanesBlk) : (s.onLanes f).plan = s.plan := rfl
@[simp] theorem State.onLanes_gear (f : LanesBlk → LanesBlk) : (s.onLanes f).gear = s.gear := rfl
@[simp] theorem State.onLanes_loop (f : LanesBlk → LanesBlk) : (s.onLanes f).loop = s.loop := rfl
@[simp] theorem State.onLanes_ports (f : LanesBlk → LanesBlk) : (s.onLanes f).ports = s.ports := rfl
@[simp] theorem State.onLanes_bta (f : LanesBlk → LanesBlk) : (s.onLanes f).bta = s.bta := rfl
@[simp] theorem State.onLanes_stepper (f : LanesBlk → LanesBlk) : (s.onLanes f).stepper = s.stepper := rfl
@[simp] theorem State.onLanes_bricks (f : LanesBlk → LanesBlk) : (s.onLanes f).bricks = s.bricks := rfl
@[simp] theorem State.onLanes_net (f : LanesBlk → LanesBlk) : (s.onLanes f).net = s.net := rfl
@[simp] theorem State.onLanes_lodge (f : LanesBlk → LanesBlk) : (s.onLanes f).lodge = s.lodge := rfl
@[simp] theorem State.onLanes_fio (f : LanesBlk → LanesBlk) : (s.onLanes f).fio = s.fio := rfl
@[simp] theorem State.onLanes_can (f : LanesBlk → LanesBlk) : (s.onLanes f).can = s.can := rfl
@[simp] theorem State.onLanes_serial (f : LanesBlk → LanesBlk) : (s.onLanes f).serial = s.serial := rfl
@[simp] theorem State.onLanes_acq (f : LanesBlk → LanesBlk) : (s.onLanes f).acq = s.acq := rfl
@[simp] theorem State.onLanes_lanes (f : LanesBlk → LanesBlk) : (s.onLanes f).lanes = f s.lanes := rfl
@[simp] theorem State.onLanes_store (f : LanesBlk → LanesBlk) : (s.onLanes f).store = s.store := rfl
@[simp] theorem State.onLanes_pending (f : LanesBlk → LanesBlk) : (s.onLanes f).pending = s.pending := rfl
@[simp] theorem State.onStore_sys (f : Store → Store) : (s.onStore f).sys = s.sys := rfl
@[simp] theorem State.onStore_power (f : Store → Store) : (s.onStore f).power = s.power := rfl
@[simp] theorem State.onStore_boot (f : Store → Store) : (s.onStore f).boot = s.boot := rfl
@[simp] theorem State.onStore_pkts (f : Store → Store) : (s.onStore f).pkts = s.pkts := rfl
@[simp] theorem State.onStore_integ (f : Store → Store) : (s.onStore f).integ = s.integ := rfl
@[simp] theorem State.onStore_axis (f : Store → Store) : (s.onStore f).axis = s.axis := rfl
@[simp] theorem State.onStore_plan (f : Store → Store) : (s.onStore f).plan = s.plan := rfl
@[simp] theorem State.onStore_gear (f : Store → Store) : (s.onStore f).gear = s.gear := rfl
@[simp] theorem State.onStore_loop (f : Store → Store) : (s.onStore f).loop = s.loop := rfl
@[simp] theorem State.onStore_ports (f : Store → Store) : (s.onStore f).ports = s.ports := rfl
@[simp] theorem State.onStore_bta (f : Store → Store) : (s.onStore f).bta = s.bta := rfl
@[simp] theorem State.onStore_stepper (f : Store → Store) : (s.onStore f).stepper = s.stepper := rfl
@[simp] theorem State.onStore_bricks (f : Store → Store) : (s.onStore f).bricks = s.bricks := rfl
@[simp] theorem State.onStore_net (f : Store → Store) : (s.onStore f).net = s.net := rfl
@[simp] theorem State.onStore_lodge (f : Store → Store) : (s.onStore f).lodge = s.lodge := rfl
@[simp] theorem State.onStore_fio (f : Store → Store) : (s.onStore f).fio = s.fio := rfl
@[simp] theorem State.onStore_can (f : Store → Store) : (s.onStore f).can = s.can := rfl
@[simp] theorem State.onStore_serial (f : Store → Store) : (s.onStore f).serial = s.serial := rfl
@[simp] theorem State.onStore_acq (f : Store → Store) : (s.onStore f).acq = s.acq := rfl
@[simp] theorem State.onStore_lanes (f : Store → Store) : (s.onStore f).lanes = s.lanes := rfl
@[simp] theorem State.onStore_store (f : Store → Store) : (s.onStore f).store = f s.store := rfl
@[simp] theorem State.onStore_pending (f : Store → Store) : (s.onStore f).pending = s.pending := rfl

end Sys2Proof.Machine
end

