-- ==== Sys2Proof/Laws/Keep.lean ====
section
/-! SUPPORT.
What a function over the state leaves alone, said once for every property at a time: a property P is kept by changes to the listed
blocks (Keeps), and each function keeps every P that changes to its blocks keep. Two uses: P says a block is the same as before (a
frame), or P is State.Good. -/

namespace Sys2Proof.Machine

/-- P is kept by changes to the listed blocks, of which those with a good form stay in it. -/
structure Keeps (bs : List Block) (P : State → Prop) : Prop where
  onSys : bs.contains .sys = true → ∀ s f, (f s.sys).dev = s.sys.dev → (f s.sys).ctx = s.sys.ctx → (f s.sys).free = s.sys.free → P s → P (s.onSys f)
  onPower : bs.contains .power = true → ∀ s f, P s → P (s.onPower f)
  onBoot : bs.contains .boot = true → ∀ s f, P s → P (s.onBoot f)
  onPkts : bs.contains .pkts = true → ∀ s f, (s.pkts.Ok → (f s.pkts).Ok) → P s → P (s.onPkts f)
  onInteg : bs.contains .integ = true → ∀ s f, (s.integ.Ok → (f s.integ).Ok) → (f s.integ).sram = s.integ.sram → P s → P (s.onInteg f)
  onAxis : bs.contains .axis = true → ∀ s f, P s → P (s.onAxis f)
  onPlan : bs.contains .plan = true → ∀ s f, P s → P (s.onPlan f)
  onGear : bs.contains .gear = true → ∀ s f, P s → P (s.onGear f)
  onLoop : bs.contains .loop = true → ∀ s f, P s → P (s.onLoop f)
  onPorts : bs.contains .ports = true → ∀ s f, P s → P (s.onPorts f)
  onBta : bs.contains .bta = true → ∀ s f, P s → P (s.onBta f)
  onStepper : bs.contains .stepper = true → ∀ s f, P s → P (s.onStepper f)
  onBricks : bs.contains .bricks = true → ∀ s f, P s → P (s.onBricks f)
  onNet : bs.contains .net = true → ∀ s f, P s → P (s.onNet f)
  onLodge : bs.contains .lodge = true → ∀ s f, (s.lodge.Ok → (f s.lodge).Ok) → P s → P (s.onLodge f)
  onFio : bs.contains .fio = true → ∀ s f, P s → P (s.onFio f)
  onCan : bs.contains .can = true → ∀ s f, P s → P (s.onCan f)
  onSerial : bs.contains .serial = true → ∀ s f, (∀ i : Fin 4, (f s.serial).sel[i].flash = s.serial.sel[i].flash) → P s → P (s.onSerial f)
  onAcq : bs.contains .acq = true → ∀ s f, P s → P (s.onAcq f)
  onLanes : bs.contains .lanes = true → ∀ s f, (∀ l : Fin 8, (f s.lanes).lane[l].data = s.lanes.lane[l].data) → P s → P (s.onLanes f)
  onStore : bs.contains .store = true → ∀ s f, P s → P (s.onStore f)
  onPending : bs.contains .pending = true → ∀ s l, P s → P { s with pending := l }
  onSram : bs.contains .sram = true → ∀ s m, (Memory.wf 0 s.integ.sram = true → Memory.wf 0 m = true) → P s → P (s.onInteg fun g => { g with sram := m })
  onFlash : bs.contains .flash = true → ∀ s f, (∀ i : Fin 4, Memory.wf 0xFF s.serial.sel[i].flash = true → Memory.wf 0xFF (f s.serial).sel[i].flash = true) →
    P s → P (s.onSerial f)
  onLdata : bs.contains .ldata = true → ∀ s f, (∀ l : Fin 8, Memory.wf 0 s.lanes.lane[l].data = true → Memory.wf 0 (f s.lanes).lane[l].data = true) →
    P s → P (s.onLanes f)
  onDev : bs.contains .dev = true → ∀ s f, (f s.sys).ctx = s.sys.ctx → (f s.sys).free = s.sys.free → P s → P (s.onSys f)
  onCtx : bs.contains .ctx = true → ∀ s (f : Sys → Vector Ctx 6), P s → P (s.onSys fun y => { y with ctx := f y })
  onFree : bs.contains .free = true → ∀ s (n : Sys → Nat), P s → P (s.onSys fun y => { y with free := n y })

variable {P : State → Prop}

theorem Keeps.mem {as bs : List Block} (h : as.all bs.contains = true) (b : Block) (hb : as.contains b = true) :
    bs.contains b = true := by
  rw [List.all_eq_true] at h
  exact h b (by simpa using hb)

/-- Fewer blocks are changed: what keeps P for more blocks keeps it for fewer. -/
theorem Keeps.sub {as bs : List Block} (K : Keeps bs P) (h : as.all bs.contains = true) : Keeps as P :=
  ⟨fun hb => K.onSys (Keeps.mem h _ hb),
   fun hb => K.onPower (Keeps.mem h _ hb),
   fun hb => K.onBoot (Keeps.mem h _ hb),
   fun hb => K.onPkts (Keeps.mem h _ hb),
   fun hb => K.onInteg (Keeps.mem h _ hb),
   fun hb => K.onAxis (Keeps.mem h _ hb),
   fun hb => K.onPlan (Keeps.mem h _ hb),
   fun hb => K.onGear (Keeps.mem h _ hb),
   fun hb => K.onLoop (Keeps.mem h _ hb),
   fun hb => K.onPorts (Keeps.mem h _ hb),
   fun hb => K.onBta (Keeps.mem h _ hb),
   fun hb => K.onStepper (Keeps.mem h _ hb),
   fun hb => K.onBricks (Keeps.mem h _ hb),
   fun hb => K.onNet (Keeps.mem h _ hb),
   fun hb => K.onLodge (Keeps.mem h _ hb),
   fun hb => K.onFio (Keeps.mem h _ hb),
   fun hb => K.onCan (Keeps.mem h _ hb),
   fun hb => K.onSerial (Keeps.mem h _ hb),
   fun hb => K.onAcq (Keeps.mem h _ hb),
   fun hb => K.onLanes (Keeps.mem h _ hb),
   fun hb => K.onStore (Keeps.mem h _ hb),
   fun hb => K.onPending (Keeps.mem h _ hb),
   fun hb => K.onSram (Keeps.mem h _ hb),
   fun hb => K.onFlash (Keeps.mem h _ hb),
   fun hb => K.onLdata (Keeps.mem h _ hb),
   fun hb => K.onDev (Keeps.mem h _ hb),
   fun hb => K.onCtx (Keeps.mem h _ hb),
   fun hb => K.onFree (Keeps.mem h _ hb)⟩

theorem Keeps.power_same {bs : List Block} (h : bs.contains .power = false) (s : State) : Keeps bs (fun t => t.power = s.power) := by
  constructor <;> intro hb <;> first | (intros; assumption) | (rw [h] at hb; cases hb)

theorem Keeps.boot_same {bs : List Block} (h : bs.contains .boot = false) (s : State) : Keeps bs (fun t => t.boot = s.boot) := by
  constructor <;> intro hb <;> first | (intros; assumption) | (rw [h] at hb; cases hb)

theorem Keeps.pkts_same {bs : List Block} (h : bs.contains .pkts = false) (s : State) : Keeps bs (fun t => t.pkts = s.pkts) := by
  constructor <;> intro hb <;> first | (intros; assumption) | (rw [h] at hb; cases hb)

theorem Keeps.integ_same {bs : List Block} (h : bs.contains .integ = false) (h2 : bs.contains .sram = false) (s : State) : Keeps bs (fun t => t.integ = s.integ) := by
  constructor <;> intro hb <;> first | (intros; assumption) | (rw [h] at hb; cases hb) | (rw [h2] at hb; cases hb)

theorem Keeps.axis_same {bs : List Block} (h : bs.contains .axis = false) (s : State) : Keeps bs (fun t => t.axis = s.axis) := by
  constructor <;> intro hb <;> first | (intros; assumption) | (rw [h] at hb; cases hb)

theorem Keeps.plan_same {bs : List Block} (h : bs.contains .plan = false) (s : State) : Keeps bs (fun t => t.plan = s.plan) := by
  constructor <;> intro hb <;> first | (intros; assumption) | (rw [h] at hb; cases hb)

theorem Keeps.gear_same {bs : List Block} (h : bs.contains .gear = false) (s : State) : Keeps bs (fun t => t.gear = s.gear) := by
  constructor <;> intro hb <;> first | (intros; assumption) | (rw [h] at hb; cases hb)

theorem Keeps.loop_same {bs : List Block} (h : bs.contains .loop = false) (s : State) : Keeps bs (fun t => t.loop = s.loop) := by
  constructor <;> intro hb <;> first | (intros; assumption) | (rw [h] at hb; cases hb)

theorem Keeps.ports_same {bs : List Block} (h : bs.contains .ports = false) (s : State) : Keeps bs (fun t => t.ports = s.ports) := by
  constructor <;> intro hb <;> first | (intros; assumption) | (rw [h] at hb; cases hb)

theorem Keeps.bta_same {bs : List Block} (h : bs.contains .bta = false) (s : State) : Keeps bs (fun t => t.bta = s.bta) := by
  constructor <;> intro hb <;> first | (intros; assumption) | (rw [h] at hb; cases hb)

theorem Keeps.stepper_same {bs : List Block} (h : bs.contains .stepper = false) (s : State) : Keeps bs (fun t => t.stepper = s.stepper) := by
  constructor <;> intro hb <;> first | (intros; assumption) | (rw [h] at hb; cases hb)

theorem Keeps.bricks_same {bs : List Block} (h : bs.contains .bricks = false) (s : State) : Keeps bs (fun t => t.bricks = s.bricks) := by
  constructor <;> intro hb <;> first | (intros; assumption) | (rw [h] at hb; cases hb)

theorem Keeps.net_same {bs : List Block} (h : bs.contains .net = false) (s : State) : Keeps bs (fun t => t.net = s.net) := by
  constructor <;> intro hb <;> first | (intros; assumption) | (rw [h] at hb; cases hb)

theorem Keeps.lodge_same {bs : List Block} (h : bs.contains .lodge = false) (s : State) : Keeps bs (fun t => t.lodge = s.lodge) := by
  constructor <;> intro hb <;> first | (intros; assumption) | (rw [h] at hb; cases hb)

theorem Keeps.fio_same {bs : List Block} (h : bs.contains .fio = false) (s : State) : Keeps bs (fun t => t.fio = s.fio) := by
  constructor <;> intro hb <;> first | (intros; assumption) | (rw [h] at hb; cases hb)

theorem Keeps.can_same {bs : List Block} (h : bs.contains .can = false) (s : State) : Keeps bs (fun t => t.can = s.can) := by
  constructor <;> intro hb <;> first | (intros; assumption) | (rw [h] at hb; cases hb)

theorem Keeps.serial_same {bs : List Block} (h : bs.contains .serial = false) (h2 : bs.contains .flash = false) (s : State) : Keeps bs (fun t => t.serial = s.serial) := by
  constructor <;> intro hb <;> first | (intros; assumption) | (rw [h] at hb; cases hb) | (rw [h2] at hb; cases hb)

theorem Keeps.acq_same {bs : List Block} (h : bs.contains .acq = false) (s : State) : Keeps bs (fun t => t.acq = s.acq) := by
  constructor <;> intro hb <;> first | (intros; assumption) | (rw [h] at hb; cases hb)

theorem Keeps.lanes_same {bs : List Block} (h : bs.contains .lanes = false) (h2 : bs.contains .ldata = false) (s : State) : Keeps bs (fun t => t.lanes = s.lanes) := by
  constructor <;> intro hb <;> first | (intros; assumption) | (rw [h] at hb; cases hb) | (rw [h2] at hb; cases hb)

theorem Keeps.store_same {bs : List Block} (h : bs.contains .store = false) (s : State) : Keeps bs (fun t => t.store = s.store) := by
  constructor <;> intro hb <;> first | (intros; assumption) | (rw [h] at hb; cases hb)

theorem Keeps.pending_same {bs : List Block} (h : bs.contains .pending = false) (s : State) : Keeps bs (fun t => t.pending = s.pending) := by
  constructor <;> intro hb <;> first | (intros; assumption) | (rw [h] at hb; cases hb)

/-- The system region is the same but for the device state, the contexts and the count of free values. -/
theorem Keeps.sys_same {bs : List Block} (h : bs.contains .sys = false) (h2 : bs.contains .dev = false) (s : State) :
    Keeps bs (fun t => { t.sys with dev := s.sys.dev, ctx := s.sys.ctx, free := s.sys.free } = s.sys) := by
  constructor <;> intro hb <;> first | (rw [h] at hb; cases hb) | (rw [h2] at hb; cases hb) | (intros; assumption)

/-- The device state is the same. -/
theorem Keeps.dev_same {bs : List Block} (h : bs.contains .dev = false) (s : State) :
    Keeps bs (fun t => t.sys.dev = s.sys.dev) := by
  constructor <;> intro hb <;> first | (rw [h] at hb; cases hb) | (intros; assumption) | (intro t f e _ _ ht; exact e.trans ht)

/-- The contexts are the same. -/
theorem Keeps.ctx_same {bs : List Block} (h : bs.contains .ctx = false) (s : State) :
    Keeps bs (fun t => t.sys.ctx = s.sys.ctx) := by
  constructor <;> intro hb <;> first
    | (rw [h] at hb; cases hb) | (intros; assumption) | (intro t f _ e _ ht; exact e.trans ht) | (intro t f e _ ht; exact e.trans ht)

/-- The count of free values is the same. -/
theorem Keeps.free_same {bs : List Block} (h : bs.contains .free = false) (s : State) :
    Keeps bs (fun t => t.sys.free = s.sys.free) := by
  constructor <;> intro hb <;> first
    | (rw [h] at hb; cases hb) | (intros; assumption) | (intro t f _ _ e ht; exact e.trans ht) | (intro t f _ e ht; exact e.trans ht)

/-- SRAM is the same byte for byte. -/
theorem Keeps.sram_same {bs : List Block} (h : bs.contains .sram = false) (s : State) :
    Keeps bs (fun t => t.integ.sram = s.integ.sram) := by
  constructor <;> intro hb <;> first
    | (rw [h] at hb; cases hb)
    | (intro t f ht; exact ht)
    | (intro t f _ ht; exact ht)
    | (intro t f _ _ ht; exact ht)
    | (intro t f _ _ _ ht; exact ht)
    | (intro t f _ e ht; exact e.trans ht)

/-- Every flash device holds the same bytes. -/
theorem Keeps.flash_same {bs : List Block} (h : bs.contains .flash = false) (s : State) :
    Keeps bs (fun t => ∀ i : Fin 4, t.serial.sel[i].flash = s.serial.sel[i].flash) := by
  constructor <;> intro hb <;> first
    | (rw [h] at hb; cases hb)
    | (intro t f ht; exact ht)
    | (intro t f _ ht; exact ht)
    | (intro t f _ _ ht; exact ht)
    | (intro t f _ _ _ ht; exact ht)
    | (intro t f e ht i; exact (e i).trans (ht i))

/-- Every lane's data memory holds the same bytes. -/
theorem Keeps.ldata_same {bs : List Block} (h : bs.contains .ldata = false) (s : State) :
    Keeps bs (fun t => ∀ l : Fin 8, t.lanes.lane[l].data = s.lanes.lane[l].data) := by
  constructor <;> intro hb <;> first
    | (rw [h] at hb; cases hb)
    | (intro t f ht; exact ht)
    | (intro t f _ ht; exact ht)
    | (intro t f _ _ ht; exact ht)
    | (intro t f _ _ _ ht; exact ht)
    | (intro t f e ht i; exact (e i).trans (ht i))

theorem Good.keeps (bs : List Block) : Keeps bs State.Good := by
  constructor
  · exact fun _ _ f _ _ _ h => h
  · exact fun _ _ f h => h
  · exact fun _ _ f h => h
  · exact fun _ _ f hf h => ⟨hf h.1, h.2⟩
  · exact fun _ _ f hf _ h => ⟨h.1, hf h.2.1, h.2.2⟩
  · exact fun _ _ f h => h
  · exact fun _ _ f h => h
  · exact fun _ _ f h => h
  · exact fun _ _ f h => h
  · exact fun _ _ f h => h
  · exact fun _ _ f h => h
  · exact fun _ _ f h => h
  · exact fun _ _ f h => h
  · exact fun _ _ f h => h
  · exact fun _ _ f hf h => ⟨h.1, h.2.1, h.2.2.1, h.2.2.2.1, hf h.2.2.2.2⟩
  · exact fun _ _ f h => h
  · exact fun _ _ f h => h
  · exact fun _ _ f hf h => ⟨h.1, h.2.1, fun i => (congrArg _ (hf i)).trans (h.2.2.1 i), h.2.2.2⟩
  · exact fun _ _ f h => h
  · exact fun _ _ f hf h => ⟨h.1, h.2.1, h.2.2.1, fun i => (congrArg _ (hf i)).trans (h.2.2.2.1 i), h.2.2.2.2⟩
  · exact fun _ _ f h => h
  · exact fun _ _ f h => h
  · exact fun _ _ m hm h => ⟨h.1, ⟨hm h.2.1.1, h.2.1.2⟩, h.2.2⟩
  · exact fun _ _ f hf h => ⟨h.1, h.2.1, fun i => hf i (h.2.2.1 i), h.2.2.2⟩
  · exact fun _ _ f hf h => ⟨h.1, h.2.1, h.2.2.1, fun i => hf i (h.2.2.2.1 i), h.2.2.2.2⟩
  · exact fun _ _ f _ _ h => h
  · exact fun _ _ f h => h
  · exact fun _ _ f h => h

theorem keep_ite {c : Prop} [Decidable c] {a b : State} (ha : P a) (hb : P b) : P (if c then a else b) := by
  split <;> assumption

theorem keep_dite {c : Prop} [Decidable c] {a b : State} (ha : c → P a) (hb : ¬c → P b) : P (if c then a else b) := by
  split
  · exact ha ‹_›
  · exact hb ‹_›

theorem keep_foldl {α : Type} {f : State → α → State} (hf : ∀ t x, P t → P (f t x)) {l : List α} {s : State} (h : P s) :
    P (l.foldl f s) := by
  induction l generalizing s with
  | nil => exact h
  | cons x l ih => exact ih (hf s x h)

/-- A command answers next, in a state with P. -/
def NextKeeps (P : State → Prop) (o : Host.Outcome State Fault Refusal) : Prop := ∃ t, o = .next t ∧ P t

theorem keep_next {t : State} (h : P t) : NextKeeps P (.next t) := ⟨t, rfl, h⟩

/-- The state an answer leaves has P. -/
inductive Answer.Keeps (P : State → Prop) : Answer → Prop
  | deny {d : Deny} : Answer.Keeps P (.deny d)
  | done {t : State} {r : List Res} (h : P t) : Answer.Keeps P (.done t r)
  | fail {t : State} {d : Deny} (h : P t) : Answer.Keeps P (.fail t d)
  | wait {t : State} {k : Nat} {c : List Nat} (h : P t) : Answer.Keeps P (.wait t k c)

theorem keep_ite_answer {c : Prop} [Decidable c] {a b : Answer} (ha : Answer.Keeps P a) (hb : Answer.Keeps P b) : Answer.Keeps P (if c then a else b) := by
  split <;> assumption

theorem keep_ite_next {c : Prop} [Decidable c] {a b : Host.Outcome State Fault Refusal} (ha : NextKeeps P a) (hb : NextKeeps P b) :
    NextKeeps P (if c then a else b) := by
  split <;> assumption

theorem keep_deny {d : Deny} : Answer.Keeps P (.deny d) := .deny
theorem keep_done {t : State} {r : List Res} (h : P t) : Answer.Keeps P (.done t r) := .done h
theorem keep_fail {t : State} {d : Deny} (h : P t) : Answer.Keeps P (.fail t d) := .fail h
theorem keep_wait {t : State} {k : Nat} {c : List Nat} (h : P t) : Answer.Keeps P (.wait t k c) := .wait h

end Sys2Proof.Machine
end

