-- ==== Sys2Proof/Laws/KeepBtaCore.lean ====
section
/-! SUPPORT.
What each function of Machine/BtaCore.lean keeps. -/

namespace Sys2Proof.Machine

theorem refreshLeg_keeps {P : State → Prop} (K : Keeps [.bta] P) {n : Fin 96} {s : State} (h : P s) :
    P (refreshLeg n s) := by
  unfold refreshLeg
  try dsimp only
  repeat' first
    | with_reducible first
      | assumption
      | refine K.onBta rfl _ _ ?_
    | exact rfl
    | (dsimp only)


theorem refreshGroup_keeps {P : State → Prop} (K : Keeps [.bta] P) {g : Fin 32} {s : State} (h : P s) :
    P (refreshGroup g s) := by
  unfold refreshGroup
  try dsimp only
  repeat' first
    | with_reducible first
      | assumption
      | refine refreshLeg_keeps K ?_
      | refine keep_foldl (P := P) (fun _ _ _ => ?_) ?_
    | exact rfl
    | (dsimp only)


theorem refreshAll_keeps {P : State → Prop} (K : Keeps [.bta] P) {s : State} (h : P s) :
    P (refreshAll s) := by
  unfold refreshAll
  try dsimp only
  repeat' first
    | with_reducible first
      | assumption
      | refine refreshGroup_keeps K ?_
      | refine keep_foldl (P := P) (fun _ _ _ => ?_) ?_
    | exact rfl
    | (dsimp only)


theorem onGrp_keeps {P : State → Prop} (K : Keeps [.bta] P) {g : Fin 32} {f : BtaGroup → BtaGroup} {s : State} (h : P s) :
    P (onGrp g f s) := by
  unfold onGrp
  try dsimp only
  repeat' first
    | with_reducible first
      | assumption
      | refine K.onBta rfl _ _ ?_
    | exact rfl
    | (dsimp only)


theorem onLeg_keeps {P : State → Prop} (K : Keeps [.bta] P) {n : Fin 96} {f : Leg → Leg} {s : State} (h : P s) :
    P (onLeg n f s) := by
  unfold onLeg
  try dsimp only
  repeat' first
    | with_reducible first
      | assumption
      | refine K.onBta rfl _ _ ?_
    | exact rfl
    | (dsimp only)


theorem overrideGroup_keeps {P : State → Prop} (K : Keeps [.bta] P) {kind : Nat} {g : Fin 32} {s : State} (h : P s) :
    P (overrideGroup kind g s) := by
  unfold overrideGroup
  try dsimp only
  repeat' first
    | with_reducible first
      | assumption
      | refine refreshGroup_keeps K ?_
      | refine onGrp_keeps K ?_
    | exact rfl
    | (dsimp only)


theorem releaseGroup_keeps {P : State → Prop} (K : Keeps [.bta] P) {g : Fin 32} {s : State} (h : P s) :
    P (releaseGroup g s) := by
  unfold releaseGroup
  try dsimp only
  repeat' first
    | with_reducible first
      | assumption
      | refine onGrp_keeps K ?_
    | exact rfl
    | (dsimp only)


theorem stoLatchAll_keeps {P : State → Prop} (K : Keeps [.bta] P) {s : State} (h : P s) :
    P (stoLatchAll s) := by
  unfold stoLatchAll
  try dsimp only
  repeat' first
    | with_reducible first
      | assumption
      | refine refreshAll_keeps K ?_
      | refine K.onBta rfl _ _ ?_
    | exact rfl
    | (dsimp only)


end Sys2Proof.Machine
end

