-- ==== Sys2Proof/Laws/KeepOps.lean ====
section
/-! SUPPORT.
What each function of Machine/Ops.lean keeps. -/

namespace Sys2Proof.Machine

theorem fresh_keeps {P : State → Prop} (K : Keeps [.free] P) {s : State} (h : P s) :
    P (fresh s).2 := by
  unfold fresh
  try dsimp only
  repeat' first
    | with_reducible first
      | assumption
      | refine K.onFree rfl _ _ ?_
    | exact rfl
    | (dsimp only)

theorem fresh_out {P : State → Prop} (K : Keeps [.free] P) {s : State} (h : P s) {o} {u : State}
    (hout : fresh s = (o, u)) : P u := by
  have hu := fresh_keeps K h (P := P)
  rw [hout] at hu
  exact hu


theorem freshNat_keeps {P : State → Prop} (K : Keeps [.free] P) {s : State} (h : P s) :
    P (freshNat s).2 := by
  unfold freshNat
  try dsimp only
  repeat' first
    | with_reducible first
      | assumption
      | refine fresh_keeps K ?_
      | refine fresh_out K ?_ ‹_›
    | exact rfl
    | (dsimp only)

theorem freshNat_out {P : State → Prop} (K : Keeps [.free] P) {s : State} (h : P s) {o} {u : State}
    (hout : freshNat s = (o, u)) : P u := by
  have hu := freshNat_keeps K h (P := P)
  rw [hout] at hu
  exact hu


theorem freshInt_keeps {P : State → Prop} (K : Keeps [.free] P) {s : State} (h : P s) :
    P (freshInt s).2 := by
  unfold freshInt
  try dsimp only
  repeat' first
    | with_reducible first
      | assumption
      | refine fresh_keeps K ?_
      | refine fresh_out K ?_ ‹_›
    | exact rfl
    | (dsimp only)

theorem freshInt_out {P : State → Prop} (K : Keeps [.free] P) {s : State} (h : P s) {o} {u : State}
    (hout : freshInt s = (o, u)) : P u := by
  have hu := freshInt_keeps K h (P := P)
  rw [hout] at hu
  exact hu


theorem freshBool_keeps {P : State → Prop} (K : Keeps [.free] P) {s : State} (h : P s) :
    P (freshBool s).2 := by
  unfold freshBool
  try dsimp only
  repeat' first
    | with_reducible first
      | assumption
      | refine fresh_keeps K ?_
      | refine fresh_out K ?_ ‹_›
    | exact rfl
    | (dsimp only)

theorem freshBool_out {P : State → Prop} (K : Keeps [.free] P) {s : State} (h : P s) {o} {u : State}
    (hout : freshBool s = (o, u)) : P u := by
  have hu := freshBool_keeps K h (P := P)
  rw [hout] at hu
  exact hu


theorem event_keeps {P : State → Prop} (K : Keeps [.integ] P) {code : Nat} {index : Nat} {detail : List Sys2Proof.Byte} {s : State} (h : P s) :
    P (event code index detail s) := by
  unfold event
  try dsimp only
  repeat' first
    | with_reducible first
      | assumption
      | refine K.onInteg rfl _ _ (fun hx => ?_) ?_ ?_
      | refine keep_ite (P := P) ?_ ?_
    | exact hx
    | exact rfl
    | (refine ⟨?_, ?_, ?_⟩ <;> first | exact hx.1 | exact hx.2.1 | exact hx.2.2 | (have h1 := hx.1; have h2 := hx.2.1; have h3 := hx.2.2; simp at h1 h2 h3 ⊢; omega))
    | split
    | (dsimp only)


theorem events_keeps {P : State → Prop} (K : Keeps [.integ] P) {n : Nat} {code : Nat} {index : Nat} {detail : List Sys2Proof.Byte} {s : State} (h : P s) :
    P (events n code index detail s) := by
  unfold events
  try dsimp only
  repeat' first
    | with_reducible first
      | assumption
      | refine K.onInteg rfl _ _ (fun hx => ?_) ?_ ?_
    | exact hx
    | exact rfl
    | (refine ⟨?_, ?_, ?_⟩ <;> first | exact hx.1 | exact hx.2.1 | exact hx.2.2 | (have h1 := hx.1; have h2 := hx.2.1; have h3 := hx.2.2; simp at h1 h2 h3 ⊢; omega))
    | (dsimp only)


theorem recordFault_keeps {P : State → Prop} (K : Keeps [.integ] P) {code cls index detail : Nat} {present : Bool} {s : State} (h : P s) :
    P (recordFault code cls index detail present s) := by
  refine K.onInteg rfl _ _ (fun hx => ?_) (by dsimp only [pushFault]; split <;> rfl) h
  refine ⟨?_, ?_, ?_⟩
  · dsimp only [pushFault]
    split <;> exact hx.1
  · have h2 := hx.2.1
    dsimp only [pushFault]
    split <;> simp <;> omega
  · dsimp only [pushFault]
    split <;> exact hx.2.2


theorem setCause_keeps {P : State → Prop} (K : Keeps [.integ] P) {code : Nat} {index : Nat} {present : Bool} {s : State} (h : P s) :
    P (setCause code index present s) := by
  unfold setCause
  try dsimp only
  repeat' first
    | with_reducible first
      | assumption
      | refine K.onInteg rfl _ _ (fun hx => ?_) ?_ ?_
      | refine keep_ite (P := P) ?_ ?_
    | exact hx
    | exact rfl
    | (refine ⟨?_, ?_, ?_⟩ <;> first | exact hx.1 | exact hx.2.1 | exact hx.2.2 | (have h1 := hx.1; have h2 := hx.2.1; have h3 := hx.2.2; simp at h1 h2 h3 ⊢; omega))
    | split
    | (dsimp only)


theorem permissionEvent_keeps {P : State → Prop} (K : Keeps [.integ] P) {c : Fin 6} {a : Nat} {write : Bool} {ignored : Nat} {s : State} (h : P s) :
    P (permissionEvent c a write ignored s) := by
  unfold permissionEvent
  try dsimp only
  repeat' first
    | with_reducible first
      | assumption
      | refine event_keeps K ?_
    | exact rfl
    | (dsimp only)


theorem settleUpdate_keeps {P : State → Prop} (K : Keeps [.sys] P) {n : Nat} {s : State} (h : P s) :
    P (settleUpdate n s) := by
  unfold settleUpdate
  try dsimp only
  repeat' first
    | with_reducible first
      | assumption
      | refine K.onSys rfl _ _ rfl rfl rfl ?_
      | refine keep_ite (P := P) ?_ ?_
    | exact rfl
    | split
    | (dsimp only)


end Sys2Proof.Machine
end

