-- ==== Sys2Proof/Laws/KeepReply.lean ====
section
/-! SUPPORT.
What each function of Machine/Reply.lean keeps. -/

namespace Sys2Proof.Machine

theorem emit_keeps {P : State → Prop} (K : Keeps [.pkts] P) {src : Sys2Proof.Source} {p : List Sys2Proof.Byte} {s : State} (h : P s) :
    P (emit src p s) := by
  unfold emit
  try dsimp only
  repeat' first
    | with_reducible first
      | assumption
      | refine K.onPkts rfl _ _ (fun hx => ?_) ?_
      | refine keep_ite (P := P) ?_ ?_
    | exact hx
    | exact rfl
    | (refine ⟨?_, ?_, ?_⟩ <;> first | exact hx.1 | exact hx.2.1 | exact hx.2.2 | (have h1 := hx.1; have h2 := hx.2.1; have h3 := hx.2.2; simp at h1 h2 h3 ⊢; omega))
    | split
    | (dsimp only)


theorem cacheReply_keeps {P : State → Prop} (K : Keeps [.pkts] P) {rq : Sys2Proof.Request} {p : List Sys2Proof.Byte} {s : State} (h : P s) :
    P (cacheReply rq p s) := by
  unfold cacheReply
  try dsimp only
  repeat' first
    | with_reducible first
      | assumption
      | refine K.onPkts rfl _ _ (fun hx => ?_) ?_
      | refine keep_ite (P := P) ?_ ?_
    | exact hx
    | exact rfl
    | (refine ⟨?_, ?_, ?_⟩ <;> first | exact hx.1 | exact hx.2.1 | exact hx.2.2 | (have h1 := hx.1; have h2 := hx.2.1; have h3 := hx.2.2; simp at h1 h2 h3 ⊢; omega))
    | split
    | (dsimp only)


theorem countAuthFail_keeps {P : State → Prop} (K : Keeps [.pkts] P) {src : Sys2Proof.Source} {st : Status} {s : State} (h : P s) :
    P (countAuthFail src st s) := by
  unfold countAuthFail
  try dsimp only
  repeat' first
    | with_reducible first
      | assumption
      | refine K.onPkts rfl _ _ (fun hx => ?_) ?_
      | refine keep_ite (P := P) ?_ ?_
    | exact hx
    | exact rfl
    | (refine ⟨?_, ?_, ?_⟩ <;> first | exact hx.1 | exact hx.2.1 | exact hx.2.2 | (have h1 := hx.1; have h2 := hx.2.1; have h3 := hx.2.2; simp at h1 h2 h3 ⊢; omega))
    | split
    | (dsimp only)


theorem refusePlain_keeps {P : State → Prop} (K : Keeps [.pkts] P) {opcode : Nat} {version : Nat} {rq : Sys2Proof.Request} {d : Deny} {s : State} (h : P s) :
    P (refusePlain opcode version rq d s) := by
  unfold refusePlain
  try dsimp only
  repeat' first
    | with_reducible first
      | assumption
      | refine emit_keeps K ?_
      | refine countAuthFail_keeps K ?_
    | exact rfl
    | (dsimp only)


theorem answerHeld_keeps {P : State → Prop} (K : Keeps [.pkts] P) {rq : Sys2Proof.Request} {st : Status} {p : List Sys2Proof.Byte} {s : State} (h : P s) :
    P (answerHeld rq st p s) := by
  unfold answerHeld
  try dsimp only
  repeat' first
    | with_reducible first
      | assumption
      | refine emit_keeps K ?_
      | refine K.onPkts rfl _ _ (fun hx => ?_) ?_
      | refine keep_foldl (P := P) (fun _ _ _ => ?_) ?_
    | exact hx
    | exact rfl
    | (refine ⟨?_, ?_, ?_⟩ <;> first | exact hx.1 | exact hx.2.1 | exact hx.2.2 | (have h1 := hx.1; have h2 := hx.2.1; have h3 := hx.2.2; simp at h1 h2 h3 ⊢; omega))
    | (dsimp only)


theorem sendReply_keeps {P : State → Prop} (K : Keeps [.pkts] P) {opcode : Nat} {rq : Sys2Proof.Request} {st : Status} {results : List Res} {deferred : Bool} {s : State} (h : P s) :
    P (sendReply opcode rq st results deferred s) := by
  unfold sendReply
  try dsimp only
  repeat' first
    | with_reducible first
      | assumption
      | refine cacheReply_keeps K ?_
      | refine countAuthFail_keeps K ?_
      | refine answerHeld_keeps K ?_
      | refine emit_keeps K ?_
      | refine keep_ite (P := P) ?_ ?_
    | exact rfl
    | split
    | (dsimp only)


theorem finish_keeps {P : State → Prop} (K : Keeps [.pkts] P) {p : Exec → Bool} {st : Status} {results : List Res} {s : State} (h : P s) :
    P (finish p st results s) := by
  unfold finish
  try dsimp only
  repeat' first
    | with_reducible first
      | assumption
      | refine sendReply_keeps K ?_
      | refine K.onPkts rfl _ _ (fun hx => ?_) ?_
      | refine keep_foldl (P := P) (fun _ _ _ => ?_) ?_
    | exact hx
    | exact rfl
    | (refine ⟨?_, ?_, ?_⟩ <;> first | exact hx.1 | exact hx.2.1 | exact hx.2.2 | (have h1 := hx.1; have h2 := hx.2.1; have h3 := hx.2.2; simp at h1 h2 h3 ⊢; omega))
    | (dsimp only)


theorem finishDeny_keeps {P : State → Prop} (K : Keeps [.pkts] P) {p : Exec → Bool} {d : Deny} {s : State} (h : P s) :
    P (finishDeny p d s) := by
  unfold finishDeny
  try dsimp only
  repeat' first
    | with_reducible first
      | assumption
      | refine finish_keeps K ?_
    | exact rfl
    | (dsimp only)


end Sys2Proof.Machine
end

