-- ==== Sys2Proof/Laws/KeepAxisCore.lean ====
section
/-! SUPPORT.
What each function of Machine/AxisCore.lean keeps. -/

namespace Sys2Proof.Machine

theorem onAx_keeps {P : State → Prop} (K : Keeps [.axis] P) {i : Fin 64} {f : Axis → Axis} {s : State} (h : P s) :
    P (onAx i f s) := by
  unfold onAx
  try dsimp only
  repeat' first
    | with_reducible first
      | assumption
      | refine K.onAxis rfl _ _ ?_
    | exact rfl
    | (dsimp only)


theorem onStep_keeps {P : State → Prop} (K : Keeps [.stepper] P) {i : Fin 64} {f : Stepper → Stepper} {s : State} (h : P s) :
    P (onStep i f s) := by
  unfold onStep
  try dsimp only
  repeat' first
    | with_reducible first
      | assumption
      | refine K.onStepper rfl _ _ ?_
    | exact rfl
    | (dsimp only)


theorem bridgeDown_keeps {P : State → Prop} (K : Keeps [.stepper] P) {i : Fin 64} {off : Bool} {s : State} (h : P s) :
    P (bridgeDown i off s) := by
  unfold bridgeDown
  try dsimp only
  repeat' first
    | with_reducible first
      | assumption
      | refine onStep_keeps K ?_
      | refine keep_ite (P := P) ?_ ?_
    | exact rfl
    | split
    | (dsimp only)


theorem onChannel_keeps {P : State → Prop} (K : Keeps [.bricks] P) {i : Fin 64} {f : Channel → Channel} {s : State} (h : P s) :
    P (onChannel i f s) := by
  unfold onChannel
  try dsimp only
  repeat' first
    | with_reducible first
      | assumption
      | refine K.onBricks rfl _ _ ?_
      | refine keep_ite (P := P) ?_ ?_
    | exact rfl
    | split
    | (dsimp only)


theorem answerStops_keeps {P : State → Prop} (K : Keeps [.pkts] P) {i : Fin 64} {s : State} (h : P s) :
    P (answerStops i s) := by
  unfold answerStops
  try dsimp only
  repeat' first
    | with_reducible first
      | assumption
      | refine finish_keeps K ?_
      | refine keep_ite (P := P) ?_ ?_
    | exact rfl
    | split
    | (dsimp only)


theorem declutch_keeps {P : State → Prop} (K : Keeps [.gear] P) {i : Fin 64} {s : State} (h : P s) :
    P (declutch i s) := by
  unfold declutch
  try dsimp only
  repeat' first
    | with_reducible first
      | assumption
      | refine K.onGear rfl _ _ ?_
    | exact rfl
    | (dsimp only)


theorem planEnd_keeps {P : State → Prop} (K : Keeps [.pkts, .plan, .gear] P) {i : Fin 64} {s : State} (h : P s) :
    P (planEnd i s) := by
  have K1 := K.sub (as := [.pkts]) rfl
  have K2 := K.sub (as := [.gear]) rfl
  unfold planEnd
  try dsimp only
  repeat' first
    | with_reducible first
      | assumption
      | refine answerStops_keeps K1 ?_
      | refine finishDeny_keeps K1 ?_
      | refine declutch_keeps K2 ?_
      | refine K.onPlan rfl _ _ ?_
    | exact rfl
    | (dsimp only)


theorem loopsStop_keeps {P : State → Prop} (K : Keeps [.loop] P) {i : Fin 64} {s : State} (h : P s) :
    P (loopsStop i s) := by
  unfold loopsStop
  try dsimp only
  repeat' first
    | with_reducible first
      | assumption
      | refine K.onLoop rfl _ _ ?_
    | exact rfl
    | (dsimp only)


theorem outputFor_keeps {P : State → Prop} (K : Keeps [.bta, .stepper, .bricks] P) {i : Fin 64} {r : Nat} {s : State} (h : P s) :
    P (outputFor i r s) := by
  have K1 := K.sub (as := [.bta]) rfl
  have K2 := K.sub (as := [.stepper]) rfl
  have K3 := K.sub (as := [.bricks]) rfl
  unfold outputFor
  try dsimp only
  repeat' first
    | with_reducible first
      | assumption
      | refine overrideGroup_keeps K1 ?_
      | refine bridgeDown_keeps K2 ?_
      | refine onChannel_keeps K3 ?_
      | refine keep_ite (P := P) ?_ ?_
      | refine keep_foldl (P := P) (fun _ _ _ => ?_) ?_
    | exact rfl
    | split
    | (dsimp only)


theorem takeReaction_keeps {P : State → Prop} (K : Keeps [.pkts, .axis, .plan, .gear, .loop, .bta, .stepper, .bricks] P) {i : Fin 64} {r : Nat} {cause : Nat} {s : State} (h : P s) :
    P (takeReaction i r cause s) := by
  have K1 := K.sub (as := [.axis]) rfl
  have K2 := K.sub (as := [.bta, .stepper, .bricks]) rfl
  have K3 := K.sub (as := [.pkts, .plan, .gear]) rfl
  have K4 := K.sub (as := [.loop]) rfl
  have K5 := K.sub (as := [.pkts]) rfl
  unfold takeReaction
  try dsimp only
  repeat' first
    | with_reducible first
      | assumption
      | refine onAx_keeps K1 ?_
      | refine outputFor_keeps K2 ?_
      | refine planEnd_keeps K3 ?_
      | refine loopsStop_keeps K4 ?_
      | refine finishDeny_keeps K5 ?_
      | refine K.onLoop rfl _ _ ?_
      | refine keep_ite (P := P) ?_ ?_
    | exact rfl
    | split
    | (dsimp only)


theorem axisFault_keeps {P : State → Prop} (K : Keeps [.pkts, .integ, .axis, .plan, .gear, .loop, .bta, .stepper, .bricks] P) {i : Fin 64} {cause : Nat} {det : Nat} {s : State} (h : P s) :
    P (axisFault i cause det s) := by
  have K1 := K.sub (as := [.integ]) rfl
  have K2 := K.sub (as := [.pkts, .axis, .plan, .gear, .loop, .bta, .stepper, .bricks]) rfl
  have K3 := K.sub (as := [.axis]) rfl
  unfold axisFault
  try dsimp only
  repeat' first
    | with_reducible first
      | assumption
      | refine recordFault_keeps K1 ?_
      | refine takeReaction_keeps K2 ?_
      | refine onAx_keeps K3 ?_
      | refine keep_ite (P := P) ?_ ?_
    | exact rfl
    | split
    | (dsimp only)


theorem axisFaults_keeps {P : State → Prop} (K : Keeps [.pkts, .integ, .axis, .plan, .gear, .loop, .bta, .stepper, .bricks] P) {l : List (Fin 64)} {cause : Nat} {det : Nat} {s : State} (h : P s) :
    P (axisFaults l cause det s) := by
  unfold axisFaults
  try dsimp only
  repeat' first
    | with_reducible first
      | assumption
      | refine axisFault_keeps K ?_
      | refine keep_foldl (P := P) (fun _ _ _ => ?_) ?_
    | exact rfl
    | (dsimp only)


theorem enterRecovery_keeps {P : State → Prop} (K : Keeps [.sys, .pkts, .integ, .axis, .plan, .gear, .loop, .bta, .stepper, .bricks, .dev] P) {s : State} (h : P s) :
    P (enterRecovery s) := by
  have K1 := K.sub (as := [.pkts, .integ, .axis, .plan, .gear, .loop, .bta, .stepper, .bricks]) rfl
  unfold enterRecovery
  try dsimp only
  repeat' first
    | with_reducible first
      | assumption
      | refine axisFaults_keeps K1 ?_
      | refine K.onDev rfl _ _ rfl rfl ?_
    | exact rfl
    | (dsimp only)


theorem deviceFault_keeps {P : State → Prop} (K : Keeps [.sys, .pkts, .integ, .axis, .plan, .gear, .loop, .bta, .stepper, .bricks, .dev] P) {code : Nat} {index : Nat} {det : Nat} {stays : Bool} {s : State} (h : P s) :
    P (deviceFault code index det stays s) := by
  have K1 := K.sub (as := [.integ]) rfl
  unfold deviceFault
  try dsimp only
  repeat' first
    | with_reducible first
      | assumption
      | refine recordFault_keeps K1 ?_
      | refine setCause_keeps K1 ?_
      | refine enterRecovery_keeps K ?_
      | refine keep_ite (P := P) ?_ ?_
    | exact rfl
    | split
    | (dsimp only)


theorem stoAssert_keeps {P : State → Prop} (K : Keeps [.pkts, .integ, .axis, .plan, .gear, .loop, .bta, .stepper, .bricks] P) {s : State} (h : P s) :
    P (stoAssert s) := by
  have K1 := K.sub (as := [.bta]) rfl
  unfold stoAssert
  try dsimp only
  repeat' first
    | with_reducible first
      | assumption
      | refine stoLatchAll_keeps K1 ?_
      | refine axisFaults_keeps K ?_
      | refine K.onBricks rfl _ _ ?_
    | exact rfl
    | (dsimp only)


/-- What a device keeps over a Reset is in good form. -/
theorem kept_wf {k : Nat} {x : SpmSel} (h : Memory.wf 0xFF x.flash = true) : Memory.wf 0xFF (x.kept k).flash = true := by
  show Memory.wf 0xFF (if x.opBusy then spoiled k x else x.flash) = true
  split
  · exact spoiled_wf h
  · exact h

theorem enterReset_keeps {P : State → Prop} (K : Keeps [.sys, .power, .boot, .pkts, .integ, .axis, .plan, .gear, .loop, .ports, .bta, .stepper, .bricks, .net, .can, .serial, .acq, .lanes, .flash, .ldata, .dev, .ctx, .free] P) {s : State} (h : P s) : P (enterReset s) := by
  have e : enterReset s = ((((((((((((((((((((s.onSys fun y => { (enterReset s).sys with ctx := y.ctx, free := y.free }).onSys fun y => { y with ctx := (enterReset s).sys.ctx }).onSys fun y => { y with free := (enterReset s).sys.free }).onPower fun _ => (enterReset s).power).onBoot fun _ => (enterReset s).boot).onPkts fun _ => (enterReset s).pkts).onInteg fun _ => (enterReset s).integ).onAxis fun _ => (enterReset s).axis).onPlan fun _ => (enterReset s).plan).onGear fun _ => (enterReset s).gear).onLoop fun _ => (enterReset s).loop).onPorts fun _ => (enterReset s).ports).onBta fun _ => (enterReset s).bta).onStepper fun _ => (enterReset s).stepper).onBricks fun _ => (enterReset s).bricks).onNet fun _ => (enterReset s).net).onCan fun _ => (enterReset s).can).onSerial fun _ => (enterReset s).serial).onAcq fun _ => (enterReset s).acq).onLanes fun _ => (enterReset s).lanes) := rfl
  rw [e]
  refine K.onLdata rfl _ _ (fun _ _ => by simp [enterReset, State.reset]; rfl) ?_
  refine K.onAcq rfl _ _ ?_
  refine K.onFlash rfl _ _ (fun i hx => by
    show Memory.wf 0xFF (updAll s.serial.sel fun _ x => x.kept s.sys.free)[i].flash = true
    rw [updAll_get]
    exact kept_wf hx) ?_
  refine K.onCan rfl _ _ ?_
  refine K.onNet rfl _ _ ?_
  refine K.onBricks rfl _ _ ?_
  refine K.onStepper rfl _ _ ?_
  refine K.onBta rfl _ _ ?_
  refine K.onPorts rfl _ _ ?_
  refine K.onLoop rfl _ _ ?_
  refine K.onGear rfl _ _ ?_
  refine K.onPlan rfl _ _ ?_
  refine K.onAxis rfl _ _ ?_
  refine K.onInteg rfl _ _ (fun hx => ⟨hx.1, hx.2.1, Nat.zero_le _⟩) rfl ?_
  refine K.onPkts rfl _ _ (fun _ => ⟨Nat.zero_le _, Nat.zero_le _, Nat.zero_le _⟩) ?_
  refine K.onBoot rfl _ _ ?_
  refine K.onPower rfl _ _ ?_
  refine K.onFree rfl _ _ ?_
  refine K.onCtx rfl _ _ ?_
  refine K.onDev rfl _ _ rfl rfl ?_
  exact h


end Sys2Proof.Machine
end

