-- ==== Sys2Proof/Laws/KeepIntegCore.lean ====
section
/-! SUPPORT.
What each function of Machine/IntegCore.lean keeps. -/

namespace Sys2Proof.Machine

theorem clearPoison_keeps {P : State → Prop} (K : Keeps [.integ] P) {base : Nat} {len : Nat} {s : State} (h : P s) :
    P (clearPoison base len s) := by
  unfold clearPoison
  try dsimp only
  repeat' first
    | with_reducible first
      | assumption
      | refine K.onInteg rfl _ _ (fun hx => ?_) ?_ ?_
    | exact hx
    | exact rfl
    | (refine ⟨?_, ?_, ?_⟩ <;> first | exact hx.1 | exact hx.2.1 | exact hx.2.2 | (have h1 := hx.1; have h2 := hx.2.1; have h3 := hx.2.2; simp at h1 h2 h3 ⊢; omega))
    | (dsimp only)


theorem onMemTally_keeps {P : State → Prop} (K : Keeps [.integ] P) {m : Fin 8} {f : IntegrityTally → IntegrityTally} {s : State} (h : P s) :
    P (onMemTally m f s) := by
  unfold onMemTally
  try dsimp only
  repeat' first
    | with_reducible first
      | assumption
      | refine K.onInteg rfl _ _ (fun hx => ?_) ?_ ?_
    | exact hx
    | exact rfl
    | (refine ⟨?_, ?_, ?_⟩ <;> first | exact hx.1 | exact hx.2.1 | exact hx.2.2 | (have h1 := hx.1; have h2 := hx.2.1; have h3 := hx.2.2; simp at h1 h2 h3 ⊢; omega))
    | (dsimp only)


theorem countPoison_keeps {P : State → Prop} (K : Keeps [.integ] P) {addr : Nat} {s : State} (h : P s) :
    P (countPoison addr s) := by
  unfold countPoison
  try dsimp only
  repeat' first
    | with_reducible first
      | assumption
      | refine onMemTally_keeps K ?_
      | refine K.onInteg rfl _ _ (fun hx => ?_) ?_ ?_
      | refine keep_ite (P := P) ?_ ?_
    | exact hx
    | exact rfl
    | (refine ⟨?_, ?_, ?_⟩ <;> first | exact hx.1 | exact hx.2.1 | exact hx.2.2 | (have h1 := hx.1; have h2 := hx.2.1; have h3 := hx.2.2; simp at h1 h2 h3 ⊢; omega))
    | split
    | (dsimp only)


theorem recordPoison_keeps {P : State → Prop} (K : Keeps [.integ] P) {index : Nat} {addr : Nat} {s : State} (h : P s) :
    P (recordPoison index addr s) := by
  unfold recordPoison
  try dsimp only
  repeat' first
    | with_reducible first
      | assumption
      | refine recordFault_keeps K ?_
      | refine countPoison_keeps K ?_
    | exact rfl
    | (dsimp only)


end Sys2Proof.Machine
end

