-- ==== Sys2Proof/Laws/KeepAdmission.lean ====
section
/-! SUPPORT.
What each function of Machine/Admission.lean keeps. -/

namespace Sys2Proof.Machine

theorem mapLoops_keeps {P : State → Prop} (K : Keeps [.loop] P) {f : Fin 64 → Fin 3 → LoopSt → LoopSt} {s : State} (h : P s) :
    P (mapLoops f s) := by
  unfold mapLoops
  try dsimp only
  repeat' first
    | with_reducible first
      | assumption
      | refine K.onLoop rfl _ _ ?_
    | exact rfl
    | (dsimp only)


theorem reportSlack_keeps {P : State → Prop} (K : Keeps [.loop] P) {s : State} (h : P s) :
    P (reportSlack s) := by
  unfold reportSlack
  try dsimp only
  repeat' first
    | with_reducible first
      | assumption
      | refine mapLoops_keeps K ?_
    | exact rfl
    | split
    | (dsimp only)


theorem enterPower_keeps {P : State → Prop} (K : Keeps [.power, .bta] P) {p : PowerState} {s : State} (h : P s) :
    P (enterPower p s) := by
  have K1 := K.sub (as := [.bta]) rfl
  unfold enterPower
  try dsimp only
  repeat' first
    | with_reducible first
      | assumption
      | refine refreshAll_keeps K1 ?_
      | refine K.onPower rfl _ _ ?_
      | refine keep_ite (P := P) ?_ ?_
    | exact rfl
    | split
    | (dsimp only)


theorem aimOp_keeps {P : State → Prop} (K : Keeps [.power] P) {op : Nat} {s : State} (h : P s) :
    P (aimOp op s) := by
  unfold aimOp
  try dsimp only
  repeat' first
    | with_reducible first
      | assumption
      | refine K.onPower rfl _ _ ?_
    | exact rfl
    | (dsimp only)


theorem reselect_keeps {P : State → Prop} (K : Keeps [.power, .loop, .bta] P) {s : State} (h : P s) :
    P (reselect s) := by
  have K1 := K.sub (as := [.power, .bta]) rfl
  have K2 := K.sub (as := [.loop]) rfl
  have K3 := K.sub (as := [.power]) rfl
  unfold reselect
  try dsimp only
  repeat' first
    | with_reducible first
      | assumption
      | refine enterPower_keeps K1 ?_
      | refine reportSlack_keeps K2 ?_
      | refine aimOp_keeps K3 ?_
      | refine K.onPower rfl _ _ ?_
      | refine keep_ite (P := P) ?_ ?_
    | exact rfl
    | split
    | (dsimp only)


end Sys2Proof.Machine
end

