-- ==== Sys2Proof/Laws/KeepBtaOps.lean ====
section
/-! SUPPORT.
What each function of Machine/BtaOps.lean keeps. -/

namespace Sys2Proof.Machine

theorem writeDuty_keeps {P : State → Prop} (K : Keeps [.bta] P) {n : Fin 96} {num : Nat} {den : Nat} {s : State} (h : P s) :
    P (writeDuty n num den s) := by
  unfold writeDuty
  try dsimp only
  repeat' first
    | with_reducible first
      | assumption
      | refine onLeg_keeps K ?_
      | refine onGrp_keeps K ?_
    | exact rfl
    | (dsimp only)


theorem armGroup_keeps {P : State → Prop} (K : Keeps [.bta] P) {g : Fin 32} {s : State} (h : P s) :
    P (armGroup g s) := by
  unfold armGroup
  try dsimp only
  repeat' first
    | with_reducible first
      | assumption
      | refine onGrp_keeps K ?_
      | refine onLeg_keeps K ?_
      | refine keep_ite (P := P) ?_ ?_
      | refine keep_foldl (P := P) (fun _ _ _ => ?_) ?_
    | exact rfl
    | split
    | (dsimp only)


theorem startGroup_keeps {P : State → Prop} (K : Keeps [.bta] P) {g : Fin 32} {s : State} (h : P s) :
    P (startGroup g s) := by
  unfold startGroup
  try dsimp only
  repeat' first
    | with_reducible first
      | assumption
      | refine onGrp_keeps K ?_
      | refine onLeg_keeps K ?_
      | refine keep_foldl (P := P) (fun _ _ _ => ?_) ?_
    | exact rfl
    | (dsimp only)


theorem stopGroup_keeps {P : State → Prop} (K : Keeps [.bta] P) {g : Fin 32} {s : State} (h : P s) :
    P (stopGroup g s) := by
  unfold stopGroup
  try dsimp only
  repeat' first
    | with_reducible first
      | assumption
      | refine onGrp_keeps K ?_
      | refine onLeg_keeps K ?_
      | refine keep_foldl (P := P) (fun _ _ _ => ?_) ?_
    | exact rfl
    | (dsimp only)


theorem transferGroup_keeps {P : State → Prop} (K : Keeps [.integ, .bta] P) {g : Fin 32} {s : State} (h : P s) :
    P (transferGroup g s) := by
  have K1 := K.sub (as := [.bta]) rfl
  have K2 := K.sub (as := [.integ]) rfl
  unfold transferGroup
  try dsimp only
  repeat' first
    | with_reducible first
      | assumption
      | refine onLeg_keeps K1 ?_
      | refine onGrp_keeps K1 ?_
      | refine event_keeps K2 ?_
      | refine keep_ite (P := P) ?_ ?_
      | refine keep_foldl (P := P) (fun _ _ _ => ?_) ?_
    | exact rfl
    | split
    | (dsimp only)


theorem signalEdge_keeps {P : State → Prop} (K : Keeps [.bta] P) {n : Fin 96} {up : Bool} {s : State} (h : P s) :
    P (signalEdge n up s) := by
  unfold signalEdge
  try dsimp only
  repeat' first
    | with_reducible first
      | assumption
      | refine onLeg_keeps K ?_
      | refine keep_ite (P := P) ?_ ?_
    | exact rfl
    | split
    | (dsimp only)


theorem issueEdge_keeps {P : State → Prop} (K : Keeps [.bta] P) {n : Fin 96} {up : Bool} {s : State} (h : P s) :
    P (issueEdge n up s) := by
  unfold issueEdge
  try dsimp only
  repeat' first
    | with_reducible first
      | assumption
      | refine onLeg_keeps K ?_
      | refine signalEdge_keeps K ?_
      | refine keep_ite (P := P) ?_ ?_
    | exact rfl
    | split
    | (dsimp only)


theorem compatFall_keeps {P : State → Prop} (K : Keeps [.bta] P) {n : Fin 96} {s : State} (h : P s) :
    P (compatFall n s) := by
  unfold compatFall
  try dsimp only
  repeat' first
    | with_reducible first
      | assumption
      | refine signalEdge_keeps K ?_
      | refine keep_ite (P := P) ?_ ?_
    | exact rfl
    | split
    | (dsimp only)


theorem takeAtBoundary_keeps {P : State → Prop} (K : Keeps [.integ, .bta] P) {g : Fin 32} {s : State} (h : P s) :
    P (takeAtBoundary g s) := by
  have K1 := K.sub (as := [.bta]) rfl
  unfold takeAtBoundary
  try dsimp only
  repeat' first
    | with_reducible first
      | assumption
      | refine compatFall_keeps K1 ?_
      | refine refreshGroup_keeps K1 ?_
      | refine transferGroup_keeps K ?_
      | refine keep_ite (P := P) ?_ ?_
      | refine keep_foldl (P := P) (fun _ _ _ => ?_) ?_
    | exact rfl
    | split
    | (dsimp only)


theorem sealGroup_keeps {P : State → Prop} (K : Keeps [.integ, .bta] P) {g : Fin 32} {s : State} (h : P s) :
    P (sealGroup g s) := by
  have K1 := K.sub (as := [.bta]) rfl
  unfold sealGroup
  try dsimp only
  repeat' first
    | with_reducible first
      | assumption
      | refine takeAtBoundary_keeps K ?_
      | refine armGroup_keeps K1 ?_
      | refine keep_ite (P := P) ?_ ?_
    | exact rfl
    | split
    | (dsimp only)


theorem refreshOccupancy_keeps {P : State → Prop} (K : Keeps [.bta] P) {g : Fin 32} {s : State} (h : P s) :
    P (refreshOccupancy g s) := by
  unfold refreshOccupancy
  try dsimp only
  repeat' first
    | with_reducible first
      | assumption
      | refine onGrp_keeps K ?_
      | refine onLeg_keeps K ?_
      | refine stopGroup_keeps K ?_
      | refine refreshGroup_keeps K ?_
      | refine keep_ite (P := P) ?_ ?_
      | refine keep_foldl (P := P) (fun _ _ _ => ?_) ?_
    | exact rfl
    | split
    | (dsimp only)


theorem occupyGroup_keeps {P : State → Prop} (K : Keeps [.integ, .bta] P) {g : Fin 32} {period : Nat} {phase : Nat} {s : State} (h : P s) :
    P (occupyGroup g period phase s) := by
  have K1 := K.sub (as := [.bta]) rfl
  unfold occupyGroup
  try dsimp only
  repeat' first
    | with_reducible first
      | assumption
      | refine sealGroup_keeps K ?_
      | refine onGrp_keeps K1 ?_
      | refine startGroup_keeps K1 ?_
      | refine keep_ite (P := P) ?_ ?_
    | exact rfl
    | split
    | (dsimp only)


theorem sealZeroVector_keeps {P : State → Prop} (K : Keeps [.integ, .bta] P) {i : Fin 64} {s : State} (h : P s) :
    P (sealZeroVector i s) := by
  have K1 := K.sub (as := [.bta]) rfl
  unfold sealZeroVector
  try dsimp only
  repeat' first
    | with_reducible first
      | assumption
      | refine writeDuty_keeps K1 ?_
      | refine sealGroup_keeps K ?_
      | refine keep_foldl (P := P) (fun _ _ _ => ?_) ?_
    | exact rfl
    | (dsimp only)


theorem tripSlots_keeps {P : State → Prop} (K : Keeps [.pkts, .integ, .axis, .plan, .gear, .loop, .bta, .stepper, .bricks] P) {g : Fin 32} {s : State} (h : P s) :
    P (tripSlots g s) := by
  unfold tripSlots
  try dsimp only
  repeat' first
    | with_reducible first
      | assumption
      | refine axisFaults_keeps K ?_
    | exact rfl
    | (dsimp only)


theorem actTrips_keeps {P : State → Prop} (K : Keeps [.pkts, .integ, .axis, .plan, .gear, .loop, .bta, .stepper, .bricks] P) {g : Fin 32} {pins : BitVec 16} {ocs : List Nat} {s : State} (h : P s) :
    P (actTrips g pins ocs s) := by
  have K1 := K.sub (as := [.bta]) rfl
  have K2 := K.sub (as := [.integ]) rfl
  unfold actTrips
  try dsimp only
  repeat' first
    | with_reducible first
      | assumption
      | refine refreshGroup_keeps K1 ?_
      | refine onGrp_keeps K1 ?_
      | refine tripSlots_keeps K ?_
      | refine event_keeps K2 ?_
      | refine keep_ite (P := P) ?_ ?_
    | exact rfl
    | split
    | (dsimp only)


theorem tripSoon_keeps {P : State → Prop} (K : Keeps [.bta] P) {g : Fin 32} {pins : BitVec 16} {ocs : List Nat} {s : State} (h : P s) :
    P (tripSoon g pins ocs s) := by
  unfold tripSoon
  try dsimp only
  repeat' first
    | with_reducible first
      | assumption
      | refine onGrp_keeps K ?_
      | refine keep_ite (P := P) ?_ ?_
    | exact rfl
    | split
    | (dsimp only)


theorem tripOpen_keeps {P : State → Prop} (K : Keeps [.bta] P) {g : Fin 32} {s : State} (h : P s) :
    P (tripOpen g s) := by
  unfold tripOpen
  try dsimp only
  repeat' first
    | with_reducible first
      | assumption
      | refine tripSoon_keeps K ?_
    | exact rfl
    | (dsimp only)


theorem tickTrips_keeps {P : State → Prop} (K : Keeps [.pkts, .integ, .axis, .plan, .gear, .loop, .bta, .stepper, .bricks] P) {s : State} (h : P s) :
    P (tickTrips s) := by
  have K1 := K.sub (as := [.bta]) rfl
  unfold tickTrips
  try dsimp only
  repeat' first
    | with_reducible first
      | assumption
      | refine onGrp_keeps K1 ?_
      | refine actTrips_keeps K ?_
      | refine keep_foldl (P := P) (fun _ _ _ => ?_) ?_
    | exact rfl
    | (dsimp only)


theorem clearGroup_keeps {P : State → Prop} (K : Keeps [.bta] P) {g : Fin 32} {s : State} (h : P s) :
    P (clearGroup g s) := by
  unfold clearGroup
  try dsimp only
  repeat' first
    | with_reducible first
      | assumption
      | refine onGrp_keeps K ?_
    | exact rfl
    | (dsimp only)


end Sys2Proof.Machine
end

