-- ==== Sys2Proof/Laws/KeepPlanCore.lean ====
section
/-! SUPPORT.
What each function of Machine/PlanCore.lean keeps. -/

namespace Sys2Proof.Machine

theorem onPax_keeps {P : State → Prop} (K : Keeps [.plan] P) {i : Fin 64} {f : PlanAxis → PlanAxis} {s : State} (h : P s) :
    P (onPax i f s) := by
  unfold onPax
  try dsimp only
  repeat' first
    | with_reducible first
      | assumption
      | refine K.onPlan rfl _ _ ?_
    | exact rfl
    | (dsimp only)


theorem onPgrp_keeps {P : State → Prop} (K : Keeps [.plan] P) {g : Fin 16} {f : PlanGroup → PlanGroup} {s : State} (h : P s) :
    P (onPgrp g f s) := by
  unfold onPgrp
  try dsimp only
  repeat' first
    | with_reducible first
      | assumption
      | refine K.onPlan rfl _ _ ?_
    | exact rfl
    | (dsimp only)


theorem wakeSlot_keeps {P : State → Prop} (K : Keeps [.axis, .bta, .bricks] P) {i : Fin 64} {s : State} (h : P s) :
    P (wakeSlot i s) := by
  have K1 := K.sub (as := [.bta]) rfl
  have K2 := K.sub (as := [.bricks]) rfl
  have K3 := K.sub (as := [.axis]) rfl
  unfold wakeSlot
  try dsimp only
  repeat' first
    | with_reducible first
      | assumption
      | refine releaseGroup_keeps K1 ?_
      | refine onChannel_keeps K2 ?_
      | refine onAx_keeps K3 ?_
      | refine keep_ite (P := P) ?_ ?_
      | refine keep_foldl (P := P) (fun _ _ _ => ?_) ?_
    | exact rfl
    | split
    | (dsimp only)


theorem setPoints_keeps {P : State → Prop} (K : Keeps [.axis, .bta, .bricks] P) {i : Fin 64} {pos : Int} {vel : Int} {velFf : Int} {cur : Int} {s : State} (h : P s) :
    P (setPoints i pos vel velFf cur s) := by
  have K1 := K.sub (as := [.axis]) rfl
  unfold setPoints
  try dsimp only
  repeat' first
    | with_reducible first
      | assumption
      | refine onAx_keeps K1 ?_
      | refine wakeSlot_keeps K ?_
      | refine keep_ite (P := P) ?_ ?_
    | exact rfl
    | split
    | (dsimp only)


theorem setPoint_keeps {P : State → Prop} (K : Keeps [.axis, .bta, .bricks] P) {i : Fin 64} {pos : Int} {vel : Int} {velFf : Int} {s : State} (h : P s) :
    P (setPoint i pos vel velFf s) := by
  unfold setPoint
  try dsimp only
  repeat' first
    | with_reducible first
      | assumption
      | refine setPoints_keeps K ?_
    | exact rfl
    | (dsimp only)


theorem profileEnd_keeps {P : State → Prop} (K : Keeps [.pkts, .integ, .plan] P) {i : Fin 64} {s : State} (h : P s) :
    P (profileEnd i s) := by
  have K1 := K.sub (as := [.plan]) rfl
  have K2 := K.sub (as := [.integ]) rfl
  have K3 := K.sub (as := [.pkts]) rfl
  unfold profileEnd
  try dsimp only
  repeat' first
    | with_reducible first
      | assumption
      | refine onPax_keeps K1 ?_
      | refine event_keeps K2 ?_
      | refine answerStops_keeps K3 ?_
      | refine keep_ite (P := P) ?_ ?_
    | exact rfl
    | split
    | (dsimp only)


theorem handOver_keeps {P : State → Prop} (K : Keeps [.axis, .plan, .bta, .bricks] P) {i : Fin 64} {x : Pt} {s : State} (h : P s) :
    P (handOver i x s) := by
  have K1 := K.sub (as := [.plan]) rfl
  have K2 := K.sub (as := [.axis, .bta, .bricks]) rfl
  unfold handOver
  try dsimp only
  repeat' first
    | with_reducible first
      | assumption
      | refine onPax_keeps K1 ?_
      | refine setPoint_keeps K2 ?_
      | refine keep_ite (P := P) ?_ ?_
    | exact rfl
    | split
    | (dsimp only)


theorem planBegin_keeps {P : State → Prop} (K : Keeps [.pkts, .integ, .axis, .plan, .gear, .bta, .bricks] P) {i : Fin 64} {c : MoveCmd} {x : Pt} {s : State} (h : P s) :
    P (planBegin i c x s) := by
  have K1 := K.sub (as := [.plan]) rfl
  have K2 := K.sub (as := [.gear]) rfl
  have K3 := K.sub (as := [.axis]) rfl
  have K4 := K.sub (as := [.pkts]) rfl
  have K5 := K.sub (as := [.axis, .plan, .bta, .bricks]) rfl
  have K6 := K.sub (as := [.pkts, .integ, .plan]) rfl
  unfold planBegin
  try dsimp only
  repeat' first
    | with_reducible first
      | assumption
      | refine onPax_keeps K1 ?_
      | refine declutch_keeps K2 ?_
      | refine onAx_keeps K3 ?_
      | refine finish_keeps K4 ?_
      | refine handOver_keeps K5 ?_
      | refine profileEnd_keeps K6 ?_
      | refine keep_ite (P := P) ?_ ?_
    | exact rfl
    | split
    | (dsimp only)


theorem replan_keeps {P : State → Prop} (K : Keeps [.plan] P) {i : Fin 64} {s : State} (h : P s) :
    P (replan i s) := by
  unfold replan
  try dsimp only
  repeat' first
    | with_reducible first
      | assumption
      | refine onPax_keeps K ?_
      | refine keep_ite (P := P) ?_ ?_
    | exact rfl
    | split
    | (dsimp only)


theorem profileAdvance_keeps {P : State → Prop} (K : Keeps [.pkts, .integ, .axis, .plan, .bta, .bricks] P) {i : Fin 64} {s : State} (h : P s) :
    P (profileAdvance i s) := by
  have K1 := K.sub (as := [.axis, .plan, .bta, .bricks]) rfl
  have K2 := K.sub (as := [.plan]) rfl
  have K3 := K.sub (as := [.pkts, .integ, .plan]) rfl
  unfold profileAdvance
  try dsimp only
  repeat' first
    | with_reducible first
      | assumption
      | refine handOver_keeps K1 ?_
      | refine onPax_keeps K2 ?_
      | refine profileEnd_keeps K3 ?_
      | refine keep_ite (P := P) ?_ ?_
    | exact rfl
    | split
    | (dsimp only)


theorem axisBoundary_keeps {P : State → Prop} (K : Keeps [.sys, .pkts, .integ, .axis, .plan, .gear, .bta, .bricks] P) {i : Fin 64} {t : Nat} {s : State} (h : P s) :
    P (axisBoundary i t s) := by
  have K1 := K.sub (as := [.plan]) rfl
  have K2 := K.sub (as := [.pkts, .integ, .axis, .plan, .bta, .bricks]) rfl
  have K3 := K.sub (as := [.sys]) rfl
  have K4 := K.sub (as := [.pkts, .integ, .axis, .plan, .gear, .bta, .bricks]) rfl
  unfold axisBoundary
  try dsimp only
  repeat' first
    | with_reducible first
      | assumption
      | refine onPax_keeps K1 ?_
      | refine profileAdvance_keeps K2 ?_
      | refine settleUpdate_keeps K3 ?_
      | refine replan_keeps K1 ?_
      | refine planBegin_keeps K4 ?_
      | refine keep_ite (P := P) ?_ ?_
    | exact rfl
    | split
    | (dsimp only)


theorem requestStop_keeps {P : State → Prop} (K : Keeps [.plan] P) {i : Fin 64} {mode : Nat} {s : State} (h : P s) :
    P (requestStop i mode s) := by
  unfold requestStop
  try dsimp only
  repeat' first
    | with_reducible first
      | assumption
      | refine onPax_keeps K ?_
      | refine keep_ite (P := P) ?_ ?_
    | exact rfl
    | split
    | (dsimp only)


theorem storeRelease_keeps {P : State → Prop} (K : Keeps [.plan] P) {owner : Nat} {s : State} (h : P s) :
    P (storeRelease owner s) := by
  unfold storeRelease
  try dsimp only
  repeat' first
    | with_reducible first
      | assumption
      | refine K.onPlan rfl _ _ ?_
    | exact rfl
    | (dsimp only)


theorem storeAllocate_keeps {P : State → Prop} (K : Keeps [.plan] P) {owner entries : Nat} {s : State} (h : P s) :
    ∀ t, storeAllocate owner entries s = some t → P t := by
  intro t ht
  unfold storeAllocate at ht
  dsimp only at ht
  rw [Option.map_eq_some_iff] at ht
  obtain ⟨a, _, rfl⟩ := ht
  exact K.onPlan rfl _ _ (storeRelease_keeps K h)


end Sys2Proof.Machine
end

