-- ==== Sys2Proof/Laws/KeepPortCore.lean ====
section
/-! SUPPORT.
What each function of Machine/PortCore.lean keeps. -/

namespace Sys2Proof.Machine

theorem onPort_keeps {P : State → Prop} (K : Keeps [.ports] P) {p : Fin 32} {f : Port → Port} {s : State} (h : P s) :
    P (onPort p f s) := by
  unfold onPort
  try dsimp only
  repeat' first
    | with_reducible first
      | assumption
      | refine K.onPorts rfl _ _ ?_
    | exact rfl
    | (dsimp only)


theorem onCmp_keeps {P : State → Prop} (K : Keeps [.ports] P) {u : Fin 16} {f : Compare → Compare} {s : State} (h : P s) :
    P (onCmp u f s) := by
  unfold onCmp
  try dsimp only
  repeat' first
    | with_reducible first
      | assumption
      | refine K.onPorts rfl _ _ ?_
    | exact rfl
    | (dsimp only)


theorem satEvent_keeps {P : State → Prop} (K : Keeps [.integ, .ports] P) {p : Fin 32} {before : Int} {s : State} (h : P s) :
    P (satEvent p before s) := by
  have K1 := K.sub (as := [.integ]) rfl
  have K2 := K.sub (as := [.ports]) rfl
  unfold satEvent
  try dsimp only
  repeat' first
    | with_reducible first
      | assumption
      | refine event_keeps K1 ?_
      | refine onPort_keeps K2 ?_
      | refine keep_ite (P := P) ?_ ?_
    | exact rfl
    | split
    | (dsimp only)


theorem latchEvents_keeps {P : State → Prop} (K : Keeps [.ports] P) {code : Nat} {sel : Nat} {at0 : Nat} {s : State} (h : P s) :
    P (latchEvents code sel at0 s) := by
  unfold latchEvents
  try dsimp only
  repeat' first
    | with_reducible first
      | assumption
      | refine K.onPorts rfl _ _ ?_
      | refine keep_ite (P := P) ?_ ?_
    | exact rfl
    | split
    | (dsimp only)


theorem compareMove_keeps {P : State → Prop} (K : Keeps [.integ, .ports] P) {fire : Bool} {p : Fin 32} {ns : Nat} {a : Int} {b : Int} {s : State} (h : P s) :
    P (compareMove fire p ns a b s) := by
  have K1 := K.sub (as := [.ports]) rfl
  have K2 := K.sub (as := [.integ]) rfl
  unfold compareMove
  try dsimp only
  repeat' first
    | with_reducible first
      | assumption
      | refine onCmp_keeps K1 ?_
      | refine event_keeps K2 ?_
      | refine latchEvents_keeps K1 ?_
      | refine keep_ite (P := P) ?_ ?_
      | refine keep_foldl (P := P) (fun _ _ _ => ?_) ?_
    | exact rfl
    | split
    | (dsimp only)


theorem countPort_keeps {P : State → Prop} (K : Keeps [.integ, .ports] P) {p : Fin 32} {d : Int} {ns : Nat} {s : State} (h : P s) :
    P (countPort p d ns s) := by
  have K1 := K.sub (as := [.ports]) rfl
  unfold countPort
  try dsimp only
  repeat' first
    | with_reducible first
      | assumption
      | refine onPort_keeps K1 ?_
      | refine compareMove_keeps K ?_
      | refine satEvent_keeps K ?_
      | refine keep_ite (P := P) ?_ ?_
    | exact rfl
    | split
    | (dsimp only)


theorem presetPort_keeps {P : State → Prop} (K : Keeps [.integ, .ports] P) {p : Fin 32} {x : Int} {ns : Nat} {s : State} (h : P s) :
    P (presetPort p x ns s) := by
  have K1 := K.sub (as := [.ports]) rfl
  unfold presetPort
  try dsimp only
  repeat' first
    | with_reducible first
      | assumption
      | refine onPort_keeps K1 ?_
      | refine satEvent_keeps K ?_
      | refine compareMove_keeps K ?_
    | exact rfl
    | (dsimp only)


theorem setPort_keeps {P : State → Prop} (K : Keeps [.integ, .ports] P) {p : Fin 32} {mode : Nat} {modulus : Nat} {s : State} (h : P s) :
    P (setPort p mode modulus s) := by
  have K1 := K.sub (as := [.ports]) rfl
  unfold setPort
  try dsimp only
  repeat' first
    | with_reducible first
      | assumption
      | refine presetPort_keeps K ?_
      | refine onPort_keeps K1 ?_
      | refine keep_ite (P := P) ?_ ?_
    | exact rfl
    | split
    | (dsimp only)


theorem setPortMode_keeps {P : State → Prop} (K : Keeps [.integ, .ports] P) {p : Fin 32} {mode : Nat} {s : State} (h : P s) :
    P (setPortMode p mode s) := by
  unfold setPortMode
  try dsimp only
  repeat' first
    | with_reducible first
      | assumption
      | refine setPort_keeps K ?_
    | exact rfl
    | (dsimp only)


theorem evalSpeed_keeps {P : State → Prop} (K : Keeps [.ports] P) {p : Fin 32} {s : State} (h : P s) :
    P (evalSpeed p s) := by
  unfold evalSpeed
  try dsimp only
  repeat' first
    | with_reducible first
      | assumption
      | refine onPort_keeps K ?_
      | refine keep_ite (P := P) ?_ ?_
    | exact rfl
    | split
    | (dsimp only)


end Sys2Proof.Machine
end

