-- ==== Sys2Proof/Laws/KeepAxisOps.lean ====
section
/-! SUPPORT.
What each function of Machine/AxisOps.lean keeps. -/

namespace Sys2Proof.Machine

theorem setSlotPorts_keeps {P : State → Prop} (K : Keeps [.integ, .ports] P) {i : Fin 64} {s : State} (h : P s) :
    P (setSlotPorts i s) := by
  unfold setSlotPorts
  try dsimp only
  repeat' first
    | with_reducible first
      | assumption
      | refine setPortMode_keeps K ?_
      | refine keep_ite (P := P) ?_ ?_
    | exact rfl
    | split
    | (dsimp only)


theorem installSlot_keeps {P : State → Prop} (K : Keeps [.integ, .ports, .bta] P) {i : Fin 64} {old : List (Fin 32)} {s : State} (h : P s) :
    P (installSlot i old s) := by
  have K1 := K.sub (as := [.bta]) rfl
  have K2 := K.sub (as := [.integ, .bta]) rfl
  have K3 := K.sub (as := [.integ, .ports]) rfl
  unfold installSlot
  try dsimp only
  repeat' first
    | with_reducible first
      | assumption
      | refine refreshOccupancy_keeps K1 ?_
      | refine occupyGroup_keeps K2 ?_
      | refine setSlotPorts_keeps K3 ?_
      | refine keep_foldl (P := P) (fun _ _ _ => ?_) ?_
    | exact rfl
    | split
    | (dsimp only)


theorem enableBegin_keeps {P : State → Prop} (K : Keeps [.power, .integ, .axis, .loop, .bta, .bricks] P) {i : Fin 64} {force : Bool} {s : State} (h : P s) :
    P (enableBegin i force s) := by
  have K1 := K.sub (as := [.axis]) rfl
  have K2 := K.sub (as := [.integ, .bta]) rfl
  have K3 := K.sub (as := [.bta]) rfl
  have K4 := K.sub (as := [.power, .loop, .bta]) rfl
  have K5 := K.sub (as := [.bricks]) rfl
  unfold enableBegin
  try dsimp only
  repeat' first
    | with_reducible first
      | assumption
      | refine onAx_keeps K1 ?_
      | refine sealZeroVector_keeps K2 ?_
      | refine releaseGroup_keeps K3 ?_
      | refine reselect_keeps K4 ?_
      | refine onChannel_keeps K5 ?_
      | refine keep_foldl (P := P) (fun _ _ _ => ?_) ?_
    | exact rfl
    | (dsimp only)


theorem zeroVectorSet_keeps {P : State → Prop} (K : Keeps [.axis] P) {i : Fin 64} {s : State} (h : P s) :
    P (zeroVectorSet i s) := by
  unfold zeroVectorSet
  try dsimp only
  repeat' first
    | with_reducible first
      | assumption
      | refine onAx_keeps K ?_
      | refine keep_ite (P := P) ?_ ?_
    | exact rfl
    | split
    | (dsimp only)


theorem loopsStart_keeps {P : State → Prop} (K : Keeps [.axis, .plan, .loop, .stepper] P) {i : Fin 64} {s : State} (h : P s) :
    P (loopsStart i s) := by
  have K1 := K.sub (as := [.axis]) rfl
  have K2 := K.sub (as := [.stepper]) rfl
  have K3 := K.sub (as := [.plan]) rfl
  unfold loopsStart
  try dsimp only
  repeat' first
    | with_reducible first
      | assumption
      | refine onAx_keeps K1 ?_
      | refine onStep_keeps K2 ?_
      | refine onPax_keeps K3 ?_
      | refine K.onLoop rfl _ _ ?_
      | refine keep_ite (P := P) ?_ ?_
    | exact rfl
    | split
    | (dsimp only)


theorem realign_keeps {P : State → Prop} (K : Keeps [.integ, .axis, .stepper] P) {i : Fin 64} {s : State} (h : P s) :
    P (realign i s) := by
  have K1 := K.sub (as := [.stepper]) rfl
  have K2 := K.sub (as := [.axis]) rfl
  have K3 := K.sub (as := [.integ]) rfl
  unfold realign
  try dsimp only
  repeat' first
    | with_reducible first
      | assumption
      | refine onStep_keeps K1 ?_
      | refine onAx_keeps K2 ?_
      | refine event_keeps K3 ?_
    | exact rfl
    | (dsimp only)


theorem stepperDecide_keeps {P : State → Prop} (K : Keeps [.integ, .axis, .stepper] P) {i : Fin 64} {s : State} (h : P s) :
    P (stepperDecide i s) := by
  have K1 := K.sub (as := [.stepper]) rfl
  unfold stepperDecide
  try dsimp only
  repeat' first
    | with_reducible first
      | assumption
      | refine realign_keeps K ?_
      | refine onStep_keeps K1 ?_
      | refine keep_ite (P := P) ?_ ?_
    | exact rfl
    | split
    | (dsimp only)


theorem slotReengage_keeps {P : State → Prop} (K : Keeps [.integ, .axis, .plan, .loop, .stepper] P) {i : Fin 64} {s : State} (h : P s) :
    P (slotReengage i s) := by
  have K1 := K.sub (as := [.axis, .plan, .loop, .stepper]) rfl
  have K2 := K.sub (as := [.integ, .axis, .stepper]) rfl
  have K3 := K.sub (as := [.axis]) rfl
  unfold slotReengage
  try dsimp only
  repeat' first
    | with_reducible first
      | assumption
      | refine loopsStart_keeps K1 ?_
      | refine stepperDecide_keeps K2 ?_
      | refine onAx_keeps K3 ?_
      | refine keep_ite (P := P) ?_ ?_
    | exact rfl
    | split
    | (dsimp only)


theorem overrideReleased_keeps {P : State → Prop} (K : Keeps [.integ, .axis, .plan, .loop, .stepper] P) {i : Fin 64} {s : State} (h : P s) :
    P (overrideReleased i s) := by
  have K1 := K.sub (as := [.axis]) rfl
  unfold overrideReleased
  try dsimp only
  repeat' first
    | with_reducible first
      | assumption
      | refine slotReengage_keeps K ?_
      | refine zeroVectorSet_keeps K1 ?_
      | refine keep_ite (P := P) ?_ ?_
    | exact rfl
    | split
    | (dsimp only)


theorem hallOffset_keeps {P : State → Prop} (K : Keeps [.axis, .loop] P) {i : Fin 64} {s : State} (h : P s) :
    P (hallOffset i s) := by
  have K1 := K.sub (as := [.axis]) rfl
  unfold hallOffset
  try dsimp only
  repeat' first
    | with_reducible first
      | assumption
      | refine onAx_keeps K1 ?_
      | refine K.onLoop rfl _ _ ?_
      | refine keep_ite (P := P) ?_ ?_
    | exact rfl
    | split
    | (dsimp only)


theorem cmdRestart_keeps {P : State → Prop} (K : Keeps [.axis] P) {i : Fin 64} {s : State} (h : P s) :
    P (cmdRestart i s) := by
  unfold cmdRestart
  try dsimp only
  repeat' first
    | with_reducible first
      | assumption
      | refine onAx_keeps K ?_
    | exact rfl
    | (dsimp only)


theorem slotEnabled_keeps {P : State → Prop} (K : Keeps [.pkts, .integ, .axis, .plan, .loop, .stepper] P) {i : Fin 64} {s : State} (h : P s) :
    P (slotEnabled i s) := by
  have K1 := K.sub (as := [.integ, .axis, .stepper]) rfl
  have K2 := K.sub (as := [.axis, .loop]) rfl
  have K3 := K.sub (as := [.axis]) rfl
  have K4 := K.sub (as := [.axis, .plan, .loop, .stepper]) rfl
  have K5 := K.sub (as := [.plan]) rfl
  have K6 := K.sub (as := [.pkts]) rfl
  unfold slotEnabled
  try dsimp only
  repeat' first
    | with_reducible first
      | assumption
      | refine stepperDecide_keeps K1 ?_
      | refine hallOffset_keeps K2 ?_
      | refine onAx_keeps K3 ?_
      | refine cmdRestart_keeps K3 ?_
      | refine loopsStart_keeps K4 ?_
      | refine onPax_keeps K5 ?_
      | refine finish_keeps K6 ?_
    | exact rfl
    | (dsimp only)


theorem slotDisabled_keeps {P : State → Prop} (K : Keeps [.power, .pkts, .integ, .axis, .plan, .gear, .loop, .bta, .stepper, .bricks] P) {i : Fin 64} {s : State} (h : P s) :
    P (slotDisabled i s) := by
  have K1 := K.sub (as := [.axis]) rfl
  have K2 := K.sub (as := [.bta, .stepper, .bricks]) rfl
  have K3 := K.sub (as := [.pkts, .plan, .gear]) rfl
  have K4 := K.sub (as := [.loop]) rfl
  have K5 := K.sub (as := [.integ]) rfl
  have K6 := K.sub (as := [.power, .loop, .bta]) rfl
  have K7 := K.sub (as := [.pkts]) rfl
  unfold slotDisabled
  try dsimp only
  repeat' first
    | with_reducible first
      | assumption
      | refine onAx_keeps K1 ?_
      | refine outputFor_keeps K2 ?_
      | refine planEnd_keeps K3 ?_
      | refine loopsStop_keeps K4 ?_
      | refine setCause_keeps K5 ?_
      | refine reselect_keeps K6 ?_
      | refine finish_keeps K7 ?_
      | refine keep_ite (P := P) ?_ ?_
    | exact rfl
    | split
    | (dsimp only)


end Sys2Proof.Machine
end

