-- ==== Sys2Proof/Laws/KeepRequest.lean ====
section
/-! SUPPORT.
What each function of Machine/Request.lean keeps. -/

namespace Sys2Proof.Machine

theorem noteForbidden_keeps {P : State → Prop} (K : Keeps [.integ, .free] P) {a : Word × Bool} {s : State} (h : P s) :
    P (noteForbidden a s) := by
  have K1 := K.sub (as := [.free]) rfl
  have K2 := K.sub (as := [.integ]) rfl
  unfold noteForbidden
  try dsimp only
  repeat' first
    | with_reducible first
      | assumption
      | refine freshNat_keeps K1 ?_
      | refine freshNat_out K1 ?_ ‹_›
      | refine permissionEvent_keeps K2 ?_
    | exact rfl
    | (dsimp only)


theorem Op.outcome_keeps {P : State → Prop} (K : Keeps [.integ, .free] P) {o : Op} {rq : Request} {s : State} (he : Answer.Keeps P (o.effect rq s))
    (h : P s) : Answer.Keeps P (o.outcome rq s) := by
  unfold Op.outcome
  split
  · exact keep_fail (noteForbidden_keeps K h)
  · exact he


theorem begin_keeps {P : State → Prop} (K : Keeps [.pkts] P) {opcode : Nat} {rq : Sys2Proof.Request} {key : Nat} {ctx : List Nat} {deferred : Bool} {s : State} (h : P s) :
    P (begin opcode rq key ctx deferred s) := by
  unfold begin
  try dsimp only
  repeat' first
    | with_reducible first
      | assumption
      | refine K.onPkts rfl _ _ (fun hx => ?_) ?_
    | exact hx
    | exact rfl
    | (refine ⟨?_, ?_, ?_⟩ <;> first | exact hx.1 | exact hx.2.1 | exact hx.2.2 | (have h1 := hx.1; have h2 := hx.2.1; have h3 := hx.2.2; simp at h1 h2 h3 ⊢; omega))
    | (dsimp only)


theorem conclude_keeps {P : State → Prop} (K : Keeps [.pkts, .free] P) {o : Op} {rq : Request} {deferred : Bool} {a : Answer} {s : State}
    (ha : Answer.Keeps P a) (h : P s) : P (conclude o rq deferred a s) := by
  have K1 := K.sub (as := [.free]) rfl
  have K2 := K.sub (as := [.pkts]) rfl
  unfold conclude
  split
  · exact sendReply_keeps K2 h
  · cases ha with
    | done ht =>
      split
      · exact sendReply_keeps K2 (freshNat_keeps K1 ht)
      · exact sendReply_keeps K2 ht
  · cases ha with
    | fail ht => exact sendReply_keeps K2 ht
  · cases ha with
    | wait ht => exact begin_keeps K2 ht


theorem acceptLater_keeps {P : State → Prop} (K : Keeps [.pkts] P) {o : Op} {rq : Request} {s : State} (h : P s) :
    P (acceptLater o rq s) := by
  unfold acceptLater
  split
  · exact sendReply_keeps K h
  · refine sendReply_keeps K (K.onPkts rfl _ _ (fun hx => ⟨hx.1, hx.2.1, ?_⟩) h)
    simp
    omega


theorem runNow_keeps {P : State → Prop} (K : Keeps [.pkts, .integ, .free] P) {o : Op} {rq : Request} {s : State} (he : Answer.Keeps P (o.effect rq s))
    (h : P s) : P (runNow o rq s) := by
  have K2 := K.sub (as := [.pkts]) rfl
  have ho := Op.outcome_keeps (K.sub rfl) he h
  unfold runNow
  split
  · exact sendReply_keeps K2 h
  · split
    · exact conclude_keeps (K.sub rfl) ho h
    · split
      · exact conclude_keeps (K.sub rfl) ho h
      · split
        · exact sendReply_keeps K2 h
        · exact acceptLater_keeps K2 h


theorem runOp_keeps {P : State → Prop} (K : Keeps [.pkts, .integ, .free] P) {o : Op} {rq : Request} {s : State} (he : Answer.Keeps P (o.effect rq s))
    (h : P s) : P (runOp o rq s) := by
  unfold runOp
  split
  · exact K.onPkts rfl _ _ (fun hx => hx) h
  · exact runNow_keeps K he h


theorem runCommand_keeps {P : State → Prop} (K : Keeps [.pkts, .integ, .free] P) {o : Op} {rq : Request} {s : State} (he : Answer.Keeps P (o.effect rq s))
    (h : P s) : NextKeeps P (runCommand o rq s) := by
  exact keep_next (runOp_keeps K he h)


end Sys2Proof.Machine
end

