-- ==== Sys2Proof/Laws/KeepUpdates.lean ====
section
/-! SUPPORT.
What each function of Machine/Updates.lean keeps. -/

namespace Sys2Proof.Machine

theorem markDirty_keeps {P : State → Prop} (K : Keeps [.sys] P) {n : Nat} {s : State} (h : P s) :
    P (markDirty n s) := by
  unfold markDirty
  try dsimp only
  repeat' first
    | with_reducible first
      | assumption
      | refine K.onSys rfl _ _ rfl rfl rfl ?_
    | exact rfl
    | (dsimp only)


theorem armActive_keeps {P : State → Prop} (K : Keeps [.bta] P) {g : Fin 32} {s : State} (h : P s) :
    P (armActive g s) := by
  unfold armActive
  try dsimp only
  repeat' first
    | with_reducible first
      | assumption
      | refine onGrp_keeps K ?_
      | refine onLeg_keeps K ?_
      | refine keep_foldl (P := P) (fun _ _ _ => ?_) ?_
    | exact rfl
    | (dsimp only)


theorem armRegisters_keeps {P : State → Prop} (K : Keeps [.integ, .plan, .loop, .ports, .bta] P) {n : Nat} {fromShadow : Bool} {s : State} (h : P s) :
    P (armRegisters n fromShadow s) := by
  have K1 := K.sub (as := [.integ, .bta]) rfl
  have K2 := K.sub (as := [.bta]) rfl
  unfold armRegisters
  try dsimp only
  repeat' first
    | with_reducible first
      | assumption
      | refine takeAtBoundary_keeps K1 ?_
      | refine armGroup_keeps K2 ?_
      | refine armActive_keeps K2 ?_
      | refine K.onPlan rfl _ _ ?_
      | refine K.onLoop rfl _ _ ?_
      | refine K.onPorts rfl _ _ ?_
      | refine keep_ite (P := P) ?_ ?_
      | refine keep_foldl (P := P) (fun _ _ _ => ?_) ?_
    | exact rfl
    | split
    | (dsimp only)


theorem armUpdate_keeps {P : State → Prop} (K : Keeps [.sys, .integ, .plan, .loop, .ports, .bta] P) {n : Nat} {s : State} (h : P s) :
    P (armUpdate s n) := by
  have K1 := K.sub (as := [.sys]) rfl
  have K2 := K.sub (as := [.integ, .plan, .loop, .ports, .bta]) rfl
  unfold armUpdate
  try dsimp only
  repeat' first
    | with_reducible first
      | assumption
      | refine settleUpdate_keeps K1 ?_
      | refine armRegisters_keeps K2 ?_
      | refine K.onSys rfl _ _ rfl rfl rfl ?_
      | refine keep_ite (P := P) ?_ ?_
    | exact rfl
    | split
    | (dsimp only)


theorem takeStranded_keeps {P : State → Prop} (K : Keeps [.plan, .loop] P) {n : Nat} {s : State} (h : P s) :
    P (takeStranded n s) := by
  unfold takeStranded
  try dsimp only
  repeat' first
    | with_reducible first
      | assumption
      | refine K.onPlan rfl _ _ ?_
      | refine K.onLoop rfl _ _ ?_
      | refine keep_ite (P := P) ?_ ?_
    | exact rfl
    | split
    | (dsimp only)


theorem captureStrobes_keeps {P : State → Prop} (K : Keeps [.sys, .integ, .plan, .loop, .ports, .bta] P) {s : State} (h : P s) :
    P (captureStrobes s) := by
  unfold captureStrobes
  try dsimp only
  repeat' first
    | with_reducible first
      | assumption
      | refine armUpdate_keeps K ?_
      | refine keep_ite (P := P) ?_ ?_
      | refine keep_foldl (P := P) (fun _ _ _ => ?_) ?_
    | exact rfl
    | split
    | (dsimp only)


theorem strobe_keeps {P : State → Prop} (K : Keeps [.sys, .integ, .plan, .loop, .ports, .bta] P) {bits : BitVec 16} {s : State} (h : P s) :
    P (strobe bits s) := by
  unfold strobe
  try dsimp only
  repeat' first
    | with_reducible first
      | assumption
      | refine captureStrobes_keeps K ?_
      | refine K.onSys rfl _ _ rfl rfl rfl ?_
    | exact rfl
    | (dsimp only)


end Sys2Proof.Machine
end

