-- ==== Sys2Proof/Laws/KeepBta.lean ====
section
/-! SUPPORT.
What each function of Machine/Bta.lean keeps. -/

namespace Sys2Proof.Machine

theorem touchGroup_keeps {P : State → Prop} (K : Keeps [.sys, .bta] P) {g : Fin 32} {s : State} (h : P s) :
    P (touchGroup g s) := by
  have K1 := K.sub (as := [.bta]) rfl
  have K2 := K.sub (as := [.sys]) rfl
  unfold touchGroup
  try dsimp only
  repeat' first
    | with_reducible first
      | assumption
      | refine onGrp_keeps K1 ?_
      | refine markDirty_keeps K2 ?_
      | refine keep_ite (P := P) ?_ ?_
    | exact rfl
    | split
    | (dsimp only)


theorem writePeriod_keeps {P : State → Prop} (K : Keeps [.sys, .bta] P) {g : Fin 32} {w : Nat} {s : State} (h : P s) :
    P (writePeriod g w s) := by
  have K1 := K.sub (as := [.bta]) rfl
  unfold writePeriod
  try dsimp only
  repeat' first
    | with_reducible first
      | assumption
      | refine touchGroup_keeps K ?_
      | refine onGrp_keeps K1 ?_
      | refine keep_ite (P := P) ?_ ?_
    | exact rfl
    | split
    | (dsimp only)


theorem opBtaGroupConfig_keeps {P : State → Prop} (K : Keeps [.sys, .bta] P) {rq : Request} {s : State} (h : P s) :
    Answer.Keeps P (opBtaGroupConfig.effect rq s) := by
  have K1 := K.sub (as := [.bta]) rfl
  unfold opBtaGroupConfig
  try dsimp only
  repeat' first
    | with_reducible first
      | assumption
      | refine onGrp_keeps K1 ?_
      | refine writePeriod_keeps K ?_
      | refine stopGroup_keeps K1 ?_
      | refine refreshGroup_keeps K1 ?_
      | refine startGroup_keeps K1 ?_
      | refine keep_ite (P := P) ?_ ?_
      | refine keep_ite_answer ?_ ?_
      | exact keep_deny
      | refine keep_done ?_
      | refine keep_fail ?_
      | refine keep_wait ?_
    | exact rfl
    | split
    | (dsimp only)


theorem execBtaGroupConfig_keeps {P : State → Prop} (K : Keeps [.sys, .pkts, .integ, .bta, .free] P) {rq : Sys2Proof.Request} {s : State} (h : P s) :
    NextKeeps P (execBtaGroupConfig rq s) := by
  have K1 := K.sub (as := [.pkts, .integ, .free]) rfl
  have K2 := K.sub (as := [.sys, .bta]) rfl
  unfold execBtaGroupConfig
  try dsimp only
  repeat' first
    | with_reducible first
      | assumption
      | refine keep_next ?_
      | refine runCommand_keeps K1 ?_ ?_
      | refine opBtaGroupConfig_keeps K2 ?_
    | exact rfl
    | split
    | (dsimp only)


theorem opBtaLegConfig_keeps {P : State → Prop} (K : Keeps [.bta] P) {rq : Request} {s : State} (h : P s) :
    Answer.Keeps P (opBtaLegConfig.effect rq s) := by
  unfold opBtaLegConfig
  try dsimp only
  repeat' first
    | with_reducible first
      | assumption
      | refine onLeg_keeps K ?_
      | refine refreshLeg_keeps K ?_
      | refine keep_ite (P := P) ?_ ?_
      | refine keep_ite_answer ?_ ?_
      | exact keep_deny
      | refine keep_done ?_
      | refine keep_fail ?_
      | refine keep_wait ?_
    | exact rfl
    | split
    | (dsimp only)


theorem execBtaLegConfig_keeps {P : State → Prop} (K : Keeps [.pkts, .integ, .bta, .free] P) {rq : Sys2Proof.Request} {s : State} (h : P s) :
    NextKeeps P (execBtaLegConfig rq s) := by
  have K1 := K.sub (as := [.pkts, .integ, .free]) rfl
  have K2 := K.sub (as := [.bta]) rfl
  unfold execBtaLegConfig
  try dsimp only
  repeat' first
    | with_reducible first
      | assumption
      | refine keep_next ?_
      | refine runCommand_keeps K1 ?_ ?_
      | refine opBtaLegConfig_keeps K2 ?_
    | exact rfl
    | split
    | (dsimp only)


theorem opBtaTripConfig_keeps {P : State → Prop} (K : Keeps [.bta] P) {rq : Request} {s : State} (h : P s) :
    Answer.Keeps P (opBtaTripConfig.effect rq s) := by
  unfold opBtaTripConfig
  try dsimp only
  repeat' first
    | with_reducible first
      | assumption
      | refine tripOpen_keeps K ?_
      | refine onGrp_keeps K ?_
      | refine keep_ite (P := P) ?_ ?_
      | refine keep_ite_answer ?_ ?_
      | exact keep_deny
      | refine keep_done ?_
      | refine keep_fail ?_
      | refine keep_wait ?_
    | exact rfl
    | split
    | (dsimp only)


theorem execBtaTripConfig_keeps {P : State → Prop} (K : Keeps [.pkts, .integ, .bta, .free] P) {rq : Sys2Proof.Request} {s : State} (h : P s) :
    NextKeeps P (execBtaTripConfig rq s) := by
  have K1 := K.sub (as := [.pkts, .integ, .free]) rfl
  have K2 := K.sub (as := [.bta]) rfl
  unfold execBtaTripConfig
  try dsimp only
  repeat' first
    | with_reducible first
      | assumption
      | refine keep_next ?_
      | refine runCommand_keeps K1 ?_ ?_
      | refine opBtaTripConfig_keeps K2 ?_
    | exact rfl
    | split
    | (dsimp only)


theorem opBtaTripClear_keeps {P : State → Prop} (K : Keeps [.bta] P) {rq : Request} {s : State} (h : P s) :
    Answer.Keeps P (opBtaTripClear.effect rq s) := by
  unfold opBtaTripClear
  try dsimp only
  repeat' first
    | with_reducible first
      | assumption
      | refine clearGroup_keeps K ?_
      | refine keep_foldl (P := P) (fun _ _ _ => ?_) ?_
      | exact keep_deny
      | refine keep_done ?_
      | refine keep_fail ?_
      | refine keep_wait ?_
    | exact rfl
    | split
    | (dsimp only)


theorem execBtaTripClear_keeps {P : State → Prop} (K : Keeps [.pkts, .integ, .bta, .free] P) {rq : Sys2Proof.Request} {s : State} (h : P s) :
    NextKeeps P (execBtaTripClear rq s) := by
  have K1 := K.sub (as := [.pkts, .integ, .free]) rfl
  have K2 := K.sub (as := [.bta]) rfl
  unfold execBtaTripClear
  try dsimp only
  repeat' first
    | with_reducible first
      | assumption
      | refine keep_next ?_
      | refine runCommand_keeps K1 ?_ ?_
      | refine opBtaTripClear_keeps K2 ?_
    | exact rfl
    | split
    | (dsimp only)


theorem tripAll_keeps {P : State → Prop} (K : Keeps [.bta] P) {s : State} (h : P s) :
    P (tripAll s) := by
  unfold tripAll
  try dsimp only
  repeat' first
    | with_reducible first
      | assumption
      | refine tripOpen_keeps K ?_
      | refine keep_foldl (P := P) (fun _ _ _ => ?_) ?_
    | exact rfl
    | (dsimp only)


theorem opBtaBlankConfig_keeps {P : State → Prop} (K : Keeps [.bta] P) {rq : Request} {s : State} (h : P s) :
    Answer.Keeps P (opBtaBlankConfig.effect rq s) := by
  unfold opBtaBlankConfig
  try dsimp only
  repeat' first
    | with_reducible first
      | assumption
      | refine tripAll_keeps K ?_
      | refine K.onBta rfl _ _ ?_
      | exact keep_deny
      | refine keep_done ?_
      | refine keep_fail ?_
      | refine keep_wait ?_
    | exact rfl
    | (dsimp only)


theorem execBtaBlankConfig_keeps {P : State → Prop} (K : Keeps [.pkts, .integ, .bta, .free] P) {rq : Sys2Proof.Request} {s : State} (h : P s) :
    NextKeeps P (execBtaBlankConfig rq s) := by
  have K1 := K.sub (as := [.pkts, .integ, .free]) rfl
  have K2 := K.sub (as := [.bta]) rfl
  unfold execBtaBlankConfig
  try dsimp only
  repeat' first
    | with_reducible first
      | assumption
      | refine keep_next ?_
      | refine runCommand_keeps K1 ?_ ?_
      | refine opBtaBlankConfig_keeps K2 ?_
    | exact rfl
    | split
    | (dsimp only)


theorem opBtaTripInputConfig_keeps {P : State → Prop} (K : Keeps [.bta] P) {rq : Request} {s : State} (h : P s) :
    Answer.Keeps P (opBtaTripInputConfig.effect rq s) := by
  unfold opBtaTripInputConfig
  try dsimp only
  repeat' first
    | with_reducible first
      | assumption
      | refine tripAll_keeps K ?_
      | refine K.onBta rfl _ _ ?_
      | exact keep_deny
      | refine keep_done ?_
      | refine keep_fail ?_
      | refine keep_wait ?_
    | exact rfl
    | (dsimp only)


theorem execBtaTripInputConfig_keeps {P : State → Prop} (K : Keeps [.pkts, .integ, .bta, .free] P) {rq : Sys2Proof.Request} {s : State} (h : P s) :
    NextKeeps P (execBtaTripInputConfig rq s) := by
  have K1 := K.sub (as := [.pkts, .integ, .free]) rfl
  have K2 := K.sub (as := [.bta]) rfl
  unfold execBtaTripInputConfig
  try dsimp only
  repeat' first
    | with_reducible first
      | assumption
      | refine keep_next ?_
      | refine runCommand_keeps K1 ?_ ?_
      | refine opBtaTripInputConfig_keeps K2 ?_
    | exact rfl
    | split
    | (dsimp only)


theorem opBtaSdcConfig_keeps {P : State → Prop} (K : Keeps [.bta] P) {rq : Request} {s : State} (h : P s) :
    Answer.Keeps P (opBtaSdcConfig.effect rq s) := by
  unfold opBtaSdcConfig
  try dsimp only
  repeat' first
    | with_reducible first
      | assumption
      | refine K.onBta rfl _ _ ?_
      | exact keep_deny
      | refine keep_done ?_
      | refine keep_fail ?_
      | refine keep_wait ?_
    | exact rfl
    | (dsimp only)


theorem execBtaSdcConfig_keeps {P : State → Prop} (K : Keeps [.pkts, .integ, .bta, .free] P) {rq : Sys2Proof.Request} {s : State} (h : P s) :
    NextKeeps P (execBtaSdcConfig rq s) := by
  have K1 := K.sub (as := [.pkts, .integ, .free]) rfl
  have K2 := K.sub (as := [.bta]) rfl
  unfold execBtaSdcConfig
  try dsimp only
  repeat' first
    | with_reducible first
      | assumption
      | refine keep_next ?_
      | refine runCommand_keeps K1 ?_ ?_
      | refine opBtaSdcConfig_keeps K2 ?_
    | exact rfl
    | split
    | (dsimp only)


theorem opBtaSdiConfig_keeps {P : State → Prop} (K : Keeps [.bta] P) {rq : Request} {s : State} (h : P s) :
    Answer.Keeps P (opBtaSdiConfig.effect rq s) := by
  unfold opBtaSdiConfig
  try dsimp only
  repeat' first
    | with_reducible first
      | assumption
      | refine K.onBta rfl _ _ ?_
      | refine keep_ite (P := P) ?_ ?_
      | refine keep_ite_answer ?_ ?_
      | exact keep_deny
      | refine keep_done ?_
      | refine keep_fail ?_
      | refine keep_wait ?_
    | exact rfl
    | split
    | (dsimp only)


theorem execBtaSdiConfig_keeps {P : State → Prop} (K : Keeps [.pkts, .integ, .bta, .free] P) {rq : Sys2Proof.Request} {s : State} (h : P s) :
    NextKeeps P (execBtaSdiConfig rq s) := by
  have K1 := K.sub (as := [.pkts, .integ, .free]) rfl
  have K2 := K.sub (as := [.bta]) rfl
  unfold execBtaSdiConfig
  try dsimp only
  repeat' first
    | with_reducible first
      | assumption
      | refine keep_next ?_
      | refine runCommand_keeps K1 ?_ ?_
      | refine opBtaSdiConfig_keeps K2 ?_
    | exact rfl
    | split
    | (dsimp only)


theorem opBtaDutySet_keeps {P : State → Prop} (K : Keeps [.sys, .integ, .bta] P) {rq : Request} {s : State} (h : P s) :
    Answer.Keeps P (opBtaDutySet.effect rq s) := by
  have K1 := K.sub (as := [.bta]) rfl
  have K2 := K.sub (as := [.sys, .bta]) rfl
  have K3 := K.sub (as := [.integ, .bta]) rfl
  unfold opBtaDutySet
  try dsimp only
  repeat' first
    | with_reducible first
      | assumption
      | refine writeDuty_keeps K1 ?_
      | refine touchGroup_keeps K2 ?_
      | refine sealGroup_keeps K3 ?_
      | refine keep_ite (P := P) ?_ ?_
      | refine keep_foldl (P := P) (fun _ _ _ => ?_) ?_
      | refine keep_ite_answer ?_ ?_
      | exact keep_deny
      | refine keep_done ?_
      | refine keep_fail ?_
      | refine keep_wait ?_
    | exact rfl
    | split
    | (dsimp only)


theorem execBtaDutySet_keeps {P : State → Prop} (K : Keeps [.sys, .pkts, .integ, .bta, .free] P) {rq : Sys2Proof.Request} {s : State} (h : P s) :
    NextKeeps P (execBtaDutySet rq s) := by
  have K1 := K.sub (as := [.pkts, .integ, .free]) rfl
  have K2 := K.sub (as := [.sys, .integ, .bta]) rfl
  unfold execBtaDutySet
  try dsimp only
  repeat' first
    | with_reducible first
      | assumption
      | refine keep_next ?_
      | refine runCommand_keeps K1 ?_ ?_
      | refine opBtaDutySet_keeps K2 ?_
    | exact rfl
    | split
    | (dsimp only)


theorem opBtaBankLevel_keeps {P : State → Prop} (K : Keeps [.bta] P) {rq : Request} {s : State} (h : P s) :
    Answer.Keeps P (opBtaBankLevel.effect rq s) := by
  unfold opBtaBankLevel
  try dsimp only
  repeat' first
    | with_reducible first
      | assumption
      | refine refreshGroup_keeps K ?_
      | refine K.onBta rfl _ _ ?_
      | refine keep_ite (P := P) ?_ ?_
      | refine keep_foldl (P := P) (fun _ _ _ => ?_) ?_
      | refine keep_ite_answer ?_ ?_
      | exact keep_deny
      | refine keep_done ?_
      | refine keep_fail ?_
      | refine keep_wait ?_
    | exact rfl
    | split
    | (dsimp only)


theorem execBtaBankLevel_keeps {P : State → Prop} (K : Keeps [.pkts, .integ, .bta, .free] P) {rq : Sys2Proof.Request} {s : State} (h : P s) :
    NextKeeps P (execBtaBankLevel rq s) := by
  have K1 := K.sub (as := [.pkts, .integ, .free]) rfl
  have K2 := K.sub (as := [.bta]) rfl
  unfold execBtaBankLevel
  try dsimp only
  repeat' first
    | with_reducible first
      | assumption
      | refine keep_next ?_
      | refine runCommand_keeps K1 ?_ ?_
      | refine opBtaBankLevel_keeps K2 ?_
    | exact rfl
    | split
    | (dsimp only)


theorem opBtaStatusRead_keeps {P : State → Prop} (K : Keeps [] P) {rq : Request} {s : State} (h : P s) :
    Answer.Keeps P (opBtaStatusRead.effect rq s) := by
  have _ := K
  unfold opBtaStatusRead
  try dsimp only
  repeat' first
    | with_reducible first
      | assumption
      | exact keep_deny
      | refine keep_done ?_
      | refine keep_fail ?_
      | refine keep_wait ?_
    | exact rfl
    | (dsimp only)


theorem execBtaStatusRead_keeps {P : State → Prop} (K : Keeps [.pkts, .integ, .free] P) {rq : Sys2Proof.Request} {s : State} (h : P s) :
    NextKeeps P (execBtaStatusRead rq s) := by
  have K1 := K.sub (as := []) rfl
  unfold execBtaStatusRead
  try dsimp only
  repeat' first
    | with_reducible first
      | assumption
      | refine keep_next ?_
      | refine runCommand_keeps K ?_ ?_
      | refine opBtaStatusRead_keeps K1 ?_
    | exact rfl
    | split
    | (dsimp only)


theorem execCommandSignalEdge_keeps {P : State → Prop} (K : Keeps [.bta] P) {leg : Fin 96} {rise : Bool} {s : State} (h : P s) :
    NextKeeps P (execCommandSignalEdge leg rise s) := by
  unfold execCommandSignalEdge
  try dsimp only
  repeat' first
    | with_reducible first
      | assumption
      | refine keep_next ?_
      | refine keep_ite_next ?_ ?_
      | refine issueEdge_keeps K ?_
      | refine keep_ite (P := P) ?_ ?_
    | exact rfl
    | split
    | (dsimp only)


theorem boundaryEdges_keeps {P : State → Prop} (K : Keeps [.bta] P) {length : Nat} {n : Fin 96} {s : State} (h : P s) :
    P (boundaryEdges length n s) := by
  unfold boundaryEdges
  try dsimp only
  repeat' first
    | with_reducible first
      | assumption
      | refine issueEdge_keeps K ?_
      | refine keep_ite (P := P) ?_ ?_
    | exact rfl
    | split
    | (dsimp only)


theorem boundary_keeps {P : State → Prop} (K : Keeps [.sys, .pkts, .integ, .axis, .plan, .gear, .loop, .bta, .stepper, .bricks] P) {g : Fin 32} {s : State} (h : P s) :
    P (boundary g s) := by
  have K1 := K.sub (as := [.bta]) rfl
  have K2 := K.sub (as := [.sys]) rfl
  have K3 := K.sub (as := [.integ, .bta]) rfl
  have K4 := K.sub (as := [.integ]) rfl
  have K5 := K.sub (as := [.integ, .axis, .plan, .loop, .stepper]) rfl
  have K6 := K.sub (as := [.pkts, .integ, .axis, .plan, .gear, .loop, .bta, .stepper, .bricks]) rfl
  unfold boundary
  try dsimp only
  repeat' first
    | with_reducible first
      | assumption
      | refine boundaryEdges_keeps K1 ?_
      | refine settleUpdate_keeps K2 ?_
      | refine transferGroup_keeps K3 ?_
      | refine onGrp_keeps K1 ?_
      | refine compatFall_keeps K1 ?_
      | refine onLeg_keeps K1 ?_
      | refine refreshGroup_keeps K1 ?_
      | refine event_keeps K4 ?_
      | refine overrideReleased_keeps K5 ?_
      | refine actTrips_keeps K6 ?_
      | refine keep_ite (P := P) ?_ ?_
      | refine keep_foldl (P := P) (fun _ _ _ => ?_) ?_
    | exact rfl
    | split
    | (dsimp only)


theorem execPeriodBoundary_keeps {P : State → Prop} (K : Keeps [.sys, .pkts, .integ, .axis, .plan, .gear, .loop, .bta, .stepper, .bricks] P) {group : Fin 32} {s : State} (h : P s) :
    NextKeeps P (execPeriodBoundary group s) := by
  unfold execPeriodBoundary
  try dsimp only
  repeat' first
    | with_reducible first
      | assumption
      | refine keep_next ?_
      | refine keep_ite_next ?_ ?_
      | refine boundary_keeps K ?_
      | refine keep_ite (P := P) ?_ ?_
    | exact rfl
    | split
    | (dsimp only)


theorem execUpdateTakeover_keeps {P : State → Prop} (K : Keeps [.sys, .plan, .loop] P) {group : Fin 16} {s : State} (h : P s) :
    NextKeeps P (execUpdateTakeover group s) := by
  have K1 := K.sub (as := [.sys]) rfl
  have K2 := K.sub (as := [.plan, .loop]) rfl
  unfold execUpdateTakeover
  try dsimp only
  repeat' first
    | with_reducible first
      | assumption
      | refine keep_next ?_
      | refine keep_ite_next ?_ ?_
      | refine settleUpdate_keeps K1 ?_
      | refine takeStranded_keeps K2 ?_
      | refine keep_ite (P := P) ?_ ?_
    | exact rfl
    | split
    | (dsimp only)


theorem execTripInputAccepted_keeps {P : State → Prop} (K : Keeps [.bta] P) {input : Fin 16} {level : Bool} {s : State} (h : P s) :
    NextKeeps P (execTripInputAccepted input level s) := by
  unfold execTripInputAccepted
  try dsimp only
  repeat' first
    | with_reducible first
      | assumption
      | refine keep_next ?_
      | refine keep_ite_next ?_ ?_
      | refine tripSoon_keeps K ?_
      | refine K.onBta rfl _ _ ?_
      | refine keep_ite (P := P) ?_ ?_
      | refine keep_foldl (P := P) (fun _ _ _ => ?_) ?_
    | exact rfl
    | split
    | (dsimp only)


theorem setOc_keeps {P : State → Prop} (K : Keeps [.bta] P) {input : Fin 96} {on : Bool} {s : State} (h : P s) :
    P (setOc input on s) := by
  unfold setOc
  try dsimp only
  repeat' first
    | with_reducible first
      | assumption
      | refine K.onBta rfl _ _ ?_
    | exact rfl
    | (dsimp only)


theorem execOvercurrentDetect_keeps {P : State → Prop} (K : Keeps [.pkts, .integ, .axis, .plan, .gear, .loop, .bta, .stepper, .bricks] P) {input : Fin 96} {s : State} (h : P s) :
    NextKeeps P (execOvercurrentDetect input s) := by
  have K1 := K.sub (as := [.bta]) rfl
  unfold execOvercurrentDetect
  try dsimp only
  repeat' first
    | with_reducible first
      | assumption
      | refine keep_next ?_
      | refine keep_ite_next ?_ ?_
      | refine actTrips_keeps K ?_
      | refine setOc_keeps K1 ?_
      | refine keep_ite (P := P) ?_ ?_
      | refine keep_foldl (P := P) (fun _ _ _ => ?_) ?_
    | exact rfl
    | split
    | (dsimp only)


theorem execOvercurrentInactive_keeps {P : State → Prop} (K : Keeps [.bta] P) {input : Fin 96} {s : State} (h : P s) :
    NextKeeps P (execOvercurrentInactive input s) := by
  unfold execOvercurrentInactive
  try dsimp only
  repeat' first
    | with_reducible first
      | assumption
      | refine keep_next ?_
      | refine keep_ite_next ?_ ?_
      | refine setOc_keeps K ?_
      | refine keep_ite (P := P) ?_ ?_
    | exact rfl
    | split
    | (dsimp only)


theorem execBlankWindowEnd_keeps {P : State → Prop} (K : Keeps [.bta] P) {timer : Fin 8} {s : State} (h : P s) :
    NextKeeps P (execBlankWindowEnd timer s) := by
  unfold execBlankWindowEnd
  try dsimp only
  repeat' first
    | with_reducible first
      | assumption
      | refine keep_next ?_
      | refine keep_ite_next ?_ ?_
      | refine tripOpen_keeps K ?_
      | refine keep_ite (P := P) ?_ ?_
      | refine keep_foldl (P := P) (fun _ _ _ => ?_) ?_
    | exact rfl
    | split
    | (dsimp only)


theorem execDelayLineCalibration_keeps {P : State → Prop} (K : Keeps [.bta] P) {leg : Fin 12} {nCal : Nat} {s : State} (h : P s) :
    NextKeeps P (execDelayLineCalibration leg nCal s) := by
  unfold execDelayLineCalibration
  try dsimp only
  repeat' first
    | with_reducible first
      | assumption
      | refine keep_next ?_
      | refine keep_ite_next ?_ ?_
      | refine onLeg_keeps K ?_
      | refine keep_ite (P := P) ?_ ?_
    | exact rfl
    | split
    | (dsimp only)


theorem execCalFallback_keeps {P : State → Prop} (K : Keeps [.integ, .bta] P) {leg : Fin 12} {s : State} (h : P s) :
    NextKeeps P (execCalFallback leg s) := by
  have K1 := K.sub (as := [.integ]) rfl
  have K2 := K.sub (as := [.bta]) rfl
  unfold execCalFallback
  try dsimp only
  repeat' first
    | with_reducible first
      | assumption
      | refine keep_next ?_
      | refine keep_ite_next ?_ ?_
      | refine event_keeps K1 ?_
      | refine onLeg_keeps K2 ?_
      | refine keep_ite (P := P) ?_ ?_
    | exact rfl
    | split
    | (dsimp only)


theorem settleBank_keeps {P : State → Prop} (K : Keeps [.pkts, .bta] P) {bank : Fin 8} {s : State} (h : P s) :
    P (settleBank bank s) := by
  have K1 := K.sub (as := [.pkts]) rfl
  have K2 := K.sub (as := [.bta]) rfl
  unfold settleBank
  try dsimp only
  repeat' first
    | with_reducible first
      | assumption
      | refine finish_keeps K1 ?_
      | refine refreshGroup_keeps K2 ?_
      | refine K.onBta rfl _ _ ?_
      | refine keep_foldl (P := P) (fun _ _ _ => ?_) ?_
    | exact rfl
    | split
    | (dsimp only)


theorem execBankLevelSettled_keeps {P : State → Prop} (K : Keeps [.pkts, .bta] P) {bank : Fin 8} {s : State} (h : P s) :
    NextKeeps P (execBankLevelSettled bank s) := by
  unfold execBankLevelSettled
  try dsimp only
  repeat' first
    | with_reducible first
      | assumption
      | refine keep_next ?_
      | refine settleBank_keeps K ?_
    | exact rfl
    | split
    | (dsimp only)


theorem tickBanks_keeps {P : State → Prop} (K : Keeps [.pkts, .bta] P) {s : State} (h : P s) :
    P (tickBanks s) := by
  unfold tickBanks
  try dsimp only
  repeat' first
    | with_reducible first
      | assumption
      | refine settleBank_keeps K ?_
      | refine keep_foldl (P := P) (fun _ _ _ => ?_) ?_
    | exact rfl
    | (dsimp only)


theorem ownedWrite_keeps {P : State → Prop} (K : Keeps [.integ, .bta] P) {g : Fin 32} {s : State} (h : P s) :
    P (ownedWrite g s) := by
  have K1 := K.sub (as := [.integ]) rfl
  have K2 := K.sub (as := [.bta]) rfl
  unfold ownedWrite
  try dsimp only
  repeat' first
    | with_reducible first
      | assumption
      | refine event_keeps K1 ?_
      | refine onGrp_keeps K2 ?_
    | exact rfl
    | (dsimp only)


theorem writeGrpPeriod_keeps {P : State → Prop} (K : Keeps [.sys, .integ, .bta] P) {c : Fin 6} {g : Fin 32} {w : Sys2Proof.Word} {s : State} (h : P s) :
    P (writeGrpPeriod c g w s) := by
  have K1 := K.sub (as := [.integ, .bta]) rfl
  have K2 := K.sub (as := [.sys, .bta]) rfl
  have K3 := K.sub (as := [.bta]) rfl
  unfold writeGrpPeriod
  try dsimp only
  repeat' first
    | with_reducible first
      | assumption
      | refine ownedWrite_keeps K1 ?_
      | refine touchGroup_keeps K2 ?_
      | refine onGrp_keeps K3 ?_
      | refine keep_ite (P := P) ?_ ?_
    | exact rfl
    | split
    | (dsimp only)


theorem writeGrpSeal_keeps {P : State → Prop} (K : Keeps [.integ, .bta] P) {c : Fin 6} {g : Fin 32} {w : Sys2Proof.Word} {s : State} (h : P s) :
    P (writeGrpSeal c g w s) := by
  unfold writeGrpSeal
  try dsimp only
  repeat' first
    | with_reducible first
      | assumption
      | refine ownedWrite_keeps K ?_
      | refine sealGroup_keeps K ?_
      | refine keep_ite (P := P) ?_ ?_
    | exact rfl
    | split
    | (dsimp only)


theorem writeLegCmp_keeps {P : State → Prop} (K : Keeps [.sys, .integ, .bta] P) {c : Fin 6} {n : Fin 96} {b : Bool} {w : Sys2Proof.Word} {s : State} (h : P s) :
    P (writeLegCmp c n b w s) := by
  have K1 := K.sub (as := [.integ, .bta]) rfl
  have K2 := K.sub (as := [.sys, .bta]) rfl
  have K3 := K.sub (as := [.bta]) rfl
  unfold writeLegCmp
  try dsimp only
  repeat' first
    | with_reducible first
      | assumption
      | refine ownedWrite_keeps K1 ?_
      | refine touchGroup_keeps K2 ?_
      | refine onLeg_keeps K3 ?_
      | refine sealGroup_keeps K1 ?_
      | refine keep_ite (P := P) ?_ ?_
    | exact rfl
    | split
    | (dsimp only)


theorem writeLegDuty_keeps {P : State → Prop} (K : Keeps [.sys, .integ, .bta] P) {c : Fin 6} {n : Fin 96} {w : Sys2Proof.Word} {s : State} (h : P s) :
    P (writeLegDuty c n w s) := by
  have K1 := K.sub (as := [.integ, .bta]) rfl
  have K2 := K.sub (as := [.sys, .bta]) rfl
  have K3 := K.sub (as := [.bta]) rfl
  unfold writeLegDuty
  try dsimp only
  repeat' first
    | with_reducible first
      | assumption
      | refine ownedWrite_keeps K1 ?_
      | refine touchGroup_keeps K2 ?_
      | refine writeDuty_keeps K3 ?_
      | refine sealGroup_keeps K1 ?_
      | refine keep_ite (P := P) ?_ ?_
    | exact rfl
    | split
    | (dsimp only)


theorem writeGrpTrip_keeps {P : State → Prop} (K : Keeps [.integ, .bta] P) {g : Fin 32} {w : Sys2Proof.Word} {s : State} (h : P s) :
    P (writeGrpTrip g w s) := by
  have K1 := K.sub (as := [.bta]) rfl
  have K2 := K.sub (as := [.integ]) rfl
  unfold writeGrpTrip
  try dsimp only
  repeat' first
    | with_reducible first
      | assumption
      | refine onGrp_keeps K1 ?_
      | refine clearGroup_keeps K1 ?_
      | refine event_keeps K2 ?_
      | refine keep_ite (P := P) ?_ ?_
    | exact rfl
    | split
    | (dsimp only)


end Sys2Proof.Machine
end

