-- ==== Sys2Proof/Laws/KeepCanCore.lean ====
section
/-! SUPPORT.
What each function of Machine/CanCore.lean keeps. -/

namespace Sys2Proof.Machine

theorem onCtl_keeps {P : State → Prop} (K : Keeps [.can] P) {c : Fin 4} {f : CanCtl → CanCtl} {s : State} (h : P s) :
    P (onCtl c f s) := by
  unfold onCtl
  try dsimp only
  repeat' first
    | with_reducible first
      | assumption
      | refine K.onCan rfl _ _ ?_
    | exact rfl
    | (dsimp only)


theorem busState_keeps {P : State → Prop} (K : Keeps [.integ, .can] P) {c : Fin 4} {s : State} (h : P s) :
    P (busState c s) := by
  have K1 := K.sub (as := [.integ]) rfl
  have K2 := K.sub (as := [.can]) rfl
  unfold busState
  try dsimp only
  repeat' first
    | with_reducible first
      | assumption
      | refine event_keeps K1 ?_
      | refine onCtl_keeps K2 ?_
      | refine keep_ite (P := P) ?_ ?_
    | exact rfl
    | split
    | (dsimp only)


theorem ttMissed_keeps {P : State → Prop} (K : Keeps [.integ, .can] P) {c : Fin 4} {s : State} (h : P s) :
    P (ttMissed c s) := by
  have K1 := K.sub (as := [.integ]) rfl
  have K2 := K.sub (as := [.can]) rfl
  unfold ttMissed
  try dsimp only
  repeat' first
    | with_reducible first
      | assumption
      | refine event_keeps K1 ?_
      | refine onCtl_keeps K2 ?_
    | exact rfl
    | (dsimp only)


theorem trySend_keeps {P : State → Prop} (K : Keeps [.can] P) {c : Fin 4} {s : State} (h : P s) :
    P (trySend c s) := by
  unfold trySend
  try dsimp only
  repeat' first
    | with_reducible first
      | assumption
      | refine onCtl_keeps K ?_
      | refine keep_ite (P := P) ?_ ?_
    | exact rfl
    | split
    | (dsimp only)


theorem retryEvent_keeps {P : State → Prop} (K : Keeps [.integ, .can] P) {c : Fin 4} {f : Sys2Proof.CanFrame} {s : State} (h : P s) :
    P (retryEvent c f s) := by
  have K1 := K.sub (as := [.integ]) rfl
  have K2 := K.sub (as := [.can]) rfl
  unfold retryEvent
  try dsimp only
  repeat' first
    | with_reducible first
      | assumption
      | refine event_keeps K1 ?_
      | refine onCtl_keeps K2 ?_
      | refine keep_ite (P := P) ?_ ?_
    | exact rfl
    | split
    | (dsimp only)


theorem putConfig_keeps {P : State → Prop} (K : Keeps [.can] P) {c : Fin 4} {g : CanCfg} {s : State} (h : P s) :
    P (putConfig c g s) := by
  unfold putConfig
  try dsimp only
  repeat' first
    | with_reducible first
      | assumption
      | refine onCtl_keeps K ?_
      | refine keep_ite (P := P) ?_ ?_
    | exact rfl
    | split
    | (dsimp only)


theorem busFree_keeps {P : State → Prop} (K : Keeps [.pkts, .can] P) {c : Fin 4} {s : State} (h : P s) :
    P (busFree c s) := by
  have K1 := K.sub (as := [.can]) rfl
  have K2 := K.sub (as := [.pkts]) rfl
  unfold busFree
  try dsimp only
  repeat' first
    | with_reducible first
      | assumption
      | refine onCtl_keeps K1 ?_
      | refine finish_keeps K2 ?_
      | refine putConfig_keeps K1 ?_
      | refine trySend_keeps K1 ?_
    | exact rfl
    | split
    | (dsimp only)


theorem sendFailed_keeps {P : State → Prop} (K : Keeps [.pkts, .integ, .can] P) {c : Fin 4} {s : State} (h : P s) :
    P (sendFailed c s) := by
  have K1 := K.sub (as := [.integ, .can]) rfl
  have K2 := K.sub (as := [.pkts, .can]) rfl
  unfold sendFailed
  try dsimp only
  repeat' first
    | with_reducible first
      | assumption
      | refine retryEvent_keeps K1 ?_
      | refine ttMissed_keeps K1 ?_
      | refine busFree_keeps K2 ?_
      | refine keep_ite (P := P) ?_ ?_
    | exact rfl
    | split
    | (dsimp only)


theorem freezeBuffer_keeps {P : State → Prop} (K : Keeps [.can] P) {c : Fin 4} {s : State} (h : P s) :
    P (freezeBuffer c s) := by
  unfold freezeBuffer
  try dsimp only
  repeat' first
    | with_reducible first
      | assumption
      | refine onCtl_keeps K ?_
      | refine keep_ite (P := P) ?_ ?_
    | exact rfl
    | split
    | (dsimp only)


theorem startWindow_keeps {P : State → Prop} (K : Keeps [.integ, .can] P) {c : Fin 4} {w : Nat} {idle : Bool} {s : State} (h : P s) :
    P (startWindow c w idle s) := by
  have K1 := K.sub (as := [.can]) rfl
  unfold startWindow
  try dsimp only
  repeat' first
    | with_reducible first
      | assumption
      | refine onCtl_keeps K1 ?_
      | refine ttMissed_keeps K ?_
      | refine trySend_keeps K1 ?_
      | refine keep_ite (P := P) ?_ ?_
    | exact rfl
    | split
    | (dsimp only)


theorem tickCan_keeps {P : State → Prop} (K : Keeps [.can] P) {s : State} (h : P s) :
    P (tickCan s) := by
  unfold tickCan
  try dsimp only
  repeat' first
    | with_reducible first
      | assumption
      | refine trySend_keeps K ?_
      | refine onCtl_keeps K ?_
      | refine keep_foldl (P := P) (fun _ _ _ => ?_) ?_
    | exact rfl
    | (dsimp only)


end Sys2Proof.Machine
end

