-- ==== Sys2Proof/Laws/KeepFioCore.lean ====
section
/-! SUPPORT.
What each function of Machine/FioCore.lean keeps. -/

namespace Sys2Proof.Machine

theorem onFioGroup_keeps {P : State → Prop} (K : Keeps [.fio] P) {g : Fin 4} {f : FioGroup → FioGroup} {s : State} (h : P s) :
    P (onFioGroup g f s) := by
  unfold onFioGroup
  try dsimp only
  repeat' first
    | with_reducible first
      | assumption
      | refine K.onFio rfl _ _ ?_
    | exact rfl
    | (dsimp only)


theorem tickFio_keeps {P : State → Prop} (K : Keeps [.fio] P) {s : State} (h : P s) :
    P (tickFio s) := by
  unfold tickFio
  try dsimp only
  repeat' first
    | with_reducible first
      | assumption
      | refine K.onFio rfl _ _ ?_
      | refine keep_ite (P := P) ?_ ?_
    | exact rfl
    | split
    | (dsimp only)


end Sys2Proof.Machine
end

