-- ==== Sys2Proof/Laws/KeepGear.lean ====
section
/-! SUPPORT.
What each function of Machine/Gear.lean keeps. -/

namespace Sys2Proof.Machine

theorem onLink_keeps {P : State → Prop} (K : Keeps [.gear] P) {i : Fin 64} {f : GearLink → GearLink} {s : State} (h : P s) :
    P (onLink i f s) := by
  unfold onLink
  try dsimp only
  repeat' first
    | with_reducible first
      | assumption
      | refine K.onGear rfl _ _ ?_
    | exact rfl
    | (dsimp only)


theorem linkEvents_keeps {P : State → Prop} (K : Keeps [.integ] P) {i : Fin 64} {l : List (Nat × List Sys2Proof.Byte)} {s : State} (h : P s) :
    P (linkEvents i l s) := by
  unfold linkEvents
  try dsimp only
  repeat' first
    | with_reducible first
      | assumption
      | refine event_keeps K ?_
      | refine keep_foldl (P := P) (fun _ _ _ => ?_) ?_
    | exact rfl
    | (dsimp only)


theorem gearStop_keeps {P : State → Prop} (K : Keeps [.integ, .plan, .gear] P) {i : Fin 64} {code : Nat} {s : State} (h : P s) :
    P (gearStop i code s) := by
  have K1 := K.sub (as := [.gear]) rfl
  have K2 := K.sub (as := [.integ]) rfl
  have K3 := K.sub (as := [.plan]) rfl
  unfold gearStop
  try dsimp only
  repeat' first
    | with_reducible first
      | assumption
      | refine onLink_keeps K1 ?_
      | refine event_keeps K2 ?_
      | refine requestStop_keeps K3 ?_
    | exact rfl
    | (dsimp only)


theorem gearApply_keeps {P : State → Prop} (K : Keeps [.integ, .axis, .plan, .gear, .bta, .bricks] P) {i : Fin 64} {q : Int} {s : State} (h : P s) :
    P (gearApply i q s) := by
  have K1 := K.sub (as := [.integ, .plan, .gear]) rfl
  have K2 := K.sub (as := [.gear]) rfl
  have K3 := K.sub (as := [.axis, .bta, .bricks]) rfl
  unfold gearApply
  try dsimp only
  repeat' first
    | with_reducible first
      | assumption
      | refine gearStop_keeps K1 ?_
      | refine onLink_keeps K2 ?_
      | refine setPoint_keeps K3 ?_
      | refine keep_ite (P := P) ?_ ?_
    | exact rfl
    | split
    | (dsimp only)


theorem gearEngage_keeps {P : State → Prop} (K : Keeps [.axis, .gear, .bta, .bricks] P) {i : Fin 64} {m : Int} {s : State} (h : P s) :
    P (gearEngage i m s) := by
  have K1 := K.sub (as := [.gear]) rfl
  have K2 := K.sub (as := [.axis, .bta, .bricks]) rfl
  unfold gearEngage
  try dsimp only
  repeat' first
    | with_reducible first
      | assumption
      | refine onLink_keeps K1 ?_
      | refine setPoint_keeps K2 ?_
      | refine keep_ite (P := P) ?_ ?_
    | exact rfl
    | split
    | (dsimp only)


theorem gearSample_keeps {P : State → Prop} (K : Keeps [.integ, .axis, .plan, .gear, .bta, .bricks] P) {i : Fin 64} {s : State} (h : P s) :
    P (gearSample i s) := by
  have K1 := K.sub (as := [.axis, .gear, .bta, .bricks]) rfl
  have K2 := K.sub (as := [.gear]) rfl
  have K3 := K.sub (as := [.integ, .plan, .gear]) rfl
  have K4 := K.sub (as := [.integ]) rfl
  have K5 := K.sub (as := [.axis, .bta, .bricks]) rfl
  unfold gearSample
  try dsimp only
  repeat' first
    | with_reducible first
      | assumption
      | refine gearEngage_keeps K1 ?_
      | refine onLink_keeps K2 ?_
      | refine gearStop_keeps K3 ?_
      | refine gearApply_keeps K ?_
      | refine linkEvents_keeps K4 ?_
      | refine setPoint_keeps K5 ?_
      | refine keep_ite (P := P) ?_ ?_
    | exact rfl
    | split
    | (dsimp only)


theorem vmStep_keeps {P : State → Prop} (K : Keeps [.integ, .gear] P) {b : Nat} {ns : Int} {s : State} (h : P s) :
    P (vmStep b ns s) := by
  have K1 := K.sub (as := [.integ]) rfl
  unfold vmStep
  try dsimp only
  repeat' first
    | with_reducible first
      | assumption
      | refine event_keeps K1 ?_
      | refine K.onGear rfl _ _ ?_
      | refine keep_ite (P := P) ?_ ?_
      | refine keep_foldl (P := P) (fun _ _ _ => ?_) ?_
    | exact rfl
    | split
    | (dsimp only)


end Sys2Proof.Machine
end

