-- ==== Sys2Proof/Laws/KeepLaneCore.lean ====
section
/-! SUPPORT.
What each function of Machine/LaneCore.lean keeps. -/

namespace Sys2Proof.Machine

theorem onThr_keeps {P : State → Prop} (K : Keeps [.lanes] P) {t : Fin 512} {f : Thread → Thread} {s : State} (h : P s) :
    P (onThr t f s) := by
  unfold onThr
  try dsimp only
  repeat' first
    | with_reducible first
      | assumption
      | refine K.onLanes rfl _ _ (fun _ => ?_) ?_
    | exact rfl
    | (dsimp only)


theorem onLane_keeps {P : State → Prop} (K : Keeps [.lanes] P) {l : Fin 8} {f : Lane → Lane} {s : State}
    (hf : (f s.lanes.lane[l]).data = s.lanes.lane[l].data) (h : P s) : P (onLane l f s) := by
  refine K.onLanes rfl _ _ (fun i => ?_) h
  by_cases e : l = i
  · subst e
    show (upd s.lanes.lane l f)[l].data = _
    rw [upd_same]
    exact hf
  · show (upd s.lanes.lane l f)[i].data = _
    rw [upd_other _ _ _ _ e]

theorem onLaneData_keeps {P : State → Prop} (K : Keeps [.ldata] P) {l : Fin 8} {f : Lane → Lane} {s : State}
    (hf : Memory.wf 0 s.lanes.lane[l].data = true → Memory.wf 0 (f s.lanes.lane[l]).data = true) (h : P s) :
    P (onLane l f s) := by
  refine K.onLdata rfl _ _ (fun i hx => ?_) h
  by_cases e : l = i
  · subst e
    show Memory.wf 0 (upd s.lanes.lane l f)[l].data = true
    rw [upd_same]
    exact hf hx
  · show Memory.wf 0 (upd s.lanes.lane l f)[i].data = true
    rw [upd_other _ _ _ _ e]
    exact hx


theorem enqueueThread_keeps {P : State → Prop} (K : Keeps [.lanes] P) {t : Fin 512} {s : State} (h : P s) :
    P (enqueueThread t s) := by
  unfold enqueueThread
  try dsimp only
  repeat' first
    | with_reducible first
      | assumption
      | refine onLane_keeps K ?_ ?_
      | refine K.onLanes rfl _ _ (fun _ => ?_) ?_
      | refine keep_ite (P := P) ?_ ?_
    | exact rfl
    | split
    | (dsimp only)


theorem deliver_keeps {P : State → Prop} (K : Keeps [.integ, .lanes] P) {t : Fin 512} {n : Nat} {s : State} (h : P s) :
    P (deliver t n s) := by
  have K1 := K.sub (as := [.lanes]) rfl
  have K2 := K.sub (as := [.integ]) rfl
  unfold deliver
  try dsimp only
  repeat' first
    | with_reducible first
      | assumption
      | refine onThr_keeps K1 ?_
      | refine event_keeps K2 ?_
      | refine enqueueThread_keeps K1 ?_
      | refine keep_ite (P := P) ?_ ?_
      | refine keep_foldl (P := P) (fun _ _ _ => ?_) ?_
    | exact rfl
    | split
    | (dsimp only)


theorem occurs_keeps {P : State → Prop} (K : Keeps [.integ, .lanes] P) {code : Nat} {index : Nat} {sub : Nat} {s : State} (h : P s) :
    P (occurs code index sub s) := by
  unfold occurs
  try dsimp only
  repeat' first
    | with_reducible first
      | assumption
      | refine deliver_keeps K ?_
      | refine keep_ite (P := P) ?_ ?_
      | refine keep_foldl (P := P) (fun _ _ _ => ?_) ?_
    | exact rfl
    | split
    | (dsimp only)


theorem removeThread_keeps {P : State → Prop} (K : Keeps [.lanes] P) {t : Fin 512} {s : State} (h : P s) : P (removeThread t s) := by
  refine K.onLanes rfl _ _ (fun i => ?_) h
  simp [updAll]


theorem stopThread_keeps {P : State → Prop} (K : Keeps [.lanes] P) {t : Fin 512} {st : ThreadState} {s : State} (h : P s) :
    P (stopThread t st s) := by
  unfold stopThread
  try dsimp only
  repeat' first
    | with_reducible first
      | assumption
      | refine onThr_keeps K ?_
      | refine removeThread_keeps K ?_
    | exact rfl
    | (dsimp only)


theorem answerDisable_keeps {P : State → Prop} (K : Keeps [.pkts] P) {t : Fin 512} {s : State} (h : P s) :
    P (answerDisable t s) := by
  unfold answerDisable
  try dsimp only
  repeat' first
    | with_reducible first
      | assumption
      | refine finish_keeps K ?_
    | exact rfl
    | (dsimp only)


theorem abortThread_keeps {P : State → Prop} (K : Keeps [.pkts, .integ, .lanes] P) {t : Fin 512} {cause : Nat} {s : State} (h : P s) :
    P (abortThread t cause s) := by
  have K1 := K.sub (as := [.lanes]) rfl
  have K2 := K.sub (as := [.pkts]) rfl
  have K3 := K.sub (as := [.integ]) rfl
  unfold abortThread
  try dsimp only
  repeat' first
    | with_reducible first
      | assumption
      | refine stopThread_keeps K1 ?_
      | refine onThr_keeps K1 ?_
      | refine answerDisable_keeps K2 ?_
      | refine event_keeps K3 ?_
    | exact rfl
    | (dsimp only)


theorem endThread_keeps {P : State → Prop} (K : Keeps [.pkts, .integ, .lanes] P) {t : Fin 512} {s : State} (h : P s) :
    P (endThread t s) := by
  have K1 := K.sub (as := [.lanes]) rfl
  have K2 := K.sub (as := [.integ, .lanes]) rfl
  have K3 := K.sub (as := [.pkts]) rfl
  unfold endThread
  try dsimp only
  repeat' first
    | with_reducible first
      | assumption
      | refine onThr_keeps K1 ?_
      | refine removeThread_keeps K1 ?_
      | refine enqueueThread_keeps K1 ?_
      | refine occurs_keeps K2 ?_
      | refine answerDisable_keeps K3 ?_
      | refine stopThread_keeps K1 ?_
      | refine keep_ite (P := P) ?_ ?_
    | exact rfl
    | split
    | (dsimp only)


end Sys2Proof.Machine
end

