-- ==== Sys2Proof/Laws/KeepLoopRun.lean ====
section
/-! SUPPORT.
What each function of Machine/LoopRun.lean keeps. -/

namespace Sys2Proof.Machine

theorem onLoopSt_keeps {P : State → Prop} (K : Keeps [.loop] P) {i : Fin 64} {k : Fin 3} {f : LoopSt → LoopSt} {s : State} (h : P s) :
    P (onLoopSt i k f s) := by
  unfold onLoopSt
  try dsimp only
  repeat' first
    | with_reducible first
      | assumption
      | refine K.onLoop rfl _ _ ?_
    | exact rfl
    | (dsimp only)


theorem onLSlot_keeps {P : State → Prop} (K : Keeps [.loop] P) {i : Fin 64} {f : LoopSlot → LoopSlot} {s : State} (h : P s) :
    P (onLSlot i f s) := by
  unfold onLSlot
  try dsimp only
  repeat' first
    | with_reducible first
      | assumption
      | refine K.onLoop rfl _ _ ?_
    | exact rfl
    | (dsimp only)


theorem takeLock_keeps {P : State → Prop} (K : Keeps [.sys, .loop] P) {i : Fin 64} {k : Fin 3} {s : State} (h : P s) :
    P (takeLock i k s) := by
  have K1 := K.sub (as := [.sys]) rfl
  have K2 := K.sub (as := [.loop]) rfl
  unfold takeLock
  try dsimp only
  repeat' first
    | with_reducible first
      | assumption
      | refine settleUpdate_keeps K1 ?_
      | refine onLoopSt_keeps K2 ?_
      | refine onLSlot_keeps K2 ?_
      | refine keep_ite (P := P) ?_ ?_
    | exact rfl
    | split
    | (dsimp only)


theorem commitLoad_keeps {P : State → Prop} (K : Keeps [.pkts, .integ, .loop] P) {i : Fin 64} {k : Fin 3} {s : State} (h : P s) :
    P (commitLoad i k s).1 := by
  have K1 := K.sub (as := [.integ]) rfl
  have K2 := K.sub (as := [.loop]) rfl
  have K3 := K.sub (as := [.pkts]) rfl
  unfold commitLoad
  try dsimp only
  repeat' first
    | with_reducible first
      | assumption
      | refine clearPoison_keeps K1 ?_
      | refine onLoopSt_keeps K2 ?_
      | refine finish_keeps K3 ?_
      | refine keep_ite (P := P) ?_ ?_
    | exact rfl
    | split
    | (dsimp only)

theorem commitLoad_out {P : State → Prop} (K : Keeps [.pkts, .integ, .loop] P) {i : Fin 64} {k : Fin 3} {s : State} (h : P s) {o} {u : State}
    (hout : commitLoad i k s = (u, o)) : P u := by
  have hu := commitLoad_keeps K h (P := P) (i := i) (k := k)
  rw [hout] at hu
  exact hu


theorem runLoop_keeps {P : State → Prop} (K : Keeps [.integ, .loop] P) {i : Fin 64} {k : Fin 3} {q : LoopIn} {committed : Option (Nat × Region)} {s1 : State} (h : P s1) :
    P (runLoop i k q committed s1).2 := by
  have K1 := K.sub (as := [.loop]) rfl
  have K2 := K.sub (as := [.integ]) rfl
  unfold runLoop
  try dsimp only
  repeat' first
    | with_reducible first
      | assumption
      | refine onLoopSt_keeps K1 ?_
      | refine onLSlot_keeps K1 ?_
      | refine event_keeps K2 ?_
      | refine keep_ite (P := P) ?_ ?_
    | exact rfl
    | split
    | (dsimp only)

theorem runLoop_out {P : State → Prop} (K : Keeps [.integ, .loop] P) {i : Fin 64} {k : Fin 3} {q : LoopIn} {committed : Option (Nat × Region)} {s1 : State} (h : P s1) {o} {u : State}
    (hout : runLoop i k q committed s1 = (o, u)) : P u := by
  have hu := runLoop_keeps K h (P := P) (i := i) (k := k) (q := q) (committed := committed)
  rw [hout] at hu
  exact hu


end Sys2Proof.Machine
end

