-- ==== Sys2Proof/Laws/KeepNetCore.lean ====
section
/-! SUPPORT.
What each function of Machine/NetCore.lean keeps. -/

namespace Sys2Proof.Machine

theorem onNetPort_keeps {P : State → Prop} (K : Keeps [.net] P) {p : Fin 5} {f : NetPort → NetPort} {s : State} (h : P s) :
    P (onNetPort p f s) := by
  unfold onNetPort
  try dsimp only
  repeat' first
    | with_reducible first
      | assumption
      | refine K.onNet rfl _ _ ?_
    | exact rfl
    | (dsimp only)


theorem originate_keeps {P : State → Prop} (K : Keeps [.net] P) {ports : List (Fin 4)} {f : Sys2Proof.NetFrame} {s : State} (h : P s) :
    P (originate ports f s) := by
  unfold originate
  try dsimp only
  repeat' first
    | with_reducible first
      | assumption
      | refine onNetPort_keeps K ?_
      | refine keep_foldl (P := P) (fun _ _ _ => ?_) ?_
    | exact rfl
    | (dsimp only)


end Sys2Proof.Machine
end

