-- ==== Sys2Proof/Laws/KeepPortOps.lean ====
section
/-! SUPPORT.
What each function of Machine/PortOps.lean keeps. -/

namespace Sys2Proof.Machine

theorem portLoss_keeps {P : State → Prop} (K : Keeps [.pkts, .integ, .axis, .plan, .gear, .loop, .ports, .bta, .stepper, .bricks] P) {p : Fin 32} {c : Nat} {s : State} (h : P s) :
    P (portLoss p c s) := by
  have K1 := K.sub (as := [.integ]) rfl
  have K2 := K.sub (as := [.ports]) rfl
  have K3 := K.sub (as := [.axis]) rfl
  have K4 := K.sub (as := [.pkts, .integ, .axis, .plan, .gear, .loop, .bta, .stepper, .bricks]) rfl
  unfold portLoss
  try dsimp only
  repeat' first
    | with_reducible first
      | assumption
      | refine event_keeps K1 ?_
      | refine onPort_keeps K2 ?_
      | refine onAx_keeps K3 ?_
      | refine axisFaults_keeps K4 ?_
      | refine keep_foldl (P := P) (fun _ _ _ => ?_) ?_
    | exact rfl
    | (dsimp only)


theorem lossPresent_keeps {P : State → Prop} (K : Keeps [.pkts, .integ, .axis, .plan, .gear, .loop, .ports, .bta, .stepper, .bricks] P) {p : Fin 32} {c : Nat} {s : State} (h : P s) :
    P (lossPresent p c s) := by
  have K1 := K.sub (as := [.ports]) rfl
  unfold lossPresent
  try dsimp only
  repeat' first
    | with_reducible first
      | assumption
      | refine onPort_keeps K1 ?_
      | refine portLoss_keeps K ?_
      | refine keep_ite (P := P) ?_ ?_
    | exact rfl
    | split
    | (dsimp only)


theorem lossGone_keeps {P : State → Prop} (K : Keeps [.ports] P) {p : Fin 32} {c : Nat} {s : State} (h : P s) :
    P (lossGone p c s) := by
  unfold lossGone
  try dsimp only
  repeat' first
    | with_reducible first
      | assumption
      | refine onPort_keeps K ?_
      | refine keep_ite (P := P) ?_ ?_
    | exact rfl
    | split
    | (dsimp only)


theorem clearLoss_keeps {P : State → Prop} (K : Keeps [.ports] P) {p : Fin 32} {s : State} (h : P s) :
    P (clearLoss p s) := by
  unfold clearLoss
  try dsimp only
  repeat' first
    | with_reducible first
      | assumption
      | refine onPort_keeps K ?_
    | exact rfl
    | (dsimp only)


theorem steppersMoved_keeps {P : State → Prop} (K : Keeps [.stepper] P) {p : Fin 32} {s : State} (h : P s) :
    P (steppersMoved p s) := by
  unfold steppersMoved
  try dsimp only
  repeat' first
    | with_reducible first
      | assumption
      | refine onStep_keeps K ?_
      | refine keep_foldl (P := P) (fun _ _ _ => ?_) ?_
    | exact rfl
    | (dsimp only)


theorem moved_keeps {P : State → Prop} (K : Keeps [.ports, .stepper] P) {p : Fin 32} {before : Int} {s0 : State} (h : P s0) :
    P (moved p before s0) := by
  have K1 := K.sub (as := [.stepper]) rfl
  have K2 := K.sub (as := [.ports]) rfl
  unfold moved
  try dsimp only
  repeat' first
    | with_reducible first
      | assumption
      | refine steppersMoved_keeps K1 ?_
      | refine lossGone_keeps K2 ?_
      | refine clearLoss_keeps K2 ?_
      | refine keep_ite (P := P) ?_ ?_
    | exact rfl
    | split
    | (dsimp only)


theorem unresolved_keeps {P : State → Prop} (K : Keeps [.pkts, .integ, .axis, .plan, .gear, .loop, .ports, .bta, .stepper, .bricks] P) {p : Fin 32} {n : Nat} {ns : Nat} {s : State} (h : P s) :
    P (unresolved p n ns s) := by
  have K1 := K.sub (as := [.ports]) rfl
  unfold unresolved
  try dsimp only
  repeat' first
    | with_reducible first
      | assumption
      | refine onPort_keeps K1 ?_
      | refine lossGone_keeps K1 ?_
      | refine lossPresent_keeps K ?_
      | refine keep_ite (P := P) ?_ ?_
    | exact rfl
    | split
    | (dsimp only)


theorem enableCauses_keeps {P : State → Prop} (K : Keeps [.pkts, .integ, .axis, .plan, .gear, .loop, .ports, .bta, .stepper, .bricks] P) {p : Fin 32} {mask : BitVec 8} {s : State} (h : P s) :
    P (enableCauses p mask s) := by
  have K1 := K.sub (as := [.ports]) rfl
  unfold enableCauses
  try dsimp only
  repeat' first
    | with_reducible first
      | assumption
      | refine portLoss_keeps K ?_
      | refine onPort_keeps K1 ?_
      | refine keep_foldl (P := P) (fun _ _ _ => ?_) ?_
    | exact rfl
    | (dsimp only)


theorem opPpConfig_keeps {P : State → Prop} (K : Keeps [.pkts, .integ, .axis, .plan, .gear, .loop, .ports, .bta, .stepper, .bricks] P) {rq : Request} {s : State} (h : P s) :
    Answer.Keeps P (opPpConfig.effect rq s) := by
  have K1 := K.sub (as := [.integ, .ports]) rfl
  have K2 := K.sub (as := [.ports]) rfl
  unfold opPpConfig
  try dsimp only
  repeat' first
    | with_reducible first
      | assumption
      | refine setPort_keeps K1 ?_
      | refine enableCauses_keeps K ?_
      | refine onPort_keeps K2 ?_
      | refine keep_ite (P := P) ?_ ?_
      | refine keep_ite_answer ?_ ?_
      | exact keep_deny
      | refine keep_done ?_
      | refine keep_fail ?_
      | refine keep_wait ?_
    | exact rfl
    | split
    | (dsimp only)


theorem execPpConfig_keeps {P : State → Prop} (K : Keeps [.pkts, .integ, .axis, .plan, .gear, .loop, .ports, .bta, .stepper, .bricks, .free] P) {rq : Sys2Proof.Request} {s : State} (h : P s) :
    NextKeeps P (execPpConfig rq s) := by
  have K1 := K.sub (as := [.pkts, .integ, .free]) rfl
  have K2 := K.sub (as := [.pkts, .integ, .axis, .plan, .gear, .loop, .ports, .bta, .stepper, .bricks]) rfl
  unfold execPpConfig
  try dsimp only
  repeat' first
    | with_reducible first
      | assumption
      | refine keep_next ?_
      | refine runCommand_keeps K1 ?_ ?_
      | refine opPpConfig_keeps K2 ?_
    | exact rfl
    | split
    | (dsimp only)


theorem opPpSetPosition_keeps {P : State → Prop} (K : Keeps [.integ, .ports, .stepper] P) {rq : Request} {s : State} (h : P s) :
    Answer.Keeps P (opPpSetPosition.effect rq s) := by
  have K1 := K.sub (as := [.ports, .stepper]) rfl
  have K2 := K.sub (as := [.ports]) rfl
  have K3 := K.sub (as := [.integ, .ports]) rfl
  unfold opPpSetPosition
  try dsimp only
  repeat' first
    | with_reducible first
      | assumption
      | refine moved_keeps K1 ?_
      | refine onPort_keeps K2 ?_
      | refine presetPort_keeps K3 ?_
      | refine keep_ite (P := P) ?_ ?_
      | refine keep_ite_answer ?_ ?_
      | exact keep_deny
      | refine keep_done ?_
      | refine keep_fail ?_
      | refine keep_wait ?_
    | exact rfl
    | split
    | (dsimp only)


theorem execPpSetPosition_keeps {P : State → Prop} (K : Keeps [.pkts, .integ, .ports, .stepper, .free] P) {rq : Sys2Proof.Request} {s : State} (h : P s) :
    NextKeeps P (execPpSetPosition rq s) := by
  have K1 := K.sub (as := [.pkts, .integ, .free]) rfl
  have K2 := K.sub (as := [.integ, .ports, .stepper]) rfl
  unfold execPpSetPosition
  try dsimp only
  repeat' first
    | with_reducible first
      | assumption
      | refine keep_next ?_
      | refine runCommand_keeps K1 ?_ ?_
      | refine opPpSetPosition_keeps K2 ?_
    | exact rfl
    | split
    | (dsimp only)


theorem opPpIndexConfig_keeps {P : State → Prop} (K : Keeps [.ports] P) {rq : Request} {s : State} (h : P s) :
    Answer.Keeps P (opPpIndexConfig.effect rq s) := by
  unfold opPpIndexConfig
  try dsimp only
  repeat' first
    | with_reducible first
      | assumption
      | refine onPort_keeps K ?_
      | refine keep_ite (P := P) ?_ ?_
      | refine keep_ite_answer ?_ ?_
      | exact keep_deny
      | refine keep_done ?_
      | refine keep_fail ?_
      | refine keep_wait ?_
    | exact rfl
    | split
    | (dsimp only)


theorem execPpIndexConfig_keeps {P : State → Prop} (K : Keeps [.pkts, .integ, .ports, .free] P) {rq : Sys2Proof.Request} {s : State} (h : P s) :
    NextKeeps P (execPpIndexConfig rq s) := by
  have K1 := K.sub (as := [.pkts, .integ, .free]) rfl
  have K2 := K.sub (as := [.ports]) rfl
  unfold execPpIndexConfig
  try dsimp only
  repeat' first
    | with_reducible first
      | assumption
      | refine keep_next ?_
      | refine runCommand_keeps K1 ?_ ?_
      | refine opPpIndexConfig_keeps K2 ?_
    | exact rfl
    | split
    | (dsimp only)


theorem opPpSpeedConfig_keeps {P : State → Prop} (K : Keeps [.ports] P) {rq : Request} {s : State} (h : P s) :
    Answer.Keeps P (opPpSpeedConfig.effect rq s) := by
  unfold opPpSpeedConfig
  try dsimp only
  repeat' first
    | with_reducible first
      | assumption
      | refine onPort_keeps K ?_
      | refine keep_ite (P := P) ?_ ?_
      | refine keep_ite_answer ?_ ?_
      | exact keep_deny
      | refine keep_done ?_
      | refine keep_fail ?_
      | refine keep_wait ?_
    | exact rfl
    | split
    | (dsimp only)


theorem execPpSpeedConfig_keeps {P : State → Prop} (K : Keeps [.pkts, .integ, .ports, .free] P) {rq : Sys2Proof.Request} {s : State} (h : P s) :
    NextKeeps P (execPpSpeedConfig rq s) := by
  have K1 := K.sub (as := [.pkts, .integ, .free]) rfl
  have K2 := K.sub (as := [.ports]) rfl
  unfold execPpSpeedConfig
  try dsimp only
  repeat' first
    | with_reducible first
      | assumption
      | refine keep_next ?_
      | refine runCommand_keeps K1 ?_ ?_
      | refine opPpSpeedConfig_keeps K2 ?_
    | exact rfl
    | split
    | (dsimp only)


theorem opPpLossConfig_keeps {P : State → Prop} (K : Keeps [.pkts, .integ, .axis, .plan, .gear, .loop, .ports, .bta, .stepper, .bricks] P) {rq : Request} {s : State} (h : P s) :
    Answer.Keeps P (opPpLossConfig.effect rq s) := by
  have K1 := K.sub (as := [.ports]) rfl
  unfold opPpLossConfig
  try dsimp only
  repeat' first
    | with_reducible first
      | assumption
      | refine onPort_keeps K1 ?_
      | refine enableCauses_keeps K ?_
      | exact keep_deny
      | refine keep_done ?_
      | refine keep_fail ?_
      | refine keep_wait ?_
    | exact rfl
    | (dsimp only)


theorem execPpLossConfig_keeps {P : State → Prop} (K : Keeps [.pkts, .integ, .axis, .plan, .gear, .loop, .ports, .bta, .stepper, .bricks, .free] P) {rq : Sys2Proof.Request} {s : State} (h : P s) :
    NextKeeps P (execPpLossConfig rq s) := by
  have K1 := K.sub (as := [.pkts, .integ, .free]) rfl
  have K2 := K.sub (as := [.pkts, .integ, .axis, .plan, .gear, .loop, .ports, .bta, .stepper, .bricks]) rfl
  unfold execPpLossConfig
  try dsimp only
  repeat' first
    | with_reducible first
      | assumption
      | refine keep_next ?_
      | refine runCommand_keeps K1 ?_ ?_
      | refine opPpLossConfig_keeps K2 ?_
    | exact rfl
    | split
    | (dsimp only)


theorem opPpStatusRead_keeps {P : State → Prop} (K : Keeps [] P) {rq : Request} {s : State} (h : P s) :
    Answer.Keeps P (opPpStatusRead.effect rq s) := by
  have _ := K
  unfold opPpStatusRead
  try dsimp only
  repeat' first
    | with_reducible first
      | assumption
      | exact keep_deny
      | refine keep_done ?_
      | refine keep_fail ?_
      | refine keep_wait ?_
    | exact rfl
    | (dsimp only)


theorem execPpStatusRead_keeps {P : State → Prop} (K : Keeps [.pkts, .integ, .free] P) {rq : Sys2Proof.Request} {s : State} (h : P s) :
    NextKeeps P (execPpStatusRead rq s) := by
  have K1 := K.sub (as := []) rfl
  unfold execPpStatusRead
  try dsimp only
  repeat' first
    | with_reducible first
      | assumption
      | refine keep_next ?_
      | refine runCommand_keeps K ?_ ?_
      | refine opPpStatusRead_keeps K1 ?_
    | exact rfl
    | split
    | (dsimp only)


theorem opCompareDefine_keeps {P : State → Prop} (K : Keeps [.plan, .ports] P) {rq : Request} {s : State} (h : P s) :
    Answer.Keeps P (opCompareDefine.effect rq s) := by
  have K1 := K.sub (as := [.ports]) rfl
  have K2 := K.sub (as := [.plan]) rfl
  unfold opCompareDefine
  try dsimp only
  repeat' first
    | with_reducible first
      | assumption
      | refine onCmp_keeps K1 ?_
      | refine storeRelease_keeps K2 ?_
      | refine storeAllocate_keeps K2 ?_ _ ‹_›
      | refine keep_ite (P := P) ?_ ?_
      | refine keep_ite_answer ?_ ?_
      | exact keep_deny
      | refine keep_done ?_
      | refine keep_fail ?_
      | refine keep_wait ?_
    | exact rfl
    | split
    | (dsimp only)


theorem execCompareDefine_keeps {P : State → Prop} (K : Keeps [.pkts, .integ, .plan, .ports, .free] P) {rq : Sys2Proof.Request} {s : State} (h : P s) :
    NextKeeps P (execCompareDefine rq s) := by
  have K1 := K.sub (as := [.pkts, .integ, .free]) rfl
  have K2 := K.sub (as := [.plan, .ports]) rfl
  unfold execCompareDefine
  try dsimp only
  repeat' first
    | with_reducible first
      | assumption
      | refine keep_next ?_
      | refine runCommand_keeps K1 ?_ ?_
      | refine opCompareDefine_keeps K2 ?_
    | exact rfl
    | split
    | (dsimp only)


theorem opCompareData_keeps {P : State → Prop} (K : Keeps [.ports] P) {rq : Request} {s : State} (h : P s) :
    Answer.Keeps P (opCompareData.effect rq s) := by
  unfold opCompareData
  try dsimp only
  repeat' first
    | with_reducible first
      | assumption
      | refine onCmp_keeps K ?_
      | refine keep_ite (P := P) ?_ ?_
      | refine keep_foldl (P := P) (fun _ _ _ => ?_) ?_
      | refine keep_ite_answer ?_ ?_
      | exact keep_deny
      | refine keep_done ?_
      | refine keep_fail ?_
      | refine keep_wait ?_
    | exact rfl
    | split
    | (dsimp only)


theorem execCompareData_keeps {P : State → Prop} (K : Keeps [.pkts, .integ, .ports, .free] P) {rq : Sys2Proof.Request} {s : State} (h : P s) :
    NextKeeps P (execCompareData rq s) := by
  have K1 := K.sub (as := [.pkts, .integ, .free]) rfl
  have K2 := K.sub (as := [.ports]) rfl
  unfold execCompareData
  try dsimp only
  repeat' first
    | with_reducible first
      | assumption
      | refine keep_next ?_
      | refine runCommand_keeps K1 ?_ ?_
      | refine opCompareData_keeps K2 ?_
    | exact rfl
    | split
    | (dsimp only)


theorem writePcuCtrl_keeps {P : State → Prop} (K : Keeps [.sys, .integ, .plan, .loop, .ports, .bta] P) {u : Fin 16} {mask : Nat} {bits : Nat} {s : State} (h : P s) :
    P (writePcuCtrl u mask bits s) := by
  have K1 := K.sub (as := [.sys]) rfl
  have K2 := K.sub (as := [.ports]) rfl
  unfold writePcuCtrl
  try dsimp only
  repeat' first
    | with_reducible first
      | assumption
      | refine strobe_keeps K ?_
      | refine markDirty_keeps K1 ?_
      | refine onCmp_keeps K2 ?_
    | exact rfl
    | (dsimp only)


theorem opCompareArm_keeps {P : State → Prop} (K : Keeps [.sys, .integ, .plan, .loop, .ports, .bta] P) {rq : Request} {s : State} (h : P s) :
    Answer.Keeps P (opCompareArm.effect rq s) := by
  have K1 := K.sub (as := [.ports]) rfl
  unfold opCompareArm
  try dsimp only
  repeat' first
    | with_reducible first
      | assumption
      | refine writePcuCtrl_keeps K ?_
      | refine onCmp_keeps K1 ?_
      | refine keep_ite (P := P) ?_ ?_
      | refine keep_ite_answer ?_ ?_
      | exact keep_deny
      | refine keep_done ?_
      | refine keep_fail ?_
      | refine keep_wait ?_
    | exact rfl
    | split
    | (dsimp only)


theorem execCompareArm_keeps {P : State → Prop} (K : Keeps [.sys, .pkts, .integ, .plan, .loop, .ports, .bta, .free] P) {rq : Sys2Proof.Request} {s : State} (h : P s) :
    NextKeeps P (execCompareArm rq s) := by
  have K1 := K.sub (as := [.pkts, .integ, .free]) rfl
  have K2 := K.sub (as := [.sys, .integ, .plan, .loop, .ports, .bta]) rfl
  unfold execCompareArm
  try dsimp only
  repeat' first
    | with_reducible first
      | assumption
      | refine keep_next ?_
      | refine runCommand_keeps K1 ?_ ?_
      | refine opCompareArm_keeps K2 ?_
    | exact rfl
    | split
    | (dsimp only)


theorem opCompareForce_keeps {P : State → Prop} (K : Keeps [.sys, .integ, .plan, .loop, .ports, .bta] P) {rq : Request} {s : State} (h : P s) :
    Answer.Keeps P (opCompareForce.effect rq s) := by
  unfold opCompareForce
  try dsimp only
  repeat' first
    | with_reducible first
      | assumption
      | refine writePcuCtrl_keeps K ?_
      | refine keep_ite (P := P) ?_ ?_
      | refine keep_ite_answer ?_ ?_
      | exact keep_deny
      | refine keep_done ?_
      | refine keep_fail ?_
      | refine keep_wait ?_
    | exact rfl
    | split
    | (dsimp only)


theorem execCompareForce_keeps {P : State → Prop} (K : Keeps [.sys, .pkts, .integ, .plan, .loop, .ports, .bta, .free] P) {rq : Sys2Proof.Request} {s : State} (h : P s) :
    NextKeeps P (execCompareForce rq s) := by
  have K1 := K.sub (as := [.pkts, .integ, .free]) rfl
  have K2 := K.sub (as := [.sys, .integ, .plan, .loop, .ports, .bta]) rfl
  unfold execCompareForce
  try dsimp only
  repeat' first
    | with_reducible first
      | assumption
      | refine keep_next ?_
      | refine runCommand_keeps K1 ?_ ?_
      | refine opCompareForce_keeps K2 ?_
    | exact rfl
    | split
    | (dsimp only)


theorem onLatch_keeps {P : State → Prop} (K : Keeps [.ports] P) {l : Fin 16} {f : Latch → Latch} {s : State} (h : P s) :
    P (onLatch l f s) := by
  unfold onLatch
  try dsimp only
  repeat' first
    | with_reducible first
      | assumption
      | refine K.onPorts rfl _ _ ?_
    | exact rfl
    | (dsimp only)


theorem onSnap_keeps {P : State → Prop} (K : Keeps [.ports] P) {f : Snap → Snap} {s : State} (h : P s) :
    P (onSnap f s) := by
  unfold onSnap
  try dsimp only
  repeat' first
    | with_reducible first
      | assumption
      | refine K.onPorts rfl _ _ ?_
    | exact rfl
    | (dsimp only)


theorem opLatchConfig_keeps {P : State → Prop} (K : Keeps [.ports] P) {rq : Request} {s : State} (h : P s) :
    Answer.Keeps P (opLatchConfig.effect rq s) := by
  unfold opLatchConfig
  try dsimp only
  repeat' first
    | with_reducible first
      | assumption
      | refine onLatch_keeps K ?_
      | refine keep_ite (P := P) ?_ ?_
      | refine keep_ite_answer ?_ ?_
      | exact keep_deny
      | refine keep_done ?_
      | refine keep_fail ?_
      | refine keep_wait ?_
    | exact rfl
    | split
    | (dsimp only)


theorem execLatchConfig_keeps {P : State → Prop} (K : Keeps [.pkts, .integ, .ports, .free] P) {rq : Sys2Proof.Request} {s : State} (h : P s) :
    NextKeeps P (execLatchConfig rq s) := by
  have K1 := K.sub (as := [.pkts, .integ, .free]) rfl
  have K2 := K.sub (as := [.ports]) rfl
  unfold execLatchConfig
  try dsimp only
  repeat' first
    | with_reducible first
      | assumption
      | refine keep_next ?_
      | refine runCommand_keeps K1 ?_ ?_
      | refine opLatchConfig_keeps K2 ?_
    | exact rfl
    | split
    | (dsimp only)


theorem opLatchRead_keeps {P : State → Prop} (K : Keeps [.ports] P) {rq : Request} {s : State} (h : P s) :
    Answer.Keeps P (opLatchRead.effect rq s) := by
  unfold opLatchRead
  try dsimp only
  repeat' first
    | with_reducible first
      | assumption
      | refine onLatch_keeps K ?_
      | exact keep_deny
      | refine keep_done ?_
      | refine keep_fail ?_
      | refine keep_wait ?_
    | exact rfl
    | (dsimp only)


theorem execLatchRead_keeps {P : State → Prop} (K : Keeps [.pkts, .integ, .ports, .free] P) {rq : Sys2Proof.Request} {s : State} (h : P s) :
    NextKeeps P (execLatchRead rq s) := by
  have K1 := K.sub (as := [.pkts, .integ, .free]) rfl
  have K2 := K.sub (as := [.ports]) rfl
  unfold execLatchRead
  try dsimp only
  repeat' first
    | with_reducible first
      | assumption
      | refine keep_next ?_
      | refine runCommand_keeps K1 ?_ ?_
      | refine opLatchRead_keeps K2 ?_
    | exact rfl
    | split
    | (dsimp only)


theorem opSnapshotConfig_keeps {P : State → Prop} (K : Keeps [.ports] P) {rq : Request} {s : State} (h : P s) :
    Answer.Keeps P (opSnapshotConfig.effect rq s) := by
  unfold opSnapshotConfig
  try dsimp only
  repeat' first
    | with_reducible first
      | assumption
      | refine onSnap_keeps K ?_
      | exact keep_deny
      | refine keep_done ?_
      | refine keep_fail ?_
      | refine keep_wait ?_
    | exact rfl
    | split
    | (dsimp only)


theorem execSnapshotConfig_keeps {P : State → Prop} (K : Keeps [.pkts, .integ, .ports, .free] P) {rq : Sys2Proof.Request} {s : State} (h : P s) :
    NextKeeps P (execSnapshotConfig rq s) := by
  have K1 := K.sub (as := [.pkts, .integ, .free]) rfl
  have K2 := K.sub (as := [.ports]) rfl
  unfold execSnapshotConfig
  try dsimp only
  repeat' first
    | with_reducible first
      | assumption
      | refine keep_next ?_
      | refine runCommand_keeps K1 ?_ ?_
      | refine opSnapshotConfig_keeps K2 ?_
    | exact rfl
    | split
    | (dsimp only)


theorem opSnapshotRead_keeps {P : State → Prop} (K : Keeps [.ports] P) {rq : Request} {s : State} (h : P s) :
    Answer.Keeps P (opSnapshotRead.effect rq s) := by
  unfold opSnapshotRead
  try dsimp only
  repeat' first
    | with_reducible first
      | assumption
      | refine onSnap_keeps K ?_
      | exact keep_deny
      | refine keep_done ?_
      | refine keep_fail ?_
      | refine keep_wait ?_
    | exact rfl
    | split
    | (dsimp only)


theorem execSnapshotRead_keeps {P : State → Prop} (K : Keeps [.pkts, .integ, .ports, .free] P) {rq : Sys2Proof.Request} {s : State} (h : P s) :
    NextKeeps P (execSnapshotRead rq s) := by
  have K1 := K.sub (as := [.pkts, .integ, .free]) rfl
  have K2 := K.sub (as := [.ports]) rfl
  unfold execSnapshotRead
  try dsimp only
  repeat' first
    | with_reducible first
      | assumption
      | refine keep_next ?_
      | refine runCommand_keeps K1 ?_ ?_
      | refine opSnapshotRead_keeps K2 ?_
    | exact rfl
    | split
    | (dsimp only)


theorem opSnapshotTrigger_keeps {P : State → Prop} (K : Keeps [.ports] P) {rq : Request} {s : State} (h : P s) :
    Answer.Keeps P (opSnapshotTrigger.effect rq s) := by
  unfold opSnapshotTrigger
  try dsimp only
  repeat' first
    | with_reducible first
      | assumption
      | refine onSnap_keeps K ?_
      | refine keep_ite (P := P) ?_ ?_
      | refine keep_ite_answer ?_ ?_
      | exact keep_deny
      | refine keep_done ?_
      | refine keep_fail ?_
      | refine keep_wait ?_
    | exact rfl
    | split
    | (dsimp only)


theorem execSnapshotTrigger_keeps {P : State → Prop} (K : Keeps [.pkts, .integ, .ports, .free] P) {rq : Sys2Proof.Request} {s : State} (h : P s) :
    NextKeeps P (execSnapshotTrigger rq s) := by
  have K1 := K.sub (as := [.pkts, .integ, .free]) rfl
  have K2 := K.sub (as := [.ports]) rfl
  unfold execSnapshotTrigger
  try dsimp only
  repeat' first
    | with_reducible first
      | assumption
      | refine keep_next ?_
      | refine runCommand_keeps K1 ?_ ?_
      | refine opSnapshotTrigger_keeps K2 ?_
    | exact rfl
    | split
    | (dsimp only)


end Sys2Proof.Machine
end

