-- ==== Sys2Proof/Laws/KeepSpmCore.lean ====
section
/-! SUPPORT.
What each function of Machine/SpmCore.lean keeps. -/

namespace Sys2Proof.Machine

theorem onSpm_keeps {P : State → Prop} (K : Keeps [.serial] P) {p : Fin 4} {f : SpmSel → SpmSel} {s : State}
    (hf : (f s.serial.sel[p]).flash = s.serial.sel[p].flash) (h : P s) : P (onSpm p f s) := by
  refine K.onSerial rfl _ _ (fun i => ?_) h
  by_cases e : p = i
  · subst e
    show (upd s.serial.sel p f)[p].flash = _
    rw [upd_same]
    exact hf
  · show (upd s.serial.sel p f)[i].flash = _
    rw [upd_other _ _ _ _ e]

theorem onSpmData_keeps {P : State → Prop} (K : Keeps [.flash] P) {p : Fin 4} {f : SpmSel → SpmSel} {s : State}
    (hf : Memory.wf 0xFF s.serial.sel[p].flash = true → Memory.wf 0xFF (f s.serial.sel[p]).flash = true) (h : P s) :
    P (onSpm p f s) := by
  refine K.onFlash rfl _ _ (fun i hx => ?_) h
  by_cases e : p = i
  · subst e
    show Memory.wf 0xFF (upd s.serial.sel p f)[p].flash = true
    rw [upd_same]
    exact hf hx
  · show Memory.wf 0xFF (upd s.serial.sel p f)[i].flash = true
    rw [upd_other _ _ _ _ e]
    exact hx


theorem dropLines_keeps {P : State → Prop} (K : Keeps [.serial] P) {p : Fin 4} {off : Nat} {len : Nat} {s : State} (h : P s) :
    P (dropLines p off len s) := by
  unfold dropLines
  try dsimp only
  repeat' first
    | with_reducible first
      | assumption
      | refine K.onSerial rfl _ _ (fun _ => ?_) ?_
    | exact rfl
    | (dsimp only)


theorem lineWord_keeps {P : State → Prop} (K : Keeps [.serial] P) {p : Fin 4} {x : Nat} {s : State} (h : P s) :
    P (lineWord p x s).2 := by
  unfold lineWord
  try dsimp only
  repeat' first
    | with_reducible first
      | assumption
      | refine K.onSerial rfl _ _ (fun _ => ?_) ?_
    | exact rfl
    | split
    | (dsimp only)

theorem lineWord_out {P : State → Prop} (K : Keeps [.serial] P) {p : Fin 4} {x : Nat} {s : State} (h : P s) {o} {u : State}
    (hout : lineWord p x s = (o, u)) : P u := by
  have hu := lineWord_keeps K h (P := P) (p := p) (x := x)
  rw [hout] at hu
  exact hu


theorem startProgram_keeps {P : State → Prop} (K : Keeps [.serial] P) {p : Fin 4} {s : State} (h : P s) :
    P (startProgram p s) := by
  unfold startProgram
  try dsimp only
  repeat' first
    | with_reducible first
      | assumption
      | refine onSpm_keeps K ?_ ?_
      | refine dropLines_keeps K ?_
    | exact rfl
    | split
    | (dsimp only)


theorem flushPage_keeps {P : State → Prop} (K : Keeps [.serial] P) {p : Fin 4} {s : State} (h : P s) :
    P (flushPage p s) := by
  unfold flushPage
  try dsimp only
  repeat' first
    | with_reducible first
      | assumption
      | refine onSpm_keeps K ?_ ?_
      | refine startProgram_keeps K ?_
      | refine keep_ite (P := P) ?_ ?_
    | exact rfl
    | split
    | (dsimp only)


theorem windowRead_keeps {P : State → Prop} (K : Keeps [.serial] P) {p : Fin 4} {x : Nat} {s : State} (h : P s) :
    P (windowRead p x s).2 := by
  unfold windowRead
  try dsimp only
  repeat' first
    | with_reducible first
      | assumption
      | refine flushPage_keeps K ?_
      | refine lineWord_keeps K ?_
      | refine lineWord_out K ?_ ‹_›
      | refine keep_ite (P := P) ?_ ?_
    | exact rfl
    | split
    | (dsimp only)

theorem windowRead_out {P : State → Prop} (K : Keeps [.serial] P) {p : Fin 4} {x : Nat} {s : State} (h : P s) {o} {u : State}
    (hout : windowRead p x s = (o, u)) : P u := by
  have hu := windowRead_keeps K h (P := P) (p := p) (x := x)
  rw [hout] at hu
  exact hu


theorem windowWrite_keeps {P : State → Prop} (K : Keeps [.serial] P) {p : Fin 4} {x : Nat} {w : Sys2Proof.Word} {s : State} (h : P s) :
    P (windowWrite p x w s).2 := by
  unfold windowWrite
  try dsimp only
  repeat' first
    | with_reducible first
      | assumption
      | refine onSpm_keeps K ?_ ?_
      | refine flushPage_keeps K ?_
      | refine keep_ite (P := P) ?_ ?_
    | exact rfl
    | split
    | (dsimp only)

theorem windowWrite_out {P : State → Prop} (K : Keeps [.serial] P) {p : Fin 4} {x : Nat} {w : Sys2Proof.Word} {s : State} (h : P s) {o} {u : State}
    (hout : windowWrite p x w s = (o, u)) : P u := by
  have hu := windowWrite_keeps K h (P := P) (p := p) (x := x) (w := w)
  rw [hout] at hu
  exact hu


theorem endOperation_keeps {P : State → Prop} (K : Keeps [.integ, .serial, .flash] P) {p : Fin 4} {s : State} (h : P s) :
    P (endOperation p s) := by
  have K1 := K.sub (as := [.serial]) rfl
  have K2 := K.sub (as := [.integ]) rfl
  unfold endOperation
  try dsimp only
  repeat' first
    | with_reducible first
      | assumption
      | refine onSpmData_keeps (K.sub (as := [.flash]) rfl) (fun hx => ?_) ?_
      | refine dropLines_keeps K1 ?_
      | refine event_keeps K2 ?_
      | refine keep_ite (P := P) ?_ ?_
    | exact hx
    | exact rfl
    | exact eraseRange_wf hx
    | exact programBytes_wf hx
    | exact programWords_wf hx
    | exact spoiled_wf hx
    | exact wordPut_wf hx
    | exact chooseSlot_wf hx
    | exact cellsWrite_wf rfl
    | split
    | (dsimp only)


theorem settleFlush_keeps {P : State → Prop} (K : Keeps [.pkts, .serial] P) {p : Fin 4} {s : State} (h : P s) :
    P (settleFlush p s) := by
  have K1 := K.sub (as := [.serial]) rfl
  have K2 := K.sub (as := [.pkts]) rfl
  unfold settleFlush
  try dsimp only
  repeat' first
    | with_reducible first
      | assumption
      | refine startProgram_keeps K1 ?_
      | refine finish_keeps K2 ?_
      | refine onSpm_keeps K1 ?_ ?_
      | refine keep_ite (P := P) ?_ ?_
    | exact rfl
    | split
    | (dsimp only)


theorem windowAccess_keeps {P : State → Prop} (K : Keeps [.serial] P) {a : Nat} {v : Option Sys2Proof.Word} {s : State} (h : P s) :
    P (windowAccess a v s).2 := by
  unfold windowAccess
  try dsimp only
  repeat' first
    | with_reducible first
      | assumption
      | refine windowRead_keeps K ?_
      | refine windowRead_out K ?_ ‹_›
      | refine windowWrite_keeps K ?_
      | refine windowWrite_out K ?_ ‹_›
      | refine keep_ite (P := P) ?_ ?_
    | exact rfl
    | split
    | (dsimp only)

theorem windowAccess_out {P : State → Prop} (K : Keeps [.serial] P) {a : Nat} {v : Option Sys2Proof.Word} {s : State} (h : P s) {o} {u : State}
    (hout : windowAccess a v s = (o, u)) : P u := by
  have hu := windowAccess_keeps K h (P := P) (a := a) (v := v)
  rw [hout] at hu
  exact hu


theorem windowWords_keeps {P : State → Prop} (K : Keeps [.serial] P) {a n : Nat} {s : State} (h : P s) : P (windowWords a n s).2 := by
  induction n generalizing a s with
  | zero => exact h
  | succ n ih =>
    unfold windowWords
    split
    · rename_i w t hw
      exact ih (windowAccess_out (K.sub rfl) h hw)
    · rename_i t hw
      exact windowAccess_out (K.sub rfl) h hw

theorem windowWords_out {P : State → Prop} (K : Keeps [.serial] P) {a n : Nat} {s : State} (h : P s) {o} {u : State}
    (hout : windowWords a n s = (o, u)) : P u := by
  have hu := windowWords_keeps K h (P := P) (a := a) (n := n)
  rw [hout] at hu
  exact hu


theorem waitedWords_keeps {P : State → Prop} (K : Keeps [.serial] P) {e : WindowWait} {s : State} (h : P s) :
    P (waitedWords e s).2 := by
  unfold waitedWords
  try dsimp only
  repeat' first
    | with_reducible first
      | assumption
      | refine windowAccess_keeps K ?_
      | refine windowAccess_out K ?_ ‹_›
      | refine windowWords_keeps K ?_
      | refine windowWords_out K ?_ ‹_›
      | refine keep_ite (P := P) ?_ ?_
    | exact rfl
    | split
    | (dsimp only)

theorem waitedWords_out {P : State → Prop} (K : Keeps [.serial] P) {e : WindowWait} {s : State} (h : P s) {o} {u : State}
    (hout : waitedWords e s = (o, u)) : P u := by
  have hu := waitedWords_keeps K h (P := P) (e := e)
  rw [hout] at hu
  exact hu


theorem resumeList_keeps {P : State → Prop} (K : Keeps [.serial, .ctx] P) {c : Fin 6} {l : List WindowWait} {s : State} (h : P s) :
    P (resumeList c l s) := by
  induction l generalizing s with
  | nil => exact K.onCtx rfl _ _ h
  | cons e l ih =>
    unfold resumeList
    split
    · rename_i w t hw
      exact ih (K.onCtx rfl _ _ (waitedWords_out (K.sub rfl) h hw))
    · rename_i t hw
      exact K.onCtx rfl _ _ (waitedWords_out (K.sub rfl) h hw)


theorem resumeOne_keeps {P : State → Prop} (K : Keeps [.serial, .ctx] P) {c : Fin 6} {s : State} (h : P s) :
    P (resumeOne c s) := by
  unfold resumeOne
  try dsimp only
  repeat' first
    | with_reducible first
      | assumption
      | refine resumeList_keeps K ?_
    | exact rfl
    | (dsimp only)


theorem resumeAll_keeps {P : State → Prop} (K : Keeps [.serial, .ctx] P) {s : State} (h : P s) :
    P (resumeAll s) := by
  unfold resumeAll
  try dsimp only
  repeat' first
    | with_reducible first
      | assumption
      | refine resumeOne_keeps K ?_
      | refine keep_foldl (P := P) (fun _ _ _ => ?_) ?_
    | exact rfl
    | (dsimp only)


theorem deviceIdle_keeps {P : State → Prop} (K : Keeps [.pkts, .integ, .serial, .flash, .ctx] P) {p : Fin 4} {s : State} (h : P s) :
    P (deviceIdle p s) := by
  have K1 := K.sub (as := [.integ, .serial, .flash]) rfl
  have K2 := K.sub (as := [.pkts]) rfl
  have K3 := K.sub (as := [.pkts, .serial]) rfl
  have K4 := K.sub (as := [.serial, .ctx]) rfl
  unfold deviceIdle
  try dsimp only
  repeat' first
    | with_reducible first
      | assumption
      | refine endOperation_keeps K1 ?_
      | refine finish_keeps K2 ?_
      | refine settleFlush_keeps K3 ?_
      | refine resumeAll_keeps K4 ?_
      | refine keep_ite (P := P) ?_ ?_
    | exact rfl
    | split
    | (dsimp only)


theorem failOperation_keeps {P : State → Prop} (K : Keeps [.pkts, .integ, .serial, .flash, .ctx, .free] P) {p : Fin 4} {s : State} (h : P s) :
    P (failOperation p s) := by
  have K1 := K.sub (as := [.free]) rfl
  have K2 := K.sub (as := [.serial]) rfl
  have K3 := K.sub (as := [.integ]) rfl
  have K4 := K.sub (as := [.serial, .ctx]) rfl
  have K5 := K.sub (as := [.pkts]) rfl
  unfold failOperation
  try dsimp only
  repeat' first
    | with_reducible first
      | assumption
      | refine fresh_keeps K1 ?_
      | refine fresh_out K1 ?_ ‹_›
      | refine onSpmData_keeps (K.sub (as := [.flash]) rfl) (fun hx => ?_) ?_
      | refine dropLines_keeps K2 ?_
      | refine recordFault_keeps K3 ?_
      | refine event_keeps K3 ?_
      | refine resumeAll_keeps K4 ?_
      | refine finishDeny_keeps K5 ?_
    | exact hx
    | exact rfl
    | exact eraseRange_wf hx
    | exact programBytes_wf hx
    | exact programWords_wf hx
    | exact spoiled_wf hx
    | exact wordPut_wf hx
    | exact chooseSlot_wf hx
    | exact cellsWrite_wf rfl
    | (dsimp only)


end Sys2Proof.Machine
end

