-- ==== Sys2Proof/Laws/KeepTimeCore.lean ====
section
/-! SUPPORT.
What each function of Machine/TimeCore.lean keeps. -/

namespace Sys2Proof.Machine

theorem onTb_keeps {P : State → Prop} (K : Keeps [.net] P) {b : Fin 4} {f : TimeBase → TimeBase} {s : State} (h : P s) :
    P (onTb b f s) := by
  unfold onTb
  try dsimp only
  repeat' first
    | with_reducible first
      | assumption
      | refine K.onNet rfl _ _ ?_
    | exact rfl
    | (dsimp only)


theorem lateCommands_keeps {P : State → Prop} (K : Keeps [.pkts] P) {p : Pending → Bool} {s : State} (h : P s) :
    P (lateCommands p s) := by
  unfold lateCommands
  try dsimp only
  repeat' first
    | with_reducible first
      | assumption
      | refine sendReply_keeps K ?_
      | refine K.onPkts rfl _ _ (fun hx => ?_) ?_
      | refine keep_foldl (P := P) (fun _ _ _ => ?_) ?_
    | exact hx
    | exact rfl
    | (refine ⟨?_, ?_, ?_⟩ <;> first | exact hx.1 | exact hx.2.1 | exact hx.2.2 | (have h1 := hx.1; have h2 := hx.2.1; have h3 := hx.2.2; simp at h1 h2 h3 ⊢; omega))
    | (refine ⟨?_, ?_, ?_⟩ <;> first | exact hx.1 | exact hx.2.1 | exact hx.2.2 | exact Nat.le_trans (List.length_filter_le _ _) hx.2.2)
    | (dsimp only)


theorem skipOutputs_keeps {P : State → Prop} (K : Keeps [.integ, .net] P) {b : Fin 4} {now : Nat} {s : State} (h : P s) :
    P (skipOutputs b now s) := by
  have K1 := K.sub (as := [.integ]) rfl
  unfold skipOutputs
  try dsimp only
  repeat' first
    | with_reducible first
      | assumption
      | refine events_keeps K1 ?_
      | refine K.onNet rfl _ _ ?_
      | refine keep_ite (P := P) ?_ ?_
      | refine keep_foldl (P := P) (fun _ _ _ => ?_) ?_
    | exact rfl
    | split
    | (dsimp only)


theorem missCycles_keeps {P : State → Prop} (K : Keeps [.pkts, .integ, .axis, .plan, .gear, .loop, .bta, .stepper, .bricks, .net, .fio] P) {k : Fin 32} {n : Nat} {s : State} (h : P s) :
    P (missCycles k n s) := by
  have K1 := K.sub (as := [.axis]) rfl
  have K2 := K.sub (as := [.fio]) rfl
  have K3 := K.sub (as := [.pkts, .integ, .axis, .plan, .gear, .loop, .bta, .stepper, .bricks]) rfl
  unfold missCycles
  try dsimp only
  repeat' first
    | with_reducible first
      | assumption
      | refine onAx_keeps K1 ?_
      | refine onFioGroup_keeps K2 ?_
      | refine axisFaults_keeps K3 ?_
      | refine K.onNet rfl _ _ ?_
      | refine keep_ite (P := P) ?_ ?_
      | refine keep_foldl (P := P) (fun _ _ _ => ?_) ?_
    | exact rfl
    | split
    | (dsimp only)


theorem cyclicStep_keeps {P : State → Prop} (K : Keeps [.pkts, .integ, .axis, .plan, .gear, .loop, .bta, .stepper, .bricks, .net, .fio] P) {old : Nat} {now : Nat} {s : State} (h : P s) :
    P (cyclicStep old now s) := by
  unfold cyclicStep
  try dsimp only
  repeat' first
    | with_reducible first
      | assumption
      | refine missCycles_keeps K ?_
      | refine K.onNet rfl _ _ ?_
      | refine keep_ite (P := P) ?_ ?_
      | refine keep_foldl (P := P) (fun _ _ _ => ?_) ?_
    | exact rfl
    | split
    | (dsimp only)


theorem skipTimers_keeps {P : State → Prop} (K : Keeps [.lanes] P) {now : Nat} {s : State} (h : P s) :
    P (skipTimers now s) := by
  unfold skipTimers
  try dsimp only
  repeat' first
    | with_reducible first
      | assumption
      | refine K.onLanes rfl _ _ (fun _ => ?_) ?_
      | refine keep_ite (P := P) ?_ ?_
    | exact rfl
    | split
    | (dsimp only)


theorem skipSlept_keeps {P : State → Prop} (K : Keeps [.lanes] P) {s : State} (h : P s) :
    P (skipSlept s) := by
  unfold skipSlept
  try dsimp only
  repeat' first
    | with_reducible first
      | assumption
      | refine K.onLanes rfl _ _ (fun _ => ?_) ?_
      | refine keep_ite (P := P) ?_ ?_
    | exact rfl
    | split
    | (dsimp only)


theorem stepEffects_keeps {P : State → Prop} (K : Keeps [.pkts, .integ, .axis, .plan, .gear, .loop, .bta, .stepper, .bricks, .net, .fio, .lanes] P) {c : Fin 4} {old : Nat} {new : Nat} {s : State} (h : P s) :
    P (stepEffects c old new s) := by
  have K1 := K.sub (as := [.integ]) rfl
  have K2 := K.sub (as := [.net]) rfl
  have K3 := K.sub (as := [.integ, .gear]) rfl
  have K4 := K.sub (as := [.integ, .net]) rfl
  have K5 := K.sub (as := [.pkts, .integ, .axis, .plan, .gear, .loop, .bta, .stepper, .bricks, .net, .fio]) rfl
  have K6 := K.sub (as := [.lanes]) rfl
  have K7 := K.sub (as := [.pkts]) rfl
  unfold stepEffects
  try dsimp only
  repeat' first
    | with_reducible first
      | assumption
      | refine event_keeps K1 ?_
      | refine onTb_keeps K2 ?_
      | refine vmStep_keeps K3 ?_
      | refine skipOutputs_keeps K4 ?_
      | refine cyclicStep_keeps K5 ?_
      | refine skipTimers_keeps K6 ?_
      | refine lateCommands_keeps K7 ?_
      | refine K.onNet rfl _ _ ?_
      | refine keep_ite (P := P) ?_ ?_
    | exact rfl
    | split
    | (dsimp only)


theorem changeBases_keeps {P : State → Prop} (K : Keeps [.pkts, .integ, .axis, .plan, .gear, .loop, .bta, .stepper, .bricks, .net, .fio, .lanes] P) {f : Net → Net} {s : State} (h : P s) :
    P (changeBases f s) := by
  unfold changeBases
  try dsimp only
  repeat' first
    | with_reducible first
      | assumption
      | refine stepEffects_keeps K ?_
      | refine K.onNet rfl _ _ ?_
      | refine keep_ite (P := P) ?_ ?_
      | refine keep_foldl (P := P) (fun _ _ _ => ?_) ?_
    | exact rfl
    | split
    | (dsimp only)


theorem setBase_keeps {P : State → Prop} (K : Keeps [.pkts, .integ, .axis, .plan, .gear, .loop, .bta, .stepper, .bricks, .net, .fio, .lanes] P) {b : Fin 4} {v : Nat} {s : State} (h : P s) :
    P (setBase b v s) := by
  unfold setBase
  try dsimp only
  repeat' first
    | with_reducible first
      | assumption
      | refine changeBases_keeps K ?_
    | exact rfl
    | (dsimp only)


end Sys2Proof.Machine
end

