-- ==== Sys2Proof/Laws/KeepTime.lean ====
section
/-! SUPPORT.
What each function of Machine/Time.lean keeps. -/

namespace Sys2Proof.Machine

theorem changeOver_keeps {P : State → Prop} (K : Keeps [.integ, .net] P) {b : Fin 4} {s : State} (h : P s) :
    P (changeOver b s) := by
  have K1 := K.sub (as := [.integ]) rfl
  have K2 := K.sub (as := [.net]) rfl
  unfold changeOver
  try dsimp only
  repeat' first
    | with_reducible first
      | assumption
      | refine event_keeps K1 ?_
      | refine onTb_keeps K2 ?_
    | exact rfl
    | (dsimp only)


theorem reassess_keeps {P : State → Prop} (K : Keeps [.integ, .net] P) {b : Fin 4} {s : State} (h : P s) :
    P (reassess b s) := by
  have K1 := K.sub (as := [.net]) rfl
  unfold reassess
  try dsimp only
  repeat' first
    | with_reducible first
      | assumption
      | refine changeOver_keeps K ?_
      | refine onTb_keeps K1 ?_
      | refine keep_ite (P := P) ?_ ?_
    | exact rfl
    | split
    | (dsimp only)


theorem reassessAll_keeps {P : State → Prop} (K : Keeps [.pkts, .integ, .axis, .plan, .gear, .loop, .bta, .stepper, .bricks, .net, .fio, .lanes] P) {s : State} (h : P s) :
    P (reassessAll s) := by
  have K1 := K.sub (as := [.integ, .net]) rfl
  unfold reassessAll
  try dsimp only
  repeat' first
    | with_reducible first
      | assumption
      | refine changeBases_keeps K ?_
      | refine reassess_keeps K1 ?_
      | refine keep_foldl (P := P) (fun _ _ _ => ?_) ?_
    | exact rfl
    | (dsimp only)


theorem servo_keeps {P : State → Prop} (K : Keeps [.net, .free] P) {b : Fin 4} {ticks : Nat} {s : State} (h : P s) :
    P (servo b ticks s) := by
  have K1 := K.sub (as := [.free]) rfl
  have K2 := K.sub (as := [.net]) rfl
  unfold servo
  try dsimp only
  repeat' first
    | with_reducible first
      | assumption
      | refine freshInt_keeps K1 ?_
      | refine freshInt_out K1 ?_ ‹_›
      | refine onTb_keeps K2 ?_
    | exact rfl
    | (dsimp only)


theorem servoFree_keeps {P : State → Prop} (K : Keeps [.net, .free] P) {b : Fin 4} {s : State} (h : P s) :
    P (servoFree b s) := by
  have K1 := K.sub (as := [.free]) rfl
  have K2 := K.sub (as := [.net]) rfl
  unfold servoFree
  try dsimp only
  repeat' first
    | with_reducible first
      | assumption
      | refine freshInt_keeps K1 ?_
      | refine freshInt_out K1 ?_ ‹_›
      | refine onTb_keeps K2 ?_
    | exact rfl
    | (dsimp only)


theorem stepBy_keeps {P : State → Prop} (K : Keeps [.pkts, .integ, .axis, .plan, .gear, .loop, .bta, .stepper, .bricks, .net, .fio, .lanes] P) {b : Fin 4} {d : Int} {s : State} (h : P s) :
    P (stepBy b d s) := by
  have K1 := K.sub (as := [.net]) rfl
  unfold stepBy
  try dsimp only
  repeat' first
    | with_reducible first
      | assumption
      | refine setBase_keeps K ?_
      | refine onTb_keeps K1 ?_
    | exact rfl
    | (dsimp only)


theorem acceptShift_keeps {P : State → Prop} (K : Keeps [.pkts, .integ, .axis, .plan, .gear, .loop, .bta, .stepper, .bricks, .net, .fio, .lanes] P) {b : Fin 4} {unverified : Bool} {s : State} (h : P s) :
    P (acceptShift b unverified s) := by
  have K1 := K.sub (as := [.integ]) rfl
  have K2 := K.sub (as := [.net]) rfl
  unfold acceptShift
  try dsimp only
  repeat' first
    | with_reducible first
      | assumption
      | refine event_keeps K1 ?_
      | refine onTb_keeps K2 ?_
      | refine stepBy_keeps K ?_
      | refine keep_ite (P := P) ?_ ?_
    | exact rfl
    | split
    | (dsimp only)


theorem distrust_keeps {P : State → Prop} (K : Keeps [.integ, .net] P) {b : Fin 4} {isP : Bool} {s : State} (h : P s) :
    P (distrust b isP s) := by
  have K1 := K.sub (as := [.net]) rfl
  have K2 := K.sub (as := [.integ]) rfl
  unfold distrust
  try dsimp only
  repeat' first
    | with_reducible first
      | assumption
      | refine onTb_keeps K1 ?_
      | refine reassess_keeps K ?_
      | refine event_keeps K2 ?_
      | refine keep_ite (P := P) ?_ ?_
    | exact rfl
    | split
    | (dsimp only)


theorem decideShift_keeps {P : State → Prop} (K : Keeps [.pkts, .integ, .axis, .plan, .gear, .loop, .bta, .stepper, .bricks, .net, .fio, .lanes] P) {b : Fin 4} {s : State} (h : P s) :
    P (decideShift b s) := by
  have K1 := K.sub (as := [.net]) rfl
  have K2 := K.sub (as := [.integ, .net]) rfl
  have K3 := K.sub (as := [.integ]) rfl
  unfold decideShift
  try dsimp only
  repeat' first
    | with_reducible first
      | assumption
      | refine onTb_keeps K1 ?_
      | refine distrust_keeps K2 ?_
      | refine acceptShift_keeps K ?_
      | refine event_keeps K3 ?_
      | refine keep_ite (P := P) ?_ ?_
    | exact rfl
    | split
    | (dsimp only)


theorem drainCarried_keeps {P : State → Prop} (K : Keeps [.net, .free] P) {b : Fin 4} {ticks : Nat} {s : State} (h : P s) :
    P (drainCarried b ticks s) := by
  have K1 := K.sub (as := [.free]) rfl
  have K2 := K.sub (as := [.net]) rfl
  unfold drainCarried
  try dsimp only
  repeat' first
    | with_reducible first
      | assumption
      | refine freshNat_keeps K1 ?_
      | refine freshNat_out K1 ?_ ‹_›
      | refine onTb_keeps K2 ?_
      | refine keep_ite (P := P) ?_ ?_
    | exact rfl
    | split
    | (dsimp only)


theorem follow_keeps {P : State → Prop} (K : Keeps [.pkts, .integ, .axis, .plan, .gear, .loop, .bta, .stepper, .bricks, .net, .fio, .lanes, .free] P) {b : Fin 4} {e : Int} {ticks : Nat} {s : State} (h : P s) :
    P (follow b e ticks s) := by
  have K1 := K.sub (as := [.pkts, .integ, .axis, .plan, .gear, .loop, .bta, .stepper, .bricks, .net, .fio, .lanes]) rfl
  have K2 := K.sub (as := [.net]) rfl
  have K3 := K.sub (as := [.net, .free]) rfl
  unfold follow
  try dsimp only
  repeat' first
    | with_reducible first
      | assumption
      | refine stepBy_keeps K1 ?_
      | refine onTb_keeps K2 ?_
      | refine servoFree_keeps K3 ?_
      | refine servo_keeps K3 ?_
      | refine keep_ite (P := P) ?_ ?_
    | exact rfl
    | split
    | (dsimp only)


theorem settle_keeps {P : State → Prop} (K : Keeps [.integ, .net] P) {b : Fin 4} {s : State} (h : P s) :
    P (settle b s) := by
  have K1 := K.sub (as := [.net]) rfl
  unfold settle
  try dsimp only
  repeat' first
    | with_reducible first
      | assumption
      | refine changeOver_keeps K ?_
      | refine onTb_keeps K1 ?_
      | refine keep_ite (P := P) ?_ ?_
    | exact rfl
    | split
    | (dsimp only)


theorem baseSync_keeps {P : State → Prop} (K : Keeps [.pkts, .integ, .axis, .plan, .gear, .loop, .bta, .stepper, .bricks, .net, .fio, .lanes, .free] P) {b : Fin 4} {isP : Bool} {port : Fin 4} {time : Int} {ticks : Nat} {s : State} (h : P s) :
    P (baseSync b isP port time ticks s) := by
  have K1 := K.sub (as := [.integ, .net]) rfl
  have K2 := K.sub (as := [.net]) rfl
  have K3 := K.sub (as := [.net, .free]) rfl
  have K4 := K.sub (as := [.pkts, .integ, .axis, .plan, .gear, .loop, .bta, .stepper, .bricks, .net, .fio, .lanes]) rfl
  unfold baseSync
  try dsimp only
  repeat' first
    | with_reducible first
      | assumption
      | refine reassess_keeps K1 ?_
      | refine onTb_keeps K2 ?_
      | refine drainCarried_keeps K3 ?_
      | refine follow_keeps K ?_
      | refine settle_keeps K1 ?_
      | refine decideShift_keeps K4 ?_
      | refine keep_ite (P := P) ?_ ?_
    | exact rfl
    | split
    | (dsimp only)


theorem execSyncReceived_keeps {P : State → Prop} (K : Keeps [.pkts, .integ, .axis, .plan, .gear, .loop, .bta, .stepper, .bricks, .net, .fio, .lanes, .free] P) {inst : Fin 2} {port : Fin 4} {gm : BitVec 64} {steps : Nat} {time : Nat} {s : State} (h : P s) :
    NextKeeps P (execSyncReceived inst port gm steps time s) := by
  have K1 := K.sub (as := [.pkts, .integ, .axis, .plan, .gear, .loop, .bta, .stepper, .bricks, .net, .fio, .lanes]) rfl
  unfold execSyncReceived
  try dsimp only
  repeat' first
    | with_reducible first
      | assumption
      | refine keep_next ?_
      | refine keep_ite_next ?_ ?_
      | refine baseSync_keeps K ?_
      | refine changeBases_keeps K1 ?_
      | refine K.onNet rfl _ _ ?_
      | refine keep_ite (P := P) ?_ ?_
      | refine keep_foldl (P := P) (fun _ _ _ => ?_) ?_
    | exact rfl
    | split
    | (dsimp only)


theorem execPdelayExchange_keeps {P : State → Prop} (K : Keeps [.pkts, .integ, .axis, .plan, .gear, .loop, .bta, .stepper, .bricks, .net, .fio, .lanes, .free] P) {port : Fin 4} {delay : Nat} {answered : Bool} {s : State} (h : P s) :
    NextKeeps P (execPdelayExchange port delay answered s) := by
  have K1 := K.sub (as := [.net]) rfl
  have K2 := K.sub (as := [.free]) rfl
  have K3 := K.sub (as := [.pkts, .integ, .axis, .plan, .gear, .loop, .bta, .stepper, .bricks, .net, .fio, .lanes]) rfl
  unfold execPdelayExchange
  try dsimp only
  repeat' first
    | with_reducible first
      | assumption
      | refine keep_next ?_
      | refine keep_ite_next ?_ ?_
      | refine onNetPort_keeps K1 ?_
      | refine freshNat_keeps K2 ?_
      | refine freshNat_out K2 ?_ ‹_›
      | refine changeBases_keeps K3 ?_
      | refine K.onNet rfl _ _ ?_
      | refine keep_ite (P := P) ?_ ?_
    | exact rfl
    | split
    | (dsimp only)


theorem execSyncReceiptTimeout_keeps {P : State → Prop} (K : Keeps [.pkts, .integ, .axis, .plan, .gear, .loop, .bta, .stepper, .bricks, .net, .fio, .lanes] P) {inst : Fin 2} {s : State} (h : P s) :
    NextKeeps P (execSyncReceiptTimeout inst s) := by
  unfold execSyncReceiptTimeout
  try dsimp only
  repeat' first
    | with_reducible first
      | assumption
      | refine keep_next ?_
      | refine keep_ite_next ?_ ?_
      | refine reassessAll_keeps K ?_
      | refine changeBases_keeps K ?_
      | refine decideShift_keeps K ?_
      | refine K.onNet rfl _ _ ?_
      | refine keep_ite (P := P) ?_ ?_
      | refine keep_foldl (P := P) (fun _ _ _ => ?_) ?_
    | exact rfl
    | split
    | (dsimp only)


theorem execHoldoverExpiry_keeps {P : State → Prop} (K : Keeps [.pkts, .integ, .axis, .plan, .gear, .loop, .bta, .stepper, .bricks, .net, .fio, .lanes] P) {base : Fin 4} {s : State} (h : P s) :
    NextKeeps P (execHoldoverExpiry base s) := by
  have K1 := K.sub (as := [.net]) rfl
  unfold execHoldoverExpiry
  try dsimp only
  repeat' first
    | with_reducible first
      | assumption
      | refine keep_next ?_
      | refine keep_ite_next ?_ ?_
      | refine changeBases_keeps K ?_
      | refine onTb_keeps K1 ?_
      | refine keep_ite (P := P) ?_ ?_
    | exact rfl
    | split
    | (dsimp only)


theorem execGmSyncSend_keeps {P : State → Prop} (K : Keeps [.net, .free] P) {inst : Fin 2} {s : State} (h : P s) :
    NextKeeps P (execGmSyncSend inst s) := by
  have K1 := K.sub (as := [.net]) rfl
  unfold execGmSyncSend
  try dsimp only
  repeat' first
    | with_reducible first
      | assumption
      | refine keep_next ?_
      | refine keep_ite_next ?_ ?_
      | refine originate_keeps K1 ?_
      | refine K.onNet rfl _ _ ?_
      | refine K.onFree rfl _ _ ?_
      | refine keep_ite (P := P) ?_ ?_
    | exact rfl
    | split
    | (dsimp only)


theorem execAnnounceReceiptTimeout_keeps {P : State → Prop} (K : Keeps [.pkts, .integ, .axis, .plan, .gear, .loop, .bta, .stepper, .bricks, .net, .fio, .lanes] P) {inst : Fin 2} {port : Fin 4} {other : Option (Fin 4)} {s : State} (h : P s) :
    NextKeeps P (execAnnounceReceiptTimeout inst port other s) := by
  unfold execAnnounceReceiptTimeout
  try dsimp only
  repeat' first
    | with_reducible first
      | assumption
      | refine keep_next ?_
      | refine keep_ite_next ?_ ?_
      | refine changeBases_keeps K ?_
      | refine K.onNet rfl _ _ ?_
      | refine keep_ite (P := P) ?_ ?_
    | exact rfl
    | split
    | (dsimp only)


theorem onTso_keeps {P : State → Prop} (K : Keeps [.net] P) {k : Fin 8} {f : Tso → Tso} {s : State} (h : P s) :
    P (onTso k f s) := by
  unfold onTso
  try dsimp only
  repeat' first
    | with_reducible first
      | assumption
      | refine K.onNet rfl _ _ ?_
    | exact rfl
    | (dsimp only)


theorem execTsoInstant_keeps {P : State → Prop} (K : Keeps [.integ, .ports, .net] P) {out : Fin 8} {s : State} (h : P s) :
    NextKeeps P (execTsoInstant out s) := by
  have K1 := K.sub (as := [.net]) rfl
  have K2 := K.sub (as := [.integ]) rfl
  have K3 := K.sub (as := [.ports]) rfl
  unfold execTsoInstant
  try dsimp only
  repeat' first
    | with_reducible first
      | assumption
      | refine keep_next ?_
      | refine keep_ite_next ?_ ?_
      | refine onTso_keeps K1 ?_
      | refine event_keeps K2 ?_
      | refine latchEvents_keeps K3 ?_
      | refine keep_ite (P := P) ?_ ?_
    | exact rfl
    | split
    | (dsimp only)


theorem execTsoPulseEnd_keeps {P : State → Prop} (K : Keeps [.net] P) {out : Fin 8} {s : State} (h : P s) :
    NextKeeps P (execTsoPulseEnd out s) := by
  unfold execTsoPulseEnd
  try dsimp only
  repeat' first
    | with_reducible first
      | assumption
      | refine keep_next ?_
      | refine keep_ite_next ?_ ?_
      | refine onTso_keeps K ?_
      | refine keep_ite (P := P) ?_ ?_
    | exact rfl
    | split
    | (dsimp only)


end Sys2Proof.Machine
end

