-- ==== Sys2Proof/Laws/KeepRegWrite.lean ====
section
/-! SUPPORT.
What each function of Machine/RegWrite.lean keeps. -/

namespace Sys2Proof.Machine

theorem onCtx_keeps {P : State → Prop} (K : Keeps [.ctx] P) {c : Fin 6} {f : Ctx → Ctx} {s : State} (h : P s) :
    P (onCtx c f s) := by
  unfold onCtx
  try dsimp only
  repeat' first
    | with_reducible first
      | assumption
      | refine K.onCtx rfl _ _ ?_
    | exact rfl
    | (dsimp only)


theorem writePlan_keeps {P : State → Prop} (K : Keeps [.sys, .plan] P) {a : Nat} {w : Sys2Proof.Word} {s : State} (h : P s) :
    P (writePlan a w s) := by
  have K1 := K.sub (as := [.plan]) rfl
  have K2 := K.sub (as := [.sys]) rfl
  unfold writePlan
  try dsimp only
  repeat' first
    | with_reducible first
      | assumption
      | refine onPgrp_keeps K1 ?_
      | refine markDirty_keeps K2 ?_
      | refine onPax_keeps K1 ?_
      | refine keep_ite (P := P) ?_ ?_
    | exact rfl
    | split
    | (dsimp only)


theorem writeGear_keeps {P : State → Prop} (K : Keeps [.gear] P) {a : Nat} {w : Sys2Proof.Word} {s : State} (h : P s) :
    P (writeGear a w s) := by
  unfold writeGear
  try dsimp only
  repeat' first
    | with_reducible first
      | assumption
      | refine onLink_keeps K ?_
      | refine keep_ite (P := P) ?_ ?_
    | exact rfl
    | split
    | (dsimp only)


theorem writeLoop_keeps {P : State → Prop} (K : Keeps [.sys, .loop] P) {a : Nat} {w : Sys2Proof.Word} {s : State} (h : P s) :
    P (writeLoop a w s) := by
  have K1 := K.sub (as := [.loop]) rfl
  have K2 := K.sub (as := [.sys]) rfl
  unfold writeLoop
  try dsimp only
  repeat' first
    | with_reducible first
      | assumption
      | refine onLSlot_keeps K1 ?_
      | refine markDirty_keeps K2 ?_
    | exact rfl
    | split
    | (dsimp only)


theorem writePort_keeps {P : State → Prop} (K : Keeps [.sys, .ports] P) {a : Nat} {w : Sys2Proof.Word} {s : State} (h : P s) :
    P (writePort a w s) := by
  have K1 := K.sub (as := [.ports]) rfl
  have K2 := K.sub (as := [.sys]) rfl
  unfold writePort
  try dsimp only
  repeat' first
    | with_reducible first
      | assumption
      | refine onPort_keeps K1 ?_
      | refine onCmp_keeps K1 ?_
      | refine markDirty_keeps K2 ?_
      | refine onLatch_keeps K1 ?_
      | refine onSnap_keeps K1 ?_
      | refine keep_ite (P := P) ?_ ?_
    | exact rfl
    | split
    | (dsimp only)


theorem writeBta_keeps {P : State → Prop} (K : Keeps [.sys, .integ, .bta, .stepper] P) {c : Fin 6} {a : Nat} {w : Sys2Proof.Word} {s : State} (h : P s) :
    P (writeBta c a w s) := by
  have K1 := K.sub (as := [.sys, .integ, .bta]) rfl
  have K2 := K.sub (as := [.integ, .bta]) rfl
  have K3 := K.sub (as := [.bta]) rfl
  have K4 := K.sub (as := [.stepper]) rfl
  unfold writeBta
  try dsimp only
  repeat' first
    | with_reducible first
      | assumption
      | refine writeGrpPeriod_keeps K1 ?_
      | refine writeGrpSeal_keeps K2 ?_
      | refine onGrp_keeps K3 ?_
      | refine writeGrpTrip_keeps K2 ?_
      | refine writeLegCmp_keeps K1 ?_
      | refine writeLegDuty_keeps K1 ?_
      | refine onLeg_keeps K3 ?_
      | refine onStep_keeps K4 ?_
      | refine keep_ite (P := P) ?_ ?_
    | exact rfl
    | split
    | (dsimp only)


theorem writeNet_keeps {P : State → Prop} (K : Keeps [.net] P) {a : Nat} {w : Sys2Proof.Word} {s : State} (h : P s) :
    P (writeNet a w s) := by
  unfold writeNet
  try dsimp only
  repeat' first
    | with_reducible first
      | assumption
      | refine onNetPort_keeps K ?_
      | refine onTb_keeps K ?_
      | refine onTso_keeps K ?_
      | refine keep_ite (P := P) ?_ ?_
    | exact rfl
    | split
    | (dsimp only)


theorem writeCan_keeps {P : State → Prop} (K : Keeps [.can] P) {a : Nat} {w : Sys2Proof.Word} {s : State} (h : P s) :
    P (writeCan a w s) := by
  unfold writeCan
  try dsimp only
  repeat' first
    | with_reducible first
      | assumption
      | refine onCtl_keeps K ?_
    | exact rfl
    | split
    | (dsimp only)


theorem writeSerial_keeps {P : State → Prop} (K : Keeps [.serial] P) {a : Nat} {w : Sys2Proof.Word} {s : State} (h : P s) :
    P (writeSerial a w s) := by
  unfold writeSerial
  try dsimp only
  repeat' first
    | with_reducible first
      | assumption
      | refine onSpm_keeps K ?_ ?_
    | exact rfl
    | split
    | (dsimp only)


theorem writeAcq_keeps {P : State → Prop} (K : Keeps [.acq] P) {a : Nat} {w : Sys2Proof.Word} {s : State} (h : P s) :
    P (writeAcq a w s) := by
  unfold writeAcq
  try dsimp only
  repeat' first
    | with_reducible first
      | assumption
      | refine K.onAcq rfl _ _ ?_
      | refine keep_ite (P := P) ?_ ?_
    | exact rfl
    | split
    | (dsimp only)


theorem writeLanes_keeps {P : State → Prop} (K : Keeps [.lanes] P) {a : Nat} {w : Sys2Proof.Word} {s : State} (h : P s) :
    P (writeLanes a w s) := by
  unfold writeLanes
  try dsimp only
  repeat' first
    | with_reducible first
      | assumption
      | refine onThr_keeps K ?_
      | refine K.onLanes rfl _ _ (fun _ => ?_) ?_
      | refine keep_ite (P := P) ?_ ?_
    | exact rfl
    | split
    | (dsimp only)


theorem writeFio_keeps {P : State → Prop} (K : Keeps [.fio] P) {a : Nat} {w : Sys2Proof.Word} {s : State} (h : P s) :
    P (writeFio a w s) := by
  unfold writeFio
  try dsimp only
  repeat' first
    | with_reducible first
      | assumption
      | refine onFioGroup_keeps K ?_
      | refine keep_ite (P := P) ?_ ?_
    | exact rfl
    | split
    | (dsimp only)


theorem writeStrobe_keeps {P : State → Prop} (K : Keeps [.sys, .integ, .plan, .loop, .ports, .bta] P) {c : Fin 6} {w : Sys2Proof.Word} {s : State} (h : P s) :
    P (writeStrobe c w s) := by
  have K1 := K.sub (as := [.integ]) rfl
  unfold writeStrobe
  try dsimp only
  repeat' first
    | with_reducible first
      | assumption
      | refine permissionEvent_keeps K1 ?_
      | refine strobe_keeps K ?_
      | refine keep_ite (P := P) ?_ ?_
    | exact rfl
    | split
    | (dsimp only)


theorem writeSys_keeps {P : State → Prop} (K : Keeps [.sys, .integ, .plan, .loop, .ports, .bta, .ctx] P) {c : Fin 6} {a : Nat} {w : Sys2Proof.Word} {s : State} (h : P s) :
    P (writeSys c a w s) := by
  have K1 := K.sub (as := [.ctx]) rfl
  have K2 := K.sub (as := [.sys, .integ, .plan, .loop, .ports, .bta]) rfl
  unfold writeSys
  try dsimp only
  repeat' first
    | with_reducible first
      | assumption
      | refine onCtx_keeps K1 ?_
      | refine writeStrobe_keeps K2 ?_
      | refine K.onSys rfl _ _ rfl rfl rfl ?_
    | exact rfl
    | split
    | (dsimp only)


theorem writeRegister_keeps {P : State → Prop} (K : Keeps [.sys, .integ, .plan, .gear, .loop, .ports, .bta, .stepper, .net, .fio, .can, .serial, .acq, .lanes, .ctx] P) {c : Fin 6} {a : Nat} {w : Sys2Proof.Word} {s : State} (h : P s) :
    P (writeRegister c a w s) := by
  have K1 := K.sub (as := [.sys, .integ, .plan, .loop, .ports, .bta, .ctx]) rfl
  have K2 := K.sub (as := [.sys, .plan]) rfl
  have K3 := K.sub (as := [.gear]) rfl
  have K4 := K.sub (as := [.sys, .loop]) rfl
  have K5 := K.sub (as := [.sys, .ports]) rfl
  have K6 := K.sub (as := [.sys, .integ, .bta, .stepper]) rfl
  have K7 := K.sub (as := [.net]) rfl
  have K8 := K.sub (as := [.can]) rfl
  have K9 := K.sub (as := [.serial]) rfl
  have K10 := K.sub (as := [.acq]) rfl
  have K11 := K.sub (as := [.lanes]) rfl
  have K12 := K.sub (as := [.fio]) rfl
  unfold writeRegister
  try dsimp only
  repeat' first
    | with_reducible first
      | assumption
      | refine writeSys_keeps K1 ?_
      | refine writePlan_keeps K2 ?_
      | refine writeGear_keeps K3 ?_
      | refine writeLoop_keeps K4 ?_
      | refine writePort_keeps K5 ?_
      | refine writeBta_keeps K6 ?_
      | refine writeNet_keeps K7 ?_
      | refine writeCan_keeps K8 ?_
      | refine writeSerial_keeps K9 ?_
      | refine writeAcq_keeps K10 ?_
      | refine writeLanes_keeps K11 ?_
      | refine writeFio_keeps K12 ?_
      | refine keep_ite (P := P) ?_ ?_
    | exact rfl
    | split
    | (dsimp only)


theorem clearOnRead_keeps {P : State → Prop} (K : Keeps [.integ, .loop, .acq, .lanes, .ctx] P) {c : Fin 6} {a : Nat} {w : Sys2Proof.Word} {s : State} (h : P s) :
    P (clearOnRead c a w s) := by
  have K1 := K.sub (as := [.ctx]) rfl
  have K2 := K.sub (as := [.lanes]) rfl
  have K3 := K.sub (as := [.loop]) rfl
  unfold clearOnRead
  try dsimp only
  repeat' first
    | with_reducible first
      | assumption
      | refine onCtx_keeps K1 ?_
      | refine onThr_keeps K2 ?_
      | refine onLoopSt_keeps K3 ?_
      | refine K.onAcq rfl _ _ ?_
      | refine K.onInteg rfl _ _ (fun hx => ?_) ?_ ?_
      | refine keep_ite (P := P) ?_ ?_
    | exact hx
    | exact rfl
    | (refine ⟨?_, ?_, ?_⟩ <;> first | exact hx.1 | exact hx.2.1 | exact hx.2.2 | (have h1 := hx.1; have h2 := hx.2.1; have h3 := hx.2.2; simp at h1 h2 h3 ⊢; omega))
    | split
    | (dsimp only)


end Sys2Proof.Machine
end

