-- ==== Sys2Proof/Laws/KeepAccess.lean ====
section
/-! SUPPORT.
What each function of Machine/Access.lean keeps. -/

namespace Sys2Proof.Machine

theorem accessError_keeps {P : State → Prop} (K : Keeps [.ctx] P) {c : Fin 6} {e : AccessError} {write : Bool} {a : Nat} {s : State} (h : P s) :
    P (accessError c e write a s) := by
  unfold accessError
  try dsimp only
  repeat' first
    | with_reducible first
      | assumption
      | refine onCtx_keeps K ?_
      | refine keep_ite (P := P) ?_ ?_
    | exact rfl
    | split
    | (dsimp only)


theorem failCheck_keeps {P : State → Prop} (K : Keeps [.integ, .ctx] P) {c : Fin 6} {v : Verdict} {write : Bool} {a : Nat} {s : State} (h : P s) :
    P (failCheck c v write a s) := by
  have K1 := K.sub (as := [.ctx]) rfl
  have K2 := K.sub (as := [.integ]) rfl
  unfold failCheck
  try dsimp only
  repeat' first
    | with_reducible first
      | assumption
      | refine accessError_keeps K1 ?_
      | refine permissionEvent_keeps K2 ?_
    | exact rfl
    | split
    | (dsimp only)


theorem voteField_keeps {P : State → Prop} (K : Keeps [.sys, .pkts, .integ, .axis, .plan, .gear, .loop, .bta, .stepper, .bricks, .dev] P) {v : Voted} {s : State} (h : P s) :
    P (voteField v s) := by
  have K1 := K.sub (as := [.integ]) rfl
  unfold voteField
  try dsimp only
  repeat' first
    | with_reducible first
      | assumption
      | refine deviceFault_keeps K ?_
      | refine onMemTally_keeps K1 ?_
      | refine K.onSys rfl _ _ rfl rfl rfl ?_
      | refine keep_ite (P := P) ?_ ?_
    | exact rfl
    | split
    | (dsimp only)


theorem writeVoted_keeps {P : State → Prop} (K : Keeps [.sys] P) {a : Nat} {w : Sys2Proof.Word} {s : State} (h : P s) :
    P (writeVoted a w s) := by
  unfold writeVoted
  try dsimp only
  repeat' first
    | with_reducible first
      | assumption
      | refine K.onSys rfl _ _ rfl rfl rfl ?_
      | refine keep_ite (P := P) ?_ ?_
    | exact rfl
    | split
    | (dsimp only)


theorem voteRead_keeps {P : State → Prop} (K : Keeps [.sys, .pkts, .integ, .axis, .plan, .gear, .loop, .bta, .stepper, .bricks, .dev] P) {a : Nat} {s : State} (h : P s) :
    P (voteRead a s) := by
  unfold voteRead
  try dsimp only
  repeat' first
    | with_reducible first
      | assumption
      | refine voteField_keeps K ?_
    | exact rfl
    | split
    | (dsimp only)


theorem readSram_keeps {P : State → Prop} (K : Keeps [.integ] P) {a : Nat} {s : State} (h : P s) :
    P (readSram a s).2 := by
  unfold readSram
  try dsimp only
  repeat' first
    | with_reducible first
      | assumption
      | refine countPoison_keeps K ?_
      | refine keep_ite (P := P) ?_ ?_
    | exact rfl
    | split
    | (dsimp only)

theorem readSram_out {P : State → Prop} (K : Keeps [.integ] P) {a : Nat} {s : State} (h : P s) {o} {u : State}
    (hout : readSram a s = (o, u)) : P u := by
  have hu := readSram_keeps K h (P := P) (a := a)
  rw [hout] at hu
  exact hu


theorem writeSram_keeps {P : State → Prop} (K : Keeps [.integ, .sram] P) {a : Nat} {w : Sys2Proof.Word} {s : State} (h : P s) :
    P (writeSram a w s) := by
  have K1 := K.sub (as := [.integ]) rfl
  unfold writeSram
  exact keep_ite (countPoison_keeps (K.sub rfl) h) (K.onSram rfl _ _ wordPut_wf h)


theorem readRegister_keeps {P : State → Prop} (K : Keeps [.sys, .pkts, .integ, .axis, .plan, .gear, .loop, .bta, .stepper, .bricks, .dev, .ctx, .free] P) {c : Fin 6} {a : Nat} {s : State} (h : P s) :
    P (readRegister c a s).2 := by
  have K1 := K.sub (as := [.integ]) rfl
  have K2 := K.sub (as := [.sys, .pkts, .integ, .axis, .plan, .gear, .loop, .bta, .stepper, .bricks, .dev]) rfl
  have K3 := K.sub (as := [.free]) rfl
  have K4 := K.sub (as := [.ctx]) rfl
  unfold readRegister
  try dsimp only
  repeat' first
    | with_reducible first
      | assumption
      | refine countPoison_keeps K1 ?_
      | refine voteRead_keeps K2 ?_
      | refine fresh_keeps K3 ?_
      | refine fresh_out K3 ?_ ‹_›
      | refine onCtx_keeps K4 ?_
      | refine keep_ite (P := P) ?_ ?_
    | exact rfl
    | split
    | (dsimp only)

theorem readRegister_out {P : State → Prop} (K : Keeps [.sys, .pkts, .integ, .axis, .plan, .gear, .loop, .bta, .stepper, .bricks, .dev, .ctx, .free] P) {c : Fin 6} {a : Nat} {s : State} (h : P s) {o} {u : State}
    (hout : readRegister c a s = (o, u)) : P u := by
  have hu := readRegister_keeps K h (P := P) (c := c) (a := a)
  rw [hout] at hu
  exact hu


theorem writeWord_keeps {P : State → Prop} (K : Keeps [.sys, .integ, .plan, .gear, .loop, .ports, .bta, .stepper, .net, .fio, .can, .serial, .acq, .lanes, .ctx] P) {c : Fin 6} {a : Nat} {w : Sys2Proof.Word} {s : State} (h : P s) :
    P (writeWord c a w s) := by
  have K1 := K.sub (as := [.sys]) rfl
  have K2 := K.sub (as := [.ctx]) rfl
  unfold writeWord
  try dsimp only
  repeat' first
    | with_reducible first
      | assumption
      | refine writeVoted_keeps K1 ?_
      | refine onCtx_keeps K2 ?_
      | refine accessError_keeps K2 ?_
      | refine writeRegister_keeps K ?_
      | refine keep_ite (P := P) ?_ ?_
    | exact rfl
    | split
    | (dsimp only)


theorem enqueueWait_keeps {P : State → Prop} (K : Keeps [.ctx] P) {c : Fin 6} {e : WindowWait} {s : State} (h : P s) :
    P (enqueueWait c e s) := by
  unfold enqueueWait
  try dsimp only
  repeat' first
    | with_reducible first
      | assumption
      | refine onCtx_keeps K ?_
      | refine keep_ite (P := P) ?_ ?_
    | exact rfl
    | split
    | (dsimp only)


theorem fetch_keeps {P : State → Prop} (K : Keeps [.sys, .pkts, .integ, .axis, .plan, .gear, .loop, .bta, .stepper, .bricks, .serial, .dev, .ctx, .free] P) {c : Fin 6} {ind : Bool} {a : Nat} {s : State} (h : P s) :
    P (fetch c ind a s).2 := by
  have K1 := K.sub (as := [.integ]) rfl
  have K2 := K.sub (as := [.ctx]) rfl
  have K3 := K.sub (as := [.serial]) rfl
  have K4 := K.sub (as := [.sys, .pkts, .integ, .axis, .plan, .gear, .loop, .bta, .stepper, .bricks, .dev, .ctx, .free]) rfl
  unfold fetch
  try dsimp only
  repeat' first
    | with_reducible first
      | assumption
      | refine readSram_keeps K1 ?_
      | refine readSram_out K1 ?_ ‹_›
      | refine enqueueWait_keeps K2 ?_
      | refine windowAccess_keeps K3 ?_
      | refine windowAccess_out K3 ?_ ‹_›
      | refine readRegister_keeps K4 ?_
      | refine readRegister_out K4 ?_ ‹_›
      | refine keep_ite (P := P) ?_ ?_
    | exact rfl
    | split
    | (dsimp only)

theorem fetch_out {P : State → Prop} (K : Keeps [.sys, .pkts, .integ, .axis, .plan, .gear, .loop, .bta, .stepper, .bricks, .serial, .dev, .ctx, .free] P) {c : Fin 6} {ind : Bool} {a : Nat} {s : State} (h : P s) {o} {u : State}
    (hout : fetch c ind a s = (o, u)) : P u := by
  have hu := fetch_keeps K h (P := P) (c := c) (ind := ind) (a := a)
  rw [hout] at hu
  exact hu


theorem store_keeps {P : State → Prop} (K : Keeps [.sys, .integ, .plan, .gear, .loop, .ports, .bta, .stepper, .net, .fio, .can, .serial, .acq, .lanes, .sram, .ctx] P) {c : Fin 6} {ind : Bool} {a : Nat} {w : Sys2Proof.Word} {s : State} (h : P s) :
    P (store c ind a w s).2 := by
  have K1 := K.sub (as := [.integ, .sram]) rfl
  have K2 := K.sub (as := [.ctx]) rfl
  have K3 := K.sub (as := [.serial]) rfl
  have K4 := K.sub (as := [.sys, .integ, .plan, .gear, .loop, .ports, .bta, .stepper, .net, .fio, .can, .serial, .acq, .lanes, .ctx]) rfl
  unfold store
  try dsimp only
  repeat' first
    | with_reducible first
      | assumption
      | refine writeSram_keeps K1 ?_
      | refine enqueueWait_keeps K2 ?_
      | refine windowAccess_keeps K3 ?_
      | refine windowAccess_out K3 ?_ ‹_›
      | refine writeWord_keeps K4 ?_
      | refine keep_ite (P := P) ?_ ?_
    | exact rfl
    | split
    | (dsimp only)

theorem store_out {P : State → Prop} (K : Keeps [.sys, .integ, .plan, .gear, .loop, .ports, .bta, .stepper, .net, .fio, .can, .serial, .acq, .lanes, .sram, .ctx] P) {c : Fin 6} {ind : Bool} {a : Nat} {w : Sys2Proof.Word} {s : State} (h : P s) {o} {u : State}
    (hout : store c ind a w s = (o, u)) : P u := by
  have hu := store_keeps K h (P := P) (c := c) (ind := ind) (a := a) (w := w)
  rw [hout] at hu
  exact hu


theorem handWord_keeps {P : State → Prop} (K : Keeps [.ctx] P) {c : Fin 6} {w : Sys2Proof.Word} {s : State} (h : P s) :
    P (handWord c w s) := by
  unfold handWord
  try dsimp only
  repeat' first
    | with_reducible first
      | assumption
      | refine onCtx_keeps K ?_
    | exact rfl
    | (dsimp only)


theorem indTimeout_keeps {P : State → Prop} (K : Keeps [.ctx] P) {c : Fin 6} {s : State} (h : P s) :
    P (indTimeout c s) := by
  unfold indTimeout
  try dsimp only
  repeat' first
    | with_reducible first
      | assumption
      | refine onCtx_keeps K ?_
      | refine accessError_keeps K ?_
      | refine keep_ite (P := P) ?_ ?_
    | exact rfl
    | split
    | (dsimp only)


theorem indRefuse_keeps {P : State → Prop} (K : Keeps [.ctx] P) {c : Fin 6} {read : Bool} {s : State} (h : P s) :
    P (indRefuse c read s) := by
  unfold indRefuse
  try dsimp only
  repeat' first
    | with_reducible first
      | assumption
      | refine onCtx_keeps K ?_
      | refine keep_ite (P := P) ?_ ?_
    | exact rfl
    | split
    | (dsimp only)


theorem indDone_keeps {P : State → Prop} (K : Keeps [.ctx] P) {c : Fin 6} {w : Option Sys2Proof.Word} {s : State} (h : P s) :
    P (indDone c w s) := by
  unfold indDone
  try dsimp only
  repeat' first
    | with_reducible first
      | assumption
      | refine onCtx_keeps K ?_
    | exact rfl
    | (dsimp only)


theorem indBusy_keeps {P : State → Prop} (K : Keeps [.ctx] P) {c : Fin 6} {write : Bool} {s : State} (h : P s) :
    P (indBusy c write s) := by
  unfold indBusy
  try dsimp only
  repeat' first
    | with_reducible first
      | assumption
      | refine onCtx_keeps K ?_
    | exact rfl
    | (dsimp only)


theorem capture_keeps {P : State → Prop} (K : Keeps [.sys, .pkts, .integ, .axis, .plan, .gear, .loop, .bta, .stepper, .bricks, .serial, .acq, .lanes, .dev, .ctx, .free] P) {c : Fin 6} {a n : Nat} {s : State} (h : P s) :
    P (capture c a n s).2 := by
  induction n generalizing a s with
  | zero => exact h
  | succ n ih =>
    unfold capture
    have hf : P (if mapped c a s && !windowAddr a then fetch c true a s else (some 0, s)).2 := by
      split
      · exact fetch_keeps (K.sub rfl) h
      · exact h
    split
    · rename_i w t hw
      rw [hw] at hf
      exact ih (clearOnRead_keeps (K.sub rfl) hf)
    · rename_i t hw
      rw [hw] at hf
      exact hf


theorem indSnapWindow_keeps {P : State → Prop} (K : Keeps [.serial, .ctx] P) {c : Fin 6} {a : Nat} {n : Nat} {s : State} (h : P s) :
    P (indSnapWindow c a n s) := by
  have K1 := K.sub (as := [.ctx]) rfl
  have K2 := K.sub (as := [.serial]) rfl
  unfold indSnapWindow
  try dsimp only
  repeat' first
    | with_reducible first
      | assumption
      | refine enqueueWait_keeps K1 ?_
      | refine windowWords_keeps K2 ?_
      | refine windowWords_out K2 ?_ ‹_›
      | refine onCtx_keeps K1 ?_
      | refine keep_ite (P := P) ?_ ?_
    | exact rfl
    | split
    | (dsimp only)


theorem indFetch_keeps {P : State → Prop} (K : Keeps [.sys, .pkts, .integ, .axis, .plan, .gear, .loop, .bta, .stepper, .bricks, .serial, .acq, .lanes, .dev, .ctx, .free] P) {c : Fin 6} {a : Nat} {s : State} (h : P s) :
    P (indFetch c a s) := by
  have K1 := K.sub (as := [.ctx]) rfl
  have K2 := K.sub (as := [.serial, .ctx]) rfl
  have K3 := K.sub (as := [.sys, .pkts, .integ, .axis, .plan, .gear, .loop, .bta, .stepper, .bricks, .serial, .dev, .ctx, .free]) rfl
  have K4 := K.sub (as := [.integ, .loop, .acq, .lanes, .ctx]) rfl
  unfold indFetch
  try dsimp only
  repeat' first
    | with_reducible first
      | assumption
      | refine indDone_keeps K1 ?_
      | refine indRefuse_keeps K1 ?_
      | refine indBusy_keeps K1 ?_
      | refine indSnapWindow_keeps K2 ?_
      | refine capture_keeps K ?_
      | refine capture_out K ?_ ‹_›
      | refine onCtx_keeps K1 ?_
      | refine fetch_keeps K3 ?_
      | refine fetch_out K3 ?_ ‹_›
      | refine clearOnRead_keeps K4 ?_
      | refine keep_ite (P := P) ?_ ?_
    | exact rfl
    | split
    | (dsimp only)


theorem indReadNow_keeps {P : State → Prop} (K : Keeps [.sys, .pkts, .integ, .axis, .plan, .gear, .loop, .bta, .stepper, .bricks, .serial, .acq, .lanes, .dev, .ctx, .free] P) {c : Fin 6} {s : State} (h : P s) :
    P (indReadNow c s) := by
  have K1 := K.sub (as := [.ctx]) rfl
  have K2 := K.sub (as := [.integ]) rfl
  unfold indReadNow
  try dsimp only
  repeat' first
    | with_reducible first
      | assumption
      | refine indRefuse_keeps K1 ?_
      | refine indFetch_keeps K ?_
      | refine indDone_keeps K1 ?_
      | refine accessError_keeps K1 ?_
      | refine permissionEvent_keeps K2 ?_
      | refine keep_ite (P := P) ?_ ?_
    | exact rfl
    | split
    | (dsimp only)


theorem indStore_keeps {P : State → Prop} (K : Keeps [.sys, .integ, .plan, .gear, .loop, .ports, .bta, .stepper, .net, .fio, .can, .serial, .acq, .lanes, .sram, .ctx] P) {c : Fin 6} {a : Nat} {w : Sys2Proof.Word} {s : State} (h : P s) :
    P (indStore c a w s) := by
  have K1 := K.sub (as := [.ctx]) rfl
  unfold indStore
  try dsimp only
  repeat' first
    | with_reducible first
      | assumption
      | refine indBusy_keeps K1 ?_
      | refine store_keeps K ?_
      | refine store_out K ?_ ‹_›
      | refine indDone_keeps K1 ?_
      | refine keep_ite (P := P) ?_ ?_
    | exact rfl
    | split
    | (dsimp only)


theorem indWriteNow_keeps {P : State → Prop} (K : Keeps [.sys, .integ, .plan, .gear, .loop, .ports, .bta, .stepper, .net, .fio, .can, .serial, .acq, .lanes, .sram, .ctx] P) {c : Fin 6} {w : Sys2Proof.Word} {s0 : State} (h : P s0) :
    P (indWriteNow c w s0) := by
  have K1 := K.sub (as := [.ctx]) rfl
  have K2 := K.sub (as := [.integ]) rfl
  unfold indWriteNow
  try dsimp only
  repeat' first
    | with_reducible first
      | assumption
      | refine onCtx_keeps K1 ?_
      | refine indRefuse_keeps K1 ?_
      | refine indStore_keeps K ?_
      | refine indDone_keeps K1 ?_
      | refine accessError_keeps K1 ?_
      | refine permissionEvent_keeps K2 ?_
      | refine keep_ite (P := P) ?_ ?_
    | exact rfl
    | split
    | (dsimp only)


theorem indNow_keeps {P : State → Prop} (K : Keeps [.sys, .pkts, .integ, .axis, .plan, .gear, .loop, .ports, .bta, .stepper, .bricks, .net, .fio, .can, .serial, .acq, .lanes, .sram, .dev, .ctx, .free] P) {c : Fin 6} {v : Option Sys2Proof.Word × Option Sys2Proof.Word} {s0 : State} (h : P s0) :
    P (indNow c v s0) := by
  have K1 := K.sub (as := [.ctx]) rfl
  have K2 := K.sub (as := [.sys, .pkts, .integ, .axis, .plan, .gear, .loop, .bta, .stepper, .bricks, .serial, .acq, .lanes, .dev, .ctx, .free]) rfl
  have K3 := K.sub (as := [.sys, .integ, .plan, .gear, .loop, .ports, .bta, .stepper, .net, .fio, .can, .serial, .acq, .lanes, .sram, .ctx]) rfl
  unfold indNow
  try dsimp only
  repeat' first
    | with_reducible first
      | assumption
      | refine onCtx_keeps K1 ?_
      | refine indReadNow_keeps K2 ?_
      | refine indWriteNow_keeps K3 ?_
    | exact rfl
    | split
    | (dsimp only)


theorem indNext_keeps {P : State → Prop} (K : Keeps [.sys, .pkts, .integ, .axis, .plan, .gear, .loop, .ports, .bta, .stepper, .bricks, .net, .fio, .can, .serial, .acq, .lanes, .sram, .dev, .ctx, .free] P) {c : Fin 6} {n : Nat} {s : State} (h : P s) : P (indNext c n s) := by
  induction n generalizing s with
  | zero => exact h
  | succ n ih =>
    unfold indNext
    split
    · exact h
    · split
      · exact h
      · exact ih (indNow_keeps (K.sub rfl) (onCtx_keeps (K.sub rfl) h))


theorem indResume_keeps {P : State → Prop} (K : Keeps [.sys, .pkts, .integ, .axis, .plan, .gear, .loop, .ports, .bta, .stepper, .bricks, .net, .fio, .can, .serial, .acq, .lanes, .sram, .dev, .ctx, .free] P) {c : Fin 6} {s : State} (h : P s) :
    P (indResume c s) := by
  unfold indResume
  try dsimp only
  repeat' first
    | with_reducible first
      | assumption
      | refine indNext_keeps K ?_
    | exact rfl
    | (dsimp only)


theorem indResumeAll_keeps {P : State → Prop} (K : Keeps [.sys, .pkts, .integ, .axis, .plan, .gear, .loop, .ports, .bta, .stepper, .bricks, .net, .fio, .can, .serial, .acq, .lanes, .sram, .dev, .ctx, .free] P) {s : State} (h : P s) :
    P (indResumeAll s) := by
  unfold indResumeAll
  try dsimp only
  repeat' first
    | with_reducible first
      | assumption
      | refine indResume_keeps K ?_
      | refine keep_foldl (P := P) (fun _ _ _ => ?_) ?_
    | exact rfl
    | (dsimp only)


theorem indAccess_keeps {P : State → Prop} (K : Keeps [.sys, .pkts, .integ, .axis, .plan, .gear, .loop, .ports, .bta, .stepper, .bricks, .net, .fio, .can, .serial, .acq, .lanes, .sram, .dev, .ctx, .free] P) {c : Fin 6} {v : Option Sys2Proof.Word × Option Sys2Proof.Word} {s : State} (h : P s) :
    P (indAccess c v s) := by
  have K1 := K.sub (as := [.ctx]) rfl
  unfold indAccess
  try dsimp only
  repeat' first
    | with_reducible first
      | assumption
      | refine onCtx_keeps K1 ?_
      | refine indNow_keeps K ?_
      | refine keep_ite (P := P) ?_ ?_
    | exact rfl
    | split
    | (dsimp only)


theorem indDrainN_keeps {P : State → Prop} (K : Keeps [.sys, .pkts, .integ, .axis, .plan, .gear, .loop, .ports, .bta, .stepper, .bricks, .net, .fio, .can, .serial, .acq, .lanes, .sram, .dev, .ctx, .free] P) {c : Fin 6} {n : Nat} {s : State} (h : P s) : P (indDrainN c n s) := by
  induction n generalizing s with
  | zero => exact h
  | succ n ih => exact ih (indResume_keeps (K.sub rfl) (indTimeout_keeps (K.sub rfl) h))


theorem indDrain_keeps {P : State → Prop} (K : Keeps [.sys, .pkts, .integ, .axis, .plan, .gear, .loop, .ports, .bta, .stepper, .bricks, .net, .fio, .can, .serial, .acq, .lanes, .sram, .dev, .ctx, .free] P) {c : Fin 6} {s : State} (h : P s) :
    P (indDrain c s) := by
  unfold indDrain
  try dsimp only
  repeat' first
    | with_reducible first
      | assumption
      | refine indDrainN_keeps K ?_
    | exact rfl
    | (dsimp only)


theorem readDirect_keeps {P : State → Prop} (K : Keeps [.sys, .pkts, .integ, .axis, .plan, .gear, .loop, .ports, .bta, .stepper, .bricks, .net, .fio, .can, .serial, .acq, .lanes, .sram, .dev, .ctx, .free] P) {c : Fin 6} {a : Nat} {s : State} (h : P s) :
    P (readDirect c a s).2 := by
  have K1 := K.sub (as := [.sys, .pkts, .integ, .axis, .plan, .gear, .loop, .bta, .stepper, .bricks, .serial, .dev, .ctx, .free]) rfl
  unfold readDirect
  try dsimp only
  repeat' first
    | with_reducible first
      | assumption
      | refine indAccess_keeps K ?_
      | refine fetch_keeps K1 ?_
      | refine fetch_out K1 ?_ ‹_›
      | refine keep_ite (P := P) ?_ ?_
    | exact rfl
    | split
    | (dsimp only)

theorem readDirect_out {P : State → Prop} (K : Keeps [.sys, .pkts, .integ, .axis, .plan, .gear, .loop, .ports, .bta, .stepper, .bricks, .net, .fio, .can, .serial, .acq, .lanes, .sram, .dev, .ctx, .free] P) {c : Fin 6} {a : Nat} {s : State} (h : P s) {o} {u : State}
    (hout : readDirect c a s = (o, u)) : P u := by
  have hu := readDirect_keeps K h (P := P) (c := c) (a := a)
  rw [hout] at hu
  exact hu


theorem accessRead_keeps {P : State → Prop} (K : Keeps [.sys, .pkts, .integ, .axis, .plan, .gear, .loop, .ports, .bta, .stepper, .bricks, .net, .fio, .can, .serial, .acq, .lanes, .sram, .dev, .ctx, .free] P) {c : Fin 6} {a : Nat} {bytes : Nat} {s : State} (h : P s) :
    P (accessRead c a bytes s) := by
  have K1 := K.sub (as := [.ctx]) rfl
  have K2 := K.sub (as := [.integ, .loop, .acq, .lanes, .ctx]) rfl
  have K3 := K.sub (as := [.integ, .ctx]) rfl
  unfold accessRead
  try dsimp only
  repeat' first
    | with_reducible first
      | assumption
      | refine readDirect_keeps K ?_
      | refine readDirect_out K ?_ ‹_›
      | refine handWord_keeps K1 ?_
      | refine clearOnRead_keeps K2 ?_
      | refine failCheck_keeps K3 ?_
      | refine keep_ite (P := P) ?_ ?_
    | exact rfl
    | split
    | (dsimp only)


theorem writeDirect_keeps {P : State → Prop} (K : Keeps [.sys, .pkts, .integ, .axis, .plan, .gear, .loop, .ports, .bta, .stepper, .bricks, .net, .fio, .can, .serial, .acq, .lanes, .sram, .dev, .ctx, .free] P) {c : Fin 6} {a : Nat} {w : Sys2Proof.Word} {s : State} (h : P s) :
    P (writeDirect c a w s) := by
  have K1 := K.sub (as := [.sys, .integ, .plan, .gear, .loop, .ports, .bta, .stepper, .net, .fio, .can, .serial, .acq, .lanes, .sram, .ctx]) rfl
  unfold writeDirect
  try dsimp only
  repeat' first
    | with_reducible first
      | assumption
      | refine indAccess_keeps K ?_
      | refine store_keeps K1 ?_
      | refine store_out K1 ?_ ‹_›
      | refine keep_ite (P := P) ?_ ?_
    | exact rfl
    | split
    | (dsimp only)


theorem accessWrite_keeps {P : State → Prop} (K : Keeps [.sys, .pkts, .integ, .axis, .plan, .gear, .loop, .ports, .bta, .stepper, .bricks, .net, .fio, .can, .serial, .acq, .lanes, .sram, .dev, .ctx, .free] P) {c : Fin 6} {a : Nat} {bytes : Nat} {w : Sys2Proof.Word} {s : State} (h : P s) :
    P (accessWrite c a bytes w s) := by
  have K1 := K.sub (as := [.integ, .ctx]) rfl
  unfold accessWrite
  try dsimp only
  repeat' first
    | with_reducible first
      | assumption
      | refine writeDirect_keeps K ?_
      | refine failCheck_keeps K1 ?_
      | refine keep_ite (P := P) ?_ ?_
    | exact rfl
    | split
    | (dsimp only)


theorem windowTimeout_keeps {P : State → Prop} (K : Keeps [.serial, .ctx] P) {c : Fin 6} {s : State} (h : P s) :
    P (windowTimeout c s) := by
  have K1 := K.sub (as := [.ctx]) rfl
  unfold windowTimeout
  try dsimp only
  repeat' first
    | with_reducible first
      | assumption
      | refine resumeOne_keeps K ?_
      | refine onCtx_keeps K1 ?_
      | refine accessError_keeps K1 ?_
    | exact rfl
    | split
    | (dsimp only)


end Sys2Proof.Machine
end

