-- ==== Sys2Proof/Laws/KeepAcqCore.lean ====
section
/-! SUPPORT.
What each function of Machine/AcqCore.lean keeps. -/

namespace Sys2Proof.Machine

theorem awaitSegment_keeps {P : State → Prop} (K : Keeps [.acq] P) {s : State} (h : P s) :
    P (awaitSegment s) := by
  unfold awaitSegment
  try dsimp only
  repeat' first
    | with_reducible first
      | assumption
      | refine K.onAcq rfl _ _ ?_
      | refine keep_ite (P := P) ?_ ?_
    | exact rfl
    | split
    | (dsimp only)


theorem endCapture_keeps {P : State → Prop} (K : Keeps [.power, .integ, .loop, .bta, .acq, .lanes, .free] P) {code : Nat} {s : State} (h : P s) :
    P (endCapture code s) := by
  have K1 := K.sub (as := [.power, .loop, .bta]) rfl
  have K2 := K.sub (as := [.acq]) rfl
  have K3 := K.sub (as := [.integ, .lanes]) rfl
  have K4 := K.sub (as := [.integ]) rfl
  unfold endCapture
  try dsimp only
  repeat' first
    | with_reducible first
      | assumption
      | refine reselect_keeps K1 ?_
      | refine awaitSegment_keeps K2 ?_
      | refine occurs_keeps K3 ?_
      | refine event_keeps K4 ?_
      | refine K.onAcq rfl _ _ ?_
      | refine K.onFree rfl _ _ ?_
    | exact rfl
    | (dsimp only)


theorem endIfMet_keeps {P : State → Prop} (K : Keeps [.power, .integ, .loop, .bta, .acq, .lanes, .free] P) {s : State} (h : P s) :
    P (endIfMet s) := by
  unfold endIfMet
  try dsimp only
  repeat' first
    | with_reducible first
      | assumption
      | refine endCapture_keeps K ?_
      | refine keep_ite (P := P) ?_ ?_
    | exact rfl
    | split
    | (dsimp only)


theorem acqPrune_keeps {P : State → Prop} (K : Keeps [.power, .integ, .loop, .bta, .acq, .lanes, .free] P) {s : State} (h : P s) :
    P (acqPrune s) := by
  unfold acqPrune
  try dsimp only
  repeat' first
    | with_reducible first
      | assumption
      | refine endCapture_keeps K ?_
      | refine K.onAcq rfl _ _ ?_
      | refine keep_ite (P := P) ?_ ?_
      | refine keep_foldl (P := P) (fun _ _ _ => ?_) ?_
    | exact rfl
    | split
    | (dsimp only)


theorem arm_keeps {P : State → Prop} (K : Keeps [.acq] P) {g : Fin 64} {s : State} (h : P s) :
    P (arm g s) := by
  unfold arm
  try dsimp only
  repeat' first
    | with_reducible first
      | assumption
      | refine K.onAcq rfl _ _ ?_
    | exact rfl
    | split
    | (dsimp only)


theorem missOccurrences_keeps {P : State → Prop} (K : Keeps [.acq] P) {n : Nat} {s : State} (h : P s) :
    P (missOccurrences n s) := by
  unfold missOccurrences
  try dsimp only
  repeat' first
    | with_reducible first
      | assumption
      | refine awaitSegment_keeps K ?_
      | refine K.onAcq rfl _ _ ?_
      | refine keep_ite (P := P) ?_ ?_
    | exact rfl
    | split
    | (dsimp only)


theorem trigger_keeps {P : State → Prop} (K : Keeps [.acq] P) {named : BitVec 9} {ago : Nat} {s : State} (h : P s) :
    P (trigger named ago s) := by
  unfold trigger
  try dsimp only
  repeat' first
    | with_reducible first
      | assumption
      | refine K.onAcq rfl _ _ ?_
      | refine keep_ite (P := P) ?_ ?_
    | exact rfl
    | split
    | (dsimp only)


theorem occurrences_keeps {P : State → Prop} (K : Keeps [.acq] P) {units : BitVec 9} {ago : Nat} {s : State} (h : P s) :
    P (occurrences units ago s) := by
  unfold occurrences
  try dsimp only
  repeat' first
    | with_reducible first
      | assumption
      | refine trigger_keeps K ?_
      | refine missOccurrences_keeps K ?_
      | refine K.onAcq rfl _ _ ?_
      | refine keep_ite (P := P) ?_ ?_
    | exact rfl
    | split
    | (dsimp only)


theorem occurNow_keeps {P : State → Prop} (K : Keeps [.ports, .acq] P) {units : BitVec 9} {ago : Nat} {s : State} (h : P s) :
    P (occurNow units ago s) := by
  have K1 := K.sub (as := [.acq]) rfl
  have K2 := K.sub (as := [.ports]) rfl
  unfold occurNow
  try dsimp only
  repeat' first
    | with_reducible first
      | assumption
      | refine occurrences_keeps K1 ?_
      | refine latchEvents_keeps K2 ?_
      | refine keep_ite (P := P) ?_ ?_
    | exact rfl
    | split
    | (dsimp only)


theorem pinSample_keeps {P : State → Prop} (K : Keeps [.power, .integ, .loop, .ports, .bta, .acq, .lanes, .free] P) {s0 : State} (h : P s0) :
    P (pinSample s0) := by
  have K1 := K.sub (as := [.ports, .acq]) rfl
  have K2 := K.sub (as := [.power, .integ, .loop, .bta, .acq, .lanes, .free]) rfl
  unfold pinSample
  try dsimp only
  repeat' first
    | with_reducible first
      | assumption
      | refine occurNow_keeps K1 ?_
      | refine endIfMet_keeps K2 ?_
      | refine K.onAcq rfl _ _ ?_
      | refine keep_ite (P := P) ?_ ?_
    | exact rfl
    | split
    | (dsimp only)


theorem tickAcq_keeps {P : State → Prop} (K : Keeps [.power, .integ, .loop, .ports, .bta, .acq, .lanes, .free] P) {s : State} (h : P s) :
    P (tickAcq s) := by
  unfold tickAcq
  try dsimp only
  repeat' first
    | with_reducible first
      | assumption
      | refine pinSample_keeps K ?_
      | refine K.onAcq rfl _ _ ?_
      | refine keep_ite (P := P) ?_ ?_
    | exact rfl
    | split
    | (dsimp only)


theorem calibrate_keeps {P : State → Prop} (K : Keeps [.integ, .acq, .free] P) {s : State} (h : P s) :
    P (calibrate s).2 := by
  have K1 := K.sub (as := [.free]) rfl
  have K2 := K.sub (as := [.integ]) rfl
  unfold calibrate
  try dsimp only
  repeat' first
    | with_reducible first
      | assumption
      | refine freshBool_keeps K1 ?_
      | refine freshBool_out K1 ?_ ‹_›
      | refine freshNat_keeps K1 ?_
      | refine freshNat_out K1 ?_ ‹_›
      | refine event_keeps K2 ?_
      | refine K.onFree rfl _ _ ?_
      | refine K.onAcq rfl _ _ ?_
      | refine keep_ite (P := P) ?_ ?_
    | exact rfl
    | split
    | (dsimp only)

theorem calibrate_out {P : State → Prop} (K : Keeps [.integ, .acq, .free] P) {s : State} (h : P s) {o} {u : State}
    (hout : calibrate s = (o, u)) : P u := by
  have hu := calibrate_keeps K h (P := P)
  rw [hout] at hu
  exact hu


end Sys2Proof.Machine
end

