-- ==== Sys2Proof/Laws/KeepAcqOps.lean ====
section
/-! SUPPORT.
What each function of Machine/AcqOps.lean keeps. -/

namespace Sys2Proof.Machine

theorem opAcqChannelConfig_keeps {P : State → Prop} (K : Keeps [.acq] P) {rq : Request} {s : State} (h : P s) :
    Answer.Keeps P (opAcqChannelConfig.effect rq s) := by
  unfold opAcqChannelConfig
  try dsimp only
  repeat' first
    | with_reducible first
      | assumption
      | refine K.onAcq rfl _ _ ?_
      | refine keep_ite (P := P) ?_ ?_
      | refine keep_ite_answer ?_ ?_
      | exact keep_deny
      | refine keep_done ?_
      | refine keep_fail ?_
      | refine keep_wait ?_
    | exact rfl
    | split
    | (dsimp only)


theorem execAcqChannelConfig_keeps {P : State → Prop} (K : Keeps [.pkts, .integ, .acq, .free] P) {rq : Sys2Proof.Request} {s : State} (h : P s) :
    NextKeeps P (execAcqChannelConfig rq s) := by
  have K1 := K.sub (as := [.pkts, .integ, .free]) rfl
  have K2 := K.sub (as := [.acq]) rfl
  unfold execAcqChannelConfig
  try dsimp only
  repeat' first
    | with_reducible first
      | assumption
      | refine keep_next ?_
      | refine runCommand_keeps K1 ?_ ?_
      | refine opAcqChannelConfig_keeps K2 ?_
    | exact rfl
    | split
    | (dsimp only)


theorem opAcqPinConfig_keeps {P : State → Prop} (K : Keeps [.acq] P) {rq : Request} {s : State} (h : P s) :
    Answer.Keeps P (opAcqPinConfig.effect rq s) := by
  unfold opAcqPinConfig
  try dsimp only
  repeat' first
    | with_reducible first
      | assumption
      | refine K.onAcq rfl _ _ ?_
      | refine keep_ite (P := P) ?_ ?_
      | refine keep_ite_answer ?_ ?_
      | exact keep_deny
      | refine keep_done ?_
      | refine keep_fail ?_
      | refine keep_wait ?_
    | exact rfl
    | split
    | (dsimp only)


theorem execAcqPinConfig_keeps {P : State → Prop} (K : Keeps [.pkts, .integ, .acq, .free] P) {rq : Sys2Proof.Request} {s : State} (h : P s) :
    NextKeeps P (execAcqPinConfig rq s) := by
  have K1 := K.sub (as := [.pkts, .integ, .free]) rfl
  have K2 := K.sub (as := [.acq]) rfl
  unfold execAcqPinConfig
  try dsimp only
  repeat' first
    | with_reducible first
      | assumption
      | refine keep_next ?_
      | refine runCommand_keeps K1 ?_ ?_
      | refine opAcqPinConfig_keeps K2 ?_
    | exact rfl
    | split
    | (dsimp only)


theorem opAcqTriggerConfig_keeps {P : State → Prop} (K : Keeps [.acq] P) {rq : Request} {s : State} (h : P s) :
    Answer.Keeps P (opAcqTriggerConfig.effect rq s) := by
  unfold opAcqTriggerConfig
  try dsimp only
  repeat' first
    | with_reducible first
      | assumption
      | refine K.onAcq rfl _ _ ?_
      | refine keep_ite (P := P) ?_ ?_
      | refine keep_ite_answer ?_ ?_
      | exact keep_deny
      | refine keep_done ?_
      | refine keep_fail ?_
      | refine keep_wait ?_
    | exact rfl
    | split
    | (dsimp only)


theorem execAcqTriggerConfig_keeps {P : State → Prop} (K : Keeps [.pkts, .integ, .acq, .free] P) {rq : Sys2Proof.Request} {s : State} (h : P s) :
    NextKeeps P (execAcqTriggerConfig rq s) := by
  have K1 := K.sub (as := [.pkts, .integ, .free]) rfl
  have K2 := K.sub (as := [.acq]) rfl
  unfold execAcqTriggerConfig
  try dsimp only
  repeat' first
    | with_reducible first
      | assumption
      | refine keep_next ?_
      | refine runCommand_keeps K1 ?_ ?_
      | refine opAcqTriggerConfig_keeps K2 ?_
    | exact rfl
    | split
    | (dsimp only)


theorem opAcqEnvelopeSet_keeps {P : State → Prop} (K : Keeps [.acq] P) {rq : Request} {s : State} (h : P s) :
    Answer.Keeps P (opAcqEnvelopeSet.effect rq s) := by
  unfold opAcqEnvelopeSet
  try dsimp only
  repeat' first
    | with_reducible first
      | assumption
      | refine K.onAcq rfl _ _ ?_
      | refine keep_ite (P := P) ?_ ?_
      | refine keep_ite_answer ?_ ?_
      | exact keep_deny
      | refine keep_done ?_
      | refine keep_fail ?_
      | refine keep_wait ?_
    | exact rfl
    | split
    | (dsimp only)


theorem execAcqEnvelopeSet_keeps {P : State → Prop} (K : Keeps [.pkts, .integ, .acq, .free] P) {rq : Sys2Proof.Request} {s : State} (h : P s) :
    NextKeeps P (execAcqEnvelopeSet rq s) := by
  have K1 := K.sub (as := [.pkts, .integ, .free]) rfl
  have K2 := K.sub (as := [.acq]) rfl
  unfold execAcqEnvelopeSet
  try dsimp only
  repeat' first
    | with_reducible first
      | assumption
      | refine keep_next ?_
      | refine runCommand_keeps K1 ?_ ?_
      | refine opAcqEnvelopeSet_keeps K2 ?_
    | exact rfl
    | split
    | (dsimp only)


theorem opAcqCaptureConfig_keeps {P : State → Prop} (K : Keeps [.acq] P) {rq : Request} {s : State} (h : P s) :
    Answer.Keeps P (opAcqCaptureConfig.effect rq s) := by
  unfold opAcqCaptureConfig
  try dsimp only
  repeat' first
    | with_reducible first
      | assumption
      | refine K.onAcq rfl _ _ ?_
      | refine keep_ite (P := P) ?_ ?_
      | refine keep_ite_answer ?_ ?_
      | exact keep_deny
      | refine keep_done ?_
      | refine keep_fail ?_
      | refine keep_wait ?_
    | exact rfl
    | split
    | (dsimp only)


theorem execAcqCaptureConfig_keeps {P : State → Prop} (K : Keeps [.pkts, .integ, .acq, .free] P) {rq : Sys2Proof.Request} {s : State} (h : P s) :
    NextKeeps P (execAcqCaptureConfig rq s) := by
  have K1 := K.sub (as := [.pkts, .integ, .free]) rfl
  have K2 := K.sub (as := [.acq]) rfl
  unfold execAcqCaptureConfig
  try dsimp only
  repeat' first
    | with_reducible first
      | assumption
      | refine keep_next ?_
      | refine runCommand_keeps K1 ?_ ?_
      | refine opAcqCaptureConfig_keeps K2 ?_
    | exact rfl
    | split
    | (dsimp only)


theorem armNow_keeps {P : State → Prop} (K : Keeps [.power, .loop, .bta, .acq] P) {s : State} (h : P s) :
    P (armNow s) := by
  have K1 := K.sub (as := [.power, .loop, .bta]) rfl
  have K2 := K.sub (as := [.acq]) rfl
  unfold armNow
  try dsimp only
  repeat' first
    | with_reducible first
      | assumption
      | refine reselect_keeps K1 ?_
      | refine arm_keeps K2 ?_
    | exact rfl
    | split
    | (dsimp only)


theorem opAcqArm_keeps {P : State → Prop} (K : Keeps [.power, .loop, .bta, .acq] P) {rq : Request} {s : State} (h : P s) :
    Answer.Keeps P (opAcqArm.effect rq s) := by
  unfold opAcqArm
  try dsimp only
  repeat' first
    | with_reducible first
      | assumption
      | refine armNow_keeps K ?_
      | exact keep_deny
      | refine keep_done ?_
      | refine keep_fail ?_
      | refine keep_wait ?_
    | exact rfl
    | split
    | (dsimp only)


theorem execAcqArm_keeps {P : State → Prop} (K : Keeps [.power, .pkts, .integ, .loop, .bta, .acq, .free] P) {rq : Sys2Proof.Request} {s : State} (h : P s) :
    NextKeeps P (execAcqArm rq s) := by
  have K1 := K.sub (as := [.pkts, .integ, .free]) rfl
  have K2 := K.sub (as := [.power, .loop, .bta, .acq]) rfl
  unfold execAcqArm
  try dsimp only
  repeat' first
    | with_reducible first
      | assumption
      | refine keep_next ?_
      | refine runCommand_keeps K1 ?_ ?_
      | refine opAcqArm_keeps K2 ?_
    | exact rfl
    | split
    | (dsimp only)


theorem opAcqStop_keeps {P : State → Prop} (K : Keeps [.power, .integ, .loop, .bta, .acq, .lanes, .free] P) {rq : Request} {s : State} (h : P s) :
    Answer.Keeps P (opAcqStop.effect rq s) := by
  unfold opAcqStop
  try dsimp only
  repeat' first
    | with_reducible first
      | assumption
      | refine endCapture_keeps K ?_
      | refine K.onAcq rfl _ _ ?_
      | refine keep_ite (P := P) ?_ ?_
      | refine keep_ite_answer ?_ ?_
      | exact keep_deny
      | refine keep_done ?_
      | refine keep_fail ?_
      | refine keep_wait ?_
    | exact rfl
    | split
    | (dsimp only)


theorem execAcqStop_keeps {P : State → Prop} (K : Keeps [.power, .pkts, .integ, .loop, .bta, .acq, .lanes, .free] P) {rq : Sys2Proof.Request} {s : State} (h : P s) :
    NextKeeps P (execAcqStop rq s) := by
  have K1 := K.sub (as := [.pkts, .integ, .free]) rfl
  have K2 := K.sub (as := [.power, .integ, .loop, .bta, .acq, .lanes, .free]) rfl
  unfold execAcqStop
  try dsimp only
  repeat' first
    | with_reducible first
      | assumption
      | refine keep_next ?_
      | refine runCommand_keeps K1 ?_ ?_
      | refine opAcqStop_keeps K2 ?_
    | exact rfl
    | split
    | (dsimp only)


theorem opAcqForce_keeps {P : State → Prop} (K : Keeps [.ports, .acq] P) {rq : Request} {s : State} (h : P s) :
    Answer.Keeps P (opAcqForce.effect rq s) := by
  unfold opAcqForce
  try dsimp only
  repeat' first
    | with_reducible first
      | assumption
      | refine occurNow_keeps K ?_
      | exact keep_deny
      | refine keep_done ?_
      | refine keep_fail ?_
      | refine keep_wait ?_
    | exact rfl
    | (dsimp only)


theorem execAcqForce_keeps {P : State → Prop} (K : Keeps [.pkts, .integ, .ports, .acq, .free] P) {rq : Sys2Proof.Request} {s : State} (h : P s) :
    NextKeeps P (execAcqForce rq s) := by
  have K1 := K.sub (as := [.pkts, .integ, .free]) rfl
  have K2 := K.sub (as := [.ports, .acq]) rfl
  unfold execAcqForce
  try dsimp only
  repeat' first
    | with_reducible first
      | assumption
      | refine keep_next ?_
      | refine runCommand_keeps K1 ?_ ?_
      | refine opAcqForce_keeps K2 ?_
    | exact rfl
    | split
    | (dsimp only)


theorem opAcqRead_keeps {P : State → Prop} (K : Keeps [.acq] P) {rq : Request} {s : State} (h : P s) :
    Answer.Keeps P (opAcqRead.effect rq s) := by
  unfold opAcqRead
  try dsimp only
  repeat' first
    | with_reducible first
      | assumption
      | refine awaitSegment_keeps K ?_
      | refine K.onAcq rfl _ _ ?_
      | refine keep_ite (P := P) ?_ ?_
      | refine keep_ite_answer ?_ ?_
      | exact keep_deny
      | refine keep_done ?_
      | refine keep_fail ?_
      | refine keep_wait ?_
    | exact rfl
    | split
    | (dsimp only)


theorem execAcqRead_keeps {P : State → Prop} (K : Keeps [.pkts, .integ, .acq, .free] P) {rq : Sys2Proof.Request} {s : State} (h : P s) :
    NextKeeps P (execAcqRead rq s) := by
  have K1 := K.sub (as := [.pkts, .integ, .free]) rfl
  have K2 := K.sub (as := [.acq]) rfl
  unfold execAcqRead
  try dsimp only
  repeat' first
    | with_reducible first
      | assumption
      | refine keep_next ?_
      | refine runCommand_keeps K1 ?_ ?_
      | refine opAcqRead_keeps K2 ?_
    | exact rfl
    | split
    | (dsimp only)


theorem opAcqStatusRead_keeps {P : State → Prop} (K : Keeps [.acq] P) {rq : Request} {s : State} (h : P s) :
    Answer.Keeps P (opAcqStatusRead.effect rq s) := by
  unfold opAcqStatusRead
  try dsimp only
  repeat' first
    | with_reducible first
      | assumption
      | refine K.onAcq rfl _ _ ?_
      | exact keep_deny
      | refine keep_done ?_
      | refine keep_fail ?_
      | refine keep_wait ?_
    | exact rfl
    | (dsimp only)


theorem execAcqStatusRead_keeps {P : State → Prop} (K : Keeps [.pkts, .integ, .acq, .free] P) {rq : Sys2Proof.Request} {s : State} (h : P s) :
    NextKeeps P (execAcqStatusRead rq s) := by
  have K1 := K.sub (as := [.pkts, .integ, .free]) rfl
  have K2 := K.sub (as := [.acq]) rfl
  unfold execAcqStatusRead
  try dsimp only
  repeat' first
    | with_reducible first
      | assumption
      | refine keep_next ?_
      | refine runCommand_keeps K1 ?_ ?_
      | refine opAcqStatusRead_keeps K2 ?_
    | exact rfl
    | split
    | (dsimp only)


theorem opAcqCalibrate_keeps {P : State → Prop} (K : Keeps [.integ, .acq, .free] P) {rq : Request} {s : State} (h : P s) :
    Answer.Keeps P (opAcqCalibrate.effect rq s) := by
  unfold opAcqCalibrate
  try dsimp only
  repeat' first
    | with_reducible first
      | assumption
      | refine calibrate_keeps K ?_
      | refine calibrate_out K ?_ ‹_›
      | refine keep_ite (P := P) ?_ ?_
      | refine keep_ite_answer ?_ ?_
      | exact keep_deny
      | refine keep_done ?_
      | refine keep_fail ?_
      | refine keep_wait ?_
    | exact rfl
    | split
    | (dsimp only)


theorem execAcqCalibrate_keeps {P : State → Prop} (K : Keeps [.pkts, .integ, .acq, .free] P) {rq : Sys2Proof.Request} {s : State} (h : P s) :
    NextKeeps P (execAcqCalibrate rq s) := by
  have K1 := K.sub (as := [.pkts, .integ, .free]) rfl
  have K2 := K.sub (as := [.integ, .acq, .free]) rfl
  unfold execAcqCalibrate
  try dsimp only
  repeat' first
    | with_reducible first
      | assumption
      | refine keep_next ?_
      | refine runCommand_keeps K1 ?_ ?_
      | refine opAcqCalibrate_keeps K2 ?_
    | exact rfl
    | split
    | (dsimp only)


theorem markViolation_keeps {P : State → Prop} (K : Keeps [.integ, .acq] P) {e : Fin 4} {j : Nat} {tag : Nat} {s : State} (h : P s) :
    P (markViolation e j tag s) := by
  have K1 := K.sub (as := [.integ]) rfl
  unfold markViolation
  try dsimp only
  repeat' first
    | with_reducible first
      | assumption
      | refine event_keeps K1 ?_
      | refine K.onAcq rfl _ _ ?_
    | exact rfl
    | (dsimp only)


theorem channelSample_keeps {P : State → Prop} (K : Keeps [.power, .integ, .loop, .ports, .bta, .acq, .lanes, .free] P) {c : Fin 64} {s00 : State} (h : P s00) :
    P (channelSample c s00) := by
  have K1 := K.sub (as := [.ports, .acq]) rfl
  have K2 := K.sub (as := [.integ, .acq]) rfl
  have K3 := K.sub (as := [.power, .integ, .loop, .bta, .acq, .lanes, .free]) rfl
  unfold channelSample
  try dsimp only
  repeat' first
    | with_reducible first
      | assumption
      | refine occurNow_keeps K1 ?_
      | refine markViolation_keeps K2 ?_
      | refine endCapture_keeps K3 ?_
      | refine endIfMet_keeps K3 ?_
      | refine K.onAcq rfl _ _ ?_
      | refine keep_ite (P := P) ?_ ?_
      | refine keep_foldl (P := P) (fun _ _ _ => ?_) ?_
    | exact rfl
    | split
    | (dsimp only)


theorem execAcqChannelSample_keeps {P : State → Prop} (K : Keeps [.power, .integ, .loop, .ports, .bta, .acq, .lanes, .free] P) {chan : Fin 64} {s : State} (h : P s) :
    NextKeeps P (execAcqChannelSample chan s) := by
  have K1 := K.sub (as := [.power, .integ, .loop, .bta, .acq, .lanes, .free]) rfl
  unfold execAcqChannelSample
  try dsimp only
  repeat' first
    | with_reducible first
      | assumption
      | refine keep_next ?_
      | refine keep_ite_next ?_ ?_
      | refine acqPrune_keeps K1 ?_
      | refine channelSample_keeps K ?_
      | refine keep_ite (P := P) ?_ ?_
    | exact rfl
    | split
    | (dsimp only)


theorem execAcqPinChange_keeps {P : State → Prop} (K : Keeps [.power, .integ, .loop, .ports, .bta, .acq, .lanes, .free] P) {levels : BitVec 8} {s : State} (h : P s) :
    NextKeeps P (execAcqPinChange levels s) := by
  unfold execAcqPinChange
  try dsimp only
  repeat' first
    | with_reducible first
      | assumption
      | refine keep_next ?_
      | refine keep_ite_next ?_ ?_
      | refine pinSample_keeps K ?_
      | refine K.onAcq rfl _ _ ?_
      | refine keep_ite (P := P) ?_ ?_
    | exact rfl
    | split
    | (dsimp only)


theorem execAcqTriggerOccurrence_keeps {P : State → Prop} (K : Keeps [.ports, .acq] P) {units : BitVec 8} {s : State} (h : P s) :
    NextKeeps P (execAcqTriggerOccurrence units s) := by
  unfold execAcqTriggerOccurrence
  try dsimp only
  repeat' first
    | with_reducible first
      | assumption
      | refine keep_next ?_
      | refine keep_ite_next ?_ ?_
      | refine occurNow_keeps K ?_
      | refine keep_ite (P := P) ?_ ?_
    | exact rfl
    | split
    | (dsimp only)


theorem execAcqRearm_keeps {P : State → Prop} (K : Keeps [.power, .loop, .bta, .acq] P) {s : State} (h : P s) :
    NextKeeps P (execAcqRearm s) := by
  have K1 := K.sub (as := [.power, .loop, .bta]) rfl
  have K2 := K.sub (as := [.acq]) rfl
  unfold execAcqRearm
  try dsimp only
  repeat' first
    | with_reducible first
      | assumption
      | refine keep_next ?_
      | refine keep_ite_next ?_ ?_
      | refine reselect_keeps K1 ?_
      | refine arm_keeps K2 ?_
      | refine keep_ite (P := P) ?_ ?_
    | exact rfl
    | split
    | (dsimp only)


theorem execAcqHoldoffEnd_keeps {P : State → Prop} (K : Keeps [.acq] P) {s : State} (h : P s) :
    NextKeeps P (execAcqHoldoffEnd s) := by
  unfold execAcqHoldoffEnd
  try dsimp only
  repeat' first
    | with_reducible first
      | assumption
      | refine keep_next ?_
      | refine keep_ite_next ?_ ?_
      | refine awaitSegment_keeps K ?_
      | refine K.onAcq rfl _ _ ?_
      | refine keep_ite (P := P) ?_ ?_
    | exact rfl
    | split
    | (dsimp only)


end Sys2Proof.Machine
end

