-- ==== Sys2Proof/Laws/KeepAxisSlots.lean ====
section
/-! SUPPORT.
What each function of Machine/AxisSlots.lean keeps. -/

namespace Sys2Proof.Machine

theorem bindSlot_keeps {P : State → Prop} (K : Keeps [.axis, .plan, .loop, .stepper] P) {i : Fin 64} {b : Binding} {s : State} (h : P s) :
    P (bindSlot i b s) := by
  have K1 := K.sub (as := [.axis]) rfl
  have K2 := K.sub (as := [.plan]) rfl
  unfold bindSlot
  try dsimp only
  repeat' first
    | with_reducible first
      | assumption
      | refine onAx_keeps K1 ?_
      | refine onPax_keeps K2 ?_
      | refine K.onLoop rfl _ _ ?_
      | refine K.onStepper rfl _ _ ?_
      | refine keep_ite (P := P) ?_ ?_
    | exact rfl
    | split
    | (dsimp only)


theorem opAxisBind_keeps {P : State → Prop} (K : Keeps [.power, .integ, .axis, .plan, .loop, .ports, .bta, .stepper, .acq, .lanes, .free] P) {rq : Request} {s : State} (h : P s) :
    Answer.Keeps P (opAxisBind.effect rq s) := by
  have K1 := K.sub (as := [.axis, .plan, .loop, .stepper]) rfl
  have K2 := K.sub (as := [.power, .integ, .loop, .bta, .acq, .lanes, .free]) rfl
  have K3 := K.sub (as := [.power, .loop, .bta]) rfl
  have K4 := K.sub (as := [.integ, .ports, .bta]) rfl
  unfold opAxisBind
  try dsimp only
  repeat' first
    | with_reducible first
      | assumption
      | refine bindSlot_keeps K1 ?_
      | refine acqPrune_keeps K2 ?_
      | refine reselect_keeps K3 ?_
      | refine installSlot_keeps K4 ?_
      | refine keep_ite (P := P) ?_ ?_
      | refine keep_ite_answer ?_ ?_
      | exact keep_deny
      | refine keep_done ?_
      | refine keep_fail ?_
      | refine keep_wait ?_
    | exact rfl
    | split
    | (dsimp only)


theorem execAxisBind_keeps {P : State → Prop} (K : Keeps [.power, .pkts, .integ, .axis, .plan, .loop, .ports, .bta, .stepper, .acq, .lanes, .free] P) {rq : Sys2Proof.Request} {s : State} (h : P s) :
    NextKeeps P (execAxisBind rq s) := by
  have K1 := K.sub (as := [.pkts, .integ, .free]) rfl
  have K2 := K.sub (as := [.power, .integ, .axis, .plan, .loop, .ports, .bta, .stepper, .acq, .lanes, .free]) rfl
  unfold execAxisBind
  try dsimp only
  repeat' first
    | with_reducible first
      | assumption
      | refine keep_next ?_
      | refine runCommand_keeps K1 ?_ ?_
      | refine opAxisBind_keeps K2 ?_
    | exact rfl
    | split
    | (dsimp only)


theorem opAxisSetMode_keeps {P : State → Prop} (K : Keeps [.power, .integ, .axis, .loop, .ports, .bta, .acq, .lanes, .free] P) {rq : Request} {s : State} (h : P s) :
    Answer.Keeps P (opAxisSetMode.effect rq s) := by
  have K1 := K.sub (as := [.axis]) rfl
  have K2 := K.sub (as := [.power, .integ, .loop, .bta, .acq, .lanes, .free]) rfl
  have K3 := K.sub (as := [.power, .loop, .bta]) rfl
  have K4 := K.sub (as := [.integ, .ports, .bta]) rfl
  unfold opAxisSetMode
  try dsimp only
  repeat' first
    | with_reducible first
      | assumption
      | refine onAx_keeps K1 ?_
      | refine acqPrune_keeps K2 ?_
      | refine reselect_keeps K3 ?_
      | refine installSlot_keeps K4 ?_
      | refine keep_ite (P := P) ?_ ?_
      | refine keep_ite_answer ?_ ?_
      | exact keep_deny
      | refine keep_done ?_
      | refine keep_fail ?_
      | refine keep_wait ?_
    | exact rfl
    | split
    | (dsimp only)


theorem execAxisSetMode_keeps {P : State → Prop} (K : Keeps [.power, .pkts, .integ, .axis, .loop, .ports, .bta, .acq, .lanes, .free] P) {rq : Sys2Proof.Request} {s : State} (h : P s) :
    NextKeeps P (execAxisSetMode rq s) := by
  have K1 := K.sub (as := [.pkts, .integ, .free]) rfl
  have K2 := K.sub (as := [.power, .integ, .axis, .loop, .ports, .bta, .acq, .lanes, .free]) rfl
  unfold execAxisSetMode
  try dsimp only
  repeat' first
    | with_reducible first
      | assumption
      | refine keep_next ?_
      | refine runCommand_keeps K1 ?_ ?_
      | refine opAxisSetMode_keeps K2 ?_
    | exact rfl
    | split
    | (dsimp only)


theorem opAxisEnable_keeps {P : State → Prop} (K : Keeps [.power, .pkts, .integ, .axis, .plan, .gear, .loop, .bta, .stepper, .bricks] P) {rq : Request} {s : State} (h : P s) :
    Answer.Keeps P (opAxisEnable.effect rq s) := by
  have K1 := K.sub (as := [.power, .integ, .axis, .loop, .bta, .bricks]) rfl
  have K2 := K.sub (as := [.pkts, .integ, .axis, .plan, .gear, .loop, .bta, .stepper, .bricks]) rfl
  unfold opAxisEnable
  try dsimp only
  repeat' first
    | with_reducible first
      | assumption
      | refine enableBegin_keeps K1 ?_
      | refine axisFault_keeps K2 ?_
      | refine keep_ite (P := P) ?_ ?_
      | refine keep_ite_answer ?_ ?_
      | exact keep_deny
      | refine keep_done ?_
      | refine keep_fail ?_
      | refine keep_wait ?_
    | exact rfl
    | split
    | (dsimp only)


theorem execAxisEnable_keeps {P : State → Prop} (K : Keeps [.power, .pkts, .integ, .axis, .plan, .gear, .loop, .bta, .stepper, .bricks, .free] P) {rq : Sys2Proof.Request} {s : State} (h : P s) :
    NextKeeps P (execAxisEnable rq s) := by
  have K1 := K.sub (as := [.pkts, .integ, .free]) rfl
  have K2 := K.sub (as := [.power, .pkts, .integ, .axis, .plan, .gear, .loop, .bta, .stepper, .bricks]) rfl
  unfold execAxisEnable
  try dsimp only
  repeat' first
    | with_reducible first
      | assumption
      | refine keep_next ?_
      | refine runCommand_keeps K1 ?_ ?_
      | refine opAxisEnable_keeps K2 ?_
    | exact rfl
    | split
    | (dsimp only)


theorem opAxisDisable_keeps {P : State → Prop} (K : Keeps [.power, .pkts, .integ, .axis, .plan, .gear, .loop, .bta, .stepper, .bricks] P) {rq : Request} {s : State} (h : P s) :
    Answer.Keeps P (opAxisDisable.effect rq s) := by
  have K1 := K.sub (as := [.pkts, .axis, .plan, .gear, .loop, .bta, .stepper, .bricks]) rfl
  have K2 := K.sub (as := [.bta]) rfl
  have K3 := K.sub (as := [.loop]) rfl
  have K4 := K.sub (as := [.pkts, .plan, .gear]) rfl
  have K5 := K.sub (as := [.bta, .stepper, .bricks]) rfl
  have K6 := K.sub (as := [.axis]) rfl
  have K7 := K.sub (as := [.plan]) rfl
  unfold opAxisDisable
  try dsimp only
  repeat' first
    | with_reducible first
      | assumption
      | refine slotDisabled_keeps K ?_
      | refine takeReaction_keeps K1 ?_
      | refine clearGroup_keeps K2 ?_
      | refine loopsStop_keeps K3 ?_
      | refine planEnd_keeps K4 ?_
      | refine outputFor_keeps K5 ?_
      | refine onAx_keeps K6 ?_
      | refine requestStop_keeps K7 ?_
      | refine keep_ite (P := P) ?_ ?_
      | refine keep_foldl (P := P) (fun _ _ _ => ?_) ?_
      | refine keep_ite_answer ?_ ?_
      | exact keep_deny
      | refine keep_done ?_
      | refine keep_fail ?_
      | refine keep_wait ?_
    | exact rfl
    | split
    | (dsimp only)


theorem execAxisDisable_keeps {P : State → Prop} (K : Keeps [.power, .pkts, .integ, .axis, .plan, .gear, .loop, .bta, .stepper, .bricks, .free] P) {rq : Sys2Proof.Request} {s : State} (h : P s) :
    NextKeeps P (execAxisDisable rq s) := by
  have K1 := K.sub (as := [.pkts, .integ, .free]) rfl
  have K2 := K.sub (as := [.power, .pkts, .integ, .axis, .plan, .gear, .loop, .bta, .stepper, .bricks]) rfl
  unfold execAxisDisable
  try dsimp only
  repeat' first
    | with_reducible first
      | assumption
      | refine keep_next ?_
      | refine runCommand_keeps K1 ?_ ?_
      | refine opAxisDisable_keeps K2 ?_
    | exact rfl
    | split
    | (dsimp only)


theorem opAxisStatus_keeps {P : State → Prop} (K : Keeps [] P) {rq : Request} {s : State} (h : P s) :
    Answer.Keeps P (opAxisStatus.effect rq s) := by
  have _ := K
  unfold opAxisStatus
  try dsimp only
  repeat' first
    | with_reducible first
      | assumption
      | exact keep_deny
      | refine keep_done ?_
      | refine keep_fail ?_
      | refine keep_wait ?_
    | exact rfl
    | (dsimp only)


theorem execAxisStatus_keeps {P : State → Prop} (K : Keeps [.pkts, .integ, .free] P) {rq : Sys2Proof.Request} {s : State} (h : P s) :
    NextKeeps P (execAxisStatus rq s) := by
  have K1 := K.sub (as := []) rfl
  unfold execAxisStatus
  try dsimp only
  repeat' first
    | with_reducible first
      | assumption
      | refine keep_next ?_
      | refine runCommand_keeps K ?_ ?_
      | refine opAxisStatus_keeps K1 ?_
    | exact rfl
    | split
    | (dsimp only)


theorem execStandstillEntry_keeps {P : State → Prop} (K : Keeps [.axis, .loop, .bta, .stepper, .bricks] P) {slot : Fin 64} {s : State} (h : P s) :
    NextKeeps P (execStandstillEntry slot s) := by
  have K1 := K.sub (as := [.axis]) rfl
  have K2 := K.sub (as := [.loop]) rfl
  have K3 := K.sub (as := [.bta, .stepper, .bricks]) rfl
  unfold execStandstillEntry
  try dsimp only
  repeat' first
    | with_reducible first
      | assumption
      | refine keep_next ?_
      | refine keep_ite_next ?_ ?_
      | refine onAx_keeps K1 ?_
      | refine loopsStop_keeps K2 ?_
      | refine outputFor_keeps K3 ?_
      | refine K.onStepper rfl _ _ ?_
      | refine keep_ite (P := P) ?_ ?_
    | exact rfl
    | split
    | (dsimp only)


theorem execAlignmentComplete_keeps {P : State → Prop} (K : Keeps [.pkts, .integ, .axis, .plan, .gear, .loop, .bta, .stepper, .bricks] P) {slot : Fin 64} {s : State} (h : P s) :
    NextKeeps P (execAlignmentComplete slot s) := by
  have K1 := K.sub (as := [.axis]) rfl
  unfold execAlignmentComplete
  try dsimp only
  repeat' first
    | with_reducible first
      | assumption
      | refine keep_next ?_
      | refine keep_ite_next ?_ ?_
      | refine onAx_keeps K1 ?_
      | refine axisFault_keeps K ?_
      | refine keep_ite (P := P) ?_ ?_
    | exact rfl
    | split
    | (dsimp only)


theorem execReactionComplete_keeps {P : State → Prop} (K : Keeps [.power, .pkts, .integ, .axis, .plan, .gear, .loop, .bta, .stepper, .bricks] P) {slot : Fin 64} {s : State} (h : P s) :
    NextKeeps P (execReactionComplete slot s) := by
  have K1 := K.sub (as := [.axis]) rfl
  have K2 := K.sub (as := [.pkts, .plan, .gear]) rfl
  have K3 := K.sub (as := [.loop]) rfl
  have K4 := K.sub (as := [.bta, .stepper, .bricks]) rfl
  unfold execReactionComplete
  try dsimp only
  repeat' first
    | with_reducible first
      | assumption
      | refine keep_next ?_
      | refine keep_ite_next ?_ ?_
      | refine slotDisabled_keeps K ?_
      | refine onAx_keeps K1 ?_
      | refine planEnd_keeps K2 ?_
      | refine loopsStop_keeps K3 ?_
      | refine outputFor_keeps K4 ?_
      | refine keep_ite (P := P) ?_ ?_
    | exact rfl
    | split
    | (dsimp only)


end Sys2Proof.Machine
end

