-- ==== Sys2Proof/Laws/KeepLoopStages.lean ====
section
/-! SUPPORT.
What each function of Machine/LoopStages.lean keeps. -/

namespace Sys2Proof.Machine

theorem storeCurrents_keeps {P : State → Prop} (K : Keeps [.loop] P) {i : Fin 64} {id : Rat} {iq : Rat} {vd : Int} {vq : Int} {w : Rat × Rat} {s : State} (h : P s) :
    P (storeCurrents i id iq vd vq w s) := by
  unfold storeCurrents
  try dsimp only
  repeat' first
    | with_reducible first
      | assumption
      | refine onLSlot_keeps K ?_
    | exact rfl
    | (dsimp only)


theorem sampleThree_keeps {P : State → Prop} (K : Keeps [.integ, .loop] P) {i : Fin 64} {committed : Option (Nat × Region)} {s : State} (h : P s) :
    P (sampleThree i committed s).1 := by
  have K1 := K.sub (as := [.loop]) rfl
  unfold sampleThree
  try dsimp only
  repeat' first
    | with_reducible first
      | assumption
      | refine runLoop_keeps K ?_
      | refine runLoop_out K ?_ ‹_›
      | refine storeCurrents_keeps K1 ?_
      | refine onLoopSt_keeps K1 ?_
      | refine keep_ite (P := P) ?_ ?_
    | exact rfl
    | split
    | (dsimp only)

theorem sampleThree_out {P : State → Prop} (K : Keeps [.integ, .loop] P) {i : Fin 64} {committed : Option (Nat × Region)} {s : State} (h : P s) {o} {u : State}
    (hout : sampleThree i committed s = (u, o)) : P u := by
  have hu := sampleThree_keeps K h (P := P) (i := i) (committed := committed)
  rw [hout] at hu
  exact hu


theorem sampleSingle_keeps {P : State → Prop} (K : Keeps [.integ, .loop] P) {i : Fin 64} {committed : Option (Nat × Region)} {s : State} (h : P s) :
    P (sampleSingle i committed s).1 := by
  have K1 := K.sub (as := [.loop]) rfl
  unfold sampleSingle
  try dsimp only
  repeat' first
    | with_reducible first
      | assumption
      | refine runLoop_keeps K ?_
      | refine runLoop_out K ?_ ‹_›
      | refine storeCurrents_keeps K1 ?_
      | refine onLoopSt_keeps K1 ?_
    | exact rfl
    | (dsimp only)

theorem sampleSingle_out {P : State → Prop} (K : Keeps [.integ, .loop] P) {i : Fin 64} {committed : Option (Nat × Region)} {s : State} (h : P s) {o} {u : State}
    (hout : sampleSingle i committed s = (u, o)) : P u := by
  have hu := sampleSingle_keeps K h (P := P) (i := i) (committed := committed)
  rw [hout] at hu
  exact hu


theorem sampleStrong_keeps {P : State → Prop} (K : Keeps [.integ, .loop] P) {i : Fin 64} {committed : Option (Nat × Region)} {s : State} (h : P s) :
    P (sampleStrong i committed s).1 := by
  have K1 := K.sub (as := [.loop]) rfl
  unfold sampleStrong
  try dsimp only
  repeat' first
    | with_reducible first
      | assumption
      | refine runLoop_keeps K ?_
      | refine runLoop_out K ?_ ‹_›
      | refine storeCurrents_keeps K1 ?_
      | refine onLoopSt_keeps K1 ?_
    | exact rfl
    | (dsimp only)

theorem sampleStrong_out {P : State → Prop} (K : Keeps [.integ, .loop] P) {i : Fin 64} {committed : Option (Nat × Region)} {s : State} (h : P s) {o} {u : State}
    (hout : sampleStrong i committed s = (u, o)) : P u := by
  have hu := sampleStrong_keeps K h (P := P) (i := i) (committed := committed)
  rw [hout] at hu
  exact hu


theorem sampleQuiet_keeps {P : State → Prop} (K : Keeps [.loop] P) {i : Fin 64} {s : State} (h : P s) :
    P (sampleQuiet i s).1 := by
  unfold sampleQuiet
  try dsimp only
  repeat' first
    | with_reducible first
      | assumption
      | refine onLoopSt_keeps K ?_
      | refine storeCurrents_keeps K ?_
      | refine keep_ite (P := P) ?_ ?_
    | exact rfl
    | split
    | (dsimp only)

theorem sampleQuiet_out {P : State → Prop} (K : Keeps [.loop] P) {i : Fin 64} {s : State} (h : P s) {o} {u : State}
    (hout : sampleQuiet i s = (u, o)) : P u := by
  have hu := sampleQuiet_keeps K h (P := P) (i := i)
  rw [hout] at hu
  exact hu


theorem presetStrong_keeps {P : State → Prop} (K : Keeps [.loop] P) {i : Fin 64} {s : State} (h : P s) :
    P (presetStrong i s) := by
  unfold presetStrong
  try dsimp only
  repeat' first
    | with_reducible first
      | assumption
      | refine onLoopSt_keeps K ?_
    | exact rfl
    | (dsimp only)


theorem sampleVel_keeps {P : State → Prop} (K : Keeps [.integ, .loop] P) {i : Fin 64} {committed : Option (Nat × Region)} {s : State} (h : P s) :
    P (sampleVel i committed s).1 := by
  have K1 := K.sub (as := [.loop]) rfl
  unfold sampleVel
  try dsimp only
  repeat' first
    | with_reducible first
      | assumption
      | refine runLoop_keeps K ?_
      | refine runLoop_out K ?_ ‹_›
      | refine onLoopSt_keeps K1 ?_
      | refine keep_ite (P := P) ?_ ?_
    | exact rfl
    | split
    | (dsimp only)

theorem sampleVel_out {P : State → Prop} (K : Keeps [.integ, .loop] P) {i : Fin 64} {committed : Option (Nat × Region)} {s : State} (h : P s) {o} {u : State}
    (hout : sampleVel i committed s = (u, o)) : P u := by
  have hu := sampleVel_keeps K h (P := P) (i := i) (committed := committed)
  rw [hout] at hu
  exact hu


theorem followingError_keeps {P : State → Prop} (K : Keeps [.pkts, .integ, .axis, .plan, .gear, .loop, .bta, .stepper, .bricks] P) {i : Fin 64} {s : State} (h : P s) :
    P (followingError i s) := by
  have K1 := K.sub (as := [.loop]) rfl
  have K2 := K.sub (as := [.axis]) rfl
  have K3 := K.sub (as := [.plan]) rfl
  unfold followingError
  try dsimp only
  repeat' first
    | with_reducible first
      | assumption
      | refine onLSlot_keeps K1 ?_
      | refine onAx_keeps K2 ?_
      | refine onPax_keeps K3 ?_
      | refine axisFault_keeps K ?_
      | refine keep_ite (P := P) ?_ ?_
    | exact rfl
    | split
    | (dsimp only)


theorem samplePos_keeps {P : State → Prop} (K : Keeps [.integ, .loop] P) {i : Fin 64} {committed : Option (Nat × Region)} {s : State} (h : P s) :
    P (samplePos i committed s).1 := by
  have K1 := K.sub (as := [.loop]) rfl
  unfold samplePos
  try dsimp only
  repeat' first
    | with_reducible first
      | assumption
      | refine runLoop_keeps K ?_
      | refine runLoop_out K ?_ ‹_›
      | refine onLoopSt_keeps K1 ?_
      | refine keep_ite (P := P) ?_ ?_
    | exact rfl
    | split
    | (dsimp only)

theorem samplePos_out {P : State → Prop} (K : Keeps [.integ, .loop] P) {i : Fin 64} {committed : Option (Nat × Region)} {s : State} (h : P s) {o} {u : State}
    (hout : samplePos i committed s = (u, o)) : P u := by
  have hu := samplePos_keeps K h (P := P) (i := i) (committed := committed)
  rw [hout] at hu
  exact hu


end Sys2Proof.Machine
end

