-- ==== Sys2Proof/Laws/KeepLoopSample.lean ====
section
/-! SUPPORT.
What each function of Machine/LoopSample.lean keeps. -/

namespace Sys2Proof.Machine

theorem setAcc_keeps {P : State → Prop} (K : Keeps [.axis] P) {i : Fin 64} {a : Int} {s : State} (h : P s) :
    P (setAcc i a s) := by
  unfold setAcc
  try dsimp only
  repeat' first
    | with_reducible first
      | assumption
      | refine onAx_keeps K ?_
    | exact rfl
    | (dsimp only)


theorem plannerSample_keeps {P : State → Prop} (K : Keeps [.axis, .bta, .bricks] P) {i : Fin 64} {s : State} (h : P s) :
    P (plannerSample i s) := by
  have K1 := K.sub (as := [.axis]) rfl
  unfold plannerSample
  try dsimp only
  repeat' first
    | with_reducible first
      | assumption
      | refine setAcc_keeps K1 ?_
      | refine setPoint_keeps K ?_
      | refine keep_ite (P := P) ?_ ?_
    | exact rfl
    | split
    | (dsimp only)


theorem feedValue_keeps {P : State → Prop} (K : Keeps [.axis, .bta, .bricks] P) {i : Fin 64} {v : Int} {rate : Bool} {s : State} (h : P s) :
    P (feedValue i v rate s) := by
  unfold feedValue
  try dsimp only
  repeat' first
    | with_reducible first
      | assumption
      | refine setPoint_keeps K ?_
      | refine setPoints_keeps K ?_
      | refine keep_ite (P := P) ?_ ?_
    | exact rfl
    | split
    | (dsimp only)


theorem analogueSample_keeps {P : State → Prop} (K : Keeps [.axis, .loop, .bta, .bricks] P) {i : Fin 64} {s : State} (h : P s) :
    P (analogueSample i s) := by
  have K1 := K.sub (as := [.loop]) rfl
  have K2 := K.sub (as := [.axis, .bta, .bricks]) rfl
  unfold analogueSample
  try dsimp only
  repeat' first
    | with_reducible first
      | assumption
      | refine onLSlot_keeps K1 ?_
      | refine feedValue_keeps K2 ?_
      | refine keep_ite (P := P) ?_ ?_
    | exact rfl
    | split
    | (dsimp only)


theorem pulseSample_keeps {P : State → Prop} (K : Keeps [.axis, .loop, .bta, .bricks] P) {i : Fin 64} {s : State} (h : P s) :
    P (pulseSample i s) := by
  have K1 := K.sub (as := [.loop]) rfl
  have K2 := K.sub (as := [.axis, .bta, .bricks]) rfl
  unfold pulseSample
  try dsimp only
  repeat' first
    | with_reducible first
      | assumption
      | refine onLSlot_keeps K1 ?_
      | refine setPoint_keeps K2 ?_
      | refine keep_ite (P := P) ?_ ?_
    | exact rfl
    | split
    | (dsimp only)


theorem pluginSample_keeps {P : State → Prop} (K : Keeps [.pkts, .integ, .axis, .plan, .gear, .loop, .bta, .stepper, .bricks, .lanes] P) {i : Fin 64} {s : State} (h : P s) :
    P (pluginSample i s) := by
  have K1 := K.sub (as := [.axis, .bta, .bricks]) rfl
  have K2 := K.sub (as := [.pkts, .integ, .axis, .plan, .gear, .loop, .bta, .stepper, .bricks]) rfl
  unfold pluginSample
  try dsimp only
  repeat' first
    | with_reducible first
      | assumption
      | refine feedValue_keeps K1 ?_
      | refine axisFault_keeps K2 ?_
      | refine K.onLanes rfl _ _ (fun _ => ?_) ?_
      | refine keep_ite (P := P) ?_ ?_
    | exact rfl
    | split
    | (dsimp only)


theorem takeSource_keeps {P : State → Prop} (K : Keeps [.axis, .plan, .loop] P) {i : Fin 64} {s : State} (h : P s) :
    P (takeSource i s) := by
  have K1 := K.sub (as := [.axis]) rfl
  have K2 := K.sub (as := [.loop]) rfl
  have K3 := K.sub (as := [.plan]) rfl
  unfold takeSource
  try dsimp only
  repeat' first
    | with_reducible first
      | assumption
      | refine onAx_keeps K1 ?_
      | refine onLSlot_keeps K2 ?_
      | refine onPax_keeps K3 ?_
    | exact rfl
    | split
    | (dsimp only)


theorem gearSkip_keeps {P : State → Prop} (K : Keeps [.integ, .axis, .plan, .gear, .bta, .bricks] P) {i : Fin 64} {s : State} (h : P s) :
    P (gearSkip i s) := by
  unfold gearSkip
  try dsimp only
  repeat' first
    | with_reducible first
      | assumption
      | refine gearSample_keeps K ?_
      | refine keep_ite (P := P) ?_ ?_
    | exact rfl
    | split
    | (dsimp only)


theorem sourceSample_keeps {P : State → Prop} (K : Keeps [.pkts, .integ, .axis, .plan, .gear, .loop, .bta, .stepper, .bricks, .lanes] P) {i : Fin 64} {s : State} (h : P s) :
    P (sourceSample i s) := by
  have K1 := K.sub (as := [.axis]) rfl
  have K2 := K.sub (as := [.axis, .plan, .loop]) rfl
  have K3 := K.sub (as := [.axis, .bta, .bricks]) rfl
  have K4 := K.sub (as := [.integ, .axis, .plan, .gear, .bta, .bricks]) rfl
  have K5 := K.sub (as := [.axis, .loop, .bta, .bricks]) rfl
  unfold sourceSample
  try dsimp only
  repeat' first
    | with_reducible first
      | assumption
      | refine setAcc_keeps K1 ?_
      | refine takeSource_keeps K2 ?_
      | refine plannerSample_keeps K3 ?_
      | refine gearSkip_keeps K4 ?_
      | refine gearSample_keeps K4 ?_
      | refine analogueSample_keeps K5 ?_
      | refine pulseSample_keeps K5 ?_
      | refine pluginSample_keeps K ?_
      | refine keep_ite (P := P) ?_ ?_
    | exact rfl
    | split
    | (dsimp only)


theorem microsteps_keeps {P : State → Prop} (K : Keeps [.stepper] P) {i : Fin 64} {s : State} (h : P s) :
    P (microsteps i s) := by
  unfold microsteps
  try dsimp only
  repeat' first
    | with_reducible first
      | assumption
      | refine onStep_keeps K ?_
      | refine keep_ite (P := P) ?_ ?_
    | exact rfl
    | split
    | (dsimp only)


theorem stepperMode_keeps {P : State → Prop} (K : Keeps [.integ, .loop, .stepper] P) {i : Fin 64} {s : State} (h : P s) :
    P (stepperMode i s) := by
  have K1 := K.sub (as := [.stepper]) rfl
  have K2 := K.sub (as := [.loop]) rfl
  have K3 := K.sub (as := [.integ]) rfl
  unfold stepperMode
  try dsimp only
  repeat' first
    | with_reducible first
      | assumption
      | refine onStep_keeps K1 ?_
      | refine presetStrong_keeps K2 ?_
      | refine event_keeps K3 ?_
      | refine keep_ite (P := P) ?_ ?_
    | exact rfl
    | split
    | (dsimp only)


theorem stepperSample_keeps {P : State → Prop} (K : Keeps [.integ, .loop, .stepper] P) {i : Fin 64} {s : State} (h : P s) :
    P (stepperSample i s) := by
  have K1 := K.sub (as := [.stepper]) rfl
  unfold stepperSample
  try dsimp only
  repeat' first
    | with_reducible first
      | assumption
      | refine microsteps_keeps K1 ?_
      | refine onStep_keeps K1 ?_
      | refine stepperMode_keeps K ?_
      | refine keep_ite (P := P) ?_ ?_
    | exact rfl
    | split
    | (dsimp only)


theorem waitingSample_keeps {P : State → Prop} (K : Keeps [.axis, .bta, .stepper, .bricks] P) {i : Fin 64} {s : State} (h : P s) :
    P (waitingSample i s) := by
  have K1 := K.sub (as := [.stepper]) rfl
  have K2 := K.sub (as := [.axis]) rfl
  have K3 := K.sub (as := [.axis, .bta, .bricks]) rfl
  unfold waitingSample
  try dsimp only
  repeat' first
    | with_reducible first
      | assumption
      | refine onStep_keeps K1 ?_
      | refine onAx_keeps K2 ?_
      | refine setPoints_keeps K3 ?_
      | refine keep_ite (P := P) ?_ ?_
    | exact rfl
    | split
    | (dsimp only)


theorem observerTakes_keeps {P : State → Prop} (K : Keeps [.axis, .plan, .loop] P) {i : Fin 64} {s : State} (h : P s) :
    P (observerTakes i s) := by
  have K1 := K.sub (as := [.loop]) rfl
  have K2 := K.sub (as := [.plan]) rfl
  have K3 := K.sub (as := [.axis]) rfl
  unfold observerTakes
  try dsimp only
  repeat' first
    | with_reducible first
      | assumption
      | refine onLSlot_keeps K1 ?_
      | refine onLoopSt_keeps K1 ?_
      | refine onPax_keeps K2 ?_
      | refine onAx_keeps K3 ?_
      | refine keep_ite (P := P) ?_ ?_
    | exact rfl
    | split
    | (dsimp only)


theorem observerTracks_keeps {P : State → Prop} (K : Keeps [.free] P) {i : Fin 64} {e : Rat × Rat} {s : State} (h : P s) :
    P (observerTracks i e s).2 := by
  unfold observerTracks
  try dsimp only
  repeat' first
    | with_reducible first
      | assumption
      | refine freshNat_keeps K ?_
      | refine freshNat_out K ?_ ‹_›
      | refine keep_ite (P := P) ?_ ?_
    | exact rfl
    | split
    | (dsimp only)

theorem observerTracks_out {P : State → Prop} (K : Keeps [.free] P) {i : Fin 64} {e : Rat × Rat} {s : State} (h : P s) {o} {u : State}
    (hout : observerTracks i e s = (o, u)) : P u := by
  have hu := observerTracks_keeps K h (P := P) (i := i) (e := e)
  rw [hout] at hu
  exact hu


theorem observerSample_keeps {P : State → Prop} (K : Keeps [.integ, .axis, .plan, .loop, .free] P) {i : Fin 64} {s : State} (h : P s) :
    P (observerSample i s) := by
  have K1 := K.sub (as := [.free]) rfl
  have K2 := K.sub (as := [.loop]) rfl
  have K3 := K.sub (as := [.axis, .plan, .loop]) rfl
  have K4 := K.sub (as := [.integ]) rfl
  unfold observerSample
  try dsimp only
  repeat' first
    | with_reducible first
      | assumption
      | refine observerTracks_keeps K1 ?_
      | refine observerTracks_out K1 ?_ ‹_›
      | refine onLSlot_keeps K2 ?_
      | refine observerTakes_keeps K3 ?_
      | refine event_keeps K4 ?_
      | refine keep_ite (P := P) ?_ ?_
    | exact rfl
    | split
    | (dsimp only)


theorem frameTurn_keeps {P : State → Prop} (K : Keeps [.loop] P) {i : Fin 64} {v : Int} {s : State} (h : P s) :
    P (frameTurn i v s) := by
  unfold frameTurn
  try dsimp only
  repeat' first
    | with_reducible first
      | assumption
      | refine onLSlot_keeps K ?_
    | exact rfl
    | (dsimp only)


theorem frameSample_keeps {P : State → Prop} (K : Keeps [.loop, .free] P) {i : Fin 64} {s : State} (h : P s) :
    P (frameSample i s) := by
  have K1 := K.sub (as := [.loop]) rfl
  have K2 := K.sub (as := [.free]) rfl
  unfold frameSample
  try dsimp only
  repeat' first
    | with_reducible first
      | assumption
      | refine frameTurn_keeps K1 ?_
      | refine onLSlot_keeps K1 ?_
      | refine freshNat_keeps K2 ?_
      | refine freshNat_out K2 ?_ ‹_›
      | refine keep_ite (P := P) ?_ ?_
    | exact rfl
    | split
    | (dsimp only)


theorem enablingSample_keeps {P : State → Prop} (K : Keeps [.pkts, .integ, .axis, .plan, .gear, .loop, .bta, .stepper, .bricks] P) {i : Fin 64} {s : State} (h : P s) :
    P (enablingSample i s) := by
  have K1 := K.sub (as := [.axis]) rfl
  have K2 := K.sub (as := [.pkts, .integ, .axis, .plan, .loop, .stepper]) rfl
  unfold enablingSample
  try dsimp only
  repeat' first
    | with_reducible first
      | assumption
      | refine onAx_keeps K1 ?_
      | refine slotEnabled_keeps K2 ?_
      | refine axisFault_keeps K ?_
      | refine keep_ite (P := P) ?_ ?_
    | exact rfl
    | split
    | (dsimp only)


theorem remoteZero_keeps {P : State → Prop} (K : Keeps [.integ, .axis, .plan, .loop, .stepper] P) {i : Fin 64} {s : State} (h : P s) :
    P (remoteZero i s) := by
  unfold remoteZero
  try dsimp only
  repeat' first
    | with_reducible first
      | assumption
      | refine overrideReleased_keeps K ?_
      | refine keep_ite (P := P) ?_ ?_
    | exact rfl
    | split
    | (dsimp only)


theorem measureSample_keeps {P : State → Prop} (K : Keeps [.axis] P) {i : Fin 64} {s : State} (h : P s) :
    P (measureSample i s) := by
  unfold measureSample
  try dsimp only
  repeat' first
    | with_reducible first
      | assumption
      | refine onAx_keeps K ?_
    | exact rfl
    | (dsimp only)


theorem rampWatch_keeps {P : State → Prop} (K : Keeps [.axis, .loop] P) {i : Fin 64} {s : State} (h : P s) :
    P (rampWatch i s) := by
  have K1 := K.sub (as := [.axis]) rfl
  have K2 := K.sub (as := [.loop]) rfl
  unfold rampWatch
  try dsimp only
  repeat' first
    | with_reducible first
      | assumption
      | refine onAx_keeps K1 ?_
      | refine onLSlot_keeps K2 ?_
      | refine keep_ite (P := P) ?_ ?_
    | exact rfl
    | split
    | (dsimp only)


theorem rampDown_keeps {P : State → Prop} (K : Keeps [.axis] P) {i : Fin 64} {s : State} (h : P s) :
    P (rampDown i s) := by
  unfold rampDown
  try dsimp only
  repeat' first
    | with_reducible first
      | assumption
      | refine onAx_keeps K ?_
      | refine keep_ite (P := P) ?_ ?_
    | exact rfl
    | split
    | (dsimp only)


theorem rampSample_keeps {P : State → Prop} (K : Keeps [.axis, .loop] P) {i : Fin 64} {s : State} (h : P s) :
    P (rampSample i s) := by
  have K1 := K.sub (as := [.axis]) rfl
  unfold rampSample
  try dsimp only
  repeat' first
    | with_reducible first
      | assumption
      | refine rampWatch_keeps K ?_
      | refine rampDown_keeps K1 ?_
      | refine keep_ite (P := P) ?_ ?_
    | exact rfl
    | split
    | (dsimp only)


theorem innerSample_keeps {P : State → Prop} (K : Keeps [.pkts, .integ, .axis, .plan, .gear, .loop, .bta, .stepper, .bricks, .free] P) {i : Fin 64} {s : State} (h : P s) :
    P (innerSample i s) := by
  have K1 := K.sub (as := [.integ, .axis, .plan, .loop, .free]) rfl
  have K2 := K.sub (as := [.axis]) rfl
  have K3 := K.sub (as := [.integ, .axis, .plan, .loop, .stepper]) rfl
  have K4 := K.sub (as := [.loop]) rfl
  have K5 := K.sub (as := [.pkts, .integ, .axis, .plan, .gear, .loop, .bta, .stepper, .bricks]) rfl
  have K6 := K.sub (as := [.loop, .free]) rfl
  have K7 := K.sub (as := [.axis, .loop]) rfl
  have K8 := K.sub (as := [.axis, .bta, .stepper, .bricks]) rfl
  have K9 := K.sub (as := [.integ, .loop, .stepper]) rfl
  unfold innerSample
  try dsimp only
  repeat' first
    | with_reducible first
      | assumption
      | refine observerSample_keeps K1 ?_
      | refine measureSample_keeps K2 ?_
      | refine remoteZero_keeps K3 ?_
      | refine onLSlot_keeps K4 ?_
      | refine enablingSample_keeps K5 ?_
      | refine frameSample_keeps K6 ?_
      | refine rampSample_keeps K7 ?_
      | refine waitingSample_keeps K8 ?_
      | refine stepperSample_keeps K9 ?_
      | refine keep_ite (P := P) ?_ ?_
    | exact rfl
    | split
    | (dsimp only)


theorem runSample_keeps {P : State → Prop} (K : Keeps [.integ, .axis, .loop] P) {i : Fin 64} {k : Fin 3} {committed : Option (Nat × Region)} {s : State} (h : P s) :
    P (runSample i k committed s) := by
  have K1 := K.sub (as := [.integ, .loop]) rfl
  have K2 := K.sub (as := [.loop]) rfl
  have K3 := K.sub (as := [.axis]) rfl
  unfold runSample
  try dsimp only
  repeat' first
    | with_reducible first
      | assumption
      | refine sampleThree_keeps K1 ?_
      | refine sampleThree_out K1 ?_ ‹_›
      | refine sampleStrong_keeps K1 ?_
      | refine sampleStrong_out K1 ?_ ‹_›
      | refine sampleQuiet_keeps K2 ?_
      | refine sampleQuiet_out K2 ?_ ‹_›
      | refine sampleSingle_keeps K1 ?_
      | refine sampleSingle_out K1 ?_ ‹_›
      | refine sampleVel_keeps K1 ?_
      | refine sampleVel_out K1 ?_ ‹_›
      | refine rampDown_keeps K3 ?_
      | refine samplePos_keeps K1 ?_
      | refine samplePos_out K1 ?_ ‹_›
      | refine onLoopSt_keeps K2 ?_
      | refine keep_ite (P := P) ?_ ?_
    | exact rfl
    | split
    | (dsimp only)


theorem saturation_keeps {P : State → Prop} (K : Keeps [.axis] P) {i : Fin 64} {s : State} (h : P s) :
    P (saturation i s) := by
  unfold saturation
  try dsimp only
  repeat' first
    | with_reducible first
      | assumption
      | refine onAx_keeps K ?_
    | exact rfl
    | (dsimp only)


theorem portsSample_keeps {P : State → Prop} (K : Keeps [.axis, .ports] P) {i : Fin 64} {k : Fin 3} {m : AxisMode} {s : State} (h : P s) :
    P (portsSample i k m s) := by
  have K1 := K.sub (as := [.ports]) rfl
  have K2 := K.sub (as := [.axis]) rfl
  unfold portsSample
  try dsimp only
  repeat' first
    | with_reducible first
      | assumption
      | refine evalSpeed_keeps K1 ?_
      | refine onAx_keeps K2 ?_
      | refine keep_ite (P := P) ?_ ?_
      | refine keep_foldl (P := P) (fun _ _ _ => ?_) ?_
    | exact rfl
    | split
    | (dsimp only)


theorem sourceOnce_keeps {P : State → Prop} (K : Keeps [.pkts, .integ, .axis, .plan, .gear, .loop, .bta, .stepper, .bricks, .lanes] P) {i : Fin 64} {s : State} (h : P s) :
    P (sourceOnce i s) := by
  have K1 := K.sub (as := [.axis]) rfl
  have K2 := K.sub (as := [.integ, .axis, .plan, .gear, .bta, .bricks]) rfl
  unfold sourceOnce
  try dsimp only
  repeat' first
    | with_reducible first
      | assumption
      | refine onAx_keeps K1 ?_
      | refine sourceSample_keeps K ?_
      | refine gearSkip_keeps K2 ?_
      | refine keep_ite (P := P) ?_ ?_
    | exact rfl
    | split
    | (dsimp only)


theorem sourceChain_keeps {P : State → Prop} (K : Keeps [.pkts, .integ, .axis, .plan, .gear, .loop, .bta, .stepper, .bricks, .lanes] P) {n : Nat} {i : Fin 64} {s : State} (h : P s) :
    P (sourceChain n i s) := by
  induction n generalizing i s with
  | zero => exact sourceOnce_keeps (K.sub rfl) h
  | succ n ih => exact sourceOnce_keeps (K.sub rfl) (keep_ite (P := P) (ih h) h)


theorem loopIdle_keeps {P : State → Prop} (K : Keeps [.loop] P) {i : Fin 64} {k : Fin 3} {s : State} (h : P s) :
    P (loopIdle i k s) := by
  unfold loopIdle
  try dsimp only
  repeat' first
    | with_reducible first
      | assumption
      | refine onLSlot_keeps K ?_
      | refine keep_ite (P := P) ?_ ?_
    | exact rfl
    | split
    | (dsimp only)


theorem loopSample_keeps {P : State → Prop} (K : Keeps [.sys, .pkts, .integ, .axis, .plan, .gear, .loop, .ports, .bta, .stepper, .bricks, .lanes, .free] P) {i : Fin 64} {k : Fin 3} {s : State} (h : P s) :
    P (loopSample i k s) := by
  have K1 := K.sub (as := [.loop]) rfl
  have K2 := K.sub (as := [.integ, .lanes]) rfl
  have K3 := K.sub (as := [.pkts, .integ, .loop]) rfl
  have K4 := K.sub (as := [.axis, .ports]) rfl
  have K5 := K.sub (as := [.sys, .loop]) rfl
  have K6 := K.sub (as := [.pkts, .integ, .axis, .plan, .gear, .loop, .bta, .stepper, .bricks]) rfl
  have K7 := K.sub (as := [.pkts, .integ, .axis, .plan, .gear, .loop, .bta, .stepper, .bricks, .free]) rfl
  have K8 := K.sub (as := [.pkts, .integ, .axis, .plan, .gear, .loop, .bta, .stepper, .bricks, .lanes]) rfl
  have K9 := K.sub (as := [.axis]) rfl
  have K10 := K.sub (as := [.integ, .axis, .loop]) rfl
  unfold loopSample
  try dsimp only
  repeat' first
    | with_reducible first
      | assumption
      | refine onLoopSt_keeps K1 ?_
      | refine occurs_keeps K2 ?_
      | refine commitLoad_keeps K3 ?_
      | refine commitLoad_out K3 ?_ ‹_›
      | refine portsSample_keeps K4 ?_
      | refine takeLock_keeps K5 ?_
      | refine axisFault_keeps K6 ?_
      | refine innerSample_keeps K7 ?_
      | refine sourceChain_keeps K8 ?_
      | refine followingError_keeps K6 ?_
      | refine saturation_keeps K9 ?_
      | refine runSample_keeps K10 ?_
      | refine loopIdle_keeps K1 ?_
      | refine keep_ite (P := P) ?_ ?_
    | exact rfl
    | split
    | (dsimp only)


theorem writeLoopDuty_keeps {P : State → Prop} (K : Keeps [.bta] P) {n : Fin 96} {d : Int} {sg : Int} {dtc : Nat} {s : State} (h : P s) :
    P (writeLoopDuty n d sg dtc s) := by
  unfold writeLoopDuty
  try dsimp only
  repeat' first
    | with_reducible first
      | assumption
      | refine onLeg_keeps K ?_
      | refine onGrp_keeps K ?_
    | exact rfl
    | (dsimp only)


theorem releaseLegs_keeps {P : State → Prop} (K : Keeps [.integ, .bta] P) {i : Fin 64} {r : List Int} {s : State} (h : P s) :
    P (releaseLegs i r s) := by
  have K1 := K.sub (as := [.bta]) rfl
  unfold releaseLegs
  try dsimp only
  repeat' first
    | with_reducible first
      | assumption
      | refine onLeg_keeps K1 ?_
      | refine writeLoopDuty_keeps K1 ?_
      | refine refreshLeg_keeps K1 ?_
      | refine sealGroup_keeps K ?_
      | refine keep_ite (P := P) ?_ ?_
      | refine keep_foldl (P := P) (fun _ _ _ => ?_) ?_
    | exact rfl
    | split
    | (dsimp only)


theorem releaseBrick_keeps {P : State → Prop} (K : Keeps [.bricks] P) {i : Fin 64} {r : List Int} {s : State} (h : P s) :
    P (releaseBrick i r s) := by
  unfold releaseBrick
  try dsimp only
  repeat' first
    | with_reducible first
      | assumption
      | refine onChannel_keeps K ?_
      | refine keep_ite (P := P) ?_ ?_
      | refine keep_foldl (P := P) (fun _ _ _ => ?_) ?_
    | exact rfl
    | split
    | (dsimp only)


theorem latePath_keeps {P : State → Prop} (K : Keeps [.pkts, .integ, .axis, .plan, .gear, .loop, .bta, .stepper, .bricks] P) {i : Fin 64} {k : Fin 3} {s : State} (h : P s) :
    P (latePath i k s) := by
  have K1 := K.sub (as := [.loop]) rfl
  have K2 := K.sub (as := [.integ]) rfl
  have K3 := K.sub (as := [.bricks]) rfl
  unfold latePath
  try dsimp only
  repeat' first
    | with_reducible first
      | assumption
      | refine onLoopSt_keeps K1 ?_
      | refine event_keeps K2 ?_
      | refine onChannel_keeps K3 ?_
      | refine axisFault_keeps K ?_
      | refine keep_ite (P := P) ?_ ?_
    | exact rfl
    | split
    | (dsimp only)


theorem releaseLoop_keeps {P : State → Prop} (K : Keeps [.pkts, .integ, .axis, .plan, .gear, .loop, .bta, .stepper, .bricks, .lanes] P) {i : Fin 64} {k : Fin 3} {s0 : State} (h : P s0) :
    P (releaseLoop i k s0) := by
  have K1 := K.sub (as := [.integ, .lanes]) rfl
  have K2 := K.sub (as := [.loop]) rfl
  have K3 := K.sub (as := [.bricks]) rfl
  have K4 := K.sub (as := [.integ, .bta]) rfl
  have K5 := K.sub (as := [.pkts, .integ, .axis, .plan, .gear, .loop, .bta, .stepper, .bricks]) rfl
  unfold releaseLoop
  try dsimp only
  repeat' first
    | with_reducible first
      | assumption
      | refine occurs_keeps K1 ?_
      | refine onLoopSt_keeps K2 ?_
      | refine onLSlot_keeps K2 ?_
      | refine releaseBrick_keeps K3 ?_
      | refine releaseLegs_keeps K4 ?_
      | refine latePath_keeps K5 ?_
      | refine keep_ite (P := P) ?_ ?_
    | exact rfl
    | split
    | (dsimp only)


theorem loopRelease_keeps {P : State → Prop} (K : Keeps [.pkts, .integ, .axis, .plan, .gear, .loop, .bta, .stepper, .bricks, .lanes] P) {i : Fin 64} {k : Fin 3} {s : State} (h : P s) :
    P (loopRelease i k s) := by
  unfold loopRelease
  try dsimp only
  repeat' first
    | with_reducible first
      | assumption
      | refine releaseLoop_keeps K ?_
      | refine keep_ite (P := P) ?_ ?_
    | exact rfl
    | split
    | (dsimp only)


theorem resultReady_keeps {P : State → Prop} (K : Keeps [.pkts, .integ, .axis, .plan, .gear, .loop, .bta, .stepper, .bricks] P) {i : Fin 64} {k : Fin 3} {s : State} (h : P s) :
    P (resultReady i k s) := by
  have K1 := K.sub (as := [.loop]) rfl
  unfold resultReady
  try dsimp only
  repeat' first
    | with_reducible first
      | assumption
      | refine onLoopSt_keeps K1 ?_
      | refine latePath_keeps K ?_
      | refine keep_ite (P := P) ?_ ?_
    | exact rfl
    | split
    | (dsimp only)


end Sys2Proof.Machine
end

