-- ==== Sys2Proof/Laws/KeepBricks.lean ====
section
/-! SUPPORT.
What each function of Machine/Bricks.lean keeps. -/

namespace Sys2Proof.Machine

theorem onBrick_keeps {P : State → Prop} (K : Keeps [.bricks] P) {b : Fin 64} {f : Brick → Brick} {s : State} (h : P s) :
    P (onBrick b f s) := by
  unfold onBrick
  try dsimp only
  repeat' first
    | with_reducible first
      | assumption
      | refine K.onBricks rfl _ _ ?_
    | exact rfl
    | (dsimp only)


theorem brickLoss_keeps {P : State → Prop} (K : Keeps [.pkts, .integ, .axis, .plan, .gear, .loop, .bta, .stepper, .bricks] P) {b : Fin 64} {reason : Nat} {s : State} (h : P s) :
    P (brickLoss b reason s) := by
  have K1 := K.sub (as := [.integ]) rfl
  have K2 := K.sub (as := [.bricks]) rfl
  unfold brickLoss
  try dsimp only
  repeat' first
    | with_reducible first
      | assumption
      | refine axisFaults_keeps K ?_
      | refine event_keeps K1 ?_
      | refine onChannel_keeps K2 ?_
      | refine keep_foldl (P := P) (fun _ _ _ => ?_) ?_
    | exact rfl
    | (dsimp only)


theorem recordSlots_keeps {P : State → Prop} (K : Keeps [.axis] P) {b : Fin 64} {s : State} (h : P s) :
    P (recordSlots b s) := by
  unfold recordSlots
  try dsimp only
  repeat' first
    | with_reducible first
      | assumption
      | refine onAx_keeps K ?_
      | refine keep_foldl (P := P) (fun _ _ _ => ?_) ?_
    | exact rfl
    | (dsimp only)


theorem draymanInbound_keeps {P : State → Prop} (K : Keeps [.pkts, .integ, .axis, .plan, .gear, .loop, .bta, .stepper, .bricks] P) {port : Fin 4} {mac : BitVec 48} {p : List Sys2Proof.Byte} {s : State} (h : P s) :
    P (draymanInbound port mac p s) := by
  have K1 := K.sub (as := [.bricks]) rfl
  have K2 := K.sub (as := [.axis]) rfl
  have K3 := K.sub (as := [.stepper]) rfl
  unfold draymanInbound
  try dsimp only
  repeat' first
    | with_reducible first
      | assumption
      | refine onBrick_keeps K1 ?_
      | refine recordSlots_keeps K2 ?_
      | refine onStep_keeps K3 ?_
      | refine brickLoss_keeps K ?_
      | refine keep_ite (P := P) ?_ ?_
      | refine keep_foldl (P := P) (fun _ _ _ => ?_) ?_
    | exact rfl
    | split
    | (dsimp only)


theorem groupToken_keeps {P : State → Prop} (K : Keeps [.integ, .lanes] P) {b : Fin 64} {old : State} {s : State} (h : P s) :
    P (groupToken b old s) := by
  unfold groupToken
  try dsimp only
  repeat' first
    | with_reducible first
      | assumption
      | refine occurs_keeps K ?_
      | refine keep_ite (P := P) ?_ ?_
    | exact rfl
    | split
    | (dsimp only)


theorem execDraymanInbound_keeps {P : State → Prop} (K : Keeps [.pkts, .integ, .axis, .plan, .gear, .loop, .bta, .stepper, .bricks, .lanes] P) {port : Fin 4} {mac : BitVec 48} {payload : List Sys2Proof.Byte} {s : State} (h : P s) :
    NextKeeps P (execDraymanInbound port mac payload s) := by
  have K1 := K.sub (as := [.integ, .lanes]) rfl
  have K2 := K.sub (as := [.pkts, .integ, .axis, .plan, .gear, .loop, .bta, .stepper, .bricks]) rfl
  unfold execDraymanInbound
  try dsimp only
  repeat' first
    | with_reducible first
      | assumption
      | refine keep_next ?_
      | refine keep_ite_next ?_ ?_
      | refine groupToken_keeps K1 ?_
      | refine draymanInbound_keeps K2 ?_
      | refine keep_ite (P := P) ?_ ?_
    | exact rfl
    | split
    | (dsimp only)


theorem recordMissed_keeps {P : State → Prop} (K : Keeps [.pkts, .integ, .axis, .plan, .gear, .loop, .bta, .stepper, .bricks] P) {b : Fin 64} {ts : Nat} {s : State} (h : P s) :
    P (recordMissed b ts s) := by
  have K1 := K.sub (as := [.bricks]) rfl
  have K2 := K.sub (as := [.axis]) rfl
  unfold recordMissed
  try dsimp only
  repeat' first
    | with_reducible first
      | assumption
      | refine onBrick_keeps K1 ?_
      | refine onAx_keeps K2 ?_
      | refine axisFault_keeps K ?_
      | refine brickLoss_keeps K ?_
      | refine keep_ite (P := P) ?_ ?_
      | refine keep_foldl (P := P) (fun _ _ _ => ?_) ?_
    | exact rfl
    | split
    | (dsimp only)


theorem execBrickRecordDeadline_keeps {P : State → Prop} (K : Keeps [.pkts, .integ, .axis, .plan, .gear, .loop, .bta, .stepper, .bricks, .lanes] P) {brick : Fin 64} {s : State} (h : P s) :
    NextKeeps P (execBrickRecordDeadline brick s) := by
  have K1 := K.sub (as := [.integ, .lanes]) rfl
  have K2 := K.sub (as := [.pkts, .integ, .axis, .plan, .gear, .loop, .bta, .stepper, .bricks]) rfl
  unfold execBrickRecordDeadline
  try dsimp only
  repeat' first
    | with_reducible first
      | assumption
      | refine keep_next ?_
      | refine keep_ite_next ?_ ?_
      | refine groupToken_keeps K1 ?_
      | refine recordMissed_keeps K2 ?_
      | refine keep_ite (P := P) ?_ ?_
    | exact rfl
    | split
    | (dsimp only)


theorem sendDrayman_keeps {P : State → Prop} (K : Keeps [.net] P) {f : Fin 16} {port : Nat} {p : List Sys2Proof.Byte} {s : State} (h : P s) :
    P (sendDrayman f port p s) := by
  unfold sendDrayman
  try dsimp only
  repeat' first
    | with_reducible first
      | assumption
      | refine originate_keeps K ?_
      | refine keep_ite (P := P) ?_ ?_
    | exact rfl
    | split
    | (dsimp only)


theorem execDraymanLaunch_keeps {P : State → Prop} (K : Keeps [.pkts, .integ, .axis, .plan, .gear, .loop, .bta, .stepper, .bricks, .net, .lanes] P) {group : Fin 16} {s0 : State} (h : P s0) :
    NextKeeps P (execDraymanLaunch group s0) := by
  have K1 := K.sub (as := [.pkts, .integ, .axis, .plan, .gear, .loop, .bta, .stepper, .bricks, .lanes]) rfl
  have K2 := K.sub (as := [.net]) rfl
  unfold execDraymanLaunch
  try dsimp only
  repeat' first
    | with_reducible first
      | assumption
      | refine keep_next ?_
      | refine keep_ite_next ?_ ?_
      | refine releaseLoop_keeps K1 ?_
      | refine sendDrayman_keeps K2 ?_
      | refine K.onBricks rfl _ _ ?_
      | refine keep_ite (P := P) ?_ ?_
      | refine keep_foldl (P := P) (fun _ _ _ => ?_) ?_
    | exact rfl
    | split
    | (dsimp only)


theorem execStoFrame_keeps {P : State → Prop} (K : Keeps [.bricks, .net, .free] P) {s : State} (h : P s) :
    NextKeeps P (execStoFrame s) := by
  have K1 := K.sub (as := [.net]) rfl
  have K2 := K.sub (as := [.free]) rfl
  unfold execStoFrame
  try dsimp only
  repeat' first
    | with_reducible first
      | assumption
      | refine keep_next ?_
      | refine keep_ite_next ?_ ?_
      | refine sendDrayman_keeps K1 ?_
      | refine fresh_keeps K2 ?_
      | refine fresh_out K2 ?_ ‹_›
      | refine K.onBricks rfl _ _ ?_
      | refine keep_ite (P := P) ?_ ?_
      | refine keep_foldl (P := P) (fun _ _ _ => ?_) ?_
    | exact rfl
    | split
    | (dsimp only)


theorem opBrickRegister_keeps {P : State → Prop} (K : Keeps [.power, .loop, .bta, .bricks] P) {rq : Request} {s : State} (h : P s) :
    Answer.Keeps P (opBrickRegister.effect rq s) := by
  have K1 := K.sub (as := [.power, .loop, .bta]) rfl
  have K2 := K.sub (as := [.bricks]) rfl
  unfold opBrickRegister
  try dsimp only
  repeat' first
    | with_reducible first
      | assumption
      | refine reselect_keeps K1 ?_
      | refine onBrick_keeps K2 ?_
      | refine keep_ite (P := P) ?_ ?_
      | refine keep_ite_answer ?_ ?_
      | exact keep_deny
      | refine keep_done ?_
      | refine keep_fail ?_
      | refine keep_wait ?_
    | exact rfl
    | split
    | (dsimp only)


theorem execBrickRegister_keeps {P : State → Prop} (K : Keeps [.power, .pkts, .integ, .loop, .bta, .bricks, .free] P) {rq : Sys2Proof.Request} {s : State} (h : P s) :
    NextKeeps P (execBrickRegister rq s) := by
  have K1 := K.sub (as := [.pkts, .integ, .free]) rfl
  have K2 := K.sub (as := [.power, .loop, .bta, .bricks]) rfl
  unfold execBrickRegister
  try dsimp only
  repeat' first
    | with_reducible first
      | assumption
      | refine keep_next ?_
      | refine runCommand_keeps K1 ?_ ?_
      | refine opBrickRegister_keeps K2 ?_
    | exact rfl
    | split
    | (dsimp only)


theorem opFrameGroupConfig_keeps {P : State → Prop} (K : Keeps [.power, .loop, .bta, .bricks] P) {rq : Request} {s : State} (h : P s) :
    Answer.Keeps P (opFrameGroupConfig.effect rq s) := by
  have K1 := K.sub (as := [.power, .loop, .bta]) rfl
  unfold opFrameGroupConfig
  try dsimp only
  repeat' first
    | with_reducible first
      | assumption
      | refine reselect_keeps K1 ?_
      | refine K.onBricks rfl _ _ ?_
      | exact keep_deny
      | refine keep_done ?_
      | refine keep_fail ?_
      | refine keep_wait ?_
    | exact rfl
    | split
    | (dsimp only)


theorem execFrameGroupConfig_keeps {P : State → Prop} (K : Keeps [.power, .pkts, .integ, .loop, .bta, .bricks, .free] P) {rq : Sys2Proof.Request} {s : State} (h : P s) :
    NextKeeps P (execFrameGroupConfig rq s) := by
  have K1 := K.sub (as := [.pkts, .integ, .free]) rfl
  have K2 := K.sub (as := [.power, .loop, .bta, .bricks]) rfl
  unfold execFrameGroupConfig
  try dsimp only
  repeat' first
    | with_reducible first
      | assumption
      | refine keep_next ?_
      | refine runCommand_keeps K1 ?_ ?_
      | refine opFrameGroupConfig_keeps K2 ?_
    | exact rfl
    | split
    | (dsimp only)


theorem opBrickStatus_keeps {P : State → Prop} (K : Keeps [] P) {rq : Request} {s : State} (h : P s) :
    Answer.Keeps P (opBrickStatus.effect rq s) := by
  have _ := K
  unfold opBrickStatus
  try dsimp only
  repeat' first
    | with_reducible first
      | assumption
      | exact keep_deny
      | refine keep_done ?_
      | refine keep_fail ?_
      | refine keep_wait ?_
    | exact rfl
    | (dsimp only)


theorem execBrickStatus_keeps {P : State → Prop} (K : Keeps [.pkts, .integ, .free] P) {rq : Sys2Proof.Request} {s : State} (h : P s) :
    NextKeeps P (execBrickStatus rq s) := by
  have K1 := K.sub (as := []) rfl
  unfold execBrickStatus
  try dsimp only
  repeat' first
    | with_reducible first
      | assumption
      | refine keep_next ?_
      | refine runCommand_keeps K ?_ ?_
      | refine opBrickStatus_keeps K1 ?_
    | exact rfl
    | split
    | (dsimp only)


end Sys2Proof.Machine
end

