-- ==== Sys2Proof/Laws/KeepCan.lean ====
section
/-! SUPPORT.
What each function of Machine/Can.lean keeps. -/

namespace Sys2Proof.Machine

theorem fifoPut_keeps {P : State → Prop} (K : Keeps [.integ, .can, .lanes] P) {c : Fin 4} {k : Fin 2} {r : CanRx} {s : State} (h : P s) :
    P (fifoPut c k r s) := by
  have K1 := K.sub (as := [.integ]) rfl
  have K2 := K.sub (as := [.can]) rfl
  have K3 := K.sub (as := [.integ, .lanes]) rfl
  unfold fifoPut
  try dsimp only
  repeat' first
    | with_reducible first
      | assumption
      | refine event_keeps K1 ?_
      | refine onCtl_keeps K2 ?_
      | refine occurs_keeps K3 ?_
      | refine keep_ite (P := P) ?_ ?_
    | exact rfl
    | split
    | (dsimp only)


theorem fileFrame_keeps {P : State → Prop} (K : Keeps [.integ, .can, .lanes] P) {c : Fin 4} {sof : Nat} {f : Sys2Proof.CanFrame} {esi : Bool} {s : State} (h : P s) :
    P (fileFrame c sof f esi s) := by
  have K1 := K.sub (as := [.integ]) rfl
  have K2 := K.sub (as := [.can]) rfl
  unfold fileFrame
  try dsimp only
  repeat' first
    | with_reducible first
      | assumption
      | refine fifoPut_keeps K ?_
      | refine event_keeps K1 ?_
      | refine onCtl_keeps K2 ?_
      | refine keep_ite (P := P) ?_ ?_
    | exact rfl
    | split
    | (dsimp only)


theorem detectGood_keeps {P : State → Prop} (K : Keeps [.integ, .can] P) {c : Fin 4} {s : State} (h : P s) :
    P (detectGood c s) := by
  have K1 := K.sub (as := [.can]) rfl
  have K2 := K.sub (as := [.integ]) rfl
  unfold detectGood
  try dsimp only
  repeat' first
    | with_reducible first
      | assumption
      | refine onCtl_keeps K1 ?_
      | refine event_keeps K2 ?_
      | refine keep_ite (P := P) ?_ ?_
    | exact rfl
    | split
    | (dsimp only)


theorem slaveCycle_keeps {P : State → Prop} (K : Keeps [.can] P) {c : Fin 4} {sof : Nat} {f : Sys2Proof.CanFrame} {s : State} (h : P s) :
    P (slaveCycle c sof f s) := by
  unfold slaveCycle
  try dsimp only
  repeat' first
    | with_reducible first
      | assumption
      | refine onCtl_keeps K ?_
      | refine keep_ite (P := P) ?_ ?_
    | exact rfl
    | split
    | (dsimp only)


theorem execCanFrameReceived_keeps {P : State → Prop} (K : Keeps [.integ, .can, .lanes, .free] P) {ctl : Fin 4} {frame : Sys2Proof.CanFrame} {esi : Bool} {age : Nat} {s : State} (h : P s) :
    NextKeeps P (execCanFrameReceived ctl frame esi age s) := by
  have K1 := K.sub (as := [.can]) rfl
  have K2 := K.sub (as := [.integ, .can, .lanes]) rfl
  have K3 := K.sub (as := [.integ, .can]) rfl
  have K4 := K.sub (as := [.free]) rfl
  unfold execCanFrameReceived
  try dsimp only
  repeat' first
    | with_reducible first
      | assumption
      | refine keep_next ?_
      | refine keep_ite_next ?_ ?_
      | refine onCtl_keeps K1 ?_
      | refine slaveCycle_keeps K1 ?_
      | refine fileFrame_keeps K2 ?_
      | refine detectGood_keeps K3 ?_
      | refine freshNat_keeps K4 ?_
      | refine freshNat_out K4 ?_ ‹_›
      | refine busState_keeps K3 ?_
      | refine trySend_keeps K1 ?_
      | refine keep_ite (P := P) ?_ ?_
    | exact rfl
    | split
    | (dsimp only)


theorem execCanTxComplete_keeps {P : State → Prop} (K : Keeps [.pkts, .integ, .can] P) {ctl : Fin 4} {delay : BitVec 8} {s : State} (h : P s) :
    NextKeeps P (execCanTxComplete ctl delay s) := by
  have K1 := K.sub (as := [.can]) rfl
  have K2 := K.sub (as := [.pkts, .can]) rfl
  have K3 := K.sub (as := [.integ, .can]) rfl
  unfold execCanTxComplete
  try dsimp only
  repeat' first
    | with_reducible first
      | assumption
      | refine keep_next ?_
      | refine keep_ite_next ?_ ?_
      | refine onCtl_keeps K1 ?_
      | refine busFree_keeps K2 ?_
      | refine busState_keeps K3 ?_
      | refine keep_ite (P := P) ?_ ?_
    | exact rfl
    | split
    | (dsimp only)


theorem execArbitrationLost_keeps {P : State → Prop} (K : Keeps [.pkts, .integ, .can] P) {ctl : Fin 4} {s : State} (h : P s) :
    NextKeeps P (execArbitrationLost ctl s) := by
  unfold execArbitrationLost
  try dsimp only
  repeat' first
    | with_reducible first
      | assumption
      | refine keep_next ?_
      | refine keep_ite_next ?_ ?_
      | refine sendFailed_keeps K ?_
      | refine keep_ite (P := P) ?_ ?_
    | exact rfl
    | split
    | (dsimp only)


theorem collide_keeps {P : State → Prop} (K : Keeps [.integ, .can] P) {c : Fin 4} {r : Collision} {s : State} (h : P s) :
    P (collide c r s) := by
  have K1 := K.sub (as := [.integ]) rfl
  have K2 := K.sub (as := [.can]) rfl
  unfold collide
  try dsimp only
  repeat' first
    | with_reducible first
      | assumption
      | refine event_keeps K1 ?_
      | refine onCtl_keeps K2 ?_
      | refine keep_ite (P := P) ?_ ?_
    | exact rfl
    | split
    | (dsimp only)


theorem execCanBusError_keeps {P : State → Prop} (K : Keeps [.pkts, .integ, .can] P) {ctl : Fin 4} {counted : Bool} {severe : Bool} {hit : Option (Fin 3 × BitVec 16 × BitVec 8 × List Sys2Proof.Byte)} {s : State} (h : P s) :
    NextKeeps P (execCanBusError ctl counted severe hit s) := by
  have K1 := K.sub (as := [.can]) rfl
  have K2 := K.sub (as := [.integ, .can]) rfl
  unfold execCanBusError
  try dsimp only
  repeat' first
    | with_reducible first
      | assumption
      | refine keep_next ?_
      | refine keep_ite_next ?_ ?_
      | refine onCtl_keeps K1 ?_
      | refine busState_keeps K2 ?_
      | refine collide_keeps K2 ?_
      | refine sendFailed_keeps K ?_
      | refine keep_ite (P := P) ?_ ?_
    | exact rfl
    | split
    | (dsimp only)


theorem execCanBusOffRecovery_keeps {P : State → Prop} (K : Keeps [.can] P) {ctl : Fin 4} {s : State} (h : P s) :
    NextKeeps P (execCanBusOffRecovery ctl s) := by
  unfold execCanBusOffRecovery
  try dsimp only
  repeat' first
    | with_reducible first
      | assumption
      | refine keep_next ?_
      | refine keep_ite_next ?_ ?_
      | refine trySend_keeps K ?_
      | refine onCtl_keeps K ?_
      | refine keep_ite (P := P) ?_ ?_
    | exact rfl
    | split
    | (dsimp only)


theorem missMany_keeps {P : State → Prop} (K : Keeps [.integ, .can] P) {c : Fin 4} {n : Nat} {s : State} (h : P s) :
    P (missMany c n s) := by
  unfold missMany
  try dsimp only
  repeat' first
    | with_reducible first
      | assumption
      | refine ttMissed_keeps K ?_
      | refine keep_foldl (P := P) (fun _ _ _ => ?_) ?_
    | exact rfl
    | (dsimp only)


theorem execCanCycleStart_keeps {P : State → Prop} (K : Keeps [.integ, .can] P) {ctl : Fin 4} {idle : Bool} {s : State} (h : P s) :
    NextKeeps P (execCanCycleStart ctl idle s) := by
  have K1 := K.sub (as := [.can]) rfl
  unfold execCanCycleStart
  try dsimp only
  repeat' first
    | with_reducible first
      | assumption
      | refine keep_next ?_
      | refine keep_ite_next ?_ ?_
      | refine onCtl_keeps K1 ?_
      | refine missMany_keeps K ?_
      | refine startWindow_keeps K ?_
      | refine keep_ite (P := P) ?_ ?_
    | exact rfl
    | split
    | (dsimp only)


theorem execCanBufferFreeze_keeps {P : State → Prop} (K : Keeps [.can] P) {ctl : Fin 4} {s : State} (h : P s) :
    NextKeeps P (execCanBufferFreeze ctl s) := by
  unfold execCanBufferFreeze
  try dsimp only
  repeat' first
    | with_reducible first
      | assumption
      | refine keep_next ?_
      | refine freezeBuffer_keeps K ?_
    | exact rfl
    | split
    | (dsimp only)


theorem execCanWindowStart_keeps {P : State → Prop} (K : Keeps [.integ, .can] P) {ctl : Fin 4} {idle : Bool} {s : State} (h : P s) :
    NextKeeps P (execCanWindowStart ctl idle s) := by
  unfold execCanWindowStart
  try dsimp only
  repeat' first
    | with_reducible first
      | assumption
      | refine keep_next ?_
      | refine keep_ite_next ?_ ?_
      | refine startWindow_keeps K ?_
      | refine keep_ite (P := P) ?_ ?_
    | exact rfl
    | split
    | (dsimp only)


theorem execRefLost_keeps {P : State → Prop} (K : Keeps [.integ, .can] P) {ctl : Fin 4} {s : State} (h : P s) :
    NextKeeps P (execRefLost ctl s) := by
  have K1 := K.sub (as := [.integ]) rfl
  have K2 := K.sub (as := [.can]) rfl
  unfold execRefLost
  try dsimp only
  repeat' first
    | with_reducible first
      | assumption
      | refine keep_next ?_
      | refine keep_ite_next ?_ ?_
      | refine event_keeps K1 ?_
      | refine onCtl_keeps K2 ?_
      | refine keep_ite (P := P) ?_ ?_
    | exact rfl
    | split
    | (dsimp only)


theorem execCanDetectDwellEnd_keeps {P : State → Prop} (K : Keeps [.integ, .can] P) {ctl : Fin 4} {s : State} (h : P s) :
    NextKeeps P (execCanDetectDwellEnd ctl s) := by
  have K1 := K.sub (as := [.can]) rfl
  have K2 := K.sub (as := [.integ]) rfl
  unfold execCanDetectDwellEnd
  try dsimp only
  repeat' first
    | with_reducible first
      | assumption
      | refine keep_next ?_
      | refine keep_ite_next ?_ ?_
      | refine onCtl_keeps K1 ?_
      | refine event_keeps K2 ?_
      | refine keep_ite (P := P) ?_ ?_
    | exact rfl
    | split
    | (dsimp only)


end Sys2Proof.Machine
end

