-- ==== Sys2Proof/Laws/KeepCanOps.lean ====
section
/-! SUPPORT.
What each function of Machine/CanOps.lean keeps. -/

namespace Sys2Proof.Machine

theorem opCanConfig_keeps {P : State → Prop} (K : Keeps [.can] P) {rq : Request} {s : State} (h : P s) :
    Answer.Keeps P (opCanConfig.effect rq s) := by
  unfold opCanConfig
  try dsimp only
  repeat' first
    | with_reducible first
      | assumption
      | refine onCtl_keeps K ?_
      | refine putConfig_keeps K ?_
      | refine keep_ite (P := P) ?_ ?_
      | refine keep_ite_answer ?_ ?_
      | exact keep_deny
      | refine keep_done ?_
      | refine keep_fail ?_
      | refine keep_wait ?_
    | exact rfl
    | split
    | (dsimp only)


theorem execCanConfig_keeps {P : State → Prop} (K : Keeps [.pkts, .integ, .can, .free] P) {rq : Sys2Proof.Request} {s : State} (h : P s) :
    NextKeeps P (execCanConfig rq s) := by
  have K1 := K.sub (as := [.pkts, .integ, .free]) rfl
  have K2 := K.sub (as := [.can]) rfl
  unfold execCanConfig
  try dsimp only
  repeat' first
    | with_reducible first
      | assumption
      | refine keep_next ?_
      | refine runCommand_keeps K1 ?_ ?_
      | refine opCanConfig_keeps K2 ?_
    | exact rfl
    | split
    | (dsimp only)


theorem opCanFilterSet_keeps {P : State → Prop} (K : Keeps [.can] P) {rq : Request} {s : State} (h : P s) :
    Answer.Keeps P (opCanFilterSet.effect rq s) := by
  unfold opCanFilterSet
  try dsimp only
  repeat' first
    | with_reducible first
      | assumption
      | refine onCtl_keeps K ?_
      | refine keep_foldl (P := P) (fun _ _ _ => ?_) ?_
      | exact keep_deny
      | refine keep_done ?_
      | refine keep_fail ?_
      | refine keep_wait ?_
    | exact rfl
    | (dsimp only)


theorem execCanFilterSet_keeps {P : State → Prop} (K : Keeps [.pkts, .integ, .can, .free] P) {rq : Sys2Proof.Request} {s : State} (h : P s) :
    NextKeeps P (execCanFilterSet rq s) := by
  have K1 := K.sub (as := [.pkts, .integ, .free]) rfl
  have K2 := K.sub (as := [.can]) rfl
  unfold execCanFilterSet
  try dsimp only
  repeat' first
    | with_reducible first
      | assumption
      | refine keep_next ?_
      | refine runCommand_keeps K1 ?_ ?_
      | refine opCanFilterSet_keeps K2 ?_
    | exact rfl
    | split
    | (dsimp only)


theorem opCanTtConfig_keeps {P : State → Prop} (K : Keeps [.can] P) {rq : Request} {s : State} (h : P s) :
    Answer.Keeps P (opCanTtConfig.effect rq s) := by
  unfold opCanTtConfig
  try dsimp only
  repeat' first
    | with_reducible first
      | assumption
      | refine onCtl_keeps K ?_
      | refine keep_ite (P := P) ?_ ?_
      | refine keep_ite_answer ?_ ?_
      | exact keep_deny
      | refine keep_done ?_
      | refine keep_fail ?_
      | refine keep_wait ?_
    | exact rfl
    | split
    | (dsimp only)


theorem execCanTtConfig_keeps {P : State → Prop} (K : Keeps [.pkts, .integ, .can, .free] P) {rq : Sys2Proof.Request} {s : State} (h : P s) :
    NextKeeps P (execCanTtConfig rq s) := by
  have K1 := K.sub (as := [.pkts, .integ, .free]) rfl
  have K2 := K.sub (as := [.can]) rfl
  unfold execCanTtConfig
  try dsimp only
  repeat' first
    | with_reducible first
      | assumption
      | refine keep_next ?_
      | refine runCommand_keeps K1 ?_ ?_
      | refine opCanTtConfig_keeps K2 ?_
    | exact rfl
    | split
    | (dsimp only)


theorem opCanTtBufferSet_keeps {P : State → Prop} (K : Keeps [.can] P) {rq : Request} {s : State} (h : P s) :
    Answer.Keeps P (opCanTtBufferSet.effect rq s) := by
  unfold opCanTtBufferSet
  try dsimp only
  repeat' first
    | with_reducible first
      | assumption
      | refine onCtl_keeps K ?_
      | refine freezeBuffer_keeps K ?_
      | exact keep_deny
      | refine keep_done ?_
      | refine keep_fail ?_
      | refine keep_wait ?_
    | exact rfl
    | (dsimp only)


theorem execCanTtBufferSet_keeps {P : State → Prop} (K : Keeps [.pkts, .integ, .can, .free] P) {rq : Sys2Proof.Request} {s : State} (h : P s) :
    NextKeeps P (execCanTtBufferSet rq s) := by
  have K1 := K.sub (as := [.pkts, .integ, .free]) rfl
  have K2 := K.sub (as := [.can]) rfl
  unfold execCanTtBufferSet
  try dsimp only
  repeat' first
    | with_reducible first
      | assumption
      | refine keep_next ?_
      | refine runCommand_keeps K1 ?_ ?_
      | refine opCanTtBufferSet_keeps K2 ?_
    | exact rfl
    | split
    | (dsimp only)


theorem opCanTx_keeps {P : State → Prop} (K : Keeps [.can] P) {rq : Request} {s : State} (h : P s) :
    Answer.Keeps P (opCanTx.effect rq s) := by
  unfold opCanTx
  try dsimp only
  repeat' first
    | with_reducible first
      | assumption
      | refine onCtl_keeps K ?_
      | refine trySend_keeps K ?_
      | refine keep_ite (P := P) ?_ ?_
      | refine keep_ite_answer ?_ ?_
      | exact keep_deny
      | refine keep_done ?_
      | refine keep_fail ?_
      | refine keep_wait ?_
    | exact rfl
    | split
    | (dsimp only)


theorem execCanTx_keeps {P : State → Prop} (K : Keeps [.pkts, .integ, .can, .free] P) {rq : Sys2Proof.Request} {s : State} (h : P s) :
    NextKeeps P (execCanTx rq s) := by
  have K1 := K.sub (as := [.pkts, .integ, .free]) rfl
  have K2 := K.sub (as := [.can]) rfl
  unfold execCanTx
  try dsimp only
  repeat' first
    | with_reducible first
      | assumption
      | refine keep_next ?_
      | refine runCommand_keeps K1 ?_ ?_
      | refine opCanTx_keeps K2 ?_
    | exact rfl
    | split
    | (dsimp only)


theorem opCanRxRead_keeps {P : State → Prop} (K : Keeps [.can] P) {rq : Request} {s : State} (h : P s) :
    Answer.Keeps P (opCanRxRead.effect rq s) := by
  unfold opCanRxRead
  try dsimp only
  repeat' first
    | with_reducible first
      | assumption
      | refine onCtl_keeps K ?_
      | exact keep_deny
      | refine keep_done ?_
      | refine keep_fail ?_
      | refine keep_wait ?_
    | exact rfl
    | (dsimp only)


theorem execCanRxRead_keeps {P : State → Prop} (K : Keeps [.pkts, .integ, .can, .free] P) {rq : Sys2Proof.Request} {s : State} (h : P s) :
    NextKeeps P (execCanRxRead rq s) := by
  have K1 := K.sub (as := [.pkts, .integ, .free]) rfl
  have K2 := K.sub (as := [.can]) rfl
  unfold execCanRxRead
  try dsimp only
  repeat' first
    | with_reducible first
      | assumption
      | refine keep_next ?_
      | refine runCommand_keeps K1 ?_ ?_
      | refine opCanRxRead_keeps K2 ?_
    | exact rfl
    | split
    | (dsimp only)


theorem opCanStatusRead_keeps {P : State → Prop} (K : Keeps [] P) {rq : Request} {s : State} (h : P s) :
    Answer.Keeps P (opCanStatusRead.effect rq s) := by
  have _ := K
  unfold opCanStatusRead
  try dsimp only
  repeat' first
    | with_reducible first
      | assumption
      | exact keep_deny
      | refine keep_done ?_
      | refine keep_fail ?_
      | refine keep_wait ?_
    | exact rfl
    | (dsimp only)


theorem execCanStatusRead_keeps {P : State → Prop} (K : Keeps [.pkts, .integ, .free] P) {rq : Sys2Proof.Request} {s : State} (h : P s) :
    NextKeeps P (execCanStatusRead rq s) := by
  have K1 := K.sub (as := []) rfl
  unfold execCanStatusRead
  try dsimp only
  repeat' first
    | with_reducible first
      | assumption
      | refine keep_next ?_
      | refine runCommand_keeps K ?_ ?_
      | refine opCanStatusRead_keeps K1 ?_
    | exact rfl
    | split
    | (dsimp only)


theorem opCanBitrateDetect_keeps {P : State → Prop} (K : Keeps [.can] P) {rq : Request} {s : State} (h : P s) :
    Answer.Keeps P (opCanBitrateDetect.effect rq s) := by
  unfold opCanBitrateDetect
  try dsimp only
  repeat' first
    | with_reducible first
      | assumption
      | refine onCtl_keeps K ?_
      | exact keep_deny
      | refine keep_done ?_
      | refine keep_fail ?_
      | refine keep_wait ?_
    | exact rfl
    | split
    | (dsimp only)


theorem execCanBitrateDetect_keeps {P : State → Prop} (K : Keeps [.pkts, .integ, .can, .free] P) {rq : Sys2Proof.Request} {s : State} (h : P s) :
    NextKeeps P (execCanBitrateDetect rq s) := by
  have K1 := K.sub (as := [.pkts, .integ, .free]) rfl
  have K2 := K.sub (as := [.can]) rfl
  unfold execCanBitrateDetect
  try dsimp only
  repeat' first
    | with_reducible first
      | assumption
      | refine keep_next ?_
      | refine runCommand_keeps K1 ?_ ?_
      | refine opCanBitrateDetect_keeps K2 ?_
    | exact rfl
    | split
    | (dsimp only)


theorem opCanBusRecover_keeps {P : State → Prop} (K : Keeps [.can] P) {rq : Request} {s : State} (h : P s) :
    Answer.Keeps P (opCanBusRecover.effect rq s) := by
  unfold opCanBusRecover
  try dsimp only
  repeat' first
    | with_reducible first
      | assumption
      | refine trySend_keeps K ?_
      | refine onCtl_keeps K ?_
      | refine keep_ite (P := P) ?_ ?_
      | refine keep_ite_answer ?_ ?_
      | exact keep_deny
      | refine keep_done ?_
      | refine keep_fail ?_
      | refine keep_wait ?_
    | exact rfl
    | split
    | (dsimp only)


theorem execCanBusRecover_keeps {P : State → Prop} (K : Keeps [.pkts, .integ, .can, .free] P) {rq : Sys2Proof.Request} {s : State} (h : P s) :
    NextKeeps P (execCanBusRecover rq s) := by
  have K1 := K.sub (as := [.pkts, .integ, .free]) rfl
  have K2 := K.sub (as := [.can]) rfl
  unfold execCanBusRecover
  try dsimp only
  repeat' first
    | with_reducible first
      | assumption
      | refine keep_next ?_
      | refine runCommand_keeps K1 ?_ ?_
      | refine opCanBusRecover_keeps K2 ?_
    | exact rfl
    | split
    | (dsimp only)


end Sys2Proof.Machine
end

