-- ==== Sys2Proof/Laws/KeepCyclic.lean ====
section
/-! SUPPORT.
What each function of Machine/Cyclic.lean keeps. -/

namespace Sys2Proof.Machine

theorem onMap_keeps {P : State → Prop} (K : Keeps [.net] P) {k : Fin 32} {f : CycMap → CycMap} {s : State} (h : P s) :
    P (onMap k f s) := by
  unfold onMap
  try dsimp only
  repeat' first
    | with_reducible first
      | assumption
      | refine K.onNet rfl _ _ ?_
    | exact rfl
    | (dsimp only)


theorem writeSlot_keeps {P : State → Prop} (K : Keeps [.axis, .bta, .bricks] P) {i : Fin 64} {q : Nat} {bs : List Sys2Proof.Byte} {s : State} (h : P s) :
    P (writeSlot i q bs s) := by
  have K1 := K.sub (as := [.axis]) rfl
  unfold writeSlot
  try dsimp only
  repeat' first
    | with_reducible first
      | assumption
      | refine onAx_keeps K1 ?_
      | refine setPoint_keeps K ?_
      | refine setPoints_keeps K ?_
      | refine keep_ite (P := P) ?_ ?_
    | exact rfl
    | split
    | (dsimp only)


theorem writeEntry_keeps {P : State → Prop} (K : Keeps [.axis, .bta, .bricks, .fio] P) {p : List Sys2Proof.Byte} {e : CycEntry} {s : State} (h : P s) :
    P (writeEntry p e s) := by
  have K1 := K.sub (as := [.fio]) rfl
  have K2 := K.sub (as := [.axis, .bta, .bricks]) rfl
  unfold writeEntry
  try dsimp only
  repeat' first
    | with_reducible first
      | assumption
      | refine onFioGroup_keeps K1 ?_
      | refine writeSlot_keeps K2 ?_
      | refine keep_ite (P := P) ?_ ?_
    | exact rfl
    | split
    | (dsimp only)


theorem execCyclicFrameRx_keeps {P : State → Prop} (K : Keeps [.net] P) {port : Fin 4} {frame : Sys2Proof.NetFrame} {s : State} (h : P s) :
    NextKeeps P (execCyclicFrameRx port frame s) := by
  unfold execCyclicFrameRx
  try dsimp only
  repeat' first
    | with_reducible first
      | assumption
      | refine keep_next ?_
      | refine keep_ite_next ?_ ?_
      | refine onMap_keeps K ?_
      | refine keep_ite (P := P) ?_ ?_
    | exact rfl
    | split
    | (dsimp only)


theorem execCyclicApply_keeps {P : State → Prop} (K : Keeps [.pkts, .integ, .axis, .plan, .gear, .loop, .bta, .stepper, .bricks, .net, .fio, .lanes] P) {map : Fin 16} {s : State} (h : P s) :
    NextKeeps P (execCyclicApply map s) := by
  have K1 := K.sub (as := [.net]) rfl
  have K2 := K.sub (as := [.axis]) rfl
  have K3 := K.sub (as := [.integ, .lanes]) rfl
  have K4 := K.sub (as := [.axis, .bta, .bricks, .fio]) rfl
  have K5 := K.sub (as := [.pkts, .integ, .axis, .plan, .gear, .loop, .bta, .stepper, .bricks, .net, .fio]) rfl
  unfold execCyclicApply
  try dsimp only
  repeat' first
    | with_reducible first
      | assumption
      | refine keep_next ?_
      | refine keep_ite_next ?_ ?_
      | refine onMap_keeps K1 ?_
      | refine onAx_keeps K2 ?_
      | refine occurs_keeps K3 ?_
      | refine writeEntry_keeps K4 ?_
      | refine missCycles_keeps K5 ?_
      | refine keep_ite (P := P) ?_ ?_
      | refine keep_foldl (P := P) (fun _ _ _ => ?_) ?_
    | exact rfl
    | split
    | (dsimp only)


theorem execCyclicSample_keeps {P : State → Prop} (K : Keeps [.net] P) {map : Fin 16} {s : State} (h : P s) :
    NextKeeps P (execCyclicSample map s) := by
  unfold execCyclicSample
  try dsimp only
  repeat' first
    | with_reducible first
      | assumption
      | refine keep_next ?_
      | refine keep_ite_next ?_ ?_
      | refine onMap_keeps K ?_
      | refine keep_ite (P := P) ?_ ?_
    | exact rfl
    | split
    | (dsimp only)


theorem execCyclicLaunch_keeps {P : State → Prop} (K : Keeps [.net] P) {map : Fin 16} {s : State} (h : P s) :
    NextKeeps P (execCyclicLaunch map s) := by
  unfold execCyclicLaunch
  try dsimp only
  repeat' first
    | with_reducible first
      | assumption
      | refine keep_next ?_
      | refine keep_ite_next ?_ ?_
      | refine originate_keeps K ?_
      | refine onMap_keeps K ?_
      | refine keep_ite (P := P) ?_ ?_
    | exact rfl
    | split
    | (dsimp only)


theorem execCyclicEnableEffect_keeps {P : State → Prop} (K : Keeps [.net] P) {map : Fin 32} {s : State} (h : P s) :
    NextKeeps P (execCyclicEnableEffect map s) := by
  unfold execCyclicEnableEffect
  try dsimp only
  repeat' first
    | with_reducible first
      | assumption
      | refine keep_next ?_
      | refine keep_ite_next ?_ ?_
      | refine onMap_keeps K ?_
      | refine keep_ite (P := P) ?_ ?_
    | exact rfl
    | split
    | (dsimp only)


theorem opCyclicMapDefine_keeps {P : State → Prop} (K : Keeps [.net] P) {rq : Request} {s : State} (h : P s) :
    Answer.Keeps P (opCyclicMapDefine.effect rq s) := by
  unfold opCyclicMapDefine
  try dsimp only
  repeat' first
    | with_reducible first
      | assumption
      | refine onMap_keeps K ?_
      | refine keep_ite (P := P) ?_ ?_
      | refine keep_ite_answer ?_ ?_
      | exact keep_deny
      | refine keep_done ?_
      | refine keep_fail ?_
      | refine keep_wait ?_
    | exact rfl
    | split
    | (dsimp only)


theorem execCyclicMapDefine_keeps {P : State → Prop} (K : Keeps [.pkts, .integ, .net, .free] P) {rq : Sys2Proof.Request} {s : State} (h : P s) :
    NextKeeps P (execCyclicMapDefine rq s) := by
  have K1 := K.sub (as := [.pkts, .integ, .free]) rfl
  have K2 := K.sub (as := [.net]) rfl
  unfold execCyclicMapDefine
  try dsimp only
  repeat' first
    | with_reducible first
      | assumption
      | refine keep_next ?_
      | refine runCommand_keeps K1 ?_ ?_
      | refine opCyclicMapDefine_keeps K2 ?_
    | exact rfl
    | split
    | (dsimp only)


theorem opCyclicMapEnable_keeps {P : State → Prop} (K : Keeps [.net] P) {rq : Request} {s : State} (h : P s) :
    Answer.Keeps P (opCyclicMapEnable.effect rq s) := by
  unfold opCyclicMapEnable
  try dsimp only
  repeat' first
    | with_reducible first
      | assumption
      | refine onMap_keeps K ?_
      | refine keep_ite (P := P) ?_ ?_
      | refine keep_ite_answer ?_ ?_
      | exact keep_deny
      | refine keep_done ?_
      | refine keep_fail ?_
      | refine keep_wait ?_
    | exact rfl
    | split
    | (dsimp only)


theorem execCyclicMapEnable_keeps {P : State → Prop} (K : Keeps [.pkts, .integ, .net, .free] P) {rq : Sys2Proof.Request} {s : State} (h : P s) :
    NextKeeps P (execCyclicMapEnable rq s) := by
  have K1 := K.sub (as := [.pkts, .integ, .free]) rfl
  have K2 := K.sub (as := [.net]) rfl
  unfold execCyclicMapEnable
  try dsimp only
  repeat' first
    | with_reducible first
      | assumption
      | refine keep_next ?_
      | refine runCommand_keeps K1 ?_ ?_
      | refine opCyclicMapEnable_keeps K2 ?_
    | exact rfl
    | split
    | (dsimp only)


theorem opCyclicMapStatus_keeps {P : State → Prop} (K : Keeps [] P) {rq : Request} {s : State} (h : P s) :
    Answer.Keeps P (opCyclicMapStatus.effect rq s) := by
  have _ := K
  unfold opCyclicMapStatus
  try dsimp only
  repeat' first
    | with_reducible first
      | assumption
      | exact keep_deny
      | refine keep_done ?_
      | refine keep_fail ?_
      | refine keep_wait ?_
    | exact rfl
    | (dsimp only)


theorem execCyclicMapStatus_keeps {P : State → Prop} (K : Keeps [.pkts, .integ, .free] P) {rq : Sys2Proof.Request} {s : State} (h : P s) :
    NextKeeps P (execCyclicMapStatus rq s) := by
  have K1 := K.sub (as := []) rfl
  unfold execCyclicMapStatus
  try dsimp only
  repeat' first
    | with_reducible first
      | assumption
      | refine keep_next ?_
      | refine runCommand_keeps K ?_ ?_
      | refine opCyclicMapStatus_keeps K1 ?_
    | exact rfl
    | split
    | (dsimp only)


end Sys2Proof.Machine
end

