-- ==== Sys2Proof/Laws/KeepLaneCpu.lean ====
section
/-! SUPPORT.
What each function of Machine/LaneCpu.lean keeps. -/

namespace Sys2Proof.Machine

theorem onLaneRegs_keeps {P : State → Prop} (K : Keeps [.lanes] P) {l : Fin 8} {f : LaneRegs → LaneRegs} {s : State} (h : P s) :
    P (onLaneRegs l f s) := by
  unfold onLaneRegs
  try dsimp only
  repeat' first
    | with_reducible first
      | assumption
      | refine onLane_keeps K ?_ ?_
    | exact rfl
    | (dsimp only)


theorem readTwo_keeps {P : State → Prop} (K : Keeps [.lanes] P) {l : Fin 8} {addr : Nat} {v : Int} {s : State} (h : P s) :
    P (readTwo l addr v s).2 := by
  unfold readTwo
  try dsimp only
  repeat' first
    | with_reducible first
      | assumption
      | refine onLaneRegs_keeps K ?_
      | refine keep_ite (P := P) ?_ ?_
    | exact rfl
    | split
    | (dsimp only)

theorem readTwo_out {P : State → Prop} (K : Keeps [.lanes] P) {l : Fin 8} {addr : Nat} {v : Int} {s : State} (h : P s) {o} {u : State}
    (hout : readTwo l addr v s = (o, u)) : P u := by
  have hu := readTwo_keeps K h (P := P) (l := l) (addr := addr) (v := v)
  rw [hout] at hu
  exact hu


theorem laneRead_keeps {P : State → Prop} (K : Keeps [.lanes] P) {l : Fin 8} {t : Nat} {addr : Nat} {s : State} (h : P s) :
    ∀ r, laneRead l t addr s = .ok r → P r.2 := by
  unfold laneRead
  try dsimp only
  repeat' first
    | with_reducible first
      | assumption
      | refine readTwo_keeps K ?_
      | refine readTwo_out K ?_ ‹_›
      | refine keep_ite (P := P) ?_ ?_
    | exact rfl
    | (intro _ ht; cases ht)
    | split
    | (dsimp only)


theorem putPort_keeps {P : State → Prop} (K : Keeps [.lanes] P) {p : Fin 64} {w : Sys2Proof.Word} {s : State} (h : P s) :
    P (putPort p w s) := by
  unfold putPort
  try dsimp only
  repeat' first
    | with_reducible first
      | assumption
      | refine K.onLanes rfl _ _ (fun _ => ?_) ?_
      | refine keep_ite (P := P) ?_ ?_
    | exact rfl
    | split
    | (dsimp only)


theorem writeSetPoint_keeps {P : State → Prop} (K : Keeps [.lanes] P) {l : Fin 8} {i : Fin 64} {high : Bool} {w : Sys2Proof.Word} {s : State} (h : P s) :
    ∀ t, writeSetPoint l i high w s = .ok t → P t := by
  unfold writeSetPoint
  try dsimp only
  repeat' first
    | with_reducible first
      | assumption
      | refine onLaneRegs_keeps K ?_
      | refine K.onLanes rfl _ _ (fun _ => ?_) ?_
      | refine keep_ite (P := P) ?_ ?_
    | exact rfl
    | (intro _ ht; cases ht)
    | split
    | (dsimp only)


theorem laneWrite_keeps {P : State → Prop} (K : Keeps [.integ, .lanes, .ldata] P) {l : Fin 8} {addr : Nat} {w : Sys2Proof.Word} {s : State} (h : P s) :
    ∀ t, laneWrite l addr w s = .ok t → P t := by
  have K1 := K.sub (as := [.integ]) rfl
  have K2 := K.sub (as := [.lanes]) rfl
  unfold laneWrite
  try dsimp only
  repeat' first
    | with_reducible first
      | assumption
      | refine countPoison_keeps K1 ?_
      | refine onLaneData_keeps (K.sub (as := [.ldata]) rfl) (fun hx => ?_) ?_
      | refine putPort_keeps K2 ?_
      | refine writeSetPoint_keeps K2 ?_ _ ‹_›
      | refine writeSetPoint_keeps K2 ?_
      | refine keep_ite (P := P) ?_ ?_
    | exact hx
    | exact rfl
    | (intro _ ht; cases ht)
    | exact eraseRange_wf hx
    | exact programBytes_wf hx
    | exact programWords_wf hx
    | exact spoiled_wf hx
    | exact wordPut_wf hx
    | exact chooseSlot_wf hx
    | exact cellsWrite_wf rfl
    | split
    | (dsimp only)


theorem passStep_keeps {P : State → Prop} (K : Keeps [.lanes] P) {l : Fin 8} {s : State} (h : P s) :
    P (passStep l s) := by
  unfold passStep
  try dsimp only
  repeat' first
    | with_reducible first
      | assumption
      | refine onLane_keeps K ?_ ?_
    | exact rfl
    | (dsimp only)


theorem laneAbort_keeps {P : State → Prop} (K : Keeps [.pkts, .integ, .lanes] P) {l : Fin 8} {t : Fin 512} {cause : Nat} {addr : Nat} {s : State} (h : P s) :
    P (laneAbort l t cause addr s) := by
  have K1 := K.sub (as := [.integ]) rfl
  unfold laneAbort
  try dsimp only
  repeat' first
    | with_reducible first
      | assumption
      | refine abortThread_keeps K ?_
      | refine recordPoison_keeps K1 ?_
      | refine keep_ite (P := P) ?_ ?_
    | exact rfl
    | split
    | (dsimp only)


/-- What an instruction does beside the pipeline keeps P. -/
def EffKeeps (P : State → Prop) (eff : LaneEffect) : Prop := ∀ l t w s, P s → ∀ u, eff l t w s = .ok u → P u

theorem regsOnly_keeps {P : State → Prop} (K : Keeps [.lanes] P) {f : Word → LaneRegs → LaneRegs} : EffKeeps P (regsOnly f) := by
  intro l t w s h u hu
  cases hu
  exact onLaneRegs_keeps K h

theorem issue_keeps {P : State → Prop} (K : Keeps [.pkts, .integ, .lanes] P) {code : Nat} {eff : LaneEffect} {l : Fin 8} {s : State}
    (he : EffKeeps P eff) (h : P s) : P (issue code eff l s) := by
  have K1 := K.sub (as := [.lanes]) rfl
  have hp := passStep_keeps K1 (l := l) h
  unfold issue
  split
  · exact h
  · rename_i t w hn
    dsimp only
    split
    · exact h
    · split
      · exact laneAbort_keeps K hp
      · split
        · exact laneAbort_keeps K hp
        · rename_i s1 hs
          have h1 : P s1 := he _ _ _ _ (onLaneRegs_keeps K1 hp) _ hs
          have h2 := onLaneRegs_keeps K1 (l := l) (f := fun _ => (LaneRegs.advance w ((passStep l s).lanes.lane[l].regs) s1.lanes.lane[l].regs).1) h1
          split
          · exact h2
          · split
            · exact laneAbort_keeps K h2
            · split
              · exact laneAbort_keeps K h2
              · exact h2


theorem laneCommand_keeps {P : State → Prop} (K : Keeps [.pkts, .integ, .lanes] P) {code : Nat} {eff : LaneEffect} {l : Fin 8} {s : State}
    (he : EffKeeps P eff) (h : P s) : NextKeeps P (laneCommand code eff l s) := keep_next (issue_keeps K he h)


end Sys2Proof.Machine
end

