-- ==== Sys2Proof/Laws/KeepDispatcher.lean ====
section
/-! SUPPORT.
What each function of Machine/Dispatcher.lean keeps. -/

namespace Sys2Proof.Machine

theorem takeLane_keeps {P : State → Prop} (K : Keeps [.lanes] P) {l : Fin 8} {t : Fin 512} {r : LaneRegs} {s : State} (h : P s) :
    P (takeLane l t r s) := by
  unfold takeLane
  try dsimp only
  repeat' first
    | with_reducible first
      | assumption
      | refine onThr_keeps K ?_
      | refine onLane_keeps K ?_ ?_
    | exact rfl
    | (dsimp only)


theorem execThreadStart_keeps {P : State → Prop} (K : Keeps [.pkts, .integ, .lanes] P) {lane : Fin 8} {s : State} (h : P s) :
    NextKeeps P (execThreadStart lane s) := by
  have K1 := K.sub (as := [.lanes]) rfl
  unfold execThreadStart
  try dsimp only
  repeat' first
    | with_reducible first
      | assumption
      | refine keep_next ?_
      | refine keep_ite_next ?_ ?_
      | refine takeLane_keeps K1 ?_
      | refine onThr_keeps K1 ?_
      | refine laneAbort_keeps K ?_
      | refine keep_ite (P := P) ?_ ?_
    | exact rfl
    | split
    | (dsimp only)


theorem execThreadPreempt_keeps {P : State → Prop} (K : Keeps [.lanes] P) {lane : Fin 8} {s : State} (h : P s) :
    NextKeeps P (execThreadPreempt lane s) := by
  unfold execThreadPreempt
  try dsimp only
  repeat' first
    | with_reducible first
      | assumption
      | refine keep_next ?_
      | refine keep_ite_next ?_ ?_
      | refine onThr_keeps K ?_
      | refine onLane_keeps K ?_ ?_
      | refine keep_ite (P := P) ?_ ?_
    | exact rfl
    | split
    | (dsimp only)


theorem execThreadResume_keeps {P : State → Prop} (K : Keeps [.lanes] P) {lane : Fin 8} {s : State} (h : P s) :
    NextKeeps P (execThreadResume lane s) := by
  unfold execThreadResume
  try dsimp only
  repeat' first
    | with_reducible first
      | assumption
      | refine keep_next ?_
      | refine keep_ite_next ?_ ?_
      | refine takeLane_keeps K ?_
      | refine keep_ite (P := P) ?_ ?_
    | exact rfl
    | split
    | (dsimp only)


theorem execDispatchTimerInstant_keeps {P : State → Prop} (K : Keeps [.integ, .lanes] P) {timer : Fin 16} {s : State} (h : P s) :
    NextKeeps P (execDispatchTimerInstant timer s) := by
  unfold execDispatchTimerInstant
  try dsimp only
  repeat' first
    | with_reducible first
      | assumption
      | refine keep_next ?_
      | refine keep_ite_next ?_ ?_
      | refine occurs_keeps K ?_
      | refine K.onLanes rfl _ _ (fun _ => ?_) ?_
      | refine keep_ite (P := P) ?_ ?_
    | exact rfl
    | split
    | (dsimp only)


end Sys2Proof.Machine
end

