-- ==== Sys2Proof/Laws/KeepFio.lean ====
section
/-! SUPPORT.
What each function of Machine/Fio.lean keeps. -/

namespace Sys2Proof.Machine

theorem onInput_keeps {P : State → Prop} (K : Keeps [.fio] P) {n : Fin 32} {f : FioIn → FioIn} {s : State} (h : P s) :
    P (onInput n f s) := by
  unfold onInput
  try dsimp only
  repeat' first
    | with_reducible first
      | assumption
      | refine onFioGroup_keeps K ?_
    | exact rfl
    | (dsimp only)


theorem onOutput_keeps {P : State → Prop} (K : Keeps [.fio] P) {n : Fin 16} {f : FioOut → FioOut} {s : State} (h : P s) :
    P (onOutput n f s) := by
  unfold onOutput
  try dsimp only
  repeat' first
    | with_reducible first
      | assumption
      | refine onFioGroup_keeps K ?_
    | exact rfl
    | (dsimp only)


theorem fioEvent_keeps {P : State → Prop} (K : Keeps [.integ] P) {code : Nat} {g : Fin 4} {channel : Nat} {s : State} (h : P s) :
    P (fioEvent code g channel s) := by
  unfold fioEvent
  try dsimp only
  repeat' first
    | with_reducible first
      | assumption
      | refine event_keeps K ?_
    | exact rfl
    | (dsimp only)


theorem filterAgo_keeps {P : State → Prop} (K : Keeps [.free] P) {filter : Nat} {s : State} (h : P s) :
    P (filterAgo filter s).2 := by
  unfold filterAgo
  try dsimp only
  repeat' first
    | with_reducible first
      | assumption
      | refine freshNat_keeps K ?_
      | refine freshNat_out K ?_ ‹_›
    | exact rfl
    | (dsimp only)

theorem filterAgo_out {P : State → Prop} (K : Keeps [.free] P) {filter : Nat} {s : State} (h : P s) {o} {u : State}
    (hout : filterAgo filter s = (o, u)) : P u := by
  have hu := filterAgo_keeps K h (P := P) (filter := filter)
  rw [hout] at hu
  exact hu


theorem execDiEdgeAccepted_keeps {P : State → Prop} (K : Keeps [.power, .integ, .fio, .free] P) {input : Fin 32} {level : Bool} {s : State} (h : P s) :
    NextKeeps P (execDiEdgeAccepted input level s) := by
  have K1 := K.sub (as := [.free]) rfl
  have K2 := K.sub (as := [.fio]) rfl
  have K3 := K.sub (as := [.integ]) rfl
  unfold execDiEdgeAccepted
  try dsimp only
  repeat' first
    | with_reducible first
      | assumption
      | refine keep_next ?_
      | refine keep_ite_next ?_ ?_
      | refine filterAgo_keeps K1 ?_
      | refine filterAgo_out K1 ?_ ‹_›
      | refine onInput_keeps K2 ?_
      | refine recordFault_keeps K3 ?_
      | refine K.onPower rfl _ _ ?_
      | refine keep_ite (P := P) ?_ ?_
    | exact rfl
    | split
    | (dsimp only)


theorem execOpenWire_keeps {P : State → Prop} (K : Keeps [.integ, .fio] P) {input : Fin 32} {s : State} (h : P s) :
    NextKeeps P (execOpenWire input s) := by
  have K1 := K.sub (as := [.integ]) rfl
  have K2 := K.sub (as := [.fio]) rfl
  unfold execOpenWire
  try dsimp only
  repeat' first
    | with_reducible first
      | assumption
      | refine keep_next ?_
      | refine keep_ite_next ?_ ?_
      | refine fioEvent_keeps K1 ?_
      | refine onInput_keeps K2 ?_
      | refine keep_ite (P := P) ?_ ?_
    | exact rfl
    | split
    | (dsimp only)


theorem execOpenWireClear_keeps {P : State → Prop} (K : Keeps [.fio] P) {input : Fin 32} {s : State} (h : P s) :
    NextKeeps P (execOpenWireClear input s) := by
  unfold execOpenWireClear
  try dsimp only
  repeat' first
    | with_reducible first
      | assumption
      | refine keep_next ?_
      | refine keep_ite_next ?_ ?_
      | refine onInput_keeps K ?_
      | refine keep_ite (P := P) ?_ ?_
    | exact rfl
    | split
    | (dsimp only)


theorem execOverload_keeps {P : State → Prop} (K : Keeps [.integ, .fio] P) {output : Fin 16} {s : State} (h : P s) :
    NextKeeps P (execOverload output s) := by
  have K1 := K.sub (as := [.integ]) rfl
  have K2 := K.sub (as := [.fio]) rfl
  unfold execOverload
  try dsimp only
  repeat' first
    | with_reducible first
      | assumption
      | refine keep_next ?_
      | refine keep_ite_next ?_ ?_
      | refine fioEvent_keeps K1 ?_
      | refine onOutput_keeps K2 ?_
      | refine keep_ite (P := P) ?_ ?_
    | exact rfl
    | split
    | (dsimp only)


theorem execFioOvertemp_keeps {P : State → Prop} (K : Keeps [.integ, .fio] P) {output : Fin 16} {s : State} (h : P s) :
    NextKeeps P (execFioOvertemp output s) := by
  have K1 := K.sub (as := [.integ]) rfl
  have K2 := K.sub (as := [.fio]) rfl
  unfold execFioOvertemp
  try dsimp only
  repeat' first
    | with_reducible first
      | assumption
      | refine keep_next ?_
      | refine keep_ite_next ?_ ?_
      | refine fioEvent_keeps K1 ?_
      | refine onOutput_keeps K2 ?_
      | refine keep_ite (P := P) ?_ ?_
    | exact rfl
    | split
    | (dsimp only)


theorem execFioOvertempClear_keeps {P : State → Prop} (K : Keeps [.fio] P) {output : Fin 16} {s : State} (h : P s) :
    NextKeeps P (execFioOvertempClear output s) := by
  unfold execFioOvertempClear
  try dsimp only
  repeat' first
    | with_reducible first
      | assumption
      | refine keep_next ?_
      | refine onOutput_keeps K ?_
    | exact rfl
    | split
    | (dsimp only)


theorem execOpenLoad_keeps {P : State → Prop} (K : Keeps [.integ, .fio] P) {output : Fin 16} {s : State} (h : P s) :
    NextKeeps P (execOpenLoad output s) := by
  have K1 := K.sub (as := [.integ]) rfl
  have K2 := K.sub (as := [.fio]) rfl
  unfold execOpenLoad
  try dsimp only
  repeat' first
    | with_reducible first
      | assumption
      | refine keep_next ?_
      | refine keep_ite_next ?_ ?_
      | refine fioEvent_keeps K1 ?_
      | refine onOutput_keeps K2 ?_
      | refine keep_ite (P := P) ?_ ?_
    | exact rfl
    | split
    | (dsimp only)


theorem execOpenLoadClear_keeps {P : State → Prop} (K : Keeps [.fio] P) {output : Fin 16} {s : State} (h : P s) :
    NextKeeps P (execOpenLoadClear output s) := by
  unfold execOpenLoadClear
  try dsimp only
  repeat' first
    | with_reducible first
      | assumption
      | refine keep_next ?_
      | refine keep_ite_next ?_ ?_
      | refine onOutput_keeps K ?_
      | refine keep_ite (P := P) ?_ ?_
    | exact rfl
    | split
    | (dsimp only)


theorem execBackfeed_keeps {P : State → Prop} (K : Keeps [.integ, .fio] P) {output : Fin 16} {s : State} (h : P s) :
    NextKeeps P (execBackfeed output s) := by
  have K1 := K.sub (as := [.integ]) rfl
  have K2 := K.sub (as := [.fio]) rfl
  unfold execBackfeed
  try dsimp only
  repeat' first
    | with_reducible first
      | assumption
      | refine keep_next ?_
      | refine keep_ite_next ?_ ?_
      | refine fioEvent_keeps K1 ?_
      | refine onOutput_keeps K2 ?_
      | refine keep_ite (P := P) ?_ ?_
    | exact rfl
    | split
    | (dsimp only)


theorem execBackfeedClear_keeps {P : State → Prop} (K : Keeps [.fio] P) {output : Fin 16} {s : State} (h : P s) :
    NextKeeps P (execBackfeedClear output s) := by
  unfold execBackfeedClear
  try dsimp only
  repeat' first
    | with_reducible first
      | assumption
      | refine keep_next ?_
      | refine keep_ite_next ?_ ?_
      | refine onOutput_keeps K ?_
      | refine keep_ite (P := P) ?_ ?_
    | exact rfl
    | split
    | (dsimp only)


theorem execOutputRetry_keeps {P : State → Prop} (K : Keeps [.fio] P) {output : Fin 16} {ok : Bool} {s : State} (h : P s) :
    NextKeeps P (execOutputRetry output ok s) := by
  unfold execOutputRetry
  try dsimp only
  repeat' first
    | with_reducible first
      | assumption
      | refine keep_next ?_
      | refine keep_ite_next ?_ ?_
      | refine onOutput_keeps K ?_
      | refine keep_ite (P := P) ?_ ?_
    | exact rfl
    | split
    | (dsimp only)


theorem execFioLinkRefresh_keeps {P : State → Prop} (K : Keeps [.integ, .fio] P) {group : Fin 4} {s : State} (h : P s) :
    NextKeeps P (execFioLinkRefresh group s) := by
  have K1 := K.sub (as := [.integ]) rfl
  have K2 := K.sub (as := [.fio]) rfl
  unfold execFioLinkRefresh
  try dsimp only
  repeat' first
    | with_reducible first
      | assumption
      | refine keep_next ?_
      | refine keep_ite_next ?_ ?_
      | refine setCause_keeps K1 ?_
      | refine onFioGroup_keeps K2 ?_
      | refine keep_ite (P := P) ?_ ?_
    | exact rfl
    | split
    | (dsimp only)


theorem execFioRefreshTimeout_keeps {P : State → Prop} (K : Keeps [.fio] P) {group : Fin 4} {s : State} (h : P s) :
    NextKeeps P (execFioRefreshTimeout group s) := by
  unfold execFioRefreshTimeout
  try dsimp only
  repeat' first
    | with_reducible first
      | assumption
      | refine keep_next ?_
      | refine keep_ite_next ?_ ?_
      | refine onFioGroup_keeps K ?_
      | refine keep_ite (P := P) ?_ ?_
    | exact rfl
    | split
    | (dsimp only)


theorem execFieldGroupLost_keeps {P : State → Prop} (K : Keeps [.integ] P) {group : Fin 4} {s : State} (h : P s) :
    NextKeeps P (execFieldGroupLost group s) := by
  unfold execFieldGroupLost
  try dsimp only
  repeat' first
    | with_reducible first
      | assumption
      | refine keep_next ?_
      | refine keep_ite_next ?_ ?_
      | refine setCause_keeps K ?_
      | refine recordFault_keeps K ?_
      | refine keep_ite (P := P) ?_ ?_
    | exact rfl
    | split
    | (dsimp only)


theorem execSupplySag_keeps {P : State → Prop} (K : Keeps [.integ, .fio] P) {group : Fin 4} {vf : Nat} {s : State} (h : P s) :
    NextKeeps P (execSupplySag group vf s) := by
  have K1 := K.sub (as := [.fio]) rfl
  have K2 := K.sub (as := [.integ]) rfl
  unfold execSupplySag
  try dsimp only
  repeat' first
    | with_reducible first
      | assumption
      | refine keep_next ?_
      | refine keep_ite_next ?_ ?_
      | refine onFioGroup_keeps K1 ?_
      | refine event_keeps K2 ?_
      | refine keep_ite (P := P) ?_ ?_
    | exact rfl
    | split
    | (dsimp only)


theorem execSupplyLost_keeps {P : State → Prop} (K : Keeps [.integ, .fio] P) {group : Fin 4} {vf : Nat} {s : State} (h : P s) :
    NextKeeps P (execSupplyLost group vf s) := by
  have K1 := K.sub (as := [.fio]) rfl
  have K2 := K.sub (as := [.integ]) rfl
  unfold execSupplyLost
  try dsimp only
  repeat' first
    | with_reducible first
      | assumption
      | refine keep_next ?_
      | refine keep_ite_next ?_ ?_
      | refine onFioGroup_keeps K1 ?_
      | refine event_keeps K2 ?_
      | refine keep_ite (P := P) ?_ ?_
    | exact rfl
    | split
    | (dsimp only)


theorem execDieUnpowered_keeps {P : State → Prop} (K : Keeps [.fio] P) {group : Fin 4} {vf : Nat} {s : State} (h : P s) :
    NextKeeps P (execDieUnpowered group vf s) := by
  unfold execDieUnpowered
  try dsimp only
  repeat' first
    | with_reducible first
      | assumption
      | refine keep_next ?_
      | refine keep_ite_next ?_ ?_
      | refine onFioGroup_keeps K ?_
      | refine keep_ite (P := P) ?_ ?_
    | exact rfl
    | split
    | (dsimp only)


theorem loadFio_keeps {P : State → Prop} (K : Keeps [.fio] P) {g : Fin 4} {s : State} (h : P s) :
    P (loadFio g s) := by
  unfold loadFio
  try dsimp only
  repeat' first
    | with_reducible first
      | assumption
      | refine onFioGroup_keeps K ?_
    | exact rfl
    | (dsimp only)


theorem execDiePowerReturn_keeps {P : State → Prop} (K : Keeps [.fio] P) {group : Fin 4} {vf : Nat} {s : State} (h : P s) :
    NextKeeps P (execDiePowerReturn group vf s) := by
  unfold execDiePowerReturn
  try dsimp only
  repeat' first
    | with_reducible first
      | assumption
      | refine keep_next ?_
      | refine keep_ite_next ?_ ?_
      | refine onFioGroup_keeps K ?_
      | refine loadFio_keeps K ?_
      | refine keep_ite (P := P) ?_ ?_
    | exact rfl
    | split
    | (dsimp only)


theorem execFieldSupplyReturn_keeps {P : State → Prop} (K : Keeps [.fio] P) {group : Fin 4} {vf : Nat} {s : State} (h : P s) :
    NextKeeps P (execFieldSupplyReturn group vf s) := by
  unfold execFieldSupplyReturn
  try dsimp only
  repeat' first
    | with_reducible first
      | assumption
      | refine keep_next ?_
      | refine keep_ite_next ?_ ?_
      | refine onFioGroup_keeps K ?_
      | refine keep_ite (P := P) ?_ ?_
    | exact rfl
    | split
    | (dsimp only)


theorem execFioAutoReenable_keeps {P : State → Prop} (K : Keeps [.fio] P) {group : Fin 4} {s : State} (h : P s) :
    NextKeeps P (execFioAutoReenable group s) := by
  unfold execFioAutoReenable
  try dsimp only
  repeat' first
    | with_reducible first
      | assumption
      | refine keep_next ?_
      | refine keep_ite_next ?_ ?_
      | refine onFioGroup_keeps K ?_
      | refine keep_ite (P := P) ?_ ?_
    | exact rfl
    | split
    | (dsimp only)


theorem opFioGroupConfig_keeps {P : State → Prop} (K : Keeps [.fio] P) {rq : Request} {s : State} (h : P s) :
    Answer.Keeps P (opFioGroupConfig.effect rq s) := by
  unfold opFioGroupConfig
  try dsimp only
  repeat' first
    | with_reducible first
      | assumption
      | refine loadFio_keeps K ?_
      | refine K.onFio rfl _ _ ?_
      | refine keep_ite (P := P) ?_ ?_
      | refine keep_ite_answer ?_ ?_
      | exact keep_deny
      | refine keep_done ?_
      | refine keep_fail ?_
      | refine keep_wait ?_
    | exact rfl
    | split
    | (dsimp only)


theorem execFioGroupConfig_keeps {P : State → Prop} (K : Keeps [.pkts, .integ, .fio, .free] P) {rq : Sys2Proof.Request} {s : State} (h : P s) :
    NextKeeps P (execFioGroupConfig rq s) := by
  have K1 := K.sub (as := [.pkts, .integ, .free]) rfl
  have K2 := K.sub (as := [.fio]) rfl
  unfold execFioGroupConfig
  try dsimp only
  repeat' first
    | with_reducible first
      | assumption
      | refine keep_next ?_
      | refine runCommand_keeps K1 ?_ ?_
      | refine opFioGroupConfig_keeps K2 ?_
    | exact rfl
    | split
    | (dsimp only)


theorem opFioInputConfig_keeps {P : State → Prop} (K : Keeps [.fio] P) {rq : Request} {s : State} (h : P s) :
    Answer.Keeps P (opFioInputConfig.effect rq s) := by
  unfold opFioInputConfig
  try dsimp only
  repeat' first
    | with_reducible first
      | assumption
      | refine loadFio_keeps K ?_
      | refine K.onFio rfl _ _ ?_
      | refine keep_ite (P := P) ?_ ?_
      | refine keep_ite_answer ?_ ?_
      | exact keep_deny
      | refine keep_done ?_
      | refine keep_fail ?_
      | refine keep_wait ?_
    | exact rfl
    | split
    | (dsimp only)


theorem execFioInputConfig_keeps {P : State → Prop} (K : Keeps [.pkts, .integ, .fio, .free] P) {rq : Sys2Proof.Request} {s : State} (h : P s) :
    NextKeeps P (execFioInputConfig rq s) := by
  have K1 := K.sub (as := [.pkts, .integ, .free]) rfl
  have K2 := K.sub (as := [.fio]) rfl
  unfold execFioInputConfig
  try dsimp only
  repeat' first
    | with_reducible first
      | assumption
      | refine keep_next ?_
      | refine runCommand_keeps K1 ?_ ?_
      | refine opFioInputConfig_keeps K2 ?_
    | exact rfl
    | split
    | (dsimp only)


theorem opFioOutputConfig_keeps {P : State → Prop} (K : Keeps [.fio] P) {rq : Request} {s : State} (h : P s) :
    Answer.Keeps P (opFioOutputConfig.effect rq s) := by
  unfold opFioOutputConfig
  try dsimp only
  repeat' first
    | with_reducible first
      | assumption
      | refine loadFio_keeps K ?_
      | refine K.onFio rfl _ _ ?_
      | refine keep_ite (P := P) ?_ ?_
      | refine keep_ite_answer ?_ ?_
      | exact keep_deny
      | refine keep_done ?_
      | refine keep_fail ?_
      | refine keep_wait ?_
    | exact rfl
    | split
    | (dsimp only)


theorem execFioOutputConfig_keeps {P : State → Prop} (K : Keeps [.pkts, .integ, .fio, .free] P) {rq : Sys2Proof.Request} {s : State} (h : P s) :
    NextKeeps P (execFioOutputConfig rq s) := by
  have K1 := K.sub (as := [.pkts, .integ, .free]) rfl
  have K2 := K.sub (as := [.fio]) rfl
  unfold execFioOutputConfig
  try dsimp only
  repeat' first
    | with_reducible first
      | assumption
      | refine keep_next ?_
      | refine runCommand_keeps K1 ?_ ?_
      | refine opFioOutputConfig_keeps K2 ?_
    | exact rfl
    | split
    | (dsimp only)


theorem opFioOutputSet_keeps {P : State → Prop} (K : Keeps [.fio] P) {rq : Request} {s : State} (h : P s) :
    Answer.Keeps P (opFioOutputSet.effect rq s) := by
  unfold opFioOutputSet
  try dsimp only
  repeat' first
    | with_reducible first
      | assumption
      | refine onFioGroup_keeps K ?_
      | refine keep_ite (P := P) ?_ ?_
      | refine keep_foldl (P := P) (fun _ _ _ => ?_) ?_
      | refine keep_ite_answer ?_ ?_
      | exact keep_deny
      | refine keep_done ?_
      | refine keep_fail ?_
      | refine keep_wait ?_
    | exact rfl
    | split
    | (dsimp only)


theorem execFioOutputSet_keeps {P : State → Prop} (K : Keeps [.pkts, .integ, .fio, .free] P) {rq : Sys2Proof.Request} {s : State} (h : P s) :
    NextKeeps P (execFioOutputSet rq s) := by
  have K1 := K.sub (as := [.pkts, .integ, .free]) rfl
  have K2 := K.sub (as := [.fio]) rfl
  unfold execFioOutputSet
  try dsimp only
  repeat' first
    | with_reducible first
      | assumption
      | refine keep_next ?_
      | refine runCommand_keeps K1 ?_ ?_
      | refine opFioOutputSet_keeps K2 ?_
    | exact rfl
    | split
    | (dsimp only)


theorem opFioRead_keeps {P : State → Prop} (K : Keeps [] P) {rq : Request} {s : State} (h : P s) :
    Answer.Keeps P (opFioRead.effect rq s) := by
  have _ := K
  unfold opFioRead
  try dsimp only
  repeat' first
    | with_reducible first
      | assumption
      | exact keep_deny
      | refine keep_done ?_
      | refine keep_fail ?_
      | refine keep_wait ?_
    | exact rfl
    | (dsimp only)


theorem execFioRead_keeps {P : State → Prop} (K : Keeps [.pkts, .integ, .free] P) {rq : Sys2Proof.Request} {s : State} (h : P s) :
    NextKeeps P (execFioRead rq s) := by
  have K1 := K.sub (as := []) rfl
  unfold execFioRead
  try dsimp only
  repeat' first
    | with_reducible first
      | assumption
      | refine keep_next ?_
      | refine runCommand_keeps K ?_ ?_
      | refine opFioRead_keeps K1 ?_
    | exact rfl
    | split
    | (dsimp only)


theorem opFioClear_keeps {P : State → Prop} (K : Keeps [.fio] P) {rq : Request} {s : State} (h : P s) :
    Answer.Keeps P (opFioClear.effect rq s) := by
  unfold opFioClear
  try dsimp only
  repeat' first
    | with_reducible first
      | assumption
      | refine onFioGroup_keeps K ?_
      | refine keep_foldl (P := P) (fun _ _ _ => ?_) ?_
      | exact keep_deny
      | refine keep_done ?_
      | refine keep_fail ?_
      | refine keep_wait ?_
    | exact rfl
    | (dsimp only)


theorem execFioClear_keeps {P : State → Prop} (K : Keeps [.pkts, .integ, .fio, .free] P) {rq : Sys2Proof.Request} {s : State} (h : P s) :
    NextKeeps P (execFioClear rq s) := by
  have K1 := K.sub (as := [.pkts, .integ, .free]) rfl
  have K2 := K.sub (as := [.fio]) rfl
  unfold execFioClear
  try dsimp only
  repeat' first
    | with_reducible first
      | assumption
      | refine keep_next ?_
      | refine runCommand_keeps K1 ?_ ?_
      | refine opFioClear_keeps K2 ?_
    | exact rfl
    | split
    | (dsimp only)


end Sys2Proof.Machine
end

