-- ==== Sys2Proof/Laws/KeepGearOps.lean ====
section
/-! SUPPORT.
What each function of Machine/GearOps.lean keeps. -/

namespace Sys2Proof.Machine

theorem opGearLink_keeps {P : State → Prop} (K : Keeps [.gear] P) {rq : Request} {s : State} (h : P s) :
    Answer.Keeps P (opGearLink.effect rq s) := by
  unfold opGearLink
  try dsimp only
  repeat' first
    | with_reducible first
      | assumption
      | refine onLink_keeps K ?_
      | refine keep_ite (P := P) ?_ ?_
      | refine keep_ite_answer ?_ ?_
      | exact keep_deny
      | refine keep_done ?_
      | refine keep_fail ?_
      | refine keep_wait ?_
    | exact rfl
    | split
    | (dsimp only)


theorem execGearLink_keeps {P : State → Prop} (K : Keeps [.pkts, .integ, .gear, .free] P) {rq : Sys2Proof.Request} {s : State} (h : P s) :
    NextKeeps P (execGearLink rq s) := by
  have K1 := K.sub (as := [.pkts, .integ, .free]) rfl
  have K2 := K.sub (as := [.gear]) rfl
  unfold execGearLink
  try dsimp only
  repeat' first
    | with_reducible first
      | assumption
      | refine keep_next ?_
      | refine runCommand_keeps K1 ?_ ?_
      | refine opGearLink_keeps K2 ?_
    | exact rfl
    | split
    | (dsimp only)


theorem opGearRatioAt_keeps {P : State → Prop} (K : Keeps [.gear] P) {rq : Request} {s : State} (h : P s) :
    Answer.Keeps P (opGearRatioAt.effect rq s) := by
  unfold opGearRatioAt
  try dsimp only
  repeat' first
    | with_reducible first
      | assumption
      | refine onLink_keeps K ?_
      | refine keep_ite (P := P) ?_ ?_
      | refine keep_ite_answer ?_ ?_
      | exact keep_deny
      | refine keep_done ?_
      | refine keep_fail ?_
      | refine keep_wait ?_
    | exact rfl
    | split
    | (dsimp only)


theorem execGearRatioAt_keeps {P : State → Prop} (K : Keeps [.pkts, .integ, .gear, .free] P) {rq : Sys2Proof.Request} {s : State} (h : P s) :
    NextKeeps P (execGearRatioAt rq s) := by
  have K1 := K.sub (as := [.pkts, .integ, .free]) rfl
  have K2 := K.sub (as := [.gear]) rfl
  unfold execGearRatioAt
  try dsimp only
  repeat' first
    | with_reducible first
      | assumption
      | refine keep_next ?_
      | refine runCommand_keeps K1 ?_ ?_
      | refine opGearRatioAt_keeps K2 ?_
    | exact rfl
    | split
    | (dsimp only)


theorem opGearClearPending_keeps {P : State → Prop} (K : Keeps [.gear] P) {rq : Request} {s : State} (h : P s) :
    Answer.Keeps P (opGearClearPending.effect rq s) := by
  unfold opGearClearPending
  try dsimp only
  repeat' first
    | with_reducible first
      | assumption
      | refine onLink_keeps K ?_
      | exact keep_deny
      | refine keep_done ?_
      | refine keep_fail ?_
      | refine keep_wait ?_
    | exact rfl
    | (dsimp only)


theorem execGearClearPending_keeps {P : State → Prop} (K : Keeps [.pkts, .integ, .gear, .free] P) {rq : Sys2Proof.Request} {s : State} (h : P s) :
    NextKeeps P (execGearClearPending rq s) := by
  have K1 := K.sub (as := [.pkts, .integ, .free]) rfl
  have K2 := K.sub (as := [.gear]) rfl
  unfold execGearClearPending
  try dsimp only
  repeat' first
    | with_reducible first
      | assumption
      | refine keep_next ?_
      | refine runCommand_keeps K1 ?_ ?_
      | refine opGearClearPending_keeps K2 ?_
    | exact rfl
    | split
    | (dsimp only)


theorem onCam_keeps {P : State → Prop} (K : Keeps [.gear] P) {t : Fin 32} {f : CamTable → CamTable} {s : State} (h : P s) :
    P (onCam t f s) := by
  unfold onCam
  try dsimp only
  repeat' first
    | with_reducible first
      | assumption
      | refine K.onGear rfl _ _ ?_
    | exact rfl
    | (dsimp only)


theorem opCamDefine_keeps {P : State → Prop} (K : Keeps [.plan, .gear] P) {rq : Request} {s : State} (h : P s) :
    Answer.Keeps P (opCamDefine.effect rq s) := by
  have K1 := K.sub (as := [.plan]) rfl
  have K2 := K.sub (as := [.gear]) rfl
  unfold opCamDefine
  try dsimp only
  repeat' first
    | with_reducible first
      | assumption
      | refine storeRelease_keeps K1 ?_
      | refine onCam_keeps K2 ?_
      | refine storeAllocate_keeps K1 ?_ _ ‹_›
      | refine keep_ite (P := P) ?_ ?_
      | refine keep_ite_answer ?_ ?_
      | exact keep_deny
      | refine keep_done ?_
      | refine keep_fail ?_
      | refine keep_wait ?_
    | exact rfl
    | split
    | (dsimp only)


theorem execCamDefine_keeps {P : State → Prop} (K : Keeps [.pkts, .integ, .plan, .gear, .free] P) {rq : Sys2Proof.Request} {s : State} (h : P s) :
    NextKeeps P (execCamDefine rq s) := by
  have K1 := K.sub (as := [.pkts, .integ, .free]) rfl
  have K2 := K.sub (as := [.plan, .gear]) rfl
  unfold execCamDefine
  try dsimp only
  repeat' first
    | with_reducible first
      | assumption
      | refine keep_next ?_
      | refine runCommand_keeps K1 ?_ ?_
      | refine opCamDefine_keeps K2 ?_
    | exact rfl
    | split
    | (dsimp only)


theorem opCamData_keeps {P : State → Prop} (K : Keeps [.gear] P) {rq : Request} {s : State} (h : P s) :
    Answer.Keeps P (opCamData.effect rq s) := by
  unfold opCamData
  try dsimp only
  repeat' first
    | with_reducible first
      | assumption
      | refine onCam_keeps K ?_
      | refine keep_ite (P := P) ?_ ?_
      | refine keep_foldl (P := P) (fun _ _ _ => ?_) ?_
      | refine keep_ite_answer ?_ ?_
      | exact keep_deny
      | refine keep_done ?_
      | refine keep_fail ?_
      | refine keep_wait ?_
    | exact rfl
    | split
    | (dsimp only)


theorem execCamData_keeps {P : State → Prop} (K : Keeps [.pkts, .integ, .gear, .free] P) {rq : Sys2Proof.Request} {s : State} (h : P s) :
    NextKeeps P (execCamData rq s) := by
  have K1 := K.sub (as := [.pkts, .integ, .free]) rfl
  have K2 := K.sub (as := [.gear]) rfl
  unfold execCamData
  try dsimp only
  repeat' first
    | with_reducible first
      | assumption
      | refine keep_next ?_
      | refine runCommand_keeps K1 ?_ ?_
      | refine opCamData_keeps K2 ?_
    | exact rfl
    | split
    | (dsimp only)


theorem opCamCommit_keeps {P : State → Prop} (K : Keeps [.gear] P) {rq : Request} {s : State} (h : P s) :
    Answer.Keeps P (opCamCommit.effect rq s) := by
  unfold opCamCommit
  try dsimp only
  repeat' first
    | with_reducible first
      | assumption
      | refine onCam_keeps K ?_
      | refine keep_ite (P := P) ?_ ?_
      | refine keep_ite_answer ?_ ?_
      | exact keep_deny
      | refine keep_done ?_
      | refine keep_fail ?_
      | refine keep_wait ?_
    | exact rfl
    | split
    | (dsimp only)


theorem execCamCommit_keeps {P : State → Prop} (K : Keeps [.pkts, .integ, .gear, .free] P) {rq : Sys2Proof.Request} {s : State} (h : P s) :
    NextKeeps P (execCamCommit rq s) := by
  have K1 := K.sub (as := [.pkts, .integ, .free]) rfl
  have K2 := K.sub (as := [.gear]) rfl
  unfold execCamCommit
  try dsimp only
  repeat' first
    | with_reducible first
      | assumption
      | refine keep_next ?_
      | refine runCommand_keeps K1 ?_ ?_
      | refine opCamCommit_keeps K2 ?_
    | exact rfl
    | split
    | (dsimp only)


theorem opVmasterSet_keeps {P : State → Prop} (K : Keeps [.gear] P) {rq : Request} {s : State} (h : P s) :
    Answer.Keeps P (opVmasterSet.effect rq s) := by
  unfold opVmasterSet
  try dsimp only
  repeat' first
    | with_reducible first
      | assumption
      | refine K.onGear rfl _ _ ?_
      | refine keep_ite (P := P) ?_ ?_
      | refine keep_ite_answer ?_ ?_
      | exact keep_deny
      | refine keep_done ?_
      | refine keep_fail ?_
      | refine keep_wait ?_
    | exact rfl
    | split
    | (dsimp only)


theorem execVmasterSet_keeps {P : State → Prop} (K : Keeps [.pkts, .integ, .gear, .free] P) {rq : Sys2Proof.Request} {s : State} (h : P s) :
    NextKeeps P (execVmasterSet rq s) := by
  have K1 := K.sub (as := [.pkts, .integ, .free]) rfl
  have K2 := K.sub (as := [.gear]) rfl
  unfold execVmasterSet
  try dsimp only
  repeat' first
    | with_reducible first
      | assumption
      | refine keep_next ?_
      | refine runCommand_keeps K1 ?_ ?_
      | refine opVmasterSet_keeps K2 ?_
    | exact rfl
    | split
    | (dsimp only)


theorem opGearStatusRead_keeps {P : State → Prop} (K : Keeps [] P) {rq : Request} {s : State} (h : P s) :
    Answer.Keeps P (opGearStatusRead.effect rq s) := by
  have _ := K
  unfold opGearStatusRead
  try dsimp only
  repeat' first
    | with_reducible first
      | assumption
      | exact keep_deny
      | refine keep_done ?_
      | refine keep_fail ?_
      | refine keep_wait ?_
    | exact rfl
    | (dsimp only)


theorem execGearStatusRead_keeps {P : State → Prop} (K : Keeps [.pkts, .integ, .free] P) {rq : Sys2Proof.Request} {s : State} (h : P s) :
    NextKeeps P (execGearStatusRead rq s) := by
  have K1 := K.sub (as := []) rfl
  unfold execGearStatusRead
  try dsimp only
  repeat' first
    | with_reducible first
      | assumption
      | refine keep_next ?_
      | refine runCommand_keeps K ?_ ?_
      | refine opGearStatusRead_keeps K1 ?_
    | exact rfl
    | split
    | (dsimp only)


end Sys2Proof.Machine
end

