-- ==== Sys2Proof/Laws/KeepHostPort.lean ====
section
/-! SUPPORT.
What each function of Machine/HostPort.lean keeps. -/

namespace Sys2Proof.Machine

theorem frame_keeps {P : State → Prop} {f : State → State} {s : State} (hf : P (f s)) (h : P s) : NextKeeps P (frame f s) := by
  refine keep_next ?_
  split <;> assumption


theorem frameResult_keeps {P : State → Prop} (K : Keeps [.serial] P) {code : Nat} {edges : Nat} {s : State} (h : P s) :
    P (frameResult code edges s) := by
  unfold frameResult
  try dsimp only
  repeat' first
    | with_reducible first
      | assumption
      | refine K.onSerial rfl _ _ (fun _ => ?_) ?_
    | exact rfl
    | (dsimp only)


theorem complete_keeps {P : State → Prop} (K : Keeps [.serial] P) {edges : Nat} {s : State} (h : P s) :
    P (complete edges s) := by
  unfold complete
  try dsimp only
  repeat' first
    | with_reducible first
      | assumption
      | refine frameResult_keeps K ?_
      | refine keep_ite (P := P) ?_ ?_
    | exact rfl
    | split
    | (dsimp only)


theorem selectWake_keeps {P : State → Prop} (K : Keeps [.power] P) {s : State} (h : P s) :
    P (selectWake s) := by
  unfold selectWake
  try dsimp only
  repeat' first
    | with_reducible first
      | assumption
      | refine K.onPower rfl _ _ ?_
      | refine keep_ite (P := P) ?_ ?_
    | exact rfl
    | split
    | (dsimp only)


theorem writeWords_keeps {P : State → Prop} (K : Keeps [.sys, .pkts, .integ, .axis, .plan, .gear, .loop, .ports, .bta, .stepper, .bricks, .net, .fio, .can, .serial, .acq, .lanes, .sram, .dev, .ctx, .free] P) {a : Nat} {l : List Word} {s : State} (h : P s) :
    P (writeWords a l s) := by
  induction l generalizing a s with
  | nil => exact h
  | cons w l ih => exact ih (accessWrite_keeps (K.sub rfl) h)


theorem commitWrite_keeps {P : State → Prop} (K : Keeps [.sys, .pkts, .integ, .axis, .plan, .gear, .loop, .ports, .bta, .stepper, .bricks, .net, .fio, .can, .serial, .acq, .lanes, .sram, .dev, .ctx, .free] P) {addr : Nat} {words : List Sys2Proof.Word} {edges : Nat} {s : State} (h : P s) :
    P (commitWrite addr words edges s) := by
  have K1 := K.sub (as := [.serial]) rfl
  have K2 := K.sub (as := [.integ, .ctx]) rfl
  unfold commitWrite
  try dsimp only
  repeat' first
    | with_reducible first
      | assumption
      | refine frameResult_keeps K1 ?_
      | refine failCheck_keeps K2 ?_
      | refine complete_keeps K1 ?_
      | refine writeWords_keeps K ?_
    | exact rfl
    | split
    | (dsimp only)


theorem commitPacket_keeps {P : State → Prop} (K : Keeps [.pkts, .serial] P) {arrived : Nat} {bytes : List Byte} {edges : Nat} {s : State}
    (hn : s.pkts.inbox.length < 8) (h : P s) : P (commitPacket arrived bytes edges s) := by
  refine complete_keeps (K.sub rfl) (K.onPkts rfl _ _ (fun hx => ⟨?_, hx.2⟩) h)
  simp
  omega


theorem commitHeld_keeps {P : State → Prop} (K : Keeps [.sys, .pkts, .integ, .axis, .plan, .gear, .loop, .ports, .bta, .stepper, .bricks, .net, .fio, .can, .serial, .acq, .lanes, .sram, .dev, .ctx, .free] P) {l : List HeldFrame} {s : State} (h : P s) : P (commitHeld l s) := by
  induction l generalizing s with
  | nil => exact K.onSerial rfl _ _ (fun _ => rfl) h
  | cons f l ih =>
    unfold commitHeld
    split
    · split
      · exact K.onSerial rfl _ _ (fun _ => rfl) h
      · exact ih (commitPacket_keeps (K.sub rfl) (by omega) h)
    · exact ih (commitWrite_keeps (K.sub rfl) h)


theorem holdFrame_keeps {P : State → Prop} (K : Keeps [.serial] P) {f : HeldFrame} {s : State} (h : P s) :
    P (holdFrame f s) := by
  unfold holdFrame
  try dsimp only
  repeat' first
    | with_reducible first
      | assumption
      | refine frameResult_keeps K ?_
      | refine K.onSerial rfl _ _ (fun _ => ?_) ?_
      | refine keep_ite (P := P) ?_ ?_
    | exact rfl
    | split
    | (dsimp only)


theorem wordTimeout_keeps {P : State → Prop} (K : Keeps [.sys, .pkts, .integ, .axis, .plan, .gear, .loop, .ports, .bta, .stepper, .bricks, .net, .fio, .can, .serial, .acq, .lanes, .sram, .dev, .ctx, .free] P) {s : State} (h : P s) :
    P (wordTimeout s) := by
  have K1 := K.sub (as := [.serial, .ctx]) rfl
  unfold wordTimeout
  try dsimp only
  repeat' first
    | with_reducible first
      | assumption
      | refine windowTimeout_keeps K1 ?_
      | refine indDrain_keeps K ?_
    | exact rfl
    | (dsimp only)


theorem fetchWords_keeps {P : State → Prop} (K : Keeps [.sys, .pkts, .integ, .axis, .plan, .gear, .loop, .ports, .bta, .stepper, .bricks, .net, .fio, .can, .serial, .acq, .lanes, .sram, .dev, .ctx, .free] P) {a n : Nat} {s : State} (h : P s) : P (fetchWords a n s).2 := by
  induction n generalizing a s with
  | zero => exact h
  | succ n ih =>
    unfold fetchWords
    split
    · split
      · rename_i w t hw
        exact ih (readDirect_out (K.sub rfl) h hw)
      · rename_i t hw
        exact ih (wordTimeout_keeps (K.sub rfl) (readDirect_out (K.sub rfl) h hw))
    · exact ih (failCheck_keeps (K.sub rfl) h)


theorem readFrame_keeps {P : State → Prop} (K : Keeps [.sys, .pkts, .integ, .axis, .plan, .gear, .loop, .ports, .bta, .stepper, .bricks, .net, .fio, .can, .serial, .acq, .lanes, .sram, .dev, .ctx, .free] P) {addr : Nat} {len : Nat} {fin : Sys2Proof.FrameEnd} {s : State} (h : P s) :
    P (readFrame addr len fin s) := by
  have K1 := K.sub (as := [.serial]) rfl
  have K2 := K.sub (as := [.ctx]) rfl
  have K3 := K.sub (as := [.integ, .loop, .acq, .lanes, .ctx]) rfl
  unfold readFrame
  try dsimp only
  repeat' first
    | with_reducible first
      | assumption
      | refine fetchWords_keeps K ?_
      | refine fetchWords_out K ?_ ‹_›
      | refine frameResult_keeps K1 ?_
      | refine onCtx_keeps K2 ?_
      | refine clearOnRead_keeps K3 ?_
      | refine complete_keeps K1 ?_
      | refine K.onSerial rfl _ _ (fun _ => ?_) ?_
      | refine keep_foldl (P := P) (fun _ _ _ => ?_) ?_
    | exact rfl
    | split
    | (dsimp only)


theorem execSphWriteFrame_keeps {P : State → Prop} (K : Keeps [.sys, .power, .pkts, .integ, .axis, .plan, .gear, .loop, .ports, .bta, .stepper, .bricks, .net, .fio, .can, .serial, .acq, .lanes, .sram, .dev, .ctx, .free] P) {addr : Nat} {words : List Sys2Proof.Word} {fin : Sys2Proof.FrameEnd} {s : State} (h : P s) :
    NextKeeps P (execSphWriteFrame addr words fin s) := by
  have K1 := K.sub (as := []) rfl
  have K2 := K.sub (as := [.power]) rfl
  have K3 := K.sub (as := [.serial]) rfl
  have K4 := K.sub (as := [.sys, .pkts, .integ, .axis, .plan, .gear, .loop, .ports, .bta, .stepper, .bricks, .net, .fio, .can, .serial, .acq, .lanes, .sram, .dev, .ctx, .free]) rfl
  unfold execSphWriteFrame
  try dsimp only
  repeat' first
    | with_reducible first
      | assumption
      | refine keep_next ?_
      | refine keep_ite_next ?_ ?_
      | refine frame_keeps ?_ ?_  -- K1
      | refine selectWake_keeps K2 ?_
      | refine frameResult_keeps K3 ?_
      | refine holdFrame_keeps K3 ?_
      | refine commitWrite_keeps K4 ?_
      | refine keep_ite (P := P) ?_ ?_
    | exact rfl
    | split
    | (dsimp only)


theorem execSphReadFrame_keeps {P : State → Prop} (K : Keeps [.sys, .power, .pkts, .integ, .axis, .plan, .gear, .loop, .ports, .bta, .stepper, .bricks, .net, .fio, .can, .serial, .acq, .lanes, .sram, .dev, .ctx, .free] P) {addr : Nat} {len : Nat} {fin : Sys2Proof.FrameEnd} {s : State} (h : P s) :
    NextKeeps P (execSphReadFrame addr len fin s) := by
  have K1 := K.sub (as := []) rfl
  have K2 := K.sub (as := [.power]) rfl
  have K3 := K.sub (as := [.serial]) rfl
  have K4 := K.sub (as := [.sys, .pkts, .integ, .axis, .plan, .gear, .loop, .ports, .bta, .stepper, .bricks, .net, .fio, .can, .serial, .acq, .lanes, .sram, .dev, .ctx, .free]) rfl
  unfold execSphReadFrame
  try dsimp only
  repeat' first
    | with_reducible first
      | assumption
      | refine keep_next ?_
      | refine keep_ite_next ?_ ?_
      | refine frame_keeps ?_ ?_  -- K1
      | refine selectWake_keeps K2 ?_
      | refine frameResult_keeps K3 ?_
      | refine readFrame_keeps K4 ?_
      | refine keep_ite (P := P) ?_ ?_
    | exact rfl
    | split
    | (dsimp only)


theorem execSphPacketIn_keeps {P : State → Prop} (K : Keeps [.power, .pkts, .serial] P) {bytes : List Sys2Proof.Byte} {fin : Sys2Proof.FrameEnd} {s : State} (h : P s) :
    NextKeeps P (execSphPacketIn bytes fin s) := by
  have K1 := K.sub (as := []) rfl
  have K2 := K.sub (as := [.power]) rfl
  have K3 := K.sub (as := [.serial]) rfl
  have K4 := K.sub (as := [.pkts, .serial]) rfl
  unfold execSphPacketIn
  refine keep_ite_next (keep_next h) (frame_keeps ?_ h)
  have hs : P (selectWake s) := selectWake_keeps (K.sub rfl) h
  dsimp only
  split
  · exact frameResult_keeps (K.sub rfl) hs
  · split
    · exact frameResult_keeps (K.sub rfl) hs
    · split
      · exact holdFrame_keeps (K.sub rfl) hs
      · split
        · exact frameResult_keeps (K.sub rfl) hs
        · exact commitPacket_keeps (K.sub rfl) (by omega) hs


theorem handReplyOut_keeps {P : State → Prop} (K : Keeps [.sys, .pkts] P) {s : State} (h : P s) :
    P (handReplyOut s) := by
  unfold handReplyOut
  refine K.onSys rfl _ _ ?_ ?_ ?_ (K.onPkts rfl _ _ (fun hx => ?_) h)
  · split
    · split <;> rfl
    · rfl
  · split
    · split <;> rfl
    · rfl
  · split
    · split <;> rfl
    · rfl
  · refine ⟨hx.1, ?_, hx.2.2⟩
    have h2 := hx.2.1
    simp [dropReplyOut] at h2 ⊢
    omega


theorem execSphPacketOut_keeps {P : State → Prop} (K : Keeps [.sys, .power, .pkts, .serial] P) {len : Nat} {fin : Sys2Proof.FrameEnd} {s : State} (h : P s) :
    NextKeeps P (execSphPacketOut len fin s) := by
  have K1 := K.sub (as := []) rfl
  have K2 := K.sub (as := [.power]) rfl
  have K3 := K.sub (as := [.serial]) rfl
  have K4 := K.sub (as := [.sys, .pkts]) rfl
  unfold execSphPacketOut
  try dsimp only
  repeat' first
    | with_reducible first
      | assumption
      | refine keep_next ?_
      | refine keep_ite_next ?_ ?_
      | refine frame_keeps ?_ ?_  -- K1
      | refine selectWake_keeps K2 ?_
      | refine frameResult_keeps K3 ?_
      | refine complete_keeps K3 ?_
      | refine handReplyOut_keeps K4 ?_
      | refine K.onSerial rfl _ _ (fun _ => ?_) ?_
      | refine keep_ite (P := P) ?_ ?_
    | exact hx
    | exact rfl
    | (refine ⟨hx.1, ?_, hx.2.2⟩; have h2 := hx.2.1; simp [dropReplyOut] at h2 ⊢; omega)
    | split
    | (dsimp only)


theorem execSphStatusFrame_keeps {P : State → Prop} (K : Keeps [.power, .serial] P) {fin : Sys2Proof.FrameEnd} {s : State} (h : P s) :
    NextKeeps P (execSphStatusFrame fin s) := by
  have K1 := K.sub (as := []) rfl
  have K2 := K.sub (as := [.power]) rfl
  have K3 := K.sub (as := [.serial]) rfl
  unfold execSphStatusFrame
  try dsimp only
  repeat' first
    | with_reducible first
      | assumption
      | refine keep_next ?_
      | refine keep_ite_next ?_ ?_
      | refine frame_keeps ?_ ?_  -- K1
      | refine selectWake_keeps K2 ?_
      | refine frameResult_keeps K3 ?_
      | refine complete_keeps K3 ?_
      | refine K.onSerial rfl _ _ (fun _ => ?_) ?_
      | refine keep_ite (P := P) ?_ ?_
    | exact rfl
    | split
    | (dsimp only)


theorem execSphBadCmdFrame_keeps {P : State → Prop} (K : Keeps [.power, .serial] P) {s : State} (h : P s) :
    NextKeeps P (execSphBadCmdFrame s) := by
  have K1 := K.sub (as := []) rfl
  have K2 := K.sub (as := [.serial]) rfl
  have K3 := K.sub (as := [.power]) rfl
  unfold execSphBadCmdFrame
  try dsimp only
  repeat' first
    | with_reducible first
      | assumption
      | refine keep_next ?_
      | refine keep_ite_next ?_ ?_
      | refine frame_keeps ?_ ?_  -- K1
      | refine frameResult_keeps K2 ?_
      | refine selectWake_keeps K3 ?_
      | refine keep_ite (P := P) ?_ ?_
    | exact rfl
    | split
    | (dsimp only)


theorem execSphWordTimeout_keeps {P : State → Prop} (K : Keeps [.serial, .ctx] P) {addr : Nat} {s : State} (h : P s) :
    NextKeeps P (execSphWordTimeout addr s) := by
  have K1 := K.sub (as := []) rfl
  have K2 := K.sub (as := [.ctx]) rfl
  unfold execSphWordTimeout
  try dsimp only
  repeat' first
    | with_reducible first
      | assumption
      | refine keep_next ?_
      | refine keep_ite_next ?_ ?_
      | refine frame_keeps ?_ ?_  -- K1
      | refine accessError_keeps K2 ?_
      | refine K.onSerial rfl _ _ (fun _ => ?_) ?_
      | refine keep_ite (P := P) ?_ ?_
    | exact rfl
    | split
    | (dsimp only)


end Sys2Proof.Machine
end

