-- ==== Sys2Proof/Laws/KeepImages.lean ====
section
/-! SUPPORT.
What each function of Machine/Images.lean keeps. -/

namespace Sys2Proof.Machine

theorem onFlash_keeps {P : State → Prop} (K : Keeps [.flash] P) {f : List Host.Cell → List Host.Cell} {s : State}
    (hf : Memory.wf 0xFF (bootFlash s) = true → Memory.wf 0xFF (f (bootFlash s)) = true) (h : P s) : P (onFlash f s) := by
  refine K.onFlash rfl _ _ (fun i hx => ?_) h
  by_cases e : 0 = i
  · subst e
    show Memory.wf 0xFF (upd s.serial.sel 0 fun d => { d with flash := f d.flash })[(0 : Fin 4)].flash = true
    rw [upd_same]
    exact hf hx
  · show Memory.wf 0xFF (upd s.serial.sel 0 fun d => { d with flash := f d.flash })[i].flash = true
    rw [upd_other _ _ _ _ e]
    exact hx


theorem copyPayload_keeps {P : State → Prop} (K : Keeps [.integ, .sram] P) {kind : Nat} {p : Nat × Nat} {s : State} (h : P s) :
    P (copyPayload kind p s) := by
  unfold copyPayload
  exact K.onSram rfl _ _ (fun hx => cellsWrite_wf hx) h


end Sys2Proof.Machine
end

