-- ==== Sys2Proof/Laws/KeepMemFaults.lean ====
section
/-! SUPPORT.
What each function of Machine/MemFaults.lean keeps. -/

namespace Sys2Proof.Machine

theorem restartGardener_keeps {P : State → Prop} (K : Keeps [.sys, .boot] P) {s : State} (h : P s) :
    P (restartGardener s) := by
  unfold restartGardener
  try dsimp only
  repeat' first
    | with_reducible first
      | assumption
      | refine K.onSys rfl _ _ rfl rfl rfl ?_
      | refine K.onBoot rfl _ _ ?_
    | exact rfl
    | (dsimp only)


theorem uncorrectable_keeps {P : State → Prop} (K : Keeps [.sys, .boot, .pkts, .integ, .axis, .plan, .gear, .loop, .bta, .stepper, .bricks, .lanes, .dev] P) {a : Nat} {s : State} (h : P s) :
    P (uncorrectable a s) := by
  have K1 := K.sub (as := [.integ]) rfl
  have K2 := K.sub (as := [.sys, .pkts, .integ, .axis, .plan, .gear, .loop, .bta, .stepper, .bricks, .dev]) rfl
  have K3 := K.sub (as := [.sys, .boot]) rfl
  have K4 := K.sub (as := [.pkts, .integ, .axis, .plan, .gear, .loop, .bta, .stepper, .bricks]) rfl
  have K5 := K.sub (as := [.pkts, .integ, .lanes]) rfl
  unfold uncorrectable
  try dsimp only
  repeat' first
    | with_reducible first
      | assumption
      | refine countPoison_keeps K1 ?_
      | refine deviceFault_keeps K2 ?_
      | refine restartGardener_keeps K3 ?_
      | refine axisFaults_keeps K4 ?_
      | refine recordFault_keeps K1 ?_
      | refine laneAbort_keeps K5 ?_
      | refine recordPoison_keeps K1 ?_
      | refine K.onSys rfl _ _ rfl rfl rfl ?_
      | refine keep_ite (P := P) ?_ ?_
    | exact rfl
    | split
    | (dsimp only)


theorem poison_keeps {P : State → Prop} (K : Keeps [.sys, .boot, .pkts, .integ, .axis, .plan, .gear, .loop, .bta, .stepper, .bricks, .lanes, .dev] P) {a : Nat} {s : State} (h : P s) :
    P (poison a s) := by
  unfold poison
  try dsimp only
  repeat' first
    | with_reducible first
      | assumption
      | refine uncorrectable_keeps K ?_
      | refine K.onInteg rfl _ _ (fun hx => ?_) ?_ ?_
      | refine keep_ite (P := P) ?_ ?_
    | exact hx
    | exact rfl
    | (refine ⟨?_, ?_, ?_⟩ <;> first | exact hx.1 | exact hx.2.1 | exact hx.2.2 | (have h1 := hx.1; have h2 := hx.2.1; have h3 := hx.2.2; simp at h1 h2 h3 ⊢; omega))
    | split
    | (dsimp only)


theorem countCorrection_keeps {P : State → Prop} (K : Keeps [.integ] P) {a : Nat} {n : Nat} {s : State} (h : P s) :
    P (countCorrection a n s) := by
  unfold countCorrection
  try dsimp only
  repeat' first
    | with_reducible first
      | assumption
      | refine onMemTally_keeps K ?_
      | refine event_keeps K ?_
      | refine keep_ite (P := P) ?_ ?_
    | exact rfl
    | split
    | (dsimp only)


end Sys2Proof.Machine
end

