-- ==== Sys2Proof/Laws/KeepIntegrity.lean ====
section
/-! SUPPORT.
What each function of Machine/Integrity.lean keeps. -/

namespace Sys2Proof.Machine

theorem execTallyAudit_keeps {P : State → Prop} (K : Keeps [.sys, .pkts, .integ, .axis, .plan, .gear, .loop, .bta, .stepper, .bricks, .dev] P) {s : State} (h : P s) :
    NextKeeps P (execTallyAudit s) := by
  unfold execTallyAudit
  try dsimp only
  repeat' first
    | with_reducible first
      | assumption
      | refine keep_next ?_
      | refine keep_ite_next ?_ ?_
      | refine deviceFault_keeps K ?_
      | refine K.onInteg rfl _ _ (fun hx => ?_) ?_ ?_
      | refine keep_ite (P := P) ?_ ?_
      | refine keep_foldl (P := P) (fun _ _ _ => ?_) ?_
    | exact hx
    | exact rfl
    | (refine ⟨?_, ?_, ?_⟩ <;> first | exact hx.1 | exact hx.2.1 | exact hx.2.2 | (have h1 := hx.1; have h2 := hx.2.1; have h3 := hx.2.2; simp at h1 h2 h3 ⊢; omega))
    | split
    | (dsimp only)


theorem opTallyRead_keeps {P : State → Prop} (K : Keeps [.free] P) {rq : Request} {s : State} (h : P s) :
    Answer.Keeps P (opTallyRead.effect rq s) := by
  unfold opTallyRead
  try dsimp only
  repeat' first
    | with_reducible first
      | assumption
      | refine K.onFree rfl _ _ ?_
      | exact keep_deny
      | refine keep_done ?_
      | refine keep_fail ?_
      | refine keep_wait ?_
    | exact rfl
    | (dsimp only)


theorem execTallyRead_keeps {P : State → Prop} (K : Keeps [.pkts, .integ, .free] P) {rq : Sys2Proof.Request} {s : State} (h : P s) :
    NextKeeps P (execTallyRead rq s) := by
  have K1 := K.sub (as := [.free]) rfl
  unfold execTallyRead
  try dsimp only
  repeat' first
    | with_reducible first
      | assumption
      | refine keep_next ?_
      | refine runCommand_keeps K ?_ ?_
      | refine opTallyRead_keeps K1 ?_
    | exact rfl
    | split
    | (dsimp only)


theorem opFaultRead_keeps {P : State → Prop} (K : Keeps [] P) {rq : Request} {s : State} (h : P s) :
    Answer.Keeps P (opFaultRead.effect rq s) := by
  have _ := K
  unfold opFaultRead
  try dsimp only
  repeat' first
    | with_reducible first
      | assumption
      | refine keep_ite (P := P) ?_ ?_
      | refine keep_ite_answer ?_ ?_
      | exact keep_deny
      | refine keep_done ?_
      | refine keep_fail ?_
      | refine keep_wait ?_
    | exact rfl
    | split
    | (dsimp only)


theorem execFaultRead_keeps {P : State → Prop} (K : Keeps [.pkts, .integ, .free] P) {rq : Sys2Proof.Request} {s : State} (h : P s) :
    NextKeeps P (execFaultRead rq s) := by
  have K1 := K.sub (as := []) rfl
  unfold execFaultRead
  try dsimp only
  repeat' first
    | with_reducible first
      | assumption
      | refine keep_next ?_
      | refine runCommand_keeps K ?_ ?_
      | refine opFaultRead_keeps K1 ?_
    | exact rfl
    | split
    | (dsimp only)


theorem opFaultAck_keeps {P : State → Prop} (K : Keeps [.integ] P) {rq : Request} {s : State} (h : P s) :
    Answer.Keeps P (opFaultAck.effect rq s) := by
  unfold opFaultAck
  try dsimp only
  repeat' first
    | with_reducible first
      | assumption
      | refine K.onInteg rfl _ _ (fun hx => ?_) ?_ ?_
      | refine keep_ite (P := P) ?_ ?_
      | refine keep_ite_answer ?_ ?_
      | exact keep_deny
      | refine keep_done ?_
      | refine keep_fail ?_
      | refine keep_wait ?_
    | exact hx
    | exact rfl
    | (refine ⟨?_, ?_, ?_⟩ <;> first | exact hx.1 | exact hx.2.1 | exact hx.2.2 | (have h1 := hx.1; have h2 := hx.2.1; have h3 := hx.2.2; simp at h1 h2 h3 ⊢; omega))
    | split
    | (dsimp only)


theorem execFaultAck_keeps {P : State → Prop} (K : Keeps [.pkts, .integ, .free] P) {rq : Sys2Proof.Request} {s : State} (h : P s) :
    NextKeeps P (execFaultAck rq s) := by
  have K1 := K.sub (as := [.integ]) rfl
  unfold execFaultAck
  try dsimp only
  repeat' first
    | with_reducible first
      | assumption
      | refine keep_next ?_
      | refine runCommand_keeps K ?_ ?_
      | refine opFaultAck_keeps K1 ?_
    | exact rfl
    | split
    | (dsimp only)


theorem opEventRead_keeps {P : State → Prop} (K : Keeps [.integ] P) {rq : Request} {s : State} (h : P s) :
    Answer.Keeps P (opEventRead.effect rq s) := by
  unfold opEventRead
  try dsimp only
  repeat' first
    | with_reducible first
      | assumption
      | refine K.onInteg rfl _ _ (fun hx => ?_) ?_ ?_
      | exact keep_deny
      | refine keep_done ?_
      | refine keep_fail ?_
      | refine keep_wait ?_
    | exact hx
    | exact rfl
    | (refine ⟨?_, ?_, ?_⟩ <;> first | exact hx.1 | exact hx.2.1 | exact hx.2.2 | (have h1 := hx.1; have h2 := hx.2.1; have h3 := hx.2.2; simp at h1 h2 h3 ⊢; omega))
    | (dsimp only)


theorem execEventRead_keeps {P : State → Prop} (K : Keeps [.pkts, .integ, .free] P) {rq : Sys2Proof.Request} {s : State} (h : P s) :
    NextKeeps P (execEventRead rq s) := by
  have K1 := K.sub (as := [.integ]) rfl
  unfold execEventRead
  try dsimp only
  repeat' first
    | with_reducible first
      | assumption
      | refine keep_next ?_
      | refine runCommand_keeps K ?_ ?_
      | refine opEventRead_keeps K1 ?_
    | exact rfl
    | split
    | (dsimp only)


theorem scrubBlock_keeps {P : State → Prop} (K : Keeps [.sys, .boot, .pkts, .integ, .axis, .plan, .gear, .loop, .bta, .stepper, .bricks, .lanes, .dev, .free] P) {a : Nat} {n : Nat} {s : State} (h : P s) :
    P (scrubBlock a n s) := by
  have K1 := K.sub (as := [.integ]) rfl
  have K2 := K.sub (as := [.sys, .boot, .pkts, .integ, .axis, .plan, .gear, .loop, .bta, .stepper, .bricks, .lanes, .dev]) rfl
  have K3 := K.sub (as := [.free]) rfl
  unfold scrubBlock
  try dsimp only
  repeat' first
    | with_reducible first
      | assumption
      | refine countPoison_keeps K1 ?_
      | refine countCorrection_keeps K1 ?_
      | refine poison_keeps K2 ?_
      | refine freshBool_keeps K3 ?_
      | refine freshBool_out K3 ?_ ‹_›
      | refine freshNat_keeps K3 ?_
      | refine freshNat_out K3 ?_ ‹_›
      | refine keep_ite (P := P) ?_ ?_
    | exact rfl
    | split
    | (dsimp only)


theorem scrubPass_keeps {P : State → Prop} (K : Keeps [.integ] P) {s : State} (h : P s) :
    P (scrubPass s) := by
  unfold scrubPass
  try dsimp only
  repeat' first
    | with_reducible first
      | assumption
      | refine K.onInteg rfl _ _ (fun hx => ?_) ?_ ?_
      | refine keep_ite (P := P) ?_ ?_
    | exact hx
    | exact rfl
    | (refine ⟨?_, ?_, ?_⟩ <;> first | exact hx.1 | exact hx.2.1 | exact hx.2.2 | (have h1 := hx.1; have h2 := hx.2.1; have h3 := hx.2.2; simp at h1 h2 h3 ⊢; omega))
    | split
    | (dsimp only)


theorem execMemoryScrub_keeps {P : State → Prop} (K : Keeps [.sys, .boot, .pkts, .integ, .axis, .plan, .gear, .loop, .bta, .stepper, .bricks, .lanes, .dev, .free] P) {addr : Nat} {symbols : Nat} {s : State} (h : P s) :
    NextKeeps P (execMemoryScrub addr symbols s) := by
  have K1 := K.sub (as := [.integ]) rfl
  unfold execMemoryScrub
  try dsimp only
  repeat' first
    | with_reducible first
      | assumption
      | refine keep_next ?_
      | refine keep_ite_next ?_ ?_
      | refine scrubBlock_keeps K ?_
      | refine scrubPass_keeps K1 ?_
      | refine keep_ite (P := P) ?_ ?_
    | exact rfl
    | split
    | (dsimp only)


theorem execVoteScrub_keeps {P : State → Prop} (K : Keeps [.sys, .pkts, .integ, .axis, .plan, .gear, .loop, .bta, .stepper, .bricks, .dev] P) {addr : Nat} {width : Nat} {resetVal : Sys2Proof.Word} {c0 : Sys2Proof.Word} {c1 : Sys2Proof.Word} {c2 : Sys2Proof.Word} {s : State} (h : P s) :
    NextKeeps P (execVoteScrub addr width resetVal c0 c1 c2 s) := by
  unfold execVoteScrub
  try dsimp only
  repeat' first
    | with_reducible first
      | assumption
      | refine keep_next ?_
      | refine keep_ite_next ?_ ?_
      | refine voteField_keeps K ?_
      | refine K.onSys rfl _ _ rfl rfl rfl ?_
      | refine keep_ite (P := P) ?_ ?_
    | exact rfl
    | split
    | (dsimp only)


end Sys2Proof.Machine
end

