-- ==== Sys2Proof/Laws/KeepLaneInstr.lean ====
section
/-! SUPPORT.
What each function of Machine/LaneInstr.lean keeps. -/

namespace Sys2Proof.Machine

theorem laneLoad_keeps {P : State → Prop} (K : Keeps [.lanes] P) : EffKeeps P laneLoad := by
  intro l t w s h u hu
  unfold laneLoad at hu
  dsimp only at hu
  split at hu
  · cases hu
  · rename_i r hr
    cases hu
    exact onLaneRegs_keeps K (laneRead_keeps K h _ hr)

theorem laneStore_keeps {P : State → Prop} (K : Keeps [.integ, .lanes, .ldata] P) : EffKeeps P laneStore := by
  intro l t w s h u hu
  unfold laneStore at hu
  dsimp only at hu
  split at hu
  · cases hu
  · rename_i r hr
    cases hu
    exact onLaneRegs_keeps (K.sub rfl) (laneWrite_keeps K h _ hr)

theorem laneMacx_keeps {P : State → Prop} (K : Keeps [.lanes] P) : EffKeeps P laneMacx := by
  intro l t w s h u hu
  unfold laneMacx at hu
  dsimp only at hu
  split at hu
  · cases hu
  · rename_i r hr
    split at hu
    · cases hu
    · rename_i v hv
      cases hu
      exact onLaneRegs_keeps K (laneRead_keeps K (laneRead_keeps K h _ hr) _ hv)

theorem execLaneNop_keeps {P : State → Prop} (K : Keeps [.pkts, .integ, .lanes] P) {lane : Fin 8} {s : State} (h : P s) :
    NextKeeps P (execLaneNop lane s) := by
  unfold execLaneNop
  try dsimp only
  repeat' first
    | with_reducible first
      | assumption
      | refine keep_next ?_
    | exact laneCommand_keeps K (by first | exact regsOnly_keeps (K.sub rfl) | exact laneLoad_keeps (K.sub rfl) | exact laneStore_keeps (K.sub rfl) | exact laneMacx_keeps (K.sub rfl) | (intro _ _ _ _ h _ e; cases e; exact endThread_keeps (K.sub rfl) h)) h
    | exact rfl
    | split
    | (dsimp only)


theorem execLaneAdd_keeps {P : State → Prop} (K : Keeps [.pkts, .integ, .lanes] P) {lane : Fin 8} {s : State} (h : P s) :
    NextKeeps P (execLaneAdd lane s) := by
  unfold execLaneAdd
  try dsimp only
  repeat' first
    | with_reducible first
      | assumption
      | refine keep_next ?_
    | exact laneCommand_keeps K (by first | exact regsOnly_keeps (K.sub rfl) | exact laneLoad_keeps (K.sub rfl) | exact laneStore_keeps (K.sub rfl) | exact laneMacx_keeps (K.sub rfl) | (intro _ _ _ _ h _ e; cases e; exact endThread_keeps (K.sub rfl) h)) h
    | exact rfl
    | split
    | (dsimp only)


theorem execLaneSub_keeps {P : State → Prop} (K : Keeps [.pkts, .integ, .lanes] P) {lane : Fin 8} {s : State} (h : P s) :
    NextKeeps P (execLaneSub lane s) := by
  unfold execLaneSub
  try dsimp only
  repeat' first
    | with_reducible first
      | assumption
      | refine keep_next ?_
    | exact laneCommand_keeps K (by first | exact regsOnly_keeps (K.sub rfl) | exact laneLoad_keeps (K.sub rfl) | exact laneStore_keeps (K.sub rfl) | exact laneMacx_keeps (K.sub rfl) | (intro _ _ _ _ h _ e; cases e; exact endThread_keeps (K.sub rfl) h)) h
    | exact rfl
    | split
    | (dsimp only)


theorem execLaneAdds_keeps {P : State → Prop} (K : Keeps [.pkts, .integ, .lanes] P) {lane : Fin 8} {s : State} (h : P s) :
    NextKeeps P (execLaneAdds lane s) := by
  unfold execLaneAdds
  try dsimp only
  repeat' first
    | with_reducible first
      | assumption
      | refine keep_next ?_
    | exact laneCommand_keeps K (by first | exact regsOnly_keeps (K.sub rfl) | exact laneLoad_keeps (K.sub rfl) | exact laneStore_keeps (K.sub rfl) | exact laneMacx_keeps (K.sub rfl) | (intro _ _ _ _ h _ e; cases e; exact endThread_keeps (K.sub rfl) h)) h
    | exact rfl
    | split
    | (dsimp only)


theorem execLaneSubs_keeps {P : State → Prop} (K : Keeps [.pkts, .integ, .lanes] P) {lane : Fin 8} {s : State} (h : P s) :
    NextKeeps P (execLaneSubs lane s) := by
  unfold execLaneSubs
  try dsimp only
  repeat' first
    | with_reducible first
      | assumption
      | refine keep_next ?_
    | exact laneCommand_keeps K (by first | exact regsOnly_keeps (K.sub rfl) | exact laneLoad_keeps (K.sub rfl) | exact laneStore_keeps (K.sub rfl) | exact laneMacx_keeps (K.sub rfl) | (intro _ _ _ _ h _ e; cases e; exact endThread_keeps (K.sub rfl) h)) h
    | exact rfl
    | split
    | (dsimp only)


theorem execLaneMul_keeps {P : State → Prop} (K : Keeps [.pkts, .integ, .lanes] P) {lane : Fin 8} {s : State} (h : P s) :
    NextKeeps P (execLaneMul lane s) := by
  unfold execLaneMul
  try dsimp only
  repeat' first
    | with_reducible first
      | assumption
      | refine keep_next ?_
    | exact laneCommand_keeps K (by first | exact regsOnly_keeps (K.sub rfl) | exact laneLoad_keeps (K.sub rfl) | exact laneStore_keeps (K.sub rfl) | exact laneMacx_keeps (K.sub rfl) | (intro _ _ _ _ h _ e; cases e; exact endThread_keeps (K.sub rfl) h)) h
    | exact rfl
    | split
    | (dsimp only)


theorem execLaneMulh_keeps {P : State → Prop} (K : Keeps [.pkts, .integ, .lanes] P) {lane : Fin 8} {s : State} (h : P s) :
    NextKeeps P (execLaneMulh lane s) := by
  unfold execLaneMulh
  try dsimp only
  repeat' first
    | with_reducible first
      | assumption
      | refine keep_next ?_
    | exact laneCommand_keeps K (by first | exact regsOnly_keeps (K.sub rfl) | exact laneLoad_keeps (K.sub rfl) | exact laneStore_keeps (K.sub rfl) | exact laneMacx_keeps (K.sub rfl) | (intro _ _ _ _ h _ e; cases e; exact endThread_keeps (K.sub rfl) h)) h
    | exact rfl
    | split
    | (dsimp only)


theorem execLaneAnd_keeps {P : State → Prop} (K : Keeps [.pkts, .integ, .lanes] P) {lane : Fin 8} {s : State} (h : P s) :
    NextKeeps P (execLaneAnd lane s) := by
  unfold execLaneAnd
  try dsimp only
  repeat' first
    | with_reducible first
      | assumption
      | refine keep_next ?_
    | exact laneCommand_keeps K (by first | exact regsOnly_keeps (K.sub rfl) | exact laneLoad_keeps (K.sub rfl) | exact laneStore_keeps (K.sub rfl) | exact laneMacx_keeps (K.sub rfl) | (intro _ _ _ _ h _ e; cases e; exact endThread_keeps (K.sub rfl) h)) h
    | exact rfl
    | split
    | (dsimp only)


theorem execLaneOr_keeps {P : State → Prop} (K : Keeps [.pkts, .integ, .lanes] P) {lane : Fin 8} {s : State} (h : P s) :
    NextKeeps P (execLaneOr lane s) := by
  unfold execLaneOr
  try dsimp only
  repeat' first
    | with_reducible first
      | assumption
      | refine keep_next ?_
    | exact laneCommand_keeps K (by first | exact regsOnly_keeps (K.sub rfl) | exact laneLoad_keeps (K.sub rfl) | exact laneStore_keeps (K.sub rfl) | exact laneMacx_keeps (K.sub rfl) | (intro _ _ _ _ h _ e; cases e; exact endThread_keeps (K.sub rfl) h)) h
    | exact rfl
    | split
    | (dsimp only)


theorem execLaneXor_keeps {P : State → Prop} (K : Keeps [.pkts, .integ, .lanes] P) {lane : Fin 8} {s : State} (h : P s) :
    NextKeeps P (execLaneXor lane s) := by
  unfold execLaneXor
  try dsimp only
  repeat' first
    | with_reducible first
      | assumption
      | refine keep_next ?_
    | exact laneCommand_keeps K (by first | exact regsOnly_keeps (K.sub rfl) | exact laneLoad_keeps (K.sub rfl) | exact laneStore_keeps (K.sub rfl) | exact laneMacx_keeps (K.sub rfl) | (intro _ _ _ _ h _ e; cases e; exact endThread_keeps (K.sub rfl) h)) h
    | exact rfl
    | split
    | (dsimp only)


theorem execLaneShl_keeps {P : State → Prop} (K : Keeps [.pkts, .integ, .lanes] P) {lane : Fin 8} {s : State} (h : P s) :
    NextKeeps P (execLaneShl lane s) := by
  unfold execLaneShl
  try dsimp only
  repeat' first
    | with_reducible first
      | assumption
      | refine keep_next ?_
    | exact laneCommand_keeps K (by first | exact regsOnly_keeps (K.sub rfl) | exact laneLoad_keeps (K.sub rfl) | exact laneStore_keeps (K.sub rfl) | exact laneMacx_keeps (K.sub rfl) | (intro _ _ _ _ h _ e; cases e; exact endThread_keeps (K.sub rfl) h)) h
    | exact rfl
    | split
    | (dsimp only)


theorem execLaneShr_keeps {P : State → Prop} (K : Keeps [.pkts, .integ, .lanes] P) {lane : Fin 8} {s : State} (h : P s) :
    NextKeeps P (execLaneShr lane s) := by
  unfold execLaneShr
  try dsimp only
  repeat' first
    | with_reducible first
      | assumption
      | refine keep_next ?_
    | exact laneCommand_keeps K (by first | exact regsOnly_keeps (K.sub rfl) | exact laneLoad_keeps (K.sub rfl) | exact laneStore_keeps (K.sub rfl) | exact laneMacx_keeps (K.sub rfl) | (intro _ _ _ _ h _ e; cases e; exact endThread_keeps (K.sub rfl) h)) h
    | exact rfl
    | split
    | (dsimp only)


theorem execLaneSar_keeps {P : State → Prop} (K : Keeps [.pkts, .integ, .lanes] P) {lane : Fin 8} {s : State} (h : P s) :
    NextKeeps P (execLaneSar lane s) := by
  unfold execLaneSar
  try dsimp only
  repeat' first
    | with_reducible first
      | assumption
      | refine keep_next ?_
    | exact laneCommand_keeps K (by first | exact regsOnly_keeps (K.sub rfl) | exact laneLoad_keeps (K.sub rfl) | exact laneStore_keeps (K.sub rfl) | exact laneMacx_keeps (K.sub rfl) | (intro _ _ _ _ h _ e; cases e; exact endThread_keeps (K.sub rfl) h)) h
    | exact rfl
    | split
    | (dsimp only)


theorem execLaneMin_keeps {P : State → Prop} (K : Keeps [.pkts, .integ, .lanes] P) {lane : Fin 8} {s : State} (h : P s) :
    NextKeeps P (execLaneMin lane s) := by
  unfold execLaneMin
  try dsimp only
  repeat' first
    | with_reducible first
      | assumption
      | refine keep_next ?_
      | refine keep_ite_next ?_ ?_
      | refine keep_ite (P := P) ?_ ?_
    | exact laneCommand_keeps K (by first | exact regsOnly_keeps (K.sub rfl) | exact laneLoad_keeps (K.sub rfl) | exact laneStore_keeps (K.sub rfl) | exact laneMacx_keeps (K.sub rfl) | (intro _ _ _ _ h _ e; cases e; exact endThread_keeps (K.sub rfl) h)) h
    | exact rfl
    | split
    | (dsimp only)


theorem execLaneMax_keeps {P : State → Prop} (K : Keeps [.pkts, .integ, .lanes] P) {lane : Fin 8} {s : State} (h : P s) :
    NextKeeps P (execLaneMax lane s) := by
  unfold execLaneMax
  try dsimp only
  repeat' first
    | with_reducible first
      | assumption
      | refine keep_next ?_
      | refine keep_ite_next ?_ ?_
      | refine keep_ite (P := P) ?_ ?_
    | exact laneCommand_keeps K (by first | exact regsOnly_keeps (K.sub rfl) | exact laneLoad_keeps (K.sub rfl) | exact laneStore_keeps (K.sub rfl) | exact laneMacx_keeps (K.sub rfl) | (intro _ _ _ _ h _ e; cases e; exact endThread_keeps (K.sub rfl) h)) h
    | exact rfl
    | split
    | (dsimp only)


theorem execLaneAbs_keeps {P : State → Prop} (K : Keeps [.pkts, .integ, .lanes] P) {lane : Fin 8} {s : State} (h : P s) :
    NextKeeps P (execLaneAbs lane s) := by
  unfold execLaneAbs
  try dsimp only
  repeat' first
    | with_reducible first
      | assumption
      | refine keep_next ?_
    | exact laneCommand_keeps K (by first | exact regsOnly_keeps (K.sub rfl) | exact laneLoad_keeps (K.sub rfl) | exact laneStore_keeps (K.sub rfl) | exact laneMacx_keeps (K.sub rfl) | (intro _ _ _ _ h _ e; cases e; exact endThread_keeps (K.sub rfl) h)) h
    | exact rfl
    | split
    | (dsimp only)


theorem execLaneAddi_keeps {P : State → Prop} (K : Keeps [.pkts, .integ, .lanes] P) {lane : Fin 8} {s : State} (h : P s) :
    NextKeeps P (execLaneAddi lane s) := by
  unfold execLaneAddi
  try dsimp only
  repeat' first
    | with_reducible first
      | assumption
      | refine keep_next ?_
    | exact laneCommand_keeps K (by first | exact regsOnly_keeps (K.sub rfl) | exact laneLoad_keeps (K.sub rfl) | exact laneStore_keeps (K.sub rfl) | exact laneMacx_keeps (K.sub rfl) | (intro _ _ _ _ h _ e; cases e; exact endThread_keeps (K.sub rfl) h)) h
    | exact rfl
    | split
    | (dsimp only)


theorem execLaneLui_keeps {P : State → Prop} (K : Keeps [.pkts, .integ, .lanes] P) {lane : Fin 8} {s : State} (h : P s) :
    NextKeeps P (execLaneLui lane s) := by
  unfold execLaneLui
  try dsimp only
  repeat' first
    | with_reducible first
      | assumption
      | refine keep_next ?_
    | exact laneCommand_keeps K (by first | exact regsOnly_keeps (K.sub rfl) | exact laneLoad_keeps (K.sub rfl) | exact laneStore_keeps (K.sub rfl) | exact laneMacx_keeps (K.sub rfl) | (intro _ _ _ _ h _ e; cases e; exact endThread_keeps (K.sub rfl) h)) h
    | exact rfl
    | split
    | (dsimp only)


theorem execLaneOri_keeps {P : State → Prop} (K : Keeps [.pkts, .integ, .lanes] P) {lane : Fin 8} {s : State} (h : P s) :
    NextKeeps P (execLaneOri lane s) := by
  unfold execLaneOri
  try dsimp only
  repeat' first
    | with_reducible first
      | assumption
      | refine keep_next ?_
    | exact laneCommand_keeps K (by first | exact regsOnly_keeps (K.sub rfl) | exact laneLoad_keeps (K.sub rfl) | exact laneStore_keeps (K.sub rfl) | exact laneMacx_keeps (K.sub rfl) | (intro _ _ _ _ h _ e; cases e; exact endThread_keeps (K.sub rfl) h)) h
    | exact rfl
    | split
    | (dsimp only)


theorem execLaneShli_keeps {P : State → Prop} (K : Keeps [.pkts, .integ, .lanes] P) {lane : Fin 8} {s : State} (h : P s) :
    NextKeeps P (execLaneShli lane s) := by
  unfold execLaneShli
  try dsimp only
  repeat' first
    | with_reducible first
      | assumption
      | refine keep_next ?_
    | exact laneCommand_keeps K (by first | exact regsOnly_keeps (K.sub rfl) | exact laneLoad_keeps (K.sub rfl) | exact laneStore_keeps (K.sub rfl) | exact laneMacx_keeps (K.sub rfl) | (intro _ _ _ _ h _ e; cases e; exact endThread_keeps (K.sub rfl) h)) h
    | exact rfl
    | split
    | (dsimp only)


theorem execLaneSari_keeps {P : State → Prop} (K : Keeps [.pkts, .integ, .lanes] P) {lane : Fin 8} {s : State} (h : P s) :
    NextKeeps P (execLaneSari lane s) := by
  unfold execLaneSari
  try dsimp only
  repeat' first
    | with_reducible first
      | assumption
      | refine keep_next ?_
    | exact laneCommand_keeps K (by first | exact regsOnly_keeps (K.sub rfl) | exact laneLoad_keeps (K.sub rfl) | exact laneStore_keeps (K.sub rfl) | exact laneMacx_keeps (K.sub rfl) | (intro _ _ _ _ h _ e; cases e; exact endThread_keeps (K.sub rfl) h)) h
    | exact rfl
    | split
    | (dsimp only)


theorem execLaneShri_keeps {P : State → Prop} (K : Keeps [.pkts, .integ, .lanes] P) {lane : Fin 8} {s : State} (h : P s) :
    NextKeeps P (execLaneShri lane s) := by
  unfold execLaneShri
  try dsimp only
  repeat' first
    | with_reducible first
      | assumption
      | refine keep_next ?_
    | exact laneCommand_keeps K (by first | exact regsOnly_keeps (K.sub rfl) | exact laneLoad_keeps (K.sub rfl) | exact laneStore_keeps (K.sub rfl) | exact laneMacx_keeps (K.sub rfl) | (intro _ _ _ _ h _ e; cases e; exact endThread_keeps (K.sub rfl) h)) h
    | exact rfl
    | split
    | (dsimp only)


theorem execLaneLd_keeps {P : State → Prop} (K : Keeps [.pkts, .integ, .lanes] P) {lane : Fin 8} {s : State} (h : P s) :
    NextKeeps P (execLaneLd lane s) := by
  unfold execLaneLd
  try dsimp only
  repeat' first
    | with_reducible first
      | assumption
      | refine keep_next ?_
    | exact laneCommand_keeps K (by first | exact regsOnly_keeps (K.sub rfl) | exact laneLoad_keeps (K.sub rfl) | exact laneStore_keeps (K.sub rfl) | exact laneMacx_keeps (K.sub rfl) | (intro _ _ _ _ h _ e; cases e; exact endThread_keeps (K.sub rfl) h)) h
    | exact rfl
    | split
    | (dsimp only)


theorem execLaneSt_keeps {P : State → Prop} (K : Keeps [.pkts, .integ, .lanes, .ldata] P) {lane : Fin 8} {s : State} (h : P s) :
    NextKeeps P (execLaneSt lane s) := by
  have K1 := K.sub (as := [.pkts, .integ, .lanes]) rfl
  unfold execLaneSt
  try dsimp only
  repeat' first
    | with_reducible first
      | assumption
      | refine keep_next ?_
    | exact laneCommand_keeps K1 (by first | exact regsOnly_keeps (K.sub rfl) | exact laneLoad_keeps (K.sub rfl) | exact laneStore_keeps (K.sub rfl) | exact laneMacx_keeps (K.sub rfl) | (intro _ _ _ _ h _ e; cases e; exact endThread_keeps (K.sub rfl) h)) h
    | exact rfl
    | split
    | (dsimp only)


theorem execLaneSetx_keeps {P : State → Prop} (K : Keeps [.pkts, .integ, .lanes] P) {lane : Fin 8} {s : State} (h : P s) :
    NextKeeps P (execLaneSetx lane s) := by
  unfold execLaneSetx
  try dsimp only
  repeat' first
    | with_reducible first
      | assumption
      | refine keep_next ?_
    | exact laneCommand_keeps K (by first | exact regsOnly_keeps (K.sub rfl) | exact laneLoad_keeps (K.sub rfl) | exact laneStore_keeps (K.sub rfl) | exact laneMacx_keeps (K.sub rfl) | (intro _ _ _ _ h _ e; cases e; exact endThread_keeps (K.sub rfl) h)) h
    | exact rfl
    | split
    | (dsimp only)


theorem execLaneGetx_keeps {P : State → Prop} (K : Keeps [.pkts, .integ, .lanes] P) {lane : Fin 8} {s : State} (h : P s) :
    NextKeeps P (execLaneGetx lane s) := by
  unfold execLaneGetx
  try dsimp only
  repeat' first
    | with_reducible first
      | assumption
      | refine keep_next ?_
    | exact laneCommand_keeps K (by first | exact regsOnly_keeps (K.sub rfl) | exact laneLoad_keeps (K.sub rfl) | exact laneStore_keeps (K.sub rfl) | exact laneMacx_keeps (K.sub rfl) | (intro _ _ _ _ h _ e; cases e; exact endThread_keeps (K.sub rfl) h)) h
    | exact rfl
    | split
    | (dsimp only)


theorem execLaneClr_keeps {P : State → Prop} (K : Keeps [.pkts, .integ, .lanes] P) {lane : Fin 8} {s : State} (h : P s) :
    NextKeeps P (execLaneClr lane s) := by
  unfold execLaneClr
  try dsimp only
  repeat' first
    | with_reducible first
      | assumption
      | refine keep_next ?_
    | exact laneCommand_keeps K (by first | exact regsOnly_keeps (K.sub rfl) | exact laneLoad_keeps (K.sub rfl) | exact laneStore_keeps (K.sub rfl) | exact laneMacx_keeps (K.sub rfl) | (intro _ _ _ _ h _ e; cases e; exact endThread_keeps (K.sub rfl) h)) h
    | exact rfl
    | split
    | (dsimp only)


theorem execLaneMpy_keeps {P : State → Prop} (K : Keeps [.pkts, .integ, .lanes] P) {lane : Fin 8} {s : State} (h : P s) :
    NextKeeps P (execLaneMpy lane s) := by
  unfold execLaneMpy
  try dsimp only
  repeat' first
    | with_reducible first
      | assumption
      | refine keep_next ?_
    | exact laneCommand_keeps K (by first | exact regsOnly_keeps (K.sub rfl) | exact laneLoad_keeps (K.sub rfl) | exact laneStore_keeps (K.sub rfl) | exact laneMacx_keeps (K.sub rfl) | (intro _ _ _ _ h _ e; cases e; exact endThread_keeps (K.sub rfl) h)) h
    | exact rfl
    | split
    | (dsimp only)


theorem execLaneMac_keeps {P : State → Prop} (K : Keeps [.pkts, .integ, .lanes] P) {lane : Fin 8} {s : State} (h : P s) :
    NextKeeps P (execLaneMac lane s) := by
  unfold execLaneMac
  try dsimp only
  repeat' first
    | with_reducible first
      | assumption
      | refine keep_next ?_
    | exact laneCommand_keeps K (by first | exact regsOnly_keeps (K.sub rfl) | exact laneLoad_keeps (K.sub rfl) | exact laneStore_keeps (K.sub rfl) | exact laneMacx_keeps (K.sub rfl) | (intro _ _ _ _ h _ e; cases e; exact endThread_keeps (K.sub rfl) h)) h
    | exact rfl
    | split
    | (dsimp only)


theorem execLaneMsu_keeps {P : State → Prop} (K : Keeps [.pkts, .integ, .lanes] P) {lane : Fin 8} {s : State} (h : P s) :
    NextKeeps P (execLaneMsu lane s) := by
  unfold execLaneMsu
  try dsimp only
  repeat' first
    | with_reducible first
      | assumption
      | refine keep_next ?_
    | exact laneCommand_keeps K (by first | exact regsOnly_keeps (K.sub rfl) | exact laneLoad_keeps (K.sub rfl) | exact laneStore_keeps (K.sub rfl) | exact laneMacx_keeps (K.sub rfl) | (intro _ _ _ _ h _ e; cases e; exact endThread_keeps (K.sub rfl) h)) h
    | exact rfl
    | split
    | (dsimp only)


theorem execLaneMacx_keeps {P : State → Prop} (K : Keeps [.pkts, .integ, .lanes] P) {lane : Fin 8} {s : State} (h : P s) :
    NextKeeps P (execLaneMacx lane s) := by
  unfold execLaneMacx
  try dsimp only
  repeat' first
    | with_reducible first
      | assumption
      | refine keep_next ?_
    | exact laneCommand_keeps K (by first | exact regsOnly_keeps (K.sub rfl) | exact laneLoad_keeps (K.sub rfl) | exact laneStore_keeps (K.sub rfl) | exact laneMacx_keeps (K.sub rfl) | (intro _ _ _ _ h _ e; cases e; exact endThread_keeps (K.sub rfl) h)) h
    | exact rfl
    | split
    | (dsimp only)


theorem execLaneAdda_keeps {P : State → Prop} (K : Keeps [.pkts, .integ, .lanes] P) {lane : Fin 8} {s : State} (h : P s) :
    NextKeeps P (execLaneAdda lane s) := by
  unfold execLaneAdda
  try dsimp only
  repeat' first
    | with_reducible first
      | assumption
      | refine keep_next ?_
    | exact laneCommand_keeps K (by first | exact regsOnly_keeps (K.sub rfl) | exact laneLoad_keeps (K.sub rfl) | exact laneStore_keeps (K.sub rfl) | exact laneMacx_keeps (K.sub rfl) | (intro _ _ _ _ h _ e; cases e; exact endThread_keeps (K.sub rfl) h)) h
    | exact rfl
    | split
    | (dsimp only)


theorem execLaneSha_keeps {P : State → Prop} (K : Keeps [.pkts, .integ, .lanes] P) {lane : Fin 8} {s : State} (h : P s) :
    NextKeeps P (execLaneSha lane s) := by
  unfold execLaneSha
  try dsimp only
  repeat' first
    | with_reducible first
      | assumption
      | refine keep_next ?_
    | exact laneCommand_keeps K (by first | exact regsOnly_keeps (K.sub rfl) | exact laneLoad_keeps (K.sub rfl) | exact laneStore_keeps (K.sub rfl) | exact laneMacx_keeps (K.sub rfl) | (intro _ _ _ _ h _ e; cases e; exact endThread_keeps (K.sub rfl) h)) h
    | exact rfl
    | split
    | (dsimp only)


theorem execLaneExp_keeps {P : State → Prop} (K : Keeps [.pkts, .integ, .lanes] P) {lane : Fin 8} {s : State} (h : P s) :
    NextKeeps P (execLaneExp lane s) := by
  unfold execLaneExp
  try dsimp only
  repeat' first
    | with_reducible first
      | assumption
      | refine keep_next ?_
    | exact laneCommand_keeps K (by first | exact regsOnly_keeps (K.sub rfl) | exact laneLoad_keeps (K.sub rfl) | exact laneStore_keeps (K.sub rfl) | exact laneMacx_keeps (K.sub rfl) | (intro _ _ _ _ h _ e; cases e; exact endThread_keeps (K.sub rfl) h)) h
    | exact rfl
    | split
    | (dsimp only)


theorem execLaneNorm_keeps {P : State → Prop} (K : Keeps [.pkts, .integ, .lanes] P) {lane : Fin 8} {s : State} (h : P s) :
    NextKeeps P (execLaneNorm lane s) := by
  unfold execLaneNorm
  try dsimp only
  repeat' first
    | with_reducible first
      | assumption
      | refine keep_next ?_
    | exact laneCommand_keeps K (by first | exact regsOnly_keeps (K.sub rfl) | exact laneLoad_keeps (K.sub rfl) | exact laneStore_keeps (K.sub rfl) | exact laneMacx_keeps (K.sub rfl) | (intro _ _ _ _ h _ e; cases e; exact endThread_keeps (K.sub rfl) h)) h
    | exact rfl
    | split
    | (dsimp only)


theorem execLaneMovah_keeps {P : State → Prop} (K : Keeps [.pkts, .integ, .lanes] P) {lane : Fin 8} {s : State} (h : P s) :
    NextKeeps P (execLaneMovah lane s) := by
  unfold execLaneMovah
  try dsimp only
  repeat' first
    | with_reducible first
      | assumption
      | refine keep_next ?_
    | exact laneCommand_keeps K (by first | exact regsOnly_keeps (K.sub rfl) | exact laneLoad_keeps (K.sub rfl) | exact laneStore_keeps (K.sub rfl) | exact laneMacx_keeps (K.sub rfl) | (intro _ _ _ _ h _ e; cases e; exact endThread_keeps (K.sub rfl) h)) h
    | exact rfl
    | split
    | (dsimp only)


theorem execLaneLda_keeps {P : State → Prop} (K : Keeps [.pkts, .integ, .lanes] P) {lane : Fin 8} {s : State} (h : P s) :
    NextKeeps P (execLaneLda lane s) := by
  unfold execLaneLda
  try dsimp only
  repeat' first
    | with_reducible first
      | assumption
      | refine keep_next ?_
    | exact laneCommand_keeps K (by first | exact regsOnly_keeps (K.sub rfl) | exact laneLoad_keeps (K.sub rfl) | exact laneStore_keeps (K.sub rfl) | exact laneMacx_keeps (K.sub rfl) | (intro _ _ _ _ h _ e; cases e; exact endThread_keeps (K.sub rfl) h)) h
    | exact rfl
    | split
    | (dsimp only)


theorem execLaneBeq_keeps {P : State → Prop} (K : Keeps [.pkts, .integ, .lanes] P) {lane : Fin 8} {s : State} (h : P s) :
    NextKeeps P (execLaneBeq lane s) := by
  unfold execLaneBeq
  try dsimp only
  repeat' first
    | with_reducible first
      | assumption
      | refine keep_next ?_
    | exact laneCommand_keeps K (by first | exact regsOnly_keeps (K.sub rfl) | exact laneLoad_keeps (K.sub rfl) | exact laneStore_keeps (K.sub rfl) | exact laneMacx_keeps (K.sub rfl) | (intro _ _ _ _ h _ e; cases e; exact endThread_keeps (K.sub rfl) h)) h
    | exact rfl
    | split
    | (dsimp only)


theorem execLaneBne_keeps {P : State → Prop} (K : Keeps [.pkts, .integ, .lanes] P) {lane : Fin 8} {s : State} (h : P s) :
    NextKeeps P (execLaneBne lane s) := by
  unfold execLaneBne
  try dsimp only
  repeat' first
    | with_reducible first
      | assumption
      | refine keep_next ?_
    | exact laneCommand_keeps K (by first | exact regsOnly_keeps (K.sub rfl) | exact laneLoad_keeps (K.sub rfl) | exact laneStore_keeps (K.sub rfl) | exact laneMacx_keeps (K.sub rfl) | (intro _ _ _ _ h _ e; cases e; exact endThread_keeps (K.sub rfl) h)) h
    | exact rfl
    | split
    | (dsimp only)


theorem execLaneBlt_keeps {P : State → Prop} (K : Keeps [.pkts, .integ, .lanes] P) {lane : Fin 8} {s : State} (h : P s) :
    NextKeeps P (execLaneBlt lane s) := by
  unfold execLaneBlt
  try dsimp only
  repeat' first
    | with_reducible first
      | assumption
      | refine keep_next ?_
    | exact laneCommand_keeps K (by first | exact regsOnly_keeps (K.sub rfl) | exact laneLoad_keeps (K.sub rfl) | exact laneStore_keeps (K.sub rfl) | exact laneMacx_keeps (K.sub rfl) | (intro _ _ _ _ h _ e; cases e; exact endThread_keeps (K.sub rfl) h)) h
    | exact rfl
    | split
    | (dsimp only)


theorem execLaneBge_keeps {P : State → Prop} (K : Keeps [.pkts, .integ, .lanes] P) {lane : Fin 8} {s : State} (h : P s) :
    NextKeeps P (execLaneBge lane s) := by
  unfold execLaneBge
  try dsimp only
  repeat' first
    | with_reducible first
      | assumption
      | refine keep_next ?_
    | exact laneCommand_keeps K (by first | exact regsOnly_keeps (K.sub rfl) | exact laneLoad_keeps (K.sub rfl) | exact laneStore_keeps (K.sub rfl) | exact laneMacx_keeps (K.sub rfl) | (intro _ _ _ _ h _ e; cases e; exact endThread_keeps (K.sub rfl) h)) h
    | exact rfl
    | split
    | (dsimp only)


theorem execLaneBra_keeps {P : State → Prop} (K : Keeps [.pkts, .integ, .lanes] P) {lane : Fin 8} {s : State} (h : P s) :
    NextKeeps P (execLaneBra lane s) := by
  unfold execLaneBra
  try dsimp only
  repeat' first
    | with_reducible first
      | assumption
      | refine keep_next ?_
    | exact laneCommand_keeps K (by first | exact regsOnly_keeps (K.sub rfl) | exact laneLoad_keeps (K.sub rfl) | exact laneStore_keeps (K.sub rfl) | exact laneMacx_keeps (K.sub rfl) | (intro _ _ _ _ h _ e; cases e; exact endThread_keeps (K.sub rfl) h)) h
    | exact rfl
    | split
    | (dsimp only)


theorem execLaneCall_keeps {P : State → Prop} (K : Keeps [.pkts, .integ, .lanes] P) {lane : Fin 8} {s : State} (h : P s) :
    NextKeeps P (execLaneCall lane s) := by
  unfold execLaneCall
  try dsimp only
  repeat' first
    | with_reducible first
      | assumption
      | refine keep_next ?_
    | exact laneCommand_keeps K (by first | exact regsOnly_keeps (K.sub rfl) | exact laneLoad_keeps (K.sub rfl) | exact laneStore_keeps (K.sub rfl) | exact laneMacx_keeps (K.sub rfl) | (intro _ _ _ _ h _ e; cases e; exact endThread_keeps (K.sub rfl) h)) h
    | exact rfl
    | split
    | (dsimp only)


theorem execLaneRet_keeps {P : State → Prop} (K : Keeps [.pkts, .integ, .lanes] P) {lane : Fin 8} {s : State} (h : P s) :
    NextKeeps P (execLaneRet lane s) := by
  unfold execLaneRet
  try dsimp only
  repeat' first
    | with_reducible first
      | assumption
      | refine keep_next ?_
    | exact laneCommand_keeps K (by first | exact regsOnly_keeps (K.sub rfl) | exact laneLoad_keeps (K.sub rfl) | exact laneStore_keeps (K.sub rfl) | exact laneMacx_keeps (K.sub rfl) | (intro _ _ _ _ h _ e; cases e; exact endThread_keeps (K.sub rfl) h)) h
    | exact rfl
    | split
    | (dsimp only)


theorem execLaneRep_keeps {P : State → Prop} (K : Keeps [.pkts, .integ, .lanes] P) {lane : Fin 8} {s : State} (h : P s) :
    NextKeeps P (execLaneRep lane s) := by
  unfold execLaneRep
  try dsimp only
  repeat' first
    | with_reducible first
      | assumption
      | refine keep_next ?_
      | refine keep_ite_next ?_ ?_
      | refine keep_ite (P := P) ?_ ?_
    | exact laneCommand_keeps K (by first | exact regsOnly_keeps (K.sub rfl) | exact laneLoad_keeps (K.sub rfl) | exact laneStore_keeps (K.sub rfl) | exact laneMacx_keeps (K.sub rfl) | (intro _ _ _ _ h _ e; cases e; exact endThread_keeps (K.sub rfl) h)) h
    | exact rfl
    | split
    | (dsimp only)


theorem execLaneEnd_keeps {P : State → Prop} (K : Keeps [.pkts, .integ, .lanes] P) {lane : Fin 8} {s : State} (h : P s) :
    NextKeeps P (execLaneEnd lane s) := by
  have he : EffKeeps P (fun _ t _ s => .ok (endThread t s)) := by
    intro l t w s h u hu
    injection hu with hu
    rw [← hu]
    exact endThread_keeps K h
  exact laneCommand_keeps K he h


theorem execLaneMode_keeps {P : State → Prop} (K : Keeps [.pkts, .integ, .lanes] P) {lane : Fin 8} {s : State} (h : P s) :
    NextKeeps P (execLaneMode lane s) := by
  unfold execLaneMode
  try dsimp only
  repeat' first
    | with_reducible first
      | assumption
      | refine keep_next ?_
      | refine keep_ite_next ?_ ?_
      | refine keep_ite (P := P) ?_ ?_
    | exact laneCommand_keeps K (by first | exact regsOnly_keeps (K.sub rfl) | exact laneLoad_keeps (K.sub rfl) | exact laneStore_keeps (K.sub rfl) | exact laneMacx_keeps (K.sub rfl) | (intro _ _ _ _ h _ e; cases e; exact endThread_keeps (K.sub rfl) h)) h
    | exact rfl
    | split
    | (dsimp only)


theorem execLaneGetf_keeps {P : State → Prop} (K : Keeps [.pkts, .integ, .lanes] P) {lane : Fin 8} {s : State} (h : P s) :
    NextKeeps P (execLaneGetf lane s) := by
  unfold execLaneGetf
  try dsimp only
  repeat' first
    | with_reducible first
      | assumption
      | refine keep_next ?_
    | exact laneCommand_keeps K (by first | exact regsOnly_keeps (K.sub rfl) | exact laneLoad_keeps (K.sub rfl) | exact laneStore_keeps (K.sub rfl) | exact laneMacx_keeps (K.sub rfl) | (intro _ _ _ _ h _ e; cases e; exact endThread_keeps (K.sub rfl) h)) h
    | exact rfl
    | split
    | (dsimp only)


end Sys2Proof.Machine
end

