-- ==== Sys2Proof/Laws/KeepLanePlug.lean ====
section
/-! SUPPORT.
What each function of Machine/LanePlug.lean keeps. -/

namespace Sys2Proof.Machine

theorem installPlug_keeps {P : State → Prop} (K : Keeps [.integ, .lanes, .ldata] P) {l : Fin 8} {entry : Nat} {p : Plug} {s : State} (h : P s) :
    P (installPlug l entry p s) :=
  onLaneData_keeps (K.sub rfl) (fun _ => cellsWrite_wf rfl) (clearPoison_keeps (K.sub rfl) h)


theorem loadPlug_keeps {P : State → Prop} (K : Keeps [.integ, .lanes, .ldata] P) {rq : Request} {l : Fin 8} {entry : Nat} {s : State} (h : P s) :
    ∀ t, loadPlug rq l entry s = .ok t → P t := by
  intro t ht
  unfold loadPlug at ht
  split at ht
  · cases ht
  · split at ht
    · split at ht
      · cases ht
      · cases ht
        exact onLaneData_keeps (K.sub rfl) (fun _ => rfl) h
    · dsimp only at ht
      split at ht
      · cases ht
      · split at ht
        · cases ht
        · split at ht
          · cases ht
          · split at ht
            · cases ht
            · cases ht
              exact installPlug_keeps K h


end Sys2Proof.Machine
end

