-- ==== Sys2Proof/Laws/KeepLaneOps.lean ====
section
/-! SUPPORT.
What each function of Machine/LaneOps.lean keeps. -/

namespace Sys2Proof.Machine

theorem opPluginLoad_keeps {P : State → Prop} (K : Keeps [.integ, .lanes, .ldata] P) {rq : Request} {s : State} (h : P s) :
    Answer.Keeps P (opPluginLoad.effect rq s) := by
  unfold opPluginLoad
  dsimp only
  split
  · exact keep_deny
  · rename_i t ht
    exact keep_done (loadPlug_keeps K h _ ht)


theorem execPluginLoad_keeps {P : State → Prop} (K : Keeps [.pkts, .integ, .lanes, .ldata, .free] P) {rq : Sys2Proof.Request} {s : State} (h : P s) :
    NextKeeps P (execPluginLoad rq s) := by
  have K1 := K.sub (as := [.pkts, .integ, .free]) rfl
  have K2 := K.sub (as := [.integ, .lanes, .ldata]) rfl
  unfold execPluginLoad
  try dsimp only
  repeat' first
    | with_reducible first
      | assumption
      | refine keep_next ?_
      | refine runCommand_keeps K1 ?_ ?_
      | refine opPluginLoad_keeps K2 ?_
    | exact rfl
    | split
    | (dsimp only)


theorem opThreadDefine_keeps {P : State → Prop} (K : Keeps [.lanes] P) {rq : Request} {s : State} (h : P s) :
    Answer.Keeps P (opThreadDefine.effect rq s) := by
  unfold opThreadDefine
  try dsimp only
  repeat' first
    | with_reducible first
      | assumption
      | refine onThr_keeps K ?_
      | refine keep_ite (P := P) ?_ ?_
      | refine keep_ite_answer ?_ ?_
      | exact keep_deny
      | refine keep_done ?_
      | refine keep_fail ?_
      | refine keep_wait ?_
    | exact rfl
    | split
    | (dsimp only)


theorem execThreadDefine_keeps {P : State → Prop} (K : Keeps [.pkts, .integ, .lanes, .free] P) {rq : Sys2Proof.Request} {s : State} (h : P s) :
    NextKeeps P (execThreadDefine rq s) := by
  have K1 := K.sub (as := [.pkts, .integ, .free]) rfl
  have K2 := K.sub (as := [.lanes]) rfl
  unfold execThreadDefine
  try dsimp only
  repeat' first
    | with_reducible first
      | assumption
      | refine keep_next ?_
      | refine runCommand_keeps K1 ?_ ?_
      | refine opThreadDefine_keeps K2 ?_
    | exact rfl
    | split
    | (dsimp only)


theorem startWaiting_keeps {P : State → Prop} (K : Keeps [.lanes] P) {t : Fin 512} {s : State} (h : P s) :
    P (startWaiting t s) := by
  unfold startWaiting
  try dsimp only
  repeat' first
    | with_reducible first
      | assumption
      | refine onThr_keeps K ?_
    | exact rfl
    | (dsimp only)


theorem opThreadEnable_keeps {P : State → Prop} (K : Keeps [.lanes] P) {rq : Request} {s : State} (h : P s) :
    Answer.Keeps P (opThreadEnable.effect rq s) := by
  unfold opThreadEnable
  try dsimp only
  repeat' first
    | with_reducible first
      | assumption
      | refine startWaiting_keeps K ?_
      | refine onThr_keeps K ?_
      | refine stopThread_keeps K ?_
      | refine keep_ite (P := P) ?_ ?_
      | refine keep_ite_answer ?_ ?_
      | exact keep_deny
      | refine keep_done ?_
      | refine keep_fail ?_
      | refine keep_wait ?_
    | exact rfl
    | split
    | (dsimp only)


theorem execThreadEnable_keeps {P : State → Prop} (K : Keeps [.pkts, .integ, .lanes, .free] P) {rq : Sys2Proof.Request} {s : State} (h : P s) :
    NextKeeps P (execThreadEnable rq s) := by
  have K1 := K.sub (as := [.pkts, .integ, .free]) rfl
  have K2 := K.sub (as := [.lanes]) rfl
  unfold execThreadEnable
  try dsimp only
  repeat' first
    | with_reducible first
      | assumption
      | refine keep_next ?_
      | refine runCommand_keeps K1 ?_ ?_
      | refine opThreadEnable_keeps K2 ?_
    | exact rfl
    | split
    | (dsimp only)


theorem opThreadSignal_keeps {P : State → Prop} (K : Keeps [.integ, .lanes] P) {rq : Request} {s : State} (h : P s) :
    Answer.Keeps P (opThreadSignal.effect rq s) := by
  unfold opThreadSignal
  try dsimp only
  repeat' first
    | with_reducible first
      | assumption
      | refine deliver_keeps K ?_
      | exact keep_deny
      | refine keep_done ?_
      | refine keep_fail ?_
      | refine keep_wait ?_
    | exact rfl
    | (dsimp only)


theorem execThreadSignal_keeps {P : State → Prop} (K : Keeps [.pkts, .integ, .lanes, .free] P) {rq : Sys2Proof.Request} {s : State} (h : P s) :
    NextKeeps P (execThreadSignal rq s) := by
  have K1 := K.sub (as := [.pkts, .integ, .free]) rfl
  have K2 := K.sub (as := [.integ, .lanes]) rfl
  unfold execThreadSignal
  try dsimp only
  repeat' first
    | with_reducible first
      | assumption
      | refine keep_next ?_
      | refine runCommand_keeps K1 ?_ ?_
      | refine opThreadSignal_keeps K2 ?_
    | exact rfl
    | split
    | (dsimp only)


theorem opThreadTimerConfig_keeps {P : State → Prop} (K : Keeps [.lanes] P) {rq : Request} {s : State} (h : P s) :
    Answer.Keeps P (opThreadTimerConfig.effect rq s) := by
  unfold opThreadTimerConfig
  try dsimp only
  repeat' first
    | with_reducible first
      | assumption
      | refine K.onLanes rfl _ _ (fun _ => ?_) ?_
      | exact keep_deny
      | refine keep_done ?_
      | refine keep_fail ?_
      | refine keep_wait ?_
    | exact rfl
    | (dsimp only)


theorem execThreadTimerConfig_keeps {P : State → Prop} (K : Keeps [.pkts, .integ, .lanes, .free] P) {rq : Sys2Proof.Request} {s : State} (h : P s) :
    NextKeeps P (execThreadTimerConfig rq s) := by
  have K1 := K.sub (as := [.pkts, .integ, .free]) rfl
  have K2 := K.sub (as := [.lanes]) rfl
  unfold execThreadTimerConfig
  try dsimp only
  repeat' first
    | with_reducible first
      | assumption
      | refine keep_next ?_
      | refine runCommand_keeps K1 ?_ ?_
      | refine opThreadTimerConfig_keeps K2 ?_
    | exact rfl
    | split
    | (dsimp only)


theorem opPluginPortConfig_keeps {P : State → Prop} (K : Keeps [.lanes] P) {rq : Request} {s : State} (h : P s) :
    Answer.Keeps P (opPluginPortConfig.effect rq s) := by
  unfold opPluginPortConfig
  try dsimp only
  repeat' first
    | with_reducible first
      | assumption
      | refine K.onLanes rfl _ _ (fun _ => ?_) ?_
      | refine keep_ite (P := P) ?_ ?_
      | refine keep_ite_answer ?_ ?_
      | exact keep_deny
      | refine keep_done ?_
      | refine keep_fail ?_
      | refine keep_wait ?_
    | exact rfl
    | split
    | (dsimp only)


theorem execPluginPortConfig_keeps {P : State → Prop} (K : Keeps [.pkts, .integ, .lanes, .free] P) {rq : Sys2Proof.Request} {s : State} (h : P s) :
    NextKeeps P (execPluginPortConfig rq s) := by
  have K1 := K.sub (as := [.pkts, .integ, .free]) rfl
  have K2 := K.sub (as := [.lanes]) rfl
  unfold execPluginPortConfig
  try dsimp only
  repeat' first
    | with_reducible first
      | assumption
      | refine keep_next ?_
      | refine runCommand_keeps K1 ?_ ?_
      | refine opPluginPortConfig_keeps K2 ?_
    | exact rfl
    | split
    | (dsimp only)


theorem opThreadStatusRead_keeps {P : State → Prop} (K : Keeps [.lanes, .free] P) {rq : Request} {s : State} (h : P s) :
    Answer.Keeps P (opThreadStatusRead.effect rq s) := by
  have K1 := K.sub (as := [.free]) rfl
  have K2 := K.sub (as := [.lanes]) rfl
  unfold opThreadStatusRead
  try dsimp only
  repeat' first
    | with_reducible first
      | assumption
      | refine fresh_keeps K1 ?_
      | refine fresh_out K1 ?_ ‹_›
      | refine onThr_keeps K2 ?_
      | refine keep_ite (P := P) ?_ ?_
      | refine keep_ite_answer ?_ ?_
      | exact keep_deny
      | refine keep_done ?_
      | refine keep_fail ?_
      | refine keep_wait ?_
    | exact rfl
    | split
    | (dsimp only)


theorem execThreadStatusRead_keeps {P : State → Prop} (K : Keeps [.pkts, .integ, .lanes, .free] P) {rq : Sys2Proof.Request} {s : State} (h : P s) :
    NextKeeps P (execThreadStatusRead rq s) := by
  have K1 := K.sub (as := [.pkts, .integ, .free]) rfl
  have K2 := K.sub (as := [.lanes, .free]) rfl
  unfold execThreadStatusRead
  try dsimp only
  repeat' first
    | with_reducible first
      | assumption
      | refine keep_next ?_
      | refine runCommand_keeps K1 ?_ ?_
      | refine opThreadStatusRead_keeps K2 ?_
    | exact rfl
    | split
    | (dsimp only)


theorem opLaneStatusRead_keeps {P : State → Prop} (K : Keeps [] P) {rq : Request} {s : State} (h : P s) :
    Answer.Keeps P (opLaneStatusRead.effect rq s) := by
  have _ := K
  unfold opLaneStatusRead
  try dsimp only
  repeat' first
    | with_reducible first
      | assumption
      | exact keep_deny
      | refine keep_done ?_
      | refine keep_fail ?_
      | refine keep_wait ?_
    | exact rfl
    | (dsimp only)


theorem execLaneStatusRead_keeps {P : State → Prop} (K : Keeps [.pkts, .integ, .free] P) {rq : Sys2Proof.Request} {s : State} (h : P s) :
    NextKeeps P (execLaneStatusRead rq s) := by
  have K1 := K.sub (as := []) rfl
  unfold execLaneStatusRead
  try dsimp only
  repeat' first
    | with_reducible first
      | assumption
      | refine keep_next ?_
      | refine runCommand_keeps K ?_ ?_
      | refine opLaneStatusRead_keeps K1 ?_
    | exact rfl
    | split
    | (dsimp only)


theorem opLaneKeyEnrol_keeps {P : State → Prop} (K : Keeps [.boot] P) {rq : Request} {s : State} (h : P s) :
    Answer.Keeps P (opLaneKeyEnrol.effect rq s) := by
  unfold opLaneKeyEnrol
  try dsimp only
  repeat' first
    | with_reducible first
      | assumption
      | refine K.onBoot rfl _ _ ?_
      | refine keep_ite (P := P) ?_ ?_
      | refine keep_ite_answer ?_ ?_
      | exact keep_deny
      | refine keep_done ?_
      | refine keep_fail ?_
      | refine keep_wait ?_
    | exact rfl
    | split
    | (dsimp only)


theorem execLaneKeyEnrol_keeps {P : State → Prop} (K : Keeps [.boot, .pkts, .integ, .free] P) {rq : Sys2Proof.Request} {s : State} (h : P s) :
    NextKeeps P (execLaneKeyEnrol rq s) := by
  have K1 := K.sub (as := [.pkts, .integ, .free]) rfl
  have K2 := K.sub (as := [.boot]) rfl
  unfold execLaneKeyEnrol
  try dsimp only
  repeat' first
    | with_reducible first
      | assumption
      | refine keep_next ?_
      | refine runCommand_keeps K1 ?_ ?_
      | refine opLaneKeyEnrol_keeps K2 ?_
    | exact rfl
    | split
    | (dsimp only)


end Sys2Proof.Machine
end

