-- ==== Sys2Proof/Laws/KeepLodgeCore.lean ====
section
/-! SUPPORT.
What each function of Machine/LodgeCore.lean keeps. -/

namespace Sys2Proof.Machine

theorem onPair_keeps {P : State → Prop} (K : Keeps [.lodge] P) {k : Fin 8} {f : LodgePair → LodgePair} {s : State} (h : P s) :
    P (onPair k f s) := by
  unfold onPair
  try dsimp only
  repeat' first
    | with_reducible first
      | assumption
      | refine K.onLodge rfl _ _ (fun hx => ?_) ?_
    | exact hx
    | exact rfl
    | (dsimp only)


theorem onSafeOut_keeps {P : State → Prop} (K : Keeps [.lodge] P) {n : Fin 4} {f : LodgeOut → LodgeOut} {s : State}
    (hf : ∀ x : LodgeOut, x.on = false → (f x).on = false) (h : P s) : P (onSafeOut n f s) := by
  refine K.onLodge rfl _ _ (fun hx => hx.imp id fun e => ⟨e.1, fun i => ?_⟩) h
  by_cases e' : n = i
  · subst e'
    show (upd s.lodge.out n f)[n].on = false
    rw [upd_same]
    exact hf _ (e.2 n)
  · show (upd s.lodge.out n f)[i].on = false
    rw [upd_other _ _ _ _ e']
    exact e.2 i


theorem postFault_keeps {P : State → Prop} (K : Keeps [.integ, .lodge] P) {cls : Nat} {code : Nat} {index : Option Nat} {present : Bool} {s : State} (h : P s) :
    P (postFault cls code index present s) := by
  have K1 := K.sub (as := [.integ]) rfl
  unfold postFault
  try dsimp only
  repeat' first
    | with_reducible first
      | assumption
      | refine setCause_keeps K1 ?_
      | refine recordFault_keeps K1 ?_
      | refine event_keeps K1 ?_
      | refine K.onLodge rfl _ _ (fun hx => ?_) ?_
      | refine keep_ite (P := P) ?_ ?_
    | exact hx
    | exact rfl
    | split
    | (dsimp only)


theorem judgePairs_keeps {P : State → Prop} (K : Keeps [.integ, .lodge] P) {s : State} (h : P s) :
    P (judgePairs s) := by
  have K1 := K.sub (as := [.integ]) rfl
  unfold judgePairs
  try dsimp only
  repeat' first
    | with_reducible first
      | assumption
      | refine setCause_keeps K1 ?_
      | refine event_keeps K1 ?_
      | refine K.onLodge rfl _ _ (fun hx => ?_) ?_
      | refine keep_foldl (P := P) (fun _ _ _ => ?_) ?_
    | exact hx
    | exact rfl
    | (dsimp only)


theorem pairFault_keeps {P : State → Prop} (K : Keeps [.integ, .lodge] P) {k : Fin 8} {code : Nat} {s : State} (h : P s) :
    P (pairFault k code s) := by
  have K1 := K.sub (as := [.lodge]) rfl
  unfold pairFault
  try dsimp only
  repeat' first
    | with_reducible first
      | assumption
      | refine onPair_keeps K1 ?_
      | refine judgePairs_keeps K ?_
      | refine postFault_keeps K ?_
      | refine keep_ite (P := P) ?_ ?_
    | exact rfl
    | split
    | (dsimp only)


theorem assertSto_keeps {P : State → Prop} (K : Keeps [.pkts, .integ, .axis, .plan, .gear, .loop, .bta, .stepper, .bricks, .lodge] P) {s : State} (h : P s) :
    P (assertSto s) := by
  have K1 := K.sub (as := [.pkts, .integ, .axis, .plan, .gear, .loop, .bta, .stepper, .bricks]) rfl
  unfold assertSto
  try dsimp only
  repeat' first
    | with_reducible first
      | assumption
      | refine stoAssert_keeps K1 ?_
      | refine K.onLodge rfl _ _ (fun hx => ?_) ?_
      | refine keep_ite (P := P) ?_ ?_
    | exact hx
    | exact rfl
    | exact hx.imp id fun e => ⟨rfl, e.2⟩
    | split
    | (dsimp only)


/-- Without a cause of STO Lodge runs. -/
theorem run_of_no_cause {b : LodgeBlk} (h : stoCauses b = []) : b.st = .run := by
  by_cases hr : b.st = .run
  · exact hr
  · simp [stoCauses, hr] at h

theorem decideSto_keeps {P : State → Prop} (K : Keeps [.pkts, .integ, .axis, .plan, .gear, .loop, .bta, .stepper, .bricks, .lodge] P) {s : State} (h : P s) :
    P (decideSto s) := by
  have K1 := K.sub (as := [.integ]) rfl
  unfold decideSto
  dsimp only
  refine keep_dite (P := P) (fun _ => assertSto_keeps (K.sub rfl) ?_)
    (fun hc => K.onLodge rfl _ _ (fun _ => Or.inl (run_of_no_cause (Decidable.not_not.mp hc))) ?_)
  all_goals
    repeat' first
      | with_reducible assumption
      | with_reducible refine event_keeps (K.sub rfl) ?_
      | with_reducible refine K.onLodge rfl _ _ (fun hx => ?_) ?_
      | with_reducible refine keep_ite (P := P) ?_ ?_
      | exact hx
      | split


/-- Outside Run an output that is off stays off. -/
theorem LodgeBlk.decideOut_off {b : LodgeBlk} {n : Fin 4} (hr : b.st ≠ .run) (ho : b.out[n].on = false) : (b.decideOut n).on = false := by
  have hw : outWanted b n = false := by
    unfold outWanted
    split
    · simp [hr]
    · rfl
  unfold LodgeBlk.decideOut
  simp only [hw, ho]
  rfl

theorem decideOuts_keeps {P : State → Prop} (K : Keeps [.lodge] P) {s : State} (h : P s) :
    P (decideOuts s) := by
  refine K.onLodge rfl _ _ (fun hx => ?_) h
  by_cases hr : s.lodge.st = .run
  · exact Or.inl hr
  · refine hx.imp id fun e => ⟨e.1, fun n => ?_⟩
    have he : (Vector.ofFn fun n => s.lodge.decideOut n)[n] = s.lodge.decideOut n := by simp
    show ((Vector.ofFn fun n => s.lodge.decideOut n)[n]).on = false
    rw [he]
    exact LodgeBlk.decideOut_off hr (e.2 n)


theorem refreshMirrors_keeps {P : State → Prop} (K : Keeps [.lodge] P) {s : State} (h : P s) :
    P (refreshMirrors s) := by
  unfold refreshMirrors
  try dsimp only
  repeat' first
    | with_reducible first
      | assumption
      | refine K.onLodge rfl _ _ (fun hx => ?_) ?_
    | exact hx
    | exact rfl
    | (dsimp only)


theorem wakes_keeps {P : State → Prop} (K : Keeps [.power] P) {s : State} (h : P s) :
    P (wakes s) := by
  unfold wakes
  try dsimp only
  repeat' first
    | with_reducible first
      | assumption
      | refine K.onPower rfl _ _ ?_
      | refine keep_ite (P := P) ?_ ?_
    | exact rfl
    | split
    | (dsimp only)


theorem leaveRun_keeps {P : State → Prop} (K : Keeps [.sys, .power, .pkts, .integ, .axis, .plan, .gear, .loop, .bta, .stepper, .bricks, .lodge, .dev] P) {st : LodgeState} {s : State} (h : P s) :
    P (leaveRun st s) := by
  have K1 := K.sub (as := [.pkts, .integ, .axis, .plan, .gear, .loop, .bta, .stepper, .bricks]) rfl
  have K2 := K.sub (as := [.sys, .pkts, .integ, .axis, .plan, .gear, .loop, .bta, .stepper, .bricks, .dev]) rfl
  have K3 := K.sub (as := [.lodge]) rfl
  have K4 := K.sub (as := [.power]) rfl
  unfold leaveRun
  try dsimp only
  repeat' first
    | with_reducible first
      | assumption
      | refine stoAssert_keeps K1 ?_
      | refine deviceFault_keeps K2 ?_
      | refine refreshMirrors_keeps K3 ?_
      | refine wakes_keeps K4 ?_
      | refine K.onLodge rfl _ _ (fun hx => ?_) ?_
      | refine keep_ite (P := P) ?_ ?_
    | exact hx
    | exact rfl
    | (refine Or.inr ⟨rfl, fun n => ?_⟩; show LodgeOut.on ((updAll (n := 4) _ _)[n]) = false; rw [updAll_get]; rfl)
    | split
    | (dsimp only)


theorem enterRun_keeps {P : State → Prop} (K : Keeps [.power, .integ, .lodge] P) {p : LodgeParams} {s : State} (h : P s) :
    P (enterRun p s) := by
  have K1 := K.sub (as := [.lodge]) rfl
  have K2 := K.sub (as := [.power]) rfl
  have K3 := K.sub (as := [.integ, .lodge]) rfl
  have K4 := K.sub (as := [.integ]) rfl
  unfold enterRun
  try dsimp only
  repeat' first
    | with_reducible first
      | assumption
      | refine refreshMirrors_keeps K1 ?_
      | refine wakes_keeps K2 ?_
      | refine judgePairs_keeps K3 ?_
      | refine setCause_keeps K4 ?_
      | refine K.onLodge rfl _ _ (fun hx => ?_) ?_
      | refine keep_ite (P := P) ?_ ?_
    | exact hx
    | exact rfl
    | exact Or.inl rfl
    | split
    | (dsimp only)


theorem internalFault_keeps {P : State → Prop} (K : Keeps [.sys, .power, .pkts, .integ, .axis, .plan, .gear, .loop, .bta, .stepper, .bricks, .lodge, .dev] P) {code : Nat} {s : State} (h : P s) :
    P (internalFault code s) := by
  have K1 := K.sub (as := [.integ, .lodge]) rfl
  unfold internalFault
  try dsimp only
  repeat' first
    | with_reducible first
      | assumption
      | refine leaveRun_keeps K ?_
      | refine postFault_keeps K1 ?_
      | refine K.onLodge rfl _ _ (fun hx => ?_) ?_
    | exact hx
    | exact rfl
    | (dsimp only)


end Sys2Proof.Machine
end

