-- ==== Sys2Proof/Laws/KeepPlanGroups.lean ====
section
/-! SUPPORT.
What each function of Machine/PlanGroups.lean keeps. -/

namespace Sys2Proof.Machine

theorem requestGroupStop_keeps {P : State → Prop} (K : Keeps [.plan] P) {g : Fin 16} {mode : Nat} {s : State} (h : P s) :
    P (requestGroupStop g mode s) := by
  unfold requestGroupStop
  try dsimp only
  repeat' first
    | with_reducible first
      | assumption
      | refine onPgrp_keeps K ?_
      | refine keep_ite (P := P) ?_ ?_
    | exact rfl
    | split
    | (dsimp only)


theorem groupAtRest_keeps {P : State → Prop} (K : Keeps [.pkts, .plan] P) {g : Fin 16} {s : State} (h : P s) :
    P (groupAtRest g s) := by
  have K1 := K.sub (as := [.plan]) rfl
  have K2 := K.sub (as := [.pkts]) rfl
  unfold groupAtRest
  try dsimp only
  repeat' first
    | with_reducible first
      | assumption
      | refine onPgrp_keeps K1 ?_
      | refine finish_keeps K2 ?_
      | refine keep_ite (P := P) ?_ ?_
    | exact rfl
    | split
    | (dsimp only)


theorem memberSet_keeps {P : State → Prop} (K : Keeps [.axis, .plan, .bta, .bricks] P) {t : Nat} {i : Fin 64} {p : Rat} {v : Rat} {a : Rat} {s : State} (h : P s) :
    P (memberSet t i p v a s) := by
  have K1 := K.sub (as := [.plan]) rfl
  have K2 := K.sub (as := [.axis, .bta, .bricks]) rfl
  unfold memberSet
  try dsimp only
  repeat' first
    | with_reducible first
      | assumption
      | refine onPax_keeps K1 ?_
      | refine setPoint_keeps K2 ?_
      | refine keep_ite (P := P) ?_ ?_
    | exact rfl
    | split
    | (dsimp only)


theorem membersAt_keeps {P : State → Prop} (K : Keeps [.axis, .plan, .bta, .bricks] P) {t : Nat} {x : PlanGroup} {place : Nat → Place} {v : Rat} {a : Rat} {s : State} (h : P s) :
    P (membersAt t x place v a s) := by
  unfold membersAt
  try dsimp only
  repeat' first
    | with_reducible first
      | assumption
      | refine memberSet_keeps K ?_
      | refine keep_foldl (P := P) (fun _ _ _ => ?_) ?_
    | exact rfl
    | (dsimp only)


theorem membersRest_keeps {P : State → Prop} (K : Keeps [.axis, .plan, .bta, .bricks] P) {t : Nat} {x : PlanGroup} {s : State} (h : P s) :
    P (membersRest t x s) := by
  unfold membersRest
  try dsimp only
  repeat' first
    | with_reducible first
      | assumption
      | refine memberSet_keeps K ?_
      | refine keep_foldl (P := P) (fun _ _ _ => ?_) ?_
    | exact rfl
    | (dsimp only)


theorem membersPvt_keeps {P : State → Prop} (K : Keeps [.axis, .plan, .bta, .bricks] P) {t : Nat} {x : PlanGroup} {e : SegEntry} {tau : Nat} {s : State} (h : P s) :
    P (membersPvt t x e tau s) := by
  unfold membersPvt
  try dsimp only
  repeat' first
    | with_reducible first
      | assumption
      | refine memberSet_keeps K ?_
      | refine keep_foldl (P := P) (fun _ _ _ => ?_) ?_
    | exact rfl
    | (dsimp only)


theorem handGroup_keeps {P : State → Prop} (K : Keeps [.axis, .plan, .bta, .bricks] P) {g : Fin 16} {s : State} (h : P s) :
    P (handGroup g s) := by
  unfold handGroup
  try dsimp only
  repeat' first
    | with_reducible first
      | assumption
      | refine membersRest_keeps K ?_
      | refine membersPvt_keeps K ?_
      | refine membersAt_keeps K ?_
      | refine keep_ite (P := P) ?_ ?_
    | exact rfl
    | split
    | (dsimp only)


theorem starve_keeps {P : State → Prop} (K : Keeps [.integ, .plan] P) {g : Fin 16} {s : State} (h : P s) :
    P (starve g s) := by
  have K1 := K.sub (as := [.integ]) rfl
  have K2 := K.sub (as := [.plan]) rfl
  unfold starve
  try dsimp only
  repeat' first
    | with_reducible first
      | assumption
      | refine event_keeps K1 ?_
      | refine onPgrp_keeps K2 ?_
      | refine keep_ite (P := P) ?_ ?_
    | exact rfl
    | split
    | (dsimp only)


theorem segmentStart_keeps {P : State → Prop} (K : Keeps [.integ, .plan] P) {g : Fin 16} {at0 : Rat} {rest : Bool} {s : State} (h : P s) :
    P (segmentStart g at0 rest s) := by
  have K1 := K.sub (as := [.plan]) rfl
  have K2 := K.sub (as := [.integ]) rfl
  unfold segmentStart
  try dsimp only
  repeat' first
    | with_reducible first
      | assumption
      | refine onPgrp_keeps K1 ?_
      | refine event_keeps K2 ?_
      | refine keep_ite (P := P) ?_ ?_
    | exact rfl
    | split
    | (dsimp only)


theorem coast_keeps {P : State → Prop} (K : Keeps [.integ, .plan] P) {g : Fin 16} {e : SegEntry} {s : State} (h : P s) :
    P (coast g e s) := by
  have K1 := K.sub (as := [.integ]) rfl
  have K2 := K.sub (as := [.plan]) rfl
  unfold coast
  try dsimp only
  repeat' first
    | with_reducible first
      | assumption
      | refine event_keeps K1 ?_
      | refine onPgrp_keeps K2 ?_
      | refine keep_ite (P := P) ?_ ?_
    | exact rfl
    | split
    | (dsimp only)


theorem segmentEnd_keeps {P : State → Prop} (K : Keeps [.integ, .axis, .plan, .bta, .bricks] P) {g : Fin 16} {s : State} (h : P s) :
    P (segmentEnd g s) := by
  have K1 := K.sub (as := [.axis, .plan, .bta, .bricks]) rfl
  have K2 := K.sub (as := [.plan]) rfl
  have K3 := K.sub (as := [.integ, .plan]) rfl
  unfold segmentEnd
  try dsimp only
  repeat' first
    | with_reducible first
      | assumption
      | refine membersAt_keeps K1 ?_
      | refine onPgrp_keeps K2 ?_
      | refine segmentStart_keeps K3 ?_
      | refine coast_keeps K3 ?_
      | refine starve_keeps K3 ?_
      | refine keep_ite (P := P) ?_ ?_
    | exact rfl
    | split
    | (dsimp only)


theorem segmentPass_keeps {P : State → Prop} (K : Keeps [.integ, .plan] P) {g : Fin 16} {cut : Rat} {at0 : Rat} {s : State} (h : P s) :
    P (segmentPass g cut at0 s) := by
  have K1 := K.sub (as := [.plan]) rfl
  unfold segmentPass
  try dsimp only
  repeat' first
    | with_reducible first
      | assumption
      | refine segmentStart_keeps K ?_
      | refine onPgrp_keeps K1 ?_
    | exact rfl
    | (dsimp only)


theorem crossHeads_keeps {P : State → Prop} (K : Keeps [.integ, .plan] P) {g : Fin 16} {n : Nat} {j : Join} {s : State} (h : P s) :
    P (crossHeads g n j s) := by
  induction n generalizing j s with
  | zero => exact h
  | succ n ih =>
    unfold crossHeads
    dsimp only
    split
    · exact keep_ite (P := P) (ih (segmentPass_keeps (K.sub rfl) h)) h
    · exact keep_ite (P := P) (ih (segmentPass_keeps (K.sub rfl) h)) (onPgrp_keeps (K.sub rfl) h)
    · exact keep_ite (P := P) (onPgrp_keeps (K.sub rfl) h) h
    · exact h


theorem finishStretch_keeps {P : State → Prop} (K : Keeps [.integ, .axis, .plan, .bta, .bricks] P) {g : Fin 16} {n : Nat} {s : State} (h : P s) :
    P (finishStretch g n s) := by
  induction n generalizing s with
  | zero => exact segmentEnd_keeps (K.sub rfl) h
  | succ n ih =>
    unfold finishStretch
    dsimp only
    split
    · exact ih (segmentPass_keeps (K.sub rfl) h)
    · exact ih (segmentPass_keeps (K.sub rfl) h)
    · exact segmentEnd_keeps (K.sub rfl) h


theorem pathAdvance_keeps {P : State → Prop} (K : Keeps [.integ, .plan] P) {g : Fin 16} {s : State} (h : P s) :
    P (pathAdvance g s) := by
  have K1 := K.sub (as := [.plan]) rfl
  unfold pathAdvance
  try dsimp only
  repeat' first
    | with_reducible first
      | assumption
      | refine crossHeads_keeps K ?_
      | refine onPgrp_keeps K1 ?_
      | refine keep_ite (P := P) ?_ ?_
    | exact rfl
    | split
    | (dsimp only)


theorem segmentAdvance_keeps {P : State → Prop} (K : Keeps [.integ, .axis, .plan, .bta, .bricks] P) {g : Fin 16} {s : State} (h : P s) :
    P (segmentAdvance g s) := by
  have K1 := K.sub (as := [.integ, .plan]) rfl
  have K2 := K.sub (as := [.plan]) rfl
  unfold segmentAdvance
  try dsimp only
  repeat' first
    | with_reducible first
      | assumption
      | refine starve_keeps K1 ?_
      | refine segmentStart_keeps K1 ?_
      | refine onPgrp_keeps K2 ?_
      | refine segmentEnd_keeps K ?_
      | refine pathAdvance_keeps K1 ?_
      | refine finishStretch_keeps K ?_
      | refine keep_ite (P := P) ?_ ?_
    | exact rfl
    | split
    | (dsimp only)


theorem ontoCurve_keeps {P : State → Prop} (K : Keeps [.plan] P) {g : Fin 16} {s : State} (h : P s) :
    P (ontoCurve g s) := by
  unfold ontoCurve
  try dsimp only
  repeat' first
    | with_reducible first
      | assumption
      | refine onPgrp_keeps K ?_
      | refine keep_ite (P := P) ?_ ?_
    | exact rfl
    | split
    | (dsimp only)


theorem pathPlanned_keeps {P : State → Prop} (K : Keeps [.plan] P) {g : Fin 16} {l : List ProfSeg} {s : State} (h : P s) :
    P (pathPlanned g l s) := by
  unfold pathPlanned
  try dsimp only
  repeat' first
    | with_reducible first
      | assumption
      | refine onPgrp_keeps K ?_
    | exact rfl
    | (dsimp only)


theorem stopAlong_keeps {P : State → Prop} (K : Keeps [.plan] P) {g : Fin 16} {quick : Bool} {s0 : State} (h : P s0) :
    P (stopAlong g quick s0) := by
  unfold stopAlong
  try dsimp only
  repeat' first
    | with_reducible first
      | assumption
      | refine ontoCurve_keeps K ?_
      | refine pathPlanned_keeps K ?_
      | refine keep_ite (P := P) ?_ ?_
    | exact rfl
    | split
    | (dsimp only)


theorem groupReplan_keeps {P : State → Prop} (K : Keeps [.integ, .axis, .plan, .bta, .bricks] P) {g : Fin 16} {s : State} (h : P s) :
    P (groupReplan g s) := by
  have K1 := K.sub (as := [.plan]) rfl
  unfold groupReplan
  try dsimp only
  repeat' first
    | with_reducible first
      | assumption
      | refine onPgrp_keeps K1 ?_
      | refine stopAlong_keeps K1 ?_
      | refine pathPlanned_keeps K1 ?_
      | refine finishStretch_keeps K ?_
      | refine keep_ite (P := P) ?_ ?_
    | exact rfl
    | split
    | (dsimp only)


theorem stopBegin_keeps {P : State → Prop} (K : Keeps [.plan] P) {g : Fin 16} {m : Nat} {s : State} (h : P s) :
    P (stopBegin g m s) := by
  unfold stopBegin
  try dsimp only
  repeat' first
    | with_reducible first
      | assumption
      | refine onPgrp_keeps K ?_
      | refine ontoCurve_keeps K ?_
      | refine stopAlong_keeps K ?_
      | refine keep_ite (P := P) ?_ ?_
    | exact rfl
    | split
    | (dsimp only)


theorem memberLost_keeps {P : State → Prop} (K : Keeps [.integ, .plan] P) {g : Fin 16} {s : State} (h : P s) :
    P (memberLost g s) := by
  have K1 := K.sub (as := [.plan]) rfl
  have K2 := K.sub (as := [.integ]) rfl
  unfold memberLost
  try dsimp only
  repeat' first
    | with_reducible first
      | assumption
      | refine onPgrp_keeps K1 ?_
      | refine event_keeps K2 ?_
      | refine stopBegin_keeps K1 ?_
      | refine keep_ite (P := P) ?_ ?_
    | exact rfl
    | split
    | (dsimp only)


theorem groupCommands_keeps {P : State → Prop} (K : Keeps [.sys, .plan] P) {g : Fin 16} {t : Nat} {s : State} (h : P s) :
    P (groupCommands g t s) := by
  have K1 := K.sub (as := [.sys]) rfl
  have K2 := K.sub (as := [.plan]) rfl
  unfold groupCommands
  try dsimp only
  repeat' first
    | with_reducible first
      | assumption
      | refine settleUpdate_keeps K1 ?_
      | refine onPgrp_keeps K2 ?_
      | refine stopBegin_keeps K2 ?_
      | refine keep_ite (P := P) ?_ ?_
    | exact rfl
    | split
    | (dsimp only)


theorem groupBoundary_keeps {P : State → Prop} (K : Keeps [.sys, .pkts, .integ, .axis, .plan, .bta, .bricks] P) {g : Fin 16} {t : Nat} {s : State} (h : P s) :
    P (groupBoundary g t s) := by
  have K1 := K.sub (as := [.plan]) rfl
  have K2 := K.sub (as := [.integ, .plan]) rfl
  have K3 := K.sub (as := [.integ, .axis, .plan, .bta, .bricks]) rfl
  have K4 := K.sub (as := [.sys, .plan]) rfl
  have K5 := K.sub (as := [.axis, .plan, .bta, .bricks]) rfl
  have K6 := K.sub (as := [.pkts, .plan]) rfl
  unfold groupBoundary
  try dsimp only
  repeat' first
    | with_reducible first
      | assumption
      | refine onPgrp_keeps K1 ?_
      | refine segmentStart_keeps K2 ?_
      | refine starve_keeps K2 ?_
      | refine segmentAdvance_keeps K3 ?_
      | refine memberLost_keeps K2 ?_
      | refine groupCommands_keeps K4 ?_
      | refine handGroup_keeps K5 ?_
      | refine groupAtRest_keeps K6 ?_
      | refine groupReplan_keeps K3 ?_
      | refine keep_ite (P := P) ?_ ?_
    | exact rfl
    | split
    | (dsimp only)


end Sys2Proof.Machine
end

