-- ==== Sys2Proof/Laws/KeepLodge.lean ====
section
/-! SUPPORT.
What each function of Machine/Lodge.lean keeps. -/

namespace Sys2Proof.Machine

theorem execSiLevelAccepted_keeps {P : State → Prop} (K : Keeps [.integ, .lodge] P) {input : Fin 16} {level : Bool} {s : State} (h : P s) :
    NextKeeps P (execSiLevelAccepted input level s) := by
  have K1 := K.sub (as := [.lodge]) rfl
  unfold execSiLevelAccepted
  try dsimp only
  repeat' first
    | with_reducible first
      | assumption
      | refine keep_next ?_
      | refine keep_ite_next ?_ ?_
      | refine judgePairs_keeps K ?_
      | refine onPair_keeps K1 ?_
      | refine keep_ite (P := P) ?_ ?_
    | exact rfl
    | split
    | (dsimp only)


theorem execTestPulse_keeps {P : State → Prop} (K : Keeps [.integ, .lodge] P) {tp : Fin 4} {missing : BitVec 16} {foreign : BitVec 16} {s : State} (h : P s) :
    NextKeeps P (execTestPulse tp missing foreign s) := by
  unfold execTestPulse
  try dsimp only
  repeat' first
    | with_reducible first
      | assumption
      | refine keep_next ?_
      | refine keep_ite_next ?_ ?_
      | refine pairFault_keeps K ?_
      | refine K.onLodge rfl _ _ (fun hx => ?_) ?_
      | refine keep_ite (P := P) ?_ ?_
      | refine keep_foldl (P := P) (fun _ _ _ => ?_) ?_
    | exact hx
    | exact rfl
    | split
    | (dsimp only)


theorem execDiscrepancyTimeout_keeps {P : State → Prop} (K : Keeps [.integ, .lodge] P) {pair : Fin 8} {s : State} (h : P s) :
    NextKeeps P (execDiscrepancyTimeout pair s) := by
  unfold execDiscrepancyTimeout
  try dsimp only
  repeat' first
    | with_reducible first
      | assumption
      | refine keep_next ?_
      | refine keep_ite_next ?_ ?_
      | refine pairFault_keeps K ?_
      | refine keep_ite (P := P) ?_ ?_
    | exact rfl
    | split
    | (dsimp only)


theorem execLodgeSnapshot_keeps {P : State → Prop} (K : Keeps [.lodge] P) {s : State} (h : P s) :
    NextKeeps P (execLodgeSnapshot s) := by
  unfold execLodgeSnapshot
  try dsimp only
  repeat' first
    | with_reducible first
      | assumption
      | refine keep_next ?_
      | refine keep_ite_next ?_ ?_
      | refine K.onLodge rfl _ _ (fun hx => ?_) ?_
      | refine keep_ite (P := P) ?_ ?_
    | exact hx
    | exact rfl
    | split
    | (dsimp only)


theorem execLodgeCommandInstant_keeps {P : State → Prop} (K : Keeps [.sys, .power, .pkts, .integ, .axis, .plan, .gear, .loop, .bta, .stepper, .bricks, .lodge, .dev] P) {disagree : Bool} {internal : Option (Fin 3)} {s : State} (h : P s) :
    NextKeeps P (execLodgeCommandInstant disagree internal s) := by
  have K1 := K.sub (as := [.lodge]) rfl
  have K2 := K.sub (as := [.pkts, .integ, .axis, .plan, .gear, .loop, .bta, .stepper, .bricks, .lodge]) rfl
  unfold execLodgeCommandInstant
  try dsimp only
  repeat' first
    | with_reducible first
      | assumption
      | refine keep_next ?_
      | refine keep_ite_next ?_ ?_
      | refine refreshMirrors_keeps K1 ?_
      | refine internalFault_keeps K ?_
      | refine decideSto_keeps K2 ?_
      | refine decideOuts_keeps K1 ?_
      | refine K.onLodge rfl _ _ (fun hx => ?_) ?_
      | refine keep_ite (P := P) ?_ ?_
    | exact hx
    | exact rfl
    | split
    | (dsimp only)


theorem execSs1QuickStop_keeps {P : State → Prop} (K : Keeps [.plan, .lodge] P) {s : State} (h : P s) :
    NextKeeps P (execSs1QuickStop s) := by
  have K1 := K.sub (as := [.plan]) rfl
  unfold execSs1QuickStop
  try dsimp only
  repeat' first
    | with_reducible first
      | assumption
      | refine keep_next ?_
      | refine keep_ite_next ?_ ?_
      | refine requestStop_keeps K1 ?_
      | refine requestGroupStop_keeps K1 ?_
      | refine K.onLodge rfl _ _ (fun hx => ?_) ?_
      | refine keep_ite (P := P) ?_ ?_
      | refine keep_foldl (P := P) (fun _ _ _ => ?_) ?_
    | exact hx
    | exact rfl
    | split
    | (dsimp only)


theorem execSs1DelayExpiry_keeps {P : State → Prop} (K : Keeps [.pkts, .integ, .axis, .plan, .gear, .loop, .bta, .stepper, .bricks, .lodge] P) {out : Option (Fin 4)} {s : State} (h : P s) :
    NextKeeps P (execSs1DelayExpiry out s) := by
  have K1 := K.sub (as := [.lodge]) rfl
  unfold execSs1DelayExpiry
  try dsimp only
  repeat' first
    | with_reducible first
      | assumption
      | refine keep_next ?_
      | refine keep_ite_next ?_ ?_
      | refine onSafeOut_keeps K1 (fun _ hx => ?_) ?_
      | refine assertSto_keeps K ?_
      | refine K.onLodge rfl _ _ (fun hx => ?_) ?_
      | refine keep_ite (P := P) ?_ ?_
    | exact hx
    | exact rfl
    | exact hx
    | exact rfl
    | split
    | (dsimp only)


theorem stoinLevels_keeps {P : State → Prop} (K : Keeps [.lodge] P) {a : Bool} {b : Bool} {s : State} (h : P s) :
    P (stoinLevels a b s) := by
  unfold stoinLevels
  try dsimp only
  repeat' first
    | with_reducible first
      | assumption
      | refine K.onLodge rfl _ _ (fun hx => ?_) ?_
      | refine keep_ite (P := P) ?_ ?_
    | exact hx
    | exact rfl
    | split
    | (dsimp only)


theorem execStoinDemand_keeps {P : State → Prop} (K : Keeps [.pkts, .integ, .axis, .plan, .gear, .loop, .bta, .stepper, .bricks, .lodge] P) {a : Bool} {b : Bool} {s : State} (h : P s) :
    NextKeeps P (execStoinDemand a b s) := by
  have K1 := K.sub (as := [.lodge]) rfl
  unfold execStoinDemand
  try dsimp only
  repeat' first
    | with_reducible first
      | assumption
      | refine keep_next ?_
      | refine keep_ite_next ?_ ?_
      | refine assertSto_keeps K ?_
      | refine stoinLevels_keeps K1 ?_
      | refine K.onLodge rfl _ _ (fun hx => ?_) ?_
      | refine keep_ite (P := P) ?_ ?_
    | exact hx
    | exact rfl
    | split
    | (dsimp only)


theorem execStoinRelease_keeps {P : State → Prop} (K : Keeps [.lodge] P) {s : State} (h : P s) :
    NextKeeps P (execStoinRelease s) := by
  unfold execStoinRelease
  try dsimp only
  repeat' first
    | with_reducible first
      | assumption
      | refine keep_next ?_
      | refine keep_ite_next ?_ ?_
      | refine stoinLevels_keeps K ?_
      | refine K.onLodge rfl _ _ (fun hx => ?_) ?_
      | refine keep_ite (P := P) ?_ ?_
    | exact hx
    | exact rfl
    | split
    | (dsimp only)


theorem execStoinDiscrepancy_keeps {P : State → Prop} (K : Keeps [.pkts, .integ, .axis, .plan, .gear, .loop, .bta, .stepper, .bricks, .lodge] P) {s : State} (h : P s) :
    NextKeeps P (execStoinDiscrepancy s) := by
  have K1 := K.sub (as := [.integ, .lodge]) rfl
  unfold execStoinDiscrepancy
  try dsimp only
  repeat' first
    | with_reducible first
      | assumption
      | refine keep_next ?_
      | refine keep_ite_next ?_ ?_
      | refine assertSto_keeps K ?_
      | refine postFault_keeps K1 ?_
      | refine K.onLodge rfl _ _ (fun hx => ?_) ?_
      | refine keep_ite (P := P) ?_ ?_
    | exact hx
    | exact rfl
    | split
    | (dsimp only)


theorem execKeeperHeartbeat_keeps {P : State → Prop} (K : Keeps [.lodge] P) {word : Sys2Proof.Word} {s : State} (h : P s) :
    NextKeeps P (execKeeperHeartbeat word s) := by
  unfold execKeeperHeartbeat
  try dsimp only
  repeat' first
    | with_reducible first
      | assumption
      | refine keep_next ?_
      | refine keep_ite_next ?_ ?_
      | refine K.onLodge rfl _ _ (fun hx => ?_) ?_
      | refine keep_ite (P := P) ?_ ?_
    | exact hx
    | exact rfl
    | split
    | (dsimp only)


theorem execReferenceTimeout_keeps {P : State → Prop} (K : Keeps [.pkts, .integ, .axis, .plan, .gear, .loop, .bta, .stepper, .bricks, .lodge] P) {s : State} (h : P s) :
    NextKeeps P (execReferenceTimeout s) := by
  unfold execReferenceTimeout
  try dsimp only
  repeat' first
    | with_reducible first
      | assumption
      | refine keep_next ?_
      | refine keep_ite_next ?_ ?_
      | refine assertSto_keeps K ?_
      | refine K.onLodge rfl _ _ (fun hx => ?_) ?_
      | refine keep_ite (P := P) ?_ ?_
    | exact hx
    | exact rfl
    | split
    | (dsimp only)


theorem execHeartbeatTimeout_keeps {P : State → Prop} (K : Keeps [.pkts, .integ, .axis, .plan, .gear, .loop, .bta, .stepper, .bricks, .lodge] P) {s : State} (h : P s) :
    NextKeeps P (execHeartbeatTimeout s) := by
  unfold execHeartbeatTimeout
  try dsimp only
  repeat' first
    | with_reducible first
      | assumption
      | refine keep_next ?_
      | refine keep_ite_next ?_ ?_
      | refine assertSto_keeps K ?_
      | refine K.onLodge rfl _ _ (fun hx => ?_) ?_
      | refine keep_ite (P := P) ?_ ?_
    | exact hx
    | exact rfl
    | split
    | (dsimp only)


theorem execSupervisionRelease_keeps {P : State → Prop} (K : Keeps [.pkts, .integ, .axis, .plan, .gear, .loop, .bta, .stepper, .bricks, .lodge] P) {reference : Bool} {s : State} (h : P s) :
    NextKeeps P (execSupervisionRelease reference s) := by
  have K1 := K.sub (as := [.lodge]) rfl
  unfold execSupervisionRelease
  try dsimp only
  repeat' first
    | with_reducible first
      | assumption
      | refine keep_next ?_
      | refine keep_ite_next ?_ ?_
      | refine refreshMirrors_keeps K1 ?_
      | refine decideSto_keeps K ?_
      | refine K.onLodge rfl _ _ (fun hx => ?_) ?_
      | refine keep_ite (P := P) ?_ ?_
    | exact hx
    | exact rfl
    | split
    | (dsimp only)


theorem execLodgeOvertemp_keeps {P : State → Prop} (K : Keeps [.pkts, .integ, .axis, .plan, .gear, .loop, .bta, .stepper, .bricks, .lodge] P) {temp : Int} {s : State} (h : P s) :
    NextKeeps P (execLodgeOvertemp temp s) := by
  unfold execLodgeOvertemp
  try dsimp only
  repeat' first
    | with_reducible first
      | assumption
      | refine keep_next ?_
      | refine keep_ite_next ?_ ?_
      | refine assertSto_keeps K ?_
      | refine K.onLodge rfl _ _ (fun hx => ?_) ?_
      | refine keep_ite (P := P) ?_ ?_
    | exact hx
    | exact rfl
    | (refine hx.imp id fun e => ⟨e.1, fun n => ?_⟩; show LodgeOut.on ((updAll (n := 4) _ _)[n]) = false; rw [updAll_get]; rfl)
    | split
    | (dsimp only)


theorem outFault_keeps {P : State → Prop} (K : Keeps [.integ, .lodge] P) {n : Fin 4} {code : Nat} {stays : Bool} {s : State} (h : P s) :
    P (outFault n code stays s) := by
  have K1 := K.sub (as := [.lodge]) rfl
  unfold outFault
  try dsimp only
  repeat' first
    | with_reducible first
      | assumption
      | refine onSafeOut_keeps K1 (fun _ hx => ?_) ?_
      | refine postFault_keeps K ?_
      | refine keep_ite (P := P) ?_ ?_
    | exact hx
    | exact rfl
    | exact hx
    | exact rfl
    | split
    | (dsimp only)


theorem execSafeOutputTest_keeps {P : State → Prop} (K : Keeps [.integ, .lodge] P) {out : Fin 4} {pStuck : Bool} {mStuck : Bool} {cross : Option (Fin 4)} {s : State} (h : P s) :
    NextKeeps P (execSafeOutputTest out pStuck mStuck cross s) := by
  have K1 := K.sub (as := [.lodge]) rfl
  have K2 := K.sub (as := [.integ]) rfl
  unfold execSafeOutputTest
  try dsimp only
  repeat' first
    | with_reducible first
      | assumption
      | refine keep_next ?_
      | refine keep_ite_next ?_ ?_
      | refine onSafeOut_keeps K1 (fun _ hx => ?_) ?_
      | refine outFault_keeps K ?_
      | refine setCause_keeps K2 ?_
      | refine keep_ite (P := P) ?_ ?_
    | exact hx
    | exact rfl
    | exact hx
    | exact rfl
    | split
    | (dsimp only)


theorem execSafeOutputOverload_keeps {P : State → Prop} (K : Keeps [.integ, .lodge] P) {out : Fin 4} {s : State} (h : P s) :
    NextKeeps P (execSafeOutputOverload out s) := by
  unfold execSafeOutputOverload
  try dsimp only
  repeat' first
    | with_reducible first
      | assumption
      | refine keep_next ?_
      | refine keep_ite_next ?_ ?_
      | refine outFault_keeps K ?_
      | refine keep_ite (P := P) ?_ ?_
    | exact rfl
    | split
    | (dsimp only)


theorem execSafeOutputOpenLoad_keeps {P : State → Prop} (K : Keeps [.integ, .lodge] P) {out : Fin 4} {s : State} (h : P s) :
    NextKeeps P (execSafeOutputOpenLoad out s) := by
  unfold execSafeOutputOpenLoad
  try dsimp only
  repeat' first
    | with_reducible first
      | assumption
      | refine keep_next ?_
      | refine keep_ite_next ?_ ?_
      | refine outFault_keeps K ?_
      | refine keep_ite (P := P) ?_ ?_
    | exact rfl
    | split
    | (dsimp only)


theorem execTestOverdue_keeps {P : State → Prop} (K : Keeps [.integ, .lodge] P) {out : Fin 4} {s : State} (h : P s) :
    NextKeeps P (execTestOverdue out s) := by
  unfold execTestOverdue
  try dsimp only
  repeat' first
    | with_reducible first
      | assumption
      | refine keep_next ?_
      | refine keep_ite_next ?_ ?_
      | refine outFault_keeps K ?_
      | refine keep_ite (P := P) ?_ ?_
    | exact rfl
    | split
    | (dsimp only)


end Sys2Proof.Machine
end

