-- ==== Sys2Proof/Laws/KeepLodgeOps.lean ====
section
/-! SUPPORT.
What each function of Machine/LodgeOps.lean keeps. -/

namespace Sys2Proof.Machine

theorem opLodgeRead_keeps {P : State → Prop} (K : Keeps [] P) {rq : Request} {s : State} (h : P s) :
    Answer.Keeps P (opLodgeRead.effect rq s) := by
  have _ := K
  unfold opLodgeRead
  try dsimp only
  repeat' first
    | with_reducible first
      | assumption
      | refine keep_ite (P := P) ?_ ?_
      | refine keep_ite_answer ?_ ?_
      | exact keep_deny
      | refine keep_done ?_
      | refine keep_fail ?_
      | refine keep_wait ?_
    | exact rfl
    | split
    | (dsimp only)


theorem execLodgeRead_keeps {P : State → Prop} (K : Keeps [.pkts, .integ, .free] P) {rq : Sys2Proof.Request} {s : State} (h : P s) :
    NextKeeps P (execLodgeRead rq s) := by
  have K1 := K.sub (as := []) rfl
  unfold execLodgeRead
  try dsimp only
  repeat' first
    | with_reducible first
      | assumption
      | refine keep_next ?_
      | refine runCommand_keeps K ?_ ?_
      | refine opLodgeRead_keeps K1 ?_
    | exact rfl
    | split
    | (dsimp only)


theorem opLodgeParamStage_keeps {P : State → Prop} (K : Keeps [.lodge] P) {rq : Request} {s : State} (h : P s) :
    Answer.Keeps P (opLodgeParamStage.effect rq s) := by
  unfold opLodgeParamStage
  try dsimp only
  repeat' first
    | with_reducible first
      | assumption
      | refine K.onLodge rfl _ _ (fun hx => ?_) ?_
      | refine keep_ite (P := P) ?_ ?_
      | refine keep_ite_answer ?_ ?_
      | exact keep_deny
      | refine keep_done ?_
      | refine keep_fail ?_
      | refine keep_wait ?_
    | exact hx
    | exact rfl
    | split
    | (dsimp only)


theorem execLodgeParamStage_keeps {P : State → Prop} (K : Keeps [.pkts, .integ, .lodge, .free] P) {rq : Sys2Proof.Request} {s : State} (h : P s) :
    NextKeeps P (execLodgeParamStage rq s) := by
  have K1 := K.sub (as := [.pkts, .integ, .free]) rfl
  have K2 := K.sub (as := [.lodge]) rfl
  unfold execLodgeParamStage
  try dsimp only
  repeat' first
    | with_reducible first
      | assumption
      | refine keep_next ?_
      | refine runCommand_keeps K1 ?_ ?_
      | refine opLodgeParamStage_keeps K2 ?_
    | exact rfl
    | split
    | (dsimp only)


theorem opLodgeParamConfirm_keeps {P : State → Prop} (K : Keeps [.sys, .power, .pkts, .integ, .axis, .plan, .gear, .loop, .bta, .stepper, .bricks, .lodge, .dev] P) {rq : Request} {s : State} (h : P s) :
    Answer.Keeps P (opLodgeParamConfirm.effect rq s) := by
  unfold opLodgeParamConfirm
  try dsimp only
  repeat' first
    | with_reducible first
      | assumption
      | refine leaveRun_keeps K ?_
      | refine K.onLodge rfl _ _ (fun hx => ?_) ?_
      | refine keep_ite (P := P) ?_ ?_
      | refine keep_ite_answer ?_ ?_
      | exact keep_deny
      | refine keep_done ?_
      | refine keep_fail ?_
      | refine keep_wait ?_
    | exact hx
    | exact rfl
    | split
    | (dsimp only)


theorem execLodgeParamConfirm_keeps {P : State → Prop} (K : Keeps [.sys, .power, .pkts, .integ, .axis, .plan, .gear, .loop, .bta, .stepper, .bricks, .lodge, .dev, .free] P) {rq : Sys2Proof.Request} {s : State} (h : P s) :
    NextKeeps P (execLodgeParamConfirm rq s) := by
  have K1 := K.sub (as := [.pkts, .integ, .free]) rfl
  have K2 := K.sub (as := [.sys, .power, .pkts, .integ, .axis, .plan, .gear, .loop, .bta, .stepper, .bricks, .lodge, .dev]) rfl
  unfold execLodgeParamConfirm
  try dsimp only
  repeat' first
    | with_reducible first
      | assumption
      | refine keep_next ?_
      | refine runCommand_keeps K1 ?_ ?_
      | refine opLodgeParamConfirm_keeps K2 ?_
    | exact rfl
    | split
    | (dsimp only)


theorem opLodgeKeyEnrol_keeps {P : State → Prop} (K : Keeps [.lodge] P) {rq : Request} {s : State} (h : P s) :
    Answer.Keeps P (opLodgeKeyEnrol.effect rq s) := by
  unfold opLodgeKeyEnrol
  try dsimp only
  repeat' first
    | with_reducible first
      | assumption
      | refine K.onLodge rfl _ _ (fun hx => ?_) ?_
      | refine keep_ite (P := P) ?_ ?_
      | refine keep_ite_answer ?_ ?_
      | exact keep_deny
      | refine keep_done ?_
      | refine keep_fail ?_
      | refine keep_wait ?_
    | exact hx
    | exact rfl
    | split
    | (dsimp only)


theorem execLodgeKeyEnrol_keeps {P : State → Prop} (K : Keeps [.pkts, .integ, .lodge, .free] P) {rq : Sys2Proof.Request} {s : State} (h : P s) :
    NextKeeps P (execLodgeKeyEnrol rq s) := by
  have K1 := K.sub (as := [.pkts, .integ, .free]) rfl
  have K2 := K.sub (as := [.lodge]) rfl
  unfold execLodgeKeyEnrol
  try dsimp only
  repeat' first
    | with_reducible first
      | assumption
      | refine keep_next ?_
      | refine runCommand_keeps K1 ?_ ?_
      | refine opLodgeKeyEnrol_keeps K2 ?_
    | exact rfl
    | split
    | (dsimp only)


theorem clearLodgeFaults_keeps {P : State → Prop} (K : Keeps [.integ, .lodge] P) {s : State} (h : P s) :
    P (clearLodgeFaults s) := by
  unfold clearLodgeFaults
  try dsimp only
  repeat' first
    | with_reducible first
      | assumption
      | refine judgePairs_keeps K ?_
      | refine K.onLodge rfl _ _ (fun hx => ?_) ?_
      | refine keep_ite (P := P) ?_ ?_
    | exact hx
    | exact rfl
    | (refine hx.imp id fun e => ⟨e.1, fun n => ?_⟩; show LodgeOut.on ((updAll (n := 4) _ _)[n]) = false; rw [updAll_get]; split <;> exact e.2 n)
    | split
    | (dsimp only)


theorem opLodgeFaultClear_keeps {P : State → Prop} (K : Keeps [.integ, .lodge] P) {rq : Request} {s : State} (h : P s) :
    Answer.Keeps P (opLodgeFaultClear.effect rq s) := by
  unfold opLodgeFaultClear
  try dsimp only
  repeat' first
    | with_reducible first
      | assumption
      | refine clearLodgeFaults_keeps K ?_
      | refine keep_ite (P := P) ?_ ?_
      | refine keep_ite_answer ?_ ?_
      | exact keep_deny
      | refine keep_done ?_
      | refine keep_fail ?_
      | refine keep_wait ?_
    | exact rfl
    | split
    | (dsimp only)


theorem execLodgeFaultClear_keeps {P : State → Prop} (K : Keeps [.pkts, .integ, .lodge, .free] P) {rq : Sys2Proof.Request} {s : State} (h : P s) :
    NextKeeps P (execLodgeFaultClear rq s) := by
  have K1 := K.sub (as := [.pkts, .integ, .free]) rfl
  have K2 := K.sub (as := [.integ, .lodge]) rfl
  unfold execLodgeFaultClear
  try dsimp only
  repeat' first
    | with_reducible first
      | assumption
      | refine keep_next ?_
      | refine runCommand_keeps K1 ?_ ?_
      | refine opLodgeFaultClear_keeps K2 ?_
    | exact rfl
    | split
    | (dsimp only)


theorem execVsafLoss_keeps {P : State → Prop} (K : Keeps [.sys, .power, .pkts, .integ, .axis, .plan, .gear, .loop, .bta, .stepper, .bricks, .lodge, .dev, .free] P) {s : State} (h : P s) :
    NextKeeps P (execVsafLoss s) := by
  have K1 := K.sub (as := [.free]) rfl
  have K2 := K.sub (as := [.sys, .power, .pkts, .integ, .axis, .plan, .gear, .loop, .bta, .stepper, .bricks, .lodge, .dev]) rfl
  have K3 := K.sub (as := [.lodge]) rfl
  unfold execVsafLoss
  try dsimp only
  repeat' first
    | with_reducible first
      | assumption
      | refine keep_next ?_
      | refine keep_ite_next ?_ ?_
      | refine freshBool_keeps K1 ?_
      | refine freshBool_out K1 ?_ ‹_›
      | refine leaveRun_keeps K2 ?_
      | refine refreshMirrors_keeps K3 ?_
      | refine K.onPower rfl _ _ ?_
      | refine K.onLodge rfl _ _ (fun hx => ?_) ?_
      | refine K.onPkts rfl _ _ (fun hx => ?_) ?_
      | refine keep_ite (P := P) ?_ ?_
    | exact hx
    | exact rfl
    | (refine ⟨?_, ?_, ?_⟩ <;> first | exact hx.1 | exact hx.2.1 | exact hx.2.2 | (have h1 := hx.1; have h2 := hx.2.1; have h3 := hx.2.2; simp at h1 h2 h3 ⊢; omega))
    | split
    | (dsimp only)


/-- Outputs that have been given no command are open. -/
theorem reset_outs_open : ∀ n : Fin 4, (Vector.replicate 4 ({} : LodgeOut))[n].on = false := by decide

theorem execVsafReturn_keeps {P : State → Prop} (K : Keeps [.power, .lodge] P) {s : State} (h : P s) :
    NextKeeps P (execVsafReturn s) := by
  have K1 := K.sub (as := [.lodge]) rfl
  have K2 := K.sub (as := [.power]) rfl
  unfold execVsafReturn
  try dsimp only
  repeat' first
    | with_reducible first
      | assumption
      | refine keep_next ?_
      | refine keep_ite_next ?_ ?_
      | refine refreshMirrors_keeps K1 ?_
      | refine wakes_keeps K2 ?_
      | refine K.onLodge rfl _ _ (fun hx => ?_) ?_
      | refine K.onPower rfl _ _ ?_
      | refine keep_ite (P := P) ?_ ?_
    | exact hx
    | exact rfl
    | exact Or.inr ⟨rfl, reset_outs_open⟩
    | split
    | (dsimp only)


theorem execLodgeSelfTestEnd_keeps {P : State → Prop} (K : Keeps [.sys, .power, .pkts, .integ, .axis, .plan, .gear, .loop, .bta, .stepper, .bricks, .lodge, .dev] P) {passed : Bool} {s : State} (h : P s) :
    NextKeeps P (execLodgeSelfTestEnd passed s) := by
  have K1 := K.sub (as := [.power, .integ, .lodge]) rfl
  unfold execLodgeSelfTestEnd
  try dsimp only
  repeat' first
    | with_reducible first
      | assumption
      | refine keep_next ?_
      | refine keep_ite_next ?_ ?_
      | refine internalFault_keeps K ?_
      | refine enterRun_keeps K1 ?_
      | refine leaveRun_keeps K ?_
      | refine keep_ite (P := P) ?_ ?_
    | exact rfl
    | split
    | (dsimp only)


theorem execLodgeSwitchingEnd_keeps {P : State → Prop} (K : Keeps [.power, .pkts, .integ, .lodge] P) {s : State} (h : P s) :
    NextKeeps P (execLodgeSwitchingEnd s) := by
  have K1 := K.sub (as := [.pkts]) rfl
  have K2 := K.sub (as := [.power, .integ, .lodge]) rfl
  unfold execLodgeSwitchingEnd
  try dsimp only
  repeat' first
    | with_reducible first
      | assumption
      | refine keep_next ?_
      | refine finish_keeps K1 ?_
      | refine enterRun_keeps K2 ?_
    | exact rfl
    | split
    | (dsimp only)


theorem execLodgeImageInstalled_keeps {P : State → Prop} (K : Keeps [.sys, .power, .boot, .pkts, .integ, .axis, .plan, .gear, .loop, .bta, .stepper, .bricks, .lodge, .dev] P) {acceptsFormat : Bool} {s : State} (h : P s) :
    NextKeeps P (execLodgeImageInstalled acceptsFormat s) := by
  have K1 := K.sub (as := [.pkts]) rfl
  have K2 := K.sub (as := [.sys, .power, .pkts, .integ, .axis, .plan, .gear, .loop, .bta, .stepper, .bricks, .lodge, .dev]) rfl
  unfold execLodgeImageInstalled
  try dsimp only
  repeat' first
    | with_reducible first
      | assumption
      | refine keep_next ?_
      | refine keep_ite_next ?_ ?_
      | refine finishDeny_keeps K1 ?_
      | refine leaveRun_keeps K2 ?_
      | refine finish_keeps K1 ?_
      | refine K.onBoot rfl _ _ ?_
      | refine K.onLodge rfl _ _ (fun hx => ?_) ?_
      | refine keep_ite (P := P) ?_ ?_
    | exact hx
    | exact rfl
    | split
    | (dsimp only)


end Sys2Proof.Machine
end

