-- ==== Sys2Proof/Laws/KeepLoopOps.lean ====
section
/-! SUPPORT.
What each function of Machine/LoopOps.lean keeps. -/

namespace Sys2Proof.Machine

theorem opLoopLoadCascade_keeps {P : State → Prop} (K : Keeps [.loop] P) {rq : Request} {s : State} (h : P s) :
    Answer.Keeps P (opLoopLoadCascade.effect rq s) := by
  unfold opLoopLoadCascade
  try dsimp only
  repeat' first
    | with_reducible first
      | assumption
      | refine onLoopSt_keeps K ?_
      | exact keep_deny
      | refine keep_done ?_
      | refine keep_fail ?_
      | refine keep_wait ?_
    | exact rfl
    | split
    | (dsimp only)


theorem execLoopLoadCascade_keeps {P : State → Prop} (K : Keeps [.pkts, .integ, .loop, .free] P) {rq : Sys2Proof.Request} {s : State} (h : P s) :
    NextKeeps P (execLoopLoadCascade rq s) := by
  have K1 := K.sub (as := [.pkts, .integ, .free]) rfl
  have K2 := K.sub (as := [.loop]) rfl
  unfold execLoopLoadCascade
  try dsimp only
  repeat' first
    | with_reducible first
      | assumption
      | refine keep_next ?_
      | refine runCommand_keeps K1 ?_ ?_
      | refine opLoopLoadCascade_keeps K2 ?_
    | exact rfl
    | split
    | (dsimp only)


theorem opLoopSchedule_keeps {P : State → Prop} (K : Keeps [.power, .loop, .bta] P) {rq : Request} {s : State} (h : P s) :
    Answer.Keeps P (opLoopSchedule.effect rq s) := by
  have K1 := K.sub (as := [.loop]) rfl
  unfold opLoopSchedule
  try dsimp only
  repeat' first
    | with_reducible first
      | assumption
      | refine onLoopSt_keeps K1 ?_
      | refine reselect_keeps K ?_
      | refine keep_ite (P := P) ?_ ?_
      | refine keep_ite_answer ?_ ?_
      | exact keep_deny
      | refine keep_done ?_
      | refine keep_fail ?_
      | refine keep_wait ?_
    | exact rfl
    | split
    | (dsimp only)


theorem execLoopSchedule_keeps {P : State → Prop} (K : Keeps [.power, .pkts, .integ, .loop, .bta, .free] P) {rq : Sys2Proof.Request} {s : State} (h : P s) :
    NextKeeps P (execLoopSchedule rq s) := by
  have K1 := K.sub (as := [.pkts, .integ, .free]) rfl
  have K2 := K.sub (as := [.power, .loop, .bta]) rfl
  unfold execLoopSchedule
  try dsimp only
  repeat' first
    | with_reducible first
      | assumption
      | refine keep_next ?_
      | refine runCommand_keeps K1 ?_ ?_
      | refine opLoopSchedule_keeps K2 ?_
    | exact rfl
    | split
    | (dsimp only)


theorem slotSetting_keeps {P : State → Prop} (K : Keeps [.loop] P) {rq : Sys2Proof.Request} {f : LoopSlot → LoopSlot} {s : State} (h : P s) :
    Answer.Keeps P (slotSetting rq s f) := by
  unfold slotSetting
  try dsimp only
  repeat' first
    | with_reducible first
      | assumption
      | refine onLSlot_keeps K ?_
      | refine keep_ite (P := P) ?_ ?_
      | refine keep_ite_answer ?_ ?_
      | exact keep_deny
      | refine keep_done ?_
      | refine keep_fail ?_
      | refine keep_wait ?_
    | exact rfl
    | split
    | (dsimp only)


theorem opLoopScales_keeps {P : State → Prop} (K : Keeps [.loop] P) {rq : Request} {s : State} (h : P s) :
    Answer.Keeps P (opLoopScales.effect rq s) := by
  unfold opLoopScales
  try dsimp only
  repeat' first
    | with_reducible first
      | assumption
      | refine slotSetting_keeps K ?_
      | refine keep_ite (P := P) ?_ ?_
      | refine keep_ite_answer ?_ ?_
      | exact keep_deny
      | refine keep_done ?_
      | refine keep_fail ?_
      | refine keep_wait ?_
    | exact rfl
    | split
    | (dsimp only)


theorem execLoopScales_keeps {P : State → Prop} (K : Keeps [.pkts, .integ, .loop, .free] P) {rq : Sys2Proof.Request} {s : State} (h : P s) :
    NextKeeps P (execLoopScales rq s) := by
  have K1 := K.sub (as := [.pkts, .integ, .free]) rfl
  have K2 := K.sub (as := [.loop]) rfl
  unfold execLoopScales
  try dsimp only
  repeat' first
    | with_reducible first
      | assumption
      | refine keep_next ?_
      | refine runCommand_keeps K1 ?_ ?_
      | refine opLoopScales_keeps K2 ?_
    | exact rfl
    | split
    | (dsimp only)


theorem opLoopMotor_keeps {P : State → Prop} (K : Keeps [.loop] P) {rq : Request} {s : State} (h : P s) :
    Answer.Keeps P (opLoopMotor.effect rq s) := by
  unfold opLoopMotor
  try dsimp only
  repeat' first
    | with_reducible first
      | assumption
      | refine slotSetting_keeps K ?_
      | exact keep_deny
      | refine keep_done ?_
      | refine keep_fail ?_
      | refine keep_wait ?_
    | exact rfl
    | (dsimp only)


theorem execLoopMotor_keeps {P : State → Prop} (K : Keeps [.pkts, .integ, .loop, .free] P) {rq : Sys2Proof.Request} {s : State} (h : P s) :
    NextKeeps P (execLoopMotor rq s) := by
  have K1 := K.sub (as := [.pkts, .integ, .free]) rfl
  have K2 := K.sub (as := [.loop]) rfl
  unfold execLoopMotor
  try dsimp only
  repeat' first
    | with_reducible first
      | assumption
      | refine keep_next ?_
      | refine runCommand_keeps K1 ?_ ?_
      | refine opLoopMotor_keeps K2 ?_
    | exact rfl
    | split
    | (dsimp only)


theorem opLoopModulation_keeps {P : State → Prop} (K : Keeps [.loop] P) {rq : Request} {s : State} (h : P s) :
    Answer.Keeps P (opLoopModulation.effect rq s) := by
  unfold opLoopModulation
  try dsimp only
  repeat' first
    | with_reducible first
      | assumption
      | refine slotSetting_keeps K ?_
      | refine keep_ite (P := P) ?_ ?_
      | refine keep_ite_answer ?_ ?_
      | exact keep_deny
      | refine keep_done ?_
      | refine keep_fail ?_
      | refine keep_wait ?_
    | exact rfl
    | split
    | (dsimp only)


theorem execLoopModulation_keeps {P : State → Prop} (K : Keeps [.pkts, .integ, .loop, .free] P) {rq : Sys2Proof.Request} {s : State} (h : P s) :
    NextKeeps P (execLoopModulation rq s) := by
  have K1 := K.sub (as := [.pkts, .integ, .free]) rfl
  have K2 := K.sub (as := [.loop]) rfl
  unfold execLoopModulation
  try dsimp only
  repeat' first
    | with_reducible first
      | assumption
      | refine keep_next ?_
      | refine runCommand_keeps K1 ?_ ?_
      | refine opLoopModulation_keeps K2 ?_
    | exact rfl
    | split
    | (dsimp only)


theorem opLoopFollow_keeps {P : State → Prop} (K : Keeps [.loop] P) {rq : Request} {s : State} (h : P s) :
    Answer.Keeps P (opLoopFollow.effect rq s) := by
  unfold opLoopFollow
  try dsimp only
  repeat' first
    | with_reducible first
      | assumption
      | refine slotSetting_keeps K ?_
      | exact keep_deny
      | refine keep_done ?_
      | refine keep_fail ?_
      | refine keep_wait ?_
    | exact rfl
    | (dsimp only)


theorem execLoopFollow_keeps {P : State → Prop} (K : Keeps [.pkts, .integ, .loop, .free] P) {rq : Sys2Proof.Request} {s : State} (h : P s) :
    NextKeeps P (execLoopFollow rq s) := by
  have K1 := K.sub (as := [.pkts, .integ, .free]) rfl
  have K2 := K.sub (as := [.loop]) rfl
  unfold execLoopFollow
  try dsimp only
  repeat' first
    | with_reducible first
      | assumption
      | refine keep_next ?_
      | refine runCommand_keeps K1 ?_ ?_
      | refine opLoopFollow_keeps K2 ?_
    | exact rfl
    | split
    | (dsimp only)


theorem opLoopLimits_keeps {P : State → Prop} (K : Keeps [.loop] P) {rq : Request} {s : State} (h : P s) :
    Answer.Keeps P (opLoopLimits.effect rq s) := by
  unfold opLoopLimits
  try dsimp only
  repeat' first
    | with_reducible first
      | assumption
      | refine onLSlot_keeps K ?_
      | refine keep_ite (P := P) ?_ ?_
      | refine keep_ite_answer ?_ ?_
      | exact keep_deny
      | refine keep_done ?_
      | refine keep_fail ?_
      | refine keep_wait ?_
    | exact rfl
    | split
    | (dsimp only)


theorem execLoopLimits_keeps {P : State → Prop} (K : Keeps [.pkts, .integ, .loop, .free] P) {rq : Sys2Proof.Request} {s : State} (h : P s) :
    NextKeeps P (execLoopLimits rq s) := by
  have K1 := K.sub (as := [.pkts, .integ, .free]) rfl
  have K2 := K.sub (as := [.loop]) rfl
  unfold execLoopLimits
  try dsimp only
  repeat' first
    | with_reducible first
      | assumption
      | refine keep_next ?_
      | refine runCommand_keeps K1 ?_ ?_
      | refine opLoopLimits_keeps K2 ?_
    | exact rfl
    | split
    | (dsimp only)


theorem opLoopObserver_keeps {P : State → Prop} (K : Keeps [.loop] P) {rq : Request} {s : State} (h : P s) :
    Answer.Keeps P (opLoopObserver.effect rq s) := by
  unfold opLoopObserver
  try dsimp only
  repeat' first
    | with_reducible first
      | assumption
      | refine slotSetting_keeps K ?_
      | exact keep_deny
      | refine keep_done ?_
      | refine keep_fail ?_
      | refine keep_wait ?_
    | exact rfl
    | (dsimp only)


theorem execLoopObserver_keeps {P : State → Prop} (K : Keeps [.pkts, .integ, .loop, .free] P) {rq : Sys2Proof.Request} {s : State} (h : P s) :
    NextKeeps P (execLoopObserver rq s) := by
  have K1 := K.sub (as := [.pkts, .integ, .free]) rfl
  have K2 := K.sub (as := [.loop]) rfl
  unfold execLoopObserver
  try dsimp only
  repeat' first
    | with_reducible first
      | assumption
      | refine keep_next ?_
      | refine runCommand_keeps K1 ?_ ?_
      | refine opLoopObserver_keeps K2 ?_
    | exact rfl
    | split
    | (dsimp only)


theorem opLoopRead_keeps {P : State → Prop} (K : Keeps [] P) {rq : Request} {s : State} (h : P s) :
    Answer.Keeps P (opLoopRead.effect rq s) := by
  have _ := K
  unfold opLoopRead
  try dsimp only
  repeat' first
    | with_reducible first
      | assumption
      | exact keep_deny
      | refine keep_done ?_
      | refine keep_fail ?_
      | refine keep_wait ?_
    | exact rfl
    | split
    | (dsimp only)


theorem execLoopRead_keeps {P : State → Prop} (K : Keeps [.pkts, .integ, .free] P) {rq : Sys2Proof.Request} {s : State} (h : P s) :
    NextKeeps P (execLoopRead rq s) := by
  have K1 := K.sub (as := []) rfl
  unfold execLoopRead
  try dsimp only
  repeat' first
    | with_reducible first
      | assumption
      | refine keep_next ?_
      | refine runCommand_keeps K ?_ ?_
      | refine opLoopRead_keeps K1 ?_
    | exact rfl
    | split
    | (dsimp only)


theorem opLoopStatusRead_keeps {P : State → Prop} (K : Keeps [.loop] P) {rq : Request} {s : State} (h : P s) :
    Answer.Keeps P (opLoopStatusRead.effect rq s) := by
  unfold opLoopStatusRead
  try dsimp only
  repeat' first
    | with_reducible first
      | assumption
      | refine onLSlot_keeps K ?_
      | refine keep_ite (P := P) ?_ ?_
      | refine keep_ite_answer ?_ ?_
      | exact keep_deny
      | refine keep_done ?_
      | refine keep_fail ?_
      | refine keep_wait ?_
    | exact rfl
    | split
    | (dsimp only)


theorem execLoopStatusRead_keeps {P : State → Prop} (K : Keeps [.pkts, .integ, .loop, .free] P) {rq : Sys2Proof.Request} {s : State} (h : P s) :
    NextKeeps P (execLoopStatusRead rq s) := by
  have K1 := K.sub (as := [.pkts, .integ, .free]) rfl
  have K2 := K.sub (as := [.loop]) rfl
  unfold execLoopStatusRead
  try dsimp only
  repeat' first
    | with_reducible first
      | assumption
      | refine keep_next ?_
      | refine runCommand_keeps K1 ?_ ?_
      | refine opLoopStatusRead_keeps K2 ?_
    | exact rfl
    | split
    | (dsimp only)


theorem execLoopSample_keeps {P : State → Prop} (K : Keeps [.sys, .pkts, .integ, .axis, .plan, .gear, .loop, .ports, .bta, .stepper, .bricks, .lanes, .free] P) {slot : Fin 64} {loop : Fin 3} {s : State} (h : P s) :
    NextKeeps P (execLoopSample slot loop s) := by
  unfold execLoopSample
  try dsimp only
  repeat' first
    | with_reducible first
      | assumption
      | refine keep_next ?_
      | refine keep_ite_next ?_ ?_
      | refine loopSample_keeps K ?_
      | refine keep_ite (P := P) ?_ ?_
    | exact rfl
    | split
    | (dsimp only)


theorem execLoopResultReady_keeps {P : State → Prop} (K : Keeps [.pkts, .integ, .axis, .plan, .gear, .loop, .bta, .stepper, .bricks] P) {slot : Fin 64} {loop : Fin 3} {s : State} (h : P s) :
    NextKeeps P (execLoopResultReady slot loop s) := by
  unfold execLoopResultReady
  try dsimp only
  repeat' first
    | with_reducible first
      | assumption
      | refine keep_next ?_
      | refine resultReady_keeps K ?_
    | exact rfl
    | split
    | (dsimp only)


theorem execLoopRelease_keeps {P : State → Prop} (K : Keeps [.pkts, .integ, .axis, .plan, .gear, .loop, .bta, .stepper, .bricks, .lanes] P) {slot : Fin 64} {loop : Fin 3} {s : State} (h : P s) :
    NextKeeps P (execLoopRelease slot loop s) := by
  unfold execLoopRelease
  try dsimp only
  repeat' first
    | with_reducible first
      | assumption
      | refine keep_next ?_
      | refine keep_ite_next ?_ ?_
      | refine loopRelease_keeps K ?_
      | refine keep_ite (P := P) ?_ ?_
    | exact rfl
    | split
    | (dsimp only)


theorem followConversion_keeps {P : State → Prop} (K : Keeps [.axis, .loop, .bta, .bricks] P) {i : Fin 64} {code : Int} {clips : Nat} {s : State} (h : P s) :
    P (followConversion i code clips s) := by
  have K1 := K.sub (as := [.loop]) rfl
  have K2 := K.sub (as := [.axis]) rfl
  have K3 := K.sub (as := [.axis, .bta, .bricks]) rfl
  unfold followConversion
  try dsimp only
  repeat' first
    | with_reducible first
      | assumption
      | refine onLSlot_keeps K1 ?_
      | refine onAx_keeps K2 ?_
      | refine feedValue_keeps K3 ?_
      | refine keep_ite (P := P) ?_ ?_
    | exact rfl
    | split
    | (dsimp only)


theorem execAinConversion_keeps {P : State → Prop} (K : Keeps [.integ, .axis, .loop, .bta, .bricks] P) {channel : Fin 8} {code : BitVec 16} {s : State} (h : P s) :
    NextKeeps P (execAinConversion channel code s) := by
  have K1 := K.sub (as := [.axis, .loop, .bta, .bricks]) rfl
  have K2 := K.sub (as := [.integ]) rfl
  unfold execAinConversion
  try dsimp only
  repeat' first
    | with_reducible first
      | assumption
      | refine keep_next ?_
      | refine keep_ite_next ?_ ?_
      | refine followConversion_keeps K1 ?_
      | refine event_keeps K2 ?_
      | refine K.onLoop rfl _ _ ?_
      | refine keep_ite (P := P) ?_ ?_
      | refine keep_foldl (P := P) (fun _ _ _ => ?_) ?_
    | exact rfl
    | split
    | (dsimp only)


theorem execObserverStartTimeout_keeps {P : State → Prop} (K : Keeps [.pkts, .integ, .axis, .plan, .gear, .loop, .bta, .stepper, .bricks] P) {slot : Fin 64} {s : State} (h : P s) :
    NextKeeps P (execObserverStartTimeout slot s) := by
  unfold execObserverStartTimeout
  try dsimp only
  repeat' first
    | with_reducible first
      | assumption
      | refine keep_next ?_
      | refine keep_ite_next ?_ ?_
      | refine axisFault_keeps K ?_
      | refine keep_ite (P := P) ?_ ?_
    | exact rfl
    | split
    | (dsimp only)


end Sys2Proof.Machine
end

