-- ==== Sys2Proof/Laws/KeepNet.lean ====
section
/-! SUPPORT.
What each function of Machine/Net.lean keeps. -/

namespace Sys2Proof.Machine

theorem learn_keeps {P : State → Prop} (K : Keeps [.net] P) {port : Fin 4} {mac : BitVec 48} {vid : Nat} {s : State} (h : P s) :
    P (learn port mac vid s) := by
  unfold learn
  try dsimp only
  repeat' first
    | with_reducible first
      | assumption
      | refine K.onNet rfl _ _ ?_
      | refine keep_ite (P := P) ?_ ?_
    | exact rfl
    | split
    | (dsimp only)


theorem forward_keeps {P : State → Prop} (K : Keeps [.net] P) {port : Fin 4} {f : Sys2Proof.NetFrame} {q : Fin 5} {s : State} (h : P s) :
    P (forward port f q s) := by
  unfold forward
  try dsimp only
  repeat' first
    | with_reducible first
      | assumption
      | refine onNetPort_keeps K ?_
      | refine keep_ite (P := P) ?_ ?_
    | exact rfl
    | split
    | (dsimp only)


theorem acceptFrame_keeps {P : State → Prop} (K : Keeps [.net] P) {port : Fin 4} {f : Sys2Proof.NetFrame} {s : State} (h : P s) :
    P (acceptFrame port f s) := by
  unfold acceptFrame
  try dsimp only
  repeat' first
    | with_reducible first
      | assumption
      | refine learn_keeps K ?_
      | refine onNetPort_keeps K ?_
      | refine forward_keeps K ?_
      | refine keep_ite (P := P) ?_ ?_
      | refine keep_foldl (P := P) (fun _ _ _ => ?_) ?_
    | exact rfl
    | split
    | (dsimp only)


theorem cutBad_keeps {P : State → Prop} (K : Keeps [.net] P) {port : Fin 4} {qs : List (Fin 5)} {s : State} (h : P s) :
    P (cutBad port qs s) := by
  unfold cutBad
  try dsimp only
  repeat' first
    | with_reducible first
      | assumption
      | refine onNetPort_keeps K ?_
      | refine keep_foldl (P := P) (fun _ _ _ => ?_) ?_
    | exact rfl
    | (dsimp only)


theorem execFrameIngress_keeps {P : State → Prop} (K : Keeps [.power, .net] P) {port : Fin 4} {frame : Sys2Proof.NetFrame} {fcsOk : Bool} {s : State} (h : P s) :
    NextKeeps P (execFrameIngress port frame fcsOk s) := by
  have K1 := K.sub (as := [.net]) rfl
  unfold execFrameIngress
  try dsimp only
  repeat' first
    | with_reducible first
      | assumption
      | refine keep_next ?_
      | refine keep_ite_next ?_ ?_
      | refine onNetPort_keeps K1 ?_
      | refine acceptFrame_keeps K1 ?_
      | refine cutBad_keeps K1 ?_
      | refine K.onPower rfl _ _ ?_
      | refine keep_ite (P := P) ?_ ?_
    | exact rfl
    | split
    | (dsimp only)


theorem execFrameEgress_keeps {P : State → Prop} (K : Keeps [.net] P) {port : Fin 4} {s : State} (h : P s) :
    NextKeeps P (execFrameEgress port s) := by
  unfold execFrameEgress
  try dsimp only
  repeat' first
    | with_reducible first
      | assumption
      | refine keep_next ?_
      | refine keep_ite_next ?_ ?_
      | refine onNetPort_keeps K ?_
      | refine K.onNet rfl _ _ ?_
      | refine keep_ite (P := P) ?_ ?_
    | exact rfl
    | split
    | (dsimp only)


theorem tickNet_keeps {P : State → Prop} (K : Keeps [.net] P) {s : State} (h : P s) :
    P (tickNet s) := by
  unfold tickNet
  try dsimp only
  repeat' first
    | with_reducible first
      | assumption
      | refine K.onNet rfl _ _ ?_
      | refine keep_ite (P := P) ?_ ?_
    | exact rfl
    | split
    | (dsimp only)


theorem execLinkUp_keeps {P : State → Prop} (K : Keeps [.integ, .net] P) {port : Fin 4} {gigabit : Bool} {fast : Bool} {crossed : Bool} {phyOk : Bool} {s : State} (h : P s) :
    NextKeeps P (execLinkUp port gigabit fast crossed phyOk s) := by
  have K1 := K.sub (as := [.integ]) rfl
  have K2 := K.sub (as := [.net]) rfl
  unfold execLinkUp
  try dsimp only
  repeat' first
    | with_reducible first
      | assumption
      | refine keep_next ?_
      | refine keep_ite_next ?_ ?_
      | refine recordFault_keeps K1 ?_
      | refine onNetPort_keeps K2 ?_
      | refine keep_ite (P := P) ?_ ?_
    | exact rfl
    | split
    | (dsimp only)


theorem dropLink_keeps {P : State → Prop} (K : Keeps [.net] P) {port : Fin 4} {s : State} (h : P s) :
    P (dropLink port s) := by
  unfold dropLink
  try dsimp only
  repeat' first
    | with_reducible first
      | assumption
      | refine onNetPort_keeps K ?_
      | refine K.onNet rfl _ _ ?_
      | refine keep_ite (P := P) ?_ ?_
    | exact rfl
    | split
    | (dsimp only)


theorem execLinkDown_keeps {P : State → Prop} (K : Keeps [.net] P) {port : Fin 4} {s : State} (h : P s) :
    NextKeeps P (execLinkDown port s) := by
  unfold execLinkDown
  try dsimp only
  repeat' first
    | with_reducible first
      | assumption
      | refine keep_next ?_
      | refine keep_ite_next ?_ ?_
      | refine dropLink_keeps K ?_
      | refine keep_ite (P := P) ?_ ?_
    | exact rfl
    | split
    | (dsimp only)


theorem execPreemptVerify_keeps {P : State → Prop} (K : Keeps [.integ, .net] P) {port : Fin 4} {ok : Bool} {s : State} (h : P s) :
    NextKeeps P (execPreemptVerify port ok s) := by
  have K1 := K.sub (as := [.net]) rfl
  have K2 := K.sub (as := [.integ]) rfl
  unfold execPreemptVerify
  try dsimp only
  repeat' first
    | with_reducible first
      | assumption
      | refine keep_next ?_
      | refine keep_ite_next ?_ ?_
      | refine onNetPort_keeps K1 ?_
      | refine event_keeps K2 ?_
      | refine keep_ite (P := P) ?_ ?_
    | exact rfl
    | split
    | (dsimp only)


theorem execFdbAgeOut_keeps {P : State → Prop} (K : Keeps [.net] P) {mac : BitVec 48} {vid : Nat} {s : State} (h : P s) :
    NextKeeps P (execFdbAgeOut mac vid s) := by
  unfold execFdbAgeOut
  try dsimp only
  repeat' first
    | with_reducible first
      | assumption
      | refine keep_next ?_
      | refine K.onNet rfl _ _ ?_
    | exact rfl
    | split
    | (dsimp only)


theorem execGateEntryChange_keeps {P : State → Prop} (K : Keeps [.net] P) {port : Fin 4} {s : State} (h : P s) :
    NextKeeps P (execGateEntryChange port s) := by
  unfold execGateEntryChange
  try dsimp only
  repeat' first
    | with_reducible first
      | assumption
      | refine keep_next ?_
      | refine keep_ite_next ?_ ?_
      | refine K.onNet rfl _ _ ?_
      | refine keep_ite (P := P) ?_ ?_
    | exact rfl
    | split
    | (dsimp only)


theorem execGateListTakeover_keeps {P : State → Prop} (K : Keeps [.net] P) {port : Fin 4} {s : State} (h : P s) :
    NextKeeps P (execGateListTakeover port s) := by
  unfold execGateListTakeover
  try dsimp only
  repeat' first
    | with_reducible first
      | assumption
      | refine keep_next ?_
      | refine keep_ite_next ?_ ?_
      | refine K.onNet rfl _ _ ?_
      | refine keep_ite (P := P) ?_ ?_
    | exact rfl
    | split
    | (dsimp only)


theorem execArpRequest_keeps {P : State → Prop} (K : Keeps [.net] P) {port : Fin 4} {senderMac : BitVec 48} {senderIp : BitVec 32} {targetIp : BitVec 32} {s : State} (h : P s) :
    NextKeeps P (execArpRequest port senderMac senderIp targetIp s) := by
  unfold execArpRequest
  try dsimp only
  repeat' first
    | with_reducible first
      | assumption
      | refine keep_next ?_
      | refine keep_ite_next ?_ ?_
      | refine originate_keeps K ?_
      | refine keep_ite (P := P) ?_ ?_
    | exact rfl
    | split
    | (dsimp only)


theorem execIcmpEcho_keeps {P : State → Prop} (K : Keeps [.net, .free] P) {port : Fin 4} {senderMac : BitVec 48} {senderIp : BitVec 32} {targetIp : BitVec 32} {message : List Sys2Proof.Byte} {s : State} (h : P s) :
    NextKeeps P (execIcmpEcho port senderMac senderIp targetIp message s) := by
  have K1 := K.sub (as := [.net]) rfl
  have K2 := K.sub (as := [.free]) rfl
  unfold execIcmpEcho
  try dsimp only
  repeat' first
    | with_reducible first
      | assumption
      | refine keep_next ?_
      | refine keep_ite_next ?_ ?_
      | refine originate_keeps K1 ?_
      | refine fresh_keeps K2 ?_
      | refine fresh_out K2 ?_ ‹_›
      | refine keep_ite (P := P) ?_ ?_
    | exact rfl
    | split
    | (dsimp only)


end Sys2Proof.Machine
end

