-- ==== Sys2Proof/Laws/KeepNetOps.lean ====
section
/-! SUPPORT.
What each function of Machine/NetOps.lean keeps. -/

namespace Sys2Proof.Machine

theorem opNetAddrConfig_keeps {P : State → Prop} (K : Keeps [.net] P) {rq : Request} {s : State} (h : P s) :
    Answer.Keeps P (opNetAddrConfig.effect rq s) := by
  unfold opNetAddrConfig
  try dsimp only
  repeat' first
    | with_reducible first
      | assumption
      | refine K.onNet rfl _ _ ?_
      | refine keep_ite (P := P) ?_ ?_
      | refine keep_ite_answer ?_ ?_
      | exact keep_deny
      | refine keep_done ?_
      | refine keep_fail ?_
      | refine keep_wait ?_
    | exact rfl
    | split
    | (dsimp only)


theorem execNetAddrConfig_keeps {P : State → Prop} (K : Keeps [.pkts, .integ, .net, .free] P) {rq : Sys2Proof.Request} {s : State} (h : P s) :
    NextKeeps P (execNetAddrConfig rq s) := by
  have K1 := K.sub (as := [.pkts, .integ, .free]) rfl
  have K2 := K.sub (as := [.net]) rfl
  unfold execNetAddrConfig
  try dsimp only
  repeat' first
    | with_reducible first
      | assumption
      | refine keep_next ?_
      | refine runCommand_keeps K1 ?_ ?_
      | refine opNetAddrConfig_keeps K2 ?_
    | exact rfl
    | split
    | (dsimp only)


theorem opPortConfig_keeps {P : State → Prop} (K : Keeps [.net] P) {rq : Request} {s : State} (h : P s) :
    Answer.Keeps P (opPortConfig.effect rq s) := by
  unfold opPortConfig
  try dsimp only
  repeat' first
    | with_reducible first
      | assumption
      | refine onNetPort_keeps K ?_
      | refine dropLink_keeps K ?_
      | refine K.onNet rfl _ _ ?_
      | refine keep_ite (P := P) ?_ ?_
      | refine keep_ite_answer ?_ ?_
      | exact keep_deny
      | refine keep_done ?_
      | refine keep_fail ?_
      | refine keep_wait ?_
    | exact rfl
    | split
    | (dsimp only)


theorem execPortConfig_keeps {P : State → Prop} (K : Keeps [.pkts, .integ, .net, .free] P) {rq : Sys2Proof.Request} {s : State} (h : P s) :
    NextKeeps P (execPortConfig rq s) := by
  have K1 := K.sub (as := [.pkts, .integ, .free]) rfl
  have K2 := K.sub (as := [.net]) rfl
  unfold execPortConfig
  try dsimp only
  repeat' first
    | with_reducible first
      | assumption
      | refine keep_next ?_
      | refine runCommand_keeps K1 ?_ ?_
      | refine opPortConfig_keeps K2 ?_
    | exact rfl
    | split
    | (dsimp only)


theorem opVlanConfig_keeps {P : State → Prop} (K : Keeps [.net] P) {rq : Request} {s : State} (h : P s) :
    Answer.Keeps P (opVlanConfig.effect rq s) := by
  unfold opVlanConfig
  try dsimp only
  repeat' first
    | with_reducible first
      | assumption
      | refine K.onNet rfl _ _ ?_
      | refine keep_ite (P := P) ?_ ?_
      | refine keep_ite_answer ?_ ?_
      | exact keep_deny
      | refine keep_done ?_
      | refine keep_fail ?_
      | refine keep_wait ?_
    | exact rfl
    | split
    | (dsimp only)


theorem execVlanConfig_keeps {P : State → Prop} (K : Keeps [.pkts, .integ, .net, .free] P) {rq : Sys2Proof.Request} {s : State} (h : P s) :
    NextKeeps P (execVlanConfig rq s) := by
  have K1 := K.sub (as := [.pkts, .integ, .free]) rfl
  have K2 := K.sub (as := [.net]) rfl
  unfold execVlanConfig
  try dsimp only
  repeat' first
    | with_reducible first
      | assumption
      | refine keep_next ?_
      | refine runCommand_keeps K1 ?_ ?_
      | refine opVlanConfig_keeps K2 ?_
    | exact rfl
    | split
    | (dsimp only)


theorem opFdbStatic_keeps {P : State → Prop} (K : Keeps [.net] P) {rq : Request} {s : State} (h : P s) :
    Answer.Keeps P (opFdbStatic.effect rq s) := by
  unfold opFdbStatic
  try dsimp only
  repeat' first
    | with_reducible first
      | assumption
      | refine K.onNet rfl _ _ ?_
      | refine keep_ite (P := P) ?_ ?_
      | refine keep_ite_answer ?_ ?_
      | exact keep_deny
      | refine keep_done ?_
      | refine keep_fail ?_
      | refine keep_wait ?_
    | exact rfl
    | split
    | (dsimp only)


theorem execFdbStatic_keeps {P : State → Prop} (K : Keeps [.pkts, .integ, .net, .free] P) {rq : Sys2Proof.Request} {s : State} (h : P s) :
    NextKeeps P (execFdbStatic rq s) := by
  have K1 := K.sub (as := [.pkts, .integ, .free]) rfl
  have K2 := K.sub (as := [.net]) rfl
  unfold execFdbStatic
  try dsimp only
  repeat' first
    | with_reducible first
      | assumption
      | refine keep_next ?_
      | refine runCommand_keeps K1 ?_ ?_
      | refine opFdbStatic_keeps K2 ?_
    | exact rfl
    | split
    | (dsimp only)


theorem opGateListSet_keeps {P : State → Prop} (K : Keeps [.net] P) {rq : Request} {s : State} (h : P s) :
    Answer.Keeps P (opGateListSet.effect rq s) := by
  unfold opGateListSet
  try dsimp only
  repeat' first
    | with_reducible first
      | assumption
      | refine K.onNet rfl _ _ ?_
      | refine keep_ite (P := P) ?_ ?_
      | refine keep_ite_answer ?_ ?_
      | exact keep_deny
      | refine keep_done ?_
      | refine keep_fail ?_
      | refine keep_wait ?_
    | exact rfl
    | split
    | (dsimp only)


theorem execGateListSet_keeps {P : State → Prop} (K : Keeps [.pkts, .integ, .net, .free] P) {rq : Sys2Proof.Request} {s : State} (h : P s) :
    NextKeeps P (execGateListSet rq s) := by
  have K1 := K.sub (as := [.pkts, .integ, .free]) rfl
  have K2 := K.sub (as := [.net]) rfl
  unfold execGateListSet
  try dsimp only
  repeat' first
    | with_reducible first
      | assumption
      | refine keep_next ?_
      | refine runCommand_keeps K1 ?_ ?_
      | refine opGateListSet_keeps K2 ?_
    | exact rfl
    | split
    | (dsimp only)


theorem opCbsConfig_keeps {P : State → Prop} (K : Keeps [.net] P) {rq : Request} {s : State} (h : P s) :
    Answer.Keeps P (opCbsConfig.effect rq s) := by
  unfold opCbsConfig
  try dsimp only
  repeat' first
    | with_reducible first
      | assumption
      | refine K.onNet rfl _ _ ?_
      | refine keep_ite (P := P) ?_ ?_
      | refine keep_ite_answer ?_ ?_
      | exact keep_deny
      | refine keep_done ?_
      | refine keep_fail ?_
      | refine keep_wait ?_
    | exact rfl
    | split
    | (dsimp only)


theorem execCbsConfig_keeps {P : State → Prop} (K : Keeps [.pkts, .integ, .net, .free] P) {rq : Sys2Proof.Request} {s : State} (h : P s) :
    NextKeeps P (execCbsConfig rq s) := by
  have K1 := K.sub (as := [.pkts, .integ, .free]) rfl
  have K2 := K.sub (as := [.net]) rfl
  unfold execCbsConfig
  try dsimp only
  repeat' first
    | with_reducible first
      | assumption
      | refine keep_next ?_
      | refine runCommand_keeps K1 ?_ ?_
      | refine opCbsConfig_keeps K2 ?_
    | exact rfl
    | split
    | (dsimp only)


theorem opPortStatusRead_keeps {P : State → Prop} (K : Keeps [] P) {rq : Request} {s : State} (h : P s) :
    Answer.Keeps P (opPortStatusRead.effect rq s) := by
  have _ := K
  unfold opPortStatusRead
  try dsimp only
  repeat' first
    | with_reducible first
      | assumption
      | exact keep_deny
      | refine keep_done ?_
      | refine keep_fail ?_
      | refine keep_wait ?_
    | exact rfl
    | (dsimp only)


theorem execPortStatusRead_keeps {P : State → Prop} (K : Keeps [.pkts, .integ, .free] P) {rq : Sys2Proof.Request} {s : State} (h : P s) :
    NextKeeps P (execPortStatusRead rq s) := by
  have K1 := K.sub (as := []) rfl
  unfold execPortStatusRead
  try dsimp only
  repeat' first
    | with_reducible first
      | assumption
      | refine keep_next ?_
      | refine runCommand_keeps K ?_ ?_
      | refine opPortStatusRead_keeps K1 ?_
    | exact rfl
    | split
    | (dsimp only)


theorem opPtpConfig_keeps {P : State → Prop} (K : Keeps [.pkts, .integ, .axis, .plan, .gear, .loop, .bta, .stepper, .bricks, .net, .fio, .lanes] P) {rq : Request} {s : State} (h : P s) :
    Answer.Keeps P (opPtpConfig.effect rq s) := by
  unfold opPtpConfig
  try dsimp only
  repeat' first
    | with_reducible first
      | assumption
      | refine reassessAll_keeps K ?_
      | refine K.onNet rfl _ _ ?_
      | refine keep_ite (P := P) ?_ ?_
      | refine keep_ite_answer ?_ ?_
      | exact keep_deny
      | refine keep_done ?_
      | refine keep_fail ?_
      | refine keep_wait ?_
    | exact rfl
    | split
    | (dsimp only)


theorem execPtpConfig_keeps {P : State → Prop} (K : Keeps [.pkts, .integ, .axis, .plan, .gear, .loop, .bta, .stepper, .bricks, .net, .fio, .lanes, .free] P) {rq : Sys2Proof.Request} {s : State} (h : P s) :
    NextKeeps P (execPtpConfig rq s) := by
  have K1 := K.sub (as := [.pkts, .integ, .free]) rfl
  have K2 := K.sub (as := [.pkts, .integ, .axis, .plan, .gear, .loop, .bta, .stepper, .bricks, .net, .fio, .lanes]) rfl
  unfold execPtpConfig
  try dsimp only
  repeat' first
    | with_reducible first
      | assumption
      | refine keep_next ?_
      | refine runCommand_keeps K1 ?_ ?_
      | refine opPtpConfig_keeps K2 ?_
    | exact rfl
    | split
    | (dsimp only)


theorem opPtpStatus_keeps {P : State → Prop} (K : Keeps [] P) {rq : Request} {s : State} (h : P s) :
    Answer.Keeps P (opPtpStatus.effect rq s) := by
  have _ := K
  unfold opPtpStatus
  try dsimp only
  repeat' first
    | with_reducible first
      | assumption
      | exact keep_deny
      | refine keep_done ?_
      | refine keep_fail ?_
      | refine keep_wait ?_
    | exact rfl
    | (dsimp only)


theorem execPtpStatus_keeps {P : State → Prop} (K : Keeps [.pkts, .integ, .free] P) {rq : Sys2Proof.Request} {s : State} (h : P s) :
    NextKeeps P (execPtpStatus rq s) := by
  have K1 := K.sub (as := []) rfl
  unfold execPtpStatus
  try dsimp only
  repeat' first
    | with_reducible first
      | assumption
      | refine keep_next ?_
      | refine runCommand_keeps K ?_ ?_
      | refine opPtpStatus_keeps K1 ?_
    | exact rfl
    | split
    | (dsimp only)


theorem opTimebaseConfig_keeps {P : State → Prop} (K : Keeps [.pkts, .integ, .axis, .plan, .gear, .loop, .bta, .stepper, .bricks, .net, .fio, .lanes] P) {rq : Request} {s : State} (h : P s) :
    Answer.Keeps P (opTimebaseConfig.effect rq s) := by
  unfold opTimebaseConfig
  try dsimp only
  repeat' first
    | with_reducible first
      | assumption
      | refine changeBases_keeps K ?_
      | refine keep_ite (P := P) ?_ ?_
      | refine keep_ite_answer ?_ ?_
      | exact keep_deny
      | refine keep_done ?_
      | refine keep_fail ?_
      | refine keep_wait ?_
    | exact rfl
    | split
    | (dsimp only)


theorem execTimebaseConfig_keeps {P : State → Prop} (K : Keeps [.pkts, .integ, .axis, .plan, .gear, .loop, .bta, .stepper, .bricks, .net, .fio, .lanes, .free] P) {rq : Sys2Proof.Request} {s : State} (h : P s) :
    NextKeeps P (execTimebaseConfig rq s) := by
  have K1 := K.sub (as := [.pkts, .integ, .free]) rfl
  have K2 := K.sub (as := [.pkts, .integ, .axis, .plan, .gear, .loop, .bta, .stepper, .bricks, .net, .fio, .lanes]) rfl
  unfold execTimebaseConfig
  try dsimp only
  repeat' first
    | with_reducible first
      | assumption
      | refine keep_next ?_
      | refine runCommand_keeps K1 ?_ ?_
      | refine opTimebaseConfig_keeps K2 ?_
    | exact rfl
    | split
    | (dsimp only)


theorem opTimebaseSet_keeps {P : State → Prop} (K : Keeps [.pkts, .integ, .axis, .plan, .gear, .loop, .bta, .stepper, .bricks, .net, .fio, .lanes] P) {rq : Request} {s : State} (h : P s) :
    Answer.Keeps P (opTimebaseSet.effect rq s) := by
  have K1 := K.sub (as := [.net]) rfl
  unfold opTimebaseSet
  try dsimp only
  repeat' first
    | with_reducible first
      | assumption
      | refine onTb_keeps K1 ?_
      | refine setBase_keeps K ?_
      | refine keep_ite (P := P) ?_ ?_
      | refine keep_ite_answer ?_ ?_
      | exact keep_deny
      | refine keep_done ?_
      | refine keep_fail ?_
      | refine keep_wait ?_
    | exact rfl
    | split
    | (dsimp only)


theorem execTimebaseSet_keeps {P : State → Prop} (K : Keeps [.pkts, .integ, .axis, .plan, .gear, .loop, .bta, .stepper, .bricks, .net, .fio, .lanes, .free] P) {rq : Sys2Proof.Request} {s : State} (h : P s) :
    NextKeeps P (execTimebaseSet rq s) := by
  have K1 := K.sub (as := [.pkts, .integ, .free]) rfl
  have K2 := K.sub (as := [.pkts, .integ, .axis, .plan, .gear, .loop, .bta, .stepper, .bricks, .net, .fio, .lanes]) rfl
  unfold execTimebaseSet
  try dsimp only
  repeat' first
    | with_reducible first
      | assumption
      | refine keep_next ?_
      | refine runCommand_keeps K1 ?_ ?_
      | refine opTimebaseSet_keeps K2 ?_
    | exact rfl
    | split
    | (dsimp only)


theorem opTimebaseStatus_keeps {P : State → Prop} (K : Keeps [] P) {rq : Request} {s : State} (h : P s) :
    Answer.Keeps P (opTimebaseStatus.effect rq s) := by
  have _ := K
  unfold opTimebaseStatus
  try dsimp only
  repeat' first
    | with_reducible first
      | assumption
      | exact keep_deny
      | refine keep_done ?_
      | refine keep_fail ?_
      | refine keep_wait ?_
    | exact rfl
    | (dsimp only)


theorem execTimebaseStatus_keeps {P : State → Prop} (K : Keeps [.pkts, .integ, .free] P) {rq : Sys2Proof.Request} {s : State} (h : P s) :
    NextKeeps P (execTimebaseStatus rq s) := by
  have K1 := K.sub (as := []) rfl
  unfold execTimebaseStatus
  try dsimp only
  repeat' first
    | with_reducible first
      | assumption
      | refine keep_next ?_
      | refine runCommand_keeps K ?_ ?_
      | refine opTimebaseStatus_keeps K1 ?_
    | exact rfl
    | split
    | (dsimp only)


theorem opDomainTrust_keeps {P : State → Prop} (K : Keeps [.pkts, .integ, .axis, .plan, .gear, .loop, .bta, .stepper, .bricks, .net, .fio, .lanes] P) {rq : Request} {s : State} (h : P s) :
    Answer.Keeps P (opDomainTrust.effect rq s) := by
  have K1 := K.sub (as := [.integ, .net]) rfl
  have K2 := K.sub (as := [.net]) rfl
  unfold opDomainTrust
  try dsimp only
  repeat' first
    | with_reducible first
      | assumption
      | refine changeBases_keeps K ?_
      | refine settle_keeps K1 ?_
      | refine reassess_keeps K1 ?_
      | refine onTb_keeps K2 ?_
      | refine keep_ite (P := P) ?_ ?_
      | refine keep_ite_answer ?_ ?_
      | exact keep_deny
      | refine keep_done ?_
      | refine keep_fail ?_
      | refine keep_wait ?_
    | exact rfl
    | split
    | (dsimp only)


theorem execDomainTrust_keeps {P : State → Prop} (K : Keeps [.pkts, .integ, .axis, .plan, .gear, .loop, .bta, .stepper, .bricks, .net, .fio, .lanes, .free] P) {rq : Sys2Proof.Request} {s : State} (h : P s) :
    NextKeeps P (execDomainTrust rq s) := by
  have K1 := K.sub (as := [.pkts, .integ, .free]) rfl
  have K2 := K.sub (as := [.pkts, .integ, .axis, .plan, .gear, .loop, .bta, .stepper, .bricks, .net, .fio, .lanes]) rfl
  unfold execDomainTrust
  try dsimp only
  repeat' first
    | with_reducible first
      | assumption
      | refine keep_next ?_
      | refine runCommand_keeps K1 ?_ ?_
      | refine opDomainTrust_keeps K2 ?_
    | exact rfl
    | split
    | (dsimp only)


theorem opTsoConfig_keeps {P : State → Prop} (K : Keeps [.net] P) {rq : Request} {s : State} (h : P s) :
    Answer.Keeps P (opTsoConfig.effect rq s) := by
  unfold opTsoConfig
  try dsimp only
  repeat' first
    | with_reducible first
      | assumption
      | refine onTso_keeps K ?_
      | refine keep_ite (P := P) ?_ ?_
      | refine keep_ite_answer ?_ ?_
      | exact keep_deny
      | refine keep_done ?_
      | refine keep_fail ?_
      | refine keep_wait ?_
    | exact rfl
    | split
    | (dsimp only)


theorem execTsoConfig_keeps {P : State → Prop} (K : Keeps [.pkts, .integ, .net, .free] P) {rq : Sys2Proof.Request} {s : State} (h : P s) :
    NextKeeps P (execTsoConfig rq s) := by
  have K1 := K.sub (as := [.pkts, .integ, .free]) rfl
  have K2 := K.sub (as := [.net]) rfl
  unfold execTsoConfig
  try dsimp only
  repeat' first
    | with_reducible first
      | assumption
      | refine keep_next ?_
      | refine runCommand_keeps K1 ?_ ?_
      | refine opTsoConfig_keeps K2 ?_
    | exact rfl
    | split
    | (dsimp only)


theorem opTsoStatusRead_keeps {P : State → Prop} (K : Keeps [] P) {rq : Request} {s : State} (h : P s) :
    Answer.Keeps P (opTsoStatusRead.effect rq s) := by
  have _ := K
  unfold opTsoStatusRead
  try dsimp only
  repeat' first
    | with_reducible first
      | assumption
      | exact keep_deny
      | refine keep_done ?_
      | refine keep_fail ?_
      | refine keep_wait ?_
    | exact rfl
    | (dsimp only)


theorem execTsoStatusRead_keeps {P : State → Prop} (K : Keeps [.pkts, .integ, .free] P) {rq : Sys2Proof.Request} {s : State} (h : P s) :
    NextKeeps P (execTsoStatusRead rq s) := by
  have K1 := K.sub (as := []) rfl
  unfold execTsoStatusRead
  try dsimp only
  repeat' first
    | with_reducible first
      | assumption
      | refine keep_next ?_
      | refine runCommand_keeps K ?_ ?_
      | refine opTsoStatusRead_keeps K1 ?_
    | exact rfl
    | split
    | (dsimp only)


end Sys2Proof.Machine
end

