-- ==== Sys2Proof/Laws/KeepPlanner.lean ====
section
/-! SUPPORT.
What each function of Machine/Planner.lean keeps. -/

namespace Sys2Proof.Machine

theorem handMove_keeps {P : State → Prop} (K : Keeps [.axis, .plan, .bta, .bricks] P) {rq : Sys2Proof.Request} {i : Fin 64} {c : MoveCmd} {s : State} (h : P s) :
    Answer.Keeps P (handMove rq i c s) := by
  have K1 := K.sub (as := [.axis, .bta, .bricks]) rfl
  have K2 := K.sub (as := [.plan]) rfl
  unfold handMove
  try dsimp only
  repeat' first
    | with_reducible first
      | assumption
      | refine wakeSlot_keeps K1 ?_
      | refine onPax_keeps K2 ?_
      | exact keep_deny
      | refine keep_done ?_
      | refine keep_fail ?_
      | refine keep_wait ?_
    | exact rfl
    | (dsimp only)


theorem movePosition_keeps {P : State → Prop} (K : Keeps [.axis, .plan, .bta, .bricks] P) {rq : Sys2Proof.Request} {i : Fin 64} {p : Int} {s : State} (h : P s) :
    Answer.Keeps P (movePosition rq i p s) := by
  unfold movePosition
  try dsimp only
  repeat' first
    | with_reducible first
      | assumption
      | refine handMove_keeps K ?_
      | exact keep_deny
      | refine keep_done ?_
      | refine keep_fail ?_
      | refine keep_wait ?_
    | exact rfl
    | split
    | (dsimp only)


theorem opMoveAbs_keeps {P : State → Prop} (K : Keeps [.axis, .plan, .bta, .bricks] P) {rq : Request} {s : State} (h : P s) :
    Answer.Keeps P (opMoveAbs.effect rq s) := by
  unfold opMoveAbs
  try dsimp only
  repeat' first
    | with_reducible first
      | assumption
      | refine movePosition_keeps K ?_
      | exact keep_deny
      | refine keep_done ?_
      | refine keep_fail ?_
      | refine keep_wait ?_
    | exact rfl
    | (dsimp only)


theorem execMoveAbs_keeps {P : State → Prop} (K : Keeps [.pkts, .integ, .axis, .plan, .bta, .bricks, .free] P) {rq : Sys2Proof.Request} {s : State} (h : P s) :
    NextKeeps P (execMoveAbs rq s) := by
  have K1 := K.sub (as := [.pkts, .integ, .free]) rfl
  have K2 := K.sub (as := [.axis, .plan, .bta, .bricks]) rfl
  unfold execMoveAbs
  try dsimp only
  repeat' first
    | with_reducible first
      | assumption
      | refine keep_next ?_
      | refine runCommand_keeps K1 ?_ ?_
      | refine opMoveAbs_keeps K2 ?_
    | exact rfl
    | split
    | (dsimp only)


theorem opMoveRel_keeps {P : State → Prop} (K : Keeps [.axis, .plan, .bta, .bricks] P) {rq : Request} {s : State} (h : P s) :
    Answer.Keeps P (opMoveRel.effect rq s) := by
  unfold opMoveRel
  try dsimp only
  repeat' first
    | with_reducible first
      | assumption
      | refine movePosition_keeps K ?_
      | exact keep_deny
      | refine keep_done ?_
      | refine keep_fail ?_
      | refine keep_wait ?_
    | exact rfl
    | (dsimp only)


theorem execMoveRel_keeps {P : State → Prop} (K : Keeps [.pkts, .integ, .axis, .plan, .bta, .bricks, .free] P) {rq : Sys2Proof.Request} {s : State} (h : P s) :
    NextKeeps P (execMoveRel rq s) := by
  have K1 := K.sub (as := [.pkts, .integ, .free]) rfl
  have K2 := K.sub (as := [.axis, .plan, .bta, .bricks]) rfl
  unfold execMoveRel
  try dsimp only
  repeat' first
    | with_reducible first
      | assumption
      | refine keep_next ?_
      | refine runCommand_keeps K1 ?_ ?_
      | refine opMoveRel_keeps K2 ?_
    | exact rfl
    | split
    | (dsimp only)


theorem opJog_keeps {P : State → Prop} (K : Keeps [.axis, .plan, .bta, .bricks] P) {rq : Request} {s : State} (h : P s) :
    Answer.Keeps P (opJog.effect rq s) := by
  unfold opJog
  try dsimp only
  repeat' first
    | with_reducible first
      | assumption
      | refine handMove_keeps K ?_
      | exact keep_deny
      | refine keep_done ?_
      | refine keep_fail ?_
      | refine keep_wait ?_
    | exact rfl
    | split
    | (dsimp only)


theorem execJog_keeps {P : State → Prop} (K : Keeps [.pkts, .integ, .axis, .plan, .bta, .bricks, .free] P) {rq : Sys2Proof.Request} {s : State} (h : P s) :
    NextKeeps P (execJog rq s) := by
  have K1 := K.sub (as := [.pkts, .integ, .free]) rfl
  have K2 := K.sub (as := [.axis, .plan, .bta, .bricks]) rfl
  unfold execJog
  try dsimp only
  repeat' first
    | with_reducible first
      | assumption
      | refine keep_next ?_
      | refine runCommand_keeps K1 ?_ ?_
      | refine opJog_keeps K2 ?_
    | exact rfl
    | split
    | (dsimp only)


theorem opStop_keeps {P : State → Prop} (K : Keeps [.plan] P) {rq : Request} {s : State} (h : P s) :
    Answer.Keeps P (opStop.effect rq s) := by
  have hs : ∀ (l : List (Fin 64)) m, P (l.foldl (fun s i => if stoppable i s then requestStop i m s else s) s) := by
    intro l m
    refine keep_foldl (P := P) (fun t i ht => ?_) h
    exact keep_ite (P := P) (requestStop_keeps K ht) ht
  have hg : ∀ (l : List (Fin 16)) m t, P t → P (l.foldl (fun s g =>
      if s.plan.grp[g].running && s.plan.grp[g].activity != 4 then requestGroupStop g m s else s) t) := by
    intro l m t ht
    refine keep_foldl (P := P) (fun t i ht => ?_) ht
    exact keep_ite (P := P) (requestGroupStop_keeps K ht) ht
  unfold opStop
  dsimp only
  with_reducible refine keep_ite_answer (P := P) ?_ ?_
  · with_reducible refine keep_ite_answer (P := P) ?_ ?_
    · with_reducible exact keep_done (hg _ _ _ (hs _ _))
    · with_reducible exact keep_wait (hg _ _ _ (hs _ _))
  · split
    · exact keep_wait (requestGroupStop_keeps K h)
    · exact keep_ite_answer (keep_wait (requestStop_keeps K h)) (keep_done h)


theorem execStop_keeps {P : State → Prop} (K : Keeps [.pkts, .integ, .plan, .free] P) {rq : Sys2Proof.Request} {s : State} (h : P s) :
    NextKeeps P (execStop rq s) := by
  have K1 := K.sub (as := [.pkts, .integ, .free]) rfl
  have K2 := K.sub (as := [.plan]) rfl
  unfold execStop
  try dsimp only
  repeat' first
    | with_reducible first
      | assumption
      | refine keep_next ?_
      | refine runCommand_keeps K1 ?_ ?_
      | refine opStop_keeps K2 ?_
    | exact rfl
    | split
    | (dsimp only)


theorem opPlanAxisConfig_keeps {P : State → Prop} (K : Keeps [.plan] P) {rq : Request} {s : State} (h : P s) :
    Answer.Keeps P (opPlanAxisConfig.effect rq s) := by
  unfold opPlanAxisConfig
  try dsimp only
  repeat' first
    | with_reducible first
      | assumption
      | refine onPax_keeps K ?_
      | refine keep_ite (P := P) ?_ ?_
      | refine keep_ite_answer ?_ ?_
      | exact keep_deny
      | refine keep_done ?_
      | refine keep_fail ?_
      | refine keep_wait ?_
    | exact rfl
    | split
    | (dsimp only)


theorem execPlanAxisConfig_keeps {P : State → Prop} (K : Keeps [.pkts, .integ, .plan, .free] P) {rq : Sys2Proof.Request} {s : State} (h : P s) :
    NextKeeps P (execPlanAxisConfig rq s) := by
  have K1 := K.sub (as := [.pkts, .integ, .free]) rfl
  have K2 := K.sub (as := [.plan]) rfl
  unfold execPlanAxisConfig
  try dsimp only
  repeat' first
    | with_reducible first
      | assumption
      | refine keep_next ?_
      | refine runCommand_keeps K1 ?_ ?_
      | refine opPlanAxisConfig_keeps K2 ?_
    | exact rfl
    | split
    | (dsimp only)


theorem opSegmentAppend_keeps {P : State → Prop} (K : Keeps [.plan] P) {rq : Request} {s : State} (h : P s) :
    Answer.Keeps P (opSegmentAppend.effect rq s) := by
  unfold opSegmentAppend
  try dsimp only
  repeat' first
    | with_reducible first
      | assumption
      | refine onPgrp_keeps K ?_
      | refine keep_ite (P := P) ?_ ?_
      | refine keep_ite_answer ?_ ?_
      | exact keep_deny
      | refine keep_done ?_
      | refine keep_fail ?_
      | refine keep_wait ?_
    | exact rfl
    | split
    | (dsimp only)


theorem execSegmentAppend_keeps {P : State → Prop} (K : Keeps [.pkts, .integ, .plan, .free] P) {rq : Sys2Proof.Request} {s : State} (h : P s) :
    NextKeeps P (execSegmentAppend rq s) := by
  have K1 := K.sub (as := [.pkts, .integ, .free]) rfl
  have K2 := K.sub (as := [.plan]) rfl
  unfold execSegmentAppend
  try dsimp only
  repeat' first
    | with_reducible first
      | assumption
      | refine keep_next ?_
      | refine runCommand_keeps K1 ?_ ?_
      | refine opSegmentAppend_keeps K2 ?_
    | exact rfl
    | split
    | (dsimp only)


theorem opGroupDefine_keeps {P : State → Prop} (K : Keeps [.plan] P) {rq : Request} {s : State} (h : P s) :
    Answer.Keeps P (opGroupDefine.effect rq s) := by
  unfold opGroupDefine
  try dsimp only
  repeat' first
    | with_reducible first
      | assumption
      | refine storeRelease_keeps K ?_
      | refine onPgrp_keeps K ?_
      | refine storeAllocate_keeps K ?_ _ ‹_›
      | refine keep_ite (P := P) ?_ ?_
      | refine keep_ite_answer ?_ ?_
      | exact keep_deny
      | refine keep_done ?_
      | refine keep_fail ?_
      | refine keep_wait ?_
    | exact rfl
    | split
    | (dsimp only)


theorem execGroupDefine_keeps {P : State → Prop} (K : Keeps [.pkts, .integ, .plan, .free] P) {rq : Sys2Proof.Request} {s : State} (h : P s) :
    NextKeeps P (execGroupDefine rq s) := by
  have K1 := K.sub (as := [.pkts, .integ, .free]) rfl
  have K2 := K.sub (as := [.plan]) rfl
  unfold execGroupDefine
  try dsimp only
  repeat' first
    | with_reducible first
      | assumption
      | refine keep_next ?_
      | refine runCommand_keeps K1 ?_ ?_
      | refine opGroupDefine_keeps K2 ?_
    | exact rfl
    | split
    | (dsimp only)


theorem opGroupStart_keeps {P : State → Prop} (K : Keeps [.plan] P) {rq : Request} {s : State} (h : P s) :
    Answer.Keeps P (opGroupStart.effect rq s) := by
  unfold opGroupStart
  try dsimp only
  repeat' first
    | with_reducible first
      | assumption
      | refine onPgrp_keeps K ?_
      | refine keep_ite (P := P) ?_ ?_
      | refine keep_ite_answer ?_ ?_
      | exact keep_deny
      | refine keep_done ?_
      | refine keep_fail ?_
      | refine keep_wait ?_
    | exact rfl
    | split
    | (dsimp only)


theorem execGroupStart_keeps {P : State → Prop} (K : Keeps [.pkts, .integ, .plan, .free] P) {rq : Sys2Proof.Request} {s : State} (h : P s) :
    NextKeeps P (execGroupStart rq s) := by
  have K1 := K.sub (as := [.pkts, .integ, .free]) rfl
  have K2 := K.sub (as := [.plan]) rfl
  unfold execGroupStart
  try dsimp only
  repeat' first
    | with_reducible first
      | assumption
      | refine keep_next ?_
      | refine runCommand_keeps K1 ?_ ?_
      | refine opGroupStart_keeps K2 ?_
    | exact rfl
    | split
    | (dsimp only)


theorem opGroupResume_keeps {P : State → Prop} (K : Keeps [.plan] P) {rq : Request} {s : State} (h : P s) :
    Answer.Keeps P (opGroupResume.effect rq s) := by
  unfold opGroupResume
  try dsimp only
  repeat' first
    | with_reducible first
      | assumption
      | refine onPgrp_keeps K ?_
      | refine keep_ite (P := P) ?_ ?_
      | refine keep_ite_answer ?_ ?_
      | exact keep_deny
      | refine keep_done ?_
      | refine keep_fail ?_
      | refine keep_wait ?_
    | exact rfl
    | split
    | (dsimp only)


theorem execGroupResume_keeps {P : State → Prop} (K : Keeps [.pkts, .integ, .plan, .free] P) {rq : Sys2Proof.Request} {s : State} (h : P s) :
    NextKeeps P (execGroupResume rq s) := by
  have K1 := K.sub (as := [.pkts, .integ, .free]) rfl
  have K2 := K.sub (as := [.plan]) rfl
  unfold execGroupResume
  try dsimp only
  repeat' first
    | with_reducible first
      | assumption
      | refine keep_next ?_
      | refine runCommand_keeps K1 ?_ ?_
      | refine opGroupResume_keeps K2 ?_
    | exact rfl
    | split
    | (dsimp only)


theorem opGroupClear_keeps {P : State → Prop} (K : Keeps [.plan] P) {rq : Request} {s : State} (h : P s) :
    Answer.Keeps P (opGroupClear.effect rq s) := by
  unfold opGroupClear
  try dsimp only
  repeat' first
    | with_reducible first
      | assumption
      | refine onPgrp_keeps K ?_
      | refine keep_ite (P := P) ?_ ?_
      | refine keep_ite_answer ?_ ?_
      | exact keep_deny
      | refine keep_done ?_
      | refine keep_fail ?_
      | refine keep_wait ?_
    | exact rfl
    | split
    | (dsimp only)


theorem execGroupClear_keeps {P : State → Prop} (K : Keeps [.pkts, .integ, .plan, .free] P) {rq : Sys2Proof.Request} {s : State} (h : P s) :
    NextKeeps P (execGroupClear rq s) := by
  have K1 := K.sub (as := [.pkts, .integ, .free]) rfl
  have K2 := K.sub (as := [.plan]) rfl
  unfold execGroupClear
  try dsimp only
  repeat' first
    | with_reducible first
      | assumption
      | refine keep_next ?_
      | refine runCommand_keeps K1 ?_ ?_
      | refine opGroupClear_keeps K2 ?_
    | exact rfl
    | split
    | (dsimp only)


theorem opGroupStatus_keeps {P : State → Prop} (K : Keeps [] P) {rq : Request} {s : State} (h : P s) :
    Answer.Keeps P (opGroupStatus.effect rq s) := by
  have _ := K
  unfold opGroupStatus
  try dsimp only
  repeat' first
    | with_reducible first
      | assumption
      | exact keep_deny
      | refine keep_done ?_
      | refine keep_fail ?_
      | refine keep_wait ?_
    | exact rfl
    | (dsimp only)


theorem execGroupStatus_keeps {P : State → Prop} (K : Keeps [.pkts, .integ, .free] P) {rq : Sys2Proof.Request} {s : State} (h : P s) :
    NextKeeps P (execGroupStatus rq s) := by
  have K1 := K.sub (as := []) rfl
  unfold execGroupStatus
  try dsimp only
  repeat' first
    | with_reducible first
      | assumption
      | refine keep_next ?_
      | refine runCommand_keeps K ?_ ?_
      | refine opGroupStatus_keeps K1 ?_
    | exact rfl
    | split
    | (dsimp only)


theorem opStoreStatus_keeps {P : State → Prop} (K : Keeps [] P) {rq : Request} {s : State} (h : P s) :
    Answer.Keeps P (opStoreStatus.effect rq s) := by
  have _ := K
  unfold opStoreStatus
  try dsimp only
  repeat' first
    | with_reducible first
      | assumption
      | exact keep_deny
      | refine keep_done ?_
      | refine keep_fail ?_
      | refine keep_wait ?_
    | exact rfl
    | (dsimp only)


theorem execStoreStatus_keeps {P : State → Prop} (K : Keeps [.pkts, .integ, .free] P) {rq : Sys2Proof.Request} {s : State} (h : P s) :
    NextKeeps P (execStoreStatus rq s) := by
  have K1 := K.sub (as := []) rfl
  unfold execStoreStatus
  try dsimp only
  repeat' first
    | with_reducible first
      | assumption
      | refine keep_next ?_
      | refine runCommand_keeps K ?_ ?_
      | refine opStoreStatus_keeps K1 ?_
    | exact rfl
    | split
    | (dsimp only)


theorem setOverride_keeps {P : State → Prop} (K : Keeps [.plan] P) {e : Nat × Nat × Nat} {s : State} (h : P s) :
    P (setOverride e s) := by
  unfold setOverride
  try dsimp only
  repeat' first
    | with_reducible first
      | assumption
      | refine onPax_keeps K ?_
      | refine onPgrp_keeps K ?_
      | refine keep_ite (P := P) ?_ ?_
    | exact rfl
    | split
    | (dsimp only)


theorem opOverrideSet_keeps {P : State → Prop} (K : Keeps [.sys, .integ, .plan, .loop, .ports, .bta] P) {rq : Request} {s : State} (h : P s) :
    Answer.Keeps P (opOverrideSet.effect rq s) := by
  have K1 := K.sub (as := [.sys]) rfl
  have K2 := K.sub (as := [.plan]) rfl
  unfold opOverrideSet
  try dsimp only
  repeat' first
    | with_reducible first
      | assumption
      | refine strobe_keeps K ?_
      | refine markDirty_keeps K1 ?_
      | refine setOverride_keeps K2 ?_
      | refine keep_foldl (P := P) (fun _ _ _ => ?_) ?_
      | exact keep_deny
      | refine keep_done ?_
      | refine keep_fail ?_
      | refine keep_wait ?_
    | exact rfl
    | (dsimp only)


theorem execOverrideSet_keeps {P : State → Prop} (K : Keeps [.sys, .pkts, .integ, .plan, .loop, .ports, .bta, .free] P) {rq : Sys2Proof.Request} {s : State} (h : P s) :
    NextKeeps P (execOverrideSet rq s) := by
  have K1 := K.sub (as := [.pkts, .integ, .free]) rfl
  have K2 := K.sub (as := [.sys, .integ, .plan, .loop, .ports, .bta]) rfl
  unfold execOverrideSet
  try dsimp only
  repeat' first
    | with_reducible first
      | assumption
      | refine keep_next ?_
      | refine runCommand_keeps K1 ?_ ?_
      | refine opOverrideSet_keeps K2 ?_
    | exact rfl
    | split
    | (dsimp only)


theorem targetCheck_keeps {P : State → Prop} (K : Keeps [.axis, .plan] P) {i : Fin 64} {s : State} (h : P s) :
    P (targetCheck i s) := by
  have K1 := K.sub (as := [.plan]) rfl
  have K2 := K.sub (as := [.axis]) rfl
  unfold targetCheck
  try dsimp only
  repeat' first
    | with_reducible first
      | assumption
      | refine onPax_keeps K1 ?_
      | refine onAx_keeps K2 ?_
      | refine keep_ite (P := P) ?_ ?_
    | exact rfl
    | split
    | (dsimp only)


theorem disableWaiting_keeps {P : State → Prop} (K : Keeps [.power, .pkts, .integ, .axis, .plan, .gear, .loop, .bta, .stepper, .bricks] P) {i : Fin 64} {s : State} (h : P s) :
    P (disableWaiting i s) := by
  unfold disableWaiting
  try dsimp only
  repeat' first
    | with_reducible first
      | assumption
      | refine slotDisabled_keeps K ?_
      | refine keep_ite (P := P) ?_ ?_
    | exact rfl
    | split
    | (dsimp only)


end Sys2Proof.Machine
end

