-- ==== Sys2Proof/Laws/KeepSavedConfig.lean ====
section
/-! SUPPORT.
What each function of Machine/SavedConfig.lean keeps. -/

namespace Sys2Proof.Machine

theorem opConfigSave_keeps {P : State → Prop} (K : Keeps [.serial, .store, .free] P) {rq : Request} {s : State} (h : P s) :
    Answer.Keeps P (opConfigSave.effect rq s) :=
  keep_done (dropLines_keeps (K.sub rfl)
    (K.onStore rfl _ (fun _ => s.store.save fun n => { savedConfig n (num rq 0x0100 0 1 == 1) s with mark := (fresh s).1 })
      (fresh_keeps (K.sub rfl) h)))


theorem execConfigSave_keeps {P : State → Prop} (K : Keeps [.pkts, .integ, .serial, .store, .free] P) {rq : Sys2Proof.Request} {s : State} (h : P s) :
    NextKeeps P (execConfigSave rq s) := by
  have K1 := K.sub (as := [.pkts, .integ, .free]) rfl
  have K2 := K.sub (as := [.serial, .store, .free]) rfl
  unfold execConfigSave
  try dsimp only
  repeat' first
    | with_reducible first
      | assumption
      | refine keep_next ?_
      | refine runCommand_keeps K1 ?_ ?_
      | refine opConfigSave_keeps K2 ?_
    | exact rfl
    | split
    | (dsimp only)


theorem installConfig_keeps {P : State → Prop} (K : Keeps [.integ, .ports, .bta, .fio, .can] P) {s : State} (h : P s) :
    P (installConfig s) := by
  have K1 := K.sub (as := [.integ, .ports, .bta]) rfl
  have K2 := K.sub (as := [.fio]) rfl
  unfold installConfig
  try dsimp only
  repeat' first
    | with_reducible first
      | assumption
      | refine installSlot_keeps K1 ?_
      | refine loadFio_keeps K2 ?_
      | refine K.onCan rfl _ _ ?_
      | refine keep_ite (P := P) ?_ ?_
      | refine keep_foldl (P := P) (fun _ _ _ => ?_) ?_
    | exact rfl
    | split
    | (dsimp only)


theorem loadedConfig_keeps {P : State → Prop} (K : Keeps [.sys, .power, .pkts, .axis, .plan, .gear, .loop, .ports, .bta, .stepper, .bricks, .net, .fio, .can, .serial, .acq] P) {c : Saved} {s : State} (h : P s) :
    P (loadedConfig c s) := by
  have e : loadedConfig c s = ((((((((((((((((s.onPower fun _ => (loadedConfig c s).power).onPkts fun _ => (loadedConfig c s).pkts).onSys fun _ => (loadedConfig c s).sys).onAxis fun _ => (loadedConfig c s).axis).onPlan fun _ => (loadedConfig c s).plan).onGear fun _ => (loadedConfig c s).gear).onLoop fun _ => (loadedConfig c s).loop).onPorts fun _ => (loadedConfig c s).ports).onBta fun _ => (loadedConfig c s).bta).onStepper fun _ => (loadedConfig c s).stepper).onBricks fun _ => (loadedConfig c s).bricks).onNet fun _ => (loadedConfig c s).net).onFio fun _ => (loadedConfig c s).fio).onCan fun _ => (loadedConfig c s).can).onSerial fun _ => (loadedConfig c s).serial).onAcq fun _ => (loadedConfig c s).acq) := rfl
  rw [e]
  refine K.onAcq rfl _ _ ?_
  refine K.onSerial rfl _ _ (fun i => by simp [loadedConfig, updAll]) ?_
  refine K.onCan rfl _ _ ?_
  refine K.onFio rfl _ _ ?_
  refine K.onNet rfl _ _ ?_
  refine K.onBricks rfl _ _ ?_
  refine K.onStepper rfl _ _ ?_
  refine K.onBta rfl _ _ ?_
  refine K.onPorts rfl _ _ ?_
  refine K.onLoop rfl _ _ ?_
  refine K.onGear rfl _ _ ?_
  refine K.onPlan rfl _ _ ?_
  refine K.onAxis rfl _ _ ?_
  refine K.onSys rfl _ _ rfl rfl rfl ?_
  refine K.onPkts rfl _ _ (fun hx => hx) ?_
  refine K.onPower rfl _ _ ?_
  exact h


theorem loadConfig_keeps {P : State → Prop} (K : Keeps [.sys, .power, .pkts, .integ, .axis, .plan, .gear, .loop, .ports, .bta, .stepper, .bricks, .net, .fio, .can, .serial, .acq] P) {c : Saved} {s : State} (h : P s) :
    P (loadConfig c s) := by
  have K1 := K.sub (as := [.integ, .ports, .bta, .fio, .can]) rfl
  have K2 := K.sub (as := [.sys, .power, .pkts, .axis, .plan, .gear, .loop, .ports, .bta, .stepper, .bricks, .net, .fio, .can, .serial, .acq]) rfl
  unfold loadConfig
  try dsimp only
  repeat' first
    | with_reducible first
      | assumption
      | refine installConfig_keeps K1 ?_
      | refine loadedConfig_keeps K2 ?_
    | exact rfl
    | (dsimp only)


end Sys2Proof.Machine
end

