-- ==== Sys2Proof/Laws/KeepSpmOps.lean ====
section
/-! SUPPORT.
What each function of Machine/SpmOps.lean keeps. -/

namespace Sys2Proof.Machine

theorem opSpmProfileSet_keeps {P : State → Prop} (K : Keeps [.serial] P) {rq : Request} {s : State} (h : P s) :
    Answer.Keeps P (opSpmProfileSet.effect rq s) := by
  unfold opSpmProfileSet
  try dsimp only
  repeat' first
    | with_reducible first
      | assumption
      | refine onSpm_keeps K ?_ ?_
      | refine keep_ite (P := P) ?_ ?_
      | refine keep_ite_answer ?_ ?_
      | exact keep_deny
      | refine keep_done ?_
      | refine keep_fail ?_
      | refine keep_wait ?_
    | exact rfl
    | split
    | (dsimp only)


theorem execSpmProfileSet_keeps {P : State → Prop} (K : Keeps [.pkts, .integ, .serial, .free] P) {rq : Sys2Proof.Request} {s : State} (h : P s) :
    NextKeeps P (execSpmProfileSet rq s) := by
  have K1 := K.sub (as := [.pkts, .integ, .free]) rfl
  have K2 := K.sub (as := [.serial]) rfl
  unfold execSpmProfileSet
  try dsimp only
  repeat' first
    | with_reducible first
      | assumption
      | refine keep_next ?_
      | refine runCommand_keeps K1 ?_ ?_
      | refine opSpmProfileSet_keeps K2 ?_
    | exact rfl
    | split
    | (dsimp only)


theorem opSpmDiscover_keeps {P : State → Prop} (K : Keeps [.free] P) {rq : Request} {s : State} (h : P s) :
    Answer.Keeps P (opSpmDiscover.effect rq s) := by
  unfold opSpmDiscover
  try dsimp only
  repeat' first
    | with_reducible first
      | assumption
      | refine fresh_keeps K ?_
      | refine fresh_out K ?_ ‹_›
      | refine keep_ite (P := P) ?_ ?_
      | refine keep_ite_answer ?_ ?_
      | exact keep_deny
      | refine keep_done ?_
      | refine keep_fail ?_
      | refine keep_wait ?_
    | exact rfl
    | split
    | (dsimp only)


theorem execSpmDiscover_keeps {P : State → Prop} (K : Keeps [.pkts, .integ, .free] P) {rq : Sys2Proof.Request} {s : State} (h : P s) :
    NextKeeps P (execSpmDiscover rq s) := by
  have K1 := K.sub (as := [.free]) rfl
  unfold execSpmDiscover
  try dsimp only
  repeat' first
    | with_reducible first
      | assumption
      | refine keep_next ?_
      | refine runCommand_keeps K ?_ ?_
      | refine opSpmDiscover_keeps K1 ?_
    | exact rfl
    | split
    | (dsimp only)


theorem opSpmErase_keeps {P : State → Prop} (K : Keeps [.serial] P) {rq : Request} {s : State} (h : P s) :
    Answer.Keeps P (opSpmErase.effect rq s) := by
  unfold opSpmErase
  try dsimp only
  repeat' first
    | with_reducible first
      | assumption
      | refine onSpm_keeps K ?_ ?_
      | refine dropLines_keeps K ?_
      | refine keep_ite (P := P) ?_ ?_
      | refine keep_ite_answer ?_ ?_
      | exact keep_deny
      | refine keep_done ?_
      | refine keep_fail ?_
      | refine keep_wait ?_
    | exact rfl
    | split
    | (dsimp only)


theorem execSpmErase_keeps {P : State → Prop} (K : Keeps [.pkts, .integ, .serial, .free] P) {rq : Sys2Proof.Request} {s : State} (h : P s) :
    NextKeeps P (execSpmErase rq s) := by
  have K1 := K.sub (as := [.pkts, .integ, .free]) rfl
  have K2 := K.sub (as := [.serial]) rfl
  unfold execSpmErase
  try dsimp only
  repeat' first
    | with_reducible first
      | assumption
      | refine keep_next ?_
      | refine runCommand_keeps K1 ?_ ?_
      | refine opSpmErase_keeps K2 ?_
    | exact rfl
    | split
    | (dsimp only)


theorem opSpmFlush_keeps {P : State → Prop} (K : Keeps [.serial] P) {rq : Request} {s : State} (h : P s) :
    Answer.Keeps P (opSpmFlush.effect rq s) := by
  unfold opSpmFlush
  try dsimp only
  repeat' first
    | with_reducible first
      | assumption
      | refine onSpm_keeps K ?_ ?_
      | refine flushPage_keeps K ?_
      | refine keep_ite (P := P) ?_ ?_
      | refine keep_ite_answer ?_ ?_
      | exact keep_deny
      | refine keep_done ?_
      | refine keep_fail ?_
      | refine keep_wait ?_
    | exact rfl
    | split
    | (dsimp only)


theorem execSpmFlush_keeps {P : State → Prop} (K : Keeps [.pkts, .integ, .serial, .free] P) {rq : Sys2Proof.Request} {s : State} (h : P s) :
    NextKeeps P (execSpmFlush rq s) := by
  have K1 := K.sub (as := [.pkts, .integ, .free]) rfl
  have K2 := K.sub (as := [.serial]) rfl
  unfold execSpmFlush
  try dsimp only
  repeat' first
    | with_reducible first
      | assumption
      | refine keep_next ?_
      | refine runCommand_keeps K1 ?_ ?_
      | refine opSpmFlush_keeps K2 ?_
    | exact rfl
    | split
    | (dsimp only)


theorem opSpmStatusRead_keeps {P : State → Prop} (K : Keeps [] P) {rq : Request} {s : State} (h : P s) :
    Answer.Keeps P (opSpmStatusRead.effect rq s) := by
  have _ := K
  unfold opSpmStatusRead
  try dsimp only
  repeat' first
    | with_reducible first
      | assumption
      | exact keep_deny
      | refine keep_done ?_
      | refine keep_fail ?_
      | refine keep_wait ?_
    | exact rfl
    | (dsimp only)


theorem execSpmStatusRead_keeps {P : State → Prop} (K : Keeps [.pkts, .integ, .free] P) {rq : Sys2Proof.Request} {s : State} (h : P s) :
    NextKeeps P (execSpmStatusRead rq s) := by
  have K1 := K.sub (as := []) rfl
  unfold execSpmStatusRead
  try dsimp only
  repeat' first
    | with_reducible first
      | assumption
      | refine keep_next ?_
      | refine runCommand_keeps K ?_ ?_
      | refine opSpmStatusRead_keeps K1 ?_
    | exact rfl
    | split
    | (dsimp only)


theorem opSphStatusRead_keeps {P : State → Prop} (K : Keeps [] P) {rq : Request} {s : State} (h : P s) :
    Answer.Keeps P (opSphStatusRead.effect rq s) := by
  have _ := K
  unfold opSphStatusRead
  try dsimp only
  repeat' first
    | with_reducible first
      | assumption
      | exact keep_deny
      | refine keep_done ?_
      | refine keep_fail ?_
      | refine keep_wait ?_
    | exact rfl
    | (dsimp only)


theorem execSphStatusRead_keeps {P : State → Prop} (K : Keeps [.pkts, .integ, .free] P) {rq : Sys2Proof.Request} {s : State} (h : P s) :
    NextKeeps P (execSphStatusRead rq s) := by
  have K1 := K.sub (as := []) rfl
  unfold execSphStatusRead
  try dsimp only
  repeat' first
    | with_reducible first
      | assumption
      | refine keep_next ?_
      | refine runCommand_keeps K ?_ ?_
      | refine opSphStatusRead_keeps K1 ?_
    | exact rfl
    | split
    | (dsimp only)


end Sys2Proof.Machine
end

