-- ==== Sys2Proof/Laws/KeepStepper.lean ====
section
/-! SUPPORT.
What each function of Machine/Stepper.lean keeps. -/

namespace Sys2Proof.Machine

theorem opStepperConfig_keeps {P : State → Prop} (K : Keeps [.stepper] P) {rq : Request} {s : State} (h : P s) :
    Answer.Keeps P (opStepperConfig.effect rq s) := by
  unfold opStepperConfig
  try dsimp only
  repeat' first
    | with_reducible first
      | assumption
      | refine onStep_keeps K ?_
      | refine keep_ite (P := P) ?_ ?_
      | refine keep_ite_answer ?_ ?_
      | exact keep_deny
      | refine keep_done ?_
      | refine keep_fail ?_
      | refine keep_wait ?_
    | exact rfl
    | split
    | (dsimp only)


theorem execStepperConfig_keeps {P : State → Prop} (K : Keeps [.pkts, .integ, .stepper, .free] P) {rq : Sys2Proof.Request} {s : State} (h : P s) :
    NextKeeps P (execStepperConfig rq s) := by
  have K1 := K.sub (as := [.pkts, .integ, .free]) rfl
  have K2 := K.sub (as := [.stepper]) rfl
  unfold execStepperConfig
  try dsimp only
  repeat' first
    | with_reducible first
      | assumption
      | refine keep_next ?_
      | refine runCommand_keeps K1 ?_ ?_
      | refine opStepperConfig_keeps K2 ?_
    | exact rfl
    | split
    | (dsimp only)


theorem opStepperStatusRead_keeps {P : State → Prop} (K : Keeps [] P) {rq : Request} {s : State} (h : P s) :
    Answer.Keeps P (opStepperStatusRead.effect rq s) := by
  have _ := K
  unfold opStepperStatusRead
  try dsimp only
  repeat' first
    | with_reducible first
      | assumption
      | exact keep_deny
      | refine keep_done ?_
      | refine keep_fail ?_
      | refine keep_wait ?_
    | exact rfl
    | (dsimp only)


theorem execStepperStatusRead_keeps {P : State → Prop} (K : Keeps [.pkts, .integ, .free] P) {rq : Sys2Proof.Request} {s : State} (h : P s) :
    NextKeeps P (execStepperStatusRead rq s) := by
  have K1 := K.sub (as := []) rfl
  unfold execStepperStatusRead
  try dsimp only
  repeat' first
    | with_reducible first
      | assumption
      | refine keep_next ?_
      | refine runCommand_keeps K ?_ ?_
      | refine opStepperStatusRead_keeps K1 ?_
    | exact rfl
    | split
    | (dsimp only)


theorem opStepperSetPosition_keeps {P : State → Prop} (K : Keeps [.axis, .plan, .stepper] P) {rq : Request} {s : State} (h : P s) :
    Answer.Keeps P (opStepperSetPosition.effect rq s) := by
  have K1 := K.sub (as := [.stepper]) rfl
  have K2 := K.sub (as := [.plan]) rfl
  have K3 := K.sub (as := [.axis]) rfl
  unfold opStepperSetPosition
  try dsimp only
  repeat' first
    | with_reducible first
      | assumption
      | refine onStep_keeps K1 ?_
      | refine onPax_keeps K2 ?_
      | refine onAx_keeps K3 ?_
      | refine keep_ite (P := P) ?_ ?_
      | refine keep_ite_answer ?_ ?_
      | exact keep_deny
      | refine keep_done ?_
      | refine keep_fail ?_
      | refine keep_wait ?_
    | exact rfl
    | split
    | (dsimp only)


theorem execStepperSetPosition_keeps {P : State → Prop} (K : Keeps [.pkts, .integ, .axis, .plan, .stepper, .free] P) {rq : Sys2Proof.Request} {s : State} (h : P s) :
    NextKeeps P (execStepperSetPosition rq s) := by
  have K1 := K.sub (as := [.pkts, .integ, .free]) rfl
  have K2 := K.sub (as := [.axis, .plan, .stepper]) rfl
  unfold execStepperSetPosition
  try dsimp only
  repeat' first
    | with_reducible first
      | assumption
      | refine keep_next ?_
      | refine runCommand_keeps K1 ?_ ?_
      | refine opStepperSetPosition_keeps K2 ?_
    | exact rfl
    | split
    | (dsimp only)


theorem execHoldRampEnd_keeps {P : State → Prop} (K : Keeps [.stepper] P) {slot : Fin 64} {s : State} (h : P s) :
    NextKeeps P (execHoldRampEnd slot s) := by
  unfold execHoldRampEnd
  try dsimp only
  repeat' first
    | with_reducible first
      | assumption
      | refine keep_next ?_
      | refine keep_ite_next ?_ ?_
      | refine onStep_keeps K ?_
      | refine keep_ite (P := P) ?_ ?_
    | exact rfl
    | split
    | (dsimp only)


theorem execFreewheelStart_keeps {P : State → Prop} (K : Keeps [.axis, .loop, .bta, .stepper, .bricks] P) {slot : Fin 64} {s : State} (h : P s) :
    NextKeeps P (execFreewheelStart slot s) := by
  have K1 := K.sub (as := [.axis]) rfl
  have K2 := K.sub (as := [.loop]) rfl
  have K3 := K.sub (as := [.bta, .stepper, .bricks]) rfl
  have K4 := K.sub (as := [.stepper]) rfl
  unfold execFreewheelStart
  try dsimp only
  repeat' first
    | with_reducible first
      | assumption
      | refine keep_next ?_
      | refine keep_ite_next ?_ ?_
      | refine onAx_keeps K1 ?_
      | refine loopsStop_keeps K2 ?_
      | refine outputFor_keeps K3 ?_
      | refine onStep_keeps K4 ?_
      | refine keep_ite (P := P) ?_ ?_
    | exact rfl
    | split
    | (dsimp only)


theorem execFreewheelLimitExceeded_keeps {P : State → Prop} (K : Keeps [.stepper] P) {slot : Fin 64} {s : State} (h : P s) :
    NextKeeps P (execFreewheelLimitExceeded slot s) := by
  unfold execFreewheelLimitExceeded
  try dsimp only
  repeat' first
    | with_reducible first
      | assumption
      | refine keep_next ?_
      | refine keep_ite_next ?_ ?_
      | refine onStep_keeps K ?_
      | refine keep_ite (P := P) ?_ ?_
    | exact rfl
    | split
    | (dsimp only)


theorem execWakeRampEnd_keeps {P : State → Prop} (K : Keeps [.axis, .stepper] P) {slot : Fin 64} {s : State} (h : P s) :
    NextKeeps P (execWakeRampEnd slot s) := by
  have K1 := K.sub (as := [.stepper]) rfl
  have K2 := K.sub (as := [.axis]) rfl
  unfold execWakeRampEnd
  try dsimp only
  repeat' first
    | with_reducible first
      | assumption
      | refine keep_next ?_
      | refine keep_ite_next ?_ ?_
      | refine onStep_keeps K1 ?_
      | refine onAx_keeps K2 ?_
      | refine keep_ite (P := P) ?_ ?_
    | exact rfl
    | split
    | (dsimp only)


end Sys2Proof.Machine
end

