-- ==== Sys2Proof/Laws/KeepSystem.lean ====
section
/-! SUPPORT.
What each function of Machine/System.lean keeps. -/

namespace Sys2Proof.Machine

theorem opPing_keeps {P : State → Prop} (K : Keeps [] P) {rq : Request} {s : State} (h : P s) :
    Answer.Keeps P (opPing.effect rq s) := by
  have _ := K
  unfold opPing
  try dsimp only
  repeat' first
    | with_reducible first
      | assumption
      | refine keep_ite (P := P) ?_ ?_
      | refine keep_ite_answer ?_ ?_
      | exact keep_deny
      | refine keep_done ?_
      | refine keep_fail ?_
      | refine keep_wait ?_
    | exact rfl
    | split
    | (dsimp only)


theorem execPing_keeps {P : State → Prop} (K : Keeps [.pkts, .integ, .free] P) {rq : Sys2Proof.Request} {s : State} (h : P s) :
    NextKeeps P (execPing rq s) := by
  have K1 := K.sub (as := []) rfl
  unfold execPing
  try dsimp only
  repeat' first
    | with_reducible first
      | assumption
      | refine keep_next ?_
      | refine runCommand_keeps K ?_ ?_
      | refine opPing_keeps K1 ?_
    | exact rfl
    | split
    | (dsimp only)


theorem opGetInfo_keeps {P : State → Prop} (K : Keeps [] P) {rq : Request} {s : State} (h : P s) :
    Answer.Keeps P (opGetInfo.effect rq s) := by
  have _ := K
  unfold opGetInfo
  try dsimp only
  repeat' first
    | with_reducible first
      | assumption
      | exact keep_deny
      | refine keep_done ?_
      | refine keep_fail ?_
      | refine keep_wait ?_
    | exact rfl
    | (dsimp only)


theorem execGetInfo_keeps {P : State → Prop} (K : Keeps [.pkts, .integ, .free] P) {rq : Sys2Proof.Request} {s : State} (h : P s) :
    NextKeeps P (execGetInfo rq s) := by
  have K1 := K.sub (as := []) rfl
  unfold execGetInfo
  try dsimp only
  repeat' first
    | with_reducible first
      | assumption
      | refine keep_next ?_
      | refine runCommand_keeps K ?_ ?_
      | refine opGetInfo_keeps K1 ?_
    | exact rfl
    | split
    | (dsimp only)


theorem opCancel_keeps {P : State → Prop} (K : Keeps [.pkts] P) {rq : Request} {s : State} (h : P s) :
    Answer.Keeps P (opCancel.effect rq s) := by
  unfold opCancel
  try dsimp only
  repeat' first
    | with_reducible first
      | assumption
      | refine K.onPkts rfl _ _ (fun hx => ?_) ?_
      | refine keep_ite (P := P) ?_ ?_
      | refine keep_ite_answer ?_ ?_
      | exact keep_deny
      | refine keep_done ?_
      | refine keep_fail ?_
      | refine keep_wait ?_
    | exact hx
    | exact rfl
    | (refine ⟨?_, ?_, ?_⟩ <;> first | exact hx.1 | exact hx.2.1 | exact hx.2.2 | (have h1 := hx.1; have h2 := hx.2.1; have h3 := hx.2.2; simp at h1 h2 h3 ⊢; omega))
    | (refine ⟨?_, ?_, ?_⟩ <;> first | exact hx.1 | exact hx.2.1 | exact hx.2.2 | exact Nat.le_trans (List.length_filter_le _ _) hx.2.2)
    | split
    | (dsimp only)


theorem execCancel_keeps {P : State → Prop} (K : Keeps [.pkts, .integ, .free] P) {rq : Sys2Proof.Request} {s : State} (h : P s) :
    NextKeeps P (execCancel rq s) := by
  have K1 := K.sub (as := [.pkts]) rfl
  unfold execCancel
  try dsimp only
  repeat' first
    | with_reducible first
      | assumption
      | refine keep_next ?_
      | refine runCommand_keeps K ?_ ?_
      | refine opCancel_keeps K1 ?_
    | exact rfl
    | split
    | (dsimp only)


theorem raiseFor_keeps {P : State → Prop} (K : Keeps [.power] P) {b : Nat} {op : Nat} {s : State} (h : P s) :
    P (raiseFor b op s) := by
  unfold raiseFor
  try dsimp only
  repeat' first
    | with_reducible first
      | assumption
      | refine aimOp_keeps K ?_
      | refine K.onPower rfl _ _ ?_
      | refine keep_ite (P := P) ?_ ?_
    | exact rfl
    | split
    | (dsimp only)


theorem changeBand_keeps {P : State → Prop} (K : Keeps [.power, .loop, .bta] P) {b : Nat} {s : State} (h : P s) :
    P (changeBand b s) := by
  have K1 := K.sub (as := [.power]) rfl
  have K2 := K.sub (as := [.loop]) rfl
  unfold changeBand
  try dsimp only
  repeat' first
    | with_reducible first
      | assumption
      | refine reselect_keeps K ?_
      | refine raiseFor_keeps K1 ?_
      | refine mapLoops_keeps K2 ?_
      | refine K.onPower rfl _ _ ?_
      | refine keep_ite (P := P) ?_ ?_
    | exact rfl
    | split
    | (dsimp only)


theorem setBanded_keeps {P : State → Prop} (K : Keeps [.power, .loop, .bta] P) {on : Bool} {s : State} (h : P s) :
    P (setBanded on s) := by
  unfold setBanded
  try dsimp only
  repeat' first
    | with_reducible first
      | assumption
      | refine changeBand_keeps K ?_
      | refine K.onPower rfl _ _ ?_
      | refine keep_ite (P := P) ?_ ?_
    | exact rfl
    | split
    | (dsimp only)


theorem opSetLatencyTolerance_keeps {P : State → Prop} (K : Keeps [.power, .loop, .bta] P) {rq : Request} {s : State} (h : P s) :
    Answer.Keeps P (opSetLatencyTolerance.effect rq s) := by
  unfold opSetLatencyTolerance
  try dsimp only
  repeat' first
    | with_reducible first
      | assumption
      | refine setBanded_keeps K ?_
      | refine reselect_keeps K ?_
      | refine K.onPower rfl _ _ ?_
      | refine keep_ite (P := P) ?_ ?_
      | refine keep_ite_answer ?_ ?_
      | exact keep_deny
      | refine keep_done ?_
      | refine keep_fail ?_
      | refine keep_wait ?_
    | exact rfl
    | split
    | (dsimp only)


theorem execSetLatencyTolerance_keeps {P : State → Prop} (K : Keeps [.power, .pkts, .integ, .loop, .bta, .free] P) {rq : Sys2Proof.Request} {s : State} (h : P s) :
    NextKeeps P (execSetLatencyTolerance rq s) := by
  have K1 := K.sub (as := [.pkts, .integ, .free]) rfl
  have K2 := K.sub (as := [.power, .loop, .bta]) rfl
  unfold execSetLatencyTolerance
  try dsimp only
  repeat' first
    | with_reducible first
      | assumption
      | refine keep_next ?_
      | refine runCommand_keeps K1 ?_ ?_
      | refine opSetLatencyTolerance_keeps K2 ?_
    | exact rfl
    | split
    | (dsimp only)


theorem opGetOperatingPoint_keeps {P : State → Prop} (K : Keeps [.loop] P) {rq : Request} {s : State} (h : P s) :
    Answer.Keeps P (opGetOperatingPoint.effect rq s) := by
  unfold opGetOperatingPoint
  try dsimp only
  repeat' first
    | with_reducible first
      | assumption
      | refine mapLoops_keeps K ?_
      | refine keep_ite (P := P) ?_ ?_
      | refine keep_ite_answer ?_ ?_
      | exact keep_deny
      | refine keep_done ?_
      | refine keep_fail ?_
      | refine keep_wait ?_
    | exact rfl
    | split
    | (dsimp only)


theorem execGetOperatingPoint_keeps {P : State → Prop} (K : Keeps [.pkts, .integ, .loop, .free] P) {rq : Sys2Proof.Request} {s : State} (h : P s) :
    NextKeeps P (execGetOperatingPoint rq s) := by
  have K1 := K.sub (as := [.pkts, .integ, .free]) rfl
  have K2 := K.sub (as := [.loop]) rfl
  unfold execGetOperatingPoint
  try dsimp only
  repeat' first
    | with_reducible first
      | assumption
      | refine keep_next ?_
      | refine runCommand_keeps K1 ?_ ?_
      | refine opGetOperatingPoint_keeps K2 ?_
    | exact rfl
    | split
    | (dsimp only)


theorem opSetWakeTimer_keeps {P : State → Prop} (K : Keeps [.power] P) {rq : Request} {s : State} (h : P s) :
    Answer.Keeps P (opSetWakeTimer.effect rq s) := by
  unfold opSetWakeTimer
  try dsimp only
  repeat' first
    | with_reducible first
      | assumption
      | refine K.onPower rfl _ _ ?_
      | refine keep_ite (P := P) ?_ ?_
      | refine keep_ite_answer ?_ ?_
      | exact keep_deny
      | refine keep_done ?_
      | refine keep_fail ?_
      | refine keep_wait ?_
    | exact rfl
    | split
    | (dsimp only)


theorem execSetWakeTimer_keeps {P : State → Prop} (K : Keeps [.power, .pkts, .integ, .free] P) {rq : Sys2Proof.Request} {s : State} (h : P s) :
    NextKeeps P (execSetWakeTimer rq s) := by
  have K1 := K.sub (as := [.pkts, .integ, .free]) rfl
  have K2 := K.sub (as := [.power]) rfl
  unfold execSetWakeTimer
  try dsimp only
  repeat' first
    | with_reducible first
      | assumption
      | refine keep_next ?_
      | refine runCommand_keeps K1 ?_ ?_
      | refine opSetWakeTimer_keeps K2 ?_
    | exact rfl
    | split
    | (dsimp only)


theorem opIdentityRead_keeps {P : State → Prop} (K : Keeps [] P) {rq : Request} {s : State} (h : P s) :
    Answer.Keeps P (opIdentityRead.effect rq s) := by
  have _ := K
  unfold opIdentityRead
  try dsimp only
  repeat' first
    | with_reducible first
      | assumption
      | exact keep_deny
      | refine keep_done ?_
      | refine keep_fail ?_
      | refine keep_wait ?_
    | exact rfl
    | (dsimp only)


theorem execIdentityRead_keeps {P : State → Prop} (K : Keeps [.pkts, .integ, .free] P) {rq : Sys2Proof.Request} {s : State} (h : P s) :
    NextKeeps P (execIdentityRead rq s) := by
  have K1 := K.sub (as := []) rfl
  unfold execIdentityRead
  try dsimp only
  repeat' first
    | with_reducible first
      | assumption
      | refine keep_next ?_
      | refine runCommand_keeps K ?_ ?_
      | refine opIdentityRead_keeps K1 ?_
    | exact rfl
    | split
    | (dsimp only)


theorem opImageBegin_keeps {P : State → Prop} (K : Keeps [.boot, .serial, .flash] P) {rq : Request} {s : State} (h : P s) :
    Answer.Keeps P (opImageBegin.effect rq s) := by
  have K1 := K.sub (as := [.flash]) rfl
  unfold opImageBegin
  try dsimp only
  repeat' first
    | with_reducible first
      | assumption
      | refine onFlash_keeps K1 (fun hx => ?_) ?_
      | refine K.onBoot rfl _ _ ?_
      | refine keep_ite (P := P) ?_ ?_
      | refine keep_ite_answer ?_ ?_
      | exact keep_deny
      | refine keep_done ?_
      | refine keep_fail ?_
      | refine keep_wait ?_
    | exact hx
    | exact rfl
    | exact eraseRange_wf hx
    | exact programBytes_wf hx
    | exact programWords_wf hx
    | exact spoiled_wf hx
    | exact wordPut_wf hx
    | exact chooseSlot_wf hx
    | exact cellsWrite_wf rfl
    | split
    | (dsimp only)


theorem execImageBegin_keeps {P : State → Prop} (K : Keeps [.boot, .pkts, .integ, .serial, .flash, .free] P) {rq : Sys2Proof.Request} {s : State} (h : P s) :
    NextKeeps P (execImageBegin rq s) := by
  have K1 := K.sub (as := [.pkts, .integ, .free]) rfl
  have K2 := K.sub (as := [.boot, .serial, .flash]) rfl
  unfold execImageBegin
  try dsimp only
  repeat' first
    | with_reducible first
      | assumption
      | refine keep_next ?_
      | refine runCommand_keeps K1 ?_ ?_
      | refine opImageBegin_keeps K2 ?_
    | exact rfl
    | split
    | (dsimp only)


theorem opImageData_keeps {P : State → Prop} (K : Keeps [.boot, .serial, .flash] P) {rq : Request} {s : State} (h : P s) :
    Answer.Keeps P (opImageData.effect rq s) := by
  have K1 := K.sub (as := [.flash]) rfl
  unfold opImageData
  try dsimp only
  repeat' first
    | with_reducible first
      | assumption
      | refine onFlash_keeps K1 (fun hx => ?_) ?_
      | refine K.onBoot rfl _ _ ?_
      | refine keep_ite (P := P) ?_ ?_
      | refine keep_ite_answer ?_ ?_
      | exact keep_deny
      | refine keep_done ?_
      | refine keep_fail ?_
      | refine keep_wait ?_
    | exact hx
    | exact rfl
    | exact eraseRange_wf hx
    | exact programBytes_wf hx
    | exact programWords_wf hx
    | exact spoiled_wf hx
    | exact wordPut_wf hx
    | exact chooseSlot_wf hx
    | exact cellsWrite_wf rfl
    | split
    | (dsimp only)


theorem execImageData_keeps {P : State → Prop} (K : Keeps [.boot, .pkts, .integ, .serial, .flash, .free] P) {rq : Sys2Proof.Request} {s : State} (h : P s) :
    NextKeeps P (execImageData rq s) := by
  have K1 := K.sub (as := [.pkts, .integ, .free]) rfl
  have K2 := K.sub (as := [.boot, .serial, .flash]) rfl
  unfold execImageData
  try dsimp only
  repeat' first
    | with_reducible first
      | assumption
      | refine keep_next ?_
      | refine runCommand_keeps K1 ?_ ?_
      | refine opImageData_keeps K2 ?_
    | exact rfl
    | split
    | (dsimp only)


theorem opImageCommit_keeps {P : State → Prop} (K : Keeps [.boot, .serial, .flash] P) {rq : Request} {s : State} (h : P s) :
    Answer.Keeps P (opImageCommit.effect rq s) := by
  have K1 := K.sub (as := [.flash]) rfl
  unfold opImageCommit
  try dsimp only
  repeat' first
    | with_reducible first
      | assumption
      | refine onFlash_keeps K1 (fun hx => ?_) ?_
      | refine K.onBoot rfl _ _ ?_
      | refine keep_ite (P := P) ?_ ?_
      | refine keep_ite_answer ?_ ?_
      | exact keep_deny
      | refine keep_done ?_
      | refine keep_fail ?_
      | refine keep_wait ?_
    | exact hx
    | exact rfl
    | exact eraseRange_wf hx
    | exact programBytes_wf hx
    | exact programWords_wf hx
    | exact spoiled_wf hx
    | exact wordPut_wf hx
    | exact chooseSlot_wf hx
    | exact cellsWrite_wf rfl
    | split
    | (dsimp only)


theorem execImageCommit_keeps {P : State → Prop} (K : Keeps [.boot, .pkts, .integ, .serial, .flash, .free] P) {rq : Sys2Proof.Request} {s : State} (h : P s) :
    NextKeeps P (execImageCommit rq s) := by
  have K1 := K.sub (as := [.pkts, .integ, .free]) rfl
  have K2 := K.sub (as := [.boot, .serial, .flash]) rfl
  unfold execImageCommit
  try dsimp only
  repeat' first
    | with_reducible first
      | assumption
      | refine keep_next ?_
      | refine runCommand_keeps K1 ?_ ?_
      | refine opImageCommit_keeps K2 ?_
    | exact rfl
    | split
    | (dsimp only)


theorem resetSoon_keeps {P : State → Prop} (K : Keeps [.sys] P) {rq : Sys2Proof.Request} {cause : Nat} {s : State} (h : P s) :
    P (resetSoon rq cause s) := by
  unfold resetSoon
  try dsimp only
  repeat' first
    | with_reducible first
      | assumption
      | refine K.onSys rfl _ _ rfl rfl rfl ?_
      | refine keep_ite (P := P) ?_ ?_
    | exact rfl
    | split
    | (dsimp only)


theorem opImageActivate_keeps {P : State → Prop} (K : Keeps [.sys, .boot] P) {rq : Request} {s : State} (h : P s) :
    Answer.Keeps P (opImageActivate.effect rq s) := by
  have K1 := K.sub (as := [.sys]) rfl
  unfold opImageActivate
  try dsimp only
  repeat' first
    | with_reducible first
      | assumption
      | refine resetSoon_keeps K1 ?_
      | refine K.onBoot rfl _ _ ?_
      | refine keep_ite (P := P) ?_ ?_
      | refine keep_ite_answer ?_ ?_
      | exact keep_deny
      | refine keep_done ?_
      | refine keep_fail ?_
      | refine keep_wait ?_
    | exact hx
    | exact rfl
    | exact eraseRange_wf hx
    | exact programBytes_wf hx
    | exact programWords_wf hx
    | exact spoiled_wf hx
    | exact wordPut_wf hx
    | exact chooseSlot_wf hx
    | exact cellsWrite_wf rfl
    | split
    | (dsimp only)


theorem execImageActivate_keeps {P : State → Prop} (K : Keeps [.sys, .boot, .pkts, .integ, .free] P) {rq : Sys2Proof.Request} {s : State} (h : P s) :
    NextKeeps P (execImageActivate rq s) := by
  have K1 := K.sub (as := [.pkts, .integ, .free]) rfl
  have K2 := K.sub (as := [.sys, .boot]) rfl
  unfold execImageActivate
  try dsimp only
  repeat' first
    | with_reducible first
      | assumption
      | refine keep_next ?_
      | refine runCommand_keeps K1 ?_ ?_
      | refine opImageActivate_keeps K2 ?_
    | exact rfl
    | split
    | (dsimp only)


theorem opImageConfirm_keeps {P : State → Prop} (K : Keeps [.boot, .serial, .flash] P) {rq : Request} {s : State} (h : P s) :
    Answer.Keeps P (opImageConfirm.effect rq s) := by
  have K1 := K.sub (as := [.flash]) rfl
  unfold opImageConfirm
  try dsimp only
  repeat' first
    | with_reducible first
      | assumption
      | refine onFlash_keeps K1 (fun hx => ?_) ?_
      | refine K.onBoot rfl _ _ ?_
      | refine keep_ite (P := P) ?_ ?_
      | refine keep_ite_answer ?_ ?_
      | exact keep_deny
      | refine keep_done ?_
      | refine keep_fail ?_
      | refine keep_wait ?_
    | exact hx
    | exact rfl
    | exact eraseRange_wf hx
    | exact programBytes_wf hx
    | exact programWords_wf hx
    | exact spoiled_wf hx
    | exact wordPut_wf hx
    | exact chooseSlot_wf hx
    | exact cellsWrite_wf rfl
    | split
    | (dsimp only)


theorem execImageConfirm_keeps {P : State → Prop} (K : Keeps [.boot, .pkts, .integ, .serial, .flash, .free] P) {rq : Sys2Proof.Request} {s : State} (h : P s) :
    NextKeeps P (execImageConfirm rq s) := by
  have K1 := K.sub (as := [.pkts, .integ, .free]) rfl
  have K2 := K.sub (as := [.boot, .serial, .flash]) rfl
  unfold execImageConfirm
  try dsimp only
  repeat' first
    | with_reducible first
      | assumption
      | refine keep_next ?_
      | refine runCommand_keeps K1 ?_ ?_
      | refine opImageConfirm_keeps K2 ?_
    | exact rfl
    | split
    | (dsimp only)


theorem opImageRollback_keeps {P : State → Prop} (K : Keeps [.sys, .serial, .flash] P) {rq : Request} {s : State} (h : P s) :
    Answer.Keeps P (opImageRollback.effect rq s) := by
  have K1 := K.sub (as := [.sys]) rfl
  have K2 := K.sub (as := [.flash]) rfl
  unfold opImageRollback
  try dsimp only
  repeat' first
    | with_reducible first
      | assumption
      | refine resetSoon_keeps K1 ?_
      | refine onFlash_keeps K2 (fun hx => ?_) ?_
      | refine keep_ite (P := P) ?_ ?_
      | refine keep_ite_answer ?_ ?_
      | exact keep_deny
      | refine keep_done ?_
      | refine keep_fail ?_
      | refine keep_wait ?_
    | exact hx
    | exact rfl
    | exact eraseRange_wf hx
    | exact programBytes_wf hx
    | exact programWords_wf hx
    | exact spoiled_wf hx
    | exact wordPut_wf hx
    | exact chooseSlot_wf hx
    | exact cellsWrite_wf rfl
    | split
    | (dsimp only)


theorem execImageRollback_keeps {P : State → Prop} (K : Keeps [.sys, .pkts, .integ, .serial, .flash, .free] P) {rq : Sys2Proof.Request} {s : State} (h : P s) :
    NextKeeps P (execImageRollback rq s) := by
  have K1 := K.sub (as := [.pkts, .integ, .free]) rfl
  have K2 := K.sub (as := [.sys, .serial, .flash]) rfl
  unfold execImageRollback
  try dsimp only
  repeat' first
    | with_reducible first
      | assumption
      | refine keep_next ?_
      | refine runCommand_keeps K1 ?_ ?_
      | refine opImageRollback_keeps K2 ?_
    | exact rfl
    | split
    | (dsimp only)


theorem execImageSessionTimeout_keeps {P : State → Prop} (K : Keeps [.boot] P) {s : State} (h : P s) :
    NextKeeps P (execImageSessionTimeout s) := by
  unfold execImageSessionTimeout
  try dsimp only
  repeat' first
    | with_reducible first
      | assumption
      | refine keep_next ?_
      | refine keep_ite_next ?_ ?_
      | refine K.onBoot rfl _ _ ?_
      | refine keep_ite (P := P) ?_ ?_
    | exact rfl
    | split
    | (dsimp only)


theorem setDevice_keeps {P : State → Prop} (K : Keeps [.sys, .pkts, .integ, .axis, .plan, .gear, .loop, .bta, .stepper, .bricks, .dev] P) {to0 : DevState} {s : State} (h : P s) :
    P (setDevice to0 s) := by
  unfold setDevice
  try dsimp only
  repeat' first
    | with_reducible first
      | assumption
      | refine enterRecovery_keeps K ?_
      | refine deviceFault_keeps K ?_
      | refine K.onDev rfl _ _ rfl rfl ?_
      | refine keep_ite (P := P) ?_ ?_
    | exact rfl
    | split
    | (dsimp only)


theorem opSetState_keeps {P : State → Prop} (K : Keeps [.sys, .pkts, .integ, .axis, .plan, .gear, .loop, .bta, .stepper, .bricks, .dev] P) {rq : Request} {s : State} (h : P s) :
    Answer.Keeps P (opSetState.effect rq s) := by
  unfold opSetState
  try dsimp only
  repeat' first
    | with_reducible first
      | assumption
      | refine setDevice_keeps K ?_
      | refine keep_ite (P := P) ?_ ?_
      | refine keep_ite_answer ?_ ?_
      | exact keep_deny
      | refine keep_done ?_
      | refine keep_fail ?_
      | refine keep_wait ?_
    | exact rfl
    | split
    | (dsimp only)


theorem execSetState_keeps {P : State → Prop} (K : Keeps [.sys, .pkts, .integ, .axis, .plan, .gear, .loop, .bta, .stepper, .bricks, .dev, .free] P) {rq : Sys2Proof.Request} {s : State} (h : P s) :
    NextKeeps P (execSetState rq s) := by
  have K1 := K.sub (as := [.pkts, .integ, .free]) rfl
  have K2 := K.sub (as := [.sys, .pkts, .integ, .axis, .plan, .gear, .loop, .bta, .stepper, .bricks, .dev]) rfl
  unfold execSetState
  try dsimp only
  repeat' first
    | with_reducible first
      | assumption
      | refine keep_next ?_
      | refine runCommand_keeps K1 ?_ ?_
      | refine opSetState_keeps K2 ?_
    | exact rfl
    | split
    | (dsimp only)


theorem opReset_keeps {P : State → Prop} (K : Keeps [.sys] P) {rq : Request} {s : State} (h : P s) :
    Answer.Keeps P (opReset.effect rq s) := by
  unfold opReset
  try dsimp only
  repeat' first
    | with_reducible first
      | assumption
      | refine resetSoon_keeps K ?_
      | exact keep_deny
      | refine keep_done ?_
      | refine keep_fail ?_
      | refine keep_wait ?_
    | exact rfl
    | (dsimp only)


theorem execReset_keeps {P : State → Prop} (K : Keeps [.sys, .pkts, .integ, .free] P) {rq : Sys2Proof.Request} {s : State} (h : P s) :
    NextKeeps P (execReset rq s) := by
  have K1 := K.sub (as := [.pkts, .integ, .free]) rfl
  have K2 := K.sub (as := [.sys]) rfl
  unfold execReset
  try dsimp only
  repeat' first
    | with_reducible first
      | assumption
      | refine keep_next ?_
      | refine runCommand_keeps K1 ?_ ?_
      | refine opReset_keeps K2 ?_
    | exact rfl
    | split
    | (dsimp only)


theorem execResetEntry_keeps {P : State → Prop} (K : Keeps [.sys, .power, .boot, .pkts, .integ, .axis, .plan, .gear, .loop, .ports, .bta, .stepper, .bricks, .net, .can, .serial, .acq, .lanes, .flash, .ldata, .dev, .ctx, .free] P) {s : State} (h : P s) :
    NextKeeps P (execResetEntry s) := by
  have K1 := K.sub (as := [.integ]) rfl
  unfold execResetEntry
  try dsimp only
  repeat' first
    | with_reducible first
      | assumption
      | refine keep_next ?_
      | refine keep_ite_next ?_ ?_
      | refine enterReset_keeps K ?_
      | refine recordFault_keeps K1 ?_
      | refine keep_ite (P := P) ?_ ?_
    | exact rfl
    | split
    | (dsimp only)


theorem opAuthKeySet_keeps {P : State → Prop} (K : Keeps [.pkts] P) {rq : Request} {s : State} (h : P s) :
    Answer.Keeps P (opAuthKeySet.effect rq s) := by
  unfold opAuthKeySet
  try dsimp only
  repeat' first
    | with_reducible first
      | assumption
      | refine K.onPkts rfl _ _ (fun hx => ?_) ?_
      | refine keep_ite (P := P) ?_ ?_
      | refine keep_ite_answer ?_ ?_
      | exact keep_deny
      | refine keep_done ?_
      | refine keep_fail ?_
      | refine keep_wait ?_
    | exact hx
    | exact rfl
    | (refine ⟨?_, ?_, ?_⟩ <;> first | exact hx.1 | exact hx.2.1 | exact hx.2.2 | (have h1 := hx.1; have h2 := hx.2.1; have h3 := hx.2.2; simp at h1 h2 h3 ⊢; omega))
    | split
    | (dsimp only)


theorem execAuthKeySet_keeps {P : State → Prop} (K : Keeps [.pkts, .integ, .free] P) {rq : Sys2Proof.Request} {s : State} (h : P s) :
    NextKeeps P (execAuthKeySet rq s) := by
  have K1 := K.sub (as := [.pkts]) rfl
  unfold execAuthKeySet
  try dsimp only
  repeat' first
    | with_reducible first
      | assumption
      | refine keep_next ?_
      | refine runCommand_keeps K ?_ ?_
      | refine opAuthKeySet_keeps K1 ?_
    | exact rfl
    | split
    | (dsimp only)


theorem opAuthPolicySet_keeps {P : State → Prop} (K : Keeps [.pkts] P) {rq : Request} {s : State} (h : P s) :
    Answer.Keeps P (opAuthPolicySet.effect rq s) := by
  unfold opAuthPolicySet
  try dsimp only
  repeat' first
    | with_reducible first
      | assumption
      | refine K.onPkts rfl _ _ (fun hx => ?_) ?_
      | exact keep_deny
      | refine keep_done ?_
      | refine keep_fail ?_
      | refine keep_wait ?_
    | exact hx
    | exact rfl
    | (refine ⟨?_, ?_, ?_⟩ <;> first | exact hx.1 | exact hx.2.1 | exact hx.2.2 | (have h1 := hx.1; have h2 := hx.2.1; have h3 := hx.2.2; simp at h1 h2 h3 ⊢; omega))
    | (dsimp only)


theorem execAuthPolicySet_keeps {P : State → Prop} (K : Keeps [.pkts, .integ, .free] P) {rq : Sys2Proof.Request} {s : State} (h : P s) :
    NextKeeps P (execAuthPolicySet rq s) := by
  have K1 := K.sub (as := [.pkts]) rfl
  unfold execAuthPolicySet
  try dsimp only
  repeat' first
    | with_reducible first
      | assumption
      | refine keep_next ?_
      | refine runCommand_keeps K ?_ ?_
      | refine opAuthPolicySet_keeps K1 ?_
    | exact rfl
    | split
    | (dsimp only)


theorem execAuthLockoutEnd_keeps {P : State → Prop} (K : Keeps [.pkts] P) {src : Sys2Proof.Source} {s : State} (h : P s) :
    NextKeeps P (execAuthLockoutEnd src s) := by
  unfold execAuthLockoutEnd
  try dsimp only
  repeat' first
    | with_reducible first
      | assumption
      | refine keep_next ?_
      | refine keep_ite_next ?_ ?_
      | refine K.onPkts rfl _ _ (fun hx => ?_) ?_
      | refine keep_ite (P := P) ?_ ?_
    | exact hx
    | exact rfl
    | (refine ⟨?_, ?_, ?_⟩ <;> first | exact hx.1 | exact hx.2.1 | exact hx.2.2 | (have h1 := hx.1; have h2 := hx.2.1; have h3 := hx.2.2; simp at h1 h2 h3 ⊢; omega))
    | split
    | (dsimp only)


theorem execTempSample_keeps {P : State → Prop} (K : Keeps [.sys, .power, .pkts, .integ, .axis, .plan, .gear, .loop, .bta, .stepper, .bricks, .dev] P) {hottest : Int} {s : State} (h : P s) :
    NextKeeps P (execTempSample hottest s) := by
  have K1 := K.sub (as := [.pkts, .integ, .axis, .plan, .gear, .loop, .bta, .stepper, .bricks]) rfl
  have K2 := K.sub (as := [.sys, .pkts, .integ, .axis, .plan, .gear, .loop, .bta, .stepper, .bricks, .dev]) rfl
  have K3 := K.sub (as := [.integ]) rfl
  have K4 := K.sub (as := [.power, .loop, .bta]) rfl
  unfold execTempSample
  try dsimp only
  repeat' first
    | with_reducible first
      | assumption
      | refine keep_next ?_
      | refine keep_ite_next ?_ ?_
      | refine axisFaults_keeps K1 ?_
      | refine deviceFault_keeps K2 ?_
      | refine setCause_keeps K3 ?_
      | refine changeBand_keeps K4 ?_
      | refine K.onPower rfl _ _ ?_
      | refine keep_ite (P := P) ?_ ?_
    | exact rfl
    | split
    | (dsimp only)


theorem execBandFall_keeps {P : State → Prop} (K : Keeps [.power, .loop, .bta] P) {s : State} (h : P s) :
    NextKeeps P (execBandFall s) := by
  unfold execBandFall
  try dsimp only
  repeat' first
    | with_reducible first
      | assumption
      | refine keep_next ?_
      | refine keep_ite_next ?_ ?_
      | refine changeBand_keeps K ?_
      | refine keep_ite (P := P) ?_ ?_
    | exact rfl
    | split
    | (dsimp only)


theorem execVoltageRampEnd_keeps {P : State → Prop} (K : Keeps [.power, .loop] P) {s : State} (h : P s) :
    NextKeeps P (execVoltageRampEnd s) := by
  have K1 := K.sub (as := [.loop]) rfl
  unfold execVoltageRampEnd
  try dsimp only
  repeat' first
    | with_reducible first
      | assumption
      | refine keep_next ?_
      | refine keep_ite_next ?_ ?_
      | refine reportSlack_keeps K1 ?_
      | refine K.onPower rfl _ _ ?_
      | refine keep_ite (P := P) ?_ ?_
    | exact rfl
    | split
    | (dsimp only)


theorem execPowerStateEval_keeps {P : State → Prop} (K : Keeps [.power, .loop, .bta] P) {s : State} (h : P s) :
    NextKeeps P (execPowerStateEval s) := by
  unfold execPowerStateEval
  try dsimp only
  repeat' first
    | with_reducible first
      | assumption
      | refine keep_next ?_
      | refine keep_ite_next ?_ ?_
      | refine reselect_keeps K ?_
      | refine keep_ite (P := P) ?_ ?_
    | exact rfl
    | split
    | (dsimp only)


theorem execWakeEvent_keeps {P : State → Prop} (K : Keeps [.power] P) {s : State} (h : P s) :
    NextKeeps P (execWakeEvent s) := by
  unfold execWakeEvent
  try dsimp only
  repeat' first
    | with_reducible first
      | assumption
      | refine keep_next ?_
      | refine keep_ite_next ?_ ?_
      | refine K.onPower rfl _ _ ?_
      | refine keep_ite (P := P) ?_ ?_
    | exact rfl
    | split
    | (dsimp only)


theorem execWakeTimerExpiry_keeps {P : State → Prop} (K : Keeps [.power] P) {s : State} (h : P s) :
    NextKeeps P (execWakeTimerExpiry s) := by
  unfold execWakeTimerExpiry
  try dsimp only
  repeat' first
    | with_reducible first
      | assumption
      | refine keep_next ?_
      | refine keep_ite_next ?_ ?_
      | refine execWakeEvent_keeps K ?_
      | refine K.onPower rfl _ _ ?_
      | refine keep_ite (P := P) ?_ ?_
    | exact rfl
    | split
    | (dsimp only)


theorem execVlogLow_keeps {P : State → Prop} (K : Keeps [.sys, .power, .boot, .pkts, .integ, .axis, .plan, .gear, .loop, .ports, .bta, .stepper, .bricks, .net, .can, .serial, .acq, .lanes, .flash, .ldata, .dev, .ctx, .free] P) {s : State} (h : P s) :
    NextKeeps P (execVlogLow s) := by
  have K1 := K.sub (as := [.integ]) rfl
  unfold execVlogLow
  try dsimp only
  repeat' first
    | with_reducible first
      | assumption
      | refine keep_next ?_
      | refine enterReset_keeps K ?_
      | refine recordFault_keeps K1 ?_
      | refine K.onPower rfl _ _ ?_
    | exact rfl
    | split
    | (dsimp only)


theorem execResetPin_keeps {P : State → Prop} (K : Keeps [.sys, .power, .boot, .pkts, .integ, .axis, .plan, .gear, .loop, .ports, .bta, .stepper, .bricks, .net, .can, .serial, .acq, .lanes, .flash, .ldata, .dev, .ctx, .free] P) {s : State} (h : P s) :
    NextKeeps P (execResetPin s) := by
  have K1 := K.sub (as := [.integ]) rfl
  unfold execResetPin
  try dsimp only
  repeat' first
    | with_reducible first
      | assumption
      | refine keep_next ?_
      | refine enterReset_keeps K ?_
      | refine recordFault_keeps K1 ?_
      | refine K.onPower rfl _ _ ?_
    | exact rfl
    | split
    | (dsimp only)


theorem execKeeperWatchdog_keeps {P : State → Prop} (K : Keeps [.sys, .power, .boot, .pkts, .integ, .axis, .plan, .gear, .loop, .ports, .bta, .stepper, .bricks, .net, .can, .serial, .acq, .lanes, .flash, .ldata, .dev, .ctx, .free] P) {s : State} (h : P s) :
    NextKeeps P (execKeeperWatchdog s) := by
  have K1 := K.sub (as := [.integ]) rfl
  unfold execKeeperWatchdog
  try dsimp only
  repeat' first
    | with_reducible first
      | assumption
      | refine keep_next ?_
      | refine keep_ite_next ?_ ?_
      | refine enterReset_keeps K ?_
      | refine recordFault_keeps K1 ?_
      | refine keep_ite (P := P) ?_ ?_
    | exact rfl
    | split
    | (dsimp only)


theorem execGardenerWatchdog_keeps {P : State → Prop} (K : Keeps [.sys, .boot, .pkts, .integ, .axis, .plan, .gear, .loop, .bta, .stepper, .bricks] P) {s : State} (h : P s) :
    NextKeeps P (execGardenerWatchdog s) := by
  have K1 := K.sub (as := [.integ]) rfl
  have K2 := K.sub (as := [.pkts, .integ, .axis, .plan, .gear, .loop, .bta, .stepper, .bricks]) rfl
  unfold execGardenerWatchdog
  try dsimp only
  repeat' first
    | with_reducible first
      | assumption
      | refine keep_next ?_
      | refine keep_ite_next ?_ ?_
      | refine recordFault_keeps K1 ?_
      | refine axisFaults_keeps K2 ?_
      | refine K.onSys rfl _ _ rfl rfl rfl ?_
      | refine K.onBoot rfl _ _ ?_
      | refine keep_ite (P := P) ?_ ?_
    | exact rfl
    | split
    | (dsimp only)


theorem execReferenceLoss_keeps {P : State → Prop} (K : Keeps [.sys, .power, .pkts, .integ, .axis, .plan, .gear, .loop, .bta, .stepper, .bricks, .dev] P) {s : State} (h : P s) :
    NextKeeps P (execReferenceLoss s) := by
  have K1 := K.sub (as := [.bta]) rfl
  have K2 := K.sub (as := [.sys, .pkts, .integ, .axis, .plan, .gear, .loop, .bta, .stepper, .bricks, .dev]) rfl
  unfold execReferenceLoss
  try dsimp only
  repeat' first
    | with_reducible first
      | assumption
      | refine keep_next ?_
      | refine keep_ite_next ?_ ?_
      | refine refreshAll_keeps K1 ?_
      | refine deviceFault_keeps K2 ?_
      | refine K.onPower rfl _ _ ?_
      | refine K.onSys rfl _ _ rfl rfl rfl ?_
      | refine keep_ite (P := P) ?_ ?_
    | exact rfl
    | split
    | (dsimp only)


theorem execPllLock_keeps {P : State → Prop} (K : Keeps [.sys, .power, .integ, .bta, .lodge] P) {s : State} (h : P s) :
    NextKeeps P (execPllLock s) := by
  have K1 := K.sub (as := [.integ]) rfl
  have K2 := K.sub (as := [.bta]) rfl
  unfold execPllLock
  try dsimp only
  repeat' first
    | with_reducible first
      | assumption
      | refine keep_next ?_
      | refine keep_ite_next ?_ ?_
      | refine setCause_keeps K1 ?_
      | refine refreshAll_keeps K2 ?_
      | refine K.onLodge rfl _ _ (fun hx => ?_) ?_
      | refine K.onPower rfl _ _ ?_
      | refine K.onSys rfl _ _ rfl rfl rfl ?_
      | refine keep_ite (P := P) ?_ ?_
    | exact hx
    | exact rfl
    | split
    | (dsimp only)


theorem execResetRelease_keeps {P : State → Prop} (K : Keeps [.sys, .power, .bta, .dev] P) {s : State} (h : P s) :
    NextKeeps P (execResetRelease s) := by
  have K1 := K.sub (as := [.bta]) rfl
  unfold execResetRelease
  try dsimp only
  repeat' first
    | with_reducible first
      | assumption
      | refine keep_next ?_
      | refine keep_ite_next ?_ ?_
      | refine stoLatchAll_keeps K1 ?_
      | refine K.onDev rfl _ _ rfl rfl ?_
      | refine K.onPower rfl _ _ ?_
      | refine keep_ite (P := P) ?_ ?_
    | exact rfl
    | split
    | (dsimp only)


end Sys2Proof.Machine
end

