-- ==== Sys2Proof/Laws/KeepTable.lean ====
section
/-! SUPPORT.
What the effect of an opcode found by its number keeps. -/

namespace Sys2Proof.Machine

/-- Every opcode of a list keeps P. -/
def AllKeep (P : State → Prop) (l : List Op) : Prop := ∀ o ∈ l, ∀ rq s, P s → Answer.Keeps P (o.effect rq s)

theorem allKeep_nil {P : State → Prop} : AllKeep P [] := fun _ h => nomatch h

theorem allKeep_cons {P : State → Prop} {o : Op} {l : List Op} (ho : ∀ rq s, P s → Answer.Keeps P (o.effect rq s)) (hl : AllKeep P l) :
    AllKeep P (o :: l) := by
  intro x hx
  cases hx with
  | head => exact ho
  | tail _ h => exact hl x h

theorem allKeep_append {P : State → Prop} {l m : List Op} (hl : AllKeep P l) (hm : AllKeep P m) : AllKeep P (l ++ m) := by
  intro x hx
  rcases List.mem_append.mp hx with h | h
  · exact hl x h
  · exact hm x h

theorem opsSystem_keeps {P : State → Prop} (K : Keeps opBlocks P) : AllKeep P opsSystem :=
  allKeep_cons (o := opPing) (fun _ _ h => opPing_keeps (K.sub rfl) h) <|
  allKeep_cons (o := opGetInfo) (fun _ _ h => opGetInfo_keeps (K.sub rfl) h) <|
  allKeep_cons (o := opCancel) (fun _ _ h => opCancel_keeps (K.sub rfl) h) <|
  allKeep_cons (o := opSetLatencyTolerance) (fun _ _ h => opSetLatencyTolerance_keeps (K.sub rfl) h) <|
  allKeep_cons (o := opGetOperatingPoint) (fun _ _ h => opGetOperatingPoint_keeps (K.sub rfl) h) <|
  allKeep_cons (o := opSetWakeTimer) (fun _ _ h => opSetWakeTimer_keeps (K.sub rfl) h) <|
  allKeep_cons (o := opIdentityRead) (fun _ _ h => opIdentityRead_keeps (K.sub rfl) h) <|
  allKeep_cons (o := opImageBegin) (fun _ _ h => opImageBegin_keeps (K.sub rfl) h) <|
  allKeep_cons (o := opImageData) (fun _ _ h => opImageData_keeps (K.sub rfl) h) <|
  allKeep_cons (o := opImageCommit) (fun _ _ h => opImageCommit_keeps (K.sub rfl) h) <|
  allKeep_cons (o := opImageActivate) (fun _ _ h => opImageActivate_keeps (K.sub rfl) h) <|
  allKeep_cons (o := opImageConfirm) (fun _ _ h => opImageConfirm_keeps (K.sub rfl) h) <|
  allKeep_cons (o := opImageRollback) (fun _ _ h => opImageRollback_keeps (K.sub rfl) h) <|
  allKeep_cons (o := opSetState) (fun _ _ h => opSetState_keeps (K.sub rfl) h) <|
  allKeep_cons (o := opReset) (fun _ _ h => opReset_keeps (K.sub rfl) h) <|
  allKeep_cons (o := opConfigSave) (fun _ _ h => opConfigSave_keeps (K.sub rfl) h) <|
  allKeep_cons (o := opAuthKeySet) (fun _ _ h => opAuthKeySet_keeps (K.sub rfl) h) <|
  allKeep_cons (o := opAuthPolicySet) (fun _ _ h => opAuthPolicySet_keeps (K.sub rfl) h) <|
  allKeep_cons (o := opCyclicMapDefine) (fun _ _ h => opCyclicMapDefine_keeps (K.sub rfl) h) <|
  allKeep_cons (o := opCyclicMapEnable) (fun _ _ h => opCyclicMapEnable_keeps (K.sub rfl) h) <|
  allKeep_cons (o := opCyclicMapStatus) (fun _ _ h => opCyclicMapStatus_keeps (K.sub rfl) h) <|
  allKeep_nil

theorem opsAxis_keeps {P : State → Prop} (K : Keeps opBlocks P) : AllKeep P opsAxis :=
  allKeep_cons (o := opAxisBind) (fun _ _ h => opAxisBind_keeps (K.sub rfl) h) <|
  allKeep_cons (o := opAxisSetMode) (fun _ _ h => opAxisSetMode_keeps (K.sub rfl) h) <|
  allKeep_cons (o := opAxisEnable) (fun _ _ h => opAxisEnable_keeps (K.sub rfl) h) <|
  allKeep_cons (o := opAxisDisable) (fun _ _ h => opAxisDisable_keeps (K.sub rfl) h) <|
  allKeep_cons (o := opAxisStatus) (fun _ _ h => opAxisStatus_keeps (K.sub rfl) h) <|
  allKeep_nil

theorem opsMotion_keeps {P : State → Prop} (K : Keeps opBlocks P) : AllKeep P opsMotion :=
  allKeep_cons (o := opMoveAbs) (fun _ _ h => opMoveAbs_keeps (K.sub rfl) h) <|
  allKeep_cons (o := opMoveRel) (fun _ _ h => opMoveRel_keeps (K.sub rfl) h) <|
  allKeep_cons (o := opJog) (fun _ _ h => opJog_keeps (K.sub rfl) h) <|
  allKeep_cons (o := opStop) (fun _ _ h => opStop_keeps (K.sub rfl) h) <|
  allKeep_cons (o := opSegmentAppend) (fun _ _ h => opSegmentAppend_keeps (K.sub rfl) h) <|
  allKeep_cons (o := opPlanAxisConfig) (fun _ _ h => opPlanAxisConfig_keeps (K.sub rfl) h) <|
  allKeep_cons (o := opGroupDefine) (fun _ _ h => opGroupDefine_keeps (K.sub rfl) h) <|
  allKeep_cons (o := opGroupStart) (fun _ _ h => opGroupStart_keeps (K.sub rfl) h) <|
  allKeep_cons (o := opGroupResume) (fun _ _ h => opGroupResume_keeps (K.sub rfl) h) <|
  allKeep_cons (o := opGroupClear) (fun _ _ h => opGroupClear_keeps (K.sub rfl) h) <|
  allKeep_cons (o := opGroupStatus) (fun _ _ h => opGroupStatus_keeps (K.sub rfl) h) <|
  allKeep_cons (o := opStoreStatus) (fun _ _ h => opStoreStatus_keeps (K.sub rfl) h) <|
  allKeep_cons (o := opOverrideSet) (fun _ _ h => opOverrideSet_keeps (K.sub rfl) h) <|
  allKeep_cons (o := opGearLink) (fun _ _ h => opGearLink_keeps (K.sub rfl) h) <|
  allKeep_cons (o := opGearRatioAt) (fun _ _ h => opGearRatioAt_keeps (K.sub rfl) h) <|
  allKeep_cons (o := opGearClearPending) (fun _ _ h => opGearClearPending_keeps (K.sub rfl) h) <|
  allKeep_cons (o := opCamDefine) (fun _ _ h => opCamDefine_keeps (K.sub rfl) h) <|
  allKeep_cons (o := opCamData) (fun _ _ h => opCamData_keeps (K.sub rfl) h) <|
  allKeep_cons (o := opCamCommit) (fun _ _ h => opCamCommit_keeps (K.sub rfl) h) <|
  allKeep_cons (o := opVmasterSet) (fun _ _ h => opVmasterSet_keeps (K.sub rfl) h) <|
  allKeep_cons (o := opGearStatusRead) (fun _ _ h => opGearStatusRead_keeps (K.sub rfl) h) <|
  allKeep_nil

theorem opsLoop_keeps {P : State → Prop} (K : Keeps opBlocks P) : AllKeep P opsLoop :=
  allKeep_cons (o := opLoopLoadCascade) (fun _ _ h => opLoopLoadCascade_keeps (K.sub rfl) h) <|
  allKeep_cons (o := opLoopSchedule) (fun _ _ h => opLoopSchedule_keeps (K.sub rfl) h) <|
  allKeep_cons (o := opLoopScales) (fun _ _ h => opLoopScales_keeps (K.sub rfl) h) <|
  allKeep_cons (o := opLoopMotor) (fun _ _ h => opLoopMotor_keeps (K.sub rfl) h) <|
  allKeep_cons (o := opLoopModulation) (fun _ _ h => opLoopModulation_keeps (K.sub rfl) h) <|
  allKeep_cons (o := opLoopFollow) (fun _ _ h => opLoopFollow_keeps (K.sub rfl) h) <|
  allKeep_cons (o := opLoopLimits) (fun _ _ h => opLoopLimits_keeps (K.sub rfl) h) <|
  allKeep_cons (o := opLoopObserver) (fun _ _ h => opLoopObserver_keeps (K.sub rfl) h) <|
  allKeep_cons (o := opLoopRead) (fun _ _ h => opLoopRead_keeps (K.sub rfl) h) <|
  allKeep_cons (o := opLoopStatusRead) (fun _ _ h => opLoopStatusRead_keeps (K.sub rfl) h) <|
  allKeep_nil

theorem opsPort_keeps {P : State → Prop} (K : Keeps opBlocks P) : AllKeep P opsPort :=
  allKeep_cons (o := opPpConfig) (fun _ _ h => opPpConfig_keeps (K.sub rfl) h) <|
  allKeep_cons (o := opPpSetPosition) (fun _ _ h => opPpSetPosition_keeps (K.sub rfl) h) <|
  allKeep_cons (o := opPpIndexConfig) (fun _ _ h => opPpIndexConfig_keeps (K.sub rfl) h) <|
  allKeep_cons (o := opPpSpeedConfig) (fun _ _ h => opPpSpeedConfig_keeps (K.sub rfl) h) <|
  allKeep_cons (o := opPpLossConfig) (fun _ _ h => opPpLossConfig_keeps (K.sub rfl) h) <|
  allKeep_cons (o := opPpStatusRead) (fun _ _ h => opPpStatusRead_keeps (K.sub rfl) h) <|
  allKeep_cons (o := opCompareDefine) (fun _ _ h => opCompareDefine_keeps (K.sub rfl) h) <|
  allKeep_cons (o := opCompareData) (fun _ _ h => opCompareData_keeps (K.sub rfl) h) <|
  allKeep_cons (o := opCompareArm) (fun _ _ h => opCompareArm_keeps (K.sub rfl) h) <|
  allKeep_cons (o := opCompareForce) (fun _ _ h => opCompareForce_keeps (K.sub rfl) h) <|
  allKeep_cons (o := opLatchConfig) (fun _ _ h => opLatchConfig_keeps (K.sub rfl) h) <|
  allKeep_cons (o := opLatchRead) (fun _ _ h => opLatchRead_keeps (K.sub rfl) h) <|
  allKeep_cons (o := opSnapshotConfig) (fun _ _ h => opSnapshotConfig_keeps (K.sub rfl) h) <|
  allKeep_cons (o := opSnapshotRead) (fun _ _ h => opSnapshotRead_keeps (K.sub rfl) h) <|
  allKeep_cons (o := opSnapshotTrigger) (fun _ _ h => opSnapshotTrigger_keeps (K.sub rfl) h) <|
  allKeep_nil

theorem opsBta_keeps {P : State → Prop} (K : Keeps opBlocks P) : AllKeep P opsBta :=
  allKeep_cons (o := opBtaGroupConfig) (fun _ _ h => opBtaGroupConfig_keeps (K.sub rfl) h) <|
  allKeep_cons (o := opBtaLegConfig) (fun _ _ h => opBtaLegConfig_keeps (K.sub rfl) h) <|
  allKeep_cons (o := opBtaTripConfig) (fun _ _ h => opBtaTripConfig_keeps (K.sub rfl) h) <|
  allKeep_cons (o := opBtaTripClear) (fun _ _ h => opBtaTripClear_keeps (K.sub rfl) h) <|
  allKeep_cons (o := opBtaBlankConfig) (fun _ _ h => opBtaBlankConfig_keeps (K.sub rfl) h) <|
  allKeep_cons (o := opBtaTripInputConfig) (fun _ _ h => opBtaTripInputConfig_keeps (K.sub rfl) h) <|
  allKeep_cons (o := opBtaSdcConfig) (fun _ _ h => opBtaSdcConfig_keeps (K.sub rfl) h) <|
  allKeep_cons (o := opBtaSdiConfig) (fun _ _ h => opBtaSdiConfig_keeps (K.sub rfl) h) <|
  allKeep_cons (o := opBtaDutySet) (fun _ _ h => opBtaDutySet_keeps (K.sub rfl) h) <|
  allKeep_cons (o := opBtaBankLevel) (fun _ _ h => opBtaBankLevel_keeps (K.sub rfl) h) <|
  allKeep_cons (o := opBtaStatusRead) (fun _ _ h => opBtaStatusRead_keeps (K.sub rfl) h) <|
  allKeep_nil

theorem opsStepper_keeps {P : State → Prop} (K : Keeps opBlocks P) : AllKeep P opsStepper :=
  allKeep_cons (o := opStepperConfig) (fun _ _ h => opStepperConfig_keeps (K.sub rfl) h) <|
  allKeep_cons (o := opStepperStatusRead) (fun _ _ h => opStepperStatusRead_keeps (K.sub rfl) h) <|
  allKeep_cons (o := opStepperSetPosition) (fun _ _ h => opStepperSetPosition_keeps (K.sub rfl) h) <|
  allKeep_nil

theorem opsBrick_keeps {P : State → Prop} (K : Keeps opBlocks P) : AllKeep P opsBrick :=
  allKeep_cons (o := opBrickRegister) (fun _ _ h => opBrickRegister_keeps (K.sub rfl) h) <|
  allKeep_cons (o := opFrameGroupConfig) (fun _ _ h => opFrameGroupConfig_keeps (K.sub rfl) h) <|
  allKeep_cons (o := opBrickStatus) (fun _ _ h => opBrickStatus_keeps (K.sub rfl) h) <|
  allKeep_nil

theorem opsNet_keeps {P : State → Prop} (K : Keeps opBlocks P) : AllKeep P opsNet :=
  allKeep_cons (o := opNetAddrConfig) (fun _ _ h => opNetAddrConfig_keeps (K.sub rfl) h) <|
  allKeep_cons (o := opPortConfig) (fun _ _ h => opPortConfig_keeps (K.sub rfl) h) <|
  allKeep_cons (o := opVlanConfig) (fun _ _ h => opVlanConfig_keeps (K.sub rfl) h) <|
  allKeep_cons (o := opFdbStatic) (fun _ _ h => opFdbStatic_keeps (K.sub rfl) h) <|
  allKeep_cons (o := opGateListSet) (fun _ _ h => opGateListSet_keeps (K.sub rfl) h) <|
  allKeep_cons (o := opCbsConfig) (fun _ _ h => opCbsConfig_keeps (K.sub rfl) h) <|
  allKeep_cons (o := opPortStatusRead) (fun _ _ h => opPortStatusRead_keeps (K.sub rfl) h) <|
  allKeep_cons (o := opPtpConfig) (fun _ _ h => opPtpConfig_keeps (K.sub rfl) h) <|
  allKeep_cons (o := opPtpStatus) (fun _ _ h => opPtpStatus_keeps (K.sub rfl) h) <|
  allKeep_cons (o := opTimebaseConfig) (fun _ _ h => opTimebaseConfig_keeps (K.sub rfl) h) <|
  allKeep_cons (o := opTimebaseSet) (fun _ _ h => opTimebaseSet_keeps (K.sub rfl) h) <|
  allKeep_cons (o := opTimebaseStatus) (fun _ _ h => opTimebaseStatus_keeps (K.sub rfl) h) <|
  allKeep_cons (o := opDomainTrust) (fun _ _ h => opDomainTrust_keeps (K.sub rfl) h) <|
  allKeep_cons (o := opTsoConfig) (fun _ _ h => opTsoConfig_keeps (K.sub rfl) h) <|
  allKeep_cons (o := opTsoStatusRead) (fun _ _ h => opTsoStatusRead_keeps (K.sub rfl) h) <|
  allKeep_nil

theorem opsLodge_keeps {P : State → Prop} (K : Keeps opBlocks P) : AllKeep P opsLodge :=
  allKeep_cons (o := opLodgeRead) (fun _ _ h => opLodgeRead_keeps (K.sub rfl) h) <|
  allKeep_cons (o := opLodgeParamStage) (fun _ _ h => opLodgeParamStage_keeps (K.sub rfl) h) <|
  allKeep_cons (o := opLodgeParamConfirm) (fun _ _ h => opLodgeParamConfirm_keeps (K.sub rfl) h) <|
  allKeep_cons (o := opLodgeKeyEnrol) (fun _ _ h => opLodgeKeyEnrol_keeps (K.sub rfl) h) <|
  allKeep_cons (o := opLodgeFaultClear) (fun _ _ h => opLodgeFaultClear_keeps (K.sub rfl) h) <|
  allKeep_nil

theorem opsFio_keeps {P : State → Prop} (K : Keeps opBlocks P) : AllKeep P opsFio :=
  allKeep_cons (o := opFioGroupConfig) (fun _ _ h => opFioGroupConfig_keeps (K.sub rfl) h) <|
  allKeep_cons (o := opFioInputConfig) (fun _ _ h => opFioInputConfig_keeps (K.sub rfl) h) <|
  allKeep_cons (o := opFioOutputConfig) (fun _ _ h => opFioOutputConfig_keeps (K.sub rfl) h) <|
  allKeep_cons (o := opFioOutputSet) (fun _ _ h => opFioOutputSet_keeps (K.sub rfl) h) <|
  allKeep_cons (o := opFioRead) (fun _ _ h => opFioRead_keeps (K.sub rfl) h) <|
  allKeep_cons (o := opFioClear) (fun _ _ h => opFioClear_keeps (K.sub rfl) h) <|
  allKeep_nil

theorem opsCan_keeps {P : State → Prop} (K : Keeps opBlocks P) : AllKeep P opsCan :=
  allKeep_cons (o := opCanConfig) (fun _ _ h => opCanConfig_keeps (K.sub rfl) h) <|
  allKeep_cons (o := opCanFilterSet) (fun _ _ h => opCanFilterSet_keeps (K.sub rfl) h) <|
  allKeep_cons (o := opCanTtConfig) (fun _ _ h => opCanTtConfig_keeps (K.sub rfl) h) <|
  allKeep_cons (o := opCanTtBufferSet) (fun _ _ h => opCanTtBufferSet_keeps (K.sub rfl) h) <|
  allKeep_cons (o := opCanTx) (fun _ _ h => opCanTx_keeps (K.sub rfl) h) <|
  allKeep_cons (o := opCanRxRead) (fun _ _ h => opCanRxRead_keeps (K.sub rfl) h) <|
  allKeep_cons (o := opCanStatusRead) (fun _ _ h => opCanStatusRead_keeps (K.sub rfl) h) <|
  allKeep_cons (o := opCanBitrateDetect) (fun _ _ h => opCanBitrateDetect_keeps (K.sub rfl) h) <|
  allKeep_cons (o := opCanBusRecover) (fun _ _ h => opCanBusRecover_keeps (K.sub rfl) h) <|
  allKeep_nil

theorem opsSerial_keeps {P : State → Prop} (K : Keeps opBlocks P) : AllKeep P opsSerial :=
  allKeep_cons (o := opSpmProfileSet) (fun _ _ h => opSpmProfileSet_keeps (K.sub rfl) h) <|
  allKeep_cons (o := opSpmDiscover) (fun _ _ h => opSpmDiscover_keeps (K.sub rfl) h) <|
  allKeep_cons (o := opSpmErase) (fun _ _ h => opSpmErase_keeps (K.sub rfl) h) <|
  allKeep_cons (o := opSpmFlush) (fun _ _ h => opSpmFlush_keeps (K.sub rfl) h) <|
  allKeep_cons (o := opSpmStatusRead) (fun _ _ h => opSpmStatusRead_keeps (K.sub rfl) h) <|
  allKeep_cons (o := opSphStatusRead) (fun _ _ h => opSphStatusRead_keeps (K.sub rfl) h) <|
  allKeep_nil

theorem opsAcq_keeps {P : State → Prop} (K : Keeps opBlocks P) : AllKeep P opsAcq :=
  allKeep_cons (o := opAcqChannelConfig) (fun _ _ h => opAcqChannelConfig_keeps (K.sub rfl) h) <|
  allKeep_cons (o := opAcqPinConfig) (fun _ _ h => opAcqPinConfig_keeps (K.sub rfl) h) <|
  allKeep_cons (o := opAcqTriggerConfig) (fun _ _ h => opAcqTriggerConfig_keeps (K.sub rfl) h) <|
  allKeep_cons (o := opAcqEnvelopeSet) (fun _ _ h => opAcqEnvelopeSet_keeps (K.sub rfl) h) <|
  allKeep_cons (o := opAcqCaptureConfig) (fun _ _ h => opAcqCaptureConfig_keeps (K.sub rfl) h) <|
  allKeep_cons (o := opAcqArm) (fun _ _ h => opAcqArm_keeps (K.sub rfl) h) <|
  allKeep_cons (o := opAcqStop) (fun _ _ h => opAcqStop_keeps (K.sub rfl) h) <|
  allKeep_cons (o := opAcqForce) (fun _ _ h => opAcqForce_keeps (K.sub rfl) h) <|
  allKeep_cons (o := opAcqRead) (fun _ _ h => opAcqRead_keeps (K.sub rfl) h) <|
  allKeep_cons (o := opAcqStatusRead) (fun _ _ h => opAcqStatusRead_keeps (K.sub rfl) h) <|
  allKeep_cons (o := opAcqCalibrate) (fun _ _ h => opAcqCalibrate_keeps (K.sub rfl) h) <|
  allKeep_nil

theorem opsLane_keeps {P : State → Prop} (K : Keeps opBlocks P) : AllKeep P opsLane :=
  allKeep_cons (o := opPluginLoad) (fun _ _ h => opPluginLoad_keeps (K.sub rfl) h) <|
  allKeep_cons (o := opThreadDefine) (fun _ _ h => opThreadDefine_keeps (K.sub rfl) h) <|
  allKeep_cons (o := opThreadEnable) (fun _ _ h => opThreadEnable_keeps (K.sub rfl) h) <|
  allKeep_cons (o := opThreadSignal) (fun _ _ h => opThreadSignal_keeps (K.sub rfl) h) <|
  allKeep_cons (o := opThreadTimerConfig) (fun _ _ h => opThreadTimerConfig_keeps (K.sub rfl) h) <|
  allKeep_cons (o := opPluginPortConfig) (fun _ _ h => opPluginPortConfig_keeps (K.sub rfl) h) <|
  allKeep_cons (o := opThreadStatusRead) (fun _ _ h => opThreadStatusRead_keeps (K.sub rfl) h) <|
  allKeep_cons (o := opLaneStatusRead) (fun _ _ h => opLaneStatusRead_keeps (K.sub rfl) h) <|
  allKeep_cons (o := opLaneKeyEnrol) (fun _ _ h => opLaneKeyEnrol_keeps (K.sub rfl) h) <|
  allKeep_nil

theorem opsTally_keeps {P : State → Prop} (K : Keeps opBlocks P) : AllKeep P opsTally :=
  allKeep_cons (o := opTallyRead) (fun _ _ h => opTallyRead_keeps (K.sub rfl) h) <|
  allKeep_cons (o := opFaultRead) (fun _ _ h => opFaultRead_keeps (K.sub rfl) h) <|
  allKeep_cons (o := opFaultAck) (fun _ _ h => opFaultAck_keeps (K.sub rfl) h) <|
  allKeep_cons (o := opEventRead) (fun _ _ h => opEventRead_keeps (K.sub rfl) h) <|
  allKeep_nil

theorem opTable_keeps {P : State → Prop} (K : Keeps opBlocks P) : AllKeep P opTable :=
  allKeep_append (allKeep_append (allKeep_append (allKeep_append (allKeep_append (allKeep_append (allKeep_append (allKeep_append (allKeep_append (allKeep_append (allKeep_append (allKeep_append (allKeep_append (allKeep_append (allKeep_append (opsSystem_keeps K) (opsAxis_keeps K)) (opsMotion_keeps K)) (opsLoop_keeps K)) (opsPort_keeps K)) (opsBta_keeps K)) (opsStepper_keeps K)) (opsBrick_keeps K)) (opsNet_keeps K)) (opsLodge_keeps K)) (opsFio_keeps K)) (opsCan_keeps K)) (opsSerial_keeps K)) (opsAcq_keeps K)) (opsLane_keeps K)) (opsTally_keeps K)

theorem opOfCode_keeps {P : State → Prop} (K : Keeps opBlocks P) {n : Nat} {o : Op} (ho : opOfCode n = some o) {rq : Request} {s : State}
    (h : P s) : Answer.Keeps P (o.effect rq s) := opTable_keeps K o (List.mem_of_find?_eq_some ho) rq s h

end Sys2Proof.Machine
end

