-- ==== Sys2Proof/Laws/KeepPackets.lean ====
section
/-! SUPPORT.
What each function of Machine/Packets.lean keeps. -/

namespace Sys2Proof.Machine

theorem openWindow_keeps {P : State → Prop} (K : Keeps [.pkts] P) {src : Sys2Proof.Source} {seq : BitVec 32} {s : State} (h : P s) :
    P (openWindow src seq s).2 := by
  unfold openWindow
  try dsimp only
  repeat' first
    | with_reducible first
      | assumption
      | refine K.onPkts rfl _ _ (fun hx => ?_) ?_
    | exact hx
    | exact rfl
    | (refine ⟨?_, ?_, ?_⟩ <;> first | exact hx.1 | exact hx.2.1 | exact hx.2.2 | (have h1 := hx.1; have h2 := hx.2.1; have h3 := hx.2.2; simp at h1 h2 h3 ⊢; omega))
    | (dsimp only)

theorem openWindow_out {P : State → Prop} (K : Keeps [.pkts] P) {src : Sys2Proof.Source} {seq : BitVec 32} {s : State} (h : P s) {o} {u : State}
    (hout : openWindow src seq s = (o, u)) : P u := by
  have hu := openWindow_keeps K h (P := P) (src := src) (seq := seq)
  rw [hout] at hu
  exact hu


theorem putWindow_keeps {P : State → Prop} (K : Keeps [.pkts] P) {w : Window} {s : State} (h : P s) :
    P (putWindow w s) := by
  unfold putWindow
  try dsimp only
  repeat' first
    | with_reducible first
      | assumption
      | refine K.onPkts rfl _ _ (fun hx => ?_) ?_
    | exact hx
    | exact rfl
    | (refine ⟨?_, ?_, ?_⟩ <;> first | exact hx.1 | exact hx.2.1 | exact hx.2.2 | (have h1 := hx.1; have h2 := hx.2.1; have h3 := hx.2.2; simp at h1 h2 h3 ⊢; omega))
    | (dsimp only)


theorem makeRoom_keeps {P : State → Prop} (K : Keeps [.pkts] P) {src : Sys2Proof.Source} {s : State} (h : P s) :
    ∀ t, makeRoom src s = some t → P t := by
  unfold makeRoom
  try dsimp only
  repeat' first
    | with_reducible first
      | assumption
      | refine K.onPkts rfl _ _ (fun hx => ?_) ?_
      | refine keep_ite (P := P) ?_ ?_
    | exact hx
    | exact rfl
    | (intro _ ht; cases ht)
    | (refine ⟨?_, ?_, ?_⟩ <;> first | exact hx.1 | exact hx.2.1 | exact hx.2.2 | (have h1 := hx.1; have h2 := hx.2.1; have h3 := hx.2.2; simp at h1 h2 h3 ⊢; omega))
    | split
    | (dsimp only)


theorem heardFrom_keeps {P : State → Prop} (K : Keeps [.pkts] P) {src : Sys2Proof.Source} {s : State} (h : P s) :
    P (heardFrom src s) := by
  unfold heardFrom
  try dsimp only
  repeat' first
    | with_reducible first
      | assumption
      | refine K.onPkts rfl _ _ (fun hx => ?_) ?_
      | refine keep_ite (P := P) ?_ ?_
    | exact hx
    | exact rfl
    | (refine ⟨?_, ?_, ?_⟩ <;> first | exact hx.1 | exact hx.2.1 | exact hx.2.2 | (have h1 := hx.1; have h2 := hx.2.1; have h3 := hx.2.2; simp at h1 h2 h3 ⊢; omega))
    | split
    | (dsimp only)


theorem answerDuplicate_keeps {P : State → Prop} (K : Keeps [.pkts] P) {rq : Sys2Proof.Request} {reply : Option (List Sys2Proof.Byte)} {s : State} (h : P s) :
    P (answerDuplicate rq reply s) := by
  unfold answerDuplicate
  try dsimp only
  repeat' first
    | with_reducible first
      | assumption
      | refine emit_keeps K ?_
      | refine K.onPkts rfl _ _ (fun hx => ?_) ?_
      | refine keep_ite (P := P) ?_ ?_
    | exact hx
    | exact rfl
    | (refine ⟨?_, ?_, ?_⟩ <;> first | exact hx.1 | exact hx.2.1 | exact hx.2.2 | (have h1 := hx.1; have h2 := hx.2.1; have h3 := hx.2.2; simp at h1 h2 h3 ⊢; omega))
    | split
    | (dsimp only)


theorem dropped_keeps {P : State → Prop} (K : Keeps [.pkts] P) {f : Packets → Packets} {s : State} (hf : s.pkts.Ok → (f s.pkts).Ok)
    (h : P s) : P (dropped f s) := K.onPkts rfl _ _ hf h


theorem windowCheck_keeps {P : State → Prop} (K : Keeps [.pkts] P) {rq : Request} {opcode : Nat} {s : State} (h : P s) {t : State}
    (e : windowCheck rq opcode s = .proceed t) : P t := by
  unfold windowCheck at e
  dsimp only at e
  split at e
  · split at e
    · rename_i u hu
      cases e
      exact putWindow_keeps K (openWindow_keeps K (makeRoom_keeps K h _ hu))
    · cases e
  · split at e
    · cases e
      exact putWindow_keeps K (openWindow_keeps K h)
    · split at e
      · cases e
      · split at e
        · cases e
          exact putWindow_keeps K h
        · split at e <;> cases e

theorem acceptPacket_keeps {P : State → Prop} (K : Keeps opBlocks P) {rq : Sys2Proof.Request} {opcode : Nat} {s : State} (h : P s) :
    P (acceptPacket rq opcode s) := by
  have K1 := K.sub (as := [.pkts]) rfl
  have K2 := K.sub (as := [.free]) rfl
  have K3 := K.sub (as := [.pkts, .integ, .free]) rfl
  have K1 := K.sub (as := [.pkts]) rfl
  have K2 := K.sub (as := [.free]) rfl
  unfold acceptPacket
  split
  · exact refusePlain_keeps K1 (heardFrom_keeps K1 h)
  · exact answerDuplicate_keeps K1 (heardFrom_keeps K1 h)
  · rename_i t ht
    have h1 : P t := windowCheck_keeps K1 h ht
    have h2 : P (if rq.authed && rq.flags.getLsbD 3 then
        (freshNat t).2.onPkts fun k => { k with challenge := BitVec.ofNat 64 (freshNat t).1 } else t) :=
      keep_ite (K1.onPkts rfl _ _ (fun hx => hx) (freshNat_keeps K2 h1)) h1
    dsimp only
    split
    · rename_i o ho
      exact runOp_keeps (K.sub rfl) (opOfCode_keeps (K.sub rfl) ho h2) h2
    · exact sendReply_keeps K1 h2


theorem takePacket_keeps {P : State → Prop} (K : Keeps opBlocks P) {src : Sys2Proof.Source} {broadcast : Bool} {arrival : Nat} {p : List Sys2Proof.Byte} {s : State} (h : P s) :
    P (takePacket src broadcast arrival p s) := by
  have K1 := K.sub (as := [.pkts]) rfl
  unfold takePacket
  try dsimp only
  repeat' first
    | with_reducible first
      | assumption
      | refine dropped_keeps K1 (fun hx => ?_) ?_
      | refine refusePlain_keeps K1 ?_
      | refine acceptPacket_keeps K ?_
      | refine keep_ite (P := P) ?_ ?_
    | exact hx
    | exact rfl
    | split
    | (dsimp only)


theorem delayed_keeps {P : State → Prop} (K : Keeps [.pkts, .free] P) {f : State → State} {s : State} (hf : P (f s)) : P (delayed f s) := by
  unfold delayed
  dsimp only
  exact K.onPkts rfl _ _ (fun hx => hx) (freshNat_keeps (K.sub rfl) hf)


theorem takeDatagram_keeps {P : State → Prop} (K : Keeps opBlocks P) {d : HeldDatagram} {s : State} (h : P s) :
    P (takeDatagram d s) := by
  have K1 := K.sub (as := [.pkts]) rfl
  have K2 := K.sub (as := [.pkts, .free]) rfl
  unfold takeDatagram
  try dsimp only
  repeat' first
    | with_reducible first
      | assumption
      | refine dropped_keeps K1 (fun hx => ?_) ?_
      | refine delayed_keeps K2 ?_
      | refine takePacket_keeps K ?_
      | refine keep_ite (P := P) ?_ ?_
    | exact hx
    | exact rfl
    | split
    | (dsimp only)


theorem takeHeldUdp_keeps {P : State → Prop} (K : Keeps opBlocks P) {s : State} (h : P s) :
    P (takeHeldUdp s) := by
  unfold takeHeldUdp
  try dsimp only
  repeat' first
    | with_reducible first
      | assumption
      | refine takeDatagram_keeps K ?_
      | refine K.onPkts rfl _ _ (fun hx => ?_) ?_
      | refine keep_foldl (P := P) (fun _ _ _ => ?_) ?_
    | exact hx
    | exact rfl
    | (refine ⟨?_, ?_, ?_⟩ <;> first | exact hx.1 | exact hx.2.1 | exact hx.2.2 | (have h1 := hx.1; have h2 := hx.2.1; have h3 := hx.2.2; simp at h1 h2 h3 ⊢; omega))
    | (dsimp only)


theorem execRuhityDatagram_keeps {P : State → Prop} (K : Keeps opBlocks P) {src : Sys2Proof.Source} {broadcast : Bool} {fragment : Bool} {checksumOk : Bool} {bytes : List Sys2Proof.Byte} {s : State} (h : P s) :
    NextKeeps P (execRuhityDatagram src broadcast fragment checksumOk bytes s) := by
  have K1 := K.sub (as := [.power]) rfl
  unfold execRuhityDatagram
  try dsimp only
  repeat' first
    | with_reducible first
      | assumption
      | refine keep_next ?_
      | refine keep_ite_next ?_ ?_
      | refine selectWake_keeps K1 ?_
      | refine takeDatagram_keeps K ?_
      | refine K.onPkts rfl _ _ (fun hx => ?_) ?_
      | refine keep_ite (P := P) ?_ ?_
    | exact hx
    | exact rfl
    | (refine ⟨?_, ?_, ?_⟩ <;> first | exact hx.1 | exact hx.2.1 | exact hx.2.2 | (have h1 := hx.1; have h2 := hx.2.1; have h3 := hx.2.2; simp at h1 h2 h3 ⊢; omega))
    | split
    | (dsimp only)


theorem execInboxTake_keeps {P : State → Prop} (K : Keeps everyBlock P) {s : State} (h : P s) :
    NextKeeps P (execInboxTake s) := by
  have K1 := K.sub (as := opBlocks) rfl
  have K2 := K.sub (as := [.sys, .pkts, .integ, .axis, .plan, .gear, .loop, .ports, .bta, .stepper, .bricks, .net, .fio, .can, .serial, .acq, .lanes, .sram, .dev, .ctx, .free]) rfl
  have K1 := K.sub (as := [.pkts]) rfl
  unfold execInboxTake
  refine keep_next ?_
  split
  · exact h
  · rename_i t p l hl
    split
    · exact h
    · have h1 : P (s.onPkts fun k => { k with inbox := l }) :=
        K1.onPkts rfl _ _ (fun hx => ⟨by have h8 := hx.1; rw [hl] at h8; simp at h8 ⊢; omega, hx.2⟩) h
      exact takePacket_keeps (K.sub rfl) (keep_ite h1 (commitHeld_keeps (K.sub rfl) h1))


theorem execBroadcastReply_keeps {P : State → Prop} (K : Keeps [.pkts] P) {s : State} (h : P s) :
    NextKeeps P (execBroadcastReply s) := by
  unfold execBroadcastReply
  try dsimp only
  repeat' first
    | with_reducible first
      | assumption
      | refine keep_next ?_
      | refine keep_ite_next ?_ ?_
      | refine K.onPkts rfl _ _ (fun hx => ?_) ?_
      | refine keep_ite (P := P) ?_ ?_
    | exact hx
    | exact rfl
    | (refine ⟨?_, ?_, ?_⟩ <;> first | exact hx.1 | exact hx.2.1 | exact hx.2.2 | (have h1 := hx.1; have h2 := hx.2.1; have h3 := hx.2.2; simp at h1 h2 h3 ⊢; omega))
    | split
    | (dsimp only)


theorem strike_keeps {P : State → Prop} (K : Keeps [.pkts] P) {handle : Nat} {gone : Bool} {s : State} (h : P s) :
    P (strike handle gone s) := by
  unfold strike
  try dsimp only
  repeat' first
    | with_reducible first
      | assumption
      | refine K.onPkts rfl _ _ (fun hx => ?_) ?_
      | refine keep_ite (P := P) ?_ ?_
    | exact hx
    | exact rfl
    | (refine ⟨?_, ?_, ?_⟩ <;> first | exact hx.1 | exact hx.2.1 | exact hx.2.2 | (have h1 := hx.1; have h2 := hx.2.1; have h3 := hx.2.2; simp at h1 h2 h3 ⊢; omega))
    | (refine ⟨?_, ?_, ?_⟩ <;> first | exact hx.1 | exact hx.2.1 | exact hx.2.2 | exact Nat.le_trans (List.length_filter_le _ _) hx.2.2)
    | split
    | (dsimp only)


theorem execPendingCommit_keeps {P : State → Prop} (K : Keeps opBlocks P) {handle : Nat} {s : State} (h : P s) :
    NextKeeps P (execPendingCommit handle s) := by
  have K1 := K.sub (as := [.integ, .free]) rfl
  have K2 := K.sub (as := [.pkts]) rfl
  unfold execPendingCommit
  refine keep_next ?_
  split
  · exact h
  · rename_i p _
    split
    · exact h
    · split
      · exact h
      · rename_i o ho
        have ha := Op.outcome_keeps (K.sub rfl) (opOfCode_keeps (K.sub rfl) ho (rq := p.rq) h) h
        split
        · exact sendReply_keeps (K.sub rfl) (strike_keeps (K.sub rfl) h)
        · rename_i hd
          rw [hd] at ha
          cases ha with
          | fail ht => exact sendReply_keeps (K.sub rfl) (strike_keeps (K.sub rfl) ht)
        · exact K.onPkts rfl _ _ (fun hx => ⟨hx.1, hx.2.1, by simpa using hx.2.2⟩) h


theorem execDeferredEffect_keeps {P : State → Prop} (K : Keeps opBlocks P) {handle : Nat} {s : State} (h : P s) :
    NextKeeps P (execDeferredEffect handle s) := by
  have K1 := K.sub (as := [.pkts]) rfl
  have K2 := K.sub (as := [.gear]) rfl
  have K3 := K.sub (as := [.pkts, .free]) rfl
  have K4 := K.sub (as := [.integ, .free]) rfl
  have K1 := K.sub (as := [.pkts]) rfl
  unfold execDeferredEffect
  refine keep_next ?_
  split
  · exact h
  · rename_i p _
    split
    · exact h
    · split
      · exact h
      · rename_i o ho
        have h1 := strike_keeps K1 (handle := handle) (gone := false) h
        have h2 := keep_ite (P := P) (c := p.opcode = 0x0282)
          (onLink_keeps (K.sub rfl) (i := tgt 64 p.rq) (f := fun l => { l with clearTo := some p.mark }) h1) h1
        exact conclude_keeps (K.sub rfl) (Op.outcome_keeps (K.sub rfl) (opOfCode_keeps (K.sub rfl) ho h2) h2) h2


theorem serveBlocked_keeps {P : State → Prop} (K : Keeps opBlocks P) {s : State} (h : P s) :
    P (serveBlocked s) := by
  have K1 := K.sub (as := [.pkts, .integ, .free]) rfl
  have K1 := K.sub (as := [.pkts]) rfl
  unfold serveBlocked
  split
  · exact h
  · rename_i e l he
    have h1 : P (s.onPkts fun k => { k with blocked := l }) := K1.onPkts rfl _ _ (fun hx => hx) h
    dsimp only
    split
    · rename_i o ho
      exact runNow_keeps (K.sub rfl) (opOfCode_keeps (K.sub rfl) ho h1) h1
    · exact h1


end Sys2Proof.Machine
end

