-- ==== Sys2Proof/Laws/KeepPlannerEvents.lean ====
section
/-! SUPPORT.
What each function of Machine/PlannerEvents.lean keeps. -/

namespace Sys2Proof.Machine

theorem groupPhases_keeps {P : State → Prop} (K : Keeps [.plan] P) {g : Fin 16} {s : State} (h : P s) :
    P (groupPhases g s) := by
  unfold groupPhases
  try dsimp only
  repeat' first
    | with_reducible first
      | assumption
      | refine onPax_keeps K ?_
      | refine keep_ite (P := P) ?_ ?_
      | refine keep_foldl (P := P) (fun _ _ _ => ?_) ?_
    | exact rfl
    | split
    | (dsimp only)


theorem execPlannerBoundary_keeps {P : State → Prop} (K : Keeps [.sys, .power, .pkts, .integ, .axis, .plan, .gear, .loop, .bta, .stepper, .bricks] P) {unit : Sys2Proof.PlanUnit} {s : State} (h : P s) :
    NextKeeps P (execPlannerBoundary unit s) := by
  have K1 := K.sub (as := [.power, .pkts, .integ, .axis, .plan, .gear, .loop, .bta, .stepper, .bricks]) rfl
  have K2 := K.sub (as := [.axis, .plan]) rfl
  have K3 := K.sub (as := [.sys, .pkts, .integ, .axis, .plan, .gear, .bta, .bricks]) rfl
  have K4 := K.sub (as := [.sys, .pkts, .integ, .axis, .plan, .bta, .bricks]) rfl
  have K5 := K.sub (as := [.plan]) rfl
  unfold execPlannerBoundary
  try dsimp only
  repeat' first
    | with_reducible first
      | assumption
      | refine keep_next ?_
      | refine keep_ite_next ?_ ?_
      | refine disableWaiting_keeps K1 ?_
      | refine targetCheck_keeps K2 ?_
      | refine axisBoundary_keeps K3 ?_
      | refine groupBoundary_keeps K4 ?_
      | refine groupPhases_keeps K5 ?_
      | refine keep_ite (P := P) ?_ ?_
    | exact rfl
    | split
    | (dsimp only)


end Sys2Proof.Machine
end

