-- ==== Sys2Proof/Laws/KeepPortEvents.lean ====
section
/-! SUPPORT.
What each function of Machine/PortEvents.lean keeps. -/

namespace Sys2Proof.Machine

theorem countMoved_keeps {P : State → Prop} (K : Keeps [.integ, .ports, .stepper] P) {p : Fin 32} {d : Int} {ns : Nat} {s : State} (h : P s) :
    P (countMoved p d ns s) := by
  have K1 := K.sub (as := [.ports, .stepper]) rfl
  have K2 := K.sub (as := [.integ, .ports]) rfl
  unfold countMoved
  try dsimp only
  repeat' first
    | with_reducible first
      | assumption
      | refine moved_keeps K1 ?_
      | refine countPort_keeps K2 ?_
    | exact rfl
    | (dsimp only)


theorem applyCorrection_keeps {P : State → Prop} (K : Keeps [.integ, .ports, .stepper] P) {p : Fin 32} {n : Int} {ns : Nat} {s : State} (h : P s) :
    P (applyCorrection p n ns s) := by
  have K1 := K.sub (as := [.ports]) rfl
  have K2 := K.sub (as := [.ports, .stepper]) rfl
  have K3 := K.sub (as := [.integ, .ports]) rfl
  unfold applyCorrection
  try dsimp only
  repeat' first
    | with_reducible first
      | assumption
      | refine onPort_keeps K1 ?_
      | refine moved_keeps K2 ?_
      | refine satEvent_keeps K3 ?_
      | refine compareMove_keeps K3 ?_
      | refine keep_ite (P := P) ?_ ?_
    | exact rfl
    | split
    | (dsimp only)


theorem indexSeen_keeps {P : State → Prop} (K : Keeps [.integ, .ports, .stepper] P) {p : Fin 32} {ns : Nat} {s : State} (h : P s) :
    P (indexSeen p ns s) := by
  have K1 := K.sub (as := [.integ]) rfl
  have K2 := K.sub (as := [.ports]) rfl
  unfold indexSeen
  try dsimp only
  repeat' first
    | with_reducible first
      | assumption
      | refine event_keeps K1 ?_
      | refine onPort_keeps K2 ?_
      | refine latchEvents_keeps K2 ?_
      | refine applyCorrection_keeps K ?_
      | refine keep_ite (P := P) ?_ ?_
    | exact rfl
    | split
    | (dsimp only)


theorem indexCheck_keeps {P : State → Prop} (K : Keeps [.integ, .ports, .stepper] P) {p : Fin 32} {before : Port} {ns : Nat} {s : State} (h : P s) :
    P (indexCheck p before ns s) := by
  have K1 := K.sub (as := [.ports]) rfl
  unfold indexCheck
  try dsimp only
  repeat' first
    | with_reducible first
      | assumption
      | refine onPort_keeps K1 ?_
      | refine indexSeen_keeps K ?_
      | refine keep_ite (P := P) ?_ ?_
    | exact rfl
    | split
    | (dsimp only)


theorem hallChange_keeps {P : State → Prop} (K : Keeps [.pkts, .integ, .axis, .plan, .gear, .loop, .ports, .bta, .stepper, .bricks] P) {p : Fin 32} {ns : Nat} {s : State} (h : P s) :
    P (hallChange p ns s) := by
  have K1 := K.sub (as := [.ports]) rfl
  have K2 := K.sub (as := [.integ]) rfl
  have K3 := K.sub (as := [.integ, .ports, .stepper]) rfl
  unfold hallChange
  try dsimp only
  repeat' first
    | with_reducible first
      | assumption
      | refine onPort_keeps K1 ?_
      | refine lossGone_keeps K1 ?_
      | refine event_keeps K2 ?_
      | refine countMoved_keeps K3 ?_
      | refine unresolved_keeps K ?_
      | refine keep_ite (P := P) ?_ ?_
    | exact rfl
    | split
    | (dsimp only)


theorem refineHall_keeps {P : State → Prop} (K : Keeps [.axis, .loop] P) {p : Fin 32} {before : Port} {s : State} (h : P s) :
    P (refineHall p before s) := by
  have K1 := K.sub (as := [.axis]) rfl
  unfold refineHall
  try dsimp only
  repeat' first
    | with_reducible first
      | assumption
      | refine onAx_keeps K1 ?_
      | refine K.onLoop rfl _ _ ?_
      | refine keep_ite (P := P) ?_ ?_
      | refine keep_foldl (P := P) (fun _ _ _ => ?_) ?_
    | exact rfl
    | split
    | (dsimp only)


theorem edgeAccepted_keeps {P : State → Prop} (K : Keeps [.pkts, .integ, .axis, .plan, .gear, .loop, .ports, .bta, .stepper, .bricks] P) {p : Fin 32} {lines : BitVec 4} {s : State} (h : P s) :
    P (edgeAccepted p lines s) := by
  have K1 := K.sub (as := [.ports]) rfl
  have K2 := K.sub (as := [.integ, .ports, .stepper]) rfl
  have K3 := K.sub (as := [.axis, .loop]) rfl
  unfold edgeAccepted
  try dsimp only
  repeat' first
    | with_reducible first
      | assumption
      | refine onPort_keeps K1 ?_
      | refine unresolved_keeps K ?_
      | refine countMoved_keeps K2 ?_
      | refine indexCheck_keeps K2 ?_
      | refine refineHall_keeps K3 ?_
      | refine hallChange_keeps K ?_
      | refine keep_ite (P := P) ?_ ?_
    | exact rfl
    | split
    | (dsimp only)


theorem execPpEdgeAccepted_keeps {P : State → Prop} (K : Keeps [.pkts, .integ, .axis, .plan, .gear, .loop, .ports, .bta, .stepper, .bricks] P) {port : Fin 32} {lines : BitVec 4} {s : State} (h : P s) :
    NextKeeps P (execPpEdgeAccepted port lines s) := by
  unfold execPpEdgeAccepted
  try dsimp only
  repeat' first
    | with_reducible first
      | assumption
      | refine keep_next ?_
      | refine keep_ite_next ?_ ?_
      | refine edgeAccepted_keeps K ?_
      | refine keep_ite (P := P) ?_ ?_
    | exact rfl
    | split
    | (dsimp only)


theorem execSsiFrameStart_keeps {P : State → Prop} (K : Keeps [.ports] P) {port : Fin 32} {s : State} (h : P s) :
    NextKeeps P (execSsiFrameStart port s) := by
  unfold execSsiFrameStart
  try dsimp only
  repeat' first
    | with_reducible first
      | assumption
      | refine keep_next ?_
      | refine keep_ite_next ?_ ?_
      | refine onPort_keeps K ?_
      | refine keep_ite (P := P) ?_ ?_
    | exact rfl
    | split
    | (dsimp only)


theorem ssiBadFrame_keeps {P : State → Prop} (K : Keeps [.pkts, .integ, .axis, .plan, .gear, .loop, .ports, .bta, .stepper, .bricks] P) {p : Fin 32} {ns : Nat} {timeout : Bool} {s : State} (h : P s) :
    P (ssiBadFrame p ns timeout s) := by
  have K1 := K.sub (as := [.ports]) rfl
  unfold ssiBadFrame
  try dsimp only
  repeat' first
    | with_reducible first
      | assumption
      | refine onPort_keeps K1 ?_
      | refine lossPresent_keeps K ?_
      | refine keep_ite (P := P) ?_ ?_
    | exact rfl
    | split
    | (dsimp only)


theorem ssiGoodFrame_keeps {P : State → Prop} (K : Keeps [.integ, .ports, .stepper] P) {p : Fin 32} {ns : Nat} {a : Int} {s : State} (h : P s) :
    P (ssiGoodFrame p ns a s) := by
  have K1 := K.sub (as := [.ports]) rfl
  have K2 := K.sub (as := [.ports, .stepper]) rfl
  have K3 := K.sub (as := [.integ, .ports]) rfl
  unfold ssiGoodFrame
  try dsimp only
  repeat' first
    | with_reducible first
      | assumption
      | refine lossGone_keeps K1 ?_
      | refine onPort_keeps K1 ?_
      | refine moved_keeps K2 ?_
      | refine presetPort_keeps K3 ?_
      | refine countMoved_keeps K ?_
      | refine keep_ite (P := P) ?_ ?_
    | exact rfl
    | split
    | (dsimp only)


theorem execSsiFrameEnd_keeps {P : State → Prop} (K : Keeps [.pkts, .integ, .axis, .plan, .gear, .loop, .ports, .bta, .stepper, .bricks] P) {port : Fin 32} {data : BitVec 64} {timeout : Bool} {s : State} (h : P s) :
    NextKeeps P (execSsiFrameEnd port data timeout s) := by
  have K1 := K.sub (as := [.ports]) rfl
  have K2 := K.sub (as := [.integ, .ports, .stepper]) rfl
  unfold execSsiFrameEnd
  try dsimp only
  repeat' first
    | with_reducible first
      | assumption
      | refine keep_next ?_
      | refine keep_ite_next ?_ ?_
      | refine onPort_keeps K1 ?_
      | refine ssiBadFrame_keeps K ?_
      | refine ssiGoodFrame_keeps K2 ?_
      | refine keep_ite (P := P) ?_ ?_
    | exact rfl
    | split
    | (dsimp only)


theorem execSincosSample_keeps {P : State → Prop} (K : Keeps [.pkts, .integ, .axis, .plan, .gear, .loop, .ports, .bta, .stepper, .bricks] P) {port : Fin 8} {sineCode : BitVec 14} {cosineCode : BitVec 14} {s : State} (h : P s) :
    NextKeeps P (execSincosSample port sineCode cosineCode s) := by
  have K1 := K.sub (as := [.ports]) rfl
  have K2 := K.sub (as := [.integ, .ports, .stepper]) rfl
  unfold execSincosSample
  try dsimp only
  repeat' first
    | with_reducible first
      | assumption
      | refine keep_next ?_
      | refine keep_ite_next ?_ ?_
      | refine onPort_keeps K1 ?_
      | refine lossPresent_keeps K ?_
      | refine lossGone_keeps K1 ?_
      | refine countMoved_keeps K2 ?_
      | refine unresolved_keeps K ?_
      | refine keep_ite (P := P) ?_ ?_
    | exact rfl
    | split
    | (dsimp only)


theorem execSpeedEvaluation_keeps {P : State → Prop} (K : Keeps [.ports] P) {port : Fin 32} {s : State} (h : P s) :
    NextKeeps P (execSpeedEvaluation port s) := by
  unfold execSpeedEvaluation
  try dsimp only
  repeat' first
    | with_reducible first
      | assumption
      | refine keep_next ?_
      | refine keep_ite_next ?_ ?_
      | refine evalSpeed_keeps K ?_
      | refine keep_ite (P := P) ?_ ?_
    | exact rfl
    | split
    | (dsimp only)


theorem execSpeedStandstillTimeout_keeps {P : State → Prop} (K : Keeps [.ports] P) {port : Fin 32} {s : State} (h : P s) :
    NextKeeps P (execSpeedStandstillTimeout port s) := by
  unfold execSpeedStandstillTimeout
  try dsimp only
  repeat' first
    | with_reducible first
      | assumption
      | refine keep_next ?_
      | refine keep_ite_next ?_ ?_
      | refine onPort_keeps K ?_
      | refine keep_ite (P := P) ?_ ?_
    | exact rfl
    | split
    | (dsimp only)


theorem execLineFault_keeps {P : State → Prop} (K : Keeps [.pkts, .integ, .axis, .plan, .gear, .loop, .ports, .bta, .stepper, .bricks] P) {port : Fin 32} {s : State} (h : P s) :
    NextKeeps P (execLineFault port s) := by
  unfold execLineFault
  try dsimp only
  repeat' first
    | with_reducible first
      | assumption
      | refine keep_next ?_
      | refine keep_ite_next ?_ ?_
      | refine lossPresent_keeps K ?_
      | refine keep_ite (P := P) ?_ ?_
    | exact rfl
    | split
    | (dsimp only)


theorem execHallIllegal_keeps {P : State → Prop} (K : Keeps [.pkts, .integ, .axis, .plan, .gear, .loop, .ports, .bta, .stepper, .bricks] P) {port : Fin 32} {s : State} (h : P s) :
    NextKeeps P (execHallIllegal port s) := by
  unfold execHallIllegal
  try dsimp only
  repeat' first
    | with_reducible first
      | assumption
      | refine keep_next ?_
      | refine keep_ite_next ?_ ?_
      | refine lossPresent_keeps K ?_
      | refine keep_ite (P := P) ?_ ?_
    | exact rfl
    | split
    | (dsimp only)


theorem execFreezeDetect_keeps {P : State → Prop} (K : Keeps [.pkts, .integ, .axis, .plan, .gear, .loop, .ports, .bta, .stepper, .bricks] P) {port : Fin 32} {s : State} (h : P s) :
    NextKeeps P (execFreezeDetect port s) := by
  unfold execFreezeDetect
  try dsimp only
  repeat' first
    | with_reducible first
      | assumption
      | refine keep_next ?_
      | refine keep_ite_next ?_ ?_
      | refine lossPresent_keeps K ?_
      | refine keep_ite (P := P) ?_ ?_
    | exact rfl
    | split
    | (dsimp only)


theorem execEncoderSupplyLimit_keeps {P : State → Prop} (K : Keeps [.pkts, .integ, .axis, .plan, .gear, .loop, .ports, .bta, .stepper, .bricks] P) {supply : Fin 8} {s : State} (h : P s) :
    NextKeeps P (execEncoderSupplyLimit supply s) := by
  unfold execEncoderSupplyLimit
  try dsimp only
  repeat' first
    | with_reducible first
      | assumption
      | refine keep_next ?_
      | refine lossPresent_keeps K ?_
      | refine keep_foldl (P := P) (fun _ _ _ => ?_) ?_
    | exact rfl
    | split
    | (dsimp only)


theorem execLossClear_keeps {P : State → Prop} (K : Keeps [.ports] P) {port : Fin 32} {s : State} (h : P s) :
    NextKeeps P (execLossClear port s) := by
  unfold execLossClear
  try dsimp only
  repeat' first
    | with_reducible first
      | assumption
      | refine keep_next ?_
      | refine keep_ite_next ?_ ?_
      | refine onPort_keeps K ?_
      | refine clearLoss_keeps K ?_
      | refine keep_ite (P := P) ?_ ?_
    | exact rfl
    | split
    | (dsimp only)


theorem execComparePulseEnd_keeps {P : State → Prop} (K : Keeps [.ports] P) {unit : Fin 16} {s : State} (h : P s) :
    NextKeeps P (execComparePulseEnd unit s) := by
  unfold execComparePulseEnd
  try dsimp only
  repeat' first
    | with_reducible first
      | assumption
      | refine keep_next ?_
      | refine keep_ite_next ?_ ?_
      | refine onCmp_keeps K ?_
      | refine keep_ite (P := P) ?_ ?_
    | exact rfl
    | split
    | (dsimp only)


theorem execLatchEvent_keeps {P : State → Prop} (K : Keeps [.ports] P) {pin : Option (Fin 16)} {rise : Bool} {s : State} (h : P s) :
    NextKeeps P (execLatchEvent pin rise s) := by
  unfold execLatchEvent
  try dsimp only
  repeat' first
    | with_reducible first
      | assumption
      | refine keep_next ?_
      | refine keep_ite_next ?_ ?_
      | refine K.onPorts rfl _ _ ?_
      | refine keep_ite (P := P) ?_ ?_
    | exact rfl
    | split
    | (dsimp only)


theorem execLatchCapture_keeps {P : State → Prop} (K : Keeps [.integ, .ports, .lanes] P) {unit : Fin 16} {s : State} (h : P s) :
    NextKeeps P (execLatchCapture unit s) := by
  have K1 := K.sub (as := [.ports]) rfl
  have K2 := K.sub (as := [.integ, .lanes]) rfl
  unfold execLatchCapture
  try dsimp only
  repeat' first
    | with_reducible first
      | assumption
      | refine keep_next ?_
      | refine keep_ite_next ?_ ?_
      | refine onLatch_keeps K1 ?_
      | refine occurs_keeps K2 ?_
      | refine keep_ite (P := P) ?_ ?_
    | exact rfl
    | split
    | (dsimp only)


theorem execSnapshotCapture_keeps {P : State → Prop} (K : Keeps [.integ, .ports] P) {s : State} (h : P s) :
    NextKeeps P (execSnapshotCapture s) := by
  have K1 := K.sub (as := [.ports]) rfl
  have K2 := K.sub (as := [.integ]) rfl
  unfold execSnapshotCapture
  try dsimp only
  repeat' first
    | with_reducible first
      | assumption
      | refine keep_next ?_
      | refine keep_ite_next ?_ ?_
      | refine onSnap_keeps K1 ?_
      | refine event_keeps K2 ?_
      | refine keep_ite (P := P) ?_ ?_
    | exact rfl
    | split
    | (dsimp only)


end Sys2Proof.Machine
end

