-- ==== Sys2Proof/Laws/KeepRegisters.lean ====
section
/-! SUPPORT.
What each function of Machine/Registers.lean keeps. -/

namespace Sys2Proof.Machine

theorem execIndDataRead_keeps {P : State → Prop} (K : Keeps [.sys, .pkts, .integ, .axis, .plan, .gear, .loop, .ports, .bta, .stepper, .bricks, .net, .fio, .can, .serial, .acq, .lanes, .sram, .dev, .ctx, .free] P) {ctx : Fin 6} {s : State} (h : P s) :
    NextKeeps P (execIndDataRead ctx s) := by
  unfold execIndDataRead
  try dsimp only
  repeat' first
    | with_reducible first
      | assumption
      | refine keep_next ?_
      | refine accessRead_keeps K ?_
    | exact rfl
    | split
    | (dsimp only)


theorem execIndDataWrite_keeps {P : State → Prop} (K : Keeps [.sys, .pkts, .integ, .axis, .plan, .gear, .loop, .ports, .bta, .stepper, .bricks, .net, .fio, .can, .serial, .acq, .lanes, .sram, .dev, .ctx, .free] P) {ctx : Fin 6} {value : Sys2Proof.Word} {s : State} (h : P s) :
    NextKeeps P (execIndDataWrite ctx value s) := by
  unfold execIndDataWrite
  try dsimp only
  repeat' first
    | with_reducible first
      | assumption
      | refine keep_next ?_
      | refine accessWrite_keeps K ?_
    | exact rfl
    | split
    | (dsimp only)


theorem execIndAddrWrite_keeps {P : State → Prop} (K : Keeps [.sys, .pkts, .integ, .axis, .plan, .gear, .loop, .ports, .bta, .stepper, .bricks, .net, .fio, .can, .serial, .acq, .lanes, .sram, .dev, .ctx, .free] P) {ctx : Fin 6} {value : Sys2Proof.Word} {s : State} (h : P s) :
    NextKeeps P (execIndAddrWrite ctx value s) := by
  unfold execIndAddrWrite
  try dsimp only
  repeat' first
    | with_reducible first
      | assumption
      | refine keep_next ?_
      | refine accessWrite_keeps K ?_
    | exact rfl
    | split
    | (dsimp only)


theorem execIndCtrlWrite_keeps {P : State → Prop} (K : Keeps [.sys, .pkts, .integ, .axis, .plan, .gear, .loop, .ports, .bta, .stepper, .bricks, .net, .fio, .can, .serial, .acq, .lanes, .sram, .dev, .ctx, .free] P) {ctx : Fin 6} {value : Sys2Proof.Word} {s : State} (h : P s) :
    NextKeeps P (execIndCtrlWrite ctx value s) := by
  unfold execIndCtrlWrite
  try dsimp only
  repeat' first
    | with_reducible first
      | assumption
      | refine keep_next ?_
      | refine accessWrite_keeps K ?_
    | exact rfl
    | split
    | (dsimp only)


theorem execIndAccessTimeout_keeps {P : State → Prop} (K : Keeps [.sys, .pkts, .integ, .axis, .plan, .gear, .loop, .ports, .bta, .stepper, .bricks, .net, .fio, .can, .serial, .acq, .lanes, .sram, .dev, .ctx, .free] P) {ctx : Fin 6} {s : State} (h : P s) :
    NextKeeps P (execIndAccessTimeout ctx s) := by
  have K1 := K.sub (as := [.serial, .ctx]) rfl
  have K2 := K.sub (as := [.ctx]) rfl
  unfold execIndAccessTimeout
  try dsimp only
  repeat' first
    | with_reducible first
      | assumption
      | refine keep_next ?_
      | refine keep_ite_next ?_ ?_
      | refine indResume_keeps K ?_
      | refine resumeOne_keeps K1 ?_
      | refine indTimeout_keeps K2 ?_
      | refine keep_ite (P := P) ?_ ?_
    | exact rfl
    | split
    | (dsimp only)


theorem execUpdStrobeWrite_keeps {P : State → Prop} (K : Keeps [.sys, .pkts, .integ, .axis, .plan, .gear, .loop, .ports, .bta, .stepper, .bricks, .net, .fio, .can, .serial, .acq, .lanes, .sram, .dev, .ctx, .free] P) {ctx : Fin 6} {value : Sys2Proof.Word} {s : State} (h : P s) :
    NextKeeps P (execUpdStrobeWrite ctx value s) := by
  unfold execUpdStrobeWrite
  try dsimp only
  repeat' first
    | with_reducible first
      | assumption
      | refine keep_next ?_
      | refine accessWrite_keeps K ?_
    | exact rfl
    | split
    | (dsimp only)


theorem execWideLowRead_keeps {P : State → Prop} (K : Keeps [.sys, .pkts, .integ, .axis, .plan, .gear, .loop, .ports, .bta, .stepper, .bricks, .net, .fio, .can, .serial, .acq, .lanes, .sram, .dev, .ctx, .free] P) {ctx : Fin 6} {addr : Nat} {s : State} (h : P s) :
    NextKeeps P (execWideLowRead ctx addr s) := by
  unfold execWideLowRead
  try dsimp only
  repeat' first
    | with_reducible first
      | assumption
      | refine keep_next ?_
      | refine accessRead_keeps K ?_
    | exact rfl
    | split
    | (dsimp only)


theorem execWideHighRead_keeps {P : State → Prop} (K : Keeps [.sys, .pkts, .integ, .axis, .plan, .gear, .loop, .ports, .bta, .stepper, .bricks, .net, .fio, .can, .serial, .acq, .lanes, .sram, .dev, .ctx, .free] P) {ctx : Fin 6} {addr : Nat} {s : State} (h : P s) :
    NextKeeps P (execWideHighRead ctx addr s) := by
  unfold execWideHighRead
  try dsimp only
  repeat' first
    | with_reducible first
      | assumption
      | refine keep_next ?_
      | refine accessRead_keeps K ?_
    | exact rfl
    | split
    | (dsimp only)


theorem execWideLowWrite_keeps {P : State → Prop} (K : Keeps [.sys, .pkts, .integ, .axis, .plan, .gear, .loop, .ports, .bta, .stepper, .bricks, .net, .fio, .can, .serial, .acq, .lanes, .sram, .dev, .ctx, .free] P) {ctx : Fin 6} {addr : Nat} {value : Sys2Proof.Word} {s : State} (h : P s) :
    NextKeeps P (execWideLowWrite ctx addr value s) := by
  unfold execWideLowWrite
  try dsimp only
  repeat' first
    | with_reducible first
      | assumption
      | refine keep_next ?_
      | refine accessWrite_keeps K ?_
    | exact rfl
    | split
    | (dsimp only)


theorem execWideHighWrite_keeps {P : State → Prop} (K : Keeps [.sys, .pkts, .integ, .axis, .plan, .gear, .loop, .ports, .bta, .stepper, .bricks, .net, .fio, .can, .serial, .acq, .lanes, .sram, .dev, .ctx, .free] P) {ctx : Fin 6} {addr : Nat} {value : Sys2Proof.Word} {s : State} (h : P s) :
    NextKeeps P (execWideHighWrite ctx addr value s) := by
  unfold execWideHighWrite
  try dsimp only
  repeat' first
    | with_reducible first
      | assumption
      | refine keep_next ?_
      | refine accessWrite_keeps K ?_
    | exact rfl
    | split
    | (dsimp only)


theorem execRcRegisterRead_keeps {P : State → Prop} (K : Keeps [.sys, .pkts, .integ, .axis, .plan, .gear, .loop, .ports, .bta, .stepper, .bricks, .net, .fio, .can, .serial, .acq, .lanes, .sram, .dev, .ctx, .free] P) {ctx : Fin 6} {addr : Nat} {bytes : Nat} {s : State} (h : P s) :
    NextKeeps P (execRcRegisterRead ctx addr bytes s) := by
  unfold execRcRegisterRead
  try dsimp only
  repeat' first
    | with_reducible first
      | assumption
      | refine keep_next ?_
      | refine accessRead_keeps K ?_
    | exact rfl
    | split
    | (dsimp only)


theorem execRegisterWrite_keeps {P : State → Prop} (K : Keeps [.sys, .pkts, .integ, .axis, .plan, .gear, .loop, .ports, .bta, .stepper, .bricks, .net, .fio, .can, .serial, .acq, .lanes, .sram, .dev, .ctx, .free] P) {ctx : Fin 6} {addr : Nat} {bytes : Nat} {value : Sys2Proof.Word} {s : State} (h : P s) :
    NextKeeps P (execRegisterWrite ctx addr bytes value s) := by
  unfold execRegisterWrite
  try dsimp only
  repeat' first
    | with_reducible first
      | assumption
      | refine keep_next ?_
      | refine accessWrite_keeps K ?_
    | exact rfl
    | split
    | (dsimp only)


theorem execGrpSealWrite_keeps {P : State → Prop} (K : Keeps [.sys, .pkts, .integ, .axis, .plan, .gear, .loop, .ports, .bta, .stepper, .bricks, .net, .fio, .can, .serial, .acq, .lanes, .sram, .dev, .ctx, .free] P) {ctx : Fin 6} {group : Fin 32} {value : Sys2Proof.Word} {s : State} (h : P s) :
    NextKeeps P (execGrpSealWrite ctx group value s) := by
  unfold execGrpSealWrite
  try dsimp only
  repeat' first
    | with_reducible first
      | assumption
      | refine keep_next ?_
      | refine accessWrite_keeps K ?_
    | exact rfl
    | split
    | (dsimp only)


theorem execLegCmpbSealWrite_keeps {P : State → Prop} (K : Keeps [.sys, .pkts, .integ, .axis, .plan, .gear, .loop, .ports, .bta, .stepper, .bricks, .net, .fio, .can, .serial, .acq, .lanes, .sram, .dev, .ctx, .free] P) {ctx : Fin 6} {group : Fin 32} {value : Sys2Proof.Word} {s : State} (h : P s) :
    NextKeeps P (execLegCmpbSealWrite ctx group value s) := by
  unfold execLegCmpbSealWrite
  try dsimp only
  repeat' first
    | with_reducible first
      | assumption
      | refine keep_next ?_
      | refine accessWrite_keeps K ?_
    | exact rfl
    | split
    | (dsimp only)


theorem execLegDutyWrite_keeps {P : State → Prop} (K : Keeps [.sys, .pkts, .integ, .axis, .plan, .gear, .loop, .ports, .bta, .stepper, .bricks, .net, .fio, .can, .serial, .acq, .lanes, .sram, .dev, .ctx, .free] P) {ctx : Fin 6} {leg : Fin 96} {value : Sys2Proof.Word} {s : State} (h : P s) :
    NextKeeps P (execLegDutyWrite ctx leg value s) := by
  unfold execLegDutyWrite
  try dsimp only
  repeat' first
    | with_reducible first
      | assumption
      | refine keep_next ?_
      | refine accessWrite_keeps K ?_
    | exact rfl
    | split
    | (dsimp only)


theorem execGrpTripClear_keeps {P : State → Prop} (K : Keeps [.sys, .pkts, .integ, .axis, .plan, .gear, .loop, .ports, .bta, .stepper, .bricks, .net, .fio, .can, .serial, .acq, .lanes, .sram, .dev, .ctx, .free] P) {ctx : Fin 6} {group : Fin 32} {s : State} (h : P s) :
    NextKeeps P (execGrpTripClear ctx group s) := by
  unfold execGrpTripClear
  try dsimp only
  repeat' first
    | with_reducible first
      | assumption
      | refine keep_next ?_
      | refine accessWrite_keeps K ?_
    | exact rfl
    | split
    | (dsimp only)


theorem execFioDoWrite_keeps {P : State → Prop} (K : Keeps [.sys, .pkts, .integ, .axis, .plan, .gear, .loop, .ports, .bta, .stepper, .bricks, .net, .fio, .can, .serial, .acq, .lanes, .sram, .dev, .ctx, .free] P) {ctx : Fin 6} {group : Fin 4} {cmd : BitVec 4} {s : State} (h : P s) :
    NextKeeps P (execFioDoWrite ctx group cmd s) := by
  unfold execFioDoWrite
  try dsimp only
  repeat' first
    | with_reducible first
      | assumption
      | refine keep_next ?_
      | refine keep_ite_next ?_ ?_
      | refine indAccess_keeps K ?_
      | refine keep_ite (P := P) ?_ ?_
    | exact rfl
    | split
    | (dsimp only)


theorem execXipRead_keeps {P : State → Prop} (K : Keeps [.sys, .pkts, .integ, .axis, .plan, .gear, .loop, .ports, .bta, .stepper, .bricks, .net, .fio, .can, .serial, .acq, .lanes, .sram, .dev, .ctx, .free] P) {ctx : Fin 6} {addr : Nat} {s : State} (h : P s) :
    NextKeeps P (execXipRead ctx addr s) := by
  unfold execXipRead
  try dsimp only
  repeat' first
    | with_reducible first
      | assumption
      | refine keep_next ?_
      | refine accessRead_keeps K ?_
    | exact rfl
    | split
    | (dsimp only)


theorem execXipWrite_keeps {P : State → Prop} (K : Keeps [.sys, .pkts, .integ, .axis, .plan, .gear, .loop, .ports, .bta, .stepper, .bricks, .net, .fio, .can, .serial, .acq, .lanes, .sram, .dev, .ctx, .free] P) {ctx : Fin 6} {addr : Nat} {value : Sys2Proof.Word} {s : State} (h : P s) :
    NextKeeps P (execXipWrite ctx addr value s) := by
  unfold execXipWrite
  try dsimp only
  repeat' first
    | with_reducible first
      | assumption
      | refine keep_next ?_
      | refine accessWrite_keeps K ?_
    | exact rfl
    | split
    | (dsimp only)


theorem execXipReadTimeout_keeps {P : State → Prop} (K : Keeps [.sys, .pkts, .integ, .axis, .plan, .gear, .loop, .ports, .bta, .stepper, .bricks, .net, .fio, .can, .serial, .acq, .lanes, .sram, .dev, .ctx, .free] P) {ctx : Fin 6} {s : State} (h : P s) :
    NextKeeps P (execXipReadTimeout ctx s) := by
  have K1 := K.sub (as := [.serial, .ctx]) rfl
  unfold execXipReadTimeout
  try dsimp only
  repeat' first
    | with_reducible first
      | assumption
      | refine keep_next ?_
      | refine keep_ite_next ?_ ?_
      | refine indResume_keeps K ?_
      | refine windowTimeout_keeps K1 ?_
      | refine keep_ite (P := P) ?_ ?_
    | exact rfl
    | split
    | (dsimp only)


theorem execSpmBufferTimeout_keeps {P : State → Prop} (K : Keeps [.serial] P) {sel : Fin 4} {s : State} (h : P s) :
    NextKeeps P (execSpmBufferTimeout sel s) := by
  unfold execSpmBufferTimeout
  try dsimp only
  repeat' first
    | with_reducible first
      | assumption
      | refine keep_next ?_
      | refine keep_ite_next ?_ ?_
      | refine flushPage_keeps K ?_
      | refine keep_ite (P := P) ?_ ?_
    | exact rfl
    | split
    | (dsimp only)


theorem execSpmStatusPoll_keeps {P : State → Prop} (K : Keeps [.sys, .pkts, .integ, .axis, .plan, .gear, .loop, .ports, .bta, .stepper, .bricks, .net, .fio, .can, .serial, .acq, .lanes, .sram, .flash, .dev, .ctx, .free] P) {sel : Fin 4} {busy : Bool} {s : State} (h : P s) :
    NextKeeps P (execSpmStatusPoll sel busy s) := by
  have K1 := K.sub (as := [.serial]) rfl
  have K2 := K.sub (as := [.sys, .pkts, .integ, .axis, .plan, .gear, .loop, .ports, .bta, .stepper, .bricks, .net, .fio, .can, .serial, .acq, .lanes, .sram, .dev, .ctx, .free]) rfl
  have K3 := K.sub (as := [.pkts, .integ, .serial, .flash, .ctx]) rfl
  unfold execSpmStatusPoll
  try dsimp only
  repeat' first
    | with_reducible first
      | assumption
      | refine keep_next ?_
      | refine keep_ite_next ?_ ?_
      | refine onSpm_keeps K1 ?_ ?_
      | refine indResumeAll_keeps K2 ?_
      | refine deviceIdle_keeps K3 ?_
      | refine keep_ite (P := P) ?_ ?_
    | exact rfl
    | split
    | (dsimp only)


theorem execSpmOpTimeout_keeps {P : State → Prop} (K : Keeps [.sys, .pkts, .integ, .axis, .plan, .gear, .loop, .ports, .bta, .stepper, .bricks, .net, .fio, .can, .serial, .acq, .lanes, .sram, .flash, .dev, .ctx, .free] P) {sel : Fin 4} {s : State} (h : P s) :
    NextKeeps P (execSpmOpTimeout sel s) := by
  have K1 := K.sub (as := [.sys, .pkts, .integ, .axis, .plan, .gear, .loop, .ports, .bta, .stepper, .bricks, .net, .fio, .can, .serial, .acq, .lanes, .sram, .dev, .ctx, .free]) rfl
  have K2 := K.sub (as := [.pkts, .integ, .serial, .flash, .ctx, .free]) rfl
  unfold execSpmOpTimeout
  try dsimp only
  repeat' first
    | with_reducible first
      | assumption
      | refine keep_next ?_
      | refine keep_ite_next ?_ ?_
      | refine indResumeAll_keeps K1 ?_
      | refine failOperation_keeps K2 ?_
      | refine keep_ite (P := P) ?_ ?_
    | exact rfl
    | split
    | (dsimp only)


end Sys2Proof.Machine
end

