-- ==== Sys2Proof/Laws/KeepStartup.lean ====
section
/-! SUPPORT.
What each function of Machine/Startup.lean keeps. -/

namespace Sys2Proof.Machine

theorem haltStartup_keeps {P : State → Prop} (K : Keeps [.sys, .boot] P) {cause : Nat} {s : State} (h : P s) :
    P (haltStartup cause s) := by
  unfold haltStartup
  try dsimp only
  repeat' first
    | with_reducible first
      | assumption
      | refine K.onSys rfl _ _ rfl rfl rfl ?_
      | refine K.onBoot rfl _ _ ?_
    | exact rfl
    | (dsimp only)


theorem numberFaults_length (n : Nat) (l : List FaultEntry) : (numberFaults n l).1.length = l.length := by
  induction l generalizing n with
  | nil => rfl
  | cons e l ih =>
    simp only [numberFaults]
    split <;> simp [ih]

theorem settleFaults_keeps {P : State → Prop} (K : Keeps [.integ] P) {s : State} (h : P s) : P (settleFaults s) :=
  K.onInteg rfl _ _ (fun hx => ⟨hx.1, by simpa [copyFaults, numberFaults_length] using hx.2.1, hx.2.2⟩) rfl h


theorem keeperDuties_keeps {P : State → Prop} (K : Keeps [.sys, .power, .pkts, .integ, .axis, .plan, .gear, .loop, .ports, .bta, .stepper, .bricks, .net, .fio, .can, .serial, .acq, .free] P) {s : State} (h : P s) :
    P (keeperDuties s) := by
  have K1 := K.sub (as := [.power, .loop, .bta]) rfl
  have K2 := K.sub (as := [.sys, .power, .pkts, .integ, .axis, .plan, .gear, .loop, .ports, .bta, .stepper, .bricks, .net, .fio, .can, .serial, .acq]) rfl
  have K3 := K.sub (as := [.integ, .acq, .free]) rfl
  have K4 := K.sub (as := [.integ]) rfl
  have K5 := K.sub (as := [.power, .loop, .bta, .acq]) rfl
  unfold keeperDuties
  try dsimp only
  repeat' first
    | with_reducible first
      | assumption
      | refine setBanded_keeps K1 ?_
      | refine loadConfig_keeps K2 ?_
      | refine calibrate_keeps K3 ?_
      | refine calibrate_out K3 ?_ ‹_›
      | refine scrubPass_keeps K4 ?_
      | refine settleFaults_keeps K4 ?_
      | refine armNow_keeps K5 ?_
      | refine keep_ite (P := P) ?_ ?_
    | exact rfl
    | split
    | (dsimp only)


theorem chooseNow_keeps {P : State → Prop} (K : Keeps [.sys, .boot, .serial, .flash] P) {kind : Nat} {s : State} (h : P s) :
    P (chooseNow kind s) := by
  have K1 := K.sub (as := [.flash]) rfl
  unfold chooseNow
  exact K.onSys rfl _ _ rfl rfl rfl (K.onBoot rfl _ _ (onFlash_keeps (K.sub rfl) (fun hx => chooseSlot_wf hx) h))


theorem keeperVerify_keeps {P : State → Prop} (K : Keeps [.sys, .boot, .serial, .flash, .free] P) {s : State} (h : P s) :
    P (keeperVerify s) := by
  have K1 := K.sub (as := [.sys, .boot, .serial, .flash]) rfl
  have K2 := K.sub (as := [.free]) rfl
  unfold keeperVerify
  exact chooseNow_keeps (K.sub rfl) (onSpm_keeps (K.sub rfl) (p := 0)
    (f := fun d => { d with profile := some (bootProfile d s.sys.free) }) rfl (fresh_keeps (K.sub rfl) h))


theorem verifyBegins_keeps {P : State → Prop} (K : Keeps [.sys, .boot, .serial, .flash, .free] P) {s : State} (h : P s) :
    P (verifyBegins s) := by
  have K1 := K.sub (as := [.free]) rfl
  have K2 := K.sub (as := [.sys, .boot, .serial, .flash]) rfl
  unfold verifyBegins
  try dsimp only
  repeat' first
    | with_reducible first
      | assumption
      | refine freshBool_keeps K1 ?_
      | refine freshBool_out K1 ?_ ‹_›
      | refine keeperVerify_keeps K ?_
      | refine chooseNow_keeps K2 ?_
      | refine keep_ite (P := P) ?_ ?_
    | exact rfl
    | split
    | (dsimp only)


theorem execKeeperStart_keeps {P : State → Prop} (K : Keeps [.sys, .power, .boot, .pkts, .integ, .axis, .plan, .gear, .loop, .ports, .bta, .stepper, .bricks, .net, .fio, .can, .serial, .acq, .sram, .flash, .free] P) {s : State} (h : P s) :
    NextKeeps P (execKeeperStart s) := by
  have K1 := K.sub (as := [.sys, .boot]) rfl
  have K2 := K.sub (as := [.sys, .boot, .serial, .flash, .free]) rfl
  have K3 := K.sub (as := [.sys, .power, .pkts, .integ, .axis, .plan, .gear, .loop, .ports, .bta, .stepper, .bricks, .net, .fio, .can, .serial, .acq, .free]) rfl
  have K4 := K.sub (as := [.integ, .sram]) rfl
  unfold execKeeperStart
  refine keep_ite_next (keep_next h) ?_
  split
  · exact keep_next (haltStartup_keeps (K.sub rfl) h)
  · have h1 : P (if s.sys.phase = 0 then keeperVerify s else s) := keep_ite (P := P) (keeperVerify_keeps (K.sub rfl) h) h
    dsimp only
    split
    · exact keep_next (haltStartup_keeps (K.sub rfl) h1)
    · exact keep_next (keeperDuties_keeps (K.sub rfl) (K.onSys rfl _ _ rfl rfl rfl
        (copyPayload_keeps (K.sub rfl) (K.onBoot rfl _ _ h1))))


theorem gardenerRuns_keeps {P : State → Prop} (K : Keeps [.sys, .boot] P) {s : State} (h : P s) :
    P (gardenerRuns s) := by
  unfold gardenerRuns
  try dsimp only
  repeat' first
    | with_reducible first
      | assumption
      | refine K.onSys rfl _ _ rfl rfl rfl ?_
      | refine K.onBoot rfl _ _ ?_
    | exact rfl
    | (dsimp only)


theorem recoverAfter_keeps {P : State → Prop} (K : Keeps [.sys, .boot, .pkts, .integ, .axis, .plan, .gear, .loop, .bta, .stepper, .bricks, .dev] P) {s : State} (h : P s) :
    P (recoverAfter s) := by
  have K1 := K.sub (as := [.sys, .pkts, .integ, .axis, .plan, .gear, .loop, .bta, .stepper, .bricks, .dev]) rfl
  unfold recoverAfter
  try dsimp only
  repeat' first
    | with_reducible first
      | assumption
      | refine enterRecovery_keeps K1 ?_
      | refine K.onBoot rfl _ _ ?_
      | refine keep_ite (P := P) ?_ ?_
    | exact rfl
    | split
    | (dsimp only)


theorem execGardenerStart_keeps {P : State → Prop} (K : Keeps [.sys, .power, .boot, .pkts, .integ, .axis, .plan, .gear, .loop, .ports, .bta, .stepper, .bricks, .net, .lodge, .fio, .can, .serial, .acq, .lanes, .store, .sram, .flash, .ldata, .dev, .free] P) {s : State} (h : P s) :
    NextKeeps P (execGardenerStart s) := by
  have K1 := K.sub (as := [.integ]) rfl
  have K2 := K.sub (as := [.integ, .sram]) rfl
  have K3 := K.sub (as := opBlocks) rfl
  have K4 := K.sub (as := [.sys, .boot, .pkts, .integ, .axis, .plan, .gear, .loop, .bta, .stepper, .bricks, .dev]) rfl
  have K5 := K.sub (as := [.sys, .boot]) rfl
  have K6 := K.sub (as := [.sys, .boot, .serial, .flash]) rfl
  unfold execGardenerStart
  have hc : P (clearPoison 0x400000 0x800000 s) := clearPoison_keeps (K.sub rfl) h
  refine keep_ite_next (keep_next (takeHeldUdp_keeps (K.sub rfl) (recoverAfter_keeps (K.sub rfl) (gardenerRuns_keeps (K.sub rfl)
    (keep_ite (P := P) (copyPayload_keeps (K.sub rfl) hc) hc))))) ?_
  refine keep_ite_next (keep_next h) ?_
  have h1 : P (if s.sys.phase = 2 then chooseNow 2 s else s) := keep_ite (P := P) (chooseNow_keeps (K.sub rfl) h) h
  dsimp only
  split
  · exact keep_next (haltStartup_keeps (K.sub rfl) h1)
  · exact keep_next (gardenerRuns_keeps (K.sub rfl) (clearPoison_keeps (K.sub rfl) (copyPayload_keeps (K.sub rfl) (K.onBoot rfl _ _ h1))))


theorem reloadLane_keeps {P : State → Prop} (K : Keeps [.integ, .lanes, .ldata] P) {c : Saved} {l : Fin 8} {s : State} (h : P s) :
    P (reloadLane c s l) := by
  unfold reloadLane
  try dsimp only
  repeat' first
    | with_reducible first
      | assumption
      | refine loadPlug_keeps K ?_ _ ‹_›
    | exact rfl
    | split
    | (dsimp only)


theorem reloadThread_keeps {P : State → Prop} (K : Keeps [.lanes] P) {c : Saved} {t : Fin 512} {s : State} (h : P s) :
    P (reloadThread c s t) := by
  unfold reloadThread
  try dsimp only
  repeat' first
    | with_reducible first
      | assumption
      | refine onThr_keeps K ?_
      | refine startWaiting_keeps K ?_
      | refine keep_ite (P := P) ?_ ?_
    | exact rfl
    | split
    | (dsimp only)


theorem reloadTimer_keeps {P : State → Prop} (K : Keeps [.lanes] P) {c : Saved} {k : Fin 16} {s : State} (h : P s) :
    P (reloadTimer c s k) := by
  unfold reloadTimer
  try dsimp only
  repeat' first
    | with_reducible first
      | assumption
      | refine K.onLanes rfl _ _ (fun _ => ?_) ?_
      | refine keep_ite (P := P) ?_ ?_
    | exact rfl
    | split
    | (dsimp only)


theorem reloadLanes_keeps {P : State → Prop} (K : Keeps [.integ, .lanes, .ldata] P) {c : Saved} {s : State} (h : P s) :
    P (reloadLanes c s) := by
  have K1 := K.sub (as := [.lanes]) rfl
  have K1 := K.sub (as := [.lanes]) rfl
  have h1 : ∀ (l : List (Fin 8)), P (l.foldl (reloadLane c) s) := fun l =>
    keep_foldl (P := P) (fun _ _ ht => reloadLane_keeps K ht) h
  have h2 : ∀ (l : List (Fin 512)) t, P t → P (l.foldl (reloadThread c) t) := fun l t ht =>
    keep_foldl (P := P) (fun _ _ ht => reloadThread_keeps K1 ht) ht
  have h3 : ∀ (l : List (Fin 16)) t, P t → P (l.foldl (reloadTimer c) t) := fun l t ht =>
    keep_foldl (P := P) (fun _ _ ht => reloadTimer_keeps K1 ht) ht
  unfold reloadLanes
  dsimp only
  have K2 := K.sub (as := [.lanes]) rfl
  with_reducible refine K2.onLanes rfl _ _ ?_ (h3 _ _ (h2 _ _ (h1 _)))
  exact fun _ => rfl


theorem execGardenerReady_keeps {P : State → Prop} (K : Keeps [.sys, .power, .integ, .loop, .bta, .lanes, .ldata, .dev] P) {s : State} (h : P s) :
    NextKeeps P (execGardenerReady s) := by
  have K1 := K.sub (as := [.power, .loop, .bta]) rfl
  have K2 := K.sub (as := [.integ, .lanes, .ldata]) rfl
  unfold execGardenerReady
  try dsimp only
  repeat' first
    | with_reducible first
      | assumption
      | refine keep_next ?_
      | refine keep_ite_next ?_ ?_
      | refine reselect_keeps K1 ?_
      | refine reloadLanes_keeps K2 ?_
      | refine K.onDev rfl _ _ rfl rfl ?_
      | refine keep_ite (P := P) ?_ ?_
    | exact rfl
    | split
    | (dsimp only)


theorem execAutostart_keeps {P : State → Prop} (K : Keeps [.sys, .pkts, .integ, .axis, .plan, .gear, .loop, .bta, .stepper, .bricks, .dev] P) {s : State} (h : P s) :
    NextKeeps P (execAutostart s) := by
  unfold execAutostart
  try dsimp only
  repeat' first
    | with_reducible first
      | assumption
      | refine keep_next ?_
      | refine keep_ite_next ?_ ?_
      | refine setDevice_keeps K ?_
      | refine K.onSys rfl _ _ rfl rfl rfl ?_
      | refine keep_ite (P := P) ?_ ?_
    | exact rfl
    | split
    | (dsimp only)


theorem leaveRest_keeps {P : State → Prop} (K : Keeps [.pkts, .integ, .axis, .plan, .gear, .loop, .bta, .stepper, .bricks, .net, .fio, .lanes] P) {s : State} (h : P s) :
    P (leaveRest s) := by
  have K1 := K.sub (as := [.pkts]) rfl
  unfold leaveRest
  try dsimp only
  repeat' first
    | with_reducible first
      | assumption
      | refine changeBases_keeps K ?_
      | refine lateCommands_keeps K1 ?_
    | exact rfl
    | (dsimp only)


theorem execWakeComplete_keeps {P : State → Prop} (K : Keeps everyBlock P) {s : State} (h : P s) :
    NextKeeps P (execWakeComplete s) := by
  have K1 := K.sub (as := [.pkts, .integ, .axis, .plan, .gear, .loop, .bta, .stepper, .bricks, .net, .fio, .lanes]) rfl
  have K2 := K.sub (as := [.bta]) rfl
  have K3 := K.sub (as := opBlocks) rfl
  have K4 := K.sub (as := [.sys, .pkts, .integ, .axis, .plan, .gear, .loop, .ports, .bta, .stepper, .bricks, .net, .fio, .can, .serial, .acq, .lanes, .sram, .dev, .ctx, .free]) rfl
  have K5 := K.sub (as := [.lanes]) rfl
  unfold execWakeComplete
  try dsimp only
  repeat' first
    | with_reducible first
      | assumption
      | refine keep_next ?_
      | refine keep_ite_next ?_ ?_
      | refine leaveRest_keeps K1 ?_
      | refine startGroup_keeps K2 ?_
      | refine takeHeldUdp_keeps K3 ?_
      | refine commitHeld_keeps K4 ?_
      | refine refreshAll_keeps K2 ?_
      | refine skipSlept_keeps K5 ?_
      | refine K.onPower rfl _ _ ?_
      | refine keep_ite (P := P) ?_ ?_
      | refine keep_foldl (P := P) (fun _ _ _ => ?_) ?_
    | exact rfl
    | split
    | (dsimp only)


end Sys2Proof.Machine
end

