-- ==== Sys2Proof/Laws/KeepExec.lean ====
section
/-! SUPPORT.
What a command keeps: every property that changes to its blocks keep. -/

namespace Sys2Proof.Machine

/-- A command answers next, and keeps what changes to its blocks keep. -/
theorem exec_keeps {P : State → Prop} (c : Instr) (K : Keeps (changes c) P) {s : State} (h : P s) : NextKeeps P (exec c s) := by
  cases c with
  | ruhityDatagram => exact execRuhityDatagram_keeps (K.sub rfl) h
  | inboxTake => exact execInboxTake_keeps (K.sub rfl) h
  | broadcastReply => exact execBroadcastReply_keeps (K.sub rfl) h
  | authLockoutEnd => exact execAuthLockoutEnd_keeps (K.sub rfl) h
  | pendingCommit => exact execPendingCommit_keeps (K.sub rfl) h
  | deferredEffect => exact execDeferredEffect_keeps (K.sub rfl) h
  | resetEntry => exact execResetEntry_keeps (K.sub rfl) h
  | imageSessionTimeout => exact execImageSessionTimeout_keeps (K.sub rfl) h
  | ping => exact execPing_keeps (K.sub rfl) h
  | getInfo => exact execGetInfo_keeps (K.sub rfl) h
  | cancel => exact execCancel_keeps (K.sub rfl) h
  | setLatencyTolerance => exact execSetLatencyTolerance_keeps (K.sub rfl) h
  | getOperatingPoint => exact execGetOperatingPoint_keeps (K.sub rfl) h
  | setWakeTimer => exact execSetWakeTimer_keeps (K.sub rfl) h
  | identityRead => exact execIdentityRead_keeps (K.sub rfl) h
  | imageBegin => exact execImageBegin_keeps (K.sub rfl) h
  | imageData => exact execImageData_keeps (K.sub rfl) h
  | imageCommit => exact execImageCommit_keeps (K.sub rfl) h
  | imageActivate => exact execImageActivate_keeps (K.sub rfl) h
  | imageConfirm => exact execImageConfirm_keeps (K.sub rfl) h
  | imageRollback => exact execImageRollback_keeps (K.sub rfl) h
  | setState => exact execSetState_keeps (K.sub rfl) h
  | reset => exact execReset_keeps (K.sub rfl) h
  | configSave => exact execConfigSave_keeps (K.sub rfl) h
  | authKeySet => exact execAuthKeySet_keeps (K.sub rfl) h
  | authPolicySet => exact execAuthPolicySet_keeps (K.sub rfl) h
  | cyclicMapDefine => exact execCyclicMapDefine_keeps (K.sub rfl) h
  | cyclicMapEnable => exact execCyclicMapEnable_keeps (K.sub rfl) h
  | cyclicMapStatus => exact execCyclicMapStatus_keeps (K.sub rfl) h
  | axisBind => exact execAxisBind_keeps (K.sub rfl) h
  | axisSetMode => exact execAxisSetMode_keeps (K.sub rfl) h
  | axisEnable => exact execAxisEnable_keeps (K.sub rfl) h
  | axisDisable => exact execAxisDisable_keeps (K.sub rfl) h
  | axisStatus => exact execAxisStatus_keeps (K.sub rfl) h
  | moveAbs => exact execMoveAbs_keeps (K.sub rfl) h
  | moveRel => exact execMoveRel_keeps (K.sub rfl) h
  | jog => exact execJog_keeps (K.sub rfl) h
  | stop => exact execStop_keeps (K.sub rfl) h
  | segmentAppend => exact execSegmentAppend_keeps (K.sub rfl) h
  | planAxisConfig => exact execPlanAxisConfig_keeps (K.sub rfl) h
  | groupDefine => exact execGroupDefine_keeps (K.sub rfl) h
  | groupStart => exact execGroupStart_keeps (K.sub rfl) h
  | groupResume => exact execGroupResume_keeps (K.sub rfl) h
  | groupClear => exact execGroupClear_keeps (K.sub rfl) h
  | groupStatus => exact execGroupStatus_keeps (K.sub rfl) h
  | storeStatus => exact execStoreStatus_keeps (K.sub rfl) h
  | overrideSet => exact execOverrideSet_keeps (K.sub rfl) h
  | gearLink => exact execGearLink_keeps (K.sub rfl) h
  | gearRatioAt => exact execGearRatioAt_keeps (K.sub rfl) h
  | gearClearPending => exact execGearClearPending_keeps (K.sub rfl) h
  | camDefine => exact execCamDefine_keeps (K.sub rfl) h
  | camData => exact execCamData_keeps (K.sub rfl) h
  | camCommit => exact execCamCommit_keeps (K.sub rfl) h
  | vmasterSet => exact execVmasterSet_keeps (K.sub rfl) h
  | gearStatusRead => exact execGearStatusRead_keeps (K.sub rfl) h
  | loopLoadCascade => exact execLoopLoadCascade_keeps (K.sub rfl) h
  | loopSchedule => exact execLoopSchedule_keeps (K.sub rfl) h
  | loopScales => exact execLoopScales_keeps (K.sub rfl) h
  | loopMotor => exact execLoopMotor_keeps (K.sub rfl) h
  | loopModulation => exact execLoopModulation_keeps (K.sub rfl) h
  | loopFollow => exact execLoopFollow_keeps (K.sub rfl) h
  | loopLimits => exact execLoopLimits_keeps (K.sub rfl) h
  | loopObserver => exact execLoopObserver_keeps (K.sub rfl) h
  | loopRead => exact execLoopRead_keeps (K.sub rfl) h
  | loopStatusRead => exact execLoopStatusRead_keeps (K.sub rfl) h
  | ppConfig => exact execPpConfig_keeps (K.sub rfl) h
  | ppSetPosition => exact execPpSetPosition_keeps (K.sub rfl) h
  | ppIndexConfig => exact execPpIndexConfig_keeps (K.sub rfl) h
  | ppSpeedConfig => exact execPpSpeedConfig_keeps (K.sub rfl) h
  | ppLossConfig => exact execPpLossConfig_keeps (K.sub rfl) h
  | ppStatusRead => exact execPpStatusRead_keeps (K.sub rfl) h
  | compareDefine => exact execCompareDefine_keeps (K.sub rfl) h
  | compareData => exact execCompareData_keeps (K.sub rfl) h
  | compareArm => exact execCompareArm_keeps (K.sub rfl) h
  | compareForce => exact execCompareForce_keeps (K.sub rfl) h
  | latchConfig => exact execLatchConfig_keeps (K.sub rfl) h
  | latchRead => exact execLatchRead_keeps (K.sub rfl) h
  | snapshotConfig => exact execSnapshotConfig_keeps (K.sub rfl) h
  | snapshotRead => exact execSnapshotRead_keeps (K.sub rfl) h
  | snapshotTrigger => exact execSnapshotTrigger_keeps (K.sub rfl) h
  | btaGroupConfig => exact execBtaGroupConfig_keeps (K.sub rfl) h
  | btaLegConfig => exact execBtaLegConfig_keeps (K.sub rfl) h
  | btaTripConfig => exact execBtaTripConfig_keeps (K.sub rfl) h
  | btaTripClear => exact execBtaTripClear_keeps (K.sub rfl) h
  | btaBlankConfig => exact execBtaBlankConfig_keeps (K.sub rfl) h
  | btaTripInputConfig => exact execBtaTripInputConfig_keeps (K.sub rfl) h
  | btaSdcConfig => exact execBtaSdcConfig_keeps (K.sub rfl) h
  | btaSdiConfig => exact execBtaSdiConfig_keeps (K.sub rfl) h
  | btaDutySet => exact execBtaDutySet_keeps (K.sub rfl) h
  | btaBankLevel => exact execBtaBankLevel_keeps (K.sub rfl) h
  | btaStatusRead => exact execBtaStatusRead_keeps (K.sub rfl) h
  | stepperConfig => exact execStepperConfig_keeps (K.sub rfl) h
  | stepperStatusRead => exact execStepperStatusRead_keeps (K.sub rfl) h
  | stepperSetPosition => exact execStepperSetPosition_keeps (K.sub rfl) h
  | brickRegister => exact execBrickRegister_keeps (K.sub rfl) h
  | frameGroupConfig => exact execFrameGroupConfig_keeps (K.sub rfl) h
  | brickStatus => exact execBrickStatus_keeps (K.sub rfl) h
  | netAddrConfig => exact execNetAddrConfig_keeps (K.sub rfl) h
  | portConfig => exact execPortConfig_keeps (K.sub rfl) h
  | vlanConfig => exact execVlanConfig_keeps (K.sub rfl) h
  | fdbStatic => exact execFdbStatic_keeps (K.sub rfl) h
  | gateListSet => exact execGateListSet_keeps (K.sub rfl) h
  | cbsConfig => exact execCbsConfig_keeps (K.sub rfl) h
  | portStatusRead => exact execPortStatusRead_keeps (K.sub rfl) h
  | ptpConfig => exact execPtpConfig_keeps (K.sub rfl) h
  | ptpStatus => exact execPtpStatus_keeps (K.sub rfl) h
  | timebaseConfig => exact execTimebaseConfig_keeps (K.sub rfl) h
  | timebaseSet => exact execTimebaseSet_keeps (K.sub rfl) h
  | timebaseStatus => exact execTimebaseStatus_keeps (K.sub rfl) h
  | domainTrust => exact execDomainTrust_keeps (K.sub rfl) h
  | tsoConfig => exact execTsoConfig_keeps (K.sub rfl) h
  | tsoStatusRead => exact execTsoStatusRead_keeps (K.sub rfl) h
  | lodgeRead => exact execLodgeRead_keeps (K.sub rfl) h
  | lodgeParamStage => exact execLodgeParamStage_keeps (K.sub rfl) h
  | lodgeParamConfirm => exact execLodgeParamConfirm_keeps (K.sub rfl) h
  | lodgeKeyEnrol => exact execLodgeKeyEnrol_keeps (K.sub rfl) h
  | lodgeFaultClear => exact execLodgeFaultClear_keeps (K.sub rfl) h
  | fioGroupConfig => exact execFioGroupConfig_keeps (K.sub rfl) h
  | fioInputConfig => exact execFioInputConfig_keeps (K.sub rfl) h
  | fioOutputConfig => exact execFioOutputConfig_keeps (K.sub rfl) h
  | fioOutputSet => exact execFioOutputSet_keeps (K.sub rfl) h
  | fioRead => exact execFioRead_keeps (K.sub rfl) h
  | fioClear => exact execFioClear_keeps (K.sub rfl) h
  | canConfig => exact execCanConfig_keeps (K.sub rfl) h
  | canFilterSet => exact execCanFilterSet_keeps (K.sub rfl) h
  | canTtConfig => exact execCanTtConfig_keeps (K.sub rfl) h
  | canTtBufferSet => exact execCanTtBufferSet_keeps (K.sub rfl) h
  | canTx => exact execCanTx_keeps (K.sub rfl) h
  | canRxRead => exact execCanRxRead_keeps (K.sub rfl) h
  | canStatusRead => exact execCanStatusRead_keeps (K.sub rfl) h
  | canBitrateDetect => exact execCanBitrateDetect_keeps (K.sub rfl) h
  | canBusRecover => exact execCanBusRecover_keeps (K.sub rfl) h
  | spmProfileSet => exact execSpmProfileSet_keeps (K.sub rfl) h
  | spmDiscover => exact execSpmDiscover_keeps (K.sub rfl) h
  | spmErase => exact execSpmErase_keeps (K.sub rfl) h
  | spmFlush => exact execSpmFlush_keeps (K.sub rfl) h
  | spmStatusRead => exact execSpmStatusRead_keeps (K.sub rfl) h
  | sphStatusRead => exact execSphStatusRead_keeps (K.sub rfl) h
  | acqChannelConfig => exact execAcqChannelConfig_keeps (K.sub rfl) h
  | acqPinConfig => exact execAcqPinConfig_keeps (K.sub rfl) h
  | acqTriggerConfig => exact execAcqTriggerConfig_keeps (K.sub rfl) h
  | acqEnvelopeSet => exact execAcqEnvelopeSet_keeps (K.sub rfl) h
  | acqCaptureConfig => exact execAcqCaptureConfig_keeps (K.sub rfl) h
  | acqArm => exact execAcqArm_keeps (K.sub rfl) h
  | acqStop => exact execAcqStop_keeps (K.sub rfl) h
  | acqForce => exact execAcqForce_keeps (K.sub rfl) h
  | acqRead => exact execAcqRead_keeps (K.sub rfl) h
  | acqStatusRead => exact execAcqStatusRead_keeps (K.sub rfl) h
  | acqCalibrate => exact execAcqCalibrate_keeps (K.sub rfl) h
  | pluginLoad => exact execPluginLoad_keeps (K.sub rfl) h
  | threadDefine => exact execThreadDefine_keeps (K.sub rfl) h
  | threadEnable => exact execThreadEnable_keeps (K.sub rfl) h
  | threadSignal => exact execThreadSignal_keeps (K.sub rfl) h
  | threadTimerConfig => exact execThreadTimerConfig_keeps (K.sub rfl) h
  | pluginPortConfig => exact execPluginPortConfig_keeps (K.sub rfl) h
  | threadStatusRead => exact execThreadStatusRead_keeps (K.sub rfl) h
  | laneStatusRead => exact execLaneStatusRead_keeps (K.sub rfl) h
  | laneKeyEnrol => exact execLaneKeyEnrol_keeps (K.sub rfl) h
  | tallyRead => exact execTallyRead_keeps (K.sub rfl) h
  | faultRead => exact execFaultRead_keeps (K.sub rfl) h
  | faultAck => exact execFaultAck_keeps (K.sub rfl) h
  | eventRead => exact execEventRead_keeps (K.sub rfl) h
  | sphWriteFrame => exact execSphWriteFrame_keeps (K.sub rfl) h
  | sphReadFrame => exact execSphReadFrame_keeps (K.sub rfl) h
  | sphPacketIn => exact execSphPacketIn_keeps (K.sub rfl) h
  | sphPacketOut => exact execSphPacketOut_keeps (K.sub rfl) h
  | sphStatusFrame => exact execSphStatusFrame_keeps (K.sub rfl) h
  | indDataRead => exact execIndDataRead_keeps (K.sub rfl) h
  | indDataWrite => exact execIndDataWrite_keeps (K.sub rfl) h
  | indAddrWrite => exact execIndAddrWrite_keeps (K.sub rfl) h
  | indCtrlWrite => exact execIndCtrlWrite_keeps (K.sub rfl) h
  | indAccessTimeout => exact execIndAccessTimeout_keeps (K.sub rfl) h
  | updStrobeWrite => exact execUpdStrobeWrite_keeps (K.sub rfl) h
  | updateTakeover => exact execUpdateTakeover_keeps (K.sub rfl) h
  | wideLowRead => exact execWideLowRead_keeps (K.sub rfl) h
  | wideHighRead => exact execWideHighRead_keeps (K.sub rfl) h
  | wideLowWrite => exact execWideLowWrite_keeps (K.sub rfl) h
  | wideHighWrite => exact execWideHighWrite_keeps (K.sub rfl) h
  | rcRegisterRead => exact execRcRegisterRead_keeps (K.sub rfl) h
  | registerWrite => exact execRegisterWrite_keeps (K.sub rfl) h
  | grpSealWrite => exact execGrpSealWrite_keeps (K.sub rfl) h
  | legCmpbSealWrite => exact execLegCmpbSealWrite_keeps (K.sub rfl) h
  | legDutyWrite => exact execLegDutyWrite_keeps (K.sub rfl) h
  | grpTripClear => exact execGrpTripClear_keeps (K.sub rfl) h
  | fioDoWrite => exact execFioDoWrite_keeps (K.sub rfl) h
  | xipRead => exact execXipRead_keeps (K.sub rfl) h
  | xipWrite => exact execXipWrite_keeps (K.sub rfl) h
  | spmBufferTimeout => exact execSpmBufferTimeout_keeps (K.sub rfl) h
  | spmStatusPoll => exact execSpmStatusPoll_keeps (K.sub rfl) h
  | spmOpTimeout => exact execSpmOpTimeout_keeps (K.sub rfl) h
  | resetRelease => exact execResetRelease_keeps (K.sub rfl) h
  | keeperStart => exact execKeeperStart_keeps (K.sub rfl) h
  | gardenerStart => exact execGardenerStart_keeps (K.sub rfl) h
  | gardenerReady => exact execGardenerReady_keeps (K.sub rfl) h
  | autostart => exact execAutostart_keeps (K.sub rfl) h
  | gardenerWatchdog => exact execGardenerWatchdog_keeps (K.sub rfl) h
  | keeperWatchdog => exact execKeeperWatchdog_keeps (K.sub rfl) h
  | vlogLow => exact execVlogLow_keeps (K.sub rfl) h
  | resetPin => exact execResetPin_keeps (K.sub rfl) h
  | referenceLoss => exact execReferenceLoss_keeps (K.sub rfl) h
  | pllLock => exact execPllLock_keeps (K.sub rfl) h
  | vsafLoss => exact execVsafLoss_keeps (K.sub rfl) h
  | vsafReturn => exact execVsafReturn_keeps (K.sub rfl) h
  | tempSample => exact execTempSample_keeps (K.sub rfl) h
  | bandFall => exact execBandFall_keeps (K.sub rfl) h
  | voltageRampEnd => exact execVoltageRampEnd_keeps (K.sub rfl) h
  | powerStateEval => exact execPowerStateEval_keeps (K.sub rfl) h
  | wakeEvent => exact execWakeEvent_keeps (K.sub rfl) h
  | wakeTimerExpiry => exact execWakeTimerExpiry_keeps (K.sub rfl) h
  | wakeComplete => exact execWakeComplete_keeps (K.sub rfl) h
  | keeperHeartbeat => exact execKeeperHeartbeat_keeps (K.sub rfl) h
  | tallyAudit => exact execTallyAudit_keeps (K.sub rfl) h
  | voteScrub => exact execVoteScrub_keeps (K.sub rfl) h
  | memoryScrub => exact execMemoryScrub_keeps (K.sub rfl) h
  | loopSample => exact execLoopSample_keeps (K.sub rfl) h
  | loopResultReady => exact execLoopResultReady_keeps (K.sub rfl) h
  | loopRelease => exact execLoopRelease_keeps (K.sub rfl) h
  | ainConversion => exact execAinConversion_keeps (K.sub rfl) h
  | plannerBoundary => exact execPlannerBoundary_keeps (K.sub rfl) h
  | standstillEntry => exact execStandstillEntry_keeps (K.sub rfl) h
  | alignmentComplete => exact execAlignmentComplete_keeps (K.sub rfl) h
  | reactionComplete => exact execReactionComplete_keeps (K.sub rfl) h
  | observerStartTimeout => exact execObserverStartTimeout_keeps (K.sub rfl) h
  | periodBoundary => exact execPeriodBoundary_keeps (K.sub rfl) h
  | tripInputAccepted => exact execTripInputAccepted_keeps (K.sub rfl) h
  | overcurrentDetect => exact execOvercurrentDetect_keeps (K.sub rfl) h
  | blankWindowEnd => exact execBlankWindowEnd_keeps (K.sub rfl) h
  | delayLineCalibration => exact execDelayLineCalibration_keeps (K.sub rfl) h
  | calFallback => exact execCalFallback_keeps (K.sub rfl) h
  | bankLevelSettled => exact execBankLevelSettled_keeps (K.sub rfl) h
  | holdRampEnd => exact execHoldRampEnd_keeps (K.sub rfl) h
  | freewheelStart => exact execFreewheelStart_keeps (K.sub rfl) h
  | freewheelLimitExceeded => exact execFreewheelLimitExceeded_keeps (K.sub rfl) h
  | wakeRampEnd => exact execWakeRampEnd_keeps (K.sub rfl) h
  | ppEdgeAccepted => exact execPpEdgeAccepted_keeps (K.sub rfl) h
  | ssiFrameStart => exact execSsiFrameStart_keeps (K.sub rfl) h
  | ssiFrameEnd => exact execSsiFrameEnd_keeps (K.sub rfl) h
  | sincosSample => exact execSincosSample_keeps (K.sub rfl) h
  | speedEvaluation => exact execSpeedEvaluation_keeps (K.sub rfl) h
  | speedStandstillTimeout => exact execSpeedStandstillTimeout_keeps (K.sub rfl) h
  | lineFault => exact execLineFault_keeps (K.sub rfl) h
  | hallIllegal => exact execHallIllegal_keeps (K.sub rfl) h
  | freezeDetect => exact execFreezeDetect_keeps (K.sub rfl) h
  | encoderSupplyLimit => exact execEncoderSupplyLimit_keeps (K.sub rfl) h
  | lossClear => exact execLossClear_keeps (K.sub rfl) h
  | comparePulseEnd => exact execComparePulseEnd_keeps (K.sub rfl) h
  | latchEvent => exact execLatchEvent_keeps (K.sub rfl) h
  | latchCapture => exact execLatchCapture_keeps (K.sub rfl) h
  | snapshotCapture => exact execSnapshotCapture_keeps (K.sub rfl) h
  | draymanInbound => exact execDraymanInbound_keeps (K.sub rfl) h
  | brickRecordDeadline => exact execBrickRecordDeadline_keeps (K.sub rfl) h
  | draymanLaunch => exact execDraymanLaunch_keeps (K.sub rfl) h
  | stoFrame => exact execStoFrame_keeps (K.sub rfl) h
  | cyclicFrameRx => exact execCyclicFrameRx_keeps (K.sub rfl) h
  | cyclicApply => exact execCyclicApply_keeps (K.sub rfl) h
  | cyclicSample => exact execCyclicSample_keeps (K.sub rfl) h
  | cyclicLaunch => exact execCyclicLaunch_keeps (K.sub rfl) h
  | cyclicEnableEffect => exact execCyclicEnableEffect_keeps (K.sub rfl) h
  | linkUp => exact execLinkUp_keeps (K.sub rfl) h
  | linkDown => exact execLinkDown_keeps (K.sub rfl) h
  | frameIngress => exact execFrameIngress_keeps (K.sub rfl) h
  | frameEgress => exact execFrameEgress_keeps (K.sub rfl) h
  | arpRequest => exact execArpRequest_keeps (K.sub rfl) h
  | icmpEcho => exact execIcmpEcho_keeps (K.sub rfl) h
  | fdbAgeOut => exact execFdbAgeOut_keeps (K.sub rfl) h
  | gateEntryChange => exact execGateEntryChange_keeps (K.sub rfl) h
  | gateListTakeover => exact execGateListTakeover_keeps (K.sub rfl) h
  | preemptVerify => exact execPreemptVerify_keeps (K.sub rfl) h
  | syncReceived => exact execSyncReceived_keeps (K.sub rfl) h
  | pdelayExchange => exact execPdelayExchange_keeps (K.sub rfl) h
  | syncReceiptTimeout => exact execSyncReceiptTimeout_keeps (K.sub rfl) h
  | holdoverExpiry => exact execHoldoverExpiry_keeps (K.sub rfl) h
  | gmSyncSend => exact execGmSyncSend_keeps (K.sub rfl) h
  | tsoInstant => exact execTsoInstant_keeps (K.sub rfl) h
  | tsoPulseEnd => exact execTsoPulseEnd_keeps (K.sub rfl) h
  | siLevelAccepted => exact execSiLevelAccepted_keeps (K.sub rfl) h
  | testPulse => exact execTestPulse_keeps (K.sub rfl) h
  | discrepancyTimeout => exact execDiscrepancyTimeout_keeps (K.sub rfl) h
  | lodgeSnapshot => exact execLodgeSnapshot_keeps (K.sub rfl) h
  | lodgeCommandInstant => exact execLodgeCommandInstant_keeps (K.sub rfl) h
  | ss1QuickStop => exact execSs1QuickStop_keeps (K.sub rfl) h
  | ss1DelayExpiry => exact execSs1DelayExpiry_keeps (K.sub rfl) h
  | stoinDemand => exact execStoinDemand_keeps (K.sub rfl) h
  | stoinRelease => exact execStoinRelease_keeps (K.sub rfl) h
  | stoinDiscrepancy => exact execStoinDiscrepancy_keeps (K.sub rfl) h
  | referenceTimeout => exact execReferenceTimeout_keeps (K.sub rfl) h
  | heartbeatTimeout => exact execHeartbeatTimeout_keeps (K.sub rfl) h
  | supervisionRelease => exact execSupervisionRelease_keeps (K.sub rfl) h
  | lodgeOvertemp => exact execLodgeOvertemp_keeps (K.sub rfl) h
  | lodgeSelfTestEnd => exact execLodgeSelfTestEnd_keeps (K.sub rfl) h
  | lodgeSwitchingEnd => exact execLodgeSwitchingEnd_keeps (K.sub rfl) h
  | safeOutputTest => exact execSafeOutputTest_keeps (K.sub rfl) h
  | safeOutputOverload => exact execSafeOutputOverload_keeps (K.sub rfl) h
  | safeOutputOpenLoad => exact execSafeOutputOpenLoad_keeps (K.sub rfl) h
  | testOverdue => exact execTestOverdue_keeps (K.sub rfl) h
  | diEdgeAccepted => exact execDiEdgeAccepted_keeps (K.sub rfl) h
  | openWire => exact execOpenWire_keeps (K.sub rfl) h
  | overload => exact execOverload_keeps (K.sub rfl) h
  | fioOvertemp => exact execFioOvertemp_keeps (K.sub rfl) h
  | openLoad => exact execOpenLoad_keeps (K.sub rfl) h
  | backfeed => exact execBackfeed_keeps (K.sub rfl) h
  | outputRetry => exact execOutputRetry_keeps (K.sub rfl) h
  | fioLinkRefresh => exact execFioLinkRefresh_keeps (K.sub rfl) h
  | fioRefreshTimeout => exact execFioRefreshTimeout_keeps (K.sub rfl) h
  | fieldGroupLost => exact execFieldGroupLost_keeps (K.sub rfl) h
  | supplySag => exact execSupplySag_keeps (K.sub rfl) h
  | supplyLost => exact execSupplyLost_keeps (K.sub rfl) h
  | dieUnpowered => exact execDieUnpowered_keeps (K.sub rfl) h
  | diePowerReturn => exact execDiePowerReturn_keeps (K.sub rfl) h
  | fioAutoReenable => exact execFioAutoReenable_keeps (K.sub rfl) h
  | canFrameReceived => exact execCanFrameReceived_keeps (K.sub rfl) h
  | canTxComplete => exact execCanTxComplete_keeps (K.sub rfl) h
  | canBusError => exact execCanBusError_keeps (K.sub rfl) h
  | canBusOffRecovery => exact execCanBusOffRecovery_keeps (K.sub rfl) h
  | canCycleStart => exact execCanCycleStart_keeps (K.sub rfl) h
  | canBufferFreeze => exact execCanBufferFreeze_keeps (K.sub rfl) h
  | canWindowStart => exact execCanWindowStart_keeps (K.sub rfl) h
  | refLost => exact execRefLost_keeps (K.sub rfl) h
  | canDetectDwellEnd => exact execCanDetectDwellEnd_keeps (K.sub rfl) h
  | acqChannelSample => exact execAcqChannelSample_keeps (K.sub rfl) h
  | acqPinChange => exact execAcqPinChange_keeps (K.sub rfl) h
  | acqTriggerOccurrence => exact execAcqTriggerOccurrence_keeps (K.sub rfl) h
  | acqRearm => exact execAcqRearm_keeps (K.sub rfl) h
  | acqHoldoffEnd => exact execAcqHoldoffEnd_keeps (K.sub rfl) h
  | threadStart => exact execThreadStart_keeps (K.sub rfl) h
  | threadPreempt => exact execThreadPreempt_keeps (K.sub rfl) h
  | threadResume => exact execThreadResume_keeps (K.sub rfl) h
  | dispatchTimerInstant => exact execDispatchTimerInstant_keeps (K.sub rfl) h
  | laneNop => exact execLaneNop_keeps (K.sub rfl) h
  | laneAdd => exact execLaneAdd_keeps (K.sub rfl) h
  | laneSub => exact execLaneSub_keeps (K.sub rfl) h
  | laneAdds => exact execLaneAdds_keeps (K.sub rfl) h
  | laneSubs => exact execLaneSubs_keeps (K.sub rfl) h
  | laneMul => exact execLaneMul_keeps (K.sub rfl) h
  | laneMulh => exact execLaneMulh_keeps (K.sub rfl) h
  | laneAnd => exact execLaneAnd_keeps (K.sub rfl) h
  | laneOr => exact execLaneOr_keeps (K.sub rfl) h
  | laneXor => exact execLaneXor_keeps (K.sub rfl) h
  | laneShl => exact execLaneShl_keeps (K.sub rfl) h
  | laneShr => exact execLaneShr_keeps (K.sub rfl) h
  | laneSar => exact execLaneSar_keeps (K.sub rfl) h
  | laneMin => exact execLaneMin_keeps (K.sub rfl) h
  | laneMax => exact execLaneMax_keeps (K.sub rfl) h
  | laneAbs => exact execLaneAbs_keeps (K.sub rfl) h
  | laneAddi => exact execLaneAddi_keeps (K.sub rfl) h
  | laneLui => exact execLaneLui_keeps (K.sub rfl) h
  | laneOri => exact execLaneOri_keeps (K.sub rfl) h
  | laneShli => exact execLaneShli_keeps (K.sub rfl) h
  | laneSari => exact execLaneSari_keeps (K.sub rfl) h
  | laneShri => exact execLaneShri_keeps (K.sub rfl) h
  | laneLd => exact execLaneLd_keeps (K.sub rfl) h
  | laneSt => exact execLaneSt_keeps (K.sub rfl) h
  | laneSetx => exact execLaneSetx_keeps (K.sub rfl) h
  | laneGetx => exact execLaneGetx_keeps (K.sub rfl) h
  | laneClr => exact execLaneClr_keeps (K.sub rfl) h
  | laneMpy => exact execLaneMpy_keeps (K.sub rfl) h
  | laneMac => exact execLaneMac_keeps (K.sub rfl) h
  | laneMsu => exact execLaneMsu_keeps (K.sub rfl) h
  | laneMacx => exact execLaneMacx_keeps (K.sub rfl) h
  | laneAdda => exact execLaneAdda_keeps (K.sub rfl) h
  | laneSha => exact execLaneSha_keeps (K.sub rfl) h
  | laneExp => exact execLaneExp_keeps (K.sub rfl) h
  | laneNorm => exact execLaneNorm_keeps (K.sub rfl) h
  | laneMovah => exact execLaneMovah_keeps (K.sub rfl) h
  | laneLda => exact execLaneLda_keeps (K.sub rfl) h
  | laneBeq => exact execLaneBeq_keeps (K.sub rfl) h
  | laneBne => exact execLaneBne_keeps (K.sub rfl) h
  | laneBlt => exact execLaneBlt_keeps (K.sub rfl) h
  | laneBge => exact execLaneBge_keeps (K.sub rfl) h
  | laneBra => exact execLaneBra_keeps (K.sub rfl) h
  | laneCall => exact execLaneCall_keeps (K.sub rfl) h
  | laneRet => exact execLaneRet_keeps (K.sub rfl) h
  | laneRep => exact execLaneRep_keeps (K.sub rfl) h
  | laneEnd => exact execLaneEnd_keeps (K.sub rfl) h
  | laneMode => exact execLaneMode_keeps (K.sub rfl) h
  | laneGetf => exact execLaneGetf_keeps (K.sub rfl) h
  | commandSignalEdge => exact execCommandSignalEdge_keeps (K.sub rfl) h
  | overcurrentInactive => exact execOvercurrentInactive_keeps (K.sub rfl) h
  | arbitrationLost => exact execArbitrationLost_keeps (K.sub rfl) h
  | sphBadCmdFrame => exact execSphBadCmdFrame_keeps (K.sub rfl) h
  | xipReadTimeout => exact execXipReadTimeout_keeps (K.sub rfl) h
  | sphWordTimeout => exact execSphWordTimeout_keeps (K.sub rfl) h
  | lodgeImageInstalled => exact execLodgeImageInstalled_keeps (K.sub rfl) h
  | announceReceiptTimeout => exact execAnnounceReceiptTimeout_keeps (K.sub rfl) h
  | fieldSupplyReturn => exact execFieldSupplyReturn_keeps (K.sub rfl) h
  | openWireClear => exact execOpenWireClear_keeps (K.sub rfl) h
  | openLoadClear => exact execOpenLoadClear_keeps (K.sub rfl) h
  | backfeedClear => exact execBackfeedClear_keeps (K.sub rfl) h
  | fioOvertempClear => exact execFioOvertempClear_keeps (K.sub rfl) h

end Sys2Proof.Machine
end

