-- ==== Sys2Proof/Laws/KeepIdle.lean ====
section
/-! SUPPORT.
What each function of Machine/Idle.lean keeps. -/

namespace Sys2Proof.Machine

theorem tickSys_keeps {P : State → Prop} (K : Keeps [.sys, .power] P) {s : State} (h : P s) :
    P (tickSys s) := by
  unfold tickSys
  try dsimp only
  repeat' first
    | with_reducible first
      | assumption
      | refine K.onPower rfl _ _ ?_
      | refine K.onSys rfl _ _ rfl rfl rfl ?_
      | refine keep_ite (P := P) ?_ ?_
    | exact rfl
    | split
    | (dsimp only)


theorem tickSdi_keeps {P : State → Prop} (K : Keeps [.bta, .free] P) {s : State} (h : P s) :
    P (tickSdi s) := by
  unfold tickSdi
  try dsimp only
  repeat' first
    | with_reducible first
      | assumption
      | refine K.onBta rfl _ _ ?_
      | refine K.onFree rfl _ _ ?_
      | refine keep_ite (P := P) ?_ ?_
    | exact rfl
    | split
    | (dsimp only)


theorem tickBta_keeps {P : State → Prop} (K : Keeps [.bta] P) {s : State} (h : P s) :
    P (tickBta s) := by
  unfold tickBta
  try dsimp only
  repeat' first
    | with_reducible first
      | assumption
      | refine K.onBta rfl _ _ ?_
      | refine keep_ite (P := P) ?_ ?_
    | exact rfl
    | split
    | (dsimp only)


theorem tickCompare_keeps {P : State → Prop} (K : Keeps [.ports] P) {s : State} (h : P s) :
    P (tickCompare s) := by
  unfold tickCompare
  try dsimp only
  repeat' first
    | with_reducible first
      | assumption
      | refine K.onPorts rfl _ _ ?_
      | refine keep_ite (P := P) ?_ ?_
    | exact rfl
    | split
    | (dsimp only)


theorem tickTime_keeps {P : State → Prop} (K : Keeps [.net] P) {s : State} (h : P s) :
    P (tickTime s) := by
  unfold tickTime
  try dsimp only
  repeat' first
    | with_reducible first
      | assumption
      | refine K.onNet rfl _ _ ?_
      | refine keep_ite (P := P) ?_ ?_
    | exact rfl
    | split
    | (dsimp only)


theorem tickLodge_keeps {P : State → Prop} (K : Keeps [.lodge] P) {s : State} (h : P s) :
    P (tickLodge s) := by
  unfold tickLodge
  try dsimp only
  repeat' first
    | with_reducible first
      | assumption
      | refine K.onLodge rfl _ _ (fun hx => ?_) ?_
      | refine keep_ite (P := P) ?_ ?_
    | exact hx
    | exact rfl
    | split
    | (dsimp only)


theorem idle_keeps {P : State → Prop} (K : Keeps opBlocks P) {s : State} (h : P s) :
    P (idle s) := by
  have K1 := K.sub (as := [.sys, .integ, .plan, .loop, .ports, .bta]) rfl
  have K2 := K.sub (as := [.sys, .boot, .serial, .flash, .free]) rfl
  have K3 := K.sub (as := [.bta, .free]) rfl
  have K4 := K.sub (as := [.ports]) rfl
  have K5 := K.sub (as := [.pkts, .bta]) rfl
  have K6 := K.sub (as := [.pkts, .integ, .axis, .plan, .gear, .loop, .bta, .stepper, .bricks]) rfl
  have K7 := K.sub (as := [.bta]) rfl
  have K8 := K.sub (as := [.lodge]) rfl
  have K9 := K.sub (as := [.can]) rfl
  have K10 := K.sub (as := [.fio]) rfl
  have K11 := K.sub (as := [.net]) rfl
  have K12 := K.sub (as := [.sys, .power]) rfl
  have K13 := K.sub (as := [.power, .integ, .loop, .ports, .bta, .acq, .lanes, .free]) rfl
  unfold idle
  try dsimp only
  repeat' first
    | with_reducible first
      | assumption
      | refine serveBlocked_keeps K ?_
      | refine captureStrobes_keeps K1 ?_
      | refine verifyBegins_keeps K2 ?_
      | refine tickSdi_keeps K3 ?_
      | refine tickCompare_keeps K4 ?_
      | refine tickBanks_keeps K5 ?_
      | refine tickTrips_keeps K6 ?_
      | refine tickBta_keeps K7 ?_
      | refine tickLodge_keeps K8 ?_
      | refine tickCan_keeps K9 ?_
      | refine tickFio_keeps K10 ?_
      | refine tickNet_keeps K11 ?_
      | refine tickTime_keeps K11 ?_
      | refine tickSys_keeps K12 ?_
      | refine tickAcq_keeps K13 ?_
    | exact rfl
    | (dsimp only)


end Sys2Proof.Machine
end

