-- ==== Sys2Proof/WellFormed.lean ====
section
/-! DEFINITION.
Well-formed commands: operands that the hardware can present. Every command has its meaning on ill-formed operands too; nothing
rests on their being refused. -/

namespace Sys2Proof

/-- An address or handle of 32 bits. -/
def word32 (n : Nat) : Bool := decide (n < 2 ^ 32)

/-- Access sizes of the map: 8, 16 and 32 bits (R100, 05). -/
def accessSize (n : Nat) : Bool := n == 1 || n == 2 || n == 4

/-- A request's parameter area holds at most 1,432 bytes (R68, R70, 04). -/
def Request.wf (rq : Request) : Bool := decide (rq.params.length ≤ 1432)

/-- A VLAN tag holds a priority of 3 bits and an ID of 12, an EtherType 16 bits. -/
def NetFrame.wf (f : NetFrame) : Bool :=
  decide (f.etherType < 65536) && (match f.vlan with
    | some (p, v) => decide (p < 8) && decide (v < 4096)
    | none => true)

/-- Data bytes of a data length code (R382, 17): 8 at most unless FD. -/
def canBytes (fd : Bool) (dlc : Nat) : Nat :=
  if dlc ≤ 8 then dlc else if fd then [12, 16, 20, 24, 32, 48, 64].getD (dlc - 9) 64 else 8

/-- A CAN frame: identifier of 11 or 29 bits, DLC of 4 bits, its data bytes; no remote frame in FD, no rate switch without. -/
def CanFrame.wf (f : CanFrame) : Bool :=
  decide (f.ident < if f.ext then 2 ^ 29 else 2 ^ 11) && decide (f.dlc < 16) &&
  f.data.length == (if f.rtr then 0 else canBytes f.fd f.dlc) && !(f.fd && f.rtr) && !(f.brs && !f.fd)

/-- Well-formed commands. -/
def Instr.wf : Instr → Bool
  | .ruhityDatagram src _ _ _ _ => src != .hostPort
  | .inboxTake => true
  | .broadcastReply => true
  | .authLockoutEnd _ => true
  | .pendingCommit h => word32 h
  | .deferredEffect h => word32 h
  | .resetEntry => true
  | .imageSessionTimeout => true
  | .ping rq => rq.wf
  | .getInfo rq => rq.wf
  | .cancel rq => rq.wf
  | .setLatencyTolerance rq => rq.wf
  | .getOperatingPoint rq => rq.wf
  | .setWakeTimer rq => rq.wf
  | .identityRead rq => rq.wf
  | .imageBegin rq => rq.wf
  | .imageData rq => rq.wf
  | .imageCommit rq => rq.wf
  | .imageActivate rq => rq.wf
  | .imageConfirm rq => rq.wf
  | .imageRollback rq => rq.wf
  | .setState rq => rq.wf
  | .reset rq => rq.wf
  | .configSave rq => rq.wf
  | .authKeySet rq => rq.wf
  | .authPolicySet rq => rq.wf
  | .cyclicMapDefine rq => rq.wf
  | .cyclicMapEnable rq => rq.wf
  | .cyclicMapStatus rq => rq.wf
  | .axisBind rq => rq.wf
  | .axisSetMode rq => rq.wf
  | .axisEnable rq => rq.wf
  | .axisDisable rq => rq.wf
  | .axisStatus rq => rq.wf
  | .moveAbs rq => rq.wf
  | .moveRel rq => rq.wf
  | .jog rq => rq.wf
  | .stop rq => rq.wf
  | .segmentAppend rq => rq.wf
  | .planAxisConfig rq => rq.wf
  | .groupDefine rq => rq.wf
  | .groupStart rq => rq.wf
  | .groupResume rq => rq.wf
  | .groupClear rq => rq.wf
  | .groupStatus rq => rq.wf
  | .storeStatus rq => rq.wf
  | .overrideSet rq => rq.wf
  | .gearLink rq => rq.wf
  | .gearRatioAt rq => rq.wf
  | .gearClearPending rq => rq.wf
  | .camDefine rq => rq.wf
  | .camData rq => rq.wf
  | .camCommit rq => rq.wf
  | .vmasterSet rq => rq.wf
  | .gearStatusRead rq => rq.wf
  | .loopLoadCascade rq => rq.wf
  | .loopSchedule rq => rq.wf
  | .loopScales rq => rq.wf
  | .loopMotor rq => rq.wf
  | .loopModulation rq => rq.wf
  | .loopFollow rq => rq.wf
  | .loopLimits rq => rq.wf
  | .loopObserver rq => rq.wf
  | .loopRead rq => rq.wf
  | .loopStatusRead rq => rq.wf
  | .ppConfig rq => rq.wf
  | .ppSetPosition rq => rq.wf
  | .ppIndexConfig rq => rq.wf
  | .ppSpeedConfig rq => rq.wf
  | .ppLossConfig rq => rq.wf
  | .ppStatusRead rq => rq.wf
  | .compareDefine rq => rq.wf
  | .compareData rq => rq.wf
  | .compareArm rq => rq.wf
  | .compareForce rq => rq.wf
  | .latchConfig rq => rq.wf
  | .latchRead rq => rq.wf
  | .snapshotConfig rq => rq.wf
  | .snapshotRead rq => rq.wf
  | .snapshotTrigger rq => rq.wf
  | .btaGroupConfig rq => rq.wf
  | .btaLegConfig rq => rq.wf
  | .btaTripConfig rq => rq.wf
  | .btaTripClear rq => rq.wf
  | .btaBlankConfig rq => rq.wf
  | .btaTripInputConfig rq => rq.wf
  | .btaSdcConfig rq => rq.wf
  | .btaSdiConfig rq => rq.wf
  | .btaDutySet rq => rq.wf
  | .btaBankLevel rq => rq.wf
  | .btaStatusRead rq => rq.wf
  | .stepperConfig rq => rq.wf
  | .stepperStatusRead rq => rq.wf
  | .stepperSetPosition rq => rq.wf
  | .brickRegister rq => rq.wf
  | .frameGroupConfig rq => rq.wf
  | .brickStatus rq => rq.wf
  | .netAddrConfig rq => rq.wf
  | .portConfig rq => rq.wf
  | .vlanConfig rq => rq.wf
  | .fdbStatic rq => rq.wf
  | .gateListSet rq => rq.wf
  | .cbsConfig rq => rq.wf
  | .portStatusRead rq => rq.wf
  | .ptpConfig rq => rq.wf
  | .ptpStatus rq => rq.wf
  | .timebaseConfig rq => rq.wf
  | .timebaseSet rq => rq.wf
  | .timebaseStatus rq => rq.wf
  | .domainTrust rq => rq.wf
  | .tsoConfig rq => rq.wf
  | .tsoStatusRead rq => rq.wf
  | .lodgeRead rq => rq.wf
  | .lodgeParamStage rq => rq.wf
  | .lodgeParamConfirm rq => rq.wf
  | .lodgeKeyEnrol rq => rq.wf
  | .lodgeFaultClear rq => rq.wf
  | .fioGroupConfig rq => rq.wf
  | .fioInputConfig rq => rq.wf
  | .fioOutputConfig rq => rq.wf
  | .fioOutputSet rq => rq.wf
  | .fioRead rq => rq.wf
  | .fioClear rq => rq.wf
  | .canConfig rq => rq.wf
  | .canFilterSet rq => rq.wf
  | .canTtConfig rq => rq.wf
  | .canTtBufferSet rq => rq.wf
  | .canTx rq => rq.wf
  | .canRxRead rq => rq.wf
  | .canStatusRead rq => rq.wf
  | .canBitrateDetect rq => rq.wf
  | .canBusRecover rq => rq.wf
  | .spmProfileSet rq => rq.wf
  | .spmDiscover rq => rq.wf
  | .spmErase rq => rq.wf
  | .spmFlush rq => rq.wf
  | .spmStatusRead rq => rq.wf
  | .sphStatusRead rq => rq.wf
  | .acqChannelConfig rq => rq.wf
  | .acqPinConfig rq => rq.wf
  | .acqTriggerConfig rq => rq.wf
  | .acqEnvelopeSet rq => rq.wf
  | .acqCaptureConfig rq => rq.wf
  | .acqArm rq => rq.wf
  | .acqStop rq => rq.wf
  | .acqForce rq => rq.wf
  | .acqRead rq => rq.wf
  | .acqStatusRead rq => rq.wf
  | .acqCalibrate rq => rq.wf
  | .pluginLoad rq => rq.wf
  | .threadDefine rq => rq.wf
  | .threadEnable rq => rq.wf
  | .threadSignal rq => rq.wf
  | .threadTimerConfig rq => rq.wf
  | .pluginPortConfig rq => rq.wf
  | .threadStatusRead rq => rq.wf
  | .laneStatusRead rq => rq.wf
  | .laneKeyEnrol rq => rq.wf
  | .tallyRead rq => rq.wf
  | .faultRead rq => rq.wf
  | .faultAck rq => rq.wf
  | .eventRead rq => rq.wf
  | .sphWriteFrame a _ _ => word32 a
  | .sphReadFrame a _ _ => word32 a
  | .sphPacketIn _ _ => true
  | .sphPacketOut _ _ => true
  | .sphStatusFrame _ => true
  | .indDataRead _ => true
  | .indDataWrite _ _ => true
  | .indAddrWrite _ _ => true
  | .indCtrlWrite _ _ => true
  | .indAccessTimeout _ => true
  | .updStrobeWrite _ _ => true
  | .updateTakeover _ => true
  | .wideLowRead _ a => word32 a
  | .wideHighRead _ a => word32 a
  | .wideLowWrite _ a _ => word32 a
  | .wideHighWrite _ a _ => word32 a
  | .rcRegisterRead _ a n => word32 a && accessSize n
  | .registerWrite _ a n _ => word32 a && accessSize n
  | .grpSealWrite _ _ _ => true
  | .legCmpbSealWrite _ _ _ => true
  | .legDutyWrite _ _ _ => true
  | .grpTripClear _ _ => true
  | .fioDoWrite _ _ _ => true
  | .xipRead _ a => word32 a
  | .xipWrite _ a _ => word32 a
  | .spmBufferTimeout _ => true
  | .spmStatusPoll _ _ => true
  | .spmOpTimeout _ => true
  | .resetRelease => true
  | .keeperStart => true
  | .gardenerStart => true
  | .gardenerReady => true
  | .autostart => true
  | .gardenerWatchdog => true
  | .keeperWatchdog => true
  | .vlogLow => true
  | .resetPin => true
  | .referenceLoss => true
  | .pllLock => true
  | .vsafLoss => true
  | .vsafReturn => true
  | .tempSample t => decide (-273 ≤ t) && decide (t ≤ 300)
  | .bandFall => true
  | .voltageRampEnd => true
  | .powerStateEval => true
  | .wakeEvent => true
  | .wakeTimerExpiry => true
  | .wakeComplete => true
  | .keeperHeartbeat _ => true
  | .tallyAudit => true
  | .voteScrub a w _ _ _ _ => word32 a && decide (1 ≤ w) && decide (w ≤ 32)
  | .memoryScrub a n => word32 a && decide (n ≤ 36)
  | .loopSample _ _ => true
  | .loopResultReady _ _ => true
  | .loopRelease _ _ => true
  | .ainConversion _ _ => true
  | .plannerBoundary _ => true
  | .standstillEntry _ => true
  | .alignmentComplete _ => true
  | .reactionComplete _ => true
  | .observerStartTimeout _ => true
  | .periodBoundary _ => true
  | .tripInputAccepted _ _ => true
  | .overcurrentDetect _ => true
  | .blankWindowEnd _ => true
  | .delayLineCalibration _ n => decide (n < 128)
  | .calFallback _ => true
  | .bankLevelSettled _ => true
  | .holdRampEnd _ => true
  | .freewheelStart _ => true
  | .freewheelLimitExceeded _ => true
  | .wakeRampEnd _ => true
  | .ppEdgeAccepted _ _ => true
  | .ssiFrameStart _ => true
  | .ssiFrameEnd _ _ _ => true
  | .sincosSample _ _ _ => true
  | .speedEvaluation _ => true
  | .speedStandstillTimeout _ => true
  | .lineFault _ => true
  | .hallIllegal _ => true
  | .freezeDetect _ => true
  | .encoderSupplyLimit _ => true
  | .lossClear _ => true
  | .comparePulseEnd _ => true
  | .latchEvent _ _ => true
  | .latchCapture _ => true
  | .snapshotCapture => true
  | .draymanInbound _ _ _ => true
  | .brickRecordDeadline _ => true
  | .draymanLaunch _ => true
  | .stoFrame => true
  | .cyclicFrameRx _ f => f.wf
  | .cyclicApply _ => true
  | .cyclicSample _ => true
  | .cyclicLaunch _ => true
  | .cyclicEnableEffect _ => true
  | .linkUp _ _ _ _ _ => true
  | .linkDown _ => true
  | .frameIngress _ f _ => f.wf
  | .frameEgress _ => true
  | .arpRequest _ _ _ _ => true
  | .icmpEcho _ _ _ _ _ => true
  | .fdbAgeOut _ v => decide (v < 4096)
  | .gateEntryChange _ => true
  | .gateListTakeover _ => true
  | .preemptVerify _ _ => true
  | .syncReceived _ _ _ _ _ => true
  | .pdelayExchange _ _ _ => true
  | .syncReceiptTimeout _ => true
  | .holdoverExpiry _ => true
  | .gmSyncSend _ => true
  | .tsoInstant _ => true
  | .tsoPulseEnd _ => true
  | .siLevelAccepted _ _ => true
  | .testPulse _ _ _ => true
  | .discrepancyTimeout _ => true
  | .lodgeSnapshot => true
  | .lodgeCommandInstant _ _ => true
  | .ss1QuickStop => true
  | .ss1DelayExpiry _ => true
  | .stoinDemand _ _ => true
  | .stoinRelease => true
  | .stoinDiscrepancy => true
  | .referenceTimeout => true
  | .heartbeatTimeout => true
  | .supervisionRelease _ => true
  | .lodgeOvertemp t => decide (-273 ≤ t) && decide (t ≤ 300)
  | .lodgeSelfTestEnd _ => true
  | .lodgeSwitchingEnd => true
  | .safeOutputTest _ _ _ _ => true
  | .safeOutputOverload _ => true
  | .safeOutputOpenLoad _ => true
  | .testOverdue _ => true
  | .diEdgeAccepted _ _ => true
  | .openWire _ => true
  | .overload _ => true
  | .fioOvertemp _ => true
  | .openLoad _ => true
  | .backfeed _ => true
  | .outputRetry _ _ => true
  | .fioLinkRefresh _ => true
  | .fioRefreshTimeout _ => true
  | .fieldGroupLost _ => true
  | .supplySag _ v => decide (v < 65536)
  | .supplyLost _ v => decide (v < 65536)
  | .dieUnpowered _ v => decide (v < 65536)
  | .diePowerReturn _ v => decide (v < 65536)
  | .fioAutoReenable _ => true
  | .canFrameReceived _ f _ _ => f.wf
  | .canTxComplete _ _ => true
  | .canBusError _ _ _ _ => true
  | .canBusOffRecovery _ => true
  | .canCycleStart _ _ => true
  | .canBufferFreeze _ => true
  | .canWindowStart _ _ => true
  | .refLost _ => true
  | .canDetectDwellEnd _ => true
  | .acqChannelSample _ => true
  | .acqPinChange _ => true
  | .acqTriggerOccurrence _ => true
  | .acqRearm => true
  | .acqHoldoffEnd => true
  | .threadStart _ => true
  | .threadPreempt _ => true
  | .threadResume _ => true
  | .dispatchTimerInstant _ => true
  | .laneNop _ => true
  | .laneAdd _ => true
  | .laneSub _ => true
  | .laneAdds _ => true
  | .laneSubs _ => true
  | .laneMul _ => true
  | .laneMulh _ => true
  | .laneAnd _ => true
  | .laneOr _ => true
  | .laneXor _ => true
  | .laneShl _ => true
  | .laneShr _ => true
  | .laneSar _ => true
  | .laneMin _ => true
  | .laneMax _ => true
  | .laneAbs _ => true
  | .laneAddi _ => true
  | .laneLui _ => true
  | .laneOri _ => true
  | .laneShli _ => true
  | .laneSari _ => true
  | .laneShri _ => true
  | .laneLd _ => true
  | .laneSt _ => true
  | .laneSetx _ => true
  | .laneGetx _ => true
  | .laneClr _ => true
  | .laneMpy _ => true
  | .laneMac _ => true
  | .laneMsu _ => true
  | .laneMacx _ => true
  | .laneAdda _ => true
  | .laneSha _ => true
  | .laneExp _ => true
  | .laneNorm _ => true
  | .laneMovah _ => true
  | .laneLda _ => true
  | .laneBeq _ => true
  | .laneBne _ => true
  | .laneBlt _ => true
  | .laneBge _ => true
  | .laneBra _ => true
  | .laneCall _ => true
  | .laneRet _ => true
  | .laneRep _ => true
  | .laneEnd _ => true
  | .laneMode _ => true
  | .laneGetf _ => true
  | .commandSignalEdge _ _ => true
  | .overcurrentInactive _ => true
  | .arbitrationLost _ => true
  | .sphBadCmdFrame => true
  | .xipReadTimeout _ => true
  | .sphWordTimeout a => word32 a
  | .lodgeImageInstalled _ => true
  | .announceReceiptTimeout _ _ _ => true
  | .fieldSupplyReturn _ v => decide (v < 65536)
  | .openWireClear _ => true
  | .openLoadClear _ => true
  | .backfeedClear _ => true
  | .fioOvertempClear _ => true

end Sys2Proof
end

