-- ==== Sys2Proof/Laws/PerInstr.lean ====
section
/-! SUPPORT.
Per command: a well-formed request carries at most 1,432 bytes of parameters (R68, R70, 04). -/

namespace Sys2Proof.Laws

/-- The request a command is, when it is one. -/
def requestOf : Instr → Option Request
  | .ruhityDatagram _ _ _ _ _ => none
  | .inboxTake => none
  | .broadcastReply => none
  | .authLockoutEnd _ => none
  | .pendingCommit _ => none
  | .deferredEffect _ => none
  | .resetEntry => none
  | .imageSessionTimeout => none
  | .ping rq => some rq
  | .getInfo rq => some rq
  | .cancel rq => some rq
  | .setLatencyTolerance rq => some rq
  | .getOperatingPoint rq => some rq
  | .setWakeTimer rq => some rq
  | .identityRead rq => some rq
  | .imageBegin rq => some rq
  | .imageData rq => some rq
  | .imageCommit rq => some rq
  | .imageActivate rq => some rq
  | .imageConfirm rq => some rq
  | .imageRollback rq => some rq
  | .setState rq => some rq
  | .reset rq => some rq
  | .configSave rq => some rq
  | .authKeySet rq => some rq
  | .authPolicySet rq => some rq
  | .cyclicMapDefine rq => some rq
  | .cyclicMapEnable rq => some rq
  | .cyclicMapStatus rq => some rq
  | .axisBind rq => some rq
  | .axisSetMode rq => some rq
  | .axisEnable rq => some rq
  | .axisDisable rq => some rq
  | .axisStatus rq => some rq
  | .moveAbs rq => some rq
  | .moveRel rq => some rq
  | .jog rq => some rq
  | .stop rq => some rq
  | .segmentAppend rq => some rq
  | .planAxisConfig rq => some rq
  | .groupDefine rq => some rq
  | .groupStart rq => some rq
  | .groupResume rq => some rq
  | .groupClear rq => some rq
  | .groupStatus rq => some rq
  | .storeStatus rq => some rq
  | .overrideSet rq => some rq
  | .gearLink rq => some rq
  | .gearRatioAt rq => some rq
  | .gearClearPending rq => some rq
  | .camDefine rq => some rq
  | .camData rq => some rq
  | .camCommit rq => some rq
  | .vmasterSet rq => some rq
  | .gearStatusRead rq => some rq
  | .loopLoadCascade rq => some rq
  | .loopSchedule rq => some rq
  | .loopScales rq => some rq
  | .loopMotor rq => some rq
  | .loopModulation rq => some rq
  | .loopFollow rq => some rq
  | .loopLimits rq => some rq
  | .loopObserver rq => some rq
  | .loopRead rq => some rq
  | .loopStatusRead rq => some rq
  | .ppConfig rq => some rq
  | .ppSetPosition rq => some rq
  | .ppIndexConfig rq => some rq
  | .ppSpeedConfig rq => some rq
  | .ppLossConfig rq => some rq
  | .ppStatusRead rq => some rq
  | .compareDefine rq => some rq
  | .compareData rq => some rq
  | .compareArm rq => some rq
  | .compareForce rq => some rq
  | .latchConfig rq => some rq
  | .latchRead rq => some rq
  | .snapshotConfig rq => some rq
  | .snapshotRead rq => some rq
  | .snapshotTrigger rq => some rq
  | .btaGroupConfig rq => some rq
  | .btaLegConfig rq => some rq
  | .btaTripConfig rq => some rq
  | .btaTripClear rq => some rq
  | .btaBlankConfig rq => some rq
  | .btaTripInputConfig rq => some rq
  | .btaSdcConfig rq => some rq
  | .btaSdiConfig rq => some rq
  | .btaDutySet rq => some rq
  | .btaBankLevel rq => some rq
  | .btaStatusRead rq => some rq
  | .stepperConfig rq => some rq
  | .stepperStatusRead rq => some rq
  | .stepperSetPosition rq => some rq
  | .brickRegister rq => some rq
  | .frameGroupConfig rq => some rq
  | .brickStatus rq => some rq
  | .netAddrConfig rq => some rq
  | .portConfig rq => some rq
  | .vlanConfig rq => some rq
  | .fdbStatic rq => some rq
  | .gateListSet rq => some rq
  | .cbsConfig rq => some rq
  | .portStatusRead rq => some rq
  | .ptpConfig rq => some rq
  | .ptpStatus rq => some rq
  | .timebaseConfig rq => some rq
  | .timebaseSet rq => some rq
  | .timebaseStatus rq => some rq
  | .domainTrust rq => some rq
  | .tsoConfig rq => some rq
  | .tsoStatusRead rq => some rq
  | .lodgeRead rq => some rq
  | .lodgeParamStage rq => some rq
  | .lodgeParamConfirm rq => some rq
  | .lodgeKeyEnrol rq => some rq
  | .lodgeFaultClear rq => some rq
  | .fioGroupConfig rq => some rq
  | .fioInputConfig rq => some rq
  | .fioOutputConfig rq => some rq
  | .fioOutputSet rq => some rq
  | .fioRead rq => some rq
  | .fioClear rq => some rq
  | .canConfig rq => some rq
  | .canFilterSet rq => some rq
  | .canTtConfig rq => some rq
  | .canTtBufferSet rq => some rq
  | .canTx rq => some rq
  | .canRxRead rq => some rq
  | .canStatusRead rq => some rq
  | .canBitrateDetect rq => some rq
  | .canBusRecover rq => some rq
  | .spmProfileSet rq => some rq
  | .spmDiscover rq => some rq
  | .spmErase rq => some rq
  | .spmFlush rq => some rq
  | .spmStatusRead rq => some rq
  | .sphStatusRead rq => some rq
  | .acqChannelConfig rq => some rq
  | .acqPinConfig rq => some rq
  | .acqTriggerConfig rq => some rq
  | .acqEnvelopeSet rq => some rq
  | .acqCaptureConfig rq => some rq
  | .acqArm rq => some rq
  | .acqStop rq => some rq
  | .acqForce rq => some rq
  | .acqRead rq => some rq
  | .acqStatusRead rq => some rq
  | .acqCalibrate rq => some rq
  | .pluginLoad rq => some rq
  | .threadDefine rq => some rq
  | .threadEnable rq => some rq
  | .threadSignal rq => some rq
  | .threadTimerConfig rq => some rq
  | .pluginPortConfig rq => some rq
  | .threadStatusRead rq => some rq
  | .laneStatusRead rq => some rq
  | .laneKeyEnrol rq => some rq
  | .tallyRead rq => some rq
  | .faultRead rq => some rq
  | .faultAck rq => some rq
  | .eventRead rq => some rq
  | .sphWriteFrame _ _ _ => none
  | .sphReadFrame _ _ _ => none
  | .sphPacketIn _ _ => none
  | .sphPacketOut _ _ => none
  | .sphStatusFrame _ => none
  | .indDataRead _ => none
  | .indDataWrite _ _ => none
  | .indAddrWrite _ _ => none
  | .indCtrlWrite _ _ => none
  | .indAccessTimeout _ => none
  | .updStrobeWrite _ _ => none
  | .updateTakeover _ => none
  | .wideLowRead _ _ => none
  | .wideHighRead _ _ => none
  | .wideLowWrite _ _ _ => none
  | .wideHighWrite _ _ _ => none
  | .rcRegisterRead _ _ _ => none
  | .registerWrite _ _ _ _ => none
  | .grpSealWrite _ _ _ => none
  | .legCmpbSealWrite _ _ _ => none
  | .legDutyWrite _ _ _ => none
  | .grpTripClear _ _ => none
  | .fioDoWrite _ _ _ => none
  | .xipRead _ _ => none
  | .xipWrite _ _ _ => none
  | .spmBufferTimeout _ => none
  | .spmStatusPoll _ _ => none
  | .spmOpTimeout _ => none
  | .resetRelease => none
  | .keeperStart => none
  | .gardenerStart => none
  | .gardenerReady => none
  | .autostart => none
  | .gardenerWatchdog => none
  | .keeperWatchdog => none
  | .vlogLow => none
  | .resetPin => none
  | .referenceLoss => none
  | .pllLock => none
  | .vsafLoss => none
  | .vsafReturn => none
  | .tempSample _ => none
  | .bandFall => none
  | .voltageRampEnd => none
  | .powerStateEval => none
  | .wakeEvent => none
  | .wakeTimerExpiry => none
  | .wakeComplete => none
  | .keeperHeartbeat _ => none
  | .tallyAudit => none
  | .voteScrub _ _ _ _ _ _ => none
  | .memoryScrub _ _ => none
  | .loopSample _ _ => none
  | .loopResultReady _ _ => none
  | .loopRelease _ _ => none
  | .ainConversion _ _ => none
  | .plannerBoundary _ => none
  | .standstillEntry _ => none
  | .alignmentComplete _ => none
  | .reactionComplete _ => none
  | .observerStartTimeout _ => none
  | .periodBoundary _ => none
  | .tripInputAccepted _ _ => none
  | .overcurrentDetect _ => none
  | .blankWindowEnd _ => none
  | .delayLineCalibration _ _ => none
  | .calFallback _ => none
  | .bankLevelSettled _ => none
  | .holdRampEnd _ => none
  | .freewheelStart _ => none
  | .freewheelLimitExceeded _ => none
  | .wakeRampEnd _ => none
  | .ppEdgeAccepted _ _ => none
  | .ssiFrameStart _ => none
  | .ssiFrameEnd _ _ _ => none
  | .sincosSample _ _ _ => none
  | .speedEvaluation _ => none
  | .speedStandstillTimeout _ => none
  | .lineFault _ => none
  | .hallIllegal _ => none
  | .freezeDetect _ => none
  | .encoderSupplyLimit _ => none
  | .lossClear _ => none
  | .comparePulseEnd _ => none
  | .latchEvent _ _ => none
  | .latchCapture _ => none
  | .snapshotCapture => none
  | .draymanInbound _ _ _ => none
  | .brickRecordDeadline _ => none
  | .draymanLaunch _ => none
  | .stoFrame => none
  | .cyclicFrameRx _ _ => none
  | .cyclicApply _ => none
  | .cyclicSample _ => none
  | .cyclicLaunch _ => none
  | .cyclicEnableEffect _ => none
  | .linkUp _ _ _ _ _ => none
  | .linkDown _ => none
  | .frameIngress _ _ _ => none
  | .frameEgress _ => none
  | .arpRequest _ _ _ _ => none
  | .icmpEcho _ _ _ _ _ => none
  | .fdbAgeOut _ _ => none
  | .gateEntryChange _ => none
  | .gateListTakeover _ => none
  | .preemptVerify _ _ => none
  | .syncReceived _ _ _ _ _ => none
  | .pdelayExchange _ _ _ => none
  | .syncReceiptTimeout _ => none
  | .holdoverExpiry _ => none
  | .gmSyncSend _ => none
  | .tsoInstant _ => none
  | .tsoPulseEnd _ => none
  | .siLevelAccepted _ _ => none
  | .testPulse _ _ _ => none
  | .discrepancyTimeout _ => none
  | .lodgeSnapshot => none
  | .lodgeCommandInstant _ _ => none
  | .ss1QuickStop => none
  | .ss1DelayExpiry _ => none
  | .stoinDemand _ _ => none
  | .stoinRelease => none
  | .stoinDiscrepancy => none
  | .referenceTimeout => none
  | .heartbeatTimeout => none
  | .supervisionRelease _ => none
  | .lodgeOvertemp _ => none
  | .lodgeSelfTestEnd _ => none
  | .lodgeSwitchingEnd => none
  | .safeOutputTest _ _ _ _ => none
  | .safeOutputOverload _ => none
  | .safeOutputOpenLoad _ => none
  | .testOverdue _ => none
  | .diEdgeAccepted _ _ => none
  | .openWire _ => none
  | .overload _ => none
  | .fioOvertemp _ => none
  | .openLoad _ => none
  | .backfeed _ => none
  | .outputRetry _ _ => none
  | .fioLinkRefresh _ => none
  | .fioRefreshTimeout _ => none
  | .fieldGroupLost _ => none
  | .supplySag _ _ => none
  | .supplyLost _ _ => none
  | .dieUnpowered _ _ => none
  | .diePowerReturn _ _ => none
  | .fioAutoReenable _ => none
  | .canFrameReceived _ _ _ _ => none
  | .canTxComplete _ _ => none
  | .canBusError _ _ _ _ => none
  | .canBusOffRecovery _ => none
  | .canCycleStart _ _ => none
  | .canBufferFreeze _ => none
  | .canWindowStart _ _ => none
  | .refLost _ => none
  | .canDetectDwellEnd _ => none
  | .acqChannelSample _ => none
  | .acqPinChange _ => none
  | .acqTriggerOccurrence _ => none
  | .acqRearm => none
  | .acqHoldoffEnd => none
  | .threadStart _ => none
  | .threadPreempt _ => none
  | .threadResume _ => none
  | .dispatchTimerInstant _ => none
  | .laneNop _ => none
  | .laneAdd _ => none
  | .laneSub _ => none
  | .laneAdds _ => none
  | .laneSubs _ => none
  | .laneMul _ => none
  | .laneMulh _ => none
  | .laneAnd _ => none
  | .laneOr _ => none
  | .laneXor _ => none
  | .laneShl _ => none
  | .laneShr _ => none
  | .laneSar _ => none
  | .laneMin _ => none
  | .laneMax _ => none
  | .laneAbs _ => none
  | .laneAddi _ => none
  | .laneLui _ => none
  | .laneOri _ => none
  | .laneShli _ => none
  | .laneSari _ => none
  | .laneShri _ => none
  | .laneLd _ => none
  | .laneSt _ => none
  | .laneSetx _ => none
  | .laneGetx _ => none
  | .laneClr _ => none
  | .laneMpy _ => none
  | .laneMac _ => none
  | .laneMsu _ => none
  | .laneMacx _ => none
  | .laneAdda _ => none
  | .laneSha _ => none
  | .laneExp _ => none
  | .laneNorm _ => none
  | .laneMovah _ => none
  | .laneLda _ => none
  | .laneBeq _ => none
  | .laneBne _ => none
  | .laneBlt _ => none
  | .laneBge _ => none
  | .laneBra _ => none
  | .laneCall _ => none
  | .laneRet _ => none
  | .laneRep _ => none
  | .laneEnd _ => none
  | .laneMode _ => none
  | .laneGetf _ => none
  | .commandSignalEdge _ _ => none
  | .overcurrentInactive _ => none
  | .arbitrationLost _ => none
  | .sphBadCmdFrame => none
  | .xipReadTimeout _ => none
  | .sphWordTimeout _ => none
  | .lodgeImageInstalled _ => none
  | .announceReceiptTimeout _ _ _ => none
  | .fieldSupplyReturn _ _ => none
  | .openWireClear _ => none
  | .openLoadClear _ => none
  | .backfeedClear _ => none
  | .fioOvertempClear _ => none

/-- A well-formed command that is a request has a parameter area of at most 1,432 bytes. -/
def RequestSize.Statement (i : Instr) : Prop := i.wf = true → ∀ rq, requestOf i = some rq → rq.params.length ≤ 1432

theorem request_size {i : Instr} (rq : Request) (hi : requestOf i = some rq) (hw : i.wf = rq.wf) :
    RequestSize.Statement i := by
  intro h q hq
  rw [hi] at hq
  cases hq
  simpa [hw, Request.wf] using h

theorem no_request {i : Instr} (h : requestOf i = none) : RequestSize.Statement i := by
  intro _ q hq
  rw [h] at hq
  cases hq

theorem RequestSize.ruhityDatagram (src : Source) (broadcast : Bool) (fragment : Bool) (checksumOk : Bool) (bytes : List Byte) : RequestSize.Statement (.ruhityDatagram src broadcast fragment checksumOk bytes) := no_request rfl
theorem RequestSize.inboxTake : RequestSize.Statement (.inboxTake) := no_request rfl
theorem RequestSize.broadcastReply : RequestSize.Statement (.broadcastReply) := no_request rfl
theorem RequestSize.authLockoutEnd (src : Source) : RequestSize.Statement (.authLockoutEnd src) := no_request rfl
theorem RequestSize.pendingCommit (handle : Nat) : RequestSize.Statement (.pendingCommit handle) := no_request rfl
theorem RequestSize.deferredEffect (handle : Nat) : RequestSize.Statement (.deferredEffect handle) := no_request rfl
theorem RequestSize.resetEntry : RequestSize.Statement (.resetEntry) := no_request rfl
theorem RequestSize.imageSessionTimeout : RequestSize.Statement (.imageSessionTimeout) := no_request rfl
theorem RequestSize.ping (rq : Request) : RequestSize.Statement (.ping rq) := request_size rq rfl rfl
theorem RequestSize.getInfo (rq : Request) : RequestSize.Statement (.getInfo rq) := request_size rq rfl rfl
theorem RequestSize.cancel (rq : Request) : RequestSize.Statement (.cancel rq) := request_size rq rfl rfl
theorem RequestSize.setLatencyTolerance (rq : Request) : RequestSize.Statement (.setLatencyTolerance rq) := request_size rq rfl rfl
theorem RequestSize.getOperatingPoint (rq : Request) : RequestSize.Statement (.getOperatingPoint rq) := request_size rq rfl rfl
theorem RequestSize.setWakeTimer (rq : Request) : RequestSize.Statement (.setWakeTimer rq) := request_size rq rfl rfl
theorem RequestSize.identityRead (rq : Request) : RequestSize.Statement (.identityRead rq) := request_size rq rfl rfl
theorem RequestSize.imageBegin (rq : Request) : RequestSize.Statement (.imageBegin rq) := request_size rq rfl rfl
theorem RequestSize.imageData (rq : Request) : RequestSize.Statement (.imageData rq) := request_size rq rfl rfl
theorem RequestSize.imageCommit (rq : Request) : RequestSize.Statement (.imageCommit rq) := request_size rq rfl rfl
theorem RequestSize.imageActivate (rq : Request) : RequestSize.Statement (.imageActivate rq) := request_size rq rfl rfl
theorem RequestSize.imageConfirm (rq : Request) : RequestSize.Statement (.imageConfirm rq) := request_size rq rfl rfl
theorem RequestSize.imageRollback (rq : Request) : RequestSize.Statement (.imageRollback rq) := request_size rq rfl rfl
theorem RequestSize.setState (rq : Request) : RequestSize.Statement (.setState rq) := request_size rq rfl rfl
theorem RequestSize.reset (rq : Request) : RequestSize.Statement (.reset rq) := request_size rq rfl rfl
theorem RequestSize.configSave (rq : Request) : RequestSize.Statement (.configSave rq) := request_size rq rfl rfl
theorem RequestSize.authKeySet (rq : Request) : RequestSize.Statement (.authKeySet rq) := request_size rq rfl rfl
theorem RequestSize.authPolicySet (rq : Request) : RequestSize.Statement (.authPolicySet rq) := request_size rq rfl rfl
theorem RequestSize.cyclicMapDefine (rq : Request) : RequestSize.Statement (.cyclicMapDefine rq) := request_size rq rfl rfl
theorem RequestSize.cyclicMapEnable (rq : Request) : RequestSize.Statement (.cyclicMapEnable rq) := request_size rq rfl rfl
theorem RequestSize.cyclicMapStatus (rq : Request) : RequestSize.Statement (.cyclicMapStatus rq) := request_size rq rfl rfl
theorem RequestSize.axisBind (rq : Request) : RequestSize.Statement (.axisBind rq) := request_size rq rfl rfl
theorem RequestSize.axisSetMode (rq : Request) : RequestSize.Statement (.axisSetMode rq) := request_size rq rfl rfl
theorem RequestSize.axisEnable (rq : Request) : RequestSize.Statement (.axisEnable rq) := request_size rq rfl rfl
theorem RequestSize.axisDisable (rq : Request) : RequestSize.Statement (.axisDisable rq) := request_size rq rfl rfl
theorem RequestSize.axisStatus (rq : Request) : RequestSize.Statement (.axisStatus rq) := request_size rq rfl rfl
theorem RequestSize.moveAbs (rq : Request) : RequestSize.Statement (.moveAbs rq) := request_size rq rfl rfl
theorem RequestSize.moveRel (rq : Request) : RequestSize.Statement (.moveRel rq) := request_size rq rfl rfl
theorem RequestSize.jog (rq : Request) : RequestSize.Statement (.jog rq) := request_size rq rfl rfl
theorem RequestSize.stop (rq : Request) : RequestSize.Statement (.stop rq) := request_size rq rfl rfl
theorem RequestSize.segmentAppend (rq : Request) : RequestSize.Statement (.segmentAppend rq) := request_size rq rfl rfl
theorem RequestSize.planAxisConfig (rq : Request) : RequestSize.Statement (.planAxisConfig rq) := request_size rq rfl rfl
theorem RequestSize.groupDefine (rq : Request) : RequestSize.Statement (.groupDefine rq) := request_size rq rfl rfl
theorem RequestSize.groupStart (rq : Request) : RequestSize.Statement (.groupStart rq) := request_size rq rfl rfl
theorem RequestSize.groupResume (rq : Request) : RequestSize.Statement (.groupResume rq) := request_size rq rfl rfl
theorem RequestSize.groupClear (rq : Request) : RequestSize.Statement (.groupClear rq) := request_size rq rfl rfl
theorem RequestSize.groupStatus (rq : Request) : RequestSize.Statement (.groupStatus rq) := request_size rq rfl rfl
theorem RequestSize.storeStatus (rq : Request) : RequestSize.Statement (.storeStatus rq) := request_size rq rfl rfl
theorem RequestSize.overrideSet (rq : Request) : RequestSize.Statement (.overrideSet rq) := request_size rq rfl rfl
theorem RequestSize.gearLink (rq : Request) : RequestSize.Statement (.gearLink rq) := request_size rq rfl rfl
theorem RequestSize.gearRatioAt (rq : Request) : RequestSize.Statement (.gearRatioAt rq) := request_size rq rfl rfl
theorem RequestSize.gearClearPending (rq : Request) : RequestSize.Statement (.gearClearPending rq) := request_size rq rfl rfl
theorem RequestSize.camDefine (rq : Request) : RequestSize.Statement (.camDefine rq) := request_size rq rfl rfl
theorem RequestSize.camData (rq : Request) : RequestSize.Statement (.camData rq) := request_size rq rfl rfl
theorem RequestSize.camCommit (rq : Request) : RequestSize.Statement (.camCommit rq) := request_size rq rfl rfl
theorem RequestSize.vmasterSet (rq : Request) : RequestSize.Statement (.vmasterSet rq) := request_size rq rfl rfl
theorem RequestSize.gearStatusRead (rq : Request) : RequestSize.Statement (.gearStatusRead rq) := request_size rq rfl rfl
theorem RequestSize.loopLoadCascade (rq : Request) : RequestSize.Statement (.loopLoadCascade rq) := request_size rq rfl rfl
theorem RequestSize.loopSchedule (rq : Request) : RequestSize.Statement (.loopSchedule rq) := request_size rq rfl rfl
theorem RequestSize.loopScales (rq : Request) : RequestSize.Statement (.loopScales rq) := request_size rq rfl rfl
theorem RequestSize.loopMotor (rq : Request) : RequestSize.Statement (.loopMotor rq) := request_size rq rfl rfl
theorem RequestSize.loopModulation (rq : Request) : RequestSize.Statement (.loopModulation rq) := request_size rq rfl rfl
theorem RequestSize.loopFollow (rq : Request) : RequestSize.Statement (.loopFollow rq) := request_size rq rfl rfl
theorem RequestSize.loopLimits (rq : Request) : RequestSize.Statement (.loopLimits rq) := request_size rq rfl rfl
theorem RequestSize.loopObserver (rq : Request) : RequestSize.Statement (.loopObserver rq) := request_size rq rfl rfl
theorem RequestSize.loopRead (rq : Request) : RequestSize.Statement (.loopRead rq) := request_size rq rfl rfl
theorem RequestSize.loopStatusRead (rq : Request) : RequestSize.Statement (.loopStatusRead rq) := request_size rq rfl rfl
theorem RequestSize.ppConfig (rq : Request) : RequestSize.Statement (.ppConfig rq) := request_size rq rfl rfl
theorem RequestSize.ppSetPosition (rq : Request) : RequestSize.Statement (.ppSetPosition rq) := request_size rq rfl rfl
theorem RequestSize.ppIndexConfig (rq : Request) : RequestSize.Statement (.ppIndexConfig rq) := request_size rq rfl rfl
theorem RequestSize.ppSpeedConfig (rq : Request) : RequestSize.Statement (.ppSpeedConfig rq) := request_size rq rfl rfl
theorem RequestSize.ppLossConfig (rq : Request) : RequestSize.Statement (.ppLossConfig rq) := request_size rq rfl rfl
theorem RequestSize.ppStatusRead (rq : Request) : RequestSize.Statement (.ppStatusRead rq) := request_size rq rfl rfl
theorem RequestSize.compareDefine (rq : Request) : RequestSize.Statement (.compareDefine rq) := request_size rq rfl rfl
theorem RequestSize.compareData (rq : Request) : RequestSize.Statement (.compareData rq) := request_size rq rfl rfl
theorem RequestSize.compareArm (rq : Request) : RequestSize.Statement (.compareArm rq) := request_size rq rfl rfl
theorem RequestSize.compareForce (rq : Request) : RequestSize.Statement (.compareForce rq) := request_size rq rfl rfl
theorem RequestSize.latchConfig (rq : Request) : RequestSize.Statement (.latchConfig rq) := request_size rq rfl rfl
theorem RequestSize.latchRead (rq : Request) : RequestSize.Statement (.latchRead rq) := request_size rq rfl rfl
theorem RequestSize.snapshotConfig (rq : Request) : RequestSize.Statement (.snapshotConfig rq) := request_size rq rfl rfl
theorem RequestSize.snapshotRead (rq : Request) : RequestSize.Statement (.snapshotRead rq) := request_size rq rfl rfl
theorem RequestSize.snapshotTrigger (rq : Request) : RequestSize.Statement (.snapshotTrigger rq) := request_size rq rfl rfl
theorem RequestSize.btaGroupConfig (rq : Request) : RequestSize.Statement (.btaGroupConfig rq) := request_size rq rfl rfl
theorem RequestSize.btaLegConfig (rq : Request) : RequestSize.Statement (.btaLegConfig rq) := request_size rq rfl rfl
theorem RequestSize.btaTripConfig (rq : Request) : RequestSize.Statement (.btaTripConfig rq) := request_size rq rfl rfl
theorem RequestSize.btaTripClear (rq : Request) : RequestSize.Statement (.btaTripClear rq) := request_size rq rfl rfl
theorem RequestSize.btaBlankConfig (rq : Request) : RequestSize.Statement (.btaBlankConfig rq) := request_size rq rfl rfl
theorem RequestSize.btaTripInputConfig (rq : Request) : RequestSize.Statement (.btaTripInputConfig rq) := request_size rq rfl rfl
theorem RequestSize.btaSdcConfig (rq : Request) : RequestSize.Statement (.btaSdcConfig rq) := request_size rq rfl rfl
theorem RequestSize.btaSdiConfig (rq : Request) : RequestSize.Statement (.btaSdiConfig rq) := request_size rq rfl rfl
theorem RequestSize.btaDutySet (rq : Request) : RequestSize.Statement (.btaDutySet rq) := request_size rq rfl rfl
theorem RequestSize.btaBankLevel (rq : Request) : RequestSize.Statement (.btaBankLevel rq) := request_size rq rfl rfl
theorem RequestSize.btaStatusRead (rq : Request) : RequestSize.Statement (.btaStatusRead rq) := request_size rq rfl rfl
theorem RequestSize.stepperConfig (rq : Request) : RequestSize.Statement (.stepperConfig rq) := request_size rq rfl rfl
theorem RequestSize.stepperStatusRead (rq : Request) : RequestSize.Statement (.stepperStatusRead rq) := request_size rq rfl rfl
theorem RequestSize.stepperSetPosition (rq : Request) : RequestSize.Statement (.stepperSetPosition rq) := request_size rq rfl rfl
theorem RequestSize.brickRegister (rq : Request) : RequestSize.Statement (.brickRegister rq) := request_size rq rfl rfl
theorem RequestSize.frameGroupConfig (rq : Request) : RequestSize.Statement (.frameGroupConfig rq) := request_size rq rfl rfl
theorem RequestSize.brickStatus (rq : Request) : RequestSize.Statement (.brickStatus rq) := request_size rq rfl rfl
theorem RequestSize.netAddrConfig (rq : Request) : RequestSize.Statement (.netAddrConfig rq) := request_size rq rfl rfl
theorem RequestSize.portConfig (rq : Request) : RequestSize.Statement (.portConfig rq) := request_size rq rfl rfl
theorem RequestSize.vlanConfig (rq : Request) : RequestSize.Statement (.vlanConfig rq) := request_size rq rfl rfl
theorem RequestSize.fdbStatic (rq : Request) : RequestSize.Statement (.fdbStatic rq) := request_size rq rfl rfl
theorem RequestSize.gateListSet (rq : Request) : RequestSize.Statement (.gateListSet rq) := request_size rq rfl rfl
theorem RequestSize.cbsConfig (rq : Request) : RequestSize.Statement (.cbsConfig rq) := request_size rq rfl rfl
theorem RequestSize.portStatusRead (rq : Request) : RequestSize.Statement (.portStatusRead rq) := request_size rq rfl rfl
theorem RequestSize.ptpConfig (rq : Request) : RequestSize.Statement (.ptpConfig rq) := request_size rq rfl rfl
theorem RequestSize.ptpStatus (rq : Request) : RequestSize.Statement (.ptpStatus rq) := request_size rq rfl rfl
theorem RequestSize.timebaseConfig (rq : Request) : RequestSize.Statement (.timebaseConfig rq) := request_size rq rfl rfl
theorem RequestSize.timebaseSet (rq : Request) : RequestSize.Statement (.timebaseSet rq) := request_size rq rfl rfl
theorem RequestSize.timebaseStatus (rq : Request) : RequestSize.Statement (.timebaseStatus rq) := request_size rq rfl rfl
theorem RequestSize.domainTrust (rq : Request) : RequestSize.Statement (.domainTrust rq) := request_size rq rfl rfl
theorem RequestSize.tsoConfig (rq : Request) : RequestSize.Statement (.tsoConfig rq) := request_size rq rfl rfl
theorem RequestSize.tsoStatusRead (rq : Request) : RequestSize.Statement (.tsoStatusRead rq) := request_size rq rfl rfl
theorem RequestSize.lodgeRead (rq : Request) : RequestSize.Statement (.lodgeRead rq) := request_size rq rfl rfl
theorem RequestSize.lodgeParamStage (rq : Request) : RequestSize.Statement (.lodgeParamStage rq) := request_size rq rfl rfl
theorem RequestSize.lodgeParamConfirm (rq : Request) : RequestSize.Statement (.lodgeParamConfirm rq) := request_size rq rfl rfl
theorem RequestSize.lodgeKeyEnrol (rq : Request) : RequestSize.Statement (.lodgeKeyEnrol rq) := request_size rq rfl rfl
theorem RequestSize.lodgeFaultClear (rq : Request) : RequestSize.Statement (.lodgeFaultClear rq) := request_size rq rfl rfl
theorem RequestSize.fioGroupConfig (rq : Request) : RequestSize.Statement (.fioGroupConfig rq) := request_size rq rfl rfl
theorem RequestSize.fioInputConfig (rq : Request) : RequestSize.Statement (.fioInputConfig rq) := request_size rq rfl rfl
theorem RequestSize.fioOutputConfig (rq : Request) : RequestSize.Statement (.fioOutputConfig rq) := request_size rq rfl rfl
theorem RequestSize.fioOutputSet (rq : Request) : RequestSize.Statement (.fioOutputSet rq) := request_size rq rfl rfl
theorem RequestSize.fioRead (rq : Request) : RequestSize.Statement (.fioRead rq) := request_size rq rfl rfl
theorem RequestSize.fioClear (rq : Request) : RequestSize.Statement (.fioClear rq) := request_size rq rfl rfl
theorem RequestSize.canConfig (rq : Request) : RequestSize.Statement (.canConfig rq) := request_size rq rfl rfl
theorem RequestSize.canFilterSet (rq : Request) : RequestSize.Statement (.canFilterSet rq) := request_size rq rfl rfl
theorem RequestSize.canTtConfig (rq : Request) : RequestSize.Statement (.canTtConfig rq) := request_size rq rfl rfl
theorem RequestSize.canTtBufferSet (rq : Request) : RequestSize.Statement (.canTtBufferSet rq) := request_size rq rfl rfl
theorem RequestSize.canTx (rq : Request) : RequestSize.Statement (.canTx rq) := request_size rq rfl rfl
theorem RequestSize.canRxRead (rq : Request) : RequestSize.Statement (.canRxRead rq) := request_size rq rfl rfl
theorem RequestSize.canStatusRead (rq : Request) : RequestSize.Statement (.canStatusRead rq) := request_size rq rfl rfl
theorem RequestSize.canBitrateDetect (rq : Request) : RequestSize.Statement (.canBitrateDetect rq) := request_size rq rfl rfl
theorem RequestSize.canBusRecover (rq : Request) : RequestSize.Statement (.canBusRecover rq) := request_size rq rfl rfl
theorem RequestSize.spmProfileSet (rq : Request) : RequestSize.Statement (.spmProfileSet rq) := request_size rq rfl rfl
theorem RequestSize.spmDiscover (rq : Request) : RequestSize.Statement (.spmDiscover rq) := request_size rq rfl rfl
theorem RequestSize.spmErase (rq : Request) : RequestSize.Statement (.spmErase rq) := request_size rq rfl rfl
theorem RequestSize.spmFlush (rq : Request) : RequestSize.Statement (.spmFlush rq) := request_size rq rfl rfl
theorem RequestSize.spmStatusRead (rq : Request) : RequestSize.Statement (.spmStatusRead rq) := request_size rq rfl rfl
theorem RequestSize.sphStatusRead (rq : Request) : RequestSize.Statement (.sphStatusRead rq) := request_size rq rfl rfl
theorem RequestSize.acqChannelConfig (rq : Request) : RequestSize.Statement (.acqChannelConfig rq) := request_size rq rfl rfl
theorem RequestSize.acqPinConfig (rq : Request) : RequestSize.Statement (.acqPinConfig rq) := request_size rq rfl rfl
theorem RequestSize.acqTriggerConfig (rq : Request) : RequestSize.Statement (.acqTriggerConfig rq) := request_size rq rfl rfl
theorem RequestSize.acqEnvelopeSet (rq : Request) : RequestSize.Statement (.acqEnvelopeSet rq) := request_size rq rfl rfl
theorem RequestSize.acqCaptureConfig (rq : Request) : RequestSize.Statement (.acqCaptureConfig rq) := request_size rq rfl rfl
theorem RequestSize.acqArm (rq : Request) : RequestSize.Statement (.acqArm rq) := request_size rq rfl rfl
theorem RequestSize.acqStop (rq : Request) : RequestSize.Statement (.acqStop rq) := request_size rq rfl rfl
theorem RequestSize.acqForce (rq : Request) : RequestSize.Statement (.acqForce rq) := request_size rq rfl rfl
theorem RequestSize.acqRead (rq : Request) : RequestSize.Statement (.acqRead rq) := request_size rq rfl rfl
theorem RequestSize.acqStatusRead (rq : Request) : RequestSize.Statement (.acqStatusRead rq) := request_size rq rfl rfl
theorem RequestSize.acqCalibrate (rq : Request) : RequestSize.Statement (.acqCalibrate rq) := request_size rq rfl rfl
theorem RequestSize.pluginLoad (rq : Request) : RequestSize.Statement (.pluginLoad rq) := request_size rq rfl rfl
theorem RequestSize.threadDefine (rq : Request) : RequestSize.Statement (.threadDefine rq) := request_size rq rfl rfl
theorem RequestSize.threadEnable (rq : Request) : RequestSize.Statement (.threadEnable rq) := request_size rq rfl rfl
theorem RequestSize.threadSignal (rq : Request) : RequestSize.Statement (.threadSignal rq) := request_size rq rfl rfl
theorem RequestSize.threadTimerConfig (rq : Request) : RequestSize.Statement (.threadTimerConfig rq) := request_size rq rfl rfl
theorem RequestSize.pluginPortConfig (rq : Request) : RequestSize.Statement (.pluginPortConfig rq) := request_size rq rfl rfl
theorem RequestSize.threadStatusRead (rq : Request) : RequestSize.Statement (.threadStatusRead rq) := request_size rq rfl rfl
theorem RequestSize.laneStatusRead (rq : Request) : RequestSize.Statement (.laneStatusRead rq) := request_size rq rfl rfl
theorem RequestSize.laneKeyEnrol (rq : Request) : RequestSize.Statement (.laneKeyEnrol rq) := request_size rq rfl rfl
theorem RequestSize.tallyRead (rq : Request) : RequestSize.Statement (.tallyRead rq) := request_size rq rfl rfl
theorem RequestSize.faultRead (rq : Request) : RequestSize.Statement (.faultRead rq) := request_size rq rfl rfl
theorem RequestSize.faultAck (rq : Request) : RequestSize.Statement (.faultAck rq) := request_size rq rfl rfl
theorem RequestSize.eventRead (rq : Request) : RequestSize.Statement (.eventRead rq) := request_size rq rfl rfl
theorem RequestSize.sphWriteFrame (addr : Nat) (words : List Word) (fin : FrameEnd) : RequestSize.Statement (.sphWriteFrame addr words fin) := no_request rfl
theorem RequestSize.sphReadFrame (addr : Nat) (len : Nat) (fin : FrameEnd) : RequestSize.Statement (.sphReadFrame addr len fin) := no_request rfl
theorem RequestSize.sphPacketIn (bytes : List Byte) (fin : FrameEnd) : RequestSize.Statement (.sphPacketIn bytes fin) := no_request rfl
theorem RequestSize.sphPacketOut (len : Nat) (fin : FrameEnd) : RequestSize.Statement (.sphPacketOut len fin) := no_request rfl
theorem RequestSize.sphStatusFrame (fin : FrameEnd) : RequestSize.Statement (.sphStatusFrame fin) := no_request rfl
theorem RequestSize.indDataRead (ctx : Fin 6) : RequestSize.Statement (.indDataRead ctx) := no_request rfl
theorem RequestSize.indDataWrite (ctx : Fin 6) (value : Word) : RequestSize.Statement (.indDataWrite ctx value) := no_request rfl
theorem RequestSize.indAddrWrite (ctx : Fin 6) (value : Word) : RequestSize.Statement (.indAddrWrite ctx value) := no_request rfl
theorem RequestSize.indCtrlWrite (ctx : Fin 6) (value : Word) : RequestSize.Statement (.indCtrlWrite ctx value) := no_request rfl
theorem RequestSize.indAccessTimeout (ctx : Fin 6) : RequestSize.Statement (.indAccessTimeout ctx) := no_request rfl
theorem RequestSize.updStrobeWrite (ctx : Fin 6) (value : Word) : RequestSize.Statement (.updStrobeWrite ctx value) := no_request rfl
theorem RequestSize.updateTakeover (group : Fin 16) : RequestSize.Statement (.updateTakeover group) := no_request rfl
theorem RequestSize.wideLowRead (ctx : Fin 6) (addr : Nat) : RequestSize.Statement (.wideLowRead ctx addr) := no_request rfl
theorem RequestSize.wideHighRead (ctx : Fin 6) (addr : Nat) : RequestSize.Statement (.wideHighRead ctx addr) := no_request rfl
theorem RequestSize.wideLowWrite (ctx : Fin 6) (addr : Nat) (value : Word) : RequestSize.Statement (.wideLowWrite ctx addr value) := no_request rfl
theorem RequestSize.wideHighWrite (ctx : Fin 6) (addr : Nat) (value : Word) : RequestSize.Statement (.wideHighWrite ctx addr value) := no_request rfl
theorem RequestSize.rcRegisterRead (ctx : Fin 6) (addr : Nat) (bytes : Nat) : RequestSize.Statement (.rcRegisterRead ctx addr bytes) := no_request rfl
theorem RequestSize.registerWrite (ctx : Fin 6) (addr : Nat) (bytes : Nat) (value : Word) : RequestSize.Statement (.registerWrite ctx addr bytes value) := no_request rfl
theorem RequestSize.grpSealWrite (ctx : Fin 6) (group : Fin 32) (value : Word) : RequestSize.Statement (.grpSealWrite ctx group value) := no_request rfl
theorem RequestSize.legCmpbSealWrite (ctx : Fin 6) (group : Fin 32) (value : Word) : RequestSize.Statement (.legCmpbSealWrite ctx group value) := no_request rfl
theorem RequestSize.legDutyWrite (ctx : Fin 6) (leg : Fin 96) (value : Word) : RequestSize.Statement (.legDutyWrite ctx leg value) := no_request rfl
theorem RequestSize.grpTripClear (ctx : Fin 6) (group : Fin 32) : RequestSize.Statement (.grpTripClear ctx group) := no_request rfl
theorem RequestSize.fioDoWrite (ctx : Fin 6) (group : Fin 4) (cmd : BitVec 4) : RequestSize.Statement (.fioDoWrite ctx group cmd) := no_request rfl
theorem RequestSize.xipRead (ctx : Fin 6) (addr : Nat) : RequestSize.Statement (.xipRead ctx addr) := no_request rfl
theorem RequestSize.xipWrite (ctx : Fin 6) (addr : Nat) (value : Word) : RequestSize.Statement (.xipWrite ctx addr value) := no_request rfl
theorem RequestSize.spmBufferTimeout (sel : Fin 4) : RequestSize.Statement (.spmBufferTimeout sel) := no_request rfl
theorem RequestSize.spmStatusPoll (sel : Fin 4) (busy : Bool) : RequestSize.Statement (.spmStatusPoll sel busy) := no_request rfl
theorem RequestSize.spmOpTimeout (sel : Fin 4) : RequestSize.Statement (.spmOpTimeout sel) := no_request rfl
theorem RequestSize.resetRelease : RequestSize.Statement (.resetRelease) := no_request rfl
theorem RequestSize.keeperStart : RequestSize.Statement (.keeperStart) := no_request rfl
theorem RequestSize.gardenerStart : RequestSize.Statement (.gardenerStart) := no_request rfl
theorem RequestSize.gardenerReady : RequestSize.Statement (.gardenerReady) := no_request rfl
theorem RequestSize.autostart : RequestSize.Statement (.autostart) := no_request rfl
theorem RequestSize.gardenerWatchdog : RequestSize.Statement (.gardenerWatchdog) := no_request rfl
theorem RequestSize.keeperWatchdog : RequestSize.Statement (.keeperWatchdog) := no_request rfl
theorem RequestSize.vlogLow : RequestSize.Statement (.vlogLow) := no_request rfl
theorem RequestSize.resetPin : RequestSize.Statement (.resetPin) := no_request rfl
theorem RequestSize.referenceLoss : RequestSize.Statement (.referenceLoss) := no_request rfl
theorem RequestSize.pllLock : RequestSize.Statement (.pllLock) := no_request rfl
theorem RequestSize.vsafLoss : RequestSize.Statement (.vsafLoss) := no_request rfl
theorem RequestSize.vsafReturn : RequestSize.Statement (.vsafReturn) := no_request rfl
theorem RequestSize.tempSample (hottest : Int) : RequestSize.Statement (.tempSample hottest) := no_request rfl
theorem RequestSize.bandFall : RequestSize.Statement (.bandFall) := no_request rfl
theorem RequestSize.voltageRampEnd : RequestSize.Statement (.voltageRampEnd) := no_request rfl
theorem RequestSize.powerStateEval : RequestSize.Statement (.powerStateEval) := no_request rfl
theorem RequestSize.wakeEvent : RequestSize.Statement (.wakeEvent) := no_request rfl
theorem RequestSize.wakeTimerExpiry : RequestSize.Statement (.wakeTimerExpiry) := no_request rfl
theorem RequestSize.wakeComplete : RequestSize.Statement (.wakeComplete) := no_request rfl
theorem RequestSize.keeperHeartbeat (word : Word) : RequestSize.Statement (.keeperHeartbeat word) := no_request rfl
theorem RequestSize.tallyAudit : RequestSize.Statement (.tallyAudit) := no_request rfl
theorem RequestSize.voteScrub (addr : Nat) (width : Nat) (resetVal : Word) (c0 : Word) (c1 : Word) (c2 : Word) : RequestSize.Statement (.voteScrub addr width resetVal c0 c1 c2) := no_request rfl
theorem RequestSize.memoryScrub (addr : Nat) (symbols : Nat) : RequestSize.Statement (.memoryScrub addr symbols) := no_request rfl
theorem RequestSize.loopSample (slot : Fin 64) (loop : Fin 3) : RequestSize.Statement (.loopSample slot loop) := no_request rfl
theorem RequestSize.loopResultReady (slot : Fin 64) (loop : Fin 3) : RequestSize.Statement (.loopResultReady slot loop) := no_request rfl
theorem RequestSize.loopRelease (slot : Fin 64) (loop : Fin 3) : RequestSize.Statement (.loopRelease slot loop) := no_request rfl
theorem RequestSize.ainConversion (channel : Fin 8) (code : BitVec 16) : RequestSize.Statement (.ainConversion channel code) := no_request rfl
theorem RequestSize.plannerBoundary (unit : PlanUnit) : RequestSize.Statement (.plannerBoundary unit) := no_request rfl
theorem RequestSize.standstillEntry (slot : Fin 64) : RequestSize.Statement (.standstillEntry slot) := no_request rfl
theorem RequestSize.alignmentComplete (slot : Fin 64) : RequestSize.Statement (.alignmentComplete slot) := no_request rfl
theorem RequestSize.reactionComplete (slot : Fin 64) : RequestSize.Statement (.reactionComplete slot) := no_request rfl
theorem RequestSize.observerStartTimeout (slot : Fin 64) : RequestSize.Statement (.observerStartTimeout slot) := no_request rfl
theorem RequestSize.periodBoundary (group : Fin 32) : RequestSize.Statement (.periodBoundary group) := no_request rfl
theorem RequestSize.tripInputAccepted (input : Fin 16) (level : Bool) : RequestSize.Statement (.tripInputAccepted input level) := no_request rfl
theorem RequestSize.overcurrentDetect (input : Fin 96) : RequestSize.Statement (.overcurrentDetect input) := no_request rfl
theorem RequestSize.blankWindowEnd (timer : Fin 8) : RequestSize.Statement (.blankWindowEnd timer) := no_request rfl
theorem RequestSize.delayLineCalibration (leg : Fin 12) (nCal : Nat) : RequestSize.Statement (.delayLineCalibration leg nCal) := no_request rfl
theorem RequestSize.calFallback (leg : Fin 12) : RequestSize.Statement (.calFallback leg) := no_request rfl
theorem RequestSize.bankLevelSettled (bank : Fin 8) : RequestSize.Statement (.bankLevelSettled bank) := no_request rfl
theorem RequestSize.holdRampEnd (slot : Fin 64) : RequestSize.Statement (.holdRampEnd slot) := no_request rfl
theorem RequestSize.freewheelStart (slot : Fin 64) : RequestSize.Statement (.freewheelStart slot) := no_request rfl
theorem RequestSize.freewheelLimitExceeded (slot : Fin 64) : RequestSize.Statement (.freewheelLimitExceeded slot) := no_request rfl
theorem RequestSize.wakeRampEnd (slot : Fin 64) : RequestSize.Statement (.wakeRampEnd slot) := no_request rfl
theorem RequestSize.ppEdgeAccepted (port : Fin 32) (lines : BitVec 4) : RequestSize.Statement (.ppEdgeAccepted port lines) := no_request rfl
theorem RequestSize.ssiFrameStart (port : Fin 32) : RequestSize.Statement (.ssiFrameStart port) := no_request rfl
theorem RequestSize.ssiFrameEnd (port : Fin 32) (data : BitVec 64) (timeout : Bool) : RequestSize.Statement (.ssiFrameEnd port data timeout) := no_request rfl
theorem RequestSize.sincosSample (port : Fin 8) (sineCode : BitVec 14) (cosineCode : BitVec 14) : RequestSize.Statement (.sincosSample port sineCode cosineCode) := no_request rfl
theorem RequestSize.speedEvaluation (port : Fin 32) : RequestSize.Statement (.speedEvaluation port) := no_request rfl
theorem RequestSize.speedStandstillTimeout (port : Fin 32) : RequestSize.Statement (.speedStandstillTimeout port) := no_request rfl
theorem RequestSize.lineFault (port : Fin 32) : RequestSize.Statement (.lineFault port) := no_request rfl
theorem RequestSize.hallIllegal (port : Fin 32) : RequestSize.Statement (.hallIllegal port) := no_request rfl
theorem RequestSize.freezeDetect (port : Fin 32) : RequestSize.Statement (.freezeDetect port) := no_request rfl
theorem RequestSize.encoderSupplyLimit (supply : Fin 8) : RequestSize.Statement (.encoderSupplyLimit supply) := no_request rfl
theorem RequestSize.lossClear (port : Fin 32) : RequestSize.Statement (.lossClear port) := no_request rfl
theorem RequestSize.comparePulseEnd (unit : Fin 16) : RequestSize.Statement (.comparePulseEnd unit) := no_request rfl
theorem RequestSize.latchEvent (pin : Option (Fin 16)) (rise : Bool) : RequestSize.Statement (.latchEvent pin rise) := no_request rfl
theorem RequestSize.latchCapture (unit : Fin 16) : RequestSize.Statement (.latchCapture unit) := no_request rfl
theorem RequestSize.snapshotCapture : RequestSize.Statement (.snapshotCapture) := no_request rfl
theorem RequestSize.draymanInbound (port : Fin 4) (mac : BitVec 48) (payload : List Byte) : RequestSize.Statement (.draymanInbound port mac payload) := no_request rfl
theorem RequestSize.brickRecordDeadline (brick : Fin 64) : RequestSize.Statement (.brickRecordDeadline brick) := no_request rfl
theorem RequestSize.draymanLaunch (group : Fin 16) : RequestSize.Statement (.draymanLaunch group) := no_request rfl
theorem RequestSize.stoFrame : RequestSize.Statement (.stoFrame) := no_request rfl
theorem RequestSize.cyclicFrameRx (port : Fin 4) (frame : NetFrame) : RequestSize.Statement (.cyclicFrameRx port frame) := no_request rfl
theorem RequestSize.cyclicApply (map : Fin 16) : RequestSize.Statement (.cyclicApply map) := no_request rfl
theorem RequestSize.cyclicSample (map : Fin 16) : RequestSize.Statement (.cyclicSample map) := no_request rfl
theorem RequestSize.cyclicLaunch (map : Fin 16) : RequestSize.Statement (.cyclicLaunch map) := no_request rfl
theorem RequestSize.cyclicEnableEffect (map : Fin 32) : RequestSize.Statement (.cyclicEnableEffect map) := no_request rfl
theorem RequestSize.linkUp (port : Fin 4) (gigabit : Bool) (fast : Bool) (crossed : Bool) (phyOk : Bool) : RequestSize.Statement (.linkUp port gigabit fast crossed phyOk) := no_request rfl
theorem RequestSize.linkDown (port : Fin 4) : RequestSize.Statement (.linkDown port) := no_request rfl
theorem RequestSize.frameIngress (port : Fin 4) (frame : NetFrame) (fcsOk : Bool) : RequestSize.Statement (.frameIngress port frame fcsOk) := no_request rfl
theorem RequestSize.frameEgress (port : Fin 4) : RequestSize.Statement (.frameEgress port) := no_request rfl
theorem RequestSize.arpRequest (port : Fin 4) (senderMac : BitVec 48) (senderIp : BitVec 32) (targetIp : BitVec 32) : RequestSize.Statement (.arpRequest port senderMac senderIp targetIp) := no_request rfl
theorem RequestSize.icmpEcho (port : Fin 4) (senderMac : BitVec 48) (senderIp : BitVec 32) (targetIp : BitVec 32) (message : List Byte) : RequestSize.Statement (.icmpEcho port senderMac senderIp targetIp message) := no_request rfl
theorem RequestSize.fdbAgeOut (mac : BitVec 48) (vid : Nat) : RequestSize.Statement (.fdbAgeOut mac vid) := no_request rfl
theorem RequestSize.gateEntryChange (port : Fin 4) : RequestSize.Statement (.gateEntryChange port) := no_request rfl
theorem RequestSize.gateListTakeover (port : Fin 4) : RequestSize.Statement (.gateListTakeover port) := no_request rfl
theorem RequestSize.preemptVerify (port : Fin 4) (ok : Bool) : RequestSize.Statement (.preemptVerify port ok) := no_request rfl
theorem RequestSize.syncReceived (inst : Fin 2) (port : Fin 4) (gm : BitVec 64) (steps : Nat) (time : Nat) : RequestSize.Statement (.syncReceived inst port gm steps time) := no_request rfl
theorem RequestSize.pdelayExchange (port : Fin 4) (delay : Nat) (answered : Bool) : RequestSize.Statement (.pdelayExchange port delay answered) := no_request rfl
theorem RequestSize.syncReceiptTimeout (inst : Fin 2) : RequestSize.Statement (.syncReceiptTimeout inst) := no_request rfl
theorem RequestSize.holdoverExpiry (base : Fin 4) : RequestSize.Statement (.holdoverExpiry base) := no_request rfl
theorem RequestSize.gmSyncSend (inst : Fin 2) : RequestSize.Statement (.gmSyncSend inst) := no_request rfl
theorem RequestSize.tsoInstant (out : Fin 8) : RequestSize.Statement (.tsoInstant out) := no_request rfl
theorem RequestSize.tsoPulseEnd (out : Fin 8) : RequestSize.Statement (.tsoPulseEnd out) := no_request rfl
theorem RequestSize.siLevelAccepted (input : Fin 16) (level : Bool) : RequestSize.Statement (.siLevelAccepted input level) := no_request rfl
theorem RequestSize.testPulse (tp : Fin 4) (missing : BitVec 16) (foreign : BitVec 16) : RequestSize.Statement (.testPulse tp missing foreign) := no_request rfl
theorem RequestSize.discrepancyTimeout (pair : Fin 8) : RequestSize.Statement (.discrepancyTimeout pair) := no_request rfl
theorem RequestSize.lodgeSnapshot : RequestSize.Statement (.lodgeSnapshot) := no_request rfl
theorem RequestSize.lodgeCommandInstant (disagree : Bool) (internal : Option (Fin 3)) : RequestSize.Statement (.lodgeCommandInstant disagree internal) := no_request rfl
theorem RequestSize.ss1QuickStop : RequestSize.Statement (.ss1QuickStop) := no_request rfl
theorem RequestSize.ss1DelayExpiry (out : Option (Fin 4)) : RequestSize.Statement (.ss1DelayExpiry out) := no_request rfl
theorem RequestSize.stoinDemand (a : Bool) (b : Bool) : RequestSize.Statement (.stoinDemand a b) := no_request rfl
theorem RequestSize.stoinRelease : RequestSize.Statement (.stoinRelease) := no_request rfl
theorem RequestSize.stoinDiscrepancy : RequestSize.Statement (.stoinDiscrepancy) := no_request rfl
theorem RequestSize.referenceTimeout : RequestSize.Statement (.referenceTimeout) := no_request rfl
theorem RequestSize.heartbeatTimeout : RequestSize.Statement (.heartbeatTimeout) := no_request rfl
theorem RequestSize.supervisionRelease (reference : Bool) : RequestSize.Statement (.supervisionRelease reference) := no_request rfl
theorem RequestSize.lodgeOvertemp (temp : Int) : RequestSize.Statement (.lodgeOvertemp temp) := no_request rfl
theorem RequestSize.lodgeSelfTestEnd (passed : Bool) : RequestSize.Statement (.lodgeSelfTestEnd passed) := no_request rfl
theorem RequestSize.lodgeSwitchingEnd : RequestSize.Statement (.lodgeSwitchingEnd) := no_request rfl
theorem RequestSize.safeOutputTest (out : Fin 4) (pStuck : Bool) (mStuck : Bool) (cross : Option (Fin 4)) : RequestSize.Statement (.safeOutputTest out pStuck mStuck cross) := no_request rfl
theorem RequestSize.safeOutputOverload (out : Fin 4) : RequestSize.Statement (.safeOutputOverload out) := no_request rfl
theorem RequestSize.safeOutputOpenLoad (out : Fin 4) : RequestSize.Statement (.safeOutputOpenLoad out) := no_request rfl
theorem RequestSize.testOverdue (out : Fin 4) : RequestSize.Statement (.testOverdue out) := no_request rfl
theorem RequestSize.diEdgeAccepted (input : Fin 32) (level : Bool) : RequestSize.Statement (.diEdgeAccepted input level) := no_request rfl
theorem RequestSize.openWire (input : Fin 32) : RequestSize.Statement (.openWire input) := no_request rfl
theorem RequestSize.overload (output : Fin 16) : RequestSize.Statement (.overload output) := no_request rfl
theorem RequestSize.fioOvertemp (output : Fin 16) : RequestSize.Statement (.fioOvertemp output) := no_request rfl
theorem RequestSize.openLoad (output : Fin 16) : RequestSize.Statement (.openLoad output) := no_request rfl
theorem RequestSize.backfeed (output : Fin 16) : RequestSize.Statement (.backfeed output) := no_request rfl
theorem RequestSize.outputRetry (output : Fin 16) (ok : Bool) : RequestSize.Statement (.outputRetry output ok) := no_request rfl
theorem RequestSize.fioLinkRefresh (group : Fin 4) : RequestSize.Statement (.fioLinkRefresh group) := no_request rfl
theorem RequestSize.fioRefreshTimeout (group : Fin 4) : RequestSize.Statement (.fioRefreshTimeout group) := no_request rfl
theorem RequestSize.fieldGroupLost (group : Fin 4) : RequestSize.Statement (.fieldGroupLost group) := no_request rfl
theorem RequestSize.supplySag (group : Fin 4) (vf : Nat) : RequestSize.Statement (.supplySag group vf) := no_request rfl
theorem RequestSize.supplyLost (group : Fin 4) (vf : Nat) : RequestSize.Statement (.supplyLost group vf) := no_request rfl
theorem RequestSize.dieUnpowered (group : Fin 4) (vf : Nat) : RequestSize.Statement (.dieUnpowered group vf) := no_request rfl
theorem RequestSize.diePowerReturn (group : Fin 4) (vf : Nat) : RequestSize.Statement (.diePowerReturn group vf) := no_request rfl
theorem RequestSize.fioAutoReenable (group : Fin 4) : RequestSize.Statement (.fioAutoReenable group) := no_request rfl
theorem RequestSize.canFrameReceived (ctl : Fin 4) (frame : CanFrame) (esi : Bool) (age : Nat) : RequestSize.Statement (.canFrameReceived ctl frame esi age) := no_request rfl
theorem RequestSize.canTxComplete (ctl : Fin 4) (delay : BitVec 8) : RequestSize.Statement (.canTxComplete ctl delay) := no_request rfl
theorem RequestSize.canBusError (ctl : Fin 4) (counted : Bool) (severe : Bool) (hit : Option (Fin 3 × BitVec 16 × BitVec 8 × List Byte)) : RequestSize.Statement (.canBusError ctl counted severe hit) := no_request rfl
theorem RequestSize.canBusOffRecovery (ctl : Fin 4) : RequestSize.Statement (.canBusOffRecovery ctl) := no_request rfl
theorem RequestSize.canCycleStart (ctl : Fin 4) (idle : Bool) : RequestSize.Statement (.canCycleStart ctl idle) := no_request rfl
theorem RequestSize.canBufferFreeze (ctl : Fin 4) : RequestSize.Statement (.canBufferFreeze ctl) := no_request rfl
theorem RequestSize.canWindowStart (ctl : Fin 4) (idle : Bool) : RequestSize.Statement (.canWindowStart ctl idle) := no_request rfl
theorem RequestSize.refLost (ctl : Fin 4) : RequestSize.Statement (.refLost ctl) := no_request rfl
theorem RequestSize.canDetectDwellEnd (ctl : Fin 4) : RequestSize.Statement (.canDetectDwellEnd ctl) := no_request rfl
theorem RequestSize.acqChannelSample (chan : Fin 64) : RequestSize.Statement (.acqChannelSample chan) := no_request rfl
theorem RequestSize.acqPinChange (levels : BitVec 8) : RequestSize.Statement (.acqPinChange levels) := no_request rfl
theorem RequestSize.acqTriggerOccurrence (units : BitVec 8) : RequestSize.Statement (.acqTriggerOccurrence units) := no_request rfl
theorem RequestSize.acqRearm : RequestSize.Statement (.acqRearm) := no_request rfl
theorem RequestSize.acqHoldoffEnd : RequestSize.Statement (.acqHoldoffEnd) := no_request rfl
theorem RequestSize.threadStart (lane : Fin 8) : RequestSize.Statement (.threadStart lane) := no_request rfl
theorem RequestSize.threadPreempt (lane : Fin 8) : RequestSize.Statement (.threadPreempt lane) := no_request rfl
theorem RequestSize.threadResume (lane : Fin 8) : RequestSize.Statement (.threadResume lane) := no_request rfl
theorem RequestSize.dispatchTimerInstant (timer : Fin 16) : RequestSize.Statement (.dispatchTimerInstant timer) := no_request rfl
theorem RequestSize.laneNop (lane : Fin 8) : RequestSize.Statement (.laneNop lane) := no_request rfl
theorem RequestSize.laneAdd (lane : Fin 8) : RequestSize.Statement (.laneAdd lane) := no_request rfl
theorem RequestSize.laneSub (lane : Fin 8) : RequestSize.Statement (.laneSub lane) := no_request rfl
theorem RequestSize.laneAdds (lane : Fin 8) : RequestSize.Statement (.laneAdds lane) := no_request rfl
theorem RequestSize.laneSubs (lane : Fin 8) : RequestSize.Statement (.laneSubs lane) := no_request rfl
theorem RequestSize.laneMul (lane : Fin 8) : RequestSize.Statement (.laneMul lane) := no_request rfl
theorem RequestSize.laneMulh (lane : Fin 8) : RequestSize.Statement (.laneMulh lane) := no_request rfl
theorem RequestSize.laneAnd (lane : Fin 8) : RequestSize.Statement (.laneAnd lane) := no_request rfl
theorem RequestSize.laneOr (lane : Fin 8) : RequestSize.Statement (.laneOr lane) := no_request rfl
theorem RequestSize.laneXor (lane : Fin 8) : RequestSize.Statement (.laneXor lane) := no_request rfl
theorem RequestSize.laneShl (lane : Fin 8) : RequestSize.Statement (.laneShl lane) := no_request rfl
theorem RequestSize.laneShr (lane : Fin 8) : RequestSize.Statement (.laneShr lane) := no_request rfl
theorem RequestSize.laneSar (lane : Fin 8) : RequestSize.Statement (.laneSar lane) := no_request rfl
theorem RequestSize.laneMin (lane : Fin 8) : RequestSize.Statement (.laneMin lane) := no_request rfl
theorem RequestSize.laneMax (lane : Fin 8) : RequestSize.Statement (.laneMax lane) := no_request rfl
theorem RequestSize.laneAbs (lane : Fin 8) : RequestSize.Statement (.laneAbs lane) := no_request rfl
theorem RequestSize.laneAddi (lane : Fin 8) : RequestSize.Statement (.laneAddi lane) := no_request rfl
theorem RequestSize.laneLui (lane : Fin 8) : RequestSize.Statement (.laneLui lane) := no_request rfl
theorem RequestSize.laneOri (lane : Fin 8) : RequestSize.Statement (.laneOri lane) := no_request rfl
theorem RequestSize.laneShli (lane : Fin 8) : RequestSize.Statement (.laneShli lane) := no_request rfl
theorem RequestSize.laneSari (lane : Fin 8) : RequestSize.Statement (.laneSari lane) := no_request rfl
theorem RequestSize.laneShri (lane : Fin 8) : RequestSize.Statement (.laneShri lane) := no_request rfl
theorem RequestSize.laneLd (lane : Fin 8) : RequestSize.Statement (.laneLd lane) := no_request rfl
theorem RequestSize.laneSt (lane : Fin 8) : RequestSize.Statement (.laneSt lane) := no_request rfl
theorem RequestSize.laneSetx (lane : Fin 8) : RequestSize.Statement (.laneSetx lane) := no_request rfl
theorem RequestSize.laneGetx (lane : Fin 8) : RequestSize.Statement (.laneGetx lane) := no_request rfl
theorem RequestSize.laneClr (lane : Fin 8) : RequestSize.Statement (.laneClr lane) := no_request rfl
theorem RequestSize.laneMpy (lane : Fin 8) : RequestSize.Statement (.laneMpy lane) := no_request rfl
theorem RequestSize.laneMac (lane : Fin 8) : RequestSize.Statement (.laneMac lane) := no_request rfl
theorem RequestSize.laneMsu (lane : Fin 8) : RequestSize.Statement (.laneMsu lane) := no_request rfl
theorem RequestSize.laneMacx (lane : Fin 8) : RequestSize.Statement (.laneMacx lane) := no_request rfl
theorem RequestSize.laneAdda (lane : Fin 8) : RequestSize.Statement (.laneAdda lane) := no_request rfl
theorem RequestSize.laneSha (lane : Fin 8) : RequestSize.Statement (.laneSha lane) := no_request rfl
theorem RequestSize.laneExp (lane : Fin 8) : RequestSize.Statement (.laneExp lane) := no_request rfl
theorem RequestSize.laneNorm (lane : Fin 8) : RequestSize.Statement (.laneNorm lane) := no_request rfl
theorem RequestSize.laneMovah (lane : Fin 8) : RequestSize.Statement (.laneMovah lane) := no_request rfl
theorem RequestSize.laneLda (lane : Fin 8) : RequestSize.Statement (.laneLda lane) := no_request rfl
theorem RequestSize.laneBeq (lane : Fin 8) : RequestSize.Statement (.laneBeq lane) := no_request rfl
theorem RequestSize.laneBne (lane : Fin 8) : RequestSize.Statement (.laneBne lane) := no_request rfl
theorem RequestSize.laneBlt (lane : Fin 8) : RequestSize.Statement (.laneBlt lane) := no_request rfl
theorem RequestSize.laneBge (lane : Fin 8) : RequestSize.Statement (.laneBge lane) := no_request rfl
theorem RequestSize.laneBra (lane : Fin 8) : RequestSize.Statement (.laneBra lane) := no_request rfl
theorem RequestSize.laneCall (lane : Fin 8) : RequestSize.Statement (.laneCall lane) := no_request rfl
theorem RequestSize.laneRet (lane : Fin 8) : RequestSize.Statement (.laneRet lane) := no_request rfl
theorem RequestSize.laneRep (lane : Fin 8) : RequestSize.Statement (.laneRep lane) := no_request rfl
theorem RequestSize.laneEnd (lane : Fin 8) : RequestSize.Statement (.laneEnd lane) := no_request rfl
theorem RequestSize.laneMode (lane : Fin 8) : RequestSize.Statement (.laneMode lane) := no_request rfl
theorem RequestSize.laneGetf (lane : Fin 8) : RequestSize.Statement (.laneGetf lane) := no_request rfl
theorem RequestSize.commandSignalEdge (leg : Fin 96) (rise : Bool) : RequestSize.Statement (.commandSignalEdge leg rise) := no_request rfl
theorem RequestSize.overcurrentInactive (input : Fin 96) : RequestSize.Statement (.overcurrentInactive input) := no_request rfl
theorem RequestSize.arbitrationLost (ctl : Fin 4) : RequestSize.Statement (.arbitrationLost ctl) := no_request rfl
theorem RequestSize.sphBadCmdFrame : RequestSize.Statement (.sphBadCmdFrame) := no_request rfl
theorem RequestSize.xipReadTimeout (ctx : Fin 6) : RequestSize.Statement (.xipReadTimeout ctx) := no_request rfl
theorem RequestSize.sphWordTimeout (addr : Nat) : RequestSize.Statement (.sphWordTimeout addr) := no_request rfl
theorem RequestSize.lodgeImageInstalled (acceptsFormat : Bool) : RequestSize.Statement (.lodgeImageInstalled acceptsFormat) := no_request rfl
theorem RequestSize.announceReceiptTimeout (inst : Fin 2) (port : Fin 4) (other : Option (Fin 4)) : RequestSize.Statement (.announceReceiptTimeout inst port other) := no_request rfl
theorem RequestSize.fieldSupplyReturn (group : Fin 4) (vf : Nat) : RequestSize.Statement (.fieldSupplyReturn group vf) := no_request rfl
theorem RequestSize.openWireClear (input : Fin 32) : RequestSize.Statement (.openWireClear input) := no_request rfl
theorem RequestSize.openLoadClear (output : Fin 16) : RequestSize.Statement (.openLoadClear output) := no_request rfl
theorem RequestSize.backfeedClear (output : Fin 16) : RequestSize.Statement (.backfeedClear output) := no_request rfl
theorem RequestSize.fioOvertempClear (output : Fin 16) : RequestSize.Statement (.fioOvertempClear output) := no_request rfl

end Sys2Proof.Laws
end

