-- ==== Sys2Proof/Laws/Request.lean ====
section
/-! SUPPORT.
What a request does once it is ready: its effect's answer is carried out. -/

namespace Sys2Proof.Machine

variable {o : Op} {rq : Request} {s u : State}

theorem runOp_ready (h : Ready o rq s) : runOp o rq s = conclude o rq false (o.effect rq s) s := by
  obtain ⟨h1, h2, h3, h4, h5⟩ := h
  simp [runOp, runNow, Op.outcome, h1, h2, h3, h4, h5]

theorem runCommand_ready (h : Ready o rq s) : runCommand o rq s = .next (conclude o rq false (o.effect rq s) s) := by
  rw [runCommand, runOp_ready h]

theorem runCommand_done (h : Ready o rq s) {r : List Res} (he : o.effect rq s = .done u r) :
    runCommand o rq s = answered o rq s u r := by
  rw [runCommand_ready h, he, answered]

theorem runCommand_wait (h : Ready o rq s) {k : Nat} {c : List Nat} (he : o.effect rq s = .wait u k c) :
    runCommand o rq s = begun o rq u k c := by
  rw [runCommand_ready h, he]
  rfl

end Sys2Proof.Machine
end

