-- ==== Sys2Proof/Tests/Slice0.lean ====
section
/-! SUPPORT.
Tests: ill-formed commands, worked examples of the spec, and for every statement with hypotheses a theorem that shows states and operands
which meet them, clause by clause. -/

namespace Sys2Proof.Tests

set_option Elab.async false

open Sys2Proof Sys2Proof.Machine

/-! Ill-formed commands, one for each check of `Instr.wf`. -/

theorem test_wf_source : Instr.wf (.ruhityDatagram .hostPort false false true []) = false := by decide

theorem test_wf_handle : Instr.wf (.pendingCommit 0x100000000) = false ∧ Instr.wf (.deferredEffect 0x100000000) = false := by decide

theorem test_wf_request : Instr.wf (.ping { params := List.replicate 1433 0 }) = false := by decide +kernel

theorem test_wf_address : Instr.wf (.rcRegisterRead 5 0x100000000 4) = false ∧ Instr.wf (.xipWrite 5 0x100000000 0) = false ∧
    Instr.wf (.wideHighRead 5 0x100000000) = false ∧ Instr.wf (.sphReadFrame 0x100000000 1 .whole) = false := by decide

theorem test_wf_access_size : Instr.wf (.registerWrite 5 0 3 0) = false := by decide

theorem test_wf_temperature : Instr.wf (.tempSample (-274)) = false ∧ Instr.wf (.lodgeOvertemp 301) = false := by decide

theorem test_wf_voted_width : Instr.wf (.voteScrub 0 33 0 0 0 0) = false ∧ Instr.wf (.voteScrub 0 0 0 0 0 0) = false := by decide

theorem test_wf_scrub_bits : Instr.wf (.memoryScrub 0 37) = false := by decide

theorem test_wf_calibration : Instr.wf (.delayLineCalibration 0 128) = false := by decide

theorem test_wf_frame : Instr.wf (.frameIngress 0 { etherType := 65536 } true) = false ∧
    Instr.wf (.frameIngress 0 { vlan := some (8, 1) } true) = false ∧ Instr.wf (.cyclicFrameRx 0 { vlan := some (0, 4096) }) = false := by decide

theorem test_wf_vlan : Instr.wf (.fdbAgeOut 0 4096) = false := by decide

theorem test_wf_millivolts : Instr.wf (.supplySag 0 65536) = false ∧ Instr.wf (.fieldSupplyReturn 0 65536) = false := by decide

theorem test_wf_can_frame : CanFrame.wf { ident := 2048 } = false ∧ CanFrame.wf { dlc := 16 } = false ∧ CanFrame.wf { dlc := 1 } = false ∧
    CanFrame.wf { fd := true, rtr := true } = false ∧ CanFrame.wf { brs := true } = false := by decide

/-! Worked examples of the spec. -/

/-- Path and issue steps of a three-phase current loop of eight coefficients, "A 40 kHz current loop on 32 axes at OP5" (01). -/
theorem test_loop_steps : loopSteps 1 0 8 = (660, 24) := by decide

/-- The loops of that example. -/
def loops32 : List ProofLoop :=
  (List.finRange 32).map fun (i : Fin 32) =>
    { slot := Fin.ofNat 64 i.val, kind := 0, p := 660, q := 24, l := 1080, grid := 25000, period := 25000, phase := 0, onTb := false, wire := 0 }

/-- AX28 has seven loops ahead of it: 168 steps (01). -/
theorem test_queue_of_AX28 : aheadAt loops32 0 0
    { slot := 28, kind := 0, p := 660, q := 24, l := 1080, grid := 25000, period := 25000, phase := 0, onTb := false, wire := 0 } = 168 := by
  decide +kernel

/-- Step times of Table 1.3A (01), 10⁻⁴ ns: OP4 to OP7 in band B3. -/
theorem test_step_times : [4, 5, 6, 7].map (fun op => stepTime op 3 false) = [22500, 24200, 26600, 30000] := by decide

/-- "An S-curve move rounded to the planner period" (07): 200, 800, 200, 1,301, 200, 800 and 200 periods. -/
theorem test_s_curve : (planMove 1 { v := 200000, a := 2000000, d := 2000000, j := 100000000 } (1 / 10000) {} 50001).1.map (·.n) =
    [200, 800, 200, 1301, 200, 800, 200] := by decide +kernel

/-- Edges of a dithered compare value go early where the reversed counter is below the fraction (11): f = 5 selects these. -/
theorem test_dither : ([0, 8, 4, 12, 2] : List (BitVec 4)).map rev4 = [0, 1, 2, 3, 4] := by decide

/-- Wire times of "Four bricks on one line at 32 kHz" (13): payloads of 72 and 184 bytes. -/
theorem test_brick_wire : wireTime 72 = 912 ∧ wireTime 184 = 1808 ∧ ceil16 8668 = 8672 := by decide

/-- The controller and the frame of "Fitting a 64-byte frame into an exclusive window" (17). -/
def can1 : CanCfg :=
  { fd := true, nominal := { brp := 1, tseg1 := 59, tseg2 := 20 }, data := some { brp := 1, tseg1 := 7, tseg2 := 2 } }

def frame64 : CanFrame := { ident := 0x120, fd := true, brs := true, dlc := 15, data := List.replicate 64 0 }

/-- It takes 118,750 ns (17; the model counts half nanoseconds). -/
theorem test_can_frame_time : frameTime can1 frame64 = 237500 := by decide +kernel

/-- It fits a window of 120,000 ns and not one of 110,000 (17). -/
theorem test_can_window : fits can1 { windows := 2, cycleNs := 320000, starts := [0, 200000] } 1 frame64 = true ∧
    fits can1 { windows := 2, cycleNs := 310000, starts := [0, 200000] } 1 frame64 = false := by decide +kernel

/-- The request of "SET_LATENCY_TOLERANCE, byte by byte" (04). -/
def tolerances : List Byte :=
  be 24 0x4b5a0100000001020010ffff001800a10000000000000000 ++ be 24 0x0100000c0000177000000bb80000ea600102000101000000

/-- Its length, sequence, opcode and tag, and its values (04). -/
theorem test_packet : pktLength tolerances = 48 ∧ pktField tolerances 4 4 = 0x102 ∧ pktField tolerances 8 2 = 0x10 ∧
    pktField tolerances 14 2 = 0xA1 ∧ num { params := tolerances.drop 24 } 0x0100 0 4 = 6000 ∧
    num { params := tolerances.drop 24 } 0x0100 4 4 = 3000 ∧ num { params := tolerances.drop 24 } 0x0100 8 4 = 60000 ∧
    num { params := tolerances.drop 24 } 0x0102 0 1 = 1 := by decide +kernel

/-- SHA-256 of nothing, from FIPS 180-4, and the CRC-32 of "123456789" from the catalogue of CRCs. -/
theorem test_hash : sha256 [] = be 32 0xe3b0c44298fc1c149afbf4c8996fb92427ae41e4649b934ca495991b7852b855 ∧
    crc32 [0x31, 0x32, 0x33, 0x34, 0x35, 0x36, 0x37, 0x38, 0x39] = 0xCBF43926 := by decide +kernel

/-! States and requests for the witnesses. -/

/-- A request to a target, with these TLVs. -/
def ask (t : Nat) (p : List (Nat × List Byte)) : Request :=
  { target := BitVec.ofNat 16 t
    params := p.flatMap fun x => be 2 x.1 ++ be 2 x.2.length ++ x.2 ++ List.replicate ((4 - x.2.length % 4) % 4) 0 }

/-- A permission table that lets Gardener do everything. -/
def allowAll : List Permission :=
  [{ hi := 0xFFFFFFFF, read := true, write := true, strobes := 0xFFFF
     states := [.reset, .startup, .commissioning, .operational, .test, .recovery] }]

/-- Commissioning, with Gardener running under that table, a flash device on select 0 and Lodge in Run. -/
def com : State := { State.reset with
  sys := { State.reset.sys with dev := .commissioning, phase := 4 }
  boot := { State.reset.boot with gardenerRuns := true, perms := allowAll }
  lodge := { State.reset.lodge with st := .run, sto := false, params := some {} }
  serial := { State.reset.serial with sel := upd State.reset.serial.sel 0 fun x => { x with present := true, profile := some {} } } }

/-- The same in Operational. -/
def oper : State := com.onSys fun y => { y with dev := .operational }

/-- `Ready` as a Bool, for states in which every access is granted. -/
def isReady (o : Op) (rq : Request) (s : State) : Bool :=
  !targetBusy o.opcode rq s && !s.pkts.blocked.any (waitsBehind o.opcode rq) && (refusal o rq s).isNone && rq.toe == 0 &&
    (s.boot.perms == allowAll || !s.boot.gardenerRuns)

theorem nothing_forbidden {o : Op} {rq : Request} {s : State} (h : s.boot.perms = allowAll ∨ s.boot.gardenerRuns = false) :
    forbidden o rq s = none := by
  unfold forbidden
  split
  · rename_i hr
    have hp := h.resolve_right (by simp [hr])
    refine List.find?_eq_none.2 fun a _ => ?_
    have ha : a.1.toNat ≤ 0xFFFFFFFF := Nat.le_of_lt_succ a.1.isLt
    cases hd : s.sys.dev <;> simp [granted, hp, allowAll, Permission.grants, Permission.holds, ha, hd]
  · rfl

theorem ready {o : Op} {rq : Request} {s : State} (h : isReady o rq s = true) : Ready o rq s := by
  simp only [isReady, Bool.and_eq_true, Bool.not_eq_true', Bool.or_eq_true, beq_iff_eq, Option.isNone_iff_eq_none] at h
  obtain ⟨⟨⟨⟨h1, h2⟩, h3⟩, h4⟩, h5⟩ := h
  exact ⟨h1, h2, h3, h4, nothing_forbidden h5⟩

/-- Three public keys of P-256: of the Keeper image, of the Gardener image and of the parameter set below. -/
def testKey : Nat → List Byte
  | 0 => be 32 0x3affd72a3456dc17c89c7a6d1bcbf06e13d7af4f48781de4b2dd6c74a35fe118 ++ be 32 0xb2a6f1846aa0dc2db48b06854a5d1eb63e79bba1bfb6f6ebc5ee6cbc3f5af1a0
  | 1 => be 32 0x9c418b57cfdfb3d9c3cd1d3acf759aec7de591a10cd2827275f6aa88c4a4588d ++ be 32 0xb42845bb0f2d72c3c2973ebda4e3ce6370211b357e451ae694248f42005bd631
  | _ => be 32 0x363c7bf22cd2d34f9d74c9061acd8ac85d368ee2a5fd1aeec4cfff2c182db454 ++ be 32 0xc08d344e973fff5457a363938771338da6a1c6db8c30de3679439a4f27865269

/-- The headers of an empty image of kind 1 and one of kind 2, signed under keys 0 and 1. -/
def testHeader : Nat → List Byte
  | 1 => be 128 0x4d495a4b01000100010000000200000000000000000000000000000000000000e3b0c44298fc1c149afbf4c8996fb92427ae41e4649b934ca495991b7852b85500000000000000000000000000000000000000000000000000000000000000000000000000000000000000000000000000000000000000000000000000000000 ++
    be 32 0xf89b27588f1281cc426fe6e89c1e0258ab834161ab81dfa5ff8a74e02b0ca148 ++ be 32 0xf89b27588f1281cc426fe6e89c1e0258ab834161ab81dfa5ff8a74e02b0ca148 ++ be 64 0
  | _ => be 128 0x4d495a4b01000200010000000000000000000000000000000000000000000000e3b0c44298fc1c149afbf4c8996fb92427ae41e4649b934ca495991b7852b85501000000000000000000000000000000000000000000000000000000000000000000000000000000000000000000000000000000000000000000000000000000 ++
    be 32 0x0f3089f4088d163e9900e8a2d4f7396a2c7e30bf38dd21e55802ef407107e677 ++ be 32 0x0f3089f4088d163e9900e8a2d4f7396a2c7e30bf38dd21e55802ef407107e677 ++ be 64 0

/-- Cells of a flash that hold these bytes from an address on, before these others. -/
def cellsOf : Nat → List Byte → List Host.Cell → List Host.Cell
  | _, [], rest => rest
  | a, b :: l, rest => if b = 0xFF then cellsOf (a + 1) l rest else (a, b) :: cellsOf (a + 1) l rest

/-- A state with a signed image of kind 1 in Keeper slot B and one of kind 2 in Gardener slot B, in a state of Table 3.2, and their
keys enrolled. -/
def withImages (st : Byte) (s : State) : State := { s with
  boot := { s.boot with keyHash := #v[some (sha256 (testKey 0)), some (sha256 (testKey 1)), none, none]
                        keyPub := #v[some (testKey 0), some (testKey 1), none, none] }
  serial := { s.serial with sel := upd s.serial.sel 0 fun x => { x with
    present := true
    flash := cellsOf 0x90000 (testHeader 1) (cellsOf 0x10F000 (le 4 2 ++ [st])
      (cellsOf 0x910000 (testHeader 2) (cellsOf 0x110F000 (le 4 2 ++ [st]) []))) } } }

/-- Commissioning with those images. -/
def imageB (st : Byte) : State := withImages st com

/-- Startup of Table 3.1 with those images committed, Keeper not started. -/
def starting : State := withImages 0x18 State.reset

/-- The mode of a stepper in the open loop. -/
def openStepper : AxisMode := { drive := 2, period := 5000 }

/-- Slot 0 is such a stepper on legs 0 to 3 of the array, Disabled, with motor data. -/
def slot0 : State :=
  ((onAx 0 (fun a => { a with bind := { location := 1, legSet := 0x2000 }, mode := some openStepper, st := .disabled }) com).onLoop
    fun e => { e with slot := upd e.slot 0 fun x => { x with motorSet := true, lp := upd x.lp 0 fun y => { y with integ := true } } })

/-- Operational with slot 0 Enabled and the planner configured. -/
def slot0On : State :=
  ((onAx 0 (fun a => { a with st := .enabled }) slot0).onSys fun y => { y with dev := .operational }).onPlan
    fun p => { p with ax := upd p.ax 0 fun y => { y with cfg := some { limits := ⟨1, 1, 1, 1, 1⟩, divider := 13 } } }

/-- Slots 0 and 1 Enabled alike, and group 0 of the two, with room for 16 entries. -/
def group0 : State :=
  (onAx 1 (fun a => { a with bind := { location := 1, legSet := 0x2001 }, mode := some openStepper, st := .enabled }) slot0On).onPlan
    fun p => { p with
      ax := upd p.ax 1 fun y => { y with cfg := some { limits := ⟨1, 1, 1, 1, 1⟩, divider := 13 } }
      grp := upd p.grp 0 fun g => { g with defined := true, members := [0, 1], weights := [1, 1], capacity := 16, activity := 1 } }

/-- Slot 0 is a drive with one loop on one current input, Disabled. -/
def looped : State :=
  onAx 0 (fun a => { a with bind := { location := 1, legSet := 0x3000, inputs := [0] }, mode := some { drive := 3, depth := 1 }, st := .disabled }) com

/-- A parameter set with every pair and output unused, signed under `testKey 2`. -/
def testSet : List Byte :=
  be 192 0x4c5041520001010000000000000000000000000000000000000000000000000000000000000000000000000000000000000000000000000000000000000000000000000000000000000000000000000000000000000a000000000000000a000000000000000a000000000000000a00000000000000000000000000000000000000000000000000000000000000000000000000000000000000000000000000000000000000000000000000000000000000000000000000000000000000000000 ++
  be 32 0xf8a56af6913af1b7d55c0ebff2616820d87fcb7eb57f75ffb32216de7aebdc2f ++ be 32 0xf8a56af6913af1b7d55c0ebff2616820d87fcb7eb57f75ffb32216de7aebdc2f

/-- A state at a later tick. -/
def atTick (n : Nat) (s : State) : State := s.onSys fun y => { y with tick := BitVec.ofNat 64 n }

/-- Slot 0 is channel 0 of brick 0, frame group 0, configured, with an inner period of 62.5 µs. -/
def bricked : State :=
  { onAx 0 (fun a => { a with bind := { location := 2 }, mode := some { period := 31250 } }) com with
    bricks := { com.bricks with brick := upd com.bricks.brick 0 fun x => { x with registered := true, channels := 1 }
                                fg := upd com.bricks.fg 0 fun x => { x with configured := true } } }

/-- Lane 7 about to issue this word for thread 511, with another word behind it. -/
def issuing (w : Word) : State := com.onLanes fun n => { n with
  lane := upd n.lane 7 fun x => { x with prog := [w, 0], thread := some 511 }
  thr := upd n.thr 511 fun x => { x with st := .running, budget := 2 } }

theorem com_good : com.Good :=
  ⟨by unfold Packets.Ok; decide +kernel, by unfold Integrity.Ok; decide +kernel, by unfold SerialBlk.Ok; decide +kernel,
   by unfold LanesBlk.Ok; decide +kernel, Or.inl rfl⟩

/-- An event that no thread lists delivers nothing. -/
theorem occurs_unlisted {code index sub : Nat} {s : State} (h : ∀ t : Fin 512, s.lanes.thr[t].lists code index sub = 0) :
    occurs code index sub s = s := by
  unfold occurs
  induction List.finRange 512 with
  | nil => rfl
  | cons t l ih => simp only [List.foldl_cons, h t, if_true, ih]
theorem threads_unlisted (w : Word) : ∀ t : Fin 512, (issuing w).lanes.thr[t].sources = [] := by
  intro t
  simp only [issuing, State.onLanes, upd]
  rw [Fin.getElem_fin, Vector.getElem_set]
  split <;> simp [com, State.reset]

theorem reloaded_sources (n : Nat) (t : Thread) : (t.reloaded n).sources = t.sources := by
  unfold Thread.reloaded; dsimp only; split <;> rfl

/-- END of the one thread of lane 7 leaves the lane idle. -/
theorem end_leaves_idle : (endThread 511 (passStep 7 (issuing 0xE0000000))).lanes.lane[(7 : Fin 8)].thread = none := by
  unfold endThread
  extract_lets s1 s2 s3
  have hs : ∀ t : Fin 512, s1.lanes.thr[t].sources = [] := by
    intro t
    have e : s1.lanes.thr[t] = if 511 = t.val then ((issuing 0xE0000000).lanes.thr[(511 : Fin 512)]).reloaded
          (passStep 7 (issuing 0xE0000000)).sysTick
        else (issuing 0xE0000000).lanes.thr[t] := by
      rw [Fin.getElem_fin, Fin.getElem_fin]; exact Vector.getElem_set (by decide) t.isLt
    rw [e]
    split
    · rw [reloaded_sources]; exact threads_unlisted _ _
    · exact threads_unlisted _ _
  have e : s2 = s1 := if_neg (by decide +kernel)
  have f : s3 = s1 := by
    show occurs _ _ _ s2 = _
    rw [e]
    exact occurs_unlisted fun t => by rw [Thread.lists, hs t]; rfl
  rw [f]
  decide +kernel
theorem cellsOf_from {lo a : Nat} {bs : List Byte} {rest : List Host.Cell} (h : ∀ c ∈ rest, lo ≤ c.1) (ha : lo ≤ a) :
    ∀ c ∈ cellsOf a bs rest, lo ≤ c.1 := by
  induction bs generalizing a with
  | nil => exact h
  | cons b l ih =>
    intro c hc
    unfold cellsOf at hc
    split at hc
    · exact ih (by omega) c hc
    · rcases List.mem_cons.1 hc with rfl | hc
      · exact ha
      · exact ih (by omega) c hc

theorem read_before {x : Nat} {m : List Host.Cell} (h : ∀ c ∈ m, x < c.1) : cellRead 0xFF x m = 0xFF := by
  cases m with
  | nil => rfl
  | cons c l =>
    have hc := h c (List.mem_cons_self ..)
    rw [cellRead, if_neg (by omega), if_pos hc]

theorem read_after {x a : Nat} {bs : List Byte} {rest : List Host.Cell} (h : a + bs.length ≤ x) :
    cellRead 0xFF x (cellsOf a bs rest) = cellRead 0xFF x rest := by
  induction bs generalizing a with
  | nil => rfl
  | cons b l ih =>
    have h' : a + 1 + l.length ≤ x := by simp only [List.length_cons] at h; omega
    unfold cellsOf
    split
    · exact ih h'
    · rw [cellRead, if_neg (by show ¬ a = x; omega), if_neg (by show ¬ x < a; omega)]; exact ih h'

theorem read_in {a k : Nat} {bs : List Byte} {rest : List Host.Cell} (h : k < bs.length) (hr : ∀ c ∈ rest, a + bs.length ≤ c.1) :
    cellRead 0xFF (a + k) (cellsOf a bs rest) = bs.getD k 0xFF := by
  induction bs generalizing a k with
  | nil => simp at h
  | cons b l ih =>
    have hr' : ∀ c ∈ rest, a + 1 + l.length ≤ c.1 := fun c hc => by have := hr c hc; simp only [List.length_cons] at this; omega
    cases k with
    | zero =>
      unfold cellsOf
      split
      · rename_i hb
        rw [read_before fun c hc => by
          have := cellsOf_from (lo := a + 1) (fun c hc => by have := hr' c hc; omega) (Nat.le_refl _) c hc; omega]
        exact hb.symm
      · rw [cellRead, if_pos (by rfl)]; rfl
    | succ k =>
      have e : a + (k + 1) = a + 1 + k := by omega
      have hk : k < l.length := by simpa using h
      unfold cellsOf
      split
      · rw [e, ih hk hr']; rfl
      · rw [cellRead, if_neg (by show ¬ a = _; omega), if_neg (by show ¬ _ < a; omega), e, ih hk hr']; rfl

theorem reads_in {a off n : Nat} {bs : List Byte} {rest : List Host.Cell} (h : off + n ≤ bs.length)
    (hr : ∀ c ∈ rest, a + bs.length ≤ c.1) : cellsRead 0xFF (a + off) (cellsOf a bs rest) n = slice off n bs := by
  induction n generalizing off with
  | zero => simp [cellsRead, slice]
  | succ n ih =>
    have hk : off < bs.length := by omega
    rw [cellsRead, read_in hk hr, Nat.add_assoc, ih (by omega), slice, slice, List.drop_eq_getElem_cons hk, List.take_succ_cons]
    simp [List.getD_eq_getElem?_getD, List.getElem?_eq_getElem hk]

theorem reads_after {x a n : Nat} {bs : List Byte} {rest : List Host.Cell} (h : a + bs.length ≤ x) :
    cellsRead 0xFF x (cellsOf a bs rest) n = cellsRead 0xFF x rest n := by
  induction n generalizing x with
  | zero => rfl
  | succ n ih => rw [cellsRead, cellsRead, read_after h, ih (by omega)]

theorem reads_before {x n : Nat} {m : List Host.Cell} (h : ∀ c ∈ m, x + n ≤ c.1) : cellsRead 0xFF x m n = List.replicate n 0xFF := by
  induction n generalizing x with
  | zero => rfl
  | succ n ih =>
    rw [cellsRead, read_before (fun c hc => by have := h c hc; omega), ih (fun c hc => by have := h c hc; omega), List.replicate_succ]

/-- The checks of R54 on an image whose header the flash holds. -/
theorem image_ok {kind a size : Nat} {s : State} {bs k : List Byte} {idx : Nat}
    (hf : ∀ off n, off + n ≤ 256 → cellsRead 0xFF (a + off) (bootFlash s) n = slice off n bs)
    (h1 : (leNat (slice 0 4 bs) = 0x4B5A494D ∧ leNat (slice 4 2 bs) = 1 ∧ leNat (slice 6 2 bs) = kind ∧ leNat (slice 0xC0 64 bs) = 0) ∧
      leNat (slice 0x10 4 bs) = 0 ∧ leNat (slice 0x40 4 bs) = idx ∧ sha256 [] = slice 0x20 32 bs ∧ leNat (slice 0x1C 1 bs) = 0)
    (h3 : enrolledKey kind idx s.boot = some k) (h4 : some (sha256 k) = fusedHash idx s.boot)
    (h5 : ecdsaOk k (slice 0 0x80 bs) (slice 0x80 64 bs) = true) (h7 : s.boot.secLevel = 0) : imageCheck kind (a, size) s = 0 := by
  have hh := fun off n (h : off + n ≤ 256) => show headerField a off n (bootFlash s) = leNat (slice off n bs) by
    rw [headerField, hf off n h]
  have e0 := hf 0 0x80 (by omega)
  rw [Nat.add_zero] at e0
  have z : ∀ x, cellsRead 0xFF x (bootFlash s) 0 = [] := fun _ => rfl
  obtain ⟨⟨m1, m2, m3, m4⟩, m5, m6, m7, m8⟩ := h1
  unfold imageCheck imageCheckBy
  simp only [hh 0 4 (by omega), hh 4 2 (by omega), hh 6 2 (by omega), hh 0xC0 64 (by omega), hh 0x10 4 (by omega), hh 0x40 4 (by omega),
    hh 0x0C 4 (by omega), hh 0x1C 1 (by omega), hf 0x80 64 (by omega), hf 0x20 32 (by omega), e0, m1, m2, m3, m4, m5, m6, m8, h3, h5, h7,
    ← h4, z, m7]
  simp

/-- The flash of `withImages`. -/
theorem withImages_flash (st : Byte) (s : State) : bootFlash (withImages st s) = cellsOf 0x90000 (testHeader 1)
    (cellsOf 0x10F000 (le 4 2 ++ [st]) (cellsOf 0x910000 (testHeader 2) (cellsOf 0x110F000 (le 4 2 ++ [st]) []))) := by
  simp [bootFlash, withImages, upd]

theorem le_len (st : Byte) : (le 4 2 ++ [st]).length = 5 := rfl

theorem keeper_ok (st : Byte) {s : State} (h : s.boot.secLevel = 0) (hr : s.boot.keyRevoked[(0 : Fin 4)] = false) :
    imageCheck 1 (0x90000, 0x80000) (withImages st s) = 0 := by
  refine image_ok (bs := testHeader 1) (k := testKey 0) (idx := 0) (fun off n h => ?_) (by decide +kernel) ?_ ?_ (by decide +kernel) h
  · rw [withImages_flash]
    have l : (testHeader 1).length = 256 := by decide +kernel
    exact reads_in (by omega) (by rw [l]; exact cellsOf_from (cellsOf_from (cellsOf_from (by simp) (by omega)) (by omega)) (by omega))
  · have e : (withImages st s).boot.keyRevoked[0] = false := hr
    simp [enrolledKey, e]; simp [withImages]
  · simp [fusedHash, withImages]

theorem gardener_ok (st : Byte) {s : State} (h : s.boot.secLevel = 0) (hr : s.boot.keyRevoked[(1 : Fin 4)] = false) :
    imageCheck 2 (0x910000, 0x800000) (withImages st s) = 0 := by
  refine image_ok (bs := testHeader 2) (k := testKey 1) (idx := 1) (fun off n h => ?_) (by decide +kernel) ?_ ?_ (by decide +kernel) h
  · have l1 : (testHeader 1).length = 256 := by decide +kernel
    have l2 : (testHeader 2).length = 256 := by decide +kernel
    rw [withImages_flash, reads_after (by omega), reads_after (by rw [le_len] <;> omega)]
    exact reads_in (by omega) (by rw [l2]; exact cellsOf_from (by simp) (by omega))
  · have e : (withImages st s).boot.keyRevoked[1] = false := hr
    simp [enrolledKey, e]; simp [withImages]
  · simp [fusedHash, withImages]

/-- Slots A hold nothing. -/
theorem slotA_keeper (st : Byte) (s : State) : imageCheck 1 (0x10000, 0x80000) (withImages st s) = 1 := by
  have e : headerField 0x10000 0 4 (bootFlash (withImages st s)) = 0xFFFFFFFF := by
    rw [headerField, withImages_flash, reads_before
      (cellsOf_from (cellsOf_from (cellsOf_from (cellsOf_from (by simp) (by omega)) (by omega)) (by omega)) (by omega))]
    decide
  simp [imageCheck, imageCheckBy, e]

theorem slotA_gardener (st : Byte) (s : State) : imageCheck 2 (0x110000, 0x800000) (withImages st s) = 1 := by
  have l1 : (testHeader 1).length = 256 := by decide +kernel
  have e : headerField 0x110000 0 4 (bootFlash (withImages st s)) = 0xFFFFFFFF := by
    rw [headerField, withImages_flash, reads_after (by omega), reads_after (by rw [le_len] <;> omega), reads_before
      (cellsOf_from (cellsOf_from (by simp) (by omega)) (by omega))]
    decide
  simp [imageCheck, imageCheckBy, e]

theorem keeper_trailer (st : Byte) (s : State) : trailer (0x90000, 0x80000) (bootFlash (withImages st s)) = (2, st.toNat, 0xFF) := by
  have l1 : (testHeader 1).length = 256 := by decide +kernel
  have hr : ∀ c ∈ cellsOf 0x910000 (testHeader 2) (cellsOf 0x110F000 (le 4 2 ++ [st]) []), 0x10F000 + 6 ≤ c.1 :=
    cellsOf_from (cellsOf_from (by simp) (by omega)) (by omega)
  have hr' : ∀ c ∈ cellsOf 0x910000 (testHeader 2) (cellsOf 0x110F000 (le 4 2 ++ [st]) []), 0x10F000 + (le 4 2 ++ [st]).length ≤ c.1 :=
    fun c hc => by have := hr c hc; rw [le_len] <;> omega
  have r : ∀ off n, off + n ≤ 5 → headerField 0x10F000 off n (bootFlash (withImages st s)) = leNat (slice off n (le 4 2 ++ [st])) := by
    intro off n h
    rw [headerField, withImages_flash, reads_after (by omega), reads_in (by rw [le_len] <;> omega) hr']
  have e : headerField 0x10F000 5 1 (bootFlash (withImages st s)) = 0xFF := by
    rw [headerField, withImages_flash, reads_after (by omega), reads_after (by rw [le_len] <;> omega), reads_before (x := 0x10F000 + 5) (n := 1) hr] <;> rfl
  show (headerField 0x10F000 0 4 _, headerField 0x10F000 4 1 _, headerField 0x10F000 5 1 _) = _
  rw [r 0 4 (by omega), r 4 1 (by omega), e]
  have x : slice 4 1 (le 4 2 ++ [st]) = [st] := rfl
  rw [x]
  simp [leNat, beNat, slice, le, be]

theorem gardener_trailer (st : Byte) (s : State) : trailer (0x910000, 0x800000) (bootFlash (withImages st s)) = (2, st.toNat, 0xFF) := by
  have l1 : (testHeader 1).length = 256 := by decide +kernel
  have l2 : (testHeader 2).length = 256 := by decide +kernel
  have r : ∀ off n, off + n ≤ 5 → headerField 0x110F000 off n (bootFlash (withImages st s)) = leNat (slice off n (le 4 2 ++ [st])) := by
    intro off n h
    rw [headerField, withImages_flash, reads_after (by omega), reads_after (by rw [le_len] <;> omega), reads_after (by omega),
      reads_in (by rw [le_len] <;> omega) (by simp)]
  have e : headerField 0x110F000 5 1 (bootFlash (withImages st s)) = 0xFF := by
    rw [headerField, withImages_flash, reads_after (by omega), reads_after (by rw [le_len] <;> omega), reads_after (by omega),
      reads_after (by rw [le_len] <;> omega), reads_before (by simp)] <;> rfl
  show (headerField 0x110F000 0 4 _, headerField 0x110F000 4 1 _, headerField 0x110F000 5 1 _) = _
  rw [r 0 4 (by omega), r 4 1 (by omega), e]
  have x : slice 4 1 (le 4 2 ++ [st]) = [st] := rfl
  rw [x]
  simp [leNat, beNat, slice, le, be]

/-- Slot B alone holds a valid image, whose trailer is committed or pending. -/
theorem slotB_chosen {kind st : Nat} {p0 p1 : Nat × Nat} {s : State} (h0 : imagePlace kind 0 = p0) (h1 : imagePlace kind 1 = p1)
    (a : imageCheck kind p0 s = 1) (b : imageCheck kind p1 s = 0) (c : trailer p1 (bootFlash s) = (2, st, 0xFF))
    (h : st = 0x18 ∨ st = 0x3C) : (chooseSlot kind s).slot = some 1 ∧ (chooseSlot kind s).trial = decide (st = 0x3C) := by
  unfold chooseSlot
  rcases h with rfl | rfl <;> simp [h0, h1, a, b, c]

theorem trial_found : hasTrial 1 (imageB 0x3C) = true := by
  rw [hasTrial, imageB]
  exact (slotB_chosen (st := 0x3C) (p0 := (0x10000, 0x80000)) (p1 := (0x90000, 0x80000)) rfl rfl (slotA_keeper 0x3C com)
    (keeper_ok 0x3C rfl rfl) (keeper_trailer 0x3C com) (.inr rfl)).2

theorem keeper_found {s : State} (h : s.boot.secLevel = 0) (hr : s.boot.keyRevoked[(0 : Fin 4)] = false) :
    (chooseSlot 1 (withImages 0x18 s)).slot = some 1 ∧ (chooseSlot 1 (withImages 0x18 s)).trial = decide (0x18 = 0x3C) :=
  (slotB_chosen (p0 := (0x10000, 0x80000)) (p1 := (0x90000, 0x80000)) rfl rfl (slotA_keeper 0x18 s) (keeper_ok 0x18 h hr)
    (keeper_trailer 0x18 s) (.inl rfl))

theorem gardener_found {s : State} (h : s.boot.secLevel = 0) (hr : s.boot.keyRevoked[(1 : Fin 4)] = false) :
    (chooseSlot 2 (withImages 0x18 s)).slot = some 1 ∧ (chooseSlot 2 (withImages 0x18 s)).trial = decide (0x18 = 0x3C) :=
  (slotB_chosen (p0 := (0x110000, 0x800000)) (p1 := (0x910000, 0x800000)) rfl rfl (slotA_gardener 0x18 s) (gardener_ok 0x18 h hr)
    (gardener_trailer 0x18 s) (.inl rfl))

theorem chosen_b {kind : Nat} {s : State} (h : (chooseSlot kind s).slot = some 1 ∧ (chooseSlot kind s).trial = decide (0x18 = 0x3C)) :
    (chooseNow kind s).boot.chosen = some (1, false) := by
  show (chooseSlot kind s).slot.map (fun n => (n, (chooseSlot kind s).trial)) = _
  rw [h.1, h.2]; rfl

theorem starting_moved : ((fresh starting).2.onSerial fun x => { x with sel := upd x.sel 0 fun d => { d with profile := some (bootProfile d starting.sys.free) } }) =
    withImages 0x18 ((fresh State.reset).2.onSerial fun x => { x with sel := upd x.sel 0 fun d => { d with profile := some {} } }) := by
  simp [starting, withImages, State.onSerial, upd, bootProfile, State.reset, fresh, State.onSys]

theorem starting_keeper : (keeperVerify starting).boot.chosen = some (1, false) := by
  rw [keeperVerify, starting_moved]
  exact chosen_b (keeper_found rfl rfl)

theorem starting_gardener {s : State} (h : s.boot.secLevel = 0) (hr : s.boot.keyRevoked[(1 : Fin 4)] = false) :
    (chooseNow 2 (withImages 0x18 s)).boot.chosen = some (1, false) := chosen_b (gardener_found h hr)

theorem com_lanes_free (l : Fin 8) : ¬ laneBusy l com = true := by
  simp [laneBusy, com, State.reset]

theorem com_feeds_none (l : Fin 8) (q : BitVec 64) : ¬ feedsLost l q com = true := by
  simp [feedsLost, com, State.reset]

theorem witness_SystemReadsComplete :
    (∃ (rq : Request) (s : Machine.State), Ready opPing rq s) ∧
    (∃ (rq : Request) (s : Machine.State), Ready opGetInfo rq s) ∧
    (∃ (rq : Request) (s : Machine.State), Ready opGetOperatingPoint rq s) ∧
    (∃ (rq : Request) (s : Machine.State), Ready opIdentityRead rq s) :=
  ⟨⟨(ask 0xFFFF []), com, ready (by decide +kernel)⟩,
   ⟨(ask 0xFFFF []), com, ready (by decide +kernel)⟩,
   ⟨(ask 0xFFFF []), com, ready (by decide +kernel)⟩,
   ⟨(ask 0xFFFF []), com, ready (by decide +kernel)⟩⟩

theorem witness_SystemSettingsComplete :
    (∃ (rq : Request) (s : Machine.State), Ready opCancel rq s ∧
      ((has rq 0x0100 = true → ∃ p, s.pkts.pending.find? (fun p => p.handle == num rq 0x0100 0 4) = some p ∧ p.committed = false ∧ (tagRequired p.opcode rq.src s = true → rq.authed = true)))) ∧
    (∃ (rq : Request) (s : Machine.State), Ready opSetLatencyTolerance rq s ∧ 4000 ≤ numD rq 0x0100 0 4 s.power.tolMotion ∧
      2000 ≤ numD rq 0x0100 4 4 s.power.tolNetwork ∧ 40000 ≤ numD rq 0x0100 8 4 s.power.tolHost) ∧
    (∃ (rq : Request) (s : Machine.State), Ready opSetWakeTimer rq s) ∧
    (∃ (rq : Request) (s : Machine.State), Ready opAuthKeySet rq s) ∧
    (∃ (rq : Request) (s : Machine.State), Ready opAuthPolicySet rq s) :=
  ⟨⟨(ask 0xFFFF [(0x0101, [])]), com, ready (by decide +kernel), by decide +kernel⟩,
   ⟨(ask 0xFFFF []), com, ready (by decide +kernel), by decide +kernel⟩,
   ⟨(ask 0xFFFF [(0x0100, be 4 0)]), com, ready (by decide +kernel)⟩,
   ⟨(ask 0xFFFF [(0x0100, be 1 0)]), com, ready (by decide +kernel)⟩,
   ⟨(ask 0xFFFF [(0x0100, be 2 0), (0x0101, be 1 0)]), com, ready (by decide +kernel)⟩⟩

theorem witness_ImageSessionsComplete :
    (∃ (rq : Request) (s : Machine.State), Ready opImageBegin rq s ∧ s.boot.session = none ∧
      ((s.sys.dev = .startup → num rq 0x0100 0 1 = 1 ∨ (num rq 0x0100 0 1 = 2 ∧ s.boot.haltCause = 3))) ∧
      ((num rq 0x0100 0 1 = 3 → s.sys.dev = .commissioning))) ∧
    (∃ (rq : Request) (s : Machine.State) (x : ImageSession), Ready opImageData rq s ∧ s.boot.session = some x ∧ x.id = num rq 0x0100 0 2 ∧
      num rq 0x0101 0 4 + (value rq 0x0102).length ≤ x.total ∧
      (∀ w ∈ x.written, ¬(w.1 < num rq 0x0101 0 4 + (value rq 0x0102).length ∧ num rq 0x0101 0 4 < w.1 + w.2))) ∧
    (∃ (rq : Request) (s : Machine.State) (x : ImageSession), Ready opImageCommit rq s ∧ imageCheck x.kind (sessionPlace x) s = 0 ∧
      s.boot.session = some x ∧ x.id = num rq 0x0100 0 2) ∧
    (∃ (rq : Request) (s : Machine.State), Ready opImageActivate rq s ∧ hasTrial (num rq 0x0100 0 1) s = true ∧ num rq 0x0100 0 1 ≠ 3) ∧
    (∃ (rq : Request) (s : Machine.State), Ready opImageActivate rq s ∧ num rq 0x0100 0 1 = 3 ∧
      (trailer (imagePlace 3 0) (bootFlash s)).2.1 = 0x3C ∧ s.boot.activating = false) ∧
    (∃ (rq : Request) (s : Machine.State), Ready opImageConfirm rq s ∧ onTrial (num rq 0x0100 0 1) s.boot = true) ∧
    (∃ (rq : Request) (s : Machine.State), Ready opImageRollback rq s ∧
      imageCheck (num rq 0x0100 0 1) (imagePlace (num rq 0x0100 0 1) (1 - bootedSlot (num rq 0x0100 0 1) s.boot)) s = 0 ∧
      num rq 0x0100 0 1 ≠ 3 ∧ (trailer (imagePlace (num rq 0x0100 0 1) (1 - bootedSlot (num rq 0x0100 0 1) s.boot)) (bootFlash s)).2.1 = 0x18) :=
  ⟨⟨(ask 0xFFFF [(0x0100, be 1 1), (0x0101, be 4 0)]), com, ready (by decide +kernel), by decide +kernel⟩,
   ⟨(ask 0xFFFF [(0x0100, be 2 1), (0x0101, be 4 0), (0x0102, be 4 0)]),
    (com.onBoot fun b => { b with session := some ({ id := 1, kind := 1, base := 0x90000, slot := 1, total := 256 } : ImageSession) }),
    ({ id := 1, kind := 1, base := 0x90000, slot := 1, total := 256 }), ready (by decide +kernel), by decide +kernel⟩,
   ⟨(ask 0xFFFF [(0x0100, be 2 1)]),
    (withImages 0xFF (com.onBoot fun b => { b with session := some ({ id := 1, kind := 1, base := 0x90000, slot := 1, total := 256 } : ImageSession) })),
    ({ id := 1, kind := 1, base := 0x90000, slot := 1, total := 256 }), ready (by decide +kernel), keeper_ok 0xFF rfl rfl, by decide +kernel⟩,
   ⟨(ask 0xFFFF [(0x0100, be 1 1)]), (imageB 0x3C), ready (by decide +kernel), trial_found, by decide +kernel⟩,
   ⟨(ask 0xFFFF [(0x0100, be 1 3)]),
    (com.onSerial fun x => { x with sel := upd x.sel 0 fun d => { d with flash := [(0x0114F004, 0x3C)] } }), ready (by decide +kernel),
    by decide +kernel⟩,
   ⟨(ask 0xFFFF [(0x0100, be 1 1)]), (com.onBoot fun b => { b with keeperTrial := true }), ready (by decide +kernel), by decide +kernel⟩,
   ⟨(ask 0xFFFF [(0x0100, be 1 1)]), (imageB 0x18), ready (by decide +kernel), keeper_ok 0x18 rfl rfl, by decide +kernel⟩⟩

theorem witness_StateCommandsComplete :
    (∃ (rq : Request) (s : Machine.State), Ready opSetState rq s ∧ s.sys.transition = none ∧ s.sys.dev.code = num rq 0x0100 0 1) ∧
    (∃ (rq : Request) (s : Machine.State), Ready opSetState rq s ∧ s.sys.transition = none ∧ s.sys.dev.code ≠ num rq 0x0100 0 1 ∧
      transitionDeny (stateOf (num rq 0x0100 0 1)) s = none ∧ stateOf (num rq 0x0100 0 1) ≠ .recovery ∧ s.lodge.st = .run) ∧
    (∃ (rq : Request) (s : Machine.State), Ready opSetState rq s ∧ s.sys.transition = none ∧ s.sys.dev.code ≠ num rq 0x0100 0 1 ∧
      transitionDeny (stateOf (num rq 0x0100 0 1)) s = none ∧ stateOf (num rq 0x0100 0 1) = .recovery) ∧
    (∃ (rq : Request) (s : Machine.State), Ready opReset rq s) ∧
    (∃ (rq : Request) (s : Machine.State), Ready opConfigSave rq s) ∧
    (∃ (rq : Request) (s : Machine.State), Ready opCyclicMapDefine rq s ∧ s.net.map[tgt 32 rq].enabled = false ∧
      s.net.map[tgt 32 rq].enableDue = none ∧
      (entriesOf rq).length + (((List.finRange 32).filter (· != tgt 32 rq)).map fun j => s.net.map[j].entries.length).sum ≤ 2048) ∧
    (∃ (rq : Request) (s : Machine.State), Ready opCyclicMapEnable rq s ∧ s.net.map[tgt 32 rq].defined = true ∧
      ((num rq 0x0100 0 1 = 1 → (tgt 32 rq).val < 16 → offending (tgt 32 rq) s = none)) ∧
      ((num rq 0x0100 0 1 ≠ 1 → (tgt 32 rq).val < 16 → feedsEnabled (tgt 32 rq) s = false))) ∧
    (∃ (rq : Request) (s : Machine.State), Ready opCyclicMapStatus rq s) :=
  ⟨⟨(ask 0xFFFF [(0x0100, be 1 2)]), com, ready (by decide +kernel), by decide +kernel⟩,
   ⟨(ask 0xFFFF [(0x0100, be 1 3)]), com, ready (by decide +kernel), by decide +kernel⟩,
   ⟨(ask 0xFFFF [(0x0100, be 1 5)]), oper, ready (by decide +kernel), by decide +kernel⟩,
   ⟨(ask 0xFFFF []), com, ready (by decide +kernel)⟩,
   ⟨(ask 0xFFFF [(0x0100, be 1 0)]), com, ready (by decide +kernel)⟩,
   ⟨(ask 0 [(0x0100, be 12 0), (0x0101, be 4 1000000 ++ be 8 0 ++ be 4 0x01000000), (0x0102, be 8 0x000C010000000000)]), com,
    ready (by decide +kernel), by decide +kernel⟩,
   ⟨(ask 0 [(0x0100, be 1 0)]), (com.onNet fun n => { n with map := upd n.map 0 fun m => { m with defined := true } }),
    ready (by decide +kernel), by decide +kernel⟩,
   ⟨(ask 0 []), com, ready (by decide +kernel)⟩⟩

theorem witness_AxisCommandsComplete :
    (∃ (rq : Request) (s : Machine.State), Ready opAxisBind rq s ∧ (s.axis[tgt 64 rq].st = .unbound ∨ s.axis[tgt 64 rq].st = .disabled) ∧
      (bindingOf rq).location = 0 ∧ unbindConflict (tgt 64 rq) s = false ∧ wireDeny (bindSlot (tgt 64 rq) (bindingOf rq) s) = none ∧
      admission (bindSlot (tgt 64 rq) (bindingOf rq) s) = none) ∧
    (∃ (rq : Request) (s : Machine.State), Ready opAxisBind rq s ∧
      ((∀ m, s.axis[tgt 64 rq].mode = some m → checkMode rq (tgt 64 rq) (bindingOf rq) m (bindSlot (tgt 64 rq) (bindingOf rq) s) = none ∧ wireDeny (bindSlot (tgt 64 rq) (bindingOf rq) s) = none ∧ admission (bindSlot (tgt 64 rq) (bindingOf rq) s) = none)) ∧
      (s.axis[tgt 64 rq].st = .unbound ∨ s.axis[tgt 64 rq].st = .disabled) ∧ (bindingOf rq).location ≠ 0 ∧
      bindTaken rq (tgt 64 rq) (bindingOf rq) s = none) ∧
    (∃ (rq : Request) (s : Machine.State), Ready opAxisSetMode rq s ∧ live s.axis[tgt 64 rq] = false ∧
      (s.sys.dev = .commissioning ∨ s.axis[tgt 64 rq].st = .disabled) ∧ ((s.axis[tgt 64 rq].mode = none → ∀ t ∈ modeTlvs, has rq t = true)) ∧
      checkMode rq (tgt 64 rq) s.axis[tgt 64 rq].bind (modeOf rq (s.axis[tgt 64 rq].mode.getD {})) s = none ∧
      wireDeny (onAx (tgt 64 rq) (fun a => { a with mode := some (modeOf rq (s.axis[tgt 64 rq].mode.getD {})), nextSource := none }) s) = none ∧
      admission (onAx (tgt 64 rq) (fun a => { a with mode := some (modeOf rq (s.axis[tgt 64 rq].mode.getD {})), nextSource := none }) s) = none) ∧
    (∃ (rq : Request) (s : Machine.State) (m : AxisMode), Ready opAxisSetMode rq s ∧ s.axis[tgt 64 rq].st = .enabled ∧
      s.axis[tgt 64 rq].standstill = true ∧ s.axis[tgt 64 rq].mode = some m ∧ has rq 0x0103 = true ∧
      ((tlvs rq).all fun t => hasBit t.type 15 || t.type == 0x0010 || t.type == 0x0103) = true ∧
      checkSource rq (tgt 64 rq) s.axis[tgt 64 rq].bind (modeOf rq m) s = none) ∧
    (∃ (rq : Request) (s : Machine.State), Ready opAxisEnable rq s ∧ enableDeny rq (tgt 64 rq) s = none ∧ s.axis[tgt 64 rq].st = .enabled) ∧
    (∃ (rq : Request) (s : Machine.State), Ready opAxisEnable rq s ∧ enableDeny rq (tgt 64 rq) s = none ∧ s.axis[tgt 64 rq].st ≠ .enabled ∧
      ((s.axis[tgt 64 rq].bind.location = 2 → brickLinked s.axis[tgt 64 rq].bind s = true))) ∧
    (∃ (rq : Request) (s : Machine.State), Ready opAxisDisable rq s ∧ s.axis[tgt 64 rq].st = .disabled) ∧
    (∃ (rq : Request) (s : Machine.State), Ready opAxisDisable rq s ∧ s.axis[tgt 64 rq].st = .enabled ∧
      (num rq 0x0100 0 1 = 1 ∨ num rq 0x0100 0 1 = 0 ∧ depthOf (tgt 64 rq) s = 1)) ∧
    (∃ (rq : Request) (s : Machine.State), Ready opAxisDisable rq s ∧ s.axis[tgt 64 rq].st = .enabled ∧ num rq 0x0100 0 1 = 0 ∧
      depthOf (tgt 64 rq) s ≠ 1) ∧
    (∃ (rq : Request) (s : Machine.State), Ready opAxisDisable rq s ∧ s.axis[tgt 64 rq].st = .enabled ∧ num rq 0x0100 0 1 = 2) ∧
    (∃ (rq : Request) (s : Machine.State), Ready opAxisDisable rq s ∧ s.axis[tgt 64 rq].st = .enabling) ∧
    (∃ (rq : Request) (s : Machine.State), Ready opAxisDisable rq s ∧ s.axis[tgt 64 rq].st = .reacting ∧ num rq 0x0100 0 1 = 1) ∧
    (∃ (rq : Request) (s : Machine.State) (u : Machine.State), Ready opAxisDisable rq s ∧
      u = (slotGroups s.axis[tgt 64 rq].bind).foldl (fun s g => if s.bta.grp[g].held || s.bta.grp[g].bySto then clearGroup g s else s) s ∧
      s.axis[tgt 64 rq].st = .faulted ∧ groupsHeld (tgt 64 rq) s = false ∧ causePresent (tgt 64 rq) s = false) ∧
    (∃ (rq : Request) (s : Machine.State), Ready opAxisStatus rq s) :=
  ⟨⟨(ask 0 [(0x0100, be 1 0)]), com, ready (by decide +kernel), by decide +kernel⟩,
   ⟨(ask 0 [(0x0100, be 1 1), (0x0101, be 2 0x2000), (0x0102, []), (0x0103, be 2 0xFFFF)]), com, ready (by decide +kernel),
    (fun _ h => absurd (congrArg Option.isSome h) (by rw [Option.isSome_some]; decide +kernel)), by decide +kernel⟩,
   ⟨(ask 0 [(0x0100, be 1 2), (0x0101, be 1 0), (0x0102, be 1 0), (0x0103, be 4 0x00FF0000), (0x0104, be 4 1), (0x0105, be 16 0), (0x0106, be 4 5000 ++ be 8 0)]),
    slot0, ready (by decide +kernel), by decide +kernel⟩,
   ⟨(ask 0 [(0x0103, be 4 0x00FF0000)]), (onAx 0 (fun a => { a with standstill := true }) slot0On), openStepper, ready (by decide +kernel),
    by decide +kernel⟩,
   ⟨(ask 0 []), slot0On, ready (by decide +kernel), by decide +kernel⟩,
   ⟨(ask 0 []), (slot0.onSys fun y => { y with dev := .operational }), ready (by decide +kernel), by decide +kernel⟩,
   ⟨(ask 0 []), slot0, ready (by decide +kernel), by decide +kernel⟩,
   ⟨(ask 0 [(0x0100, be 1 1)]), slot0On, ready (by decide +kernel), by decide +kernel⟩,
   ⟨(ask 0 [(0x0100, be 1 0)]), slot0On, ready (by decide +kernel), by decide +kernel⟩,
   ⟨(ask 0 [(0x0100, be 1 2)]), slot0On, ready (by decide +kernel), by decide +kernel⟩,
   ⟨(ask 0 []), (onAx 0 (fun a => { a with st := .enabling }) slot0On), ready (by decide +kernel), by decide +kernel⟩,
   ⟨(ask 0 [(0x0100, be 1 1)]), (onAx 0 (fun a => { a with st := .reacting }) slot0On), ready (by decide +kernel), by decide +kernel⟩,
   ⟨(ask 0 []), (onAx 0 (fun a => { a with st := .faulted, cause := 1 }) slot0On), _, ready (by decide +kernel), rfl, by decide +kernel⟩,
   ⟨(ask 0 []), com, ready (by decide +kernel)⟩⟩

theorem witness_PlannerMovesComplete :
    (∃ (rq : Request) (s : Machine.State), Ready opMoveAbs rq s ∧ moveDeny rq (tgt 64 rq) false (int rq 0x0100 0 8) 0 s = none) ∧
    (∃ (rq : Request) (s : Machine.State), Ready opMoveRel rq s ∧
      moveDeny rq (tgt 64 rq) false (relBase (tgt 64 rq) s + int rq 0x0100 0 8) 0 s = none) ∧
    (∃ (rq : Request) (s : Machine.State), Ready opJog rq s ∧
      moveDeny rq (tgt 64 rq) true s.axis[tgt 64 rq].posSp (int rq 0x0100 0 8) s = none) ∧
    (∃ (rq : Request) (s : Machine.State) (g : Fin 16), Ready opStop rq s ∧ rq.target ≠ 0xFFFF ∧ runningGroup (tgt 64 rq) s = some g) ∧
    (∃ (rq : Request) (s : Machine.State), Ready opStop rq s ∧ rq.target ≠ 0xFFFF ∧ runningGroup (tgt 64 rq) s = none ∧
      stoppable (tgt 64 rq) s = true) ∧
    (∃ (rq : Request) (s : Machine.State), Ready opStop rq s ∧ rq.target ≠ 0xFFFF ∧ runningGroup (tgt 64 rq) s = none ∧
      stoppable (tgt 64 rq) s = false) ∧
    (∃ (rq : Request) (s : Machine.State) (u : Machine.State) (v : Machine.State), Ready opStop rq s ∧
      v = (List.finRange 64).foldl (fun s i => if stoppable i s then requestStop i (num rq 0x0100 0 1) s else s) s ∧
      u = (List.finRange 16).foldl (fun s g => if s.plan.grp[g].running && s.plan.grp[g].activity != 4 then requestGroupStop g (num rq 0x0100 0 1) s else s) v ∧
      rq.target = 0xFFFF) :=
  ⟨⟨(ask 0 [(0x0100, be 8 0)]), slot0On, ready (by decide +kernel), by decide +kernel⟩,
   ⟨(ask 0 [(0x0100, be 8 0)]), slot0On, ready (by decide +kernel), by decide +kernel⟩,
   ⟨(ask 0 [(0x0100, be 8 0)]), slot0On, ready (by decide +kernel), by decide +kernel⟩,
   ⟨(ask 0 [(0x0100, be 1 0)]), (group0.onPlan fun p => { p with grp := upd p.grp 0 fun g => { g with running := true, activity := 2 } }),
    0, ready (by decide +kernel), by decide +kernel⟩,
   ⟨(ask 0 [(0x0100, be 1 0)]), (slot0On.onPlan fun p => { p with ax := upd p.ax 0 fun y => { y with activity := 1 } }),
    ready (by decide +kernel), by decide +kernel⟩,
   ⟨(ask 0 [(0x0100, be 1 0)]), slot0On, ready (by decide +kernel), by decide +kernel⟩,
   ⟨(ask 0xFFFF [(0x0100, be 1 0)]), slot0On, _, _, ready (by decide +kernel), rfl, rfl, by decide +kernel⟩⟩

theorem witness_PlannerSettingsComplete :
    (∃ (rq : Request) (s : Machine.State), Ready opPlanAxisConfig rq s ∧
      ((s.plan.ax[tgt 64 rq].cfg = none → ∀ t ∈ [0x0100, 0x0101, 0x0104], has rq t = true)) ∧ s.axis[tgt 64 rq].st ≠ .unbound ∧
      (s.sys.dev = .commissioning ∨ s.axis[tgt 64 rq].st = .disabled ∨ s.axis[tgt 64 rq].st = .enabled ∧ s.plan.ax[tgt 64 rq].activity = 0 ∧ has rq 0x0104 = false)) ∧
    (∃ (rq : Request) (s : Machine.State) (q : List SegEntry), Ready opSegmentAppend rq s ∧
      parseSegs s.plan.grp[tgt 16 rq] s ((value rq 0x0100).length / 32) 0 (value rq 0x0100) s.plan.grp[tgt 16 rq].queue = .ok q ∧
      s.plan.grp[tgt 16 rq].defined = true ∧ queueUsed { s.plan.grp[tgt 16 rq] with queue := q } ≤ s.plan.grp[tgt 16 rq].capacity) ∧
    (∃ (rq : Request) (s : Machine.State), Ready opGroupDefine rq s ∧
      ((s.plan.grp[tgt 16 rq].defined = true → s.plan.grp[tgt 16 rq].activity = 1)) ∧ has rq 0x0100 = false) ∧
    (∃ (rq : Request) (s : Machine.State) (v : Machine.State), Ready opGroupDefine rq s ∧
      storeAllocate (storeGroup (tgt 16 rq)) (num rq 0x0105 0 2) s = some v ∧
      ((s.plan.grp[tgt 16 rq].defined = true → s.plan.grp[tgt 16 rq].activity = 1)) ∧ has rq 0x0100 = true ∧
      ((∀ n ∈ membersOf rq, s.axis[memberSlot n].bind.location ≠ 0 ∧ ∀ k : Fin 16, k ≠ tgt 16 rq → s.plan.grp[k].defined = true → n ∉ s.plan.grp[k].members))) ∧
    (∃ (rq : Request) (s : Machine.State), Ready opStoreStatus rq s) ∧
    (∃ (rq : Request) (s : Machine.State), Ready opOverrideSet rq s) :=
  ⟨⟨(ask 0 [(0x0100, (List.replicate 5 (be 8 1)).flatten), (0x0101, (List.replicate 3 (be 8 1)).flatten), (0x0104, be 1 13)]), slot0,
    ready (by decide +kernel), (fun _ => by decide +kernel), by decide +kernel⟩,
   ⟨(ask 0 [(0x0100, be 4 0x050100FF ++ be 20 0 ++ be 4 1 ++ be 4 0)]), group0,
    [({ kind := 5, profile := 0xFF, dur := 1, start := [0, 0], ends := [0, 0], ctrl := [[0, 0], [0, 0], [0, 0]], vel0 := [0, 0] } : SegEntry)],
    ready (by decide +kernel), rfl, by decide +kernel⟩,
   ⟨(ask 0 []), com, ready (by decide +kernel), by decide +kernel⟩,
   ⟨(ask 0 [(0x0100, [0, 1]), (0x0101, be 1 2), (0x0102, be 4 1 ++ be 4 1), (0x0103, (List.replicate 5 (be 8 1)).flatten), (0x0104, (List.replicate 3 (be 8 1)).flatten), (0x0105, be 2 16), (0x0106, be 1 0)]),
    ((group0.onSys fun y => { y with dev := .commissioning }).onPlan fun p => { p with grp := upd p.grp 0 fun _ => {} }), _,
    ready (by decide +kernel), (Option.some_get (by decide +kernel)).symm, by decide +kernel⟩,
   ⟨(ask 0xFFFF []), com, ready (by decide +kernel)⟩,
   ⟨(ask 0xFFFF [(0x0100, be 4 0)]), slot0On, ready (by decide +kernel)⟩⟩

theorem witness_PlannerGroupsComplete :
    (∃ (rq : Request) (s : Machine.State), Ready opGroupStart rq s ∧ s.plan.grp[tgt 16 rq].defined = true ∧
      groupStopping s.plan.grp[tgt 16 rq] = false ∧ s.plan.grp[tgt 16 rq].activity ≠ 4 ∧ s.plan.grp[tgt 16 rq].running = false ∧
      (∀ n ∈ s.plan.grp[tgt 16 rq].members, memberReady (memberSlot (s.plan.grp[tgt 16 rq].members.getD 0 0)) (memberSlot n) s = true)) ∧
    (∃ (rq : Request) (s : Machine.State), Ready opGroupStart rq s ∧ s.plan.grp[tgt 16 rq].defined = true ∧
      groupStopping s.plan.grp[tgt 16 rq] = false ∧ s.plan.grp[tgt 16 rq].activity ≠ 4 ∧ s.plan.grp[tgt 16 rq].running = true) ∧
    (∃ (rq : Request) (s : Machine.State), Ready opGroupResume rq s ∧ groupStopping s.plan.grp[tgt 16 rq] = false ∧
      s.plan.grp[tgt 16 rq].defined = true ∧ s.plan.grp[tgt 16 rq].activity = 4) ∧
    (∃ (rq : Request) (s : Machine.State), Ready opGroupClear rq s ∧ groupStopping s.plan.grp[tgt 16 rq] = false ∧
      s.plan.grp[tgt 16 rq].defined = true ∧ s.plan.grp[tgt 16 rq].activity ≠ 2 ∧ s.plan.grp[tgt 16 rq].activity ≠ 3) ∧
    (∃ (rq : Request) (s : Machine.State), Ready opGroupStatus rq s) :=
  ⟨⟨(ask 0 []), group0, ready (by decide +kernel), by decide +kernel⟩,
   ⟨(ask 0 []), (group0.onPlan fun p => { p with grp := upd p.grp 0 fun g => { g with running := true, activity := 2 } }),
    ready (by decide +kernel), by decide +kernel⟩,
   ⟨(ask 0 []), (group0.onPlan fun p => { p with grp := upd p.grp 0 fun g => { g with activity := 4 } }), ready (by decide +kernel),
    by decide +kernel⟩,
   ⟨(ask 0 []), group0, ready (by decide +kernel), by decide +kernel⟩,
   ⟨(ask 0 []), com, ready (by decide +kernel)⟩⟩

theorem witness_GearLinksComplete :
    (∃ (rq : Request) (s : Machine.State), Ready opGearLink rq s ∧ num rq 0x0100 0 1 = 0 ∧
      ¬(s.axis[tgt 64 rq].st = .enabled ∧ (sourceOf (tgt 64 rq) s = 1 ∨ sourceOf (tgt 64 rq) s = 2))) ∧
    (∃ (rq : Request) (s : Machine.State) (l : GearLink), Ready opGearLink rq s ∧
      l = { linkOf rq s.gear.link[tgt 64 rq] with mOffset := masterOffset (linkOf rq s.gear.link[tgt 64 rq]) s, mLast := masterPos { linkOf rq s.gear.link[tgt 64 rq] with mOffset := masterOffset (linkOf rq s.gear.link[tgt 64 rq]) s } s } ∧
      num rq 0x0100 0 1 ≠ 0 ∧ s.gear.link[tgt 64 rq].engage ≠ 2 ∧ ¬(sourceOf (tgt 64 rq) s = 1 ∧ num rq 0x0100 0 1 = 2) ∧
      ¬(sourceOf (tgt 64 rq) s = 2 ∧ num rq 0x0100 0 1 = 1) ∧ chainsOk (upd s.gear.link (tgt 64 rq) fun _ => l) = true ∧
      ((l.mKind = 3 → s.ports.port[Fin.ofNat 32 l.mIndex].mode ∈ [1, 2, 3])) ∧
      ((num rq 0x0100 0 1 = 2 → (camTab s l.table).committed = true)) ∧
      ((l.engagePos = none → s.axis[tgt 64 rq].st = .enabled → camFar (tgt 64 rq) l l.mLast s = false))) ∧
    (∃ (rq : Request) (s : Machine.State), Ready opGearRatioAt rq s ∧ s.gear.link[tgt 64 rq].mode = 1 ∧ has rq 0x0102 = true ∧
      has rq 0x0103 = false ∧ s.gear.link[tgt 64 rq].changes.length < 64) ∧
    (∃ (rq : Request) (s : Machine.State), Ready opGearRatioAt rq s ∧ s.gear.link[tgt 64 rq].mode = 2 ∧ has rq 0x0102 = false ∧
      has rq 0x0103 = true ∧ (camTab s (num rq 0x0103 0 1)).committed = true ∧ s.gear.link[tgt 64 rq].changes.length < 64) ∧
    (∃ (rq : Request) (s : Machine.State), Ready opGearClearPending rq s) ∧
    (∃ (rq : Request) (s : Machine.State), Ready opVmasterSet rq s ∧
      ((has rq 0x0102 = true → ∀ i : Fin 64, ¬(s.gear.link[i].mode ≠ 0 ∧ s.gear.link[i].engage = 2 ∧ s.gear.link[i].mKind = 4 ∧ s.gear.link[i].mIndex = (tgt 8 rq).val)))) ∧
    (∃ (rq : Request) (s : Machine.State), Ready opGearStatusRead rq s) :=
  ⟨⟨(ask 0 [(0x0100, be 1 0)]), com, ready (by decide +kernel), by decide +kernel⟩,
   ⟨(ask 0 [(0x0100, be 1 1), (0x0101, be 4 0), (0x0102, be 4 1 ++ be 4 1)]), com, _, ready (by decide +kernel), rfl, by decide +kernel⟩,
   ⟨(ask 0 [(0x0100, be 8 0), (0x0101, be 1 0), (0x0102, be 4 1 ++ be 4 1)]),
    (oper.onGear fun g => { g with link := upd g.link 0 fun l => { l with mode := 1 } }), ready (by decide +kernel), by decide +kernel⟩,
   ⟨(ask 0 [(0x0100, be 8 0), (0x0101, be 1 0), (0x0103, be 1 0)]),
    (oper.onGear fun g => { g with link := upd g.link 0 (fun l => { l with mode := 2 }), cam := upd g.cam 0 fun c => { c with defined := true, committed := true } }),
    ready (by decide +kernel), by decide +kernel⟩,
   ⟨(ask 0 []), oper, ready (by decide +kernel)⟩,
   ⟨(ask 0 []), com, ready (by decide +kernel), by decide +kernel⟩,
   ⟨(ask 0 []), com, ready (by decide +kernel)⟩⟩

theorem witness_CamTablesComplete :
    (∃ (rq : Request) (s : Machine.State), Ready opCamDefine rq s ∧ camInUse (tgt 32 rq) s = false ∧ has rq 0x0100 = false) ∧
    (∃ (rq : Request) (s : Machine.State) (v : Machine.State), Ready opCamDefine rq s ∧
      storeAllocate (storeCam (tgt 32 rq)) (num rq 0x0100 2 2 + 1) s = some v ∧ camInUse (tgt 32 rq) s = false ∧ has rq 0x0100 = true) ∧
    (∃ (rq : Request) (s : Machine.State), Ready opCamData rq s ∧ s.gear.cam[tgt 32 rq].defined = true ∧ camInUse (tgt 32 rq) s = false ∧
      num rq 0x0100 0 2 + (value rq 0x0101).length / 32 ≤ s.gear.cam[tgt 32 rq].count + 1 ∧
      ((∀ k, k < (value rq 0x0101).length / 32 → if num rq 0x0100 0 2 + k = 0 then camHeaderOk (slice (32 * k) 32 (value rq 0x0101)) = true ∧ beNat (slice 2 2 (slice (32 * k) 32 (value rq 0x0101))) + 1 ≤ camRoom (tgt 32 rq) s else bad63 (slice 8 8 (slice (32 * k) 32 (value rq 0x0101))) = false ∧ bad63 (slice 16 8 (slice (32 * k) 32 (value rq 0x0101))) = false ∧ ∀ x ∈ slice 1 7 (slice (32 * k) 32 (value rq 0x0101)), x = 0))) ∧
    (∃ (rq : Request) (s : Machine.State), Ready opCamCommit rq s ∧ s.gear.cam[tgt 32 rq].defined = true ∧
      camBad s.gear.cam[tgt 32 rq] = none) :=
  ⟨⟨(ask 0 []), com, ready (by decide +kernel), by decide +kernel⟩,
   ⟨(ask 0 [(0x0100, be 4 0x41000002 ++ be 28 0)]), com, _, ready (by decide +kernel), (Option.some_get (by decide +kernel)).symm,
    by decide +kernel⟩,
   ⟨(ask 0 [(0x0100, be 2 1), (0x0101, 0x40 :: be 31 0)]),
    (com.onGear fun g => { g with cam := upd g.cam 0 fun c => { c with defined := true } }), ready (by decide +kernel), by decide +kernel⟩,
   ⟨(ask 0 []),
    (com.onGear fun g => { g with cam := upd g.cam 0 fun c => { c with defined := true, points := [(1, { kind := 0x40 }), (2, { kind := 0x40, x := 65536 })] } }),
    ready (by decide +kernel), by decide +kernel⟩⟩

theorem witness_LoopSettingsComplete :
    (∃ (rq : Request) (s : Machine.State), Ready opLoopLoadCascade rq s ∧ loopDeny rq (tgt 64 rq) s = none ∧ loadDeny rq (tgt 64 rq) s = none) ∧
    (∃ (rq : Request) (s : Machine.State), Ready opLoopSchedule rq s ∧ loopDeny rq (tgt 64 rq) s = none ∧ s.axis[tgt 64 rq].st = .enabled ∧
      has rq 0x0101 = false ∧ has rq 0x0102 = false ∧ has rq 0x0103 = false ∧
      (boundsOf rq).length + 1 = s.loop.slot[tgt 64 rq].lp[loopNo rq].nRegions ∧
      edgesDeny s.loop.slot[tgt 64 rq].lp[loopNo rq].schedVar rq = none) ∧
    (∃ (rq : Request) (s : Machine.State) (l : LoopSt) (t : Machine.State), Ready opLoopSchedule rq s ∧
      l = s.loop.slot[tgt 64 rq].lp[loopNo rq] ∧
      t = onLoopSt (tgt 64 rq) (loopNo rq) (fun y => { y with n := num rq 0x0101 0 1, integ := num rq 0x0102 0 1 == 1, nRegions := (boundsOf rq).length + 1, schedVar := num rq 0x0103 0 1, varPort := num rq 0x0103 1 1, absolute := hasBit (num rq 0x0103 2 1) 0, bounds := boundsOf rq, hyst := intD rq 0x0105 0 8 0, region := if num rq 0x0101 0 1 == l.n && (num rq 0x0102 0 1 == 1) == l.integ && num rq 0x0103 0 1 == l.schedVar && num rq 0x0103 1 1 == l.varPort && hasBit (num rq 0x0103 2 1) 0 == l.absolute && (boundsOf rq).length + 1 == l.nRegions then y.region else updAll y.region fun _ r => { r with loaded := false } }) s ∧
      loopDeny rq (tgt 64 rq) s = none ∧ s.axis[tgt 64 rq].st ≠ .enabled ∧ configuring (tgt 64 rq) s = true ∧ has rq 0x0101 = true ∧
      has rq 0x0102 = true ∧ has rq 0x0103 = true ∧ scheduleDeny rq (tgt 64 rq) s = none ∧ edgesDeny (num rq 0x0103 0 1) rq = none ∧
      ((num rq 0x0101 0 1 ≠ l.n → admission t = none))) ∧
    (∃ (rq : Request) (s : Machine.State), Ready opLoopScales rq s ∧ configuring (tgt 64 rq) s = true) ∧
    (∃ (rq : Request) (s : Machine.State), Ready opLoopMotor rq s ∧ configuring (tgt 64 rq) s = true) ∧
    (∃ (rq : Request) (s : Machine.State) (m : AxisMode), Ready opLoopModulation rq s ∧ configuring (tgt 64 rq) s = true ∧
      s.axis[tgt 64 rq].mode = some m ∧ modulationAllowed m.drive (num rq 0x0100 0 1) = true ∧
      ((num rq 0x0101 0 1 = 2 → ∀ j : Fin 64, num rq 0x0101 1 1 ∉ s.axis[j].bind.inputs))) ∧
    (∃ (rq : Request) (s : Machine.State), Ready opLoopFollow rq s ∧ configuring (tgt 64 rq) s = true) ∧
    (∃ (rq : Request) (s : Machine.State), Ready opLoopLimits rq s) ∧
    (∃ (rq : Request) (s : Machine.State), Ready opLoopObserver rq s ∧ configuring (tgt 64 rq) s = true) :=
  ⟨⟨(ask 0 [(0x0100, be 1 0), (0x0101, be 1 0), (0x0102, be 4 0 ++ be 4 1 ++ be 16 0), (0x0103, be 256 0)]), looped,
    ready (by decide +kernel), by decide +kernel⟩,
   ⟨(ask 0 [(0x0100, be 1 0)]), (onAx 0 (fun a => { a with st := .enabled }) looped), ready (by decide +kernel), by decide +kernel⟩,
   ⟨(ask 0 [(0x0100, be 1 0), (0x0101, be 1 8), (0x0102, be 1 0), (0x0103, be 4 0)]), looped, _, _, ready (by decide +kernel), rfl, rfl,
    by decide +kernel⟩,
   ⟨(ask 0 [(0x0100, be 4 0), (0x0101, be 4 0), (0x0102, be 8 0), (0x0103, be 8 0)]), looped, ready (by decide +kernel), by decide +kernel⟩,
   ⟨(ask 0 [(0x0100, be 8 0), (0x0101, be 32 0), (0x0102, be 1 0)]), looped, ready (by decide +kernel), by decide +kernel⟩,
   ⟨(ask 0 [(0x0100, be 1 3), (0x0101, be 8 0)]), looped, ({ drive := 3, depth := 1 }), ready (by decide +kernel), by decide +kernel⟩,
   ⟨(ask 0 [(0x0100, be 2 0), (0x0101, be 2 0), (0x0102, be 8 0), (0x0103, be 16 0)]), looped, ready (by decide +kernel), by decide +kernel⟩,
   ⟨(ask 0 [(0x0100, be 16 0 ++ be 4 0x01000000)]), looped, ready (by decide +kernel)⟩,
   ⟨(ask 0 [(0x0100, be 8 0), (0x0101, be 4 10), (0x0102, be 16 0)]), looped, ready (by decide +kernel), by decide +kernel⟩⟩

theorem witness_LoopReadsComplete :
    (∃ (rq : Request) (s : Machine.State), Ready opLoopRead rq s ∧ loopDeny rq (tgt 64 rq) s = none) ∧
    (∃ (rq : Request) (s : Machine.State), Ready opLoopStatusRead rq s) :=
  ⟨⟨(ask 0 [(0x0100, be 1 0), (0x0101, be 1 0)]), looped, ready (by decide +kernel), by decide +kernel⟩,
   ⟨(ask 0 []), looped, ready (by decide +kernel)⟩⟩

theorem witness_PositionPortsComplete :
    (∃ (rq : Request) (s : Machine.State), Ready opPpConfig rq s ∧ freePort (tgt 32 rq) s = true ∧
      ((∀ m, fixedMode (tgt 32 rq) s = some m → m = num rq 0x0100 0 1))) ∧
    (∃ (rq : Request) (s : Machine.State), Ready opPpSetPosition rq s ∧ freePort (tgt 32 rq) s = true) ∧
    (∃ (rq : Request) (s : Machine.State), Ready opPpIndexConfig rq s ∧ freePort (tgt 32 rq) s = true) ∧
    (∃ (rq : Request) (s : Machine.State), Ready opPpSpeedConfig rq s ∧ freePort (tgt 32 rq) s = true) ∧
    (∃ (rq : Request) (s : Machine.State), Ready opPpLossConfig rq s) ∧
    (∃ (rq : Request) (s : Machine.State), Ready opPpStatusRead rq s) :=
  ⟨⟨(ask 0 [(0x0100, be 1 0), (0x0101, be 1 0), (0x0102, be 1 0), (0x0103, be 4 2)]), com, ready (by decide +kernel), by decide +kernel⟩,
   ⟨(ask 0 [(0x0100, be 8 0)]), com, ready (by decide +kernel), by decide +kernel⟩,
   ⟨(ask 0 [(0x0100, be 16 0)]), com, ready (by decide +kernel), by decide +kernel⟩,
   ⟨(ask 0 [(0x0100, be 2 1 ++ be 2 0x0100 ++ be 4 10 ++ be 16 0)]), com, ready (by decide +kernel), by decide +kernel⟩,
   ⟨(ask 0 [(0x0100, be 3 0x000101 ++ be 13 0)]), com, ready (by decide +kernel)⟩,
   ⟨(ask 0 []), com, ready (by decide +kernel)⟩⟩

theorem witness_CompareUnitsComplete :
    (∃ (rq : Request) (s : Machine.State), Ready opCompareDefine rq s ∧ s.ports.cmp[tgt 16 rq].enabled = false ∧ has rq 0x0101 = false) ∧
    (∃ (rq : Request) (s : Machine.State) (v : Machine.State), Ready opCompareDefine rq s ∧
      storeAllocate (storeCompare (tgt 16 rq)) (num rq 0x0101 0 2) s = some v ∧ s.ports.cmp[tgt 16 rq].enabled = false ∧ has rq 0x0101 = true) ∧
    (∃ (rq : Request) (s : Machine.State), Ready opCompareData rq s ∧ s.ports.cmp[tgt 16 rq].enabled = false ∧
      s.ports.cmp[tgt 16 rq].defined = true ∧ num rq 0x0100 0 2 + (value rq 0x0101).length / 32 ≤ s.ports.cmp[tgt 16 rq].length ∧
      ((∀ k, k < (value rq 0x0101).length / 32 → bad63 (slice (32 * k + 8) 8 (value rq 0x0101)) = false ∧ bad63 (slice (32 * k + 16) 8 (value rq 0x0101)) = false))) ∧
    (∃ (rq : Request) (s : Machine.State), Ready opCompareArm rq s ∧ num rq 0x0100 0 1 = 0) ∧
    (∃ (rq : Request) (s : Machine.State), Ready opCompareArm rq s ∧ num rq 0x0100 0 1 = 1 ∧ s.ports.cmp[tgt 16 rq].defined = true ∧
      numD rq 0x0101 0 2 0 < s.ports.cmp[tgt 16 rq].length ∧ compareBad (tgt 16 rq) s = none) ∧
    (∃ (rq : Request) (s : Machine.State), Ready opCompareForce rq s) :=
  ⟨⟨(ask 0 [(0x0100, be 1 0), (0x0102, be 1 0)]), com, ready (by decide +kernel), by decide +kernel⟩,
   ⟨(ask 0 [(0x0100, be 1 0), (0x0101, be 2 1), (0x0102, be 1 0)]), com, _, ready (by decide +kernel),
    (Option.some_get (by decide +kernel)).symm, by decide +kernel⟩,
   ⟨(ask 0 [(0x0100, be 2 0), (0x0101, be 32 0)]),
    (com.onPorts fun b => { b with cmp := upd b.cmp 0 fun c => { c with defined := true, length := 1 } }), ready (by decide +kernel),
    by decide +kernel⟩,
   ⟨(ask 0 [(0x0100, be 1 0)]), com, ready (by decide +kernel), by decide +kernel⟩,
   ⟨(ask 0 [(0x0100, be 1 1)]),
    (com.onPorts fun b => { b with cmp := upd b.cmp 0 fun c => { c with defined := true, length := 1, entries := [(0, { kind := 0x60, flags := 4 })] } }),
    ready (by decide +kernel), by decide +kernel⟩,
   ⟨(ask 0 [(0x0100, be 1 0)]), com, ready (by decide +kernel)⟩⟩

theorem witness_CapturesComplete :
    (∃ (rq : Request) (s : Machine.State), Ready opLatchConfig rq s) ∧
    (∃ (rq : Request) (s : Machine.State), Ready opLatchRead rq s) ∧
    (∃ (rq : Request) (s : Machine.State), Ready opSnapshotConfig rq s) ∧
    (∃ (rq : Request) (s : Machine.State), Ready opSnapshotRead rq s) ∧
    (∃ (rq : Request) (s : Machine.State), Ready opSnapshotTrigger rq s) :=
  ⟨⟨(ask 0 [(0x0100, be 1 0), (0x0101, be 1 0), (0x0102, be 4 0x00000100)]), com, ready (by decide +kernel)⟩,
   ⟨(ask 0 [(0x0100, be 1 1)]), com, ready (by decide +kernel)⟩,
   ⟨(ask 0xFFFF [(0x0100, be 1 0), (0x0101, be 4 0x00000100)]), com, ready (by decide +kernel)⟩,
   ⟨(ask 0xFFFF []), com, ready (by decide +kernel)⟩,
   ⟨(ask 0xFFFF []), oper, ready (by decide +kernel)⟩⟩

theorem witness_BtaSettingsComplete :
    (∃ (rq : Request) (s : Machine.State), Ready opBtaGroupConfig rq s ∧ groupQuiet (tgt 32 rq) s = true ∧
      ((s.bta.grp[tgt 32 rq].occupied = true → num rq 0x0100 0 4 = 0 ∧ num rq 0x0101 0 1 ≠ 1 ∧ has rq 0x0102 = false))) ∧
    (∃ (rq : Request) (s : Machine.State), Ready opBtaLegConfig rq s ∧ groupQuiet (legGroup (tgt 96 rq)) s = true) ∧
    (∃ (rq : Request) (s : Machine.State), Ready opBtaTripConfig rq s ∧ groupQuiet (tgt 32 rq) s = true ∧
      ((has rq 0x0101 = true → s.bta.grp[tgt 32 rq].occupied = false ∧ ∀ i : Fin 64, ∀ n ∈ ocInputsOf rq, n ∉ s.axis[i].bind.inputs))) ∧
    (∃ (rq : Request) (s : Machine.State), Ready opBtaBlankConfig rq s) ∧
    (∃ (rq : Request) (s : Machine.State), Ready opBtaTripInputConfig rq s) ∧
    (∃ (rq : Request) (s : Machine.State), Ready opBtaSdcConfig rq s) ∧
    (∃ (rq : Request) (s : Machine.State), Ready opBtaSdiConfig rq s ∧
      ((s.sys.dev = .commissioning ∨ ∀ i : Fin 64, (tgt 96 rq).val ∈ s.axis[i].bind.inputs → s.axis[i].st ≠ .enabled))) ∧
    (∃ (rq : Request) (s : Machine.State), Ready opBtaBankLevel rq s ∧
      ((∀ g ∈ bankGroups (tgt 8 rq), groupQuiet g s = true ∧ (s.bta.grp[g].run = true → s.bta.grp[g].occupied = true)))) :=
  ⟨⟨(ask 0 [(0x0100, be 12 0), (0x0101, be 4 0x00080000)]), com, ready (by decide +kernel), by decide +kernel⟩,
   ⟨(ask 0 [(0x0100, be 4 0), (0x0101, be 1 0), (0x0102, be 1 0)]), com, ready (by decide +kernel), by decide +kernel⟩,
   ⟨(ask 0 [(0x0100, be 8 0)]), com, ready (by decide +kernel), by decide +kernel⟩,
   ⟨(ask 0 [(0x0100, be 12 0)]), com, ready (by decide +kernel)⟩,
   ⟨(ask 0 [(0x0100, be 2 0)]), com, ready (by decide +kernel)⟩,
   ⟨(ask 0 [(0x0100, be 2 20 ++ be 2 0)]), com, ready (by decide +kernel)⟩,
   ⟨(ask 0 [(0x0100, be 2 16 ++ be 2 0x0401), (0x0101, be 4 0 ++ be 4 1)]), com, ready (by decide +kernel), by decide +kernel⟩,
   ⟨(ask 0 [(0x0100, be 1 0)]), com, ready (by decide +kernel), by decide +kernel⟩⟩

theorem witness_BtaActionsComplete :
    (∃ (rq : Request) (s : Machine.State), Ready opBtaTripClear rq s ∧
      ((∀ g : Fin 32, (rq.target = 0xFFFF ∨ g.val = rq.target.toNat) → groupHeld g s = true → stillActive g s = 0))) ∧
    (∃ (rq : Request) (s : Machine.State), Ready opBtaDutySet rq s ∧ s.bta.grp[tgt 32 rq].occupied = false) ∧
    (∃ (rq : Request) (s : Machine.State), Ready opBtaStatusRead rq s) :=
  ⟨⟨(ask 0 []), com, ready (by decide +kernel), by decide +kernel⟩,
   ⟨(ask 0 [(0x0100, be 6 0)]), oper, ready (by decide +kernel), by decide +kernel⟩,
   ⟨(ask 0 []), com, ready (by decide +kernel)⟩⟩

theorem witness_StepperAndBricksComplete :
    (∃ (rq : Request) (s : Machine.State), Ready opStepperConfig rq s ∧
      (s.sys.dev = .commissioning ∨ s.axis[tgt 64 rq].st = .disabled ∨ s.axis[tgt 64 rq].st = .enabled ∧ has rq 0x0100 = false ∧ has rq 0x0103 = false ∧ has rq 0x0104 = false)) ∧
    (∃ (rq : Request) (s : Machine.State), Ready opStepperStatusRead rq s) ∧
    (∃ (rq : Request) (s : Machine.State), Ready opStepperSetPosition rq s ∧
      (s.axis[tgt 64 rq].st = .disabled ∨ s.axis[tgt 64 rq].st = .enabled ∧ s.axis[tgt 64 rq].standstill = true ∧ s.plan.ax[tgt 64 rq].activity = 0)) ∧
    (∃ (rq : Request) (s : Machine.State), Ready opBrickRegister rq s ∧
      (sameLink rq s.bricks.brick[tgt 64 rq] = true ∨ s.bricks.brick[tgt 64 rq].registered = false ∨ brickSlots (tgt 64 rq) s = []) ∧
      has rq 0x0100 = false) ∧
    (∃ (rq : Request) (s : Machine.State) (t : Machine.State), Ready opBrickRegister rq s ∧
      t = onBrick (tgt 64 rq) (fun x => (if sameLink rq s.bricks.brick[tgt 64 rq] then x else x.tallies).register rq) s ∧
      (sameLink rq s.bricks.brick[tgt 64 rq] = true ∨ s.bricks.brick[tgt 64 rq].registered = false ∨ brickSlots (tgt 64 rq) s = []) ∧
      has rq 0x0100 = true ∧ brickProof t = none) ∧
    (∃ (rq : Request) (s : Machine.State) (t : Machine.State), Ready opFrameGroupConfig rq s ∧
      t = (s.onBricks fun k => { k with fg := upd k.fg (tgt 16 rq) fun g => { g with mac := BitVec.ofNat 48 (num rq 0x0100 0 6), vlan := num rq 0x0100 6 2, etherType := num rq 0x0100 8 2, phase := num rq 0x0101 0 4, configured := true } }) ∧
      brickProof t = none) ∧
    (∃ (rq : Request) (s : Machine.State), Ready opBrickStatus rq s) :=
  ⟨⟨(ask 0 []), slot0, ready (by decide +kernel), by decide +kernel⟩,
   ⟨(ask 0 []), slot0, ready (by decide +kernel)⟩,
   ⟨(ask 0 [(0x0100, be 8 0)]), slot0, ready (by decide +kernel), by decide +kernel⟩,
   ⟨(ask 0 [(0x0101, be 4 500 ++ be 4 0)]), com, ready (by decide +kernel), by decide +kernel⟩,
   ⟨(ask 0 [(0x0100, be 4 0x00010001 ++ be 8 0), (0x0101, be 4 500 ++ be 4 0), (0x0102, be 4 0x00010000)]), com, _,
    ready (by decide +kernel), rfl, by decide +kernel⟩,
   ⟨(ask 0 [(0x0100, be 10 0), (0x0101, be 4 0)]), com, _, ready (by decide +kernel), rfl, by decide +kernel⟩,
   ⟨(ask 0 []), com, ready (by decide +kernel)⟩⟩

theorem witness_SwitchSettingsComplete :
    (∃ (rq : Request) (s : Machine.State), Ready opNetAddrConfig rq s ∧ has rq 0x0100 = true) ∧
    (∃ (rq : Request) (s : Machine.State) (p : NetPort) (n : NetPort), Ready opPortConfig rq s ∧ p = s.net.port[ext (tgt 4 rq)] ∧
      n = p.configured rq s.now ∧ (portFrameGroups (tgt 4 rq).val s = [] ∨ breaksGroup rq = false)) ∧
    (∃ (rq : Request) (s : Machine.State), Ready opVlanConfig rq s ∧ has rq 0x0100 = false) ∧
    (∃ (rq : Request) (s : Machine.State), Ready opVlanConfig rq s ∧ has rq 0x0100 = true ∧
      (s.net.vlans.filter (·.vid != rq.target.toNat)).length < 64) ∧
    (∃ (rq : Request) (s : Machine.State), Ready opFdbStatic rq s ∧ num rq 0x0100 8 1 = 0) ∧
    (∃ (rq : Request) (s : Machine.State) (e : Fdb), Ready opFdbStatic rq s ∧
      e = ({ mac := BitVec.ofNat 48 (num rq 0x0100 0 6), vid := num rq 0x0100 6 2, ports := BitVec.ofNat 5 (num rq 0x0100 8 1) } : Fdb) ∧
      num rq 0x0100 8 1 ≠ 0 ∧ (s.net.fdbStatic.filter fun x => !(x.mac == e.mac && x.vid == e.vid)).length < 256) ∧
    (∃ (rq : Request) (s : Machine.State), Ready opGateListSet rq s ∧ portFrameGroups (tgt 4 rq).val s = [] ∧
      (gateListOf rq s.net.gates[tgt 4 rq]).entries = []) ∧
    (∃ (rq : Request) (s : Machine.State) (l : GateList), Ready opGateListSet rq s ∧ l = gateListOf rq s.net.gates[tgt 4 rq] ∧
      portFrameGroups (tgt 4 rq).val s = [] ∧ l.entries ≠ []) ∧
    (∃ (rq : Request) (s : Machine.State) (k : Fin 8), Ready opCbsConfig rq s ∧ shaper (tgt 4 rq) (num rq 0x0100 0 1) s = some k) ∧
    (∃ (rq : Request) (s : Machine.State) (k : Fin 8), Ready opCbsConfig rq s ∧ shaper (tgt 4 rq) (num rq 0x0100 0 1) s = none ∧
      k.val = 2 * (tgt 4 rq).val ∧ s.net.cbs[k].cls = none ∧ num rq 0x0100 4 4 ≠ 0) ∧
    (∃ (rq : Request) (s : Machine.State), Ready opCbsConfig rq s ∧ shaper (tgt 4 rq) (num rq 0x0100 0 1) s = none ∧ num rq 0x0100 4 4 = 0) ∧
    (∃ (rq : Request) (s : Machine.State), Ready opPortStatusRead rq s) :=
  ⟨⟨(ask 0xFFFF [(0x0100, be 16 0)]), com, ready (by decide +kernel), by decide +kernel⟩,
   ⟨(ask 0 []), com, _, _, ready (by decide +kernel), rfl, rfl, by decide +kernel⟩,
   ⟨(ask 1 []), com, ready (by decide +kernel), by decide +kernel⟩,
   ⟨(ask 1 [(0x0100, be 2 0)]), com, ready (by decide +kernel), by decide +kernel⟩,
   ⟨(ask 0xFFFF [(0x0100, be 6 0 ++ be 2 1 ++ be 2 0)]), com, ready (by decide +kernel), by decide +kernel⟩,
   ⟨(ask 0xFFFF [(0x0100, be 6 0 ++ be 2 1 ++ be 2 0x0100)]), com, _, ready (by decide +kernel), rfl, by decide +kernel⟩,
   ⟨(ask 0 []), com, ready (by decide +kernel), by decide +kernel⟩,
   ⟨(ask 0 [(0x0101, be 4 0 ++ be 4 64)]), com, _, ready (by decide +kernel), rfl, by decide +kernel⟩,
   ⟨(ask 0 [(0x0100, be 4 0x06000000 ++ be 4 0)]), (com.onNet fun n => { n with cbs := upd n.cbs 0 fun x => { x with cls := some 6 } }), 0,
    ready (by decide +kernel), by decide +kernel⟩,
   ⟨(ask 0 [(0x0100, be 4 0x06000000 ++ be 4 1)]), com, 0, ready (by decide +kernel), by decide +kernel⟩,
   ⟨(ask 0 [(0x0100, be 4 0x06000000 ++ be 4 0)]), com, ready (by decide +kernel), by decide +kernel⟩,
   ⟨(ask 0 []), com, ready (by decide +kernel)⟩⟩

theorem witness_TimeCommandsComplete :
    (∃ (rq : Request) (s : Machine.State), Ready opPtpConfig rq s) ∧
    (∃ (rq : Request) (s : Machine.State), Ready opPtpStatus rq s) ∧
    (∃ (rq : Request) (s : Machine.State), Ready opTimebaseConfig rq s ∧
      ((s.sys.dev = .commissioning ∨ has rq 0x0100 = false ∧ has rq 0x0101 = false ∧ has rq 0x0103 = false ∧ has rq 0x0104 = false ∧ (has rq 0x0102 = true → num rq 0x0102 0 1 = s.net.tb[tgt 4 rq].follows)))) ∧
    (∃ (rq : Request) (s : Machine.State), Ready opTimebaseSet rq s ∧ s.net.tb[tgt 4 rq].mode = 0 ∧ has rq 0x0100 = true) ∧
    (∃ (rq : Request) (s : Machine.State), Ready opTimebaseSet rq s ∧ s.net.tb[tgt 4 rq].mode = 0 ∧ has rq 0x0100 = false ∧
      has rq 0x0101 = true) ∧
    (∃ (rq : Request) (s : Machine.State), Ready opTimebaseStatus rq s) ∧
    (∃ (rq : Request) (s : Machine.State), Ready opDomainTrust rq s) ∧
    (∃ (rq : Request) (s : Machine.State), Ready opTsoConfig rq s ∧ num rq 0x0100 0 1 = 0 ∧
      (has rq 0x0100 = true ∨ s.net.tso[tgt 8 rq].armed = false)) ∧
    (∃ (rq : Request) (s : Machine.State), Ready opTsoConfig rq s ∧ s.net.tso[tgt 8 rq].armed = true ∧
      ((has rq 0x0100 = true → num rq 0x0100 0 1 = 1)) ∧
      ((has rq 0x0101 = true → s.tbNs (Fin.ofNat 4 (s.net.tso[tgt 8 rq].load (scheduleOf rq)).base) + 10000 ≤ (s.net.tso[tgt 8 rq].load (scheduleOf rq)).t1))) ∧
    (∃ (rq : Request) (s : Machine.State) (v : Tso), Ready opTsoConfig rq s ∧
      v = (if has rq 0x0101 then s.net.tso[tgt 8 rq].load (scheduleOf rq) else s.net.tso[tgt 8 rq]) ∧ num rq 0x0100 0 1 = 1 ∧
      has rq 0x0100 = true ∧ s.net.tso[tgt 8 rq].armed = false ∧ s.tbNs (Fin.ofNat 4 v.base) + 10000 ≤ v.t1) ∧
    (∃ (rq : Request) (s : Machine.State), Ready opTsoStatusRead rq s) :=
  ⟨⟨(ask 0 []), com, ready (by decide +kernel)⟩,
   ⟨(ask 0 []), com, ready (by decide +kernel)⟩,
   ⟨(ask 0 []), com, ready (by decide +kernel), by decide +kernel⟩,
   ⟨(ask 0 [(0x0100, be 12 0)]), com, ready (by decide +kernel), by decide +kernel⟩,
   ⟨(ask 0 [(0x0101, be 4 0)]), com, ready (by decide +kernel), by decide +kernel⟩,
   ⟨(ask 0 []), com, ready (by decide +kernel)⟩,
   ⟨(ask 0 [(0x0100, be 1 0)]), com, ready (by decide +kernel)⟩,
   ⟨(ask 0 [(0x0100, be 1 0)]), com, ready (by decide +kernel), by decide +kernel⟩,
   ⟨(ask 0 []), (com.onNet fun n => { n with tso := upd n.tso 0 fun t => { t with armed := true } }), ready (by decide +kernel),
    by decide +kernel⟩,
   ⟨(ask 0 [(0x0100, be 1 1), (0x0101, be 8 0 ++ be 8 10000 ++ be 8 0 ++ be 8 8)]), com, _, ready (by decide +kernel), rfl,
    by decide +kernel⟩,
   ⟨(ask 0 []), com, ready (by decide +kernel)⟩⟩

theorem witness_LodgeCommandsComplete :
    (∃ (rq : Request) (s : Machine.State), Ready opLodgeRead rq s) ∧
    (∃ (rq : Request) (s : Machine.State), Ready opLodgeParamStage rq s ∧ lodgeBusy s = none ∧
      s.lodge.keyHash = some (sha256 (value rq 0x0101)) ∧
      ecdsaOk (value rq 0x0101) ((value rq 0x0100).take 0xC0) ((value rq 0x0100).drop 0xC0) = true ∧ setFault (value rq 0x0100) = none) ∧
    (∃ (rq : Request) (s : Machine.State) (p : LodgeParams), Ready opLodgeParamConfirm rq s ∧ lodgeBusy s = none ∧ s.lodge.staged = some p ∧
      s.lodge.st ≠ .safeFault ∧ s.lodge.time < s.lodge.stagedAt + 60000000000 ∧ num rq 0x0100 0 4 = (setCrc p.bytes).toNat) ∧
    (∃ (rq : Request) (s : Machine.State), Ready opLodgeKeyEnrol rq s ∧ s.lodge.st ≠ .absent ∧ s.lodge.keyHash = none) ∧
    (∃ (rq : Request) (s : Machine.State), Ready opLodgeFaultClear rq s ∧ s.lodge.st ≠ .absent) :=
  ⟨⟨(ask 0xFFFF []), com, ready (by decide +kernel)⟩,
   ⟨(ask 0xFFFF [(0x0100, testSet), (0x0101, testKey 2)]), (com.onLodge fun b => { b with keyHash := some (sha256 (testKey 2)) }),
    ready (by decide +kernel), by decide +kernel⟩,
   ⟨(ask 0xFFFF [(0x0100, be 4 (setCrc []).toNat)]), (com.onLodge fun b => { b with staged := some {} }), ({}), ready (by decide +kernel),
    by decide +kernel⟩,
   ⟨(ask 0xFFFF [(0x0100, be 64 0)]), com, ready (by decide +kernel), by decide +kernel⟩,
   ⟨(ask 0xFFFF []), com, ready (by decide +kernel), by decide +kernel⟩⟩

theorem witness_FieldIoComplete :
    (∃ (rq : Request) (s : Machine.State), Ready opFioGroupConfig rq s ∧ s.fio.grp[tgt 4 rq].powered = true) ∧
    (∃ (rq : Request) (s : Machine.State), Ready opFioInputConfig rq s ∧ s.fio.grp[(inputPlace (tgt 32 rq)).1].powered = true) ∧
    (∃ (rq : Request) (s : Machine.State), Ready opFioOutputConfig rq s ∧ s.fio.grp[(outputPlace (tgt 16 rq)).1].powered = true) ∧
    (∃ (rq : Request) (s : Machine.State) (gs : List (Fin 4)), Ready opFioOutputSet rq s ∧
      gs = ((fioGroups rq).filter fun g => rq.target != 0xFFFF || fioPart rq 0 g != 0) ∧
      ((∀ g, g ∈ gs → s.fio.grp[g].powered = true ∧ fioMapped g s = false))) ∧
    (∃ (rq : Request) (s : Machine.State), Ready opFioRead rq s) ∧
    (∃ (rq : Request) (s : Machine.State), Ready opFioClear rq s) :=
  ⟨⟨(ask 0 [(0x0100, be 2 0 ++ be 2 10)]), (com.onFio fun f => { f with grp := upd f.grp 0 fun g => { g with powered := true } }),
    ready (by decide +kernel), by decide +kernel⟩,
   ⟨(ask 0 [(0x0100, be 4 0x01000000)]), (com.onFio fun f => { f with grp := upd f.grp 0 fun g => { g with powered := true } }),
    ready (by decide +kernel), by decide +kernel⟩,
   ⟨(ask 0 [(0x0100, be 4 0)]), (com.onFio fun f => { f with grp := upd f.grp 0 fun g => { g with powered := true } }),
    ready (by decide +kernel), by decide +kernel⟩,
   ⟨(ask 0 [(0x0100, be 4 0)]), (com.onFio fun f => { f with grp := upd f.grp 0 fun g => { g with powered := true } }), _,
    ready (by decide +kernel), rfl, by decide +kernel⟩,
   ⟨(ask 0 []), com, ready (by decide +kernel)⟩,
   ⟨(ask 0 []), com, ready (by decide +kernel)⟩⟩

theorem witness_CanCommandsComplete :
    (∃ (rq : Request) (s : Machine.State), Ready opCanConfig rq s ∧ s.can.ctl[tgt 4 rq].sending = none) ∧
    (∃ (rq : Request) (s : Machine.State) (x : Nat × CanFrame), Ready opCanConfig rq s ∧ s.can.ctl[tgt 4 rq].sending = some x) ∧
    (∃ (rq : Request) (s : Machine.State), Ready opCanFilterSet rq s) ∧
    (∃ (rq : Request) (s : Machine.State), Ready opCanTtConfig rq s ∧ s.can.ctl[tgt 4 rq].cfg.mode = 0) ∧
    (∃ (rq : Request) (s : Machine.State), Ready opCanTtBufferSet rq s) ∧
    (∃ (rq : Request) (s : Machine.State), Ready opCanTx rq s ∧ s.can.ctl[tgt 4 rq].cfg.mode = 1 ∧ s.can.ctl[tgt 4 rq].queue.length < 32) ∧
    (∃ (rq : Request) (s : Machine.State) (k : Fin 2) (l : List CanRx), Ready opCanRxRead rq s ∧ k = Fin.ofNat 2 (num rq 0x0100 0 1) ∧
      l = s.can.ctl[tgt 4 rq].fifo[k].frames.take (num rq 0x0101 0 1)) ∧
    (∃ (rq : Request) (s : Machine.State), Ready opCanStatusRead rq s) ∧
    (∃ (rq : Request) (s : Machine.State), Ready opCanBitrateDetect rq s) ∧
    (∃ (rq : Request) (s : Machine.State), Ready opCanBusRecover rq s ∧ s.can.ctl[tgt 4 rq].bus ≠ 2) ∧
    (∃ (rq : Request) (s : Machine.State), Ready opCanBusRecover rq s ∧ s.can.ctl[tgt 4 rq].bus = 2 ∧ s.can.ctl[tgt 4 rq].recessive < 128) ∧
    (∃ (rq : Request) (s : Machine.State), Ready opCanBusRecover rq s ∧ s.can.ctl[tgt 4 rq].bus = 2 ∧ 128 ≤ s.can.ctl[tgt 4 rq].recessive) :=
  ⟨⟨(ask 0 [(0x0100, be 1 0), (0x0101, be 2 0x0200 ++ be 2 20 ++ be 4 0x13010000), (0x0103, be 4 0)]), com, ready (by decide +kernel),
    by decide +kernel⟩,
   ⟨(ask 0 [(0x0100, be 1 0), (0x0101, be 2 0x0200 ++ be 2 20 ++ be 4 0x13010000), (0x0103, be 4 0)]),
    (com.onCan fun c => { c with ctl := upd c.ctl 0 fun x => { x with sending := some (0, {}) } }), ((0, ({} : CanFrame))),
    ready (by decide +kernel), by decide +kernel⟩,
   ⟨(ask 0 [(0x0100, be 2 0), (0x0101, be 2 0), (0x0102, be 0 0)]), com, ready (by decide +kernel)⟩,
   ⟨(ask 0 [(0x0100, be 4 0x03000000 ++ be 12 0), (0x0101, be 0 0), (0x0102, be 0 0)]), com, ready (by decide +kernel), by decide +kernel⟩,
   ⟨(ask 0 [(0x0100, be 1 0), (0x0101, be 72 0)]), com, ready (by decide +kernel)⟩,
   ⟨(ask 0 [(0x0100, be 72 0)]), (oper.onCan fun c => { c with ctl := upd c.ctl 0 fun x => { x with cfg := { x.cfg with mode := 1 } } }),
    ready (by decide +kernel), by decide +kernel⟩,
   ⟨(ask 0 [(0x0100, be 1 1), (0x0101, be 1 16)]), com, _, _, ready (by decide +kernel), rfl, rfl⟩,
   ⟨(ask 0 []), com, ready (by decide +kernel)⟩,
   ⟨(ask 0 [(0x0100, be 2 0x0200 ++ be 2 20 ++ be 4 0x13010000 ++ be 8 0x0108010100000000), (0x0101, be 2 10), (0x0102, be 1 1)]), com,
    ready (by decide +kernel)⟩,
   ⟨(ask 0 []), com, ready (by decide +kernel), by decide +kernel⟩,
   ⟨(ask 0 []), (com.onCan fun c => { c with ctl := upd c.ctl 0 fun x => { x with bus := 2, recessive := 127 } }),
    ready (by decide +kernel), by decide +kernel⟩,
   ⟨(ask 0 []), (com.onCan fun c => { c with ctl := upd c.ctl 0 fun x => { x with bus := 2, recessive := 128 } }),
    ready (by decide +kernel), by decide +kernel⟩⟩

theorem witness_MemoryPortComplete :
    (∃ (rq : Request) (s : Machine.State), Ready opSpmProfileSet rq s ∧ tgt 4 rq ≠ 0 ∧ spmBusy (tgt 4 rq) s = false) ∧
    (∃ (rq : Request) (s : Machine.State), Ready opSpmDiscover rq s ∧ s.serial.sel[tgt 4 rq].present = true ∧
      s.serial.sel[tgt 4 rq].sfdp ≠ []) ∧
    (∃ (rq : Request) (s : Machine.State) (r : Profile), Ready opSpmErase rq s ∧ s.serial.sel[tgt 4 rq].profile = some r ∧
      keeperRegion (tgt 4 rq) (eraseSpan rq r).1 = false ∧ spmBusy (tgt 4 rq) s = false) ∧
    (∃ (rq : Request) (s : Machine.State), Ready opSpmFlush rq s ∧ spmBusy (tgt 4 rq) s = false) ∧
    (∃ (rq : Request) (s : Machine.State), Ready opSpmFlush rq s ∧ spmBusy (tgt 4 rq) s = true) ∧
    (∃ (rq : Request) (s : Machine.State), Ready opSpmStatusRead rq s) ∧
    (∃ (rq : Request) (s : Machine.State), Ready opSphStatusRead rq s) :=
  ⟨⟨(ask 1 []), com, ready (by decide +kernel), by decide +kernel⟩,
   ⟨(ask 0 []), (com.onSerial fun b => { b with sel := upd b.sel 0 fun x => { x with sfdp := [0] } }), ready (by decide +kernel),
    by decide +kernel⟩,
   ⟨(ask 3 [(0x0100, be 4 0), (0x0101, be 2 1)]),
    (com.onSerial fun b => { b with sel := upd b.sel 3 fun x => { x with present := true, profile := some {} } }), ({}),
    ready (by decide +kernel), by decide +kernel⟩,
   ⟨(ask 0 []), com, ready (by decide +kernel), by decide +kernel⟩,
   ⟨(ask 0 []), (com.onSerial fun b => { b with sel := upd b.sel 0 fun x => { x with opBusy := true } }), ready (by decide +kernel),
    by decide +kernel⟩,
   ⟨(ask 0 []), com, ready (by decide +kernel)⟩,
   ⟨(ask 0xFFFF []), com, ready (by decide +kernel)⟩⟩

theorem witness_AcquisitionComplete :
    (∃ (rq : Request) (s : Machine.State), Ready opAcqChannelConfig rq s ∧ acqIdle s = true ∧
      ((56 ≤ (tgt 64 rq).val → s.acq.pinEn.getLsbD ((tgt 64 rq).val - 56) = false))) ∧
    (∃ (rq : Request) (s : Machine.State), Ready opAcqPinConfig rq s ∧ acqIdle s = true) ∧
    (∃ (rq : Request) (s : Machine.State), Ready opAcqTriggerConfig rq s ∧ acqIdle s = true) ∧
    (∃ (rq : Request) (s : Machine.State), Ready opAcqEnvelopeSet rq s ∧ acqIdle s = true) ∧
    (∃ (rq : Request) (s : Machine.State), Ready opAcqCaptureConfig rq s ∧ acqIdle s = true ∧ num rq 0x0100 0 1 = s.acq.segments) ∧
    (∃ (rq : Request) (s : Machine.State), Ready opAcqCaptureConfig rq s ∧ acqIdle s = true ∧ num rq 0x0100 0 1 ≠ s.acq.segments) ∧
    (∃ (rq : Request) (s : Machine.State), Ready opAcqArm rq s ∧ armDeny s = none) ∧
    (∃ (rq : Request) (s : Machine.State), Ready opAcqStop rq s ∧ s.acq.active = true) ∧
    (∃ (rq : Request) (s : Machine.State), Ready opAcqStop rq s ∧ s.acq.active = false ∧ acqIdle s = true) ∧
    (∃ (rq : Request) (s : Machine.State), Ready opAcqStop rq s ∧ s.acq.active = false ∧ acqIdle s = false) ∧
    (∃ (rq : Request) (s : Machine.State), Ready opAcqForce rq s) ∧
    (∃ (rq : Request) (s : Machine.State), Ready opAcqRead rq s ∧ s.acq.seg[tgt 64 rq].use = 2) ∧
    (∃ (rq : Request) (s : Machine.State), Ready opAcqStatusRead rq s) ∧
    (∃ (rq : Request) (s : Machine.State), Ready opAcqCalibrate rq s ∧ (acqIdle s = true ∨ s.acq.pinEn = 0)) :=
  ⟨⟨(ask 0 [(0x0101, be 8 0)]), com, ready (by decide +kernel), by decide +kernel⟩,
   ⟨(ask 0xFFFF [(0x0100, be 4 1)]), com, ready (by decide +kernel), by decide +kernel⟩,
   ⟨(ask 0 [(0x0100, be 1 0), (0x0101, be 48 0)]), com, ready (by decide +kernel), by decide +kernel⟩,
   ⟨(ask 0 [(0x0100, be 2 0), (0x0101, be 16 0 ++ be 8 1 ++ be 8 0), (0x0102, be 2 0)]), com, ready (by decide +kernel), by decide +kernel⟩,
   ⟨(ask 0xFFFF [(0x0100, be 4 0x01000000 ++ be 8 0 ++ be 4 1 ++ be 8 0)]), com, ready (by decide +kernel), by decide +kernel⟩,
   ⟨(ask 0xFFFF [(0x0100, be 4 0x40000000 ++ be 8 0 ++ be 4 1 ++ be 8 0)]), com, ready (by decide +kernel), by decide +kernel⟩,
   ⟨(ask 0xFFFF []), com, ready (by decide +kernel), by decide +kernel⟩,
   ⟨(ask 0xFFFF []), (com.onAcq fun b => { b with st := 2 }), ready (by decide +kernel), by decide +kernel⟩,
   ⟨(ask 0xFFFF []), com, ready (by decide +kernel), by decide +kernel⟩,
   ⟨(ask 0xFFFF []), (com.onAcq fun b => { b with st := 5 }), ready (by decide +kernel), by decide +kernel⟩,
   ⟨(ask 0xFFFF []), com, ready (by decide +kernel)⟩,
   ⟨(ask 63 [(0x0100, be 4 0), (0x0101, be 2 169)]), (com.onAcq fun b => { b with seg := upd b.seg 63 fun x => { x with use := 2 } }),
    ready (by decide +kernel), by decide +kernel⟩,
   ⟨(ask 0xFFFF []), com, ready (by decide +kernel)⟩,
   ⟨(ask 0xFFFF []), com, ready (by decide +kernel), by decide +kernel⟩⟩

theorem witness_RecordsComplete :
    (∃ (rq : Request) (s : Machine.State), Ready opTallyRead rq s) ∧
    (∃ (rq : Request) (s : Machine.State), Ready opFaultRead rq s) ∧
    (∃ (rq : Request) (s : Machine.State), Ready opFaultAck rq s) ∧
    (∃ (rq : Request) (s : Machine.State), Ready opEventRead rq s) :=
  ⟨⟨(ask 0xFFFF [(0x0100, be 1 1), (0x0101, be 2 0)]), com, ready (by decide +kernel)⟩,
   ⟨(ask 0xFFFF []), com, ready (by decide +kernel)⟩,
   ⟨(ask 0xFFFF [(0x0100, be 4 0)]), com, ready (by decide +kernel)⟩,
   ⟨(ask 0xFFFF [(0x0100, be 1 58)]), com, ready (by decide +kernel)⟩⟩

theorem witness_ThreadCommandsComplete :
    (∃ (rq : Request) (s : Machine.State) (t : Machine.State), Ready opPluginLoad rq s ∧ loadPlug rq (tgt 8 rq) (num rq 0x0100 0 1) s = .ok t) ∧
    (∃ (rq : Request) (s : Machine.State), Ready opThreadDefine rq s ∧ s.lanes.thr[tgt 512 rq].enabled = false) ∧
    (∃ (rq : Request) (s : Machine.State), Ready opThreadEnable rq s ∧ s.lanes.thr[tgt 512 rq].defined = true ∧ num rq 0x0100 0 1 = 1 ∧
      s.lanes.lane[Fin.ofNat 8 s.lanes.thr[tgt 512 rq].lane].entry.isSome = true) ∧
    (∃ (rq : Request) (s : Machine.State), Ready opThreadEnable rq s ∧ s.lanes.thr[tgt 512 rq].defined = true ∧ num rq 0x0100 0 1 = 0 ∧
      (s.lanes.thr[tgt 512 rq].st = .running ∨ s.lanes.thr[tgt 512 rq].st = .preempted)) ∧
    (∃ (rq : Request) (s : Machine.State), Ready opThreadEnable rq s ∧ s.lanes.thr[tgt 512 rq].defined = true ∧ num rq 0x0100 0 1 = 0 ∧
      s.lanes.thr[tgt 512 rq].st ≠ .running ∧ s.lanes.thr[tgt 512 rq].st ≠ .preempted) ∧
    (∃ (rq : Request) (s : Machine.State), Ready opThreadSignal rq s) ∧
    (∃ (rq : Request) (s : Machine.State), Ready opThreadTimerConfig rq s) ∧
    (∃ (rq : Request) (s : Machine.State), Ready opPluginPortConfig rq s ∧ (s.sys.dev = .commissioning ∨ s.axis[tgt 64 rq].st = .disabled)) ∧
    (∃ (rq : Request) (s : Machine.State), Ready opThreadStatusRead rq s ∧ 256 ≤ (tgt 512 rq).val) ∧
    (∃ (rq : Request) (s : Machine.State), Ready opThreadStatusRead rq s ∧ (tgt 512 rq).val < 256) ∧
    (∃ (rq : Request) (s : Machine.State), Ready opLaneStatusRead rq s) ∧
    (∃ (rq : Request) (s : Machine.State), Ready opLaneKeyEnrol rq s ∧ s.boot.integratorHash = none) :=
  ⟨⟨(ask 7 [(0x0100, be 1 255)]), com, (onLane 7 (fun x => { lastThread := x.lastThread }) com), ready (by decide +kernel),
    (by rw [loadPlug, if_neg (com_lanes_free _), if_pos (by decide +kernel), if_neg (com_feeds_none _ _)]; rfl)⟩,
   ⟨(ask 256 []), com, ready (by decide +kernel), by decide +kernel⟩,
   ⟨(ask 256 [(0x0100, be 1 1)]),
    (com.onLanes fun n => { n with lane := upd n.lane 0 fun y => { y with entry := some 0 }, thr := upd n.thr 256 fun x => { x with defined := true } }),
    ready (by decide +kernel), by decide +kernel⟩,
   ⟨(ask 511 [(0x0100, be 1 0)]),
    (com.onLanes fun n => { n with thr := upd n.thr 511 fun x => { x with defined := true, st := .preempted } }),
    ready (by decide +kernel), by decide +kernel⟩,
   ⟨(ask 511 [(0x0100, be 1 0)]),
    (com.onLanes fun n => { n with thr := upd n.thr 511 fun x => { x with defined := true, st := .waiting } }), ready (by decide +kernel),
    by decide +kernel⟩,
   ⟨(ask 256 [(0x0100, be 2 1)]),
    (com.onLanes fun n => { n with thr := upd n.thr 256 fun x => { x with defined := true, sources := [{ code := 10 }] } }),
    ready (by decide +kernel)⟩,
   ⟨(ask 0 [(0x0100, be 20 0)]), com, ready (by decide +kernel)⟩,
   ⟨(ask 0 [(0x0100, be 1 1)]), com, ready (by decide +kernel), by decide +kernel⟩,
   ⟨(ask 511 []), com, ready (by decide +kernel), by decide +kernel⟩,
   ⟨(ask 255 []), com, ready (by decide +kernel), by decide +kernel⟩,
   ⟨(ask 0 []), com, ready (by decide +kernel)⟩,
   ⟨(ask 0xFFFF [(0x0100, be 64 0)]), com, ready (by decide +kernel), by decide +kernel⟩⟩

theorem witness_PacketEventsComplete :
    (∃ (src : Source) (s : Machine.State), src ≠ .hostPort ∧ ruhityServed s = true ∧ asleep s = false ∧ s.power.refLost = false ∧
      s.sys.dev ≠ .reset ∧ ((s.sys.dev = .startup → s.boot.haltCause = 3))) ∧
    (∃ (s : Machine.State) (t : Nat) (p : List Byte) (l : List (Nat × List Byte)), s.pkts.inbox = (t, p) :: l ∧ ruhityServed s = true ∧
      asleep s = false ∧ s.pkts.outbox.length < 16 ∧ s.serial.held = []) ∧
    (∃ (s : Machine.State) (e : UdpReply), tbRuns s = true ∧ firstBroadcast s.pkts.bcast = some e ∧ e.due ≤ s.now) ∧
    (∃ (src : Source) (t : Nat) (s : Machine.State), (src, t) ∈ s.pkts.lockouts ∧ t + 500000000 ≤ s.now) ∧
    (∃ (handle : Nat) (s : Machine.State) (p : Pending) (o : Op), opOfCode p.opcode = some o ∧ pendingOf handle s = some p ∧
      p.committed = false ∧ p.rq.toe.toNat ≤ s.tb0 + 20000 ∧ earlierDue p s = false ∧ s.power.power ≠ .rest) ∧
    (∃ (handle : Nat) (s : Machine.State) (p : Pending) (o : Op) (v : Machine.State), opOfCode p.opcode = some o ∧
      v = (if p.opcode = 0x0282 then onLink (tgt 64 p.rq) (fun l => { l with clearTo := some p.mark }) (strike handle false s) else strike handle false s) ∧
      pendingOf handle s = some p ∧ p.committed = true ∧ p.rq.toe.toNat ≤ s.tb0 ∧ s.power.power ≠ .rest ∧ targetBusy p.opcode p.rq s = false) :=
  ⟨⟨(Source.udp 0 0), com, by decide +kernel⟩,
   ⟨{ com with pkts := { com.pkts with inbox := [(0, [])] } }, 0, ([] : List Byte), (([] : List (Nat × List Byte))), by decide +kernel⟩,
   ⟨(atTick 10 (com.onPkts fun x => { x with bcast := [{ due := 10 }] })), ({ due := 10 }), by decide +kernel⟩,
   ⟨(Source.udp 0 0), 7, (atTick 500000007 (com.onPkts fun x => { x with lockouts := [(.udp 0 0, 7)] })), by decide +kernel⟩,
   ⟨0, { com with pkts := { com.pkts with pending := [{ opcode := 1, committed := false }] } }, ({ opcode := 1 }), opPing, rfl,
    by decide +kernel⟩,
   ⟨0, { com with pkts := { com.pkts with pending := [{ opcode := 1, committed := true }] } }, ({ opcode := 1, committed := true }),
    opPing, _, rfl, rfl, by decide +kernel⟩⟩

theorem witness_HostPortFramesComplete :
    (∃ (addr : Nat) (ws : List Word) (s : Machine.State), ((∀ k, k < ws.length → wordDenied (addr + 4 * k) s = false)) ∧
      s.sys.dev ≠ .reset ∧ s.power.refLost = false ∧ asleep s = false ∧ addr % 4 = 0 ∧ 1 ≤ ws.length ∧ ws.length ≤ 256) ∧
    (∃ (addr : Nat) (len : Nat) (s : Machine.State) (r : (List Word × List (Nat × Word)) × Machine.State), r = fetchWords addr len s ∧
      s.sys.dev ≠ .reset ∧ s.power.refLost = false ∧ asleep s = false ∧ addr % 4 = 0 ∧ 1 ≤ len ∧ len ≤ 256) ∧
    (∃ (b : List Byte) (s : Machine.State), s.sys.dev ≠ .reset ∧ s.power.refLost = false ∧ asleep s = false ∧ 24 ≤ b.length ∧
      b.length ≤ 1472 ∧ s.pkts.inbox.length < 8) ∧
    (∃ (p : List Byte) (l : List (List Byte)) (s : Machine.State), s.sys.dev ≠ .reset ∧ s.power.refLost = false ∧ asleep s = false ∧
      s.pkts.outbox = p :: l ∧ p.length % 2 = 0 ∧ p.length ≤ 1472 ∧ s.pkts.waiting = []) ∧
    (∃ (s : Machine.State), s.sys.dev ≠ .reset ∧ s.power.refLost = false ∧ asleep s = false) ∧
    (∃ (s : Machine.State), s.sys.dev ≠ .reset ∧ s.power.refLost = false ∧ asleep s = false) ∧
    (∃ (s : Machine.State), s.sys.dev ≠ .reset ∧ s.power.refLost = false) :=
  ⟨⟨0x40000000, [(0 : Word)], com, (by intro k hk; obtain rfl : k = 0 := (by simpa using hk); decide +kernel), by decide +kernel⟩,
   ⟨0x40000000, 256, com, _, rfl, by decide +kernel⟩,
   ⟨((List.replicate 24 (0 : Byte))), com, by decide +kernel⟩,
   ⟨([] : List Byte), (([] : List (List Byte))), { com with pkts := { com.pkts with outbox := [[]] } }, by decide +kernel⟩,
   ⟨com, by decide +kernel⟩,
   ⟨com, by decide +kernel⟩,
   ⟨com, by decide +kernel⟩⟩

theorem witness_DirectAccessesComplete :
    (∃ (ctx : Fin 6) (a : Nat) (w : Word) (t : Machine.State) (s : Machine.State), readDirect ctx a s = (some w, t) ∧
      contextDead ctx s = false ∧ check ctx false false a 4 s = .pass) ∧
    (∃ (ctx : Fin 6) (a : Nat) (s : Machine.State), contextDead ctx s = false ∧ check ctx false true a 4 s = .pass) ∧
    (∃ (ctx : Fin 6) (g : Fin 32) (s : Machine.State), contextDead ctx s = false ∧
      check ctx false true (0x44000008 + g.val * 0x40) 4 s = .pass) ∧
    (∃ (ctx : Fin 6) (g : Fin 32) (s : Machine.State), contextDead ctx s = false ∧
      check ctx false true (0x44001004 + (3 * g.val + 2) * 0x10) 4 s = .pass) ∧
    (∃ (ctx : Fin 6) (n : Fin 96) (s : Machine.State), contextDead ctx s = false ∧
      check ctx false true (0x44001008 + n.val * 0x10) 4 s = .pass) ∧
    (∃ (ctx : Fin 6) (g : Fin 32) (s : Machine.State), contextDead ctx s = false ∧
      check ctx false true (0x44000010 + g.val * 0x40) 4 s = .pass) ∧
    (∃ (ctx : Fin 6) (s : Machine.State), contextDead ctx s = false ∧ s.sys.ctx[ctx].busy = false) :=
  ⟨⟨0, 0x40000000, ((readDirect 0 0x40000000 com).1.get (by decide +kernel)), ((readDirect 0 0x40000000 com).2), com, by simp,
    by decide +kernel⟩,
   ⟨0, 0x44000000, com, by decide +kernel⟩,
   ⟨0, 0, com, by decide +kernel⟩,
   ⟨0, 0, com, by decide +kernel⟩,
   ⟨0, 0, com, by decide +kernel⟩,
   ⟨0, 0, com, by decide +kernel⟩,
   ⟨0, { com with fio := { com.fio with grp := upd com.fio.grp 0 fun g => { g with powered := true } } }, by decide +kernel⟩⟩

theorem witness_AccessEventsComplete :
    (∃ (ctx : Fin 6) (s : Machine.State), s.sys.ctx[ctx].busy = true ∧ s.sys.ctx[ctx].busyAt + 50000 ≤ s.now) ∧
    (∃ (ctx : Fin 6) (s : Machine.State) (e : WindowWait), s.sys.ctx[ctx].windowWait.find? WindowWait.read = some e ∧ e.since + 50000 ≤ s.now) ∧
    (∃ (sel : Fin 4) (s : Machine.State), tbRuns s = true ∧ s.serial.sel[sel].lastWrite + 50000 ≤ s.now) ∧
    (∃ (sel : Fin 4) (s : Machine.State), tbRuns s = true ∧ pollDue sel s = true) ∧
    (∃ (sel : Fin 4) (s : Machine.State), tbRuns s = true ∧ pollOverdue sel s = true) ∧
    (∃ (g : Fin 16) (s : Machine.State), s.sys.updPending.getLsbD g.val = true) ∧
    (∃ (s : Machine.State) (bad : List (Nat × Nat)), bad = ((List.range 11).flatMap fun f => ((List.range (instances f)).filter fun n => auditFails f n s).map fun n => (f, n)) ∧
      afterStartup s = true ∧ tbRuns s = true ∧ s.sys.keeperHalted = false ∧ s.integ.auditAt ≤ s.now) ∧
    (∃ (addr : Nat) (width : Nat) (rv : Word) (c0 : Word) (c1 : Word) (c2 : Word) (s : Machine.State) (v : Voted), v = ({ addr := addr, width := width, resetVal := rv, c0 := c0, c1 := c1, c2 := c2 } : Voted) ∧
      tbRuns s = true) ∧
    (∃ (addr : Nat) (s : Machine.State), tbRuns s = true ∧ protectedAddr addr = true ∧ 32 ≤ addr) ∧
    (∃ (s : Machine.State) (x : ImageSession), s.boot.session = some x ∧ x.last + 5000000000 ≤ s.now) :=
  ⟨⟨5, (atTick 50000 ({ com with sys := { com.sys with ctx := upd com.sys.ctx 5 fun x => { x with busy := true } } })), by decide +kernel⟩,
   ⟨5, (atTick 50000 ({ com with sys := { com.sys with ctx := upd com.sys.ctx 5 fun x => { x with windowWait := [{}] } } })), ({}),
    by decide +kernel⟩,
   ⟨3, (atTick 50000 com), by decide +kernel⟩,
   ⟨3, (atTick 1000000000000 (com.onSerial fun b => { b with sel := upd b.sel 3 fun x => { x with opBusy := true } })), by decide +kernel⟩,
   ⟨3, (atTick 1000000000000 (com.onSerial fun b => { b with sel := upd b.sel 3 fun x => { x with opBusy := true } })), by decide +kernel⟩,
   ⟨15, (com.onSys fun y => { y with updPending := 0x8000 }), by decide +kernel⟩,
   ⟨com, _, rfl, by decide +kernel⟩,
   ⟨0x40000404, 1, (0), (0), (1), (0), com, _, rfl, by decide +kernel⟩,
   ⟨32, com, by decide +kernel⟩,
   ⟨(atTick 5000000000 (com.onBoot fun b => { b with session := some {} })), ({}), by decide +kernel⟩⟩

theorem witness_ResetAndStartupComplete :
    (∃ (s : Machine.State) (t : Nat), s.sys.resetDue = some t ∧ t ≤ s.now) ∧
    (∃ (s : Machine.State), s.sys.dev ≠ .reset) ∧
    (∃ (s : Machine.State) (u : Machine.State), u = enterReset s) ∧
    (∃ (s : Machine.State), s.sys.dev = .reset) ∧
    (∃ (s : Machine.State) (v : Machine.State) (n : Nat) (trial : Bool), v = keeperVerify s ∧ v.boot.chosen = some (n, trial) ∧
      s.sys.dev = .startup ∧ s.sys.phase = 0 ∧ s.power.pllLocked = true ∧ romTests s = none) ∧
    (∃ (s : Machine.State) (v : Machine.State), v = keeperVerify s ∧ s.sys.dev = .startup ∧ s.sys.phase = 0 ∧ s.power.pllLocked = true ∧
      romTests s = none ∧ v.boot.chosen = none) ∧
    (∃ (s : Machine.State), (∀ b ∈ s.integ.poison, 0x20000 ≤ b) ∧ s.sys.dev = .startup ∧ s.sys.phase = 0 ∧ s.power.pllLocked = true ∧
      s.serial.sel[(0 : Fin 4)].present = false) ∧
    (∃ (s : Machine.State) (v : Machine.State) (n : Nat) (trial : Bool), v = chooseNow 2 s ∧ v.boot.chosen = some (n, trial) ∧
      s.boot.gardenerRestart = false ∧ s.sys.dev = .startup ∧ s.sys.phase = 2) ∧
    (∃ (s : Machine.State), s.boot.gardenerRestart = true ∧ s.boot.gardenerReload = false) ∧
    (∃ (s : Machine.State), s.sys.dev = .startup ∧ s.boot.gardenerRuns = true) ∧
    (∃ (s : Machine.State), s.boot.gardenerRuns = true) ∧
    (∃ (s : Machine.State) (v : Machine.State), v = (s.onSys fun y => { y with autostartDue := false }) ∧ s.sys.autostartDue = true ∧
      s.sys.dev = .commissioning) ∧
    (∃ (s : Machine.State) (c : Nat) (v : Machine.State), v = (s.onBoot fun b => { b with activating := false }) ∧
      c = imageCheckBy { s.boot with keyHash := s.lodge.zellajo, keyRevoked := Vector.replicate 4 false, integratorHash := none } 3 (imagePlace 3 0) s ∧
      s.boot.activating = true) :=
  ⟨⟨(atTick 5 (com.onSys fun y => { y with resetDue := some 5 })), 5, by decide +kernel⟩,
   ⟨com, by decide +kernel⟩,
   ⟨com, _, rfl⟩,
   ⟨(com.onSys fun y => { y with dev := .reset }), by decide +kernel⟩,
   ⟨starting, _, 1, false, rfl, starting_keeper, by decide +kernel⟩,
   ⟨(State.reset.onSerial fun x => { x with sel := upd x.sel 0 fun d => { d with present := true } }), _, rfl, by decide +kernel⟩,
   ⟨State.reset, (fun _ hb => nomatch (show _ ∈ ([] : List Nat) from hb)), by decide +kernel⟩,
   ⟨(withImages 0x18 (State.reset.onSys fun y => { y with phase := 2 })), _, 1, false, rfl, (starting_gardener rfl rfl), by decide +kernel⟩,
   ⟨{ com with boot := { com.boot with gardenerRestart := true } }, by decide +kernel⟩,
   ⟨{ starting with boot := { starting.boot with gardenerRuns := true } }, by decide +kernel⟩,
   ⟨com, by decide +kernel⟩,
   ⟨(com.onSys fun y => { y with autostartDue := true }), _, rfl, by decide +kernel⟩,
   ⟨{ com with boot := { com.boot with activating := true } }, _, _, rfl, rfl, by decide +kernel⟩⟩

theorem witness_PowerEventsComplete :
    (∃ (s : Machine.State), s.power.refLost = false) ∧
    (∃ (s : Machine.State), s.lodge.st ≠ .absent) ∧
    (∃ (s : Machine.State), s.lodge.st = .absent) ∧
    (∃ (t : Nat) (s : Machine.State), s.power.bandFallSince = some t ∧ t + 500000000 ≤ s.now ∧ 0 < s.power.band) ∧
    (∃ (s : Machine.State), s.power.ramp = true ∧ coreVolt s = opVolt s.power.opTarget) ∧
    (∃ (s : Machine.State), afterStartup s = true ∧ s.power.waking = false) ∧
    (∃ (s : Machine.State), (s.power.power = .nap ∨ s.power.power = .rest)) ∧
    (∃ (s : Machine.State) (t : Nat), (s.power.power = .nap ∨ s.power.power = .rest) ∧ s.power.wakeTimer = some t ∧ t ≤ s.power.aonUs) ∧
    (∃ (s : Machine.State), s.power.waking = true) ∧
    (∃ (w : Word) (s : Machine.State), s.sys.dev ≠ .reset ∧ s.sys.keeperHalted = false ∧ s.lodge.st ≠ .absent ∧ w ≠ s.lodge.heartbeat) :=
  ⟨⟨com, by decide +kernel⟩,
   ⟨com, by decide +kernel⟩,
   ⟨(com.onLodge fun b => { b with st := .absent }), by decide +kernel⟩,
   ⟨7, (atTick 500000007 ({ com with power := { com.power with bandFallSince := some 7 } })), by decide +kernel⟩,
   ⟨(atTick 100000 ({ com with power := { com.power with ramp := true } })), by decide +kernel⟩,
   ⟨com, by decide +kernel⟩,
   ⟨{ com with power := { com.power with power := .rest } }, by decide +kernel⟩,
   ⟨{ com with power := { com.power with power := .nap, wakeTimer := some 7, aonUs := 7 } }, 7, by decide +kernel⟩,
   ⟨{ com with power := { com.power with waking := true } }, by decide +kernel⟩,
   ⟨(com.lodge.heartbeat + 1), com, by decide +kernel⟩⟩

theorem witness_LoopAndPlannerEventsComplete :
    (∃ (i : Fin 64) (k : Fin 3) (s : Machine.State) (m : AxisMode) (c : Machine.State × Option (Nat × Region)) (v : Machine.State), c = commitLoad i k (portsSample i k m (takeLock i k (onLoopSt i k (fun y => { y with sampledAt := some (sampleTick i s) }) (if (slotLoops s.axis[i].bind m s).contains k then occurs 3 i.val k.val s else s)))) ∧
      v = (let x := if k = 0 then innerSample i c.1 else c.1; let y := if k = outerLoop m.depth then sourceChain 8 i x else x; if k = 2 ∧ loopActive i k y = true then followingError i y else y) ∧
      domainsRun s = true ∧ s.axis[i].mode = some m ∧ samplesNow i k m s = true ∧
      ((live s.axis[i] = true → c.1.loop.slot[i].lp[k].slackFault = false))) ∧
    (∃ (i : Fin 64) (k : Fin 3) (s : Machine.State) (r : List Int), s.loop.slot[i].lp[k].computing = some r ∧
      s.loop.slot[i].lp[k].computingLate = false ∧ s.now ≤ releaseTick i k s) ∧
    (∃ (i : Fin 64) (k : Fin 3) (s : Machine.State) (r : List Int), domainsRun s = true ∧ ¬(k = 0 ∧ s.axis[i].bind.location = 2) ∧
      releaseTick i k s ≤ s.now ∧ s.loop.slot[i].lp[k].ready = some r) ∧
    (∃ (c : Fin 8) (s : Machine.State), domainsRun s = true ∧ (∀ i : Fin 64, follows i c s = false)) ∧
    (∃ (i : Fin 64) (s : Machine.State), domainsRun s = true ∧ s.axis[i].st = .enabled ∧ (sourceOf i s = 0 ∨ planBusy i s = true) ∧
      boundaryDue i s = true ∧ ((∀ g, memberOf i s = some g → s.plan.grp[g].running = false))) ∧
    (∃ (g : Fin 16) (s : Machine.State), domainsRun s = true ∧ s.plan.grp[g].running = true ∧ groupDue g s = true) ∧
    (∃ (i : Fin 64) (s : Machine.State) (m : AxisMode), s.axis[i].mode = some m ∧ s.axis[i].st = .enabled ∧ s.axis[i].standstill = false ∧
      m.standstill = 0 ∧ s.axis[i].spChange + 500000 * m.idleMs ≤ s.now) ∧
    (∃ (i : Fin 64) (s : Machine.State) (m : AxisMode) (v : Machine.State), v = onAx i (fun a => { a with standstill := true, legsOff := m.standstill == 1, legsShort := m.standstill == 2 }) s ∧
      s.axis[i].mode = some m ∧ s.axis[i].st = .enabled ∧ s.axis[i].standstill = false ∧ 1 ≤ m.standstill ∧
      s.axis[i].spChange + 500000 * m.idleMs ≤ s.now) ∧
    (∃ (i : Fin 64) (s : Machine.State), s.axis[i].aligning = true ∧ s.axis[i].alignSince + 125000000 ≤ s.now ∧ s.axis[i].alignMoved = true) ∧
    (∃ (i : Fin 64) (s : Machine.State), s.axis[i].st = .reacting ∧ s.axis[i].stopShort = false ∧ s.axis[i].reaction = some 1) ∧
    (∃ (i : Fin 64) (s : Machine.State), s.axis[i].st = .reacting ∧ s.axis[i].stopShort = false ∧ s.axis[i].reaction ≠ some 1 ∧
      ((s.axis[i].reaction = some 2 → rampOver i s = true))) ∧
    (∃ (i : Fin 64) (s : Machine.State), s.axis[i].st = .enabled ∧ s.loop.slot[i].obsStart = true ∧ s.loop.slot[i].obsServed = false ∧
      s.loop.slot[i].obsValid = false ∧ s.loop.slot[i].frameStart + 1000000 * s.loop.slot[i].startMs ≤ s.now) :=
  ⟨⟨0, 0,
    ((looped).onBta fun b => { b with grp := upd b.grp 0 fun x => { x with run := true, count := samplePoint x x.period.active.toNat } }),
    ({ drive := 3, depth := 1 }), _, _, rfl, rfl, by decide +kernel⟩,
   ⟨0, 0,
    (com.onLoop fun e => { e with slot := upd e.slot 0 fun x => { x with lp := upd x.lp 0 fun y => { y with computing := some [] } } }),
    ([] : List Int), by decide +kernel⟩,
   ⟨0, 0, (com.onLoop fun e => { e with slot := upd e.slot 0 fun x => { x with lp := upd x.lp 0 fun y => { y with ready := some [] } } }),
    ([] : List Int), by decide +kernel⟩,
   ⟨(7), com, by decide +kernel⟩,
   ⟨0,
    (atTick 5 (slot0On.onBta fun b => { b with grp := upd b.grp 0 fun x => { x with run := true, count := samplePoint x x.period.active.toNat } })),
    by decide +kernel⟩,
   ⟨0,
    (atTick 5 ((group0.onPlan fun p => { p with grp := upd p.grp 0 fun g => { g with running := true } }).onBta fun b => { b with grp := upd b.grp 0 fun x => { x with run := true, count := samplePoint x x.period.active.toNat } })),
    by decide +kernel⟩,
   ⟨0, (atTick 500000 (onAx 0 (fun a => { a with st := .enabled, mode := some { drive := 2, standstill := 0 } }) com)),
    ({ drive := 2, standstill := 0 }), by decide +kernel⟩,
   ⟨0, (atTick 500000 (onAx 0 (fun a => { a with st := .enabled, mode := some { drive := 2, standstill := 1 } }) com)),
    ({ drive := 2, standstill := 1 }), _, rfl, by decide +kernel⟩,
   ⟨63, (atTick 125000000 (onAx 63 (fun a => { a with aligning := true, alignMoved := true }) com)), by decide +kernel⟩,
   ⟨63, (onAx 63 (fun a => { a with st := .reacting, reaction := some 1 }) com), by decide +kernel⟩,
   ⟨63, (onAx 63 (fun a => { a with st := .reacting, reaction := some 3 }) com), by decide +kernel⟩,
   ⟨0,
    (atTick 500000000 ((onAx 0 (fun a => { a with st := .enabled }) com).onLoop fun e => { e with slot := upd e.slot 0 fun x => { x with obsStart := true } })),
    by decide +kernel⟩⟩

theorem witness_BridgeAndStepperEventsComplete :
    (∃ (g : Fin 32) (s : Machine.State), (s.bta.grp[g].startDue = none ∧ s.bta.grp[g].count = 0 ∧ s.bta.grp[g].boundaryAt ≠ some s.now ∨ ∃ t, s.bta.grp[g].startDue = some t ∧ t ≤ s.now) ∧
      domainsRun s = true ∧ s.bta.grp[g].run = true) ∧
    (∃ (n : Fin 96) (t : Nat) (s : Machine.State), domainsRun s = true ∧ s.bta.grp[legGroup n].run = true ∧
      s.bta.grp[legGroup n].boundaryAt = some t ∧ t + s.bta.grp[legGroup n].count = s.now ∧ s.bta.leg[n].rose = false ∧
      s.bta.grp[legGroup n].count = edgeTick n s.bta.grp[legGroup n].ditherK s.bta.leg[n] s.bta.leg[n].cmpa.active) ∧
    (∃ (n : Fin 96) (t : Nat) (s : Machine.State), domainsRun s = true ∧ s.bta.grp[legGroup n].run = true ∧
      s.bta.grp[legGroup n].boundaryAt = some t ∧ t + s.bta.grp[legGroup n].count = s.now ∧ s.bta.leg[n].fell = false ∧
      s.bta.leg[n].rose = true ∧ s.bta.grp[legGroup n].count = edgeTick n s.bta.grp[legGroup n].ditherK s.bta.leg[n] s.bta.leg[n].cmpb.active) ∧
    (∃ (k : Fin 16) (b : Bool) (s : Machine.State) (v : Machine.State), v = (s.onBta fun x => { x with trip := upd x.trip k fun t => { t with active := b == t.activeHigh } }) ∧
      tbRuns s = true) ∧
    (∃ (s : Machine.State), domainsRun s = true) ∧
    (∃ (t : Fin 8) (s : Machine.State), domainsRun s = true ∧ windowEnds s.bta.blank[t] s = true) ∧
    (∃ (k : Fin 12) (n : Fin 96) (c : Nat) (s : Machine.State) (v : Machine.State), v = onLeg n (fun l => { l with nCal := c, nCalNext := some c, calBad := none, calAt := some s.now }) s ∧
      n.val = k.val ∧ calibrationDue n s = true ∧ 64 ≤ c ∧ c ≤ 96) ∧
    (∃ (k : Fin 12) (n : Fin 96) (c : Nat) (s : Machine.State), n.val = k.val ∧ calibrationDue n s = true ∧ (c < 64 ∨ 96 < c)) ∧
    (∃ (k : Fin 12) (n : Fin 96) (t : Nat) (s : Machine.State), n.val = k.val ∧ s.bta.leg[n].calBad = some t ∧ t + 5000000 ≤ s.now ∧
      s.bta.leg[n].fallback = false) ∧
    (∃ (k : Fin 8) (h : Bool) (s : Machine.State), s.bta.bank[k].changing = some h) ∧
    (∃ (i : Fin 64) (s : Machine.State), s.stepper.slot[i].phase = 1 ∧
      s.stepper.slot[i].phaseStart + 500000 * s.stepper.slot[i].holdRamp ≤ s.now) ∧
    (∃ (i : Fin 64) (s : Machine.State) (m : AxisMode), s.axis[i].mode = some m ∧ (m.standstill = 4 ∨ m.standstill = 5) ∧
      s.axis[i].st = .enabled ∧ s.axis[i].standstill = true ∧ (s.stepper.slot[i].phase = 1 ∨ s.stepper.slot[i].phase = 2) ∧
      s.stepper.slot[i].phaseStart + 500000 * (s.stepper.slot[i].holdRamp + s.stepper.slot[i].freewheelDelay) ≤ s.now) ∧
    (∃ (i : Fin 64) (s : Machine.State), s.stepper.slot[i].downSince.isSome = true ∧ stepAngle i s = true ∧ stepperSpent i s = true) ∧
    (∃ (i : Fin 64) (s : Machine.State), s.stepper.slot[i].phase = 5 ∧ s.stepper.slot[i].phaseStart + wakeTicks i s ≤ s.now ∧
      wakeWaits i s = true) :=
  ⟨⟨31, (com.onBta fun b => { b with grp := upd b.grp 31 fun x => { x with run := true } }), (Or.inl (by decide +kernel)), by decide +kernel⟩,
   ⟨95, 0,
    (atTick 10 (com.onBta fun b => { b with grp := upd b.grp 31 fun x => { x with run := true, boundaryAt := some 0, count := 10 }, leg := upd b.leg 95 fun l => { l with cmpa := { l.cmpa with active := 640 } } })),
    by decide +kernel⟩,
   ⟨95, 0,
    (atTick 10 (com.onBta fun b => { b with grp := upd b.grp 31 fun x => { x with run := true, boundaryAt := some 0, count := 10 }, leg := upd b.leg 95 fun l => { l with cmpb := { l.cmpb with active := 640 }, rose := true } })),
    by decide +kernel⟩,
   ⟨15, true, com, _, rfl, by decide +kernel⟩,
   ⟨com, by decide +kernel⟩,
   ⟨(7), (com.onBta fun b => { b with blank := upd b.blank 7 fun x => { x with group := some 0 } }), by decide +kernel⟩,
   ⟨11, 11, 64, (com.onBta fun b => { b with grp := upd b.grp 3 fun x => { x with run := true } }), _, rfl, by decide +kernel⟩,
   ⟨0, 0, 0, com, by decide +kernel⟩,
   ⟨11, 11, 7, (atTick 5000007 (com.onBta fun b => { b with leg := upd b.leg 11 fun x => { x with calBad := some 7 } })), by decide +kernel⟩,
   ⟨0, true, (com.onBta fun b => { b with bank := upd b.bank 0 fun x => { x with changing := some true } }), by decide +kernel⟩,
   ⟨0, (atTick 50000000 ((com).onStepper fun b => { b with slot := upd b.slot 0 fun x => { x with phase := 1 } })), by decide +kernel⟩,
   ⟨0,
    (atTick 50000000 ((onAx 0 (fun a => { a with st := .enabled, standstill := true, mode := some { drive := 2, standstill := 4 } }) com).onStepper fun b => { b with slot := upd b.slot 0 fun x => { x with phase := 2 } })),
    ({ drive := 2, standstill := 4 }), by decide +kernel⟩,
   ⟨0,
    (atTick 50000000 ((slot0).onStepper fun b => { b with slot := upd b.slot 0 fun x => { x with downSince := some 0, offSince := some 0 } })),
    by decide +kernel⟩,
   ⟨0,
    (atTick 50000000 ((onAx 0 (fun a => { a with waitSp := some (0, 0, 0, 0) }) slot0).onStepper fun b => { b with slot := upd b.slot 0 fun x => { x with phase := 5 } })),
    by decide +kernel⟩⟩

theorem witness_PositionPortEventsComplete :
    (∃ (p : Fin 32) (s : Machine.State), domainsRun s = true ∧ (s.ports.port[p].mode = 0 ∨ s.ports.port[p].mode = 5)) ∧
    (∃ (p : Fin 32) (l : BitVec 4) (s : Machine.State) (x : Port), x = s.ports.port[p] ∧ domainsRun s = true ∧ x.mode = 1 ∧
      l.getLsbD 0 ≠ x.lineA ∧ l.getLsbD 1 = x.lineB) ∧
    (∃ (p : Fin 32) (s : Machine.State), domainsRun s = true ∧ s.ports.port[p].mode = 5 ∧ ssiMayStart p s = true) ∧
    (∃ (p : Fin 32) (d : BitVec 64) (t : Nat) (s : Machine.State), domainsRun s = true ∧ s.ports.port[p].ssiStart = some t ∧
      s.ports.port[p].mode = 5 ∧ t + ssiFrame s.ports.port[p].cfg.ssi ≤ s.nowNs ∧
      ssiGood s.ports.port[p].cfg.ssi (s.ports.port[p].cfg.opts.getLsbD 6) d.toNat = true) ∧
    (∃ (k : Fin 8) (p : Fin 32) (a : BitVec 14) (b : BitVec 14) (s : Machine.State) (c : SinCfg) (r2 : Int), c = s.ports.port[p].cfg.sincos ∧
      r2 = sinCorrected a c.offS c.gainS ^ 2 + sinCorrected b c.offC c.gainC ^ 2 ∧ domainsRun s = true ∧ p = Fin.ofNat 32 k.val ∧
      s.ports.port[p].mode = 6 ∧ s.ports.port[p].phase = none ∧ ((c.ampMin : Int) * 134217728) ^ 2 ≤ r2 ∧
      r2 ≤ ((c.ampMax : Int) * 134217728) ^ 2) ∧
    (∃ (p : Fin 32) (s : Machine.State), domainsRun s = true ∧ loopUses p s = false ∧ s.ports.port[p].evalAt + 100000 ≤ s.nowNs) ∧
    (∃ (p : Fin 32) (s : Machine.State), domainsRun s = true ∧ 1 ≤ s.ports.port[p].mode ∧ s.ports.port[p].mode ≤ 4 ∧
      (s.ports.port[p].stamps.head?.map (·.1)).getD 0 + 1000000 * s.ports.port[p].cfg.timeoutMs ≤ s.nowNs) ∧
    (∃ (s : Machine.State), domainsRun s = true) ∧
    (∃ (p : Fin 32) (t : Nat) (s : Machine.State), domainsRun s = true ∧ s.ports.port[p].illegalSince = some t ∧ t + 2000 ≤ s.nowNs) ∧
    (∃ (p : Fin 32) (s : Machine.State), domainsRun s = true ∧ s.ports.port[p].lastMove + 1000000 * s.ports.port[p].cfg.freezeMs ≤ s.nowNs ∧
      observerMoves p s = true) ∧
    (∃ (p : Fin 32) (s : Machine.State) (v : Machine.State), v = onPort p (fun x => { x with causesNow := x.causesNow &&& ((if observerMoves p s then 0xBE else 0x9E) &&& if x.unresUntil ≤ s.nowNs then 0x7F else 0xFF) }) s ∧
      domainsRun s = true ∧ s.ports.port[p].lossActive = true ∧ lossOver p v = true) :=
  ⟨⟨0, com, by decide +kernel⟩,
   ⟨31, (1), (com.onPorts fun b => { b with port := upd b.port 31 fun x => { x with mode := 1 } }), _, rfl, by decide +kernel⟩,
   ⟨31, (atTick 1000000000 (com.onPorts fun b => { b with port := upd b.port 31 fun x => { x with mode := 5 } })), by decide +kernel⟩,
   ⟨31, (0), 0,
    (atTick 1000000000 (com.onPorts fun b => { b with port := upd b.port 31 fun x => { x with mode := 5, ssiStart := some 0 } })),
    by decide +kernel⟩,
   ⟨7, 7, (0), (0x1FFF), (com.onPorts fun b => { b with port := upd b.port 7 fun x => { x with mode := 6 } }), _, _, rfl, rfl,
    by decide +kernel⟩,
   ⟨31, (atTick 50000 com), by decide +kernel⟩,
   ⟨31, (atTick 5000000 (com.onPorts fun b => { b with port := upd b.port 31 fun x => { x with mode := 4 } })), by decide +kernel⟩,
   ⟨com, by decide +kernel⟩,
   ⟨31, 0, (atTick 1000 (com.onPorts fun b => { b with port := upd b.port 31 fun x => { x with illegalSince := some 0 } })),
    by decide +kernel⟩,
   ⟨0,
    (atTick 500000 (onAx 0 (fun a => { a with bind := { location := 1, portA := some 0 } }) (com.onLoop fun e => { e with slot := upd e.slot 0 fun x => { x with obsValid := true } }))),
    by decide +kernel⟩,
   ⟨31, (atTick 5000000 (com.onPorts fun b => { b with port := upd b.port 31 fun x => { x with lossActive := true } })), _, rfl,
    by decide +kernel⟩⟩

theorem witness_CaptureAndCycleEventsComplete :
    (∃ (u : Fin 16) (t : Nat) (s : Machine.State), domainsRun s = true ∧ s.ports.cmp[u].pulseEnd = some t ∧ t ≤ s.nowNs) ∧
    (∃ (s : Machine.State), domainsRun s = true) ∧
    (∃ (k : Fin 16) (s : Machine.State) (d : LatchDue) (rest : List LatchDue) (ok : Bool) (pos : Int), domainsRun s = true ∧
      s.ports.latch[k].due = d :: rest ∧ s.ports.latch[k].caps.length < 16 ∧
      portCapture (Fin.ofNat 32 s.ports.latch[k].port) (d.t + s.ports.port[(Fin.ofNat 32 s.ports.latch[k].port : Fin 32)].cfg.delay) s = some (ok, pos)) ∧
    (∃ (s : Machine.State) (d : LatchDue) (rest : List LatchDue) (es : List SnapEntry), domainsRun s = true ∧ s.ports.snap.due = d :: rest ∧
      (boundSlots s).mapM (fun i => snapEntry i d.t s) = some es ∧ s.ports.snap.held.length < 4) ∧
    (∃ (s : Machine.State), tbRuns s = true) ∧
    (∃ (b : Fin 64) (ts : Nat) (s : Machine.State), tbRuns s = true ∧ cycleTs (Fin.ofNat 16 s.bricks.brick[b].group) s = some ts ∧
      s.bricks.brick[b].registered = true ∧ s.bricks.brick[b].usedTs ≠ some ts ∧ s.bricks.brick[b].missTs ≠ some ts ∧
      ts + arriveIn b s ≤ s.tb0) ∧
    (∃ (g : Fin 16) (ts : Nat) (b : Fin 64) (l : List (Fin 64)) (s : Machine.State), tbRuns s = true ∧ cycleTs g s = some ts ∧
      hopOrder g s = b :: l ∧ s.bricks.fg[g].configured = true ∧ (ts : Int) + launchAt g.val (groupL g s) s ≤ s.tb0 ∧
      s.bricks.fg[g].launched ≠ some ts) ∧
    (∃ (s : Machine.State), tbRuns s = true ∧ stoInForce s = true ∧ ((∀ t, s.bricks.stoSent = some t → t + 100000 ≤ s.nowNs))) ∧
    (∃ (port : Fin 4) (f : NetFrame) (s : Machine.State) (m : CycMap), m = s.net.map[(Fin.ofNat 32 (f.payload.getD 0 0xFF).toNat : Fin 32)].prune s.tb0 ∧
      tbRuns s = true ∧ (f.payload.getD 0 0xFF).toNat < 16 ∧ m.matches port f = true ∧ (f.payload.getD 1 0).toNat % 2 = 1 ∧
      m.size ≤ f.payload.length ∧ m.held = [] ∧ beNat (slice 4 8 f.payload) = m.start s.tb0 + m.period ∧ 0 < m.period) ∧
    (∃ (k : Fin 16) (j : Fin 32) (s : Machine.State) (m : CycMap) (p : List Byte), m = s.net.map[j].prune s.tb0 ∧ tbRuns s = true ∧
      j.val = k.val ∧ m.enabled = true ∧ ((∀ a, m.lastApplied = some a → a < m.start s.tb0)) ∧ m.start s.tb0 + m.off ≤ s.tb0 ∧
      m.held = [(m.start s.tb0, p)]) ∧
    (∃ (k : Fin 16) (s : Machine.State) (m : CycMap), m = s.net.map[outMap k] ∧ tbRuns s = true ∧ m.enabled = true ∧
      ((∀ a, m.lastApplied = some a → a < m.start s.tb0)) ∧ ((∀ e, m.sample = some e → e.1 ≠ m.start s.tb0)) ∧ m.start s.tb0 + m.off ≤ s.tb0) ∧
    (∃ (k : Fin 16) (s : Machine.State) (m : CycMap) (p : List Byte) (ports : List (Fin 4)), m = s.net.map[outMap k] ∧
      ports = (List.finRange 4).filter (fun (p : Fin 4) => m.ports.getLsbD p.val && portUp (ext p) s) ∧ tbRuns s = true ∧ m.enabled = true ∧
      ((∀ a, m.lastApplied = some a → a < m.start s.tb0)) ∧ m.sample = some (m.start s.tb0, p) ∧ m.start s.tb0 + m.launch ≤ s.tb0 ∧ ports ≠ []) ∧
    (∃ (k : Fin 32) (on : Bool) (t : Nat) (s : Machine.State), tbRuns s = true ∧ s.net.map[k].enableDue = some (on, t) ∧ t ≤ s.tb0) :=
  ⟨⟨15, 0, (com.onPorts fun b => { b with cmp := upd b.cmp 15 fun x => { x with pulseEnd := some 0 } }), by decide +kernel⟩,
   ⟨com, by decide +kernel⟩,
   ⟨15, (atTick 5 (com.onPorts fun b => { b with latch := upd b.latch 15 fun x => { x with due := [{}] } })), ({}), ([] : List LatchDue),
    true, (0), by decide +kernel⟩,
   ⟨(com.onPorts fun b => { b with snap := { b.snap with due := [{}] } }), ({}), ([] : List LatchDue), ([] : List SnapEntry),
    by decide +kernel⟩,
   ⟨com, by decide +kernel⟩,
   ⟨0, 0, (bricked.onNet fun n => { n with tb := upd n.tb 0 fun x => { x with val := 62400 * 2 ^ 39 } }), by decide +kernel⟩,
   ⟨0, 0, (0), (([] : List (Fin 64))), bricked, by decide +kernel⟩,
   ⟨(com.onLodge fun b => { b with sto := true }), by decide +kernel⟩,
   ⟨0, ({ payload := [15, 1, 0, 0] ++ be 8 1000000 }),
    (com.onNet fun n => { n with map := upd n.map 15 fun x => { x with defined := true, enabled := true, period := 1000000, ports := 1, etherType := 0 } }),
    _, rfl, by decide +kernel⟩,
   ⟨15, 15,
    (com.onNet fun n => { n with map := upd n.map 15 fun x => { x with defined := true, enabled := true, period := 1000000, ports := 1, held := [(0, [])] } }),
    _, ([] : List Byte), rfl, by decide +kernel⟩,
   ⟨15,
    (com.onNet fun n => { n with map := upd n.map 31 fun x => { x with defined := true, enabled := true, period := 1000000, ports := 1, etherType := 0 } }),
    _, rfl, by decide +kernel⟩,
   ⟨15,
    ((com.onNet fun n => { n with map := upd n.map 31 fun x => { x with defined := true, enabled := true, period := 1000000, ports := 1, sample := some (0, []) } }).onNet fun n => { n with port := upd n.port 0 fun x => { x with link := true } }),
    _, ([] : List Byte), _, rfl, rfl, by decide +kernel⟩,
   ⟨31, true, 0, (com.onNet fun n => { n with map := upd n.map 31 fun x => { x with enableDue := some (true, 0) } }), by decide +kernel⟩⟩

theorem witness_SwitchEventsComplete :
    (∃ (p : Fin 4) (s : Machine.State) (g : Bool) (f : Bool) (v : Nat), v = (if s.net.port[ext p].forced = true then (if f = true then 1 else 0) else if s.net.port[ext p].advertise.getLsbD 0 = true ∧ g = true then 2 else if s.net.port[ext p].advertise.getLsbD 1 = true ∧ f = true then 1 else 0) ∧
      s.sys.dev ≠ .reset ∧ s.net.port[ext p].state ≠ 2 ∧ s.net.port[ext p].link = false ∧ v ≠ 0) ∧
    (∃ (p : Fin 4) (s : Machine.State), s.net.port[ext p].link = true) ∧
    (∃ (p : Fin 4) (f : NetFrame) (s : Machine.State), s.sys.dev ≠ .reset ∧ s.power.refLost = false ∧ s.net.port[ext p].link = true ∧
      s.net.port[ext p].state ≠ 2 ∧ s.power.power ≠ .rest ∧ s.power.power ≠ .nap ∧ ingressDrop p f true s = none) ∧
    (∃ (p : Fin 4) (f : NetFrame) (s : Machine.State), tbRuns s = true ∧ portUp (ext p) s = true ∧ wireFree p s = true ∧
      selectFrame p s = some f) ∧
    (∃ (s : Machine.State), tbRuns s = true ∧ (afterStartup s = true ∨ halted s = true)) ∧
    (∃ (s : Machine.State), tbRuns s = true ∧ (afterStartup s = true ∨ halted s = true)) ∧
    (∃ (p : Fin 4) (l : GateList) (s : Machine.State), tbRuns s = true ∧ s.net.gates[p].active = some l) ∧
    (∃ (p : Fin 4) (l : GateList) (t : Nat) (s : Machine.State), tbRuns s = true ∧ s.net.gates[p].next = some (l, t) ∧
      t ≤ s.tbNs (Fin.ofNat 4 l.base) ∧ l.entries ≠ []) ∧
    (∃ (p : Fin 4) (s : Machine.State), tbRuns s = true ∧ s.net.port[ext p].link = true ∧
      (s.net.port[ext p].preEnable = true ∨ portFrameGroups p.val s ≠ []) ∧ s.net.port[ext p].preempt = false ∧
      s.net.port[ext p].verifyFailed = false) :=
  ⟨⟨(3), com, true, true, _, rfl, by decide +kernel⟩,
   ⟨3, (com.onNet fun n => { n with port := upd n.port 3 fun x => { x with link := true } }), by decide +kernel⟩,
   ⟨3, ({}), (com.onNet fun n => { n with port := upd n.port 3 fun x => { x with link := true } }), by decide +kernel⟩,
   ⟨3, ({ cls := 7 }), (com.onNet fun n => { n with port := upd n.port 3 fun x => { x with link := true, queue := [{ cls := 7 }] } }),
    by decide +kernel⟩,
   ⟨com, by decide +kernel⟩,
   ⟨com, by decide +kernel⟩,
   ⟨3, (({ entries := [(1, 1)] } : GateList)),
    (com.onNet fun n => { n with gates := upd n.gates 3 fun x => { x with active := some ({ entries := [(1, 1)] } : GateList) } }),
    by decide +kernel⟩,
   ⟨3, (({ entries := [(1, 1)] } : GateList)), 0,
    (com.onNet fun n => { n with gates := upd n.gates 3 fun x => { x with next := some (({ entries := [(1, 1)] } : GateList), 0) } }),
    by decide +kernel⟩,
   ⟨3, (com.onNet fun n => { n with port := upd n.port 3 fun x => { x with link := true, preEnable := true } }), by decide +kernel⟩⟩

theorem witness_TimeEventsComplete :
    (∃ (i : Fin 2) (p : Fin 4) (s : Machine.State), tbRuns s = true ∧ s.net.port[ext p].link = true ∧ s.net.port[ext p].asCapable = true ∧
      s.net.ptp[i].ports.getLsbD p.val = true) ∧
    (∃ (p : Fin 4) (s : Machine.State), ((∀ t, s.net.port[ext p].pdelayAt = some t → t + pdelayTicks s ≤ s.now)) ∧ tbRuns s = true ∧
      s.net.port[ext p].link = true) ∧
    (∃ (p : Fin 4) (s : Machine.State), ((∀ t, s.net.port[ext p].pdelayAt = some t → t + pdelayTicks s ≤ s.now)) ∧ tbRuns s = true ∧
      s.net.port[ext p].link = true) ∧
    (∃ (i : Fin 2) (s : Machine.State), s.net.ptp[i].valid = true ∧ s.net.ptp[i].isGm = false ∧
      1500000000 ≤ (s.now - s.net.ptp[i].lastSync) * 2 ^ (-s.net.ptp[i].logSync).toNat) ∧
    (∃ (i : Fin 2) (p : Fin 4) (s : Machine.State), tbRuns s = true ∧ s.net.ptp[i].isGm = false ∧ s.net.ptp[i].slavePort = some p.val) ∧
    (∃ (i : Fin 2) (p : Fin 4) (s : Machine.State), tbRuns s = true ∧ s.net.ptp[i].isGm = false ∧ s.net.ptp[i].slavePort = some p.val ∧
      s.net.ptp[i].gmCapable = true) ∧
    (∃ (i : Fin 2) (s : Machine.State), ((∀ t, s.net.ptp[i].sentSync = some t → 500000000 ≤ (s.now - t) * 2 ^ (-s.net.ptp[i].logSync).toNat)) ∧
      tbRuns s = true ∧ s.net.ptp[i].isGm = true) ∧
    (∃ (b : Fin 4) (s : Machine.State), s.net.tb[b].mode = 1 ∧ s.net.tb[b].st = 3 ∧
      s.net.tb[b].holdSync * 500000000 ≤ s.now - s.net.tb[b].holdSince) ∧
    (∃ (k : Fin 8) (s : Machine.State) (t : Tso), t = (s.net.tso[k].due fun b => s.tbNs b) ∧ tbRuns s = true ∧ t.armed = true ∧
      t.inst ≤ s.tbNs (Fin.ofNat 4 t.base) ∧ t.count = 0 ∧ t.period ≠ 0 ∧ t.inhibit = false) ∧
    (∃ (k : Fin 8) (e : Nat × Nat) (s : Machine.State), tbRuns s = true ∧ s.net.tso[k].pulseEnd = some e ∧ e.2 ≤ s.tbNs (Fin.ofNat 4 e.1)) :=
  ⟨⟨0, (3), (com.onNet fun n => { n with port := upd n.port 3 fun x => { x with link := true, asCapable := true } }), by decide +kernel⟩,
   ⟨(3), (com.onNet fun n => { n with port := upd n.port 3 fun x => { x with link := true } }),
    (fun _ h => absurd (congrArg Option.isSome h) (by rw [Option.isSome_some]; decide +kernel)), by decide +kernel⟩,
   ⟨(3), (com.onNet fun n => { n with port := upd n.port 3 fun x => { x with link := true } }),
    (fun _ h => absurd (congrArg Option.isSome h) (by rw [Option.isSome_some]; decide +kernel)), by decide +kernel⟩,
   ⟨1, (atTick 1500000000 (com.onNet fun n => { n with ptp := upd n.ptp 1 fun x => { x with valid := true } })), by decide +kernel⟩,
   ⟨1, (3), (com.onNet fun n => { n with ptp := upd n.ptp 1 fun x => { x with slavePort := some 3 } }), by decide +kernel⟩,
   ⟨1, (3), (com.onNet fun n => { n with ptp := upd n.ptp 1 fun x => { x with slavePort := some 3, gmCapable := true } }), by decide +kernel⟩,
   ⟨1, (com.onNet fun n => { n with ptp := upd n.ptp 1 fun x => { x with isGm := true } }),
    (fun _ h => absurd (congrArg Option.isSome h) (by rw [Option.isSome_some]; decide +kernel)), by decide +kernel⟩,
   ⟨3, (atTick 500000000 (com.onNet fun n => { n with tb := upd n.tb 3 fun x => { x with mode := 1, st := 3 } })), by decide +kernel⟩,
   ⟨7, (com.onNet fun n => { n with tso := upd n.tso 7 fun x => { x with armed := true, period := 1 } }), _, rfl, by decide +kernel⟩,
   ⟨7, (((0, 0) : Nat × Nat)), (com.onNet fun n => { n with tso := upd n.tso 7 fun x => { x with pulseEnd := some (0, 0) } }),
    by decide +kernel⟩⟩

theorem witness_LodgeInputEventsComplete :
    (∃ (n : Fin 16) (k : Fin 8) (s : Machine.State), lodgePowered s = true ∧ k.val = n.val / 2) ∧
    (∃ (t : Fin 4) (s : Machine.State), s.lodge.st = .run ∧ s.lodge.tpDone[t] < tpFrame t s.lodge.time) ∧
    (∃ (t : Fin 4) (s : Machine.State), s.lodge.st = .run ∧ s.lodge.tpDone[t] < tpFrame t s.lodge.time ∧ (s.lodge.cfg 0).kind ≠ 0 ∧
      (s.lodge.cfg 0).tpInUse = true ∧ (s.lodge.cfg 0).tpA = t.val ∧ ((∀ k : Fin 8, k ≠ 0 → (s.lodge.cfg k).tpInUse = false))) ∧
    (∃ (k : Fin 8) (t : Nat) (s : Machine.State), s.lodge.pair[k].differ = some t ∧ s.lodge.st = .run ∧ agreeing (s.lodge.cfg k) = true ∧
      t + (s.lodge.cfg k).discrepancy * 1000000 < s.lodge.time) ∧
    (∃ (s : Machine.State), s.lodge.st ≠ .absent ∧ s.lodge.cycle < lodgeCycle s.lodge.time) ∧
    (∃ (a : Bool) (b : Bool) (s : Machine.State), lodgePowered s = true ∧ stoinOn s = true ∧ (a && b) = false) ∧
    (∃ (s : Machine.State), lodgePowered s = true ∧ stoinOn s = true) ∧
    (∃ (t : Nat) (s : Machine.State), s.lodge.stoinDiffer = some t ∧ s.lodge.st = .run ∧ stoinOn s = true ∧ s.lodge.stoinFault = false ∧
      t + 100000000 < s.lodge.time) ∧
    (∃ (s : Machine.State), lodgePowered s = true) ∧
    (∃ (s : Machine.State), lodgePowered s = true ∧ s.lodge.hbAt + 20000000 ≤ s.lodge.time) ∧
    (∃ (s : Machine.State), s.lodge.refFault = true ∧ releasable s.lodge.refGone s.lodge.time = true) ∧
    (∃ (s : Machine.State), s.lodge.hbFault = true ∧ releasable s.lodge.hbGone s.lodge.time = true) ∧
    (∃ (t : Int) (s : Machine.State), lodgePowered s = true ∧ t < 150) ∧
    (∃ (t : Int) (s : Machine.State), lodgePowered s = true ∧ 150 ≤ t) ∧
    (∃ (p : LodgeParams) (s : Machine.State), s.lodge.st = .start ∧ s.lodge.params = some p) ∧
    (∃ (s : Machine.State), s.lodge.st = .start ∧ s.lodge.params = none) ∧
    (∃ (p : LodgeParams) (s : Machine.State), s.lodge.st = .switching ∧ s.lodge.switching = some p) :=
  ⟨⟨15, 7, com, by decide +kernel⟩,
   ⟨(3), (com.onLodge fun b => { b with time := 10000000 }), by decide +kernel⟩,
   ⟨(3),
    (com.onLodge fun b => { b with time := 10000000, params := some { pair := upd (Vector.replicate 8 {}) 0 fun x => { x with kind := 1, tpInUse := true, tpA := 3 } } }),
    by decide +kernel⟩,
   ⟨7, 1,
    (com.onLodge fun b => { b with params := some { pair := upd (Vector.replicate 8 {}) 7 fun x => { x with kind := 1 } }, time := 1000000000, pair := upd b.pair 7 fun x => { x with differ := some 1 } }),
    by decide +kernel⟩,
   ⟨(com.onLodge fun b => { b with time := 10000 }), by decide +kernel⟩,
   ⟨true, false, (com.onLodge fun b => { b with params := some { stoin := true } }), by decide +kernel⟩,
   ⟨(com.onLodge fun b => { b with params := some { stoin := true } }), by decide +kernel⟩,
   ⟨1, (com.onLodge fun b => { b with params := some { stoin := true }, stoinDiffer := some 1, time := 100000002 }), by decide +kernel⟩,
   ⟨com, by decide +kernel⟩,
   ⟨(com.onLodge fun b => { b with time := 20000000 }), by decide +kernel⟩,
   ⟨(com.onLodge fun b => { b with refFault := true, refGone := some 1, time := 1000000000 }), by decide +kernel⟩,
   ⟨(com.onLodge fun b => { b with hbFault := true, hbGone := some 1, time := 1000000000 }), by decide +kernel⟩,
   ⟨(149), com, by decide +kernel⟩,
   ⟨(150), com, by decide +kernel⟩,
   ⟨({}), (com.onLodge fun b => { b with st := .start, params := some {} }), by decide +kernel⟩,
   ⟨(com.onLodge fun b => { b with st := .start, params := none }), by decide +kernel⟩,
   ⟨({}), (com.onLodge fun b => { b with st := .switching, switching := some {} }), by decide +kernel⟩⟩

theorem witness_LodgeOutputEventsComplete :
    (∃ (t : Nat) (s : Machine.State), s.lodge.snapAt = some t ∧ s.lodge.st ≠ .absent ∧ s.lodge.st ≠ .safeFault ∧ t + 230000 ≤ s.lodge.time) ∧
    (∃ (s : Machine.State), s.lodge.ss1Request = true) ∧
    (∃ (n : Fin 4) (t : Nat) (s : Machine.State), s.lodge.out[n].delay = some t ∧ t ≤ s.lodge.time) ∧
    (∃ (t : Nat) (s : Machine.State), s.lodge.ss1End = some t ∧ t ≤ s.lodge.time) ∧
    (∃ (n : Fin 4) (p : LodgeParams) (s : Machine.State), s.lodge.st = .run ∧ s.lodge.out[n].on = true ∧ s.lodge.params = some p ∧
      p.out[n].noPulse = false ∧ s.lodge.out[n].testAt + p.out[n].testMs10 * 10000000 ≤ s.lodge.time) ∧
    (∃ (n : Fin 4) (s : Machine.State), s.lodge.st = .run ∧ s.lodge.out[n].on = true ∧ s.lodge.out[n].onAt + 100000 ≤ s.lodge.time) ∧
    (∃ (n : Fin 4) (p : LodgeParams) (s : Machine.State), s.lodge.st = .run ∧ s.lodge.out[n].on = true ∧ s.lodge.params = some p ∧
      p.out[n].openLoad = true ∧ s.lodge.out[n].onAt + 100000000 ≤ s.lodge.time) ∧
    (∃ (n : Fin 4) (p : LodgeParams) (s : Machine.State), s.lodge.st = .run ∧ s.lodge.out[n].on = true ∧ s.lodge.params = some p ∧
      p.out[n].noPulse = true ∧ s.lodge.out[n].offAt + 86400000000000 ≤ s.lodge.time) :=
  ⟨⟨10000, (com.onLodge fun b => { b with snapAt := some 10000, time := 240000 }), by decide +kernel⟩,
   ⟨(com.onLodge fun b => { b with ss1Request := true }), by decide +kernel⟩,
   ⟨3, 5, (com.onLodge fun b => { b with time := 5, out := upd b.out 3 fun x => { x with delay := some 5 } }), by decide +kernel⟩,
   ⟨5, (com.onLodge fun b => { b with time := 5, ss1End := some 5 }), by decide +kernel⟩,
   ⟨3, ({}), (com.onLodge fun b => { b with time := 100000000000000, out := upd b.out 3 fun x => { x with on := true } }), by decide +kernel⟩,
   ⟨3, (com.onLodge fun b => { b with time := 100000, out := upd b.out 3 fun x => { x with on := true } }), by decide +kernel⟩,
   ⟨3, (({ out := upd (Vector.replicate 4 {}) 3 fun x => { x with openLoad := true } } : LodgeParams)),
    (com.onLodge fun b => { b with params := some ({ out := upd (Vector.replicate 4 {}) 3 fun x => { x with openLoad := true } } : LodgeParams), time := 100000000, out := upd b.out 3 fun x => { x with on := true } }),
    by decide +kernel⟩,
   ⟨3, (({ out := upd (Vector.replicate 4 {}) 3 fun x => { x with noPulse := true } } : LodgeParams)),
    (com.onLodge fun b => { b with params := some ({ out := upd (Vector.replicate 4 {}) 3 fun x => { x with noPulse := true } } : LodgeParams), time := 86400000000005, out := upd b.out 3 fun x => { x with on := true, offAt := 5 } }),
    by decide +kernel⟩⟩

theorem witness_FieldIoEventsComplete :
    (∃ (n : Fin 32) (b : Bool) (s : Machine.State), s.fio.grp[(inputPlace n).1].powered = true ∧ (inputOf n s).opened = false ∧
      (inputOf n s).level ≠ b ∧ ((∀ t, (inputOf n s).acceptAt = some t → localDue t (50 * (inputOf n s).filter) s = true)) ∧
      s.power.power ≠ .nap ∧ s.power.power ≠ .rest ∧ s.power.refLost = false) ∧
    (∃ (n : Fin 32) (s : Machine.State), s.fio.grp[(inputPlace n).1].powered = true ∧ (inputOf n s).type3 = true ∧
      (inputOf n s).openWire = true ∧ (inputOf n s).opened = false) ∧
    (∃ (n : Fin 32) (s : Machine.State), localDue (inputOf n s).openedAt 100000 s = true) ∧
    (∃ (n : Fin 16) (s : Machine.State), (outputOf n s).state = true ∧ heldFor 500 (outputOf n s) s = true) ∧
    (∃ (n : Fin 16) (s : Machine.State), s.fio.grp[(outputPlace n).1].powered = true ∧ (outputOf n s).hot = false) ∧
    (∃ (n : Fin 16) (s : Machine.State), (outputOf n s).state = true ∧ (outputOf n s).openCheck = true ∧ (outputOf n s).openLoad = false ∧
      heldFor 100000 (outputOf n s) s = true) ∧
    (∃ (n : Fin 16) (s : Machine.State), localDue (outputOf n s).openLoadAt 100000 s = true) ∧
    (∃ (n : Fin 16) (s : Machine.State), s.fio.grp[(outputPlace n).1].powered = true ∧ (outputOf n s).state = false ∧
      (outputOf n s).backfeed = false ∧ heldFor 1000 (outputOf n s) s = true) ∧
    (∃ (n : Fin 16) (s : Machine.State), localDue (outputOf n s).backfeedAt 1000 s = true) ∧
    (∃ (n : Fin 16) (s : Machine.State), (outputOf n s).retry = true ∧ (outputOf n s).latched = true ∧ (outputOf n s).cmd = true ∧
      (outputOf n s).hot = false ∧ localDue (outputOf n s).tryAt 100000 s = true) ∧
    (∃ (g : Fin 4) (s : Machine.State), ((∀ t, s.fio.grp[g].refreshAt = some t → t + 1000 ≤ s.power.aonUs)) ∧ s.sys.dev ≠ .reset ∧
      s.power.refLost = false ∧ s.fio.grp[g].powered = true) ∧
    (∃ (g : Fin 4) (s : Machine.State), s.fio.grp[g].powered = true ∧ s.fio.grp[g].linkFailed = false ∧
      localDue s.fio.grp[g].watchAt 10000 s = true) ∧
    (∃ (g : Fin 4) (s : Machine.State), s.fio.grp[g].powered = true ∧ s.sys.dev ≠ .reset ∧ s.fio.grp[g].watchAt + 10000 ≤ s.power.aonUs) ∧
    (∃ (g : Fin 4) (v : Nat) (s : Machine.State) (u : Machine.State), u = onFioGroup g (fun g => { g with vf := v, restoring := false, sag := true, fSag := true }) s ∧
      s.fio.grp[g].powered = true ∧ v < 1800) ∧
    (∃ (g : Fin 4) (v : Nat) (s : Machine.State) (u : Machine.State), u = onFioGroup g (fun g => ({ g with vf := v, restoring := false, lost := true, fLost := true }).settle) s ∧
      s.fio.grp[g].powered = true ∧ v < 1500) ∧
    (∃ (v : Nat), v < 1200) ∧
    (∃ (g : Fin 4) (v : Nat) (s : Machine.State), 1200 ≤ v ∧ s.fio.grp[g].powered = false ∧ s.sys.dev ≠ .reset) ∧
    (∃ (g : Fin 4) (s : Machine.State), s.fio.grp[g].lost = true ∧ s.fio.grp[g].auto = true ∧ s.fio.grp[g].restoring = true ∧
      1800 ≤ s.fio.grp[g].vf ∧ localDue s.fio.grp[g].restoreAt (1000 * s.fio.grp[g].restoreMs) s = true) ∧
    (∃ (g : Fin 4) (v : Nat) (s : Machine.State), 1800 ≤ v ∧ s.fio.grp[g].powered = true) :=
  ⟨⟨31, true, (com.onFio fun f => { f with grp := upd f.grp 3 fun g => { g with powered := true } }), by decide +kernel⟩,
   ⟨31,
    (com.onFio fun f => { f with grp := upd f.grp 3 fun g => { g with powered := true, input := upd g.input 7 fun x => { x with type3 := true, openWire := true } } }),
    by decide +kernel⟩,
   ⟨31,
    ((com.onFio fun f => { f with grp := upd f.grp 3 fun g => { g with powered := true } }).onPower fun p => { p with aonUs := 1000000 }),
    by decide +kernel⟩,
   ⟨15,
    ((com.onFio fun f => { f with grp := upd f.grp 3 fun g => { g with powered := true, output := upd g.output 3 fun x => { x with state := true, was := true } } }).onPower fun p => { p with aonUs := 1000000 }),
    by decide +kernel⟩,
   ⟨15, (com.onFio fun f => { f with grp := upd f.grp 3 fun g => { g with powered := true } }), by decide +kernel⟩,
   ⟨15,
    ((com.onFio fun f => { f with grp := upd f.grp 3 fun g => { g with powered := true, output := upd g.output 3 fun x => { x with state := true, was := true, openCheck := true } } }).onPower fun p => { p with aonUs := 1000000 }),
    by decide +kernel⟩,
   ⟨15,
    ((com.onFio fun f => { f with grp := upd f.grp 3 fun g => { g with powered := true } }).onPower fun p => { p with aonUs := 1000000 }),
    by decide +kernel⟩,
   ⟨15,
    ((com.onFio fun f => { f with grp := upd f.grp 3 fun g => { g with powered := true } }).onPower fun p => { p with aonUs := 1000000 }),
    by decide +kernel⟩,
   ⟨15,
    ((com.onFio fun f => { f with grp := upd f.grp 3 fun g => { g with powered := true } }).onPower fun p => { p with aonUs := 1000000 }),
    by decide +kernel⟩,
   ⟨15,
    ((com.onFio fun f => { f with grp := upd f.grp 3 fun g => { g with powered := true, output := upd g.output 3 fun x => { x with retry := true, latched := true, cmd := true } } }).onPower fun p => { p with aonUs := 1000000 }),
    by decide +kernel⟩,
   ⟨3,
    ((com.onFio fun f => { f with grp := upd f.grp 3 fun g => { g with powered := true } }).onPower fun p => { p with aonUs := 1000000 }),
    (fun _ h => absurd (congrArg Option.isSome h) (by rw [Option.isSome_some]; decide +kernel)), by decide +kernel⟩,
   ⟨3,
    ((com.onFio fun f => { f with grp := upd f.grp 3 fun g => { g with powered := true } }).onPower fun p => { p with aonUs := 1000000 }),
    by decide +kernel⟩,
   ⟨3,
    ((com.onFio fun f => { f with grp := upd f.grp 3 fun g => { g with powered := true } }).onPower fun p => { p with aonUs := 1000000 }),
    by decide +kernel⟩,
   ⟨3, 1799, (com.onFio fun f => { f with grp := upd f.grp 3 fun g => { g with powered := true, sag := true } }), _, rfl, by decide +kernel⟩,
   ⟨3, 1499, (com.onFio fun f => { f with grp := upd f.grp 3 fun g => { g with powered := true } }), _, rfl, by decide +kernel⟩,
   ⟨1199, by decide +kernel⟩,
   ⟨3, 1200, com, by decide +kernel⟩,
   ⟨3,
    ((com.onFio fun f => { f with grp := upd f.grp 3 fun g => { g with lost := true, auto := true, restoring := true, vf := 1800 } }).onPower fun p => { p with aonUs := 1000000 }),
    by decide +kernel⟩,
   ⟨3, 1800, (com.onFio fun f => { f with grp := upd f.grp 3 fun g => { g with powered := true } }), by decide +kernel⟩⟩

theorem witness_CanEventsComplete :
    (∃ (c : Fin 4) (s : Machine.State), canRuns s = true ∧ s.can.ctl[c].cfg.mode = 2 ∧ s.can.ctl[c].bus ≠ 2 ∧ s.can.ctl[c].joinAt = none) ∧
    (∃ (c : Fin 4) (f : CanFrame) (s : Machine.State), canRuns s = true ∧ s.can.ctl[c].sending = some (0, f)) ∧
    (∃ (c : Fin 4) (f : CanFrame) (s : Machine.State), canRuns s = true ∧ s.can.ctl[c].sending = some (0, f)) ∧
    (∃ (c : Fin 4) (s : Machine.State), canRuns s = true ∧ s.can.ctl[c].cfg.mode = 1 ∧ s.can.ctl[c].bus ≠ 2 ∧ s.can.ctl[c].sending = none) ∧
    (∃ (c : Fin 4) (s : Machine.State), canRuns s = true ∧ s.can.ctl[c].bus = 2 ∧
      (s.can.ctl[c].cfg.autoRecover = true ∨ s.can.ctl[c].recover = true) ∧
      2 * s.can.ctl[c].busOffAt + 1408 * s.can.ctl[c].cfg.nominal.bitTime ≤ 2 * s.nowNs) ∧
    (∃ (c : Fin 4) (s : Machine.State) (p : Nat) (n : Nat), p = max s.can.ctl[c].tt.cycleNs 1 ∧ n = canTime s.can.ctl[c] s / p * p ∧
      canRuns s = true ∧ s.can.ctl[c].cfg.mode ≠ 0 ∧ s.can.ctl[c].tt.source = 0 ∧ s.can.ctl[c].tt.absent = false ∧ s.can.ctl[c].ttSync = false) ∧
    (∃ (c : Fin 4) (w : Nat) (f : CanFrame) (s : Machine.State), canRuns s = true ∧ s.can.ctl[c].cfg.mode ≠ 0 ∧ s.can.ctl[c].ttSync = true ∧
      s.can.ctl[c].nextWindow = some w ∧ ((s.can.ctl[c].tt.span w).1 : Int) ≤ s.can.ctl[c].pos s + 2000 ∧
      (s.can.ctl[c].tt.cell s.can.ctl[c].ttCycle w).1 = 0 ∧ s.can.ctl[c].ttFrozen = none ∧
      getKey (s.can.ctl[c].tt.cell s.can.ctl[c].ttCycle w).2 s.can.ctl[c].ttBuf = some f) ∧
    (∃ (c : Fin 4) (w : Nat) (s : Machine.State), canRuns s = true ∧ s.can.ctl[c].cfg.mode ≠ 0 ∧ s.can.ctl[c].tt.absent = false ∧
      s.can.ctl[c].nextWindow = some w ∧ ((s.can.ctl[c].tt.span w).1 : Int) ≤ s.can.ctl[c].pos s) ∧
    (∃ (c : Fin 4) (t : Nat) (s : Machine.State), canRuns s = true ∧ s.can.ctl[c].lastRef = some t ∧ s.can.ctl[c].tt.source = 2 ∧
      s.can.ctl[c].ttSync = true ∧ 2 * t + 3 * s.can.ctl[c].tt.cycleNs ≤ 2 * s.nowNs) ∧
    (∃ (c : Fin 4) (s : Machine.State), canRuns s = true ∧ s.can.ctl[c].cfg.mode = 3 ∧
      s.can.ctl[c].dwellAt + s.can.ctl[c].dwell * 500000 ≤ s.now ∧ s.can.ctl[c].candidate + 1 < s.can.ctl[c].cands.length) :=
  ⟨⟨3, (com.onCan fun c => { c with ctl := upd c.ctl 3 fun x => { x with cfg := { mode := 2 } } }), by decide +kernel⟩,
   ⟨3, ({}), (com.onCan fun c => { c with ctl := upd c.ctl 3 fun x => { x with sending := some (0, {}) } }), by decide +kernel⟩,
   ⟨3, ({}), (com.onCan fun c => { c with ctl := upd c.ctl 3 fun x => { x with sending := some (0, {}) } }), by decide +kernel⟩,
   ⟨3, (com.onCan fun c => { c with ctl := upd c.ctl 3 fun x => { x with cfg := { mode := 1 } } }), by decide +kernel⟩,
   ⟨3, (atTick 1000000000 (com.onCan fun c => { c with ctl := upd c.ctl 3 fun x => { x with bus := 2, recover := true } })),
    by decide +kernel⟩,
   ⟨3,
    (com.onCan fun c => { c with ctl := upd c.ctl 3 fun x => { x with cfg := { mode := 1 }, tt := { source := 0, windows := 1, cycleNs := 1000000, cells := [(2, 0)], starts := [0] } } }),
    _, _, rfl, rfl, by decide +kernel⟩,
   ⟨3, 1, ({}),
    (com.onCan fun c => { c with ctl := upd c.ctl 3 fun x => { x with cfg := { mode := 1 }, ttSync := true, ttBuf := [(5, {})], tt := { source := 2, windows := 2, cycleNs := 1000000, cells := [(2, 0), (0, 5)], starts := [0, 1000] } } }),
    by decide +kernel⟩,
   ⟨3, 1,
    (atTick 500 (com.onCan fun c => { c with ctl := upd c.ctl 3 fun x => { x with cfg := { mode := 1 }, ttSync := true, tt := { source := 2, windows := 2, cycleNs := 1000000, cells := [(2, 0), (0, 5)], starts := [0, 1000] } } })),
    by decide +kernel⟩,
   ⟨3, 0,
    (atTick 750000 (com.onCan fun c => { c with ctl := upd c.ctl 3 fun x => { x with ttSync := true, lastRef := some 0, tt := { source := 2, windows := 2, cycleNs := 1000000, cells := [(2, 0), (0, 5)], starts := [0, 1000] } } })),
    by decide +kernel⟩,
   ⟨3,
    (atTick 5000000 (com.onCan fun c => { c with ctl := upd c.ctl 3 fun x => { x with cfg := { mode := 3 }, cands := [({}, none), ({}, none)] } })),
    by decide +kernel⟩⟩

theorem witness_AcquisitionAndThreadEventsComplete :
    (∃ (c : Fin 64) (s : Machine.State), acqRuns s = true ∧ s.acq.active = true ∧ s.acq.chan[c].sampling = true ∧
      clockDue s.acq.chan[c] s = true ∧ chanExists s.acq.chan[c] s = true) ∧
    (∃ (b : BitVec 8) (s : Machine.State) (v : Machine.State), v = (s.onAcq fun x => { x with pins := b }) ∧ pinsSampled v = false) ∧
    (∃ (b : BitVec 8) (on : BitVec 9) (s : Machine.State), acqRuns s = true ∧
      (∀ u : Fin 8, on.getLsbD u.val = (b.getLsbD u.val && decide (3 ≤ s.acq.trig[u].kind ∧ s.acq.trig[u].kind ≤ 6))) ∧ on.getLsbD 8 = false) ∧
    (∃ (g : Fin 64) (t : Nat) (s : Machine.State), acqRuns s = true ∧ s.acq.st = 4 ∧ s.acq.rearmAt = some t ∧ t ≤ s.sysTick ∧
      freeSegment (s.acq.segment + 1) s.acq = some g) ∧
    (∃ (s : Machine.State), s.acq.st = 5 ∧ s.acq.holdKind ≠ 2 ∧ s.acq.holdoff ≤ 2 * (s.sysTick - s.acq.endTick.getD 0)) ∧
    (∃ (l : Fin 8) (t : Fin 512) (s : Machine.State), queueHead l s = some t ∧ lanesGated s = false ∧ s.lanes.lane[l].thread = none ∧
      s.lanes.thr[t].st = .ready ∧ s.lanes.thr[t].readyAt ≠ s.sysTick ∧ s.lanes.thr[t].entry < s.lanes.lane[l].prog.length) ∧
    (∃ (l : Fin 8) (t : Fin 512) (w : Fin 512) (s : Machine.State), s.lanes.lane[l].thread = some t.val ∧ w.val ∈ s.lanes.lane[l].queue ∧
      s.lanes.thr[w].st = .ready ∧ s.lanes.thr[w].readyAt ≠ s.sysTick ∧ s.lanes.thr[w].preemptive = true ∧
      s.lanes.thr[t].level < s.lanes.thr[w].level ∧ lanesGated s = false ∧ heldOff s.lanes.lane[l].regs = false) ∧
    (∃ (l : Fin 8) (t : Fin 512) (r : LaneRegs) (s : Machine.State), queueHead l s = some t ∧ lanesGated s = false ∧
      s.lanes.lane[l].thread = none ∧ s.lanes.thr[t].st = .preempted ∧ s.lanes.thr[t].saved = some r) ∧
    (∃ (k : Fin 16) (s : Machine.State), s.sys.dev ≠ .reset ∧ s.lanes.tmr[k].running = true ∧
      s.lanes.tmr[k].nextAt ≤ (if s.lanes.tmr[k].kind = 2 then s.wall else s.sysTick) ∧ s.power.power ≠ .nap ∧ s.power.power ≠ .rest) :=
  ⟨⟨63, (com.onAcq fun b => { b with st := 2, chan := upd b.chan 63 fun x => { x with code := 15, clkPeriod := true } }), by decide +kernel⟩,
   ⟨(1), com, _, rfl, by decide +kernel⟩,
   ⟨(0x81), (0x80), (com.onAcq fun b => { b with trig := upd b.trig 7 fun x => { x with kind := 3 } }), by decide +kernel⟩,
   ⟨(0), 0, (com.onAcq fun b => { b with st := 4, rearmAt := some 0, segments := 1 }), by decide +kernel⟩,
   ⟨(atTick 500 (com.onAcq fun b => { b with st := 5 })), by decide +kernel⟩,
   ⟨(7), (511),
    (atTick 1 (com.onLanes fun n => { n with lane := upd n.lane 7 fun x => { x with prog := [(0 : Word)], queue := [511] }, thr := upd n.thr 511 fun x => { x with st := .ready } })),
    by decide +kernel⟩,
   ⟨(7), (510), (511),
    (atTick 1 (com.onLanes fun n => { n with lane := upd n.lane 7 fun x => { x with thread := some 510, queue := [511] }, thr := upd n.thr 511 fun x => { x with st := .ready, preemptive := true, level := 1 } })),
    by decide +kernel⟩,
   ⟨(7), (511), ({}),
    (com.onLanes fun n => { n with lane := upd n.lane 7 fun x => { x with queue := [511] }, thr := upd (n.thr) 511 fun x => { x with st := .preempted, saved := some {} } }),
    by decide +kernel⟩,
   ⟨15, (com.onLanes fun n => { n with tmr := upd n.tmr 15 fun x => { x with running := true } }), by decide +kernel⟩⟩

theorem witness_LaneArithmeticComplete :
    (∃ (l : Fin 8) (t : Fin 512) (w : Word) (s : Machine.State), Issues 0x00 l t w s) ∧
    (∃ (l : Fin 8) (t : Fin 512) (w : Word) (s : Machine.State), Issues 0x01 l t w s) ∧
    (∃ (l : Fin 8) (t : Fin 512) (w : Word) (s : Machine.State), Issues 0x02 l t w s) ∧
    (∃ (l : Fin 8) (t : Fin 512) (w : Word) (s : Machine.State), Issues 0x03 l t w s) ∧
    (∃ (l : Fin 8) (t : Fin 512) (w : Word) (s : Machine.State), Issues 0x04 l t w s) ∧
    (∃ (l : Fin 8) (t : Fin 512) (w : Word) (s : Machine.State), Issues 0x05 l t w s) ∧
    (∃ (l : Fin 8) (t : Fin 512) (w : Word) (s : Machine.State), Issues 0x06 l t w s) ∧
    (∃ (l : Fin 8) (t : Fin 512) (w : Word) (s : Machine.State), Issues 0x07 l t w s) ∧
    (∃ (l : Fin 8) (t : Fin 512) (w : Word) (s : Machine.State), Issues 0x08 l t w s) ∧
    (∃ (l : Fin 8) (t : Fin 512) (w : Word) (s : Machine.State), Issues 0x09 l t w s) ∧
    (∃ (l : Fin 8) (t : Fin 512) (w : Word) (s : Machine.State), Issues 0x0A l t w s) ∧
    (∃ (l : Fin 8) (t : Fin 512) (w : Word) (s : Machine.State), Issues 0x0B l t w s) ∧
    (∃ (l : Fin 8) (t : Fin 512) (w : Word) (s : Machine.State), Issues 0x0C l t w s) ∧
    (∃ (l : Fin 8) (t : Fin 512) (w : Word) (s : Machine.State), Issues 0x0D l t w s) ∧
    (∃ (l : Fin 8) (t : Fin 512) (w : Word) (s : Machine.State), Issues 0x0E l t w s) ∧
    (∃ (l : Fin 8) (t : Fin 512) (w : Word) (s : Machine.State), Issues 0x0F l t w s) ∧
    (∃ (l : Fin 8) (t : Fin 512) (w : Word) (s : Machine.State), Issues 0x10 l t w s) ∧
    (∃ (l : Fin 8) (t : Fin 512) (w : Word) (s : Machine.State), Issues 0x11 l t w s) ∧
    (∃ (l : Fin 8) (t : Fin 512) (w : Word) (s : Machine.State), Issues 0x12 l t w s) ∧
    (∃ (l : Fin 8) (t : Fin 512) (w : Word) (s : Machine.State), Issues 0x13 l t w s) ∧
    (∃ (l : Fin 8) (t : Fin 512) (w : Word) (s : Machine.State), Issues 0x14 l t w s) ∧
    (∃ (l : Fin 8) (t : Fin 512) (w : Word) (s : Machine.State), Issues 0x15 l t w s) :=
  ⟨⟨(7), (511), (0x00000000), (issuing 0x00000000), (by unfold Issues; decide +kernel)⟩,
   ⟨(7), (511), (0x04000000), (issuing 0x04000000), (by unfold Issues; decide +kernel)⟩,
   ⟨(7), (511), (0x08000000), (issuing 0x08000000), (by unfold Issues; decide +kernel)⟩,
   ⟨(7), (511), (0x0C000000), (issuing 0x0C000000), (by unfold Issues; decide +kernel)⟩,
   ⟨(7), (511), (0x10000000), (issuing 0x10000000), (by unfold Issues; decide +kernel)⟩,
   ⟨(7), (511), (0x14000000), (issuing 0x14000000), (by unfold Issues; decide +kernel)⟩,
   ⟨(7), (511), (0x18000000), (issuing 0x18000000), (by unfold Issues; decide +kernel)⟩,
   ⟨(7), (511), (0x1C000000), (issuing 0x1C000000), (by unfold Issues; decide +kernel)⟩,
   ⟨(7), (511), (0x20000000), (issuing 0x20000000), (by unfold Issues; decide +kernel)⟩,
   ⟨(7), (511), (0x24000000), (issuing 0x24000000), (by unfold Issues; decide +kernel)⟩,
   ⟨(7), (511), (0x28000000), (issuing 0x28000000), (by unfold Issues; decide +kernel)⟩,
   ⟨(7), (511), (0x2C000000), (issuing 0x2C000000), (by unfold Issues; decide +kernel)⟩,
   ⟨(7), (511), (0x30000000), (issuing 0x30000000), (by unfold Issues; decide +kernel)⟩,
   ⟨(7), (511), (0x34000000), (issuing 0x34000000), (by unfold Issues; decide +kernel)⟩,
   ⟨(7), (511), (0x38000000), (issuing 0x38000000), (by unfold Issues; decide +kernel)⟩,
   ⟨(7), (511), (0x3C000000), (issuing 0x3C000000), (by unfold Issues; decide +kernel)⟩,
   ⟨(7), (511), (0x40000000), (issuing 0x40000000), (by unfold Issues; decide +kernel)⟩,
   ⟨(7), (511), (0x44000000), (issuing 0x44000000), (by unfold Issues; decide +kernel)⟩,
   ⟨(7), (511), (0x48000000), (issuing 0x48000000), (by unfold Issues; decide +kernel)⟩,
   ⟨(7), (511), (0x4C000000), (issuing 0x4C000000), (by unfold Issues; decide +kernel)⟩,
   ⟨(7), (511), (0x50000000), (issuing 0x50000000), (by unfold Issues; decide +kernel)⟩,
   ⟨(7), (511), (0x54000000), (issuing 0x54000000), (by unfold Issues; decide +kernel)⟩⟩

theorem witness_LaneAccumulatorComplete :
    (∃ (l : Fin 8) (t : Fin 512) (w : Word) (s : Machine.State), Issues 0x18 l t w s ∧ effAddr w s.lanes.lane[l].regs % 4 = 0 ∧
      effAddr w s.lanes.lane[l].regs < 0x18000 ∧ poisonedAt (laneDataAddr l (effAddr w s.lanes.lane[l].regs)) s = false) ∧
    (∃ (l : Fin 8) (t : Fin 512) (w : Word) (s : Machine.State), Issues 0x19 l t w s ∧ effAddr w s.lanes.lane[l].regs % 4 = 0 ∧
      effAddr w s.lanes.lane[l].regs < 0x18000 ∧ poisonedAt (laneDataAddr l (effAddr w s.lanes.lane[l].regs)) s = false) ∧
    (∃ (l : Fin 8) (t : Fin 512) (w : Word) (s : Machine.State), Issues 0x1A l t w s ∧ wordBits w 24 2 = 0) ∧
    (∃ (l : Fin 8) (t : Fin 512) (w : Word) (s : Machine.State), Issues 0x1A l t w s ∧ wordBits w 24 2 = 1) ∧
    (∃ (l : Fin 8) (t : Fin 512) (w : Word) (s : Machine.State), Issues 0x1A l t w s ∧ wordBits w 24 2 = 2) ∧
    (∃ (l : Fin 8) (t : Fin 512) (w : Word) (s : Machine.State), Issues 0x1A l t w s ∧ wordBits w 24 2 = 3) ∧
    (∃ (l : Fin 8) (t : Fin 512) (w : Word) (s : Machine.State), Issues 0x1B l t w s) ∧
    (∃ (l : Fin 8) (t : Fin 512) (w : Word) (s : Machine.State), Issues 0x20 l t w s) ∧
    (∃ (l : Fin 8) (t : Fin 512) (w : Word) (s : Machine.State), Issues 0x21 l t w s) ∧
    (∃ (l : Fin 8) (t : Fin 512) (w : Word) (s : Machine.State), Issues 0x22 l t w s) ∧
    (∃ (l : Fin 8) (t : Fin 512) (w : Word) (s : Machine.State), Issues 0x23 l t w s) ∧
    (∃ (l : Fin 8) (t : Fin 512) (w : Word) (s : Machine.State) (i : Fin 8) (j : Fin 8), Issues 0x24 l t w s ∧
      ((∀ k, k = i ∨ k = j → s.lanes.lane[l].regs.x[k].toNat % 4 = 0 ∧ s.lanes.lane[l].regs.x[k].toNat < 0x18000 ∧ poisonedAt (laneDataAddr l s.lanes.lane[l].regs.x[k].toNat) s = false)) ∧
      i.val = wordBits w 21 3 ∧ j.val = wordBits w 18 3) ∧
    (∃ (l : Fin 8) (t : Fin 512) (w : Word) (s : Machine.State), Issues 0x25 l t w s) ∧
    (∃ (l : Fin 8) (t : Fin 512) (w : Word) (s : Machine.State), Issues 0x26 l t w s) ∧
    (∃ (l : Fin 8) (t : Fin 512) (w : Word) (s : Machine.State), Issues 0x27 l t w s) ∧
    (∃ (l : Fin 8) (t : Fin 512) (w : Word) (s : Machine.State), Issues 0x28 l t w s) ∧
    (∃ (l : Fin 8) (t : Fin 512) (w : Word) (s : Machine.State) (v : Int) (c : Int), Issues 0x29 l t w s ∧
      v = halfEven s.lanes.lane[l].regs.acc[accOf w].toInt (2 ^ (shOf w).toNat) ∧ c = clampInt (-2147483648) 2147483647 v) ∧
    (∃ (l : Fin 8) (t : Fin 512) (w : Word) (s : Machine.State), Issues 0x2A l t w s) :=
  ⟨⟨(7), (511), (0x60000000), (issuing 0x60000000), (by unfold Issues; decide +kernel), by decide +kernel⟩,
   ⟨(7), (511), (0x64000000), (issuing 0x64000000), (by unfold Issues; decide +kernel), by decide +kernel⟩,
   ⟨(7), (511), (0x68000000), (issuing 0x68000000), (by unfold Issues; decide +kernel), by decide +kernel⟩,
   ⟨(7), (511), (0x69000000), (issuing 0x69000000), (by unfold Issues; decide +kernel), by decide +kernel⟩,
   ⟨(7), (511), (0x6A000000), (issuing 0x6A000000), (by unfold Issues; decide +kernel), by decide +kernel⟩,
   ⟨(7), (511), (0x6B000000), (issuing 0x6B000000), (by unfold Issues; decide +kernel), by decide +kernel⟩,
   ⟨(7), (511), (0x6C000000), (issuing 0x6C000000), (by unfold Issues; decide +kernel)⟩,
   ⟨(7), (511), (0x80000000), (issuing 0x80000000), (by unfold Issues; decide +kernel)⟩,
   ⟨(7), (511), (0x84000000), (issuing 0x84000000), (by unfold Issues; decide +kernel)⟩,
   ⟨(7), (511), (0x88000000), (issuing 0x88000000), (by unfold Issues; decide +kernel)⟩,
   ⟨(7), (511), (0x8C000000), (issuing 0x8C000000), (by unfold Issues; decide +kernel)⟩,
   ⟨(7), (511), (0x90000000), (issuing 0x90000000), 0, 0, (by unfold Issues; decide +kernel),
    (by intro k hk; obtain rfl : k = 0 := (by rcases hk with h | h <;> exact h); decide +kernel), by decide +kernel⟩,
   ⟨(7), (511), (0x94000000), (issuing 0x94000000), (by unfold Issues; decide +kernel)⟩,
   ⟨(7), (511), (0x98000000), (issuing 0x98000000), (by unfold Issues; decide +kernel)⟩,
   ⟨(7), (511), (0x9C000000), (issuing 0x9C000000), (by unfold Issues; decide +kernel)⟩,
   ⟨(7), (511), (0xA0000000), (issuing 0xA0000000), (by unfold Issues; decide +kernel)⟩,
   ⟨(7), (511), (0xA4000000), (issuing 0xA4000000), _, _, (by unfold Issues; decide +kernel), rfl, rfl⟩,
   ⟨(7), (511), (0xA8000000), (issuing 0xA8000000), (by unfold Issues; decide +kernel)⟩⟩

theorem witness_LaneControlComplete :
    (∃ (l : Fin 8) (t : Fin 512) (w : Word) (s : Machine.State), Issues 0x30 l t w s) ∧
    (∃ (l : Fin 8) (t : Fin 512) (w : Word) (s : Machine.State), Issues 0x31 l t w s) ∧
    (∃ (l : Fin 8) (t : Fin 512) (w : Word) (s : Machine.State), Issues 0x32 l t w s) ∧
    (∃ (l : Fin 8) (t : Fin 512) (w : Word) (s : Machine.State), Issues 0x33 l t w s) ∧
    (∃ (l : Fin 8) (t : Fin 512) (w : Word) (s : Machine.State), Issues 0x34 l t w s) ∧
    (∃ (l : Fin 8) (t : Fin 512) (w : Word) (s : Machine.State), Issues 0x35 l t w s) ∧
    (∃ (l : Fin 8) (t : Fin 512) (w : Word) (s : Machine.State), Issues 0x36 l t w s) ∧
    (∃ (l : Fin 8) (t : Fin 512) (w : Word) (s : Machine.State), Issues 0x37 l t w s ∧ repCount w s.lanes.lane[l].regs ≠ 0) ∧
    (∃ (l : Fin 8) (t : Fin 512) (w : Word) (s : Machine.State), Issues 0x38 l t w s ∧
      (endThread t (passStep l s)).lanes.lane[l].thread = none) ∧
    (∃ (l : Fin 8) (t : Fin 512) (w : Word) (s : Machine.State), Issues 0x39 l t w s) ∧
    (∃ (l : Fin 8) (t : Fin 512) (w : Word) (s : Machine.State), Issues 0x3A l t w s) :=
  ⟨⟨(7), (511), (0xC0000000), (issuing 0xC0000000), (by unfold Issues; decide +kernel)⟩,
   ⟨(7), (511), (0xC4000000), (issuing 0xC4000000), (by unfold Issues; decide +kernel)⟩,
   ⟨(7), (511), (0xC8000000), (issuing 0xC8000000), (by unfold Issues; decide +kernel)⟩,
   ⟨(7), (511), (0xCC000000), (issuing 0xCC000000), (by unfold Issues; decide +kernel)⟩,
   ⟨(7), (511), (0xD0000000), (issuing 0xD0000000), (by unfold Issues; decide +kernel)⟩,
   ⟨(7), (511), (0xD4000000), (issuing 0xD4000000), (by unfold Issues; decide +kernel)⟩,
   ⟨(7), (511), (0xD8000000), (issuing 0xD8000000), (by unfold Issues; decide +kernel)⟩,
   ⟨(7), (511), (0xDC000000), (issuing 0xDC000000), (by unfold Issues; decide +kernel), by decide +kernel⟩,
   ⟨(7), (511), (0xE0000000), (issuing 0xE0000000), (by unfold Issues; decide +kernel), end_leaves_idle⟩,
   ⟨(7), (511), (0xE4000000), (issuing 0xE4000000), (by unfold Issues; decide +kernel)⟩,
   ⟨(7), (511), (0xE8000000), (issuing 0xE8000000), (by unfold Issues; decide +kernel)⟩⟩

theorem witness_FrontCommandRuns :
    (∃ (c : Instr) (l : List Instr) (s : Machine.State), s.pending = c :: l) ∧
    (∃ (s : Machine.State), s.pending = []) ∧
    (∃ (s : Machine.State), s.pending = [] ∧ s.sys.dev ≠ .reset) :=
  ⟨⟨.resetEntry, [], { com with pending := [.resetEntry] }, by decide +kernel⟩,
   ⟨com, by decide +kernel⟩,
   ⟨com, by decide +kernel⟩⟩

theorem witness_EveryCommandAnswersNext :
    ∃ (c : Instr) (o : Op) (rq : Request) (s : Machine.State), commandOf c = some (o, rq) ∧ Ready o rq s :=
  ⟨(.ping (ask 0xFFFF [])), opPing, (ask 0xFFFF []), com, rfl, ready (by decide +kernel)⟩

theorem witness_CommandFrames :
    ∃ (c : Instr) (s : Machine.State) (t : Machine.State) (b : Block), exec c s = .next t ∧ (changes c).contains b = false :=
  ⟨.acqHoldoffEnd, com, com, .lodge, rfl, by decide +kernel⟩

theorem witness_GoodKept :
    ∃ (s : Machine.State) (t : Machine.State), s.Good ∧ step s = .next t :=
  ⟨com, (idle com), com_good, rfl⟩

theorem witness_MemoriesReadBack :
    (∃ (c : Fin 6) (a : Nat) (w : Word) (s : Machine.State) (t : Machine.State), s.integ.Ok ∧ exec (.registerWrite c a 4 w) s = .next t ∧
      contextDead c s = false ∧ a < 0x1800000 ∧ check c false true a 4 s = .pass ∧ poisonedAt a s = false) ∧
    (∃ (l : Fin 8) (a : Nat) (s : Machine.State), s.lanes.Ok ∧ a % 4 = 0 ∧ a < 0x18000 ∧ poisonedAt (laneDataAddr l a) s = false) ∧
    (∃ (m : List Host.Cell), Memory.wf 0xFF m = true) ∧
    (∃ (m : List Host.Cell), Memory.wf 0xFF m = true) :=
  ⟨⟨0, 0x17FFFFC, 7, com, (accessWrite 0 0x17FFFFC 4 7 com), com_good.2.1, rfl, by decide +kernel⟩,
   ⟨7, 0x17FFC, com, com_good.2.2.2.1, by decide +kernel⟩,
   ⟨[(1, 0x3C), (2, 0)], by decide +kernel⟩,
   ⟨[(1, 0x3C), (2, 0)], by decide +kernel⟩⟩

theorem witness_RefusalsLeaveNoEffect :
    (∃ (c : Instr) (o : Op) (rq : Request) (s : Machine.State), commandOf c = some (o, rq) ∧ targetBusy o.opcode rq s = false ∧
      s.pkts.blocked.any (waitsBehind o.opcode rq) = false) ∧
    (∃ (c : Instr) (o : Op) (rq : Request) (s : Machine.State), commandOf c = some (o, rq) ∧
      ((∃ d, refusal o rq s = some d) ∨ (refusal o rq s = none ∧ forbidden o rq s = none ∧ ((∃ d, o.effect rq s = .deny d) ∨ rq.toe ≠ 0 ∧ 256 ≤ s.pkts.pending.length))) ∧
      targetBusy o.opcode rq s = false ∧ s.pkts.blocked.any (waitsBehind o.opcode rq) = false) ∧
    (∃ (c : Instr) (o : Op) (rq : Request) (s : Machine.State), commandOf c = some (o, rq) ∧
      (rq.toe = 0 ∨ (forbidden o rq s).isSome = true) ∧ targetBusy o.opcode rq s = false ∧
      s.pkts.blocked.any (waitsBehind o.opcode rq) = false ∧ refusal o rq s = none) :=
  ⟨⟨(.ping ({ ask 0xFFFF [] with params := [0] })), opPing, { ask 0xFFFF [] with params := [0] }, com, rfl, by decide +kernel⟩,
   ⟨(.ping ({ ask 0xFFFF [] with params := [0] })), opPing, { ask 0xFFFF [] with params := [0] }, com, rfl,
    (Or.inl (Option.isSome_iff_exists.1 (by decide +kernel))), by decide +kernel⟩,
   ⟨(.ping (ask 0xFFFF [])), opPing, (ask 0xFFFF []), com, rfl, (Or.inl rfl), by decide +kernel⟩⟩

theorem witness_DuplicatesExecuteNothing :
    ∃ (src : Source) (p : List Byte) (s : Machine.State) (w : Window) (e : Seen) (r : List Byte), src ≠ .hostPort ∧ ruhityServed s = true ∧
      asleep s = false ∧ s.power.refLost = false ∧ s.sys.dev ≠ .reset ∧ ((s.sys.dev = .startup → s.boot.haltCause = 3)) ∧
      lockedOut src s = false ∧ 24 ≤ p.length ∧ pktField p 0 2 = 0x4B5A ∧ pktFlag p 1 = false ∧ pktField p 2 1 = 1 ∧ pktField p 12 2 ≤ 1432 ∧
      pktLength p = p.length ∧ pktFlag p 0 = false ∧ pktFlag p 3 = false ∧ windowOf src s = some w ∧
      (w.h - BitVec.ofNat 32 (pktField p 4 4)).toNat ≤ 63 ∧ w.seen.find? (fun e => e.seq == BitVec.ofNat 32 (pktField p 4 4)) = some e ∧
      e.opcode = pktField p 8 2 ∧ e.tag = BitVec.ofNat 16 (pktField p 14 2) ∧ e.reply = some r :=
  ⟨(.udp 0 0), (be 4 0x4B5A0100 ++ be 4 5 ++ be 4 0x00010000 ++ be 12 0),
   { com with pkts := { com.pkts with windows := [{ src := .udp 0 0, h := 68, seen := [{ seq := 5, opcode := 1, reply := some [] }] }] } },
   { src := .udp 0 0, h := 68, seen := [{ seq := 5, opcode := 1, reply := some [] }] }, { seq := 5, opcode := 1, reply := some [] }, [],
   by decide +kernel⟩

theorem witness_DroppedPacketsAreCounted :
    (∃ (src : Source) (s : Machine.State), src ≠ .hostPort ∧ ruhityServed s = true ∧ asleep s = false ∧ s.power.refLost = false ∧
      s.sys.dev ≠ .reset ∧ ((s.sys.dev = .startup → s.boot.haltCause = 3))) ∧
    (∃ (src : Source) (s : Machine.State), src ≠ .hostPort ∧ ruhityServed s = true ∧ asleep s = false ∧ s.power.refLost = false ∧
      s.sys.dev ≠ .reset ∧ ((s.sys.dev = .startup → s.boot.haltCause = 3))) ∧
    (∃ (src : Source) (s : Machine.State), src ≠ .hostPort ∧ ruhityServed s = true ∧ asleep s = false ∧ s.power.refLost = false ∧
      s.sys.dev ≠ .reset ∧ ((s.sys.dev = .startup → s.boot.haltCause = 3)) ∧ lockedOut src s = true) ∧
    (∃ (src : Source) (p : List Byte) (s : Machine.State), src ≠ .hostPort ∧ ruhityServed s = true ∧ asleep s = false ∧
      s.power.refLost = false ∧ s.sys.dev ≠ .reset ∧ ((s.sys.dev = .startup → s.boot.haltCause = 3)) ∧ lockedOut src s = false ∧ p.length < 24) ∧
    (∃ (src : Source) (p : List Byte) (s : Machine.State), src ≠ .hostPort ∧ ruhityServed s = true ∧ asleep s = false ∧
      s.power.refLost = false ∧ s.sys.dev ≠ .reset ∧ ((s.sys.dev = .startup → s.boot.haltCause = 3)) ∧ lockedOut src s = false ∧
      24 ≤ p.length ∧ pktField p 0 2 ≠ 0x4B5A) ∧
    (∃ (src : Source) (p : List Byte) (s : Machine.State), src ≠ .hostPort ∧ ruhityServed s = true ∧ asleep s = false ∧
      s.power.refLost = false ∧ s.sys.dev ≠ .reset ∧ ((s.sys.dev = .startup → s.boot.haltCause = 3)) ∧ lockedOut src s = false ∧
      24 ≤ p.length ∧ pktField p 0 2 = 0x4B5A ∧ pktFlag p 1 = true) ∧
    (∃ (src : Source) (p : List Byte) (s : Machine.State), src ≠ .hostPort ∧ ruhityServed s = true ∧ asleep s = false ∧
      s.power.refLost = false ∧ s.sys.dev ≠ .reset ∧ ((s.sys.dev = .startup → s.boot.haltCause = 3)) ∧ lockedOut src s = false ∧
      24 ≤ p.length ∧ pktField p 0 2 = 0x4B5A ∧ pktFlag p 1 = false ∧ pktField p 8 2 ≠ 1 ∧ pktField p 8 2 ≠ 2) ∧
    (∃ (t : Nat) (p : List Byte) (l : List (Nat × List Byte)) (s : Machine.State), s.pkts.inbox = (t, p) :: l ∧ ruhityServed s = true ∧
      asleep s = false ∧ s.pkts.outbox.length < 16 ∧ s.serial.held = []) ∧
    (∃ (t : Nat) (p : List Byte) (l : List (Nat × List Byte)) (s : Machine.State), s.pkts.inbox = (t, p) :: l ∧ ruhityServed s = true ∧
      asleep s = false ∧ s.pkts.outbox.length < 16 ∧ s.serial.held = [] ∧ lockedOut .hostPort s = true) ∧
    (∃ (t : Nat) (p : List Byte) (l : List (Nat × List Byte)) (s : Machine.State), s.pkts.inbox = (t, p) :: l ∧ ruhityServed s = true ∧
      asleep s = false ∧ s.pkts.outbox.length < 16 ∧ s.serial.held = [] ∧ lockedOut .hostPort s = false ∧ p.length < 24) ∧
    (∃ (t : Nat) (p : List Byte) (l : List (Nat × List Byte)) (s : Machine.State), s.pkts.inbox = (t, p) :: l ∧ ruhityServed s = true ∧
      asleep s = false ∧ s.pkts.outbox.length < 16 ∧ s.serial.held = [] ∧ lockedOut .hostPort s = false ∧ 24 ≤ p.length ∧
      pktField p 0 2 ≠ 0x4B5A) ∧
    (∃ (t : Nat) (p : List Byte) (l : List (Nat × List Byte)) (s : Machine.State), s.pkts.inbox = (t, p) :: l ∧ ruhityServed s = true ∧
      asleep s = false ∧ s.pkts.outbox.length < 16 ∧ s.serial.held = [] ∧ lockedOut .hostPort s = false ∧ 24 ≤ p.length ∧
      pktField p 0 2 = 0x4B5A ∧ pktFlag p 1 = true) :=
  ⟨⟨(.udp 0 0), com, by decide +kernel⟩,
   ⟨(.udp 0 0), com, by decide +kernel⟩,
   ⟨(.udp 0 0), { com with pkts := { com.pkts with lockouts := [(.udp 0 0, 0)] } }, by decide +kernel⟩,
   ⟨(.udp 0 0), (List.replicate 23 0), com, by decide +kernel⟩,
   ⟨(.udp 0 0), (List.replicate 24 0), com, by decide +kernel⟩,
   ⟨(.udp 0 0), (be 4 0x4B5A0102 ++ be 20 0), com, by decide +kernel⟩,
   ⟨(.udp 0 0), (be 4 0x4B5A0100 ++ be 20 0), com, by decide +kernel⟩,
   ⟨0, [], [], { com with pkts := { com.pkts with inbox := [(0, [])] } }, by decide +kernel⟩,
   ⟨0, [], [], { com with pkts := { com.pkts with inbox := [(0, [])], lockouts := [(.hostPort, 0)] } }, by decide +kernel⟩,
   ⟨0, (List.replicate 23 0), [], { com with pkts := { com.pkts with inbox := [(0, List.replicate 23 0)] } }, by decide +kernel⟩,
   ⟨0, (List.replicate 24 0), [], { com with pkts := { com.pkts with inbox := [(0, List.replicate 24 0)] } }, by decide +kernel⟩,
   ⟨0, (be 4 0x4B5A0102 ++ be 20 0), [], { com with pkts := { com.pkts with inbox := [(0, be 4 0x4B5A0102 ++ be 20 0)] } },
    by decide +kernel⟩⟩

theorem witness_WrongSizesAreErrors :
    (∃ (c : Fin 6) (a : Nat) (n : Nat) (s : Machine.State), contextDead c s = false ∧ (n = 1 ∨ n = 2 ∨ a % 4 ≠ 0)) ∧
    (∃ (c : Fin 6) (a : Nat) (s : Machine.State), contextDead c s = false ∧ a % 4 ≠ 0) :=
  ⟨⟨5, 0, 1, com, by decide +kernel⟩,
   ⟨5, 1, com, by decide +kernel⟩⟩

theorem witness_ContextsAreIsolated :
    (∃ (c : Fin 6) (d : Fin 6) (s : Machine.State) (t : Machine.State), ((∃ a n, exec (.rcRegisterRead c a n) s = .next t) ∨ (∃ a n v, exec (.registerWrite c a n v) s = .next t) ∨ (∃ a, exec (.wideLowRead c a) s = .next t ∨ exec (.wideHighRead c a) s = .next t ∨ exec (.xipRead c a) s = .next t) ∨ (∃ a v, exec (.wideLowWrite c a v) s = .next t ∨ exec (.wideHighWrite c a v) s = .next t ∨ exec (.xipWrite c a v) s = .next t) ∨ exec (.indDataRead c) s = .next t ∨ (∃ v, exec (.indDataWrite c v) s = .next t ∨ exec (.indAddrWrite c v) s = .next t ∨ exec (.indCtrlWrite c v) s = .next t ∨ exec (.updStrobeWrite c v) s = .next t) ∨ exec (.indAccessTimeout c) s = .next t ∨ exec (.xipReadTimeout c) s = .next t ∨ (∃ g v, exec (.fioDoWrite c g v) s = .next t)) ∧
      d ≠ c) ∧
    (∃ (c : Fin 6) (s : Machine.State), contextDead c s = false) ∧
    (∃ (c : Fin 6) (s : Machine.State), contextDead c s = false ∧ votedAt 0x40000100 s = false ∧ mayAccess c false 0x40000100 s = true) ∧
    (∃ (c : Fin 6) (s : Machine.State), contextDead c s = false ∧ votedAt 0x40000108 s = false ∧ mayAccess c false 0x40000108 s = true) :=
  ⟨⟨5, 4, com, (indTimeout 5 com), (.inr (.inr (.inr (.inr (.inr (.inr (.inl rfl))))))), by decide +kernel⟩,
   ⟨5, com, by decide +kernel⟩,
   ⟨5, com, by decide +kernel⟩,
   ⟨5, com, by decide +kernel⟩⟩

theorem witness_WriteFramesAreAllOrNothing :
    (∃ (addr : Nat) (ws : List Word) (s : Machine.State), s.sys.dev ≠ .reset ∧ s.power.refLost = false ∧ asleep s = false ∧ addr % 4 = 0 ∧
      1 ≤ ws.length ∧ ws.length ≤ 256) ∧
    (∃ (addr : Nat) (ws : List Word) (fin : FrameEnd) (n : Nat) (s : Machine.State), (fin = .whole ∧ n = 0 ∨ fin = .extra n) ∧
      s.sys.dev ≠ .reset ∧ s.power.refLost = false ∧ asleep s = false ∧ addr % 4 = 0 ∧ 1 ≤ ws.length ∧ ws.length ≤ 256) ∧
    (∃ (addr : Nat) (ws : List Word) (fin : FrameEnd) (n : Nat) (s : Machine.State), (fin = .whole ∧ n = 0 ∨ fin = .extra n) ∧
      ((∀ k, k < ws.length → wordDenied (addr + 4 * k) s = false)) ∧ s.sys.dev ≠ .reset ∧ s.power.refLost = false ∧ asleep s = false ∧
      addr % 4 = 0 ∧ 1 ≤ ws.length ∧ ws.length ≤ 256) ∧
    (∃ (addr : Nat) (ws : List Word) (fin : FrameEnd) (n : Nat) (s : Machine.State), (fin = .whole ∧ n = 0 ∨ fin = .extra n) ∧
      ((∀ j, j < 0 → wordDenied (addr + 4 * j) s = false)) ∧ s.sys.dev ≠ .reset ∧ s.power.refLost = false ∧ asleep s = false ∧ addr % 4 = 0 ∧
      1 ≤ ws.length ∧ ws.length ≤ 256 ∧ 0 < ws.length ∧ wordDenied (addr + 4 * 0) s = true) :=
  ⟨⟨0x40000000, [0], com, by decide +kernel⟩,
   ⟨0x40000000, (List.replicate 256 0), (.extra 3), 3, com, (Or.inr rfl), by decide +kernel⟩,
   ⟨0x40000000, [0], .whole, 0, com, (Or.inl ⟨rfl, rfl⟩), (by intro k hk; obtain rfl : k = 0 := (by simpa using hk); decide +kernel),
    by decide +kernel⟩,
   ⟨0x30000000, [0], .whole, 0, com, (Or.inl ⟨rfl, rfl⟩), (fun _ h => absurd h (Nat.not_lt_zero _)), by decide +kernel⟩⟩

theorem witness_PacketFrames :
    (∃ (b : List Byte) (fin : FrameEnd) (n : Nat) (s : Machine.State), (fin = .whole ∧ n = 0 ∨ fin = .extra n) ∧ s.sys.dev ≠ .reset ∧
      s.power.refLost = false ∧ asleep s = false ∧ 24 ≤ b.length ∧ b.length ≤ 1472 ∧ s.pkts.inbox.length < 8) ∧
    (∃ (len : Nat) (fin : FrameEnd) (n : Nat) (s : Machine.State) (p : List Byte), (fin = .whole ∧ n = 0 ∨ fin = .extra n) ∧
      p = s.pkts.outbox.headD [] ∧ s.sys.dev ≠ .reset ∧ s.power.refLost = false ∧ asleep s = false ∧ 2 ≤ len ∧ len ≤ 1474 ∧ len % 2 = 0) ∧
    (∃ (len : Nat) (s : Machine.State), s.sys.dev ≠ .reset ∧ s.power.refLost = false ∧ asleep s = false ∧ 2 ≤ len ∧ len ≤ 1474 ∧ len % 2 = 0) ∧
    (∃ (len : Nat) (fin : FrameEnd) (n : Nat) (s : Machine.State) (p : List Byte), (fin = .whole ∧ n = 0 ∨ fin = .extra n) ∧
      p = s.pkts.outbox.headD [] ∧ s.sys.dev ≠ .reset ∧ s.power.refLost = false ∧ asleep s = false ∧ 2 ≤ len ∧ len ≤ 1474 ∧ len % 2 = 0 ∧
      p.length ≤ len - 2 ∧ s.pkts.outbox ≠ []) ∧
    (∃ (len : Nat) (fin : FrameEnd) (n : Nat) (s : Machine.State) (p : List Byte), (fin = .whole ∧ n = 0 ∨ fin = .extra n) ∧
      p = s.pkts.outbox.headD [] ∧ s.sys.dev ≠ .reset ∧ s.power.refLost = false ∧ asleep s = false ∧ 2 ≤ len ∧ len ≤ 1474 ∧ len % 2 = 0 ∧
      len - 2 < p.length) :=
  ⟨⟨(List.replicate 1472 0), .whole, 0, com, (Or.inl ⟨rfl, rfl⟩), by decide +kernel⟩,
   ⟨2, (.extra 1), 1, com, _, (Or.inr rfl), rfl, by decide +kernel⟩,
   ⟨1474, com, by decide +kernel⟩,
   ⟨4, .whole, 0, { com with pkts := { com.pkts with outbox := [[1, 2]] } }, _, (Or.inl ⟨rfl, rfl⟩), rfl, by decide +kernel⟩,
   ⟨2, .whole, 0, { com with pkts := { com.pkts with outbox := [[1, 2]] } }, _, (Or.inl ⟨rfl, rfl⟩), rfl, by decide +kernel⟩⟩

end Sys2Proof.Tests
end

/-! SUPPORT.
A broadcast datagram that the device drops: what the model changes beside the count (R75, R76, 04). -/

namespace Sys2Proof.Machine

/-- Where the packet behind it sends nothing, `delayed` leaves the queues as they are and still draws a delay: the next free value
is used up (log entries 6 and 36). -/
theorem delayed_of_no_reply {f : State → State} {s : State} (hsent : (f s).pkts.udpOut = s.pkts.udpOut) :
    delayed f s = (f s).onSys fun y => { y with free := y.free + 1 } := by
  simp [delayed, freshNat, fresh, State.onPkts, State.onSys, ← hsent]

/-- A broadcast request of an opcode other than PING and GET_INFO is counted as such (R76). -/
theorem takePacket_of_otherOpcode {src : Source} {p : List Byte} {s : State} (arrival : Nat) (hlock : lockedOut src s = false)
    (hlen : 24 ≤ p.length) (hmagic : pktField p 0 2 = 0x4B5A) (hreply : pktFlag p 1 = false) (hping : pktField p 8 2 ≠ 1)
    (hinfo : pktField p 8 2 ≠ 2) :
    takePacket src true arrival p s = s.onPkts fun x => { x with dropBroadcast := bump x.dropBroadcast 1 } := by
  simp [takePacket, dropped, hlock, Nat.not_lt.mpr hlen, hmagic, hreply, hping, hinfo]

section Served

variable {src : Source} {s : State} (hsrc : src ≠ .hostPort) (hserved : ruhityServed s = true) (hawake : asleep s = false)
  (href : s.power.refLost = false) (hdev : s.sys.dev ≠ .reset) (hhalt : s.sys.dev = .startup → s.boot.haltCause = 3)
include hsrc hserved hawake href hdev hhalt

/-- Awake, served and with the reference present, a datagram is taken at once, after Startup as in a loader's halt (R58, R75). -/
theorem exec_ruhityDatagram_of_served (broadcast fragment checksumOk : Bool) (p : List Byte) :
    exec (.ruhityDatagram src broadcast fragment checksumOk p) s = .next (takeDatagram
      { src := src, broadcast := broadcast, fragment := fragment, checksumOk := checksumOk, bytes := p, arrived := s.wall } s) := by
  have hopen : ¬(s.sys.dev = .reset ∨ (s.sys.dev = .startup ∧ !(halted s ∧ s.boot.haltCause = 3))) := by
    rintro (hreset | ⟨hstart, hclosed⟩)
    · exact hdev hreset
    · have hhalted : halted s = true := by simpa [ruhityServed, afterStartup, hstart] using hserved
      simp [hhalted, hhalt hstart] at hclosed
  change execRuhityDatagram src broadcast fragment checksumOk p s = _
  simp only [execRuhityDatagram, href, hsrc, hopen, hawake, hserved, Bool.false_eq_true, Bool.not_true, if_false]

/-- A broadcast that sends no reply, as one that is dropped, advances the counter of free values beside its own effect. -/
theorem exec_broadcast_of_no_reply {p : List Byte}
    (hsent : (takePacket src true s.wall p s).pkts.udpOut = s.pkts.udpOut) :
    exec (.ruhityDatagram src true false true p) s =
      .next ((takePacket src true s.wall p s).onSys fun y => { y with free := y.free + 1 }) := by
  rw [exec_ruhityDatagram_of_served hsrc hserved hawake href hdev hhalt, ← delayed_of_no_reply hsent]
  rfl

/-- A dropped broadcast of another opcode adds 1 to its count and advances the counter of free values. -/
theorem exec_broadcast_of_otherOpcode {p : List Byte} (hlock : lockedOut src s = false) (hlen : 24 ≤ p.length)
    (hmagic : pktField p 0 2 = 0x4B5A) (hreply : pktFlag p 1 = false) (hping : pktField p 8 2 ≠ 1) (hinfo : pktField p 8 2 ≠ 2) :
    exec (.ruhityDatagram src true false true p) s = .next
      ((s.onPkts fun x => { x with dropBroadcast := bump x.dropBroadcast 1 }).onSys fun y => { y with free := y.free + 1 }) := by
  have htake := takePacket_of_otherOpcode s.wall hlock hlen hmagic hreply hping hinfo
  rw [exec_broadcast_of_no_reply hsrc hserved hawake href hdev hhalt (by rw [htake, State.onPkts_pkts]), htake]

end Served

/-- The part in Commissioning with Gardener running: awake, served and with the reference present. -/
def servedState : State :=
  { State.reset with
    sys := { State.reset.sys with dev := .commissioning }
    boot := { State.reset.boot with gardenerRuns := true } }

/-- A request of opcode 0x0003 (CANCEL) with flags 0, sequence 1 and no parameters. -/
def cancelPacket : List Byte := be 4 0x4B5A0100 ++ be 4 1 ++ be 4 0x00030000 ++ be 12 0

/-- Refutes O56: dropping a datagram sent to the broadcast address changes more than its count. `delayed` draws the delay of a reply
whether or not there is one, so the counter of free values, `sys.free`, advances too. Here a broadcast CANCEL in Commissioning is
counted in `dropBroadcast` and takes `sys.free` from 0 to 1. The clauses of lock-out, short, magic and REPLY fail in the same way
for a broadcast (`exec_broadcast_of_no_reply`). -/
theorem not_droppedPacketsAreCounted : ¬ Obligations.DroppedPacketsAreCounted := by
  unfold Obligations.DroppedPacketsAreCounted
  rintro ⟨-, -, -, -, -, -, hbroadcast, -⟩
  have hsrc : Source.udp 0 0 ≠ .hostPort := by decide
  obtain ⟨hserved, hawake, href, hdev, hhalt, hlock⟩ : ruhityServed servedState = true ∧ asleep servedState = false ∧
      servedState.power.refLost = false ∧ servedState.sys.dev ≠ .reset ∧
      (servedState.sys.dev = .startup → servedState.boot.haltCause = 3) ∧ lockedOut (.udp 0 0) servedState = false := by decide
  obtain ⟨hlen, hmagic, hreply, hping, hinfo⟩ : 24 ≤ cancelPacket.length ∧ pktField cancelPacket 0 2 = 0x4B5A ∧
      pktFlag cancelPacket 1 = false ∧ pktField cancelPacket 8 2 ≠ 1 ∧ pktField cancelPacket 8 2 ≠ 2 := by
    decide
  have hmodel := exec_broadcast_of_otherOpcode hsrc hserved hawake href hdev hhalt hlock hlen hmagic hreply hping hinfo
  have hclaim := hbroadcast _ _ _ hsrc hserved hawake href hdev hhalt hlock hlen hmagic hreply hping hinfo
  have hsame := Host.Outcome.next.inj (hmodel.symm.trans hclaim)
  have hfree : servedState.sys.free + 1 = servedState.sys.free := congrArg (fun t => t.sys.free) hsame
  omega

end Sys2Proof.Machine

/-! SUPPORT.
The six contexts: what an access of one context can change, and its access errors (R100, R102, R104 to R108, R120, 05). -/

namespace Sys2Proof.Machine

/-! What a change of one context leaves. -/

theorem onCtx_ctx_same (c : Fin 6) (f : Ctx → Ctx) (s : State) : (onCtx c f s).sys.ctx[c] = f s.sys.ctx[c] :=
  upd_same s.sys.ctx c f

theorem onCtx_ctx_other {c d : Fin 6} (hne : d ≠ c) (f : Ctx → Ctx) (s : State) : (onCtx c f s).sys.ctx[d] = s.sys.ctx[d] :=
  upd_other s.sys.ctx c d f hne.symm

/-- Two changes of one context are one. -/
theorem onCtx_onCtx (c : Fin 6) (f g : Ctx → Ctx) (s : State) : onCtx c g (onCtx c f s) = onCtx c (fun k => g (f k)) s := by
  simp [onCtx, State.onSys, upd]

/-! Access errors (R100, R120). -/

/-- The check of the size comes first. -/
theorem check_of_wrongSize {c : Fin 6} {ind write : Bool} {a n : Nat} {s : State} (hsize : n = 1 ∨ n = 2 ∨ a % 4 ≠ 0) :
    check c ind write a n s = .error .size := by
  have hwrong : n ≠ 4 ∨ a % 4 ≠ 0 := by omega
  exact if_pos hwrong

/-- A read that fails its checks with an access error delivers 0 and is recorded. -/
theorem accessRead_of_error {c : Fin 6} {a n : Nat} {s : State} {e : AccessError} (hlive : contextDead c s = false)
    (hcheck : check c false false a n s = .error e) :
    accessRead c a n s = handWord c 0 (accessError c e false a s) := by
  simp [accessRead, failCheck, hlive, hcheck]

/-- A write that fails its checks with an access error is recorded and does nothing else. -/
theorem accessWrite_of_error {c : Fin 6} {a n : Nat} {v : Word} {s : State} {e : AccessError} (hlive : contextDead c s = false)
    (hcheck : check c false true a n s = .error e) : accessWrite c a n v s = accessError c e true a s := by
  simp [accessWrite, failCheck, hlive, hcheck]

/-- Settles O57: the check of the size comes before every other, and what it leaves is one change of the context. -/
theorem wrongSizesAreErrors : Obligations.WrongSizesAreErrors := by
  unfold Obligations.WrongSizesAreErrors
  refine ⟨fun c a n v s hlive hsize => ⟨?_, ?_⟩, fun c a v s _ _ => ⟨rfl, rfl, rfl, rfl, rfl, rfl⟩⟩
  · change Host.Outcome.next (accessRead c a n s) = _
    rw [accessRead_of_error hlive (check_of_wrongSize hsize), handWord, accessError, onCtx_onCtx]
    rfl
  · change Host.Outcome.next (accessWrite c a n v s) = _
    rw [accessWrite_of_error hlive (check_of_wrongSize hsize)]
    rfl

/-! What an access of one context keeps. -/

/-- P is kept by changes to every block but the contexts, and to one context of the six. The laws of Laws/KeepAccess ask for a P that
every change of the contexts keeps, which what another context holds is not; for such a P the functions that reach a context have
the laws below. -/
structure KeepsOwn (c : Fin 6) (P : State → Prop) : Prop where
  blocks : Keeps (.sram :: opBlocks) P
  own : ∀ {f : Ctx → Ctx} {s : State}, P s → P (onCtx c f s)

/-- Changes to other blocks than the contexts keep whatever is said of the contexts alone. -/
theorem keeps_of_contexts {bs : List Block} (hctx : bs.contains .ctx = false) (Q : Vector Ctx 6 → Prop) :
    Keeps bs fun t => Q t.sys.ctx := by
  constructor
  case onCtx => intro hin; rw [hctx] at hin; cases hin
  case onSys => intro _ t f _ hsame _ ht; exact (congrArg Q hsame).mpr ht
  case onDev => intro _ t f hsame _ ht; exact (congrArg Q hsame).mpr ht
  all_goals intros; assumption

/-- What another context holds is kept. -/
theorem keepsOwn_ctx_other {c d : Fin 6} (hne : d ≠ c) (k : Ctx) : KeepsOwn c fun t => t.sys.ctx[d] = k where
  blocks := keeps_of_contexts rfl fun v => v[d] = k
  own h := (onCtx_ctx_other hne _ _).trans h

namespace KeepsOwn

variable {c : Fin 6} {P : State → Prop} {s : State} (K : KeepsOwn c P) (h : P s)
include K h

/-! Registers (RegWrite, Access). -/

theorem writeSys (a : Nat) (w : Word) : P (writeSys c a w s) := by
  unfold Machine.writeSys
  split
  · exact K.own h
  · exact K.own h
  · exact writeStrobe_keeps (K.blocks.sub rfl) h
  · exact K.blocks.onSys rfl _ _ rfl rfl rfl h
  · exact h

/-- Of the regions only the system region holds registers of the contexts. -/
theorem writeRegister (a : Nat) (w : Word) : P (writeRegister c a w s) := by
  unfold Machine.writeRegister
  split
  · exact K.writeSys h a w
  · exact keep_ite (writePlan_keeps (K.blocks.sub rfl) h) (writeGear_keeps (K.blocks.sub rfl) h)
  · exact writeLoop_keeps (K.blocks.sub rfl) h
  · exact writePort_keeps (K.blocks.sub rfl) h
  · exact writeBta_keeps (K.blocks.sub rfl) h
  · exact writeNet_keeps (K.blocks.sub rfl) h
  · exact writeCan_keeps (K.blocks.sub rfl) h
  · exact writeSerial_keeps (K.blocks.sub rfl) h
  · exact writeAcq_keeps (K.blocks.sub rfl) h
  · exact writeLanes_keeps (K.blocks.sub rfl) h
  · exact writeLanes_keeps (K.blocks.sub rfl) h
  · exact writeFio_keeps (K.blocks.sub rfl) h
  · exact h

theorem clearOnRead (a : Nat) (w : Word) : P (clearOnRead c a w s) := by
  unfold Machine.clearOnRead
  refine keep_ite (K.own h) (keep_ite (K.blocks.onAcq rfl _ _ h) (keep_ite (K.blocks.onAcq rfl _ _ h)
    (keep_ite (K.blocks.onInteg rfl _ _ id rfl h) (keep_ite (K.blocks.onInteg rfl _ _ id rfl h) ?_))))
  split
  · exact onThr_keeps (K.blocks.sub rfl) h
  · split
    · exact keep_ite (onLoopSt_keeps (K.blocks.sub rfl) h) h
    · exact h

theorem readRegister (a : Nat) : P (readRegister c a s).2 := by
  have hvoted : P (voteRead (registerOf a) (if openRegister (registerOf a) then (fresh s).2 else s)) :=
    voteRead_keeps (K.blocks.sub rfl) (keep_ite (fresh_keeps (K.blocks.sub rfl) h) h)
  unfold Machine.readRegister
  dsimp only
  split
  · exact countPoison_keeps (K.blocks.sub rfl) h
  · split
    · exact hvoted
    · exact K.own hvoted
    · split
      · split
        · exact K.own hvoted
        · exact hvoted
      · exact hvoted
    · exact hvoted
    · exact hvoted

theorem writeWord (a : Nat) (w : Word) : P (writeWord c a w s) := by
  unfold Machine.writeWord
  dsimp only
  split
  · exact K.own h
  · split
    · exact keep_ite (K.own h) (K.own h)
    · exact K.own h
  · exact K.writeRegister (writeVoted_keeps (K.blocks.sub rfl) h) _ w

/-! One access, its checks passed. -/

theorem fetch (ind : Bool) (a : Nat) : P (fetch c ind a s).2 := by
  unfold Machine.fetch
  dsimp only
  split
  · exact readSram_keeps (K.blocks.sub rfl) h
  · split
    · split
      · exact K.own h
      · split
        next hread => exact windowAccess_out (K.blocks.sub rfl) h hread
        next hwait => exact K.own (windowAccess_out (K.blocks.sub rfl) h hwait)
    · exact K.readRegister h a

theorem store (ind : Bool) (a : Nat) (w : Word) : P (store c ind a w s).2 := by
  unfold Machine.store
  dsimp only
  split
  · exact writeSram_keeps (K.blocks.sub rfl) h
  · split
    · split
      · exact K.own h
      · split
        next hwritten => exact windowAccess_out (K.blocks.sub rfl) h hwritten
        next hwait => exact K.own (windowAccess_out (K.blocks.sub rfl) h hwait)
    · exact K.writeWord h a w

/-! The indirect pair. -/

omit h in
theorem capture (n : Nat) : ∀ {a : Nat} {s : State}, P s → P (capture c a n s).2 := by
  induction n with
  | zero => exact fun h => h
  | succ n ih =>
    intro a s h
    have hword : P (if mapped c a s && !windowAddr a then Machine.fetch c true a s else (some 0, s)).2 := by
      split
      · exact K.fetch h true a
      · exact h
    unfold Machine.capture
    split
    next w t hread => rw [hread] at hword; exact ih (K.clearOnRead hword _ w)
    next t hwait => rw [hwait] at hword; exact hword

theorem indSnapWindow (a n : Nat) : P (indSnapWindow c a n s) := by
  unfold Machine.indSnapWindow
  dsimp only
  split
  · exact K.own h
  · split
    next hread => exact K.own (windowWords_out (K.blocks.sub rfl) h hread)
    next hwait => exact K.own (windowWords_out (K.blocks.sub rfl) h hwait)

theorem indFetch (a : Nat) : P (indFetch c a s) := by
  unfold Machine.indFetch
  dsimp only
  split
  · exact K.own h
  · refine keep_ite (K.own h) (keep_ite (K.own h) (keep_ite (keep_ite ?_ ?_) ?_))
    · exact K.indSnapWindow h a _
    · exact K.own (K.own (K.capture _ h))
    · have hword := K.fetch h true a
      split
      next w t hread => rw [hread] at hword; exact K.own (K.clearOnRead hword _ w)
      next t hwait => rw [hwait] at hword; exact hword

theorem indReadNow : P (indReadNow c s) := by
  unfold Machine.indReadNow
  dsimp only
  refine keep_ite (K.own h) ?_
  split
  · exact K.indFetch h _
  · exact K.own (K.own h)
  · exact K.own (permissionEvent_keeps (K.blocks.sub rfl) h)

theorem indStore (a : Nat) (w : Word) : P (indStore c a w s) := by
  unfold Machine.indStore
  refine keep_ite (K.own h) ?_
  have hstored := K.store h true a w
  split
  next t hdone => rw [hdone] at hstored; exact K.own hstored
  next t hwait => rw [hwait] at hstored; exact hstored

theorem indWriteNow (w : Word) : P (indWriteNow c w s) := by
  have hdiscarded : P (onCtx c (fun k => { k with snapshot := none }) s) := K.own h
  unfold Machine.indWriteNow
  dsimp only
  refine keep_ite (K.own hdiscarded) ?_
  split
  · exact K.indStore hdiscarded _ w
  · exact K.own (K.own hdiscarded)
  · exact K.own (permissionEvent_keeps (K.blocks.sub rfl) hdiscarded)

theorem indNow (v : Option Word × Option Word) : P (indNow c v s) := by
  obtain ⟨_ | addr, _ | w⟩ := v
  · exact K.indReadNow h
  · exact K.indWriteNow h w
  · exact K.indReadNow (K.own h)
  · exact K.indWriteNow (K.own h) w

omit h in
theorem indNext (n : Nat) : ∀ {s : State}, P s → P (indNext c n s) := by
  induction n with
  | zero => exact fun h => h
  | succ n ih =>
    intro s h
    unfold Machine.indNext
    split
    · exact h
    · exact keep_ite h (ih (K.indNow (K.own h) _))

theorem indResume : P (indResume c s) := K.indNext _ h

theorem indAccess (v : Option Word × Option Word) : P (indAccess c v s) := keep_ite (K.own h) (K.indNow h v)

/-! Direct accesses. -/

theorem readDirect (a : Nat) : P (readDirect c a s).2 := by
  unfold Machine.readDirect
  split
  · exact K.indAccess h _
  · exact K.fetch h false a

theorem failCheck (v : Verdict) (write : Bool) (a : Nat) : P (failCheck c v write a s) := by
  cases v with
  | pass => exact h
  | error e => exact K.own h
  | refused => exact permissionEvent_keeps (K.blocks.sub rfl) h

theorem accessRead (a bytes : Nat) : P (accessRead c a bytes s) := by
  unfold Machine.accessRead
  refine keep_ite h ?_
  split
  · have hword := K.readDirect h a
    split
    next w t hread => rw [hread] at hword; exact K.own (K.clearOnRead hword _ w)
    next t hwait => rw [hwait] at hword; exact hword
  · exact K.own (K.failCheck h _ false a)

theorem accessWrite (a bytes : Nat) (w : Word) : P (accessWrite c a bytes w s) := by
  unfold Machine.accessWrite
  refine keep_ite h ?_
  split
  · exact keep_ite (K.indAccess h _) (K.store h false a w)
  · exact K.failCheck h _ true a

/-! Time-outs. -/

omit h in
theorem resumeList (l : List WindowWait) : ∀ {s : State}, P s → P (resumeList c l s) := by
  induction l with
  | nil => exact fun h => K.own h
  | cons e l ih =>
    intro s h
    unfold Machine.resumeList
    split
    next hdone => exact ih (K.own (waitedWords_out (K.blocks.sub rfl) h hdone))
    next hwait => exact K.own (waitedWords_out (K.blocks.sub rfl) h hwait)

theorem resumeOne : P (resumeOne c s) := K.resumeList _ h

theorem indTimeout : P (indTimeout c s) := by
  unfold Machine.indTimeout
  exact keep_ite h (K.own (K.own h))

theorem windowTimeout : P (windowTimeout c s) := by
  unfold Machine.windowTimeout
  split
  · exact h
  · exact K.resumeOne (K.own (K.own h))

/-! The commands: every direct access is one of the first two. -/

theorem execRcRegisterRead (a bytes : Nat) : NextKeeps P (execRcRegisterRead c a bytes s) := keep_next (K.accessRead h a bytes)

theorem execRegisterWrite (a bytes : Nat) (w : Word) : NextKeeps P (execRegisterWrite c a bytes w s) :=
  keep_next (K.accessWrite h a bytes w)

theorem execIndAccessTimeout : NextKeeps P (execIndAccessTimeout c s) :=
  keep_next (keep_ite (K.indResume (K.resumeOne (K.indTimeout h))) h)

theorem execXipReadTimeout : NextKeeps P (execXipReadTimeout c s) :=
  keep_next (keep_ite (K.indResume (K.windowTimeout h)) h)

theorem execFioDoWrite (group : Fin 4) (cmd : BitVec 4) : NextKeeps P (execFioDoWrite c group cmd s) :=
  keep_next (keep_ite h (K.indAccess h _))

end KeepsOwn

/-- The state that a command answers has what the command keeps. -/
theorem NextKeeps.of_next {P : State → Prop} {o : Host.Outcome State Fault Refusal} {t : State} (hkeeps : NextKeeps P o)
    (hnext : o = .next t) : P t := by
  obtain ⟨u, rfl, hu⟩ := hkeeps
  exact Host.Outcome.next.inj hnext ▸ hu

/-! The system region as a context reaches it (Table 5.6). -/

section SystemRegion

variable {c : Fin 6} {a : Nat} {s : State} (hlow : 0x40000000 ≤ a) (hhigh : a < 0x40008000)
include hlow hhigh

theorem blockRegion_of_system : blockRegion a = true := by
  have hbelow : a < 0x4F000000 := by omega
  simp [blockRegion, hlow, hbelow]

theorem sramAddr_of_system : sramAddr a = false := by
  have habove : 0x1800000 ≤ a := by omega
  simp [sramAddr, habove]

theorem isAlias_of_system : isAlias a = false := by
  have hoffset : a % 0x10000 < 0x8000 := by omega
  simp [isAlias, hoffset]

theorem registerOf_of_system : registerOf a = a := by
  simp [registerOf, isAlias_of_system hlow hhigh]

theorem regAt_of_system : regAt c a s = sysReg c a s := by
  have hregion : a / 0x1000000 = 0x40 := by omega
  simp [regAt, hregion]

theorem indirectOnly_of_system : indirectOnly a = false := by
  have hfio : a / 0x1000000 ≠ 0x4B := by omega
  have hcoef : ¬ 0x42100000 ≤ a := by omega
  have hlanes : ¬ 0x4A100000 ≤ a := by omega
  have htime : ¬ 0x45010000 ≤ a := by omega
  simp [indirectOnly, registerOf_of_system hlow hhigh, regArray, hfio, hcoef, hlanes, htime]

theorem openRegister_of_system : openRegister a = false := by
  have hdisp : a ≠ 0x49000000 := by omega
  have hthreads : ¬ 0x49001000 ≤ a := by omega
  simp [openRegister, registerOf_of_system hlow hhigh, hdisp, hthreads]

theorem protectedAddr_of_system : protectedAddr a = false := by
  have hsram : ¬ a < 0x1800000 := by omega
  have hcoef : ¬ 0x42100000 ≤ a := by omega
  have hlanes : ¬ 0x4A100000 ≤ a := by omega
  simp [protectedAddr, hsram, hcoef, hlanes]

/-- A direct access of a register passes its checks where the permission table lets it. -/
theorem check_of_sysReg {write : Bool} {v : RegVal} (halign : a % 4 = 0) (hreg : sysReg c a s = some v)
    (hmay : mayAccess c write a s = true) : check c false write a 4 s = .pass := by
  have hmapped : mapped c a s = true := by
    simp [mapped, blockRegion_of_system hlow hhigh, registerOf_of_system hlow hhigh, regAt_of_system hlow hhigh, hreg]
  simp [check, halign, hmapped, indirectOnly_of_system hlow hhigh, isAlias_of_system hlow hhigh, hmay]

/-- A read of a word that no voted field lies in changes nothing. -/
theorem readRegister_of_sysReg {w : Word} (hvoted : votedAt a s = false) (hreg : sysReg c a s = some (.word w)) :
    readRegister c a s = (w, s) := by
  have hnone : ∀ v ∈ s.sys.voted, ¬(v.addr == a) = true := by simpa [votedAt] using hvoted
  have hfind : s.sys.voted.find? (fun v => v.addr == a) = none := List.find?_eq_none.mpr hnone
  have hfilter : s.sys.voted.filter (fun v => v.addr == a) = [] := List.filter_eq_nil_iff.mpr hnone
  have hvote : voteRead a s = s := by simp [voteRead, hfind]
  have hword : votedWord a w s = w := by simp [votedWord, hfilter]
  simp [readRegister, registerOf_of_system hlow hhigh, regAt_of_system hlow hhigh, openRegister_of_system hlow hhigh,
    protectedAddr_of_system hlow hhigh, hreg, hvote, hword]

/-- Of the system region only the count of access errors is cleared by a read (R118). -/
theorem clearOnRead_of_system {w : Word} (hcount : a ≠ 0x40000404) : clearOnRead c a w s = s := by
  have hacq : a ≠ 0x4800000C ∧ a ≠ 0x48000010 := by omega
  have htally : a ≠ 0x4D000010 ∧ a ≠ 0x4D000020 := by omega
  have hthreads : ¬ 0x49001000 ≤ a := by omega
  have hloops : ¬ 0x42000000 ≤ a := by omega
  simp [clearOnRead, hcount, hacq, htally, regArray, hthreads, hloops]

variable {w : Word} (hlive : contextDead c s = false) (halign : a % 4 = 0) (hdata : a ≠ indData) (hcount : a ≠ 0x40000404)
  (hvoted : votedAt a s = false) (hreg : sysReg c a s = some (.word w)) (hmay : mayAccess c false a s = true)
include hlive halign hdata hcount hvoted hreg hmay

/-- A read of a word delivers it and does nothing else. -/
theorem accessRead_of_sysReg : accessRead c a 4 s = handWord c w s := by
  have hfetch : readDirect c a s = (some w, s) := by
    simp [readDirect, hdata, fetch, sramAddr_of_system hlow hhigh, windowAddr, blockRegion_of_system hlow hhigh,
      readRegister_of_sysReg hlow hhigh hvoted hreg]
  simp [accessRead, hlive, check_of_sysReg hlow hhigh halign hreg hmay, hfetch, registerOf_of_system hlow hhigh,
    clearOnRead_of_system hlow hhigh hcount]

/-- Such a read as a command: the context is given the word. -/
theorem exec_rcRegisterRead_of_sysReg : ∃ t, exec (.rcRegisterRead c a 4) s = .next t ∧ t.sys.ctx[c].readData = w :=
  ⟨_, congrArg Host.Outcome.next (accessRead_of_sysReg hlow hhigh hlive halign hdata hcount hvoted hreg hmay),
    congrArg Ctx.readData (onCtx_ctx_same c _ s)⟩

end SystemRegion

/-- A write of IND_ADDR is never refused (R105); it changes the pair of its own context. -/
theorem accessWrite_indAddr {c : Fin 6} {s : State} (v : Word) (hlive : contextDead c s = false) :
    accessWrite c 0x40000100 4 v s = onCtx c (Ctx.writeAddr v) (writeVoted 0x40000100 v s) := by
  have hmay : mayAccess c true 0x40000100 s = true := if_pos (.inr ⟨rfl, rfl⟩)
  have hcheck : check c false true 0x40000100 4 s = .pass := check_of_sysReg (by decide) (by decide) (by decide) rfl hmay
  have hwrite : writeDirect c 0x40000100 v s = onCtx c (Ctx.writeAddr v) (writeVoted 0x40000100 v s) := rfl
  simp [accessWrite, hlive, hcheck, hwrite]

/-! The settled statement. -/

/-- Settles O58: every access of a context keeps what changes to the other blocks and to its own context keep (`KeepsOwn`), and so
what another context holds; its own pair is a word of the system region like any other. -/
theorem contextsAreIsolated : Obligations.ContextsAreIsolated := by
  unfold Obligations.ContextsAreIsolated
  refine ⟨fun c d s t hne haccess => ?isolated, fun c v s hlive => ?write, fun c s hlive hvoted hmay => ?addr,
    fun c s hlive hvoted hmay => ?ctrl⟩
  case isolated =>
    have K := keepsOwn_ctx_other hne s.sys.ctx[d]
    have hread (a n : Nat) := (K.execRcRegisterRead rfl a n).of_next (t := t)
    have hwrite (a n : Nat) (v : Word) := (K.execRegisterWrite rfl a n v).of_next (t := t)
    obtain ⟨a, n, h⟩ | ⟨a, n, v, h⟩ | ⟨a, h | h | h⟩ | ⟨a, v, h | h | h⟩ | h | ⟨v, h | h | h | h⟩ | h | h | ⟨g, v, h⟩ := haccess
    · exact hread a n h
    · exact hwrite a n v h
    · exact hread a 4 h
    · exact hread a 4 h
    · exact hread a 4 h
    · exact hwrite a 4 v h
    · exact hwrite a 4 v h
    · exact hwrite a 4 v h
    · exact hread indData 4 h
    · exact hwrite indData 4 v h
    · exact hwrite 0x40000100 4 v h
    · exact hwrite 0x40000108 4 v h
    · exact hwrite 0x40000200 4 v h
    · exact (K.execIndAccessTimeout rfl).of_next h
    · exact (K.execXipReadTimeout rfl).of_next h
    · exact (K.execFioDoWrite rfl g v).of_next h
  case write =>
    have hown := onCtx_ctx_same c (Ctx.writeAddr v) (writeVoted 0x40000100 v s)
    exact ⟨_, congrArg Host.Outcome.next (accessWrite_indAddr v hlive), congrArg Ctx.indAddr hown, congrArg Ctx.snapshot hown⟩
  case addr =>
    exact exec_rcRegisterRead_of_sysReg (by decide) (by decide) hlive (by decide) (by decide) (by decide) hvoted rfl hmay
  case ctrl =>
    exact exec_rcRegisterRead_of_sysReg (by decide) (by decide) hlive (by decide) (by decide) (by decide) hvoted rfl hmay

end Sys2Proof.Machine

/-! SUPPORT.
Host Port frames of an awake part (R404, R407, R409, R411, 18). -/

namespace Sys2Proof.Machine

/-! A select and its end. -/

/-- A select wakes only a part in Nap or Rest (R411). -/
theorem selectWake_of_awake {s : State} (hawake : asleep s = false) : selectWake s = s := by
  obtain ⟨⟨hnap, hrest⟩, -⟩ : (s.power.power ≠ .nap ∧ s.power.power ≠ .rest) ∧ s.power.waking = false := by
    simpa only [asleep, Bool.or_eq_false_iff, beq_eq_false_iff_ne] using hawake
  exact if_neg (not_or.mpr ⟨hnap, hrest⟩)

/-- A frame that ends after its last byte is not SHORT, and its edges after that byte are its extra ones. -/
theorem isShort_edgesOf_of_complete {fin : FrameEnd} {n : Nat} (hfin : fin = .whole ∧ n = 0 ∨ fin = .extra n) :
    isShort fin = false ∧ edgesOf fin = n := by
  obtain ⟨rfl, rfl⟩ | rfl := hfin
  · exact ⟨rfl, rfl⟩
  · exact ⟨rfl, rfl⟩

theorem within_of_bounds {lo hi n : Nat} (hlow : lo ≤ n) (hhigh : n ≤ hi) : within lo hi n = true := by
  simp only [within, hlow, hhigh, decide_true, Bool.and_self]

theorem frameArgs_of_proper {addr len : Nat} (halign : addr % 4 = 0) (hlow : 1 ≤ len) (hhigh : len ≤ 256) :
    frameArgs addr len = true := by
  simp only [frameArgs, halign, within_of_bounds hlow hhigh, beq_self_eq_true, Bool.and_self]

/-! The words of a WRITE frame (R407). -/

/-- The words, numbered from k, each at the address of its number. -/
theorem writeWords_eq_foldl_zipIdx (addr : Nat) (ws : List Word) : ∀ (k : Nat) (s : State), writeWords (addr + 4 * k) ws s =
    (ws.zipIdx k).foldl (fun u e => accessWrite hostCtx (addr + 4 * e.2) 4 e.1 u) s := by
  induction ws with
  | nil => exact fun _ _ => rfl
  | cons w ws ih => exact fun k s => ih (k + 1) (accessWrite hostCtx (addr + 4 * k) 4 w s)

/-- With no word denied all of them are written. -/
theorem commitWrite_of_none_denied {addr : Nat} {ws : List Word} (n : Nat) {s : State}
    (hgranted : ∀ k, k < ws.length → wordDenied (addr + 4 * k) s = false) :
    commitWrite addr ws n s = complete n (ws.zipIdx.foldl (fun u e => accessWrite hostCtx (addr + 4 * e.2) 4 e.1 u) s) := by
  have hnone : ((List.range ws.length).map fun k => addr + 4 * k).find? (fun a => wordDenied a s) = none :=
    List.find?_map.trans (congrArg (Option.map _) (List.find?_range_eq_none.mpr fun k hk => congrArg not (hgranted k hk)))
  have hwords : writeWords addr ws s = ws.zipIdx.foldl (fun u e => accessWrite hostCtx (addr + 4 * e.2) 4 e.1 u) s :=
    writeWords_eq_foldl_zipIdx addr ws 0 s
  simp only [commitWrite, hnone, hwords]

/-- The first denied word refuses the frame, and nothing is written. -/
theorem commitWrite_of_first_denied {addr : Nat} {ws : List Word} (n : Nat) {s : State} {k : Nat} (hk : k < ws.length)
    (hbefore : ∀ j, j < k → wordDenied (addr + 4 * j) s = false) (hdenied : wordDenied (addr + 4 * k) s = true) :
    commitWrite addr ws n s =
      frameResult 4 0 (failCheck hostCtx (check hostCtx false true (addr + 4 * k) 4 s) true (addr + 4 * k) s) := by
  have hfirst : ((List.range ws.length).map fun k => addr + 4 * k).find? (fun a => wordDenied a s) = some (addr + 4 * k) :=
    List.find?_map.trans (congrArg (Option.map _)
      (List.find?_range_eq_some.mpr ⟨hdenied, List.mem_range.mpr hk, fun j hj => congrArg not (hbefore j hj)⟩))
  simp only [commitWrite, hfirst]

/-! The reply a PACKET_OUT frame hands over (R409). -/

theorem handReplyOut_pkts (s : State) : (handReplyOut s).pkts = dropReplyOut s.pkts := rfl

theorem handReplyOut_serial (s : State) : (handReplyOut s).serial = s.serial := rfl

/-- The length of the oldest reply, the bytes of it that LEN leaves room for, and zeros. -/
def oldestReplyBytes (len : Nat) (s : State) : List Byte :=
  (be 2 (s.pkts.outbox.headD []).length ++ (s.pkts.outbox.headD []).take (len - 2) ++ List.replicate len 0).take len

/-- A PACKET_OUT frame carries the oldest reply; one carried whole leaves the outbox. -/
def carryReply (len : Nat) (s : State) : State :=
  let carried := s.onSerial fun b => { b with sphPacket := oldestReplyBytes len s }
  if s.pkts.outbox ≠ [] ∧ (s.pkts.outbox.headD []).length ≤ len - 2 then handReplyOut carried else carried

theorem carryReply_sphPacket (len : Nat) (s : State) : (carryReply len s).serial.sphPacket = oldestReplyBytes len s := by
  unfold carryReply
  split
  · exact congrArg SerialBlk.sphPacket (handReplyOut_serial _)
  · rfl

theorem carryReply_pkts_of_whole {len : Nat} {s : State} (hreply : s.pkts.outbox ≠ [])
    (hwhole : (s.pkts.outbox.headD []).length ≤ len - 2) : (carryReply len s).pkts = dropReplyOut s.pkts := by
  rw [carryReply, if_pos ⟨hreply, hwhole⟩, handReplyOut_pkts, State.onSerial_pkts]

theorem carryReply_pkts_of_not_whole {len : Nat} {s : State}
    (hkept : len - 2 < (s.pkts.outbox.headD []).length ∨ s.pkts.outbox = []) : (carryReply len s).pkts = s.pkts := by
  have hnot : ¬(s.pkts.outbox ≠ [] ∧ (s.pkts.outbox.headD []).length ≤ len - 2) := by
    rintro ⟨hreply, hwhole⟩
    exact hkept.elim (Nat.not_lt.mpr hwhole) hreply
  rw [carryReply, if_neg hnot, State.onSerial_pkts]

theorem carryReply_inbox (len : Nat) (s : State) : (carryReply len s).pkts.inbox = s.pkts.inbox := by
  unfold carryReply
  split <;> rfl

/-! The frames as commands. -/

section Awake

variable {s : State} (hdev : s.sys.dev ≠ .reset) (href : s.power.refLost = false)
include hdev href

/-- Out of Reset and with the reference present a frame is answered. -/
theorem frame_of_served (f : State → State) : (if s.power.refLost then .next s else frame f s) = .next (f s) := by
  simp only [frame, hdev, href, Bool.false_eq_true, if_false]

variable (hawake : asleep s = false)
include hawake

section Write

variable {addr : Nat} {ws : List Word} (halign : addr % 4 = 0) (hlow : 1 ≤ ws.length) (hhigh : ws.length ≤ 256)
include halign hlow hhigh

theorem exec_sphWriteFrame_short (m : Nat) : exec (.sphWriteFrame addr ws (.short m)) s = .next (frameResult 1 0 s) := by
  change execSphWriteFrame addr ws (.short m) s = _
  simp only [execSphWriteFrame, frame_of_served hdev href, selectWake_of_awake hawake, frameArgs_of_proper halign hlow hhigh, isShort,
    Bool.not_true, Bool.false_eq_true, if_false, if_true]

/-- Ended after its last byte, the frame is committed. -/
theorem exec_sphWriteFrame_complete {fin : FrameEnd} {n : Nat} (hfin : fin = .whole ∧ n = 0 ∨ fin = .extra n) :
    exec (.sphWriteFrame addr ws fin) s = .next (commitWrite addr ws n s) := by
  obtain ⟨hshort, hedges⟩ := isShort_edgesOf_of_complete hfin
  change execSphWriteFrame addr ws fin s = _
  simp only [execSphWriteFrame, frame_of_served hdev href, selectWake_of_awake hawake, frameArgs_of_proper halign hlow hhigh, hawake,
    hshort, hedges, Bool.not_true, Bool.false_eq_true, if_false]

end Write

theorem exec_sphPacketIn_complete {b : List Byte} (hlow : 24 ≤ b.length) (hhigh : b.length ≤ 1472) (hroom : s.pkts.inbox.length < 8)
    {fin : FrameEnd} {n : Nat} (hfin : fin = .whole ∧ n = 0 ∨ fin = .extra n) :
    exec (.sphPacketIn b fin) s = .next (commitPacket s.tb0 b n s) := by
  obtain ⟨hshort, hedges⟩ := isShort_edgesOf_of_complete hfin
  change execSphPacketIn b fin s = _
  simp only [execSphPacketIn, frame_of_served hdev href, selectWake_of_awake hawake, within_of_bounds hlow hhigh, hawake,
    Nat.not_le.mpr hroom, hshort, hedges, Bool.not_true, Bool.false_eq_true, if_false]

section PacketOut

variable {len : Nat} (hlow : 2 ≤ len) (hhigh : len ≤ 1474) (heven : len % 2 = 0)
include hlow hhigh heven

theorem exec_sphPacketOut_short (m : Nat) : exec (.sphPacketOut len (.short m)) s = .next (frameResult 1 0 s) := by
  change execSphPacketOut len (.short m) s = _
  simp only [execSphPacketOut, frame_of_served hdev href, selectWake_of_awake hawake, within_of_bounds hlow hhigh, heven, hawake,
    isShort, Bool.not_true, Bool.false_eq_true, ne_eq, not_true_eq_false, or_self, if_false, if_true]

theorem exec_sphPacketOut_complete {fin : FrameEnd} {n : Nat} (hfin : fin = .whole ∧ n = 0 ∨ fin = .extra n) :
    exec (.sphPacketOut len fin) s = .next (complete n (carryReply len s)) := by
  obtain ⟨hshort, hedges⟩ := isShort_edgesOf_of_complete hfin
  change execSphPacketOut len fin s = _
  simp only [execSphPacketOut, frame_of_served hdev href, selectWake_of_awake hawake, within_of_bounds hlow hhigh, heven, hawake,
    hshort, hedges, carryReply, oldestReplyBytes, Bool.not_true, Bool.false_eq_true, ne_eq, not_true_eq_false, or_self, if_false]

end PacketOut

end Awake

/-! The settled statements. -/

/-- Settles O59: the search for the first denied word of the frame finds it, or finds none, and then the words are written one after
another. -/
theorem writeFramesAreAllOrNothing : Obligations.WriteFramesAreAllOrNothing := by
  unfold Obligations.WriteFramesAreAllOrNothing
  refine ⟨fun addr ws n s hdev href hawake halign hlow hhigh => ?short,
    fun addr ws fin n s hfin hdev href hawake halign hlow hhigh => ⟨fun hgranted => ?written, fun k hk hbefore hdenied => ?denied⟩⟩
  case short => exact exec_sphWriteFrame_short hdev href hawake halign hlow hhigh n
  case written =>
    rw [exec_sphWriteFrame_complete hdev href hawake halign hlow hhigh hfin, commitWrite_of_none_denied n hgranted, complete]
  case denied =>
    rw [exec_sphWriteFrame_complete hdev href hawake halign hlow hhigh hfin, commitWrite_of_first_denied n hk hbefore hdenied]

/-- Settles O60: a complete PACKET_OUT frame is `carryReply` and its result, and only a reply carried whole is handed over. -/
theorem packetFrames : Obligations.PacketFrames := by
  unfold Obligations.PacketFrames
  refine ⟨fun b fin n s hfin hdev href hawake hlow hhigh hroom => ?packetIn,
    fun len fin n s p hfin hdev href hawake hlow hhigh heven hp => ?packetOut,
    fun len m s hdev href hawake hlow hhigh heven => ?short⟩
  case packetIn => exact exec_sphPacketIn_complete hdev href hawake hlow hhigh hroom hfin
  case packetOut =>
    subst hp
    refine ⟨_, exec_sphPacketOut_complete hdev href hawake hlow hhigh heven hfin, carryReply_sphPacket len s, rfl,
      carryReply_inbox len s, fun hwhole hreply => ?handed, fun hkept => carryReply_pkts_of_not_whole hkept⟩
    exact congrArg Packets.outbox (carryReply_pkts_of_whole hreply hwhole)
  case short => exact exec_sphPacketOut_short hdev href hawake hlow hhigh heven m

end Sys2Proof.Machine

/-! SUPPORT.
What every step keeps: the settled statements about the machine as a whole. -/

namespace Sys2Proof.Machine

/-! The lists of blocks. -/

/-- No command acts on the queue. -/
theorem changes_pending (c : Instr) : (changes c).contains .pending = false := by
  cases c <;> rfl

/-- A block with a part of its own in the lists is listed wherever that part is. -/
theorem changes_part {c : Instr} {b p : Block} (hpart : (b, p) ∈ [(Block.integ, Block.sram), (.serial, .flash), (.lanes, .ldata), (.sys, .dev)])
    (hblock : (changes c).contains b = false) : (changes c).contains p = false := by
  have hall : [(Block.integ, Block.sram), (.serial, .flash), (.lanes, .ldata), (.sys, .dev)].all
      (fun e => (changes c).contains e.1 || !(changes c).contains e.2) = true := by
    cases c <;> rfl
  have hone := List.all_eq_true.mp hall _ hpart
  simp only [hblock, Bool.false_or, Bool.not_eq_true'] at hone
  exact hone

/-- What a command keeps is so of the state it answers. -/
theorem exec_next_keeps {P : State → Prop} {c : Instr} {s t : State} (K : Keeps (changes c) P) (hs : P s) (hnext : exec c s = .next t) :
    P t := by
  obtain ⟨u, hu, hP⟩ := exec_keeps c K hs
  rw [hu] at hnext
  cases hnext
  exact hP

/-- The front of the queue is no part of what is good. -/
theorem State.good_popped {s : State} (h : s.Good) : s.popped.Good := h

/-- Settles O51: each command and the idle tick keep every property that changes of blocks which keep their good form keep. -/
theorem goodKept : Obligations.GoodKept := by
  unfold Obligations.GoodKept
  intro s t hgood hstep
  unfold step at hstep
  split at hstep
  · obtain rfl := Host.Outcome.next.inj hstep
    exact idle_keeps (Good.keeps _) hgood
  · exact exec_next_keeps (Good.keeps _) (State.good_popped hgood) hstep

/-- Settles O50: being the same as before is a property that changes to the other blocks keep. -/
theorem commandFrames : Obligations.CommandFrames := by
  unfold Obligations.CommandFrames
  intro c s t b hnext hb
  cases b with
  | sys => exact exec_next_keeps (Keeps.sys_same hb (changes_part (b := .sys) (by simp) hb) s) rfl hnext
  | power => exact exec_next_keeps (Keeps.power_same hb s) rfl hnext
  | boot => exact exec_next_keeps (Keeps.boot_same hb s) rfl hnext
  | pkts => exact exec_next_keeps (Keeps.pkts_same hb s) rfl hnext
  | integ => exact exec_next_keeps (Keeps.integ_same hb (changes_part (b := .integ) (by simp) hb) s) rfl hnext
  | axis => exact exec_next_keeps (Keeps.axis_same hb s) rfl hnext
  | plan => exact exec_next_keeps (Keeps.plan_same hb s) rfl hnext
  | gear => exact exec_next_keeps (Keeps.gear_same hb s) rfl hnext
  | loop => exact exec_next_keeps (Keeps.loop_same hb s) rfl hnext
  | ports => exact exec_next_keeps (Keeps.ports_same hb s) rfl hnext
  | bta => exact exec_next_keeps (Keeps.bta_same hb s) rfl hnext
  | stepper => exact exec_next_keeps (Keeps.stepper_same hb s) rfl hnext
  | bricks => exact exec_next_keeps (Keeps.bricks_same hb s) rfl hnext
  | net => exact exec_next_keeps (Keeps.net_same hb s) rfl hnext
  | lodge => exact exec_next_keeps (Keeps.lodge_same hb s) rfl hnext
  | fio => exact exec_next_keeps (Keeps.fio_same hb s) rfl hnext
  | can => exact exec_next_keeps (Keeps.can_same hb s) rfl hnext
  | serial => exact exec_next_keeps (Keeps.serial_same hb (changes_part (b := .serial) (by simp) hb) s) rfl hnext
  | acq => exact exec_next_keeps (Keeps.acq_same hb s) rfl hnext
  | lanes => exact exec_next_keeps (Keeps.lanes_same hb (changes_part (b := .lanes) (by simp) hb) s) rfl hnext
  | store => exact exec_next_keeps (Keeps.store_same hb s) rfl hnext
  | pending => exact exec_next_keeps (Keeps.pending_same hb s) rfl hnext
  | sram => exact exec_next_keeps (Keeps.sram_same hb s) rfl hnext
  | flash => exact exec_next_keeps (Keeps.flash_same hb s) (fun _ => rfl) hnext
  | ldata => exact exec_next_keeps (Keeps.ldata_same hb s) (fun _ => rfl) hnext
  | dev => exact exec_next_keeps (Keeps.dev_same hb s) rfl hnext
  | ctx => exact exec_next_keeps (Keeps.ctx_same hb s) rfl hnext
  | free => exact exec_next_keeps (Keeps.free_same hb s) rfl hnext

/-- The command of an opcode on a request is `runCommand` of both. -/
theorem exec_of_commandOf {c : Instr} {o : Op} {rq : Request} (hc : commandOf c = some (o, rq)) (s : State) :
    exec c s = runCommand o rq s := by
  cases c
  all_goals cases hc
  all_goals rfl

/-- Settles O49: every command keeps the queue, as it keeps every block it does not list; and a ready request is concluded. -/
theorem everyCommandAnswersNext : Obligations.EveryCommandAnswersNext := by
  unfold Obligations.EveryCommandAnswersNext
  refine ⟨fun c s => exec_keeps c (Keeps.pending_same (changes_pending c) s) rfl, fun c o rq s hc hready => ?_⟩
  rw [exec_of_commandOf hc, runCommand_ready hready]

/-! A ready command of an opcode. -/

section Ready

variable {c : Instr} {o : Op} {rq : Request} {s u : State} (hc : commandOf c = some (o, rq)) (hready : Ready o rq s)
include hc hready

/-- A ready command whose effect is complete is answered DONE. -/
theorem exec_done {r : List Res} (heffect : o.effect rq s = .done u r) : exec c s = answered o rq s u r := by
  rw [exec_of_commandOf hc, runCommand_done hready heffect]

/-- A ready command whose effect has begun is answered when it is complete. -/
theorem exec_begun {k : Nat} {ctx : List Nat} (heffect : o.effect rq s = .wait u k ctx) : exec c s = begun o rq u k ctx := by
  rw [exec_of_commandOf hc, runCommand_wait hready heffect]

end Ready

/-- No condition of a list of refusals holds. -/
theorem firstDeny_eq_none {l : List (Bool × Deny)} (h : ∀ e ∈ l, e.1 = false) : firstDeny l = none := by
  have hfind : l.find? (·.1) = none := List.find?_eq_none.mpr fun e he => by simp [h e he]
  simp [firstDeny, hfind]

/-! The idle tick. -/

/-- What is said of the system region but for the count of free values, and of Lodge, is kept by changes to the other blocks. -/
theorem keeps_of_sys_lodge {bs : List Block} (hsys : bs.contains .sys = false) (hdev : bs.contains .dev = false)
    (hctx : bs.contains .ctx = false) (hlodge : bs.contains .lodge = false) (Q : DevState → BitVec 64 → LodgeBlk → Prop) :
    Keeps bs fun t => Q t.sys.dev t.sys.tick t.lodge := by
  constructor
  case onSys => intro hin; rw [hsys] at hin; cases hin
  case onDev => intro hin; rw [hdev] at hin; cases hin
  case onCtx => intro hin; rw [hctx] at hin; cases hin
  case onLodge => intro hin; rw [hlodge] at hin; cases hin
  all_goals intros; assumption

/-- The device state, the tick and Lodge are as in another state. -/
def State.agreesOnClocks (s t : State) : Prop := t.sys.dev = s.sys.dev ∧ t.sys.tick = s.sys.tick ∧ t.lodge = s.lodge

theorem keeps_agreesOnClocks {bs : List Block} (hsys : bs.contains .sys = false) (hdev : bs.contains .dev = false)
    (hctx : bs.contains .ctx = false) (hlodge : bs.contains .lodge = false) (s : State) : Keeps bs s.agreesOnClocks :=
  keeps_of_sys_lodge hsys hdev hctx hlodge fun d n b => d = s.sys.dev ∧ n = s.sys.tick ∧ b = s.lodge

theorem tickSys_tick {s : State} (hdev : s.sys.dev ≠ .reset) : (tickSys s).sys.tick = s.sys.tick + 1 := by
  simp [tickSys, hdev]

theorem tickSys_lodge (s : State) : (tickSys s).lodge = s.lodge := by
  unfold tickSys
  split <;> rfl

theorem tickLodge_tick (s : State) : (tickLodge s).sys.tick = s.sys.tick := by
  unfold tickLodge
  split <;> rfl

theorem tickLodge_time (s : State) :
    (tickLodge s).lodge.time = if s.lodge.st = .absent then s.lodge.time else s.lodge.time + 2 := by
  unfold tickLodge
  split <;> rfl

/-- A verify phase begins without a step of the clocks. -/
theorem verifyBegins_clocks (s : State) : (verifyBegins s).sys.tick = s.sys.tick ∧ (verifyBegins s).lodge = s.lodge := by
  have K : Keeps [.sys, .boot, .serial, .flash, .free] fun t => t.lodge = s.lodge := Keeps.lodge_same rfl s
  refine ⟨?_, verifyBegins_keeps K rfl⟩
  unfold verifyBegins
  split
  · rfl
  · split
    · dsimp only
      split <;> rfl
    · split
      · dsimp only
        split <;> rfl
      · rfl

/-- The state of an empty queue as the strobes are captured. -/
def State.ticked (s : State) : State :=
  verifyBegins (tickSdi (tickCompare (tickBanks (tickTrips (tickBta (tickLodge (tickCan (tickFio (tickNet (tickTime (tickSys (tickAcq s))))))))))))

theorem ticked_clocks {s : State} (hdev : s.sys.dev ≠ .reset) : s.ticked.sys.tick = s.sys.tick + 1 ∧
    s.ticked.lodge.time = if s.lodge.st = .absent then s.lodge.time else s.lodge.time + 2 := by
  have hbefore : s.agreesOnClocks (tickAcq s) :=
    tickAcq_keeps (keeps_agreesOnClocks rfl rfl rfl rfl s) ⟨rfl, rfl, rfl⟩
  have hbetween (t : State) : t.agreesOnClocks (tickCan (tickFio (tickNet (tickTime t)))) :=
    have K := keeps_agreesOnClocks (bs := [.can, .fio, .net]) rfl rfl rfl rfl t
    tickCan_keeps (K.sub rfl) (tickFio_keeps (K.sub rfl) (tickNet_keeps (K.sub rfl) (tickTime_keeps (K.sub rfl) ⟨rfl, rfl, rfl⟩)))
  have hafter (t : State) : t.agreesOnClocks (tickSdi (tickCompare (tickBanks (tickTrips (tickBta t))))) :=
    have K := keeps_agreesOnClocks (bs := [.bta, .free, .ports, .pkts, .integ, .axis, .plan, .gear, .loop, .stepper, .bricks])
      rfl rfl rfl rfl t
    tickSdi_keeps (K.sub rfl) (tickCompare_keeps (K.sub rfl) (tickBanks_keeps (K.sub rfl) (tickTrips_keeps (K.sub rfl)
      (tickBta_keeps (K.sub rfl) ⟨rfl, rfl, rfl⟩))))
  obtain ⟨hdev1, htick1, hlodge1⟩ := hbefore
  obtain ⟨-, htick2, hlodge2⟩ := hbetween (tickSys (tickAcq s))
  obtain ⟨-, htick3, hlodge3⟩ := hafter (tickLodge (tickCan (tickFio (tickNet (tickTime (tickSys (tickAcq s)))))))
  obtain ⟨htick4, hlodge4⟩ := verifyBegins_clocks
    (tickSdi (tickCompare (tickBanks (tickTrips (tickBta (tickLodge (tickCan (tickFio (tickNet (tickTime (tickSys (tickAcq s)))))))))))) 
  unfold State.ticked
  refine ⟨?_, ?_⟩
  · rw [htick4, htick3, tickLodge_tick, htick2, tickSys_tick (hdev1 ▸ hdev), htick1]
  · rw [hlodge4, hlodge3, tickLodge_time, hlodge2, tickSys_lodge, hlodge1]

/-- Settles O48: of the parts of an idle tick only one counts the ticks and only one the time of Lodge. -/
theorem frontCommandRuns : Obligations.FrontCommandRuns := by
  unfold Obligations.FrontCommandRuns
  refine ⟨fun c l s hfront => ?front, fun s hempty => ?idle, fun s hempty hdev => ?clocks⟩
  case front => simp [step, State.popped, hfront]
  case idle => simp [step, hempty]
  case clocks => exact ⟨s.ticked, by simp [step, hempty, idle, State.ticked], ticked_clocks hdev⟩

/-- Settles O52: the reset state is closed, and each of its values is read off it. -/
theorem resetLeaves : Obligations.ResetLeaves := by
  unfold Obligations.ResetLeaves
  refine ⟨⟨by unfold Packets.Ok; decide +kernel, by unfold Integrity.Ok; decide +kernel, by unfold SerialBlk.Ok; decide +kernel,
   by unfold LanesBlk.Ok; decide +kernel, .inr ⟨rfl, by decide +kernel⟩⟩, by decide +kernel⟩

end Sys2Proof.Machine

/-! SUPPORT.
The system class: discovery, settings, images and device states. -/

namespace Sys2Proof.Machine

theorem mapLoops_power (f : Fin 64 → Fin 3 → LoopSt → LoopSt) (s : State) : (mapLoops f s).power = s.power :=
  mapLoops_keeps (Keeps.power_same rfl s) rfl

/-- Settles O1: each of the four answers at once with what it reports. -/
theorem systemReadsComplete : Obligations.SystemReadsComplete := by
  unfold Obligations.SystemReadsComplete
  refine ⟨fun rq s h => ?ping, fun rq s h => ?info, fun rq s h => ?point, fun rq s h => ?identity⟩
  case ping => exact exec_done rfl h rfl
  case info => exact ⟨_, exec_done rfl h rfl, by simp, by simp⟩
  case point => exact ⟨_, _, exec_done rfl h rfl, by simp, mapLoops_power _ _⟩
  case identity => exact exec_done rfl h rfl

/-! CANCEL. -/

/-- A CANCEL whose handle, when it names one, is that of a pending command not committed and within its authority. -/
def CancelNames (rq : Request) (s : State) : Prop :=
  has rq 0x0100 = true → ∃ p, s.pkts.pending.find? (fun p => p.handle == num rq 0x0100 0 4) = some p ∧ p.committed = false ∧
    (tagRequired p.opcode rq.src s = true → rq.authed = true)

theorem opCancel_effect {rq : Request} {s : State} (hnames : CancelNames rq s) : opCancel.effect rq s =
    .done (s.onPkts fun k => { k with
        pending := k.pending.filter (fun p => !cancels rq s p)
        gone := (s.pkts.pending.filter (cancels rq s)).map (·.handle) ++ k.gone })
      [(0x0100, be 2 (s.pkts.pending.filter (cancels rq s)).length)] := by
  by_cases hhandle : has rq 0x0100 = true
  · obtain ⟨p, hfound, hopen, hallowed⟩ := hnames hhandle
    by_cases htag : tagRequired p.opcode rq.src s = true
    · simp [opCancel, hhandle, hfound, hopen, htag, hallowed htag]
    · simp [opCancel, hhandle, hfound, hopen, htag]
  · simp [opCancel, hhandle]

/-! SET_LATENCY_TOLERANCE: what a choice of the operating point leaves. -/

/-- The host's three tolerances (R28). -/
def Power.tolerances (p : Power) : Nat × Nat × Nat := (p.tolMotion, p.tolNetwork, p.tolHost)

theorem refreshAll_power (s : State) : (refreshAll s).power = s.power := refreshAll_keeps (Keeps.power_same rfl s) rfl

theorem enterPower_tolerances (w : PowerState) (s : State) : (enterPower w s).power.tolerances = s.power.tolerances := by
  unfold enterPower
  dsimp only
  split
  · rfl
  · split
    · rw [refreshAll_power]
      rfl
    · rfl

theorem reselect_tolerances (s : State) : (reselect s).power.tolerances = s.power.tolerances := by
  unfold reselect reportSlack
  dsimp only
  rw [enterPower_tolerances, mapLoops_power]
  rfl

theorem raiseFor_tolerances (b op : Nat) (s : State) : (raiseFor b op s).power.tolerances = s.power.tolerances := by
  unfold raiseFor
  dsimp only
  split <;> rfl

theorem changeBand_tolerances (b : Nat) (s : State) : (changeBand b s).power.tolerances = s.power.tolerances := by
  unfold changeBand
  split
  · exact reselect_tolerances _
  · split
    · exact raiseFor_tolerances _ _ _
    · dsimp only
      rw [mapLoops_power, raiseFor_tolerances]

theorem setBanded_tolerances (on : Bool) (s : State) : (setBanded on s).power.tolerances = s.power.tolerances := by
  unfold setBanded
  split
  · rfl
  · split
    · exact changeBand_tolerances _ _
    · rfl

/-- The state SET_LATENCY_TOLERANCE leaves. -/
def toleranceSet (rq : Request) (s : State) : State :=
  let s1 := s.onPower fun p => { p with
    tolMotion := numD rq 0x0100 0 4 s.power.tolMotion, tolNetwork := numD rq 0x0100 4 4 s.power.tolNetwork
    tolHost := numD rq 0x0100 8 4 s.power.tolHost
    opLimit := numD rq 0x0101 0 1 p.opLimit
    restPermitted := if has rq 0x0102 then hasBit (num rq 0x0102 0 1) 1 else p.restPermitted }
  reselect (if has rq 0x0102 then setBanded (hasBit (num rq 0x0102 0 1) 0) s1 else s1)

theorem toleranceSet_tolerances (rq : Request) (s : State) : (toleranceSet rq s).power.tolerances =
    (numD rq 0x0100 0 4 s.power.tolMotion, numD rq 0x0100 4 4 s.power.tolNetwork, numD rq 0x0100 8 4 s.power.tolHost) := by
  unfold toleranceSet
  rw [reselect_tolerances]
  split
  · exact setBanded_tolerances _ _
  · rfl

theorem opSetLatencyTolerance_effect {rq : Request} {s : State} (hmotion : 4000 ≤ numD rq 0x0100 0 4 s.power.tolMotion)
    (hnetwork : 2000 ≤ numD rq 0x0100 4 4 s.power.tolNetwork) (hhost : 40000 ≤ numD rq 0x0100 8 4 s.power.tolHost) :
    opSetLatencyTolerance.effect rq s = .done (toleranceSet rq s) [(0x0100, opSummary (toleranceSet rq s))] := by
  simp [opSetLatencyTolerance, Nat.not_lt.mpr hmotion, Nat.not_lt.mpr hnetwork, Nat.not_lt.mpr hhost, toleranceSet]

/-- Settles O2: CANCEL and SET_LATENCY_TOLERANCE by what they leave, the others by their one change. -/
theorem systemSettingsComplete : Obligations.SystemSettingsComplete := by
  unfold Obligations.SystemSettingsComplete
  refine ⟨fun rq s h hnames => ?cancel, fun rq s h hmotion hnetwork hhost => ?tolerance, fun rq s h => ?timer, fun rq s h => ?key,
    fun rq s h => ?policy⟩
  case cancel => exact ⟨_, exec_done rfl h (opCancel_effect hnames), rfl⟩
  case tolerance =>
    obtain ⟨hm, hn, hh⟩ := (by simpa [Power.tolerances] using toleranceSet_tolerances rq s :
      (toleranceSet rq s).power.tolMotion = _ ∧ (toleranceSet rq s).power.tolNetwork = _ ∧ (toleranceSet rq s).power.tolHost = _)
    exact ⟨_, exec_done rfl h (opSetLatencyTolerance_effect hmotion hnetwork hhost), hm, hn, hh⟩
  case timer => exact exec_done rfl h rfl
  case key =>
    refine ⟨_, exec_done rfl h rfl, fun k => ?_⟩
    by_cases hk : k.val = num rq 0x0100 0 1 % 4
    · obtain rfl : Fin.ofNat 4 (num rq 0x0100 0 1) = k := Fin.ext hk.symm
      rw [if_pos hk]
      exact upd_same _ _ _
    · rw [if_neg hk]
      exact upd_other _ _ _ _ fun he => hk (he ▸ rfl)
  case policy => exact ⟨_, exec_done rfl h rfl, rfl, rfl, rfl⟩

/-! A Reset that follows a reply (R97). -/

/-- Concluding a complete effect changes the queues of replies alone. -/
theorem conclude_done_keeps {P : State → Prop} (K : Keeps [.pkts, .free] P) {o : Op} {rq : Request} {s u : State} {r : List Res} (h : P u) :
    P (conclude o rq false (.done u r) s) := by
  unfold conclude
  dsimp only
  split
  · exact sendReply_keeps (K.sub rfl) (freshNat_keeps (K.sub rfl) h)
  · exact sendReply_keeps (K.sub rfl) h

/-- Concluding an answer leaves the instant at which a Reset is due. -/
theorem conclude_resetDue {o : Op} {rq : Request} {s u : State} {r : List Res} :
    (conclude o rq false (.done u r) s).sys.resetDue = u.sys.resetDue := by
  have K : Keeps [.pkts, .free] fun t => t.sys.resetDue = u.sys.resetDue := by
    constructor
    case onSys => intro hin; cases hin
    case onDev => intro hin; cases hin
    case onCtx => intro hin; cases hin
    all_goals intros; assumption
  exact conclude_done_keeps K rfl

/-- Two answers of one command leave the same Reset due. -/
theorem resetDue_of_answered {o : Op} {rq : Request} {s u v : State} {r q : List Res}
    (hsame : answered o rq s u r = answered o rq s v q) : u.sys.resetDue = v.sys.resetDue := by
  have hconcluded := congrArg (fun t => t.sys.resetDue) (Host.Outcome.next.inj hsame)
  simpa only [conclude_resetDue] using hconcluded

/-- A state with one reply waiting behind the outbox of the Host Port. -/
def behindReply (s : State) : State := s.onPkts fun k => { k with waiting := [[]] }

/-- Behind a waiting reply the Reset is not due at a known instant yet. -/
theorem resetSoon_behindReply {rq : Request} (hsrc : rq.src = .hostPort) (hreply : suppressed rq .done = false) (cause : Nat) (s : State) :
    (resetSoon rq cause (behindReply s)).sys.resetDue = none := by
  simp [resetSoon, behindReply, hsrc, hreply]

/-- Refutes O4: RESET with a reply waiting behind a full outbox. The model counts the 1 ms from the instant at which RESET's own reply
enters the outbox (R97), so at its execution no Reset is due yet. -/
theorem not_stateCommandsComplete : ¬ Obligations.StateCommandsComplete := by
  unfold Obligations.StateCommandsComplete
  rintro ⟨-, -, -, hreset, -⟩
  have hready : Ready opReset {} (behindReply Tests.com) := Tests.ready (by decide +kernel)
  obtain ⟨u, hclaim, hdue, -⟩ := hreset _ _ hready
  have hmodel := exec_done (c := .reset {}) rfl hready rfl
  have hsame := resetDue_of_answered (hmodel.symm.trans hclaim)
  rw [resetSoon_behindReply rfl rfl, hdue] at hsame
  cases hsame

theorem hasTrial_onPkts (kind : Nat) (f : Packets → Packets) (s : State) : hasTrial kind (s.onPkts f) = hasTrial kind s := rfl

/-- IMAGE_ACTIVATE of kind 1. -/
def activateKeeper : Request := { params := be 4 0x01000001 ++ be 4 0x01000000 }

theorem opImageActivate_effect {rq : Request} {s : State} (hkind : num rq 0x0100 0 1 ≠ 3) (htrial : hasTrial (num rq 0x0100 0 1) s = true) :
    opImageActivate.effect rq s = .done (resetSoon rq 0 s) [] := by
  simp [opImageActivate, hkind, htrial]

/-- Refutes O3: IMAGE_ACTIVATE of a trial with a reply waiting behind a full outbox, for the same reason as RESET (R97). -/
theorem not_imageSessionsComplete : ¬ Obligations.ImageSessionsComplete := by
  unfold Obligations.ImageSessionsComplete
  rintro ⟨-, -, -, hactivate, -⟩
  have hkind : num activateKeeper 0x0100 0 1 = 1 := by decide +kernel
  have htrial : hasTrial (num activateKeeper 0x0100 0 1) (behindReply (Tests.imageB 0x3C)) = true := by
    rw [hkind, behindReply, hasTrial_onPkts]
    exact Tests.trial_found
  have hready : Ready opImageActivate activateKeeper (behindReply (Tests.imageB 0x3C)) := Tests.ready (by decide +kernel)
  obtain ⟨u, hclaim, hdue⟩ := hactivate _ _ hready (by rw [hkind]; decide) htrial
  have hmodel := exec_done (c := .imageActivate activateKeeper) rfl hready (opImageActivate_effect (by rw [hkind]; decide) htrial)
  have hsame := resetDue_of_answered (hmodel.symm.trans hclaim)
  rw [resetSoon_behindReply rfl (by decide), hdue] at hsame
  cases hsame

end Sys2Proof.Machine

/-! SUPPORT.
The planner class: moves, jogs and stops; configuration, segments, groups and overrides. -/

namespace Sys2Proof.Machine

/-! What a change of one planner group or one owner of the store leaves. -/

@[simp] theorem onPgrp_same (g : Fin 16) (f : PlanGroup → PlanGroup) (s : State) : (onPgrp g f s).plan.grp[g] = f s.plan.grp[g] :=
  upd_same s.plan.grp g f

theorem onPgrp_other {g k : Fin 16} (hne : k ≠ g) (f : PlanGroup → PlanGroup) (s : State) :
    (onPgrp g f s).plan.grp[k] = s.plan.grp[k] := upd_other s.plan.grp g k f hne.symm

@[simp] theorem onPgrp_store (g : Fin 16) (f : PlanGroup → PlanGroup) (s : State) : (onPgrp g f s).plan.store = s.plan.store := rfl

@[simp] theorem storeRelease_grp (owner : Nat) (s : State) : (storeRelease owner s).plan.grp = s.plan.grp := rfl

theorem storeRelease_owner (owner : Nat) (s : State) : ∀ x ∈ (storeRelease owner s).plan.store, x.owner ≠ owner := by
  intro x hx
  simpa using (List.mem_filter.mp hx).2

theorem storeAllocate_grp {owner entries : Nat} {s t : State} (h : storeAllocate owner entries s = some t) : t.plan.grp = s.plan.grp := by
  obtain ⟨a, -, rfl⟩ := Option.map_eq_some_iff.mp h
  rfl

/-! Moves. -/

theorem movePosition_allowed {rq : Request} {i : Fin 64} {p : Int} {s : State} (h : moveDeny rq i false p 0 s = none) :
    movePosition rq i p s = handMove rq i { kind := 1, target := p } s := by
  rw [movePosition, h]

/-- Settles O6: a move nothing denies is handed to its planner; a STOP asks the axis, its group or all of them. -/
theorem plannerMovesComplete : Obligations.PlannerMovesComplete := by
  unfold Obligations.PlannerMovesComplete
  refine ⟨fun rq s h hdeny => ?abs, fun rq s h hdeny => ?rel, fun rq s h hdeny => ?jog, fun rq s g h haxis hgroup => ?stopGroup,
    fun rq s h haxis hgroup hstop => ?stopAxis, fun rq s h haxis hgroup hstop => ?nothing, fun rq s u v h hall hv hu => ?all⟩
  case abs => exact ⟨_, exec_begun rfl h (movePosition_allowed hdeny), rfl, rfl, rfl⟩
  case rel => exact ⟨_, exec_begun rfl h (movePosition_allowed hdeny), rfl, rfl, Int.add_comm _ _⟩
  case jog => exact ⟨_, exec_begun rfl h (by simp only [opJog, hdeny]; rfl), rfl, rfl, rfl⟩
  case stopGroup => exact exec_begun rfl h (by simp only [opStop, if_neg haxis, hgroup])
  case stopAxis => exact exec_begun rfl h (by simp only [opStop, if_neg haxis, hgroup, hstop, if_true])
  case nothing => exact exec_done rfl h (by simp only [opStop, if_neg haxis, hgroup, hstop, Bool.false_eq_true, if_false])
  case all =>
    have heffect : opStop.effect rq s = if allAtRest u then .done u [] else .wait u 0xFFFF [] := by
      simp only [opStop, if_pos hall, hu, hv]
    by_cases hrest : allAtRest u = true
    · rw [if_pos hrest] at heffect ⊢
      exact exec_done rfl h heffect
    · rw [if_neg hrest] at heffect ⊢
      exact exec_begun rfl h heffect

/-! Settings. -/

theorem opPlanAxisConfig_effect {rq : Request} {s : State} (hbound : s.axis[tgt 64 rq].st ≠ .unbound)
    (hmay : s.sys.dev = .commissioning ∨ s.axis[tgt 64 rq].st = .disabled ∨
      s.axis[tgt 64 rq].st = .enabled ∧ s.plan.ax[tgt 64 rq].activity = 0 ∧ has rq 0x0104 = false)
    (hwhole : s.plan.ax[tgt 64 rq].cfg = none → ∀ t ∈ [0x0100, 0x0101, 0x0104], has rq t = true) :
    opPlanAxisConfig.effect rq s =
      .done (onPax (tgt 64 rq) (fun y => { y with cfg := some (planCfgOf rq (s.plan.ax[tgt 64 rq].cfg.getD {})) }) s) [] := by
  have hallowed : ¬(s.axis[tgt 64 rq].st = .unbound ∨ (!(s.sys.dev == .commissioning || s.axis[tgt 64 rq].st == .disabled ||
      (s.axis[tgt 64 rq].st == .enabled && s.plan.ax[tgt 64 rq].activity == 0 && !has rq 0x0104))) = true) := by
    rintro (hno | hno)
    · exact hbound hno
    · rcases hmay with hdev | hst | ⟨hst, hact, hdiv⟩
      all_goals simp [-Fin.getElem_fin, *] at hno
  unfold opPlanAxisConfig
  dsimp only
  rw [if_neg hallowed]
  cases hcfg : s.plan.ax[tgt 64 rq].cfg with
  | none =>
    have hnone : [0x0100, 0x0101, 0x0104].find? (fun t => !has rq t) = none :=
      List.find?_eq_none.mpr fun t ht => by simp [hwhole hcfg t ht]
    rw [hnone]
  | some c => rfl

theorem opSegmentAppend_effect {rq : Request} {s : State} {q : List SegEntry} (hdefined : s.plan.grp[tgt 16 rq].defined = true)
    (hparse : parseSegs s.plan.grp[tgt 16 rq] s ((value rq 0x0100).length / 32) 0 (value rq 0x0100) s.plan.grp[tgt 16 rq].queue = .ok q)
    (hroom : queueUsed { s.plan.grp[tgt 16 rq] with queue := q } ≤ s.plan.grp[tgt 16 rq].capacity) :
    opSegmentAppend.effect rq s = .done (onPgrp (tgt 16 rq) (fun y => { y with queue := q, stale := true }) s)
      [(0x0100, be 2 (queueFree { s.plan.grp[tgt 16 rq] with queue := q }))] := by
  unfold opSegmentAppend
  dsimp only
  rw [if_neg (by rw [hdefined]; decide), hparse]
  exact if_neg (Nat.not_lt.mpr hroom)

theorem opGroupDefine_release {rq : Request} {s : State}
    (hidle : s.plan.grp[tgt 16 rq].defined = true → s.plan.grp[tgt 16 rq].activity = 1) (hnone : has rq 0x0100 = false) :
    opGroupDefine.effect rq s =
      .done (storeRelease (storeGroup (tgt 16 rq)) (onPgrp (tgt 16 rq) (fun y => { override := y.override }) s)) [] := by
  have hfree : ¬(s.plan.grp[tgt 16 rq].defined = true ∧ s.plan.grp[tgt 16 rq].activity ≠ 1) := fun hbusy => hbusy.2 (hidle hbusy.1)
  simp only [opGroupDefine, if_neg hfree, hnone, Bool.not_false, if_true]

/-- The group GROUP_DEFINE sets, with its run of the store found in v. -/
def groupDefined (rq : Request) (g : Fin 16) (v : State) (y : PlanGroup) : PlanGroup :=
  { defined := true, members := membersOf rq, pathCount := num rq 0x0101 0 1, weights := weightsOf rq, limits := limitsOf rq 0x0103
    quick := quickOf rq 0x0104, profile := num rq 0x0106 0 1, arcTol := intD rq 0x0107 0 8 65536
    capacity := num rq 0x0105 0 2, storeAt := ((v.plan.store.find? (·.owner == storeGroup g)).map (·.atTime)).getD 0
    override := y.override, activity := 1 }

theorem opGroupDefine_define {rq : Request} {s v : State}
    (hidle : s.plan.grp[tgt 16 rq].defined = true → s.plan.grp[tgt 16 rq].activity = 1) (hsome : has rq 0x0100 = true)
    (hmembers : ∀ n ∈ membersOf rq, s.axis[memberSlot n].bind.location ≠ 0 ∧
      ∀ k : Fin 16, k ≠ tgt 16 rq → s.plan.grp[k].defined = true → n ∉ s.plan.grp[k].members)
    (hstore : storeAllocate (storeGroup (tgt 16 rq)) (num rq 0x0105 0 2) s = some v) :
    opGroupDefine.effect rq s = .done (onPgrp (tgt 16 rq) (groupDefined rq (tgt 16 rq) v) v) [] := by
  have hfree : ¬(s.plan.grp[tgt 16 rq].defined = true ∧ s.plan.grp[tgt 16 rq].activity ≠ 1) := fun hbusy => hbusy.2 (hidle hbusy.1)
  have hbad : (membersOf rq).any (fun n => (List.finRange 16).any (fun (h : Fin 16) =>
      h != tgt 16 rq && s.plan.grp[h].defined && s.plan.grp[h].members.contains n) || s.axis[memberSlot n].bind.location == 0) = false := by
    refine List.any_eq_false.mpr fun n hn => ?_
    obtain ⟨hbound, helse⟩ := hmembers n hn
    simpa [-Fin.getElem_fin, hbound] using helse
  unfold opGroupDefine
  dsimp only
  rw [if_neg hfree, hsome, Bool.not_true, if_neg Bool.false_ne_true, hbad, if_neg Bool.false_ne_true, hstore]
  rfl

/-- Settles O7: each sets what it carries on its own axis or group, and OVERRIDE_SET the shadows it names. -/
theorem plannerSettingsComplete : Obligations.PlannerSettingsComplete := by
  unfold Obligations.PlannerSettingsComplete
  refine ⟨fun rq s h hbound hmay hwhole => ?config, fun rq s q h hdefined hparse hroom => ?append, fun rq s h hidle hnone => ?release,
    fun rq s v h hidle hsome hmembers hstore => ?define, fun rq s h => ?store, fun rq s h => ?override⟩
  case config => exact exec_done rfl h (opPlanAxisConfig_effect hbound hmay hwhole)
  case append => exact exec_done rfl h (opSegmentAppend_effect hdefined hparse hroom)
  case release =>
    refine ⟨_, exec_done rfl h (opGroupDefine_release hidle hnone), ?_, storeRelease_owner _ _, fun k hk => ?_⟩
    · rw [storeRelease_grp, onPgrp_same]
    · rw [storeRelease_grp, onPgrp_other hk]
  case define =>
    refine ⟨_, exec_done rfl h (opGroupDefine_define hidle hsome hmembers hstore), ?_, ?_, ?_, ?_, onPgrp_store _ _ _, fun k hk => ?_⟩
    · rw [onPgrp_same]; rfl
    · rw [onPgrp_same]; rfl
    · rw [onPgrp_same]; rfl
    · rw [onPgrp_same]; rfl
    · rw [onPgrp_other hk, storeAllocate_grp hstore]
  case store => exact exec_done rfl h rfl
  case override => exact exec_done rfl h rfl

/-- Settles O8: each changes its own group, under the checks of its opcode. -/
theorem plannerGroupsComplete : Obligations.PlannerGroupsComplete := by
  unfold Obligations.PlannerGroupsComplete
  refine ⟨fun rq s h hdefined hstop hpaused hrun hready => ?start, fun rq s h hdefined hstop hpaused hrun => ?running,
    fun rq s h hstop hdefined hpaused => ?resume, fun rq s h hstop hdefined hrun hstopping => ?clear, fun rq s h => ?status⟩
  case start => exact exec_done rfl h (by simp [-Fin.getElem_fin, opGroupStart, hdefined, hstop, hpaused, hrun]; simpa using hready)
  case running => exact exec_done rfl h (by simp [-Fin.getElem_fin, opGroupStart, hdefined, hstop, hpaused, hrun])
  case resume => exact exec_done rfl h (by simp [-Fin.getElem_fin, opGroupResume, hdefined, hstop, hpaused])
  case clear =>
    refine ⟨_, _, exec_done rfl h (by simp only [opGroupClear, hdefined, hstop, hrun, hstopping]; rfl), ?_, ?_, ?_, rfl, fun k hk => ?_⟩
    · rw [onPgrp_same]
    · rw [onPgrp_same]
    · rw [onPgrp_same]
    · exact onPgrp_other hk _ _
  case status => exact exec_done rfl h rfl

end Sys2Proof.Machine

/-! SUPPORT.
The gear-and-cam class: links, changes of ratio, cam tables and virtual masters. -/

namespace Sys2Proof.Machine

/-! What a change of one link, one cam table or one virtual master leaves. -/

@[simp] theorem onLink_same (i : Fin 64) (f : GearLink → GearLink) (s : State) : (onLink i f s).gear.link[i] = f s.gear.link[i] :=
  upd_same s.gear.link i f

theorem onLink_other {i k : Fin 64} (hne : k ≠ i) (f : GearLink → GearLink) (s : State) :
    (onLink i f s).gear.link[k] = s.gear.link[k] := upd_other s.gear.link i k f hne.symm

@[simp] theorem onCam_same (t : Fin 32) (f : CamTable → CamTable) (s : State) : (onCam t f s).gear.cam[t] = f s.gear.cam[t] :=
  upd_same s.gear.cam t f

theorem onCam_other {t k : Fin 32} (hne : k ≠ t) (f : CamTable → CamTable) (s : State) : (onCam t f s).gear.cam[k] = s.gear.cam[k] :=
  upd_other s.gear.cam t k f hne.symm

/-! Links. -/

theorem opGearLink_release {rq : Request} {s : State} (hmode : num rq 0x0100 0 1 = 0)
    (hfree : ¬(s.axis[tgt 64 rq].st = .enabled ∧ (sourceOf (tgt 64 rq) s = 1 ∨ sourceOf (tgt 64 rq) s = 2))) :
    opGearLink.effect rq s = .done (onLink (tgt 64 rq) linkReleased s) [] := by
  simp only [opGearLink, hmode, if_true, if_neg hfree]

/-- The link a GEAR_LINK sets: made from the request, with the corrections of its master so far and its present position. -/
def linkSet (rq : Request) (s : State) : GearLink :=
  let l := { linkOf rq s.gear.link[tgt 64 rq] with mOffset := masterOffset (linkOf rq s.gear.link[tgt 64 rq]) s }
  { l with mLast := masterPos l s }

theorem opGearLink_link {rq : Request} {s : State} (hmode : num rq 0x0100 0 1 ≠ 0)
    (hengage : s.gear.link[tgt 64 rq].engage ≠ 2) (hgear : ¬(sourceOf (tgt 64 rq) s = 1 ∧ num rq 0x0100 0 1 = 2))
    (hcam : ¬(sourceOf (tgt 64 rq) s = 2 ∧ num rq 0x0100 0 1 = 1))
    (hchains : chainsOk (upd s.gear.link (tgt 64 rq) fun _ => linkSet rq s) = true)
    (hport : (linkSet rq s).mKind = 3 → s.ports.port[Fin.ofNat 32 (linkSet rq s).mIndex].mode ∈ [1, 2, 3])
    (htable : num rq 0x0100 0 1 = 2 → (camTab s (linkSet rq s).table).committed = true)
    (hnear : (linkSet rq s).engagePos = none → s.axis[tgt 64 rq].st = .enabled →
      camFar (tgt 64 rq) (linkSet rq s) (linkSet rq s).mLast s = false) :
    opGearLink.effect rq s = .done (onLink (tgt 64 rq) (fun _ => linkSet rq s) s) [] := by
  have hnone : firstDeny
      [(s.gear.link[tgt 64 rq].engage == 2 || (sourceOf (tgt 64 rq) s == 1 && num rq 0x0100 0 1 == 2) ||
          (sourceOf (tgt 64 rq) s == 2 && num rq 0x0100 0 1 == 1), conflict),
       (!chainsOk (upd s.gear.link (tgt 64 rq) fun _ => linkSet rq s), conflictAt rq 0x0101),
       ((linkSet rq s).mKind == 3 && !(s.ports.port[Fin.ofNat 32 (linkSet rq s).mIndex].mode == 1 ||
          s.ports.port[Fin.ofNat 32 (linkSet rq s).mIndex].mode == 2 || s.ports.port[Fin.ofNat 32 (linkSet rq s).mIndex].mode == 3),
          conflictAt rq 0x0101),
       (num rq 0x0100 0 1 == 2 && !(camTab s (linkSet rq s).table).committed, conflictAt rq 0x0103),
       ((linkSet rq s).engagePos.isNone && s.axis[tgt 64 rq].st == .enabled &&
          camFar (tgt 64 rq) (linkSet rq s) (linkSet rq s).mLast s, conflictAt rq 0x0103)] = none := by
    refine firstDeny_eq_none ?_
    simp only [List.forall_mem_cons, List.not_mem_nil, false_implies, implies_true, and_true]
    refine ⟨?_, ?_, ?_, ?_, ?_⟩
    · simpa [-Fin.getElem_fin, hengage] using ⟨fun h1 h2 => hgear ⟨h1, h2⟩, fun h1 h2 => hcam ⟨h1, h2⟩⟩
    · simp [hchains]
    · by_cases hkind : (linkSet rq s).mKind = 3
      · have hmodes := hport hkind
        simp only [List.mem_cons, List.not_mem_nil, or_false] at hmodes
        generalize s.ports.port[Fin.ofNat 32 (linkSet rq s).mIndex].mode = m at hmodes ⊢
        rcases hmodes with rfl | rfl | rfl <;> simp
      · simp [hkind]
    · by_cases hmode : num rq 0x0100 0 1 = 2
      · simp [htable hmode]
      · simp [hmode]
    · by_cases hnow : (linkSet rq s).engagePos = none ∧ s.axis[tgt 64 rq].st = .enabled
      · simp [hnear hnow.1 hnow.2]
      · simpa [-Fin.getElem_fin] using fun h1 h2 => absurd ⟨h1, h2⟩ hnow
  unfold linkSet at hnone
  simp only [opGearLink, if_neg hmode, linkSet, hnone]

/-! Changes of ratio. -/

/-- The change a GEAR_RATIO_AT appends. -/
def changeOf (rq : Request) : GearChange :=
  { p := int rq 0x0100 0 8, dir := num rq 0x0101 0 1, num := if has rq 0x0102 then int rq 0x0102 0 4 else 0,
    den := if has rq 0x0102 then num rq 0x0102 4 4 else 1,
    table := if has rq 0x0103 then some (num rq 0x0103 0 1) else none, ramp := intD rq 0x0104 0 8 0 }

/-- The link with a change appended. -/
def GearLink.append (l : GearLink) (c : GearChange) : GearLink := { l with changes := l.changes ++ [c], appended := l.appended + 1 }

theorem opGearRatioAt_effect {rq : Request} {s : State} (hmode : s.gear.link[tgt 64 rq].mode ≠ 0)
    (hratio : has rq 0x0102 = true → s.gear.link[tgt 64 rq].mode ≠ 2)
    (htable : has rq 0x0103 = true → s.gear.link[tgt 64 rq].mode ≠ 1 ∧ (camTab s (num rq 0x0103 0 1)).committed = true)
    (hroom : s.gear.link[tgt 64 rq].changes.length < 64) :
    opGearRatioAt.effect rq s = .done (onLink (tgt 64 rq) (fun l => l.append (changeOf rq)) s)
      [(0x0100, be 1 (s.gear.link[tgt 64 rq].changes.length + 1))] := by
  have hnone : firstDeny
      [(s.gear.link[tgt 64 rq].mode == 0 || (s.gear.link[tgt 64 rq].mode == 2 && has rq 0x0102) ||
          (s.gear.link[tgt 64 rq].mode == 1 && has rq 0x0103), badValue rq (if has rq 0x0102 then 0x0102 else 0x0103)),
       (has rq 0x0103 && !(camTab s (num rq 0x0103 0 1)).committed, conflictAt rq 0x0103),
       (decide (64 ≤ s.gear.link[tgt 64 rq].changes.length), deny .resource)] = none := by
    refine firstDeny_eq_none ?_
    simp only [List.forall_mem_cons, List.not_mem_nil, false_implies, implies_true, and_true]
    refine ⟨?_, ?_, by simpa [-Fin.getElem_fin] using hroom⟩
    · cases h2 : has rq 0x0102 <;> cases h3 : has rq 0x0103 <;> simp [-Fin.getElem_fin, hmode, h2, h3, hratio, htable]
    · cases h3 : has rq 0x0103
      · rfl
      · simp [htable h3]
  unfold opGearRatioAt
  dsimp only
  rw [hnone]
  dsimp only
  rw [onLink_same]
  simp only [List.length_append, List.length_singleton]
  rfl

/-! Virtual masters. -/

/-- The virtual master a VMASTER_SET leaves. -/
def vmasterSet (rq : Request) (s : State) : VMaster :=
  { base := numD rq 0x0100 0 1 s.gear.vm[tgt 8 rq].base
    p0 := intD rq 0x0102 0 8 (s.gear.vm[tgt 8 rq].posAt (effectInstant rq (Fin.ofNat 4 s.gear.vm[tgt 8 rq].base) s))
    vel := intD rq 0x0101 0 8 s.gear.vm[tgt 8 rq].vel
    t0 := effectInstant rq (Fin.ofNat 4 (numD rq 0x0100 0 1 s.gear.vm[tgt 8 rq].base)) s }

theorem opVmasterSet_effect {rq : Request} {s : State}
    (hunused : has rq 0x0102 = true → ∀ i : Fin 64, ¬(s.gear.link[i].mode ≠ 0 ∧ s.gear.link[i].engage = 2 ∧
      s.gear.link[i].mKind = 4 ∧ s.gear.link[i].mIndex = (tgt 8 rq).val)) :
    opVmasterSet.effect rq s = .done (s.onGear fun u => { u with vm := upd u.vm (tgt 8 rq) fun _ => vmasterSet rq s }) [] := by
  unfold opVmasterSet
  dsimp only
  rw [if_neg]
  · rfl
  · rintro ⟨hpos, hused⟩
    obtain ⟨i, -, hi⟩ := List.any_eq_true.mp hused
    simp only [Bool.and_eq_true, bne_iff_ne, beq_iff_eq, and_assoc] at hi
    exact hunused hpos i hi

/-- Settles O9: a link or a change that no rule denies is made, and each answer changes its own link or virtual master. -/
theorem gearLinksComplete : Obligations.GearLinksComplete := by
  unfold Obligations.GearLinksComplete
  refine ⟨fun rq s h hmode hfree => ?release, fun rq s l h hmode hl hengage hgear hcam hchains hport htable hnear => ?link,
    fun rq s h hmode hratio htable hroom => ?ratio, fun rq s h hmode hratio htable hcommitted hroom => ?table,
    fun rq s h => ?clear, fun rq s h hunused => ?vmaster, fun rq s h => ?status⟩
  case release => exact exec_done rfl h (opGearLink_release hmode hfree)
  case link =>
    subst hl
    exact exec_done rfl h (opGearLink_link hmode hengage hgear hcam hchains hport htable hnear)
  case ratio =>
    refine ⟨_, changeOf rq, exec_done rfl h (opGearRatioAt_effect (by omega) (by omega) (by simp [htable]) hroom), ?_, rfl, ?_, ?_, ?_,
      fun k hk => onLink_other hk _ _⟩
    · rw [onLink_same]; rfl
    · simp [changeOf, hratio]
    · simp [changeOf, hratio]
    · simp [changeOf, htable]
  case table =>
    refine ⟨_, changeOf rq, exec_done rfl h (opGearRatioAt_effect (by omega) (by simp [hratio]) (fun _ => ⟨by omega, hcommitted⟩) hroom),
      ?_, rfl, ?_, fun k hk => onLink_other hk _ _⟩
    · rw [onLink_same]; rfl
    · simp [changeOf, htable]
  case clear => exact exec_done rfl h rfl
  case vmaster =>
    have hsame : (s.onGear fun u => { u with vm := upd u.vm (tgt 8 rq) fun _ => vmasterSet rq s }).gear.vm[tgt 8 rq] = vmasterSet rq s :=
      upd_same s.gear.vm (tgt 8 rq) _
    refine ⟨_, exec_done rfl h (opVmasterSet_effect hunused), ?_, ?_, fun hpos => ?_, rfl, rfl, fun k hk => ?_⟩
    · rw [hsame]; rfl
    · rw [hsame]; rfl
    · rw [hsame]; simp [vmasterSet, intD, hpos]
    · exact upd_other s.gear.vm (tgt 8 rq) k _ hk.symm
  case status => exact exec_done rfl h rfl

/-! Cam tables. -/

theorem opCamDefine_release {rq : Request} {s : State} (huse : camInUse (tgt 32 rq) s = false) (hnone : has rq 0x0100 = false) :
    opCamDefine.effect rq s = .done (storeRelease (storeCam (tgt 32 rq)) (onCam (tgt 32 rq) (fun _ => {}) s))
      [(0x0100, be 2 (storeEntries (storeRelease (storeCam (tgt 32 rq)) (onCam (tgt 32 rq) (fun _ => {}) s))))] := by
  simp [opCamDefine, huse, hnone]

theorem opCamDefine_define {rq : Request} {s v : State} (huse : camInUse (tgt 32 rq) s = false) (hsome : has rq 0x0100 = true)
    (hstore : storeAllocate (storeCam (tgt 32 rq)) (num rq 0x0100 2 2 + 1) s = some v) :
    opCamDefine.effect rq s = .done (onCam (tgt 32 rq) (fun _ => CamTable.header { defined := true } (value rq 0x0100)) v)
      [(0x0100, be 2 (storeEntries v))] := by
  simp only [opCamDefine, huse, hsome, hstore]
  rfl

theorem storeAllocate_gear {owner entries : Nat} {s t : State} (h : storeAllocate owner entries s = some t) : t.gear = s.gear := by
  obtain ⟨a, -, rfl⟩ := Option.map_eq_some_iff.mp h
  rfl

theorem storeRelease_gear (owner : Nat) (s : State) : (storeRelease owner s).gear = s.gear := rfl

/-- Entry k of a CAM_DATA from entry n on is well laid out. -/
def CamEntryOk (rq : Request) (s : State) (k : Nat) : Prop :=
  if num rq 0x0100 0 2 + k = 0 then
    camHeaderOk (slice (32 * k) 32 (value rq 0x0101)) = true ∧
      beNat (slice 2 2 (slice (32 * k) 32 (value rq 0x0101))) + 1 ≤ camRoom (tgt 32 rq) s
  else bad63 (slice 8 8 (slice (32 * k) 32 (value rq 0x0101))) = false ∧ bad63 (slice 16 8 (slice (32 * k) 32 (value rq 0x0101))) = false ∧
    ∀ x ∈ slice 1 7 (slice (32 * k) 32 (value rq 0x0101)), x = 0

theorem opCamData_effect {rq : Request} {s : State} (hdefined : s.gear.cam[tgt 32 rq].defined = true)
    (huse : camInUse (tgt 32 rq) s = false)
    (hplace : num rq 0x0100 0 2 + (value rq 0x0101).length / 32 ≤ s.gear.cam[tgt 32 rq].count + 1)
    (hentries : ∀ k, k < (value rq 0x0101).length / 32 → CamEntryOk rq s k) :
    opCamData.effect rq s = .done (onCam (tgt 32 rq) (fun c =>
      (List.range ((value rq 0x0101).length / 32)).foldl (fun c k =>
        c.entry (num rq 0x0100 0 2 + k) (slice (32 * k) 32 (value rq 0x0101))) c) s) [] := by
  unfold opCamData
  dsimp only
  rw [if_neg (by simp [-Fin.getElem_fin, hdefined, huse]), if_neg (Nat.not_lt.mpr hplace), if_neg]
  rw [Bool.not_eq_true]
  refine List.any_eq_false.mpr fun k hk => ?_
  have hentry := hentries k (List.mem_range.mp hk)
  unfold CamEntryOk at hentry
  by_cases hfirst : num rq 0x0100 0 2 + k = 0
  · rw [if_pos hfirst] at hentry ⊢
    simpa [hentry.1] using hentry.2
  · rw [if_neg hfirst] at hentry ⊢
    obtain ⟨hx, hy, hzero⟩ := hentry
    simpa [hx, hy] using hzero

/-- Settles O10: on a table in no use each does its work, and no other table changes. -/
theorem camTablesComplete : Obligations.CamTablesComplete := by
  unfold Obligations.CamTablesComplete
  refine ⟨fun rq s h huse hnone => ?release, fun rq s v h huse hsome hstore => ?define,
    fun rq s h hdefined huse hplace hentries => ?data, fun rq s h hdefined hgood => ?commit⟩
  case release =>
    refine ⟨_, _, exec_done rfl h (opCamDefine_release huse hnone), ?_, ?_, storeRelease_owner _ _, rfl, fun k hk => ?_⟩
    · rw [storeRelease_gear, onCam_same]
    · rw [storeRelease_gear, onCam_same]
    · rw [storeRelease_gear, onCam_other hk]
  case define =>
    refine ⟨_, _, exec_done rfl h (opCamDefine_define huse hsome hstore), onCam_same _ _ _, rfl, rfl, fun k hk => ?_⟩
    rw [onCam_other hk, storeAllocate_gear hstore]
  case data => exact exec_done rfl h (opCamData_effect hdefined huse hplace hentries)
  case commit => exact exec_done rfl h (by simp [-Fin.getElem_fin, opCamCommit, hdefined, hgood])

end Sys2Proof.Machine

/-! SUPPORT.
The Loop Engine class: loads, schedules, settings and reads. -/

namespace Sys2Proof.Machine

@[simp] theorem onLSlot_same (i : Fin 64) (f : LoopSlot → LoopSlot) (s : State) : (onLSlot i f s).loop.slot[i] = f s.loop.slot[i] :=
  upd_same s.loop.slot i f

theorem onLSlot_other {i k : Fin 64} (hne : k ≠ i) (f : LoopSlot → LoopSlot) (s : State) :
    (onLSlot i f s).loop.slot[k] = s.loop.slot[k] := upd_other s.loop.slot i k f hne.symm

theorem slotSetting_configuring {rq : Request} {s : State} (h : configuring (tgt 64 rq) s = true) (f : LoopSlot → LoopSlot) :
    slotSetting rq s f = .done (onLSlot (tgt 64 rq) f s) [] := by
  simp [slotSetting, h]

/-! LOOP_SCHEDULE. -/

theorem opLoopSchedule_enabled {rq : Request} {s : State} (hloop : loopDeny rq (tgt 64 rq) s = none)
    (henabled : s.axis[tgt 64 rq].st = .enabled) (hn : has rq 0x0101 = false) (hinteg : has rq 0x0102 = false)
    (hvar : has rq 0x0103 = false) (hcount : (boundsOf rq).length + 1 = s.loop.slot[tgt 64 rq].lp[loopNo rq].nRegions)
    (hedges : edgesDeny s.loop.slot[tgt 64 rq].lp[loopNo rq].schedVar rq = none) :
    opLoopSchedule.effect rq s = .done (onLoopSt (tgt 64 rq) (loopNo rq)
      (fun y => { y with bounds := boundsOf rq, hyst := intD rq 0x0105 0 8 0 }) s) [] := by
  unfold opLoopSchedule
  dsimp only
  rw [hloop]
  dsimp only
  rw [if_pos henabled, if_neg (by simpa [hn, hinteg, hvar] using hcount), hedges]

/-- The whole schedule of a request is the one the loop has. -/
def sameSchedule (rq : Request) (l : LoopSt) : Bool :=
  num rq 0x0101 0 1 == l.n && (num rq 0x0102 0 1 == 1) == l.integ && num rq 0x0103 0 1 == l.schedVar &&
    num rq 0x0103 1 1 == l.varPort && hasBit (num rq 0x0103 2 1) 0 == l.absolute && (boundsOf rq).length + 1 == l.nRegions

/-- The state with the whole schedule of a request set in its loop. -/
def loopScheduled (rq : Request) (s : State) : State :=
  onLoopSt (tgt 64 rq) (loopNo rq) (fun y => { y with
    n := num rq 0x0101 0 1, integ := num rq 0x0102 0 1 == 1, nRegions := (boundsOf rq).length + 1, schedVar := num rq 0x0103 0 1,
    varPort := num rq 0x0103 1 1, absolute := hasBit (num rq 0x0103 2 1) 0, bounds := boundsOf rq, hyst := intD rq 0x0105 0 8 0,
    region := if sameSchedule rq s.loop.slot[tgt 64 rq].lp[loopNo rq] then y.region
      else updAll y.region fun _ r => { r with loaded := false } }) s

theorem opLoopSchedule_configuring {rq : Request} {s : State} (hloop : loopDeny rq (tgt 64 rq) s = none)
    (henabled : s.axis[tgt 64 rq].st ≠ .enabled) (hconf : configuring (tgt 64 rq) s = true) (hn : has rq 0x0101 = true)
    (hinteg : has rq 0x0102 = true) (hvar : has rq 0x0103 = true) (hschedule : scheduleDeny rq (tgt 64 rq) s = none)
    (hedges : edgesDeny (num rq 0x0103 0 1) rq = none)
    (hadmitted : num rq 0x0101 0 1 ≠ s.loop.slot[tgt 64 rq].lp[loopNo rq].n → admission (loopScheduled rq s) = none) :
    opLoopSchedule.effect rq s = .done (if num rq 0x0101 0 1 = s.loop.slot[tgt 64 rq].lp[loopNo rq].n then loopScheduled rq s
      else reselect (loopScheduled rq s)) [] := by
  have hwhole : [0x0101, 0x0102, 0x0103].find? (fun t => !has rq t) = none := by simp [hn, hinteg, hvar]
  unfold loopScheduled sameSchedule at *
  unfold opLoopSchedule
  dsimp only
  rw [hloop]
  dsimp only
  rw [if_neg henabled, if_neg (by simp [hconf]), hwhole]
  dsimp only
  rw [hschedule]
  dsimp only
  rw [hedges]
  dsimp only
  by_cases hsame : num rq 0x0101 0 1 = s.loop.slot[tgt 64 rq].lp[loopNo rq].n
  · rw [if_pos hsame, if_pos hsame]
  · rw [if_neg hsame, if_neg hsame, hadmitted hsame]

/-- Settles O11: with every refusal excluded each opcode reaches its change of the slot. -/
theorem loopSettingsComplete : Obligations.LoopSettingsComplete := by
  unfold Obligations.LoopSettingsComplete
  refine ⟨fun rq s h hloop hload => ?load, fun rq s h hloop hen hn hinteg hvar hcount hedges => ?bounds,
    fun rq s l t h hloop hen hconf hn hinteg hvar hschedule hedges hl ht hadmitted => ?schedule, fun rq s h hconf => ?scales,
    fun rq s h hconf => ?motor, fun rq s m h hconf hmode hallowed hfree => ?modulation, fun rq s h hconf => ?follow,
    fun rq s h => ?limits, fun rq s h hconf => ?observer⟩
  case load =>
    refine ⟨⟨num rq 0x0101 0 1, regionOf rq s.loop.slot[tgt 64 rq].lp[loopNo rq], s.now + 5000⟩, exec_begun rfl h ?_, rfl, rfl, rfl⟩
    simp only [opLoopLoadCascade, hloop, hload]
  case bounds => exact exec_done rfl h (opLoopSchedule_enabled hloop hen hn hinteg hvar hcount hedges)
  case schedule =>
    subst hl ht
    exact exec_done rfl h (opLoopSchedule_configuring hloop hen hconf hn hinteg hvar hschedule hedges hadmitted)
  case scales => exact exec_done rfl h (slotSetting_configuring hconf _)
  case motor => exact exec_done rfl h (slotSetting_configuring hconf _)
  case modulation =>
    have hunbound : ¬(num rq 0x0101 0 1 = 2 ∧
        ((List.finRange 64).any fun (j : Fin 64) => s.axis[j].bind.inputs.contains (num rq 0x0101 1 1)) = true) := by
      rintro ⟨hsource, hbound⟩
      obtain ⟨j, -, hj⟩ := List.any_eq_true.mp hbound
      exact hfree hsource j (List.contains_iff_mem.mp hj)
    refine exec_done rfl h ?_
    unfold opLoopModulation
    dsimp only
    rw [hmode]
    dsimp only
    rw [if_neg (by simp [hconf]), if_neg (by simp [hallowed]), if_neg hunbound, slotSetting_configuring hconf]
  case follow => exact exec_done rfl h (slotSetting_configuring hconf _)
  case limits => exact exec_done rfl h rfl
  case observer => exact exec_done rfl h (slotSetting_configuring hconf _)

/-- Settles O12: the record and the schedule are read as they stand, and only the margins of the slot read are restarted. -/
theorem loopReadsComplete : Obligations.LoopReadsComplete := by
  unfold Obligations.LoopReadsComplete
  refine ⟨fun rq s h hloop => ?read, fun rq s h => ?status⟩
  case read => exact exec_done rfl h (by simp only [opLoopRead, hloop])
  case status =>
    refine ⟨_, _, exec_done rfl h rfl, by simp, by simp, fun k => ?_, fun k hk => onLSlot_other hk _ s⟩
    rw [onLSlot_same]
    exact updAll_get _ _ k

end Sys2Proof.Machine

/-! SUPPORT.
The Position Port class: ports, compare units, latches and the snapshot unit. -/

namespace Sys2Proof.Machine

/-! A ready request has passed the checks of its opcode. -/

theorem refusal_eq_none {o : Op} {rq : Request} {s : State} (h : refusal o rq s = none) :
    served o s = true ∧ o.target rq.target.toNat = true ∧ o.targetState rq s = true ∧
      tlvCheck (o.schema ++ challengeTlv rq) rq.params.length 24 rq.params [] = none ∧ o.values rq s = none := by
  unfold refusal at h
  split at h
  · cases h
  next =>
  split at h
  · cases h
  next hserved =>
  split at h
  · cases h
  next =>
  split at h
  · cases h
  next =>
  split at h
  · cases h
  next htarget =>
  split at h
  · cases h
  next htlvs =>
  split at h
  · cases h
  next hvalues =>
  simp only [Bool.not_eq_true', Bool.not_eq_false, Bool.and_eq_true] at hserved htarget
  exact ⟨hserved, htarget.1, htarget.2, htlvs, hvalues⟩

theorem Ready.values_eq_none {o : Op} {rq : Request} {s : State} (h : Ready o rq s) : o.values rq s = none :=
  (refusal_eq_none h.2.2.1).2.2.2.2

theorem Ready.toe_eq_zero {o : Op} {rq : Request} {s : State} (h : Ready o rq s) : rq.toe = 0 := h.2.2.2.1

theorem forall_of_firstDeny_eq_none {l : List (Bool × Deny)} (h : firstDeny l = none) : ∀ e ∈ l, e.1 = false := by
  intro e he
  have hfind : l.find? (·.1) = none := by simpa [firstDeny] using h
  simpa using List.find?_eq_none.mp hfind e he

/-! What a change of one port, one compare unit or one latch leaves. -/

@[simp] theorem onPort_same (p : Fin 32) (f : Port → Port) (s : State) : (onPort p f s).ports.port[p] = f s.ports.port[p] :=
  upd_same s.ports.port p f

@[simp] theorem onCmp_same (u : Fin 16) (f : Compare → Compare) (s : State) : (onCmp u f s).ports.cmp[u] = f s.ports.cmp[u] :=
  upd_same s.ports.cmp u f

theorem onCmp_other {u k : Fin 16} (hne : k ≠ u) (f : Compare → Compare) (s : State) : (onCmp u f s).ports.cmp[k] = s.ports.cmp[k] :=
  upd_other s.ports.cmp u k f hne.symm

theorem upd_upd {α : Type} {n : Nat} (v : Vector α n) (i : Fin n) (f g : α → α) : upd (upd v i f) i g = upd v i (g ∘ f) := by
  simp [upd]

theorem onPort_onPort (p : Fin 32) (f g : Port → Port) (s : State) : onPort p g (onPort p f s) = onPort p (g ∘ f) s := by
  simp only [onPort, State.onPorts, upd_upd]

/-! Positions. -/

theorem Port.put_counts {p : Port} (hm : 0 < p.cfg.modulus) (x : Int) : (p.put x).counts = x := by
  have hmax : max p.cfg.modulus 1 = p.cfg.modulus := by omega
  have hmaxInt : max (p.cfg.modulus : Int) 1 = p.cfg.modulus := by omega
  have hpos : (0 : Int) < p.cfg.modulus := by exact_mod_cast hm
  have hdiv : x.fdiv (p.cfg.modulus : Int) = x / p.cfg.modulus := Int.fdiv_eq_ediv_of_nonneg x (Int.le_of_lt hpos)
  have hmod : ((x % (p.cfg.modulus : Int)).toNat : Int) = x % p.cfg.modulus := Int.toNat_of_nonneg (Int.emod_nonneg x (Int.ne_of_gt hpos))
  simp only [Port.put, Port.counts, hmax, hmaxInt, hdiv, hmod]
  exact Int.ediv_mul_add_emod x p.cfg.modulus

theorem clampInt_of_mem {lo hi x : Int} (hlo : lo ≤ x) (hhi : x ≤ hi) : clampInt lo hi x = x := by
  unfold clampInt
  rw [if_neg (by omega), if_neg (by omega)]

theorem Port.preset_counts {p : Port} {x : Int} (hlo : posMin p.cfg.modulus ≤ x) (hhi : x ≤ posMax p.cfg.modulus) :
    (p.preset x).counts = x := by
  have hm : 0 < p.cfg.modulus := by
    rcases Nat.eq_zero_or_pos p.cfg.modulus with hzero | hpos
    · simp [hzero, posMin, posMax] at hlo hhi
      omega
    · exact hpos
  have hput (q : Port) (hq : q.cfg = p.cfg) : (q.put x).counts = x := Port.put_counts (hq ▸ hm) x
  unfold Port.preset
  simp only [clampInt_of_mem hlo hhi]
  exact hput _ rfl

theorem setPort_mode (p : Fin 32) (mode modulus : Nat) (s : State) :
    (setPort p mode modulus s).ports.port[p].mode = mode ∧ (setPort p mode modulus s).ports.port[p].cfg.modulus = modulus := by
  unfold setPort
  dsimp only
  split
  next hsame => exact hsame
  next => simp only [onPort_same, and_self]

theorem enableCauses_eq (p : Fin 32) (mask : BitVec 8) (s : State) : enableCauses p mask s =
    ((List.range 8).filter fun k => (mask &&& ~~~s.ports.port[p].cfg.lossMask &&& s.ports.port[p].causesNow).getLsbD k).foldl
      (fun s k => portLoss p (k + 1) s) (onPort p (fun x => { x with cfg := { x.cfg with lossMask := mask } }) s) := rfl

/-- Settles O13: each setting is the one change of the port, and a preset in range leaves exactly the counts given. -/
theorem positionPortsComplete : Obligations.PositionPortsComplete := by
  unfold Obligations.PositionPortsComplete
  refine ⟨fun rq s h hfree hmode => ?config, fun rq s h hfree => ⟨?counts, ?position⟩, fun rq s h hfree => ?index,
    fun rq s h hfree => ?speed, fun rq s h => ?loss, fun rq s h => ?status⟩
  case config =>
    obtain ⟨hm, hmodulus⟩ := setPort_mode (tgt 32 rq) (num rq 0x0100 0 1) (num rq 0x0103 0 4) s
    refine ⟨_, rfl, hm, hmodulus, exec_done rfl h ?_⟩
    have hfixed : ¬(fixedMode (tgt 32 rq) s).any (· != num rq 0x0100 0 1) = true := by
      cases hfix : fixedMode (tgt 32 rq) s with
      | none => simp
      | some m => simp [hmode m hfix]
    simp only [opPpConfig, hfree, if_neg hfixed]
    rfl
  case counts =>
    have hvalues := h.values_eq_none
    have hrange := forall_of_firstDeny_eq_none hvalues _ (List.mem_cons_self ..)
    simp only [Bool.or_eq_false_iff, decide_eq_false_iff_not, Int.not_lt] at hrange
    exact Port.preset_counts hrange.1.2 hrange.2
  case position =>
    refine exec_done rfl h ?_
    unfold opPpSetPosition
    dsimp only
    rw [if_neg (by simp [hfree])]
    congr 3
    funext x
    cases x.ssiAbs <;> simp
  case index => exact exec_done rfl h (by simp only [opPpIndexConfig, hfree]; rfl)
  case speed => exact exec_done rfl h (by simp only [opPpSpeedConfig, hfree]; rfl)
  case loss =>
    refine exec_done rfl h ?_
    unfold opPpLossConfig
    dsimp only
    rw [enableCauses_eq, onPort_same, onPort_onPort]
    rfl
  case status => exact ⟨_, exec_done rfl h rfl, by simp, by simp, by simp⟩

/-! Compare units. -/

/-- The compare unit a COMPARE_DEFINE leaves. -/
def compareDefined (rq : Request) (c : Compare) : Compare :=
  { c with
    port := num rq 0x0100 0 1, modulo := hasBit (num rq 0x0102 0 1) 0, cyclic := hasBit (num rq 0x0102 0 1) 1,
    defined := has rq 0x0101, length := num rq 0x0101 0 2, entries := [], head := 0, rep := 0, done := false }

theorem opCompareDefine_release {rq : Request} {s : State} (henabled : s.ports.cmp[tgt 16 rq].enabled = false)
    (hnone : has rq 0x0101 = false) :
    opCompareDefine.effect rq s = .done (onCmp (tgt 16 rq) (compareDefined rq) (storeRelease (storeCompare (tgt 16 rq)) s))
      [(0x0100, be 2 (storeEntries (onCmp (tgt 16 rq) (compareDefined rq) (storeRelease (storeCompare (tgt 16 rq)) s))))] := by
  unfold opCompareDefine
  dsimp only
  rw [if_neg (by simp [-Fin.getElem_fin, henabled]), if_pos (by simp [hnone])]
  rfl

theorem opCompareDefine_define {rq : Request} {s v : State} (henabled : s.ports.cmp[tgt 16 rq].enabled = false)
    (hsome : has rq 0x0101 = true) (hstore : storeAllocate (storeCompare (tgt 16 rq)) (num rq 0x0101 0 2) s = some v) :
    opCompareDefine.effect rq s = .done (onCmp (tgt 16 rq) (compareDefined rq) v) [(0x0100, be 2 (storeEntries v))] := by
  unfold opCompareDefine
  dsimp only
  rw [if_neg (by simp [-Fin.getElem_fin, henabled]), if_neg (by simp [hsome]), hstore]
  rfl

theorem storeAllocate_ports {owner entries : Nat} {s t : State} (h : storeAllocate owner entries s = some t) : t.ports = s.ports := by
  obtain ⟨a, -, rfl⟩ := Option.map_eq_some_iff.mp h
  rfl

theorem storeRelease_ports (owner : Nat) (s : State) : (storeRelease owner s).ports = s.ports := rfl

theorem opCompareData_effect {rq : Request} {s : State} (henabled : s.ports.cmp[tgt 16 rq].enabled = false)
    (hdefined : s.ports.cmp[tgt 16 rq].defined = true)
    (hplace : num rq 0x0100 0 2 + (value rq 0x0101).length / 32 ≤ s.ports.cmp[tgt 16 rq].length)
    (hentries : ∀ k, k < (value rq 0x0101).length / 32 →
      bad63 (slice (32 * k + 8) 8 (value rq 0x0101)) = false ∧ bad63 (slice (32 * k + 16) 8 (value rq 0x0101)) = false) :
    opCompareData.effect rq s = .done (onCmp (tgt 16 rq) (fun c => { c with
      entries := (List.range ((value rq 0x0101).length / 32)).foldl (fun l k =>
        putKey (num rq 0x0100 0 2 + k) (compareEntry (slice (32 * k) 32 (value rq 0x0101))) l) c.entries }) s) [] := by
  unfold opCompareData
  dsimp only
  rw [if_neg (by simp [-Fin.getElem_fin, henabled, hdefined]), if_neg (Nat.not_lt.mpr hplace), if_neg]
  rw [Bool.not_eq_true]
  refine List.any_eq_false.mpr fun k hk => ?_
  obtain ⟨hposition, hinterval⟩ := hentries k (List.mem_range.mp hk)
  simp [hposition, hinterval]

/-- Settles O14: a unit not enabled takes its list, and arming and forcing are writes of its control register. -/
theorem compareUnitsComplete : Obligations.CompareUnitsComplete := by
  unfold Obligations.CompareUnitsComplete
  refine ⟨fun rq s h henabled hnone => ?release, fun rq s v h henabled hsome hstore => ?define,
    fun rq s h henabled hdefined hplace hentries => ?data, fun rq s h hoff => ?disarm,
    fun rq s h hon hdefined hstart hgood => ?arm, fun rq s h => ?force⟩
  case release =>
    refine ⟨_, _, exec_done rfl h (opCompareDefine_release henabled hnone), ?_, ?_, storeRelease_owner _ _, rfl, fun k hk => ?_⟩
    · rw [onCmp_same]; exact hnone
    · rw [onCmp_same]; rfl
    · rw [onCmp_other hk, storeRelease_ports]
  case define =>
    refine ⟨_, _, exec_done rfl h (opCompareDefine_define henabled hsome hstore), ?_, ?_, ?_, ?_, rfl, rfl, fun k hk => ?_⟩
    · rw [onCmp_same]; exact hsome
    · rw [onCmp_same]; rfl
    · rw [onCmp_same]; rfl
    · rw [onCmp_same]; rfl
    · rw [onCmp_other hk, storeAllocate_ports hstore]
  case data => exact exec_done rfl h (opCompareData_effect henabled hdefined hplace hentries)
  case disarm => exact exec_done rfl h (by simp only [opCompareArm, if_pos hoff])
  case arm =>
    refine exec_done rfl h ?_
    unfold opCompareArm
    dsimp only
    rw [if_neg (by omega), if_neg (by simp [-Fin.getElem_fin, hdefined]), if_neg (Nat.not_le.mpr hstart), hgood]
  case force => exact exec_done rfl h rfl

/-- Settles O15: each is one change of its latch or of the snapshot unit. -/
theorem capturesComplete : Obligations.CapturesComplete := by
  unfold Obligations.CapturesComplete
  refine ⟨fun rq s h => exec_done rfl h rfl, fun rq s h => exec_done rfl h rfl, fun rq s h => exec_done rfl h rfl,
    fun rq s h => ?read, fun rq s h => ?trigger⟩
  case read => exact ⟨_, _, exec_done rfl h rfl, rfl, rfl, List.mem_append_right _ (List.mem_singleton.mpr rfl), rfl, rfl⟩
  case trigger =>
    refine ⟨_, exec_done rfl h ?_, rfl⟩
    simp only [opSnapshotTrigger, h.toe_eq_zero, if_true]
    rfl

end Sys2Proof.Machine

/-! SUPPORT.
The bridge-timer class. -/

namespace Sys2Proof.Machine

theorem opBtaGroupConfig_effect {rq : Request} {s : State} (hquiet : groupQuiet (tgt 32 rq) s = true)
    (hoccupied : s.bta.grp[tgt 32 rq].occupied = true → num rq 0x0100 0 4 = 0 ∧ num rq 0x0101 0 1 ≠ 1 ∧ has rq 0x0102 = false)
    {v w : State} (hv : v = onGrp (tgt 32 rq) (fun x => { x with
        phase := num rq 0x0100 4 4, smp := num rq 0x0100 8 4, gang := num rq 0x0101 0 1 == 1,
        strobe := num rq 0x0101 1 1 - 8, unsealLimit := num rq 0x0101 2 1, sync := num rq 0x0101 3 1 == 1 }) s)
    (hw : w = if num rq 0x0100 0 4 = 0 then v else writePeriod (tgt 32 rq) (num rq 0x0100 0 4) v) :
    opBtaGroupConfig.effect rq s = .done (if has rq 0x0102 = false then w else if num rq 0x0102 0 1 = 0 then stopGroup (tgt 32 rq) w
      else if s.bta.grp[tgt 32 rq].run then w else refreshGroup (tgt 32 rq) (startGroup (tgt 32 rq) w)) [] := by
  have hfree : ¬(s.bta.grp[tgt 32 rq].occupied = true ∧
      (num rq 0x0100 0 4 ≠ 0 ∨ (num rq 0x0101 0 1 == 1) = true ∨ has rq 0x0102 = true)) := by
    rintro ⟨hocc, hany⟩
    obtain ⟨hperiod, hgang, hrun⟩ := hoccupied hocc
    simp [hperiod, hgang, hrun] at hany
  have heffect : opBtaGroupConfig.effect rq s =
      if !groupQuiet (tgt 32 rq) s then .deny conflict
      else if s.bta.grp[tgt 32 rq].occupied ∧ (num rq 0x0100 0 4 ≠ 0 ∨ (num rq 0x0101 0 1 == 1) = true ∨ has rq 0x0102) then .deny conflict
      else if !has rq 0x0102 then .done w []
      else if num rq 0x0102 0 1 = 0 then .done (stopGroup (tgt 32 rq) w) []
      else .done (if s.bta.grp[tgt 32 rq].run then w else refreshGroup (tgt 32 rq) (startGroup (tgt 32 rq) w)) [] := by
    subst hw hv
    rfl
  rw [heffect, if_neg (by simp [hquiet]), if_neg hfree]
  cases has rq 0x0102
  · rfl
  · by_cases hstop : num rq 0x0102 0 1 = 0 <;> simp [hstop]

/-- Settles O16: a group that is quiet takes each setting, and every unit its own. -/
theorem btaSettingsComplete : Obligations.BtaSettingsComplete := by
  unfold Obligations.BtaSettingsComplete
  refine ⟨fun rq s h hquiet hoccupied => ?group, fun rq s h hquiet => ?leg, fun rq s h hquiet hinputs => ?trip,
    fun rq s h => exec_done rfl h rfl, fun rq s h => exec_done rfl h rfl, fun rq s h => exec_done rfl h rfl,
    fun rq s h hunused => ?sdi, fun rq s h hbank => ?bank⟩
  case group => exact ⟨_, _, exec_done rfl h (opBtaGroupConfig_effect hquiet hoccupied rfl rfl), rfl, rfl⟩
  case leg =>
    refine ⟨_, exec_done rfl h ?_, rfl⟩
    unfold opBtaLegConfig
    dsimp only
    rw [if_neg (by simp [hquiet])]
  case trip =>
    refine exec_done rfl h ?_
    have hbound : ¬(has rq 0x0101 = true ∧ ((List.finRange 64).any fun (i : Fin 64) =>
        (ocInputsOf rq).any fun n => s.axis[i].bind.inputs.contains n) = true) := by
      rintro ⟨hgiven, hany⟩
      obtain ⟨i, -, hi⟩ := List.any_eq_true.mp hany
      obtain ⟨n, hn, hin⟩ := List.any_eq_true.mp hi
      exact (hinputs hgiven).2 i n hn (List.contains_iff_mem.mp hin)
    unfold opBtaTripConfig
    dsimp only
    rw [if_neg (by simp [hquiet]), if_neg (fun ⟨hgiven, hocc⟩ => by simp [-Fin.getElem_fin, (hinputs hgiven).1] at hocc), if_neg hbound]
  case sdi =>
    refine exec_done rfl h ?_
    unfold opBtaSdiConfig
    dsimp only
    rw [if_neg]
    rintro ⟨hdev, hused⟩
    obtain ⟨i, -, hi⟩ := List.any_eq_true.mp hused
    simp only [Bool.and_eq_true, beq_iff_eq, List.contains_iff_mem] at hi
    rcases hunused with hcomm | hidle
    · exact hdev hcomm
    · exact hidle i hi.1 hi.2
  case bank =>
    refine ⟨_, exec_begun rfl h ?_, rfl⟩
    unfold opBtaBankLevel
    dsimp only
    rw [if_neg]
    intro hany
    obtain ⟨g, hg, hbusy⟩ := List.any_eq_true.mp hany
    obtain ⟨hquiet, hrun⟩ := hbank g hg
    simp only [hquiet, Bool.not_true, Bool.false_or, Bool.and_eq_true, Bool.not_eq_true'] at hbusy
    rw [hrun hbusy.1] at hbusy
    exact Bool.noConfusion hbusy.2

/-- Settles O17: with nothing still active every held group it names is cleared; duties are written and sealed. -/
theorem btaActionsComplete : Obligations.BtaActionsComplete := by
  unfold Obligations.BtaActionsComplete
  refine ⟨fun rq s h hinactive => ?clear, fun rq s h hfree => ?duty, fun rq s h => exec_done rfl h rfl⟩
  case clear =>
    refine exec_done rfl h ?_
    unfold opBtaTripClear
    dsimp only
    have hnone : ((List.finRange 32).filter fun (g : Fin 32) => (rq.target == 0xFFFF || g.val == rq.target.toNat) &&
        groupHeld g s).find? (fun g => stillActive g s != 0) = none := by
      refine List.find?_eq_none.mpr fun g hg => ?_
      obtain ⟨hnamed, hheld⟩ := Bool.and_eq_true_iff.mp (List.mem_filter.mp hg).2
      have hzero := hinactive g (by simpa only [Bool.or_eq_true, beq_iff_eq] using hnamed) hheld
      simp [hzero]
    rw [hnone]
  case duty =>
    refine ⟨_, exec_done rfl h ?_, rfl⟩
    unfold opBtaDutySet
    dsimp only
    rw [if_neg (by simp [-Fin.getElem_fin, hfree])]

end Sys2Proof.Machine

/-! SUPPORT.
The stepper class and the remote bricks. -/

namespace Sys2Proof.Machine

theorem onStep_other {i k : Fin 64} (hne : k ≠ i) (f : Stepper → Stepper) (s : State) :
    (onStep i f s).stepper.slot[k] = s.stepper.slot[k] := upd_other s.stepper.slot i k f hne.symm

theorem onStep_same (i : Fin 64) (f : Stepper → Stepper) (s : State) : (onStep i f s).stepper.slot[i] = f s.stepper.slot[i] :=
  upd_same s.stepper.slot i f

/-- The stepper of a slot with its microstep position moved by d, the jump booked. -/
def Stepper.jump (d : Int) (y : Stepper) : Stepper :=
  { y with
    m := y.m + d, mOff := y.mOff + d, mPrev := y.mPrev + d, spPrev := y.spPrev + 65536 * d,
    presetPos := bumpFwd y.presetPos d, presetNeg := bumpRev y.presetNeg d }

/-- The state with the microstep position of a slot made m and the set-point moved with it. -/
def stepperPlaced (i : Fin 64) (m : Int) (s : State) : State :=
  onPax i (fun x => { x with pos := m * 65536 })
    (onAx i (fun a => { a with posSp := m * 65536 }) (onStep i (Stepper.jump (m - s.stepper.slot[i].m)) s))

theorem stepperPlaced_stepper (i : Fin 64) (m : Int) (s : State) :
    (stepperPlaced i m s).stepper = (onStep i (Stepper.jump (m - s.stepper.slot[i].m)) s).stepper := rfl

theorem stepperPlaced_axis (i : Fin 64) (m : Int) (s : State) :
    (stepperPlaced i m s).axis = upd s.axis i (fun a => { a with posSp := m * 65536 }) := rfl

theorem opStepperSetPosition_effect {rq : Request} {s : State} (hstill : s.axis[tgt 64 rq].st = .disabled ∨
      s.axis[tgt 64 rq].st = .enabled ∧ s.axis[tgt 64 rq].standstill = true ∧ s.plan.ax[tgt 64 rq].activity = 0) :
    opStepperSetPosition.effect rq s = .done (stepperPlaced (tgt 64 rq) (int rq 0x0100 0 8) s) [] := by
  unfold opStepperSetPosition
  dsimp only
  rw [if_neg]
  · rfl
  · rcases hstill with hdisabled | ⟨henabled, hstand, hidle⟩
    · simp [-Fin.getElem_fin, hdisabled]
    · simp [-Fin.getElem_fin, henabled, hstand, hidle]

/-- A brick that is to be registered anew carries no bound slot, or keeps its link. -/
theorem brickKept_of_free {rq : Request} {s : State} (hfree : sameLink rq s.bricks.brick[tgt 64 rq] = true ∨
      s.bricks.brick[tgt 64 rq].registered = false ∨ brickSlots (tgt 64 rq) s = []) :
    ¬((!sameLink rq s.bricks.brick[tgt 64 rq]) = true ∧ s.bricks.brick[tgt 64 rq].registered = true ∧
      (!(brickSlots (tgt 64 rq) s).isEmpty) = true) := by
  rintro ⟨hsame, hregistered, hslots⟩
  rcases hfree with h | h | h
  · simp [-Fin.getElem_fin, h] at hsame
  · simp [-Fin.getElem_fin, h] at hregistered
  · simp [h] at hslots

/-- Settles O18: a stepper takes its settings and a position; a brick or frame group that the proof admits is set. -/
theorem stepperAndBricksComplete : Obligations.StepperAndBricksComplete := by
  unfold Obligations.StepperAndBricksComplete
  refine ⟨fun rq s h hstate => ?config, fun rq s h => exec_done rfl h rfl, fun rq s h hstill => ?position,
    fun rq s h hfree hnone => ?release, fun rq s t h hfree hlink ht hproof => ?register, fun rq s t h ht hproof => ?group,
    fun rq s h => ?status⟩
  case config =>
    refine exec_done rfl h ?_
    unfold opStepperConfig
    dsimp only
    rw [if_neg]
    rcases hstate with hdev | hdisabled | ⟨henabled, hmode, hramps, hmemory⟩
    · simp [hdev]
    · simp [-Fin.getElem_fin, hdisabled]
    · simp [-Fin.getElem_fin, henabled, hmode, hramps, hmemory]
  case position =>
    refine ⟨_, _, rfl, exec_done rfl h (opStepperSetPosition_effect hstill), rfl, ?_, ?_, fun k hk => ⟨?_, ?_⟩⟩
    · rw [stepperPlaced_stepper, onStep_same]
      change s.stepper.slot[tgt 64 rq].m + (int rq 256 0 8 - s.stepper.slot[tgt 64 rq].m) = _
      omega
    · rw [stepperPlaced_axis, upd_same]
    · rw [stepperPlaced_stepper, onStep_other hk]
    · rw [stepperPlaced_axis, upd_other _ _ _ _ hk.symm]
  case release =>
    refine exec_done rfl h ?_
    unfold opBrickRegister
    dsimp only
    rw [if_neg (brickKept_of_free hfree), if_pos (by simp [hnone])]
  case register =>
    subst ht
    refine exec_done rfl h ?_
    unfold opBrickRegister
    dsimp only
    rw [if_neg (brickKept_of_free hfree), if_neg (by simp [hlink]), hproof]
  case group =>
    subst ht
    refine exec_done rfl h ?_
    unfold opFrameGroupConfig
    dsimp only
    rw [hproof]
  case status => exact ⟨_, exec_done rfl h rfl, by simp⟩

end Sys2Proof.Machine

/-! SUPPORT.
The backbone class: the switch's settings and the trust of a time base. -/

namespace Sys2Proof.Machine

theorem opPortConfig_effect {rq : Request} {s : State} (hgroups : portFrameGroups (tgt 4 rq).val s = [] ∨ breaksGroup rq = false)
    {p n : NetPort} {u v : State} (hp : p = s.net.port[ext (tgt 4 rq)]) (hn : n = p.configured rq s.now)
    (hu : u = onNetPort (ext (tgt 4 rq)) (NetPort.configured rq s.now) s)
    (hv : v = if p.link ∧ (n.advertise != p.advertise || n.forced != p.forced || n.mdi != p.mdi || n.state == 2)
      then dropLink (tgt 4 rq) u else u) :
    opPortConfig.effect rq s = .done (if has rq 0x0104 then v.onNet fun n => { n with age := num rq 0x0104 0 4 } else v) [] := by
  have hallowed : ¬((!(portFrameGroups (tgt 4 rq).val s).isEmpty) = true ∧ breaksGroup rq = true) := by
    rcases hgroups with h | h <;> simp [h]
  subst hv hu hn hp
  unfold opPortConfig
  dsimp only
  rw [if_neg hallowed]

theorem opFdbStatic_remove {rq : Request} {s : State} (hzero : num rq 0x0100 8 1 = 0) :
    opFdbStatic.effect rq s = .done (s.onNet fun n => { n with fdbStatic := s.net.fdbStatic.filter fun x =>
      !(x.mac == BitVec.ofNat 48 (num rq 0x0100 0 6) && x.vid == num rq 0x0100 6 2) }) [] := by
  unfold opFdbStatic
  dsimp only
  rw [if_pos (by simp [hzero])]

theorem opFdbStatic_set {rq : Request} {s : State} {e : Fdb}
    (he : e = { mac := BitVec.ofNat 48 (num rq 0x0100 0 6), vid := num rq 0x0100 6 2, ports := BitVec.ofNat 5 (num rq 0x0100 8 1) })
    (hports : e.ports ≠ 0) (hroom : (s.net.fdbStatic.filter fun x => !(x.mac == e.mac && x.vid == e.vid)).length < 256) :
    opFdbStatic.effect rq s = .done (s.onNet fun n => { n with
      fdbStatic := (s.net.fdbStatic.filter fun x => !(x.mac == e.mac && x.vid == e.vid)) ++ [e],
      fdbDyn := n.fdbDyn.filter fun x => !(x.mac == e.mac && x.vid == e.vid) }) [] := by
  subst he
  unfold opFdbStatic
  dsimp only at hports hroom ⊢
  rw [if_neg hports, if_neg (Nat.not_le.mpr hroom)]

/-- A forwarding entry of a ready request has a port exactly where its port field is not 0. -/
theorem fdbPorts_ne_zero {rq : Request} {s : State} (h : Ready opFdbStatic rq s) (hports : num rq 0x0100 8 1 ≠ 0) :
    BitVec.ofNat 5 (num rq 0x0100 8 1) ≠ 0 := by
  have hrange := forall_of_firstDeny_eq_none h.values_eq_none _ (List.mem_cons_self ..)
  simp only [Bool.or_eq_false_iff, decide_eq_false_iff_not, Nat.not_lt] at hrange
  have hle : num rq 0x0100 8 1 < 32 := by omega
  intro hzero
  have := congrArg BitVec.toNat hzero
  simp only [BitVec.toNat_ofNat] at this
  exact hports (by simpa [Nat.mod_eq_of_lt hle] using this)

/-- Settles O19: each opcode is one change of the switch, with its refusals excluded. -/
theorem switchSettingsComplete : Obligations.SwitchSettingsComplete := by
  unfold Obligations.SwitchSettingsComplete
  refine ⟨fun rq s h hgiven => ?address, fun rq s p n h hgroups hp hn => ?port, fun rq s h hnone => ?vlanGone,
    fun rq s h hgiven hroom => ?vlan, fun rq s h hzero => ?fdbGone, fun rq s e h hports he hroom => ?fdb,
    fun rq s h hgroups hempty => ?gatesGone, fun rq s l h hgroups hl hentries => ?gates, fun rq s k h hk => ?shaper,
    fun rq s k h hnone hk hfree hslope => ?newShaper, fun rq s h hnone hslope => ?noShaper, fun rq s h => ?status⟩
  case address =>
    refine exec_done rfl h ?_
    unfold opNetAddrConfig
    dsimp only
    rw [if_neg (by simp [hgiven])]
  case port =>
    refine ⟨_, _, exec_done rfl h (opPortConfig_effect hgroups hp hn rfl rfl), rfl, ?_, ?_⟩
    · split
      · rfl
      · split <;> rfl
    · simp only [Bool.or_eq_true, bne_iff_ne, beq_iff_eq, or_assoc]
      split <;> split <;> rfl
  case vlanGone =>
    refine exec_done rfl h ?_
    unfold opVlanConfig
    dsimp only
    rw [if_pos (by simp [hnone])]
  case vlan =>
    refine ⟨_, { vid := rq.target.toNat, members := BitVec.ofNat 5 (num rq 0x0100 0 1), untagged := BitVec.ofNat 5 (num rq 0x0100 1 1) },
      exec_done rfl h ?_, rfl, rfl, rfl, rfl⟩
    unfold opVlanConfig
    dsimp only
    rw [if_neg (by simp [hgiven]), if_neg (Nat.not_le.mpr hroom)]
  case fdbGone =>
    exact ⟨_, exec_done rfl h (opFdbStatic_remove hzero), rfl, rfl⟩
  case fdb => exact exec_done rfl h (opFdbStatic_set he (he ▸ fdbPorts_ne_zero h hports) hroom)
  case gatesGone =>
    refine exec_done rfl h ?_
    unfold opGateListSet
    dsimp only
    rw [if_neg (by simp [hgroups]), if_pos hempty]
  case gates =>
    subst hl
    refine exec_done rfl h ?_
    unfold opGateListSet
    dsimp only
    rw [if_neg (by simp [hgroups]), if_neg hentries]
  case shaper =>
    refine exec_done rfl h ?_
    unfold opCbsConfig
    dsimp only
    rw [hk]
  case newShaper =>
    have hfirst : (⟨2 * (tgt 4 rq).val, by omega⟩ : Fin 8) = k := Fin.ext hk.symm
    refine exec_done rfl h ?_
    unfold opCbsConfig
    dsimp only
    rw [hnone, hfirst, List.find?_cons_of_pos (by simp [-Fin.getElem_fin, hfree])]
    dsimp only
    rw [if_neg hslope]
  case noShaper =>
    refine exec_done rfl h ?_
    unfold opCbsConfig
    dsimp only
    rw [hnone]
    split
    next => contradiction
    next => rw [if_pos hslope]
    next => rfl
  case status => exact ⟨_, exec_done rfl h rfl, by simp, by simp⟩

/-! Time bases. -/

/-- Two answers of one command leave the same switch and time bases. -/
theorem net_of_answered {o : Op} {rq : Request} {s u v : State} {r q : List Res}
    (hsame : answered o rq s u r = answered o rq s v q) : u.net = v.net := by
  have hnet (t : State) (l : List Res) : (conclude o rq false (.done t l) s).net = t.net :=
    conclude_done_keeps (Keeps.net_same rfl t) rfl
  have hconcluded := congrArg State.net (Host.Outcome.next.inj hsame)
  simpa only [hnet] using hconcluded

/-- Operational, with base 1 following base 0 and not yet brought in line with it. -/
def followerBehind : State := Tests.oper.onNet fun n => { n with tb := upd n.tb 1 fun t => { t with mode := 2, follows := 0, sync := false } }

/-- DOMAIN_TRUST of the primary of base 0. -/
def trustPrimary : Request := Tests.ask 0 [(0x0100, [0])]

/-- Refutes O20: DOMAIN_TRUST brings every base that follows another in line with it (R328), so the bases other than its own need not
stay as they were: here base 1 takes the synchronisation of base 0. -/
theorem not_timeCommandsComplete : ¬ Obligations.TimeCommandsComplete := by
  unfold Obligations.TimeCommandsComplete
  rintro ⟨-, -, -, -, -, -, htrust, -⟩
  have hready : Ready opDomainTrust trustPrimary followerBehind := Tests.ready (by decide +kernel)
  obtain ⟨u, hclaim, -, -, hothers⟩ := htrust _ _ hready
  have hmodel := exec_done (c := .domainTrust trustPrimary) rfl hready rfl
  have hsame := net_of_answered (hmodel.symm.trans hclaim)
  have hkept := congrArg TimeBase.sync (hothers 1 (by decide +kernel))
  rw [← hsame] at hkept
  revert hkept
  decide +kernel

end Sys2Proof.Machine

/-! SUPPORT.
The opcode classes of the safety island, of Field I/O and of CAN. -/

namespace Sys2Proof.Machine

/-! The safety island. -/

theorem opLodgeParamStage_effect {rq : Request} {s : State} (hbusy : lodgeBusy s = none)
    (hkey : s.lodge.keyHash = some (sha256 (value rq 0x0101)))
    (hsigned : ecdsaOk (value rq 0x0101) ((value rq 0x0100).take 0xC0) ((value rq 0x0100).drop 0xC0) = true)
    (hset : setFault (value rq 0x0100) = none) :
    opLodgeParamStage.effect rq s = .done (s.onLodge fun b => { b with staged := some (parseSet (value rq 0x0100)), stagedAt := b.time })
      [(0x0100, be 4 (setCrc (value rq 0x0100)).toNat)] := by
  unfold opLodgeParamStage
  dsimp only
  rw [hbusy]
  dsimp only
  rw [if_neg (by simp [hkey, hsigned]), hset]

theorem opLodgeParamConfirm_effect {rq : Request} {s : State} {p : LodgeParams} (hbusy : lodgeBusy s = none)
    (hstaged : s.lodge.staged = some p) (hfault : s.lodge.st ≠ .safeFault) (htime : s.lodge.time < s.lodge.stagedAt + 60000000000)
    (hcrc : num rq 0x0100 0 4 = (setCrc p.bytes).toNat) :
    opLodgeParamConfirm.effect rq s =
      .wait (leaveRun .switching (s.onLodge fun b => { b with staged := none, switching := some p })) 0x0902 [] := by
  unfold opLodgeParamConfirm
  dsimp only
  rw [hbusy, hstaged]
  dsimp only
  rw [if_neg (not_or.mpr ⟨hfault, Nat.not_le.mpr htime⟩), if_neg (not_not_intro hcrc)]

/-- Settles O21: with every refusal of its class excluded each opcode does its work at once, and the confirm waits for the switch. -/
theorem lodgeCommandsComplete : Obligations.LodgeCommandsComplete := by
  unfold Obligations.LodgeCommandsComplete
  refine ⟨fun rq s h => ?read, fun rq s h hbusy hkey hsigned hset => exec_done rfl h (opLodgeParamStage_effect hbusy hkey hsigned hset),
    fun rq s p h hbusy hstaged hfault htime hcrc => exec_begun rfl h (opLodgeParamConfirm_effect hbusy hstaged hfault htime hcrc),
    fun rq s h hpresent hkey => ?key, fun rq s h hpresent => ?clear⟩
  case read => exact ⟨_, exec_done rfl h rfl, by simp, by simp⟩
  case key => exact exec_done rfl h (by simp only [opLodgeKeyEnrol, hpresent, hkey, Option.isSome_none, Bool.false_eq_true, or_self, if_false])
  case clear => exact exec_done rfl h (by simp only [opLodgeFaultClear, if_neg hpresent])

/-! Field I/O. -/

/-- Settles O22: a powered die takes its configuration and its commands. -/
theorem fieldIoComplete : Obligations.FieldIoComplete := by
  unfold Obligations.FieldIoComplete
  refine ⟨fun rq s h hpowered => ?group, fun rq s h hpowered => ?input, fun rq s h hpowered => ?output, fun rq s gs h hgs hfree => ?set,
    fun rq s h => ⟨_, exec_done rfl h rfl, by simp⟩, fun rq s h => ⟨_, _, exec_done rfl h rfl, rfl⟩⟩
  case group =>
    refine exec_done rfl h ?_
    unfold opFioGroupConfig
    dsimp only
    rw [if_neg (by simp [-Fin.getElem_fin, hpowered])]
  case input =>
    refine exec_done rfl h ?_
    unfold opFioInputConfig
    dsimp only
    rw [if_neg (by simp [-Fin.getElem_fin, hpowered])]
  case output =>
    refine exec_done rfl h ?_
    unfold opFioOutputConfig
    dsimp only
    rw [if_neg (by simp [-Fin.getElem_fin, hpowered])]
  case set =>
    subst hgs
    refine exec_done rfl h ?_
    unfold opFioOutputSet
    dsimp only
    rw [if_neg]
    rw [Bool.not_eq_true]
    refine List.any_eq_false.mpr fun g hg => ?_
    obtain ⟨hpowered, hmapped⟩ := hfree g hg
    simp [-Fin.getElem_fin, hpowered, hmapped]

/-! CAN. -/

@[simp] theorem onCtl_same (c : Fin 4) (f : CanCtl → CanCtl) (s : State) : (onCtl c f s).can.ctl[c] = f s.can.ctl[c] :=
  upd_same s.can.ctl c f

theorem onCtl_other {c k : Fin 4} (hne : k ≠ c) (f : CanCtl → CanCtl) (s : State) : (onCtl c f s).can.ctl[k] = s.can.ctl[k] :=
  upd_other s.can.ctl c k f hne.symm

/-- The configuration a CAN_CONFIG carries. -/
def canConfigOf (rq : Request) : CanCfg :=
  { mode := num rq 0x0100 0 1, nominal := nominalOf (value rq 0x0101)
    data := if has rq 0x0102 then some (dataOf (value rq 0x0102)) else none
    fd := hasBit (num rq 0x0103 0 1) 0, autoRecover := hasBit (num rq 0x0103 0 1) 1, block0 := hasBit (num rq 0x0103 0 1) 2
    block1 := hasBit (num rq 0x0103 0 1) 3, retry := num rq 0x0103 1 1, defaultReject := num rq 0x0103 2 1 == 1 }

theorem opCanConfig_effect (rq : Request) (s : State) : opCanConfig.effect rq s =
    if s.can.ctl[tgt 4 rq].sending.isSome then
      .wait (onCtl (tgt 4 rq) (fun x => { x with cfgNext := some (canConfigOf rq) }) s) (tgt 4 rq).val []
    else .done (putConfig (tgt 4 rq) (canConfigOf rq) s) [] := rfl

/-- Settles O23: each opcode is one change of its controller. -/
theorem canCommandsComplete : Obligations.CanCommandsComplete := by
  unfold Obligations.CanCommandsComplete
  refine ⟨fun rq s h hidle => ?config, fun rq s x h hsending => ?configLater, fun rq s h => ?filters, fun rq s h hmode => ?matrix,
    fun rq s h => exec_done rfl h rfl, fun rq s h hmode hroom => ?send, fun rq s k l h hk hl => ?read,
    fun rq s h => ⟨_, exec_done rfl h rfl, by simp⟩, fun rq s h => ⟨_, exec_done rfl h rfl, rfl⟩, fun rq s h hon => ?on,
    fun rq s h hoff hfew => ?wish, fun rq s h hoff hseen => ?recover⟩
  case config =>
    refine ⟨canConfigOf rq, exec_done rfl h ?_, rfl, rfl, rfl, rfl, rfl⟩
    rw [opCanConfig_effect, hidle]
    rfl
  case configLater =>
    refine ⟨canConfigOf rq, exec_begun rfl h ?_, rfl⟩
    rw [opCanConfig_effect, hsending]
    rfl
  case filters =>
    refine ⟨_, exec_done rfl h rfl, ?_, ?_, fun k hk => onCtl_other hk _ _⟩
    · rw [onCtl_same]
    · rw [onCtl_same]
      exact List.foldl_map ..
  case matrix =>
    refine exec_done rfl h ?_
    unfold opCanTtConfig
    dsimp only
    rw [if_neg (not_not_intro hmode)]
  case send =>
    refine exec_done rfl h ?_
    unfold opCanTx
    dsimp only
    rw [if_neg (not_not_intro hmode), if_neg (Nat.not_le.mpr hroom)]
  case read =>
    subst hl hk
    refine ⟨_, exec_done rfl h rfl, ?_, ?_, fun c hc => onCtl_other hc _ _⟩
    · rw [onCtl_same]
      dsimp only
      rw [upd_same]
    · rw [onCtl_same]
      dsimp only
      rw [upd_same]
  case on => exact exec_done rfl h (if_pos hon)
  case wish =>
    refine exec_done rfl h ?_
    unfold opCanBusRecover
    dsimp only
    rw [if_neg (not_not_intro hoff), if_neg (Nat.not_le.mpr hfew)]
  case recover =>
    refine exec_done rfl h ?_
    unfold opCanBusRecover
    dsimp only
    rw [if_neg (not_not_intro hoff), if_pos hseen]

end Sys2Proof.Machine

/-! SUPPORT.
The opcode classes of the serial ports, of acquisition and of the dispatcher and lanes. -/

namespace Sys2Proof.Machine

/-! The Memory Port. -/

theorem fresh_serial (s : State) : (fresh s).2.serial = s.serial := rfl

theorem opSpmErase_effect {rq : Request} {s : State} {r : Profile} (hprofile : s.serial.sel[tgt 4 rq].profile = some r)
    (hregion : keeperRegion (tgt 4 rq) (eraseSpan rq r).1 = false) (hidle : spmBusy (tgt 4 rq) s = false) :
    opSpmErase.effect rq s = .wait (onSpm (tgt 4 rq) (fun x => { x with
      opBusy := true, opErase := true, opStart := s.now, opPoll := s.now, opRange := eraseSpan rq r })
        (dropLines (tgt 4 rq) (eraseSpan rq r).1 (eraseSpan rq r).2 s)) (tgt 4 rq).val [] := by
  unfold opSpmErase
  dsimp only
  rw [hprofile]
  dsimp only
  rw [if_neg (by simp [hregion]), if_neg (by simp [hidle])]

/-- Settles O24: each opcode of an idle or busy select does what the class gives. -/
theorem memoryPortComplete : Obligations.MemoryPortComplete := by
  unfold Obligations.MemoryPortComplete
  refine ⟨fun rq s h hselect hidle => ?profile, fun rq s h hpresent hsfdp => ?discover,
    fun rq s r h hprofile hregion hidle => exec_begun rfl h (opSpmErase_effect hprofile hregion hidle), fun rq s h hidle => ?flush,
    fun rq s h hbusy => ?flushLater, fun rq s h => exec_done rfl h rfl, fun rq s h => exec_done rfl h rfl⟩
  case profile =>
    refine exec_done rfl h ?_
    unfold opSpmProfileSet
    dsimp only
    rw [if_neg hselect, if_neg (by simp [hidle])]
  case discover =>
    refine ⟨_, exec_done rfl h ?_, fresh_serial s⟩
    unfold opSpmDiscover
    dsimp only
    rw [if_neg (by simp [-Fin.getElem_fin, hpresent]), if_neg hsfdp]
  case flush => exact exec_done rfl h (if_neg (by simp [hidle]))
  case flushLater => exact exec_begun rfl h (if_pos hbusy)

/-! Acquisition. -/

/-- Two answers of one command leave the same acquisition engine. -/
theorem acq_of_answered {o : Op} {rq : Request} {s u v : State} {r q : List Res}
    (hsame : answered o rq s u r = answered o rq s v q) : u.acq = v.acq := by
  have hacq (t : State) (l : List Res) : (conclude o rq false (.done t l) s).acq = t.acq :=
    conclude_done_keeps (Keeps.acq_same rfl t) rfl
  have hconcluded := congrArg State.acq (Host.Outcome.next.inj hsame)
  simpa only [hacq] using hconcluded

theorem opAcqRead_kept {rq : Request} {s : State} (hcomplete : s.acq.seg[tgt 64 rq].use = 2) (hrelease : num rq 0x0102 0 1 ≠ 1) :
    opAcqRead.effect rq s = .done (awaitSegment s) [(0x0100, s.acq.seg[tgt 64 rq].header),
      (0x0101, ((List.range (num rq 0x0101 0 2)).filterMap fun k => recordAt (tgt 64 rq) (num rq 0x0100 0 4 + k) s).flatMap
        fun v => be 8 v.toNat)] := by
  unfold opAcqRead
  dsimp only
  rw [if_neg (not_not_intro hcomplete), if_neg hrelease]

/-- Operational, with a complete first segment and an engine that waits for a segment although another one is free. -/
def awaitingSegment : State := Tests.oper.onAcq fun b => { b with
  st := 4, segments := 2, rearmAt := none, seg := upd b.seg 0 fun x => { x with use := 2 } }

/-- ACQ_READ of one record of the first segment, without RELEASE. -/
def readSegment : Request := Tests.ask 0 [(0x0100, be 4 0), (0x0101, be 2 1)]

/-- Refutes O25: ACQ_READ without RELEASE too has a waiting engine look for a free segment, so that it may leave the instant of
re-arming noted and the state not as it was. -/
theorem not_acquisitionComplete : ¬ Obligations.AcquisitionComplete := by
  unfold Obligations.AcquisitionComplete
  rintro ⟨-, -, -, -, -, -, -, -, -, -, -, hread, -⟩
  have hready : Ready opAcqRead readSegment awaitingSegment := Tests.ready (by decide +kernel)
  obtain ⟨u, r, hclaim, -, hkept, -⟩ := hread _ _ hready (by decide +kernel)
  have hu : u = awaitingSegment := hkept (by decide +kernel)
  have hmodel := exec_done (c := .acqRead readSegment) rfl hready (opAcqRead_kept (by decide +kernel) (by decide +kernel))
  have hsame := congrArg AcqBlk.rearmAt (acq_of_answered (hmodel.symm.trans hclaim))
  rw [hu] at hsame
  revert hsame
  decide +kernel

/-! The dispatcher and the lanes. -/

/-- Settles O27: each opcode is one change of its thread, timer, port or lane. -/
theorem threadCommandsComplete : Obligations.ThreadCommandsComplete := by
  unfold Obligations.ThreadCommandsComplete
  refine ⟨fun rq s t h hload => ?load, fun rq s h hoff => ?define, fun rq s h hdefined hon hlane => ?start,
    fun rq s h hdefined hoff hruns => ?stopLater, fun rq s h hdefined hoff hnot hpre => ?stop, fun rq s h => exec_done rfl h rfl,
    fun rq s h => exec_done rfl h rfl, fun rq s h hstate => ?stall, fun rq s h hplug => ?status, fun rq s h hown => ?own,
    fun rq s h => exec_done rfl h rfl, fun rq s h hkey => ?key⟩
  case load => exact exec_done rfl h (by simp only [opPluginLoad, hload])
  case define =>
    refine exec_done rfl h ?_
    unfold opThreadDefine
    dsimp only
    rw [if_neg (by simp [-Fin.getElem_fin, hoff])]
  case start =>
    refine exec_done rfl h ?_
    unfold opThreadEnable
    dsimp only
    rw [if_neg (by simp [-Fin.getElem_fin, hdefined]), if_pos hon, if_neg (by rw [Bool.not_eq_true, Option.isNone_eq_false_iff]; exact hlane)]
    split <;> rfl
  case stopLater =>
    refine exec_begun rfl h ?_
    unfold opThreadEnable
    dsimp only
    rw [if_neg (by simp [-Fin.getElem_fin, hdefined]), if_neg (by omega), if_pos hruns]
  case stop =>
    refine exec_done rfl h ?_
    unfold opThreadEnable
    dsimp only
    rw [if_neg (by simp [-Fin.getElem_fin, hdefined]), if_neg (by omega), if_neg (not_or.mpr ⟨hnot, hpre⟩)]
  case stall =>
    refine exec_done rfl h ?_
    unfold opPluginPortConfig
    dsimp only
    rw [if_neg]
    rintro ⟨hdev, hst⟩
    exact hstate.elim hdev hst
  case status => exact ⟨_, exec_done rfl h (if_neg (Nat.not_lt.mpr hplug)), by simp⟩
  case own => exact ⟨_, _, exec_done rfl h (if_pos hown), rfl⟩
  case key =>
    refine exec_done rfl h ?_
    unfold opLaneKeyEnrol
    dsimp only
    rw [if_neg (by simp [hkey])]

end Sys2Proof.Machine

/-! SUPPORT.
Packets: reception, duplicates, and the commands that wait for their time-of-effect. -/

namespace Sys2Proof.Machine

/-! What sending a reply leaves. -/

/-- The state t is s after replies alone: another packet region, in it the same commands pending, under way and waiting. -/
def State.repliesTo (s t : State) : Prop :=
  t = s.onPkts (fun _ => t.pkts) ∧ t.pkts.pending = s.pkts.pending ∧ t.pkts.executing = s.pkts.executing ∧
  t.pkts.blocked = s.pkts.blocked

theorem State.repliesTo.trans {s t u : State} (h : s.repliesTo t) (k : t.repliesTo u) : s.repliesTo u := by
  obtain ⟨hregion, hpending, hexecuting, hblocked⟩ := h
  obtain ⟨kregion, kpending, kexecuting, kblocked⟩ := k
  refine ⟨?_, kpending.trans hpending, kexecuting.trans hexecuting, kblocked.trans hblocked⟩
  rw [hregion] at kregion
  exact kregion

/-- Replies leave every block but the packet queues. -/
theorem State.repliesTo.same {s t : State} (h : s.repliesTo t) {b : Block} (hb : b ≠ .pkts) : b.same s t := by
  rw [h.1]
  cases b with
  | pkts => exact absurd rfl hb
  | flash => exact fun _ => rfl
  | ldata => exact fun _ => rfl
  | _ => exact rfl

theorem emit_replies (src : Source) (p : List Byte) (s : State) : s.repliesTo (emit src p s) := by
  unfold emit
  dsimp only
  cases src with
  | hostPort =>
    dsimp only [State.onPkts]
    split <;> exact ⟨rfl, rfl, rfl, rfl⟩
  | udp a p => exact ⟨rfl, rfl, rfl, rfl⟩

/-! Duplicates (R78). -/

theorem heardFrom_replies (src : Source) (s : State) : s.repliesTo (heardFrom src s) := ⟨rfl, rfl, rfl, rfl⟩

theorem getLsbD_ofNat_eq_hasBit {w k : Nat} (hk : k < w) (n : Nat) : (BitVec.ofNat w n).getLsbD k = hasBit n k := by
  rw [BitVec.getLsbD_ofNat, decide_eq_true hk, Bool.true_and, Nat.testBit_eq_decide_div_mod_eq]
  rfl

/-- A packet that steps 1 to 4 pass without a tag goes on to step 5. -/
theorem takePacket_of_untagged {src : Source} {arrival : Nat} {p : List Byte} {s : State} (hlock : lockedOut src s = false)
    (hlen : 24 ≤ p.length) (hmagic : pktField p 0 2 = 0x4B5A) (hreply : pktFlag p 1 = false) (hversion : pktField p 2 1 = 1)
    (hparams : pktField p 12 2 ≤ 1432) (hlength : pktLength p = p.length) (hplain : pktFlag p 0 = false) :
    takePacket src false arrival p s = acceptPacket (requestOf src arrival false p) (pktField p 8 2) s := by
  simp [takePacket, hlock, Nat.not_lt.mpr hlen, hmagic, hreply, hversion, Nat.not_lt.mpr hparams, hlength, hplain]

/-- Step 5 finds a sequence of the window seen with the same opcode and tag. -/
theorem windowCheck_of_seen {rq : Request} {opcode : Nat} {s : State} {w : Window} {e : Seen} (hw : windowOf rq.src s = some w)
    (hresync : rq.flags.getLsbD 3 = false) (hrange : (w.h - rq.seq).toNat ≤ 63)
    (hseen : w.seen.find? (fun e => e.seq == rq.seq) = some e) (hopcode : e.opcode = opcode) (htag : e.tag = rq.tag) :
    windowCheck rq opcode s = .duplicate e.reply := by
  unfold windowCheck
  rw [hw]
  dsimp only
  rw [if_neg (Bool.eq_false_iff.mp hresync), if_neg (by simp [-BitVec.toNat_sub, Nat.not_lt.mpr hrange]), hseen]
  exact if_pos ⟨hopcode, htag⟩

theorem emit_udpOut {src : Source} (hsrc : src ≠ .hostPort) (p : List Byte) (s : State) :
    (emit src p s).pkts.udpOut = s.pkts.udpOut ++ [{ dst := src, bytes := sealed p s }] ∧ (emit src p s).pkts.outbox = s.pkts.outbox := by
  cases src with
  | hostPort => exact absurd rfl hsrc
  | udp a p => exact ⟨rfl, rfl⟩

/-- The answer to a duplicate with a cached reply. -/
theorem answerDuplicate_some (rq : Request) (r : List Byte) (s : State) : answerDuplicate rq (some r) s =
    if rq.flags.getLsbD 2 && goodReply r then s else emit rq.src (repeated r) s := rfl

/-- Settles O55: the duplicate is found by steps 1 to 5, and all it gives is the cached reply. -/
theorem duplicatesExecuteNothing : Obligations.DuplicatesExecuteNothing := by
  unfold Obligations.DuplicatesExecuteNothing
  intro src p s w e r hsrc hserved hawake href hdev hhalt hlock hlen hmagic hreply hversion hparams hlength hplain hresync hw hrange
    hseen hopcode htag hcached
  have hflag (k : Nat) (hk : k < 8) : (requestOf src s.wall false p).flags.getLsbD k = pktFlag p k := getLsbD_ofNat_eq_hasBit hk _
  have hcheck : windowCheck (requestOf src s.wall false p) (pktField p 8 2) s = .duplicate (some r) :=
    hcached ▸ windowCheck_of_seen hw (by rw [hflag 3 (by decide), hresync]) hrange hseen hopcode htag
  have htake : takePacket src false s.wall p s =
      if pktFlag p 2 && goodReply r then heardFrom src s else emit src (repeated r) (heardFrom src s) := by
    rw [takePacket_of_untagged hlock hlen hmagic hreply hversion hparams hlength hplain, acceptPacket, hcheck]
    dsimp only
    rw [answerDuplicate_some, hflag 2 (by decide)]
    rfl
  have hreplies : s.repliesTo (takePacket src false s.wall p s) := by
    rw [htake]
    split
    · exact heardFrom_replies src s
    · exact (heardFrom_replies src s).trans (emit_replies _ _ _)
  have hsame (b : Block) (hb : b ≠ .pkts) := hreplies.same hb
  obtain ⟨hout, hbox⟩ := emit_udpOut hsrc (repeated r) (heardFrom src s)
  obtain ⟨-, hpending, hexecuting, hblocked⟩ := hreplies
  refine ⟨_, exec_ruhityDatagram_of_served hsrc hserved hawake href hdev hhalt false false true p, hsame, hpending, hexecuting,
    hblocked, ?_, ?_⟩
  · change (takePacket src false s.wall p s).pkts.outbox = s.pkts.outbox
    rw [htake]
    split
    · rfl
    · exact hbox
  · change (takePacket src false s.wall p s).pkts.udpOut = _
    rw [htake]
    split
    · rfl
    · exact hout

/-! The packet events. -/

theorem exec_authLockoutEnd {src : Source} {s : State} (hover : lockoutOver src s = true) :
    exec (.authLockoutEnd src) s = .next (s.onPkts fun k => { k with
      lockouts := k.lockouts.filter fun e => e.1 != src, authFails := k.authFails.filter fun e => e.1 != src }) := by
  change execAuthLockoutEnd src s = _
  rw [execAuthLockoutEnd, if_pos hover]

/-- A pending command that is due to be committed is judged by its step-13 checks. -/
theorem exec_pendingCommit {handle : Nat} {s : State} {p : Pending} {o : Op} (hp : pendingOf handle s = some p)
    (hfresh : p.committed = false) (hdue : p.rq.toe.toNat ≤ s.tb0 + 20000) (hfirst : earlierDue p s = false)
    (hpower : s.power.power ≠ .rest) (ho : opOfCode p.opcode = some o) :
    exec (.pendingCommit handle) s = .next (match o.outcome p.rq s with
      | .deny d => sendReply p.opcode p.rq d.status d.tlvs true (strike handle true s)
      | .fail t ⟨.denied, l⟩ => sendReply p.opcode p.rq .denied l true (strike handle true t)
      | _ => s.onPkts fun k => { k with
          pending := k.pending.map fun q => if q.handle = handle then
            { q with committed := true, mark := (s.gear.link[tgt 64 p.rq]).appended } else q }) := by
  change execPendingCommit handle s = _
  unfold execPendingCommit
  rw [hp]
  dsimp only
  rw [if_neg (by simp [hfresh, hfirst, hpower, Nat.not_lt.mpr hdue]), ho] <;> rfl

theorem exec_deferredEffect {handle : Nat} {s v : State} {p : Pending} {o : Op} (hp : pendingOf handle s = some p)
    (hcommitted : p.committed = true) (hdue : p.rq.toe.toNat ≤ s.tb0) (hpower : s.power.power ≠ .rest)
    (hbusy : targetBusy p.opcode p.rq s = false) (ho : opOfCode p.opcode = some o)
    (hv : v = if p.opcode = 0x0282 then onLink (tgt 64 p.rq) (fun l => { l with clearTo := some p.mark }) (strike handle false s)
      else strike handle false s) :
    exec (.deferredEffect handle) s = .next (conclude o p.rq true (o.outcome p.rq v) v) := by
  subst hv
  change execDeferredEffect handle s = _
  unfold execDeferredEffect
  rw [hp]
  dsimp only
  rw [if_neg (by simp [hcommitted, hpower, hbusy, Nat.not_lt.mpr hdue]), ho]

/-- Settles O28: each packet event, its conditions met, does the one thing it is for. -/
theorem packetEventsComplete : Obligations.PacketEventsComplete := by
  unfold Obligations.PacketEventsComplete
  refine ⟨fun src b s hsrc hserved hawake href hdev hhalt => ⟨?one, ?broadcast⟩, fun s t p l hinbox hserved hawake hroom hheld => ?inbox,
    fun s e hruns hfirst hdue => ?reply, fun src t s hmem hover => ?lockout,
    fun handle s p o hp hfresh hdue hfirst hpower ho => ⟨fun v r hout => ?done, fun v n r hout => ?wait, fun d hout => ?deny⟩,
    fun handle s p o v hp hcommitted hdue hpower hbusy ho hv => exec_deferredEffect hp hcommitted hdue hpower hbusy ho hv⟩
  case one => exact exec_ruhityDatagram_of_served hsrc hserved hawake href hdev hhalt false false true b
  case broadcast => exact exec_ruhityDatagram_of_served hsrc hserved hawake href hdev hhalt true false true b
  case inbox =>
    change execInboxTake s = _
    unfold execInboxTake
    rw [hinbox]
    dsimp only
    rw [if_neg (by simp [hserved, hawake, Nat.not_le.mpr hroom]), if_pos hheld]
  case reply =>
    change execBroadcastReply s = _
    unfold execBroadcastReply
    rw [if_neg (by simp [hruns]), hfirst]
    dsimp only
    rw [if_neg (Nat.not_lt.mpr hdue)]
  case lockout =>
    have hany : lockoutOver src s = true := List.any_eq_true.mpr ⟨(src, t), hmem, by simp [hover]⟩
    refine ⟨_, exec_authLockoutEnd hany, fun e he => ?_, fun e he => ?_, fun e hne => ?_, fun e hne => ?_, rfl⟩
    · simpa using (List.mem_filter.mp he).2
    · simpa using (List.mem_filter.mp he).2
    · simp [hne]
    · simp [hne]
  case done => rw [exec_pendingCommit hp hfresh hdue hfirst hpower ho, hout]; rfl
  case wait => rw [exec_pendingCommit hp hfresh hdue hfirst hpower ho, hout]; rfl
  case deny => rw [exec_pendingCommit hp hfresh hdue hfirst hpower ho, hout]

end Sys2Proof.Machine

/-! SUPPORT.
Host Port frames out of Reset, awake and with the reference present. -/

namespace Sys2Proof.Machine

/-- Out of Reset a frame is processed. -/
theorem frame_of_not_reset {s : State} (hdev : s.sys.dev ≠ .reset) (f : State → State) : frame f s = .next (f s) := by
  rw [frame, if_neg hdev]

theorem frameArgs_of_range {addr len : Nat} (haddr : addr % 4 = 0) (hlo : 1 ≤ len) (hhi : len ≤ 256) : frameArgs addr len = true := by
  simp [frameArgs, within, haddr, hlo, hhi]

/-- A frame none of whose words is denied is written. -/
theorem commitWrite_of_allowed {addr : Nat} {ws : List Word} {s : State} (h : ∀ k, k < ws.length → wordDenied (addr + 4 * k) s = false)
    (edges : Nat) : commitWrite addr ws edges s = complete edges (writeWords addr ws s) := by
  have hnone : ((List.range ws.length).map fun k => addr + 4 * k).find? (fun a => wordDenied a s) = none := by
    refine List.find?_eq_none.mpr fun a ha => ?_
    obtain ⟨k, hk, rfl⟩ := List.mem_map.mp ha
    simp [h k (List.mem_range.mp hk)]
  rw [commitWrite, hnone]

section Frames

variable {s : State} (hdev : s.sys.dev ≠ .reset) (href : s.power.refLost = false) (hawake : asleep s = false)
include hdev href hawake

theorem exec_sphWriteFrame {addr : Nat} {ws : List Word} (haddr : addr % 4 = 0) (hlo : 1 ≤ ws.length) (hhi : ws.length ≤ 256)
    (hallowed : ∀ k, k < ws.length → wordDenied (addr + 4 * k) s = false) :
    exec (.sphWriteFrame addr ws .whole) s = .next (complete 0 (writeWords addr ws s)) := by
  change execSphWriteFrame addr ws .whole s = _
  unfold execSphWriteFrame
  rw [if_neg (by simp [href]), frame_of_not_reset hdev]
  dsimp only
  rw [selectWake_of_awake hawake, if_neg (by simp [frameArgs_of_range haddr hlo hhi]), if_neg (by decide), if_neg (by simp [hawake]),
    commitWrite_of_allowed hallowed]
  rfl

theorem exec_sphReadFrame {addr len : Nat} (haddr : addr % 4 = 0) (hlo : 1 ≤ len) (hhi : len ≤ 256) :
    exec (.sphReadFrame addr len .whole) s = .next (readFrame addr len .whole s) := by
  change execSphReadFrame addr len .whole s = _
  unfold execSphReadFrame
  rw [if_neg (by simp [href]), frame_of_not_reset hdev]
  dsimp only
  rw [selectWake_of_awake hawake, if_neg (by simp [frameArgs_of_range haddr hlo hhi]), if_neg (by simp [hawake])]

theorem exec_sphPacketIn {b : List Byte} (hlo : 24 ≤ b.length) (hhi : b.length ≤ 1472) (hroom : s.pkts.inbox.length < 8) :
    exec (.sphPacketIn b .whole) s = .next (commitPacket s.tb0 b 0 s) := by
  change execSphPacketIn b .whole s = _
  unfold execSphPacketIn
  rw [if_neg (by simp [href]), frame_of_not_reset hdev]
  dsimp only
  rw [selectWake_of_awake hawake, if_neg (by simp [within, hlo, hhi]), if_neg (by decide), if_neg (by simp [hawake]),
    if_neg (Nat.not_le.mpr hroom)]
  rfl

theorem exec_sphPacketOut {p l : List Byte} {rest : List (List Byte)} (hout : s.pkts.outbox = p :: rest) (heven : p.length % 2 = 0)
    (hhi : p.length ≤ 1472) (hl : l = be 2 p.length ++ p) :
    exec (.sphPacketOut (p.length + 2) .whole) s =
      .next (complete 0 (handReplyOut (s.onSerial fun b => { b with sphPacket := l }))) := by
  have hcarried : (be 2 p.length ++ p.take (p.length + 2 - 2) ++ List.replicate (p.length + 2) 0).take (p.length + 2) = l := by
    rw [hl, Nat.add_sub_cancel, List.take_length, List.take_append_of_le_length (by simp [be]), List.take_of_length_le (by simp [be])]
  change execSphPacketOut (p.length + 2) .whole s = _
  unfold execSphPacketOut
  rw [if_neg (by simp [href]), frame_of_not_reset hdev]
  dsimp only
  rw [selectWake_of_awake hawake, if_neg (by simp [within]; omega), if_neg (by simp [hawake]), if_neg (by decide),
    show s.pkts.outbox.headD [] = p by rw [hout]; rfl, hcarried, if_pos ⟨by simp [hout], by omega⟩]
  rfl

theorem exec_sphStatusFrame : exec (.sphStatusFrame .whole) s = .next (complete 0 (s.onSerial fun b => { b with sphOut := [sphStatus s] })) := by
  change execSphStatusFrame .whole s = _
  unfold execSphStatusFrame
  rw [if_neg (by simp [href]), frame_of_not_reset hdev]
  dsimp only
  rw [selectWake_of_awake hawake, if_neg (by simp [hawake]), if_neg (by decide)]
  rfl

theorem exec_sphBadCmdFrame : exec .sphBadCmdFrame s = .next (frameResult 3 0 s) := by
  change execSphBadCmdFrame s = _
  unfold execSphBadCmdFrame
  rw [if_neg (by simp [href]), frame_of_not_reset hdev, selectWake_of_awake hawake]

end Frames

theorem handReplyOut_outbox {s : State} {p : List Byte} {l : List (List Byte)} (hout : s.pkts.outbox = p :: l)
    (hwaiting : s.pkts.waiting = []) : (handReplyOut s).pkts.outbox = l := by
  simp [handReplyOut, dropReplyOut, hout, hwaiting]

/-- Settles O29: each frame, whole and in range, has its own effect and result. -/
theorem hostPortFramesComplete : Obligations.HostPortFramesComplete := by
  unfold Obligations.HostPortFramesComplete
  refine ⟨fun addr ws s hdev href hawake haddr hlo hhi hallowed => exec_sphWriteFrame hdev href hawake haddr hlo hhi hallowed,
    fun addr len s r hdev href hawake haddr hlo hhi hr => ?read, fun b s hdev href hawake hlo hhi hroom => ?packetIn,
    fun p l s hdev href hawake hout heven hhi hwaiting => ?packetOut,
    fun s hdev href hawake => exec_sphStatusFrame hdev href hawake, fun s hdev href hawake => exec_sphBadCmdFrame hdev href hawake,
    fun addr s hdev href => ?timeout⟩
  case read =>
    rw [exec_sphReadFrame hdev href hawake haddr hlo hhi, hr]
    rfl
  case packetIn => exact ⟨_, exec_sphPacketIn hdev href hawake hlo hhi hroom, rfl, rfl, rfl⟩
  case packetOut => exact ⟨_, exec_sphPacketOut hdev href hawake hout heven hhi rfl, handReplyOut_outbox hout hwaiting, rfl⟩
  case timeout =>
    change execSphWordTimeout addr s = _
    unfold execSphWordTimeout
    rw [if_neg (by simp [href]), frame_of_not_reset hdev]

end Sys2Proof.Machine

/-! SUPPORT.
Register and window accesses, what stores leave in the memories, and the events of accesses, scrubs and the audit. -/

namespace Sys2Proof.Machine

/-! One checked access. -/

section Access

variable {c : Fin 6} {a : Nat} {s : State} (hlive : contextDead c s = false)
include hlive

theorem accessRead_of_pass (hpass : check c false false a 4 s = .pass) {w : Word} {t : State} (hread : readDirect c a s = (some w, t)) :
    accessRead c a 4 s = handWord c w (clearOnRead c (registerOf a) w t) := by
  rw [accessRead, hlive, if_neg (by decide), hpass]
  dsimp only
  rw [hread]

theorem accessWrite_of_pass (hpass : check c false true a 4 s = .pass) (w : Word) : accessWrite c a 4 w s = writeDirect c a w s := by
  rw [accessWrite, hlive, if_neg (by decide), hpass]

end Access

/-- Settles O30: every command is the checked access of its context at its address. -/
theorem directAccessesComplete : Obligations.DirectAccessesComplete := by
  unfold Obligations.DirectAccessesComplete
  have hwrite {c : Fin 6} {a : Nat} {v : Word} {s : State} (hlive : contextDead c s = false) (hpass : check c false true a 4 s = .pass) :
      (Host.Outcome.next (accessWrite c a 4 v s) : Host.Outcome State Fault Refusal) = .next (writeDirect c a v s) :=
    congrArg _ (accessWrite_of_pass hlive hpass v)
  refine ⟨fun ctx a w t s hlive hpass hread => ?read, fun ctx a v s hlive hpass => ?write, fun ctx g v s hlive hpass => hwrite hlive hpass,
    fun ctx g v s hlive hpass => hwrite hlive hpass, fun ctx n v s hlive hpass => hwrite hlive hpass,
    fun ctx g s hlive hpass => hwrite hlive hpass, fun ctx g c s hlive hidle => ?fio⟩
  case read =>
    have hnext : (Host.Outcome.next (accessRead ctx a 4 s) : Host.Outcome State Fault Refusal) =
        .next (handWord ctx w (clearOnRead ctx (registerOf a) w t)) := congrArg _ (accessRead_of_pass hlive hpass hread)
    exact ⟨hnext, hnext, hnext, hnext, fun ha => by subst ha; exact hnext⟩
  case write =>
    have hnext := hwrite (v := v) hlive hpass
    exact ⟨hnext, hnext, hnext, hnext, fun ha => by subst ha; exact hnext, fun ha => by subst ha; exact hnext,
      fun ha => by subst ha; exact hnext, fun ha => by subst ha; exact hnext⟩
  case fio =>
    change execFioDoWrite ctx g c s = _
    unfold execFioDoWrite indAccess
    rw [hlive, if_neg (by decide), hidle, if_neg (by decide)]

/-! Bytes and words in a memory. -/

theorem cellsWrite_outside {d : Byte} {a x : Nat} {bs : List Byte} {m : List Host.Cell} (hm : Memory.wf d m = true)
    (hx : x < a ∨ a + bs.length ≤ x) : cellRead d x (cellsWrite d a bs m) = cellRead d x m := by
  induction bs generalizing a m with
  | nil => rfl
  | cons b bs ih =>
    rw [List.length_cons] at hx
    rw [cellsWrite, ih (cellWrite_wf hm) (by omega), cellRead_write_other hm (by omega)]

theorem cellsWrite_inside {d : Byte} {a k : Nat} {bs : List Byte} {m : List Host.Cell} (hm : Memory.wf d m = true)
    (hk : k < bs.length) : cellRead d (a + k) (cellsWrite d a bs m) = bs[k] := by
  induction bs generalizing a k m with
  | nil => exact absurd hk (Nat.not_lt_zero k)
  | cons b bs ih =>
    cases k with
    | zero => rw [cellsWrite, cellsWrite_outside (cellWrite_wf hm) (by omega)]; exact cellRead_write_same hm
    | succ k =>
      have hplace : a + (k + 1) = a + 1 + k := by omega
      rw [hplace, cellsWrite, ih (cellWrite_wf hm) (Nat.lt_of_succ_lt_succ hk), List.getElem_cons_succ]

@[simp] theorem length_cellsRead (d : Byte) (a : Nat) (m : List Host.Cell) (n : Nat) : (cellsRead d a m n).length = n := by
  induction n generalizing a with
  | zero => rfl
  | succ n ih => rw [cellsRead, List.length_cons, ih]

theorem getElem_cellsRead {d : Byte} {a : Nat} {m : List Host.Cell} {n k : Nat} (hk : k < (cellsRead d a m n).length) :
    (cellsRead d a m n)[k] = cellRead d (a + k) m := by
  induction n generalizing a k with
  | zero => exact absurd hk (Nat.not_lt_zero k)
  | succ n ih =>
    cases k with
    | zero => rfl
    | succ k =>
      rw [cellsRead] at hk
      simp only [cellsRead, List.getElem_cons_succ, ih (Nat.lt_of_succ_lt_succ hk), Nat.add_assoc, Nat.add_comm 1 k]

/-- What was written is read back. -/
theorem cellsRead_cellsWrite {d : Byte} {a : Nat} {bs : List Byte} {m : List Host.Cell} (hm : Memory.wf d m = true) :
    cellsRead d a (cellsWrite d a bs m) bs.length = bs := by
  refine List.ext_getElem (length_cellsRead ..) fun k hk hb => ?_
  rw [getElem_cellsRead, cellsWrite_inside hm hb]

/-- The bytes of a word, least significant first. -/
theorem le_word (w : Word) : le 4 w.toNat = [w.setWidth 8, (w >>> 8).setWidth 8, (w >>> 16).setWidth 8, (w >>> 24).setWidth 8] := by
  have hbyte (n : Nat) : BitVec.ofNat 8 (w.toNat / 2 ^ n) = (w >>> n).setWidth 8 :=
    BitVec.eq_of_toNat_eq (by simp [Nat.shiftRight_eq_div_pow])
  have h0 := hbyte 0
  simp only [BitVec.ushiftRight_zero] at h0
  simp only [le, be, List.reverse_cons, List.reverse_nil, List.nil_append, List.cons_append, ← hbyte 8, ← hbyte 16,
    ← hbyte 24, ← h0] <;> rfl

theorem leNat_le_word (w : Word) : BitVec.ofNat 32 (leNat (le 4 w.toNat)) = w := by
  refine BitVec.eq_of_toNat_eq ?_
  have hlt := w.isLt
  simp only [leNat, le, List.reverse_reverse, be, beNat, List.foldl_cons, List.foldl_nil, BitVec.toNat_ofNat]
  omega

theorem length_le_word (w : Word) : (le 4 w.toNat).length = 4 := rfl

theorem cellRead_wordPut_inside {d : Byte} {a k : Nat} {w : Word} {m : List Host.Cell} (hm : Memory.wf d m = true) (hk : k < 4) :
    cellRead d (a + k) (wordPut d a w m) = (w >>> (8 * k)).setWidth 8 := by
  rw [wordPut, cellsWrite_inside hm (by rwa [length_le_word])]
  simp only [le_word]
  obtain rfl | rfl | rfl | rfl : k = 0 ∨ k = 1 ∨ k = 2 ∨ k = 3 := by omega
  all_goals simp

theorem cellRead_wordPut_outside {d : Byte} {a x : Nat} {w : Word} {m : List Host.Cell} (hm : Memory.wf d m = true)
    (hx : x < a ∨ a + 4 ≤ x) : cellRead d x (wordPut d a w m) = cellRead d x m :=
  cellsWrite_outside hm hx

theorem wordAt_wordPut {d : Byte} {a : Nat} {w : Word} {m : List Host.Cell} (hm : Memory.wf d m = true) :
    wordAt d a (wordPut d a w m) = w := by
  have hread : cellsRead d a (wordPut d a w m) 4 = le 4 w.toNat := cellsRead_cellsWrite hm
  rw [wordAt, hread, leNat_le_word]

/-- Erased bytes read FFH and the others as before. -/
theorem cellRead_eraseRange {a n x lo : Nat} {m : List Host.Cell} (hm : cellsFrom 0xFF lo m = true) :
    cellRead 0xFF x (eraseRange a n m) = if a ≤ x ∧ x < a + n then 0xFF else cellRead 0xFF x m := by
  induction m generalizing lo with
  | nil => simp [eraseRange, cellRead]
  | cons c m ih =>
    have hrest : cellsFrom 0xFF (c.1 + 1) m = true := by
      simp only [cellsFrom, Bool.and_eq_true] at hm
      exact hm.2
    by_cases hkept : c.1 < a ∨ a + n ≤ c.1
    · have herase : eraseRange a n (c :: m) = c :: eraseRange a n m := List.filter_cons_of_pos (by simpa using hkept)
      rw [herase, cellRead, cellRead, ih hrest]
      by_cases hhere : c.1 = x
      · rw [if_pos hhere, if_pos hhere, if_neg (by omega)]
      · rw [if_neg hhere, if_neg hhere]
        split <;> split <;> rfl
    · have herase : eraseRange a n (c :: m) = eraseRange a n m := List.filter_cons_of_neg (by simpa using hkept)
      rw [herase, ih hrest]
      by_cases hin : a ≤ x ∧ x < a + n
      · rw [if_pos hin, if_pos hin]
      · have hother : c.1 ≠ x := by omega
        rw [if_neg hin, if_neg hin, cellRead, if_neg hother]
        by_cases hbefore : x < c.1
        · rw [if_pos hbefore]
          exact cellRead_below (by omega) hrest
        · rw [if_neg hbefore]

/-- What programming puts into a device: each byte written ANDed with the byte there. -/
theorem length_programmed (a : Nat) (bs : List Byte) (m : List Host.Cell) :
    (List.zipWith (· &&& ·) bs (cellsRead 0xFF a m bs.length)).length = bs.length := by simp

theorem cellRead_programBytes_inside {a k : Nat} {bs : List Byte} {m : List Host.Cell} (hm : Memory.wf 0xFF m = true)
    (hk : k < bs.length) : cellRead 0xFF (a + k) (programBytes a bs m) = bs.getD k 0 &&& cellRead 0xFF (a + k) m := by
  rw [programBytes, cellsWrite_inside hm (by rwa [length_programmed]), List.getElem_zipWith, getElem_cellsRead,
    List.getD_eq_getElem?_getD, List.getElem?_eq_getElem hk, Option.getD_some]

theorem cellRead_programBytes_outside {a x : Nat} {bs : List Byte} {m : List Host.Cell} (hm : Memory.wf 0xFF m = true)
    (hx : x < a ∨ a + bs.length ≤ x) : cellRead 0xFF x (programBytes a bs m) = cellRead 0xFF x m :=
  cellsWrite_outside hm (by rwa [length_programmed])

/-- A write that passes its checks to SRAM that is not poisoned is a write of the word. -/
theorem exec_registerWrite_sram {c : Fin 6} {a : Nat} {w : Word} {s : State} (hlive : contextDead c s = false) (ha : a < 0x1800000)
    (hpass : check c false true a 4 s = .pass) (hsound : poisonedAt a s = false) :
    exec (.registerWrite c a 4 w) s = .next (s.onInteg fun g => { g with sram := wordPut 0 a w g.sram }) := by
  have hsram : sramAddr a = true := by simpa [sramAddr] using ha
  have hdirect : writeDirect c a w s = s.onInteg fun g => { g with sram := wordPut 0 a w g.sram } := by
    rw [writeDirect, if_neg (by simp only [indData]; omega), store, hsram, if_pos rfl, writeSram, hsound]
    rfl
  change Host.Outcome.next (accessWrite c a 4 w s) = _
  rw [accessWrite_of_pass hlive hpass, hdirect]

theorem onLane_same (l : Fin 8) (f : Lane → Lane) (s : State) : (onLane l f s).lanes.lane[l] = f s.lanes.lane[l] :=
  upd_same s.lanes.lane l f

theorem onLane_other {l j : Fin 8} (hne : j ≠ l) (f : Lane → Lane) (s : State) : (onLane l f s).lanes.lane[j] = s.lanes.lane[j] :=
  upd_other s.lanes.lane l j f hne.symm

theorem laneWrite_data {l : Fin 8} {a : Nat} {w : Word} {s : State} (halign : a % 4 = 0) (ha : a < 0x18000)
    (hsound : poisonedAt (laneDataAddr l a) s = false) :
    laneWrite l a w s = .ok (onLane l (fun y => { y with data := wordPut 0 a w y.data }) s) := by
  unfold laneWrite
  dsimp only
  rw [if_neg (by omega), if_pos ha, hsound]
  rfl

/-- Settles O53: a word goes into its four bytes and nowhere else, programming ANDs and erasing sets. -/
theorem memoriesReadBack : Obligations.MemoriesReadBack := by
  unfold Obligations.MemoriesReadBack
  refine ⟨fun c a w s t hok hlive ha hpass hsound hnext => ?sram, fun l a w s hok halign ha hsound => ?lane,
    fun a bs m hm => ⟨fun k hk => cellRead_programBytes_inside hm hk, fun x hx => cellRead_programBytes_outside hm hx⟩,
    fun a n x m hm => cellRead_eraseRange hm⟩
  case sram =>
    obtain ⟨hwf, -⟩ := hok
    rw [exec_registerWrite_sram hlive ha hpass hsound] at hnext
    obtain rfl := Host.Outcome.next.inj hnext
    exact ⟨fun k hk => cellRead_wordPut_inside hwf hk, fun x hx => cellRead_wordPut_outside hwf hx, wordAt_wordPut hwf⟩
  case lane =>
    refine ⟨_, laneWrite_data halign ha hsound, fun k hk => ?_, fun x hx => ?_, fun j hj => by rw [onLane_other hj]⟩
    · rw [onLane_same]
      exact cellRead_wordPut_inside (hok l) hk
    · rw [onLane_same]
      exact cellRead_wordPut_outside (hok l) hx

/-! Events of accesses, flash devices, scrubs and the audit. -/

/-- Settles O31: each event, due, does its one thing. -/
theorem accessEventsComplete : Obligations.AccessEventsComplete := by
  unfold Obligations.AccessEventsComplete
  refine ⟨fun ctx s hbusy hdue => ?timeout, fun ctx s e hwait hdue => ?window, fun sel s hruns hdue => ?buffer,
    fun sel s hruns hdue => ⟨?idle, ?busy⟩, fun sel s hruns hdue => ?overdue, fun g s hpending => ?takeover,
    fun s bad hafter hruns hkeeper hdue hbad => ?audit, fun addr width rv c0 c1 c2 s v hruns hv => ?vote,
    fun addr n s hruns hprotected hlate => ?scrub, fun s x hsession hdue => ?session⟩
  case timeout =>
    change execIndAccessTimeout ctx s = _
    rw [execIndAccessTimeout, if_pos (by simp [-Fin.getElem_fin, indOverdue, hbusy, hdue])]
  case window =>
    change execXipReadTimeout ctx s = _
    rw [execXipReadTimeout, if_pos (by simp [-Fin.getElem_fin, windowOverdue, hwait, hdue])]
  case buffer =>
    change execSpmBufferTimeout sel s = _
    rw [execSpmBufferTimeout, if_neg (by simp [-Fin.getElem_fin, hruns, hdue])]
  case idle =>
    change execSpmStatusPoll sel false s = _
    rw [execSpmStatusPoll, if_neg (by simp [hruns, hdue]), if_neg (by decide)]
  case busy =>
    change execSpmStatusPoll sel true s = _
    rw [execSpmStatusPoll, if_neg (by simp [hruns, hdue]), if_pos rfl]
  case overdue =>
    change execSpmOpTimeout sel s = _
    rw [execSpmOpTimeout, if_neg (by simp [hruns, hdue])]
  case takeover =>
    change execUpdateTakeover g s = _
    rw [execUpdateTakeover, if_pos hpending]
  case audit =>
    subst hbad
    change execTallyAudit s = _
    rw [execTallyAudit, if_pos ⟨hafter, hruns, by simp [hkeeper], hdue⟩]
  case vote =>
    subst hv
    change execVoteScrub addr width rv c0 c1 c2 s = _
    rw [execVoteScrub, if_neg (by simp [hruns])]
  case scrub =>
    change execMemoryScrub addr n s = _
    rw [execMemoryScrub, if_neg (by simp [hruns, hprotected]), if_neg (Nat.not_lt.mpr hlate)]
  case session =>
    change execImageSessionTimeout s = _
    have hstale : sessionStale s = true := by
      rw [sessionStale, hsession, Option.any_some]
      exact decide_eq_true hdue
    rw [execImageSessionTimeout, if_pos hstale]

end Sys2Proof.Machine


/-! SUPPORT.
The events of reset, startup, supplies, temperature and power states. -/

namespace Sys2Proof.Machine

/-- What changes neither the system region, the device state, the contexts nor the free values keeps the whole region. -/
theorem Keeps.sys_whole {bs : List Block} (hsys : bs.contains .sys = false) (hdev : bs.contains .dev = false)
    (hctx : bs.contains .ctx = false) (hfree : bs.contains .free = false) (s : State) : Keeps bs fun t => t.sys = s.sys := by
  constructor
  case onSys => intro hin; rw [hsys] at hin; cases hin
  case onDev => intro hin; rw [hdev] at hin; cases hin
  case onCtx => intro hin; rw [hctx] at hin; cases hin
  case onFree => intro hin; rw [hfree] at hin; cases hin
  all_goals intros; assumption

/-! ## Reset and startup -/

/-- The bytes of a payload do not depend on the boot record. -/
theorem copyPayload_onBoot (kind : Nat) (p : Nat × Nat) (f : Boot → Boot) (s : State) :
    (copyPayload kind p (s.onBoot f)).integ = (copyPayload kind p s).integ := rfl

/-- Gardener's start keeps what lies outside the boot record and the phase. -/
theorem gardenerStart_sram (s : State) :
    (gardenerRuns (clearPoison 0x400000 0x800000 s)).integ.sram = s.integ.sram := rfl

/-- The state Gardener comes up in: nothing of the queues, and the device in Commissioning. -/
theorem gardenerReady_commissions {s : State} (hdev : s.sys.dev = .startup) (hruns : s.boot.gardenerRuns = true) :
    ∃ u, exec .gardenerReady s = .next u ∧ u.sys.dev = .commissioning ∧ u.pkts = s.pkts := by
  let s1 := s.onSys fun y => { y with dev := .commissioning }
  refine ⟨reselect (match newerCopy s.store with | some c => reloadLanes c s1 | none => s1), ?_, ?_, ?_⟩
  · change execGardenerReady s = _
    exact if_neg (by simp [hdev, hruns])
  · refine reselect_keeps (Keeps.dev_same rfl s1) ?_
    split
    · exact reloadLanes_keeps (Keeps.dev_same rfl s1) rfl
    · rfl
  · refine reselect_keeps (Keeps.pkts_same rfl s1) ?_
    split
    · exact reloadLanes_keeps (Keeps.pkts_same rfl s1) rfl
    · rfl

/-- The release of Reset begins Startup. -/
theorem resetRelease_starts {s : State} (hdev : s.sys.dev = .reset) :
    ∃ u, exec .resetRelease s = .next u ∧ u.sys.dev = .startup ∧ u.sys.phase = 0 ∧ u.sys.tick = 0 ∧
      u.sys.rstoutLow = false ∧ u.power.vlogGood = true ∧ u.power.resetnLow = false ∧ u.pkts = s.pkts ∧ u.store = s.store := by
  let s1 := (s.onSys fun y => { y with dev := .startup, phase := 0, tick := 0, stopped := 0, rstoutLow := false }).onPower
    fun p => { p with vlogGood := true, resetnLow := false, sagged := false }
  have hsame : (if stoInForce s1 then stoLatchAll s1 else s1).sys = s1.sys ∧
      (if stoInForce s1 then stoLatchAll s1 else s1).power = s1.power ∧
      (if stoInForce s1 then stoLatchAll s1 else s1).pkts = s1.pkts ∧
      (if stoInForce s1 then stoLatchAll s1 else s1).store = s1.store := by
    split
    · exact ⟨stoLatchAll_keeps (Keeps.sys_whole rfl rfl rfl rfl s1) rfl, stoLatchAll_keeps (Keeps.power_same rfl s1) rfl,
        stoLatchAll_keeps (Keeps.pkts_same rfl s1) rfl, stoLatchAll_keeps (Keeps.store_same rfl s1) rfl⟩
    · exact ⟨rfl, rfl, rfl, rfl⟩
  obtain ⟨hsys, hpower, hpkts, hstore⟩ := hsame
  refine ⟨if stoInForce s1 then stoLatchAll s1 else s1, ?_, ?_⟩
  · change execResetRelease s = _
    rw [execResetRelease, if_neg (not_not_intro hdev)]
  · rw [hsys, hpower, hpkts, hstore]
    exact ⟨rfl, rfl, rfl, rfl, rfl, rfl, rfl, rfl⟩

/-- With bank 0 sound and no boot flash the ROM's tests end in cause 1. -/
theorem romTests_no_flash {s : State} (hbank : ∀ b ∈ s.integ.poison, 0x20000 ≤ b)
    (hflash : s.serial.sel[(0 : Fin 4)].present = false) : romTests s = some 1 := by
  unfold romTests
  rw [if_neg, if_pos]
  · exact (congrArg (!·) hflash :)
  · intro hpoison
    obtain ⟨b, hb, hlow⟩ := List.any_eq_true.mp hpoison
    exact absurd (of_decide_eq_true hlow) (Nat.not_lt.mpr (hbank b hb))

/-- Settles O32: Reset, the start of Keeper and Gardener, and what follows the start. -/
theorem resetAndStartupComplete : Obligations.ResetAndStartupComplete := by
  unfold Obligations.ResetAndStartupComplete
  refine ⟨fun s t hdue hcome => ?entry, fun s hout => ?watchdog, fun s => rfl, fun s => rfl, fun s u hu => ?reset,
    fun s hdev => resetRelease_starts hdev, fun s v n trial hdev hphase hlock hrom hv hchosen => ?keeper,
    fun s v hdev hphase hlock hrom hv hchosen => ?noKeeper, fun s hdev hphase hlock hbank hflash => ?noFlash,
    fun s v n trial hrestart hdev hphase hv hchosen => ?gardener, fun s hrestart hreload => ?restart,
    fun s hdev hruns => gardenerReady_commissions hdev hruns, fun s hruns => ?gardenerWatchdog,
    fun s v hdue hdev hv => ?autostart, fun s c v hact hv hc => ?installed⟩
  case entry =>
    change execResetEntry s = _
    rw [execResetEntry, if_pos (by simp [hdue, hcome])]
  case watchdog =>
    change execKeeperWatchdog s = _
    rw [execKeeperWatchdog, if_neg hout]
  case reset =>
    subst hu
    exact ⟨rfl, rfl, rfl, rfl, rfl, rfl, rfl, rfl, rfl, rfl⟩
  case keeper =>
    subst hv
    change execKeeperStart s = _
    rw [execKeeperStart, if_neg (by simp [hdev, hphase, hlock]), hrom]
    dsimp only
    rw [if_pos hphase, hchosen]
  case noKeeper =>
    subst hv
    change execKeeperStart s = _
    rw [execKeeperStart, if_neg (by simp [hdev, hphase, hlock]), hrom]
    dsimp only
    rw [if_pos hphase, hchosen]
  case noFlash =>
    change execKeeperStart s = _
    rw [execKeeperStart, if_neg (by simp [hdev, hphase, hlock]), romTests_no_flash hbank hflash]
  case gardener =>
    subst hv
    refine ⟨gardenerRuns (clearPoison 0x400000 0x800000 (copyPayload 2 (imagePlace 2 n)
      ((chooseNow 2 s).onBoot fun b => { b with gardenerSlot := n, gardenerTrial := trial }))), ?_, rfl, rfl, rfl, rfl, ?_⟩
    · change execGardenerStart s = _
      rw [execGardenerStart, if_neg (by simp [hrestart]), if_neg (by simp [hdev, hphase])]
      dsimp only
      rw [if_pos hphase, hchosen]
    · rw [gardenerStart_sram, copyPayload_onBoot]
  case restart =>
    change execGardenerStart s = _
    rw [execGardenerStart, if_pos hrestart]
    dsimp only
    rw [if_neg (by simp [hreload])]
  case gardenerWatchdog =>
    change execGardenerWatchdog s = _
    rw [execGardenerWatchdog, if_neg (by simp [hruns])]
  case autostart =>
    subst hv
    change execAutostart s = _
    rw [execAutostart, if_pos ⟨hdue, hdev⟩]
    dsimp only
    cases transitionDeny .operational (s.onSys fun y => { y with autostartDue := false }) <;> rfl
  case installed =>
    subst hv hc
    refine ⟨fun hbad f => ?_, fun hgood => ?_⟩
    · change execLodgeImageInstalled f s = _
      rw [execLodgeImageInstalled, if_neg (by simp [hact])]
      dsimp only
      rw [if_pos hbad]
    · change execLodgeImageInstalled true s = _
      rw [execLodgeImageInstalled, if_neg (by simp [hact])]
      dsimp only
      rw [if_neg (not_not_intro hgood), if_pos (by simp)]

/-! ## Supplies, clocks and power states -/

/-- An entry pushed is in the ring. -/
theorem pushFault_ring_ne_nil (e : FaultEntry) (g : Integrity) : (pushFault e g).ring ≠ [] := by
  unfold pushFault
  split <;> simp

/-- What is said of the fault ring is kept by changes to the other blocks. -/
theorem keeps_of_ring {bs : List Block} (hinteg : bs.contains .integ = false) (hsram : bs.contains .sram = false)
    (Q : List FaultEntry → Prop) : Keeps bs fun t => Q t.integ.ring := by
  constructor
  case onInteg => intro hin; rw [hinteg] at hin; cases hin
  case onSram => intro hin; rw [hsram] at hin; cases hin
  all_goals intros; assumption

/-- Once an entry has been recorded, later faults of axes do not empty the ring. -/
theorem axisFault_ring_ne_nil {i : Fin 64} {cause det : Nat} {s : State} (hring : s.integ.ring ≠ []) :
    (axisFault i cause det s).integ.ring ≠ [] := by
  have hpush := pushFault_ring_ne_nil
  unfold axisFault
  dsimp only
  split
  · exact hring
  · split
    · exact takeReaction_keeps (keeps_of_ring rfl rfl (· ≠ [])) (hpush _ _)
    · split
      · exact takeReaction_keeps (keeps_of_ring rfl rfl (· ≠ [])) (hpush _ _)
      · split <;> exact hpush _ _

theorem axisFaults_ring_ne_nil {l : List (Fin 64)} {cause det : Nat} {s : State} (hring : s.integ.ring ≠ []) :
    (axisFaults l cause det s).integ.ring ≠ [] :=
  keep_foldl (P := fun t => t.integ.ring ≠ []) (fun _ _ h => axisFault_ring_ne_nil h) hring

/-- A fault of the device stands in the fault record. -/
theorem deviceFault_ring_ne_nil (code index det : Nat) (stays : Bool) (s : State) :
    (deviceFault code index det stays s).integ.ring ≠ [] := by
  have hrecord : (recordFault code 1 index det stays s).integ.ring ≠ [] := pushFault_ring_ne_nil _ _
  have hcause : (if stays then setCause code index true (recordFault code 1 index det stays s)
      else recordFault code 1 index det stays s).integ.ring ≠ [] := by
    split
    · exact fun h => hrecord (List.map_eq_nil_iff.mp h)
    · exact hrecord
  unfold deviceFault
  dsimp only
  split
  · exact axisFaults_ring_ne_nil hcause
  · exact hcause

/-- A fault of the device does not move the clamp of the legs. -/
theorem deviceFault_legClamp (code index det : Nat) (stays : Bool) (s : State) :
    (deviceFault code index det stays s).sys.legClamp = s.sys.legClamp := by
  unfold deviceFault enterRecovery
  dsimp only
  split
  · rw [axisFaults_keeps (Keeps.sys_whole rfl rfl rfl rfl _) rfl]
    cases stays <;> rfl
  · cases stays <;> rfl

theorem deviceFault_power (code index det : Nat) (stays : Bool) (s : State) :
    (deviceFault code index det stays s).power = s.power := deviceFault_keeps (Keeps.power_same rfl s) rfl

theorem refreshAll_sys (s : State) : (refreshAll s).sys = s.sys := refreshAll_keeps (Keeps.sys_whole rfl rfl rfl rfl s) rfl

theorem reportSlack_power (s : State) : (reportSlack s).power = s.power := reportSlack_keeps (Keeps.power_same rfl s) rfl

theorem enterPower_power (w : PowerState) (s : State) :
    ∃ c, (enterPower w s).power = { s.power with power := w, coarse := c } := by
  unfold enterPower
  dsimp only
  split
  · next hsame => exact ⟨s.power.coarse, by rw [hsame]⟩
  · split
    · exact ⟨_, refreshAll_power _⟩
    · exact ⟨_, rfl⟩

/-- A block of the power state that differs from another at most in what the evaluation of R33 can move. -/
def Power.Reselected (p q : Power) : Prop := ∃ w c l op ramp v a,
  q = { p with power := w, coarse := c, limit := l, opTarget := op, ramp := ramp, volt := v, rampAt := a }

theorem reselect_power (s : State) : s.power.Reselected (reselect s).power := by
  obtain ⟨c, hpower⟩ := enterPower_power (selectPower (selectOp s 7) (s.onPower fun p => { p with limit := limiting (selectOp s 7) s }))
    (reportSlack (aimOp (if selectPower (selectOp s 7) (s.onPower fun p => { p with limit := limiting (selectOp s 7) s }) = .nap then
      napOp s.power 7 else selectOp s 7) (s.onPower fun p => { p with limit := limiting (selectOp s 7) s })))
  rw [reportSlack_power] at hpower
  exact ⟨_, _, _, _, _, _, _, hpower⟩

/-- A band not above the present one is in force at once. -/
theorem changeBand_falls {b : Nat} {s : State} (hb : b ≤ s.power.band) :
    (changeBand b s).power.band = b ∧ (changeBand b s).power.bandFallSince = none := by
  rw [changeBand, if_pos (Or.inl hb)]
  obtain ⟨w, c, l, op, ramp, v, a, hpower⟩ := reselect_power (s.onPower fun p => { p with band := b, bandNext := none, bandFallSince := none })
  rw [hpower]
  exact ⟨rfl, rfl⟩

theorem raiseFor_hottest (b op : Nat) (s : State) : (raiseFor b op s).power.hottest = s.power.hottest := by
  unfold raiseFor
  dsimp only
  split <;> rfl

theorem changeBand_hottest (b : Nat) (s : State) : (changeBand b s).power.hottest = s.power.hottest := by
  unfold changeBand
  split
  · obtain ⟨w, c, l, op, ramp, v, a, hpower⟩ := reselect_power (s.onPower fun p => { p with band := b, bandNext := none, bandFallSince := none })
    rw [hpower]
    rfl
  · split
    · exact raiseFor_hottest _ _ _
    · dsimp only
      rw [mapLoops_power, raiseFor_hottest]

/-- What TEMP_SAMPLE does to the thermal fault. -/
def thermalFault (h : Int) (s : State) : State :=
  let s1 := s.onPower fun p => { p with hottest := h }
  if 135 ≤ h then
    let s2 := axisFaults (liveSlots s1) 3 0 (s1.onPower fun p => { p with overtemp := true })
    if s.power.overtemp then s2 else deviceFault 0x0010 0xFFFF 0 true s2
  else if h < 115 ∧ s.power.overtemp then setCause 0x0010 0xFFFF false (s1.onPower fun p => { p with overtemp := false })
  else s1

theorem thermalFault_hottest (h : Int) (s : State) : (thermalFault h s).power.hottest = h := by
  have hfaults : ∀ l cause (t : State), (axisFaults l cause 0 t).power = t.power := fun l cause t =>
    axisFaults_keeps (Keeps.power_same rfl t) rfl
  unfold thermalFault
  dsimp only
  split
  · split
    · rw [hfaults]
      rfl
    · rw [deviceFault_power, hfaults]
      rfl
  · split <;> rfl

/-- TEMP_SAMPLE is the thermal fault and then the temperature band; neither touches the reading. -/
theorem tempSample_keeps_reading (h : Int) (s : State) : ∃ u, exec (.tempSample h) s = .next u ∧ u.power.hottest = h := by
  let s2 := thermalFault h s
  have hreading : s2.power.hottest = h := thermalFault_hottest h s
  refine ⟨if !s2.power.banded then s2
    else if s2.power.band < bandFor h then changeBand (bandFor h) s2
    else if 0 < s2.power.band ∧ h + 10 ≤ bandCeiling (s2.power.band - 1) - 5 then
      s2.onPower fun p => { p with bandFallSince := some (p.bandFallSince.getD s2.now) }
    else s2.onPower fun p => { p with bandFallSince := none }, rfl, ?_⟩
  split
  · exact hreading
  · split
    · rw [changeBand_hottest, hreading]
    · split <;> exact hreading

theorem wakes_lodge (s : State) : (wakes s).lodge = s.lodge := wakes_keeps (Keeps.lodge_same rfl s) rfl

theorem wakes_vsaf (s : State) : (wakes s).power.vsaf = s.power.vsaf := by
  unfold wakes
  split <;> rfl

/-- Leaving Run makes Lodge's state the one given and touches neither the staged set nor its supply. -/
theorem leaveRun_lodge (st : LodgeState) (s : State) : (leaveRun st s).lodge.st = st ∧
    (leaveRun st s).power.vsaf = s.power.vsaf := by
  have hassert : ∀ (c : Prop) [Decidable c] (t : State), (if c then t else stoAssert t).lodge = t.lodge ∧
      (if c then t else stoAssert t).power = t.power := by
    intro c _ t
    split
    · exact ⟨rfl, rfl⟩
    · exact ⟨stoAssert_keeps (Keeps.lodge_same rfl t) rfl, stoAssert_keeps (Keeps.power_same rfl t) rfl⟩
  have hfault : ∀ (c : Prop) [Decidable c] (t : State), (if c then deviceFault 0x0014 0xFFFF 0 true t else t).lodge = t.lodge ∧
      (if c then deviceFault 0x0014 0xFFFF 0 true t else t).power = t.power := by
    intro c _ t
    split
    · exact ⟨deviceFault_keeps (Keeps.lodge_same rfl t) rfl, deviceFault_power _ _ _ _ t⟩
    · exact ⟨rfl, rfl⟩
  unfold leaveRun
  dsimp only
  constructor
  · change (wakes _).lodge.st = st
    rw [wakes_lodge, (hfault _ _).1, (hassert _ _).1]
    rfl
  · change (wakes _).power.vsaf = s.power.vsaf
    rw [wakes_vsaf, (hfault _ _).2, (hassert _ _).2]
    rfl

/-- VSAF fails: Lodge is absent with nothing staged. -/
theorem vsafLoss_absent {s : State} (hpresent : s.lodge.st ≠ .absent) :
    ∃ u, exec .vsafLoss s = .next u ∧ u.lodge.st = .absent ∧ u.power.vsaf = false ∧ u.lodge.staged = none := by
  let s1 := if s.lodge.st = .switching ∧ (freshBool s).1 then (freshBool s).2.onLodge fun b => { b with params := b.switching }
    else (freshBool s).2
  let s2 := (s1.onPkts fun k => { k with executing := k.executing.filter fun e => e.opcode != 0x0902 }).onPower fun p =>
    { p with vsaf := false }
  refine ⟨refreshMirrors ((leaveRun .absent s2).onLodge fun b => { b with staged := none, switching := none }),
    if_neg hpresent, ?_, ?_, rfl⟩
  · exact (leaveRun_lodge .absent s2).1
  · exact (leaveRun_lodge .absent s2).2

/-- VSAF returns: Lodge starts with its set and key. -/
theorem vsafReturn_starts {s : State} (habsent : s.lodge.st = .absent) :
    ∃ u, exec .vsafReturn s = .next u ∧ u.lodge.st = .start ∧ u.power.vsaf = true ∧ u.lodge.params = s.lodge.params ∧
      u.lodge.keyHash = s.lodge.keyHash := by
  refine ⟨_, if_neg (not_not_intro habsent), ?_⟩
  unfold refreshMirrors wakes
  split <;> exact ⟨rfl, rfl, rfl, rfl⟩

theorem leaveRest_power (s : State) : (leaveRest s).power = s.power := leaveRest_keeps (Keeps.power_same rfl s) rfl

/-- The groups that ran restart (R277). -/
def restartGroups (s : State) : State := (List.finRange 32).foldl (fun t g => if (t.bta.grp[g]).run then startGroup g t else t) s

theorem restartGroups_power (s : State) : (restartGroups s).power = s.power :=
  keep_foldl (P := fun t => t.power = s.power) (fun t g ht => by
    split
    · exact startGroup_keeps (Keeps.power_same rfl s) ht
    · exact ht) rfl

/-- The timers' and legs' return keeps held frames and the power block. -/
theorem refreshAll_skipSlept (s : State) : (refreshAll (skipSlept s)).serial = s.serial ∧ (refreshAll (skipSlept s)).power = s.power :=
  ⟨refreshAll_keeps (Keeps.serial_same rfl rfl s) (skipSlept_keeps (Keeps.serial_same rfl rfl s) rfl),
    refreshAll_keeps (Keeps.power_same rfl s) (skipSlept_keeps (Keeps.power_same rfl s) rfl)⟩

/-- The power block a wake leaves (R33). -/
def Power.woken (p q : Power) : Power :=
  { q with power := if q.opTarget = 0 then .run else .trim, wakeFrom := p.power.code, waking := false }

theorem execWakeComplete_eq {s : State} (hwaking : s.power.waking = true) : ∃ v, exec .wakeComplete s =
    .next (takeHeldUdp (commitHeld (restartGroups v).serial.held (refreshAll (skipSlept (restartGroups v))))) ∧
    v.power = s.power.woken s.power := by
  let s1 := if s.power.power = .rest then leaveRest s else s
  have hrest : s1.power = s.power := by
    by_cases hrest : s.power.power = .rest
    · exact (congrArg State.power (if_pos hrest)).trans (leaveRest_power s)
    · exact congrArg State.power (if_neg hrest)
  have hwoken : (s1.onPower fun p => { p with
      power := if p.opTarget = 0 then .run else .trim, wakeFrom := s.power.power.code, waking := false }) =
      s1.onPower s.power.woken := rfl
  refine ⟨s1.onPower s.power.woken, ?_, congrArg s.power.woken hrest⟩
  change execWakeComplete s = _
  unfold execWakeComplete
  rw [if_neg (by simp [hwaking])]
  dsimp only
  rw [hwoken, restartGroups]

theorem wakeComplete_wakes {s : State} (hwaking : s.power.waking = true) :
    ∃ v, exec .wakeComplete s = .next (takeHeldUdp (commitHeld v.serial.held v)) ∧
      v.power.power = (if s.power.opTarget = 0 then .run else .trim) ∧ v.power.wakeFrom = s.power.power.code ∧
      v.power.waking = false := by
  obtain ⟨v, hexec, hpower⟩ := execWakeComplete_eq hwaking
  obtain ⟨hserial, hsame⟩ := refreshAll_skipSlept (restartGroups v)
  refine ⟨refreshAll (skipSlept (restartGroups v)), ?_, ?_⟩
  · rw [hserial, hexec]
  · rw [hsame, restartGroups_power, hpower]
    exact ⟨rfl, rfl, rfl⟩

/-- Settles O33: supplies, clocks, temperature, the power states and Keeper's heartbeat. -/
theorem powerEventsComplete : Obligations.PowerEventsComplete := by
  unfold Obligations.PowerEventsComplete
  refine ⟨fun s hpresent => ?loss, fun s => ?lock, fun s hpresent => vsafLoss_absent hpresent,
    fun s habsent => vsafReturn_starts habsent, fun h s => tempSample_keeps_reading h s, fun t s hsince hcome hband => ?fall,
    fun s hramp hvolt => ?rampEnd, fun s hafter hawake => ?eval, fun s hdeep => ?wake, fun s t hdeep htimer hcome => ?timer,
    fun s hwaking => wakeComplete_wakes hwaking, fun w s hout hruns hpresent hnew => ?heartbeat⟩
  case loss =>
    let s1 := (s.onPower fun p => { p with
      refLost := true, pllLocked := false, aonRc := true, coarse := s.wall / 1000, diEdges := 0 }).onSys fun y => { y with legClamp := true }
    refine ⟨deviceFault 0x0005 0xFFFF 0 true (refreshAll s1), if_neg (by simp [hpresent]), ?_⟩
    rw [deviceFault_power, refreshAll_power, deviceFault_legClamp, refreshAll_sys]
    exact ⟨rfl, rfl, rfl, rfl, deviceFault_ring_ne_nil _ _ _ _ _⟩
  case lock =>
    let s1 := ((s.onPower fun p => { p with refLost := false, pllLocked := true, aonRc := false }).onLodge fun b => { b with
      refGone := if b.refFault then some b.time else none }).onSys fun y => { y with legClamp := false }
    refine ⟨setCause 0x0005 0xFFFF false (refreshAll s1), rfl, ?_⟩
    have hcause : ∀ t : State, (setCause 0x0005 0xFFFF false t).power = t.power ∧ (setCause 0x0005 0xFFFF false t).sys = t.sys :=
      fun _ => ⟨rfl, rfl⟩
    rw [(hcause _).1, (hcause _).2, refreshAll_power, refreshAll_sys]
    exact ⟨rfl, rfl, rfl, rfl⟩
  case fall =>
    refine ⟨changeBand (s.power.band - 1) s, ?_, changeBand_falls (Nat.sub_le _ _)⟩
    change execBandFall s = _
    rw [execBandFall, hsince]
    dsimp only
    rw [if_pos ⟨hcome, hband⟩]
  case rampEnd =>
    refine ⟨reportSlack (s.onPower fun p => { p with
      opNow := p.opTarget, ramp := false, volt := opVolt p.opTarget, rampAt := s.now, band := p.bandNext.getD p.band, bandNext := none }),
      ?_, ?_⟩
    · change execVoltageRampEnd s = _
      rw [execVoltageRampEnd, if_pos ⟨hramp, hvolt⟩]
    · rw [reportSlack_power]
      exact ⟨rfl, rfl, rfl, rfl⟩
  case eval =>
    change execPowerStateEval s = _
    rw [execPowerStateEval, if_pos ⟨hafter, by simp [hawake]⟩]
  case wake =>
    change execWakeEvent s = _
    rw [execWakeEvent, if_pos hdeep]
  case timer =>
    change execWakeTimerExpiry s = _
    rw [execWakeTimerExpiry, htimer]
    dsimp only
    rw [if_neg (Nat.not_lt.mpr hcome), execWakeEvent]
    exact congrArg Host.Outcome.next (if_pos hdeep)
  case heartbeat =>
    refine ⟨_, if_neg ?_, rfl, rfl, rfl⟩
    simp [hout, hruns, lodgePowered, hpresent, hnew]

end Sys2Proof.Machine


/-! SUPPORT.
The events of the loops, the planner, standstill and reactions. -/

namespace Sys2Proof.Machine

/-! ## Loops -/

theorem loopSample_done {i : Fin 64} {k : Fin 3} {s v : State} {m : AxisMode} {c : State × Option (Nat × Region)}
    (hruns : domainsRun s = true) (hmode : s.axis[i].mode = some m) (hnow : samplesNow i k m s = true)
    (hc : c = commitLoad i k (portsSample i k m (takeLock i k (onLoopSt i k (fun y => { y with sampledAt := some (sampleTick i s) })
      (if (slotLoops s.axis[i].bind m s).contains k then occurs 3 i.val k.val s else s)))))
    (hslack : live s.axis[i] = true → c.1.loop.slot[i].lp[k].slackFault = false)
    (hv : v = (let x := if k = 0 then innerSample i c.1 else c.1;
      let y := if k = outerLoop m.depth then sourceChain 8 i x else x;
      if k = 2 ∧ loopActive i k y = true then followingError i y else y)) :
    exec (.loopSample i k) s = .next (if loopActive i k v = true ∧
      ((slotLoops s.axis[i].bind m s).contains k = true ∨ m.drive = 2 ∧ m.depth = 0) then saturation i (runSample i k c.2 v)
      else loopIdle i k v) := by
  subst hc hv
  have hnoFault : ∀ {b : Bool}, (live s.axis[i] = true → b = false) → ¬(live s.axis[i] && b) = true := by
    intro b hb
    by_cases hlive : live s.axis[i] = true
    · simp [hb hlive]
    · rw [Bool.not_eq_true] at hlive
      rw [hlive]
      exact Bool.false_ne_true
  change execLoopSample i k s = _
  rw [execLoopSample, if_neg (by simp [hruns]), loopSample, hmode]
  dsimp only
  rw [if_neg (by simp [hnow]), if_neg (hnoFault hslack)]
  congr 1
  simp only [Bool.and_eq_true, Bool.or_eq_true, beq_iff_eq]

/-- A result in time is kept ready, and its margin is noted. -/
theorem loopResultReady_inTime {i : Fin 64} {k : Fin 3} {s : State} {r : List Int}
    (hresult : s.loop.slot[i].lp[k].computing = some r) (hearly : s.loop.slot[i].lp[k].computingLate = false)
    (htime : s.now ≤ releaseTick i k s) : exec (.loopResultReady i k) s = .next (onLoopSt i k (fun y => { y with
      computing := none, ready := some r,
      margin := BitVec.ofNat 16 (min y.margin.toNat (min (releaseTick i k s - s.now) 0xFFFF)) }) s) := by
  change execLoopResultReady i k s = _
  rw [execLoopResultReady, resultReady, hresult]
  dsimp only
  rw [if_neg (by simp [hearly, Nat.not_lt.mpr htime, -Fin.getElem_fin])]

theorem onLoopSt_same (i : Fin 64) (k : Fin 3) (f : LoopSt → LoopSt) (s : State) :
    (onLoopSt i k f s).loop.slot[i].lp[k] = f s.loop.slot[i].lp[k] := by
  simp [onLoopSt, State.onLoop, -Fin.getElem_fin]

/-- The loop block after a release: the released result of one loop and, of the inner one, the voltages it leaves. -/
def releasedLoop (i : Fin 64) (k : Fin 3) (r : List Int) (s : State) : State :=
  let s1 := onLoopSt i k (fun y => { y with ready := none, released := r }) s
  if k = 0 then onLSlot i (fun x => { x with relD := x.vD, relQ := x.vQ }) s1 else s1

theorem onLSlot_voltages (i : Fin 64) (k : Fin 3) (s : State) :
    (onLSlot i (fun x => { x with relD := x.vD, relQ := x.vQ }) s).loop.slot[i].lp[k] = s.loop.slot[i].lp[k] := by
  simp [onLSlot, State.onLoop, -Fin.getElem_fin]

theorem releasedLoop_result (i : Fin 64) (k : Fin 3) (r : List Int) (s : State) :
    (releasedLoop i k r s).loop.slot[i].lp[k].released = r ∧ (releasedLoop i k r s).loop.slot[i].lp[k].ready = none ∧
    (releasedLoop i k r s).lanes = s.lanes ∧ (releasedLoop i k r s).axis = s.axis := by
  unfold releasedLoop
  dsimp only
  split
  · rw [onLSlot_voltages, onLoopSt_same]
    exact ⟨rfl, rfl, rfl, rfl⟩
  · rw [onLoopSt_same]
    exact ⟨rfl, rfl, rfl, rfl⟩

theorem loopRelease_released {i : Fin 64} {k : Fin 3} {s : State} {r : List Int} (hruns : domainsRun s = true)
    (hlocal : ¬(k = 0 ∧ s.axis[i].bind.location = 2)) (htime : releaseTick i k s ≤ s.now)
    (hready : s.loop.slot[i].lp[k].ready = some r) : ∃ v, exec (.loopRelease i k) s = .next (if k = 0 then releaseLegs i r v else v) ∧
      v.loop.slot[i].lp[k].released = r ∧ v.loop.slot[i].lp[k].ready = none ∧ v.lanes = (occurs 2 i.val k.val s).lanes := by
  obtain ⟨hreleased, hnone, hlanes, haxis⟩ := releasedLoop_result i k r (occurs 2 i.val k.val s)
  have hoccurs : (occurs 2 i.val k.val s).axis = s.axis := occurs_keeps (Keeps.axis_same rfl s) rfl
  have hframe : byFrame i k s = false := by
    by_cases hk : k = 0
    · simp only [byFrame, Bool.and_eq_false_iff, beq_eq_false_iff_ne]
      exact Or.inr fun hloc => hlocal ⟨hk, hloc⟩
    · simp [byFrame, hk]
  refine ⟨releasedLoop i k r (occurs 2 i.val k.val s), ?_, hreleased, hnone, hlanes⟩
  change execLoopRelease i k s = _
  rw [execLoopRelease, if_neg (by simp [hruns]), loopRelease, if_neg (by simp [hframe, Nat.not_lt.mpr htime]), releaseLoop]
  dsimp only
  rw [if_pos (by simp [hready, -Fin.getElem_fin]), hready]
  dsimp only
  unfold releasedLoop
  dsimp only
  by_cases hk : k = 0
  · rw [if_neg (not_not_intro hk), if_pos hk, if_pos hk, hoccurs, if_neg fun hloc => hlocal ⟨hk, hloc⟩]
  · rw [if_pos hk, if_neg hk, if_neg hk]

/-- A conversion that no loop follows is its code and the clipped codes in a row. -/
theorem ainConversion_kept {c : Fin 8} {code : BitVec 16} {s : State} (hruns : domainsRun s = true)
    (hfree : ∀ i : Fin 64, follows i c s = false) : exec (.ainConversion c code) s = .next (
      let n := if code.toInt = -32768 ∨ code.toInt = 32767 then s.loop.ain[c].clips + 1 else 0
      let u := s.onLoop fun e => { e with ain := upd e.ain c fun _ => { code := code.toInt, clips := n } }
      if n = 4 then event 0x0305 c.val [] u else u) := by
  have hnone : ((List.finRange 64).filter fun (i : Fin 64) => follows i c s) = [] :=
    List.filter_eq_nil_iff.mpr fun i _ => by simp [hfree i]
  change execAinConversion c code s = _
  rw [execAinConversion, if_neg (by simp [hruns])]
  dsimp only
  rw [hnone]
  rfl

/-! ## Planner boundaries -/

theorem plannerBoundary_axis {i : Fin 64} {s : State} (hruns : domainsRun s = true) (hst : s.axis[i].st = .enabled)
    (hplan : sourceOf i s = 0 ∨ planBusy i s = true) (hdue : boundaryDue i s = true)
    (halone : ∀ g, memberOf i s = some g → s.plan.grp[g].running = false) : exec (.plannerBoundary (.axis i)) s =
      .next (disableWaiting i (targetCheck i (axisBoundary i (sampleTick i s) s))) := by
  have hboundaries : axisBoundaries i s = true := by
    simp only [axisBoundaries, hst, beq_self_eq_true, Bool.true_and, Bool.or_eq_true, beq_iff_eq]
    exact hplan
  have hgrouped : ((memberOf i s).map fun g => s.plan.grp[g].running).getD false = false := by
    cases hmember : memberOf i s with
    | none => rfl
    | some g => exact halone g hmember
  change execPlannerBoundary (.axis i) s = _
  unfold execPlannerBoundary
  rw [if_neg (by simp [hruns])]
  dsimp only
  rw [hgrouped, if_pos ⟨hdue, hboundaries, rfl⟩]

theorem plannerBoundary_group {g : Fin 16} {s : State} (hruns : domainsRun s = true) (hrun : s.plan.grp[g].running = true)
    (hdue : groupDue g s = true) :
    exec (.plannerBoundary (.group g)) s = .next (groupBoundary g (groupTick g s) (groupPhases g s)) := by
  change execPlannerBoundary (.group g) s = _
  rw [execPlannerBoundary, if_neg (by simp [hruns]), if_pos ⟨hrun, hdue⟩]

/-! ## Standstill, alignment and reactions -/

section Standstill

variable {i : Fin 64} {s : State} {m : AxisMode} (hmode : s.axis[i].mode = some m) (hst : s.axis[i].st = .enabled)
  (hmoving : s.axis[i].standstill = false) (hidle : s.axis[i].spChange + 500000 * m.idleMs ≤ s.now)
include hmode hst hmoving hidle

/-- The idle time over, an Enabled slot goes into standstill by its policy. -/
theorem standstillEntry_eq : exec (.standstillEntry i) s = .next (
    let v := onAx i (fun a => { a with standstill := true, legsOff := m.standstill == 1, legsShort := m.standstill == 2 }) s
    if m.standstill = 1 then loopsStop i (outputFor i 0 v)
    else if m.standstill = 2 then loopsStop i (outputFor i 1 v)
    else if 3 ≤ m.standstill then
      v.onStepper fun e => { e with slot := upd e.slot i fun x => { x with phase := 1, phaseStart := s.now, changeDue := false } }
    else v.onStepper fun e => { e with slot := upd e.slot i fun x => { x with changeDue := false } }) := by
  change execStandstillEntry i s = _
  rw [execStandstillEntry, hmode]
  dsimp only
  rw [if_neg]
  rintro (hnot | hstill | hearly)
  · exact hnot hst
  · exact absurd hstill (by simp [hmoving, -Fin.getElem_fin])
  · exact absurd hearly (Nat.not_lt.mpr hidle)

/-- With no policy the slot is in standstill and its legs go on. -/
theorem standstillEntry_none (hpolicy : m.standstill = 0) : ∃ u, exec (.standstillEntry i) s = .next u ∧
    u.axis[i].standstill = true ∧ u.axis[i].legsOff = false ∧ u.axis[i].legsShort = false ∧ ∀ k, k ≠ i → u.axis[k] = s.axis[k] := by
  refine ⟨_, standstillEntry_eq hmode hst hmoving hidle, ?_⟩
  dsimp only
  rw [if_neg (by simp [hpolicy]), if_neg (by simp [hpolicy]), if_neg (by simp [hpolicy])]
  have hslot : (onAx i (fun a => { a with standstill := true, legsOff := m.standstill == 1, legsShort := m.standstill == 2 }) s).axis[i] =
    { s.axis[i] with standstill := true, legsOff := m.standstill == 1, legsShort := m.standstill == 2 } := upd_same ..
  refine ⟨(congrArg Axis.standstill hslot :), ?_, ?_, fun k hk => upd_other _ _ _ _ hk.symm⟩
  · exact (congrArg Axis.legsOff hslot).trans (by simp [hpolicy])
  · exact (congrArg Axis.legsShort hslot).trans (by simp [hpolicy])

theorem standstillEntry_policy (hpolicy : 1 ≤ m.standstill) {v : State}
    (hv : v = onAx i (fun a => { a with standstill := true, legsOff := m.standstill == 1, legsShort := m.standstill == 2 }) s) :
    exec (.standstillEntry i) s = .next (if m.standstill = 1 then loopsStop i (outputFor i 0 v)
      else if m.standstill = 2 then loopsStop i (outputFor i 1 v)
      else v.onStepper fun e => { e with slot := upd e.slot i fun x => { x with phase := 1, phaseStart := s.now, changeDue := false } }) := by
  subst hv
  rw [standstillEntry_eq hmode hst hmoving hidle]
  dsimp only
  by_cases hone : m.standstill = 1
  · rw [if_pos hone, if_pos hone]
  · by_cases htwo : m.standstill = 2
    · rw [if_neg hone, if_neg hone, if_pos htwo, if_pos htwo]
    · rw [if_neg hone, if_neg hone, if_neg htwo, if_neg htwo, if_pos (by omega)]

end Standstill

theorem alignmentComplete_moved {i : Fin 64} {s : State} (halign : s.axis[i].aligning = true)
    (htime : s.axis[i].alignSince + 125000000 ≤ s.now) (hmoved : s.axis[i].alignMoved = true) :
    exec (.alignmentComplete i) s =
      .next (onAx i (fun a => { a with aligning := false, offset := some (measuredPos i s), forceAlign := false }) s) := by
  change execAlignmentComplete i s = _
  rw [execAlignmentComplete]
  dsimp only
  rw [if_neg, if_pos (by simp [hmoved, -Fin.getElem_fin])]
  rintro (hnot | hearly)
  · exact absurd hnot (by simp [halign, -Fin.getElem_fin])
  · exact absurd hearly (Nat.not_lt.mpr htime)

section Reaction

variable {i : Fin 64} {s : State} (hst : s.axis[i].st = .reacting) (hstop : s.axis[i].stopShort = false)
include hst hstop

theorem reactionComplete_short (hreaction : s.axis[i].reaction = some 1) :
    exec (.reactionComplete i) s = .next (onAx i (fun a => { a with st := .faulted }) s) := by
  change execReactionComplete i s = _
  rw [execReactionComplete]
  dsimp only
  rw [if_neg (by simp [hstop, -Fin.getElem_fin]), if_neg (not_not_intro hst), if_neg (by simp [hreaction, -Fin.getElem_fin]),
    if_pos hreaction]

theorem reactionComplete_off (hreaction : s.axis[i].reaction ≠ some 1)
    (hramp : s.axis[i].reaction = some 2 → rampOver i s = true) :
    exec (.reactionComplete i) s = .next (planEnd i (loopsStop i (outputFor i 0
      (onAx i (fun a => { a with st := .faulted, legsOff := true, legsShort := false, slowSince := none }) s)))) := by
  have hover : ¬(s.axis[i].reaction = some 2 ∧ (!rampOver i s) = true) := fun ⟨htwo, hgoes⟩ => by simp [hramp htwo] at hgoes
  change execReactionComplete i s = _
  rw [execReactionComplete]
  dsimp only
  rw [if_neg (by simp [hstop, -Fin.getElem_fin]), if_neg (not_not_intro hst), if_neg hover, if_neg hreaction]

end Reaction

theorem observerStartTimeout_faults {i : Fin 64} {s : State} (hst : s.axis[i].st = .enabled)
    (hstart : s.loop.slot[i].obsStart = true) (hserved : s.loop.slot[i].obsServed = false)
    (hvalid : s.loop.slot[i].obsValid = false) (htime : s.loop.slot[i].frameStart + 1000000 * s.loop.slot[i].startMs ≤ s.now) :
    exec (.observerStartTimeout i) s = .next (axisFault i 6 0 s) := by
  change execObserverStartTimeout i s = _
  rw [execObserverStartTimeout, if_pos ⟨hst, hstart, by rw [hserved]; rfl, by rw [hvalid]; rfl, htime⟩]

/-- Settles O34: the events of the loops, the planner, standstill, alignment and reactions. -/
theorem loopAndPlannerEventsComplete : Obligations.LoopAndPlannerEventsComplete := by
  unfold Obligations.LoopAndPlannerEventsComplete
  exact ⟨fun _ _ _ _ _ _ hruns hmode hnow hc hslack hv => loopSample_done hruns hmode hnow hc hslack hv,
    fun _ _ _ _ hresult hearly htime => loopResultReady_inTime hresult hearly htime,
    fun _ _ _ _ hruns hlocal htime hready => loopRelease_released hruns hlocal htime hready,
    fun _ _ _ hruns hfree => ainConversion_kept hruns hfree,
    fun _ _ hruns hst hplan hdue halone => plannerBoundary_axis hruns hst hplan hdue halone,
    fun _ _ hruns hrun hdue => plannerBoundary_group hruns hrun hdue,
    fun _ _ _ hmode hst hmoving hpolicy hidle => standstillEntry_none hmode hst hmoving hidle hpolicy,
    fun _ _ _ _ hmode hst hmoving hpolicy hidle hv => standstillEntry_policy hmode hst hmoving hidle hpolicy hv,
    fun _ _ halign htime hmoved => alignmentComplete_moved halign htime hmoved,
    fun _ _ hst hstop hreaction => reactionComplete_short hst hstop hreaction,
    fun _ _ hst hstop hreaction hramp => reactionComplete_off hst hstop hreaction hramp,
    fun _ _ hst hstart hserved hvalid htime => observerStartTimeout_faults hst hstart hserved hvalid htime⟩

end Sys2Proof.Machine


/-! SUPPORT.
The events of the bridge timers and the stepper drives. -/

namespace Sys2Proof.Machine

/-! ## Bridge timers -/

theorem periodBoundary_acts {g : Fin 32} {s : State} (hruns : domainsRun s = true) (hrun : s.bta.grp[g].run = true)
    (hdue : s.bta.grp[g].startDue = none ∧ s.bta.grp[g].count = 0 ∧ s.bta.grp[g].boundaryAt ≠ some s.now ∨
      ∃ t, s.bta.grp[g].startDue = some t ∧ t ≤ s.now) :
    exec (.periodBoundary g) s = .next (boundary g s) := by
  change execPeriodBoundary g s = _
  rw [execPeriodBoundary, if_neg (by simp [hruns])]
  dsimp only
  rw [if_pos]
  rcases hdue with ⟨hstart, hcount, hat⟩ | ⟨t, hstart, hcome⟩
  · simp [hrun, hstart, hcount, hat, -Fin.getElem_fin]
  · simp [hrun, hstart, hcome, -Fin.getElem_fin]

section Edge

variable {n : Fin 96} {t : Nat} {s : State} (hrun : s.bta.grp[legGroup n].run = true)
  (hboundary : s.bta.grp[legGroup n].boundaryAt = some t) (hnow : t + s.bta.grp[legGroup n].count = s.now)
include hrun hboundary hnow

/-- At the tick of an edge not yet issued the edge is due. -/
theorem edgeDue_rise (hrose : s.bta.leg[n].rose = false)
    (hcount : s.bta.grp[legGroup n].count = edgeTick n s.bta.grp[legGroup n].ditherK s.bta.leg[n] s.bta.leg[n].cmpa.active) :
    edgeDue n true s = true := by
  simp [edgeDue, hrun, hboundary, hnow, hrose, ← hcount, -Fin.getElem_fin]

theorem edgeDue_fall (hfell : s.bta.leg[n].fell = false)
    (hcount : s.bta.grp[legGroup n].count = edgeTick n s.bta.grp[legGroup n].ditherK s.bta.leg[n] s.bta.leg[n].cmpb.active) :
    edgeDue n false s = true := by
  simp [edgeDue, hrun, hboundary, hnow, hfell, ← hcount, -Fin.getElem_fin]

end Edge

/-- A rise that was issued is not due again. -/
theorem edgeDue_rise_eq_false {n : Fin 96} {s : State} (hrose : s.bta.leg[n].rose = true) : edgeDue n true s = false := by
  simp [edgeDue, hrose, -Fin.getElem_fin]

theorem commandSignalEdge_rise {n : Fin 96} {s : State} (hruns : domainsRun s = true) (hdue : edgeDue n true s = true) :
    exec (.commandSignalEdge n true) s = .next (issueEdge n true s) := by
  change execCommandSignalEdge n true s = _
  rw [execCommandSignalEdge, if_neg (by simp [hruns]), if_neg (by simp [hdue]), if_pos rfl]

theorem commandSignalEdge_fall {n : Fin 96} {s : State} (hruns : domainsRun s = true) (hdue : edgeDue n false s = true)
    (hrose : s.bta.leg[n].rose = true) : exec (.commandSignalEdge n false) s = .next (issueEdge n false s) := by
  change execCommandSignalEdge n false s = _
  rw [execCommandSignalEdge, if_neg (by simp [hruns]), if_neg (by simp [hdue]), if_neg Bool.false_ne_true,
    if_neg (by simp [edgeDue_rise_eq_false hrose])]

theorem tripInputAccepted_eq {k : Fin 16} {b : Bool} {s v : State} (hruns : tbRuns s = true)
    (hv : v = s.onBta fun x => { x with trip := upd x.trip k fun t => { t with active := b == t.activeHigh } }) :
    exec (.tripInputAccepted k b) s = .next (if s.bta.trip[k].active = true ∨ b ≠ s.bta.trip[k].activeHigh then v
      else (List.finRange 32).foldl (fun s g => tripSoon g (openPins g s &&& BitVec.ofNat 16 (2 ^ k.val)) [] s) v) := by
  have hlevel : v.bta.trip[k].active = (b == s.bta.trip[k].activeHigh) := by
    subst hv
    exact congrArg TripIn.active (upd_same ..)
  change execTripInputAccepted k b s = _
  rw [execTripInputAccepted, if_neg (by simp [hruns])]
  dsimp only
  rw [← hv, hlevel]
  simp only [Bool.or_eq_true, Bool.not_eq_true', beq_eq_false_iff_ne]

theorem overcurrent_acts {k : Fin 96} {s : State} (hruns : domainsRun s = true) :
    exec (.overcurrentDetect k) s = .next ((List.finRange 32).foldl (fun s g => actTrips g 0 (openOc g s) s) (setOc k true s)) ∧
    exec (.overcurrentInactive k) s = .next (setOc k false s) :=
  ⟨if_neg (by simp [hruns]), if_neg (by simp [hruns])⟩

theorem blankWindowEnd_evaluates {t : Fin 8} {s : State} (hruns : domainsRun s = true)
    (hends : windowEnds s.bta.blank[t] s = true) : exec (.blankWindowEnd t) s = .next
      (((List.finRange 32).filter fun (g : Fin 32) => s.bta.grp[g].blk == some t.val).foldl (fun s g => tripOpen g s) s) := by
  change execBlankWindowEnd t s = _
  rw [execBlankWindowEnd, if_neg (by simp [hruns]), if_neg (by simp [hends, -Fin.getElem_fin])]

section Calibration

variable {k : Fin 12} {n : Fin 96} {c : Nat} {s : State} (hleg : n.val = k.val)
include hleg

/-- The first twelve legs have the delay lines. -/
theorem delayLeg_eq : Fin.ofNat 96 k.val = n := by
  apply Fin.ext
  change k.val % 96 = n.val
  omega

theorem delayLineCalibration_good (hdue : calibrationDue n s = true) (hlow : 64 ≤ c) (hhigh : c ≤ 96) {v : State}
    (hv : v = onLeg n (fun l => { l with nCal := c, nCalNext := some c, calBad := none, calAt := some s.now }) s) :
    exec (.delayLineCalibration k c) s =
      .next (if s.bta.grp[legGroup n].run = true then v else onLeg n takeCalibration v) := by
  subst hv
  obtain rfl := delayLeg_eq hleg
  change execDelayLineCalibration k c s = _
  unfold execDelayLineCalibration
  dsimp only
  rw [if_neg (by rw [hdue]; exact Bool.false_ne_true), if_pos ⟨hlow, hhigh⟩]

theorem delayLineCalibration_bad (hdue : calibrationDue n s = true) (hbad : c < 64 ∨ 96 < c) :
    exec (.delayLineCalibration k c) s =
      .next (onLeg n (fun l => { l with calBad := some (l.calBad.getD s.now), calAt := some s.now }) s) := by
  obtain rfl := delayLeg_eq hleg
  change execDelayLineCalibration k c s = _
  unfold execDelayLineCalibration
  dsimp only
  rw [if_neg (by rw [hdue]; exact Bool.false_ne_true), if_neg (by omega)]

theorem calFallback_falls {t : Nat} (hbad : s.bta.leg[n].calBad = some t) (htime : t + 5000000 ≤ s.now)
    (hnot : s.bta.leg[n].fallback = false) : exec (.calFallback k) s =
      .next (event 0x0504 n.val [] (onLeg n (fun l => { l with fallback := true, fCalFail := true }) s)) := by
  obtain rfl := delayLeg_eq hleg
  change execCalFallback k s = _
  unfold execCalFallback
  dsimp only
  rw [hbad]
  dsimp only
  rw [if_pos ⟨htime, by rw [hnot]; rfl⟩]

end Calibration

theorem bankLevelSettled_settles {k : Fin 8} {h : Bool} {s : State} (hchanging : s.bta.bank[k].changing = some h) :
    ∃ v, exec (.bankLevelSettled k) s =
        .next (finish (fun e => e.opcode == 0x0509 && e.key == k.val) .done [] ((bankGroups k).foldl (fun s g => refreshGroup g s) v)) ∧
      v = s.onBta fun b => { b with bank := upd b.bank k fun _ => { high := h } } := by
  refine ⟨_, ?_, rfl⟩
  change execBankLevelSettled k s = _
  rw [execBankLevelSettled, settleBank, hchanging]

/-! ## Stepper drives -/

theorem holdRampEnd_holds {i : Fin 64} {s : State} (hphase : s.stepper.slot[i].phase = 1)
    (htime : s.stepper.slot[i].phaseStart + 500000 * s.stepper.slot[i].holdRamp ≤ s.now) :
    exec (.holdRampEnd i) s = .next (onStep i (fun y => { y with phase := 2 }) s) := by
  change execHoldRampEnd i s = _
  rw [execHoldRampEnd, if_pos ⟨hphase, htime⟩]

theorem freewheelStart_frees {i : Fin 64} {s : State} {m : AxisMode} (hmode : s.axis[i].mode = some m)
    (hpolicy : m.standstill = 4 ∨ m.standstill = 5) (hst : s.axis[i].st = .enabled) (hstill : s.axis[i].standstill = true)
    (hphase : s.stepper.slot[i].phase = 1 ∨ s.stepper.slot[i].phase = 2)
    (htime : s.stepper.slot[i].phaseStart + 500000 * (s.stepper.slot[i].holdRamp + s.stepper.slot[i].freewheelDelay) ≤ s.now) :
    exec (.freewheelStart i) s = .next (onStep i (fun y => { y with phase := if m.standstill = 4 then 3 else 4 })
      (loopsStop i (outputFor i (if m.standstill = 4 then 0 else 1)
        (onAx i (fun a => { a with legsOff := m.standstill == 4, legsShort := m.standstill != 4 }) s)))) := by
  have hstandstill : (s.axis[i].mode.map (·.standstill)).getD 0 = m.standstill := by rw [hmode]; rfl
  change execFreewheelStart i s = _
  rw [execFreewheelStart, hstandstill]
  dsimp only
  rw [if_pos ⟨hst, hstill, hphase, hpolicy, htime⟩]
  simp only [beq_iff_eq]
  rfl

theorem freewheelLimitExceeded_invalidates {i : Fin 64} {s : State} (hdown : s.stepper.slot[i].downSince.isSome = true)
    (hangle : stepAngle i s = true) (hspent : stepperSpent i s = true) :
    exec (.freewheelLimitExceeded i) s = .next (onStep i (fun y => { y with holdValid := false }) s) := by
  change execFreewheelLimitExceeded i s = _
  rw [execFreewheelLimitExceeded, if_pos (by rw [hdown, hangle, hspent]; rfl)]

theorem wakeRampEnd_moves {i : Fin 64} {s : State} (hphase : s.stepper.slot[i].phase = 5)
    (htime : s.stepper.slot[i].phaseStart + wakeTicks i s ≤ s.now) (hwaits : wakeWaits i s = true) :
    exec (.wakeRampEnd i) s =
      .next (onStep i (fun y => { y with phase := 0 }) (onAx i (fun a => { a with waitN := 0, spChange := s.now }) s)) := by
  change execWakeRampEnd i s = _
  rw [execWakeRampEnd, if_pos ⟨hphase, htime⟩, if_pos (by rw [hwaits]; rfl)]

/-- Settles O35: the events of the bridge timers and of the stepper drives. -/
theorem bridgeAndStepperEventsComplete : Obligations.BridgeAndStepperEventsComplete := by
  unfold Obligations.BridgeAndStepperEventsComplete
  exact ⟨fun _ _ hruns hrun hdue => periodBoundary_acts hruns hrun hdue,
    fun _ _ _ hruns hrun hboundary hnow hrose hcount =>
      commandSignalEdge_rise hruns (edgeDue_rise hrun hboundary hnow hrose hcount),
    fun _ _ _ hruns hrun hboundary hnow hfell hrose hcount =>
      commandSignalEdge_fall hruns (edgeDue_fall hrun hboundary hnow hfell hcount) hrose,
    fun _ _ _ _ hruns hv => tripInputAccepted_eq hruns hv,
    fun _ _ hruns => overcurrent_acts hruns,
    fun _ _ hruns hends => blankWindowEnd_evaluates hruns hends,
    fun _ _ _ _ _ hleg hdue hlow hhigh hv => delayLineCalibration_good hleg hdue hlow hhigh hv,
    fun _ _ _ _ hleg hdue hbad => delayLineCalibration_bad hleg hdue hbad,
    fun _ _ _ _ hleg hbad htime hnot => calFallback_falls hleg hbad htime hnot,
    fun _ _ _ hchanging => bankLevelSettled_settles hchanging,
    fun _ _ hphase htime => holdRampEnd_holds hphase htime,
    fun _ _ _ hmode hpolicy hst hstill hphase htime => freewheelStart_frees hmode hpolicy hst hstill hphase htime,
    fun _ _ hdown hangle hspent => freewheelLimitExceeded_invalidates hdown hangle hspent,
    fun _ _ hphase htime hwaits => wakeRampEnd_moves hphase htime hwaits⟩

end Sys2Proof.Machine


/-! SUPPORT.
The events of the position ports. -/

namespace Sys2Proof.Machine

/-- A direction noted changes nothing else of the port. -/
theorem Port.noteDirection_lines (x : Port) (ns : Nat) (b : Bool) : (x.noteDirection ns b).lineA = x.lineA ∧
    (x.noteDirection ns b).lineB = x.lineB ∧ (x.noteDirection ns b).lineZ = x.lineZ ∧ (x.noteDirection ns b).lineC = x.lineC ∧
    (x.noteDirection ns b).counts = x.counts := ⟨rfl, rfl, rfl, rfl, rfl⟩

theorem ppEdgeAccepted_levels {p : Fin 32} {l : BitVec 4} {s : State} (hruns : domainsRun s = true)
    (hmode : s.ports.port[p].mode = 0 ∨ s.ports.port[p].mode = 5) : ∃ u, exec (.ppEdgeAccepted p l) s = .next u ∧
    u.ports.port[p].lineA = l.getLsbD 0 ∧ u.ports.port[p].lineB = l.getLsbD 1 ∧ u.ports.port[p].lineZ = l.getLsbD 2 ∧
    u.ports.port[p].lineC = l.getLsbD 3 ∧ u.ports.port[p].counts = s.ports.port[p].counts ∧
    ∀ q, q ≠ p → u.ports.port[q] = s.ports.port[q] := by
  let x := s.ports.port[p]
  let y := { x with lineA := l.getLsbD 0, lineB := l.getLsbD 1, lineZ := l.getLsbD 2, lineC := l.getLsbD 3 }
  let z := if (l.getLsbD 1 != x.lineB) then y.noteDirection (fbStamp s) (l.getLsbD 1) else y
  have hz : z.lineA = l.getLsbD 0 ∧ z.lineB = l.getLsbD 1 ∧ z.lineZ = l.getLsbD 2 ∧ z.lineC = l.getLsbD 3 ∧
      z.counts = s.ports.port[p].counts := by
    by_cases hb : (l.getLsbD 1 != x.lineB) = true
    · rw [show z = y.noteDirection (fbStamp s) (l.getLsbD 1) from if_pos hb]
      exact Port.noteDirection_lines y _ _
    · rw [show z = y from if_neg hb]
      exact ⟨rfl, rfl, rfl, rfl, rfl⟩
  have hport : (onPort p (fun _ => z) s).ports.port[p] = z := onPort_same ..
  refine ⟨onPort p (fun _ => z) s, ?_, ?_⟩
  · change execPpEdgeAccepted p l s = _
    rw [execPpEdgeAccepted, if_neg (by simp [hruns]), edgeAccepted]
    dsimp only
    split
    case h_1 | h_2 | h_3 | h_4 | h_5 => omega
    case h_6 => rfl
  · rw [hport]
    obtain ⟨ha, hb, hc, hd, hcounts⟩ := hz
    exact ⟨ha, hb, hc, hd, hcounts, fun q hq => upd_other _ _ _ _ hq.symm⟩

theorem ppEdgeAccepted_quadrature {p : Fin 32} {l : BitVec 4} {s : State} {x : Port} (hruns : domainsRun s = true)
    (hx : x = s.ports.port[p]) (hmode : x.mode = 1) (ha : l.getLsbD 0 ≠ x.lineA) (hb : l.getLsbD 1 = x.lineB) :
    exec (.ppEdgeAccepted p l) s = .next (indexCheck p x (fbStamp s) (countMoved p (x.signOf (l.getLsbD 0 != l.getLsbD 1)) (fbStamp s)
      (onPort p (fun _ => { x with lineA := l.getLsbD 0, lineB := l.getLsbD 1, lineZ := l.getLsbD 2, lineC := l.getLsbD 3 }) s))) := by
  have hda : (l.getLsbD 0 != x.lineA) = true := bne_iff_ne.mpr ha
  have hdb : (l.getLsbD 1 != x.lineB) = false := by rw [hb]; exact bne_self_eq_false _
  change execPpEdgeAccepted p l s = _
  rw [execPpEdgeAccepted, if_neg (by simp [hruns]), edgeAccepted, ← hx]
  dsimp only
  rw [hmode, hda, hdb]
  rfl

theorem ssiFrameStart_stamps {p : Fin 32} {s : State} (hruns : domainsRun s = true) (hmode : s.ports.port[p].mode = 5)
    (hmay : ssiMayStart p s = true) : exec (.ssiFrameStart p) s =
      .next (onPort p (fun x => { x with ssiStart := some s.nowNs, ssiPoll := s.nowNs }) s) := by
  change execSsiFrameStart p s = _
  rw [execSsiFrameStart, if_neg (by simp [hruns]), if_pos ⟨hmode, hmay⟩]

theorem ssiFrameEnd_good {p : Fin 32} {d : BitVec 64} {t : Nat} {s : State} (hruns : domainsRun s = true)
    (hstart : s.ports.port[p].ssiStart = some t) (hmode : s.ports.port[p].mode = 5)
    (htime : t + ssiFrame s.ports.port[p].cfg.ssi ≤ s.nowNs)
    (hgood : ssiGood s.ports.port[p].cfg.ssi (s.ports.port[p].cfg.opts.getLsbD 6) d.toNat = true) :
    exec (.ssiFrameEnd p d false) s = .next (ssiGoodFrame p t (ssiValue s.ports.port[p].cfg.ssi s.ports.port[p].cfg.opts d.toNat)
      (onPort p (fun x => { x with ssiStart := none, ssiEnd := s.nowNs, ssiRaw := d }) s)) := by
  change execSsiFrameEnd p d false s = _
  rw [execSsiFrameEnd, if_neg (by simp [hruns])]
  dsimp only
  rw [hstart]
  dsimp only
  rw [if_neg Bool.false_ne_true, if_neg (Nat.not_lt.mpr htime), if_neg (not_not_intro hmode), if_neg (by rw [hgood]; exact Bool.false_ne_true)]

theorem sincosSample_first {k : Fin 8} {p : Fin 32} {a b : BitVec 14} {s : State} {c : SinCfg} {r2 : Int}
    (hruns : domainsRun s = true) (hp : p = Fin.ofNat 32 k.val) (hmode : s.ports.port[p].mode = 6)
    (hphase : s.ports.port[p].phase = none) (hc : c = s.ports.port[p].cfg.sincos)
    (hr : r2 = sinCorrected a c.offS c.gainS ^ 2 + sinCorrected b c.offC c.gainC ^ 2)
    (hlow : ((c.ampMin : Int) * 134217728) ^ 2 ≤ r2) (hhigh : r2 ≤ ((c.ampMax : Int) * 134217728) ^ 2) :
    exec (.sincosSample k a b) s = .next (lossGone p 5 (countMoved p 0 s.nowNs (onPort p (fun x => { x with
      sinRaw := a.toInt, cosRaw := b.toInt, sinBad := 0,
      phase := some (roundOpen (ofAngle (angleOf (sinCorrected a c.offS c.gainS) (sinCorrected b c.offC c.gainC)) * 4096) % 4096) }) s))) := by
  subst hp hc
  have hsquare (x : Int) : x ^ 2 = x * x := by grind
  rw [hsquare, hsquare] at hr
  have hband : (decide (((s.ports.port[Fin.ofNat 32 k.val].cfg.sincos.ampMin : Int) * (8192 * 16384)) ^ 2 ≤ r2) &&
      decide (r2 ≤ ((s.ports.port[Fin.ofNat 32 k.val].cfg.sincos.ampMax : Int) * (8192 * 16384)) ^ 2)) = true := by
    rw [Bool.and_eq_true]
    exact ⟨decide_eq_true hlow, decide_eq_true hhigh⟩
  change execSincosSample k a b s = _
  rw [execSincosSample, if_neg (by simp [hruns])]
  dsimp only
  rw [if_neg (not_not_intro hmode), ← hr, hband, hphase, if_neg (by simp)]
  dsimp only
  rw [if_pos (by decide), Int.zero_mul, onPort_onPort, onPort_onPort]
  rfl

theorem speedEvaluation_evaluates {p : Fin 32} {s : State} (hruns : domainsRun s = true) (hfree : loopUses p s = false)
    (htime : s.ports.port[p].evalAt + 100000 ≤ s.nowNs) : exec (.speedEvaluation p) s = .next (evalSpeed p s) := by
  change execSpeedEvaluation p s = _
  rw [execSpeedEvaluation, if_neg (by simp [hruns]), if_pos ⟨by rw [hfree]; rfl, htime⟩]

theorem speedStandstillTimeout_stands {p : Fin 32} {s : State} (hruns : domainsRun s = true) (hlow : 1 ≤ s.ports.port[p].mode)
    (hhigh : s.ports.port[p].mode ≤ 4)
    (htime : (s.ports.port[p].stamps.head?.map (·.1)).getD 0 + 1000000 * s.ports.port[p].cfg.timeoutMs ≤ s.nowNs) :
    exec (.speedStandstillTimeout p) s =
      .next (onPort p (fun x => { x with standstill := true, reversal := false, sinceStop := 0 }) s) := by
  change execSpeedStandstillTimeout p s = _
  rw [execSpeedStandstillTimeout, if_neg (by simp [hruns])]
  dsimp only
  rw [if_pos ⟨hlow, hhigh, htime⟩]

theorem hallIllegal_lost {p : Fin 32} {t : Nat} {s : State} (hruns : domainsRun s = true)
    (hsince : s.ports.port[p].illegalSince = some t) (htime : t + 2000 ≤ s.nowNs) :
    exec (.hallIllegal p) s = .next (lossPresent p 4 s) := by
  change execHallIllegal p s = _
  rw [execHallIllegal, if_neg (by simp [hruns]), hsince]
  dsimp only
  rw [if_pos htime]

theorem freezeDetect_lost {p : Fin 32} {s : State} (hruns : domainsRun s = true)
    (htime : s.ports.port[p].lastMove + 1000000 * s.ports.port[p].cfg.freezeMs ≤ s.nowNs) (hmoves : observerMoves p s = true) :
    exec (.freezeDetect p) s = .next (lossPresent p 6 s) := by
  change execFreezeDetect p s = _
  rw [execFreezeDetect, if_neg (by simp [hruns])]
  dsimp only
  rw [if_pos ⟨htime, hmoves⟩]

theorem lossClear_clears {p : Fin 32} {s v : State} (hruns : domainsRun s = true)
    (hv : v = onPort p (fun x => { x with
      causesNow := x.causesNow &&& ((if observerMoves p s then 0xBE else 0x9E) &&& if x.unresUntil ≤ s.nowNs then 0x7F else 0xFF) }) s)
    (hactive : s.ports.port[p].lossActive = true) (hover : lossOver p v = true) :
    exec (.lossClear p) s = .next (clearLoss p v) := by
  change execLossClear p s = _
  rw [execLossClear, if_neg (by simp [hruns])]
  dsimp only
  rw [← hv, hactive, hover]
  rfl

/-- Settles O36: the events of the position ports. -/
theorem positionPortEventsComplete : Obligations.PositionPortEventsComplete := by
  unfold Obligations.PositionPortEventsComplete
  exact ⟨fun _ _ _ hruns hmode => ppEdgeAccepted_levels hruns hmode,
    fun _ _ _ _ hruns hx hmode ha hb => ppEdgeAccepted_quadrature hruns hx hmode ha hb,
    fun _ _ hruns hmode hmay => ssiFrameStart_stamps hruns hmode hmay,
    fun _ _ _ _ hruns hstart hmode htime hgood => ssiFrameEnd_good hruns hstart hmode htime hgood,
    fun _ _ _ _ _ _ _ hruns hp hmode hphase hc hr hlow hhigh => sincosSample_first hruns hp hmode hphase hc hr hlow hhigh,
    fun _ _ hruns hfree htime => speedEvaluation_evaluates hruns hfree htime,
    fun _ _ hruns hlow hhigh htime => speedStandstillTimeout_stands hruns hlow hhigh htime,
    fun _ _ hruns => if_neg (by simp [hruns]),
    fun _ _ _ hruns hsince htime => hallIllegal_lost hruns hsince htime,
    fun _ _ hruns htime hmoves => freezeDetect_lost hruns htime hmoves,
    fun _ _ => rfl,
    fun _ _ _ hruns hv hactive hover => lossClear_clears hruns hv hactive hover⟩

end Sys2Proof.Machine


/-! SUPPORT.
The events of the compare units, captures, remote frames and cyclic maps. -/

namespace Sys2Proof.Machine

theorem power_ne_rest_of_tbRuns {s : State} (hruns : tbRuns s = true) : s.power.power ≠ .rest := by
  simp only [tbRuns, Bool.and_eq_true, bne_iff_ne] at hruns
  exact hruns.1.2

/-! ## Compare units, latches and snapshots -/

theorem comparePulseEnd_ends {u : Fin 16} {t : Nat} {s : State} (hruns : domainsRun s = true)
    (hend : s.ports.cmp[u].pulseEnd = some t) (htime : t ≤ s.nowNs) :
    exec (.comparePulseEnd u) s = .next (onCmp u (fun c => { c with output := false, pulseEnd := none }) s) := by
  change execComparePulseEnd u s = _
  rw [execComparePulseEnd, if_neg (by simp [hruns]), hend]
  dsimp only
  rw [if_pos htime]

theorem latchEvent_noted {pin : Option (Fin 16)} {rise : Bool} {s : State} (hruns : domainsRun s = true) :
    ∃ u, exec (.latchEvent pin rise) s = .next u ∧ (∀ k : Fin 16, u.ports.latch[k] = s.ports.latch[k].note s pin rise) ∧
      u.ports.snap = s.ports.snap.note s pin rise ∧ u.ports.port = s.ports.port :=
  ⟨s.onPorts fun b => { b with latch := updAll b.latch fun _ l => l.note s pin rise, snap := b.snap.note s pin rise },
    if_neg (by simp [hruns]), fun _ => updAll_get .., rfl, rfl⟩

theorem onLatch_same (k : Fin 16) (f : Latch → Latch) (s : State) : (onLatch k f s).ports.latch[k] = f s.ports.latch[k] :=
  upd_same ..

/-- A capture with room enters the list; the last valid position alone is noted beside it. -/
theorem latchCapture_captured {k : Fin 16} {s : State} {d : LatchDue} {rest : List LatchDue} {ok : Bool} {pos : Int}
    (hruns : domainsRun s = true) (hdue : s.ports.latch[k].due = d :: rest) (hroom : s.ports.latch[k].caps.length < 16)
    (hcapture : portCapture (Fin.ofNat 32 s.ports.latch[k].port)
      (d.t + s.ports.port[(Fin.ofNat 32 s.ports.latch[k].port : Fin 32)].cfg.delay) s = some (ok, pos)) :
    ∃ u, exec (.latchCapture k) s = .next u ∧ u.ports.latch[k].due = rest ∧ u.ports.latch[k].seq = s.ports.latch[k].seq + 1 ∧
      u.ports.latch[k].caps = insertCapture
        { pos := pos, atTime := d.atTime, seq := s.ports.latch[k].seq.toNat, source := d.source, valid := ok, t := d.t }
        s.ports.latch[k].caps := by
  let c : Capture := { pos := pos, atTime := d.atTime, seq := s.ports.latch[k].seq.toNat, source := d.source, valid := ok, t := d.t }
  let s1 := onLatch k (fun l =>
    if l.caps.length < 16 then { l with due := rest, caps := insertCapture c l.caps, seq := l.seq + 1 }
    else { l with due := rest, lost := l.lost + 1, fLost := true, seq := l.seq + 1 }) (occurs 8 k.val 0 s)
  have hports : (occurs 8 k.val 0 s).ports = s.ports := occurs_keeps (Keeps.ports_same rfl s) rfl
  have hlatch : s1.ports.latch[k] =
      { s.ports.latch[k] with due := rest, caps := insertCapture c s.ports.latch[k].caps, seq := s.ports.latch[k].seq + 1 } := by
    rw [show s1 = onLatch k _ _ from rfl, onLatch_same, hports, if_pos hroom]
  refine ⟨if ok && (s.ports.latch[k].lastValid.all fun e => decide (e.1 ≤ d.t)) then
    onLatch k (fun l => { l with lastValid := some (d.t, pos) }) s1 else s1, ?_, ?_⟩
  · change execLatchCapture k s = _
    rw [execLatchCapture, if_neg (by simp [hruns])]
    dsimp only
    rw [hdue]
    dsimp only
    rw [hcapture]
    dsimp only
    rw [if_pos hroom]
    cases s.ports.latch[k].lastValid <;> rfl
  · split
    · rw [onLatch_same, hlatch]
      exact ⟨rfl, rfl, rfl⟩
    · rw [hlatch]
      exact ⟨rfl, rfl, rfl⟩

theorem snapshotCapture_captured {s : State} {d : LatchDue} {rest : List LatchDue} {es : List SnapEntry} (hruns : domainsRun s = true)
    (hdue : s.ports.snap.due = d :: rest) (hentries : (boundSlots s).mapM (fun i => snapEntry i d.t s) = some es)
    (hroom : s.ports.snap.held.length < 4) : ∃ u, exec .snapshotCapture s = .next u ∧
      u.ports.snap.held = s.ports.snap.held ++ [(d.inst, es)] ∧ u.ports.snap.due = rest ∧ u.ports.port = s.ports.port := by
  refine ⟨event 0x0406 s.ports.snap.number.toNat []
    (onSnap (fun x => { x with due := rest, held := x.held ++ [(d.inst, es)], number := x.number + 1 }) s), ?_, rfl, rfl, rfl⟩
  change execSnapshotCapture s = _
  rw [execSnapshotCapture, if_neg (by simp [hruns]), hdue]
  dsimp only
  rw [hentries]
  dsimp only
  rw [if_pos hroom]

/-! ## Remote frames -/

theorem brickRecordDeadline_missed {b : Fin 64} {ts : Nat} {s : State} (hruns : tbRuns s = true)
    (hcycle : cycleTs (Fin.ofNat 16 s.bricks.brick[b].group) s = some ts) (hreg : s.bricks.brick[b].registered = true)
    (hused : s.bricks.brick[b].usedTs ≠ some ts) (hmiss : s.bricks.brick[b].missTs ≠ some ts) (htime : ts + arriveIn b s ≤ s.tb0) :
    exec (.brickRecordDeadline b) s = .next (groupToken b s (recordMissed b ts s)) := by
  change execBrickRecordDeadline b s = _
  rw [execBrickRecordDeadline, if_neg (by simp [hruns])]
  dsimp only
  rw [hcycle]
  dsimp only
  rw [if_pos ⟨hreg, hused, hmiss, htime⟩]

/-- The frame a group launches in a cycle (Table 13.2). -/
def draymanFrame (g : Fin 16) (ts : Nat) (counter : BitVec 16) (l : List (Fin 64)) (v : State) : List Byte :=
  be 1 0xD1 ++ be 1 1 ++ be 1 (bit (stoInForce v) + 2 * bit v.tb0Sync) ++ be 1 l.length ++ be 2 g.val ++
    be 2 counter.toNat ++ be 8 ts ++ be 8 (ts + 2 * groupL g v) ++ l.flatMap fun b => outboundRecord b v

/-- The launch of a frame, booked in its group and its bricks (R294). -/
def draymanSent (g : Fin 16) (ts port : Nat) (p : List Byte) (v : State) : State :=
  (sendDrayman g port p v).onBricks fun k => { k with
    brick := updAll k.brick fun b x =>
      if (hopOrder g v).contains b then { x with chan := updAll x.chan fun _ c => { c with repeated := false } } else x
    fg := upd k.fg g fun g => { g with ts := ts, launched := some ts, counter := g.counter + 1 } }

theorem draymanSent_fields (g : Fin 16) (ts port : Nat) (p : List Byte) (v : State) :
    (draymanSent g ts port p v).bricks.fg[g] =
      { v.bricks.fg[g] with ts := ts, launched := some ts, counter := v.bricks.fg[g].counter + 1 } ∧
    (draymanSent g ts port p v).axis = v.axis ∧ (draymanSent g ts port p v).loop = v.loop := by
  have hbricks : (sendDrayman g port p v).bricks = v.bricks := sendDrayman_keeps (Keeps.bricks_same rfl v) rfl
  have haxis : (sendDrayman g port p v).axis = v.axis := sendDrayman_keeps (Keeps.axis_same rfl v) rfl
  have hloop : (sendDrayman g port p v).loop = v.loop := sendDrayman_keeps (Keeps.loop_same rfl v) rfl
  rw [draymanSent, State.onBricks_axis, State.onBricks_loop, haxis, hloop, State.onBricks_bricks, hbricks]
  exact ⟨upd_same .., rfl, rfl⟩

theorem exec_draymanLaunch {g : Fin 16} {ts : Nat} {b : Fin 64} {l : List (Fin 64)} {s : State} (hruns : tbRuns s = true)
    (hcycle : cycleTs g s = some ts) (hhops : hopOrder g s = b :: l) (hconf : s.bricks.fg[g].configured = true)
    (hdue : launchDue g ts s = true) {v : State} (hv : (frameSlots g s).foldl (fun s i => releaseLoop i 0 s) s = v) :
    exec (.draymanLaunch g) s =
      .next (draymanSent g ts v.bricks.brick[b].port (draymanFrame g ts s.bricks.fg[g].counter (b :: l) v) v) := by
  change execDraymanLaunch g s = _
  rw [execDraymanLaunch, if_neg (by simp [hruns])]
  dsimp only
  rw [hcycle, hhops]
  dsimp only
  rw [if_neg (by simp [hconf, hdue, -Fin.getElem_fin]), hv]
  rfl

theorem draymanLaunch_launches {g : Fin 16} {ts : Nat} {b : Fin 64} {l : List (Fin 64)} {s : State} (hruns : tbRuns s = true)
    (hcycle : cycleTs g s = some ts) (hhops : hopOrder g s = b :: l) (hconf : s.bricks.fg[g].configured = true)
    (htime : (ts : Int) + launchAt g.val (groupL g s) s ≤ s.tb0) (hnew : s.bricks.fg[g].launched ≠ some ts) :
    ∃ u v, v = (frameSlots g s).foldl (fun s i => releaseLoop i 0 s) s ∧ exec (.draymanLaunch g) s = .next u ∧
      u.bricks.fg[g] = { v.bricks.fg[g] with ts := ts, launched := some ts, counter := v.bricks.fg[g].counter + 1 } ∧
      u.axis = v.axis ∧ u.loop = v.loop := by
  have hdue : launchDue g ts s = true := by
    simp only [launchDue, Bool.and_eq_true, decide_eq_true_eq, bne_iff_ne]
    exact ⟨htime, hnew⟩
  exact ⟨_, _, rfl, exec_draymanLaunch hruns hcycle hhops hconf hdue rfl, draymanSent_fields ..⟩

theorem stoFrame_sends {s : State} (hruns : tbRuns s = true) (hsto : stoInForce s = true)
    (hlast : ∀ t, s.bricks.stoSent = some t → t + 100000 ≤ s.nowNs) :
    ∃ u, exec .stoFrame s = .next u ∧ u.sys.free = s.sys.free + 1 ∧ u.bricks.stoSent = some s.nowNs ∧ u.bricks.brick = s.bricks.brick := by
  have hdue : stoFrameDue s = true := by
    unfold stoFrameDue
    rw [hsto]
    cases hsent : s.bricks.stoSent with
    | none => rfl
    | some t => exact decide_eq_true (hlast t hsent)
  let p := be 1 0xD1 ++ be 1 1 ++ be 1 (1 + 2 * bit s.tb0Sync) ++ be 1 0 ++ (List.range 20).map fun k => Config.freeByte s.sys.free k
  let ports := (List.range 4).filterMap fun q => ((portFrameGroups q s).head?).map fun f => (f, q)
  let u := ports.foldl (fun s e => sendDrayman e.1 e.2 p s) (fresh s).2
  have hfree : u.sys.free = s.sys.free + 1 := keep_foldl (P := fun t => t.sys.free = s.sys.free + 1)
    (fun _ _ => sendDrayman_keeps (Keeps.free_same rfl (fresh s).2)) rfl
  have hbricks : u.bricks = s.bricks := keep_foldl (P := fun t => t.bricks = s.bricks)
    (fun _ _ => sendDrayman_keeps (Keeps.bricks_same rfl s)) rfl
  refine ⟨u.onBricks fun k => { k with stoSent := some s.nowNs }, ?_, hfree, rfl, (congrArg BricksBlk.brick hbricks :)⟩
  change execStoFrame s = _
  rw [execStoFrame, if_neg (by simp [hruns]), if_neg (by simp [hdue])]

/-! ## Cyclic maps -/

theorem onMap_same (k : Fin 32) (f : CycMap → CycMap) (s : State) : (onMap k f s).net.map[k] = f s.net.map[k] := upd_same ..

theorem onMap_other {k j : Fin 32} (f : CycMap → CycMap) (s : State) (hj : j ≠ k) : (onMap k f s).net.map[j] = s.net.map[j] :=
  upd_other _ _ _ _ hj.symm

/-- Of a change of one map only its value at that map counts. -/
theorem onMap_congr {k : Fin 32} {f g : CycMap → CycMap} {s : State} (h : f s.net.map[k] = g s.net.map[k]) :
    onMap k f s = onMap k g s := by
  simp only [onMap, State.onNet, upd, h]

theorem any_le_eq_false {o : Option Nat} {c : Nat} (h : ∀ a, o = some a → a < c) : (o.any fun a => decide (c ≤ a)) = false := by
  cases o with
  | none => rfl
  | some a => exact decide_eq_false (Nat.not_le.mpr (h a rfl))

theorem cyclicFrameRx_holds {port : Fin 4} {f : NetFrame} {s : State} {m : CycMap} (hruns : tbRuns s = true)
    (hnumber : (f.payload.getD 0 0xFF).toNat < 16)
    (hm : m = s.net.map[(Fin.ofNat 32 (f.payload.getD 0 0xFF).toNat : Fin 32)].prune s.tb0) (hmatch : m.matches port f = true)
    (hodd : (f.payload.getD 1 0).toNat % 2 = 1) (hsize : m.size ≤ f.payload.length) (hheld : m.held = [])
    (hts : beNat (slice 4 8 f.payload) = m.start s.tb0 + m.period) (hperiod : 0 < m.period) :
    exec (.cyclicFrameRx port f) s = .next (onMap (Fin.ofNat 32 (f.payload.getD 0 0xFF).toNat)
      (fun _ => { m with received := bump m.received 1, held := [(m.start s.tb0 + m.period, f.payload)] }) s) := by
  have hne : m.start s.tb0 + m.period ≠ m.start s.tb0 := by omega
  change execCyclicFrameRx port f s = _
  rw [execCyclicFrameRx, if_neg (by simp [hruns])]
  dsimp only
  rw [← hm, if_neg]
  · rw [hts, if_neg fun h => hne h.1, if_neg fun h => h.2 rfl, hheld]
    rfl
  · rintro (hbig | hother | heven | hshort | hrest)
    · omega
    · simp [hmatch] at hother
    · omega
    · omega
    · exact power_ne_rest_of_tbRuns hruns hrest

theorem cyclicApply_applies {k : Fin 16} {j : Fin 32} {s : State} {m : CycMap} {p : List Byte} (hruns : tbRuns s = true)
    (hj : j.val = k.val) (hm : m = s.net.map[j].prune s.tb0) (hon : m.enabled = true)
    (hlast : ∀ a, m.lastApplied = some a → a < m.start s.tb0) (htime : m.start s.tb0 + m.off ≤ s.tb0)
    (hheld : m.held = [(m.start s.tb0, p)]) :
    exec (.cyclicApply k) s = .next (occurs 4 k.val 0 (m.entries.foldl (fun s e => writeEntry p e s)
      (m.axes.foldl (fun s i => onAx i (fun a => { a with cyclicMiss := false }) s)
        (onMap j (fun _ => { m with
          held := [], applied := bump m.applied 1, missRun := 0, lastApplied := some (m.start s.tb0) }) s)))) := by
  obtain rfl : (⟨k.val, Nat.lt_trans k.isLt (by decide)⟩ : Fin 32) = j := Fin.ext hj.symm
  change execCyclicApply k s = _
  rw [execCyclicApply, if_neg (by simp [hruns])]
  dsimp only
  rw [← hm, if_neg]
  · simp [hheld]
  · rintro (hoff | hearly | hdone | hrest)
    · simp [hon] at hoff
    · omega
    · simp [any_le_eq_false hlast] at hdone
    · exact power_ne_rest_of_tbRuns hruns hrest

theorem cyclicSample_samples {k : Fin 16} {s : State} {m : CycMap} (hruns : tbRuns s = true) (hm : m = s.net.map[outMap k])
    (hon : m.enabled = true) (hlast : ∀ a, m.lastApplied = some a → a < m.start s.tb0)
    (hsample : ∀ e, m.sample = some e → e.1 ≠ m.start s.tb0) (htime : m.start s.tb0 + m.off ≤ s.tb0) :
    ∃ u, exec (.cyclicSample k) s = .next u ∧
      u.net.map[outMap k].sample = some (m.start s.tb0, assemble (outMap k) m (m.start s.tb0) s) ∧
      u.net.map[outMap k].counter = m.counter + 1 ∧ ∀ j, j ≠ outMap k → u.net.map[j] = s.net.map[j] := by
  have htaken : (m.sample.any fun e => e.1 == m.start s.tb0) = false := by
    cases hcase : m.sample with
    | none => rfl
    | some e => exact beq_eq_false_iff_ne.mpr (hsample e hcase)
  subst hm
  refine ⟨onMap (outMap k) (fun m => { m with
    sample := some (s.net.map[outMap k].start s.tb0, assemble (outMap k) m (s.net.map[outMap k].start s.tb0) s),
    counter := m.counter + 1, received := bump m.received 1, duplicate := bump m.duplicate (bit m.sample.isSome) }) s, ?_, ?_⟩
  · change execCyclicSample k s = _
    rw [execCyclicSample, if_neg (by simp [hruns])]
    dsimp only
    rw [if_neg]
    rintro (hoff | hearly | hthere | hdone | hrest)
    · simp [hon, -Fin.getElem_fin] at hoff
    · omega
    · simp [htaken, -Fin.getElem_fin] at hthere
    · simp [any_le_eq_false hlast, -Fin.getElem_fin] at hdone
    · exact power_ne_rest_of_tbRuns hruns hrest
  · rw [onMap_same]
    exact ⟨rfl, rfl, fun j hj => onMap_other _ _ hj⟩

theorem cyclicLaunch_sends {k : Fin 16} {s : State} {m : CycMap} {p : List Byte} {ports : List (Fin 4)} (hruns : tbRuns s = true)
    (hm : m = s.net.map[outMap k]) (hon : m.enabled = true) (hlast : ∀ a, m.lastApplied = some a → a < m.start s.tb0)
    (hsample : m.sample = some (m.start s.tb0, p)) (htime : m.start s.tb0 + m.launch ≤ s.tb0) (hsome : ports ≠ [])
    (hports : ports = (List.finRange 4).filter (fun (p : Fin 4) => m.ports.getLsbD p.val && portUp (ext p) s)) :
    exec (.cyclicLaunch k) s = .next (originate ports
      { dst := m.mac, vlan := some (m.pcp, m.vlan), etherType := m.etherType, payload := p, cls := m.pcp }
      (onMap (outMap k) (fun m => { m with
        sample := none, lastApplied := some (m.start s.tb0), applied := bump m.applied 1 }) s)) := by
  subst hm
  change execCyclicLaunch k s = _
  rw [execCyclicLaunch, if_neg (by simp [hruns])]
  dsimp only
  rw [← hports, if_neg]
  · rw [hsample]
    dsimp only
    rw [if_pos ⟨rfl, hsome⟩, onMap_congr]
    rfl
  · rintro (hoff | hearly | hdone | hrest)
    · simp [hon, -Fin.getElem_fin] at hoff
    · omega
    · simp [any_le_eq_false hlast, -Fin.getElem_fin] at hdone
    · exact power_ne_rest_of_tbRuns hruns hrest

theorem cyclicEnableEffect_takes {k : Fin 32} {on : Bool} {t : Nat} {s : State} (hruns : tbRuns s = true)
    (hdue : s.net.map[k].enableDue = some (on, t)) (htime : t ≤ s.tb0) : ∃ u, exec (.cyclicEnableEffect k) s = .next u ∧
    u.net.map[k].enabled = on ∧ u.net.map[k].enableDue = none ∧ u.net.map[k].held = [] ∧ ∀ j, j ≠ k → u.net.map[j] = s.net.map[j] := by
  refine ⟨onMap k (fun m => { m with
    enabled := on, enableDue := none, missRun := 0, lastApplied := none, sample := none, held := [],
    outOfWindow := bump m.outOfWindow m.held.length, duplicate := bump m.duplicate (bit m.sample.isSome) }) s, ?_, ?_⟩
  · change execCyclicEnableEffect k s = _
    rw [execCyclicEnableEffect, if_neg (by simp [hruns]), hdue]
    dsimp only
    rw [if_neg (Nat.not_lt.mpr htime)]
  · rw [onMap_same]
    exact ⟨rfl, rfl, rfl, fun j hj => onMap_other _ _ hj⟩

/-- Settles O37: the events of compares, captures, remote frames and cyclic maps. -/
theorem captureAndCycleEventsComplete : Obligations.CaptureAndCycleEventsComplete := by
  unfold Obligations.CaptureAndCycleEventsComplete
  exact ⟨fun _ _ _ hruns hend htime => comparePulseEnd_ends hruns hend htime,
    fun _ _ _ hruns => latchEvent_noted hruns,
    fun _ _ _ _ _ _ hruns hdue hroom hcapture => latchCapture_captured hruns hdue hroom hcapture,
    fun _ _ _ _ hruns hdue hentries hroom => snapshotCapture_captured hruns hdue hentries hroom,
    fun _ _ _ _ hruns => if_neg (by simp [hruns]),
    fun _ _ _ hruns hcycle hreg hused hmiss htime => brickRecordDeadline_missed hruns hcycle hreg hused hmiss htime,
    fun _ _ _ _ _ hruns hcycle hhops hconf htime hnew => draymanLaunch_launches hruns hcycle hhops hconf htime hnew,
    fun _ hruns hsto hlast => stoFrame_sends hruns hsto hlast,
    fun _ _ _ _ hruns hnumber hm hmatch hodd hsize hheld hts hperiod =>
      cyclicFrameRx_holds hruns hnumber hm hmatch hodd hsize hheld hts hperiod,
    fun _ _ _ _ _ hruns hj hm hon hlast htime hheld => cyclicApply_applies hruns hj hm hon hlast htime hheld,
    fun _ _ _ hruns hm hon hlast hsample htime => cyclicSample_samples hruns hm hon hlast hsample htime,
    fun _ _ _ _ _ hruns hm hon hlast hsample htime hsome hports =>
      cyclicLaunch_sends hruns hm hon hlast hsample htime hsome hports,
    fun _ _ _ _ hruns hdue htime => cyclicEnableEffect_takes hruns hdue htime⟩

end Sys2Proof.Machine


/-! SUPPORT.
The events of the switch. -/

namespace Sys2Proof.Machine

theorem onNetPort_same (q : Fin 5) (f : NetPort → NetPort) (s : State) : (onNetPort q f s).net.port[q] = f s.net.port[q] := upd_same ..

/-- The speed a link comes up at: the forced one, or the highest common one (R306, R307). -/
def linkSpeed (x : NetPort) (gigabit fast : Bool) : Nat :=
  if x.forced then (if fast then 1 else 0)
  else if x.advertise.getLsbD 0 ∧ gigabit then 2 else if x.advertise.getLsbD 1 ∧ fast then 1 else 0

theorem linkUp_links {p : Fin 4} {x g f : Bool} {s : State} (hout : s.sys.dev ≠ .reset) (hon : s.net.port[ext p].state ≠ 2)
    (hdown : s.net.port[ext p].link = false) (hspeed : linkSpeed s.net.port[ext p] g f ≠ 0) :
    ∃ u, exec (.linkUp p g f x true) s = .next u ∧ u.net.port[ext p].link = true ∧
      u.net.port[ext p].speed = linkSpeed s.net.port[ext p] g f ∧
      u.net.port[ext p].preempt = false ∧ u.net.port[ext p].verifyTries = 0 ∧ ∀ q, q ≠ ext p → u.net.port[q] = s.net.port[q] := by
  refine ⟨onNetPort (ext p) (fun y => { y with
    link := true, speed := linkSpeed s.net.port[ext p] g f, mdix := if y.forced ∧ y.mdi ≠ 0 then y.mdi == 2 else x, verifyTries := 0,
    verifyFailed := false, preempt := false, verifyAt := s.now }) s, ?_, ?_⟩
  · change execLinkUp p g f x true s = _
    rw [execLinkUp]
    dsimp only
    rw [if_neg (by simp [hout, hon, hdown, -Fin.getElem_fin]), if_neg (by simp)]
    exact if_neg hspeed
  · rw [onNetPort_same]
    exact ⟨rfl, rfl, rfl, rfl, fun q hq => upd_other _ _ _ _ hq.symm⟩

theorem frameIngress_accepts {p : Fin 4} {f : NetFrame} {s : State} (hout : s.sys.dev ≠ .reset) (href : s.power.refLost = false)
    (hlink : s.net.port[ext p].link = true) (hon : s.net.port[ext p].state ≠ 2) (hrest : s.power.power ≠ .rest)
    (hnap : s.power.power ≠ .nap) (hkept : ingressDrop p f true s = none) : exec (.frameIngress p f true) s =
      .next (acceptFrame p f (onNetPort (ext p) (fun p => ({ p with received := bump p.received 1 }).active s.now) s)) := by
  change execFrameIngress p f true s = _
  rw [execFrameIngress, if_neg (by simp [href])]
  dsimp only
  rw [if_neg (by simp [hout, hlink, hon, -Fin.getElem_fin]), if_neg fun h => hrest h.1, if_neg, hkept]
  rintro (h | h)
  · exact hrest h
  · exact hnap h.1

theorem frameEgress_begins {p : Fin 4} {f : NetFrame} {s : State} (hruns : tbRuns s = true) (hup : portUp (ext p) s = true)
    (hfree : wireFree p s = true) (hselect : selectFrame p s = some f) :
    ∃ v, exec (.frameEgress p) s = .next (v.onNet fun n => { n with
        tcHeld := (corrected p f s).2, sent := n.sent ++ [(p.val, (corrected p f s).1)] }) ∧
      v = onNetPort (ext p) (fun x => (x.begin f (preempts p f.cls s)).active s.now) s := by
  have hdev : s.sys.dev ≠ .reset := by
    simp only [tbRuns, Bool.and_eq_true, bne_iff_ne] at hruns
    exact hruns.1.1
  refine ⟨_, ?_, rfl⟩
  change execFrameEgress p s = _
  rw [execFrameEgress, if_neg (by simp [hruns]), if_neg (by simp [hdev, hup, power_ne_rest_of_tbRuns hruns]), if_pos hfree, hselect]

/-- The device answers for its own address once it serves, whole or as a loader. -/
theorem addressServed {ip : BitVec 32} {s : State} (hruns : tbRuns s = true) (hserves : afterStartup s = true ∨ halted s = true)
    (hip : ip = ipAddress s) : ¬(ip ≠ ipAddress s ∨ (!afterStartup s) = true ∧ (!halted s) = true ∨ s.power.power = .rest) := by
  rintro (hother | ⟨hstartup, hhalted⟩ | hrest)
  · exact hother hip
  · rcases hserves with h | h
    · simp [h] at hstartup
    · simp [h] at hhalted
  · exact power_ne_rest_of_tbRuns hruns hrest

theorem arpRequest_answered {p : Fin 4} {mac : BitVec 48} {ip : BitVec 32} {s : State} (hruns : tbRuns s = true)
    (hserves : afterStartup s = true ∨ halted s = true) : exec (.arpRequest p mac ip (ipAddress s)) s = .next (originate [p]
      { dst := mac, vlan := mgmtTag s, etherType := 0x0806,
        payload := be 2 1 ++ be 2 0x0800 ++ be 1 6 ++ be 1 4 ++ be 2 2 ++ be 6 s.net.mac.toNat ++ be 4 (ipAddress s).toNat ++
          be 6 mac.toNat ++ be 4 ip.toNat } s) := by
  change execArpRequest p mac ip (ipAddress s) s = _
  rw [execArpRequest, if_neg (by simp [hruns]), if_neg (addressServed hruns hserves rfl)]

/-- The ICMP answer (R310). -/
def echoReply (b : List Byte) : List Byte := be 2 0 ++ be 2 (inetChecksum (be 4 0 ++ b)) ++ b

/-- The IPv4 header of an answer with a checksum. -/
def echoHeader (ip : BitVec 32) (b : List Byte) (s : State) (checksum : Nat) : List Byte :=
  be 1 0x45 ++ be 1 0 ++ be 2 (20 + (echoReply b).length) ++ [Config.freeByte s.sys.free 0, Config.freeByte s.sys.free 1] ++ be 2 0 ++
    [Config.freeByte s.sys.free 2] ++ be 1 1 ++ be 2 checksum ++ be 4 (ipAddress s).toNat ++ be 4 ip.toNat

theorem echoHeader_length (ip : BitVec 32) (b : List Byte) (s : State) (checksum : Nat) :
    (echoHeader ip b s checksum).length = 20 := by
  simp [echoHeader, be]

theorem icmpEcho_answered {p : Fin 4} {mac : BitVec 48} {ip : BitVec 32} {b : List Byte} {s : State} (hruns : tbRuns s = true)
    (hserves : afterStartup s = true ∨ halted s = true) : ∃ c, exec (.icmpEcho p mac ip (ipAddress s) b) s =
      .next (originate [p] { dst := mac, vlan := mgmtTag s, etherType := 0x0800, payload := c } (fresh s).2) ∧
      c.drop 20 = be 2 0 ++ be 2 (inetChecksum (be 4 0 ++ b)) ++ b := by
  refine ⟨echoHeader ip b s (inetChecksum (echoHeader ip b s 0)) ++ echoReply b, ?_, ?_⟩
  · change execIcmpEcho p mac ip (ipAddress s) b s = _
    rw [execIcmpEcho, if_neg (by simp [hruns]), if_neg (addressServed hruns hserves rfl)]
    rfl
  · exact List.drop_left' (echoHeader_length ..)

/-- The entry named is gone if it was old enough; no other entry is. -/
theorem fdbAgeOut_removes (mac : BitVec 48) (vid : Nat) (s : State) :
    ∃ u, exec (.fdbAgeOut mac vid) s = .next u ∧ u.net.fdbStatic = s.net.fdbStatic ∧
      (∀ e ∈ u.net.fdbDyn, e.mac = mac → e.vid = vid → s.now - e.seen < s.net.age * 500000000) ∧
      ∀ e ∈ s.net.fdbDyn, (e.mac ≠ mac ∨ e.vid ≠ vid) → e ∈ u.net.fdbDyn := by
  refine ⟨_, rfl, rfl, fun e he hmac hvid => ?_, fun e he hother => List.mem_filter.mpr ⟨he, ?_⟩⟩
  · have hyoung := (List.mem_filter.mp he).2
    rw [hmac, hvid, beq_self_eq_true, beq_self_eq_true, Bool.true_and, Bool.true_and, Bool.not_eq_true'] at hyoung
    exact Nat.not_le.mp (of_decide_eq_false hyoung)
  · rcases hother with h | h
    · rw [beq_eq_false_iff_ne.mpr h]
      rfl
    · rw [beq_eq_false_iff_ne.mpr h, Bool.and_false]
      rfl

theorem gateEntryChange_moves {p : Fin 4} {l : GateList} {s : State} (hruns : tbRuns s = true)
    (hactive : s.net.gates[p].active = some l) : exec (.gateEntryChange p) s =
      .next (s.onNet fun n => { n with gates := upd n.gates p fun g => { g with
        active := some { l with idx := (l.at (s.tbNs (Fin.ofNat 4 l.base))).1 } } }) := by
  change execGateEntryChange p s = _
  rw [execGateEntryChange, if_neg (by simp [hruns])]
  simp only [State.onNet, upd, hactive, Option.map_some]

theorem gateListTakeover_takes {p : Fin 4} {l : GateList} {t : Nat} {s : State} (hruns : tbRuns s = true)
    (hnext : s.net.gates[p].next = some (l, t)) (htime : t ≤ s.tbNs (Fin.ofNat 4 l.base)) (hsome : l.entries ≠ []) :
    exec (.gateListTakeover p) s = .next (s.onNet fun n => { n with gates := upd n.gates p fun g => { g with
      next := none, active := some { l with idx := (l.at (s.tbNs (Fin.ofNat 4 l.base))).1 } } }) := by
  change execGateListTakeover p s = _
  rw [execGateListTakeover, if_neg (by simp [hruns]), hnext]
  dsimp only
  rw [if_neg (Nat.not_lt.mpr htime)]
  simp only [if_neg hsome]

theorem preemptVerify_succeeds {p : Fin 4} {s : State} (hruns : tbRuns s = true) (hlink : s.net.port[ext p].link = true)
    (hasks : s.net.port[ext p].preEnable = true ∨ portFrameGroups p.val s ≠ []) (hnot : s.net.port[ext p].preempt = false)
    (hfailed : s.net.port[ext p].verifyFailed = false) :
    exec (.preemptVerify p true) s = .next (onNetPort (ext p) (fun p => { p with preempt := true }) s) := by
  change execPreemptVerify p true s = _
  rw [execPreemptVerify, if_neg (by simp [hruns])]
  dsimp only
  rw [if_neg, if_pos rfl]
  rintro (h | ⟨h, hnone⟩ | h | h)
  · simp [hlink, -Fin.getElem_fin] at h
  · rcases hasks with hon | hgroups
    · simp [hon, -Fin.getElem_fin] at h
    · exact hgroups (List.isEmpty_iff.mp hnone)
  · simp [hnot, -Fin.getElem_fin] at h
  · simp [hfailed, -Fin.getElem_fin] at h

/-- Settles O38: the events of the switch. -/
theorem switchEventsComplete : Obligations.SwitchEventsComplete := by
  unfold Obligations.SwitchEventsComplete
  exact ⟨fun _ _ _ _ _ _ hout hon hdown hv hspeed => by subst hv; exact linkUp_links hout hon hdown hspeed,
    fun _ _ hlink => congrArg Host.Outcome.next (if_pos hlink),
    fun _ _ _ hout href hlink hon hrest hnap hkept => frameIngress_accepts hout href hlink hon hrest hnap hkept,
    fun _ _ _ hruns hup hfree hselect => frameEgress_begins hruns hup hfree hselect,
    fun _ _ _ _ hruns hserves => arpRequest_answered hruns hserves,
    fun _ _ _ _ _ hruns hserves => icmpEcho_answered hruns hserves,
    fdbAgeOut_removes,
    fun _ _ _ hruns hactive => gateEntryChange_moves hruns hactive,
    fun _ _ _ _ hruns hnext htime hsome => gateListTakeover_takes hruns hnext htime hsome,
    fun _ _ hruns hlink hasks hnot hfailed => preemptVerify_succeeds hruns hlink hasks hnot hfailed⟩

end Sys2Proof.Machine


/-! SUPPORT.
The events of PTP, the time bases and the time outputs. -/

namespace Sys2Proof.Machine

/-! ## What a change of the time bases leaves of the switch -/

/-- The instances of PTP and the ports of the switch. -/
def State.links (s : State) : Vector PtpInst 2 × Vector NetPort 5 := (s.net.ptp, s.net.port)

theorem links_ptp {s t : State} (h : s.links = t.links) : s.net.ptp = t.net.ptp := congrArg Prod.fst h

theorem links_port {s t : State} (h : s.links = t.links) : s.net.port = t.net.port := congrArg Prod.snd h

/-- What leaves the switch alone leaves its instances and ports. -/
theorem links_of_net {s t : State} (h : s.net = t.net) : s.links = t.links := congrArg (fun n : Net => (n.ptp, n.port)) h

@[simp] theorem onTb_links (b : Fin 4) (f : TimeBase → TimeBase) (s : State) : (onTb b f s).links = s.links := rfl

@[simp] theorem event_links (code index : Nat) (detail : List Byte) (s : State) : (event code index detail s).links = s.links := rfl

/-- Both branches of a choice leave the PTP engines and the ports. -/
theorem ite_links {c : Prop} [Decidable c] {a b s : State} (ha : a.links = s.links) (hb : b.links = s.links) :
    (if c then a else b).links = s.links := by
  split
  · exact ha
  · exact hb

/-- A fold of steps that each leave the PTP engines and the ports leaves them. -/
theorem foldl_links {α : Type} {f : State → α → State} (hf : ∀ t x, (f t x).links = t.links) (l : List α) (s : State) :
    (l.foldl f s).links = s.links :=
  keep_foldl (P := fun t => t.links = s.links) (fun t x ht => (hf t x).trans ht) rfl

@[simp] theorem skipOutputs_links (b : Fin 4) (now : Nat) (s : State) : (skipOutputs b now s).links = s.links :=
  foldl_links (fun t k => by dsimp only; split <;> rfl) _ s

@[simp] theorem missCycles_links (k : Fin 32) (n : Nat) (s : State) : (missCycles k n s).links = s.links := by
  let s1 := s.onNet fun x => { x with map := upd x.map k fun m => { m with missed := bump m.missed n, missRun := min (m.missRun + n) m.missLimit } }
  let s2 := s.net.map[k].axes.foldl (fun s i => onAx i (fun a => { a with cyclicMiss := true }) s) s1
  have haxes : s2.links = s.links := foldl_links (f := fun s i => onAx i (fun a => { a with cyclicMiss := true }) s) (fun _ _ => rfl) _ s1
  unfold missCycles
  dsimp only
  split
  · refine (foldl_links (f := fun s g => onFioGroup g FioGroup.failStates s) (fun _ _ => rfl) _ _).trans
      ((links_of_net (t := s2) ?_).trans haxes)
    exact axisFaults_keeps (Keeps.net_same rfl s2) rfl
  · exact haxes

@[simp] theorem cyclicStep_links (old now : Nat) (s : State) : (cyclicStep old now s).links = s.links := by
  refine foldl_links (fun t k => ?_) _ s
  dsimp only
  split
  · split
    · rw [missCycles_links]
      rfl
    · rfl
  · rfl

@[simp] theorem stepEffects_links (c : Fin 4) (old new : Nat) (s : State) : (stepEffects c old new s).links = s.links := by
  have hvm : ∀ (d : Int) (t : State), (vmStep c.val d t).links = t.links := fun d t =>
    links_of_net (vmStep_keeps (Keeps.net_same rfl t) rfl)
  have hlate : ∀ (p : Pending → Bool) (t : State), (lateCommands p t).links = t.links := fun p t =>
    links_of_net (lateCommands_keeps (Keeps.net_same rfl t) rfl)
  have hskip : ∀ (now : Nat) (t : State), (skipTimers now t).links = t.links := fun _ _ => rfl
  have hgates : ∀ (z : Nat) (t : State),
      (t.onNet fun n => { n with gates := updAll n.gates fun _ g => g.reselect c.val z }).links = t.links := fun _ _ => rfl
  unfold stepEffects
  dsimp only
  repeat' split
  all_goals simp only [cyclicStep_links, skipOutputs_links, hskip, hlate, hvm, hgates, event_links, onTb_links]

/-- A change of the bases leaves the instances and the ports as the change itself made them. -/
theorem changeBases_links (f : Net → Net) (s : State) : (changeBases f s).links = (s.onNet f).links := by
  refine (foldl_links (fun t c => ?_) _ _).trans rfl
  dsimp only
  split
  · rfl
  · exact stepEffects_links ..

@[simp] theorem changeBases_id_links (s : State) : (changeBases id s).links = s.links := changeBases_links id s

@[simp] theorem servoFree_links (b : Fin 4) (s : State) : (servoFree b s).links = s.links := rfl

@[simp] theorem servo_links (b : Fin 4) (ticks : Nat) (s : State) : (servo b ticks s).links = s.links := rfl

@[simp] theorem stepBy_links (b : Fin 4) (d : Int) (s : State) : (stepBy b d s).links = s.links := by
  unfold stepBy setBase
  dsimp only
  rw [onTb_links, changeBases_links]
  rfl

@[simp] theorem reassess_links (b : Fin 4) (s : State) : (reassess b s).links = s.links := by
  unfold reassess
  dsimp only
  split
  · rfl
  · split
    · rfl
    · split <;> rfl

@[simp] theorem distrust_links (b : Fin 4) (isP : Bool) (s : State) : (distrust b isP s).links = s.links := by
  unfold distrust
  rw [reassess_links, event_links, onTb_links]

@[simp] theorem acceptShift_links (b : Fin 4) (u : Bool) (s : State) : (acceptShift b u s).links = s.links := by
  unfold acceptShift
  dsimp only
  exact ite_links (by rw [stepBy_links, event_links, onTb_links]) rfl

@[simp] theorem drainCarried_links (b : Fin 4) (ticks : Nat) (s : State) : (drainCarried b ticks s).links = s.links := by
  unfold drainCarried
  split <;> rfl

@[simp] theorem follow_links (b : Fin 4) (e : Int) (ticks : Nat) (s : State) : (follow b e ticks s).links = s.links := by
  unfold follow
  dsimp only
  repeat' split
  all_goals simp only [stepBy_links, onTb_links, servoFree_links, servo_links]

@[simp] theorem decideShift_links (b : Fin 4) (s : State) : (decideShift b s).links = s.links := by
  unfold decideShift
  dsimp only
  repeat' split
  all_goals simp only [onTb_links, distrust_links, acceptShift_links, event_links]

@[simp] theorem settle_links (b : Fin 4) (s : State) : (settle b s).links = s.links := by
  unfold settle
  dsimp only
  rw [onTb_links]
  repeat' split
  all_goals rfl

@[simp] theorem baseSync_links (b : Fin 4) (isP : Bool) (port : Fin 4) (time : Int) (ticks : Nat) (s : State) :
    (baseSync b isP port time ticks s).links = s.links := by
  unfold baseSync
  dsimp only
  rw [settle_links, decideShift_links]
  have hvalidated : ∀ (c : Prop) [Decidable c] f, (if c then onTb b f (reassess b s) else reassess b s).links = s.links :=
    fun c _ f => ite_links ((onTb_links ..).trans (reassess_links ..)) (reassess_links ..)
  exact ite_links (by rw [follow_links, drainCarried_links, onTb_links, hvalidated]) (by rw [onTb_links, hvalidated])

/-! ## PTP -/

theorem syncReceived_takes {i : Fin 2} {p : Fin 4} {gm : BitVec 64} {steps t : Nat} {s : State} (hruns : tbRuns s = true)
    (hlink : s.net.port[ext p].link = true) (hcapable : s.net.port[ext p].asCapable = true)
    (hmask : s.net.ptp[i].ports.getLsbD p.val = true) : ∃ u, exec (.syncReceived i p gm steps t) s = .next u ∧ u.net.ptp[i].gmId = gm ∧
      u.net.ptp[i].steps = steps ∧ u.net.ptp[i].slavePort = some p.val ∧ u.net.ptp[i].lastSync = s.now ∧
      u.net.ptp[i].valid = !(s.net.ptp[i].valid && s.net.ptp[i].gmId != gm) := by
  have hdev : s.sys.dev ≠ .reset := by
    simp only [tbRuns, Bool.and_eq_true, bne_iff_ne] at hruns
    exact hruns.1.1
  let s1 := s.onNet fun n => { n with ptp := upd n.ptp i fun x => { x with
    gmId := gm, steps := steps, slavePort := some p.val, isGm := false, lastSync := s.now, valid := !(s.net.ptp[i].valid && s.net.ptp[i].gmId != gm) } }
  let bases := (List.finRange 4).filter fun (b : Fin 4) =>
    s.net.tb[b].mode == 1 && (s.net.tb[b].prim == i.val || s.net.tb[b].sec == some i.val)
  let u := changeBases id (bases.foldl (fun v b =>
    baseSync b (v.net.tb[b].prim == i.val) p ((t : Int) + s.net.port[ext p].asym) (s.now - s.net.ptp[i].lastSync) v) s1)
  have hptp : u.net.ptp = s1.net.ptp :=
    links_ptp ((changeBases_id_links _).trans (foldl_links (fun _ _ => baseSync_links ..) _ s1))
  have hinst : s1.net.ptp[i] = { s.net.ptp[i] with
      gmId := gm, steps := steps, slavePort := some p.val, isGm := false, lastSync := s.now,
      valid := !(s.net.ptp[i].valid && s.net.ptp[i].gmId != gm) } := upd_same ..
  refine ⟨u, ?_, ?_⟩
  · change execSyncReceived i p gm steps t s = _
    rw [execSyncReceived, if_neg (by simp [hruns])]
    dsimp only
    rw [if_neg (by simp [hdev, power_ne_rest_of_tbRuns hruns, hlink, hcapable, hmask, -Fin.getElem_fin])]
  · rw [hptp, hinst]
    exact ⟨rfl, rfl, rfl, rfl, rfl⟩

/-- The port with the delay just measured taken and filtered (R326). -/
def pdelayTaken (p : Fin 4) (d : Nat) (s : State) : State :=
  let x := s.net.port[ext p]
  onNetPort (ext p) (fun p => { p with
    linkDelay := d
    filtDelay := if x.asCapable then min x.filtDelay d + (freshNat s).1 % (((d : Int) - x.filtDelay).natAbs + 1) else d
    asCapable := decide (d ≤ 12800), pdelayAt := some s.now }) (freshNat s).2

/-- A base that follows over the port and whose delay threshold the measurement passes validates its source (R329). -/
def pdelayJump (p : Fin 4) (d : Nat) (s : State) (t : TimeBase) : Bool :=
  let x := s.net.port[ext p]
  t.mode == 1 && t.st == 2 && x.asCapable && (t.portP == some p.val || t.portS == some p.val) &&
    decide (t.pdThresh * 16 < ((d : Int) - x.filtDelay).natAbs)

section Pdelay

variable {p : Fin 4} {d : Nat} {s : State} (hruns : tbRuns s = true) (hlink : s.net.port[ext p].link = true)
  (htime : ∀ t, s.net.port[ext p].pdelayAt = some t → t + pdelayTicks s ≤ s.now)
include hlink htime

/-- At its interval a port with link measures its delay. -/
theorem pdelayExchange_due : ¬((!s.net.port[ext p].link) = true ∨
    (s.net.port[ext p].pdelayAt.any fun t => decide (s.now < t + pdelayTicks s)) = true) := by
  rintro (hdown | hearly)
  · simp [hlink, -Fin.getElem_fin] at hdown
  · cases hlast : s.net.port[ext p].pdelayAt with
    | none => simp [hlast, -Fin.getElem_fin] at hearly
    | some t =>
      rw [hlast] at hearly
      exact absurd (of_decide_eq_true hearly) (Nat.not_lt.mpr (htime t hlast))

include hruns

theorem pdelayExchange_unanswered : exec (.pdelayExchange p d false) s =
    .next (onNetPort (ext p) (fun p => { p with asCapable := false, pdelayAt := some s.now }) s) := by
  change execPdelayExchange p d false s = _
  rw [execPdelayExchange, if_neg (by simp [hruns])]
  dsimp only
  rw [if_neg (pdelayExchange_due hlink htime)]
  rfl

theorem pdelayExchange_answered : ∃ u, exec (.pdelayExchange p d true) s = .next u ∧
    u.net.port[ext p].linkDelay = d ∧ u.net.port[ext p].asCapable = decide (d ≤ 12800) := by
  let s1 := pdelayTaken p d s
  have hport : s1.net.port[ext p].linkDelay = d ∧ s1.net.port[ext p].asCapable = decide (d ≤ 12800) := by
    rw [show s1 = onNetPort (ext p) _ _ from rfl, onNetPort_same]
    exact ⟨rfl, rfl⟩
  refine ⟨changeBases id (s1.onNet fun n => { n with
    tb := updAll n.tb fun _ t => if pdelayJump p d s t then t.validate s.now else t }), ?_, ?_⟩
  · change execPdelayExchange p d true s = _
    rw [execPdelayExchange, if_neg (by simp [hruns])]
    dsimp only
    rw [if_neg (pdelayExchange_due hlink htime)]
    rfl
  · rw [links_port (changeBases_id_links _)]
    exact hport

end Pdelay

theorem syncReceiptTimeout_invalidates {i : Fin 2} {s : State} (hvalid : s.net.ptp[i].valid = true) (hslave : s.net.ptp[i].isGm = false)
    (htime : 1500000000 ≤ (s.now - s.net.ptp[i].lastSync) * 2 ^ (-s.net.ptp[i].logSync).toNat) :
    exec (.syncReceiptTimeout i) s = .next (changeBases id ((List.finRange 4).foldl (fun s b => decideShift b s)
      (reassessAll (s.onNet fun n => { n with ptp := upd n.ptp i fun x => { x with valid := false } })))) := by
  change execSyncReceiptTimeout i s = _
  rw [execSyncReceiptTimeout]
  dsimp only
  rw [if_neg]
  rintro (h | h | h)
  · simp [hvalid, -Fin.getElem_fin] at h
  · simp [hslave, -Fin.getElem_fin] at h
  · exact absurd h (Nat.not_lt.mpr htime)

section Announce

variable {i : Fin 2} {p : Fin 4} {s : State} (hruns : tbRuns s = true) (hslave : s.net.ptp[i].isGm = false)
  (hport : s.net.ptp[i].slavePort = some p.val)
include hruns hslave hport

/-- The time-out of the port a PTP engine follows concerns it. -/
theorem announceReceiptTimeout_followed : ¬(s.power.power = .rest ∨ s.net.ptp[i].isGm = true ∨
    s.net.ptp[i].slavePort.isSome = true ∧ s.net.ptp[i].slavePort ≠ some p.val) := by
  rintro (hrest | hgm | ⟨-, hother⟩)
  · exact power_ne_rest_of_tbRuns hruns hrest
  · exact absurd (hslave.symm.trans hgm) Bool.false_ne_true
  · exact hother hport

theorem announceReceiptTimeout_other (q : Fin 4) : exec (.announceReceiptTimeout i p (some q)) s =
    .next (s.onNet fun n => { n with ptp := upd n.ptp i fun x => { x with slavePort := some q.val } }) := by
  change execAnnounceReceiptTimeout i p (some q) s = _
  rw [execAnnounceReceiptTimeout, if_neg (by simp [hruns])]
  dsimp only
  rw [if_neg (announceReceiptTimeout_followed hruns hslave hport)]

theorem announceReceiptTimeout_grandmaster (hcapable : s.net.ptp[i].gmCapable = true) :
    exec (.announceReceiptTimeout i p none) s = .next (changeBases id (s.onNet fun n => { n with ptp := upd n.ptp i fun x => { x with
      slavePort := none, isGm := true, gmId := clockIdentity n.mac, steps := 0, valid := true } })) := by
  change execAnnounceReceiptTimeout i p none s = _
  rw [execAnnounceReceiptTimeout, if_neg (by simp [hruns])]
  dsimp only
  rw [if_neg (announceReceiptTimeout_followed hruns hslave hport), if_pos hcapable]

end Announce

/-- What a frame sent by the device leaves of PTP and the bases. -/
theorem originate_ptp (ports : List (Fin 4)) (f : NetFrame) (s : State) :
    (originate ports f s).net.ptp = s.net.ptp ∧ (originate ports f s).net.tb = s.net.tb := by
  unfold originate
  refine keep_foldl (P := fun t => t.net.ptp = s.net.ptp ∧ t.net.tb = s.net.tb) ?_ ⟨rfl, rfl⟩
  intro _ _ ht
  exact ht

/-- A message of the grandmaster: its type, then bytes the spec leaves free (log 6). -/
def gmFrame (s : State) (m n : Nat) : NetFrame :=
  { dst := 0x0180C200000E, etherType := 0x88F7, cls := 7
    payload := be 1 (0x10 + m) ++ (List.range (n - 1)).map fun k => Config.freeByte (s.sys.free + m) k }

theorem gmSyncSend_sends {i : Fin 2} {s : State} (hruns : tbRuns s = true) (hgm : s.net.ptp[i].isGm = true)
    (htime : ∀ t, s.net.ptp[i].sentSync = some t → 500000000 ≤ (s.now - t) * 2 ^ (-s.net.ptp[i].logSync).toNat) :
    ∃ u, exec (.gmSyncSend i) s = .next u ∧ u.sys.free = s.sys.free + 9 ∧ u.net.ptp[i] = { s.net.ptp[i] with sentSync := some s.now } ∧
      u.net.tb = s.net.tb := by
  let ports := (List.finRange 4).filter fun (p : Fin 4) => s.net.ptp[i].ports.getLsbD p.val && s.net.port[ext p].asCapable
  let s1 := originate ports (gmFrame s 8 76) (originate ports (gmFrame s 0 44) s)
  obtain ⟨hptp, htb⟩ := originate_ptp ports (gmFrame s 8 76) (originate ports (gmFrame s 0 44) s)
  obtain ⟨hptp0, htb0⟩ := originate_ptp ports (gmFrame s 0 44) s
  have hfree : s1.sys.free = s.sys.free :=
    originate_keeps (Keeps.free_same rfl s) (originate_keeps (Keeps.free_same rfl s) rfl)
  refine ⟨(s1.onNet fun n => { n with ptp := upd n.ptp i fun x => { x with sentSync := some s.now } }).onSys fun y => { y with
    free := y.free + 9 }, ?_, congrArg (· + 9) hfree, ?_, htb.trans htb0⟩
  · change execGmSyncSend i s = _
    rw [execGmSyncSend, if_neg (by simp [hruns])]
    dsimp only
    rw [if_neg]
    · rfl
    · rintro (hnot | hearly)
      · simp [hgm, -Fin.getElem_fin] at hnot
      · cases hlast : s.net.ptp[i].sentSync with
        | none => simp [hlast, -Fin.getElem_fin] at hearly
        | some t =>
          rw [hlast] at hearly
          exact absurd (of_decide_eq_true hearly) (Nat.not_lt.mpr (htime t hlast))
  · have hinst : s1.net.ptp[i] = s.net.ptp[i] := by rw [hptp, hptp0]
    exact (upd_same ..).trans (by rw [hinst])

/-! ## Time bases and time outputs -/

theorem holdoverExpiry_ends {b : Fin 4} {s : State} (hmode : s.net.tb[b].mode = 1) (hst : s.net.tb[b].st = 3)
    (htime : s.net.tb[b].holdSync * 500000000 ≤ s.now - s.net.tb[b].holdSince) :
    exec (.holdoverExpiry b) s = .next (changeBases id (onTb b (fun t => { t with sync := false }) s)) := by
  change execHoldoverExpiry b s = _
  rw [execHoldoverExpiry, if_pos ⟨hmode, hst, htime⟩]

theorem onTso_same (k : Fin 8) (f : Tso → Tso) (s : State) : (onTso k f s).net.tso[k] = f s.net.tso[k] := upd_same ..

theorem onTso_other {k j : Fin 8} (f : Tso → Tso) (s : State) (hj : j ≠ k) : (onTso k f s).net.tso[j] = s.net.tso[j] :=
  upd_other _ _ _ _ hj.symm

/-- An armed output at its instant fires its leading edge. -/
theorem exec_tsoInstant {k : Fin 8} {s u : State} {t : Tso} (hdue : u.net.tso[k] = t) (hruns : tbRuns s = true)
    (hu : u = onTso k (Tso.due fun b => s.tbNs b) s) (harmed : t.armed = true) (htime : t.inst ≤ s.tbNs (Fin.ofNat 4 t.base))
    (hcount : t.count = 0) (hperiod : t.period ≠ 0) (hinhibit : t.inhibit = false) :
    exec (.tsoInstant k) s = .next (latchEvents 1 k.val ((s.tb0 : Int) + t.inst - s.tbNs (Fin.ofNat 4 t.base)).toNat
      (onTso k (fun t => { t with
        j := t.j + 1, armed := t.more 1 || t.next.isSome, level := !t.activeLow, fired := t.fired + 1, fFired := true,
        pulseEnd := some (t.base, t.inst + t.width) }) u)) := by
  have hdev : s.sys.dev ≠ .reset := by
    simp only [tbRuns, Bool.and_eq_true, bne_iff_ne] at hruns
    exact hruns.1.1
  subst hdue hu
  change execTsoInstant k s = _
  rw [execTsoInstant, if_neg (by simp [hruns]), if_neg (by simp [hdev, power_ne_rest_of_tbRuns hruns])]
  dsimp only
  rw [if_neg, if_neg (by simp [hinhibit, -Fin.getElem_fin])]
  rintro (h | h | h | h)
  · simp [harmed, -Fin.getElem_fin] at h
  · exact absurd h (Nat.not_lt.mpr htime)
  · exact h.1 hcount
  · exact hperiod h.1

theorem tsoInstant_fires {k : Fin 8} {s : State} {t : Tso} (hruns : tbRuns s = true) (ht : t = (s.net.tso[k].due fun b => s.tbNs b))
    (harmed : t.armed = true) (htime : t.inst ≤ s.tbNs (Fin.ofNat 4 t.base)) (hcount : t.count = 0) (hperiod : t.period ≠ 0)
    (hinhibit : t.inhibit = false) :
    ∃ v, exec (.tsoInstant k) s = .next (latchEvents 1 k.val ((s.tb0 : Int) + t.inst - s.tbNs (Fin.ofNat 4 t.base)).toNat v) ∧
      v.net.tso[k].level = !t.activeLow ∧ v.net.tso[k].j = t.j + 1 ∧ v.net.tso[k].fired = t.fired + 1 ∧
      v.net.tso[k].pulseEnd = some (t.base, t.inst + t.width) ∧ ∀ j, j ≠ k → v.net.tso[j] = s.net.tso[j] := by
  have hdue : (onTso k (Tso.due fun b => s.tbNs b) s).net.tso[k] = t := by rw [onTso_same, ht]
  refine ⟨_, exec_tsoInstant hdue hruns rfl harmed htime hcount hperiod hinhibit, ?_⟩
  rw [onTso_same, hdue]
  exact ⟨rfl, rfl, rfl, rfl, fun j hj => (onTso_other _ _ hj).trans (onTso_other _ _ hj)⟩

theorem tsoPulseEnd_ends {k : Fin 8} {e : Nat × Nat} {s : State} (hruns : tbRuns s = true) (hend : s.net.tso[k].pulseEnd = some e)
    (htime : e.2 ≤ s.tbNs (Fin.ofNat 4 e.1)) :
    exec (.tsoPulseEnd k) s = .next (onTso k (fun t => { t with level := t.activeLow, pulseEnd := none }) s) := by
  change execTsoPulseEnd k s = _
  rw [execTsoPulseEnd, if_neg (by simp [hruns])]
  dsimp only
  rw [hend]
  dsimp only
  rw [if_pos htime]

/-- Settles O39: the events of PTP, the time bases and the time outputs. -/
theorem timeEventsComplete : Obligations.TimeEventsComplete := by
  unfold Obligations.TimeEventsComplete
  exact ⟨fun _ _ _ _ _ _ hruns hlink hcapable hmask => syncReceived_takes hruns hlink hcapable hmask,
    fun _ _ _ hruns hlink htime => pdelayExchange_unanswered hruns hlink htime,
    fun _ _ _ hruns hlink htime => pdelayExchange_answered hruns hlink htime,
    fun _ _ hvalid hslave htime => syncReceiptTimeout_invalidates hvalid hslave htime,
    fun _ _ q _ hruns hslave hport => announceReceiptTimeout_other hruns hslave hport q,
    fun _ _ _ hruns hslave hport hcapable => announceReceiptTimeout_grandmaster hruns hslave hport hcapable,
    fun _ _ hruns hgm htime => gmSyncSend_sends hruns hgm htime,
    fun _ _ hmode hst htime => holdoverExpiry_ends hmode hst htime,
    fun _ _ _ hruns ht harmed htime hcount hperiod hinhibit => tsoInstant_fires hruns ht harmed htime hcount hperiod hinhibit,
    fun _ _ _ hruns hend htime => tsoPulseEnd_ends hruns hend htime⟩

end Sys2Proof.Machine


/-! SUPPORT.
The events of the safety island. -/

namespace Sys2Proof.Machine

/-! ## Inputs -/

theorem siLevelAccepted_judges {n : Fin 16} {k : Fin 8} {b : Bool} {s : State} (hpowered : lodgePowered s = true)
    (hpair : k.val = n.val / 2) : exec (.siLevelAccepted n b) s =
      .next (judgePairs (onPair k (fun x => if n.val % 2 = 0 then { x with siA := b } else { x with siB := b }) s)) := by
  obtain rfl : (⟨n.val / 2, Nat.div_lt_of_lt_mul n.isLt⟩ : Fin 8) = k := Fin.ext hpair.symm
  change execSiLevelAccepted n b s = _
  rw [execSiLevelAccepted, if_neg (by simp [hpowered])]

/-- No bit of a mask that names no input is set. -/
theorem getLsbD_zero_mask (i : Nat) : (0 : BitVec 16).getLsbD i = false := BitVec.getLsbD_zero

theorem foldl_same {α β : Type} (l : List β) (a : α) : l.foldl (fun x _ => x) a = a := by
  induction l with
  | nil => rfl
  | cons b l ih => exact ih

section TestPulse

variable {t : Fin 4} {s : State} (hrun : s.lodge.st = .run) (hframe : s.lodge.tpDone[t] < tpFrame t s.lodge.time)
include hrun hframe

/-- A pulse that every input showed only notes its frame. -/
theorem testPulse_sound : exec (.testPulse t 0 0) s =
    .next (s.onLodge fun b => { b with tpDone := upd b.tpDone t fun _ => tpFrame t s.lodge.time }) := by
  change execTestPulse t 0 0 s = _
  rw [execTestPulse]
  dsimp only
  rw [if_neg (by simp [hrun, Nat.not_le.mpr hframe, -Fin.getElem_fin])]
  simp only [getLsbD_zero_mask, Bool.and_false, Bool.or_self, Bool.false_eq_true, if_false, foldl_same]

/-- A pulse missing on input SI0 alone faults pair 0. -/
theorem testPulse_missing (hkind : (s.lodge.cfg 0).kind ≠ 0) (huse : (s.lodge.cfg 0).tpInUse = true)
    (hsource : (s.lodge.cfg 0).tpA = t.val) (hothers : ∀ k : Fin 8, k ≠ 0 → (s.lodge.cfg k).tpInUse = false) :
    exec (.testPulse t 1 0) s =
      .next (pairFault 0 2 (s.onLodge fun b => { b with tpDone := upd b.tpDone t fun _ => tpFrame t s.lodge.time })) := by
  have hrest : ∀ k : Fin 7, (s.lodge.cfg k.succ).tpInUse = false := fun k => hothers k.succ (Fin.succ_ne_zero k)
  change execTestPulse t 1 0 s = _
  rw [execTestPulse]
  dsimp only
  rw [if_neg (by simp [hrun, Nat.not_le.mpr hframe, -Fin.getElem_fin]), List.finRange_succ, List.foldl_cons, List.foldl_map]
  simp only [hrest, huse, hsource, getLsbD_zero_mask, Bool.and_false, Bool.false_and, Bool.or_self, Bool.false_eq_true,
    if_false, foldl_same]
  rw [if_pos]
  simp [hkind]

end TestPulse

theorem discrepancyTimeout_faults {k : Fin 8} {t : Nat} {s : State} (hdiffer : s.lodge.pair[k].differ = some t)
    (hrun : s.lodge.st = .run) (hagree : agreeing (s.lodge.cfg k) = true)
    (htime : t + (s.lodge.cfg k).discrepancy * 1000000 < s.lodge.time) : exec (.discrepancyTimeout k) s = .next (pairFault k 1 s) := by
  change execDiscrepancyTimeout k s = _
  rw [execDiscrepancyTimeout, hdiffer]
  dsimp only
  rw [if_pos ⟨hrun, hagree, htime⟩]

theorem lodgeSnapshot_takes {s : State} (hpresent : s.lodge.st ≠ .absent) (hnew : s.lodge.cycle < lodgeCycle s.lodge.time) :
    ∃ u, exec .lodgeSnapshot s = .next u ∧
      u.lodge.snapAt = some (lodgeCycle s.lodge.time * 250000 - 240000) ∧ u.lodge.cycle = lodgeCycle s.lodge.time ∧
      u.lodge.snapDemand = BitVec.ofNat 8 (bitsOf fun (k : Fin 8) => s.lodge.pair[k].demand) ∧ u.lodge.pair = s.lodge.pair := by
  refine ⟨s.onLodge fun b => { b with
    cycle := lodgeCycle b.time, snapAt := some (lodgeCycle b.time * 250000 - 240000)
    snapDemand := BitVec.ofNat 8 (bitsOf fun (k : Fin 8) => b.pair[k].demand) }, ?_, ?_⟩
  · change execLodgeSnapshot s = _
    rw [execLodgeSnapshot, if_neg (not_or.mpr ⟨hpresent, Nat.not_le.mpr hnew⟩)]
  · rw [State.onLodge_lodge]
    exact ⟨rfl, rfl, rfl, rfl⟩

/-! ## STO, supervision and temperature -/

theorem stoinDemand_asserts {a b : Bool} {s : State} (hpowered : lodgePowered s = true) (hon : stoinOn s = true)
    (hlow : (a && b) = false) : exec (.stoinDemand a b) s =
      .next (assertSto ((stoinLevels a b s).onLodge fun l => { l with stoinDemand := true })) := by
  change execStoinDemand a b s = _
  rw [execStoinDemand, hpowered, hon, hlow]
  rfl

theorem stoinRelease_forgets {s : State} (hpowered : lodgePowered s = true) (hon : stoinOn s = true) :
    exec .stoinRelease s = .next ((stoinLevels true true s).onLodge fun l => { l with stoinDemand := false }) := by
  change execStoinRelease s = _
  rw [execStoinRelease, hpowered, hon]
  rfl

theorem stoinDiscrepancy_faults {t : Nat} {s : State} (hdiffer : s.lodge.stoinDiffer = some t) (hrun : s.lodge.st = .run)
    (hon : stoinOn s = true) (hsound : s.lodge.stoinFault = false) (htime : t + 100000000 < s.lodge.time) :
    exec .stoinDiscrepancy s =
      .next (assertSto (postFault 0 4 none true (s.onLodge fun l => { l with stoinFault := true, stoinLow := false }))) := by
  change execStoinDiscrepancy s = _
  rw [execStoinDiscrepancy, hdiffer]
  dsimp only
  rw [if_pos ⟨hrun, hon, by rw [hsound]; rfl, htime⟩]

theorem heartbeatTimeout_asserts {s : State} (hpowered : lodgePowered s = true) (htime : s.lodge.hbAt + 20000000 ≤ s.lodge.time) :
    exec .heartbeatTimeout s = .next (assertSto (s.onLodge fun b => { b with hbFault := true, hbGone := none })) := by
  change execHeartbeatTimeout s = _
  rw [execHeartbeatTimeout, if_neg (by rw [hpowered, decide_eq_false (Nat.not_lt.mpr htime)]; exact Bool.false_ne_true)]

theorem supervisionRelease_reference {s : State} (hfault : s.lodge.refFault = true)
    (hgone : releasable s.lodge.refGone s.lodge.time = true) : exec (.supervisionRelease true) s =
      .next (refreshMirrors (decideSto (s.onLodge fun b => { b with refFault := false, refGone := none }))) := by
  change execSupervisionRelease true s = _
  rw [execSupervisionRelease, hfault, hgone]
  rfl

theorem supervisionRelease_heartbeat {s : State} (hfault : s.lodge.hbFault = true)
    (hgone : releasable s.lodge.hbGone s.lodge.time = true) : exec (.supervisionRelease false) s =
      .next (refreshMirrors (decideSto (s.onLodge fun b => { b with hbFault := false, hbGone := none }))) := by
  change execSupervisionRelease false s = _
  rw [execSupervisionRelease, hfault, hgone]
  exact if_neg (by simp [State.onLodge])

theorem lodgeOvertemp_cool {t : Int} {s : State} (hpowered : lodgePowered s = true) (hcool : t < 150) :
    ∃ u, exec (.lodgeOvertemp t) s = .next u ∧ u.lodge.temp = t ∧ u.lodge.overtemp = (s.lodge.overtemp && decide (130 ≤ t)) ∧
      u.lodge.out = s.lodge.out := by
  have hnot : ¬150 ≤ t := Int.not_le.mpr hcool
  refine ⟨s.onLodge fun b => { b with temp := t, overtemp := if 150 ≤ t then true else b.overtemp && decide (130 ≤ t) },
    ?_, rfl, if_neg hnot, rfl⟩
  change execLodgeOvertemp t s = _
  rw [execLodgeOvertemp, if_neg (by simp [hpowered])]
  dsimp only
  rw [if_neg hnot]

theorem lodgeOvertemp_hot {t : Int} {s : State} (hpowered : lodgePowered s = true) (hhot : 150 ≤ t) :
    ∃ v, exec (.lodgeOvertemp t) s = .next (assertSto v) ∧ v.lodge.temp = t ∧ v.lodge.overtemp = true ∧
      ∀ k : Fin 4, v.lodge.out[k] = s.lodge.out[k].open s.lodge.time := by
  refine ⟨(s.onLodge fun b => { b with
      temp := t, overtemp := if 150 ≤ t then true else b.overtemp && decide (130 ≤ t) }).onLodge fun b => { b with
    out := updAll b.out fun _ x => x.open b.time }, ?_, rfl, if_pos hhot, fun k => updAll_get ..⟩
  change execLodgeOvertemp t s = _
  rw [execLodgeOvertemp, if_neg (by simp [hpowered])]
  dsimp only
  rw [if_pos hhot]

/-! ## States -/

theorem lodgeSelfTestEnd_run {p : LodgeParams} {s : State} (hst : s.lodge.st = .start) (hset : s.lodge.params = some p) :
    exec (.lodgeSelfTestEnd true) s = .next (enterRun p s) := by
  change execLodgeSelfTestEnd true s = _
  rw [execLodgeSelfTestEnd, if_neg (not_not_intro hst), if_neg (by simp), hset]

theorem lodgeSelfTestEnd_config {s : State} (hst : s.lodge.st = .start) (hset : s.lodge.params = none) :
    exec (.lodgeSelfTestEnd true) s = .next (leaveRun .config s) := by
  change execLodgeSelfTestEnd true s = _
  rw [execLodgeSelfTestEnd, if_neg (not_not_intro hst), if_neg (by simp), hset]

theorem lodgeSwitchingEnd_run {p : LodgeParams} {s : State} (hst : s.lodge.st = .switching) (hset : s.lodge.switching = some p) :
    exec .lodgeSwitchingEnd s =
      .next (finish (fun e => e.opcode == 0x0902) .done [(0x0100, be 1 LodgeState.run.code)] (enterRun p s)) := by
  change execLodgeSwitchingEnd s = _
  rw [execLodgeSwitchingEnd, hst, hset]

/-- Settles O40: the inputs, supervision and states of the safety island. -/
theorem lodgeInputEventsComplete : Obligations.LodgeInputEventsComplete := by
  unfold Obligations.LodgeInputEventsComplete
  exact ⟨fun _ _ _ _ hpowered hpair => siLevelAccepted_judges hpowered hpair,
    fun _ _ hrun hframe => testPulse_sound hrun hframe,
    fun _ _ hrun hframe hkind huse hsource hothers => testPulse_missing hrun hframe hkind huse hsource hothers,
    fun _ _ _ hdiffer hrun hagree htime => discrepancyTimeout_faults hdiffer hrun hagree htime,
    fun _ hpresent hnew => lodgeSnapshot_takes hpresent hnew,
    fun _ _ _ hpowered hon hlow => stoinDemand_asserts hpowered hon hlow,
    fun _ hpowered hon => stoinRelease_forgets hpowered hon,
    fun _ _ hdiffer hrun hon hsound htime => stoinDiscrepancy_faults hdiffer hrun hon hsound htime,
    fun _ hpowered => if_neg (by simp [hpowered]),
    fun _ hpowered htime => heartbeatTimeout_asserts hpowered htime,
    fun _ hfault hgone => supervisionRelease_reference hfault hgone,
    fun _ hfault hgone => supervisionRelease_heartbeat hfault hgone,
    fun _ _ hpowered hcool => lodgeOvertemp_cool hpowered hcool,
    fun _ _ hpowered hhot => lodgeOvertemp_hot hpowered hhot,
    fun _ _ hst hset => lodgeSelfTestEnd_run hst hset,
    fun _ hst hset => lodgeSelfTestEnd_config hst hset,
    fun _ _ hst hset => lodgeSwitchingEnd_run hst hset⟩

/-! ## Command instants, SS1 and safe outputs -/

theorem lodgeCommandInstant_decides {t : Nat} {s : State} (hsnap : s.lodge.snapAt = some t) (hpresent : s.lodge.st ≠ .absent)
    (hsafe : s.lodge.st ≠ .safeFault) (htime : t + 230000 ≤ s.lodge.time) : exec (.lodgeCommandInstant false none) s =
      .next (refreshMirrors (decideSto (decideOuts (s.onLodge fun b => { b with snapAt := none, disagreed := false })))) := by
  change execLodgeCommandInstant false none s = _
  rw [execLodgeCommandInstant, hsnap]
  dsimp only
  rw [if_neg (not_or.mpr ⟨hpresent, Nat.not_lt.mpr htime⟩), if_neg hsafe, if_neg fun h => Bool.false_ne_true h.1]

theorem ss1QuickStop_stops {s : State} (hrequest : s.lodge.ss1Request = true) :
    ∃ v, exec .ss1QuickStop s = .next ((List.finRange 16).foldl (fun s (g : Fin 16) =>
        if s.plan.grp[g].running && s.plan.grp[g].activity != 4 then requestGroupStop g 1 s else s) v) ∧
      v = (List.finRange 64).foldl (fun s i => if stoppable i s then requestStop i 1 s else s)
        (s.onLodge fun b => { b with ss1Request := false }) := by
  refine ⟨_, ?_, rfl⟩
  change execSs1QuickStop s = _
  rw [execSs1QuickStop, if_neg (by simp [hrequest])]

theorem ss1DelayExpiry_output {n : Fin 4} {t : Nat} {s : State} (hdelay : s.lodge.out[n].delay = some t) (htime : t ≤ s.lodge.time) :
    exec (.ss1DelayExpiry (some n)) s = .next (onSafeOut n (fun x => x.open s.lodge.time) s) := by
  change execSs1DelayExpiry (some n) s = _
  rw [execSs1DelayExpiry]
  dsimp only
  rw [hdelay]
  dsimp only
  rw [if_pos (decide_eq_true htime)]

theorem ss1DelayExpiry_sto {t : Nat} {s : State} (hend : s.lodge.ss1End = some t) (htime : t ≤ s.lodge.time) :
    exec (.ss1DelayExpiry none) s = .next (assertSto (s.onLodge fun b => { b with ss1End := none, ss1Done := true })) := by
  change execSs1DelayExpiry none s = _
  rw [execSs1DelayExpiry]
  dsimp only
  rw [hend]
  dsimp only
  rw [if_pos (decide_eq_true htime)]

/-- The options of an output are those of the set in force. -/
theorem outputOptions_eq {p : LodgeParams} {s : State} (n : Fin 4) (hset : s.lodge.params = some p) :
    (s.lodge.params.map fun p => p.out[n]).getD {} = p.out[n] := by
  rw [hset]
  rfl

section SafeOutput

variable {n : Fin 4} {s : State} (hrun : s.lodge.st = .run) (hon : s.lodge.out[n].on = true)
include hon hrun

theorem safeOutputOverload_faults (htime : s.lodge.out[n].onAt + 100000 ≤ s.lodge.time) :
    exec (.safeOutputOverload n) s = .next (outFault n 4 false s) := by
  change execSafeOutputOverload n s = _
  rw [execSafeOutputOverload, if_pos ⟨hrun, hon, htime⟩]

variable {p : LodgeParams} (hset : s.lodge.params = some p)
include hset

theorem safeOutputTest_alternates (hpulse : p.out[n].noPulse = false)
    (htime : s.lodge.out[n].testAt + p.out[n].testMs10 * 10000000 ≤ s.lodge.time) : exec (.safeOutputTest n false false none) s =
      .next (onSafeOut n (fun y => { y with pulseM := !y.pulseM, testAt := s.lodge.time }) s) := by
  change execSafeOutputTest n false false none s = _
  rw [execSafeOutputTest, if_neg (not_not_intro hrun), outputOptions_eq n hset]
  dsimp only
  rw [hon, hpulse, decide_eq_false (Nat.not_lt.mpr htime)]
  rfl

theorem safeOutputOpenLoad_faults (hoption : p.out[n].openLoad = true)
    (htime : s.lodge.out[n].onAt + 100000000 ≤ s.lodge.time) : exec (.safeOutputOpenLoad n) s = .next (outFault n 5 false s) := by
  change execSafeOutputOpenLoad n s = _
  rw [execSafeOutputOpenLoad, outputOptions_eq n hset, if_pos ⟨hrun, hon, hoption, htime⟩]

theorem testOverdue_faults (hpulse : p.out[n].noPulse = true) (htime : s.lodge.out[n].offAt + 86400000000000 ≤ s.lodge.time) :
    exec (.testOverdue n) s = .next (outFault n 6 false s) := by
  change execTestOverdue n s = _
  rw [execTestOverdue, outputOptions_eq n hset, hrun, hon, hpulse, decide_eq_true htime]
  rfl

end SafeOutput

/-- Settles O41: the command instants, SS1 and the safe outputs of the safety island. -/
theorem lodgeOutputEventsComplete : Obligations.LodgeOutputEventsComplete := by
  unfold Obligations.LodgeOutputEventsComplete
  exact ⟨fun _ _ hsnap hpresent hsafe htime => lodgeCommandInstant_decides hsnap hpresent hsafe htime,
    fun _ hrequest => ss1QuickStop_stops hrequest,
    fun _ _ _ hdelay htime => ss1DelayExpiry_output hdelay htime,
    fun _ _ hend htime => ss1DelayExpiry_sto hend htime,
    fun _ _ _ hrun hon hset hpulse htime => safeOutputTest_alternates hrun hon hset hpulse htime,
    fun _ _ hrun hon htime => safeOutputOverload_faults hrun hon htime,
    fun _ _ _ hrun hon hset hoption htime => safeOutputOpenLoad_faults hrun hon hset hoption htime,
    fun _ _ _ hrun hon hset hpulse htime => testOverdue_faults hrun hon hset hpulse htime⟩

end Sys2Proof.Machine


/-! SUPPORT.
The events of Field I/O. -/

namespace Sys2Proof.Machine

/-! ## Inputs -/

theorem diEdgeAccepted_takes {n : Fin 32} {b : Bool} {s : State} (hpowered : s.fio.grp[(inputPlace n).1].powered = true)
    (hwire : (inputOf n s).opened = false) (hnew : (inputOf n s).level ≠ b)
    (hfilter : ∀ t, (inputOf n s).acceptAt = some t → localDue t (50 * (inputOf n s).filter) s = true) (hnap : s.power.power ≠ .nap)
    (hrest : s.power.power ≠ .rest) (href : s.power.refLost = false) : exec (.diEdgeAccepted n b) s =
      .next (onInput n (fun y => { y with
        level := b, edgeAt := fieldTime s - (filterAgo (inputOf n s).filter s).1, acceptAt := some s.power.aonUs })
        (filterAgo (inputOf n s).filter s).2) := by
  have hpassed : ((inputOf n s).acceptAt.any fun t => !localDue t (50 * (inputOf n s).filter) s) = false := by
    cases hlast : (inputOf n s).acceptAt with
    | none => rfl
    | some t => simp [hfilter t hlast]
  change execDiEdgeAccepted n b s = _
  rw [execDiEdgeAccepted]
  dsimp only
  rw [if_neg (by simp [hpowered, hwire, hnew, hpassed, -Fin.getElem_fin]), if_neg (by simp [href]), if_neg (by simp [hnap, hrest])]

theorem openWire_opens {n : Fin 32} {s : State} (hpowered : s.fio.grp[(inputPlace n).1].powered = true)
    (htype : (inputOf n s).type3 = true) (hcheck : (inputOf n s).openWire = true) (hwire : (inputOf n s).opened = false) :
    exec (.openWire n) s = .next (fioEvent 0x0A01 (inputPlace n).1 (inputPlace n).2.val
      (onInput n (fun y => { y with opened := true, fOpen := true, level := false, openedAt := s.power.aonUs }) s)) := by
  change execOpenWire n s = _
  rw [execOpenWire, if_neg (by simp [hpowered, htype, hcheck, hwire, -Fin.getElem_fin])]

theorem openWireClear_ends {n : Fin 32} {s : State} (hdue : localDue (inputOf n s).openedAt 100000 s = true) :
    exec (.openWireClear n) s = .next (onInput n (fun y => { y with opened := false }) s) :=
  congrArg Host.Outcome.next (if_pos hdue)

/-! ## Outputs -/

theorem overload_latches {n : Fin 16} {s : State} (hon : (outputOf n s).state = true) (hheld : heldFor 500 (outputOf n s) s = true) :
    exec (.overload n) s = .next (fioEvent 0x0A02 (outputPlace n).1 (outputPlace n).2.val
      (onOutput n (fun o => { o with latched := true, overload := true, fOverload := true, tryAt := s.power.aonUs }) s)) := by
  change execOverload n s = _
  rw [execOverload, if_neg (by simp [hon, hheld])]

theorem fioOvertemp_latches {n : Fin 16} {s : State} (hpowered : s.fio.grp[(outputPlace n).1].powered = true)
    (hcool : (outputOf n s).hot = false) : exec (.fioOvertemp n) s =
      .next (fioEvent 0x0A03 (outputPlace n).1 (outputPlace n).2.val
        (onOutput n (fun o => { o with hot := true, latched := true, overtemp := true, fOvertemp := true, tryAt := s.power.aonUs }) s)) := by
  change execFioOvertemp n s = _
  rw [execFioOvertemp, if_neg (by simp [hpowered, hcool, -Fin.getElem_fin])]

theorem openLoad_notes {n : Fin 16} {s : State} (hon : (outputOf n s).state = true) (hcheck : (outputOf n s).openCheck = true)
    (hnew : (outputOf n s).openLoad = false) (hheld : heldFor 100000 (outputOf n s) s = true) : exec (.openLoad n) s =
      .next (fioEvent 0x0A04 (outputPlace n).1 (outputPlace n).2.val
        (onOutput n (fun o => { o with openLoad := true, fOpenLoad := true, openLoadAt := s.power.aonUs }) s)) := by
  change execOpenLoad n s = _
  rw [execOpenLoad, if_neg (by simp [hon, hcheck, hnew, hheld])]

theorem openLoadClear_ends {n : Fin 16} {s : State} (hdue : localDue (outputOf n s).openLoadAt 100000 s = true) :
    exec (.openLoadClear n) s = .next (onOutput n (fun o => { o with openLoad := false }) s) :=
  congrArg Host.Outcome.next (if_pos hdue)

theorem backfeed_notes {n : Fin 16} {s : State} (hpowered : s.fio.grp[(outputPlace n).1].powered = true)
    (hoff : (outputOf n s).state = false) (hnew : (outputOf n s).backfeed = false) (hheld : heldFor 1000 (outputOf n s) s = true) :
    exec (.backfeed n) s = .next (fioEvent 0x0A05 (outputPlace n).1 (outputPlace n).2.val
      (onOutput n (fun o => { o with backfeed := true, fBackfeed := true, backfeedAt := s.power.aonUs }) s)) := by
  change execBackfeed n s = _
  rw [execBackfeed, if_neg (by simp [hpowered, hoff, hnew, hheld, -Fin.getElem_fin])]

theorem backfeedClear_ends {n : Fin 16} {s : State} (hdue : localDue (outputOf n s).backfeedAt 1000 s = true) :
    exec (.backfeedClear n) s = .next (onOutput n (fun o => { o with backfeed := false }) s) :=
  congrArg Host.Outcome.next (if_pos hdue)

theorem outputRetry_unlatches {n : Fin 16} {s : State} (hretry : (outputOf n s).retry = true) (hlatched : (outputOf n s).latched = true)
    (hcmd : (outputOf n s).cmd = true) (hcool : (outputOf n s).hot = false) (hdue : localDue (outputOf n s).tryAt 100000 s = true) :
    exec (.outputRetry n true) s = .next (onOutput n (fun o => { o with
      latched := false, overload := false, overtemp := false, tryAt := s.power.aonUs }) s) := by
  change execOutputRetry n true s = _
  rw [execOutputRetry, if_neg (by simp [hretry, hlatched, hcmd, hcool, hdue]), if_pos rfl]

/-! ## Groups: their link and their supply -/

theorem fioLinkRefresh_refreshes {g : Fin 4} {s : State} (hout : s.sys.dev ≠ .reset) (href : s.power.refLost = false)
    (hpowered : s.fio.grp[g].powered = true) (htime : ∀ t, s.fio.grp[g].refreshAt = some t → t + 1000 ≤ s.power.aonUs) :
    exec (.fioLinkRefresh g) s = .next (setCause 0x0023 g.val false (onFioGroup g (FioGroup.refreshed s.power.aonUs) s)) := by
  have hpassed : (s.fio.grp[g].refreshAt.any fun t => decide (s.power.aonUs < t + 1000)) = false := by
    cases hlast : s.fio.grp[g].refreshAt with
    | none => rfl
    | some t => exact decide_eq_false (Nat.not_lt.mpr (htime t hlast))
  change execFioLinkRefresh g s = _
  rw [execFioLinkRefresh, hpassed, if_neg (by simp [hout, href, hpowered, -Fin.getElem_fin])]

theorem fioRefreshTimeout_fails {g : Fin 4} {s : State} (hpowered : s.fio.grp[g].powered = true)
    (hlink : s.fio.grp[g].linkFailed = false) (hdue : localDue s.fio.grp[g].watchAt 10000 s = true) :
    exec (.fioRefreshTimeout g) s = .next (onFioGroup g (fun g => { g.failStates with linkFailed := true }) s) := by
  change execFioRefreshTimeout g s = _
  rw [execFioRefreshTimeout, if_neg (by simp [hpowered, hlink, hdue, -Fin.getElem_fin])]

theorem fieldGroupLost_records {g : Fin 4} {s : State} (hpowered : s.fio.grp[g].powered = true) (hout : s.sys.dev ≠ .reset)
    (htime : s.fio.grp[g].watchAt + 10000 ≤ s.power.aonUs) : exec (.fieldGroupLost g) s =
      .next (setCause 0x0023 g.val true (recordFault 0x0023 4 g.val 0 true s)) := by
  change execFieldGroupLost g s = _
  rw [execFieldGroupLost, if_neg (by simp [hpowered, hout, Nat.not_lt.mpr htime, -Fin.getElem_fin])]

theorem supplySag_sags {g : Fin 4} {v : Nat} {s u : State} (hpowered : s.fio.grp[g].powered = true) (hlow : v < 1800)
    (hu : u = onFioGroup g (fun g => { g with vf := v, restoring := false, sag := true, fSag := true }) s) :
    exec (.supplySag g v) s = .next (if s.fio.grp[g].sag = true then u else event 0x0A06 g.val [] u) := by
  subst hu
  change execSupplySag g v s = _
  rw [execSupplySag]
  dsimp only
  rw [if_neg (by simp [hpowered, Nat.not_le.mpr hlow, -Fin.getElem_fin])]

theorem supplyLost_loses {g : Fin 4} {v : Nat} {s u : State} (hpowered : s.fio.grp[g].powered = true) (hlow : v < 1500)
    (hu : u = onFioGroup g (fun g => ({ g with vf := v, restoring := false, lost := true, fLost := true }).settle) s) :
    exec (.supplyLost g v) s = .next (if s.fio.grp[g].lost = true then u else event 0x0A07 g.val [] u) := by
  subst hu
  change execSupplyLost g v s = _
  rw [execSupplyLost]
  dsimp only
  rw [if_neg (by simp [hpowered, Nat.not_le.mpr hlow, -Fin.getElem_fin])]

/-- A die without power keeps what its supply was and the faults of its parts. -/
theorem dieUnpowered_bare {g : Fin 4} {v : Nat} {s : State} (hlow : v < 1200) : ∃ u, exec (.dieUnpowered g v) s = .next u ∧
    u.fio.grp[g].powered = false ∧ u.fio.grp[g].vf = v ∧ u.fio.grp[g].lost = s.fio.grp[g].lost ∧
    ∀ k, k ≠ g → u.fio.grp[k] = s.fio.grp[k] := by
  let bare : FioGroup → FioGroup := fun g => {
    lost := g.lost, vf := v, refreshAt := g.refreshAt, input := updAll g.input (fun _ x => x.bare), output := updAll g.output (fun _ o => o.bare) }
  have hgroup : (onFioGroup g bare s).fio.grp[g] = bare s.fio.grp[g] := upd_same ..
  refine ⟨onFioGroup g bare s, if_neg (Nat.not_le.mpr hlow), ?_⟩
  rw [hgroup]
  exact ⟨rfl, rfl, rfl, fun k hk => upd_other _ _ _ _ hk.symm⟩

theorem diePowerReturn_loads {g : Fin 4} {v : Nat} {s : State} (hhigh : 1200 ≤ v) (hdead : s.fio.grp[g].powered = false)
    (hout : s.sys.dev ≠ .reset) : exec (.diePowerReturn g v) s =
      .next (loadFio g (onFioGroup g (fun g => { g with powered := true, vf := v, watchAt := s.power.aonUs }) s)) := by
  change execDiePowerReturn g v s = _
  rw [execDiePowerReturn, if_neg (by simp [hdead, Nat.not_lt.mpr hhigh, -Fin.getElem_fin])]
  dsimp only
  rw [if_neg hout]

theorem fioAutoReenable_ends {g : Fin 4} {s : State} (hlost : s.fio.grp[g].lost = true) (hauto : s.fio.grp[g].auto = true)
    (hrestoring : s.fio.grp[g].restoring = true) (hhigh : 1800 ≤ s.fio.grp[g].vf)
    (hdue : localDue s.fio.grp[g].restoreAt (1000 * s.fio.grp[g].restoreMs) s = true) : exec (.fioAutoReenable g) s =
      .next (onFioGroup g (fun g => ({ g with lost := false, restoring := false }).settle) s) := by
  change execFioAutoReenable g s = _
  rw [execFioAutoReenable, if_pos ⟨hlost, hauto, hrestoring, hhigh, hdue⟩]

theorem fieldSupplyReturn_restores {g : Fin 4} {v : Nat} {s : State} (hhigh : 1800 ≤ v) (hpowered : s.fio.grp[g].powered = true) :
    exec (.fieldSupplyReturn g v) s = .next (onFioGroup g (fun g => { g with
      vf := v, restoring := true, restoreAt := if g.restoring then g.restoreAt else s.power.aonUs, sag := g.sag && decide (v < 1850) }) s) := by
  change execFieldSupplyReturn g v s = _
  rw [execFieldSupplyReturn, if_neg (by simp [hpowered, Nat.not_lt.mpr hhigh, -Fin.getElem_fin])]

/-- Settles O42: the events of Field I/O. -/
theorem fieldIoEventsComplete : Obligations.FieldIoEventsComplete := by
  unfold Obligations.FieldIoEventsComplete
  exact ⟨fun _ _ _ hpowered hwire hnew hfilter hnap hrest href => diEdgeAccepted_takes hpowered hwire hnew hfilter hnap hrest href,
    fun _ _ hpowered htype hcheck hwire => openWire_opens hpowered htype hcheck hwire,
    fun _ _ hdue => openWireClear_ends hdue,
    fun _ _ hon hheld => overload_latches hon hheld,
    fun _ _ hpowered hcool => fioOvertemp_latches hpowered hcool,
    fun _ _ => rfl,
    fun _ _ hon hcheck hnew hheld => openLoad_notes hon hcheck hnew hheld,
    fun _ _ hdue => openLoadClear_ends hdue,
    fun _ _ hpowered hoff hnew hheld => backfeed_notes hpowered hoff hnew hheld,
    fun _ _ hdue => backfeedClear_ends hdue,
    fun _ _ hretry hlatched hcmd hcool hdue => outputRetry_unlatches hretry hlatched hcmd hcool hdue,
    fun _ _ hout href hpowered htime => fioLinkRefresh_refreshes hout href hpowered htime,
    fun _ _ hpowered hlink hdue => fioRefreshTimeout_fails hpowered hlink hdue,
    fun _ _ hpowered hout htime => fieldGroupLost_records hpowered hout htime,
    fun _ _ _ _ hpowered hlow hu => supplySag_sags hpowered hlow hu,
    fun _ _ _ _ hpowered hlow hu => supplyLost_loses hpowered hlow hu,
    fun _ _ _ hlow => dieUnpowered_bare hlow,
    fun _ _ _ hhigh hdead hout => diePowerReturn_loads hhigh hdead hout,
    fun _ _ hlost hauto hrestoring hhigh hdue => fioAutoReenable_ends hlost hauto hrestoring hhigh hdue,
    fun _ _ _ hhigh hpowered => fieldSupplyReturn_restores hhigh hpowered⟩

end Sys2Proof.Machine


/-! SUPPORT.
The events of the CAN controllers. -/

namespace Sys2Proof.Machine

/-! ## The bus -/

theorem canFrameReceived_listening {c : Fin 4} {f : CanFrame} {e : Bool} {s : State} (hruns : canRuns s = true)
    (hmode : s.can.ctl[c].cfg.mode = 2) (hbus : s.can.ctl[c].bus ≠ 2) (hjoined : s.can.ctl[c].joinAt = none) :
    exec (.canFrameReceived c f e 0) s = .next (detectGood c (slaveCycle c s.nowNs f
      (fileFrame c s.nowNs f e (onCtl c (fun x => { x with rxOk := bump x.rxOk 1 }) s)))) := by
  change execCanFrameReceived c f e 0 s = _
  rw [execCanFrameReceived]
  dsimp only
  rw [if_neg (by simp [hruns, hmode, hbus, hjoined, -Fin.getElem_fin]), if_pos (by simp [hmode, -Fin.getElem_fin])]
  rfl

theorem canTxComplete_sent {c : Fin 4} {d : BitVec 8} {f : CanFrame} {s : State} (hruns : canRuns s = true)
    (hsending : s.can.ctl[c].sending = some (0, f)) : ∃ v, exec (.canTxComplete c d) s = .next (busFree c (busState c v)) ∧
      v.can.ctl[c].queue = dropFirst (fun t => t.frame == f) s.can.ctl[c].queue ∧ v.can.ctl[c].sent = bump s.can.ctl[c].sent 1 ∧
      v.can.ctl[c].tec = s.can.ctl[c].tec - 1 := by
  refine ⟨onCtl c (fun x => { x with queue := dropFirst (fun t => t.frame == f) x.queue, sent := bump x.sent 1 })
    (onCtl c (fun x => { x with tec := x.tec - 1, tdc := if f.brs then d.toNat else x.tdc }) s), ?_, ?_⟩
  · change execCanTxComplete c d s = _
    rw [execCanTxComplete, if_pos hruns, hsending]
    dsimp only
    rw [if_pos rfl]
  · rw [onCtl_same, onCtl_same]
    exact ⟨rfl, rfl, rfl⟩

theorem arbitrationLost_retries {c : Fin 4} {f : CanFrame} {s : State} (hruns : canRuns s = true)
    (hsending : s.can.ctl[c].sending = some (0, f)) : exec (.arbitrationLost c) s = .next (busFree c (retryEvent c f s)) := by
  change execArbitrationLost c s = _
  rw [execArbitrationLost, if_pos hruns, sendFailed, hsending]
  dsimp only
  rw [if_pos rfl]

theorem canBusError_received {c : Fin 4} {k v : Bool} {s : State} (hruns : canRuns s = true) (hmode : s.can.ctl[c].cfg.mode = 1)
    (hbus : s.can.ctl[c].bus ≠ 2) (hidle : s.can.ctl[c].sending = none) : exec (.canBusError c k v none) s =
      .next (busState c (onCtl c (fun x => { x with rxErr := min 255 (x.rxErr + (if v then 8 else 1)) }) s)) := by
  change execCanBusError c k v none s = _
  rw [execCanBusError]
  dsimp only
  rw [if_neg (by simp [hruns, hmode, hbus, -Fin.getElem_fin]), if_neg (not_not_intro hmode), hidle]

theorem canBusOffRecovery_recovers {c : Fin 4} {s : State} (hruns : canRuns s = true) (hbus : s.can.ctl[c].bus = 2)
    (hasked : s.can.ctl[c].cfg.autoRecover = true ∨ s.can.ctl[c].recover = true)
    (htime : 2 * s.can.ctl[c].busOffAt + 1408 * s.can.ctl[c].cfg.nominal.bitTime ≤ 2 * s.nowNs) :
    exec (.canBusOffRecovery c) s = .next (trySend c (onCtl c CanCtl.recovered s)) := by
  have hwait : decide (2 * s.nowNs < 2 * s.can.ctl[c].busOffAt + 1408 * s.can.ctl[c].cfg.nominal.bitTime) = false :=
    decide_eq_false (Nat.not_lt.mpr htime)
  change execCanBusOffRecovery c s = _
  rw [execCanBusOffRecovery, hwait, if_neg (by simp [hruns, hbus, -Fin.getElem_fin]), if_pos ((Bool.or_eq_true ..).mpr hasked)]

/-! ## The time-triggered cycle -/

theorem canCycleStart_first {c : Fin 4} {s : State} {p n : Nat} (hruns : canRuns s = true) (hmode : s.can.ctl[c].cfg.mode ≠ 0)
    (hsource : s.can.ctl[c].tt.source = 0) (hpresent : s.can.ctl[c].tt.absent = false) (hsync : s.can.ctl[c].ttSync = false)
    (hp : p = max s.can.ctl[c].tt.cycleNs 1) (hn : n = canTime s.can.ctl[c] s / p * p) :
    exec (.canCycleStart c true) s = .next (startWindow c 0 true (onCtl c (fun x => { x with
      cycleStart := n, ttSync := true, ttCycle := n % 1000000000 / p % max x.tt.cycles 1 }) (missMany c 0 s))) := by
  change execCanCycleStart c true s = _
  unfold execCanCycleStart
  extract_lets x p' t start number passed rest lost s1 s2 y
  have hperiod : p' = p := hp.symm
  have hstart : start = n := by rw [hn, ← hperiod]
  have hpassed : passed = 0 := if_neg (by rw [hsync]; exact Bool.false_ne_true)
  have hrest : rest = 0 := if_neg (by rw [hsync]; exact Bool.false_ne_true)
  have hlost : lost = 0 := by simp only [lost, hpassed, hrest, List.range_zero, List.map_nil, List.sum_nil, Nat.add_zero]
  have hfirst : s1 = onCtl c (fun x => { x with
      cycleStart := n, ttSync := true, ttCycle := n % 1000000000 / p % max x.tt.cycles 1 }) (missMany c 0 s) := by
    simp only [s1, number, hlost, hstart, hperiod]
    rfl
  rw [if_neg (by simp [x, hruns, hmode, hsource, hpresent, hsync, -Fin.getElem_fin]), if_neg fun h => absurd (hsource.symm.trans h.1) (by decide)]
  simp only [s2, hfirst]

theorem canBufferFreeze_freezes {c : Fin 4} {w : Nat} {f : CanFrame} {s : State} (hruns : canRuns s = true)
    (hmode : s.can.ctl[c].cfg.mode ≠ 0) (hsync : s.can.ctl[c].ttSync = true) (hnext : s.can.ctl[c].nextWindow = some w)
    (htime : ((s.can.ctl[c].tt.span w).1 : Int) ≤ s.can.ctl[c].pos s + 2000)
    (hexclusive : (s.can.ctl[c].tt.cell s.can.ctl[c].ttCycle w).1 = 0) (hfree : s.can.ctl[c].ttFrozen = none)
    (hbuffer : getKey (s.can.ctl[c].tt.cell s.can.ctl[c].ttCycle w).2 s.can.ctl[c].ttBuf = some f) :
    exec (.canBufferFreeze c) s = .next (onCtl c (fun x => { x with
      ttFrozen := some ((s.can.ctl[c].tt.cell s.can.ctl[c].ttCycle w).2, f) }) s) := by
  have hwait : decide (s.can.ctl[c].pos s + 2000 < ((s.can.ctl[c].tt.span w).1 : Int)) = false := decide_eq_false (Int.not_lt.mpr htime)
  change execCanBufferFreeze c s = _
  rw [execCanBufferFreeze, freezeBuffer, hnext]
  dsimp only
  rw [hwait, if_neg (by simp [hruns, hmode, hsync, hexclusive, hfree, -Fin.getElem_fin]), hbuffer]

theorem canWindowStart_starts {c : Fin 4} {w : Nat} {i : Bool} {s : State} (hruns : canRuns s = true)
    (hmode : s.can.ctl[c].cfg.mode ≠ 0) (hpresent : s.can.ctl[c].tt.absent = false) (hnext : s.can.ctl[c].nextWindow = some w)
    (htime : ((s.can.ctl[c].tt.span w).1 : Int) ≤ s.can.ctl[c].pos s) :
    exec (.canWindowStart c i) s = .next (startWindow c w i s) := by
  have hwait : decide (s.can.ctl[c].pos s < ((s.can.ctl[c].tt.span w).1 : Int)) = false := decide_eq_false (Int.not_lt.mpr htime)
  change execCanWindowStart c i s = _
  rw [execCanWindowStart, hnext]
  dsimp only
  rw [hwait, if_neg (by simp [hruns, hmode, hpresent, -Fin.getElem_fin])]

theorem refLost_ends {c : Fin 4} {t : Nat} {s : State} (hruns : canRuns s = true) (hlast : s.can.ctl[c].lastRef = some t)
    (hsource : s.can.ctl[c].tt.source = 2) (hsync : s.can.ctl[c].ttSync = true)
    (htime : 2 * t + 3 * s.can.ctl[c].tt.cycleNs ≤ 2 * s.nowNs) : exec (.refLost c) s =
      .next (event 0x0B06 c.val [] (onCtl c (fun x => { x with ttSync := false, fRefLost := true }) s)) := by
  change execRefLost c s = _
  rw [execRefLost, hlast]
  dsimp only
  rw [if_pos ⟨hruns, hsource, hsync, htime⟩]

theorem canDetectDwellEnd_next {c : Fin 4} {s : State} (hruns : canRuns s = true) (hmode : s.can.ctl[c].cfg.mode = 3)
    (htime : s.can.ctl[c].dwellAt + s.can.ctl[c].dwell * 500000 ≤ s.now)
    (hmore : s.can.ctl[c].candidate + 1 < s.can.ctl[c].cands.length) : exec (.canDetectDwellEnd c) s =
      .next (onCtl c (CanCtl.tryCandidate (s.can.ctl[c].candidate + 1) s.now) s) := by
  change execCanDetectDwellEnd c s = _
  rw [execCanDetectDwellEnd]
  dsimp only
  rw [if_neg, if_pos hmore]
  rintro (hother | hstopped | hearly)
  · exact hother hmode
  · simp [hruns] at hstopped
  · exact absurd hearly (Nat.not_lt.mpr htime)

/-- Settles O43: the bus, the time-triggered cycle and the bit-rate detection of the CAN controllers. -/
theorem canEventsComplete : Obligations.CanEventsComplete := by
  unfold Obligations.CanEventsComplete
  exact ⟨fun _ _ _ _ hruns hmode hbus hjoined => canFrameReceived_listening hruns hmode hbus hjoined,
    fun _ _ _ _ hruns hsending => canTxComplete_sent hruns hsending,
    fun _ _ _ hruns hsending => arbitrationLost_retries hruns hsending,
    fun _ _ _ _ hruns hmode hbus hidle => canBusError_received hruns hmode hbus hidle,
    fun _ _ hruns hbus hasked htime => canBusOffRecovery_recovers hruns hbus hasked htime,
    fun _ _ _ _ hruns hmode hsource hpresent hsync hp hn => canCycleStart_first hruns hmode hsource hpresent hsync hp hn,
    fun _ _ _ _ hruns hmode hsync hnext htime hexclusive hfree hbuffer =>
      canBufferFreeze_freezes hruns hmode hsync hnext htime hexclusive hfree hbuffer,
    fun _ _ _ _ hruns hmode hpresent hnext htime => canWindowStart_starts hruns hmode hpresent hnext htime,
    fun _ _ _ hruns hlast hsource hsync htime => refLost_ends hruns hlast hsource hsync htime,
    fun _ _ hruns hmode htime hmore => canDetectDwellEnd_next hruns hmode htime hmore⟩

end Sys2Proof.Machine


/-! SUPPORT.
The events of acquisition and of the threads. -/

namespace Sys2Proof.Machine

/-! ## Acquisition -/

theorem acqChannelSample_samples {c : Fin 64} {s : State} (hruns : acqRuns s = true) (hactive : s.acq.active = true)
    (hon : s.acq.chan[c].sampling = true) (hclock : clockDue s.acq.chan[c] s = true) (hexists : chanExists s.acq.chan[c] s = true) :
    exec (.acqChannelSample c) s = .next (channelSample c s) := by
  change execAcqChannelSample c s = _
  rw [execAcqChannelSample, if_neg (by simp [hruns, hactive, hon, hclock, -Fin.getElem_fin]),
    if_neg (by simp [hexists, -Fin.getElem_fin])]

theorem acqPinChange_keeps {b : BitVec 8} {s v : State} (hv : v = (s.onAcq fun x => { x with pins := b }))
    (hnot : pinsSampled v = false) : exec (.acqPinChange b) s = .next v := by
  change execAcqPinChange b s = _
  rw [execAcqPinChange, ← hv, if_neg (by simp [hnot])]

theorem sum_map_mul_left {α : Type} (c : Nat) (f : α → Nat) (l : List α) : (l.map fun x => c * f x).sum = c * (l.map f).sum := by
  induction l with
  | nil => rfl
  | cons x l ih => rw [List.map_cons, List.map_cons, List.sum_cons, List.sum_cons, ih, Nat.mul_add]

/-- A sum of weighted bits has the bits it was made of. -/
theorem testBit_sum_bits : ∀ {n : Nat} (f : Fin n → Bool) (j : Nat),
    (((List.finRange n).map fun k => bit (f k) * 2 ^ k.val).sum).testBit j = if h : j < n then f ⟨j, h⟩ else false
  | 0, _, j => by simp
  | n + 1, f, j => by
    have hsplit : ((List.finRange (n + 1)).map fun k => bit (f k) * 2 ^ k.val).sum =
        bit (f 0) + 2 * ((List.finRange n).map fun k => bit (f k.succ) * 2 ^ k.val).sum := by
      have hdouble (k : Fin n) : bit (f k.succ) * 2 ^ k.succ.val = 2 * (bit (f k.succ) * 2 ^ k.val) := by
        rw [Fin.val_succ, Nat.pow_succ, Nat.mul_comm 2, Nat.mul_assoc]
      rw [List.finRange_succ, List.map_cons, List.sum_cons, List.map_map, ← sum_map_mul_left]
      exact congr (congrArg HAdd.hAdd (Nat.mul_one _)) (congrArg List.sum (List.map_congr_left fun k _ => hdouble k))
    have hbit : bit (f 0) < 2 := by cases f 0 <;> decide
    rw [hsplit]
    cases j with
    | zero =>
      rw [Nat.testBit_zero, Nat.add_mul_mod_self_left, dif_pos (Nat.succ_pos n)]
      change decide (bit (f 0) % 2 = 1) = f 0
      cases f 0 <;> rfl
    | succ j =>
      rw [Nat.testBit_succ, Nat.add_mul_div_left _ _ (by decide), Nat.div_eq_of_lt hbit, Nat.zero_add, testBit_sum_bits]
      simp [Fin.succ]

/-- The units of an occurrence whose conditions stand in their kind. -/
theorem occurringUnits_eq {b : BitVec 8} {on : BitVec 9} {s : State}
    (hon : ∀ u : Fin 8, on.getLsbD u.val = (b.getLsbD u.val && decide (3 ≤ s.acq.trig[u].kind ∧ s.acq.trig[u].kind ≤ 6)))
    (hforce : on.getLsbD 8 = false) : BitVec.ofNat 9
      ((List.finRange 8).map fun (u : Fin 8) => bit (b.getLsbD u.val && within 3 6 s.acq.trig[u].kind) * 2 ^ u.val).sum = on := by
  apply BitVec.eq_of_getLsbD_eq
  intro i hi
  rw [BitVec.getLsbD_ofNat, testBit_sum_bits fun u : Fin 8 => b.getLsbD u.val && within 3 6 s.acq.trig[u].kind]
  by_cases hunit : i < 8
  · rw [dif_pos hunit, hon ⟨i, hunit⟩]
    simp [hi, within]
  · obtain rfl : i = 8 := by omega
    rw [hforce]
    rfl

theorem acqTriggerOccurrence_occurs {b : BitVec 8} {on : BitVec 9} {s : State} (hruns : acqRuns s = true)
    (hon : ∀ u : Fin 8, on.getLsbD u.val = (b.getLsbD u.val && decide (3 ≤ s.acq.trig[u].kind ∧ s.acq.trig[u].kind ≤ 6)))
    (hforce : on.getLsbD 8 = false) : exec (.acqTriggerOccurrence b) s = .next (occurNow on 0 s) := by
  change execAcqTriggerOccurrence b s = _
  rw [execAcqTriggerOccurrence, if_pos hruns, occurringUnits_eq hon hforce]

theorem acqRearm_arms {g : Fin 64} {t : Nat} {s : State} (hruns : acqRuns s = true) (hst : s.acq.st = 4) (hdue : s.acq.rearmAt = some t)
    (htime : t ≤ s.sysTick) (hfree : freeSegment (s.acq.segment + 1) s.acq = some g) :
    exec .acqRearm s = .next (reselect (arm g s)) := by
  change execAcqRearm s = _
  rw [execAcqRearm, hdue, if_neg (by simp [hruns, hst, htime]), hfree]

theorem acqHoldoffEnd_waits {s : State} (hst : s.acq.st = 5) (hkind : s.acq.holdKind ≠ 2)
    (htime : s.acq.holdoff ≤ 2 * (s.sysTick - s.acq.endTick.getD 0)) :
    exec .acqHoldoffEnd s = .next (awaitSegment (s.onAcq fun b => { b with st := 4 })) := by
  change execAcqHoldoffEnd s = _
  rw [execAcqHoldoffEnd, if_neg (by simp [hst, hkind, Nat.not_lt.mpr htime])]

/-! ## Threads -/

theorem threadStart_starts {l : Fin 8} {t : Fin 512} {s : State} (hhead : queueHead l s = some t) (hgate : lanesGated s = false)
    (hidle : s.lanes.lane[l].thread = none) (hst : s.lanes.thr[t].st = .ready) (hearlier : s.lanes.thr[t].readyAt ≠ s.sysTick)
    (hentry : s.lanes.thr[t].entry < s.lanes.lane[l].prog.length) :
    ∃ v lat, exec (.threadStart l) s = .next (takeLane l t (clearedLane s.lanes.thr[t]) v) ∧
      lat = BitVec.ofNat 16 (min (s.sysTick - s.lanes.thr[t].readyAt) 65535) ∧
      v = onThr t (fun y => { y with
        runs := y.runs + 1, latLast := lat, latMax := if y.latMax < lat then lat else y.latMax }) s := by
  refine ⟨_, _, ?_, rfl, rfl⟩
  change execThreadStart l s = _
  rw [execThreadStart, hhead]
  dsimp only
  rw [if_neg (by simp [hgate, hidle, hst, hearlier, -Fin.getElem_fin]), if_neg (Nat.not_le.mpr hentry)]

theorem threadPreempt_saves {l : Fin 8} {t w : Fin 512} {s : State} (hrunning : s.lanes.lane[l].thread = some t.val)
    (hqueued : w.val ∈ s.lanes.lane[l].queue) (hst : s.lanes.thr[w].st = .ready) (hearlier : s.lanes.thr[w].readyAt ≠ s.sysTick)
    (hpreemptive : s.lanes.thr[w].preemptive = true) (hlevel : s.lanes.thr[t].level < s.lanes.thr[w].level)
    (hgate : lanesGated s = false) (hfree : heldOff s.lanes.lane[l].regs = false) :
    exec (.threadPreempt l) s = .next (onLane l (fun y => { y with
        thread := none, queue := joinHead (levelOf s) t.val y.queue })
      (onThr t (fun y => { y with st := .preempted, saved := some s.lanes.lane[l].regs }) s)) := by
  have hlane : Fin.ofNat 512 t.val = t := Fin.ofNat_val_eq_self t
  have habove : (s.lanes.lane[l].queue.any fun u =>
      s.lanes.thr[Fin.ofNat 512 u].st == .ready && s.lanes.thr[Fin.ofNat 512 u].readyAt != s.sysTick &&
        s.lanes.thr[Fin.ofNat 512 u].preemptive && decide (s.lanes.thr[Fin.ofNat 512 t.val].level < s.lanes.thr[Fin.ofNat 512 u].level)) =
      true := by
    refine List.any_eq_true.mpr ⟨w.val, hqueued, ?_⟩
    simp only [Fin.ofNat_val_eq_self]
    simp [hst, hearlier, hpreemptive, hlevel, -Fin.getElem_fin]
  change execThreadPreempt l s = _
  rw [execThreadPreempt]
  dsimp only
  rw [hrunning]
  dsimp only
  rw [habove, if_neg (by simp [hgate, hfree, -Fin.getElem_fin])]
  simp only [hlane]

theorem threadResume_resumes {l : Fin 8} {t : Fin 512} {r : LaneRegs} {s : State} (hhead : queueHead l s = some t)
    (hgate : lanesGated s = false) (hidle : s.lanes.lane[l].thread = none) (hst : s.lanes.thr[t].st = .preempted)
    (hsaved : s.lanes.thr[t].saved = some r) : exec (.threadResume l) s = .next (takeLane l t r s) := by
  change execThreadResume l s = _
  rw [execThreadResume, hhead]
  dsimp only
  rw [if_neg (by simp [hgate, hidle, hst, -Fin.getElem_fin]), hsaved]
  rfl

theorem dispatchTimerInstant_delivers {k : Fin 16} {s : State} (hout : s.sys.dev ≠ .reset) (hrunning : s.lanes.tmr[k].running = true)
    (hdue : s.lanes.tmr[k].nextAt ≤ (if s.lanes.tmr[k].kind = 2 then s.wall else s.sysTick)) (hnap : s.power.power ≠ .nap)
    (hrest : s.power.power ≠ .rest) : exec (.dispatchTimerInstant k) s =
      .next (occurs 9 k.val 0 (s.onLanes fun n => { n with tmr := upd n.tmr k (Timer.pass 0) })) := by
  have hearly : decide ((if s.lanes.tmr[k].kind = 2 then s.wall else s.sysTick) < s.lanes.tmr[k].nextAt) = false :=
    decide_eq_false (Nat.not_lt.mpr hdue)
  have hawake : (s.power.power == .nap || s.power.power == .rest) = false := by simp [hnap, hrest]
  change execDispatchTimerInstant k s = _
  rw [execDispatchTimerInstant]
  dsimp only
  rw [hearly, hawake, if_neg (by simp [hout, hrunning, -Fin.getElem_fin])]
  rfl

/-- Settles O44: the events of acquisition, of the threads and of the dispatcher's timers. -/
theorem acquisitionAndThreadEventsComplete : Obligations.AcquisitionAndThreadEventsComplete := by
  unfold Obligations.AcquisitionAndThreadEventsComplete
  exact ⟨fun _ _ hruns hactive hon hclock hexists => acqChannelSample_samples hruns hactive hon hclock hexists,
    fun _ _ _ hv hnot => acqPinChange_keeps hv hnot,
    fun _ _ _ hruns hon hforce => acqTriggerOccurrence_occurs hruns hon hforce,
    fun _ _ _ hruns hst hdue htime hfree => acqRearm_arms hruns hst hdue htime hfree,
    fun _ hst hkind htime => acqHoldoffEnd_waits hst hkind htime,
    fun _ _ _ hhead hgate hidle hst hearlier hentry => threadStart_starts hhead hgate hidle hst hearlier hentry,
    fun _ _ _ _ hrunning hqueued hst hearlier hpreemptive hlevel hgate hfree =>
      threadPreempt_saves hrunning hqueued hst hearlier hpreemptive hlevel hgate hfree,
    fun _ _ _ _ hhead hgate hidle hst hsaved => threadResume_resumes hhead hgate hidle hst hsaved,
    fun _ _ hout hrunning hdue hnap hrest => dispatchTimerInstant_delivers hout hrunning hdue hnap hrest⟩

end Sys2Proof.Machine

/-! SUPPORT.
The lane instructions of registers, data memory and accumulators (O45 and O46): a plain instruction that issues is its effect on the
lane's registers, one more issued and the program counter one on. -/

namespace Sys2Proof.Machine

/-! Changes of one lane. -/

theorem onLane_congr {l : Fin 8} {f g : Lane → Lane} {s : State} (h : f s.lanes.lane[l] = g s.lanes.lane[l]) :
    onLane l f s = onLane l g s := by
  have hlane : upd s.lanes.lane l f = upd s.lanes.lane l g := by
    refine Vector.ext fun i hi => ?_
    by_cases hl : l = ⟨i, hi⟩
    · subst hl
      exact (upd_same _ _ _).trans (h.trans (upd_same _ _ _).symm)
    · exact (upd_other _ _ ⟨i, hi⟩ _ hl).trans (upd_other _ _ ⟨i, hi⟩ _ hl).symm
  exact congrArg (fun v => s.onLanes fun n => { n with lane := v }) hlane

theorem onLane_fixed {l : Fin 8} {f : Lane → Lane} {s : State} (h : f s.lanes.lane[l] = s.lanes.lane[l]) : onLane l f s = s := by
  have hlane : upd s.lanes.lane l f = s.lanes.lane := by
    refine Vector.ext fun i hi => ?_
    by_cases hl : l = ⟨i, hi⟩
    · subst hl
      exact (upd_same _ _ _).trans h
    · exact upd_other _ _ ⟨i, hi⟩ _ hl
  exact congrArg (fun v => s.onLanes fun n => { n with lane := v }) hlane

theorem onLane_onLane (l : Fin 8) (f g : Lane → Lane) (s : State) : onLane l f (onLane l g s) = onLane l (fun x => f (g x)) s := by
  have hlane : upd (upd s.lanes.lane l g) l f = upd s.lanes.lane l fun x => f (g x) := by
    refine Vector.ext fun i hi => ?_
    by_cases hl : l = ⟨i, hi⟩
    · subst hl
      exact (upd_same _ _ f).trans ((congrArg f (upd_same _ _ g)).trans (upd_same _ _ fun x => f (g x)).symm)
    · exact (upd_other _ _ ⟨i, hi⟩ f hl).trans ((upd_other _ _ ⟨i, hi⟩ g hl).trans (upd_other _ _ ⟨i, hi⟩ _ hl).symm)
  exact congrArg (fun v => s.onLanes fun n => { n with lane := v }) hlane

theorem passStep_onLane_data (l : Fin 8) (d : List Host.Cell → List Host.Cell) (s : State) :
    passStep l (onLane l (fun y => { y with data := d y.data }) s) = onLane l (fun y => { y with data := d y.data }) (passStep l s) := by
  unfold passStep
  rw [onLane_onLane, onLane_onLane]
  rfl

theorem passStep_regs (l : Fin 8) (s : State) : (passStep l s).lanes.lane[l].regs = s.lanes.lane[l].regs := by
  rw [passStep, onLane_same]

theorem passStep_prog (l : Fin 8) (s : State) : (passStep l s).lanes.lane[l].prog = s.lanes.lane[l].prog := by
  rw [passStep, onLane_same]

theorem passStep_data (l : Fin 8) (s : State) : (passStep l s).lanes.lane[l].data = s.lanes.lane[l].data := by
  rw [passStep, onLane_same]

/-! Issue of a plain instruction. -/

/-- The registers after a plain instruction: no load, repeat or branch was pending before it. -/
theorem advance_plain {w : Word} {o r : LaneRegs} (hload : o.load = none) (hrep : o.rep = none) (hdelay : o.delay = none)
    (hpc : r.pc = o.pc) : LaneRegs.advance w o r = ({ r with issued := o.issued + 1, pc := o.pc + 1 }, o.pc.toNat + 1) := by
  have hnext : BitVec.ofNat 13 (o.pc.toNat + 1) = o.pc + 1 := by
    apply BitVec.eq_of_toNat_eq
    simp [BitVec.toNat_add]
  simp only [LaneRegs.advance, hload, hrep, hdelay, nextPc, hpc, hnext]

theorem regs_of_nothing_pending {x : Lane} (hload : x.regs.load = none) (hrep : x.regs.rep = none) :
    { x with regs := { x.regs with load := none, rep := none } } = x := by
  have heta : { x with regs := { x.regs with load := x.regs.load, rep := x.regs.rep } } = x := rfl
  rwa [hload, hrep] at heta

/-- An instruction that issues, whose effect changes its own lane alone and neither its program nor its program counter. -/
theorem laneCommand_of_issues {code : Nat} {eff : LaneEffect} {l : Fin 8} {t : Fin 512} {w : Word} {s : State} {g : Lane → Lane}
    (h : Issues code l t w s) (heff : eff l t w (passStep l s) = .ok (onLane l g (passStep l s)))
    (hpc : (g (passStep l s).lanes.lane[l]).regs.pc = s.lanes.lane[l].regs.pc)
    (hprog : (g (passStep l s).lanes.lane[l]).prog = s.lanes.lane[l].prog) :
    laneCommand code eff l s = .next (onLane l (fun x =>
      { g x with regs := { (g x).regs with issued := x.regs.issued + 1, pc := x.regs.pc + 1 } }) (passStep l s)) := by
  obtain ⟨hword, hop, hsound, hload, hrep, hdelay, hbudget, hlength⟩ := h
  have hclean : onLaneRegs l (fun r => { r with load := none, rep := none }) (passStep l s) = passStep l s := by
    refine onLane_fixed (regs_of_nothing_pending ?_ ?_) <;> rw [passStep_regs] <;> assumption
  have hregs := passStep_regs l s
  have hsame : (onLane l g (passStep l s)).lanes.lane[l] = g (passStep l s).lanes.lane[l] := onLane_same l g _
  have hadv := advance_plain (w := w) hload hrep hdelay hpc
  have hafter : onLaneRegs l (fun _ => { (g (passStep l s).lanes.lane[l]).regs with
        issued := s.lanes.lane[l].regs.issued + 1, pc := s.lanes.lane[l].regs.pc + 1 }) (onLane l g (passStep l s)) =
      onLane l (fun x => { g x with regs := { (g x).regs with issued := x.regs.issued + 1, pc := x.regs.pc + 1 } }) (passStep l s) := by
    unfold onLaneRegs
    rw [onLane_onLane]
    refine onLane_congr ?_
    rw [hregs]
  unfold laneCommand issue
  rw [hword]
  dsimp only
  rw [if_neg (by simp [hop]), hclean, heff, hregs]
  dsimp only
  rw [show poisonedAt (laneProgAddr l s.lanes.lane[l].regs.pc.toNat) (passStep l s) = false from hsound, if_neg Bool.false_ne_true,
    hsame, hadv, hafter]
  dsimp only
  rw [onLane_same]
  congr 1
  refine ite_eq_left_iff.mpr fun _ => ?_
  rw [if_neg, if_neg]
  · rw [hprog]; exact Nat.not_le.mpr hlength
  · exact Nat.not_le.mpr hbudget

/-- An instruction that issues and only works on registers other than the program counter. -/
theorem regsOnly_of_issues {code : Nat} {f : Word → LaneRegs → LaneRegs} {l : Fin 8} {t : Fin 512} {w : Word} {s : State}
    (h : Issues code l t w s) (hpc : ∀ r, (f w r).pc = r.pc) : laneCommand code (regsOnly f) l s = .next (issued l (f w) s) :=
  laneCommand_of_issues h (g := fun x => { x with regs := f w x.regs }) rfl ((hpc _).trans (congrArg _ (passStep_regs l s)))
    (passStep_prog l s)

/-- The same with the change of the registers in another form. -/
theorem regsOnly_of_issues_eq {code : Nat} {f : Word → LaneRegs → LaneRegs} {g : LaneRegs → LaneRegs} {l : Fin 8} {t : Fin 512}
    {w : Word} {s : State} (h : Issues code l t w s) (hfg : ∀ r, f w r = g r) (hpc : ∀ r, (g r).pc = r.pc) :
    laneCommand code (regsOnly f) l s = .next (issued l g s) := by
  obtain rfl : f w = g := funext hfg
  exact regsOnly_of_issues h hpc

/-- Settles O45: each instruction is its one change of the registers. -/
theorem laneArithmeticComplete : Obligations.LaneArithmeticComplete := by
  unfold Obligations.LaneArithmeticComplete
  refine ⟨?nop, ?add, ?sub, ?adds, ?subs, ?mul, ?mulh, ?and, ?or, ?xor, ?shl, ?shr, ?sar, ?min, ?max, ?abs, ?addi, ?lui, ?ori, ?shli,
    ?sari, ?shri⟩ <;> exact fun l t w s h => regsOnly_of_issues h fun _ => rfl

/-! Data memory, address registers and accumulators. -/

theorem postUpdate_pc (w : Word) (r : LaneRegs) : (postUpdate w r).pc = r.pc := by
  unfold postUpdate
  split <;> rfl

theorem laneRead_data {l : Fin 8} {t a : Nat} {s : State} (halign : a % 4 = 0) (ha : a < 0x18000)
    (hsound : poisonedAt (laneDataAddr l a) s = false) : laneRead l t a s = .ok (wordAt 0 a s.lanes.lane[l].data, s) := by
  unfold laneRead
  dsimp only
  rw [if_neg (by omega), if_pos ha, hsound]
  rfl

/-- MACX on the registers of a lane with this data memory: the product of the words at its two pointers is added, and both move. -/
def macxRegs (w : Word) (data : List Host.Cell) (r : LaneRegs) : LaneRegs :=
  let i : Fin 8 := Fin.ofNat 8 (wordBits w 21 3)
  let j : Fin 8 := Fin.ofNat 8 (wordBits w 18 3)
  let q := (r.putAcc (accOf w) (r.acc[accOf w].toInt + (wordAt 0 r.x[i].toNat data).toInt * (wordAt 0 r.x[j].toNat data).toInt)).step i
    r.mods[i].toInt
  q.step j q.mods[j].toInt

theorem macxRegs_pc (w : Word) (data : List Host.Cell) (r : LaneRegs) : (macxRegs w data r).pc = r.pc := rfl

/-- What an instruction changes in the registers matters only for the registers the lane has. -/
theorem issued_congr {l : Fin 8} {f g : LaneRegs → LaneRegs} {s : State}
    (h : f s.lanes.lane[l].regs = g s.lanes.lane[l].regs) : issued l f s = issued l g s := by
  refine onLane_congr ?_
  dsimp only
  rw [passStep_regs, h]

/-- Settles O46: loads, stores, pointers and accumulators. -/
theorem laneAccumulatorComplete : Obligations.LaneAccumulatorComplete := by
  unfold Obligations.LaneAccumulatorComplete
  refine ⟨fun l t w s h halign ha hsound => ?ld, fun l t w s h halign ha hsound => ?st, fun l t w s h hsel => ?setX,
    fun l t w s h hsel => ?setM, fun l t w s h hsel => ?setB, fun l t w s h hsel => ?setL, fun l t w s h => ?getx,
    fun l t w s h => ?clr, fun l t w s h => ?mpy, fun l t w s h => ?mac, fun l t w s h => ?msu,
    fun l t w s i j h hi hj hread => ?macx, fun l t w s h => ?adda, fun l t w s h => ?sha, fun l t w s h => ?exp,
    fun l t w s h => ?norm, fun l t w s v c h hv hc => ?movah, fun l t w s h => ?lda⟩
  case ld =>
    have hregs := passStep_regs l s
    refine laneCommand_of_issues h (g := fun x => { x with regs := postUpdate w { x.regs with
      load := some ((rd w).val, wordAt 0 (effAddr w x.regs) s.lanes.lane[l].data) } }) ?_ ?_ (passStep_prog l s)
    · unfold laneLoad
      dsimp only
      rw [hregs, laneRead_data (s := passStep l s) halign ha hsound, passStep_data]
      refine congrArg Except.ok (onLane_congr ?_)
      rw [hregs]
    · rw [postUpdate_pc, hregs]
  case st =>
    have hregs := passStep_regs l s
    have hstore := laneCommand_of_issues (eff := laneStore) h (g := fun x => { x with
      data := wordPut 0 (effAddr w s.lanes.lane[l].regs) s.lanes.lane[l].regs.d[rd w] x.data
      regs := postUpdate w x.regs }) ?_ ?_ (passStep_prog l s)
    · refine hstore.trans ?_
      rw [issued, passStep_onLane_data, onLaneRegs, onLane_onLane]
    · unfold laneStore
      dsimp only
      rw [hregs, laneWrite_data (s := passStep l s) halign ha hsound]
      exact congrArg Except.ok (onLane_onLane l _ _ _)
    · rw [postUpdate_pc, hregs]
  case setX | setM | setB | setL => exact regsOnly_of_issues_eq h (fun r => by simp only [hsel]) fun _ => rfl
  case getx =>
    refine regsOnly_of_issues_eq h (fun r => ?_) fun _ => rfl
    generalize wordBits w 24 2 = k
    match k with
    | 0 => rfl
    | 1 => rfl
    | 2 => rfl
    | n + 3 => rfl
  case macx =>
    have hregs := passStep_regs l s
    obtain ⟨hai, hbi, hsi⟩ := hread i (.inl rfl)
    obtain ⟨haj, hbj, hsj⟩ := hread j (.inr rfl)
    obtain rfl : Fin.ofNat 8 (wordBits w 21 3) = i := Fin.ext (by simp [← hi])
    obtain rfl : Fin.ofNat 8 (wordBits w 18 3) = j := Fin.ext (by simp [← hj])
    refine laneCommand_of_issues h (g := fun x => { x with regs := macxRegs w s.lanes.lane[l].data x.regs }) ?_
      ((macxRegs_pc w _ _).trans (congrArg LaneRegs.pc hregs)) (passStep_prog l s)
    unfold laneMacx
    dsimp only
    rw [hregs, laneRead_data (s := passStep l s) hai hbi hsi, passStep_data]
    dsimp only
    rw [laneRead_data (s := passStep l s) haj hbj hsj, passStep_data]
    refine congrArg Except.ok (onLane_congr ?_)
    rw [hregs]
    rfl
  case movah =>
    subst hc hv
    exact (regsOnly_of_issues h fun _ => rfl).trans (congrArg _ (issued_congr rfl))
  case clr | mpy | mac | msu | adda | sha | exp | norm | lda => exact regsOnly_of_issues h fun _ => rfl

end Sys2Proof.Machine

/-! SUPPORT.
Refused packets (R60, R77): what O54 turns on. It holds if Gardener's table refuses no access that a command needs
(`refusalsLeaveNoEffect_of_nothing_forbidden`). If it can refuse one of PING's, O54 fails (`not_refusalsLeaveNoEffect_of_pingAccess`):
the model's reply to it is `deny .denied`, with a DETAIL TLV (Table 4.3), and O54's is a DENIED without any. Which accesses a command
needs is `Config.commandAccesses`, a constant without a body (log entry 6), so neither side can be discharged. -/

namespace Sys2Proof.Machine

/-! What sending a reply changes. -/

/-- The state t is s with other replies, windows, held duplicates and counts of AUTH_FAIL, and nothing else. -/
def State.replied (s t : State) : Prop :=
  t = s.onPkts fun k => { k with
    outbox := t.pkts.outbox, waiting := t.pkts.waiting, udpOut := t.pkts.udpOut, windows := t.pkts.windows
    held := t.pkts.held, authFails := t.pkts.authFails, lockouts := t.pkts.lockouts }

theorem State.replied.trans {s t u : State} (h : s.replied t) (k : t.replied u) : s.replied u := by
  unfold State.replied at k ⊢
  rw [show t = _ from h] at k
  exact k

theorem State.replied.same {s t : State} (h : s.replied t) {b : Block} (hb : b ≠ .pkts) : b.same s t := by
  rw [show t = _ from h]
  cases b with
  | pkts => exact absurd rfl hb
  | flash => exact fun _ => rfl
  | ldata => exact fun _ => rfl
  | _ => exact rfl

theorem State.replied.queues {s t : State} (h : s.replied t) : t.pkts.pending = s.pkts.pending ∧
    t.pkts.executing = s.pkts.executing ∧ t.pkts.blocked = s.pkts.blocked ∧ t.pkts.inbox = s.pkts.inbox ∧
    t.pkts.keys = s.pkts.keys ∧ t.pkts.policy = s.pkts.policy ∧ t.pkts.challenge = s.pkts.challenge := by
  rw [show t = _ from h]
  exact ⟨rfl, rfl, rfl, rfl, rfl, rfl, rfl⟩

theorem emit_replied (src : Source) (p : List Byte) (s : State) : s.replied (emit src p s) := by
  unfold emit
  dsimp only
  cases src with
  | hostPort =>
    dsimp only [State.onPkts]
    split <;> exact rfl
  | udp a p => exact rfl

theorem countAuthFail_replied (src : Source) (st : Status) (s : State) : s.replied (countAuthFail src st s) := by
  unfold countAuthFail
  split <;> exact rfl

theorem cacheReply_replied (rq : Request) (p : List Byte) (s : State) : s.replied (cacheReply rq p s) := rfl

theorem foldl_emit_replied {α : Type} (src : Source) (p : List Byte) (l : List α) (s : State) :
    s.replied (l.foldl (fun s _ => emit src p s) s) := by
  induction l generalizing s with
  | nil => exact rfl
  | cons d l ih => exact (emit_replied src p s).trans (ih _)

theorem answerHeld_replied (rq : Request) (st : Status) (p : List Byte) (s : State) : s.replied (answerHeld rq st p s) :=
  State.replied.trans (t := s.onPkts fun k => { k with
    held := k.held.filter fun d => !(d.src == rq.src && d.seq == rq.seq && d.epoch == rq.epoch) }) rfl (foldl_emit_replied ..)

theorem sendReply_replied (opcode : Nat) (rq : Request) (st : Status) (l : List Res) (deferred : Bool) (s : State) :
    s.replied (sendReply opcode rq st l deferred s) := by
  have hcached := (countAuthFail_replied rq.src st s).trans (cacheReply_replied rq (replyBytes opcode rq st l deferred s) _)
  unfold sendReply
  dsimp only
  split
  · exact hcached.trans (answerHeld_replied ..)
  · exact (hcached.trans (emit_replied ..)).trans (answerHeld_replied ..)

/-! A command that waits for nothing. -/

section Served

variable {o : Op} {rq : Request} {s : State}

theorem runNow_of_refusal {d : Deny} (h : refusal o rq s = some d) :
    runNow o rq s = sendReply o.opcode rq d.status d.tlvs false s := by
  rw [runNow, h]

/-- A command for at once, or one that needs a forbidden access, is concluded with its outcome. -/
theorem runNow_of_now (h : refusal o rq s = none) (hnow : rq.toe = 0 ∨ (forbidden o rq s).isSome = true) :
    runNow o rq s = conclude o rq false (o.outcome rq s) s := by
  rw [runNow, h]
  dsimp only
  split
  · rfl
  · next hlater =>
    obtain ⟨a, ha⟩ := Option.isSome_iff_exists.mp (hnow.resolve_left hlater)
    rw [ha]

theorem outcome_of_granted (h : forbidden o rq s = none) : o.outcome rq s = o.effect rq s := by
  rw [Op.outcome, h]

theorem outcome_of_forbidden {a : Word × Bool} (h : forbidden o rq s = some a) :
    o.outcome rq s = .fail (noteForbidden a s) (deny .denied) := by
  rw [Op.outcome, h]

/-- A command that its own step-13 checks refuse, or that finds no place to wait in, only sends a reply. -/
theorem runNow_of_deny (h : refusal o rq s = none) (hgranted : forbidden o rq s = none)
    (hdeny : (∃ d, o.effect rq s = .deny d) ∨ rq.toe ≠ 0 ∧ 256 ≤ s.pkts.pending.length) : s.replied (runNow o rq s) := by
  by_cases hnow : rq.toe = 0
  · obtain ⟨d, hd⟩ := hdeny.resolve_right fun hfull => hfull.1 hnow
    rw [runNow_of_now h (.inl hnow), outcome_of_granted hgranted, hd]
    exact sendReply_replied ..
  · rw [runNow, h]
    dsimp only
    rw [if_neg hnow, hgranted]
    dsimp only
    split
    · exact sendReply_replied ..
    · next hpasses =>
      obtain ⟨-, hfull⟩ := hdeny.resolve_left fun ⟨d, hd⟩ => hpasses d hd
      rw [acceptLater, if_pos hfull]
      exact sendReply_replied ..

end Served

/-- O54, if no command that passes steps 7 to 12 needs an access that Gardener's table refuses. -/
theorem refusalsLeaveNoEffect_of_nothing_forbidden (hnone : ∀ o rq s, refusal o rq s = none → forbidden o rq s = none) :
    Obligations.RefusalsLeaveNoEffect := by
  unfold Obligations.RefusalsLeaveNoEffect
  intro c o rq s hc hfree hfirst
  have hexec : exec c s = .next (runNow o rq s) := by
    rw [exec_of_commandOf hc, runCommand, runOp, hfree, hfirst, Bool.or_self, if_neg Bool.false_ne_true]
  refine ⟨fun hrefused => ?_, fun hpass hnow => ?_⟩
  · have hreplied : s.replied (runNow o rq s) := by
      obtain ⟨d, hd⟩ | ⟨hpass, hgranted, hdeny⟩ := hrefused
      · rw [runNow_of_refusal hd]
        exact sendReply_replied ..
      · exact runNow_of_deny hpass hgranted hdeny
    exact ⟨_, hexec, fun b hb => hreplied.same hb, hreplied.queues⟩
  · have hgranted := hnone o rq s hpass
    rw [hexec, runNow_of_now hpass hnow, outcome_of_granted hgranted, hgranted]

/-! PING with an access that it needs and the table refuses. -/

theorem length_be (n v : Nat) : (be n v).length = n := by
  induction n generalizing v with
  | zero => rfl
  | succ n ih => simp [be, ih]

/-- The lengths of the replies sent over UDP. -/
def State.udpLengths (s : State) : List Nat := s.pkts.udpOut.map fun r => r.bytes.length

/-- A PING over UDP. -/
def udpPing : Request := { src := .udp 0 0 }

/-- A reply to a request without a tag has none. -/
theorem sealed_replyBytes (l : List Res) (s t : State) : sealed (replyBytes opPing.opcode udpPing .denied l false s) t =
    replyBytes opPing.opcode udpPing .denied l false s :=
  if_neg (show ¬hasBit (replyFlags udpPing false) 0 = true by decide)

theorem answerHeld_udpLengths {rq : Request} {st : Status} {p : List Byte} {s : State} (hheld : s.pkts.held = []) :
    (answerHeld rq st p s).udpLengths = s.udpLengths := by
  unfold answerHeld
  dsimp only
  rw [hheld]
  rfl

theorem sendReply_udpLengths (l : List Res) {s : State} (hheld : s.pkts.held = []) :
    (sendReply opPing.opcode udpPing .denied l false s).udpLengths =
      s.udpLengths ++ [(replyBytes opPing.opcode udpPing .denied l false s).length] := by
  change (answerHeld udpPing .denied _ (emit udpPing.src _ (cacheReply udpPing _ s))).udpLengths = _
  rw [answerHeld_udpLengths (by exact hheld), State.udpLengths, (emit_udpOut (by decide) _ _).1, List.map_append, List.map_singleton,
    sealed_replyBytes]
  rfl

/-- O54 fails, if PING needs an access: an empty table refuses it, and the reply carries DETAIL. -/
theorem not_refusalsLeaveNoEffect_of_pingAccess {a : Word × Bool} {l : List (Word × Bool)}
    (hneeds : Config.commandAccesses 0x0001 0xFFFF = a :: l) : ¬ Obligations.RefusalsLeaveNoEffect := by
  unfold Obligations.RefusalsLeaveNoEffect
  intro h
  have hforbidden : forbidden opPing udpPing servedState = some a := by
    change (Config.commandAccesses 0x0001 0xFFFF).find? _ = _
    rw [hneeds]
    rfl
  have hpass : refusal opPing udpPing servedState = none := by decide
  have hclaim := (h (.ping udpPing) opPing udpPing servedState rfl rfl rfl).2 hpass (.inl rfl)
  have hmodel : exec (.ping udpPing) servedState = .next (runNow opPing udpPing servedState) := rfl
  rw [hmodel, runNow_of_now hpass (.inl rfl), outcome_of_forbidden hforbidden, hforbidden] at hclaim
  have hsame := congrArg State.udpLengths (Host.Outcome.next.inj hclaim)
  change (sendReply opPing.opcode udpPing .denied _ false _).udpLengths = (sendReply opPing.opcode udpPing .denied _ false _).udpLengths at hsame
  rw [sendReply_udpLengths _ rfl, sendReply_udpLengths _ rfl] at hsame
  have hlengths := List.cons.inj (List.append_cancel_left hsame)
  simp [replyBytes, deny, detail, Res.bytes, length_be] at hlengths

end Sys2Proof.Machine
